-- ==== Sys2Proof/Word.lean ====
section
/-! DEFINITION. The word types of the device and their plainest arithmetic. -/

namespace Sys2Proof

/-- A byte of memory or of a record. -/
abbrev Byte := BitVec 8
/-- A 32-bit register or core word (R9, R360). -/
abbrev Word := BitVec 32
/-- A 64-bit register pair or host address (R9, R48). -/
abbrev DWord := BitVec 64
/-- A byte string, lowest address first. -/
abbrev Bytes := List Byte
/-- A sparse table: entries in strictly rising key order, none equal to the table's default. -/
abbrev SMap (α : Type) := List (Nat × α)

end Sys2Proof
end

