-- ==== Sys2Proof/Syntax.lean ====
section
/-! DEFINITION. The commands of the device: one constructor of `Instr` per row of the opcode table. A command
carries what its sender supplies: the issuing master and the value written, the bytes that a read of host memory
returned, or what the outside world showed the device at that instant. -/

namespace Sys2Proof

/-- A 6-bit master identity (R41). -/
abbrev Master := BitVec 6

/-- Which part of a 64-bit register pair a write carries: one half, or both in one indivisible step (R9, R52). -/
inductive Half where
  | lo | hi | both
  deriving DecidableEq, Repr

/-- The set-up base registers of R54. -/
inductive SetupReg where
  | bstore | itab | clUp | clDown
  deriving DecidableEq, Repr

/-- A read of host memory that the device may have outstanding (R67, R68, R77, R97, R128, R168). -/
inductive HostRead where
  /-- the Hump's read of the Up-ring entry of a line -/
  | upEntry (line : BitVec 19)
  /-- a record read of the oldest waybill of a line that still waits for its records -/
  | records (line : BitVec 19)
  /-- an expected-tag read of a VERIFY_RECORDS being absorbed on a line -/
  | expected (line : BitVec 19)
  /-- a context fill of a line -/
  | fill (line : BitVec 19)
  /-- a payload read of the service or control waybill in flight at a position of its line -/
  | payload (line : BitVec 19) (pos : Nat)
  /-- a read of a general DMA copy -/
  | dma (c : BitVec 2)
  deriving DecidableEq, Repr

/-- What a read addresses: a fabric address, by any master (Window A of the host stands at 0x4016_0000), or an offset of
Window B or C of the host's function (R49, R57, R58). -/
inductive ReadAt where
  | fabric (m : Master) (addr : Word)
  | windowB (off : BitVec 12)
  | windowC (off : BitVec 16)
  deriving DecidableEq, Repr

/-- The core and the predicate field of an instruction (R362, R366). -/
structure Issue where
  core : BitVec 2
  neg : Bool
  p : BitVec 3
  deriving DecidableEq, Repr

/-- How a fed KDE segment, an MAE or LSU job or a DMA copy met the fabric (R24, R32, R316). -/
inductive Access where
  | ok | busError | sealFault
  deriving DecidableEq, Repr

/-- A card as it is put into the slot (R459, R460): whether it negotiates, and its contents in the raw layout of
R463 and R464. -/
structure CardImage where
  /-- the step of R460 at which negotiation fails; 0 when every step passes -/
  failStep : Nat
  cid : Bytes
  /-- 0 SDR104, 1 SDR50, 2 High Speed -/
  bus : BitVec 2
  locked : Bool
  password : Bytes
  /-- the header at LBA 0 and its copy at LBA 8 -/
  hdr0 : Bytes
  hdr8 : Bytes
  /-- 1 MiB units held from LBA 2,048 on -/
  units : List Bytes
  /-- how many units the card has room for -/
  capacity : Nat
  /-- the card was forced-erased and not formatted since -/
  erased : Bool
  deriving DecidableEq, Repr

/-- A tag as the Lookout decodes its reply: the RN16, then PC and EPC (R482, R484, R493). -/
structure TagObs where
  rn : BitVec 16
  pc : BitVec 16
  epc : Bytes
  rssi : Byte
  deriving DecidableEq, Repr

/-- What one inventory slot showed (R481, R482). -/
inductive SlotObs where
  | empty
  /-- a decoding violation or a failed CRC-16: none, in the RN16; otherwise in the reply to the ACK of this RN16 -/
  | collision (rn : Option (BitVec 16))
  | tag (t : TagObs)
  deriving DecidableEq, Repr

/-- A tag answering the enrolment inventory (R491). -/
structure EnrolObs where
  rn : BitVec 16
  tid : Bytes
  passwordZero : Bool
  /-- the step, 2 to 5, whose write or lock the tag refused; 0 where it refused none -/
  refusedAt : Nat
  deriving DecidableEq, Repr

/-- A badge read in a badge round (R492). -/
structure BadgeObs where
  rn : BitVec 16
  person : Byte
  tid : Bytes
  /-- the handle, and the RN16 values that cover the halves of the password -/
  handle : BitVec 16
  cover : BitVec 16 × BitVec 16
  /-- the access password that the tag itself holds -/
  password : Word
  /-- user words 0 to 15; shorter after a short read -/
  user : Bytes
  deriving DecidableEq, Repr

/-- What the antenna meets: the power reflected, and what answers (R479, R481, R491 to R493). -/
structure Air (α : Type) where
  gamma : Byte
  seen : List α
  deriving DecidableEq, Repr

/-- An operand of a command that reads the log, with the serials of the frames that the read then finds lost (R281). -/
structure Reading (α : Type) where
  value : α
  bad : List Nat
  deriving DecidableEq, Repr

/-- An operand of a command that may end with the compare of a digest, and whether comparator B then fails (R315). -/
structure Compared (α : Type) where
  value : α
  split : Bool
  deriving DecidableEq, Repr

/-- What a write of a register carries: 32 bits, or with the high word the 64 bits of a pair, from the host (R49, R52). -/
structure WriteData where
  low : Word
  high : Option Word
  deriving DecidableEq, Repr

/-- What fails at a boot: detectors (R454), and suspect blocks in their second erase (R298). -/
structure BootFails where
  detectors : BitVec 128
  blocks : List (Nat × Nat)
  deriving DecidableEq, Repr

/-- The mask of a Select, and its Truncate bit (R474). -/
structure SelectMask where
  bits : List Bool
  truncate : Bool
  deriving DecidableEq, Repr

/-- A power data object offered by the source (R499, R500). -/
structure Pdo where
  fixed : Bool
  epr : Bool
  mv : Nat
  ma : Nat
  deriving DecidableEq, Repr

/-- The commands of the device. -/
inductive Instr where
  -- registers and the fabric
  | registerWrite (m : Master) (addr : Word) (v : WriteData)
  | rcRead (target : ReadAt) (wide : Bool)
  | fabricReadTimeout (m : Master) (addr : Word) (fetch : Bool)
  | lowHalfRead (m : Master) (addr : Word)
  | clkMeasSelect (m : Master) (v : Word)
  | clkMeasDone (khz : BitVec 24)
  -- host link
  | linkUp (cfg : BitVec 2)
  | linkLoss
  | linkRetrain (cfg : BitVec 2)
  | graceExpiry
  | hotReset
  | flr
  | deviceReset (m : Master)
  | setupBaseWrite (m : Master) (r : SetupReg) (h : Half) (v : DWord)
  | controlLineOpen (m : Master) (v : Word)
  | controlLineClose (m : Master) (v : Word)
  | windowCWrite (off : BitVec 16) (v : DWord)
  | evtPendClear (m : Master) (n : BitVec 5) (ones : Word)
  | msixUnmask (vector : BitVec 11)
  | hostCompletionTimeout (r : HostRead)
  | hostReadError (r : HostRead)
  | statusRequest
  | bulkWaybill (w : Bytes) (payload : Reading Bytes)
  | dmaStart (m : Master) (c dir : BitVec 2)
  | dmaAbort (m : Master) (c : BitVec 2)
  | dmaCopyEnd (c : BitVec 2) (data : Bytes) (outcome : Access)
  -- lines
  | doorbell (off : BitVec 12) (whole : Bool) (v : DWord)
  | admission (line : BitVec 19) (entry : Bytes)
  | entryReadRetry (line : BitVec 19) (entry : Bytes)
  | fillComplete (line : BitVec 19) (slot : Bytes)
  | spillDeparted (line : BitVec 19)
  | indexMirrorWrite (line : BitVec 19)
  -- waybills carried out
  | tagConsist (line : BitVec 19) (records : Bytes)
  | tagRecords (line : BitVec 19) (records : Bytes)
  | verifyConsist (line : BitVec 19) (records : Bytes)
  | verifyRecords (line : BitVec 19) (records expected : Bytes)
  | mark (line : BitVec 19)
  | fence (line : BitVec 19)
  | lineOpen (pos : Nat) (head : Bytes)
  | linePause (pos : Nat)
  | linePauseComplete (target : BitVec 19)
  | lineClose (pos : Nat)
  | sign (line : BitVec 19) (pos : Nat) (msg : Bytes)
  | verifySig (line : BitVec 19) (pos : Nat) (msg keysig : Bytes)
  | kemEncaps (line : BitVec 19) (pos : Nat) (peer : Bytes)
  | kemDecaps (line : BitVec 19) (pos : Nat) (ct : Bytes)
  | derive (line : BitVec 19) (pos : Nat)
  | prove (line : BitVec 19) (pos : Nat)
  | manifestRead (line : BitVec 19) (pos : Nat)
  | logExport (line : BitVec 19) (pos : Reading Nat)
  | relay (line : BitVec 19) (pos : Nat) (block : Bytes)
  | attest (line : BitVec 19) (pos : Nat)
  | timeHint (line : BitVec 19) (pos : Nat)
  | cardExport (line : BitVec 19) (pos : Nat)
  | lookoutInventory (line : BitVec 19) (pos : Nat)
  | imageLoad (line : BitVec 19) (pos : Nat) (chunk : Bytes)
  -- the Marshalling Engine
  | lineKeyDerived (line : BitVec 19)
  | keyWaitTimeout (line : BitVec 19)
  | consistFetched (line : BitVec 19) (records : Bytes)
  | consistAbsorbed (line : BitVec 19) (expected : Bytes)
  | trackSelfTest (t : BitVec 3) (pass : Bool)
  | trackFence (m : Master) (bits : BitVec 8)
  | creditAccount (t : BitVec 3) (micros : Nat)
  -- the Timetable and epochs
  | vigilCountRewrite
  | ttcAdvance (m : Master) (h : Half) (v : DWord)
  | tcxoFailure
  | epochClose
  | rootFrozen
  | manifestSigned
  | manifestStored
  | treeRebuildDone
  | stationStale (slot : BitVec 12)
  -- the branch tree
  | btrDerive (m : Master)
  | installEncaps (m : Master) (peer : Bytes)
  | installDecaps (m : Master) (ct : Bytes)
  | invalidate (m : Master)
  | purge (m : Master)
  | rotate (m : Master)
  | trunkCreate (m : Master)
  | trunkZeroise (m : Master)
  | backup (m : Master)
  | rescue (m : Master)
  | release (m : Master)
  | btrImport (m : Master)
  | btrCommandDone
  | tableRebuildDone
  | retire (m : Master) (slot : BitVec 12)
  -- flash and the Running Log
  | stagingWriteVerified (ok : Bool)
  | wordlineStripeProgrammed (ok : Bool)
  | flcRead (m : Master)
  | flcProgram (m : Master)
  | flcErase (m : Master)
  | flcClaim (m : Master)
  | flcReturn (m : Master)
  | flashOpDone (ok : Bool)
  | codeWindowFetch (core : BitVec 2) (addr : Word)
  | cwMapWrite (m : Master) (v : Word)
  | nandDieFailed (die : BitVec 2)
  -- the digest engine
  | kdeLockRead (m : Master)
  | kdeLockRelease (m : Master)
  | kdeStart (m : Compared Master)
  | kdeFeed (m : Master)
  | kdeSegmentDone (outcome : Compared Access)
  | kdeSave (m : Master)
  | kdeRestore (m : Master)
  | kdeAbort (m : Master)
  | kdeClear (m : Master)
  -- the arithmetic engine
  | maeLockRead (m : Master)
  | maeLockRelease (m : Master)
  | maeStart (m : Master)
  | maeAbort (m : Master)
  | maeClear (m : Master)
  | maeWipeDone
  | maeJobDone (outcome : Access)
  | maeSlockRead (m : Master)
  | maeSlockRelease (m : Master)
  | maeShortStart (m : Master) (v : Word)
  | maeYieldPoint
  | maeBtrRequest
  -- the lattice unit
  | lsuQpush (m : Master) (addr : Word)
  | laneJobStart (lane : BitVec 2)
  | laneJobDone (lane : BitVec 2) (outcome : Access)
  | lsuFlush (m : Master)
  | lsuFence (m : Master) (bits : BitVec 4)
  | laneSelfTest (lane : BitVec 2) (pass : Bool)
  -- entropy
  | entBiasDone
  | entBlockTested (block : Bytes)
  | entDataRead (m : Master)
  -- Tamem-32, register arithmetic
  | add (i : Issue) (rd ra rb : BitVec 5)
  | sub (i : Issue) (rd ra rb : BitVec 5)
  | and (i : Issue) (rd ra rb : BitVec 5)
  | or (i : Issue) (rd ra rb : BitVec 5)
  | xor (i : Issue) (rd ra rb : BitVec 5)
  | andn (i : Issue) (rd ra rb : BitVec 5)
  | shl (i : Issue) (rd ra rb : BitVec 5)
  | shr (i : Issue) (rd ra rb : BitVec 5)
  | sar (i : Issue) (rd ra rb : BitVec 5)
  | rol (i : Issue) (rd ra rb : BitVec 5)
  | ror (i : Issue) (rd ra rb : BitVec 5)
  | mul (i : Issue) (rd ra rb : BitVec 5)
  | mulh (i : Issue) (rd ra rb : BitVec 5)
  | mulhu (i : Issue) (rd ra rb : BitVec 5)
  | divu (i : Issue) (rd ra rb : BitVec 5)
  | remu (i : Issue) (rd ra rb : BitVec 5)
  | clz (i : Issue) (rd ra : BitVec 5)
  | popc (i : Issue) (rd ra : BitVec 5)
  | addc (i : Issue) (rd ra rb : BitVec 5)
  | subb (i : Issue) (rd ra rb : BitVec 5)
  | addi (i : Issue) (rd ra : BitVec 5) (imm : BitVec 12)
  | andi (i : Issue) (rd ra : BitVec 5) (imm : BitVec 12)
  | ori (i : Issue) (rd ra : BitVec 5) (imm : BitVec 12)
  | xori (i : Issue) (rd ra : BitVec 5) (imm : BitVec 12)
  | shli (i : Issue) (rd ra : BitVec 5) (amt : BitVec 5)
  | shri (i : Issue) (rd ra : BitVec 5) (amt : BitVec 5)
  | sari (i : Issue) (rd ra : BitVec 5) (amt : BitVec 5)
  | roli (i : Issue) (rd ra : BitVec 5) (amt : BitVec 5)
  | rori (i : Issue) (rd ra : BitVec 5) (amt : BitVec 5)
  -- compares
  | cmpeq (i : Issue) (pd : BitVec 3) (pair : Bool) (ra rb : BitVec 5)
  | cmpne (i : Issue) (pd : BitVec 3) (pair : Bool) (ra rb : BitVec 5)
  | cmplt (i : Issue) (pd : BitVec 3) (pair : Bool) (ra rb : BitVec 5)
  | cmpltu (i : Issue) (pd : BitVec 3) (pair : Bool) (ra rb : BitVec 5)
  | cmpge (i : Issue) (pd : BitVec 3) (pair : Bool) (ra rb : BitVec 5)
  | cmpgeu (i : Issue) (pd : BitVec 3) (pair : Bool) (ra rb : BitVec 5)
  | cmptst (i : Issue) (pd : BitVec 3) (pair : Bool) (ra rb : BitVec 5)
  | cmpieq (i : Issue) (pd : BitVec 3) (pair : Bool) (ra : BitVec 5) (imm : BitVec 10)
  | cmpine (i : Issue) (pd : BitVec 3) (pair : Bool) (ra : BitVec 5) (imm : BitVec 10)
  | cmpilt (i : Issue) (pd : BitVec 3) (pair : Bool) (ra : BitVec 5) (imm : BitVec 10)
  | cmpiltu (i : Issue) (pd : BitVec 3) (pair : Bool) (ra : BitVec 5) (imm : BitVec 10)
  | cmpige (i : Issue) (pd : BitVec 3) (pair : Bool) (ra : BitVec 5) (imm : BitVec 10)
  | cmpigeu (i : Issue) (pd : BitVec 3) (pair : Bool) (ra : BitVec 5) (imm : BitVec 10)
  | cmpitst (i : Issue) (pd : BitVec 3) (pair : Bool) (ra : BitVec 5) (imm : BitVec 10)
  -- predicate logic
  | pand (i : Issue) (pd pa pb : BitVec 3)
  | por (i : Issue) (pd pa pb : BitVec 3)
  | pxor (i : Issue) (pd pa pb : BitVec 3)
  | pandn (i : Issue) (pd pa pb : BitVec 3)
  | pnot (i : Issue) (pd pa : BitVec 3)
  | pset (i : Issue) (pd : BitVec 3)
  | pclr (i : Issue) (pd : BitVec 3)
  -- loads and stores
  | ldb (i : Issue) (rd ra : BitVec 5) (imm : BitVec 12)
  | ldbu (i : Issue) (rd ra : BitVec 5) (imm : BitVec 12)
  | ldh (i : Issue) (rd ra : BitVec 5) (imm : BitVec 12)
  | ldhu (i : Issue) (rd ra : BitVec 5) (imm : BitVec 12)
  | ldw (i : Issue) (rd ra : BitVec 5) (imm : BitVec 12)
  | stb (i : Issue) (rs ra : BitVec 5) (imm : BitVec 12)
  | sth (i : Issue) (rs ra : BitVec 5) (imm : BitVec 12)
  | stw (i : Issue) (rs ra : BitVec 5) (imm : BitVec 12)
  -- control flow
  | br (i : Issue) (off : BitVec 22)
  | call (i : Issue) (off : BitVec 22)
  | jr (i : Issue) (ra : BitVec 5)
  | callr (i : Issue) (ra : BitVec 5)
  | ret (i : Issue)
  | loop (i : Issue) (wc : BitVec 5) (len : BitVec 8)
  | lbreak (i : Issue)
  -- system
  | syscall (i : Issue) (code : BitVec 10)
  | wcall (i : Issue) (code : BitVec 10)
  | retx (i : Issue)
  | waitf (i : Issue) (rd : BitVec 5)
  | waitfWake (core : BitVec 2)
  | sigf (i : Issue) (mask : BitVec 4)
  | waitt (i : Issue) (pd : BitVec 3) (ra : BitVec 5)
  | waittComplete (core : BitVec 2)
  | bar (i : Issue)
  | mfs (i : Issue) (rd spec : BitVec 5)
  | mts (i : Issue) (spec ra : BitVec 5)
  | rstopPop (i : Issue) (rd : BitVec 5)
  | rstopPush (i : Issue) (ra : BitVec 5)
  | xregRead (i : Issue) (rd : BitVec 5)
  | xregWrite (i : Issue) (ra : BitVec 5)
  | bkpt (i : Issue)
  -- long forms
  | li (i : Issue) (rd : BitVec 5) (imm : Word)
  | addl (i : Issue) (rd ra : BitVec 5) (imm : Word)
  | andl (i : Issue) (rd ra : BitVec 5) (imm : Word)
  | orl (i : Issue) (rd ra : BitVec 5) (imm : Word)
  | xorl (i : Issue) (rd ra : BitVec 5) (imm : Word)
  | calla (i : Issue) (imm : Word)
  | bra (i : Issue) (imm : Word)
  -- long resumable instructions, one command per step of R386
  | bcopy (i : Issue) (wd ws wn : BitVec 5)
  | bzero (i : Issue) (wd wn : BitVec 5)
  | cteq (i : Issue) (pd : BitVec 3) (wa wb wn : BitVec 5)
  | illegalInstruction (core : BitVec 2)
  | interruptTaken (core : BitVec 2)
  -- mailboxes and tablets
  | mbxClaimRead (m : Master) (n : BitVec 4)
  | mbxClaimFree (m : Master) (n : BitVec 4)
  | mbxPost (m : Master) (n : BitVec 4) (v : Word)
  | mbxTake (m : Master) (n : BitVec 4)
  | mbxCfgWrite (m : Master) (n : BitVec 4) (v : Word)
  | tabletRead (m : Master) (t : BitVec 6)
  | tabletRelease (m : Master) (t : BitVec 6)
  -- the Interlocking and debug
  | ilkCommit (m : Master)
  | ilkLoad (m : Master)
  | shadowCompare
  | debugAccess (write : Bool) (addr v : Word)
  | dbgNonceRead (m : Master)
  | dbgCheck
  | dbgArm (m : Master) (arm : BitVec 8)
  | dbgSessionClose (m : Master)
  | debugSessionExpiry
  -- Lineside
  | linesideTrip (src : BitVec 7) (det : BitVec 2)
  | detectorSplit (src : BitVec 7)
  | stickyClear (m : Master) (n : BitVec 2) (ones : Word)
  | classWrite (m : Master) (n : BitVec 2) (hi : Bool) (v : Word)
  | lsmTestStart (m : Master) (src : BitVec 7) (det : Bool)
  | lsmTestDone (tripped : Bool)
  | releaseArm (m : Master)
  | releaseCommit (m : Master)
  | releaseAbort (m : Master)
  | releaseWindowExpiry
  | sourceDeassert (src : BitVec 7)
  -- custody card
  | cardInserted (card : CardImage)
  | cardRemoved
  | cardFormatExport (m : Master)
  | cardFormatBackup (m : Master)
  | cardFormatCredential (m : Master)
  | forceErase (m : Master)
  | forceEraseDone
  | eject (m : Master)
  | cardUnitWritten (ok : Reading Bool)
  | cardBusyTimeout
  -- Lookout
  | selftest (m : Master) (answers : Air TagObs)
  | selftestTimer (answers : Air TagObs)
  | badgeEnrol (m : Master) (tags : Air EnrolObs)
  | stop (m : Master)
  | rebase (m : Master)
  | ping (gamma : Byte)
  | inventorySlot (gamma : Byte) (o : SlotObs)
  | badgeRound (badges : Air BadgeObs)
  -- Tail lamp
  | select (target action : BitVec 3) (bank : BitVec 2) (pointer : Nat) (mask : SelectMask)
  | query (sel session : BitVec 2) (target : Bool) (q : BitVec 4)
  | queryRep (session : BitVec 2)
  | queryAdjust (session : BitVec 2) (updn : BitVec 3)
  | ack (rn : BitVec 16)
  | nak
  | reqRn (rn : BitVec 16)
  | tagRead (rn : BitVec 16) (bank : BitVec 2) (word count : Nat)
  | tagWrite (rn : BitVec 16) (bank : BitVec 2) (word : Nat) (v : BitVec 16) (energy verifyOk : Bool)
  | blockWrite (rn : BitVec 16) (bank : BitVec 2) (word : Nat) (v : List (BitVec 16)) (energy verifyOk : Bool)
  | tagAccess (rn : BitVec 16) (half : BitVec 16)
  | tagLock (rn : BitVec 16)
  | tagKill (rn : BitVec 16)
  | unsupportedCommand (rn : BitVec 16)
  | tailLampUpdate (m : Master)
  | internalUpdateDone (verifyOk : Bool)
  | readerFieldArrival
  | fieldCollapse
  -- power
  | sourceCapabilities (pdos : List Pdo) (eprSource eprCable : Bool)
  | psRdy
  | noCapabilities (adv : BitVec 2)
  | softReset
  | hardReset
  | prSwap
  | drSwap
  | vconnSwap
  | frSwap
  | disturbanceBegin (mv : BitVec 16)
  | disturbanceEnd (length : BitVec 16)
  | lastGaspSeal
  | bankLow
  | lastGaspEnd (supply : Bool) (duration : BitVec 16)
  | thermalCap (temp : BitVec 12)
  | thermalLift (temp : BitVec 12)
  | cellLow (mv : BitVec 12)
  | vigilPowerLoss
  | mainPowerOn (cap : BitVec 16) (cell : BitVec 12)
  | bankCharged (mv : BitVec 16)
  | powerDieFailure
  -- boot and modes
  | coresReleased (tracksPass : BitVec 8) (lanesPass : BitVec 4) (fails : BootFails)
  | bootComplete
  | modereqMaintenance (m : Master)
  | modereqCommissioning (m : Master) (key sig : Bytes)
  | modereqRunning (m : Master)
  | sysNonceRead (m : Master)
  | imageCommit (m : Master)
  | deadmanKick (m : Master) (n : BitVec 2) (v : Word)
  | deadmanPrewarn (n : BitVec 2)
  | deadmanExpiry (n : BitVec 2)
  -- events and sealed settings
  | evtRouteWrite (m : Master) (src : BitVec 10) (v : Word)
  | sstWrite (m : Master) (idx : BitVec 8) (hi : Bool) (v : Word)
  | sstPersisted
  deriving DecidableEq, Repr

end Sys2Proof
end

