-- ==== Sys2Proof/Decode.lean ====
section
/-! DEFINITION. The Tamem-32 encodings (R362 to R365), and the command that a table word spells: the opcode table gives no row any
bits, so no word of it spells one. -/

namespace Sys2Proof

/-! ### Fields (R362, R363) -/

/-- `n` bits of an instruction word from bit `lo`. -/
def tamField (w : Word) (lo n : Nat) : BitVec n := (w >>> lo).setWidth n

/-- MAJOR. -/
def tamMajor (w : Word) : Nat := (tamField w 22 6).toNat

/-- A long form has a second word. -/
def tamIsLong (w : Word) : Bool := decide (tamMajor w = 0x30)

/-- N and P, and the core that runs the instruction. -/
def tamIssue (core : BitVec 2) (w : Word) : Issue := { core := core, neg := w.getLsbD 31, p := tamField w 28 3 }

def tamRd (w : Word) : BitVec 5 := tamField w 17 5
def tamRa (w : Word) : BitVec 5 := tamField w 12 5
def tamRb (w : Word) : BitVec 5 := tamField w 7 5
def tamPd (w : Word) : BitVec 3 := tamField w 19 3
def tamImm (w : Word) : BitVec 12 := tamField w 0 12

/-- A field that has to be zero is. -/
def tamZero (w : Word) (lo n : Nat) : Bool := decide ((tamField w lo n).toNat = 0)

/-! ### The formats, with the values of FUNC and COND (R363, R364)

Each answers none for a reserved value. Fields that a row of R364 gives no meaning and does not call zero are ignored. -/

/-- Format R of MAJOR 0x01. -/
def decodeR (i : Issue) (w : Word) : Option Instr :=
  let rd := tamRd w
  let ra := tamRa w
  let rb := tamRb w
  match (tamField w 0 7).toNat with
  | 0x00 => some (.add i rd ra rb)
  | 0x01 => some (.sub i rd ra rb)
  | 0x02 => some (.and i rd ra rb)
  | 0x03 => some (.or i rd ra rb)
  | 0x04 => some (.xor i rd ra rb)
  | 0x05 => some (.andn i rd ra rb)
  | 0x06 => some (.shl i rd ra rb)
  | 0x07 => some (.shr i rd ra rb)
  | 0x08 => some (.sar i rd ra rb)
  | 0x09 => some (.rol i rd ra rb)
  | 0x0A => some (.ror i rd ra rb)
  | 0x0B => some (.mul i rd ra rb)
  | 0x0C => some (.mulh i rd ra rb)
  | 0x0D => some (.mulhu i rd ra rb)
  | 0x0E => some (.divu i rd ra rb)
  | 0x0F => some (.remu i rd ra rb)
  | 0x10 => some (.clz i rd ra)
  | 0x11 => some (.popc i rd ra)
  | 0x12 => some (.addc i rd ra rb)
  | 0x13 => some (.subb i rd ra rb)
  | _ => none

/-- MAJOR 0x06: the shift by an immediate amount. -/
def decodeShift (i : Issue) (w : Word) : Option Instr :=
  let amt : BitVec 5 := tamField w 0 5
  if !tamZero w 8 4 then none
  else
    match (tamField w 5 3).toNat with
    | 0 => some (.shli i (tamRd w) (tamRa w) amt)
    | 1 => some (.shri i (tamRd w) (tamRa w) amt)
    | 2 => some (.sari i (tamRd w) (tamRa w) amt)
    | 3 => some (.roli i (tamRd w) (tamRa w) amt)
    | 4 => some (.rori i (tamRd w) (tamRa w) amt)
    | _ => none

/-- Format C: a compare of registers. -/
def decodeC (i : Issue) (w : Word) : Option Instr :=
  let pd := tamPd w
  let pair := w.getLsbD 18
  let ra := tamRa w
  let rb := tamRb w
  if !tamZero w 17 1 then none
  else
    match (tamField w 0 7).toNat with
    | 0 => some (.cmpeq i pd pair ra rb)
    | 1 => some (.cmpne i pd pair ra rb)
    | 2 => some (.cmplt i pd pair ra rb)
    | 3 => some (.cmpltu i pd pair ra rb)
    | 4 => some (.cmpge i pd pair ra rb)
    | 5 => some (.cmpgeu i pd pair ra rb)
    | 6 => some (.cmptst i pd pair ra rb)
    | _ => none

/-- Format K: a compare with imm10. -/
def decodeK (i : Issue) (w : Word) : Option Instr :=
  let pd := tamPd w
  let pair := w.getLsbD 18
  let ra : BitVec 5 := tamField w 10 5
  let imm : BitVec 10 := tamField w 0 10
  match (tamField w 15 3).toNat with
  | 0 => some (.cmpieq i pd pair ra imm)
  | 1 => some (.cmpine i pd pair ra imm)
  | 2 => some (.cmpilt i pd pair ra imm)
  | 3 => some (.cmpiltu i pd pair ra imm)
  | 4 => some (.cmpige i pd pair ra imm)
  | 5 => some (.cmpigeu i pd pair ra imm)
  | 6 => some (.cmpitst i pd pair ra imm)
  | _ => none

/-- Format Q: predicate logic. -/
def decodeQ (i : Issue) (w : Word) : Option Instr :=
  let pd := tamPd w
  let pa : BitVec 3 := tamField w 16 3
  let pb : BitVec 3 := tamField w 13 3
  if !tamZero w 0 10 then none
  else
    match (tamField w 10 3).toNat with
    | 0 => some (.pand i pd pa pb)
    | 1 => some (.por i pd pa pb)
    | 2 => some (.pxor i pd pa pb)
    | 3 => some (.pandn i pd pa pb)
    | 4 => some (.pnot i pd pa)
    | 5 => some (.pset i pd)
    | 6 => some (.pclr i pd)
    | _ => none

/-- MAJOR 0x22: jumps through a register, and RET. -/
def decodeJump (i : Issue) (w : Word) : Option Instr :=
  if !tamZero w 17 5 || !tamZero w 7 5 then none
  else
    match (tamField w 0 7).toNat with
    | 0 => some (.jr i (tamRa w))
    | 1 => some (.callr i (tamRa w))
    | 2 => some (.ret i)
    | _ => none

/-- MFS of RSTOP and XREG have rows of their own (R404). -/
def decodeMfs (i : Issue) (w : Word) : Instr :=
  match (tamRb w).toNat with
  | 0x05 => .rstopPop i (tamRd w)
  | 0x07 => .xregRead i (tamRd w)
  | _ => .mfs i (tamRd w) (tamRb w)

def decodeMts (i : Issue) (w : Word) : Instr :=
  match (tamRb w).toNat with
  | 0x05 => .rstopPush i (tamRa w)
  | 0x07 => .xregWrite i (tamRa w)
  | _ => .mts i (tamRb w) (tamRa w)

/-- Format S. -/
def decodeS (i : Issue) (w : Word) : Option Instr :=
  match (tamField w 0 7).toNat with
  | 0x00 => some (.syscall i (tamField w 7 10))
  | 0x01 => some (.wcall i (tamField w 7 10))
  | 0x02 => some (.retx i)
  | 0x03 => some (.waitf i (tamRd w))
  | 0x04 => some (.sigf i (tamField w 7 4))
  | 0x05 => some (.waitt i (tamPd w) (tamRa w))
  | 0x06 => some (.bar i)
  | 0x07 => some (decodeMfs i w)
  | 0x08 => some (decodeMts i w)
  | 0x09 => some (.bkpt i)
  | _ => none

/-- Format L, with the second word. -/
def decodeL (i : Issue) (w imm : Word) : Option Instr :=
  if !tamZero w 7 5 then none
  else
    match (tamField w 0 7).toNat with
    | 0 => some (.li i (tamRd w) imm)
    | 1 => some (.addl i (tamRd w) (tamRa w) imm)
    | 2 => some (.andl i (tamRd w) (tamRa w) imm)
    | 3 => some (.orl i (tamRd w) (tamRa w) imm)
    | 4 => some (.xorl i (tamRd w) (tamRa w) imm)
    | 5 => some (.calla i imm)
    | 6 => some (.bra i imm)
    | _ => none

/-- Format X. -/
def decodeX (i : Issue) (w : Word) : Option Instr :=
  if !tamZero w 3 1 then none
  else
    match (tamField w 0 3).toNat with
    | 0 => some (.bcopy i (tamRd w) (tamRa w) (tamRb w))
    | 1 => some (.bzero i (tamRd w) (tamRb w))
    | 2 => some (.cteq i (tamField w 4 3) (tamRd w) (tamRa w) (tamRb w))
    | _ => none

/-! ### The decoder (R364, R365) -/

/-- The instruction of a word, and of the second word of a long form; none for a reserved value. -/
def decodeTamem? (core : BitVec 2) (w imm : Word) : Option Instr :=
  let i := tamIssue core w
  let rd := tamRd w
  let ra := tamRa w
  let k := tamImm w
  match tamMajor w with
  | 0x01 => decodeR i w
  | 0x02 => some (.addi i rd ra k)
  | 0x03 => some (.andi i rd ra k)
  | 0x04 => some (.ori i rd ra k)
  | 0x05 => some (.xori i rd ra k)
  | 0x06 => decodeShift i w
  | 0x08 => decodeC i w
  | 0x09 => decodeK i w
  | 0x0A => decodeQ i w
  | 0x10 => some (.ldb i rd ra k)
  | 0x11 => some (.ldbu i rd ra k)
  | 0x12 => some (.ldh i rd ra k)
  | 0x13 => some (.ldhu i rd ra k)
  | 0x14 => some (.ldw i rd ra k)
  | 0x18 => some (.stb i rd ra k)
  | 0x19 => some (.sth i rd ra k)
  | 0x1A => some (.stw i rd ra k)
  | 0x20 => some (.br i (tamField w 0 22))
  | 0x21 => some (.call i (tamField w 0 22))
  | 0x22 => decodeJump i w
  | 0x23 => if tamZero w 0 9 then some (.loop i rd (tamField w 9 8)) else none
  | 0x24 => if tamZero w 0 22 then some (.lbreak i) else none
  | 0x28 => decodeS i w
  | 0x30 => decodeL i w imm
  | 0x38 => decodeX i w
  | _ => none

/-- The command that a core runs for the words at its program counter: the row of the instruction, or the illegal-instruction
exception (R365). -/
def decodeTamem (core : BitVec 2) (w imm : Word) : Instr := (decodeTamem? core w imm).getD (.illegalInstruction core)

/-! ### The opcode table -/

/-- No row of the table has bits: no word spells a command. -/
def decodeTableWord (nbits w : Nat) : Option Instr :=
  match nbits, w with
  | _, _ => none

end Sys2Proof
end

