-- ==== Sys2Proof/Machine/Bits.lean ====
section
/-! DEFINITION. Byte order, bit fields and sign extension (R8, R9). -/

namespace Sys2Proof.Machine

/-- `n` little-endian bytes of a number (R8). -/
def le : Nat → Nat → Bytes
  | 0, _ => []
  | n + 1, v => BitVec.ofNat 8 v :: le n (v / 256)

/-- The number little-endian bytes spell. -/
def ofLe : Bytes → Nat
  | [] => 0
  | b :: r => b.toNat + 256 * ofLe r

/-- `n` bytes from offset `o`, zero beyond the end. -/
def slice (b : Bytes) (o n : Nat) : Bytes :=
  let t := (b.drop o).take n
  t ++ List.replicate (n - t.length) 0

/-- Little-endian number of `n` bytes at offset `o`. -/
def num (b : Bytes) (o n : Nat) : Nat := ofLe ((b.drop o).take n)

/-- Byte at an offset. -/
def byteAt (b : Bytes) (o : Nat) : Nat := (b.getD o 0).toNat

/-- Put bytes over a byte string at an offset, keeping its length. -/
def patch (b : Bytes) (o : Nat) (v : Bytes) : Bytes := (slice b 0 o ++ v ++ b.drop (o + v.length)).take b.length

def allZero (b : Bytes) : Bool := b.all (fun x => decide (x = 0))

/-- Bytes of a literal. -/
def ascii (s : String) : Bytes := s.toList.map (fun c => BitVec.ofNat 8 c.toNat)

/-- Field of `n` bits from bit `lo`. -/
def bitsOf (w : Word) (lo n : Nat) : Nat := (w.toNat >>> lo) % 2 ^ n

def bit (w : Word) (i : Nat) : Bool := w.getLsbD i

/-- Mask of `n` bits from bit `lo`. -/
def fmask (lo n : Nat) : Word := BitVec.ofNat 32 ((2 ^ n - 1) <<< lo)

/-- A number placed in a field. -/
def place (lo n v : Nat) : Word := BitVec.ofNat 32 ((v % 2 ^ n) <<< lo)

/-- Replace a field. -/
def withBits (w : Word) (lo n v : Nat) : Word := (w &&& ~~~(fmask lo n)) ||| place lo n v

def b2n (b : Bool) : Nat := if b then 1 else 0

/-- A result byte with its bitwise inverse in the next byte (R15). -/
def withInverse (v : Nat) : Word := place 0 8 v ||| place 8 8 (255 - v % 256)

def lo32 (d : DWord) : Word := d.setWidth 32
def hi32 (d : DWord) : Word := (d >>> 32).setWidth 32
def pair64 (hi lo : Word) : DWord := (hi.setWidth 64 <<< 32) ||| lo.setWidth 64

/-- The bytes of a word (R8). -/
def wordBytes (w : Word) : Bytes := le 4 w.toNat

end Sys2Proof.Machine
end

