-- ==== Sys2Proof/Machine/Curves.lean ====
section
/-! DEFINITION. The number-theoretic standards that the spec names and does not restate: modular arithmetic, the NIST curves
P-256, P-384 and P-521, Curve25519, Ed25519 and SHA-512 (R227, R229, R319; log entry 7). -/

namespace Sys2Proof.Machine

/-! ### Bytes and numbers -/

/-- The number big-endian bytes spell. -/
def ofBe (b : Bytes) : Nat := ofLe b.reverse

def be (n v : Nat) : Bytes := (le n v).reverse

/-! ### Modular arithmetic -/

/-- `a ^ e mod m`, over the bits of the exponent; `n` bounds its length. -/
def powModN : Nat → Nat → Nat → Nat → Nat
  | 0, _, _, m => 1 % m
  | n + 1, a, e, m => if e = 0 then 1 % m else powModN n (a * a % m) (e / 2) m * (if e % 2 = 1 then a else 1) % m

def powMod (a e m : Nat) : Nat := powModN (e.log2 + 1) (a % m) e m

/-- The inverse modulo a prime. -/
def invMod (a p : Nat) : Nat := powMod a (p - 2) p

def subMod (a b p : Nat) : Nat := (a % p + p - b % p) % p

/-! ### Short Weierstrass curves with a = −3 -/

structure Curve where
  p : Nat
  b : Nat
  n : Nat
  gx : Nat
  gy : Nat
  /-- bytes of a coordinate -/
  len : Nat
  deriving DecidableEq, Repr

/-- An affine point; `none` is the point at infinity. -/
abbrev Point := Option (Nat × Nat)

def p256 : Curve :=
  { p := 0xffffffff00000001000000000000000000000000ffffffffffffffffffffffff,
    b := 0x5ac635d8aa3a93e7b3ebbd55769886bc651d06b0cc53b0f63bce3c3e27d2604b,
    n := 0xffffffff00000000ffffffffffffffffbce6faada7179e84f3b9cac2fc632551,
    gx := 0x6b17d1f2e12c4247f8bce6e563a440f277037d812deb33a0f4a13945d898c296,
    gy := 0x4fe342e2fe1a7f9b8ee7eb4a7c0f9e162bce33576b315ececbb6406837bf51f5,
    len := 32 }

def p384 : Curve :=
  { p := 0xfffffffffffffffffffffffffffffffffffffffffffffffffffffffffffffffeffffffff0000000000000000ffffffff,
    b := 0xb3312fa7e23ee7e4988e056be3f82d19181d9c6efe8141120314088f5013875ac656398d8a2ed19d2a85c8edd3ec2aef,
    n := 0xffffffffffffffffffffffffffffffffffffffffffffffffc7634d81f4372ddf581a0db248b0a77aecec196accc52973,
    gx := 0xaa87ca22be8b05378eb1c71ef320ad746e1d3b628ba79b9859f741e082542a385502f25dbf55296c3a545e3872760ab7,
    gy := 0x3617de4a96262c6f5d9e98bf9292dc29f8f41dbd289a147ce9da3113b5f0b8c00a60b1ce1d7e819d7a431d7c90ea0e5f,
    len := 48 }

def p521 : Curve :=
  { p := 0x1ffffffffffffffffffffffffffffffffffffffffffffffffffffffffffffffffffffffffffffffffffffffffffffffffffffffffffffffffffffffffffffffffff,
    b := 0x51953eb9618e1c9a1f929a21a0b68540eea2da725b99b315f3b8b489918ef109e156193951ec7e937b1652c0bd3bb1bf073573df883d2c34f1ef451fd46b503f00,
    n := 0x1fffffffffffffffffffffffffffffffffffffffffffffffffffffffffffffffffa51868783bf2f966b7fcc0148f709a5d03bb5c9b8899c47aebb6fb71e91386409,
    gx := 0xc6858e06b70404e9cd9e3ecb662395b4429c648139053fb521f828af606b4d3dbaa14b5e77efe75928fe1dc127a2ffa8de3348b3c1856a429bf97e7e31c2e5bd66,
    gy := 0x11839296a789a3bc0045c8a5fb42c7d1bd998f54449579b446817afbd17273e662c97ee72995ef42640c550b9013fad0761353c7086a272c24088be94769fd16650,
    len := 66 }

def onCurve (c : Curve) (x y : Nat) : Bool :=
  decide (x < c.p ∧ y < c.p) && decide (y * y % c.p = subMod (x * x * x + c.b) (3 * x) c.p)

def addPoint (c : Curve) : Point → Point → Point
  | none, q => q
  | p, none => p
  | some (x1, y1), some (x2, y2) =>
    if x1 = x2 ∧ (y1 + y2) % c.p = 0 then none
    else
      let l := if x1 = x2 then subMod (3 * x1 * x1) 3 c.p * invMod (2 * y1) c.p % c.p
               else subMod y2 y1 c.p * invMod (subMod x2 x1 c.p) c.p % c.p
      let x := subMod (l * l) (x1 + x2) c.p
      some (x, subMod (l * subMod x1 x c.p) y1 c.p)

def mulPointN (c : Curve) : Nat → Nat → Point → Point
  | 0, _, _ => none
  | n + 1, k, p =>
    if k = 0 then none
    else
      let r := mulPointN c n (k / 2) (addPoint c p p)
      if k % 2 = 1 then addPoint c p r else r

def mulPoint (c : Curve) (k : Nat) (p : Point) : Point := mulPointN c (k.log2 + 1) k p

def basePoint (c : Curve) : Point := some (c.gx, c.gy)

/-- SEC1 uncompressed encoding. -/
def encodePoint (c : Curve) : Point → Bytes
  | none => 0x04 :: List.replicate (2 * c.len) 0
  | some (x, y) => 0x04 :: (be c.len x ++ be c.len y)

/-- A SEC1 uncompressed point on the curve. -/
def decodePoint (c : Curve) (b : Bytes) : Point :=
  let x := ofBe (slice b 1 c.len)
  let y := ofBe (slice b (1 + c.len) c.len)
  if byteAt b 0 = 4 ∧ onCurve c x y then some (x, y) else none

/-- ECDSA verification of r, s over a digest read as a number (FIPS 186-5). -/
def ecdsaVerify (c : Curve) (q : Point) (z r s : Nat) : Bool :=
  decide (1 ≤ r ∧ r < c.n ∧ 1 ≤ s ∧ s < c.n) &&
    (let w := invMod s c.n
     match addPoint c (mulPoint c (z * w % c.n) (basePoint c)) (mulPoint c (r * w % c.n) q) with
     | some (x, _) => decide (x % c.n = r)
     | none => false)

/-- A digest as a number of at most the bits of the order. -/
def digestNum (c : Curve) (d : Bytes) : Nat := ofBe d >>> (8 * d.length - (c.n.log2 + 1))

/-! ### Curve25519 (RFC 7748) -/

def p25519 : Nat := 2 ^ 255 - 19

/-- One step of the Montgomery ladder: (x2, z2, x3, z3). -/
def ladderStep (x1 : Nat) (x2 z2 x3 z3 : Nat) : Nat × Nat × Nat × Nat :=
  let p := p25519
  let a := (x2 + z2) % p
  let b := subMod x2 z2 p
  let aa := a * a % p
  let bb := b * b % p
  let e := subMod aa bb p
  let da := subMod x3 z3 p * a % p
  let cb := (x3 + z3) % p * b % p
  let s := (da + cb) % p
  let d := subMod da cb p
  (aa * bb % p, e * ((aa + 121665 * e) % p) % p, s * s % p, x1 * (d * d % p) % p)

/-- The ladder over bits `n - 1` down to 0 of the scalar. -/
def ladder (x1 k : Nat) : Nat → Nat × Nat × Nat × Nat → Nat × Nat × Nat × Nat
  | 0, t => t
  | n + 1, (x2, z2, x3, z3) =>
    if k / 2 ^ n % 2 = 1 then
      let (x3', z3', x2', z2') := ladderStep x1 x3 z3 x2 z2
      ladder x1 k n (x2', z2', x3', z3')
    else ladder x1 k n (ladderStep x1 x2 z2 x3 z3)

/-- X25519 of a 32-byte scalar and u-coordinate. -/
def x25519 (k u : Bytes) : Bytes :=
  let kn := ofLe (slice k 0 32)
  let kc := kn % 2 ^ 254 - kn % 8 + 2 ^ 254
  let x1 := ofLe (slice u 0 32) % 2 ^ 255 % p25519
  let t := ladder x1 kc 255 (1, 0, x1, 1)
  le 32 (t.1 * invMod t.2.1 p25519 % p25519)

/-! ### SHA-512 (FIPS 180-4) -/

def isPrime (n : Nat) : Bool := decide (2 ≤ n) && (List.range n).all (fun d => decide (d < 2) || decide (n % d ≠ 0))

/-- The first 80 primes. -/
def primes80 : List Nat := (List.range 410).filter isPrime

/-- The greatest number whose `e`-th power is at most `v`, bit by bit from bit `k - 1` down, above the bits found in `r`. -/
def rootBits (e v : Nat) : Nat → Nat → Nat
  | 0, r => r
  | k + 1, r => rootBits e v k (if (r + 2 ^ k) ^ e ≤ v then r + 2 ^ k else r)

/-- The first 64 bits of the fractional part of the `e`-th root of `p`. -/
def rootFraction (e p : Nat) : DWord := BitVec.ofNat 64 (rootBits e (p * 2 ^ (64 * e)) 70 0)

/-- The round constants come from the cube roots of the first 80 primes. -/
def sha512K : List DWord := primes80.map (rootFraction 3)

/-- The initial hash value comes from the square roots of the first eight. -/
def sha512H : List DWord := (primes80.take 8).map (rootFraction 2)

def rotr64 (x : DWord) (n : Nat) : DWord := x.rotateRight n

/-- The message schedule: `n` more words after the newest-first list `w`. -/
def schedule512 : Nat → List DWord → List DWord
  | 0, w => w
  | n + 1, w =>
    let g (i : Nat) := w.getD i 0
    let s0 := rotr64 (g 14) 1 ^^^ rotr64 (g 14) 8 ^^^ (g 14 >>> 7)
    let s1 := rotr64 (g 1) 19 ^^^ rotr64 (g 1) 61 ^^^ (g 1 >>> 6)
    schedule512 n ((g 15 + s0 + g 6 + s1) :: w)

def round512 (h : List DWord) (kw : DWord × DWord) : List DWord :=
  let g (i : Nat) := h.getD i 0
  let s1 := rotr64 (g 4) 14 ^^^ rotr64 (g 4) 18 ^^^ rotr64 (g 4) 41
  let ch := (g 4 &&& g 5) ^^^ (~~~(g 4) &&& g 6)
  let t1 := g 7 + s1 + ch + kw.1 + kw.2
  let s0 := rotr64 (g 0) 28 ^^^ rotr64 (g 0) 34 ^^^ rotr64 (g 0) 39
  let mj := (g 0 &&& g 1) ^^^ (g 0 &&& g 2) ^^^ (g 1 &&& g 2)
  [t1 + s0 + mj, g 0, g 1, g 2, g 3 + t1, g 4, g 5, g 6]

def block512 (h : List DWord) (b : Bytes) : List DWord :=
  let w0 := ((List.range 16).map (fun i => BitVec.ofNat 64 (ofBe (slice b (8 * i) 8)))).reverse
  let w := (schedule512 64 w0).reverse
  List.zipWith (· + ·) h ((sha512K.zip w).foldl round512 h)

def blocks512 : Nat → List DWord → Bytes → List DWord
  | 0, h, _ => h
  | n + 1, h, b => blocks512 n (block512 h (b.take 128)) (b.drop 128)

def sha512 (m : Bytes) : Bytes :=
  let z := (239 - m.length % 128) % 128
  let t := m ++ [0x80] ++ List.replicate z 0 ++ be 16 (8 * m.length)
  (blocks512 (t.length / 128) sha512H t).flatMap (fun w => be 8 w.toNat)

/-! ### Ed25519 (RFC 8032) -/

def edD : Nat := 0x52036cee2b6ffe738cc740797779e89800700a4d4141d8ab75eb4dca135978a3
def edL : Nat := 2 ^ 252 + 27742317777372353535851937790883648493

def edBase : Nat × Nat :=
  (0x216936d3cd6e53fec0a4e231fdd6dc5c692cc7609525a7b2c9562d608f25d51a,
   0x6666666666666666666666666666666666666666666666666666666666666658)

def edAdd (a b : Nat × Nat) : Nat × Nat :=
  let p := p25519
  let t := edD * (a.1 * b.1 % p * (a.2 * b.2 % p) % p) % p
  ((a.1 * b.2 + b.1 * a.2) % p * invMod (1 + t) p % p, (a.2 * b.2 + a.1 * b.1) % p * invMod (subMod 1 t p) p % p)

def edMulN : Nat → Nat → Nat × Nat → Nat × Nat
  | 0, _, _ => (0, 1)
  | n + 1, k, q =>
    if k = 0 then (0, 1)
    else
      let r := edMulN n (k / 2) (edAdd q q)
      if k % 2 = 1 then edAdd q r else r

def edMul (k : Nat) (q : Nat × Nat) : Nat × Nat := edMulN (k.log2 + 1) k q

def edEncode (q : Nat × Nat) : Bytes := le 32 (q.2 % 2 ^ 255 + (q.1 % 2) * 2 ^ 255)

/-- Decompress a point; none for bytes that name no point. -/
def edDecode (b : Bytes) : Option (Nat × Nat) :=
  let p := p25519
  let n := ofLe (slice b 0 32)
  let y := n % 2 ^ 255
  let sign := n / 2 ^ 255
  if p ≤ y then none
  else
    let x2 := subMod (y * y) 1 p * invMod (edD * (y * y % p) + 1) p % p
    let r := powMod x2 ((p + 3) / 8) p
    let x := if r * r % p = x2 then r else r * powMod 2 ((p - 1) / 4) p % p
    if x * x % p ≠ x2 then none
    else if x = 0 ∧ sign = 1 then none
    else some (if x % 2 = sign then x else subMod 0 x p, y)

/-- The cofactorless equation [S]B = R + [k]A of a signature; `none` when the key names no point. -/
def ed25519Equation (key sig : Bytes) (k : Nat) : Option Bool :=
  match edDecode key with
  | none => none
  | some a =>
    let s := ofLe (slice sig 32 32)
    match edDecode (slice sig 0 32) with
    | none => some false
    | some r => some (decide (s < edL) && decide (edMul s edBase = edAdd r (edMul (k % edL) a)))

/-- Ed25519 verification; `none` when the key names no point. -/
def ed25519Verify (key sig msg : Bytes) : Option Bool :=
  ed25519Equation key sig (ofLe (sha512 (slice sig 0 32 ++ slice key 0 32 ++ msg)))

end Sys2Proof.Machine
end

