-- ==== Sys2Proof/Config.lean ====
section
/-! DEFINITION. What one device fixes and what the spec leaves open. No constant here has a body: nothing can prove a
value of it. -/

namespace Sys2Proof.Config

/-- The random bytes the device draws, in the order it draws them (R347, R350; log entry 3). -/
opaque entropy : Nat → Byte

/-- A value the spec leaves undefined, one per use (log entry 8). -/
opaque freeWord : Nat → Word

/-- Bytes of host memory that a read returns where the command does not carry them: address and how often such a read
was made before (log entry 3). -/
opaque hostByte : Nat → Nat → Byte

/-- A byte of a register block as an engine's read finds it: address and how many free values were used before (log
entry 13). -/
opaque blockByte : Nat → Nat → Byte

/-- A byte of a flash page whose layout the spec does not give: which content it is of, the content itself, and the byte's place (log
entry 10). -/
opaque pageByte : Nat → Bytes → Nat → Byte

/-- The persistent device key in fuses (R426; log entry 6). -/
opaque deviceKey : Bytes

/-- Which columns the Hsiao code of the cells takes, and in which order (R425; log entry 151). -/
opaque hsiaoPick : Nat → Nat

/-- What a block takes for a sealed setting whose cell it cannot read (R24, R428; log entry 98). -/
opaque lostSetting : Nat → DWord

/-- The cells of Signalbox SRAM in which the branch table and the key cache stand (R39; log entry 99). -/
opaque tableCell : Nat → Bool

/-- The start-up jitter J, by BOOTS count (R426; log entry 3). -/
opaque jitter : Nat → Bytes

/-- SHA3-256 of Camhorn's debug key, in the boot ROM (R433; log entry 6). -/
opaque debugKeyDigest : Bytes

/-- SHA3-256 of Camhorn's image key, in the boot ROM (R533; log entry 6). -/
opaque imageKeyDigest : Bytes

/-- Measured digest and version of the boot ROM (R270; log entry 6). -/
opaque romDigest : Bytes
opaque romVersion : Nat

/-- The mask-designer number and the 64-bit serial of the tag face's TID bank (R486; log entry 6). -/
opaque maskDesigner : BitVec 12
opaque tagSerial : BitVec 64

/-- Random 16-bit numbers of the tag face's own noise generator (R485; log entry 3). -/
opaque tagNoise : Nat → BitVec 16

/-- The public key that Falcon-1024 key generation makes of a 64-byte seed, which the spec names and does not restate (R229, R334;
log entry 7). -/
opaque falconPublic : Bytes → Bytes

/-- What the sampler of a lane gives for a key's seed, a message and a nonce: the second polynomial of candidate 0 or 1 (R338; log
entry 7). -/
opaque falconCandidate : Bytes → Bytes → Bytes → Nat → List Int

end Sys2Proof.Config
end

