-- ==== Sys2Proof/Machine/Keccak.lean ====
section
/-! DEFINITION. The Keccak functions the spec names (R303): FIPS 202 and SP 800-185. PRESUMED: both standards are taken
from outside the spec, which cites them by name (log entry 7). A state is 25 lanes, lane x + 5y at that index. -/

namespace Sys2Proof.Machine

/-- How far the lane at (x, y) is turned: a row for each x. -/
def turnTable : List (List Nat) :=
  [[0, 36, 3, 41, 18], [1, 44, 10, 45, 2], [62, 6, 43, 15, 61], [28, 55, 25, 21, 56], [27, 20, 39, 8, 14]]

def turnOf (x y : Nat) : Nat := (turnTable.getD x []).getD y 0

/-- The round constants have bits only in places 2^j - 1: bit j of an entry stands for that place. -/
def roundBits : List Nat :=
  [1, 26, 94, 112, 31, 33, 121, 85, 14, 12, 53, 38, 63, 79, 93, 83, 82, 72, 22, 102, 121, 88, 33, 116]

def spreadBits (t : Nat) : DWord :=
  BitVec.ofNat 64 ((List.range 7).foldl (fun v j => v + t / 2 ^ j % 2 * 2 ^ (2 ^ j - 1)) 0)

def keccakConstants : List DWord := roundBits.map spreadBits

def lane {w : Nat} (a : List (BitVec w)) (x y : Nat) : BitVec w := a.getD (x % 5 + 5 * (y % 5)) 0

/-- The XOR of each column. -/
def columnSums {w : Nat} (a : List (BitVec w)) : List (BitVec w) :=
  (List.range 5).map (fun x => (List.range 5).foldl (fun p y => p ^^^ lane a x y) 0)

/-- Each lane takes in the column before it and, turned by one, the column after it. -/
def spreadColumns {w : Nat} (a : List (BitVec w)) : List (BitVec w) :=
  let c := columnSums a
  (List.range 25).map (fun i => a.getD i 0 ^^^ c.getD ((i + 4) % 5) 0 ^^^ (c.getD ((i + 1) % 5) 0).rotateLeft 1)

/-- The lane that moves to (x, y) comes from (x + 3y, x), turned. -/
def moveLanes {w : Nat} (a : List (BitVec w)) : List (BitVec w) :=
  (List.range 25).map (fun i => (lane a (i % 5 + 3 * (i / 5)) (i % 5)).rotateLeft (turnOf ((i % 5 + 3 * (i / 5)) % 5) (i % 5)))

/-- The one step of a round that is not linear, along each row. -/
def mixRows {w : Nat} (a : List (BitVec w)) : List (BitVec w) :=
  (List.range 25).map (fun i => lane a (i % 5) (i / 5) ^^^ (lane a (i % 5 + 2) (i / 5) &&& ~~~(lane a (i % 5 + 1) (i / 5))))

/-- The round constant goes into the first lane. -/
def addConstant {w : Nat} (rc : BitVec w) : List (BitVec w) → List (BitVec w)
  | h :: r => (h ^^^ rc) :: r
  | [] => []

/-- One round over lanes of any width. -/
def keccakRound {w : Nat} (a : List (BitVec w)) (rc : BitVec w) : List (BitVec w) :=
  addConstant rc (mixRows (moveLanes (spreadColumns a)))

/-- Keccak-f[1600]. -/
def keccakF (a : List DWord) : List DWord := keccakConstants.foldl keccakRound a

/-- Keccak-p[400, 6]: the last six of the 20 rounds of Keccak-f[400], over lanes of 16 bits. -/
def keccakP400 (a : List (BitVec 16)) : List (BitVec 16) :=
  (((keccakConstants.drop 14).take 6).map (fun rc => rc.setWidth 16)).foldl keccakRound a

def laneBytes (d : DWord) : Bytes := le 8 d.toNat

def stateBytes (a : List DWord) : Bytes := a.flatMap laneBytes

/-- XOR a block of at most 200 bytes into a state and permute. -/
def absorbBlock (a : List DWord) (block : Bytes) : List DWord :=
  keccakF ((List.range 25).map (fun i => a.getD i 0 ^^^ BitVec.ofNat 64 (num block (8 * i) 8)))

/-- Absorb the full blocks of a message, `n` of them at most; what is left comes back. -/
def absorbBlocks (rate : Nat) : Nat → List DWord → Bytes → List DWord × Bytes
  | 0, a, m => (a, m)
  | n + 1, a, m => if m.length < rate then (a, m) else absorbBlocks rate n (absorbBlock a (m.take rate)) (m.drop rate)

/-- The last block: the rest of the message, the domain suffix, and the final bit. -/
def padBlock (rate : Nat) (suffix : Byte) (rest : Bytes) : Bytes :=
  let b := rest ++ [suffix] ++ List.replicate (rate - rest.length - 1) 0
  b.take (rate - 1) ++ [(b.getD (rate - 1) 0) ||| 0x80]

def squeezeBlocks (rate : Nat) : Nat → List DWord → Bytes
  | 0, _ => []
  | n + 1, a => (stateBytes a).take rate ++ squeezeBlocks rate n (keccakF a)

/-- The first `n` bytes a finished state gives. -/
def squeeze (rate n : Nat) (a : List DWord) : Bytes := (squeezeBlocks rate (n / rate + 1) a).take n

def zeroLanes : List DWord := List.replicate 25 0

/-- The sponge over a whole message. -/
def sponge (rate : Nat) (suffix : Byte) (m : Bytes) (n : Nat) : Bytes :=
  let (a, rest) := absorbBlocks rate (m.length / rate) zeroLanes m
  squeeze rate n (absorbBlock a (padBlock rate suffix rest))

def sha3_256 (m : Bytes) : Bytes := sponge 136 0x06 m 32
def sha3_384 (m : Bytes) : Bytes := sponge 104 0x06 m 48
def sha3_512 (m : Bytes) : Bytes := sponge 72 0x06 m 64
def shake128 (m : Bytes) (n : Nat) : Bytes := sponge 168 0x1F m n
def shake256 (m : Bytes) (n : Nat) : Bytes := sponge 136 0x1F m n

/-- Big-endian bytes of a number, at least one. -/
def beMin : Nat → Nat → Bytes
  | 0, _ => []
  | n + 1, v => if v < 256 then [BitVec.ofNat 8 v] else beMin n (v / 256) ++ [BitVec.ofNat 8 v]

def leftEncode (v : Nat) : Bytes := let b := beMin 8 v; BitVec.ofNat 8 b.length :: b
def rightEncode (v : Nat) : Bytes := let b := beMin 8 v; b ++ [BitVec.ofNat 8 b.length]
def encodeString (s : Bytes) : Bytes := leftEncode (8 * s.length) ++ s

def bytepad (rate : Nat) (x : Bytes) : Bytes :=
  let y := leftEncode rate ++ x
  y ++ List.replicate ((rate - y.length % rate) % rate) 0

/-- The first block or blocks of cSHAKE. -/
def cshakePrefix (rate : Nat) (n s : Bytes) : Bytes := bytepad rate (encodeString n ++ encodeString s)

def cshake (rate : Nat) (n s m : Bytes) (out : Nat) : Bytes :=
  if n.isEmpty && s.isEmpty then sponge rate 0x1F m out else sponge rate 0x04 (cshakePrefix rate n s ++ m) out

def cshake256 (n s m : Bytes) (out : Nat) : Bytes := cshake 136 n s m out

/-- KMAC256 with a fixed output length in bytes. -/
def kmac256 (key m : Bytes) (out : Nat) (s : Bytes) : Bytes :=
  cshake256 (ascii "KMAC") s (bytepad 136 (encodeString key) ++ m ++ rightEncode (8 * out)) out

/-- KMACXOF256 (SP 800-185): the output length is encoded as 0. -/
def kmacXof256 (key m : Bytes) (out : Nat) (s : Bytes) : Bytes :=
  cshake256 (ascii "KMAC") s (bytepad 136 (encodeString key) ++ m ++ rightEncode 0) out

/-! ### Seals of cells (R425 to R427) -/

/-- M(K, a): the mask of the cell with physical number `a`. -/
def sealMask (key : Bytes) (a : Nat) : Byte :=
  let m := slice key 0 32 ++ le 8 a
  (lane (keccakP400 ((List.range 25).map (fun i => BitVec.ofNat 16 (num m (2 * i) 2)))) 0 0).setWidth 8

def setBits (v : Nat) : Nat := ((List.range 8).filter (fun i => v.testBit i)).length

/-- `n` members of a list, each by a pick of Config of its own from `base` on. -/
def pickMembers (base : Nat) : Nat → List Nat → List Nat
  | 0, _ => []
  | n + 1, l =>
    let k := Config.hsiaoPick (base + n) % l.length
    l.getD k 0 :: pickMembers base n (l.eraseIdx k)

/-- The columns of H (R425): 64 distinct bytes of odd weight, all those of weight 3 and eight of weight 5, as a Hsiao code has
them, so that its distance is 4. Which eight, and their order, the spec does not give (log entry 151). -/
def hsiaoColumns : List Nat :=
  pickMembers 0 64 ((List.range 256).filter (fun v => decide (setBits v = 3)) ++
    pickMembers 64 8 ((List.range 256).filter (fun v => decide (setBits v = 5))))

/-- H(d): the XOR of the columns of the bits that are set. -/
def hsiao (d : DWord) : Byte :=
  (List.range 64).foldl (fun h i => if d.getLsbD i then h ^^^ BitVec.ofNat 8 (hsiaoColumns.getD i 0) else h) 0

/-- The seal of a 72-bit cell with data `d` (R425). A mismatch is a stored seal that is not this one: State names the cells
that hold one and no others (log entry 131). -/
def cellSeal (key : Bytes) (a : Nat) (d : DWord) : Byte := hsiao d ^^^ sealMask key a

/-- The 4-bit seal of a 36-bit entry of the register file (R427). -/
def entrySeal (key : Bytes) (a : Nat) (d : Word) : BitVec 4 :=
  BitVec.ofNat 4 (((List.range 4).filter (fun i =>
    decide (setBits (d.toNat / 256 ^ i % 256) % 2 = 1) != (sealMask key a).getLsbD i)).foldl (fun x i => x + 2 ^ i) 0)

/-- K_ps: it seals the vigil cells and the sealed settings bank in every boot (R426). -/
def persistentKey : Bytes := kmac256 Config.deviceKey (ascii "persist") 32 (ascii "XLX persistent seal")

/-- K_vs: it seals the volatile cells of one boot; J is 256 bits (R426). -/
def volatileKey (boots : Nat) : Bytes :=
  kmac256 Config.deviceKey (le 4 boots ++ slice (Config.jitter boots) 0 32) 32 (ascii "XLX volatile seal")

/-- The seeds of the Fence's 64 pairs (R440). -/
def fenceSeeds (kvs : Bytes) : List Word :=
  let b := kmacXof256 kvs (ascii "fence") 256 (ascii "XLX fence")
  (List.range 64).map (fun p => let v := num b (4 * p) 4; if v = 0 then 1 else BitVec.ofNat 32 v)

end Sys2Proof.Machine
end

