-- ==== Sys2Proof/Machine/Falcon.lean ====
section
/-! DEFINITION. Falcon-1024 in the padded format: the hash to a point, the encodings, verification, and what a lane puts out of its
two candidates (R202, R336 to R339). The Falcon specification, version 1.2, gives the encodings and the norm bound (log entry 7). -/

namespace Sys2Proof.Machine

def falconQ : Nat := 12289

/-- The greatest squared norm of a signature of degree 1,024. -/
def falconBound : Nat := 70265242

/-! ### Encodings -/

/-- The coefficients of a public key: 14 bits each, the most significant first. -/
def falconCoeffs (pk : Bytes) : List Nat :=
  let v := ofBe (slice pk 1 1792)
  (List.range 1024).map (fun i => v / 2 ^ (14 * (1023 - i)) % 2 ^ 14)

/-- A well-formed public key: header byte 0x0A and 1,024 coefficients below q (R338, R339). -/
def falconKeyOk (pk : Bytes) : Bool :=
  decide (pk.length = 1793) && decide (byteAt pk 0 = 0x0A) && (falconCoeffs pk).all (fun x => decide (x < falconQ))

/-- The bits of a byte string, the most significant of each byte first. -/
def bitsBe (b : Bytes) : List Bool := b.flatMap (fun x => (List.range 8).map (fun i => x.getLsbD (7 - i)))

/-- The number that bits spell, the most significant first. -/
def bitsValue (l : List Bool) : Nat := l.foldl (fun a b => 2 * a + b2n b) 0

/-- The length of the run of zeros before the first one, and what follows that one; none where no one follows. -/
def unaryRun : Nat → List Bool → Option (Nat × List Bool)
  | _, [] => none
  | k, true :: r => some (k, r)
  | k, false :: r => unaryRun (k + 1) r

/-- One compressed coefficient: sign, seven low bits, the rest in unary. A zero has no sign. -/
def readCoeff (l : List Bool) : Option (Int × List Bool) :=
  match unaryRun 0 (l.drop 8) with
  | none => none
  | some (k, r) =>
    let m := 128 * k + bitsValue ((l.drop 1).take 7)
    if l.getD 0 false then (if m = 0 then none else some (-(Int.ofNat m), r)) else some (Int.ofNat m, r)

/-- `n` coefficients; what is left of the bits must be zeros. -/
def readCoeffs : Nat → List Bool → Option (List Int)
  | 0, l => if l.any id then none else some []
  | n + 1, l =>
    match readCoeff l with
    | none => none
    | some (x, r) => (readCoeffs n r).map (fun t => x :: t)

/-- The bits of a number of `n` bits, the most significant first. -/
def numberBits (n v : Nat) : List Bool := (List.range n).map (fun i => v.testBit (n - 1 - i))

/-- A coefficient in compressed form. -/
def coeffBits (x : Int) : List Bool :=
  decide (x < 0) :: (numberBits 7 (x.natAbs % 128) ++ List.replicate (x.natAbs / 128) false ++ [true])

/-- Bytes of bits. -/
def packBytes : Nat → List Bool → Bytes
  | 0, _ => []
  | n + 1, l => BitVec.ofNat 8 (bitsValue ((l ++ List.replicate 8 false).take 8)) :: packBytes n (l.drop 8)

/-- The compressed signature, zeros to 1,239 bytes; none where it does not fit (R338). -/
def compressSig (s2 : List Int) : Option Bytes :=
  let l := s2.flatMap coeffBits
  if 8 * 1239 < l.length then none else some (packBytes 1239 l)

/-! ### Verification (R338) -/

/-- The values below 5q that two bytes at a time spell, modulo q. -/
def acceptPoints : Nat → Bytes → List Nat
  | 0, _ => []
  | n + 1, b =>
    let v := 256 * byteAt b 0 + byteAt b 1
    (if v < 5 * falconQ then [v % falconQ] else []) ++ acceptPoints n (b.drop 2)

/-- The hash of a nonce and a message to a point, from SHAKE256(nonce ‖ m); the 2,720 bytes taken give 1,024 values but in a
negligible share of messages, for which zeros follow. -/
def hashToPoint (nonce msg : Bytes) : List Nat :=
  (acceptPoints 1360 (shake256 (nonce ++ msg) 2720) ++ List.replicate 1024 0).take 1024

/-- A polynomial times x, modulo x^1024 + 1. -/
def timesX (h : List Nat) : List Nat :=
  ((falconQ - (h.getLast?.getD 0)) % falconQ) :: h.dropLast

/-- The product of a polynomial with integer coefficients and one modulo q, modulo x^1024 + 1. -/
def mulRing : List Int → List Nat → List Nat
  | [], h => h.map (fun _ => 0)
  | x :: r, h =>
    let c := (x % (Int.ofNat falconQ)).toNat
    List.zipWith (fun a b => (c * a + b) % falconQ) h (mulRing r (timesX h))

/-- The square of the representative of least magnitude. -/
def centredSquare (x : Nat) : Nat := min (x * x) ((falconQ - x) * (falconQ - x))

/-- The signature polynomial s2 is short together with s1 = c − s2·h. -/
def shortEnough (c h : List Nat) (s2 : List Int) : Bool :=
  let s1 := List.zipWith (fun a b => (a + falconQ - b) % falconQ) c (mulRing s2 h)
  decide ((s1.map centredSquare).sum + (s2.map (fun x => x.natAbs * x.natAbs)).sum ≤ falconBound)

/-- Verification of a signature in the padded format: header byte 0x3A, the nonce, the compressed polynomial (R202, R338). -/
def falconVerify (pk msg sig : Bytes) : Bool :=
  decide (sig.length = 1280) && decide (byteAt sig 0 = 0x3A) && falconKeyOk pk &&
    (match readCoeffs 1024 (bitsBe (slice sig 41 1239)) with
     | some s2 => shortEnough (hashToPoint (slice sig 1 40) msg) (falconCoeffs pk) s2
     | none => false)

/-! ### Keys and signatures (R229, R334, R337, R338) -/

/-- The public key of a seed: the same on every device; a key generation puts out a well-formed key (log entry 7). -/
def falconPublic (seed : Bytes) : Bytes :=
  if falconKeyOk (Config.falconPublic seed) then Config.falconPublic seed else 0x0A :: List.replicate 1792 0

/-- What the lane puts out for one nonce: the first of its two candidates that meets the norm bound and compresses (R338). -/
def signOnce (seed msg nonce : Bytes) : Option Bytes :=
  (List.range 2).findSome? (fun i =>
    let s2 := Config.falconCandidate seed msg nonce i
    if s2.length = 1024 ∧ shortEnough (hashToPoint nonce msg) (falconCoeffs (falconPublic seed)) s2 then
      (compressSig s2).map (fun b => 0x3A :: (nonce ++ b))
    else none)

/-- The nonces that a signature takes: 40 bytes each, a new one where neither candidate of the one before qualified. After 16 the
model gives up (log entry 164). -/
def signTries (seed msg : Bytes) (nonce : Nat → Bytes) : Nat :=
  match (List.range 16).findIdx? (fun k => (signOnce seed msg (nonce k)).isSome) with
  | some k => k + 1
  | none => 16

/-- The padded signature. -/
def falconSignature (seed msg : Bytes) (nonce : Nat → Bytes) : Bytes :=
  let n := nonce (signTries seed msg nonce - 1)
  (signOnce seed msg n).getD (slice (0x3A :: n) 0 1280)

end Sys2Proof.Machine
end

