-- ==== Sys2Proof/Machine/Map.lean ====
section
/-! DEFINITION. Operations on sparse tables: strictly rising keys, and (for tables with a default) no entry that equals
the default. Structural recursion throughout, so that the kernel evaluates them. -/

namespace Sys2Proof.Machine

variable {α : Type}

/-- The entry at a key. -/
def mget? : SMap α → Nat → Option α
  | [], _ => none
  | (k, v) :: r, i => if i = k then some v else mget? r i

/-- The entry at a key, or the default. -/
def mget (d : α) (m : SMap α) (i : Nat) : α := (mget? m i).getD d

/-- Set an entry. -/
def mput : SMap α → Nat → α → SMap α
  | [], i, v => [(i, v)]
  | (k, w) :: r, i, v => if i = k then (k, v) :: r else if i < k then (i, v) :: (k, w) :: r else (k, w) :: mput r i v

/-- Remove an entry. -/
def mdel : SMap α → Nat → SMap α
  | [], _ => []
  | (k, w) :: r, i => if i = k then mdel r i else (k, w) :: mdel r i

/-- Set an entry of a table whose unlisted entries read as `d`: writing `d` removes the entry. -/
def mset [DecidableEq α] (d : α) (m : SMap α) (i : Nat) (v : α) : SMap α := if v = d then mdel m i else mput m i v

/-- Apply a function to an entry if there is one. -/
def mmap? (m : SMap α) (i : Nat) (f : α → α) : SMap α :=
  match mget? m i with
  | some v => mput m i (f v)
  | none => m

/-- Every key of a table is above a bound, and keys rise strictly. -/
def mwfFrom : Nat → SMap α → Bool
  | _, [] => true
  | b, (k, _) :: r => decide (b ≤ k) && mwfFrom (k + 1) r

/-- The canonical form: keys rise strictly. -/
def mwf (m : SMap α) : Bool := mwfFrom 0 m

/-- The canonical form of a table with a default at every key: keys rise strictly and no entry equals its default. -/
def mwfD [DecidableEq α] (d : Nat → α) (m : SMap α) : Bool := mwf m && m.all (fun e => decide (e.2 ≠ d e.1))

/-- The first key of a range of `n` keys from `i` that has no entry. -/
def mfree (m : SMap α) : Nat → Nat → Option Nat
  | _, 0 => none
  | i, n + 1 => if (mget? m i).isNone then some i else mfree m (i + 1) n

end Sys2Proof.Machine
end

