-- ==== Sys2Proof/Machine/RegTable.lean ====
section
/-! DEFINITION. The register map (R9, R40): addresses in the cores' view, the reset values that are not zero, and the
writable fields of the registers that are plain storage. -/

namespace Sys2Proof.Machine

abbrev Reg.CLK_RUN : Nat := 0x40010000
abbrev Reg.CLK_SRC : Nat := 0x40010004
abbrev Reg.CLK_MEAS_SEL : Nat := 0x40010008
abbrev Reg.CLK_MEAS : Nat := 0x4001000C
abbrev Reg.CLK_MON : Nat := 0x40010010
abbrev Reg.CLK_GATE : Nat := 0x40010014
abbrev Reg.HLK_ID : Nat := 0x40160000
abbrev Reg.HLK_CONTROL : Nat := 0x40160008
abbrev Reg.HLK_STATUS : Nat := 0x4016000C
abbrev Reg.HLK_BSTORE_BASE : Nat := 0x40160010
abbrev Reg.HLK_ITAB_BASE : Nat := 0x40160020
abbrev Reg.HLK_CL_UP_BASE : Nat := 0x40160030
abbrev Reg.HLK_CL_DOWN_BASE : Nat := 0x40160038
abbrev Reg.HLK_CL_CONFIG : Nat := 0x40160040
abbrev Reg.HLK_LWSEL : Nat := 0x40160050
abbrev Reg.HLK_ERR : Nat := 0x40160060
abbrev Reg.DMA_SRC (c : Nat) : Nat := 0x40170000 + 0x1000 * c + 0x000
abbrev Reg.DMA_DST (c : Nat) : Nat := 0x40170000 + 0x1000 * c + 0x008
abbrev Reg.DMA_LEN (c : Nat) : Nat := 0x40170000 + 0x1000 * c + 0x010
abbrev Reg.DMA_CTRL (c : Nat) : Nat := 0x40170000 + 0x1000 * c + 0x014
abbrev Reg.DMA_STATUS (c : Nat) : Nat := 0x40170000 + 0x1000 * c + 0x018
abbrev Reg.DMA_DONE (c : Nat) : Nat := 0x40170000 + 0x1000 * c + 0x01C
abbrev Reg.DMA_ERR (c : Nat) : Nat := 0x40170000 + 0x1000 * c + 0x020
abbrev Reg.LNE_INFLIGHT : Nat := 0x400E0000
abbrev Reg.LNE_WEIGHTS : Nat := 0x400E0004
abbrev Reg.LNE_OPEN_LINES : Nat := 0x400E0008
abbrev Reg.LNE_CACHE : Nat := 0x400E000C
abbrev Reg.LNE_FILLS : Nat := 0x400E0010
abbrev Reg.LNE_SPILLS : Nat := 0x400E0018
abbrev Reg.LNE_SEL : Nat := 0x400E0020
abbrev Reg.LNE_SEL_STATE : Nat := 0x400E0024
abbrev Reg.LNE_SEL_UPTAIL : Nat := 0x400E0028
abbrev Reg.LNE_SEL_UPHEAD : Nat := 0x400E002C
abbrev Reg.LNE_SEL_DNTAIL : Nat := 0x400E0030
abbrev Reg.LNE_SEL_DNHEAD : Nat := 0x400E0034
abbrev Reg.LNE_FAULT : Nat := 0x400E0040
abbrev Reg.LNE_DBERR : Nat := 0x400E0044
abbrev Reg.MSH_TRACKS : Nat := 0x400D0000
abbrev Reg.MSH_FENCE : Nat := 0x400D0004
abbrev Reg.MSH_FAULT : Nat := 0x400D0008
abbrev Reg.MSH_CHECK : Nat := 0x400D000C
abbrev Reg.MSH_QUEUE : Nat := 0x400D0010
abbrev Reg.MSH_LASTPASS : Nat := 0x400D0018
abbrev Reg.MSH_RECORDS : Nat := 0x400D0020
abbrev Reg.MSH_CONSISTS : Nat := 0x400D0028
abbrev Reg.MSH_KEY_HITS : Nat := 0x400D0030
abbrev Reg.MSH_KEY_MISSES : Nat := 0x400D0038
abbrev Reg.TTC_NOW : Nat := 0x40070000
abbrev Reg.TTC_STATUS : Nat := 0x40070008
abbrev Reg.TTC_SEED : Nat := 0x40070010
abbrev Reg.TTC_ADVANCE : Nat := 0x40070018
abbrev Reg.TTC_VIGIL : Nat := 0x40070020
abbrev Reg.SEAL_STATUS : Nat := 0x400F0000
abbrev Reg.SEAL_EPOCH_LEN : Nat := 0x400F0008
abbrev Reg.SEAL_BASE : Nat := 0x400F0010
abbrev Reg.SEAL_K0 : Nat := 0x400F0018
abbrev Reg.SEAL_OPEN : Nat := 0x400F0020
abbrev Reg.SEAL_LAST : Nat := 0x400F0028
abbrev Reg.SEAL_KEY : Nat := 0x400F0030
abbrev Reg.SEAL_CKPT : Nat := 0x400F0034
abbrev Reg.SEAL_ERR : Nat := 0x400F0038
abbrev Reg.BTR_STATUS : Nat := 0x400C0000
abbrev Reg.BTR_CMD : Nat := 0x400C0004
abbrev Reg.BTR_RESULT : Nat := 0x400C0008
abbrev Reg.BTR_CONFIG : Nat := 0x400C000C
abbrev Reg.BTR_ARG : Nat := 0x400C0010
abbrev Reg.BTR_ARG2 : Nat := 0x400C0014
abbrev Reg.BTR_MASK : Nat := 0x400C0018
abbrev Reg.BTR_BUF : Nat := 0x400C0020
abbrev Reg.BTR_SEL : Nat := 0x400C0028
abbrev Reg.BTR_SEL_ENTRY : Nat := 0x400C002C
abbrev Reg.BTR_SEL_USES : Nat := 0x400C0030
abbrev Reg.BTR_SEL_LINES : Nat := 0x400C0034
abbrev Reg.BTR_TRUNK_CHECK : Nat := 0x400C0038
abbrev Reg.BTR_IMAGE : Nat := 0x400C0040
abbrev Reg.BTR_ERR : Nat := 0x400C0044
abbrev Reg.BTR_DERIVES : Nat := 0x400C0048
abbrev Reg.FLC_STATUS : Nat := 0x40100000
abbrev Reg.FLC_CMD : Nat := 0x40100004
abbrev Reg.FLC_RESULT : Nat := 0x40100008
abbrev Reg.FLC_ARG : Nat := 0x4010000C
abbrev Reg.FLC_BUF : Nat := 0x40100010
abbrev Reg.FLC_LOG_NEXT : Nat := 0x40100020
abbrev Reg.FLC_LOG_OLDEST : Nat := 0x40100028
abbrev Reg.FLC_LOG_MARK : Nat := 0x40100030
abbrev Reg.FLC_DROPPED : Nat := 0x40100038
abbrev Reg.FLC_CW_SEL : Nat := 0x40100040
abbrev Reg.FLC_CW_MAP : Nat := 0x40100044
abbrev Reg.FLC_LOG_USE : Nat := 0x40100048
abbrev Reg.FLC_WEAR : Nat := 0x4010004C
abbrev Reg.FLC_ERR : Nat := 0x40100050
abbrev Reg.KDE_LOCK : Nat := 0x40090000
abbrev Reg.KDE_STATUS : Nat := 0x40090004
abbrev Reg.KDE_CTRL : Nat := 0x40090008
abbrev Reg.KDE_CONFIG : Nat := 0x4009000C
abbrev Reg.KDE_TOTAL : Nat := 0x40090010
abbrev Reg.KDE_OUTLEN : Nat := 0x40090018
abbrev Reg.KDE_KEY : Nat := 0x4009001C
abbrev Reg.KDE_PFX : Nat := 0x40090020
abbrev Reg.KDE_SRC : Nat := 0x40090024
abbrev Reg.KDE_SEGLEN : Nat := 0x40090028
abbrev Reg.KDE_DST : Nat := 0x4009002C
abbrev Reg.KDE_BLOB : Nat := 0x40090030
abbrev Reg.KDE_ABSORBED : Nat := 0x40090038
abbrev Reg.KDE_CMP : Nat := 0x40090040
abbrev Reg.KDE_ERR : Nat := 0x40090044
abbrev Reg.KDE_EXPECT : Nat := 0x40090080
abbrev Reg.KDE_RESULT : Nat := 0x400900C0
abbrev Reg.MAE_LOCK : Nat := 0x400A0000
abbrev Reg.MAE_STATUS : Nat := 0x400A0004
abbrev Reg.MAE_CTRL : Nat := 0x400A0008
abbrev Reg.MAE_OP : Nat := 0x400A000C
abbrev Reg.MAE_ARGS0 : Nat := 0x400A0010
abbrev Reg.MAE_ARGS1 : Nat := 0x400A0014
abbrev Reg.MAE_CONFIG : Nat := 0x400A0018
abbrev Reg.MAE_ERR : Nat := 0x400A001C
abbrev Reg.MAE_SLOCK : Nat := 0x400A0020
abbrev Reg.MAE_SCTRL : Nat := 0x400A0024
abbrev Reg.MAE_SARGS : Nat := 0x400A0028
abbrev Reg.MAE_JOBS : Nat := 0x400A0030
abbrev Reg.LSU_STATUS : Nat := 0x400B0000
abbrev Reg.LSU_QPUSH : Nat := 0x400B0004
abbrev Reg.LSU_CTRL : Nat := 0x400B0008
abbrev Reg.LSU_FENCE : Nat := 0x400B000C
abbrev Reg.LSU_FAULT : Nat := 0x400B0010
abbrev Reg.LSU_CHECK : Nat := 0x400B0014
abbrev Reg.LSU_ERR : Nat := 0x400B0018
abbrev Reg.LSU_SIGNS : Nat := 0x400B0020
abbrev Reg.LSU_VERIFIES : Nat := 0x400B0028
abbrev Reg.ENT_DATA : Nat := 0x40080000
abbrev Reg.ENT_STATUS : Nat := 0x40080004
abbrev Reg.ENT_BLOCKS : Nat := 0x40080008
abbrev Reg.ENT_FAILS : Nat := 0x40080010
abbrev Reg.MBX_ERR : Nat := 0x40050040
abbrev Reg.ILK_SEL : Nat := 0x40040000
abbrev Reg.ILK_ATTR : Nat := 0x40040004
abbrev Reg.ILK_BASE : Nat := 0x40040008
abbrev Reg.ILK_LIMIT : Nat := 0x4004000C
abbrev Reg.ILK_RMASK : Nat := 0x40040010
abbrev Reg.ILK_WMASK : Nat := 0x40040018
abbrev Reg.ILK_XMASK : Nat := 0x40040020
abbrev Reg.ILK_CMD : Nat := 0x40040028
abbrev Reg.ILK_STATUS : Nat := 0x4004002C
abbrev Reg.ILK_DENY : Nat := 0x40040030
abbrev Reg.ILK_DENY_ADDR : Nat := 0x40040034
abbrev Reg.ILK_SEALCFG : Nat := 0x40040038
abbrev Reg.ILK_SEALCNT : Nat := 0x4004003C
abbrev Reg.ILK_ERR : Nat := 0x40040040
abbrev Reg.DBG_NONCE : Nat := 0x40180000
abbrev Reg.DBG_CMD : Nat := 0x40180040
abbrev Reg.DBG_RESULT : Nat := 0x40180044
abbrev Reg.DBG_SESSION : Nat := 0x40180048
abbrev Reg.DBG_NOT_AFTER : Nat := 0x40180050
abbrev Reg.DBG_CERT : Nat := 0x40181000
abbrev Reg.LSM_STATUS : Nat := 0x40140000
abbrev Reg.LSM_PENDING : Nat := 0x40140060
abbrev Reg.LSM_TEST : Nat := 0x40140064
abbrev Reg.LSM_RELEASE : Nat := 0x40140080
abbrev Reg.LSM_SEL : Nat := 0x40140090
abbrev Reg.LSM_SEL_INFO : Nat := 0x40140094
abbrev Reg.LSM_SEL_C : Nat := 0x40140098
abbrev Reg.LSM_TEMP : Nat := 0x401400A0
abbrev Reg.LSM_ERR : Nat := 0x401400A4
abbrev Reg.CCI_STATUS : Nat := 0x40110000
abbrev Reg.CCI_CMD : Nat := 0x40110004
abbrev Reg.CCI_RESULT : Nat := 0x40110008
abbrev Reg.CCI_ARG : Nat := 0x4011000C
abbrev Reg.CCI_BUF : Nat := 0x40110010
abbrev Reg.CCI_LOCK : Nat := 0x40110014
abbrev Reg.CCI_CID : Nat := 0x40110020
abbrev Reg.CCI_ERR : Nat := 0x40110030
abbrev Reg.LKO_STATUS : Nat := 0x40120000
abbrev Reg.LKO_CMD : Nat := 0x40120004
abbrev Reg.LKO_RESULT : Nat := 0x40120008
abbrev Reg.LKO_ARG : Nat := 0x4012000C
abbrev Reg.LKO_CFG : Nat := 0x40120010
abbrev Reg.LKO_PING : Nat := 0x40120014
abbrev Reg.LKO_AUTOBUF : Nat := 0x40120018
abbrev Reg.LKO_ERR : Nat := 0x4012001C
abbrev Reg.LKO_TAGS : Nat := 0x40120020
abbrev Reg.LKO_COLLISIONS : Nat := 0x40120028
abbrev Reg.TLP_STATUS : Nat := 0x40130000
abbrev Reg.TLP_CTRL : Nat := 0x40130004
abbrev Reg.TLP_ERR : Nat := 0x40130008
abbrev Reg.TLP_WEAR : Nat := 0x4013000C
abbrev Reg.TLP_EXTW : Nat := 0x40130010
abbrev Reg.TLP_TID : Nat := 0x40130020
abbrev Reg.PWR_STATUS : Nat := 0x40020000
abbrev Reg.PWR_CONTRACT : Nat := 0x40020004
abbrev Reg.PWR_BANK : Nat := 0x40020008
abbrev Reg.PWR_CELL : Nat := 0x4002000C
abbrev Reg.PWR_INPUT : Nat := 0x40020010
abbrev Reg.PWR_SAGS : Nat := 0x40020014
abbrev Reg.PWR_LGLAST : Nat := 0x40020018
abbrev Reg.PWR_CFG : Nat := 0x4002001C
abbrev Reg.PWR_ERR : Nat := 0x40020020
abbrev Reg.SYS_MODE : Nat := 0x40000000
abbrev Reg.SYS_MODEREQ : Nat := 0x40000004
abbrev Reg.SYS_MODERES : Nat := 0x40000008
abbrev Reg.SYS_NONCE : Nat := 0x40000010
abbrev Reg.DMN_CAUSE : Nat := 0x40060010
abbrev Reg.DMN_BOOT : Nat := 0x40060014
abbrev Reg.DMN_FLOOR : Nat := 0x40060018
abbrev Reg.EVT_TRACE_HEAD : Nat := 0x40030100
abbrev Reg.EVT_TRACE_SEL : Nat := 0x40030104
abbrev Reg.EVT_TRACE_SRC : Nat := 0x40030108
abbrev Reg.EVT_TRACE_TTC : Nat := 0x40030110
abbrev Reg.EVT_ERR : Nat := 0x40030120
abbrev Reg.SST_STATUS : Nat := 0x40150C00
abbrev Reg.SST_ERR : Nat := 0x40150C04
abbrev Reg.MSIX_PBA : Nat := 0x40167F00
abbrev Reg.MSIX_TABLE : Nat := 0x40168000
abbrev Reg.EVT_PEND (n : Nat) : Nat := 0x40030000 + 4 * n
abbrev Reg.EVT_ROUTE (src : Nat) : Nat := 0x40031000 + 4 * src
abbrev Reg.SST_REG (i : Nat) : Nat := 0x40150000 + 8 * i
abbrev Reg.SST_WEAR (i : Nat) : Nat := 0x40150800 + 4 * i
abbrev Reg.MBX_CFG (n : Nat) : Nat := 0x40050000 + 4 * n
abbrev Reg.MBX_CLAIM (n : Nat) : Nat := 0x40051000 + 16 * n
abbrev Reg.MBX_DATA (n : Nat) : Nat := 0x40051004 + 16 * n
abbrev Reg.MBX_TAKE (n : Nat) : Nat := 0x40051008 + 16 * n
abbrev Reg.MBX_STAT (n : Nat) : Nat := 0x4005100C + 16 * n
abbrev Reg.TBL (t : Nat) : Nat := 0x40052000 + 4 * t
abbrev Reg.LSM_STICKY (n : Nat) : Nat := 0x40140010 + 4 * n
abbrev Reg.LSM_ACTIVE (n : Nat) : Nat := 0x40140020 + 4 * n
abbrev Reg.LSM_NEW (n : Nat) : Nat := 0x40140030 + 4 * n
abbrev Reg.LSM_CLASS (n : Nat) : Nat := 0x40140040 + 8 * n
abbrev Reg.LSM_TESTMAP (n : Nat) : Nat := 0x40140070 + 4 * n
abbrev Reg.DMN_CTRL (n : Nat) : Nat := 0x40060000 + 4 * n
abbrev Reg.DMN_KICK (n : Nat) : Nat := 0x40061000 + 8 * n
abbrev Reg.DMN_LEFT (n : Nat) : Nat := 0x40061004 + 8 * n
abbrev Reg.DBG_HALT (core world : Nat) : Nat := 0x40182000 + 0x1000 * (2 * core + world)

/-- Reset values other than zero (the cards; log entry 5 for those the cards leave open). -/
def resetTable : SMap Word :=
  [ (Reg.ILK_SEALCFG, 0x4),
    (Reg.DMN_CTRL 0, 0x507D0),
    (Reg.DMN_CAUSE, 0x1),
    (Reg.KDE_STATUS, 0xFF0000),
    (Reg.MAE_STATUS, 0xFF0000),
    (Reg.LSU_CHECK, 0x4003C),
    (Reg.BTR_ARG2, 0xFFFFFFFF),
    (Reg.MSH_CHECK, 0x40001),
    (Reg.LNE_WEIGHTS, 0x1248),
    (Reg.LKO_CFG, 0x1804A8),
    (Reg.LKO_PING, 0x80000),
    (Reg.PWR_CELL, 0xBB8),
    (Reg.HLK_ID, 0x1009072),
    (Reg.HLK_CONTROL, 0xA00),
    (Reg.DMA_STATUS 0, 0xFF0000),
    (Reg.DMA_STATUS 1, 0xFF0000),
    (Reg.DMA_STATUS 2, 0xFF0000),
    (Reg.DMA_STATUS 3, 0xFF0000) ]

/-- The value a register of the bank holds after a device reset. -/
def regDefault (a : Nat) : Word := mget 0 resetTable a

/-- The writable part of a plain register: `rw` bits, write-one-to-clear bits, and the fields with reserved encodings as
(low bit, width, least legal value, greatest legal value). -/
structure RegSpec where
  rw : Word
  w1c : Word
  fields : List (Nat × Nat × Nat × Nat)
  deriving DecidableEq, Repr

def plainTable0 : List (Nat × RegSpec) :=
  [ (Reg.CLK_GATE, { rw := 0x7, w1c := 0, fields := [] }),
    (Reg.HLK_CONTROL, { rw := 0xFF02, w1c := 0, fields := [(8, 8, 1, 255)] }),
    (Reg.HLK_LWSEL, { rw := 0x7F, w1c := 0, fields := [] }),
    (Reg.HLK_ERR, { rw := 0, w1c := 0x1FF, fields := [] }),
    (Reg.DMA_ERR 0, { rw := 0, w1c := 1, fields := [] }),
    (Reg.DMA_ERR 1, { rw := 0, w1c := 1, fields := [] }),
    (Reg.DMA_ERR 2, { rw := 0, w1c := 1, fields := [] }),
    (Reg.DMA_ERR 3, { rw := 0, w1c := 1, fields := [] }),
    (Reg.LNE_WEIGHTS, { rw := 0xFFFF, w1c := 0, fields := [(0, 4, 1, 15), (4, 4, 1, 15), (8, 4, 1, 15), (12, 4, 1, 15)] }),
    (Reg.LNE_SEL, { rw := 0x7FFFF, w1c := 0, fields := [] }),
    (Reg.LNE_FAULT, { rw := 0, w1c := 0x100000, fields := [] }),
    (Reg.LNE_DBERR, { rw := 0, w1c := 0x100000, fields := [] }) ]

def plainTable1 : List (Nat × RegSpec) :=
  [ (Reg.MSH_CHECK, { rw := 0xF03FF, w1c := 0, fields := [(0, 10, 1, 1000), (16, 4, 1, 15)] }),
    (Reg.MSH_FAULT, { rw := 0, w1c := 0x80, fields := [] }),
    (Reg.TTC_STATUS, { rw := 0, w1c := 8, fields := [] }),
    (Reg.SEAL_ERR, { rw := 0, w1c := 0x1F, fields := [] }),
    (Reg.BTR_ARG, { rw := 0x1FFF7FFF, w1c := 0, fields := [(12, 3, 1, 6)] }),
    (Reg.BTR_ARG2, { rw := 0xFFFFFFFF, w1c := 0, fields := [(0, 32, 1, 0xFFFFFFFF)] }),
    (Reg.BTR_MASK, { rw := 0xFFFFFFFE, w1c := 0, fields := [] }),
    (Reg.BTR_MASK + 4, { rw := 0x7F, w1c := 0, fields := [] }),
    (Reg.BTR_BUF, { rw := 0xFFFFFFF8, w1c := 0, fields := [] }),
    (Reg.BTR_SEL, { rw := 0xFFF, w1c := 0, fields := [] }),
    (Reg.BTR_ERR, { rw := 0, w1c := 0xF, fields := [] }),
    (Reg.FLC_ARG, { rw := 0x1FFFFFF, w1c := 0, fields := [(2, 11, 0, 1695), (13, 12, 0, 2303)] }) ]

def plainTable2 : List (Nat × RegSpec) :=
  [ (Reg.FLC_BUF, { rw := 0xFFFFFFF0, w1c := 0, fields := [] }),
    (Reg.FLC_CW_SEL, { rw := 0xFF, w1c := 0, fields := [] }),
    (Reg.FLC_ERR, { rw := 0, w1c := 0xFF, fields := [] }),
    (Reg.KDE_ERR, { rw := 0, w1c := 7, fields := [] }),
    (Reg.MAE_ERR, { rw := 0, w1c := 3, fields := [] }),
    (Reg.LSU_CHECK, { rw := 0xF00FF, w1c := 0, fields := [(0, 8, 1, 255), (16, 4, 1, 15)] }),
    (Reg.LSU_FAULT, { rw := 0, w1c := 0x80, fields := [] }),
    (Reg.LSU_ERR, { rw := 0, w1c := 3, fields := [] }),
    (Reg.MBX_ERR, { rw := 0, w1c := 1, fields := [] }),
    (Reg.ILK_SEL, { rw := 0x3FF, w1c := 0, fields := [] }),
    (Reg.ILK_ATTR, { rw := 0xF, w1c := 0, fields := [(2, 2, 0, 2)] }),
    (Reg.ILK_BASE, { rw := 0xFFFFF000, w1c := 0, fields := [] }) ]

def plainTable3 : List (Nat × RegSpec) :=
  [ (Reg.ILK_LIMIT, { rw := 0xFFFFF000, w1c := 0, fields := [] }),
    (Reg.ILK_RMASK, { rw := 0xFFFFFFFE, w1c := 0, fields := [] }),
    (Reg.ILK_RMASK + 4, { rw := 0x7F, w1c := 0, fields := [] }),
    (Reg.ILK_WMASK, { rw := 0xFFFFFFFE, w1c := 0, fields := [] }),
    (Reg.ILK_WMASK + 4, { rw := 0x7F, w1c := 0, fields := [] }),
    (Reg.ILK_XMASK, { rw := 0x1FFFE, w1c := 0, fields := [] }),
    (Reg.ILK_SEALCFG, { rw := 0xF, w1c := 0, fields := [(0, 4, 1, 15)] }),
    (Reg.ILK_ERR, { rw := 0, w1c := 7, fields := [] }),
    (Reg.ILK_DENY, { rw := 0, w1c := 0x80000000, fields := [] }),
    (Reg.LSM_SEL, { rw := 0x7F, w1c := 0, fields := [] }),
    (Reg.LSM_ERR, { rw := 0, w1c := 7, fields := [] }),
    (Reg.CCI_ARG, { rw := 0x1F1, w1c := 0, fields := [] }) ]

def plainTable4 : List (Nat × RegSpec) :=
  [ (Reg.CCI_BUF, { rw := 0xFFFFFFF8, w1c := 0, fields := [] }),
    (Reg.CCI_ERR, { rw := 0, w1c := 0xF, fields := [] }),
    (Reg.LKO_ARG, { rw := 0x1F, w1c := 0, fields := [(0, 5, 1, 16)] }),
    (Reg.LKO_CFG, { rw := 0xFFFFFF, w1c := 0, fields := [(0, 6, 0, 40), (8, 8, 1, 255)] }),
    (Reg.LKO_PING, { rw := 0xFF0000, w1c := 0, fields := [(16, 8, 1, 255)] }),
    (Reg.LKO_AUTOBUF, { rw := 0xFFFFFFF0, w1c := 0, fields := [] }),
    (Reg.LKO_ERR, { rw := 0, w1c := 7, fields := [] }),
    (Reg.TLP_ERR, { rw := 0, w1c := 7, fields := [] }),
    (Reg.PWR_LGLAST, { rw := 0, w1c := 0x80000, fields := [] }),
    (Reg.PWR_ERR, { rw := 0, w1c := 0x1F, fields := [] }),
    (Reg.EVT_TRACE_SEL, { rw := 0xFF, w1c := 0, fields := [] }),
    (Reg.EVT_ERR, { rw := 0, w1c := 3, fields := [] }) ]

def plainTable5 : List (Nat × RegSpec) :=
  [ (Reg.SST_ERR, { rw := 0, w1c := 3, fields := [] }) ]

/-- Every register that is plain storage. -/
def plainTable : List (Nat × RegSpec) :=
  plainTable0 ++ plainTable1 ++ plainTable2 ++ plainTable3 ++ plainTable4 ++ plainTable5

def plainSpec? (a : Nat) : Option RegSpec := plainTable.lookup a

/-- R12: a field whose new value is a reserved encoding keeps its old value. -/
def keepReserved (old : Word) (fields : List (Nat × Nat × Nat × Nat)) (v : Word) : Word :=
  fields.foldl (fun v f =>
    let x := bitsOf v f.1 f.2.1
    if f.2.2.1 ≤ x ∧ x ≤ f.2.2.2 then v else withBits v f.1 f.2.1 (bitsOf old f.1 f.2.1)) v

/-- A write to a plain register (R11, R12, R13): reserved bits are ignored and ones clear W1C bits. -/
def plainWrite (spec : RegSpec) (old v : Word) : Word :=
  let v' := keepReserved old spec.fields v
  ((old &&& ~~~spec.rw) ||| (v' &&& spec.rw)) &&& ~~~(v &&& spec.w1c)

end Sys2Proof.Machine
end

