-- ==== Sys2Proof/Machine/State.lean ====
section
/-! DEFINITION. The state of the device, as plain data, and the state right after reset. Registers that are plain
storage live in one sparse bank (`State.regs`); what the spec gives a meaning of its own has a field of its own. -/

namespace Sys2Proof.Machine

/-- The eight modes (R5, R516). -/
inductive Mode where
  | dark | stabled | shed | maintenance | commissioning | running | caution | condemned
  deriving DecidableEq, Repr

/-- The Trunk's state, BTR_STATUS.TRUNK (R218). -/
inductive Trunk where
  | empty | valid | lost
  deriving DecidableEq, Repr

/-! ### Cores (R360, R391, R392) -/

/-- One world of one core: R360, R381, R392. The `bad` fields mark register-file entries that hold a seal mismatch (R361, R427):
one bit for each word register, loop word and place of the return stack (its oldest entry in place 0), one for the
predicates. -/
structure World where
  w : Vector Word 32
  p : BitVec 8
  pc : Word
  /-- return stack, newest entry first, at most 24 entries -/
  rstack : List Word
  lw0 : Word
  lw1 : Word
  lw2 : Word
  level : Bool
  ie : Bool
  rstrap : Bool
  shadow : Bool
  vbase : Word
  ssp : Word
  badW : BitVec 32
  badP : Bool
  badLoop : BitVec 3
  badStack : BitVec 24
  deriving DecidableEq, Repr

/-- What a core waits for (R382, R383). -/
inductive Wait where
  | none
  | waitf (rd : BitVec 5)
  | waitt (pd : BitVec 3) (deadline : DWord)
  deriving DecidableEq, Repr

/-- One core. -/
structure Core where
  /-- the Signalbox world is current (R391) -/
  signalbox : Bool
  plat : World
  sig : World
  wake : BitVec 4
  wait : Wait
  /-- XSEL of R404 -/
  xsel : BitVec 6
  /-- stopped by a double fault (R401) -/
  stopped : Bool
  /-- halted by a debug session, by world: Platform, Signalbox (R434) -/
  haltP : Bool
  haltS : Bool
  /-- words of the step of a long instruction that were done when a read of it stalled, and what CTEQ had gathered (R355,
  R386) -/
  stepDone : Nat
  stepAcc : Word
  deriving DecidableEq, Repr

/-! ### Lines (R73, R86, R89) -/

inductive LineState where
  | closed | opened | paused | faulted
  deriving DecidableEq, Repr

/-- The 128-byte context of a line (R89). -/
structure Context where
  service : Bool
  verify : Bool
  cls : BitVec 2
  upLog2 : Byte
  dnLog2 : Byte
  vector : BitVec 11
  vecEn : Bool
  upBase : DWord
  dnBase : DWord
  parent : BitVec 12
  generation : Word
  sequence : DWord
  records : DWord
  lastTtc : DWord
  lastEpoch : DWord
  chainHead : Bytes
  openTtc : DWord
  openEpoch : DWord
  deriving DecidableEq, Repr

/-- How far an admitted waybill has come. -/
inductive Phase where
  /-- a data-line waybill waits for its line key (R152) -/
  | keyWait
  /-- its key state is ready; nothing fetched -/
  | ready
  /-- stamped and being absorbed (R147) -/
  | stamped
  /-- its status is decided and it waits for the waybills before it (R100) -/
  | ended
  /-- a FENCE that waits in the Hump for its epoch to be stored (R145) -/
  | sealWait
  /-- its completion is formed and held behind an earlier FENCE (R145) or an earlier completion (R100) -/
  | formed
  /-- a service or control waybill in firmware's hands -/
  | service
  /-- a control or service waybill that waits for another unit: a fill, a stored record, a table image, a rebuild -/
  | parked
  deriving DecidableEq, Repr

/-- An admitted waybill, in flight (R98). -/
structure Flight where
  /-- the model's own name of this admission -/
  id : Nat
  raw : Bytes
  phase : Phase
  /-- track of a data-line waybill (R143) -/
  track : BitVec 3
  stamp : DWord
  records : Bytes
  /-- where its records stand once all of them are in the track's buffer: the half (true for the second) and the offset in
  records (R140, R141) -/
  place : Option (Bool × Nat)
  /-- it has been assigned to a track (R143) -/
  assigned : Bool
  /-- the keyed line key read by the track (R152) -/
  key : Bytes
  /-- the status decided for a waybill that ends without work, and the TTC of that decision -/
  status : Byte
  decided : DWord
  /-- 0x0C came from the last-gasp seal (R135) -/
  gasp : Bool
  /-- the completion, once formed -/
  completion : Bytes
  /-- TTC at admission -/
  admitTtc : DWord
  /-- what a parked waybill waits for: a log serial, an epoch or a table serial -/
  waitFor : Nat
  /-- place in the assignment order of the tracks (R144) -/
  order : Nat
  /-- NEXT_CURSOR of an export with ADVANCE: the mark rises to it when the completion is written (R282); else 0 -/
  advance : Nat
  deriving DecidableEq, Repr

/-- The line record (R86), with the ring sizes the doorbell checks need, what a completion needs when the context is not
resident (R97), and the waybills in flight. -/
structure Line where
  state : LineState
  halt : Bool
  upTail : Nat
  upHead : Nat
  dnTail : Nat
  dnHead : Nat
  upLog2 : Nat
  dnLog2 : Nat
  service : Bool
  verify : Bool
  cls : BitVec 2
  dnBase : DWord
  vector : BitVec 11
  vecEn : Bool
  /-- PARENT of the context, for the LINES count of a line whose context was lost -/
  parent : Nat
  spills : BitVec 40
  fault : Byte
  resident : Bool
  /-- the context was destroyed or unreadable (R105) -/
  lost : Bool
  /-- admission stopped by a LINE_PAUSE (R75) -/
  pausing : Bool
  /-- an index-table write is pending (R88) -/
  mirror : Bool
  /-- bit of the ready map (R99) -/
  ready : Bool
  /-- TTC before which the Hump does not read the entry again after a failed read (R97) -/
  retryAt : DWord
  /-- the last stamp that a waybill of the line took (R148) -/
  lastStamp : DWord
  flights : List Flight
  deriving DecidableEq, Repr

/-- What a slot of the context cache holds (R94). -/
inductive Slot where
  /-- a resident context: changed since it was last filled or spilled; its last spill has not yet left the device -/
  | live (changed spillOut : Bool)
  | filling
  | spilling
  deriving DecidableEq, Repr

/-- One half of a consist buffer (R140): records and consists put into it since it was last free, and whether the fetcher has
closed it. -/
structure BufHalf where
  records : Nat
  consists : Nat
  closed : Bool
  deriving DecidableEq, Repr

/-- A track (R139 to R141, R174). -/
structure Track where
  enabled : Bool
  fenced : Bool
  lastStamp : DWord
  /-- TTC of the last passing periodic self-test (R177, R179) -/
  lastPass : DWord
  /-- a fence by firmware waits for the consist in progress (R169, R175) -/
  fencing : Bool
  /-- a seal fault has passed SEAL_LIMIT: the fence of R175 is due (the model's own; false between steps) -/
  dense : Bool
  /-- the two halves of the consist buffer, and which one the fetcher fills: true for the second -/
  half0 : BufHalf
  half1 : BufHalf
  fill1 : Bool
  /-- what the compare queue last streamed, at most 8 KiB (R141) -/
  compare : Bytes
  deriving DecidableEq, Repr

/-- A slot of the key cache (R231): a line entry (`line` is `some`) or a branch entry. -/
structure KeySlot where
  parent : Nat
  parentGen : Word
  line : Option (Nat × Word)
  ancestors : List Nat
  key : Bytes
  deriving DecidableEq, Repr

/-- Sealed cells that no address of R39 names (R20). -/
inductive PrivateCell where
  /-- the line record of a line (R86) -/
  | lineRecord (line : Nat)
  /-- a cell of a half of a track's consist buffer (R140) -/
  | buffer (track : Nat) (half : Bool) (cell : Nat)
  /-- the compare queue of a track (R141) -/
  | compare (track : Nat)
  /-- the branch table's entry (R223) -/
  | branch (index : Nat)
  /-- the key cache's slot of a parent or branch and, for a line key, its line (R231) -/
  | keySlot (parent : Nat) (line : Option (Nat × Word))
  /-- the tree store of the Seal unit (R194) -/
  | treeStore
  /-- the delta lists of the Seal unit (R215) -/
  | deltaLists
  /-- a line of the code-window cache: its codeword (R293) -/
  | codeLine (codeword : Nat)
  /-- the Trunk in the vigil domain (R218) -/
  | trunk
  /-- the vigil cells of one source's evidence (R449) -/
  | evidence (src : Nat)
  /-- the vigil counter (R38) -/
  | count
  /-- the BOOTS count (R426) -/
  | boots
  /-- the pending bits and HELD (R448) -/
  | held
  /-- the pattern generator of one pair of the Fence (R440) -/
  | fence (pair : Nat)
  /-- the interface of a NAND die: the page on its way through it (R430) -/
  | nand (die : Nat)
  deriving DecidableEq, Repr

/-! ### The branch tree (R223) -/

inductive BranchState where
  | free | valid | invalid
  deriving DecidableEq, Repr

structure Branch where
  state : BranchState
  kind : BitVec 3
  parent : Nat
  depth : Nat
  label : Bytes
  mask : DWord
  uses : Word
  expire : Bool
  generation : Word
  installed : Bool
  lines : Nat
  /-- the key of an installed branch (R227); empty otherwise -/
  key : Bytes
  created : DWord
  /-- last persisted value of USES (R241) -/
  usesSaved : Word
  deriving DecidableEq, Repr

/-- The committed table image in the layout of R240, and the last count record of each branch that has one (R241). -/
structure TableImage where
  bytes : Bytes
  counts : SMap Word
  deriving DecidableEq, Repr

/-! ### Terminus and Station (R255, R266) -/

inductive StationState where
  | free | paired | enrolled
  deriving DecidableEq, Repr

/-- An accepted relay: the Terminus epoch of its ADMIT_TTC, and the leaf (EPOCH, S_ID, DIGEST) that it replaced (R267; log
entry 128). -/
structure RelayMark where
  epoch : Nat
  before : Option (Nat × Bytes × Bytes)
  deriving DecidableEq, Repr

/-- A slot of the Station register (R255, R256, R264, R266, R269). -/
structure Station where
  state : StationState
  pubKey : Bytes
  label : Bytes
  pubDigest : Bytes
  ctDigest : Bytes
  escrow : Bytes
  /-- check value of the Trunk that wraps ESCROW (R256) -/
  escrowCheck : Bytes
  /-- kept pairing branch; 0 when none is kept -/
  branch : Nat
  /-- FORMAT of the first accepted relay (R264) -/
  format : Byte
  sId : Bytes
  digest : Bytes
  epoch : Nat
  lastRelay : DWord
  /-- accepted relays not yet behind an assembled plant Manifest, newest first (R267) -/
  relays : List RelayMark
  stale : Bool
  /-- moved since the last Station snapshot (R269) -/
  moved : Bool
  /-- the moving part as the newest stored Station snapshot holds it (R269) -/
  snapEpoch : Nat
  snapId : Bytes
  snapDigest : Bytes
  deriving DecidableEq, Repr

/-- What a device records of its upward pairing (R257, R270). -/
structure Pairing where
  tId : Bytes
  pubDigest : Bytes
  ctDigest : Bytes
  /-- a standby pairing, PURPOSE 0x03: T_ID is a partner, not a Terminus -/
  standby : Bool
  /-- the LABEL of its branch -/
  label : Bytes
  deriving DecidableEq, Repr

/-- A command in progress of the branch tree unit: its table image is being written (R239), or its request waits (R328). -/
structure BtrPending where
  /-- OP of BTR_CMD; 0 while nothing has changed in the table yet -/
  op : Nat
  index : Nat
  /-- the waybill it serves: line and admission; none for a command of firmware -/
  waybill : Option (Nat × Nat)
  /-- its end goes to BTR_RESULT -/
  report : Bool
  /-- LENGTH of the waybill's completion, and the writes to host memory that go before it -/
  length : Nat
  writes : List (DWord × Bytes)
  /-- the Station slot that a pairing sets (R255) -/
  slot : Option (Nat × Station)
  /-- the pairing that a KEM_DECAPS of kind 6 makes (R257) -/
  pair : Option Pairing
  /-- a table image is written before it ends (R239) -/
  persist : Bool
  /-- the entry as it stood before the command; none when it was FREE -/
  prior : Option Branch
  deriving DecidableEq, Repr

/-- The parameters of a command as they stand when BTR_CMD is written, and the master that writes it (R250). -/
structure BtrArgs where
  arg : Word
  uses : Word
  mask : DWord
  buf : Word
  master : Master
  deriving DecidableEq, Repr

/-- A request of the branch tree unit that waits for the MAE or for a lane, with the contents of its private store: OP of BTR_CMD, the
bytes from the peer, and the KEM-seed branch that it uses, 0 for none (R328, R333). -/
inductive HybridRequest where
  /-- of a command of firmware -/
  | command (op : Nat) (args : BtrArgs) (data : Bytes) (seedBranch : Nat)
  /-- of a waybill: its line and admission -/
  | waybill (line flight op : Nat) (data : Bytes) (seedBranch : Nat)
  deriving DecidableEq, Repr

/-! ### Epochs and the tree (R187 to R215) -/

structure Leaf where
  seq : DWord
  head : Bytes
  deriving DecidableEq, Repr

/-- The open epoch (R189). -/
structure Epoch where
  number : Nat
  ttcStart : DWord
  restart : Bool
  consists : Nat
  tier : Nat
  /-- the device was in Caution at some time during the epoch -/
  caution : Bool
  /-- leaves changed in it: its delta list (R215) -/
  changed : SMap Leaf
  /-- leaves posted into it while the tree was rebuilt (R215) -/
  during : SMap Leaf
  largestStamp : DWord
  deriving DecidableEq, Repr

inductive SealPhase where
  | freezing | signing | storing
  deriving DecidableEq, Repr

/-- A closed epoch on its way to the log (R196). -/
structure SealJob where
  epoch : Epoch
  ttcEnd : DWord
  /-- sealed on entry to Condemned: never signed (R207) -/
  condemned : Bool
  /-- FLAGS bits known at the close: POWER_LOSS, EARLY, RC_TIME -/
  flags : Byte
  phase : SealPhase
  leaves : SMap Leaf
  header : Bytes
  signature : Bytes
  /-- the plant Manifest header and signature of a Terminus (R268); empty otherwise -/
  plant : Bytes
  plantSig : Bytes
  /-- serial of the Manifest's frame once handed to staging -/
  serial : Nat
  deriving DecidableEq, Repr

/-- A stored Manifest's tree in the PROVE window (R208). -/
structure Tree where
  epoch : Nat
  header : Bytes
  leaves : SMap Leaf
  deriving DecidableEq, Repr

/-- A stored Manifest that waits for a signature (R206). -/
structure Unsigned where
  header : Bytes
  plant : Bool
  deriving DecidableEq, Repr

/-- A checkpoint that flash keeps: one of the log, or the staging checkpoint of a full log (R211, R212, R287). -/
structure Ckpt where
  epoch : Nat
  /-- FROM_EPOCH -/
  from_ : Nat
  /-- header and serial of the Manifest whose tree it brings the leaves up to -/
  header : Bytes
  upTo : Nat
  base : Bool
  /-- the leaves it lists -/
  leaves : SMap Leaf
  /-- serials of its frames; 0 for a staging checkpoint -/
  first : Nat
  last : Nat
  /-- byte of the staging stream at which it begins, and its size (R277) -/
  at_ : Nat
  size : Nat
  /-- it can no longer be read (R566) -/
  lost : Bool
  deriving DecidableEq, Repr

/-- A delta record held in staging until a checkpoint covers its epoch (R212). -/
structure Delta where
  /-- serial of the Manifest that it accompanies -/
  serial : Nat
  /-- the leaves it lists -/
  leaves : SMap Leaf
  at_ : Nat
  size : Nat
  lost : Bool
  deriving DecidableEq, Repr

structure SealUnit where
  open_ : Option Epoch
  jobs : List SealJob
  /-- leaves of the newest closed or open tree -/
  leaves : SMap Leaf
  /-- newest first -/
  window : List Tree
  /-- leaves and root of the newest stored Manifest; after a reset, what the rebuild reads (R211, R214) -/
  stored : SMap Leaf
  storedRoot : Bytes
  rebuilding : Bool
  /-- the next Manifest carries TREE_RESET (R215) -/
  treeReset : Bool
  /-- digest of the newest assembled Manifest header, empty before the first (R201) -/
  prev : Bytes
  plantPrev : Bytes
  unsigned : List Unsigned
  /-- Manifests signed since, by the serial of their signed copy while that copy is not yet stored (R206, R577) -/
  resigned : List (Nat × Unsigned)
  /-- the stored checkpoints from the newest base checkpoint on, oldest first (R212) -/
  ckpts : List Ckpt
  /-- the newest staging checkpoint of a full log (R287) -/
  stagedCkpt : Option Ckpt
  /-- the deltas of the Manifests stored since the last checkpoint, oldest first (R212) -/
  deltas : List Delta
  /-- EPOCH of the last stored checkpoint plus 1 (R211) -/
  ckptFrom : Nat
  /-- Terminus epochs since the last Station snapshot (R269) -/
  sinceSnap : Nat
  /-- the rule of R188 has yet to set B and K0 -/
  basePending : Bool
  /-- leaves posted with a stamp past the open epoch's boundary, oldest first (R190) -/
  ahead : List (DWord × Nat × Leaf)
  deriving DecidableEq, Repr

/-! ### The log and flash (R272 to R302) -/

/-- A framed log record (R278). -/
structure Frame where
  typ : Byte
  frag : BitVec 15
  more : Bool
  serial : Nat
  ttc : DWord
  epoch : Nat
  body : Bytes
  link : Bytes
  /-- the stripe that holds it can no longer be read (R281) -/
  lost : Bool
  deriving DecidableEq, Repr

/-- A staging write not yet verified (R275): frames, and before them the delta that goes with a Manifest or the staging
checkpoint of a full log. -/
structure StagingWrite where
  frames : List Frame
  delta : Bytes
  /-- it carries the Manifest of the first sealing job -/
  manifest : Bool
  /-- it carries a checkpoint -/
  ckpt : Option Ckpt
  deriving DecidableEq, Repr

inductive FlashOp where
  | read | program | erase | claim | ret
  deriving DecidableEq, Repr

/-- State of one flash block that differs from a good, unclaimed block. -/
structure Block where
  retired : Bool
  suspect : Bool
  claimed : Bool
  wear : Nat
  deriving DecidableEq, Repr

/-- A stripe of the log window (R274). -/
structure Stripe where
  /-- serial of the newest frame with bytes in it -/
  last : Nat
  /-- bytes at its start that belong to a frame begun in the stripe before -/
  headBytes : Nat
  /-- parity plane -/
  parity : Nat
  /-- dies not in use when it was begun (R566) -/
  dead : BitVec 4
  /-- its place in the Turntable: the 80 + slot-th block of each plane (R285) -/
  slot : Nat
  /-- wordline stripes begun in it, and those of them that were abandoned (R298) -/
  used : Nat
  skipped : List Nat
  deriving DecidableEq, Repr

/-- A slice of the code window (R292, FLC_CW_MAP). -/
structure Slice where
  die : Nat
  block : Nat
  offset : Nat
  valid : Bool
  deriving DecidableEq, Repr

structure Flash where
  /-- pages by die, block and page as one key; an unlisted page is erased -/
  pages : SMap Bytes
  blocks : SMap Block
  slices : SMap Slice
  /-- lines of the code-window cache: 4 KiB codeword numbers, newest first (R293) -/
  cwCache : List Nat
  /-- the FLC_CMD command in progress: die, block, page and FLC_BUF as it was written -/
  op : Option (FlashOp × Nat × Nat × Nat × Nat)
  deadDies : BitVec 4
  /-- staging copies not yet released: serial, and the byte of the staging stream at which the copy begins (R276) -/
  staged : List (Nat × Nat)
  /-- bytes of the first staged frame already programmed into the log -/
  carry : Nat
  /-- stripes of the log window, oldest first, and how many were ever begun -/
  stripes : List Stripe
  stripeCount : Nat
  /-- wordline stripes programmed in the newest stripe -/
  wordlines : Nat
  /-- a wordline stripe is being programmed (R276, R297) -/
  programming : Bool
  /-- serial of the last branch invalidation appended again for the oldest stripe (R286) -/
  rewritten : Option Nat
  /-- what the staging ring holds: verified writes with the byte of the staging stream at which each begins, newest first (R275) -/
  ring : List (Nat × Bytes)
  /-- bytes ever written to the staging ring, and its wear: 840 for each byte and each eighth of the ring in use (R277, R291) -/
  stagingBytes : Nat
  stagingWear : Nat
  /-- the spare, by die and block, that stands in for a retired block (R273, R290) -/
  spares : SMap Nat
  /-- stripes by which the reserve has shrunk, by slot (R290) -/
  shrunk : List Nat
  /-- boot record copies (R530) -/
  bootRec0 : Bytes
  bootRec1 : Bytes
  /-- IMAGE_LOAD progress: next offset, none before BEGIN (R536) -/
  loadNext : Option Nat
  /-- the running slot's image header, as the ROM verified it -/
  running : Bool
  /-- the recovery monitor runs (R535) -/
  monitor : Bool
  /-- the image that runs is a KIND 2 recovery image -/
  recoveryImage : Bool
  /-- measurement log entries, 80 bytes each (R270) -/
  measured : List Bytes
  deriving DecidableEq, Repr

structure Log where
  /-- stored frames, oldest first -/
  frames : List Frame
  staging : List StagingWrite
  mark : Nat
  /-- serial the next frame handed to staging takes -/
  next : Nat
  /-- LINK of the newest frame handed to staging -/
  link : Bytes
  /-- the newest base checkpoint's first serial; none before one (R286) -/
  base : Option Nat
  /-- LINK of the newest frame reclaimed -/
  reclaimed : Bytes
  /-- an export has raised the mark in this step (the model's own; false between steps) -/
  raised : Bool
  deriving DecidableEq, Repr

/-! ### Engines -/

/-- KDE job state behind its registers (R309, R313). -/
structure Kde where
  lanes : List DWord
  part : Bytes
  keyed : Bool
  gen : Word
  /-- K_sv of this boot; empty before it is drawn (R313) -/
  ksv : Bytes
  /-- KDE_CONFIG, KDE_TOTAL, KDE_OUTLEN and KDE_KEY.BRANCH of the job, as they stood at its START (R309) -/
  config : Word
  total : DWord
  outLen : Nat
  branch : Nat
  /-- a keyed job accepted in Caution: its output reads as zeros (R311) -/
  hide : Bool
  /-- the segment being fed: its address and its bytes (R309) -/
  src : Word
  seg : Nat
  deriving DecidableEq, Repr

structure Mae where
  prevOwner : Master
  /-- a short job is pending under R327 -/
  shortPending : Bool
  /-- the pending branch-tree request with the operands of its private store (R328) -/
  request : Option HybridRequest
  /-- MAE_OP, MAE_ARGS0 and MAE_ARGS1 as they stood at START (R323) -/
  job : Option (Word × Word × Word)
  /-- the internal buffer that holds a parked long job (R327) -/
  parked : Option (Word × Word × Word)
  /-- MAE_SCTRL and MAE_SARGS of the pending short job -/
  short : Option (Word × Word)
  deriving DecidableEq, Repr

/-- An LSU job (R333, R335). -/
inductive LsuJob where
  /-- the Seal unit's port: the Manifest that waits for its signature, and the seed of the key loaded for it -/
  | manifest (seed : Bytes)
  /-- a descriptor: its address, PUSHER, its 64 bytes and the seed of the key loaded at the lane's beginning -/
  | desc (addr : Nat) (pusher : Master) (raw seed : Bytes)
  deriving DecidableEq, Repr

/-- A key-store slot: the private key of a branch, held as the seed that generates it (R229, R337; log entry 7). -/
structure LaneKey where
  index : Nat
  generation : Word
  seed : Bytes
  deriving DecidableEq, Repr

/-- The four slots of a key store (R337). -/
structure KeyStore where
  /-- slot 0: the key of SEAL_KEY.BRANCH -/
  sealKey : Option LaneKey
  /-- slot 1: the Works Plate key -/
  plateKey : Option LaneKey
  /-- slots 2 and 3, the most recently used first -/
  spare : List LaneKey
  deriving DecidableEq, Repr

structure Lane where
  fenced : Bool
  enabled : Bool
  job : Option LsuJob
  started : DWord
  keys : KeyStore
  deriving DecidableEq, Repr

/-- A read of ENT_DATA that stalls (R355). -/
inductive EntRead where
  /-- by a master through a read row -/
  | port (m : Master)
  /-- by the instruction that a core has issued -/
  | core (n : Nat) (addr : Word)
  deriving DecidableEq, Repr

structure Ent where
  /-- conditioned bytes not yet delivered -/
  pool : Bytes
  /-- outcomes of the last 64 blocks, newest first; true for a failure (R354) -/
  recent : List Bool
  /-- start-up blocks still to pass; 0 when sampling runs -/
  startup : Nat
  /-- the bias period has ended -/
  biased : Bool
  /-- last sample of each cell and its run length (R349) -/
  runs : List (Bool × Nat)
  /-- reads of ENT_DATA that wait -/
  waiting : List EntRead
  /-- words granted to a core whose instruction has yet to take them -/
  granted : List (Nat × Word)
  /-- the master last served (R29, R356) -/
  winner : Master
  deriving DecidableEq, Repr

/-! ### Events, routes, mailboxes, debug -/

inductive Dest where
  | trace
  | core (core : BitVec 2) (signalbox : Bool)
  | host (vector : BitVec 11)
  deriving DecidableEq, Repr

/-- A route of the Interlocking (R413). -/
structure Route where
  valid : Bool
  lock : Bool
  debug : BitVec 2
  base : Nat
  limit : Nat
  rmask : DWord
  wmask : DWord
  xmask : DWord
  deriving DecidableEq, Repr

structure Mailbox where
  senders : BitVec 16
  receiver : Master
  claimant : Master
  full : Bool
  value : Word
  sender : Master
  deriving DecidableEq, Repr

structure Debug where
  nonce : Bytes
  /-- the nonce has been drawn and not yet consumed -/
  fresh : Bool
  cert : Bytes
  cores : BitVec 4
  /-- TTC of the latest debug denials, newest first, at most 17 (R431) -/
  denials : List DWord
  /-- writes to halt pages that wait for their core-world to resume, oldest first: core, Signalbox world, offset, value (R437) -/
  haltWrites : List (Nat × Bool × Nat × Word)
  deriving DecidableEq, Repr

/-! ### The vigil domain and Lineside (R38, R449) -/

structure Evidence where
  detectors : BitVec 2
  count : Byte
  lastC : BitVec 48
  /-- vigil counts at the recent trips for R444, newest first -/
  trips : List (BitVec 48)
  deriving DecidableEq, Repr

structure Vigil where
  trunk : Trunk
  trunkKey : Bytes
  count : BitVec 48
  boots : Word
  held : Bool
  pendReset : Bool
  pendCaution : Bool
  sticky : BitVec 128
  new_ : BitVec 128
  active : BitVec 128
  activeDet : SMap (BitVec 2)
  evidence : SMap Evidence
  highest : Byte
  lastC : BitVec 48
  lastSrc : BitVec 7
  clearedC : BitVec 48
  /-- sources that tripped on cell power and await their alarm record, each with the class applied (R448) -/
  cellTrips : SMap Nat
  /-- a full Zeroise on cell power still has to erase the Works Plate (R245) -/
  erasePending : Bool
  /-- the Trunk was lost on cell power; event 292 is still to be raised (R221) -/
  lostOnCell : Bool
  /-- trips of R448 whose class is carried by the pending bits -/
  testing : Option (BitVec 7 × Bool)
  testMap : BitVec 128
  /-- TTC at the arm of the release window (R455) -/
  armTtc : DWord
  /-- TTC at entry into Caution, for the release record (R452) -/
  cautionTtc : DWord
  canaryLost : Bool
  /-- the 64 pattern generators of the Fence, by pair (R440) -/
  fence : List Word
  /-- levels that damage forces on the two wires of a pair of the Fence (R441) -/
  forced : SMap (Option Bool × Option Bool)
  deriving DecidableEq, Repr

/-! ### Card, Lookout, Tail lamp -/

structure CardSession where
  line : Nat
  id : Nat
  cursor : Nat
  left : Nat
  units : Nat
  nextUnit : Nat
  prev : Bytes
  newest : Nat
  /-- first serial of the session -/
  first : Nat
  /-- SEQ of the header at the session's start -/
  seq : Nat
  /-- FLAGS.ADVANCE -/
  advance : Bool
  deriving DecidableEq, Repr

structure Card where
  img : CardImage
  unlocked : Bool
  erasing : Bool
  session : Option CardSession
  deriving DecidableEq, Repr

/-- Who runs the inventory in progress (R483, R479). -/
inductive InvOwner where
  | waybill (line id : Nat)
  | auto
  deriving DecidableEq, Repr

structure Inventory where
  owner : InvOwner
  round : Nat
  rounds : Nat
  maxTags : Nat
  slot : Nat
  q : Nat
  /-- Qfp in tenths (R481) -/
  qfp : Nat
  replies : Nat
  entries : List Bytes
  /-- the EPCs of the entries, whole -/
  seen : List Bytes
  /-- the badge round that goes before the next round is over (R494) -/
  badgeRan : Bool
  deriving DecidableEq, Repr

/-- The periodic self-inventory: not yet due in this boot, due at once, or due every SELF_H hours (R493). -/
inductive SelfTimer where
  | off | due | hourly
  deriving DecidableEq, Repr

structure Lookout where
  inv : Option Inventory
  /-- TTC of each badge's last check, by PERSON (R492) -/
  badgeSeen : SMap DWord
  /-- the hop sequence of this boot; empty before it is drawn (R475, R539) -/
  hop : List Nat
  /-- place in the sequence of channels, and TTC at the last change -/
  hopAt : Nat
  hopSince : DWord
  /-- a self-inventory waits for the end of the round in progress (R494), with what will answer it -/
  selfWait : Option (Byte × List Sys2Proof.TagObs)
  selfTimer : SelfTimer
  /-- the entry of the last self-inventory that read a tag (R484, R493) -/
  selfEntry : Bytes
  deriving DecidableEq, Repr

inductive TagState where
  | ready | arbitrate | reply | acknowledged | opened | secured
  deriving DecidableEq, Repr

/-- The tag face and its memory (R485 to R490). -/
structure Tail where
  field : Bool
  state : TagState
  slot : Nat
  q : Nat
  session : BitVec 2
  /-- inventoried flags S0 to S3, true for B; SL flag -/
  inventoried : BitVec 4
  sl : Bool
  /-- bits of the EPC bank before the first that a truncated reply carries; none where replies are whole (R474) -/
  truncated : Option Nat
  /-- the round's Query asked by the SL flag -/
  bySl : Bool
  rn : BitVec 16
  handle : BitVec 16
  noise : Nat
  /-- two evidence slots of 80 bytes, which one is committed, writes of each -/
  ev0 : Bytes
  ev1 : Bytes
  evCommit : Bool
  wear0 : Nat
  wear1 : Nat
  retry : Bool
  /-- an internal update is due or under way (R488) -/
  updating : Bool
  lab0 : Bytes
  lab1 : Bytes
  labCommit : Bool
  lastUpdate : DWord
  deriving DecidableEq, Repr

/-! ### Outputs -/

/-- A posted request to the host, in issue order (R51, R570). -/
inductive HostWrite where
  | mem (addr : DWord) (bytes : Bytes)
  | msix (vector : BitVec 11)
  deriving DecidableEq, Repr

inductive PdMsg where
  | request (mv ma : Nat) (mismatch : Bool)
  | eprEnter
  | reject
  | notSupported
  deriving DecidableEq, Repr

inductive TagReply where
  | rn16 (rn : BitVec 16)
  | epc (bytes : Bytes)
  /-- 00000, the bits of the EPC behind the mask, and the CRC-16 -/
  | shortEpc (bits : List Bool) (crc : BitVec 16)
  | handle (rn : BitVec 16)
  | words (bytes : Bytes) (rn : BitVec 16)
  | ok (rn : BitVec 16)
  | error (code : Byte) (rn : BitVec 16)
  | coverCode (rn : BitVec 16)
  deriving DecidableEq, Repr

/-- What the Lookout sends (R474, R479, R480, R482, R491 to R493). Cover-coding is shown where the spec names it: in Access. -/
inductive AirCommand where
  /-- a ping's unmodulated carrier -/
  | carrier
  /-- every tag whose EPC bank matches from this bit address takes S1 flag A -/
  | select (pointer : Nat) (mask : Bytes)
  /-- session S1, target A, Sel all -/
  | query (q : Nat)
  | queryRep
  | ack (rn : BitVec 16)
  | nak
  | reqRn (rn : BitVec 16)
  /-- the serial of the TID bank -/
  | readTid
  /-- user words from 0 -/
  | readUser (words : Nat)
  | write (bank word : Nat) (data : Bytes)
  | access (half : BitVec 16)
  /-- EPC and user bank password-writable, the access password password-readable and password-writable -/
  | lock
  deriving DecidableEq, Repr

/-- A command on the air, with its power in steps of 0.5 dB above +10 dBm, and its channel (R475, R476). -/
structure AirSent where
  power : Nat
  channel : Nat
  command : AirCommand
  deriving DecidableEq, Repr

/-- What the device has shown the outside: posted writes, bulk IN, the Tail lamp's replies, the Lookout's commands, PD messages, the last
read's data. -/
structure Ports where
  hostOut : List HostWrite
  usbOut : List Bytes
  tagOut : List TagReply
  airOut : List AirSent
  pdOut : List PdMsg
  readData : DWord
  /-- the last read or access ended with an error response -/
  readErr : Bool
  /-- answers to reads that had to wait, newest last: the master and its word; none for an error response -/
  served : List (Master × Option Word)
  deriving DecidableEq, Repr

/-- A completion held while the link is down (R64). -/
structure Held where
  line : Nat
  id : Nat
  deriving DecidableEq, Repr

/-- What the function's advanced error reporting records of a read request of its own (R48, R67). -/
inductive AerError where
  | completionTimeout
  /-- Unsupported Request, Completer Abort or poisoned data -/
  | badCompletion
  deriving DecidableEq, Repr

/-- The host-link adapter behind its registers. -/
structure HostLink where
  /-- the USB4 link is trained -/
  up : Bool
  /-- the link was lost within a session and the grace period runs (R65) -/
  grace : Bool
  held : List Held
  /-- MSI-X masks and pending bits (R59, R571) -/
  mask : BitVec 2048
  pend : BitVec 2048
  /-- exports of the maintenance path that wait for their turn: the model's own name of their admission, the waybill, the serials
  whose frames cannot be read (R281, R282) -/
  usbWait : List (Nat × Bytes × List Nat)
  /-- errors recorded for the host's error reporting, newest last (R48; log entry 161) -/
  aer : List AerError
  /-- the host's Max_Read_Request_Size in bytes (R48; log entry 161) -/
  maxRead : Nat
  deriving DecidableEq, Repr

/-- The line unit: records, contexts, cache. -/
structure LineUnit where
  lines : SMap Line
  contexts : SMap Context
  /-- slots of the context cache, most recently used first -/
  cache : List (Nat × Slot)
  /-- the line in each occupied slot of the cache, by slot number (R39; log entry 130) -/
  places : SMap Nat
  /-- dropped contexts whose spill has not left the device, with their slots, which stay occupied until then (R94) -/
  leaving : List (Nat × Nat)
  /-- K_ctx of this boot; empty before it is drawn (R91) -/
  kctx : Bytes
  credit : Nat
  /-- the Hump's round: the class served, its admissions in this round, the line last granted in each class (R99) -/
  humpClass : Nat
  humpUsed : Nat
  humpLast : List Nat
  /-- next admission's name (the model's own) -/
  nextId : Nat
  deriving DecidableEq, Repr

/-- Power behind its registers (R499 to R515). -/
structure Power where
  contractMw : Nat
  /-- an EPR contract (R500) -/
  epr : Bool
  /-- the last Source_Capabilities, and whether the source and the cable allow EPR (R500, R502) -/
  pdos : List Sys2Proof.Pdo
  eprSource : Bool
  eprCable : Bool
  /-- a raised tier waits for PS_RDY (R502) -/
  tierPending : Option Nat
  tier : Nat
  bankMv : Nat
  bankWeak : Bool
  thermal : Bool
  /-- VBUS is inside its window -/
  vbus : Bool
  sag : Bool
  lastGasp : Bool
  /-- 1 timer, 2 bank, 3 Hard Reset (R510) -/
  trigger : BitVec 2
  /-- reset causes deferred to the end of the seal (R513) -/
  deferred : BitVec 8
  /-- the seal in progress has sealed an epoch; its Manifest may still wait for staging (R205) -/
  lgStored : Bool
  deriving DecidableEq, Repr

/-- Deadman counters in ms left, and whether the first kick value was written (R540). -/
structure Deadman where
  left : Nat
  armed : Bool
  deriving DecidableEq, Repr

/-- Why a step stops the model. No meaning of this model ends in one: every row has an effect, or none at the instant
its conditions fail. -/
inductive Fault where
  /-- never raised; safe -/
  | none
  deriving DecidableEq, Repr

/-- Why a command is refused. -/
inductive Refusal where
  /-- raised by an arm of `exec` whose row has no meaning yet; safe -/
  | notModelled (mnemonic : String)
  deriving DecidableEq, Repr

/-- The whole device. -/
structure State where
  /-- commands that wait, first in first out -/
  pending : List Instr
  mode : Mode
  prevMode : Mode
  /-- a mode waited for until the bank, the contract or entropy is ready (R509, R517) -/
  awaiting : Option Mode
  /-- BOOT_COMPLETE has happened since the reset -/
  booted : Bool
  ttc : DWord
  regs : SMap Word
  /-- latched high halves, by master and address (R9) -/
  latch : SMap Word
  /-- held low halves of pairs written on their high half: TTC_ADVANCE, SST (R184, R557) -/
  lowHeld : SMap Word
  mem : List Host.Cell
  /-- cells of the address map, numbered by address divided by 8, that hold a seal mismatch (R20) -/
  badCells : List Nat
  /-- the other cells that hold one -/
  badPrivate : List PrivateCell
  ports : Ports
  coresRun : Bool
  cores : Vector Core 4
  hlk : HostLink
  lne : LineUnit
  tracks : Vector Track 8
  keyCache : List KeySlot
  branches : SMap Branch
  btr : Option BtrPending
  /-- the table rebuild of this boot has ended (R242) -/
  tableBuilt : Bool
  image : Option TableImage
  /-- rescue key pair (R247): the seed, empty when none is held -/
  rescueSeed : Bytes
  stations : SMap Station
  /-- upward and standby pairings, newest first (R257) -/
  pairings : List Pairing
  su : SealUnit
  log : Log
  flash : Flash
  kde : Kde
  mae : Mae
  lanes : Vector Lane 4
  descQueue : List (Nat × Master)
  ent : Ent
  /-- entropy values drawn so far: index of the next free value (the model's own) -/
  entCtr : Nat
  /-- free values used so far (the model's own) -/
  freeCtr : Nat
  evtPend : BitVec 1024
  /-- EVT_ROUTE registers that differ from their reset values (R555) -/
  evtRoutes : SMap Word
  /-- TTC of the last raise of the sources raised at most once per millisecond (R57, R419, R431) -/
  lastRaise : SMap DWord
  /-- event trace, newest first, at most 256 (R550) -/
  trace : List (Nat × DWord)
  traceWrapped : Bool
  traceHead : BitVec 8
  routes : SMap Route
  badRoutes : List Nat
  /-- TCM shadows that disagree with the central table since a compare found it (R424) -/
  shadowBad : Bool
  /-- routes as the shadow of each core's TCM holds them (R420, R424) -/
  shadows : Vector (SMap Route) 4
  sealFaults : SMap (List DWord)
  /-- tiles whose count has passed ILK_SEALCFG.LIMIT and not come back under it (R430) -/
  sealOver : List Nat
  /-- Lineside sources whose trip this step still has to apply (the model's own; empty between steps) -/
  tripsDue : List Nat
  mailboxes : Vector Mailbox 16
  tablets : Vector Master 64
  dbg : Debug
  sst : SMap DWord
  sstWear : SMap Nat
  vigil : Vigil
  card : Option Card
  cardPresent : Bool
  lko : Lookout
  tail : Tail
  power : Power
  deadmen : Vector Deadman 4
  /-- TTC of the last reset by a Deadman while its streak lasts (R541) -/
  lastDeadman : Option DWord
  worksPlate : Bytes
  /-- the seal key of volatile cells (R426) -/
  kvs : Bytes
  /-- the check of the K_dev fuses passes (R428) -/
  fusesOk : Bool
  deriving DecidableEq, Repr

/-! ### Reset -/

def World.reset (sig : Bool) : World :=
  { w := Vector.replicate 32 0, p := 1, pc := 0, rstack := [], lw0 := 0, lw1 := 0, lw2 := 0, level := sig, ie := false,
    rstrap := false, shadow := false, vbase := 0, ssp := 0, badW := 0, badP := false, badLoop := 0,
    badStack := 0 }

/-- A core after a device reset: Signalbox supervisor, registers zero (R361, R392), at address 0 (R529). -/
def Core.reset : Core :=
  { signalbox := true, plat := World.reset false, sig := World.reset true, wake := 0, wait := .none, xsel := 0,
    stopped := false, haltP := false, haltS := false, stepDone := 0, stepAcc := 0 }

/-- A CLOSED line (R78, R108). -/
def Line.closed : Line :=
  { state := .closed, halt := false, upTail := 0, upHead := 0, dnTail := 0, dnHead := 0, upLog2 := 0, dnLog2 := 0,
    service := false, verify := false, cls := 0, dnBase := 0, vector := 0, vecEn := false, parent := 0, spills := 0, fault := 0,
    resident := false, lost := false, pausing := false, mirror := false, ready := false, retryAt := 0, lastStamp := 0,
    flights := [] }

/-- A free half. -/
def BufHalf.free : BufHalf := { records := 0, consists := 0, closed := false }

def Track.reset : Track :=
  { enabled := false, fenced := false, lastStamp := 0, lastPass := 0, fencing := false, dense := false, half0 := BufHalf.free,
    half1 := BufHalf.free, fill1 := false, compare := [] }

def Lane.reset : Lane :=
  { fenced := false, enabled := false, job := none, started := 0, keys := { sealKey := none, plateKey := none, spare := [] } }

def zeros (n : Nat) : Bytes := List.replicate n 0

def SealUnit.reset : SealUnit :=
  { open_ := none, jobs := [], leaves := [], window := [], stored := [], storedRoot := [], rebuilding := false,
    treeReset := false, prev := [], plantPrev := [], unsigned := [], resigned := [], ckpts := [], stagedCkpt := none,
    deltas := [], ckptFrom := 0, sinceSnap := 0, basePending := true, ahead := [] }

def Log.reset : Log :=
  { frames := [], staging := [], mark := 1, next := 1, link := zeros 16, base := none, reclaimed := zeros 16, raised := false }

def Flash.reset : Flash :=
  { pages := [], blocks := [], slices := [], cwCache := [], op := none, deadDies := 0, staged := [], carry := 0,
    stripes := [], stripeCount := 0, wordlines := 0, programming := false, rewritten := none, ring := [], stagingBytes := 0,
    stagingWear := 0, spares := [], shrunk := [], bootRec0 := [], bootRec1 := [], loadNext := none, running := false, monitor := false,
    recoveryImage := false, measured := [] }

def Ent.reset : Ent :=
  { pool := [], recent := [], startup := 4, biased := false, runs := [], waiting := [], granted := [], winner := 0 }

/-- Identities by world (R41). -/
def coreId (c : Nat) (signalbox super : Bool) : Nat := 1 + 4 * c + (if signalbox then 2 else 0) + (if super then 1 else 0)

def maskOf (ids : List Nat) : DWord := ids.foldl (fun acc i => acc ||| (1#64 <<< i)) 0

/-- Both Signalbox identities of a core. -/
def sb (c : Nat) : List Nat := [coreId c true false, coreId c true true]

def allSb : List Nat := sb 0 ++ sb 1 ++ sb 2 ++ sb 3

def mkRoute (b l : Nat) (r w x : List Nat) : Route :=
  { valid := true, lock := false, debug := 0, base := b, limit := l, rmask := maskOf r, wmask := maskOf w, xmask := maskOf x }

/-- The reset routes of R423; the block routes grant what R559 and each block's chapter grant at reset. -/
def Route.resetTable : SMap Route :=
  [ (0, { mkRoute 0x40040 0x4004F [4] [4] [] with lock := true }),
    (1, mkRoute 0x00000 0x000FF [] [] [4, 8, 12, 16]),
    (2, mkRoute 0x11000 0x110FF [4] [4] [4]), (3, mkRoute 0x11100 0x111FF [8] [8] [8]),
    (4, mkRoute 0x11200 0x112FF [12] [12] [12]), (5, mkRoute 0x11300 0x113FF [16] [16] [16]),
    (6, mkRoute 0x40000 0x40000 allSb (sb 0) []), (7, mkRoute 0x40001 0x4000F (sb 0) (sb 0) []),
    (8, mkRoute 0x40010 0x4001F (sb 0) (sb 0) []), (9, mkRoute 0x40020 0x4002F (sb 0) (sb 0) []),
    (10, mkRoute 0x40030 0x40030 allSb allSb []), (11, mkRoute 0x40031 0x4003F (sb 0) (sb 0) []),
    (12, mkRoute 0x40050 0x40050 (sb 0) (sb 0) []), (13, mkRoute 0x40051 0x40052 allSb allSb []),
    (14, mkRoute 0x40060 0x40060 (sb 0) (sb 0) []), (15, mkRoute 0x40061 0x40061 allSb allSb []),
    (16, mkRoute 0x40070 0x40070 ((List.range 16).map (· + 1)) (sb 0) []), (17, mkRoute 0x40071 0x4007F (sb 0) (sb 0) []),
    (18, mkRoute 0x40080 0x4008F allSb allSb []), (19, mkRoute 0x40090 0x4009F allSb allSb []),
    (20, mkRoute 0x400A0 0x400AF allSb allSb []), (21, mkRoute 0x400B0 0x400BF (sb 0 ++ sb 2) (sb 0 ++ sb 2) []),
    (22, mkRoute 0x400C0 0x400CF (sb 2) (sb 2) []), (23, mkRoute 0x400D0 0x400DF (sb 1) (sb 1) []),
    (24, mkRoute 0x400E0 0x400EF (sb 1) (sb 1) []), (25, mkRoute 0x400F0 0x400FF (sb 2) (sb 2) []),
    (26, mkRoute 0x40100 0x4010F (sb 3) (sb 3) []), (27, mkRoute 0x40110 0x4011F (sb 3) (sb 3) []),
    (28, mkRoute 0x40120 0x4012F (sb 3) (sb 3) []), (29, mkRoute 0x40130 0x4013F (sb 3) (sb 3) []),
    (30, mkRoute 0x40140 0x4014F (sb 0) (sb 0) []), (31, mkRoute 0x40150 0x4015F (sb 0) (sb 0) []),
    (32, mkRoute 0x40160 0x4016F (31 :: sb 0) (31 :: sb 0) []), (33, mkRoute 0x40170 0x4017F allSb allSb []),
    (34, mkRoute 0x40180 0x40181 (sb 0) (sb 0) []), (35, mkRoute 0x50000 0x5000F allSb allSb []) ]

def HostLink.reset : HostLink :=
  { up := false, grace := false, held := [], mask := BitVec.allOnes 2048, pend := 0, usbWait := [], aer := [],
    maxRead := 512 }

def Vigil.reset : Vigil :=
  { trunk := .empty, trunkKey := zeros 32, count := 0, boots := 1, held := false, pendReset := false, pendCaution := false,
    sticky := 0, new_ := 0, active := 0, activeDet := [], evidence := [], highest := 0xFF, lastC := 0, lastSrc := 0,
    clearedC := 0, cellTrips := [], erasePending := false, lostOnCell := false, testing := none, testMap := 0, armTtc := 0, cautionTtc := 0,
    canaryLost := false, fence := fenceSeeds (volatileKey 1), forced := [] }

def Tail.reset : Tail :=
  { field := false, state := .ready, slot := 0, q := 0, session := 0, inventoried := 0, sl := false, truncated := none, bySl := false, rn := 0, handle := 0,
    noise := 0, ev0 := zeros 80, ev1 := zeros 80, evCommit := false, wear0 := 0, wear1 := 0, retry := false,
    updating := false, lab0 := zeros 32, lab1 := zeros 32, labCommit := false, lastUpdate := 0 }

def Power.reset : Power :=
  { contractMw := 0, epr := false, pdos := [], eprSource := false, eprCable := false, tierPending := none, tier := 0,
    bankMv := 0, bankWeak := false, thermal := false, vbus := true, sag := false, lastGasp := false, trigger := 0,
    deferred := 0, lgStored := false }

/-- The device right after a power-on reset: main power present, in Shed, before the cores are released (R526, R528).
Every register reads its reset value of the register table; the values the spec leaves open are named in the
assumption log. -/
def State.reset : State :=
  { pending := [], mode := .shed, prevMode := .shed, awaiting := none, booted := false, ttc := 0, regs := [], latch := [], lowHeld := [],
    mem := [], badCells := [], badPrivate := [],
    ports := { hostOut := [], usbOut := [], tagOut := [], airOut := [], pdOut := [], readData := 0, readErr := false, served := [] },
    coresRun := false, cores := Vector.replicate 4 Core.reset, hlk := HostLink.reset,
    lne :=
      { lines := [], contexts := [], cache := [], places := [], leaving := [], kctx := [], credit := 0, humpClass := 0, humpUsed := 0,
        humpLast := [0, 0, 0, 0], nextId := 0 },
    tracks := Vector.replicate 8 Track.reset, keyCache := [], branches := [], btr := none, tableBuilt := false, image := none, rescueSeed := [], stations := [], pairings := [],
    su := SealUnit.reset, log := Log.reset, flash := Flash.reset,
    kde := { lanes := List.replicate 25 0, part := [], keyed := false, gen := 0, ksv := [],
             config := 0, total := 0, outLen := 0, branch := 0, hide := false, src := 0, seg := 0 },
    mae := { prevOwner := 0, shortPending := false, request := none, job := none, parked := none, short := none },
    lanes := Vector.replicate 4 Lane.reset, descQueue := [], ent := Ent.reset,
    entCtr := 0, freeCtr := 0, evtPend := 0, evtRoutes := [], lastRaise := [], trace := [], traceWrapped := false, traceHead := 0,
    routes := Route.resetTable, badRoutes := [], shadowBad := false, shadows := Vector.replicate 4 Route.resetTable, sealFaults := [], sealOver := [], tripsDue := [],
    mailboxes := Vector.replicate 16 { senders := 0, receiver := 0, claimant := 0, full := false, value := 0, sender := 0 },
    tablets := Vector.replicate 64 0,
    dbg := { nonce := zeros 32, fresh := false, cert := [], cores := 0, denials := [], haltWrites := [] },
    sst := [], sstWear := [], vigil := Vigil.reset, card := none, cardPresent := false,
    lko := { inv := none, badgeSeen := [], hop := [], hopAt := 0, hopSince := 0, selfWait := none, selfTimer := .off, selfEntry := [] }, tail := Tail.reset, power := Power.reset,
    deadmen := Vector.replicate 4 { left := 0, armed := false }, lastDeadman := none, worksPlate := zeros 32, kvs := volatileKey 1, fusesOk := true }

end Sys2Proof.Machine
end

