-- ==== Sys2Proof/Machine/Ops.lean ====
section
/-! DEFINITION. The named operations over registers, memory, events, settings and random numbers that every meaning is
written with. -/

namespace Sys2Proof.Machine

/-- What every meaning answers. -/
abbrev Out := Host.Outcome State Fault Refusal

/-! ### The register bank -/

/-- The value the bank holds for a register. -/
def getR (s : State) (a : Nat) : Word := (mget? s.regs a).getD (regDefault a)

/-- Store a register; the bank keeps its canonical form. -/
def setR (s : State) (a : Nat) (v : Word) : State :=
  { s with regs := if v = regDefault a then mdel s.regs a else mput s.regs a v }

/-- Set bits of a register. -/
def orR (s : State) (a : Nat) (m : Word) : State := setR s a (getR s a ||| m)

/-- Clear bits of a register. -/
def clearR (s : State) (a : Nat) (m : Word) : State := setR s a (getR s a &&& ~~~m)

def bitR (s : State) (a i : Nat) : Bool := bit (getR s a) i

def fieldR (s : State) (a lo n : Nat) : Nat := bitsOf (getR s a) lo n

def setFieldR (s : State) (a lo n v : Nat) : State := setR s a (withBits (getR s a) lo n v)

/-- A 64-bit register pair (R9). -/
def getR64 (s : State) (a : Nat) : DWord := pair64 (getR s (a + 4)) (getR s a)

def setR64 (s : State) (a : Nat) (v : DWord) : State := setR (setR s a (lo32 v)) (a + 4) (hi32 v)

/-- Advance a 64-bit counter. -/
def countR64 (s : State) (a n : Nat) : State := setR64 s a (getR64 s a + BitVec.ofNat 64 n)

/-! ### Sealed settings (R556 to R558) -/

/-- The values of the settings that have a default. -/
def sstDefault (i : Nat) : DWord :=
  match i with
  | 0 => 100000000
  | 4 => 0x180E10
  | 14 => 1
  | 15 => 1
  | _ => 0

/-- The cell of a setting in the SST block (R557). -/
def settingCell (i : Nat) : Nat := 0x802A000 + i

/-- The value of a setting; what a block takes for one whose cell it cannot read is open (R24, R428; log entry 98). -/
def sstGet (s : State) (i : Nat) : DWord :=
  if s.badCells.contains (settingCell i) || !s.fusesOk then Config.lostSetting i else (mget? s.sst i).getD (sstDefault i)

/-- Accepted writes of a setting (R556). -/
def sstCount (s : State) (i : Nat) : Nat := mget 0 s.sstWear i

/-- Put a value into the bank of settings. -/
def sstPut (s : State) (i : Nat) (v : DWord) : State :=
  { s with sst := if v = sstDefault i then mdel s.sst i else mput s.sst i v,
           badCells := s.badCells.filter (fun c => !decide (c = settingCell i)) }

/-! ### Modes -/

/-- MODE as HLK_STATUS and SYS_MODE encode it. -/
def modeCode : Mode → Nat
  | .maintenance => 1
  | .commissioning => 2
  | .running => 3
  | .caution => 4
  | .condemned => 5
  | .shed | .dark | .stabled => 0

def mainPower (s : State) : Bool := decide (s.mode ≠ .dark) && decide (s.mode ≠ .stabled)

/-- The device is in Running or Caution: epochs are open (R516). -/
def sealing (s : State) : Bool := decide (s.mode = .running) || decide (s.mode = .caution)

def ready (s : State) : Bool := bitR s Reg.HLK_STATUS 0
def sessionOn (s : State) : Bool := bitR s Reg.HLK_STATUS 9
def lastGasp (s : State) : Bool := bitR s Reg.HLK_STATUS 8

/-! ### MSI-X (R60, R571) -/

/-- Trigger a vector: one message, or its pending bit while it is masked or the link is down. -/
def triggerVector (s : State) (v : BitVec 11) : State :=
  if s.hlk.mask.getLsbD v.toNat || !s.hlk.up then
    { s with hlk := { s.hlk with pend := s.hlk.pend ||| (1#2048 <<< v.toNat) } }
  else { s with ports := { s.ports with hostOut := s.ports.hostOut ++ [.msix v] } }

/-- The advertised properties of the PCIe function; what is not named here is not supported (R48). -/
structure PcieFunction where
  deviceId : BitVec 16
  classCode : BitVec 24
  /-- GT/s and lanes of the reported link -/
  rate : Nat
  lanes : Nat
  maxPayload : Nat
  maxReadRequest : Nat
  outstandingReads : Nat
  tagBits : Nat
  vectors : Nat
  /-- milliseconds -/
  completionTimeout : Nat
  flr : Bool
  aer : Bool
  relaxedOrdering : Bool
  noSnoop : Bool
  deriving DecidableEq, Repr

def pcieFunction : PcieFunction :=
  { deviceId := 0x9072, classCode := 0x108000, rate := 16, lanes := 4, maxPayload := 512, maxReadRequest := 4096,
    outstandingReads := 768, tagBits := 10, vectors := 2048, completionTimeout := 50, flr := true, aer := true,
    relaxedOrdering := false, noSnoop := false }

/-- Cut a range of host memory into requests of at most `most` bytes, none across a 4 KiB boundary: address and length. -/
def cutRange (most : Nat) : Nat → Nat → Nat → List (Nat × Nat)
  | 0, _, _ => []
  | fuel + 1, a, n =>
    if n = 0 then []
    else
      let k := min (min most n) (4096 - a % 4096)
      (a, k) :: cutRange most fuel (a + k) (n - k)

/-- The posted requests of one write: at most the function's payload each, none across a 4 KiB boundary (R48). -/
def packets (a : DWord) (b : Bytes) : List HostWrite :=
  (cutRange pcieFunction.maxPayload b.length a.toNat b.length).map
    (fun r => .mem (BitVec.ofNat 64 r.1) (slice b (r.1 - a.toNat) r.2))

/-- A posted write to host memory (R570). -/
def hostWrite (s : State) (addr : DWord) (b : Bytes) : State :=
  { s with ports := { s.ports with hostOut := s.ports.hostOut ++ packets addr b } }

/-! ### Events (R548 to R555) -/

/-- The route register of a source at reset (R555). -/
def routeDefault (n : Nat) : Word :=
  if 16 ≤ n ∧ n ≤ 20 then 2
  else if n < 256 then 0x11
  else if n < 320 then 0x19
  else if n < 448 then 0x1D
  else 0

/-- EVT_ROUTE of a source. -/
def evtRoute (s : State) (n : Nat) : Word := (mget? s.evtRoutes n).getD (routeDefault n)

/-- The destination that a route register names (R551). -/
def destOf (w : Word) : Dest :=
  match bitsOf w 0 2 with
  | 1 => .core (BitVec.ofNat 2 (bitsOf w 2 2)) (bit w 4)
  | 2 => .host (BitVec.ofNat 11 (bitsOf w 16 11))
  | _ => .trace

def isPending (s : State) (n : Nat) : Bool := s.evtPend.getLsbD n

/-- The trace entry of a raise (R550). -/
def traceRaise (s : State) (n : Nat) : State :=
  { s with trace := ((n, s.ttc) :: s.trace).take 256, traceHead := s.traceHead + 1,
           traceWrapped := s.traceWrapped || decide (s.traceHead = 255) }

/-- Raise a source: its pending bit, its trace entry, and its vector when it is routed to the host (R548, R551). -/
def raise (s : State) (n : Nat) : State :=
  let s := traceRaise { s with evtPend := s.evtPend ||| (1#1024 <<< n) } n
  match destOf (evtRoute s n) with
  | .host v => triggerVector s v
  | _ => s

def raiseAll (s : State) (l : List Nat) : State := l.foldl raise s

def raiseIf (b : Bool) (s : State) (n : Nat) : State := if b then raise s n else s

/-- Write a setting (R556, R557): its wear counts, with event 41 at 90,000 writes and event 40 as it freezes at 100,000;
a frozen setting ignores the write. -/
def sstStore (s : State) (i : Nat) (v : DWord) : State :=
  let n := sstCount s i + 1
  if 100000 < n then orR s Reg.SST_ERR 1
  else
    let s := sstPut { s with sstWear := mput s.sstWear i n } i v
    let s := setR s Reg.SST_STATUS (1 ||| place 8 8 i)
    raiseIf (decide (n = 100000)) (raiseIf (decide (n = 90000)) s 41) 40

/-- One millisecond of TTC ticks. -/
def msTicks : Nat := 100000

/-- Raise a source that is raised at most once in `gap` ticks (R57, R85, R287, R419, R431). -/
def raiseEvery (s : State) (gap n : Nat) : State :=
  match mget? s.lastRaise n with
  | some t => if s.ttc.toNat < t.toNat + gap then s else raise { s with lastRaise := mput s.lastRaise n s.ttc } n
  | none => raise { s with lastRaise := mput s.lastRaise n s.ttc } n

def raiseLimited (s : State) (n : Nat) : State := raiseEvery s msTicks n

/-! ### Seals (R20, R24, R25, R430) -/

/-- A private cell holds a seal mismatch. -/
def privateBad (s : State) (c : PrivateCell) : Bool := s.badPrivate.contains c

/-- A private cell written whole gets a fresh seal (R25). -/
def sealPrivate (s : State) (c : PrivateCell) : State :=
  { s with badPrivate := s.badPrivate.filter (fun x => !decide (x = c)) }

/-- A second in ticks. -/
def second : Nat := 100000000

/-- Count a seal fault of a tile; as the count passes the limit event 202 is raised and the tile's Lineside source falls due
(R430). A limit that is lowered under the count is passed by the next fault. -/
def countSealFault (s : State) (tile : Nat) : State :=
  let recent := s.ttc :: ((mget? s.sealFaults tile).getD []).filter (fun t => decide (s.ttc.toNat < t.toNat + second))
  let limit := fieldR s Reg.ILK_SEALCFG 0 4
  let was := s.sealOver.contains tile && decide (limit + 1 < recent.length)
  let s := { s with sealFaults := mput s.sealFaults tile (recent.take 256) }
  if was ∨ recent.length ≤ limit then s
  else
    raise { s with sealOver := if s.sealOver.contains tile then s.sealOver else s.sealOver ++ [tile],
                   tripsDue := s.tripsDue ++ [80 + tile] } 202

/-- A seal fault found by a read (R24): event 192, and the tile's count. -/
def sealFault (s : State) (tile : Nat) : State := countSealFault (raise s 192) tile

/-- Seal faults of a tile within the last second. -/
def sealFaultCount (s : State) (tile : Nat) : Nat :=
  (((mget? s.sealFaults tile).getD []).filter (fun t => decide (s.ttc.toNat < t.toNat + second))).length

/-- The tile of what belongs to no core, track or lane. -/
def spineTile : Nat := 20

/-! ### Random numbers and free values -/

/-- Draw bytes from the entropy source (R350, R356): what the pool holds, then what later blocks bring, which is free. -/
def drawBytes (s : State) (n : Nat) : Bytes :=
  s.ent.pool.take n ++ (List.range (n - s.ent.pool.length)).map (fun i => Config.entropy (s.entCtr + i))

/-- Each byte is delivered once. -/
def drawn (s : State) (n : Nat) : State :=
  { s with ent := { s.ent with pool := s.ent.pool.drop n }, entCtr := s.entCtr + (n - s.ent.pool.length) }

def freeWord (s : State) : Word := Config.freeWord s.freeCtr

def usedFree (s : State) : State := { s with freeCtr := s.freeCtr + 1 }

/-- A request by an engine is served: READY is 1 and FATAL is 0 (R356). -/
def entReady (s : State) : Bool := bitR s Reg.ENT_STATUS 0 && !bitR s Reg.ENT_STATUS 2

/-! ### Memory (R20, R24, R25, R39) -/

def memByte (s : State) (a : Nat) : Byte := mget 0 s.mem a

/-- `n` bytes of internal memory. -/
def memBytes (s : State) (a n : Nat) : Bytes := (List.range n).map (fun i => memByte s (a + i))

/-- Write bytes into a memory, lowest address first. -/
def putBytes : SMap Byte → Nat → Bytes → SMap Byte
  | m, _, [] => m
  | m, a, b :: r => putBytes (mset 0 m a b) (a + 1) r

/-- A cell that a range meets and that holds a seal mismatch. -/
def badCell? (s : State) (a n : Nat) : Option Nat :=
  if n = 0 then none else s.badCells.find? (fun c => decide (a / 8 ≤ c ∧ c ≤ (a + n - 1) / 8))

/-- As `badCell?`, but only cells that the range does not cover whole: a whole write repairs a cell (R25). -/
def badPartial? (s : State) (a n : Nat) : Option Nat :=
  if n = 0 then none
  else s.badCells.find? (fun c => decide (a / 8 ≤ c ∧ c ≤ (a + n - 1) / 8) && !decide (a ≤ 8 * c ∧ 8 * c + 8 ≤ a + n))

/-- Store bytes; cells covered whole get fresh seals (R25). -/
def memWrite (s : State) (a : Nat) (b : Bytes) : State :=
  { s with mem := putBytes s.mem a b,
           badCells := s.badCells.filter (fun c => !decide (a ≤ 8 * c ∧ 8 * c + 8 ≤ a + b.length)) }

/-! ### The vigil domain's evidence summary (R451) -/

def sealByte (b : Bool) (i : Nat) : Nat := if b then 2 ^ i else 0

/-- STATE of the evidence summary. -/
def evidenceState (s : State) : Nat :=
  sealByte s.vigil.pendReset 0 + sealByte s.vigil.pendCaution 1 + sealByte s.vigil.held 2 +
    sealByte (decide (s.vigil.trunk = .lost)) 3

/-- Check value of the Trunk (R220). -/
def trunkCheck (key : Bytes) : Bytes := kmac256 key (ascii "check") 8 (ascii "XLX trunk check")

def trunkCheckNow (s : State) : Bytes :=
  if s.vigil.trunk = .valid then trunkCheck s.vigil.trunkKey else List.replicate 8 0

/-- The 64 bytes of the evidence summary (R451). -/
def evidenceSummary (s : State) : Bytes :=
  [1, BitVec.ofNat 8 (evidenceState s), s.vigil.highest, 0] ++ le 4 s.vigil.boots.toNat ++ le 16 s.vigil.sticky.toNat ++
    le 8 s.vigil.lastC.toNat ++ le 8 s.vigil.clearedC.toNat ++ trunkCheckNow s ++ List.replicate 16 0

/-- An internal update of the Tail lamp falls due (R488). -/
def tailDue (s : State) : State := { s with tail := { s.tail with updating := true } }

/-! ### Mode changes (R517) -/

/-- Enter a mode: event 0, SYS_MODE, HLK_STATUS.MODE and the Tail-lamp status block. The REASON field lives in the bank
as SYS_MODE bits [15:8]; MODE and PREV are read from the state. -/
def setMode (s : State) (m : Mode) (reason : Nat) : State :=
  tailDue (raise (setR { s with mode := m, prevMode := s.mode } Reg.SYS_MODE (place 8 8 reason)) 0)

end Sys2Proof.Machine
end

