-- ==== Sys2Proof/Machine/LogOps.lean ====
section
/-! DEFINITION. Framing records and handing them to staging (R275, R278 to R280, R287). -/

namespace Sys2Proof.Machine

/-- Planes of the dies that serve; plane p lies on die p / 2 (R272, R566). -/
def planesOf (dead : BitVec 4) : List Nat := (List.range 8).filter (fun p => !dead.getLsbD (p / 2))

def pageBytes : Nat := 16384

/-- Number of the open epoch, or SEAL_LAST (R278). -/
def curEpoch (s : State) : Nat :=
  match s.su.open_ with
  | some e => e.number
  | none => (getR64 s Reg.SEAL_LAST).toNat

/-- The 32-byte header of a frame (R278). -/
def frameHeader (f : Frame) : Bytes :=
  [1, f.typ] ++ le 2 (f.frag.toNat + (if f.more then 0x8000 else 0)) ++ le 4 f.body.length ++ le 8 f.serial ++
    le 8 f.ttc.toNat ++ le 6 f.epoch ++ [0, 0]

/-- A body padded to a multiple of 16 (R278). -/
def padded (b : Bytes) : Bytes := b ++ List.replicate ((16 - b.length % 16) % 16) 0

def frameLink (prev : Bytes) (f : Frame) : Bytes := (sha3_256 (prev ++ frameHeader f ++ padded f.body)).take 16

/-- A frame as it stands in the log. -/
def frameBytes (f : Frame) : Bytes := frameHeader f ++ padded f.body ++ f.link

/-- Bytes of a frame in the log. -/
def frameSize (f : Frame) : Nat := 48 + (f.body.length + 15) / 16 * 16

/-- Split a body into frames with consecutive serials (R279). -/
def mkFrames (s : State) (typ : Byte) : Nat → Bytes → Nat → Nat → Bytes → List Frame
  | 0, _, _, _, _ => []
  | n + 1, body, frag, serial, link =>
    let more := decide (3840 < body.length)
    let f : Frame := { typ := typ, frag := BitVec.ofNat 15 frag, more := more, serial := serial, ttc := s.ttc,
                       epoch := curEpoch s, body := body.take 3840, link := [], lost := false }
    let l := frameLink link f
    { f with link := l } :: (if more then mkFrames s typ n (body.drop 3840) (frag + 1) (serial + 1) l else [])

/-- FLC_LOG_USE.FULL (R287). -/
def logFull (s : State) : Bool := bitR s Reg.FLC_LOG_USE 18

/-- The types still written to a full log (R287). -/
def keptType (t : Byte) : Bool := ([0x01, 0x02, 0x03, 0x04, 0x21, 0x22, 0x25] : List Byte).contains t

def framesOf (s : State) (typ : Byte) (body : Bytes) : List Frame :=
  mkFrames s typ (body.length / 3840 + 1) body 0 s.log.next s.log.link

/-- Hand a staging write to the log writer (R275). -/
def stageWrite (s : State) (w : StagingWrite) : State :=
  let fs := w.frames
  { s with log := { s.log with staging := s.log.staging ++ [w], next := s.log.next + fs.length,
                               link := match fs.getLast? with
                                 | some f => f.link
                                 | none => s.log.link } }

/-- Hand frames and the delta before them to staging as one staging write. -/
def stage (s : State) (fs : List Frame) (delta : Bytes) (manifest : Bool) : State :=
  stageWrite s { frames := fs, delta := delta, manifest := manifest, ckpt := none }

/-- Append a record; on a full log the types not kept are dropped and counted (R287). -/
def appendRecord (s : State) (typ : Byte) (body : Bytes) : State :=
  if logFull s && !keptType typ then
    raiseEvery (countR64 s Reg.FLC_DROPPED (framesOf s typ body).length) (1000 * msTicks) 323
  else stage s (framesOf s typ body) [] false

/-- The serial an appended record takes; 0 when the log drops it (R191). -/
def recordSerial (s : State) (typ : Byte) : Nat := if logFull s && !keptType typ then 0 else s.log.next

/-- The alarm record (R452). -/
def alarmRecord (s : State) (src cls dets origin : Nat) (c : BitVec 48) (ttc : DWord) : State :=
  appendRecord s 0x30
    ([BitVec.ofNat 8 src, BitVec.ofNat 8 cls, BitVec.ofNat 8 dets, BitVec.ofNat 8 origin] ++ zeros 4 ++ le 8 c.toNat ++
      le 8 ttc.toNat ++ zeros 8)

/-- Newest stored serial; 0 in an empty log. -/
def newestStored (s : State) : Nat :=
  match s.log.frames.getLast? with
  | some f => f.serial
  | none => 0

/-- Oldest serial held; one past the newest when none is held (R283). -/
def oldestStored (s : State) : Nat :=
  match s.log.frames.head? with
  | some f => f.serial
  | none => newestStored s + 1

/-- What a reset or a loss of power leaves of the log: frames not stored leave no trace (R577). -/
def logAfterReset (s : State) : State :=
  { s with log := { s.log with staging := [], raised := false, next := newestStored s + 1,
                               link := match s.log.frames.getLast? with
                                 | some f => f.link
                                 | none => zeros 16 } }

end Sys2Proof.Machine
end

