-- ==== Sys2Proof/Machine/Branch.lean ====
section
/-! DEFINITION. The branch tree: ancestry, keys, use checks and charges, the key cache, and the loss of the Trunk
(R218 to R238, R244). An entry of `State.branches` is a branch that is not FREE. -/

namespace Sys2Proof.Machine

/-! ### Ancestry (R226, R233) -/

/-- A branch and its ancestors, nearest first, if every one of them is VALID. The Trunk is not listed. -/
def validChain (m : SMap Branch) : Nat → Nat → Option (List Nat)
  | 0, _ => none
  | n + 1, i =>
    if i = 0 then some []
    else
      match mget? m i with
      | some b => if b.state = .valid then (validChain m n b.parent).map (fun l => i :: l) else none
      | none => none

/-- The indices from a branch up to the Trunk, whatever their states. -/
def pathUp (m : SMap Branch) : Nat → Nat → List Nat
  | 0, _ => []
  | n + 1, i =>
    if i = 0 then []
    else
      match mget? m i with
      | some b => i :: pathUp m n b.parent
      | none => [i]

/-- A branch, or the Trunk for index 0, is VALID with a valid ancestry and the Trunk VALID. -/
def chainValid (s : State) (i : Nat) : Bool :=
  decide (s.vigil.trunk = .valid) && (validChain s.branches 9 i).isSome

/-! ### Keys (R225, R227, R229) -/

/-- X_branch: LABEL ‖ KIND ‖ LE32(GENERATION). -/
def xBranch (label : Bytes) (kind : Nat) (gen : Word) : Bytes :=
  slice label 0 32 ++ [BitVec.ofNat 8 kind] ++ le 4 gen.toNat

def childKey (parent label : Bytes) (kind : Nat) (gen : Word) : Bytes :=
  kmac256 parent (xBranch label kind gen) 32 (ascii "XLX branch")

/-- The key of a branch; the Trunk's for index 0. -/
def keyUnder (s : State) : Nat → Nat → Bytes
  | 0, _ => zeros 32
  | n + 1, i =>
    if i = 0 then s.vigil.trunkKey
    else
      match mget? s.branches i with
      | some b =>
        if b.installed then b.key else childKey (keyUnder s n b.parent) b.label b.kind.toNat b.generation
      | none => zeros 32

def branchKey (s : State) (i : Nat) : Bytes := keyUnder s 9 i

/-- The Falcon key-generation seed of a key (R229). -/
def falconSeed (k : Bytes) : Bytes := kmac256 k (ascii "falcon") 64 (ascii "XLX falcon seed")

/-- d ‖ z of a KEM seed (R229). -/
def kemSeed (k : Bytes) : Bytes := kmac256 k (ascii "kem") 64 (ascii "XLX kem seed")

/-- The 448-bit number behind the P-384 scalar of a KEM seed, big-endian (R229). -/
def ecdhBytes (k : Bytes) : Bytes := kmac256 k (ascii "ecdh") 56 (ascii "XLX kem seed")

/-- The CMD42 password of a card-lock key (R229). -/
def cardPassword (k cid : Bytes) : Bytes := kmac256 k (slice cid 0 16) 16 (ascii "XLX card lock")

/-- The Works Plate seed is present. -/
def hasPlate (s : State) : Bool := !allZero s.worksPlate

/-- The Works Plate's Falcon seed and public key (R244). -/
def plateSeed (s : State) : Bytes := falconSeed s.worksPlate
def platePublic (s : State) : Bytes := slice (falconPublic (plateSeed s)) 0 1793

/-- IDENTITY (R199). -/
def identity (s : State) : Bytes := (sha3_256 (platePublic s)).take 16

/-! ### The cells that a lookup reads (R218, R223, R231) -/

/-- A slot of the key cache holds the key of a branch under its present GENERATION. -/
def holdsBranch (s : State) (i : Nat) (k : KeySlot) : Bool :=
  decide (k.parent = i ∧ k.line = none) && decide (some k.parentGen = (mget? s.branches i).map (fun b => b.generation))

/-- The cell that a derivation starts from: the nearest cached ancestor's, or the Trunk's. -/
def sourceCell (s : State) : Nat → Nat → Option PrivateCell
  | 0, _ => none
  | n + 1, i =>
    if i = 0 then some .trunk
    else if s.keyCache.any (holdsBranch s i) then some (.keySlot i none)
    else
      match mget? s.branches i with
      | some b => if b.installed then none else sourceCell s n b.parent
      | none => none

/-- An entry on the way from a branch to the Trunk holds a seal mismatch. -/
def entriesBad (s : State) (i : Nat) : Bool := (pathUp s.branches 9 i).any (fun j => privateBad s (.branch j))

/-- The key that a derivation starts from holds a seal mismatch. -/
def sourceBad (s : State) (i : Nat) : Bool := ((sourceCell s 10 i).map (privateBad s)).getD false

/-! ### Use checks (R222, R233) -/

/-- The outcome of a check: a status and the reason BTR_RESULT gives for it. -/
structure Check where
  status : Nat
  reason : Nat
  deriving DecidableEq, Repr

def Check.ok : Check := { status := 0, reason := 0 }

/-- A cell that the check reads holds a seal mismatch (R24). -/
def Check.sealFault : Check := { status := 0x0D, reason := 0 }

/-- Every master of a list is permitted by a mask. -/
def permitsAll (mask : DWord) (ms : List Nat) : Bool := ms.all (fun m => mask.getLsbD m)

/-- A branch is named where one is needed (R222, R235). -/
def namedBranch (s : State) (i : Nat) : Bool := !decide (i = 0) && !decide (i = 4095) && (mget? s.branches i).isSome

/-- The checks of a use of branch `i`, in the order of R233, for a kind test and the masters that receive the key or
requested the use. -/
def useCheck (s : State) (i : Nat) (kindOk : Nat → Bool) (ms : List Nat) : Check :=
  match mget? s.branches i with
  | none => { status := 0x06, reason := 13 }
  | some b =>
    if i = 0 ∨ i = 4095 then { status := 0x06, reason := 13 }
    else if entriesBad s i then .sealFault
    else if !chainValid s i then { status := 0x06, reason := 1 }
    else if !kindOk b.kind.toNat then { status := 0x06, reason := 2 }
    else if !permitsAll b.mask ms then { status := 0x06, reason := 3 }
    else if b.uses = 0 then { status := 0x07, reason := 0 }
    else if sourceBad s i then .sealFault
    else .ok

/-- What a failed check raises: event 289 where USES stood at 0 (R233), event 192 for a seal fault (R24). -/
def noteCheck (s : State) (c : Check) : State :=
  if c.status = 0x07 then raise (orR s Reg.BTR_ERR 0x8) 289
  else if c.status = 0x0D then sealFault s spineTile
  else s

/-- Append a count record to the current image (R241). -/
def countRecord (img : Option TableImage) (i : Nat) (uses : Word) : Option TableImage :=
  img.map (fun t => { t with counts := mput t.counts i uses })

/-- Charge one use (R233); a count record is written each time USES has fallen by 4,096 (R241). -/
def chargeUse (s : State) (i : Nat) : State :=
  match mget? s.branches i with
  | none => s
  | some b =>
    if b.uses = 0xFFFFFFFF ∨ b.uses = 0 then s
    else
      let u := b.uses - 1
      if b.usesSaved.toNat ≥ u.toNat + 4096 then
        { s with branches := mput s.branches i { b with uses := u, usesSaved := u },
                 image := countRecord s.image i u }
      else { s with branches := mput s.branches i { b with uses := u } }

/-! ### The key cache (R231, R232) -/

def keyCacheSlots : Nat := 16384

def sameKeySlot (a b : KeySlot) : Bool :=
  decide (a.parent = b.parent ∧ a.parentGen = b.parentGen ∧ a.line = b.line)

/-- The KEM-seed branch that a request at the MAE uses. -/
def HybridRequest.seedOf : HybridRequest → Nat
  | .command _ _ _ k => k
  | .waybill _ _ _ _ k => k

/-- Branches whose keys the engines pin between steps: those of the lanes' jobs, of the request at the MAE, and of the command in
progress (R232). The KDE absorbs its key block, and a card unlock uses its password, within one step (R305; log entry 3). -/
def enginePins (s : State) : List Nat :=
  s.lanes.toList.filterMap (fun l =>
    match l.job with
    | some (.desc _ _ d _) => some (num d 2 2 % 4096)
    | some (.manifest _) => some ((sstGet s 3).toNat % 4096)
    | none => none) ++
  (s.mae.request.map HybridRequest.seedOf).toList ++ (s.btr.map (fun p => p.index)).toList

/-- A line entry is pinned while a waybill of its line that has read it is not completed (R152), a branch entry while an engine uses it (R232). -/
def keyPinned (s : State) (k : KeySlot) : Bool :=
  match k.line with
  | some (l, _) => ((mget? s.lne.lines l).map (fun r => r.flights.any (fun f => decide (f.key = k.key)))).getD false
  | none => (enginePins s).contains k.parent

/-- Remove the least recently used slot that is not pinned. -/
def evictKey (s : State) (l : List KeySlot) : List KeySlot :=
  match l.reverse.findIdx? (fun k => !keyPinned s k) with
  | some j => l.eraseIdx (l.length - 1 - j)
  | none => l

/-- Put a slot in front, as the most recently used. -/
def cacheKey (s : State) (k : KeySlot) : State :=
  let l := s.keyCache.filter (fun x => !sameKeySlot x k)
  sealPrivate { s with keyCache := k :: (if keyCacheSlots ≤ l.length then evictKey s l else l) } (.keySlot k.parent k.line)

/-- The slot of a branch entry. -/
def branchSlot (s : State) (i : Nat) : KeySlot :=
  { parent := i, parentGen := ((mget? s.branches i).map (fun b => b.generation)).getD 0, line := none,
    ancestors := (pathUp s.branches 9 i).drop 1, key := branchKey s i }

/-- Cache the keys on the way down to a branch (R231). -/
def cachePath (s : State) (i : Nat) : State :=
  (pathUp s.branches 9 i).reverse.foldl (fun t j => cacheKey t (branchSlot t j)) s

/-- Flush every slot whose identity or ancestor list contains an index (R235, R236). -/
def flushKeys (s : State) (i : Nat) : State :=
  { s with keyCache := s.keyCache.filter (fun k => !(decide (k.parent = i) || k.ancestors.contains i)) }

/-- A use of a branch key by an engine: its charge, and the keys cached on the way (R231, R233). -/
def useBranch (s : State) (i : Nat) : State := cachePath (chargeUse s i) i

/-! ### Results of the branch tree unit (R250) -/

def btrResult (s : State) (status reason : Nat) : State :=
  setR s Reg.BTR_RESULT (withInverse status ||| place 16 4 reason ||| 0x80000000)

/-- Modes in which structural key work is accepted (R250). -/
def inRunOrCommission (s : State) : Bool := decide (s.mode = .running) || decide (s.mode = .commissioning)

/-! ### Creation of a branch (R226, R228, R230) -/

def defaultUses : Word := 0xFFFFFFFF

/-- Kind `k` may be a parent (R224). -/
def parentKind (k : Nat) : Bool := decide (k = 1) || decide (k = 6)

/-- Kind `k` may be created under a parent of kind `pk` (none: the Trunk) by DERIVE, or by a hybrid install (R224, R228). -/
def creatable (k : Nat) (pk : Option Nat) (install : Bool) : Bool :=
  if install then decide (k = 1) || decide (k = 6)
  else if k = 5 then decide (pk = some 6)
  else decide (k = 1) || decide (k = 2) || decide (k = 3) || decide (k = 4)

/-- Another command-pairing branch holds the label (R226). -/
def labelTaken (s : State) (label : Bytes) : Bool :=
  s.branches.any (fun e => decide (e.2.kind = 6) && decide (e.2.label = slice label 0 32))

def depthOf (s : State) (i : Nat) : Nat := if i = 0 then 0 else ((mget? s.branches i).map (fun b => b.depth)).getD 0

/-- The conditions of R226, in the order of its table, with the mask of the parent for the cores that requested the use (R233). -/
def createCheck (s : State) (target parent kind : Nat) (label : Bytes) (install : Bool) (ms : List Nat) : Check :=
  let pb := mget? s.branches parent
  if target = 0 ∨ target = 4095 then { status := 0x06, reason := 13 }
  else if privateBad s (.branch target) || entriesBad s parent then .sealFault
  else if (mget? s.branches target).isSome then { status := 0x13, reason := 5 }
  else if parent = 4095 ∨ (parent ≠ 0 ∧ pb.isNone) then { status := 0x06, reason := 13 }
  else if !chainValid s parent then { status := 0x06, reason := 1 }
  else if parent ≠ 0 ∧ !(pb.map (fun b => parentKind b.kind.toNat)).getD false then { status := 0x06, reason := 2 }
  else if !creatable kind (if parent = 0 then none else pb.map (fun b => b.kind.toNat)) install then
    { status := 0x06, reason := 2 }
  else if 8 ≤ depthOf s parent then { status := 0x06, reason := 4 }
  else if !(pb.map (fun b => permitsAll b.mask ms)).getD true then { status := 0x06, reason := 3 }
  else if parent ≠ 0 ∧ (pb.map (fun b => decide (b.uses = 0))).getD false then { status := 0x07, reason := 0 }
  else if kind = 6 ∧ labelTaken s label then { status := 0x13, reason := 5 }
  else .ok

/-- USER_MASK without the bits that are always 0 (R223). -/
def legalMask (m : DWord) : DWord := m &&& 0x0000007FFFFFFFFE

/-- The new entry (R226). -/
def newBranch (s : State) (parent kind : Nat) (label : Bytes) (mask : DWord) (uses : Word) (expire : Bool)
    (key : Option Bytes) : Branch :=
  { state := .valid, kind := BitVec.ofNat 3 kind, parent := parent, depth := depthOf s parent + 1,
    label := slice label 0 32, mask := legalMask mask, uses := uses,
    expire := expire || ((mget? s.branches parent).map (fun b => b.expire)).getD false,
    generation := 0, installed := key.isSome, lines := 0, key := key.getD [], created := s.ttc, usesSaved := uses }

/-- Enter a new branch and charge its parent (R226, R233). -/
def createBranch (s : State) (target : Nat) (b : Branch) : State :=
  let s := if b.parent = 0 then s else chargeUse s b.parent
  sealPrivate { s with branches := mput s.branches target b } (.branch target)

/-! ### The Trunk -/

/-- The Trunk is lost (R221): its cells clear, every branch is orphaned, the key cache is flushed and event 292 is
raised. -/
def dropTrunk (s : State) : State :=
  tailDue (raise (sealPrivate { s with vigil := { s.vigil with trunk := .lost, trunkKey := zeros 32 }, keyCache := [] } .trunk) 292)

/-- BTR_CONFIG.ZFULL, setting 16 (R245, R558). -/
def zfull (s : State) : Bool := (sstGet s 16).getLsbD 0

/-- A Zeroise erases the Works Plate seed under ZFULL, at once with main power and at the next power-up otherwise
(R245, R558). -/
def erasePlate (s : State) : State :=
  if zfull s then
    if mainPower s then { s with worksPlate := zeros 32 }
    else { s with vigil := { s.vigil with erasePending := true } }
  else s

/-! ### The table image (R239 to R243) -/

/-- The branches that an image keeps. -/
def persistent (m : SMap Branch) : SMap Branch := m.filter (fun e => !e.2.expire)

/-- The serial register of the image, setting 9. -/
def imageSerial (s : State) : Nat := (sstGet s 9).toNat

/-- The serial register has reached its wear limit (R243, R556). -/
def imageWorn (s : State) : Bool := decide (100000 ≤ sstCount s 9)

end Sys2Proof.Machine
end

