-- ==== Sys2Proof/Machine/Merkle.lean ====
section
/-! DEFINITION. Epoch arithmetic and the sparse Merkle trees (R187, R192, R193, R209, R267). -/

namespace Sys2Proof.Machine

/-! ### Epochs (R187) -/

def epochLen (s : State) : Nat := (sstGet s 0).toNat
def epochBase (s : State) : Nat := (sstGet s 1).toNat
def epochK0 (s : State) : Nat := (sstGet s 2).toNat

/-- The epoch that covers a TTC value (R187). -/
def epochOf (s : State) (t : Nat) : Nat := epochK0 s + (t - epochBase s) / max 1 (epochLen s)

/-- The first TTC of an epoch (R187). -/
def epochStart (s : State) (k : Nat) : Nat := epochBase s + (k - epochK0 s) * epochLen s

/-- The boundary at which an epoch ends (R190). -/
def epochEnd (s : State) (k : Nat) : Nat := epochStart s (k + 1)

/-! ### Trees (R192) -/

def emptyLeaf : Bytes := zeros 32

def nodeHash (l r : Bytes) : Bytes := sha3_256 (0x01 :: (l ++ r))

def leafHash (line seq : Nat) (head : Bytes) : Bytes := sha3_256 (0x00 :: (le 4 line ++ le 8 seq ++ slice head 0 32))

/-- Value of an empty subtree of a level. -/
def emptyTree : Nat → Bytes
  | 0 => emptyLeaf
  | i + 1 => nodeHash (emptyTree i) (emptyTree i)

/-- Root of the subtree of a level; leaves are given by their index within it. -/
def subRoot : Nat → List (Nat × Bytes) → Bytes
  | 0, [] => emptyLeaf
  | 0, (_, v) :: _ => v
  | i + 1, l =>
    if l.isEmpty then emptyTree (i + 1)
    else
      let (a, b) := l.partition (fun e => decide (e.1 < 2 ^ i))
      nodeHash (subRoot i a) (subRoot i (b.map (fun e => (e.1 - 2 ^ i, e.2))))

/-- The siblings on the path of leaf `n`, from level 0 up (R209). -/
def siblings : Nat → Nat → List (Nat × Bytes) → List Bytes
  | 0, _, _ => []
  | i + 1, n, l =>
    let (a, b) := l.partition (fun e => decide (e.1 < 2 ^ i))
    let b' := b.map (fun e => (e.1 - 2 ^ i, e.2))
    if n < 2 ^ i then siblings i n a ++ [subRoot i b'] else siblings i (n - 2 ^ i) b' ++ [subRoot i a]

/-- Leaf values of the line tree. -/
def leafValues (m : SMap Leaf) : List (Nat × Bytes) := m.map (fun e => (e.1, leafHash e.1 e.2.seq.toNat e.2.head))

/-- One table of leaves over another. -/
def overlay (m d : SMap Leaf) : SMap Leaf := d.foldl (fun a e => mput a e.1 e.2) m

/-- The tree that a rebuild reads from flash: the newest base checkpoint or the staging checkpoint of a full log, the later
checkpoints, then the deltas (R214); what can no longer be read adds nothing. -/
def rebuiltLeaves (su : SealUnit) : SMap Leaf :=
  let c := match su.stagedCkpt with
    | some c => [c]
    | none => su.ckpts
  let m := c.foldl (fun m c => if c.lost then m else overlay m c.leaves) []
  su.deltas.foldl (fun m d => if d.lost then m else overlay m d.leaves) m

/-- Root of the tree over all lines (R192). -/
def lineRoot (m : SMap Leaf) : Bytes := subRoot 19 (leafValues m)

def stationLeaf (i : Nat) (x : Nat × Bytes × Bytes) : Bytes :=
  sha3_256 (0x02 :: (le 2 i ++ le 8 x.1 ++ slice x.2.1 0 16 ++ slice x.2.2 0 32))

/-- EPOCH, S_ID and DIGEST of a slot's last accepted relay; only ENROLLED slots hold a leaf. -/
def slotLeaf (st : Station) : Option (Nat × Bytes × Bytes) :=
  if st.state = .enrolled then some (st.epoch, st.sId, st.digest) else none

/-- The leaf before the relays that belong to an epoch after `k`. -/
def undoRelays (k : Nat) : List RelayMark → Option (Nat × Bytes × Bytes) → Option (Nat × Bytes × Bytes)
  | [], x => x
  | m :: r, x => if k < m.epoch then undoRelays k r m.before else x

/-- A slot's leaf in the Station tree of Terminus epoch `k`. -/
def leafInEpoch (st : Station) (k : Nat) : Option (Nat × Bytes × Bytes) := undoRelays k st.relays (slotLeaf st)

def stationLeaves (m : SMap Station) (k : Nat) : List (Nat × Bytes) :=
  m.filterMap (fun e => (leafInEpoch e.2 k).map (fun x => (e.1, stationLeaf e.1 x)))

/-- Root of the Station tree of Terminus epoch `k` (R267). -/
def stationRoot (m : SMap Station) (k : Nat) : Bytes := subRoot 12 (stationLeaves m k)

/-- Slots with a relay that belongs to Terminus epoch `k` (R268). -/
def relayedIn (m : SMap Station) (k : Nat) : Nat :=
  (m.filter (fun e => e.2.relays.any (fun r => decide (r.epoch = k)))).length

/-! ### Storage of the trees (R194) -/

/-- Blocks of 64 leaves that differ between two trees. -/
def blocksChanged (a b : SMap Leaf) : Nat :=
  (((a.filter (fun e => !decide (mget? b e.1 = some e.2))) ++ (b.filter (fun e => !decide (mget? a e.1 = some e.2)))).map
    (fun e => e.1 / 64)).dedup.length

/-- The trees that hold storage, oldest first: the window, then the jobs, then the current tree. -/
def heldTrees (s : State) : List (SMap Leaf) :=
  (s.su.window.reverse.map (fun t => t.leaves)) ++ s.su.jobs.map (fun j => j.leaves) ++ [s.su.leaves]

/-- Superseded blocks that the leaf bank retains. -/
def superseded : List (SMap Leaf) → Nat
  | a :: b :: r => blocksChanged a b + superseded (b :: r)
  | _ => 0

/-- Drop the oldest tree from the PROVE window (R194). -/
def dropTree (s : State) : State :=
  if s.su.window.isEmpty then s
  else raise (orR { s with su := { s.su with window := s.su.window.dropLast } } Reg.SEAL_ERR 0x10) 277

/-- Drop trees until the leaf bank holds what is left. -/
def dropForLeaves : Nat → State → State
  | 0, s => s
  | n + 1, s => if 32768 < superseded (heldTrees s) then dropForLeaves n (dropTree s) else s

/-- The open epoch takes a leaf: its delta list, and while the tree is rebuilt the list of R215 too. -/
def leafTaken (e : Epoch) (rebuilding : Bool) (line : Nat) (leaf : Leaf) (stamp : DWord) : Epoch :=
  { e with changed := mput e.changed line leaf, during := if rebuilding then mput e.during line leaf else e.during,
           consists := e.consists + 1, largestStamp := if e.largestStamp.toNat < stamp.toNat then stamp else e.largestStamp }

/-- Post a leaf into the tree of the open epoch (R163, R193); a block that finds no free slot drops trees from the PROVE
window (R194). -/
def postInto (s : State) (line : Nat) (leaf : Leaf) (stamp : DWord) : State :=
  match s.su.open_ with
  | none => s
  | some e =>
    dropForLeaves s.su.window.length { s with su := { s.su with
      leaves := mput s.su.leaves line leaf, open_ := some (leafTaken e s.su.rebuilding line leaf stamp) } }

/-- Post a leaf; one stamped past the open epoch's boundary waits for the next epoch (R190). -/
def postLeaf (s : State) (line : Nat) (leaf : Leaf) (stamp : DWord) : State :=
  match s.su.open_ with
  | none => s
  | some e =>
    if epochEnd s e.number ≤ stamp.toNat then { s with su := { s.su with ahead := s.su.ahead ++ [(stamp, line, leaf)] } }
    else postInto s line leaf stamp

/-! ### Identity (R199, R244) -/

/-- IDENTITY: first 16 bytes of the digest of the Works Plate public key. -/
def identityOf (pub : Bytes) : Bytes := (sha3_256 pub).take 16

end Sys2Proof.Machine
end

