-- ==== Sys2Proof/Machine/Lines.lean ====
section
/-! DEFINITION. Line records, contexts and their cache, completions, halts and faults (R73 to R107, R134, R135). -/

namespace Sys2Proof.Machine

/-! ### Line records (R80, R86) -/

def getLine (s : State) (l : Nat) : Line := (mget? s.lne.lines l).getD Line.closed

/-- Store a line record; a CLOSED one is not listed. -/
def setLine (s : State) (l : Nat) (r : Line) : State :=
  { s with lne := { s.lne with lines := mset Line.closed s.lne.lines l r } }

def modLine (s : State) (l : Nat) (f : Line → Line) : State := setLine s l (f (getLine s l))

/-- Entries from one index to another, modulo 2N (R80). -/
def ringCount (log2 head tail : Nat) : Nat := (tail + 2 * 2 ^ log2 - head) % (2 * 2 ^ log2)

def upCount (r : Line) : Nat := ringCount r.upLog2 r.upHead r.upTail
def dnCount (r : Line) : Nat := ringCount r.dnLog2 r.dnHead r.dnTail

def bump (log2 i : Nat) : Nat := (i + 1) % (2 * 2 ^ log2)

/-- Waybills in flight on the device (R98). -/
def inFlight (s : State) : Nat := (s.lne.lines.map (fun e => e.2.flights.length)).sum

/-- Data-line waybills assigned to tracks and not yet completed (MSH_QUEUE). -/
def queuedOnTracks (s : State) : Nat :=
  (s.lne.lines.map (fun e => (e.2.flights.filter (fun f => f.assigned)).length)).sum

def flight? (s : State) (l id : Nat) : Option Flight := (getLine s l).flights.find? (fun f => decide (f.id = id))

def updFlight (s : State) (l id : Nat) (g : Flight → Flight) : State :=
  modLine s l (fun r => { r with flights := r.flights.map (fun f => if f.id = id then g f else f) })

/-! ### Contexts (R89 to R96) -/

/-- The 128 bytes of a context (R89). -/
def contextBytes (l : Nat) (c : Context) : Bytes :=
  le 4 (l + b2n c.service * 0x1000000 + b2n c.verify * 0x2000000 + c.cls.toNat * 0x4000000) ++ [c.upLog2, c.dnLog2] ++
    le 2 (c.vector.toNat + b2n c.vecEn * 0x8000) ++ le 8 c.upBase.toNat ++ le 8 c.dnBase.toNat ++ le 2 c.parent.toNat ++
    [0, 0] ++ le 4 c.generation.toNat ++ le 8 c.sequence.toNat ++ le 8 c.records.toNat ++ le 8 c.lastTtc.toNat ++
    le 8 c.lastEpoch.toNat ++ slice c.chainHead 0 32 ++ le 8 c.openTtc.toNat ++ le 8 c.openEpoch.toNat ++ zeros 16

def ctx? (s : State) (l : Nat) : Option Context := mget? s.lne.contexts l

def slot? (s : State) (l : Nat) : Option Slot := (s.lne.cache.find? (fun e => decide (e.1 = l))).map (fun e => e.2)

/-- The number of the slot that a line's context occupies. -/
def placeOf (s : State) (l : Nat) : Option Nat := (s.lne.places.find? (fun e => decide (e.2 = l))).map (fun e => e.1)

/-- A free slot of the cache: the lowest (log entry 130). -/
def freePlace (s : State) : Option Nat :=
  mfree (s.lne.leaving.foldl (fun m e => mput m e.2 e.1) s.lne.places) 0 65536

/-- A line that is to hold a slot has one. -/
def takePlace (s : State) (l : Nat) : SMap Nat :=
  if (placeOf s l).isSome then s.lne.places
  else
    match freePlace s with
    | some p => mput s.lne.places p l
    | none => s.lne.places

/-- Put a line's slot in front, as the most recently used. -/
def putSlot (s : State) (l : Nat) (t : Slot) : State :=
  { s with lne := { s.lne with cache := (l, t) :: s.lne.cache.filter (fun e => !decide (e.1 = l)), places := takePlace s l } }

/-- Use a context: its slot becomes the most recently used (R94). -/
def touchSlot (s : State) (l : Nat) : State :=
  match slot? s l with
  | some t => putSlot s l t
  | none => s

/-- The slots of places but the given one. -/
def clearPlace (m : SMap Nat) (p : Option Nat) : SMap Nat :=
  match p with
  | some i => mdel m i
  | none => m

/-- The first byte of a slot of the context cache (R39). -/
def slotBase (p : Nat) : Nat := 0x60000000 + 128 * p

/-- What the cells of a slot hold once its context has gone: the context, until something is written there (log entry 99). -/
def leaveBytes (s : State) (l : Nat) : SMap Byte :=
  match placeOf s l, ctx? s l with
  | some p, some c => putBytes s.mem (slotBase p) (contextBytes l c)
  | _, _ => s.mem

/-- Drop a context. A spill of it that has not left the device keeps the slot occupied until it has (R94). -/
def dropSlot (s : State) (l : Nat) : State :=
  let s := { s with mem := leaveBytes s l }
  let out := match slot? s l with
    | some (.live _ true) => true
    | _ => false
  let lne := { s.lne with cache := s.lne.cache.filter (fun e => !decide (e.1 = l)), contexts := mdel s.lne.contexts l,
                          places := clearPlace s.lne.places (placeOf s l) }
  { s with lne := if out then { lne with leaving := lne.leaving ++ [(l, (placeOf s l).getD 0)] } else lne }

/-- Slots occupied (R94). -/
def occupied (s : State) : Nat := s.lne.cache.length + s.lne.leaving.length

/-- A context is in the cache and usable. -/
def resident (s : State) (l : Nat) : Bool :=
  match slot? s l with
  | some (.live _ _) => true
  | _ => false

/-! ### Seals of contexts and line records (R20, R24, R25, R86, R105) -/

/-- The cells of a slot of the context cache: 16 from 0x6000_0000 on (R39). -/
def slotCells (p : Nat) : Nat := 0xC000000 + 16 * p

/-- A cell of a line's context holds a seal mismatch. -/
def ctxBad (s : State) (l : Nat) : Bool :=
  match placeOf s l with
  | some p => s.badCells.any (fun c => decide (slotCells p ≤ c ∧ c < slotCells p + 16))
  | none => false

/-- A context written whole gets fresh seals (R25). -/
def sealCtx (s : State) (l : Nat) : State :=
  match placeOf s l with
  | some p => { s with badCells := s.badCells.filter (fun c => !decide (slotCells p ≤ c ∧ c < slotCells p + 16)) }
  | none => s

/-- The line record of a line holds a seal mismatch (R86). -/
def recordBad (s : State) (l : Nat) : Bool := privateBad s (.lineRecord l)

/-! ### Changes of a context -/

/-- Store a context; its slot is changed and most recently used. -/
def setCtx (s : State) (l : Nat) (c : Context) : State :=
  let out := match slot? s l with
    | some (.live _ o) => o
    | _ => false
  sealCtx (putSlot { s with lne := { s.lne with contexts := mput s.lne.contexts l c } } l (.live true out)) l

def kctxTag (s : State) (l : Nat) (spills : BitVec 40) (b : Bytes) : Bytes :=
  kmac256 s.lne.kctx (le 4 l ++ le 8 spills.toNat ++ b) 16 (ascii "XLX context")

/-- A 64-bit field of a waybill. -/
def wf64 (raw : Bytes) (o : Nat) : Nat := num raw o 8

def num64 (b : Bytes) (o : Nat) : DWord := BitVec.ofNat 64 (num b o 8)

/-- The context 128 bytes spell (R89). -/
def parseContext (b : Bytes) : Context :=
  let w := BitVec.ofNat 32 (num b 0 4)
  let v := num b 6 2
  { service := bit w 24, verify := bit w 25, cls := BitVec.ofNat 2 (bitsOf w 26 2), upLog2 := b.getD 4 0,
    dnLog2 := b.getD 5 0, vector := BitVec.ofNat 11 v, vecEn := decide (0x8000 ≤ v), upBase := num64 b 8,
    dnBase := num64 b 16, parent := BitVec.ofNat 12 (num b 24 2), generation := BitVec.ofNat 32 (num b 28 4),
    sequence := num64 b 32, records := num64 b 40, lastTtc := num64 b 48, lastEpoch := num64 b 56,
    chainHead := slice b 64 32, openTtc := num64 b 96, openEpoch := num64 b 104 }

def cacheSlots : Nat := 65536

/-- A LINE_* waybill of line 0 in progress names the line (R94). -/
def lineOpBusy (s : State) (l : Nat) : Bool :=
  (getLine s 0).flights.any (fun f =>
    decide (0x10 ≤ byteAt f.raw 2 ∧ byteAt f.raw 2 ≤ 0x12 ∧ num f.raw 4 4 % 524288 = l))

/-- A context cannot be evicted (R94). -/
def pinned (s : State) (l : Nat) : Bool :=
  !(getLine s l).flights.isEmpty || lineOpBusy s l ||
    match slot? s l with
    | some (.live _ out) => out
    | some _ => true
    | none => false

/-- Fills and spills under way (R94). -/
def transfers (s : State) : Nat :=
  (s.lne.cache.filter (fun e => match e.2 with
    | .live _ out => out
    | _ => true)).length + s.lne.leaving.length

/-- Issue the spill of a changed context (R90, R91). -/
def startSpill (s : State) (l : Nat) : State :=
  let r := getLine s l
  let n := r.spills + 1
  let b := contextBytes l ((ctx? s l).getD (parseContext []))
  let s := setLine s l { r with spills := n, resident := false }
  let s := hostWrite s (getR64 s Reg.HLK_BSTORE_BASE + BitVec.ofNat 64 (160 * l)) (b ++ kctxTag s l n b)
  countR64 (putSlot s l .spilling) Reg.LNE_SPILLS 1

/-- The least recently used context that is not pinned. -/
def evictable (s : State) : Option (Nat × Slot) := s.lne.cache.reverse.find? (fun e => !pinned s e.1)

/-- Make a slot free if none is: an unchanged context is dropped, a changed one is spilled and frees its slot later. -/
def makeRoom (s : State) : State :=
  if occupied s < cacheSlots then s
  else
    match evictable s with
    | some (l, .live false _) => modLine (dropSlot s l) l (fun r => { r with resident := false })
    | some (l, .live true _) => if transfers s < 64 then startSpill s l else s
    | _ => s

/-- Start what a line that needs its context needs: nothing if it is resident or on its way, its slot back if its spill
has not left the device (R95), otherwise a fill (R94, R97). Both are fills that LNE_FILLS counts. -/
def wantContext (s : State) (l : Nat) : State :=
  match slot? s l with
  | some (.live _ _) => s
  | some .filling => s
  | some .spilling =>
    countR64 (modLine (putSlot s l (.live false true)) l (fun r => { r with resident := true })) Reg.LNE_FILLS 1
  | none =>
    let s := makeRoom s
    if occupied s < cacheSlots ∧ transfers s < 64 then
      countR64 (putSlot s l .filling) Reg.LNE_FILLS 1
    else s

/-- A fill whose tag verifies (R92): the context is live and unchanged. -/
def acceptFill (s : State) (l : Nat) (slotBytes : Bytes) : State :=
  modLine (sealCtx (putSlot { s with lne := { s.lne with contexts := mput s.lne.contexts l (parseContext (slice slotBytes 0 128)) } }
    l (.live false false)) l) l (fun r => { r with resident := true })

def fillOk (s : State) (l : Nat) (slotBytes : Bytes) : Bool :=
  decide (slice slotBytes 128 16 = kctxTag s l (getLine s l).spills (slice slotBytes 0 128))

/-! ### Stored Manifests (R206, R573) -/

/-- EPOCH of a stored Manifest frame's body. -/
def manifestEpoch (b : Bytes) : Nat := num b 4 6

/-- Bodies of the stored Manifests, oldest first (R573). -/
def manifests (s : State) : List Bytes :=
  (s.log.frames.filter (fun f => decide (f.typ = 0x01) && !f.lost)).map (fun f => f.body)

/-- The signed copy of a Manifest where one is stored (R206). -/
def signedCopy (s : State) (b : Bytes) : Bytes :=
  match s.log.frames.find? (fun f => decide (f.typ = 0x02 ∧ f.body.take 128 = b.take 128) && !f.lost) with
  | some f => f.body
  | none => b

/-- The newest Manifest of an epoch is stored and still without a signature: by its frame, or once that has been reclaimed by the
backlog (R135). -/
def stillUnsigned (s : State) (epoch : Nat) : Bool :=
  match ((manifests s).filter (fun b => decide (manifestEpoch b = epoch))).getLast? with
  | some b => allZero (slice (signedCopy s b) 128 1280)
  | none => s.su.unsigned.any (fun u => !u.plant && decide (manifestEpoch u.header = epoch))

/-! ### Completion records (R134 to R136) -/

def completionRecord (tag : Bytes) (status flags seq ttc epoch : Nat) (result : Bytes) : Bytes :=
  slice tag 0 2 ++ [BitVec.ofNat 8 status, ~~~(BitVec.ofNat 8 status)] ++ le 4 flags ++ le 8 seq ++ le 8 ttc ++
    le 8 epoch ++ slice result 0 32

def gaspFlag (g : Bool) : Nat := if g then 0x40000000 else 0

/-- ADMIT_TTC of a data-line waybill that ended without its work done: its stamp if it has one, else the TTC at which its
status was decided (R134). -/
def endedTtc (f : Flight) : DWord := if f.stamp = 0 then f.decided else f.stamp

/-- The epoch a FENCE names (R126). -/
def fenceEpoch (c : Context) : Nat := if c.lastTtc = 0 then c.openEpoch.toNat else c.lastEpoch.toNat

/-- EPOCH of a FENCE that ends without work: the epoch it waited for, else the one that its line's context names, else, with the
context lost, that of its end (R126, R134; log entry 163). -/
def endedFenceEpoch (s : State) (l : Nat) (f : Flight) : Nat :=
  if !f.completion.isEmpty then f.waitFor
  else match ctx? s l with
    | some c => fenceEpoch c
    | none => epochOf s (endedTtc f).toNat

/-- The completion of a data-line waybill that ended without being absorbed (R134, R135). -/
def endedRecord (s : State) (l : Nat) (f : Flight) : Bytes :=
  let fence := decide (byteAt f.raw 2 = 6)
  let epoch := if fence then endedFenceEpoch s l f else epochOf s (endedTtc f).toNat
  completionRecord f.raw f.status.toNat (gaspFlag f.gasp + b2n (fence && stillUnsigned s epoch) * 0x10000000)
    (((ctx? s l).map (fun c => c.sequence.toNat)).getD 0) (endedTtc f).toNat epoch
    (((ctx? s l).map (fun c => c.chainHead)).getD [])

/-! ### Delivery (R51, R64, R87, R88, R100, R102) -/

/-- The index-table entry of a line (R58, R88). -/
def mirrorEntry (r : Line) : Bytes := le 4 r.upTail ++ le 4 r.upHead ++ le 4 r.dnTail ++ le 4 r.dnHead

def mirrorOn (s : State) : Bool := bitR s Reg.HLK_CONTROL 1

/-- Write a line's index-table entry; the pending write is done (R88). -/
def writeMirror (s : State) (l : Nat) : State :=
  if mirrorOn s then
    modLine (hostWrite s (getR64 s Reg.HLK_ITAB_BASE + BitVec.ofNat 64 (16 * l)) (mirrorEntry (getLine s l))) l
      (fun r => { r with mirror := false })
  else s

/-- The export mark rises, never falls (R282). -/
def raiseMark (s : State) (n : Nat) : State :=
  if s.log.mark < n then { s with log := { s.log with mark := n, raised := true } } else s

/-- The record write, the Down tail, the index-table entry, the vector and the group event of a completion; an export with
ADVANCE raises the mark by it (R282). -/
def writeCompletionTo (s : State) (l : Nat) (f : Flight) : State :=
  let s := raiseMark s f.advance
  let r := getLine s l
  let s := hostWrite s (r.dnBase + BitVec.ofNat 64 (64 * (r.dnTail % 2 ^ r.dnLog2))) f.completion
  let s := setLine s l { r with dnTail := bump r.dnLog2 r.dnTail,
                                flights := r.flights.filter (fun g => !decide (g.id = f.id)) }
  let s := writeMirror s l
  let s := if r.vecEn then triggerVector s r.vector else s
  raise s (512 + l / 1024)

/-- The line record says where a completion goes; one whose cells hold a seal mismatch is not delivered, and the completion stays
(R24, R86; log entry 162). -/
def writeCompletion (s : State) (l : Nat) (f : Flight) : State :=
  if recordBad s l then sealFault s spineTile else writeCompletionTo s l f

/-- Deliver a formed completion, or hold it while the link is down (R64). -/
def deliver (s : State) (l id : Nat) : State :=
  match flight? s l id with
  | none => s
  | some f =>
    if s.hlk.up then writeCompletion s l f
    else if s.hlk.held.contains { line := l, id := id } then s
    else { s with hlk := { s.hlk with held := s.hlk.held ++ [{ line := l, id := id }] } }

/-! ### Halts (R103) -/

def isFormed (f : Flight) : Bool := decide (f.phase = .formed)

/-- A waybill that still has to end. -/
def unformed (f : Flight) : Bool := !decide (f.phase = .formed) && !decide (f.phase = .sealWait)

/-- A waybill ended without work, by a halt or a fault. -/
def abortFlight (ttc : DWord) (f : Flight) : Flight :=
  if unformed f && !(decide (f.phase = .ended) && decide (f.status = 0x0C)) then
    { f with phase := .ended, status := 0x0C, decided := ttc }
  else f

def lneFault (s : State) (l : Nat) (isFault : Bool) (status : Nat) : State :=
  raise (setR s Reg.LNE_FAULT (place 0 19 l ||| place 19 1 (b2n isFault) ||| 0x100000 ||| place 24 8 status)) 24

/-- A failing waybill halts its data line (R103). -/
def haltLine (s : State) (l status : Nat) : State :=
  let r := getLine s l
  if r.state = .faulted ∨ r.halt then s
  else
    lneFault (setLine s l { r with state := .paused, halt := true, fault := BitVec.ofNat 8 status,
                                   flights := r.flights.map (abortFlight s.ttc) }) l false status

/-! ### Faults (R105) -/

/-- Does a waybill stand before the one that found the fault, its key state already read (R169)? -/
def beforeCause (fs : List Flight) (cause : Option Nat) (f : Flight) : Bool :=
  match cause with
  | some c => (fs.takeWhile (fun g => !decide (g.id = c))).any (fun g => decide (g.id = f.id))
  | none => false

/-- What a fault makes of a waybill in flight on a data line. A waybill before one whose key could not be derived runs to
its normal end; otherwise a FENCE that waits for its epoch is aborted too. -/
def faultFlight (s : State) (fs : List Flight) (status : Nat) (cause : Option Nat) (f : Flight) : Flight :=
  if cause = some f.id then { f with phase := .ended, status := BitVec.ofNat 8 status, decided := s.ttc }
  else if (status = 0x06 ∨ status = 0x07) ∧ beforeCause fs cause f then f
  else if f.phase = .sealWait then { f with phase := .ended, status := 0x0C, decided := s.ttc }
  else abortFlight s.ttc f

/-- A line's record, context and events at a fault; `lost` says that its context was destroyed or unreadable. -/
def faultRecord (s : State) (l status : Nat) (cause : Option Nat) (lost : Bool) : State :=
  let r := getLine s l
  let s := setLine s l { r with
    state := .faulted, halt := false, fault := BitVec.ofNat 8 status, lost := r.lost || lost,
    resident := r.resident && !lost,
    flights := if r.service then r.flights else r.flights.map (faultFlight s r.flights status cause) }
  let s := if lost then dropSlot s l else s
  raiseIf (decide (status = 0x09)) (lneFault s l true status) 196

/-- The read of the chain head for an ended waybill's completion finds a seal mismatch: the line faults, and a waybill that
had ended with 0x05 reports the fault status instead (R105, R119). -/
def faultEnded (s : State) (l : Nat) (f : Flight) : State :=
  updFlight (faultRecord (sealFault s spineTile) l 0x0D (some f.id) true) l f.id
    (fun g => { g with status := if f.status = 0x05 then 0x0D else f.status })

/-- Form the completion of the first waybill that still has to end, if its status is decided. -/
def settleOne (s : State) (l : Nat) : State :=
  match (getLine s l).flights.find? unformed with
  | none => s
  | some f =>
    if f.phase = .ended then
      if ctxBad s l then faultEnded s l f
      else
        haltLine (updFlight s l f.id (fun g => { g with phase := .formed, completion := endedRecord s l f })) l
          f.status.toNat
    else s

def settleLoop : Nat → State → Nat → State
  | 0, s, _ => s
  | n + 1, s, l => settleLoop n (settleOne s l) l

/-- Form every completion that is due on a data line and write those that no earlier waybill holds (R100). -/
def settle (s : State) (l : Nat) : State :=
  let s := settleLoop ((getLine s l).flights.length + 1) s l
  ((getLine s l).flights.takeWhile isFormed).foldl (fun t f => deliver t l f.id) s

/-- End a data-line waybill without work, with a status. -/
def endFlight (s : State) (l id status : Nat) (gasp : Bool) : State :=
  updFlight s l id (fun f => { f with phase := .ended, status := BitVec.ofNat 8 status, decided := s.ttc, gasp := gasp })

/-! ### Completions of service lines and line 0 (R134, R136) -/

/-- Waybills completed on a service line, the present one included. -/
def serviceSequence (s : State) (l : Nat) : Nat := ((ctx? s l).map (fun c => c.sequence.toNat + 1)).getD 0

def countService (s : State) (l : Nat) : State :=
  match ctx? s l with
  | some c => setCtx s l { c with sequence := c.sequence + 1 }
  | none => s

/-- Form and deliver a completion with given FLAGS, SEQUENCE and RESULT. -/
def completeRaw (s : State) (l : Nat) (f : Flight) (status flags seq : Nat) (result : Bytes) : State :=
  deliver (updFlight s l f.id (fun g => { g with
    phase := .formed,
    completion := completionRecord f.raw status flags seq f.admitTtc.toNat (epochOf s f.admitTtc.toNat) result })) l f.id

/-- Complete a service waybill: its SEQUENCE counts, RESULT is zero unless the status is 0x00 (R134). -/
def finishService (s : State) (l id status length : Nat) (result : Bytes) : State :=
  match flight? s l id with
  | none => s
  | some f =>
    if f.phase = .formed then s
    else
      completeRaw (if l = 0 then s else countService s l) l f status (length + gaspFlag f.gasp)
        (if l = 0 then 0 else serviceSequence s l) (if status = 0 then result else [])

/-- The flights of a service line end with 0x0C, the one that found the fault with its status. -/
def abortService (s : State) (l : Nat) (cause : Option Nat) (status : Nat) : State :=
  (getLine s l).flights.foldl (fun t f =>
    finishService t l f.id (if cause = some f.id then status else 0x0C) 0 []) s

/-- A line faults (R105). -/
def faultLine (s : State) (l status : Nat) (cause : Option Nat) (lost : Bool) : State :=
  let t := faultRecord s l status cause lost
  if (getLine s l).service then abortService t l cause status else settle t l

/-- A seal fault in a line's context (R105). -/
def faultContext (s : State) (l : Nat) (cause : Option Nat) : State := faultLine (sealFault s spineTile) l 0x0D cause true

/-- Complete a service waybill; its line's context counts it, unless it holds a seal mismatch, which faults the line with
0x0D (R105, R106). -/
def completeService (s : State) (l id status length : Nat) (result : Bytes) : State :=
  if l ≠ 0 ∧ ctxBad s l then faultContext s l (some id) else finishService s l id status length result

/-! ### Waybills completed at once on a halted or FAULTED line (R97) -/

/-- A waybill that has entered flight is complete, with SEQUENCE 0 and a zero RESULT. -/
def completeAtOnce (s : State) (l id status : Nat) : State :=
  let s := updFlight s l id (fun f => { f with
    phase := .formed,
    completion := completionRecord f.raw status 0 0 s.ttc.toNat (epochOf s s.ttc.toNat) [] })
  if (getLine s l).service then deliver s l id else settle s l

/-! ### Session end (R65, R107, R571) -/

/-- A line's indices return to 0; where the Up head or the Down tail changes by it, an index-table entry pends (R88). -/
def zeroIndices (mirror : Bool) (r : Line) : Line :=
  { r with upTail := 0, upHead := 0, dnTail := 0, dnHead := 0,
           mirror := r.mirror || (mirror && !decide (r.upHead = 0 ∧ r.dnTail = 0)) }

/-- The record of a line that closes: every field at its value for a CLOSED line, but for a pending index-table entry. -/
def closedRecord (mirror : Bool) (r : Line) : Line := { Line.closed with mirror := (zeroIndices mirror r).mirror }

/-- A line at the end of a host session. -/
def sessionEndLine (mirror : Bool) (r : Line) : Line :=
  let z := { zeroIndices mirror r with flights := [], pausing := false, ready := false }
  match r.state with
  | .closed => r
  | .faulted => z
  | _ => { z with state := .paused, halt := false }

/-- The host session ends: event 18, held completions discarded, lines paused with their indices at 0, the control line
closed, pending vectors cleared. The vectors' bits clear at every end of a session, one by a close of the control line
included (R65, R571; log entry 132). -/
def endSession (s : State) : State :=
  let s := raise s 18
  let m := mirrorOn s
  let s := setLine s 0 (closedRecord m (getLine s 0))
  let s := { s with
    lne := { s.lne with lines := s.lne.lines.map (fun e => (e.1, sessionEndLine m e.2)) },
    hlk := { s.hlk with held := [], pend := 0, grace := false } }
  clearR (clearR s Reg.HLK_CL_CONFIG 0x80000000) Reg.HLK_STATUS 0x200

end Sys2Proof.Machine
end

