-- ==== Sys2Proof/Machine/Marshal.lean ====
section
/-! DEFINITION. Tracks, line keys, tags and the absorption of a consist (R139 to R178). -/

namespace Sys2Proof.Machine

/-! ### Line keys (R150 to R153) -/

def lineKey (parent : Bytes) (l : Nat) (gen : Word) : Bytes :=
  kmac256 parent (ascii "line" ++ le 4 l ++ le 4 gen.toNat) 32 (ascii "XLX line key")

/-- The 200-byte keyed state of a line key (R151). -/
def keyedState (kl : Bytes) : Bytes :=
  stateBytes (absorbBlock (absorbBlock zeroLanes (cshakePrefix 136 (ascii "KMAC") (ascii "XLX consist")))
    (bytepad 136 (encodeString kl)))

def lanesOf (b : Bytes) : List DWord := (List.range 25).map (fun i => num64 b (8 * i))

/-- KMAC256 continued from a keyed state: `n` output bytes (R157). -/
def kmacFrom (st m : Bytes) (n : Nat) : Bytes :=
  let t := m ++ rightEncode (8 * n)
  let r := absorbBlocks 136 (t.length / 136) (lanesOf st) t
  squeeze 136 n (absorbBlock r.1 (padBlock 136 0x04 r.2))

def trackMasters : List Nat := [17, 18, 19, 20, 21, 22, 23, 24]

/-- The identity of a line's key cache entry (R151). -/
def lineSlotId (s : State) (l : Nat) (c : Context) (k : KeySlot) : Bool :=
  decide (k.parent = c.parent.toNat ∧ k.line = some (l, c.generation) ∧
    some k.parentGen = (mget? s.branches c.parent.toNat).map (fun b => b.generation))

def lineSlot? (s : State) (l : Nat) (c : Context) : Option KeySlot := s.keyCache.find? (lineSlotId s l c)

/-- The use check of a line key's parent (R153). -/
def lineKeyCheck (s : State) (parent : Nat) : Check := useCheck s parent (fun k => decide (k = 1)) trackMasters

/-- Derive and install a line's key entry: the parent is charged, the keys on the way are cached (R153, R231). -/
def installLineKey (s : State) (l : Nat) (c : Context) : State :=
  let p := c.parent.toNat
  let s := useBranch s p
  countR64 (cacheKey s
    { parent := p, parentGen := ((mget? s.branches p).map (fun b => b.generation)).getD 0,
      line := some (l, c.generation), ancestors := pathUp s.branches 9 p,
      key := keyedState (lineKey (branchKey s p) l c.generation) }) Reg.BTR_DERIVES 1

/-! ### Assignment to tracks (R143, R178) -/

/-- COUNT of a waybill that carries records; 0 for MARK and FENCE. -/
def countOf (raw : Bytes) : Nat := if 1 ≤ byteAt raw 2 ∧ byteAt raw 2 ≤ 4 then num raw 4 4 % 8192 else 0

/-- A data-line waybill that holds its track. -/
def onTrack (f : Flight) : Bool :=
  decide (f.phase = .keyWait) || decide (f.phase = .ready) || decide (f.phase = .stamped)

/-- Records queued on a track. -/
def trackLoad (s : State) (t : Nat) : Nat :=
  (s.lne.lines.map (fun e =>
    if e.2.service then 0
    else ((e.2.flights.filter (fun f => onTrack f && decide (f.track.toNat = t))).map (fun f => countOf f.raw)).sum)).sum

def trackAt (s : State) (t : Nat) : Track := s.tracks[t]?.getD Track.reset

def setTrack (s : State) (t : Nat) (k : Track) : State := { s with tracks := s.tracks.setIfInBounds t k }

/-- Tracks that take new work. -/
def freeTracks (s : State) : List Nat :=
  (List.range 8).filter (fun t => (trackAt s t).enabled && !(trackAt s t).fenced)

/-- The track with the fewest records queued, the lowest-numbered on a tie (R143). -/
def leastLoaded (s : State) : Option Nat :=
  (freeTracks s).foldl (fun best t => match best with
    | none => some t
    | some b => if trackLoad s t < trackLoad s b then some t else some b) none

/-- The track a new waybill of a line goes to: that of the line's waybills not yet completed, if it takes new work (R143). -/
def assignTrack (s : State) (l : Nat) : Option Nat :=
  match (getLine s l).flights.find? (fun f => f.assigned && (freeTracks s).contains f.track.toNat) with
  | some f => some f.track.toNat
  | none => leastLoaded s

/-- A waybill that a track is absorbing (R147). -/
def stampedOn (s : State) (t : Nat) : Option (Nat × Flight) :=
  s.lne.lines.findSome? (fun e =>
    (e.2.flights.find? (fun f => decide (f.phase = .stamped) && decide (f.track.toNat = t))).map (fun f => (e.1, f)))

/-- Unfenced tracks in number order. -/
def unfenced (s : State) : List Nat := (List.range 8).filter (fun t => !(trackAt s t).fenced)

/-- The tracks in use at the tier in force (R178): all unfenced ones at full tier, the four lowest at reduced tier;
below that, all unfenced ones (DESIGN CHOICE, log entry 170). -/
def inUse (s : State) : List Nat := if s.power.tier = 1 then (unfenced s).take 4 else unfenced s

def enableTracks (s : State) : State :=
  (List.range 8).foldl (fun t i => setTrack t i { trackAt t i with enabled := (inUse s).contains i }) s

/-! ### The lookup of a line key (R152, R169) -/

/-- A seal fault that a track finds in its buffer, its compare queue or a key state: it counts for the track's tile, and past
SEAL_LIMIT the track's fence is due (R169, R175). -/
def trackFault (s : State) (t : Nat) : State :=
  let s := sealFault s (4 + t)
  if fieldR s Reg.MSH_CHECK 16 4 < sealFaultCount s (4 + t) then setTrack s t { trackAt s t with dense := true } else s

/-- The cell of a key-cache slot (R231). -/
def slotCell (k : KeySlot) : PrivateCell := .keySlot k.parent k.line

/-- The lookup of a waybill's key at its track's assignment (R152): a hit reads the keyed state, a miss waits for a
derivation. A seal fault in the state read ends the waybill with 0x0D; one in the line's context faults the line (R169). -/
def keyLookup (s : State) (l id : Nat) : State :=
  match ctx? s l with
  | none => s
  | some c =>
    if ctxBad s l then faultContext s l (some id)
    else
      let s := touchSlot s l
      match lineSlot? s l c with
      | some k =>
        let s := countR64 { s with keyCache := k :: s.keyCache.filter (fun x => !sameKeySlot x k) } Reg.MSH_KEY_HITS 1
        if privateBad s (slotCell k) then
          let t := ((flight? s l id).map (fun f => f.track.toNat)).getD 0
          settle (endFlight (trackFault s t) l id 0x0D false) l
        else updFlight s l id (fun f => { f with phase := .ready, key := k.key })
      | none => countR64 (updFlight s l id (fun f => { f with phase := .keyWait, key := [] })) Reg.MSH_KEY_MISSES 1

/-! ### The consist buffer (R140, R141) -/

def halfAt (k : Track) (second : Bool) : BufHalf := if second then k.half1 else k.half0

def setHalf (k : Track) (second : Bool) (h : BufHalf) : Track := if second then { k with half1 := h } else { k with half0 := h }

/-- A data-line waybill whose records stand in a half of a track's buffer. -/
def inHalf (t : Nat) (second : Bool) (f : Flight) : Bool :=
  onTrack f && decide (f.track.toNat = t) && decide (f.place.map (fun p => p.1) = some second)

/-- A half holds no consist that has still to be absorbed. -/
def halfDone (s : State) (t : Nat) (second : Bool) : Bool :=
  s.lne.lines.all (fun e => e.2.flights.all (fun f => !inHalf t second f))

/-- A half whose consists have all left is free again. -/
def freeHalf (s : State) (t : Nat) (second : Bool) : State :=
  if halfDone s t second then setTrack s t (setHalf (trackAt s t) second BufHalf.free) else s

/-- The fetcher closes the half that it fills and turns to the other one. -/
def closeHalf (k : Track) : Track :=
  { setHalf k k.fill1 { halfAt k k.fill1 with closed := true } with fill1 := !k.fill1 }

/-- The halves after a consist has left the buffer or come into it: a finished half is free, and the half being filled closes
once it holds a whole consist and the track has finished the other one. -/
def turnHalves (s : State) (t : Nat) : State :=
  let s := freeHalf (freeHalf s t false) t true
  let k := trackAt s t
  let fill := halfAt k k.fill1
  if !fill.closed && decide (fill.consists ≠ 0) && decide (halfAt k (!k.fill1) = BufHalf.free) then setTrack s t (closeHalf k) else s

/-- A half takes one more consist of `n` records. -/
def fits (h : BufHalf) (n : Nat) : Bool := !h.closed && decide (h.consists < 32) && decide (h.records + n ≤ 4096)

/-- Close the half being filled where the next consist of `n` records does not fit the room left in it. -/
def makeFit (k : Track) (n : Nat) : Track :=
  if fits (halfAt k k.fill1) n || (halfAt k k.fill1).closed then k else closeHalf k

/-- Cells of a buffer that a consist of `n` records at an offset fills. -/
def bufferCell (t : Nat) (second : Bool) (off n : Nat) (c : PrivateCell) : Bool :=
  match c with
  | .buffer u b i => decide (u = t) && decide (b = second) && decide (2 * off ≤ i ∧ i < 2 * (off + n))
  | _ => false

/-- The records of waybill `f` of line `l` come into its track's buffer, with fresh seals; where no half has room, nothing
changes. -/
def putConsist (s : State) (l : Nat) (f : Flight) (records : Bytes) : State :=
  let t := f.track.toNat
  let n := countOf f.raw
  let k := makeFit (trackAt s t) n
  let h := halfAt k k.fill1
  if fits h n then
    let s := { s with badPrivate := s.badPrivate.filter (fun c => !bufferCell t k.fill1 h.records n c) }
    let filled := setHalf k k.fill1 { h with records := h.records + n, consists := h.consists + 1 }
    let s := setTrack s t (if h.consists = 31 then closeHalf filled else filled)
    turnHalves (updFlight s l f.id (fun g => { g with records := slice records 0 (16 * n), place := some (k.fill1, h.records) })) t
  else setTrack s t k

/-- The records of a waybill meet a cell of the buffer with a seal mismatch (R169). -/
def bufBad (s : State) (f : Flight) : Bool :=
  match f.place with
  | some (b, off) => s.badPrivate.any (bufferCell f.track.toNat b off (countOf f.raw))
  | none => false

/-! ### Moving waybills off a track (R174) -/

/-- Put a waybill into a list that rises in the order of the tracks' queues. -/
def insertByOrder (x : Nat × Flight) : List (Nat × Flight) → List (Nat × Flight)
  | [] => [x]
  | y :: r => if x.2.order < y.2.order then x :: y :: r else y :: insertByOrder x r

/-- A waybill that is not yet stamped and has not ended. -/
def unstamped (f : Flight) : Bool := decide (f.phase = .keyWait) || decide (f.phase = .ready)

/-- Waybills of a track that are not yet stamped, in queue order. -/
def unstampedOn (s : State) (t : Nat) : List (Nat × Nat) :=
  ((s.lne.lines.flatMap (fun e => (e.2.flights.filter (fun f =>
    unstamped f && decide (f.track.toNat = t))).map (fun f => (e.1, f)))).foldl
      (fun acc x => insertByOrder x acc) []).map (fun x => (x.1, x.2.id))

/-- Move one waybill to another track: its records are fetched and its key looked up again. One that the fault of a waybill moved
before it has ended stays as it is. -/
def moveFlight (s : State) (l id : Nat) : State :=
  if !((flight? s l id).any unstamped) then s
  else
  match assignTrack s l with
  | some t =>
    let n := s.lne.nextId
    keyLookup (updFlight { s with lne := { s.lne with nextId := n + 1 } } l id (fun f =>
      { f with track := BitVec.ofNat 3 t, records := [], place := none, key := [], order := n })) l id
  | none => s

def moveAll (s : State) (t : Nat) : State := turnHalves ((unstampedOn s t).foldl (fun a e => moveFlight a e.1 e.2) s) t

/-- The body of a track's suspect-window record (R280). -/
def suspectRecord (s : State) (t cause : Nat) : Bytes :=
  [BitVec.ofNat 8 t, BitVec.ofNat 8 cause] ++ zeros 6 ++ le 8 (trackAt s t).lastPass.toNat ++ le 8 s.ttc.toNat ++ zeros 8

/-- Record a track's fence: MSH_FAULT, MSH_LASTPASS, a suspect-window record and event 27 (R174, R280). That every cause leaves
a record 0x24 (log entry 169) and that MSH_LASTPASS stays 0 until a fence (log entry 170) are the model's choices. -/
def recordFence (s : State) (t cause : Nat) : State :=
  let s := setTrack s t { trackAt s t with fenced := true, fencing := false, enabled := false }
  let s := setR64 s Reg.MSH_LASTPASS (trackAt s t).lastPass
  raise (appendRecord (setR s Reg.MSH_FAULT (place 0 3 t ||| place 4 3 cause ||| 0x80)) 0x24 (suspectRecord s t cause)) 27

/-- Fence a track: it stops, the others are enabled anew and take its unstamped waybills (R174, R178). -/
def fenceTrack (s : State) (t cause : Nat) : State :=
  if (trackAt s t).fenced then s else moveAll (enableTracks (recordFence s t cause)) t

/-! ### The stamp (R147, R172) -/

/-- The limit of R172 applies. -/
def governed (s : State) : Bool := decide (s.power.tier = 1)

/-- The later of two times. -/
def laterOf (a b : DWord) : DWord := if a.toNat ≤ b.toNat then b else a

/-- The stamp a waybill takes: the TTC, strictly above the last stamp of its track and of its line (R148). -/
def nextStamp (s : State) (l : Nat) (f : Flight) : DWord :=
  let last := laterOf (laterOf (trackAt s f.track.toNat).lastStamp (getLine s l).lastStamp)
    (((ctx? s l).map (fun c => c.lastTtc)).getD 0)
  if s.ttc.toNat ≤ last.toNat then last + 1 else s.ttc

/-- The expected tags of a VERIFY_RECORDS begin to stream into the compare queue, whose cells are written whole (R25, R141). -/
def openQueue (s : State) (f : Flight) : State :=
  if byteAt f.raw 2 = 4 then sealPrivate s (.compare f.track.toNat) else s

/-- Stamp a waybill (R147, R148, R172). -/
def stampFlight (s : State) (l : Nat) (f : Flight) : State :=
  let t := f.track.toNat
  let st := nextStamp s l f
  let s := modLine (setTrack (openQueue s f) t { trackAt s t with lastStamp := st }) l (fun r => { r with lastStamp := st })
  let s := if governed s then { s with lne := { s.lne with credit := s.lne.credit - countOf f.raw } } else s
  updFlight s l f.id (fun g => { g with phase := .stamped, stamp := st })

/-! ### Whose turn it is (R141, R144, R172) -/

/-- The waybill of a line that still has to end and comes first. -/
def headFlight (s : State) (l : Nat) : Option Flight := (getLine s l).flights.find? unformed

/-- No waybill with its key ready stands before `f` in the queue of its track (R144). -/
def queueHead (s : State) (f : Flight) : Bool :=
  s.lne.lines.all (fun e => e.2.service || e.2.flights.all (fun g =>
    !(decide (g.phase = .ready) && decide (g.track = f.track) && decide (g.order < f.order))))

/-- The credit account holds what a consist costs (R172). -/
def creditFor (s : State) (f : Flight) : Bool := !governed s || decide (countOf f.raw ≤ s.lne.credit)

/-- The half that a track empties: the halves are emptied in the order in which they were closed (R140). -/
def emptying (k : Track) : Bool := if (halfAt k k.fill1).closed then k.fill1 else !k.fill1

/-- Every record of a consist is in the closed half that its track empties; MARK and FENCE need none (R140, R141, R170). -/
def recordsIn (s : State) (f : Flight) : Bool :=
  decide (countOf f.raw = 0) ||
    (match f.place with
     | some (b, _) => decide (b = emptying (trackAt s f.track.toNat)) && (halfAt (trackAt s f.track.toNat) b).closed
     | none => false)

/-- The track can take its stamp now. -/
def canStamp (s : State) (f : Flight) : Bool :=
  decide (f.phase = .ready) && (trackAt s f.track.toNat).enabled && (stampedOn s f.track.toNat).isNone && queueHead s f &&
    creditFor s f && recordsIn s f

/-- The next consist that an idle track takes from its buffer. -/
def nextFetched (s : State) (t : Nat) : Option (Nat × Flight) :=
  s.lne.lines.findSome? (fun e => match headFlight s e.1 with
    | some f => if !e.2.service && decide (f.track.toNat = t) && f.place.isSome && canStamp s f then some (e.1, f) else none
    | none => none)

/-- An idle track stamps the consist whose turn it is (R144, R147). -/
def stampNext (s : State) (t : Nat) : State :=
  let s := turnHalves s t
  match nextFetched s t with
  | some (l, f) => stampFlight s l f
  | none => s

/-- Every idle track stamps the consist whose turn it is. -/
def stampAll (s : State) : State := (List.range 8).foldl stampNext s

/-! ### Tag inputs (R155 to R158) -/

/-- The header H_n of a consist or MARK (R156). -/
def header (kind count l seq stamp timeBase : Nat) (prev : Bytes) : Bytes :=
  [BitVec.ofNat 8 kind, 1] ++ le 2 count ++ le 4 l ++ le 8 seq ++ le 8 stamp ++ le 8 timeBase ++ slice prev 0 32

/-- The record input Y_k (R158). -/
def recordInput (k l seq : Nat) (prevR rec : Bytes) : Bytes :=
  [3, 1] ++ le 2 k ++ le 4 l ++ le 8 seq ++ slice prevR 0 16 ++ slice rec 0 16

/-- Per-record tags of a produce line, each chained on the tag before it (R157). -/
def produceTags (key : Bytes) (l seq : Nat) : Nat → Nat → Bytes → Bytes → List Bytes
  | 0, _, _, _ => []
  | n + 1, k, prevR, recs =>
    let r := kmacFrom key (recordInput k l seq prevR (recs.take 16)) 16
    r :: produceTags key l seq n (k + 1) r (recs.drop 16)

/-- Mismatches of the per-record tags of a verify line, chained on the expected tags (R158, R166). -/
def verifyTags (key : Bytes) (l seq : Nat) : Nat → Nat → Bytes → Bytes → Bytes → List Bool
  | 0, _, _, _, _ => []
  | n + 1, k, prevR, recs, exp =>
    decide (kmacFrom key (recordInput k l seq prevR (recs.take 16)) 16 ≠ slice exp 0 16) ::
      verifyTags key l seq n (k + 1) (slice exp 0 16) (recs.drop 16) (exp.drop 16)

/-- 64-bit words of mismatch bits (R124). -/
def packBits : Nat → List Bool → List DWord
  | 0, _ => []
  | n + 1, l =>
    BitVec.ofNat 64 ((l.take 64).foldr (fun b acc => b2n b + 2 * acc) 0) :: packBits n (l.drop 64)

/-- The verdict block (R124). -/
def verdictBlock (count : Nat) (bad : List Bool) : Bytes :=
  let w := packBits ((count + 63) / 64) bad
  w.flatMap laneBytes ++ (w.map (fun x => ~~~x)).flatMap laneBytes

/-! ### Absorption (R161 to R166) -/

/-- What an absorption found: the tag, the status, VERDICT, the first mismatching record, and the writes to host memory
that go before the completion. -/
structure Absorbed where
  tag : Bytes
  status : Nat
  verdict : Nat
  first : Nat
  writes : List (DWord × Bytes)
  deriving DecidableEq, Repr

/-- TIME_BASE of a waybill, zero for MARK (R156). -/
def timeBaseOf (raw : Bytes) : Nat := if byteAt raw 2 = 5 then 0 else num raw 16 8

/-- STAMP of the header: PRODUCER_TTC on verify lines (R121, R125, R156). -/
def headerStamp (verify : Bool) (f : Flight) : Nat :=
  if verify then
    if byteAt f.raw 2 = 3 then num f.raw 24 8 else if byteAt f.raw 2 = 4 then num f.raw 32 8 else num f.raw 8 8
  else f.stamp.toNat

def verdictOf (ok : Bool) : Nat := if ok then 1 else 2

/-- Compute the tags of a stamped waybill on its line (R157, R164). -/
def absorbTags (l : Nat) (c : Context) (f : Flight) (expected : Bytes) : Absorbed :=
  let op := byteAt f.raw 2
  let n := countOf f.raw
  let seq := c.sequence.toNat
  let h := header (if op = 5 then 2 else 1) n l seq (headerStamp c.verify f) (timeBaseOf f.raw) c.chainHead
  let t := kmacFrom f.key (h ++ (if op = 5 then slice f.raw 16 16 else slice f.records 0 (16 * n))) 32
  let match32 := decide (t = slice f.raw 32 32)
  if op = 5 then
    if c.verify then { tag := t, status := b2n (!match32), verdict := verdictOf match32, first := 0, writes := [] }
    else { tag := t, status := 0, verdict := 0, first := 0, writes := [] }
  else if op = 2 then
    { tag := t, status := 0, verdict := 0, first := 0,
      writes := [(num64 f.raw 24, (produceTags f.key l seq n 0 (c.chainHead.take 16) f.records).flatten)] }
  else if op = 3 then { tag := t, status := b2n (!match32), verdict := verdictOf match32, first := 0, writes := [] }
  else if op = 4 then
    let bad := verifyTags f.key l seq n 0 (c.chainHead.take 16) f.records expected
    let ok := decide (t = slice expected (16 * n) 32)
    { tag := t, status := b2n (!ok || bad.any id), verdict := verdictOf ok, first := (bad.findIdx? id).getD 0,
      writes := [(num64 f.raw 40, verdictBlock n bad)] }
  else { tag := t, status := 0, verdict := 0, first := 0, writes := [] }

/-- The context after an absorption that advances the chain (R161). -/
def advanceContext (s : State) (c : Context) (f : Flight) (tag : Bytes) : Context :=
  { c with chainHead := tag, sequence := c.sequence + 1,
           records := c.records + BitVec.ofNat 64 (countOf f.raw),
           lastTtc := f.stamp, lastEpoch := BitVec.ofNat 64 (epochOf s f.stamp.toNat) }

/-- The context update and the leaf, in one step (R163), and the counters of the engine: a consist counts here, also while its
completion is held (DESIGN CHOICE, log entry 170). -/
def advance (s : State) (l : Nat) (c : Context) (f : Flight) (tag : Bytes) : State :=
  let s := setCtx s l (advanceContext s c f tag)
  let s := postLeaf s l { seq := c.sequence + 1, head := tag } f.stamp
  countR64 (countR64 s Reg.MSH_RECORDS (countOf f.raw)) Reg.MSH_CONSISTS 1

def writeAll (s : State) (w : List (DWord × Bytes)) : State := w.foldl (fun t e => hostWrite t e.1 e.2) s

/-- The completion of an absorbed waybill (R134, R135). -/
def absorbedRecord (s : State) (c : Context) (f : Flight) (a : Absorbed) : Bytes :=
  completionRecord f.raw a.status (countOf f.raw + a.verdict * 0x2000 + (a.first % 4096) * 0x10000) c.sequence.toNat
    f.stamp.toNat (epochOf s f.stamp.toNat) (if a.status = 0 then a.tag else c.chainHead)

/-- A track whose consist has ended, and whose fence waited for it, is fenced (R169, R175). -/
def finishFencing (s : State) (t : Nat) : State :=
  if (trackAt s t).dense then fenceTrack (setTrack s t { trackAt s t with dense := false }) t 2
  else if (trackAt s t).fencing then fenceTrack (setTrack s t { trackAt s t with fencing := false }) t 3
  else s

/-- A track's fence, for density or by firmware, is due and waits for no consist in progress (R175). -/
def denseAt (s : State) (t : Nat) : Bool := ((trackAt s t).dense || (trackAt s t).fencing) && (stampedOn s t).isNone

/-- Some track's fence is due. -/
def fenceDue (s : State) : Bool := (List.range 8).any (denseAt s)

/-- Every fence that is due and need not wait for a consist in progress is made (R175). -/
def finishFences (s : State) : State := (List.range 8).foldl (fun a t => if denseAt a t then finishFencing a t else a) s

/-- A seal fault in the track's buffer or compare queue ends the consist with 0x0D (R169). -/
def absorbSealFault (s : State) (l : Nat) (f : Flight) : State :=
  settle (endFlight (trackFault s f.track.toNat) l f.id 0x0D false) l

/-- The compare queue's bytes after the expected tags of a VERIFY_RECORDS have streamed through (R141). -/
def streamTags (s : State) (f : Flight) (expected : Bytes) : State :=
  if byteAt f.raw 2 = 4 then
    let e := slice expected 0 (16 * countOf f.raw + 32)
    setTrack s f.track.toNat { trackAt s f.track.toNat with compare := e.drop (e.length - 8192) }
  else s

/-- What an absorption finds unreadable (R169). -/
def absorbFaults (s : State) (f : Flight) : Bool :=
  bufBad s f || (decide (byteAt f.raw 2 = 4) && privateBad s (.compare f.track.toNat))

/-- The records' cells of a TAG_RECORDS hold its tags afterwards (R142). -/
def recordsAfter (f : Flight) (a : Absorbed) : Bytes :=
  match a.writes with
  | [(_, b)] => if byteAt f.raw 2 = 2 then b else f.records
  | _ => f.records

/-- The tags of a stamped waybill are final: context and leaf, result writes, completion (R163). -/
def absorbWork (s : State) (l : Nat) (c : Context) (f : Flight) (expected : Bytes) : State :=
  let a := absorbTags l c f expected
  let s := streamTags (touchSlot s l) f expected
  let s := if a.status = 0 then advance s l c f a.tag else raiseLimited s 26
  let s := writeAll s a.writes
  settle (updFlight s l f.id (fun g => { g with
    phase := .formed, records := recordsAfter f a, completion := absorbedRecord s c f a })) l

/-- Absorb the stamped waybill `f` of line `l` to its end (R163, R169). -/
def absorb (s : State) (l : Nat) (f : Flight) (expected : Bytes) : State :=
  match ctx? s l with
  | none => s
  | some c =>
    finishFencing
      (if ctxBad s l then faultContext s l (some f.id)
       else if absorbFaults s f then absorbSealFault s l f
       else absorbWork s l c f expected) f.track.toNat

/-- Bytes of host memory that a step reads and its command does not carry (log entry 3). -/
def hostBytes (s : State) (addr n : Nat) : Bytes := (List.range n).map (fun i => Config.hostByte (addr + i) s.freeCtr)

/-- Finish every consist that is stamped (R169, R204, R205); the expected tags of a VERIFY_RECORDS are read now. -/
def drainStamped (s : State) : State :=
  (List.range 8).foldl (fun a t =>
    match stampedOn a t with
    | some (l, f) => usedFree (absorb a l f (hostBytes a (num f.raw 24 8) (16 * countOf f.raw + 32)))
    | none => a) s

/-- End every data-line waybill not yet stamped with a status (R135, R169, R178). -/
def endUnstamped (s : State) (status : Nat) (gasp : Bool) (only : Line → Flight → Bool) : State :=
  s.lne.lines.foldl (fun a e =>
    if e.2.service ∨ e.1 = 0 then a
    else
      settle (e.2.flights.foldl (fun b f =>
        if unstamped f && only e.2 f then endFlight b e.1 f.id status gasp
        else b) a) e.1) s |> stampAll

end Sys2Proof.Machine
end

