-- ==== Sys2Proof/Machine/Access.lean ====
section
/-! DEFINITION. The Interlocking's decision on an access, the outcomes of a denial, and accesses by engines (R24, R31, R32,
R39, R50, R413 to R419, R424, R429 to R431, R572). -/

namespace Sys2Proof.Machine

/-- The access kinds of R415. -/
inductive Kind where
  | read | write | fetch
  deriving DecidableEq, Repr

/-! ### The address map (R39) -/

def within (a b l : Nat) : Bool := decide (b ≤ a ∧ a ≤ l)

def isRom (a : Nat) : Bool := within a 0 0xFFFFF
def isTcm (a : Nat) : Bool := within a 0x11000000 0x113FFFFF
def isCodeWindow (a : Nat) : Bool := within a 0x30000000 0x3FFFFFFF
def isBlock (a : Nat) : Bool := within a 0x40000000 0x4018FFFF
def isCtxCache (a : Nat) : Bool := within a 0x60000000 0x607FFFFF
/-- Signalbox SRAM: the branch table and the key cache (R39). -/
def isSignalboxRam (a : Nat) : Bool := within a 0x28000000 0x283FFFFF

/-- Regions of sealed cells. -/
def isRam (a : Nat) : Bool :=
  isTcm a || within a 0x20000000 0x201FFFFF || isSignalboxRam a || within a 0x50000000 0x5000FFFF ||
    within a 0x50100000 0x5013FFFF || isCtxCache a

/-- Some region decodes the address. -/
def mapped (a : Nat) : Bool := isRom a || isRam a || isCodeWindow a || isBlock a

/-- The translated address of a core's access (R414). -/
def translate (core a : Nat) : Nat :=
  if within a 0x10000000 0x100FFFFF then 0x11000000 + core * 0x100000 + (a - 0x10000000) else a

/-- The tile whose density counter a seal fault at an address raises (R24, R430). -/
def tileOf (a : Nat) : Nat :=
  if isTcm a then (a - 0x11000000) / 0x100000
  else if within a 0x50100000 0x5013FFFF then 12 + (a - 0x50100000) / 0x10000
  else 20

/-! ### The decision (R414 to R418, R424, R429) -/

/-- The lowest-numbered valid route that covers an address. -/
def routeFor (t : SMap Route) (a : Nat) : Option (Nat × Route) :=
  t.find? (fun e => e.2.valid && decide (e.2.base ≤ a / 4096 ∧ a / 4096 ≤ e.2.limit))

def maskFor (r : Route) : Kind → DWord
  | .read => r.rmask
  | .write => r.wmask
  | .fetch => r.xmask

def sessionLevel (s : State) : Nat := fieldR s Reg.ILK_STATUS 0 2

/-- What one copy of the table decides. -/
def decideBy (s : State) (t : SMap Route) (m : Master) (k : Kind) (a : Nat) : Bool :=
  match routeFor t a with
  | none => false
  | some (n, r) =>
    !s.badRoutes.contains n && (maskFor r k).getLsbD m.toNat &&
      (decide (m ≠ 32) || (decide (r.debug ≠ 0) && decide (BitVec.toNat r.debug ≤ sessionLevel s)))

/-- The core that issues under an identity (R41). -/
def coreOfMaster (m : Master) : Option Nat := if 1 ≤ m.toNat ∧ m.toNat ≤ 16 then some ((m.toNat - 1) / 4) else none

/-- The shadow that decides a core's access to its own TCM; none for every other access (R28, R424). -/
def shadowFor (s : State) (m : Master) (a : Nat) : Option (SMap Route) :=
  match coreOfMaster m with
  | some n => if within a (0x11000000 + n * 0x100000) (0x110FFFFF + n * 0x100000) then s.shadows[n]? else none
  | none => none

/-- What the routes decide: the central table; for a core's own TCM its shadow, and after a disagreement was found both. -/
def routesPermit (s : State) (m : Master) (k : Kind) (a : Nat) : Bool :=
  match shadowFor s m a with
  | none => decideBy s s.routes m k a
  | some t => decideBy s t m k a && (!s.shadowBad || decideBy s s.routes m k a)

/-- The access is permitted; with the fuse check of K_dev failed nothing is (R428). -/
def permits (s : State) (m : Master) (k : Kind) (a : Nat) : Bool :=
  s.fusesOk && !(decide (k ≠ .fetch) && (isRom a || isCodeWindow a)) && routesPermit s m k a

/-- The address at which a master's access stands in the map: a core's own TCM has an alias (R39, R414). -/
def busAddr (m : Master) (a : Nat) : Nat :=
  match coreOfMaster m with
  | some n => translate n a
  | none => a

/-! ### Denials (R419, R429, R431, R50) -/

def kindCode : Kind → Nat
  | .read => 0
  | .write => 1
  | .fetch => 2

def decidingRoute (s : State) (a : Nat) : Nat := ((routeFor s.routes a).map (fun e => e.1)).getD 0x3FF

/-- Record the first denial since ILK_DENY.VALID was cleared. -/
def recordDeny (s : State) (m : Master) (k : Kind) (a : Nat) : State :=
  if bitR s Reg.ILK_DENY 31 then s
  else
    setR (setR s Reg.ILK_DENY (place 0 6 m.toNat ||| place 6 2 (kindCode k) ||| place 8 10 (decidingRoute s a) ||| 0x80000000))
      Reg.ILK_DENY_ADDR (BitVec.ofNat 32 a)

/-- A denied debug access (R431): event 197, the sticky flag, and a burst of more than 16 in a second. -/
def debugDenied (s : State) : State :=
  let s := orR (raiseLimited s 197) Reg.ILK_STATUS 4
  let recent := s.ttc :: s.dbg.denials.filter (fun t => decide (s.ttc.toNat < t.toNat + second))
  let s := { s with dbg := { s.dbg with denials := recent.take 17 } }
  if recent.length = 17 then raise { s with tripsDue := s.tripsDue ++ [101] } 198 else s

/-- The consequences of a denial for each master. -/
def denied (s : State) (m : Master) (k : Kind) (a : Nat) : State :=
  let s := if s.badRoutes.contains (decidingRoute s a) then sealFault s 20 else s
  if m = 32 then debugDenied s
  else
    let s := recordDeny (raiseLimited s 195) m k a
    if m = 31 then orR s Reg.HLK_ERR 0x40 else s

/-- An access that no region decodes (R32). -/
def unmapped (s : State) (m : Master) : State := if m = 32 then debugDenied s else raise s 193

/-! ### Register rows -/

/-- What the last read returned. -/
def readData (s : State) (v : DWord) : State := { s with ports := { s.ports with readData := v, readErr := false } }

def readError (s : State) : State := { s with ports := { s.ports with readData := 0, readErr := true } }

/-- A denied or unmapped register access: a read ends in an error response, or in zero for the host and the TAP. -/
def failAccess (s : State) (m : Master) (k : Kind) (a : Nat) : State :=
  let s := if !mapped a then unmapped s m else denied s m k a
  if k = .read then (if m = 31 ∨ m = 32 then readData s 0 else readError s) else s

/-- The host's gate of R53: while READY is 0 only HLK_ID and HLK_STATUS are served. -/
def hostHeld (s : State) (m : Master) (a : Nat) : Bool :=
  decide (m = 31) && !ready s && decide (a ≠ Reg.HLK_ID) && decide (a ≠ Reg.HLK_STATUS)

/-- The block's own limit of R572: of these pages such a world reaches only the named register. -/
def limitedView (m : Master) (a : Nat) : Bool :=
  (within a 0x40070000 0x40070FFF && !within a 0x40070000 0x40070007 && decide (m.toNat ≤ 16) && decide (m ≠ 3) &&
      decide (m ≠ 4)) ||
    (within a 0x40000000 0x40000FFF && !within a 0x40000000 0x40000003 &&
      (decide (m = 7) || decide (m = 8) || decide (m = 11) || decide (m = 12) || decide (m = 15) || decide (m = 16)))

/-- Registers that show a setting: address and setting. -/
def settingViews : List (Nat × Nat) :=
  [ (Reg.SEAL_EPOCH_LEN, 0), (Reg.SEAL_BASE, 1), (Reg.SEAL_K0, 2), (Reg.SEAL_KEY, 3), (Reg.SEAL_CKPT, 4), (Reg.BTR_IMAGE, 9),
    (Reg.LSM_CLASS 0, 10), (Reg.LSM_CLASS 1, 11), (Reg.LSM_CLASS 2, 12), (Reg.LSM_CLASS 3, 13), (Reg.PWR_CFG, 15),
    (Reg.BTR_CONFIG, 16), (Reg.CCI_LOCK, 17), (Reg.DMN_FLOOR, 18) ]

/-- A register shows private cells that hold a seal mismatch: the record of the selected line (R86), the vigil cells of the
selected source (R449), the pending bits (R448), or the selected entry of the branch table (R223). -/
def shownBad (s : State) (a : Nat) : Bool :=
  (decide (a = Reg.LSM_PENDING) && privateBad s .held) ||
  (within a (Reg.LNE_SEL + 4) Reg.LNE_SEL_DNHEAD && recordBad s (fieldR s Reg.LNE_SEL 0 19)) ||
  ((decide (a = Reg.BTR_SEL_ENTRY) || decide (a = Reg.BTR_SEL_USES) || decide (a = Reg.BTR_SEL_LINES)) &&
    privateBad s (.branch (fieldR s Reg.BTR_SEL 0 12))) ||
  (decide (a = Reg.LSM_SEL_INFO) || decide (a / 8 = Reg.LSM_SEL_C / 8)) && privateBad s (.evidence (fieldR s Reg.LSM_SEL 0 7))

/-- A register's own cell, the setting it shows, or the private cells it shows, hold a seal mismatch (R20, R22). -/
def regBad (s : State) (a : Nat) : Bool :=
  s.badCells.contains (a / 8) || shownBad s a ||
    settingViews.any (fun e => decide (e.1 / 8 = a / 8) && s.badCells.contains (settingCell e.2))

/-- A register access that meets a seal mismatch: a write is discarded, a read ends in an error response (R24, R25). -/
def failSeal (s : State) (k : Kind) (a : Nat) : State :=
  let s := sealFault s (tileOf a)
  if k = .read then readError s else s

/-- Run a register write row of master `m` at address `a` if it is permitted; without main power nothing answers. -/
def guardedWrite (s : State) (m : Master) (a : Nat) (f : State → State) : State :=
  if !mainPower s then s
  else if !permits s m .write a then failAccess s m .write a
  else if hostHeld s m a then orR s Reg.HLK_ERR 4
  else if regBad s a then failSeal s .write a
  else f s

/-- As `guardedWrite`, for a half of a 64-bit setting: the low half is held and the high half writes the whole cell, so that
neither meets a mismatch in it (R25, R557). -/
def guardedPair (s : State) (m : Master) (a : Nat) (f : State → State) : State :=
  if !mainPower s then s
  else if !permits s m .write a then failAccess s m .write a
  else if hostHeld s m a then orR s Reg.HLK_ERR 4
  else f s

/-- Run a register read row of master `m` at address `a` if it is permitted; without main power nothing answers. -/
def guardedRead (s : State) (m : Master) (a : Nat) (f : State → State) : State :=
  if !mainPower s then s
  else if !permits s m .read a then failAccess s m .read a
  else if hostHeld s m a || limitedView m a then readData s 0
  else if regBad s a then failSeal s .read a
  else f s

/-! ### Accesses by engines (R28, R416, R419) -/

/-- The first byte of each part of a transfer: parts do not cross a 4 KiB page. -/
def parts (a n : Nat) : List Nat :=
  if n = 0 then [] else a :: ((List.range ((a + n - 1) / 4096 - a / 4096)).map (fun i => (a / 4096 + 1 + i) * 4096))

/-- How an engine's access ended, with its consequences. -/
structure Reach where
  state : State
  outcome : Access
  deriving DecidableEq, Repr

/-! ### The contents of the map's special regions (R39)

A register block answers no burst (log entry 13). Signalbox SRAM holds the branch table and the key cache in cells that the
spec does not name, and a slot of the context cache shows the context that stands in it; every other cell of the two is plain
memory (log entry 99). -/

/-- A range meets a region that is not plain memory. -/
def meetsSpecial (a n : Nat) : Bool :=
  decide (0 < n) && (decide (a < 0x40190000 ∧ 0x40000000 < a + n) || decide (a < 0x28400000 ∧ 0x28000000 < a + n) ||
    decide (a < 0x60800000 ∧ 0x60000000 < a + n))

/-- A cell of Signalbox SRAM in which the branch table or the key cache stands; before the table is rebuilt none does. -/
def isTableCell (s : State) (a : Nat) : Bool := isSignalboxRam a && s.tableBuilt && Config.tableCell (a / 8)

/-- The context in the slot of the cache that holds an address: its line and itself. -/
def slotContext (s : State) (a : Nat) : Option (Nat × Context) :=
  match mget? s.lne.places ((a - 0x60000000) / 128) with
  | some l => (ctx? s l).map (fun c => (l, c))
  | none => none

/-- The byte that a read of any region finds. -/
def cellByte (s : State) (a : Nat) : Byte :=
  if isBlock a || isTableCell s a then Config.blockByte a s.freeCtr
  else if isCtxCache a then
    match slotContext s a with
    | some (l, c) => (contextBytes l c).getD (a % 128) 0
    | none => memByte s a
  else memByte s a

/-- Bytes as an access reads them. -/
def engineBytes (s : State) (a n : Nat) : Bytes :=
  if meetsSpecial a n then (List.range n).map (fun i => cellByte s (a + i)) else memBytes s a n

/-- A free value is used where a read meets a special region. -/
def noteRead (s : State) (a n : Nat) : State := if meetsSpecial a n then usedFree s else s

/-- Bytes written over a context that stands in a slot of the cache. -/
def patchSlot (a : Nat) (b : Bytes) (s : State) (slot : Nat) : State :=
  let base := slotBase slot
  match slotContext s base with
  | none => s
  | some (l, c) =>
    let old := contextBytes l c
    let new_ := (List.range 128).map (fun i =>
      if a ≤ base + i ∧ base + i < a + b.length then b.getD (base + i - a) 0 else old.getD i 0)
    { s with lne := { s.lne with contexts := mput s.lne.contexts l (parseContext new_) } }

/-- A write into the context cache. -/
def writeSlots (s : State) (a : Nat) (b : Bytes) : State :=
  let first := (a - 0x60000000) / 128
  ((List.range ((a - 0x60000000 + b.length - 1) / 128 + 1 - first)).map (fun i => first + i)).foldl (patchSlot a b)
    (memWrite s a b)

/-- Operand RAM outside the short window, which only the owner of MAE_LOCK may write (R322). -/
def opRamClosed (s : State) (m : Master) (a n : Nat) : Bool :=
  decide (a < 0x5000E000 ∧ 0x50000000 < a + n) && decide ((getR s Reg.MAE_LOCK).setWidth 6 ≠ m)

/-- The write of a master that does not own the MAE (R322). -/
def maeNotOwner (s : State) : State := orR (raiseLimited s 262) Reg.MAE_ERR 1

/-- Store bytes that an access within one page has been permitted to write. Only cells of memory hold what an engine writes
(log entries 13 and 99). -/
def storeBytes (s : State) (m : Master) (a : Nat) (b : Bytes) : State :=
  if !isRam a then s
  else if opRamClosed s m a b.length then maeNotOwner s
  else if isCtxCache a then writeSlots s a b
  else memWrite s a b

/-! ### Transfers in parts: each one is checked, routed and completed by itself (R28) -/

/-- The parts of a transfer: address and length. -/
def partRanges (a n : Nat) : List (Nat × Nat) := (parts a n).map (fun p => (p, min (4096 - p % 4096) (a + n - p)))

/-- Check one part: it is mapped and permitted, a read meets no seal mismatch, and a write none in a cell that it covers only
in part. -/
def reachPart (s : State) (m : Master) (k : Kind) (p n : Nat) : Reach :=
  if !mapped p then { state := unmapped s m, outcome := .busError }
  else if !permits s m k p then { state := denied s m k p, outcome := .busError }
  else
    match (if k = .write then badPartial? s p n else badCell? s p n) with
    | some c => { state := sealFault s (tileOf (8 * c)), outcome := .sealFault }
    | none => { state := s, outcome := .ok }

/-- Check parts in order, up to the first that fails. -/
def reachParts (m : Master) (k : Kind) : List (Nat × Nat) → State → Reach
  | [], s => { state := s, outcome := .ok }
  | (p, n) :: r, s =>
    let x := reachPart s m k p n
    if x.outcome = .ok then reachParts m k r x.state else x

/-- Check an access of `n` bytes by a master. -/
def reach (s : State) (m : Master) (k : Kind) (a n : Nat) : Reach :=
  let x := reachParts m k (partRanges a n) s
  if x.outcome = .ok ∧ k ≠ .write then { x with state := noteRead x.state a n } else x

/-- Write parts in order, up to the first that fails; those before it stay written. -/
def writeParts (m : Master) (a : Nat) (b : Bytes) : List (Nat × Nat) → State → Reach
  | [], s => { state := s, outcome := .ok }
  | (p, n) :: r, s =>
    let x := reachPart s m .write p n
    if x.outcome = .ok then writeParts m a b r (storeBytes x.state m p ((b.drop (p - a)).take n)) else x

/-- An engine's write of bytes. -/
def engineWrite (s : State) (m : Master) (a : Nat) (b : Bytes) : Reach := writeParts m a b (partRanges a b.length) s

/-- A seal fault that the row's sender saw in a tile is raised and counted like any other (R24). -/
def noteSeen (s : State) (seen : Access) (tile : Nat) : State := if seen = .sealFault then sealFault s tile else s

end Sys2Proof.Machine
end

