-- ==== Sys2Proof/Machine/Lattice.lean ====
section
/-! DEFINITION. The lattice unit's descriptors, key stores, signatures and lane faults (R332 to R343). -/

namespace Sys2Proof.Machine

/-! ### Lanes (R332, R341, R342) -/

def laneAt (s : State) (n : Nat) : Lane := s.lanes[n]?.getD Lane.reset

def setLane (s : State) (n : Nat) (l : Lane) : State := { s with lanes := s.lanes.setIfInBounds n l }

def unfencedLanes (s : State) : List Nat := (List.range 4).filter (fun n => !(laneAt s n).fenced)

/-- At full tier every unfenced lane is in use, at reduced tier only the lowest-numbered one; below, the same one serves
the verifications that every mode allows (R332, R340; log entry 14). -/
def lanesInUse (s : State) : List Nat := if s.power.tier = 2 then unfencedLanes s else (unfencedLanes s).take 1

def enableLanes (s : State) : State :=
  (List.range 4).foldl (fun t n => setLane t n { laneAt t n with enabled := (lanesInUse s).contains n }) s

/-- A lane that serves. -/
def anyLane (s : State) : Bool := s.lanes.toList.any (fun l => !l.fenced)

/-- The lowest-numbered free lane in use: two free lanes take jobs in lane-number order (R333). -/
def freeLane (s : State) : Option Nat := (lanesInUse s).find? (fun n => (laneAt s n).job.isNone)

/-- Every lane in use runs a job; none interrupts it (R333). -/
def lanesBusy (s : State) : Bool := anyLane s && (freeLane s).isNone

/-- The lane that serves a job of a single step (log entry 3). -/
def workLane (s : State) : Nat := (freeLane s).getD ((lanesInUse s).headD 0)

/-! ### Descriptors (R335, R339) -/

def descBytes (s : State) (a : Nat) : Bytes := engineBytes s a 64

def descOp (d : Bytes) : Nat := byteAt d 0
def descFlags (d : Bytes) : Nat := byteAt d 1
def descBranch (d : Bytes) : Nat := num d 2 2 % 4096
def descIn (d : Bytes) : Nat := num d 8 4
def descInLen (d : Bytes) : Nat := num d 12 4
def descAux (d : Bytes) : Nat := num d 16 4
def descOut (d : Bytes) : Nat := num d 20 4
def descOutLen (d : Bytes) : Nat := num d 24 4

/-- Bytes 32 to 63 as the lane writes them. -/
def descTail (result lane : Nat) (pusher : Master) (written : Nat) (start end_ : DWord) : Bytes :=
  [BitVec.ofNat 8 result, ~~~(BitVec.ofNat 8 result), BitVec.ofNat 8 lane, BitVec.ofNat 8 pusher.toNat] ++ le 4 written ++
    le 8 start.toNat ++ le 8 end_.toNat ++ zeros 8

/-- End a descriptor: its result fields, event 265, and event 267 for every RESULT but 0x00 and 0x01 (R335, R339). -/
def endDesc (s : State) (a : Nat) (pusher : Master) (result lane written : Nat) (start : DWord) : State :=
  let s := (engineWrite s 27 (a + 32) (descTail result lane pusher written start s.ttc)).state
  raiseIf (decide (result ≠ 0 ∧ result ≠ 1)) (raise s 265) 267

/-- End every queued descriptor that a test picks, with one RESULT. -/
def endQueued (s : State) (result : Nat) (pick : Bytes → Bool) : State :=
  let go := s.descQueue.filter (fun e => pick (descBytes s e.1))
  let stay := s.descQueue.filter (fun e => !pick (descBytes s e.1))
  go.foldl (fun t e => endDesc t e.1 e.2 result 0 0 t.ttc) { s with descQueue := stay }

/-! ### Fences of lanes (R341, R342) -/

/-- The last lane is gone: event 269, descriptors end with RESULT 0x09; LSU_STATUS.NO_LANE is read from the lanes. -/
def noLane (s : State) : State :=
  if (unfencedLanes s).isEmpty then endQueued (raise s 269) 0x09 (fun _ => true) else s

/-- Record a lane's fence. -/
def recordLaneFence (s : State) (n cause : Nat) : State :=
  let s := enableLanes (setLane s n { laneAt s n with fenced := true, enabled := false })
  raise (setR s Reg.LSU_FAULT (place 0 2 n ||| place 4 3 cause ||| 0x80)) 268

def fenceLane (s : State) (n cause : Nat) : State :=
  if (laneAt s n).fenced then s else noLane (recordLaneFence s n cause)

/-! ### Key stores (R337) -/

/-- The Manifest key branch, SEAL_KEY (R203). -/
def keyBranch (s : State) : Nat := (sstGet s 3).toNat % 4096
def keyValid (s : State) : Bool := (sstGet s 3).getLsbD 31

def manifestKeyOk (s : State) : Bool :=
  keyValid s && decide ((useCheck s (keyBranch s) (fun k => decide (k = 2)) [27]).status = 0)

/-- The key of a branch, or of the Works Plate for index 4,095, as a lane generates it (R229, R244). -/
def laneKeyOf (s : State) (i : Nat) : LaneKey :=
  { index := i, generation := ((mget? s.branches i).map (fun b => b.generation)).getD 0,
    seed := if i = 4095 then plateSeed s else falconSeed (branchKey s i) }

/-- The slot that holds the key of a branch under its present GENERATION. -/
def heldKey (s : State) (ks : KeyStore) (i : Nat) : Option LaneKey :=
  (ks.sealKey.toList ++ ks.plateKey.toList ++ ks.spare).find? (fun k =>
    decide (k.index = i ∧ k.generation = ((mget? s.branches i).map (fun b => b.generation)).getD 0))

/-- A key in its slot: 0 for SEAL_KEY.BRANCH, 1 for the Works Plate, else 2 and 3, which are replaced least recently used. -/
def putKey (s : State) (ks : KeyStore) (k : LaneKey) : KeyStore :=
  if k.index = 4095 then { ks with plateKey := some k }
  else if keyValid s ∧ k.index = keyBranch s then { ks with sealKey := some k }
  else { ks with spare := (k :: ks.spare.filter (fun x => !decide (x = k))).take 2 }

/-- A key loaded for a signature. -/
structure Loaded where
  state : State
  key : LaneKey
  deriving DecidableEq, Repr

/-- Lane `n` takes the key of a branch from its store; one that is not held it generates first, and the derivation caches the keys on
the way (R231, R337). -/
def loadKey (s : State) (n i : Nat) : Loaded :=
  match heldKey s (laneAt s n).keys i with
  | some k => { state := setLane s n { laneAt s n with keys := putKey s (laneAt s n).keys k }, key := k }
  | none =>
    let s := if i = 4095 then s else cachePath s i
    { state := setLane s n { laneAt s n with keys := putKey s (laneAt s n).keys (laneKeyOf s i) }, key := laneKeyOf s i }

/-- Slots 0 and 1 as a lane generates them after a reset. -/
def bootStore (s : State) : KeyStore :=
  { sealKey := if manifestKeyOk s then some (laneKeyOf s (keyBranch s)) else none,
    plateKey := if hasPlate s then some (laneKeyOf s 4095) else none, spare := [] }

/-- Slot 0 of every lane is generated anew (R337); the derivation caches the keys on the way (R231). -/
def regenKeys (s : State) : State :=
  let s := if manifestKeyOk s then cachePath s (keyBranch s) else s
  { s with lanes := s.lanes.map (fun l => if l.fenced then l else { l with keys := { l.keys with sealKey := (bootStore s).sealKey } }) }

/-- Clear every key-store slot that holds an affected branch (R235, R337). -/
def clearLaneKeys (s : State) (affected : Nat → Bool) : State :=
  { s with lanes := s.lanes.map (fun l => { l with keys := { l.keys with
      sealKey := l.keys.sealKey.filter (fun k => !affected k.index), spare := l.keys.spare.filter (fun k => !affected k.index) } }) }

/-! ### Signatures (R337, R338) -/

/-- A signature made. -/
structure Signed where
  state : State
  sig : Bytes
  deriving DecidableEq, Repr

/-- Sign with a loaded key: each schedule draws its own 40-byte nonce (R338). -/
def signWith (s : State) (seed msg : Bytes) : Signed :=
  let nonce (k : Nat) : Bytes := slice (drawBytes s 640) (40 * k) 40
  { state := countR64 (drawn s (40 * signTries seed msg nonce)) Reg.LSU_SIGNS 1, sig := falconSignature seed msg nonce }

/-- Sign under the key of a branch. -/
def signBy (s : State) (i : Nat) (msg : Bytes) : Signed :=
  let k := loadKey s (workLane s) i
  signWith k.state k.key.seed msg

/-- A verification by a lane is counted (R346). -/
def countVerify (s : State) : State := countR64 s Reg.LSU_VERIFIES 1

end Sys2Proof.Machine
end

