-- ==== Sys2Proof/Machine/FlashOps.lean ====
section
/-! DEFINITION. The flash array: geometry, partitions, pages and blocks (R272, R273, R285, R290, R567; log entry 10). -/

namespace Sys2Proof.Machine

/-! ### Geometry -/

def blocksPerDie : Nat := 1696

def pageKey (die block page : Nat) : Nat := (die * 1696 + block) * 2304 + page
def blockKey (die block : Nat) : Nat := die * 1696 + block

/-- The partitions of R273. -/
inductive Partition where
  | fixed | staging | slcSpare | log | reserve | tlcSpare
  deriving DecidableEq, Repr

/-- The partition of a block: block b is the (b / 2)th of its plane. -/
def partitionOf (block : Nat) : Partition :=
  let k := block / 2
  if k < 3 then .fixed
  else if k < 76 then .staging
  else if k < 80 then .slcSpare
  else if k < 565 then .log
  else if k < 784 then .reserve
  else .tlcSpare

def isSlc (block : Nat) : Bool := decide (block / 2 < 80)

/-- Blocks of the image slots: the first two of each plane (R567). -/
def isImageBlock (block : Nat) : Bool := decide (block / 2 < 2)

/-- The slot an image block belongs to: A on dies 0 and 1, B on dies 2 and 3. -/
def slotOfDie (die : Nat) : Nat := die / 2

/-! ### Blocks -/

def Block.good : Block := { retired := false, suspect := false, claimed := false, wear := 0 }

def blockAt (s : State) (die block : Nat) : Block := mget Block.good s.flash.blocks (blockKey die block)

def setBlock (s : State) (die block : Nat) (b : Block) : State :=
  { s with flash := { s.flash with blocks := mset Block.good s.flash.blocks (blockKey die block) b } }

/-! ### Spares (R273, R290) -/

/-- Follow the replacements of a block. -/
def standIn : Nat → SMap Nat → Nat → Nat
  | 0, _, k => k
  | n + 1, m, k =>
    match mget? m k with
    | some j => standIn n m j
    | none => k

/-- The block that serves in a block's place: the spare that replaced it, or the block itself. -/
def servingBlock (s : State) (k : Nat) : Nat := standIn s.flash.spares.length s.flash.spares k

/-- Follow the replacements back. -/
def replacedBy : Nat → SMap Nat → Nat → Nat
  | 0, _, k => k
  | n + 1, m, k =>
    match m.find? (fun e => decide (e.2 = k)) with
    | some e => replacedBy n m e.1
    | none => k

/-- The block in whose place a block serves. -/
def homeBlock (s : State) (k : Nat) : Nat := replacedBy s.flash.spares.length s.flash.spares k

/-- The partition that a block serves in (R273). -/
def partitionAt (s : State) (die block : Nat) : Partition := partitionOf (homeBlock s (blockKey die block) % 1696)

/-- The die and block of the j-th block of an image slot, or of what stands in for it (R567). -/
def slotBlock (s : State) (slot j : Nat) : Nat × Nat :=
  let k := servingBlock s (blockKey (2 * slot + j / 4 % 2) (j % 4))
  (k / 1696, k % 1696)

/-- The spares of a mode: die and block. -/
def spareBlocks (slc : Bool) : List Nat :=
  (List.range 4).flatMap (fun d =>
    (List.range (if slc then 8 else 128)).map (fun i => blockKey d ((if slc then 152 else 1568) + i)))

/-- A spare that can still replace a block. -/
def spareFree (s : State) (k : Nat) : Bool :=
  !s.flash.deadDies.getLsbD (k / 1696) && !(mget Block.good s.flash.blocks k).retired &&
    !s.flash.spares.any (fun e => decide (e.2 = k))

/-- Spares left (FLC_WEAR). -/
def sparesLeft (s : State) (slc : Bool) : Nat := ((spareBlocks slc).filter (spareFree s)).length

/-- The spare that replaces a block: one of its own plane if there is one, else the first (log entry 143). -/
def spareFor (s : State) (k : Nat) : Option Nat :=
  let l := (spareBlocks (isSlc (k % 1696))).filter (spareFree s)
  match l.find? (fun x => decide (x / 1696 = k / 1696 ∧ x % 2 = k % 2)) with
  | some x => some x
  | none => l.head?

/-! ### The Turntable's places (R285) -/

/-- The block of a stripe place in a plane, or what stands in for it. -/
def turnBlock (s : State) (slot p : Nat) : Nat := servingBlock s (blockKey (p / 2) (160 + 2 * slot + p % 2))

def keyBlock (s : State) (k : Nat) : Block := mget Block.good s.flash.blocks k

/-- Erase counts of a place, over the planes that serve. -/
def slotErases (s : State) (slot : Nat) : Nat :=
  ((planesOf s.flash.deadDies).map (fun p => (keyBlock s (turnBlock s slot p)).wear)).sum

/-- The places of the log and reserve partitions, but for those that retirement took from the reserve. -/
def turntable (s : State) : List Nat := (List.range 704).filter (fun k => !s.flash.shrunk.contains k)

/-- A free place: no stripe stands there, and firmware has claimed none of its blocks. -/
def slotFree (s : State) (k : Nat) : Bool :=
  !s.flash.stripes.any (fun t => decide (t.slot = k)) &&
    (planesOf s.flash.deadDies).all (fun p => let b := keyBlock s (turnBlock s k p); !b.claimed && !b.retired)

/-- The place with the lowest erase count, the first of equals. -/
def leastWorn (s : State) : List Nat → Option Nat
  | [] => none
  | k :: r =>
    match leastWorn s r with
    | some j => if slotErases s j < slotErases s k then some j else some k
    | none => some k

/-- Where the next stripe goes (R285). -/
def freeSlot (s : State) : Option Nat := leastWorn s ((turntable s).filter (slotFree s))

/-! ### Pages -/

def erasedPage : Bytes := List.replicate 16384 0xFF

def getPage (s : State) (die block page : Nat) : Bytes := (mget? s.flash.pages (pageKey die block page)).getD erasedPage

def pageErased (s : State) (die block page : Nat) : Bool := (mget? s.flash.pages (pageKey die block page)).isNone

/-- Program a page; one that reads as erased is not listed. -/
def putPage (s : State) (die block page : Nat) (b : Bytes) : State :=
  { s with flash := { s.flash with pages := mset erasedPage s.flash.pages (pageKey die block page) (slice b 0 16384) } }

/-- Erase a block: its pages are unlisted and its wear counts. -/
def eraseKey (s : State) (k : Nat) : State :=
  { s with flash := { s.flash with
      pages := s.flash.pages.filter (fun e => !decide (k * 2304 ≤ e.1 ∧ e.1 < k * 2304 + 2304)),
      blocks := mset Block.good s.flash.blocks k { keyBlock s k with wear := (keyBlock s k).wear + 1, suspect := false } } }

def eraseBlock (s : State) (die block : Nat) : State := eraseKey s (blockKey die block)

/-- A page of an image slot; an SLC block holds 12 MiB in 768 pages. -/
def slotPage (s : State) (slot p : Nat) : Nat :=
  let d := slotBlock s slot (p / 768)
  pageKey d.1 d.2 (p % 768)

def slotBytes (s : State) (slot off n : Nat) : Bytes :=
  ((List.range ((off + n + 16383) / 16384 - off / 16384)).flatMap (fun i =>
    (mget? s.flash.pages (slotPage s slot (off / 16384 + i))).getD erasedPage)).drop (off % 16384) |>.take n

/-- Put bytes into an image slot at an offset. -/
def slotWrite (s : State) (slot off : Nat) (b : Bytes) : State :=
  (List.range ((off + b.length + 16383) / 16384 - off / 16384)).foldl (fun t i =>
    let p := off / 16384 + i
    let k := slotPage t slot p
    let old := (mget? t.flash.pages k).getD erasedPage
    let from_ := if p * 16384 < off then off - p * 16384 else 0
    let new_ := patch old from_ ((b.drop (p * 16384 + from_ - off)).take (16384 - from_))
    { t with flash := { t.flash with pages := mset erasedPage t.flash.pages k new_ } }) s

def eraseSlot (s : State) (slot : Nat) : State :=
  (List.range 8).foldl (fun t j => eraseBlock t (slotBlock t slot j).1 (slotBlock t slot j).2) s

/-! ### Retirement (R290) -/

/-- With no TLC spare left the reserve gives a stripe's place: its last free one (R290). -/
def shrinkReserve (s : State) (k : Nat) : State :=
  match ((turntable s).filter (fun x => decide (485 ≤ x) && slotFree s x)).getLast? with
  | some x =>
    { s with flash := { s.flash with
        shrunk := s.flash.shrunk ++ [x], spares := mput s.flash.spares k (turnBlock s x (k / 1696 * 2 + k % 2)) } }
  | none => s

/-- A spare of its partition takes a retired block's place (R290). -/
def replaceBlock (s : State) (k : Nat) : State :=
  match spareFor s k with
  | some x => { s with flash := { s.flash with spares := mput s.flash.spares k x } }
  | none => if isSlc (k % 1696) then s else shrinkReserve s k

/-- A block retires: events 325 and, with few spares left, 330 (R290). -/
def retireBlock (s : State) (die block : Nat) : State :=
  let b := blockAt s die block
  if b.retired then s
  else
    let s := replaceBlock (setBlock s die block { b with retired := true }) (blockKey die block)
    let s := raise (orR s Reg.FLC_ERR 0x10) 325
    raiseIf (decide (sparesLeft s false < 64 ∨ sparesLeft s true < 4)) s 330

/-! ### Stripes of the log (R274, R276, R285, R286, R298, R566) -/

/-- A wordline of three pages. -/
def wordlineBytes : Nat := 49152

/-- Record bytes of one wordline stripe: one plane holds the parity. -/
def wordlineStripe (dead : BitVec 4) : Nat := ((planesOf dead).length - 1) * wordlineBytes

def stripeBytes (s : State) : Nat := 768 * wordlineStripe s.flash.deadDies

/-- Frames that can no longer be read, with the checkpoints in them (R281, R566). -/
def markLost (s : State) (l : List Nat) : State :=
  { s with
    log := { s.log with frames := s.log.frames.map (fun f => if l.contains f.serial then { f with lost := true } else f) },
    su := { s.su with ckpts := s.su.ckpts.map (fun c =>
      if l.any (fun n => decide (c.first ≤ n ∧ n ≤ c.last)) then { c with lost := true } else c) } }

def frameAt (s : State) (serial : Nat) : Option Frame := s.log.frames.find? (fun f => decide (f.serial = serial))

def sizeAt (s : State) (serial : Nat) : Nat := ((frameAt s serial).map frameSize).getD 0

/-- Bytes staged and not yet programmed into the log. -/
def stagedBytes (s : State) : Nat := (s.flash.staged.map (fun e => sizeAt s e.1)).sum - s.flash.carry

/-- The log writer programs a wordline stripe once a whole one is staged. -/
def stripeUnderWay (s : State) : Bool :=
  decide (0 < wordlineStripe s.flash.deadDies ∧ wordlineStripe s.flash.deadDies ≤ stagedBytes s)

/-- Serial before the first one of each stripe, beside the stripe. -/
def withStart : Nat → List Stripe → List (Nat × Stripe)
  | _, [] => []
  | p, t :: r => (p, t) :: withStart t.last r

/-- The serials of a stripe lie below the mark and below the newest base checkpoint (R286). -/
def belowMarks (s : State) (t : Stripe) : Bool :=
  decide (t.last < s.log.mark) && (s.log.base.map (fun b => decide (t.last < b))).getD false

/-- Branch invalidation records of a stripe. -/
def invalidations (s : State) (start : Nat) (t : Stripe) : List Frame :=
  s.log.frames.filter (fun f => decide (f.typ = 0x25 ∧ start < f.serial ∧ f.serial ≤ t.last) && !f.lost)

def reclaimable (s : State) (e : Nat × Stripe) : Bool := belowMarks s e.2 && (invalidations s e.1 e.2).isEmpty

/-- FLC_LOG_USE.LOCKED. -/
def lockedStripes (s : State) : Nat := ((withStart 0 s.flash.stripes).filter (fun e => !reclaimable s e)).length

/-- Erase the blocks of a stripe's place. -/
def eraseSlotBlocks (s : State) (k : Nat) : State :=
  (planesOf s.flash.deadDies).foldl (fun t p => eraseKey t (turnBlock t k p)) s

/-- Erase the oldest stripe (R286). -/
def eraseOldest (s : State) : State :=
  match s.flash.stripes with
  | [] => s
  | t :: r =>
    let s := eraseSlotBlocks s t.slot
    { s with log := { s.log with frames := s.log.frames.filter (fun f => decide (t.last < f.serial)),
                                 reclaimed := ((frameAt s t.last).map (fun f => f.link)).getD s.log.reclaimed },
             flash := { s.flash with stripes := r, rewritten := none } }

/-- A card export in progress still reads frames of a stripe (R300). -/
def exportReads (s : State) (t : Stripe) : Bool :=
  ((s.card.bind (fun c => c.session)).map (fun v => decide (v.cursor ≤ t.last))).getD false

/-- Framed records in the stripes of the window. -/
def heldBytes (s : State) : Nat :=
  (s.flash.stripes.map (fun t => (t.used - t.skipped.length) * wordlineStripe t.dead)).sum

/-- The records that the log holds at once (R274). -/
def logLimit : Nat := 128000000000

/-- The next wordline stripe opens a new stripe. -/
def needsStripe (s : State) : Bool := s.flash.stripes.isEmpty || decide (768 ≤ s.flash.wordlines)

/-- The window needs its oldest stripe back: it has 485, or the log is at its limit (R274, R285, R286). -/
def needsReclaim (s : State) : Bool :=
  (needsStripe s && decide (485 ≤ s.flash.stripes.length)) ||
    (decide (logLimit < heldBytes s + wordlineStripe s.flash.deadDies) && !s.flash.stripes.isEmpty)

/-- Reclaim the oldest stripe, if it is reclaimable: its branch invalidation records are appended again and stored before it is
erased (R286). -/
def reclaimOldest (s : State) : State :=
  match withStart 0 s.flash.stripes with
  | [] => s
  | (p, t) :: _ =>
    if !belowMarks s t || exportReads s t then s
    else
      match s.flash.rewritten with
      | some n => if n ≤ newestStored s then eraseOldest s else s
      | none =>
        if (invalidations s p t).isEmpty then eraseOldest s
        else
          let s := (invalidations s p t).foldl (fun a f => appendRecord a 0x25 f.body) s
          { s with flash := { s.flash with rewritten := some (s.log.next - 1) } }

/-- A stripe more than 300 erases below the mean (R285). -/
def fallenBehind (s : State) (t : Stripe) : Bool :=
  let l := turntable s
  decide (l.length * (slotErases s t.slot + 300 * (planesOf s.flash.deadDies).length) < (l.map (slotErases s)).sum)

/-- Copy a stripe forward: the same records in a fresh place, the old one erased and free (R285). -/
def copyForward (s : State) (t : Stripe) : State :=
  match freeSlot s with
  | some k =>
    eraseSlotBlocks { s with flash := { s.flash with
      stripes := s.flash.stripes.map (fun x => if x.slot = t.slot then { x with slot := k } else x) } } t.slot
  | none => s

/-- Stripes with unreclaimable records that have fallen behind are copied forward. -/
def levelWear (s : State) : State :=
  (withStart 0 s.flash.stripes).foldl (fun a e =>
    if !reclaimable a e && fallenBehind a e.2 then copyForward a e.2 else a) s

/-- Begin a stripe in the free place with the lowest erase count; its parity lies in the next plane (R274, R285). -/
def beginStripe (s : State) : State :=
  match freeSlot s with
  | none => s
  | some k =>
    let pl := planesOf s.flash.deadDies
    let head := match s.flash.staged with
      | (n, _) :: _ => if s.flash.carry = 0 then 0 else sizeAt s n - s.flash.carry
      | [] => 0
    let t : Stripe := { last := 0, headBytes := head, parity := pl.getD (s.flash.stripeCount % max 1 pl.length) 0,
                        dead := s.flash.deadDies, slot := k, used := 0, skipped := [] }
    levelWear { s with flash := { s.flash with
      stripes := s.flash.stripes ++ [t], stripeCount := s.flash.stripeCount + 1, wordlines := 0 } }

/-- Release the staging copies that a budget of programmed bytes covers: what stays, the bytes of its first frame already
programmed, and the newest serial with bytes programmed. -/
def release (s : State) : Nat → List (Nat × Nat) → Nat → List (Nat × Nat) × Nat × Nat
  | _, [], last => ([], 0, last)
  | b, e :: r, last =>
    let n := sizeAt s e.1
    if n ≤ b then release s (b - n) r e.1 else (e :: r, b, if b = 0 then last else e.1)

def modLastStripe (l : List Stripe) (f : Stripe → Stripe) : List Stripe :=
  match l.getLast? with
  | some t => l.dropLast ++ [f t]
  | none => l

/-- A wordline stripe can be begun: one whole wordline is staged, and no last-gasp seal runs (R276, R297). -/
def programDue (s : State) : Bool := mainPower s && !s.flash.programming && stripeUnderWay s && !s.power.lastGasp

/-- Begin to program a wordline stripe where one is due, in the newest stripe or in a new one. -/
def startProgram (s : State) : State :=
  if !programDue s then s
  else
    let s := if needsReclaim s then reclaimOldest s else s
    if needsReclaim s then s
    else
      let s := if needsStripe s then beginStripe s else s
      if needsStripe s then s else { s with flash := { s.flash with programming := true } }

/-- The wordline stripe under way has been programmed and read back without error: the staging copies it covers are released
(R276). -/
def programStripe (s : State) : State :=
  let last := ((s.flash.stripes.getLast?).map (fun t => t.last)).getD 0
  let r := release s (s.flash.carry + wordlineStripe s.flash.deadDies) s.flash.staged last
  { s with flash := { s.flash with
      staged := r.1, carry := r.2.1, wordlines := s.flash.wordlines + 1, programming := false,
      stripes := modLastStripe s.flash.stripes (fun t => { t with last := r.2.2, used := s.flash.wordlines + 1 }) } }

/-- The wordline stripe under way is abandoned where it stands (R298). -/
def skipWordline (s : State) : State :=
  let n := s.flash.wordlines
  { s with flash := { s.flash with
      wordlines := n + 1, programming := false,
      stripes := modLastStripe s.flash.stripes (fun t => { t with used := n + 1, skipped := t.skipped ++ [n] }) } }

/-- Write an abandoned wordline stripe again, at once, into a fresh one (R298). -/
def rewriteWordline (s : State) : State :=
  let s := startProgram (skipWordline s)
  if s.flash.programming then startProgram (programStripe s) else s

/-! ### The full log (R287, R288, R289) -/

/-- The log-full change record. -/
def fullChange (s : State) (state : Byte) : Bytes :=
  [state] ++ zeros 7 ++ le 8 s.log.mark ++ le 8 (getR64 s Reg.FLC_DROPPED).toNat

def noteFull (s : State) : State :=
  if !logFull s && decide (477 ≤ lockedStripes s) then
    raise (orR (appendRecord s 0x26 (fullChange s 1)) Reg.FLC_LOG_USE 0x40000) 320
  else s

/-- Bytes of records that could still be written if every reclaimable stripe were reclaimed. -/
def freeLogBytes (s : State) : Nat :=
  let locked := (((withStart 0 s.flash.stripes).filter (fun e => !reclaimable s e)).map
    (fun e => (e.2.used - e.2.skipped.length) * wordlineStripe e.2.dead)).sum
  min ((485 - lockedStripes s) * stripeBytes s + (768 - s.flash.wordlines) * wordlineStripe s.flash.deadDies)
    (logLimit - locked) - stagedBytes s

/-- Manifest frames that still fit in the kept stripes: a Manifest frame is 1,456 bytes. -/
def keptRoom (s : State) : Nat := min (8 * stripeBytes s) (freeLogBytes s) / 1456

end Sys2Proof.Machine
end

