-- ==== Sys2Proof/Machine/Opens.lean ====
section
/-! DEFINITION. LINE_OPEN, LINE_PAUSE and LINE_CLOSE carried out (R75 to R78, R127 to R129, R210, R576). -/

namespace Sys2Proof.Machine

/-! ### Fields of a LINE_OPEN (R127) -/

def woTarget (raw : Bytes) : Nat := num raw 4 4 % 524288
def woService (raw : Bytes) : Bool := (byteAt raw 7) % 2 = 1
def woVerify (raw : Bytes) : Bool := (byteAt raw 7) / 2 % 2 = 1
def woClass (raw : Bytes) : Nat := (byteAt raw 7) / 4 % 4
def woUpLog2 (raw : Bytes) : Nat := byteAt raw 8
def woDnLog2 (raw : Bytes) : Nat := byteAt raw 9
def woVector (raw : Bytes) : Nat := num raw 10 2 % 2048
def woVecEn (raw : Bytes) : Bool := 128 ≤ byteAt raw 11
def woParent (raw : Bytes) : Nat := num raw 12 2 % 4096
def woGeneration (raw : Bytes) : Nat := num raw 16 4
def woUpBase (raw : Bytes) : Nat := num raw 24 8
def woDnBase (raw : Bytes) : Nat := num raw 32 8
def woSequence (raw : Bytes) : Nat := num raw 40 8
def woHeadAddr (raw : Bytes) : Nat := num raw 48 8
def woResume (raw : Bytes) : Bool := byteAt raw 3 % 2 = 1
def woReplace (raw : Bytes) : Bool := byteAt raw 3 / 2 % 2 = 1

/-- The continue form, which a service line ignores (R76). -/
def woContinue (raw : Bytes) : Bool := byteAt raw 3 / 4 % 2 = 1 && !woService raw

def sizeOk (n : Nat) : Bool := 4 ≤ n && n ≤ 16

/-! ### Checks, in the order of R576 -/

/-- Steps 1 to 3. -/
def openCheckEarly (s : State) (raw : Bytes) : Nat :=
  let l := woTarget raw
  let r := getLine s l
  let misaligned := !decide (woUpBase raw % 4096 = 0 ∧ woDnBase raw % 4096 = 0)
  let sizes := sizeOk (woUpLog2 raw) && sizeOk (woDnLog2 raw)
  if l = 0 then 0x08
  else
    match r.state with
    | .opened => 0x08
    | .faulted => 0x08
    | .closed =>
      if woResume raw ∨ (woService raw ∧ 1024 ≤ l) then 0x08
      else if misaligned then 0x04
      else if woContinue raw ∧ woHeadAddr raw % 16 ≠ 0 then 0x04
      else if !sizes then 0x08
      else 0
    | .paused =>
      if !woResume raw then 0x08
      else if r.halt ∧ upCount r ≠ 0 then 0x08
      else if !woReplace raw then 0
      else if misaligned then 0x04
      else if !sizes then 0x08
      else if upCount r ≠ 0 ∨ dnCount r ≠ 0 ∨ !r.flights.isEmpty then 0x08
      else 0

/-- The parent of a data line (R76, R230). -/
def parentOk (s : State) (p : Nat) : Bool :=
  match mget? s.branches p with
  | some b => chainValid s p && decide (b.kind = 1) && permitsAll b.mask trackMasters && !decide (p = 0) && !decide (p = 4095)
  | none => false

/-- Step 4. -/
def openCheckParent (s : State) (raw : Bytes) : Bool :=
  woService raw || decide ((getLine s (woTarget raw)).state ≠ .closed) || parentOk s (woParent raw)

/-- A leaf waits for a Manifest or for the rebuild (R210, R214). -/
def leafUnstored (s : State) (l : Nat) : Bool :=
  s.su.rebuilding || s.su.ahead.any (fun x => decide (x.2.1 = l)) || s.su.jobs.any (fun j => (mget? j.epoch.changed l).isSome) ||
    (match s.su.open_ with
     | some e => (mget? e.changed l).isSome
     | none => false)

/-- A read of the tree store finds a seal mismatch: event 192, and the tree is rebuilt from flash; the leaves posted from
now on go into the lists of R215. As after a reset, the PROVE window holds the newest stored tree alone (log entry 140). -/
def treeFault (s : State) : State :=
  let s := sealPrivate (sealFault s spineTile) .treeStore
  let m := rebuiltLeaves s.su
  let fresh (e : Epoch) : Epoch := { e with during := [] }
  { s with su := { s.su with
      rebuilding := true, stored := m, open_ := s.su.open_.map fresh,
      jobs := s.su.jobs.map (fun j => { j with epoch := fresh j.epoch }),
      window := (s.su.window.take 1).map (fun t => { t with leaves := m }) } }

/-- The supplied chain matches the line's leaf in the newest stored tree (R210). -/
def leafMatches (s : State) (l seq : Nat) (head : Bytes) : Bool :=
  match mget? s.su.stored l with
  | some f => decide (leafHash l f.seq.toNat f.head = leafHash l seq head)
  | none => decide (seq = 0) && allZero head

/-! ### The open itself -/

/-- LINES of a branch changes by a line opened or closed (R230). -/
def countLines (s : State) (p : Nat) (up : Bool) : State :=
  { s with branches := mmap? s.branches p (fun b => { b with lines := if up then b.lines + 1 else b.lines - 1 }) }

/-- The context a LINE_OPEN creates (R89). -/
def openedContext (s : State) (raw : Bytes) (head : Bytes) : Context :=
  { service := woService raw, verify := woVerify raw && !woService raw, cls := BitVec.ofNat 2 (woClass raw),
    upLog2 := BitVec.ofNat 8 (woUpLog2 raw), dnLog2 := BitVec.ofNat 8 (woDnLog2 raw),
    vector := BitVec.ofNat 11 (woVector raw), vecEn := woVecEn raw, upBase := BitVec.ofNat 64 (woUpBase raw),
    dnBase := BitVec.ofNat 64 (woDnBase raw), parent := if woService raw then 0 else BitVec.ofNat 12 (woParent raw),
    generation := if woService raw then 0 else BitVec.ofNat 32 (woGeneration raw),
    sequence := if woContinue raw then BitVec.ofNat 64 (woSequence raw) else 0, records := 0, lastTtc := 0, lastEpoch := 0,
    chainHead := if woContinue raw then slice head 0 32 else zeros 32, openTtc := s.ttc,
    openEpoch := BitVec.ofNat 64 (epochOf s s.ttc.toNat) }

/-- The line record of a line just opened; an index-table entry that pends still does (R88). -/
def openedLine (raw : Bytes) (mirror : Bool) : Line :=
  { Line.closed with
    state := .opened, mirror := mirror, upLog2 := woUpLog2 raw, dnLog2 := woDnLog2 raw, service := woService raw,
    verify := woVerify raw && !woService raw, cls := BitVec.ofNat 2 (woClass raw),
    dnBase := BitVec.ofNat 64 (woDnBase raw), vector := BitVec.ofNat 11 (woVector raw), vecEn := woVecEn raw,
    parent := if woService raw then 0 else woParent raw, resident := true }

/-! ### The order of LINE_* waybills that name one line (R75) -/

/-- The LINE_* waybills of line 0 that name a line, oldest first (R75). -/
def opsOn (s : State) (l : Nat) : List Flight :=
  (getLine s 0).flights.filter (fun f =>
    decide (0x10 ≤ byteAt f.raw 2 ∧ byteAt f.raw 2 ≤ 0x12 ∧ woTarget f.raw = l ∧ f.phase ≠ .formed))

/-- A flight of line 0 is the oldest of those that name its target. -/
def firstOn (s : State) (f : Flight) : Bool :=
  match opsOn s (woTarget f.raw) with
  | g :: _ => decide (g.id = f.id)
  | [] => false

/-- Complete waybills of a list that had ended before their turn, up to the first that has not. -/
def completeEnded : List Flight → State → State
  | [], s => s
  | f :: r, s => if f.phase = .ended then completeEnded r (completeRaw s 0 f f.status.toNat 0 0 []) else s

/-- Complete a LINE_* waybill of line 0 with the line's sequence and chain head (R77, R78). Waybills on the same target that
had ended at admission, and waited for it, then complete too (R75). -/
def completeControl (s : State) (id status seq : Nat) (head : Bytes) : State :=
  match flight? s 0 id with
  | none => s
  | some f =>
    let s := completeRaw s 0 f status (gaspFlag f.gasp) seq head
    completeEnded (opsOn s (woTarget f.raw)) s

/-- The line record that a LINE_* waybill reads holds a seal mismatch: it completes with 0x0D and changes nothing (R86; log
entry 133). -/
def withRecord (s : State) (id l : Nat) (f : State → State) : State :=
  if recordBad s l then completeControl (sealFault s spineTile) id 0x0D 0 [] else f s

/-! ### The open itself (R76, R77, R93) -/

/-- Open a CLOSED line: its context is created on die (R93). -/
def openNew (s : State) (id : Nat) (raw head : Bytes) : State :=
  let l := woTarget raw
  let c := openedContext s raw head
  let s := setCtx (setLine s l (openedLine raw (getLine s l).mirror)) l c
  let s := if woService raw then s else countLines s (woParent raw) true
  completeControl s id 0 c.sequence.toNat c.chainHead

/-- The line record after a resume; the status of the last halt stays (R77, R110). -/
def resumedLine (s : State) (raw : Bytes) (r : Line) : Line :=
  let r := { r with state := .opened, halt := false, ready := decide (upCount r ≠ 0) }
  if woReplace raw then
    { zeroIndices (mirrorOn s) r with
      ready := false, upLog2 := woUpLog2 raw, dnLog2 := woDnLog2 raw, dnBase := BitVec.ofNat 64 (woDnBase raw) }
  else r

/-- The context after a resume. -/
def resumedContext (raw : Bytes) (c : Context) : Context :=
  { c with upLog2 := BitVec.ofNat 8 (woUpLog2 raw), dnLog2 := BitVec.ofNat 8 (woDnLog2 raw),
           upBase := BitVec.ofNat 64 (woUpBase raw), dnBase := BitVec.ofNat 64 (woDnBase raw) }

/-- Resume a PAUSED line whose context is resident (R77). -/
def resumeLine (s : State) (id : Nat) (raw : Bytes) : State :=
  let l := woTarget raw
  match ctx? s l with
  | none => s
  | some c =>
    let s := setLine s l (resumedLine s raw (getLine s l))
    completeControl (if woReplace raw then setCtx s l (resumedContext raw c) else touchSlot s l) id 0 c.sequence.toNat
      c.chainHead

/-- A LINE_* waybill waits for a context. -/
def park (s : State) (id : Nat) : State := updFlight s 0 id (fun f => { f with phase := .parked })

/-- Open a CLOSED line once a slot of the cache is free. -/
def openRoom (s : State) (id : Nat) (raw head : Bytes) : State :=
  let s := makeRoom s
  if cacheSlots ≤ occupied s then park s id else openNew s id raw head

/-- Step 5 of R576 on a CLOSED line in the continue form: wait, match, or refuse. -/
def openContinue (s : State) (id : Nat) (raw head : Bytes) : State :=
  let l := woTarget raw
  if leafUnstored s l then park s id
  else if privateBad s .treeStore then park (treeFault s) id
  else if leafMatches s l (woSequence raw) (slice head 0 32) then openRoom s id raw head
  else completeControl s id 0x0F 0 []

/-- Step 5 of R576 on a CLOSED line. -/
def openClosed (s : State) (id : Nat) (raw head : Bytes) : State :=
  if woContinue raw then openContinue s id raw head else openRoom s id raw head

/-- Step 5 of R576 on a PAUSED line: the context, once it is resident (R77). -/
def openPaused (s : State) (id : Nat) (raw : Bytes) : State :=
  let l := woTarget raw
  let s := wantContext s l
  if !resident s l then park s id
  else if ctxBad s l then completeControl (faultContext s l none) id 0x0D 0 []
  else resumeLine s id raw

/-- The status of steps 1 to 4 of R576; 0 when none fails. -/
def openCheck (s : State) (raw : Bytes) : Nat :=
  if openCheckEarly s raw ≠ 0 then openCheckEarly s raw
  else if openCheckParent s raw then 0
  else 0x06

/-- Carry out the LINE_OPEN of flight `id`; `head` is what the read of HEAD_ADDR returned. -/
def tryOpen (s : State) (id : Nat) (raw head : Bytes) : State :=
  withRecord s id (woTarget raw) (fun s =>
    if openCheck s raw ≠ 0 then completeControl s id (openCheck s raw) 0 []
    else if (getLine s (woTarget raw)).state = .closed then openClosed s id raw head
    else openPaused s id raw)

/-- LINE_OPENs on CLOSED lines that waited for a Manifest, for the rebuild (R210) or for a free slot check again. -/
def recheckOpens (s : State) : State :=
  (getLine s 0).flights.foldl (fun t f =>
    if f.phase = .parked ∧ byteAt f.raw 2 = 0x10 ∧ (getLine t (woTarget f.raw)).state = .closed then tryOpen t f.id f.raw f.records
    else t) s

/-! ### LINE_PAUSE (R75, R78) -/

/-- Carry out a LINE_PAUSE: admission stops at once; it completes when nothing is in flight on the line. One that names line 0
completes with 0x08 (log entry 134). -/
def tryPause (s : State) (id : Nat) (raw : Bytes) : State :=
  let l := woTarget raw
  withRecord s id l (fun s =>
    let r := getLine s l
    if l = 0 ∨ r.state = .closed ∨ r.state = .faulted then completeControl s id 0x08 0 []
    else if r.state = .paused then completeControl s id 0 0 []
    else if r.flights.isEmpty then completeControl (setLine s l { r with state := .paused }) id 0 0 []
    else park (setLine s l { r with state := .paused, pausing := true }) id)

/-! ### LINE_CLOSE (R78) -/

/-- Close a line whose final sequence and chain head are at hand. -/
def closeLine (s : State) (id l seq : Nat) (head : Bytes) : State :=
  let r := getLine s l
  let s := if r.service then s else countLines s r.parent false
  completeControl (dropSlot (setLine s l (closedRecord (mirrorOn s) r)) l) id 0 seq head

/-- A LINE_CLOSE that was accepted, on a line whose context can be read (R78). -/
def closeFilled (s : State) (id l : Nat) : State :=
  let s := wantContext s l
  if !resident s l then park s id
  else if ctxBad s l then closeLine (faultContext s l none) id l 0 []
  else
    match ctx? s l with
    | some c => closeLine s id l c.sequence.toNat c.chainHead
    | none => s

/-- Carry out a LINE_CLOSE. -/
def tryClose (s : State) (id : Nat) (raw : Bytes) : State :=
  let l := woTarget raw
  withRecord s id l (fun s =>
    let r := getLine s l
    if l = 0 ∨ (r.state ≠ .paused ∧ r.state ≠ .faulted) ∨ !r.flights.isEmpty then completeControl s id 0x08 0 []
    else if r.lost then closeLine s id l 0 []
    else closeFilled s id l)

/-- Parked LINE_OPEN and LINE_CLOSE waybills that waited for a context go on (R77, R78). -/
def retryControl (s : State) (l : Nat) : State :=
  match opsOn s l with
  | f :: _ =>
    if f.phase = .parked ∧ byteAt f.raw 2 = 0x12 then tryClose s f.id f.raw
    else if f.phase = .parked ∧ byteAt f.raw 2 = 0x10 then tryOpen s f.id f.raw f.records
    else s
  | [] => s

/-- Complete the LINE_* waybill that waits for a context whose fill failed. -/
def failControl (s : State) (l status : Nat) : State :=
  match opsOn s l with
  | f :: _ =>
    if f.phase = .parked ∧ byteAt f.raw 2 = 0x12 ∧ status ≠ 0x05 then closeLine s f.id l 0 []
    else if f.phase = .parked then completeControl s f.id status 0 []
    else s
  | [] => s

end Sys2Proof.Machine
end

