-- ==== Sys2Proof/Machine/Seal.lean ====
section
/-! DEFINITION. The Seal unit: epochs, Manifests and plant Manifests, their signatures and their storage, checkpoints,
the PROVE window and the tree rebuild (R187 to R217, R267 to R269, R277, R574, R575). -/

namespace Sys2Proof.Machine

/-! ### Roles (R251, R558) -/

def role (s : State) : Nat := (sstGet s 5).toNat % 4
def level (s : State) : Nat := max 1 ((sstGet s 5).toNat / 256 % 4)
def isTerminus (s : State) : Bool := decide (role s = 2) || decide (role s = 3)

/-- An ENROLLED slot is stale: no relay for 60 s (R268). -/
def stationStale (s : State) (st : Station) : Bool :=
  decide (st.state = .enrolled) && decide (st.lastRelay.toNat + 60 * second ≤ s.ttc.toNat)

/-! ### Opening an epoch (R188, R189) -/

def largestEpoch (l : List Bytes) : Nat := l.foldl (fun m b => max m (manifestEpoch b)) 0

/-- B and K0 at the first entry into Running or Caution after E was written (R188). -/
def setBase (s : State) : State :=
  if s.su.basePending then
    let m := manifests s
    let k0 := if m.isEmpty then 0 else largestEpoch m + 1
    let s := sstStore (sstStore s 1 s.ttc) 2 (BitVec.ofNat 64 k0)
    { s with su := { s.su with basePending := false } }
  else s

def openEpochAt (s : State) (number : Nat) (start : DWord) (restart : Bool) : State :=
  let e : Epoch := { number := number, ttcStart := start, restart := restart, consists := 0, tier := s.power.tier,
                     caution := decide (s.mode = .caution), changed := [], during := [], largestStamp := 0 }
  { s with su := { s.su with open_ := some e } }

/-- The epoch that contains the entry TTC opens (R189). -/
def enterSealing (s : State) : State :=
  if s.su.open_.isSome then s
  else
    let s := setBase s
    openEpochAt s (epochOf s s.ttc.toNat) s.ttc true

/-- The open epoch notes a mode or tier in force during it (R199). -/
def noteEpoch (s : State) : State :=
  { s with su := { s.su with
      open_ := s.su.open_.map (fun e => { e with caution := e.caution || decide (s.mode = .caution), tier := min e.tier s.power.tier }) } }

/-! ### Closing an epoch (R190, R204, R205, R268) -/

def rcTime (s : State) : Bool := bitR s Reg.TTC_STATUS 0

/-- What a plant Manifest takes at the close: LEVEL and the STALE bit, and the fields of its own Manifest. -/
def plantDraft (s : State) (e : Epoch) (ttcEnd : DWord) : Bytes :=
  let stale := s.stations.any (fun x => stationStale s x.2)
  [0x02, if stale then 2 else 0, BitVec.ofNat 8 (level s), 0] ++ le 6 e.number ++ zeros 6 ++ le 8 e.ttcStart.toNat ++
    le 8 ttcEnd.toNat ++ identity s ++ zeros 80

/-- The open epoch becomes a sealing job (R196, step 1). -/
def closeEpoch (s : State) (ttcEnd : DWord) (flags : Byte) (condemned : Bool) : State :=
  match s.su.open_ with
  | none => s
  | some e =>
    let j : SealJob := {
      epoch := e, ttcEnd := ttcEnd, condemned := condemned,
      flags := flags ||| (if rcTime s then 0x80 else 0), phase := .freezing, leaves := s.su.leaves, header := [],
      signature := [], plant := if isTerminus s then plantDraft s e ttcEnd else [], plantSig := [], serial := 0 }
    { s with su := { s.su with open_ := none, jobs := s.su.jobs ++ [j] } }

/-- Leaves that waited for an epoch now open are posted into it. -/
def postAhead (s : State) : State :=
  let l := s.su.ahead
  l.foldl (fun t x => postLeaf t x.2.1 x.2.2 x.1) { s with su := { s.su with ahead := [] } }

/-- Every leaf stamped so far goes into the epoch that is sealed early (R204). -/
def forceAhead (s : State) : State :=
  let l := s.su.ahead
  l.foldl (fun t x => postInto t x.2.1 x.2.2 x.1) { s with su := { s.su with ahead := [] } }

/-- A Manifest not stored when the boundary of epoch k + 2 passes is late (R198). -/
def noteLate (s : State) (closed : Nat) : State :=
  if s.su.jobs.any (fun j => decide (j.epoch.number + 2 = closed)) then raise (orR s Reg.SEAL_ERR 1) 273 else s

/-- Close the open epoch at its boundary and open the next one (R190). -/
def closeAtBoundary (s : State) : State :=
  match s.su.open_ with
  | none => s
  | some e =>
    let b := BitVec.ofNat 64 (epochEnd s e.number)
    noteLate (postAhead (openEpochAt (closeEpoch s b 0 false) (e.number + 1) b false)) e.number

/-- The TTC seen has reached the boundary of the open epoch. -/
def boundaryReached (s : State) : Bool :=
  match s.su.open_ with
  | some e => decide (epochEnd s e.number ≤ s.ttc.toNat)
  | none => false

/-- No track is still absorbing a consist stamped before the boundary (R190). -/
def tracksPast (s : State) : Bool :=
  match s.su.open_ with
  | some e => s.lne.lines.all (fun x => x.2.flights.all (fun f =>
      !(decide (f.phase = .stamped) && decide (f.stamp.toNat < epochEnd s e.number))))
  | none => true

def closeDue : Nat → State → State
  | 0, s => s
  | n + 1, s => if boundaryReached s then closeDue n (closeAtBoundary s) else s

/-! ### The Manifest key (R203, R207, R233, R342) -/

def manifestPublic (s : State) : Bytes := slice (falconPublic (falconSeed (branchKey s (keyBranch s)))) 0 1793

/-- Nothing refuses a Manifest signature now. -/
def canSign (s : State) : Bool := manifestKeyOk s && anyLane s && entReady s

def manifestMsg (h : Bytes) : Bytes := ascii "XLX manifest" ++ h
def plantMsg (h : Bytes) : Bytes := ascii "XLX plant manifest" ++ h

/-! ### Snapshots of the tree (R194) -/

/-- Node-bank snapshots in use by the window and the frozen jobs: one for each tree that differs from the one before. -/
def snapshots : List (SMap Leaf) → Nat
  | [] => 0
  | [_] => 1
  | a :: b :: r => (if a = b then 0 else 1) + snapshots (b :: r)

def frozenTrees (s : State) : List (SMap Leaf) :=
  (s.su.window.reverse.map (fun t => t.leaves)) ++
    ((s.su.jobs.filter (fun j => decide (j.phase ≠ .freezing))).map (fun j => j.leaves))

/-- A node-bank snapshot for a freeze: none is needed when no block changed (R194). -/
def makeSnapshot (s : State) (j : SealJob) : State :=
  if j.epoch.changed.isEmpty then s else if 5 ≤ snapshots (frozenTrees s) then dropTree s else s

/-! ### Assembly (R199 to R201, R268) -/

/-- Signing is refused at the freeze (R206, R207, R342). -/
def refusedAtFreeze (s : State) (j : SealJob) : Bool :=
  j.condemned || decide (s.mode = .caution) || !manifestKeyOk s || !anyLane s

/-- The 128-byte header. -/
def manifestHeader (s : State) (j : SealJob) (uns : Bool) : Bytes :=
  let flags := j.flags.toNat + b2n j.epoch.restart * 4 + b2n uns * 8 + b2n (logFull s) * 16 + b2n s.su.prev.isEmpty * 32 +
    b2n s.su.treeReset * 64
  [0x01, BitVec.ofNat 8 flags, if j.epoch.caution then 4 else 3, BitVec.ofNat 8 j.epoch.tier] ++ le 6 j.epoch.number ++
    le 6 j.epoch.consists ++ le 8 j.epoch.ttcStart.toNat ++ le 8 j.ttcEnd.toNat ++ identity s ++ lineRoot j.leaves ++
    slice s.su.prev 0 32 ++ (sha3_256 (evidenceSummary s)).take 16

/-- The relays that belong to an epoch are behind its plant Manifest. -/
def dropMarks (m : SMap Station) (k : Nat) : SMap Station :=
  m.map (fun x => (x.1, { x.2 with relays := x.2.relays.filter (fun r => decide (k < r.epoch)) }))

/-- ENROLLED, RELAYED and STATION_ROOT of a plant Manifest: the relays that belong to its epoch (R267, R268; log entry
128). -/
def plantCounts (s : State) (k : Nat) (p : Bytes) : Bytes :=
  patch (patch p 10 (le 2 (stationLeaves s.stations k).length ++ le 2 (relayedIn s.stations k))) 48 (stationRoot s.stations k)

/-- The plant header: the draft of the close with the Station tree, PREV, OWN, UNSIGNED_AT_SEAL and GENESIS (R268). -/
def plantHeader (s : State) (j : SealJob) (uns : Bool) (own : Bytes) : Bytes :=
  if j.plant.isEmpty then []
  else
    let p := plantCounts s j.epoch.number j.plant
    let p := patch p 1 [BitVec.ofNat 8 (byteAt j.plant 1 + b2n uns + b2n s.su.plantPrev.isEmpty * 4)]
    patch (patch p 80 (slice s.su.plantPrev 0 32)) 112 ((sha3_256 own).take 16)

def setJob (s : State) (f : SealJob → SealJob) : State :=
  match s.su.jobs with
  | j :: r => { s with su := { s.su with jobs := f j :: r } }
  | [] => s

/-- Event 276 and KEY_INVALID of a Manifest stored unsigned (R207, R575). -/
def noteUnsigned (s : State) : State := raise (orR s Reg.SEAL_ERR 8) 276

/-- Freeze the first job: its storage, its headers, and their digests as the next PREV (R196, steps 2 to 4). -/
def freeze (s : State) : State :=
  match s.su.jobs with
  | [] => s
  | j :: r =>
    if j.phase ≠ .freezing then s
    else
      let s := makeSnapshot s j
      let uns := refusedAtFreeze s j
      let h := manifestHeader s j uns
      let p := plantHeader s j uns h
      let s := if j.condemned || !manifestKeyOk s || !anyLane s then noteUnsigned s else s
      { s with stations := if p.isEmpty then s.stations else dropMarks s.stations j.epoch.number, su := { s.su with
          jobs := { j with header := h, plant := p, phase := .signing, signature := if uns then zeros 1280 else [],
                           plantSig := if uns then zeros 1280 else [] } :: r,
          prev := sha3_256 h, plantPrev := if p.isEmpty then s.su.plantPrev else sha3_256 p, treeReset := false } }

/-! ### Signing (R202, R206, R575) -/

def isManifestJob (j : Option LsuJob) : Bool :=
  match j with
  | some (.manifest _) => true
  | _ => false

/-- A lane signs the Manifest. -/
def manifestRuns (s : State) : Bool := s.lanes.toList.any (fun l => isManifestJob l.job)

/-- The lane that signs the Manifest is free again. -/
def freeManifestLane (s : State) : State :=
  { s with lanes := s.lanes.map (fun l => if isManifestJob l.job then { l with job := none } else l) }

/-- The seed of the key that a lane has loaded for the Manifest: the job runs to its end with it (R337, R238). -/
def loadedSeed (s : State) : Option Bytes :=
  s.lanes.toList.findSome? (fun l =>
    match l.job with
    | some (.manifest seed) => some seed
    | _ => none)

/-- The signatures of a job whose key is loaded. -/
def signLoaded (s : State) (j : SealJob) (seed : Bytes) : State :=
  let a := signWith s seed (manifestMsg j.header)
  if j.plant.isEmpty then setJob a.state (fun j => { j with signature := a.sig })
  else
    let b := signWith a.state seed (plantMsg j.plant)
    setJob b.state (fun j => { j with signature := a.sig, plantSig := b.sig })

/-- A Manifest that cannot be signed is stored unsigned (R575). -/
def leaveUnsigned (s : State) : State :=
  noteUnsigned (setJob s (fun j => { j with signature := zeros 1280, plantSig := zeros 1280 }))

/-- Sign the first job: with the key that its lane has loaded, else with one loaded now, where nothing refuses it (R575). -/
def signJob (s : State) : State :=
  match s.su.jobs with
  | [] => s
  | j :: _ =>
    let held := loadedSeed s
    let s := freeManifestLane s
    if j.phase ≠ .signing ∨ !j.signature.isEmpty then s
    else
      match held with
      | some seed => if entReady s then signLoaded s j seed else leaveUnsigned s
      | none =>
        if canSign s then
          let k := loadKey s (workLane s) (keyBranch s)
          signLoaded k.state j k.key.seed
        else leaveUnsigned s

/-- Sign the first waiting unsigned Manifest; its signed copy is a new record (R206). -/
def signBacklogOne (s : State) : State :=
  match s.su.unsigned with
  | [] => s
  | u :: r =>
    let a := signBy s (keyBranch s) (if u.plant then plantMsg u.header else manifestMsg u.header)
    let s := { a.state with su := { s.su with unsigned := r, resigned := s.su.resigned ++ [(s.log.next, u)] } }
    appendRecord s (if u.plant then 0x04 else 0x02) (u.header ++ a.sig)

def signBacklogN : Nat → State → State
  | 0, s => s
  | n + 1, s => signBacklogN n (signBacklogOne s)

/-- The Seal unit signs the backlog in epoch order, when it may (R206, R207, R342). -/
def signBacklog (s : State) : State :=
  if s.mode = .caution ∨ !canSign s then s else signBacklogN s.su.unsigned.length s

/-! ### Hand-over to the log writer (R196, R211, R268) -/

/-- Leaves that a delta or checkpoint lists. -/
def deltaBody (m : SMap Leaf) : Bytes := m.flatMap (fun e => le 4 e.1 ++ leafHash e.1 e.2.seq.toNat e.2.head)

def deltaRecord (j : SealJob) : Bytes :=
  [0x01, 0x02] ++ le 6 j.epoch.number ++ le 8 j.epoch.number ++ le 4 j.epoch.changed.length ++ zeros 12 ++
    slice j.header 48 32 ++ sha3_256 j.header ++ zeros 32 ++ deltaBody j.epoch.changed

/-- Stage the first job: the delta and the Manifest as one write, then the plant Manifest (R196, R268). -/
def handOver (s : State) : State :=
  match s.su.jobs with
  | [] => s
  | j :: _ =>
    if j.phase ≠ .signing ∨ j.signature.isEmpty then s
    else
      let ser := s.log.next
      let s := stage s (framesOf s 0x01 (j.header ++ j.signature)) (deltaRecord j) true
      let s := if j.plant.isEmpty then s else stage s (framesOf s 0x03 (j.plant ++ j.plantSig)) [] false
      setJob s (fun j => { j with phase := .storing, serial := ser })

/-! ### Checkpoints (R211 to R213, R287) -/

def bitmapByte (m : SMap Leaf) (b : Nat) : Byte :=
  BitVec.ofNat 8 (((List.range 8).filter (fun i => (mget? m (8 * b + i)).isSome)).foldl (fun a i => a + 2 ^ i) 0)

/-- A checkpoint in the layout of R211. -/
def checkpointRecord (c : Ckpt) : Bytes :=
  [0x01, if c.base then 0x03 else 0x01] ++ le 6 c.epoch ++ le 8 c.from_ ++ le 4 c.leaves.length ++ zeros 12 ++
    slice c.header 48 32 ++ sha3_256 c.header ++ zeros 32 ++ (List.range 65536).map (bitmapByte c.leaves) ++
    c.leaves.flatMap (fun e => leafHash e.1 e.2.seq.toNat e.2.head)

def ckptInterval (s : State) : Nat := (sstGet s 4).toNat % 65536
def ckptBaseEvery (s : State) : Nat := (sstGet s 4).toNat / 65536 % 256

/-- The next checkpoint of the log is a base checkpoint: the first one, the BASE_EVERY-th after one, and the one after a
staging checkpoint (R212, R288). -/
def baseDue (s : State) : Bool :=
  s.su.ckpts.isEmpty || s.su.stagedCkpt.isSome || decide (ckptBaseEvery s ≤ s.su.ckpts.length)

/-- Leaves changed since the last checkpoint. -/
def sinceCheckpoint (s : State) : SMap Leaf := s.su.deltas.foldl (fun m d => overlay m d.leaves) []

/-- The checkpoint of the newest stored tree; `all` for one that lists every leaf. FROM_EPOCH of the first is 0 (DESIGN CHOICE,
log entry 171). -/
def newCkpt (s : State) (epoch upTo : Nat) (header : Bytes) (all : Bool) : Ckpt :=
  { epoch := epoch, from_ := s.su.ckptFrom, header := header, upTo := upTo, base := all,
    leaves := if all then s.su.stored else sinceCheckpoint s, first := 0, last := 0, at_ := 0, size := 0, lost := false }

/-- Hand a checkpoint to the log writer as a log record. -/
def logCheckpoint (s : State) (c : Ckpt) : State :=
  let fs := framesOf s 0x10 (checkpointRecord c)
  stageWrite s { frames := fs, delta := [], manifest := false,
                 ckpt := some { c with first := s.log.next, last := s.log.next + fs.length - 1 } }

/-- Write a checkpoint of the newest stored tree. While the log is full it goes to staging alone, listing every leaf (R287; log
entry 141). -/
def checkpoint (s : State) (epoch upTo : Nat) (header : Bytes) : State :=
  if logFull s then
    let c := newCkpt s epoch upTo header true
    stageWrite s { frames := [], delta := checkpointRecord c, manifest := false, ckpt := some c }
  else logCheckpoint s (newCkpt s epoch upTo header (baseDue s))

/-- Bytes of delta records held in staging. -/
def deltaBytes (s : State) : Nat := (s.su.deltas.map (fun d => d.size)).sum

/-- A checkpoint falls due after INTERVAL Manifests, or at 4 GiB of staged deltas, with event 275 (R212, R213). -/
def checkpointDue (s : State) (epoch upTo : Nat) (header : Bytes) : State :=
  if 4294967296 ≤ deltaBytes s then raise (orR (checkpoint s epoch upTo header) Reg.SEAL_ERR 4) 275
  else if ckptInterval s ≤ s.su.deltas.length then checkpoint s epoch upTo header
  else s

/-- A checkpoint is stored: it takes the place of the deltas it covers, and in the log of an older chain of checkpoints and of
the staging checkpoint (R212, R277, R286 to R288). -/
def ckptStored (s : State) (c : Ckpt) : State :=
  let su := { s.su with deltas := s.su.deltas.filter (fun d => decide (c.upTo < d.serial)), ckptFrom := c.epoch + 1 }
  if c.first = 0 then { s with su := { su with stagedCkpt := some c } }
  else if c.base then
    { s with su := { su with ckpts := [c], stagedCkpt := none }, log := { s.log with base := some c.first } }
  else { s with su := { su with ckpts := su.ckpts ++ [c] } }

/-! ### Station snapshot (R269, R280) -/

def snapshotEntry (i : Nat) (st : Station) : Bytes :=
  le 2 i ++ zeros 6 ++ le 8 st.epoch ++ slice st.sId 0 16 ++ slice st.digest 0 32

/-- Write the moving part of every slot that changed (R269). -/
def stationSnapshot (s : State) : State :=
  let moved := s.stations.filter (fun e => e.2.moved)
  let s := { s with su := { s.su with sinceSnap := 0 },
                    stations := s.stations.map (fun e => (e.1, { e.2 with moved := false })) }
  if moved.isEmpty then s else appendRecord s 0x23 (moved.flatMap (fun e => snapshotEntry e.1 e.2))

def snapshotDue (s : State) : State :=
  if isTerminus s then
    if 60 ≤ s.su.sinceSnap + 1 then stationSnapshot s
    else { s with su := { s.su with sinceSnap := s.su.sinceSnap + 1 } }
  else s

/-! ### The Manifest is stored (R196 step 7, R208) -/

/-- Complete a FENCE that waited for an epoch (R126, R145, R206). -/
def completeFence (s : State) (l : Nat) (f : Flight) (epoch : Nat) (uns : Bool) : State :=
  let c := f.completion
  let rec_ := slice c 0 4 ++ le 4 (b2n uns * 0x10000000) ++ slice c 8 8 ++ le 8 s.ttc.toNat ++ le 8 epoch ++ slice c 32 32
  settle (updFlight s l f.id (fun g => { g with phase := .formed, completion := rec_ })) l

/-- Complete every FENCE that waits for an epoch. -/
def releaseFences (s : State) (epoch : Nat) (uns : Bool) : State :=
  s.lne.lines.foldl (fun a e => e.2.flights.foldl (fun b f =>
    if f.phase = .sealWait ∧ f.waitFor ≤ epoch then completeFence b e.1 f f.waitFor uns else b) a) s

/-- SEAL_LAST moves; with the Tail lamp's last update at least 3,600 s old, that makes the next one due (R488). -/
def moveLast (s : State) (epoch : Nat) : State :=
  let t := setR64 s Reg.SEAL_LAST (BitVec.ofNat 64 epoch)
  if s.tail.lastUpdate.toNat + 3600 * second ≤ s.ttc.toNat ∧ (getR64 s Reg.SEAL_LAST).toNat ≠ epoch then tailDue t else t

/-- Step 7 of R196 for the first job, whose delta stands at byte `o` of the staging stream. -/
def manifestStoredFx (s : State) (o deltaLen : Nat) : State :=
  match s.su.jobs with
  | [] => s
  | j :: r =>
    let uns := allZero j.signature
    let waiting := if uns && !j.condemned then
        [{ header := j.header, plant := false }] ++
          (if j.plant.isEmpty then [] else [{ header := j.plant, plant := true : Unsigned }])
      else []
    let s := { s with su := { s.su with
      jobs := r, window := ({ epoch := j.epoch.number, header := j.header, leaves := j.leaves } :: s.su.window).take 5,
      stored := j.leaves, storedRoot := slice j.header 48 32, unsigned := s.su.unsigned ++ waiting,
      deltas := s.su.deltas ++ [{ serial := j.serial, leaves := j.epoch.changed, at_ := o, size := deltaLen, lost := false }] } }
    let s := moveLast s j.epoch.number
    let s := raise s 272
    let s := releaseFences s j.epoch.number uns
    let s := checkpointDue s j.epoch.number j.serial j.header
    recheckOpens (snapshotDue s)

/-! ### A staging write verifies (R275) -/

/-- Complete the service waybills that waited for a stored record (R191). -/
def releaseStored (s : State) : State :=
  s.lne.lines.foldl (fun a e => e.2.flights.foldl (fun b f =>
    if f.phase = .parked ∧ byteAt f.raw 2 = 0x2A ∧ f.waitFor ≤ newestStored b then
      completeService b e.1 f.id 0 0 (le 8 f.waitFor)
    else b) a) s

/-- The body of a Station snapshot record reaches the register's stored copy (R269). -/
def applySnapshot : Nat → SMap Station → Bytes → SMap Station
  | 0, m, _ => m
  | n + 1, m, b =>
    applySnapshot n (mmap? m (num b 0 2) (fun st => { st with
      snapEpoch := num b 8 8, snapId := slice b 16 16, snapDigest := slice b 32 32 })) (b.drop 64)

def snapshotsStored (m : SMap Station) (fs : List Frame) : SMap Station :=
  fs.foldl (fun a f => if f.typ = 0x23 then applySnapshot (f.body.length / 64) a f.body else a) m

/-- Planes that the staging ring runs over (R275, R566). -/
def ringPlanes (s : State) : Nat := (planesOf s.flash.deadDies).length

/-- Capacity of the staging ring: 73 SLC blocks of each plane (R273). -/
def ringBytes (s : State) : Nat := ringPlanes s * 918552576

/-- Mean program and erase cycles of the staging blocks (R291). -/
def ringWear (w : Nat) : Nat := w / (840 * 918552576)

/-- Bytes go to the staging ring, whose mean wear raises event 324 at 48,000 cycles (R291). -/
def wearStaging (s : State) (n : Nat) : State :=
  let a := s.flash.stagingWear
  let b := a + 840 * n / max 1 (ringPlanes s)
  raiseIf (decide (ringWear a < 48000 ∧ 48000 ≤ ringWear b))
    { s with flash := { s.flash with stagingBytes := s.flash.stagingBytes + n, stagingWear := b } } 324

/-- The byte of the staging stream where the oldest copy not yet released begins: a record not yet migrated, a delta or a
staging checkpoint that no later checkpoint covers (R277). -/
def oldestStaged (s : State) : Nat :=
  (s.flash.staged.map (fun e => e.2) ++ s.su.deltas.map (fun d => d.at_) ++ (s.su.stagedCkpt.map (fun c => c.at_)).toList).foldl
    min s.flash.stagingBytes

/-- The ring has free pages for `n` bytes more: a page is reused once everything in it is released (R277). -/
def ringRoom (s : State) (n : Nat) : Bool :=
  decide ((s.flash.stagingBytes + n + pageBytes - 1) / pageBytes * pageBytes ≤
    oldestStaged s / pageBytes * pageBytes + ringBytes s)

/-- Where each frame of a staging write begins in the staging stream. -/
def stagedAt : Nat → List Frame → List (Nat × Nat)
  | _, [] => []
  | o, f :: r => (f.serial, o) :: stagedAt (o + frameSize f) r

/-- The bytes of a staging write. -/
def writeBytes (w : StagingWrite) : Bytes := w.delta ++ w.frames.flatMap frameBytes

/-- A write joins the ring; what a whole turn of the ring has passed is overwritten. -/
def ringPut (s : State) (o : Nat) (b : Bytes) : List (Nat × Bytes) :=
  (o, b) :: s.flash.ring.filter (fun e => decide (o + b.length < e.1 + e.2.length + ringBytes s))

def writeSize (w : StagingWrite) : Nat := w.delta.length + (w.frames.map frameSize).sum

/-- A staging write counts as stored: its frames, the Station snapshots in them, its checkpoint, its Manifest. -/
def storeWrite (s : State) (w : StagingWrite) (r : List StagingWrite) : State :=
  let b := s.flash.stagingBytes
  let o := b + w.delta.length
  let s := wearStaging s (writeSize w)
  let last := ((w.frames.getLast?).map (fun f => f.serial)).getD 0
  let s := { s with log := { s.log with staging := r, frames := s.log.frames ++ w.frames },
                    stations := snapshotsStored s.stations w.frames,
                    su := { s.su with resigned := s.su.resigned.filter (fun x => decide (last < x.1)) },
                    flash := { s.flash with staged := s.flash.staged ++ stagedAt o w.frames, ring := ringPut s b (writeBytes w) } }
  let s := match w.ckpt with
    | some c => ckptStored s { c with at_ := b, size := writeSize w }
    | none => s
  let s := releaseStored s
  if w.manifest then manifestStoredFx s b w.delta.length else s

/-- The oldest staging write verifies; it waits while the ring has no free page for it (R277). -/
def verifyStaging (s : State) : State :=
  match s.log.staging with
  | [] => s
  | w :: r => if ringRoom s (writeSize w) then storeWrite s w r else s

def verifyN : Nat → State → State
  | 0, s => s
  | n + 1, s => verifyN n (verifyStaging s)

/-- Verify everything handed to staging so far. -/
def verifyAll (s : State) : State := verifyN s.log.staging.length s

/-! ### Rebuild of the tree (R214, R215) -/

/-- The trees of the closed epochs, and the tree after them, from their delta lists over a base tree. -/
def replay (m : SMap Leaf) : List SealJob → List SealJob × SMap Leaf
  | [] => ([], m)
  | j :: r =>
    let t := overlay m j.epoch.changed
    let q := replay t r
    ({ j with leaves := t } :: q.1, q.2)

def openChanged (s : State) : SMap Leaf := (s.su.open_.map (fun e => e.changed)).getD []

/-- The rebuilt tree takes the leaves of the epochs closed since and of the open one (R214, R215). -/
def acceptRebuild (s : State) : State :=
  let q := replay s.su.stored s.su.jobs
  recheckOpens { setR s Reg.SEAL_STATUS 8 with su := { s.su with
    rebuilding := false, jobs := q.1, leaves := overlay q.2 (openChanged s) } }

/-- An epoch whose tree restarts keeps the leaves posted during the rebuild. -/
def restartEpoch (e : Epoch) : Epoch := { e with changed := e.during }

/-- The tree restarts (R215): event 274; only leaves posted during the rebuild keep their values; no checkpoint or delta kept so
far serves a later rebuild (log entry 140). A Manifest already assembled keeps its tree. -/
def restartTree (s : State) : State :=
  let s := raise (orR s Reg.SEAL_ERR 2) 274
  let o := s.su.open_.map restartEpoch
  let js := s.su.jobs.map (fun j => if j.phase = .freezing then { j with epoch := restartEpoch j.epoch } else j)
  let q := replay [] (js.filter (fun j => decide (j.phase = .freezing)))
  recheckOpens { s with su := { s.su with
    rebuilding := false, treeReset := true, window := [], stored := [], ckpts := [], deltas := [], stagedCkpt := none,
    open_ := o, jobs := js.filter (fun j => !decide (j.phase = .freezing)) ++ q.1,
    leaves := overlay q.2 ((o.map (fun e => e.changed)).getD []) } }

/-- A read of the delta lists finds a seal mismatch (R24). -/
def listsFault (s : State) : State := sealPrivate (sealFault s spineTile) .deltaLists

/-- The rebuild ends: the rebuilt tree is the base of the open one, or the tree restarts on a root that does not match or on a
seal fault in the delta lists (R215). -/
def finishRebuild (s : State) : State :=
  if !s.su.rebuilding then s
  else if privateBad s .deltaLists then restartTree (listsFault s)
  else if s.su.storedRoot.isEmpty ∨ s.su.storedRoot = lineRoot s.su.stored then acceptRebuild s
  else restartTree s

/-! ### Sealing within one step (R204, R205) -/

/-- A freeze that finds a seal mismatch in the tree store waits for a rebuild (R216). -/
def soundTree (s : State) : State := if privateBad s .treeStore then finishRebuild (treeFault s) else s

/-- Carry the first job from wherever it stands to storage; the backlog is signed ahead of it (R206). -/
def finishJob (s : State) : State := verifyAll (handOver (signJob (signBacklog (freeze (soundTree s)))))

def finishJobs : Nat → State → State
  | 0, s => s
  | n + 1, s => if s.su.jobs.isEmpty then s else finishJobs n (finishJob s)

/-- TTC_END of an early or power-loss seal: raised above the largest stamp it includes (R574). -/
def earlyEnd (s : State) : DWord :=
  match s.su.open_ with
  | some e => if s.ttc.toNat ≤ e.largestStamp.toNat then e.largestStamp + 1 else s.ttc
  | none => s.ttc

/-- Boundaries already passed are closed first; on RC time no epoch opens any more (R185). -/
def closePassed (s : State) : State :=
  match s.su.open_ with
  | some e => if rcTime s then s else closeDue (epochOf s s.ttc.toNat - e.number) s
  | none => s

/-- Seal the open epoch at once, after every earlier one (R204, R205). -/
def sealNow (s : State) (flags : Byte) (condemned : Bool) : State :=
  if s.su.open_.isNone then s
  else
    let s := closePassed (finishRebuild (drainStamped s))
    let s := forceAhead s
    let s := closeEpoch s (earlyEnd s) flags condemned
    let s := finishJobs s.su.jobs.length s
    if isTerminus s then verifyAll (stationSnapshot s) else s

end Sys2Proof.Machine
end

