-- ==== Sys2Proof/Machine/Radio.lean ====
section
/-! DEFINITION. What the Lookout transmits, and when: regions and channels, reflection, the end of an inventory, and the
self-inventory (R474 to R478, R484, R493, R494, R539). -/

namespace Sys2Proof.Machine

/-! ### When it transmits (R475 to R477, R539) -/

/-- REGION, setting 8: 0 none, 1 ETSI, 2 47 CFR Part 15. -/
def region (s : State) : Nat := (sstGet s 8).toNat % 4

def lookoutMode (s : State) : Bool := sealing s || decide (s.mode = .commissioning)

/-- A region is written, and in the American band the hop sequence exists. -/
def regionReady (s : State) : Bool := decide (region s = 1) || (decide (region s = 2) && !s.lko.hop.isEmpty)

def rfFault (s : State) : Bool := bitR s Reg.LKO_STATUS 17

/-- Transmission is permitted in this mode and at this tier. -/
def txEnabled (s : State) : Bool := lookoutMode s && decide (s.power.tier = 2)

/-- A round may start. -/
def txReady (s : State) : Bool := txEnabled s && regionReady s && !rfFault s

/-- A badge round may start: the badge search runs at reduced tier as well. -/
def badgeReady (s : State) : Bool := lookoutMode s && decide (1 ≤ s.power.tier) && regionReady s && !rfFault s

/-- Number of the current channel: in rotation, or from the hop sequence. -/
def channel (s : State) : Nat := if region s = 2 then s.lko.hop.getD (s.lko.hopAt % 50) 0 else s.lko.hopAt % 4

def dwell (s : State) : Nat := if region s = 2 then 2 * second / 5 else 4 * second

/-- At a transmission, move to the next channel once the dwell time has passed (log entry 42). -/
def hop (s : State) : State :=
  if s.ttc.toNat < s.lko.hopSince.toNat + dwell s then s
  else { s with lko := { s.lko with hopAt := s.lko.hopAt + 1, hopSince := s.ttc } }

/-- POWER: +10 dBm and so many steps of 0.5 dB (R476). -/
def txPower (s : State) : Nat := fieldR s Reg.LKO_CFG 0 6

/-- +20 dBm, the limit at reduced tier (R477). -/
def reducedPower : Nat := 20

/-- POWER of a badge round. -/
def badgePower (s : State) : Nat := if s.power.tier = 2 then txPower s else min (txPower s) reducedPower

/-- Send commands at a power, on the current channel. -/
def transmit (s : State) (power : Nat) (l : List AirCommand) : State :=
  { s with ports := { s.ports with airOut := s.ports.airOut ++ l.map (fun c => { power := power, channel := channel s, command := c }) } }

/-- A reflection coefficient above 0.5, in units of 1/256. -/
def reflects (gamma : Byte) : Bool := decide (128 < gamma.toNat)

/-! ### The end of an inventory (R494) -/

/-- Mark a flight as ended by the last-gasp seal. -/
def markGasp (s : State) (l id : Nat) : State := updFlight s l id (fun f => { f with gasp := true })

/-- Transmission stops: the waybill of the inventory in progress completes with a status, an auto round just ends. -/
def stopInventory (s : State) (status : Nat) (gasp : Bool) : State :=
  match s.lko.inv with
  | none => s
  | some v =>
    let s := { s with lko := { s.lko with inv := none } }
    match v.owner with
    | .waybill l id => completeService (if gasp then markGasp s l id else s) l id status 0 []
    | .auto => s

/-- RF_FAULT and event 424; an inventory in progress ends with 0x0B (R476, R494). -/
def faultRf (s : State) : State :=
  stopInventory (raise (orR (orR s Reg.LKO_STATUS 0x20000) Reg.LKO_ERR 2) 424) 0x0B false

/-! ### The self-inventory (R478, R484, R493) -/

/-- One entry (R484). -/
def tagEntry (s : State) (self : Bool) (round : Nat) (t : TagObs) : Bytes :=
  let n := min 32 t.epc.length
  [1, BitVec.ofNat 8 (b2n self + 2 * b2n (decide (32 < t.epc.length)))] ++ be 2 t.pc.toNat ++
    [BitVec.ofNat 8 n, BitVec.ofNat 8 (channel s), t.rssi, BitVec.ofNat 8 round] ++ le 8 s.ttc.toNat ++ slice t.epc 0 32

def lkoResult (s : State) (st : Nat) : State := setR s Reg.LKO_RESULT (withInverse st ||| 0x80000000)

/-- The block of 40 words that the Tail lamp's committed slot holds. -/
def committedBlock (s : State) : Bytes := if s.tail.evCommit then s.tail.ev1 else s.tail.ev0

/-- TID words 0 to 5: class identifier 0xE2, mask designer, model 0x072, serial (R486). -/
def tagTid : Bytes := [0xE2] ++ be 3 (Config.maskDesigner ++ 0x072#12).toNat ++ be 8 Config.tagSerial.toNat

/-- The Tail lamp's own words: its summary is the current one, or the one that a pending update will replace. -/
def selfMatches (s : State) : Bool := decide (slice (committedBlock s) 0 64 = evidenceSummary s) || s.tail.updating

/-- The Tail lamp answers on the loopback: RN16 and handle from its own noise generator, flag S1 at A, no inversion, as no Query
or QueryRep follows. -/
def loopback (s : State) : State :=
  { s with tail := { s.tail with noise := s.tail.noise + 2, inventoried := s.tail.inventoried &&& 0xD, state := .ready } }

/-- The status of a self-inventory, and the reads it makes of the tag that answers. An answer that carries IDENTITY is the Tail
lamp's: its RN16 and its words are the model's own. -/
def askSelf (s : State) (answers : List TagObs) : State × Nat :=
  let s := transmit s 0 [.select 0 [], .query 0]
  match answers with
  | [] => (s, 1)
  | [t] =>
    let own := decide (t.epc = identity s)
    let rn := if own then Config.tagNoise s.tail.noise else t.rn
    let s := { transmit s 0 [.ack rn, .reqRn rn, .readUser 40] with lko := { s.lko with selfEntry := tagEntry s own 1 t } }
    if own then (loopback s, if selfMatches s then 0 else 3) else (s, 3)
  | _ => (s, 2)

def endSelfTest (s : State) (st : Nat) : State := raise (lkoResult s st) (if st = 0 then 422 else 423)

/-- Run the self-inventory now; its transmission starts with the measurement of the reflection (R476). -/
def runSelfTest (s : State) (gamma : Byte) (answers : List TagObs) : State :=
  let s := { s with lko := { s.lko with selfWait := none } }
  if !lookoutMode s ∨ !regionReady s then endSelfTest s 5
  else if s.power.tier < 2 then endSelfTest s 6
  else if rfFault s then endSelfTest s 7
  else if reflects gamma then endSelfTest (faultRf (hop s)) 7
  else
    let r := askSelf (hop s) answers
    endSelfTest r.1 r.2

/-- A round is in progress. -/
def inRound (s : State) : Bool := (s.lko.inv.map (fun v => decide (v.slot ≠ 0))).getD false

/-- A self-inventory that waits runs between rounds. -/
def runWaiting (s : State) : State :=
  match s.lko.selfWait with
  | some a => if inRound s then s else runSelfTest s a.1 a.2
  | none => s

/-- End the inventory in progress; a self-inventory that waited for its round follows. -/
def endInventory (s : State) (status : Nat) : State := runWaiting (stopInventory s status false)

/-- The entry into Running makes a self-inventory due (R493). -/
def selfDue (s : State) (m : Mode) : State :=
  if m = .running ∧ s.mode ≠ .running then { s with lko := { s.lko with selfTimer := .due } } else s

end Sys2Proof.Machine
end

