-- ==== Sys2Proof/Machine/Worlds.lean ====
section
/-! DEFINITION. The operands of Tamem-32 instructions: word registers, predicates, loop words and the return stack of a
core world, with the entries of its register file that hold a seal mismatch (R360, R361, R363, R375 to R381, R392, R427). -/

namespace Sys2Proof.Machine

/-! ### The two worlds of a core -/

def coreAt (s : State) (n : Nat) : Core := s.cores[n]?.getD Core.reset

def worldOf (c : Core) (sig : Bool) : World := if sig then c.sig else c.plat

/-- Replace one world of a core. -/
def Core.put (c : Core) (sig : Bool) (w : World) : Core := if sig then { c with sig := w } else { c with plat := w }

/-! ### Word registers and predicates (R360) -/

/-- w0 reads as zero. -/
def readW (w : World) (i : BitVec 5) : Word := if i = 0 then 0 else w.w[i.toNat]'i.isLt

/-- Writes to w0 are ignored; a write gives an entry a fresh seal. -/
def writeW (i : BitVec 5) (v : Word) (w : World) : World :=
  if i = 0 then w else { w with w := w.w.set i.toNat v i.isLt, badW := w.badW &&& ~~~(1#32 <<< i.toNat) }

/-- p0 reads as 1. -/
def readP (w : World) (i : BitVec 3) : Bool := decide (i = 0) || w.p.getLsbD i.toNat

/-- Writes to p0 are ignored. -/
def writeP (i : BitVec 3) (b : Bool) (w : World) : World :=
  if i = 0 then w else { w with p := if b then w.p ||| (1#8 <<< i.toNat) else w.p &&& ~~~(1#8 <<< i.toNat) }

/-- A predicate and its inverse in the next one (R368, R383, R386). -/
def writePair (i : BitVec 3) (b c : Bool) (w : World) : World := writeP (i + 1) c (writeP i b w)

/-- The predicate pairs that PAIR, WAITT and CTEQ may name. -/
def pairable (i : BitVec 3) : Bool := decide (i = 2) || decide (i = 4) || decide (i = 6)

/-! ### The return stack (R375, R376) -/

/-- Push; the oldest of 24 entries is discarded. A place of the stack that is written gets a fresh seal. -/
def pushStack (v : Word) (w : World) : World :=
  { w with rstack := (v :: w.rstack).take 24,
           badStack := (if 24 ≤ w.rstack.length then w.badStack >>> 1 else w.badStack) &&&
             ~~~(1#24 <<< min w.rstack.length 23) }

/-- The newest entry holds a seal mismatch. -/
def badTop (w : World) : Bool := decide (w.rstack ≠ []) && w.badStack.getLsbD (w.rstack.length - 1)

/-- Drop the newest entry. -/
def dropTop (w : World) : World := { w with rstack := w.rstack.drop 1 }

def stackFull (w : World) : Bool := decide (24 ≤ w.rstack.length)

/-! ### Loop words (R378 to R381) -/

def act0 (w : World) : Bool := bit w.lw0 0
/-- ACT1 is ignored while ACT0 is 0. -/
def act1 (w : World) : Bool := act0 w && bit w.lw0 1
def loopStart0 (w : World) : Word := w.lw0 &&& 0xFFFFFFFC
def loopEnd0 (w : World) : Word := loopStart0 w + BitVec.ofNat 32 (4 * bitsOf w.lw2 0 8)
def loopStart1 (w : World) : Word := loopStart0 w + BitVec.ofNat 32 (4 * bitsOf w.lw2 16 8)
def loopEnd1 (w : World) : Word := loopStart1 w + BitVec.ofNat 32 (4 * bitsOf w.lw2 8 8)

/-- The instruction of `size` bytes at `pc` contains a word. -/
def containsWord (pc : Word) (size : Nat) (e : Word) : Bool := decide (e = pc) || (decide (size = 8) && decide (e = pc + 4))

/-- The handling of level 0 at its loop end. -/
def endLevel0 (w : World) : World :=
  let c := bitsOf w.lw1 0 16
  if 1 < c then { w with lw1 := withBits w.lw1 0 16 (c - 1), pc := loopStart0 w }
  else { w with lw1 := withBits w.lw1 0 16 0, lw0 := w.lw0 &&& ~~~1#32 }

/-- An instruction that transfers no control completes: PC advances, and the active loops whose end it contains are handled,
innermost first (R379). -/
def advancePc (size : Nat) (w : World) : World :=
  let next : World := { w with pc := w.pc + BitVec.ofNat 32 size }
  let at0 := act0 w && containsWord w.pc size (loopEnd0 w)
  if act1 w && containsWord w.pc size (loopEnd1 w) then
    let c := bitsOf w.lw1 16 16
    if 1 < c then { w with lw1 := withBits w.lw1 16 16 (c - 1), pc := loopStart1 w }
    else
      let next : World := { next with lw1 := withBits w.lw1 16 16 0, lw0 := w.lw0 &&& ~~~2#32 }
      if at0 then endLevel0 next else next
  else if at0 then endLevel0 next
  else next

/-- A loop word that is written gets a fresh seal. -/
def sealLoop (i : Nat) (w : World) : World := { w with badLoop := w.badLoop &&& ~~~(1#3 <<< i) }

/-- The handling of a loop end reads LW0, and the other two while a loop is active: one of them holds a seal mismatch. -/
def badLoopEnd (w : World) : Bool :=
  w.badLoop.getLsbD 0 || (act0 w && (w.badLoop.getLsbD 1 || w.badLoop.getLsbD 2))

/-- OFF1 + LEN1 passes LEN0. -/
def loopTooLong (lw2 : Word) : Bool := decide (bitsOf lw2 0 8 < bitsOf lw2 16 8 + bitsOf lw2 8 8)

/-- A write of LW0: ACT1 keeps its value where a 1 in it is a reserved encoding (R381). -/
def writeLw0 (v : Word) (w : World) : World :=
  sealLoop 0 { w with lw0 := if bit v 1 && loopTooLong w.lw2 then withBits v 1 1 (b2n (bit w.lw0 1)) else v }

def writeLw1 (v : Word) (w : World) : World := sealLoop 1 { w with lw1 := v }

def writeLw2 (v : Word) (w : World) : World := sealLoop 2 { w with lw2 := v &&& 0x00FFFFFF }

/-- LBREAK: the innermost active loop ends (R380). -/
def breakLoop (w : World) : World :=
  if act1 w then { w with lw0 := w.lw0 &&& ~~~2#32 }
  else if act0 w then { w with lw0 := w.lw0 &&& ~~~1#32 }
  else w

/-! ### Special registers that hold an address (R392) -/

def writeVbase (v : Word) (w : World) : World := { w with vbase := v &&& 0xFFFFF800 }
def writeSsp (v : Word) (w : World) : World := { w with ssp := v &&& 0xFFFFFFFC }

/-! ### A halted world (R434, R437) -/

/-- A write to a halt page; what a world's register ignores is ignored here. -/
def haltWrite (off : Nat) (v : Word) (w : World) : World :=
  if off < 0x80 then writeW (BitVec.ofNat 5 (off / 4)) v w
  else if off = 0x80 then { w with p := v.setWidth 8 ||| 1, badP := false }
  else if off = 0x84 then { w with pc := v &&& 0xFFFFFFFC }
  else if off = 0x8C then writeLw0 v w
  else if off = 0x90 then writeLw1 v w
  else if off = 0x94 then writeLw2 v w
  else if off = 0x98 then writeSsp v w
  else if off = 0x9C then writeVbase v w
  else w

/-- What the writes that wait for a core-world do to it as it resumes. -/
def resumeWorld (l : List (Nat × Bool × Nat × Word)) (n : Nat) (sig : Bool) (w : World) : World :=
  l.foldl (fun w e => if e.1 = n ∧ e.2.1 = sig then haltWrite e.2.2.1 e.2.2.2 w else w) w

/-- A core resumes in the worlds that are not to stay halted. -/
def resumeCore (l : List (Nat × Bool × Nat × Word)) (n : Nat) (keepP keepS : Bool) (c : Core) : Core :=
  { c with plat := if c.haltP && !keepP then resumeWorld l n false c.plat else c.plat,
           sig := if c.haltS && !keepS then resumeWorld l n true c.sig else c.sig,
           haltP := c.haltP && keepP, haltS := c.haltS && keepS }

end Sys2Proof.Machine
end

