-- ==== Sys2Proof/Machine/Modes.lean ====
section
/-! DEFINITION. Tiers, mode changes, the loss of the Trunk, and the device reset (R499 to R520, R525 to R528, R65, R66, R108,
R178, R204, R221, R238, R269, R298, R426, R440, R443, R448, R541). -/

namespace Sys2Proof.Machine

/-! ### Debug sessions (R433, R434) -/

/-- Close the debug session: its level, its arms and NOT_AFTER clear, halted cores resume. -/
def closeDebug (s : State) : State :=
  let l := s.dbg.haltWrites
  setR64 (setR (clearR
    { s with cores := Vector.ofFn (fun n => resumeCore l n.val false false s.cores[n]),
             dbg := { s.dbg with cores := 0, haltWrites := [] } } Reg.ILK_STATUS 3) Reg.DBG_SESSION 0) Reg.DBG_NOT_AFTER 0

/-! ### Structural commands cut short (R221, R238) -/

/-- Take back the table change of a structural command that is cut short; an INVALIDATE stands from its first step (R235). -/
def undoStructural (s : State) (p : BtrPending) : State :=
  if p.op = 0 ∨ p.op = 4 ∨ p.op = 8 then s
  else
    match p.prior with
    | none => { s with branches := mdel s.branches p.index }
    | some b => { s with branches := mput s.branches p.index b }

/-- End the structural command in progress, if there is one. -/
def endBtr (s : State) (status reason : Nat) : State :=
  match s.btr with
  | none => s
  | some p =>
    let s := undoStructural { s with btr := none, mae := { s.mae with request := none } } p
    match p.waybill with
    | none => if p.report then btrResult s status reason else s
    | some (l, id) => completeService s l id status 0 []

/-! ### Mode changes (R189, R204, R517) -/

/-- What leaving Commissioning ends: a LEVEL 2 session (R433) and the held rescue key pair (R247). -/
def leaveCommissioning (s : State) : State :=
  let s := { s with rescueSeed := [] }
  if sessionLevel s = 2 then closeDebug s else s

/-- Change the mode. Leaving Running or Caution with main power seals the open epoch early (R204); entering either from
another mode opens one (R189); entry into Caution ends queued signatures (R343); the Lookout stops where it may not transmit
(R477); a data-line waybill not yet stamped ends with 0x0A where its mode no longer runs (R133,
R178). -/
def changeMode (s : State) (m : Mode) (reason : Nat) : State :=
  let was := sealing s
  let stays := decide (m = .running) || decide (m = .caution)
  let s := if s.mode = .commissioning ∧ m ≠ .commissioning then leaveCommissioning s else s
  let s := if was ∧ !stays then sealNow s 0x02 (decide (m = .condemned)) else s
  let s := if s.mode = .shed ∧ m ≠ .shed ∧ !ready s then raise s 32 else s
  let s := setMode { (selfDue s m) with awaiting := none } m reason
  let s := if m = .caution then
      endQueued { s with vigil := { s.vigil with cautionTtc := s.ttc } } 0x04 (fun d => decide (descOp d = 2))
    else s
  let s := if stays then (if was then noteEpoch s else enterSealing s) else s
  let s := if stays ∨ m = .commissioning then s else endInventory s 0x0A
  if was ∧ !stays then endUnstamped s 0x0A false (fun _ _ => true) else s

/-- A waybill that Caution refuses: TAG_CONSIST, TAG_RECORDS, or MARK on a produce line (R133). -/
def producing (r : Line) (f : Flight) : Bool :=
  !r.verify && (decide (byteAt f.raw 2 = 1) || decide (byteAt f.raw 2 = 2) || decide (byteAt f.raw 2 = 5))

/-- Entry into Caution from Running (R169, R442). -/
def enterCaution (s : State) : State :=
  if s.mode = .running then endUnstamped (changeMode s .caution 3) 0x0A false producing else s

/-- Line-key derivations under way end with 0x06 and fault their lines (R153, R238). -/
def endDerivations (s : State) : State :=
  s.lne.lines.foldl (fun t e =>
    match e.2.flights.find? (fun f => decide (f.phase = .keyWait)) with
    | some f => faultLine t e.1 0x06 (some f.id) false
    | none => t) s

/-- The Trunk is lost: commands and derivations in progress end with 0x06, the device enters Condemned, and ZFULL is applied
behind the early seal, whose Manifest still names the device (R199, R221, R238, R245, R442). -/
def loseTrunk (s : State) : State :=
  let s := endDerivations (endBtr (dropTrunk s) 0x06 1)
  erasePlate (if mainPower s ∧ s.mode ≠ .condemned then changeMode s .condemned 5 else s)

/-! ### Tiers (R504, R506, R169, R174, R178) -/

def tierCapped (s : State) : Bool := (sstGet s 15).getLsbD 1

/-- The tier of a contract. -/
def tierFor (s : State) (mw : Nat) : Nat :=
  if 45000 ≤ mw then (if tierCapped s || s.power.thermal then 1 else 2) else if 27000 ≤ mw then 1 else 0

/-- Waybills queued on tracks that the tier no longer uses move (R169). -/
def leaveTracks (s : State) : State :=
  (List.range 8).foldl (fun t i => if (inUse t).contains i then t else moveAll t i) s

/-- Put a tier in force: event 1, tracks and lanes, the credit account, the inventory, and the open epoch's lowest tier;
consists that waited for credit are stamped where the limit has ended (R172). -/
def setTier (s : State) (t : Nat) : State :=
  if t = s.power.tier then s
  else
    let s := raise { s with power := { s.power with tier := t, tierPending := none }, lne := { s.lne with credit := 0 } } 1
    let s := leaveTracks (enableTracks (enableLanes s))
    let s := if t < 2 then endInventory s 0x0E else s
    stampAll (if sealing s then noteEpoch s else s)

/-- The contract power has fallen below what the mode needs (R517). -/
def powerFloor (s : State) (mw : Nat) : State :=
  match s.mode with
  | .running => if mw < 27000 then changeMode s .shed 6 else s
  | .caution => if mw < 27000 then changeMode s .shed 6 else s
  | .commissioning => if mw < 27000 then changeMode s .shed 6 else s
  | .maintenance => if mw < 15000 then changeMode s .shed 6 else s
  | .condemned => if mw < 15000 then changeMode s .shed 6 else s
  | _ => s

/-! ### Leaving Shed after the boot (R504, R509, R516, R517, R527, R534, R535, R539, R541) -/

def bankOk (s : State) : Bool := decide (18000 ≤ s.power.bankMv)

/-- The TCXO is in use (R33). -/
def tcxoOk (s : State) : Bool := !bitR s Reg.TTC_STATUS 0

/-- Firmware has started: READY, event 32 unless Shed was left before, and STREAK returns to 0. READY waits for K_ctx. -/
def setReady (s : State) : State :=
  if !s.booted ∨ ready s ∨ s.flash.monitor ∨ s.lne.kctx.isEmpty ∨ !s.fusesOk then s
  else
    let s := setFieldR (orR s Reg.HLK_STATUS 1) Reg.DMN_CAUSE 10 3 0
    raiseIf (decide (s.mode = .shed)) { s with lastDeadman := none } 32

/-- The mode that a completed boot leads to; Shed where no row of R517 applies. -/
def bootTarget (s : State) : Mode :=
  let mw := s.power.contractMw
  if s.flash.monitor || s.flash.recoveryImage then (if 15000 ≤ mw then .maintenance else .shed)
  else
    match s.vigil.trunk with
    | .lost => if 15000 ≤ mw then .condemned else .shed
    | .empty => if 27000 ≤ mw ∧ !s.power.bankWeak then .commissioning else .shed
    | .valid =>
      if mw < 15000 then .shed
      else if mw < 27000 || s.power.bankWeak || bitR s Reg.ENT_STATUS 2 then .maintenance
      else if !tcxoOk s then .maintenance
      else if s.vigil.held then .caution
      else if (unfenced s).isEmpty then .maintenance
      else .running

/-- Entry into a mode that waits for the bank and for the entropy source (R509, R539). -/
def mustWait (s : State) (m : Mode) : Bool :=
  (decide (m = .running) || decide (m = .caution) || decide (m = .commissioning)) && (!bankOk s || !bitR s Reg.ENT_STATUS 0)

/-- Leave Shed if the boot is complete and nothing has to be waited for. -/
def leaveShed (s : State) : State :=
  let m := bootTarget s
  if !s.booted ∨ s.mode ≠ .shed ∨ m = .shed ∨ !s.fusesOk then s
  else if mustWait s m then { s with awaiting := some m }
  else changeMode s m 1

/-- A waiting entry is tried again. -/
def retryEntry (s : State) : State := if s.awaiting.isSome then leaveShed s else s

/-! ### The device reset (R22, R23, R108, R423, R426, R440, R448, R525 to R528, R541) -/

/-- Registers that a device reset leaves as they are (PWR_SAGS: log entry 129); the rest take their reset values. -/
def keptRegs (link : Bool) : List (Nat × Word) :=
  [ (Reg.TTC_STATUS, 0x7), (Reg.TTC_SEED, 0xFFFFFFFF), (Reg.TTC_SEED + 4, 0xFFFFFFFF), (Reg.TTC_VIGIL, 0xFFFFFFFF),
    (Reg.TTC_VIGIL + 4, 0xFFFFFFFF), (Reg.PWR_CONTRACT, 0xFFFFFFFF), (Reg.PWR_BANK, 0xFFFFFFFF),
    (Reg.PWR_CELL, 0xFFFFFFFF), (Reg.PWR_SAGS, 0xFFFFFFFF), (Reg.PWR_INPUT, 0xFFFFFFFF),
    (Reg.PWR_LGLAST, 0xFFFFFFFF), (Reg.LSM_TEMP, 0xFFFFFFFF), (Reg.DMN_CAUSE, 0x1F00), (Reg.ILK_STATUS, 0x4),
    (Reg.FLC_LOG_USE, 0x40000), (Reg.HLK_STATUS, if link then 0xC0 else 0) ]

def keepRegs (old new_ : State) (link : Bool) : State :=
  (keptRegs link).foldl (fun t e => setR t e.1 ((getR t e.1 &&& ~~~e.2) ||| (getR old e.1 &&& e.2))) new_

def stageUnsigned (su : SealUnit) : List Unsigned := su.resigned.map (fun x => x.2) ++ su.unsigned

/-- The newest stored record body of a type. -/
def newestBody (s : State) (typ : Byte) : Option Bytes :=
  ((s.log.frames.reverse.find? (fun f => decide (f.typ = typ) && !f.lost))).map (fun f => f.body)

/-- The Seal unit after a reset: what flash keeps, with the tree to be rebuilt from it (R208, R214). -/
def sealAfterReset (s : State) : SealUnit :=
  let m := newestBody s 0x01
  let t := rebuiltLeaves s.su
  { SealUnit.reset with
    rebuilding := true, stored := t, storedRoot := slice (m.getD []) 48 (if m.isSome then 32 else 0),
    window := match m with
      | some b => [{ epoch := manifestEpoch b, header := b.take 128, leaves := t }]
      | none => [],
    prev := match m with
      | some b => sha3_256 (b.take 128)
      | none => [],
    plantPrev := match newestBody s 0x03 with
      | some b => sha3_256 (b.take 128)
      | none => [],
    unsigned := stageUnsigned s.su, ckpts := s.su.ckpts, stagedCkpt := s.su.stagedCkpt, deltas := s.su.deltas,
    ckptFrom := s.su.ckptFrom, basePending := s.su.basePending }

/-- SEAL_LAST as the boot loads it: EPOCH of the newest stored Manifest (R217). -/
def loadSealLast (t : State) : State :=
  match newestBody t 0x01 with
  | some b => setR64 t Reg.SEAL_LAST (BitVec.ofNat 64 (manifestEpoch b))
  | none => t

/-- A Station slot after a reset: its moving part stands at the last snapshot (R269). -/
def stationAfterReset (ttc : DWord) (st : Station) : Station :=
  { st with sId := st.snapId, digest := st.snapDigest, epoch := st.snapEpoch, lastRelay := ttc, relays := [],
            stale := false, moved := false }

/-- BOOTS as the derivation of the seal keys reads it; nothing is delivered of a cell with a mismatch (R24, R426; log entry
159). -/
def bootsRead (s : State) : Word := if privateBad s .boots then freeWord s else s.vigil.boots

/-- HELD as the reset leaves it: a pending Reset or Caution sets it (R448). -/
def heldAfter (s : State) : Bool :=
  if privateBad s .held then bit (freeWord s) 0 else s.vigil.held || s.vigil.pendReset || s.vigil.pendCaution

/-- The vigil domain after a reset: BOOTS counts, and the Fence is seeded anew. -/
def vigilAfterReset (v : Vigil) (boots : Word) (held : Bool) (kvs : Bytes) : Vigil :=
  { v with boots := boots, held := held, new_ := 0, testing := none, testMap := 0,
           armTtc := 0, erasePending := false, lostOnCell := false, fence := fenceSeeds kvs,
           active := v.active &&& BitVec.ofNat 128 (2 ^ 80 - 1), activeDet := v.activeDet.filter (fun e => decide (e.1 < 80)) }

/-- The flash array after a reset: operations in progress finish or are stopped, the code window is unmapped (R298). -/
def flashAfterReset (f : Flash) : Flash :=
  { f with slices := [], cwCache := [], op := none, programming := false, rewritten := none, loadNext := none, running := false,
           monitor := false, recoveryImage := false, measured := [] }

/-- STREAK after a reset (R541). -/
def streakAfter (s : State) (causes : Nat) : Nat :=
  if causes / 4 % 16 ≠ 0 ∧ causes % 4 = 0 ∧ causes / 64 = 0 then
    match s.lastDeadman with
    | some t => if s.ttc.toNat < t.toNat + 600 * second then min 4 (fieldR s Reg.DMN_CAUSE 10 3 + 1) else 1
    | none => 1
  else 0

/-- The state of a card that stays in its slot. -/
def cardAfterReset (c : Card) : Card := { c with unlocked := false, erasing := false, session := none }

/-- A program in progress finishes (R298). -/
def finishProgram (s : State) : State :=
  match s.flash.op with
  | some (.program, d, b, p, buf) => putPage (noteRead s buf 16384) d b p (engineBytes s buf 16384)
  | _ => s

/-- An erase in progress makes its block suspect: event 327 (R298). -/
def suspectErase (old s : State) : State :=
  match old.flash.op with
  | some (.erase, d, b, _, _) => raise (orR (setBlock s d b { blockAt s d b with suspect := true }) Reg.FLC_ERR 0x20) 327
  | _ => s

/-- A wordline stripe cut short is abandoned and its records are written again from staging: event 328 (R298). -/
def recoverStripe (old s : State) : State :=
  if old.flash.programming then raise (orR (rewriteWordline s) Reg.FLC_ERR 0x40) 328 else s

/-- Cells that keep their contents, and their seals, across boots: sealed settings and vigil cells (R22). -/
def persistentCells (s : State) : List Nat := s.badCells.filter (fun c => decide (settingCell 0 ≤ c ∧ c ≤ settingCell 255))

def persistentPrivate (s : State) : List PrivateCell :=
  s.badPrivate.filter (fun c => match c with
    | .trunk | .evidence _ | .count | .boots | .held | .fence _ => true
    | _ => false)

/-- The vigil cells that a reset writes: BOOTS, the pending bits with HELD, and the seeds of the Fence. -/
def rewritten (c : PrivateCell) : Bool :=
  match c with
  | .boots | .held | .fence _ => true
  | _ => false

/-- The reset read a vigil cell that holds a mismatch. -/
def resetFault (s : State) : Bool := privateBad s .boots || privateBad s .held

/-- The Station register after a reset: both of its copies, on dies 1 and 3, may be gone (R269, R567). -/
def stationsAfterReset (s : State) (ttc : DWord) : SMap Station :=
  if s.flash.deadDies.getLsbD 1 && s.flash.deadDies.getLsbD 3 then []
  else s.stations.map (fun e => (e.1, stationAfterReset ttc e.2))

/-- The state as the reset leaves it, before what the reset itself raises. -/
def clearedState (s : State) (causes : Nat) (link : Bool) : State :=
  let boots := bootsRead s + 1
  let held := heldAfter s
  let kvs := volatileKey boots.toNat
  let s := finishProgram s
  let l := logAfterReset s
  { State.reset with
    pending := s.pending, ttc := s.ttc, ports := s.ports, hlk := { HostLink.reset with up := link && s.hlk.up },
    vigil := vigilAfterReset s.vigil boots held kvs, sst := s.sst, sstWear := s.sstWear, image := s.image,
    stations := stationsAfterReset s s.ttc, pairings := s.pairings, su := sealAfterReset s, log := l.log,
    flash := flashAfterReset s.flash, tail := s.tail, cardPresent := s.cardPresent, card := s.card.map cardAfterReset,
    worksPlate := if s.vigil.erasePending then zeros 32 else s.worksPlate, entCtr := s.entCtr, freeCtr := s.freeCtr + b2n (resetFault s),
    badCells := persistentCells s, badPrivate := (persistentPrivate s).filter (fun c => !rewritten c),
    kvs := kvs, fusesOk := s.fusesOk, lastDeadman := if causes / 4 % 16 ≠ 0 then some s.ttc else none,
    power := { s.power with lastGasp := false, deferred := 0, thermal := false, sag := false, tierPending := none,
                            trigger := 0, lgStored := false },
    deadmen := State.reset.deadmen.setIfInBounds 0 { left := 2000, armed := false } }

/-- HLK_STATUS.TIER: the tier of the contract in force at the reset, or of the first one after it while the device boots (R53). -/
def showTier (s : State) (t : Nat) : State := setFieldR s Reg.HLK_STATUS 4 2 t

/-- The device reset. `causes` are DMN_CAUSE bits [7:0]; `link` keeps a trained link (R66, R526). -/
def deviceReset (s : State) (causes : Nat) (link : Bool) : State :=
  let s := if sessionOn s then endSession s else s
  let t := loadSealLast (keepRegs s (clearedState s causes link) link)
  let t := setFieldR (setFieldR t Reg.DMN_CAUSE 0 8 causes) Reg.DMN_CAUSE 10 3 (streakAfter s causes)
  let t := setR t Reg.SYS_MODE (place 8 8 1)
  let t := showTier { t with power := { t.power with tier := tierFor t t.power.contractMw } } (tierFor t t.power.contractMw)
  let t := recoverStripe s (suspectErase s t)
  let t := if resetFault s then sealFault t spineTile else t
  tailDue (raiseIf (!t.fusesOk) t 204)

/-- Reset causes (R525). -/
def causePowerOn : Nat := 1
def causeRequested : Nat := 2
def causeDeadman (n : Nat) : Nat := 2 ^ (2 + n % 4)
def causeLineside : Nat := 64
def causeLastGasp : Nat := 128

def orCauses (a b : BitVec 8) : BitVec 8 := a ||| b

/-- A reset that a last-gasp seal in progress defers (R513). -/
def deferReset (s : State) (causes : Nat) : State :=
  { s with power := { s.power with deferred := s.power.deferred ||| BitVec.ofNat 8 causes } }

/-- A reset that is not requested: nothing is sealed (R525). -/
def abruptReset (s : State) (causes : Nat) : State :=
  if s.power.lastGasp then deferReset s causes else deviceReset s causes false

/-- FLR or DEVICE_RESET: the early seal of R204 first, the link kept (R66, R525). -/
def requestedReset (s : State) : State :=
  if s.power.lastGasp then deferReset s causeRequested
  else deviceReset (if sealing s then sealNow s 0x02 false else s) causeRequested true

/-! ### Loss of main power (R511, R516, R517) -/

/-- What the vigil domain and the flash keep of registers without main power (R13, R431; PWR_LGLAST, PWR_CELL). -/
def vigilRegs : List (Nat × Word) :=
  [ (Reg.PWR_LGLAST, 0xFFFFFFFF), (Reg.PWR_CELL, 0xFFFFFFFF), (Reg.FLC_LOG_USE, 0x40000), (Reg.ILK_STATUS, 0x4) ]

/-- Main power is gone: what volatile storage held is lost; the vigil domain lives on from the cell, if it holds. -/
def powerLost (s : State) : State :=
  let s := finishProgram s
  let l := logAfterReset s
  let t := { State.reset with
    pending := s.pending, ports := s.ports, vigil := { s.vigil with testing := none, testMap := 0, new_ := 0 },
    sst := s.sst, sstWear := s.sstWear, image := s.image,
    stations := stationsAfterReset s 0, pairings := s.pairings, su := sealAfterReset s, log := l.log,
    flash := { flashAfterReset s.flash with programming := s.flash.programming }, tail := s.tail,
    cardPresent := s.cardPresent, card := s.card.map cardAfterReset, worksPlate := s.worksPlate, entCtr := s.entCtr,
    freeCtr := s.freeCtr, mode := .stabled, prevMode := s.mode,
    power := { Power.reset with vbus := false },
    badCells := persistentCells s, badPrivate := persistentPrivate s,
    routes := [], shadows := Vector.replicate 4 [], fusesOk := s.fusesOk }
  tailDue (vigilRegs.foldl (fun t e => setR t e.1 (getR s e.1 &&& e.2)) t)

end Sys2Proof.Machine
end

