-- ==== Sys2Proof/Machine/Export.lean ====
section
/-! DEFINITION. Exports of the log: their turns, their segments, the export mark and the end of the full state, on either host path
(R63, R281 to R284, R288, R300). -/

namespace Sys2Proof.Machine

/-! ### Replies -/

/-- What a service waybill answers: its status, LENGTH and RESULT, and the data it writes, by host address. -/
structure Reply where
  state : State
  status : Nat
  length : Nat
  result : Bytes
  writes : List (DWord × Bytes)
  deriving DecidableEq, Repr

def refuse (s : State) (status : Nat) : Reply := { state := s, status := status, length := 0, result := [], writes := [] }

/-- An answer that writes one output buffer. -/
def output (s : State) (addr : Nat) (b result : Bytes) : Reply :=
  { state := s, status := 0, length := b.length, result := result, writes := [(BitVec.ofNat 64 addr, b)] }

/-! ### Export segments (R281 to R284, R288) -/

/-- The lost-span record that stands for frames `first` to `last` (R280, R281); its LINK follows the LINK delivered before
it (log entry 17). -/
def lostSpan (s : State) (prev : Bytes) (first last : Nat) : Frame :=
  let f : Frame := { typ := 0x2F, frag := 0, more := false, serial := first, ttc := s.ttc, epoch := curEpoch s,
                     body := le 8 first ++ le 8 last, link := [], lost := false }
  { f with link := frameLink prev f }

/-- Frames as an export delivers them: a run of lost frames becomes one lost-span record. Each comes with the serial after
it. -/
def deliverable (s : State) : Nat → Bytes → List Frame → List (Frame × Nat)
  | 0, _, _ => []
  | n + 1, prev, l =>
    match l with
    | [] => []
    | f :: r =>
      if f.lost then
        let run := l.takeWhile (fun g => g.lost)
        let last := ((run.getLast?).map (fun g => g.serial)).getD f.serial
        let d := lostSpan s prev f.serial last
        (d, last + 1) :: deliverable s n d.link (l.drop run.length)
      else (f, f.serial + 1) :: deliverable s n f.link r

/-- As many frames as fit into a number of bytes. -/
def fitFrames : Nat → List (Frame × Nat) → List (Frame × Nat)
  | _, [] => []
  | n, e :: r => if frameSize e.1 ≤ n then e :: fitFrames (n - frameSize e.1) r else []

/-- LINK of the frame before a serial. -/
def linkBefore (s : State) (serial : Nat) : Bytes :=
  if serial ≤ 1 then zeros 16 else ((frameAt s (serial - 1)).map (fun f => f.link)).getD s.log.reclaimed

/-- What one segment holds. -/
structure Segment where
  bytes : Bytes
  next : Nat
  /-- END -/
  isEnd : Bool
  /-- it delivers a lost span -/
  lost : Bool
  deriving DecidableEq, Repr

/-- The segment from `cursor` up to serial `newest`, in at most `max` bytes. -/
def segment (s : State) (cursor newest max : Nat) : Segment :=
  let fs := s.log.frames.filter (fun f => decide (cursor ≤ f.serial ∧ f.serial ≤ newest))
  let prev := linkBefore s cursor
  let l := fitFrames (max - 128) (deliverable s fs.length prev fs)
  let next := ((l.getLast?).map (fun e => e.2)).getD cursor
  let body := l.flatMap (fun e => frameBytes e.1)
  let isEnd := decide (newest < next)
  let head := ascii "XLXS" ++ [0x01, BitVec.ofNat 8 (b2n isEnd + 2 * b2n (logFull s)), 0, 0] ++ le 8 cursor ++ le 8 next ++
    le 4 l.length ++ le 4 body.length ++ identity s ++ prev
  let tail := ((l.getLast?).map (fun e => e.1.link)).getD prev ++ sha3_256 (head ++ body) ++ zeros 16
  let b := head ++ body ++ tail
  { bytes := b ++ zeros ((4096 - b.length % 4096) % 4096), next := next, isEnd := isEnd,
    lost := l.any (fun e => decide (e.1.typ = 0x2F)) }

/-- The cursor of an export; none is LOG_RANGE (R283). A cursor inside a lost span is out of range. -/
def exportCursor (s : State) (cursor : Nat) : Option Nat :=
  if cursor = 0 then some (max s.log.mark (oldestStored s))
  else if cursor < oldestStored s ∨ newestStored s + 1 < cursor then none
  else if ((frameAt s cursor).map (fun f => f.lost)).getD false ∧ ((frameAt s (cursor - 1)).map (fun f => f.lost)).getD false then
    none
  else some cursor

/-- A delivered lost span is reported (R281). -/
def noteLost (s : State) (lost : Bool) : State := if lost then raise (orR s Reg.FLC_ERR 8) 329 else s

/-- The frames of an export are read: what cannot be corrected, and has no staging copy, is lost (R281). -/
def readFrames (s : State) (cursor : Nat) (bad : List Nat) : State :=
  markLost s (bad.filter (fun n => decide (cursor ≤ n) && !s.flash.staged.any (fun e => decide (e.1 = n))))

/-- The answer of a LOG_EXPORT (R283, R284). -/
def exportReply (s : State) (raw : Bytes) (bad : List Nat) : Reply :=
  match exportCursor s (wf64 raw 8) with
  | none => refuse s 0x19
  | some c =>
    let s := readFrames s c bad
    let g := segment s c (newestStored s) (num raw 4 4)
    output (noteLost s g.lost) (wf64 raw 16) g.bytes (le 8 g.next)

/-- The serial that an answered export with ADVANCE raises the mark to; 0 for none. -/
def advanceOf (raw : Bytes) (r : Reply) : Nat := if byteAt raw 3 % 2 = 1 ∧ r.status = 0 then num r.result 0 8 else 0

/-! ### The full state ends (R288) -/

/-- The base checkpoint that the end of the full state appends: the newest staging checkpoint, or one of the newest stored tree
where none came due (log entry 141). -/
def fullBase (s : State) : Option Ckpt :=
  match s.su.stagedCkpt with
  | some c => some c
  | none =>
    (s.log.frames.reverse.find? (fun f => decide (f.typ = 0x01) && !f.lost)).map (fun f =>
      newCkpt s (manifestEpoch f.body) f.serial (f.body.take 128) true)

/-- A full log clears once an advance has lowered its unreclaimable stripes to 469. -/
def clearFull (s : State) : State :=
  if logFull s && decide (lockedStripes s ≤ 469) then
    let s := clearR s Reg.FLC_LOG_USE 0x40000
    let s := match fullBase s with
      | some c => logCheckpoint s c
      | none => s
    raise (appendRecord s 0x26 (fullChange s 2)) 321
  else s

/-- What follows a rise of the mark. -/
def settleMark (s : State) : State :=
  if s.log.raised then startProgram (clearFull { s with log := { s.log with raised := false } }) else s

/-! ### Turns (R282) -/

def isExport (f : Flight) : Bool :=
  (decide (byteAt f.raw 2 = 0x27) || decide (byteAt f.raw 2 = 0x2B)) && !decide (f.phase = .formed)

/-- A RELAY that is still to be carried out. -/
def isRelay (f : Flight) : Bool := decide (byteAt f.raw 2 = 0x28) && !decide (f.phase = .formed)

/-- The turn of an export: no export admitted before it, on a line or by the maintenance path, still waits or is in progress. -/
def exportTurn (s : State) (id : Nat) : Bool :=
  s.lne.lines.all (fun e => !e.2.service || e.2.flights.all (fun f => !(isExport f && decide (f.id < id)))) &&
    s.hlk.usbWait.all (fun e => !decide (e.1 < id))

/-! ### The maintenance path (R63) -/

def usbSay (s : State) (b : Bytes) : State := { s with ports := { s.ports with usbOut := s.ports.usbOut ++ [b] } }

/-- A bulk completion: SEQUENCE 0. `gasp` marks one that the last-gasp seal ends. -/
def usbCompletion (s : State) (w : Bytes) (r : Reply) (gasp : Bool) : State :=
  let c := completionRecord (slice w 0 2) r.status (r.length + gaspFlag gasp) 0 s.ttc.toNat (epochOf s s.ttc.toNat) r.result
  usbSay (r.writes.foldl (fun t e => usbSay t e.2) r.state) c

/-- Carry out an export of the maintenance path. -/
def usbExport (s : State) (w : Bytes) (bad : List Nat) : State :=
  let r := exportReply s w bad
  raiseMark (usbCompletion r.state w r false) (advanceOf w r)

/-- The exports of the maintenance path whose turn has come, in order. -/
def serveUsb : List (Nat × Bytes × List Nat) → State → State
  | [], s => s
  | (id, w, bad) :: r, s =>
    if exportTurn s id then serveUsb r (usbExport { s with hlk := { s.hlk with usbWait := r } } w bad) else s

/-- The first waiting export of the maintenance path has its turn. -/
def usbDue (s : State) : Bool :=
  match s.hlk.usbWait with
  | (id, _) :: _ => exportTurn s id
  | [] => false

end Sys2Proof.Machine
end

