-- ==== Sys2Proof/Machine/Lineside.lean ====
section
/-! DEFINITION. The Lineside monitors: classes, trips, evidence, self-tests and the release of Caution (R438 to R456). -/

namespace Sys2Proof.Machine

/-! ### Sources and classes (R438, R439, R445) -/

/-- The default class of a source. -/
def defaultClass (n : Nat) : Nat :=
  if n < 64 then 3
  else if n < 70 then 1
  else if n = 70 ∨ n = 75 ∨ n = 105 ∨ n = 106 then 0
  else if n < 74 then 1
  else if n < 108 then 2
  else 0

/-- The stored class of a source: settings 10 to 13. -/
def storedClass (s : State) (n : Nat) : Nat := (sstGet s (10 + n / 32)).toNat / 4 ^ (n % 32) % 4

/-- The effective class. -/
def classOf (s : State) (n : Nat) : Nat := if 108 ≤ n then 0 else max (defaultClass n) (storedClass s n)

/-- Sources with two detectors. -/
def duplicated (n : Nat) : Bool := decide (n < 32) || (decide (64 ≤ n) && decide (n < 70)) || decide (n = 76) || decide (n = 77)

/-- Sources watched on cell power. -/
def watchedOnCell (n : Nat) : Bool :=
  decide (n < 64) || decide (n = 69) || decide (n = 74) || (decide (76 ≤ n) && decide (n < 80)) || decide (n = 106)

/-! ### Sticky evidence (R449, R451) -/

def Evidence.none : Evidence := { detectors := 0, count := 0, lastC := 0, trips := [] }

def evidenceOf (s : State) (n : Nat) : Evidence := mget Evidence.none s.vigil.evidence n

def oneSource (n : Nat) : BitVec 128 := 1#128 <<< n

def highestAfter (h : Byte) (cls : Nat) : Byte := if h = 0xFF ∨ h.toNat < cls then BitVec.ofNat 8 cls else h

/-- The evidence of a trip: flag, detectors, count, last-trip count, HIGHEST. -/
def stickyTrip (s : State) (n : Nat) (dets : BitVec 2) (cls : Nat) : State :=
  let e := evidenceOf s n
  let e' := { e with detectors := e.detectors ||| dets, count := if e.count = 255 then 255 else e.count + 1,
                     lastC := s.vigil.count }
  tailDue { s with vigil := { s.vigil with
    sticky := s.vigil.sticky ||| oneSource n, active := s.vigil.active ||| oneSource n,
    activeDet := mput s.vigil.activeDet n (mget 0 s.vigil.activeDet n ||| dets),
    evidence := mset Evidence.none s.vigil.evidence n e', highest := highestAfter s.vigil.highest cls,
    lastC := s.vigil.count, lastSrc := BitVec.ofNat 7 n } }

/-- The Note effects of a trip with main power (R442). -/
def noteTrip (s : State) (n : Nat) (dets : BitVec 2) (cls : Nat) : State :=
  let s := stickyTrip s n dets cls
  let s := { s with vigil := { s.vigil with new_ := s.vigil.new_ ||| oneSource n } }
  alarmRecord (raise s (64 + n)) n cls dets.toNat 0 s.vigil.count s.ttc

/-- 600 s in counts of the vigil clock (R38). -/
def tripWindow : Nat := 600 * 32768

/-- Earlier trips of a source within 600 s, with main power or on the cell (R444; log entry 108). -/
def recentTrips (s : State) (n : Nat) : List (BitVec 48) :=
  (evidenceOf s n).trips.filter (fun t => decide (s.vigil.count.toNat < t.toNat + tripWindow))

/-- A trip of a source of class Reset counts for R444. -/
def noteReset (s : State) (n : Nat) : State :=
  if classOf s n = 1 then
    let e := evidenceOf s n
    { s with vigil := { s.vigil with
      evidence := mset Evidence.none s.vigil.evidence n { e with trips := (s.vigil.count :: recentTrips s n).take 4 } } }
  else s

/-- The class applied to a trip: the fourth Reset trip within 600 s is applied as Caution (R444). -/
def appliedClass (s : State) (n : Nat) : Nat :=
  if classOf s n = 1 ∧ 3 ≤ (recentTrips s n).length then 2 else classOf s n

def setHeld (s : State) : State := tailDue { s with vigil := { s.vigil with held := true } }

/-- What a class asks for beyond the Note effects, with main power (R442, R513). -/
def respondMain (s : State) (cls : Nat) : State :=
  if cls = 1 then
    if s.power.lastGasp then tailDue { s with vigil := { s.vigil with pendReset := true } } else abruptReset s causeLineside
  else if cls = 2 then enterCaution (setHeld s)
  else if cls = 3 then loseTrunk (setHeld s)
  else s

/-- The flag and evidence of a trip on cell power, and the source's alarm record to come (R447, R448). -/
def noteCell (s : State) (n : Nat) (dets : BitVec 2) (cls : Nat) : State :=
  let s := stickyTrip s n dets cls
  { s with vigil := { s.vigil with cellTrips := mput s.vigil.cellTrips n cls } }

/-- What a class asks for on cell power (R447). -/
def respondCell (s : State) (cls : Nat) : State :=
  if cls = 1 then { s with vigil := { s.vigil with pendReset := true } }
  else if cls = 2 then { s with vigil := { s.vigil with pendCaution := true } }
  else if cls = 3 then
    erasePlate (sealPrivate { s with vigil :=
      { s.vigil with held := true, trunk := .lost, trunkKey := zeros 32, lostOnCell := true } } .trunk)
  else s

/-- The detectors of a trip that count: both bits for a single-detector source; a detector under self-test is suppressed
(R439, R449, R453). -/
def tripDetectors (s : State) (n : Nat) (dets : BitVec 2) : BitVec 2 :=
  match s.vigil.testing with
  | some (t, b) =>
    if t.toNat = n then
      if duplicated n then dets &&& (if b then 1 else 2) else 0
    else if duplicated n then dets else 3
  | none => if duplicated n then dets else 3

/-- A detector asserts while its source is asserted already: its own result is noted, and no new trip counts (R439, R450). -/
def joinTrip (s : State) (n : Nat) (dets : BitVec 2) : State :=
  let e := evidenceOf s n
  { s with vigil := { s.vigil with
    activeDet := mput s.vigil.activeDet n (mget 0 s.vigil.activeDet n ||| dets),
    evidence := mset Evidence.none s.vigil.evidence n { e with detectors := e.detectors ||| dets } } }

/-- One source asserts: its flag, its evidence and its count, and the class its trip asks for (0 for none). -/
def noteSource (s : State) (n : Nat) (dets : BitVec 2) : State × Nat :=
  let d := tripDetectors s n dets
  if 108 ≤ n ∨ d = 0 then (s, 0)
  else if s.vigil.active.getLsbD n then (joinTrip s n d, 0)
  else if mainPower s then (noteTrip (noteReset s n) n d (appliedClass s n), appliedClass s n)
  else if watchedOnCell n then (noteCell (noteReset s n) n d (appliedClass s n), appliedClass s n)
  else (s, 0)

/-- Sources that trip in one cycle: every flag is set, and the highest class among them is applied once (R446). -/
def tripAll (s : State) (l : List (Nat × BitVec 2)) : State :=
  if s.mode = .dark then s
  else
    let r := l.foldl (fun a e => ((noteSource a.1 e.1 e.2).1, max a.2 (noteSource a.1 e.1 e.2).2)) (s, 0)
    if mainPower s then respondMain r.1 r.2 else respondCell r.1 r.2

/-- A source trips. -/
def trip (s : State) (n : Nat) (dets : BitVec 2) : State := tripAll s [(n, dets)]

/-- Apply the trips that a step has made due. -/
def applyTrips (s : State) : State :=
  if s.tripsDue.isEmpty then s else tripAll { s with tripsDue := [] } (s.tripsDue.map (fun n => (n, 3)))

/-- Tracks whose fence is due are fenced; with every track fenced, Running and Caution end in Maintenance (R178, R517). -/
def checkTracks (s : State) : State :=
  let s := finishFences s
  if sealing s && (unfenced s).isEmpty then changeMode s .maintenance 8 else s

/-- Rounds of trips and of the tracks' check, until no trip and no fence is due. A source that is asserted makes no second trip
and a fenced track no second fence, so the rounds end by themselves. -/
def afterRounds : Nat → State → State
  | 0, s => { s with tripsDue := [] }
  | n + 1, s =>
    let t := checkTracks (applyTrips s)
    if t.tripsDue.isEmpty && !fenceDue t then t else afterRounds n t

/-- What a step leads to at once: the Lineside trips it made due, the mode that the tracks left allow, exports of the maintenance
path whose turn has come, and what follows a rise of the export mark. -/
def after (s : State) : State :=
  let s := afterRounds 8 s
  settleMark (serveUsb s.hlk.usbWait s)

/-- The outcome of a meaning. -/
def done (s : State) : Out := .next (after s)

/-- A write of all 64 bits of a cell replaces one that holds a seal mismatch (R25). -/
def mend (s : State) (a : Nat) : State :=
  if regBad s a then { s with badCells := s.badCells.filter (fun c => !decide (c = a / 8)) } else s

/-- The outcome of a register write that leads to nothing further where it is served; `whole` for one of all 64 bits. -/
def writeOut (s : State) (m : Master) (a : Nat) (whole : Bool) (f : State → State) : Out :=
  if !mainPower s then .next s
  else if !permits s m .write a then done (failAccess s m .write a)
  else if hostHeld s m a then .next (orR s Reg.HLK_ERR 4)
  else if regBad s a && !whole then done (failSeal s .write a)
  else .next (f (mend s a))

/-! ### Rows: trips -/

/-- LINESIDE_TRIP (R442). -/
def execLinesideTrip (src : BitVec 7) (det : BitVec 2) (s : State) : Out := done (trip s src.toNat det)

/-- DETECTOR_SPLIT (R438): source 106. -/
def execDetectorSplit (src : BitVec 7) (s : State) : Out :=
  done (if duplicated src.toNat then trip s 106 3 else s)

/-- SOURCE_DEASSERT (R450). -/
def execSourceDeassert (src : BitVec 7) (s : State) : Out :=
  .next { s with vigil := { s.vigil with active := s.vigil.active &&& ~~~(oneSource src.toNat),
                                         activeDet := mdel s.vigil.activeDet src.toNat } }

/-! ### Clearing sticky flags (R450) -/

def lsmErr (s : State) (b : Nat) : State := orR s Reg.LSM_ERR (place b 1 1)

/-- The sources of a 32-bit register of flags. -/
def flagsOf (n : Nat) (ones : Word) : BitVec 128 := ones.setWidth 128 <<< (32 * n)

/-- Clear one source: its count and detectors too; one still asserted is set again with count 1. -/
def clearSource (s : State) (n : Nat) : State :=
  let e := evidenceOf s n
  let still := s.vigil.active.getLsbD n
  let e' := if still then { e with count := 1, detectors := mget 0 s.vigil.activeDet n } else { e with count := 0, detectors := 0 }
  { s with vigil := { s.vigil with
    sticky := if still then s.vigil.sticky else s.vigil.sticky &&& ~~~(oneSource n),
    evidence := mset Evidence.none s.vigil.evidence n e' } }

def clearSticky (s : State) (n : Nat) (ones : Word) : State :=
  if s.mode ≠ .commissioning then lsmErr s 1
  else
    let flags := s.vigil.sticky &&& flagsOf n ones
    if flags = 0 then s
    else
      let l := (List.range 128).filter (fun i => flags.getLsbD i)
      let s := l.foldl clearSource s
      let s := { s with vigil := { s.vigil with
        clearedC := s.vigil.count, highest := if s.vigil.sticky = 0 then 0xFF else s.vigil.highest } }
      let s := appendRecord s 0x32 (le 16 flags.toNat ++ le 8 s.ttc.toNat ++ [BitVec.ofNat 8 (sessionLevel s)] ++ zeros 7)
      tailDue (raise s 174)

/-- STICKY_CLEAR (R450). -/
def execStickyClear (m : Master) (n : BitVec 2) (ones : Word) (s : State) : Out :=
  done (guardedWrite s m (Reg.LSM_STICKY n.toNat) (fun s => clearSticky s n.toNat ones))

/-! ### Raising classes (R445) -/

/-- One field of a class write: raised, left, or an attempt to lower it. -/
def raiseClass (s : State) (src new_ : Nat) (set : Nat) : State × Nat :=
  let old := classOf s src
  if 108 ≤ src ∨ new_ = old then (s, set)
  else if new_ < old then (lsmErr s 0, set)
  else
    let s := appendRecord s 0x33 ([BitVec.ofNat 8 src, BitVec.ofNat 8 old, BitVec.ofNat 8 new_] ++ zeros 5 ++
      le 8 s.ttc.toNat ++ zeros 8)
    (raise s 175, set - set / 4 ^ (src % 32) % 4 * 4 ^ (src % 32) + new_ * 4 ^ (src % 32))

/-- A write of one half of LSM_CLASS n. -/
def writeClass (s : State) (n : Nat) (hi : Bool) (v : Word) : State :=
  if s.mode ≠ .running ∧ s.mode ≠ .commissioning then lsmErr s 1
  else if 100000 ≤ sstCount s (10 + n) then orR s Reg.SST_ERR 1
  else
    let base := if hi then 16 else 0
    let old := (sstGet s (10 + n)).toNat
    let r := (List.range 16).foldl (fun a k => raiseClass a.1 (32 * n + base + k) (bitsOf v (2 * k) 2) a.2) (s, old)
    if r.2 = old then r.1 else sstStore r.1 (10 + n) (BitVec.ofNat 64 r.2)

/-- CLASS_WRITE (R445). -/
def execClassWrite (m : Master) (n : BitVec 2) (hi : Bool) (v : Word) (s : State) : Out :=
  done (guardedWrite s m (Reg.LSM_CLASS n.toNat + if hi then 4 else 0) (fun s => writeClass s n.toNat hi v))

/-! ### Self-test (R453, R454) -/

/-- The writable part of LSM_TEST: SOURCE keeps its value where a reserved one is written. -/
def testFields (s : State) (src : Nat) (det : Bool) : Word :=
  place 0 7 (if src ≤ 100 then src else fieldR s Reg.LSM_TEST 0 7) ||| place 7 1 (b2n det)

def testMode (s : State) : Bool := decide (s.mode = .running) || decide (s.mode = .commissioning) || decide (s.mode = .maintenance)

def startTest (s : State) (src : Nat) (det : Bool) : State :=
  let f := testFields s src det
  if !testMode s then lsmErr s 1
  else if s.vigil.testing.isSome then lsmErr s 2
  else
    setR { s with vigil := { s.vigil with testing := some (BitVec.ofNat 7 (bitsOf f 0 7), det) } } Reg.LSM_TEST (f ||| 0x200)

/-- LSM_TEST_START (R453). -/
def execLsmTestStart (m : Master) (src : BitVec 7) (det : Bool) (s : State) : Out :=
  done (guardedWrite s m Reg.LSM_TEST (fun s => startTest s src.toNat det))

/-- LSM_TEST_DONE (R453, R454): RESULT is latched; a failed test trips source 107. -/
def execLsmTestDone (tripped : Bool) (s : State) : Out :=
  match s.vigil.testing with
  | none => .next s
  | some _ =>
    let s := setFieldR { s with vigil := { s.vigil with testing := none } } Reg.LSM_TEST 9 3 (if tripped then 2 else 4)
    done (if tripped then s else trip s 107 3)

/-! ### Releasing Caution (R455, R456) -/

def releaseState (s : State) : Nat := fieldR s Reg.LSM_RELEASE 0 3

/-- A credential check reports to LSM_RELEASE: STATE becomes 2 after one result and 3 after both. -/
def windowOpen (s : State) : Bool :=
  decide (1 ≤ releaseState s ∧ releaseState s ≤ 3) && decide (s.ttc.toNat < s.vigil.armTtc.toNat + 120 * second)

def presentResult (s : State) (badge ok : Bool) (person : Byte) : State :=
  if !windowOpen s then s
  else
    let s := setFieldR s Reg.LSM_RELEASE (if badge then 6 else 4) 2 (if ok then 1 else 2)
    let s := setFieldR s Reg.LSM_RELEASE (if badge then 16 else 8) 8 person.toNat
    let both := decide (fieldR s Reg.LSM_RELEASE 4 2 ≠ 0 ∧ fieldR s Reg.LSM_RELEASE 6 2 ≠ 0)
    setFieldR s Reg.LSM_RELEASE 0 3 (if both then 3 else 2)

def setReason (s : State) (r : Nat) : State := setFieldR s Reg.LSM_RELEASE 28 3 r

def armRelease (s : State) (m : Master) : State :=
  if m ≠ 4 then setReason s 7
  else if s.mode ≠ .caution then s
  else
    setR { s with vigil := { s.vigil with armTtc := s.ttc } } Reg.LSM_RELEASE
      ((getR s Reg.LSM_RELEASE &&& 0x70000000) ||| 1)

/-- RELEASE_ARM (R455). -/
def execReleaseArm (m : Master) (s : State) : Out := done (guardedWrite s m Reg.LSM_RELEASE (fun s => armRelease s m))

/-- A source of class Caution or Zeroise is asserted. -/
def alarmAsserted (s : State) : Bool :=
  (List.range 108).any (fun n => s.vigil.active.getLsbD n && decide (2 ≤ classOf s n))

/-- The first row of R456 that fails; 0 when none does. -/
def commitReason (s : State) : Nat :=
  let cp := fieldR s Reg.LSM_RELEASE 8 8
  let bp := fieldR s Reg.LSM_RELEASE 16 8
  if s.mode ≠ .caution then 1
  else if !windowOpen s then 2
  else if fieldR s Reg.LSM_RELEASE 4 2 ≠ 1 then 3
  else if fieldR s Reg.LSM_RELEASE 6 2 ≠ 1 then 4
  else if cp = 0 ∨ bp = 0 ∨ cp = bp then 5
  else if alarmAsserted s then 6
  else 0

/-- The release record (R452). -/
def releaseRecord (s : State) : Bytes :=
  le 8 s.vigil.cautionTtc.toNat ++ le 8 s.ttc.toNat ++
    [BitVec.ofNat 8 (fieldR s Reg.LSM_RELEASE 8 8), BitVec.ofNat 8 (fieldR s Reg.LSM_RELEASE 16 8)] ++ zeros 6 ++
    le 16 s.vigil.sticky.toNat ++ zeros 8

/-- Caution is released: HELD clears, the record, event 172, Running, and the unsigned backlog is signed (R206, R456). -/
def acceptRelease (s : State) : State :=
  let s := setFieldR { s with vigil := { s.vigil with held := false } } Reg.LSM_RELEASE 0 3 4
  let s := raise (appendRecord s 0x31 (releaseRecord s)) 172
  signBacklog (tailDue (changeMode s .running 4))

def commitRelease (s : State) (m : Master) : State :=
  if m ≠ 4 then setReason s 7
  else
    let r := commitReason s
    if r = 0 then acceptRelease s else raise (setFieldR (setReason s r) Reg.LSM_RELEASE 0 3 0) 173

/-- RELEASE_COMMIT (R456). -/
def execReleaseCommit (m : Master) (s : State) : Out := done (guardedWrite s m Reg.LSM_RELEASE (fun s => commitRelease s m))

/-- RELEASE_ABORT (R456). -/
def execReleaseAbort (m : Master) (s : State) : Out :=
  done (guardedWrite s m Reg.LSM_RELEASE (fun s => setFieldR s Reg.LSM_RELEASE 0 3 0))

/-- RELEASE_WINDOW_EXPIRY (R456): the end of the 120 s window, after a release too. -/
def execReleaseWindowExpiry (s : State) : Out :=
  .next (if 1 ≤ releaseState s ∧ s.vigil.armTtc.toNat + 120 * second ≤ s.ttc.toNat then
    setFieldR s Reg.LSM_RELEASE 0 3 0 else s)

end Sys2Proof.Machine
end

