-- ==== Sys2Proof/Machine/LineRows.lean ====
section
/-! DEFINITION. Doorbells, the Hump's admission, fills and spills, and the LINE_* waybills (R56, R57, R71 to R105, R117 to
R119, R128 to R133, R143, R167, R537, R576). -/

namespace Sys2Proof.Machine

/-! ### Doorbells (R56, R57, R83 to R85) -/

/-- A dropped doorbell (R57). -/
def dropDoorbell (s : State) (bits : Word) : State := raiseLimited (orR s Reg.HLK_ERR bits) 19

/-- The reason of R84 for rejecting an index; 0 accepts it. -/
def doorbellReason (r : Line) (ring : Bool) (i : Nat) : Nat :=
  let n := 2 ^ (if ring then r.dnLog2 else r.upLog2)
  if r.state = .closed then 1
  else if 2 * n ≤ i then 2
  else if ring then
    (if ringCount r.dnLog2 r.dnHead i ≤ ringCount r.dnLog2 r.dnHead r.dnTail then 0 else 4)
  else
    (if ringCount r.upLog2 r.upHead r.upTail ≤ ringCount r.upLog2 r.upHead i ∧ ringCount r.upLog2 r.upHead i ≤ n then 0
     else 3)

/-- A rejected doorbell (R85). -/
def rejectDoorbell (s : State) (l : Nat) (ring : Bool) (reason : Nat) : State :=
  raiseLimited (setR s Reg.LNE_DBERR (place 0 19 l ||| place 19 1 (b2n ring) ||| 0x100000 ||| place 21 3 reason)) 25

/-- A doorbell that is well formed (R84). One that finds a seal mismatch in the line record changes nothing (log entry 133). -/
def takeDoorbell (s : State) (l : Nat) (ring : Bool) (i : Nat) : State :=
  let r := getLine s l
  let reason := doorbellReason r ring i
  if recordBad s l then sealFault s spineTile
  else if reason ≠ 0 then rejectDoorbell s l ring reason
  else if ring then setLine s l { r with dnHead := i }
  else setLine s l { r with upTail := i, ready := r.ready || decide (upCount { r with upTail := i } ≠ 0) }

def doorbellIndex (v : DWord) : Nat := v.toNat % 2 ^ 32
def doorbellLine (v : DWord) : Nat := v.toNat / 2 ^ 32 % 2 ^ 19
def doorbellRing (v : DWord) : Bool := v.getLsbD 51

/-- A write to Window B that breaks R57. -/
def malformed (off : Nat) (whole : Bool) (v : DWord) : Bool := decide (off ≠ 0) || !whole || decide (2 ^ 52 ≤ v.toNat)

def doorbellWrite (s : State) (off : Nat) (whole : Bool) (v : DWord) : State :=
  if !mainPower s then s
  else if malformed off whole v then dropDoorbell s 1
  else if !ready s || lastGasp s then dropDoorbell s 2
  else takeDoorbell s (doorbellLine v) (doorbellRing v) (doorbellIndex v)

/-- DOORBELL (R84). -/
def execDoorbell (off : BitVec 12) (whole : Bool) (v : DWord) (s : State) : Out := .next (doorbellWrite s off.toNat whole v)

/-! ### Checks at admission (R117, R119, R130 to R133, R167, R537) -/

/-- An opcode, and for VERIFY_SIG its algorithm, is accepted on the line (R71, R72, R117, R131). -/
def opcodeOk (l : Nat) (r : Line) (raw : Bytes) : Bool :=
  let op := byteAt raw 2
  let alg := byteAt raw 4 % 16
  if l = 0 then decide (0x10 ≤ op ∧ op ≤ 0x12)
  else if r.service then
    (decide (0x20 ≤ op ∧ op ≤ 0x2C) || decide (op = 0x30)) &&
      !(decide (op = 0x21) && (decide (6 < alg) || (decide (alg = 4) && decide (byteAt raw 3 % 2 = 1))))
  else if r.verify then decide (3 ≤ op ∧ op ≤ 6)
  else decide (op = 1 ∨ op = 2 ∨ op = 5 ∨ op = 6)

/-- The modes of R133, as bits: 1 Running, 2 Caution, 4 Commissioning, 8 Maintenance, 16 Condemned. -/
def modeBit (m : Mode) : Nat :=
  match m with
  | .running => 1
  | .caution => 2
  | .commissioning => 4
  | .maintenance => 8
  | .condemned => 16
  | _ => 0

def modeMask (op : Nat) (verify dataOpen : Bool) : Nat :=
  match op with
  | 0x01 => 1
  | 0x02 => 1
  | 0x03 => 3
  | 0x04 => 3
  | 0x05 => if verify then 3 else 1
  | 0x06 => 3
  | 0x10 => if dataOpen then 3 else 31
  | 0x11 => 31
  | 0x12 => 31
  | 0x20 => 5
  | 0x22 => 5
  | 0x23 => 5
  | 0x24 => 5
  | 0x29 => 29
  | 0x21 => 23
  | 0x25 => 3
  | 0x28 => 3
  | 0x26 => 31
  | 0x27 => 31
  | 0x2A => 7
  | 0x2C => 7
  | 0x2B => 19
  | 0x30 => 8
  | _ => 0

/-- A LINE_OPEN opens, or resumes, a data line. -/
def opensData (s : State) (raw : Bytes) : Bool :=
  let r := getLine s (woTarget raw)
  if r.state = .closed then !woService raw else !r.service

def modeOk (s : State) (r : Line) (raw : Bytes) : Bool :=
  let op := byteAt raw 2
  decide (modeMask op r.verify (opensData s raw) / modeBit s.mode % 2 = 1) && decide (modeBit s.mode ≠ 0)

/-- The prehashed input length of an algorithm (R131). -/
def prehashLen (alg : Nat) : Nat := if alg = 0 ∨ alg = 3 then 64 else if alg = 2 then 48 else 32

/-- A count or length in its stated range (R114, R119, R130, R167, R537). -/
def lengthsOk (raw : Bytes) : Bool :=
  let pre := decide (byteAt raw 3 % 2 = 1)
  let n := num raw 4 4 % 8192
  let fits (o len : Nat) := decide (wf64 raw o + len ≤ 2 ^ 64)
  match byteAt raw 2 with
  | 0x01 => decide (1 ≤ n ∧ n ≤ 4096) && fits 8 (16 * n)
  | 0x02 => decide (1 ≤ n ∧ n ≤ 4096) && fits 8 (16 * n) && fits 24 (16 * n)
  | 0x03 => decide (1 ≤ n ∧ n ≤ 4096) && fits 8 (16 * n)
  | 0x04 => decide (1 ≤ n ∧ n ≤ 4096) && fits 8 (16 * n) && fits 24 (16 * n + 32)
  | 0x20 => if pre then decide (wf64 raw 16 = 64) else decide (1 ≤ wf64 raw 16 ∧ wf64 raw 16 ≤ 1048576)
  | 0x21 => if pre then decide (wf64 raw 16 = prehashLen (byteAt raw 4 % 16)) else decide (wf64 raw 16 ≤ 1048576)
  | 0x25 => decide (wf64 raw 24 ≤ 4096)
  | 0x26 => decide (1 ≤ num raw 4 4 ∧ num raw 4 4 ≤ 1024)
  | 0x27 => decide (num raw 4 4 % 4096 = 0 ∧ 4096 ≤ num raw 4 4 ∧ num raw 4 4 ≤ 16773120)
  | 0x29 => decide (wf64 raw 24 ≤ 8192)
  | 0x2B => decide (1 ≤ num raw 4 4 ∧ num raw 4 4 ≤ 65536)
  | 0x2C => decide (byteAt raw 4 ≠ 0 ∧ num raw 6 2 ≠ 0)
  | 0x30 => decide (num raw 4 4 % 4096 = 0 ∧ 4096 ≤ num raw 4 4 ∧ num raw 4 4 ≤ 1048576) &&
      decide (wf64 raw 8 + num raw 4 4 ≤ 67108864)
  | _ => true

/-- Every address meets its stated alignment (R121, R130, R536). `usb`: the chunk of an IMAGE_LOAD follows on bulk OUT. -/
def alignOk (raw : Bytes) (usb : Bool) : Bool :=
  let al (o k : Nat) := decide (wf64 raw o % k = 0)
  match byteAt raw 2 with
  | 0x01 => al 8 16
  | 0x02 => al 8 16 && al 24 16
  | 0x03 => al 8 16
  | 0x04 => al 8 16 && al 24 16 && al 40 8
  | 0x20 => al 8 8 && al 24 8
  | 0x21 => al 8 8 && al 24 8
  | 0x22 => al 8 8 && al 16 8
  | 0x23 => al 8 8
  | 0x24 => al 8 8
  | 0x25 => al 16 8
  | 0x26 => al 16 8
  | 0x27 => al 16 4096
  | 0x28 => al 8 8
  | 0x29 => al 16 8
  | 0x2C => al 8 8
  | 0x30 => usb || al 16 4096
  | _ => true

/-- The status of the first failing check of R119, items 1 to 5; 0 when none fails. -/
def admissionStatus (s : State) (l : Nat) (r : Line) (raw : Bytes) : Nat :=
  if !opcodeOk l r raw then 0x03
  else if !modeOk s r raw then 0x0A
  else if byteAt raw 2 = 0x2C ∧ s.power.tier < 2 then 0x0E
  else if l = 0 then 0
  else if !lengthsOk raw then 0x02
  else if !alignOk raw false then 0x04
  else 0

/-! ### The Hump's choice (R97, R99) -/

/-- Conditions 1 to 4 of R97, with no last-gasp seal. -/
def admissible (s : State) (r : Line) : Bool :=
  (decide (r.state = .opened) || (decide (r.state = .paused) && r.halt) || decide (r.state = .faulted)) &&
    decide (upCount r ≠ 0) && decide (r.flights.length < 8) && decide (inFlight s < 512) &&
    decide (dnCount r + r.flights.length < 2 ^ r.dnLog2) && decide (r.retryAt.toNat ≤ s.ttc.toNat) &&
    !s.power.lastGasp && mainPower s

/-- The Hump would admit the line's next waybill, its context aside: the host link is up too (R64). -/
def wantsAdmission (s : State) (r : Line) : Bool := admissible s r && s.hlk.up

/-- All five conditions. -/
def eligible (s : State) (l : Nat) (r : Line) : Bool :=
  wantsAdmission s r && (decide (r.state ≠ .opened) || decide (l = 0) || resident s l)

/-- Eligible lines of a class, in line-number order. -/
def eligibleIn (s : State) (c : Nat) : List Nat :=
  (s.lne.lines.filter (fun e => eligible s e.1 e.2 && decide ((if e.1 = 0 then 0 else e.2.cls.toNat) = c))).map (fun e => e.1)

/-- Round-robin within a class, from the line after the last one granted. -/
def nextLine (l : List Nat) (last : Nat) : Option Nat :=
  match l.find? (fun i => decide (last < i)) with
  | some i => some i
  | none => l.head?

def classWeight (s : State) (c : Nat) : Nat := fieldR s Reg.LNE_WEIGHTS (4 * c) 4

/-- The class, its admissions so far in the round, and the line that the rotation serves next. -/
def humpPick (s : State) : Nat → Nat → Nat → Option (Nat × Nat × Nat)
  | 0, _, _ => none
  | n + 1, c, used =>
    if used < classWeight s c then
      match nextLine (eligibleIn s c) (s.lne.humpLast.getD c 0) with
      | some l => some (c, used, l)
      | none => humpPick s n ((c + 1) % 4) 0
    else humpPick s n ((c + 1) % 4) 0

def humpNext (s : State) : Option (Nat × Nat × Nat) := humpPick s 6 s.lne.humpClass s.lne.humpUsed

/-- Note a grant of the rotation. -/
def humpGrant (s : State) (c used l : Nat) : State :=
  { s with lne := { s.lne with humpClass := c, humpUsed := used + 1, humpLast := s.lne.humpLast.set c l } }

/-! ### Admission (R98, R143, R152) -/

/-- Highest counts since the last read (LNE_INFLIGHT.PEAK, MSH_QUEUE.PEAK). -/
def notePeaks (s : State) : State :=
  let s := if fieldR s Reg.LNE_INFLIGHT 16 10 < inFlight s then setFieldR s Reg.LNE_INFLIGHT 16 10 (inFlight s) else s
  if fieldR s Reg.MSH_QUEUE 16 10 < queuedOnTracks s then setFieldR s Reg.MSH_QUEUE 16 10 (queuedOnTracks s) else s

/-- A waybill as it enters flight. -/
def newFlight (s : State) (raw : Bytes) (phase : Phase) : Flight :=
  { id := s.lne.nextId, raw := raw, phase := phase, track := 0, stamp := 0, records := [], place := none,
    assigned := false, key := [], status := 0,
    decided := 0, gasp := false, completion := [], admitTtc := s.ttc, waitFor := 0, order := s.lne.nextId, advance := 0 }

/-- The Up head passes the entry; a change of the index-table entry pends (R88). -/
def passEntry (s : State) (l : Nat) : State :=
  modLine { s with lne := { s.lne with nextId := s.lne.nextId + 1 } } l (fun r =>
    let r := { r with upHead := bump r.upLog2 r.upHead, retryAt := 0 }
    { r with ready := decide (upCount r ≠ 0), mirror := r.mirror || mirrorOn s })

/-- A waybill enters flight, and the highest counts take it in. -/
def putFlight (s : State) (l : Nat) (f : Flight) : State :=
  notePeaks (modLine s l (fun r => { r with flights := r.flights ++ [f] }))

/-- A data-line waybill that passed its checks: its track and its key. -/
def admitData (s : State) (l : Nat) (f : Flight) : State :=
  match assignTrack s l with
  | none => settle (endFlight (putFlight s l f) l f.id 0x0A false) l
  | some t => keyLookup (putFlight s l { f with track := BitVec.ofNat 3 t, assigned := true }) l f.id

/-- A waybill of a data line, with the status of its admission checks. -/
def enterData (s : State) (l : Nat) (f : Flight) (st : Nat) : State :=
  stampAll (if st = 0 then admitData s l f else settle (endFlight (putFlight s l f) l f.id st false) l)

/-- A LINE_* waybill that fails a check at admission waits for the earlier ones that name its target (R75). -/
def refuseControl (s : State) (f : Flight) (st : Nat) : State :=
  let f := { f with phase := .ended, status := BitVec.ofNat 8 st }
  let s := putFlight s 0 f
  if firstOn s f then completeEnded [f] s else s

/-- A waybill of a service line or of line 0. -/
def enterService (s : State) (l : Nat) (f : Flight) (st : Nat) : State :=
  if st = 0 then putFlight s l f
  else if l = 0 ∧ st ≠ 0x03 then refuseControl s f st
  else completeService (putFlight s l f) l f.id st 0 []

/-- Admit the waybill `raw` of line `l`. -/
def admitEntry (s : State) (l : Nat) (raw : Bytes) : State :=
  let r := getLine s l
  let f := newFlight s raw (if r.service then .service else .ready)
  let st := admissionStatus s l r raw
  let s := passEntry s l
  if r.state = .faulted then completeAtOnce (putFlight s l f) l f.id 0x08
  else if r.state = .paused then completeAtOnce (putFlight s l f) l f.id 0x0C
  else if r.service then enterService s l f st
  else enterData s l f st

/-- An admission by the Hump's rotation; a line without its context starts a fill instead (R97, R99). -/
def humpAdmit (s : State) (l : Nat) (entry : Bytes) : State :=
  let r := getLine s l
  if eligible s l r then
    match humpNext s with
    | some (c, used, n) =>
      if n ≠ l then s
      else if recordBad s l then sealFault s spineTile
      else admitEntry (humpGrant s c used l) l (slice entry 0 64)
    | none => s
  else if wantsAdmission s r then wantContext s l
  else s

/-- ADMISSION (R98). -/
def execAdmission (line : BitVec 19) (entry : Bytes) (s : State) : Out := done (humpAdmit s line.toNat entry)

/-- ENTRY_READ_RETRY (R97): the Hump reads the entry again no sooner than 1 ms after the failed read. -/
def execEntryReadRetry (line : BitVec 19) (entry : Bytes) (s : State) : Out :=
  done (if (getLine s line.toNat).retryAt = 0 then s else humpAdmit s line.toNat entry)

/-! ### Fills and spills (R91 to R95, R105) -/

/-- Lines that wait only for their context start their fills, as far as slots allow. -/
def startFills (s : State) : State :=
  s.lne.lines.foldl (fun t e =>
    if (wantsAdmission t e.2 && decide (e.2.state = .opened) && decide (e.1 ≠ 0)) ||
        (opsOn t e.1).any (fun f => decide (f.phase = .parked)) && decide (e.2.state ≠ .closed) && !e.2.lost then
      wantContext t e.1
    else t) s

/-- A fill or a spill is over: the room that it leaves is taken (R94). -/
def afterTransfer (s : State) : State := recheckOpens (startFills s)

/-- A fill returns. -/
def fillReturns (s : State) (l : Nat) (b : Bytes) : State :=
  if slot? s l ≠ some .filling then s
  else if fillOk s l b then afterTransfer (retryControl (acceptFill s l b) l)
  else afterTransfer (failControl (faultLine s l 0x09 none true) l 0x09)

/-- FILL_COMPLETE (R92). -/
def execFillComplete (line : BitVec 19) (b : Bytes) (s : State) : Out := done (fillReturns s line.toNat b)

/-- The oldest spill of a dropped context has left the device: its slot is free. -/
def spillGone (s : State) (l : Nat) : State :=
  { s with lne := { s.lne with leaving := s.lne.leaving.eraseP (fun e => decide (e.1 = l)) } }

/-- A spill's data has left the device; one of a context since dropped leaves first. -/
def spillLeaves (s : State) (l : Nat) : State :=
  if s.lne.leaving.any (fun e => decide (e.1 = l)) then afterTransfer (spillGone s l)
  else
    match slot? s l with
    | some .spilling => afterTransfer (dropSlot s l)
    | some (.live c true) =>
      afterTransfer { s with lne := { s.lne with cache := s.lne.cache.map (fun e => if e.1 = l then (l, .live c false) else e) } }
    | _ => s

/-- SPILL_DEPARTED (R94). -/
def execSpillDeparted (line : BitVec 19) (s : State) : Out := done (spillLeaves s line.toNat)

/-- INDEX_MIRROR_WRITE (R88); nothing of a record that holds a seal mismatch is written (R24, R86). -/
def execIndexMirrorWrite (line : BitVec 19) (s : State) : Out :=
  if !(getLine s line.toNat).mirror || !s.hlk.up then .next s
  else if recordBad s line.toNat then done (sealFault s spineTile)
  else .next (writeMirror s line.toNat)

/-! ### LINE_* waybills (R75 to R78) -/

/-- The waybill at a position of its line, if it has that opcode and is in firmware's or the Hump's hands. -/
def flightAt (s : State) (l pos op : Nat) : Option Flight :=
  match (getLine s l).flights[pos]? with
  | some f => if byteAt f.raw 2 = op ∧ f.phase = .service ∧ mainPower s then some f else none
  | none => none

/-- LINE_OPEN (R576). -/
def execLineOpen (pos : Nat) (head : Bytes) (s : State) : Out :=
  match flightAt s 0 pos 0x10 with
  | some f => done (if firstOn s f then tryOpen (updFlight s 0 f.id (fun g => { g with records := slice head 0 32 })) f.id f.raw head else s)
  | none => .next s

/-- LINE_PAUSE (R75). -/
def execLinePause (pos : Nat) (s : State) : Out :=
  match flightAt s 0 pos 0x11 with
  | some f => done (if firstOn s f then tryPause s f.id f.raw else s)
  | none => .next s

/-- The LINE_PAUSE that waits for a line. -/
def pauseOn (s : State) (l : Nat) : Option Flight :=
  (opsOn s l).find? (fun f => decide (byteAt f.raw 2 = 0x11 ∧ f.phase = .parked))

/-- LINE_PAUSE_COMPLETE (R75): the last admitted waybill of the target line has completed. -/
def execLinePauseComplete (target : BitVec 19) (s : State) : Out :=
  let l := target.toNat
  let r := getLine s l
  match pauseOn s l with
  | none => .next s
  | some f =>
    done (if r.flights.isEmpty then
      completeControl (setLine s l { r with pausing := false }) f.id (if r.state = .faulted then 0x08 else 0) 0 []
    else s)

/-- LINE_CLOSE (R78). -/
def execLineClose (pos : Nat) (s : State) : Out :=
  match flightAt s 0 pos 0x12 with
  | some f => done (if firstOn s f then tryClose s f.id f.raw else s)
  | none => .next s

end Sys2Proof.Machine
end

