-- ==== Sys2Proof/Machine/HostLink.lean ====
section
/-! DEFINITION. The host link: training and loss, session end, the set-up page, Window C, MSI-X masks, and the USB 2.0
status request (R45 to R60, R63 to R66, R107, R570, R571). -/

namespace Sys2Proof.Machine

/-! ### Training and loss (R45, R59, R64, R65, R571) -/

/-- Held completions are written in their original order; a vector that one triggers pends until all are written (R65,
R571). -/
def releaseHeld (s : State) : State :=
  s.hlk.held.foldl (fun t h => match flight? t h.line h.id with
    | some f => writeCompletion t h.line f
    | none => t) { s with hlk := { s.hlk with held := [] } }

/-- One message for each unmasked vector whose pending bit is set, in ascending order (R571). -/
def sendPending (s : State) : State :=
  let due := s.hlk.pend &&& ~~~s.hlk.mask
  { s with hlk := { s.hlk with pend := s.hlk.pend &&& s.hlk.mask },
           ports := { s.ports with hostOut := s.ports.hostOut ++
             ((List.range 2048).filter (fun v => due.getLsbD v)).map (fun v => HostWrite.msix (BitVec.ofNat 11 v)) } }

/-- The link trains: event 16, held completions, then the messages of all that pends, in ascending order. -/
def trainLink (s : State) (cfg : BitVec 2) : State :=
  let s := releaseHeld (raise (setFieldR s Reg.HLK_STATUS 6 2 cfg.toNat) 16)
  sendPending { s with hlk := { s.hlk with up := true, grace := false } }

/-- The USB4 link may be trained: main power, a contract of 27 W or more (R504), and K_dev's fuses whole (R428). -/
def linkAllowed (s : State) : Bool := mainPower s && s.fusesOk && decide (27000 ≤ s.power.contractMw)

/-- LINK_UP (R65). -/
def execLinkUp (cfg : BitVec 2) (s : State) : Out := done (if s.hlk.up || !linkAllowed s then s else trainLink s cfg)

/-- The link is lost (R64). HLK_STATUS.LINK keeps the last configuration (DESIGN CHOICE, log entry 167). -/
def loseLink (s : State) : State :=
  if s.hlk.up then
    raise (orR { s with hlk := { s.hlk with up := false, grace := sessionOn s } } Reg.HLK_ERR 0x100) 17
  else s

/-- LINK_LOSS (R64). -/
def execLinkLoss (s : State) : Out := .next (loseLink s)

/-- LINK_RETRAIN (R65). -/
def execLinkRetrain (cfg : BitVec 2) (s : State) : Out := done (if s.hlk.grace && !s.hlk.up && linkAllowed s then trainLink s cfg else s)

/-- The session ends with its waybills dropped: the halves of the consist buffers that held their records are free. -/
def dropSession (s : State) : State := (List.range 8).foldl turnHalves (endSession s)

/-- GRACE_EXPIRY (R65, R107). -/
def execGraceExpiry (s : State) : Out := done (if s.hlk.grace && !s.hlk.up then dropSession s else s)

/-- What PCIe clears with the function: every MSI-X vector is masked (log entry 5). -/
def maskVectors (s : State) : State := { s with hlk := { s.hlk with mask := BitVec.allOnes 2048 } }

/-- HOT_RESET (R65): a hot reset arrives over a trained link. -/
def execHotReset (s : State) : Out :=
  done (if s.hlk.up then maskVectors (if sessionOn s then dropSession s else s) else s)

/-- FLR (R66, R525); with K_dev's fuses failed the host is not served (R428). -/
def execFlr (s : State) : Out := done (if mainPower s && s.fusesOk then requestedReset s else s)

/-- DEVICE_RESET (R66): a write of 1 to HLK_CONTROL.DEVICE_RESET. -/
def execDeviceReset (m : Master) (s : State) : Out := done (guardedWrite s m Reg.HLK_CONTROL requestedReset)

/-! ### The set-up page (R52 to R55) -/

def setupAddr : SetupReg → Nat
  | .bstore => Reg.HLK_BSTORE_BASE
  | .itab => Reg.HLK_ITAB_BASE
  | .clUp => Reg.HLK_CL_UP_BASE
  | .clDown => Reg.HLK_CL_DOWN_BASE

/-- The address of a written half. -/
def halfAddr (a : Nat) : Half → Nat
  | .hi => a + 4
  | _ => a

/-- Put a half, or both, of a register pair in place; a half carries its value in the low 32 bits (R9, R52). -/
def writeHalf (old : DWord) (h : Half) (v : DWord) : DWord :=
  match h with
  | .lo => pair64 (hi32 old) (lo32 v)
  | .hi => pair64 (lo32 v) (lo32 old)
  | .both => v

def clOpen (s : State) : Bool := bitR s Reg.HLK_CL_CONFIG 31

/-- The register is locked against writes (R54). -/
def setupLocked (s : State) : SetupReg → Bool
  | .bstore => sessionOn s
  | .itab => sessionOn s
  | .clUp => clOpen s
  | .clDown => clOpen s

def cfgLocked (s : State) : State := orR s Reg.HLK_ERR 8

/-- Write a set-up base register. -/
def writeSetup (s : State) (r : SetupReg) (h : Half) (v : DWord) : State :=
  if setupLocked s r then cfgLocked s
  else setR64 s (setupAddr r) (writeHalf (getR64 s (setupAddr r)) h v &&& ~~~(0xFFF#64))

/-- SETUP_BASE_WRITE (R54). -/
def execSetupBaseWrite (m : Master) (r : SetupReg) (h : Half) (v : DWord) (s : State) : Out :=
  writeOut s m (halfAddr (setupAddr r) h) (decide (h = .both)) (fun s => writeSetup s r h v)

/-- The fields of HLK_CL_CONFIG but OPEN after a write (R12): a reserved size keeps its old value. -/
def clFields (old v : Word) : Word := keepReserved old [(0, 5, 4, 16), (8, 5, 4, 16)] (v &&& 0x07FF1F1F)

/-- The record of line 0 as the control line opens (R55). -/
def controlRecord (s : State) : Line :=
  { Line.closed with
    state := .opened, upLog2 := fieldR s Reg.HLK_CL_CONFIG 0 5, dnLog2 := fieldR s Reg.HLK_CL_CONFIG 8 5, service := true,
    mirror := (getLine s 0).mirror, dnBase := getR64 s Reg.HLK_CL_DOWN_BASE, vector := BitVec.ofNat 11 (fieldR s Reg.HLK_CL_CONFIG 16 11), vecEn := true }

/-- A write of OPEN 1. -/
def openControl (s : State) (v : Word) : State :=
  let old := getR s Reg.HLK_CL_CONFIG &&& 0x7FFFFFFF
  let new_ := clFields old v
  if clOpen s then (if new_ = old then s else cfgLocked s)
  else
    let s := setR s Reg.HLK_CL_CONFIG new_
    if sizeOk (bitsOf new_ 0 5) && sizeOk (bitsOf new_ 8 5) && decide (getR64 s Reg.HLK_BSTORE_BASE ≠ 0) then
      orR (orR (setLine s 0 (controlRecord s)) Reg.HLK_CL_CONFIG 0x80000000) Reg.HLK_STATUS 0x200
    else orR s Reg.HLK_ERR 0x10

/-- CONTROL_LINE_OPEN (R55). -/
def execControlLineOpen (m : Master) (v : Word) (s : State) : Out :=
  writeOut s m Reg.HLK_CL_CONFIG false (fun s => openControl s v)

/-- A line other than line 0 is OPEN, or a waybill is in flight. -/
def controlBusy (s : State) : Bool :=
  s.lne.lines.any (fun e => (decide (e.1 ≠ 0) && decide (e.2.state = .opened)) || !e.2.flights.isEmpty)

/-- A write of OPEN 0. -/
def closeControl (s : State) (v : Word) : State :=
  let old := getR s Reg.HLK_CL_CONFIG &&& 0x7FFFFFFF
  let new_ := clFields old v
  if !clOpen s then setR s Reg.HLK_CL_CONFIG new_
  else if new_ ≠ old ∨ controlBusy s then cfgLocked s
  else endSession s

/-- CONTROL_LINE_CLOSE (R55). -/
def execControlLineClose (m : Master) (v : Word) (s : State) : Out :=
  writeOut s m Reg.HLK_CL_CONFIG false (fun s => closeControl s v)

/-- WINDOW_C_WRITE (R58): discarded, and flagged; without READY the set-up page flags nothing here. -/
def execWindowCWrite (_off : BitVec 16) (_v : DWord) (s : State) : Out :=
  .next (if mainPower s then orR s Reg.HLK_ERR 0x20 else s)

/-! ### MSI-X (R60) -/

/-- A vector's mask clears: one message if it pends, held while the link is down. -/
def unmaskVector (vector : BitVec 11) (s : State) : State :=
  let b := 1#2048 <<< vector.toNat
  let s := { s with hlk := { s.hlk with mask := s.hlk.mask &&& ~~~b } }
  if s.hlk.pend.getLsbD vector.toNat && s.hlk.up then
    { s with hlk := { s.hlk with pend := s.hlk.pend &&& ~~~b },
             ports := { s.ports with hostOut := s.ports.hostOut ++ [.msix vector] } }
  else s

/-- The vector control word of an entry of the MSI-X table (R54). -/
def vectorControl (vector : BitVec 11) : Nat := 0x4016800C + 16 * vector.toNat

/-- MSIX_UNMASK (R60): a host write of the vector's control word in Window A, which its route and READY let through (R50,
R53). -/
def execMsixUnmask (vector : BitVec 11) (s : State) : Out :=
  done (guardedWrite s 31 (vectorControl vector) (unmaskVector vector))

/-! ### The function that the host sees (R48)

The properties of the function itself, `pcieFunction`, and the requests it makes stand with the operations that use them. -/

/-- The read requests of a read of host memory, under the host's Max_Read_Request_Size (R48). -/
def readRequests (s : State) (a n : Nat) : List (Nat × Nat) := cutRange (min s.hlk.maxRead pcieFunction.maxReadRequest) n a n

/-! ### The USB 2.0 maintenance function (R47, R63) -/

/-- HLK_STATUS: MODE is read from the state, the rest from the bank. -/
def hlkStatus (s : State) : Word :=
  getR s Reg.HLK_STATUS ||| place 1 3 (modeCode s.mode)

/-- STATUS_REQUEST (R63): 12 bytes in every mode. -/
def execStatusRequest (s : State) : Out :=
  .next (if mainPower s then
    { s with ports := { s.ports with usbOut := s.ports.usbOut ++
      [wordBytes (getR s Reg.HLK_ID) ++ wordBytes (hlkStatus s) ++ wordBytes (getR s Reg.HLK_ERR)] } }
  else s)

end Sys2Proof.Machine
end

