-- ==== Sys2Proof/Machine/TrackRows.lean ====
section
/-! DEFINITION. The data-line waybills and the events of the Marshalling Engine (R115, R122 to R126, R139 to R178). -/

namespace Sys2Proof.Machine

/-! ### Line keys (R152, R153) -/

/-- Every waybill of the line that waits for the key reads the installed state. -/
def readKey (s : State) (l : Nat) (key : Bytes) : State :=
  modLine s l (fun r => { r with flights := r.flights.map (fun f =>
    if f.phase = .keyWait then { f with phase := .ready, key := key } else f) })

/-- The first waybill of a data line that waits for its key. -/
def keyFlight (s : State) (l : Nat) : Option Flight :=
  if mainPower s then (getLine s l).flights.find? (fun f => decide (f.phase = .keyWait)) else none

/-- The derivation that waybill `f` of line `l` waits for ends (R153); it waits for the table's rebuild (R242). -/
def deriveLineKey (s : State) (l : Nat) (f : Flight) : State :=
  match ctx? s l with
  | none => s
  | some c =>
    if !s.tableBuilt then s
    else if ctxBad s l then faultContext s l (some f.id)
    else
      let s := touchSlot s l
      let k := lineKeyCheck s c.parent.toNat
      if k.status = 0 then
        let s := installLineKey s l c
        readKey s l (((lineSlot? s l c).map (fun x => x.key)).getD [])
      else faultLine (noteCheck s k) l k.status (some f.id) false

/-- The key of a line's waybills, derived if one still waits for it. -/
def withKey (s : State) (l : Nat) : State :=
  match keyFlight s l with
  | some f => deriveLineKey s l f
  | none => s

/-- The tracks take up what the end of a wait, or of a waybill, lets them take up (R144). -/
def goOn (s : State) : Out := done (stampAll s)

/-- KEY_WAIT_TIMEOUT (R153). -/
def execKeyWaitTimeout (line : BitVec 19) (s : State) : Out :=
  match keyFlight s line.toNat with
  | some f => goOn (settle (endFlight s line.toNat f.id 0x0B false) line.toNat)
  | none => .next s

/-- LINE_KEY_DERIVED (R153). -/
def execLineKeyDerived (line : BitVec 19) (s : State) : Out :=
  match keyFlight s line.toNat with
  | some f => goOn (deriveLineKey s line.toNat f)
  | none => .next s

/-! ### Fetching and stamping (R115, R140, R141, R144, R147, R172) -/

/-- The first waybill of a data line that still has to end. -/
def dataFlight (s : State) (l : Nat) : Option Flight :=
  if mainPower s && !(getLine s l).service then headFlight s l else none

/-- A waybill in a track's queue whose records are not all in the buffer. -/
def unfetched (f : Flight) : Bool :=
  (decide (f.phase = .keyWait) || decide (f.phase = .ready)) && f.assigned && f.place.isNone && decide (countOf f.raw ≠ 0)

/-- The fetcher fetches the consists of a track in queue order (R140). -/
def fetchTurn (s : State) (f : Flight) : Bool :=
  s.lne.lines.all (fun e => e.2.service || e.2.flights.all (fun g =>
    !(unfetched g && decide (g.track = f.track) && decide (g.order < f.order))))

/-- The waybill of a data line whose records are fetched next. -/
def fetching (s : State) (l : Nat) : Option Flight :=
  if mainPower s && !(getLine s l).service then (getLine s l).flights.find? unfetched else none

/-- The records of a line's next consist are in its track's buffer, which takes the stamp or waits for its key, its turn or its
credit (R141, R144, R147, R172). -/
def fetched (s : State) (l : Nat) (records : Bytes) : State :=
  match fetching s l with
  | some f => if fetchTurn s f then stampNext (putConsist s l f records) f.track.toNat else s
  | none => s

/-- CONSIST_FETCHED (R147): for a MARK at the head of its track's queue there is nothing to fetch. -/
def execConsistFetched (line : BitVec 19) (records : Bytes) (s : State) : Out :=
  match dataFlight s line.toNat with
  | some f =>
    .next (if byteAt f.raw 2 = 5 ∧ canStamp s f then stampFlight s line.toNat f else fetched s line.toNat records)
  | none => .next s

/-! ### Absorption (R161 to R169) -/

/-- CONSIST_ABSORBED (R163); the tracks then take up what follows. -/
def execConsistAbsorbed (line : BitVec 19) (expected : Bytes) (s : State) : Out :=
  match dataFlight s line.toNat with
  | some f => if f.phase = .stamped then goOn (absorb s line.toNat f expected) else .next s
  | none => .next s

/-- The first waybill, if it has that opcode, gets its key, its records and its stamp, as far as its track's queue allows. -/
def stampHead (s : State) (l op : Nat) (records : Bytes) : State :=
  match dataFlight s l with
  | some f =>
    if byteAt f.raw 2 ≠ op ∨ f.phase = .stamped then s
    else
      let s := withKey s l
      let s := if unfetched f then fetched s l records else s
      match dataFlight s l with
      | some f => if canStamp s f then stampFlight s l f else s
      | none => s
  | none => s

/-- A data-line waybill of one opcode, carried out whole: key, records, stamp, tags, completion. -/
def runData (s : State) (l op : Nat) (records expected : Bytes) : State :=
  let s := stampHead s l op records
  match dataFlight s l with
  | some f => if f.phase = .stamped ∧ byteAt f.raw 2 = op then absorb s l f expected else s
  | none => s

/-- TAG_CONSIST (R122). -/
def execTagConsist (line : BitVec 19) (records : Bytes) (s : State) : Out := goOn (runData s line.toNat 1 records [])

/-- TAG_RECORDS (R122). -/
def execTagRecords (line : BitVec 19) (records : Bytes) (s : State) : Out := goOn (runData s line.toNat 2 records [])

/-- VERIFY_CONSIST (R123). -/
def execVerifyConsist (line : BitVec 19) (records : Bytes) (s : State) : Out := goOn (runData s line.toNat 3 records [])

/-- VERIFY_RECORDS (R124). -/
def execVerifyRecords (line : BitVec 19) (records expected : Bytes) (s : State) : Out :=
  goOn (runData s line.toNat 4 records expected)

/-- MARK (R125). -/
def execMark (line : BitVec 19) (s : State) : Out := goOn (runData s line.toNat 5 [] [])

/-! ### FENCE (R126, R145) -/

/-- The epoch still waits for its Manifest to be stored. -/
def unsealed (s : State) (epoch : Nat) : Bool :=
  s.su.jobs.any (fun j => decide (j.epoch.number = epoch)) ||
    (match s.su.open_ with
     | some e => decide (e.number ≤ epoch)
     | none => false)

/-- The completion of a FENCE (R126). -/
def fenceRecord (s : State) (c : Context) (f : Flight) (uns : Bool) : Bytes :=
  completionRecord f.raw 0 (b2n uns * 0x10000000) c.sequence.toNat s.ttc.toNat (fenceEpoch c) c.chainHead

/-- A FENCE completes, or waits in the Hump for its epoch (R145). -/
def fenceWith (s : State) (l : Nat) (c : Context) (f : Flight) : State :=
  if byteAt f.raw 3 % 2 = 1 ∧ unsealed s (fenceEpoch c) then
    updFlight s l f.id (fun g => { g with phase := .sealWait, waitFor := fenceEpoch c, completion := fenceRecord s c f false })
  else
    settle (updFlight s l f.id (fun g => { g with
      phase := .formed, completion := fenceRecord s c f (stillUnsigned s (fenceEpoch c)) })) l

/-- A FENCE at the head of its track's queue reads the line's context. -/
def fenceNow (s : State) (l : Nat) (f : Flight) : State :=
  match ctx? s l with
  | none => s
  | some c => if ctxBad s l then faultContext s l (some f.id) else fenceWith (touchSlot s l) l c f

/-- A FENCE that is first on its line. -/
def runFence (s : State) (l : Nat) : State :=
  let s := withKey s l
  match dataFlight s l with
  | some f => if f.phase = .ready ∧ byteAt f.raw 2 = 6 ∧ queueHead s f then fenceNow s l f else s
  | none => s

/-- FENCE (R126). -/
def execFence (line : BitVec 19) (s : State) : Out :=
  match dataFlight s line.toNat with
  | some f => goOn (if byteAt f.raw 2 = 6 then runFence s line.toNat else s)
  | none => .next s

/-! ### Self-tests, fences and credit (R172, R174, R175) -/

/-- The periodic test of an enabled track between two consists. -/
def selfTestTrack (s : State) (t : Nat) (pass : Bool) : State :=
  let k := trackAt s t
  if !k.enabled || (stampedOn s t).isSome || !mainPower s then s
  else if pass then setTrack s t { k with lastPass := s.ttc }
  else fenceTrack s t 1

/-- TRACK_SELF_TEST (R175). -/
def execTrackSelfTest (t : BitVec 3) (pass : Bool) (s : State) : Out := done (selfTestTrack s t.toNat pass)

/-- A firmware fence; a consist in progress runs to its end first. -/
def fenceByFirmware (s : State) (t : Nat) : State :=
  if (trackAt s t).fenced then s
  else if (stampedOn s t).isSome then setTrack s t { trackAt s t with fencing := true }
  else fenceTrack s t 3

/-- TRACK_FENCE (R175). -/
def execTrackFence (m : Master) (bits : BitVec 8) (s : State) : Out :=
  done (guardedWrite s m Reg.MSH_FENCE (fun s =>
    ((List.range 8).filter (fun t => bits.getLsbD t)).foldl fenceByFirmware s))

/-- CREDIT_ACCOUNT (R172): 160 records a microsecond, up to 8,192; the waiting consist is then stamped. -/
def execCreditAccount (t : BitVec 3) (micros : Nat) (s : State) : Out :=
  .next (if governed s && mainPower s then
    stampNext { s with lne := { s.lne with credit := min 8192 (s.lne.credit + 160 * micros) } } t.toNat
  else s)

end Sys2Proof.Machine
end

