-- ==== Sys2Proof/Machine/EpochRows.lean ====
section
/-! DEFINITION. The Timetable, the closing and sealing of epochs, and the verification of staging writes (R33, R180 to R185,
R190, R196, R198, R206, R214, R268, R275, R287 to R289, R564). -/

namespace Sys2Proof.Machine

/-! ### The Timetable (R182, R184, R185) -/

def ceilDiv (a b : Nat) : Nat := (a + b - 1) / b

/-- VIGIL_COUNT_REWRITE (R182): the vigil count is set one second ahead. -/
def execVigilCountRewrite (s : State) : Out :=
  .next (if mainPower s then
    sealPrivate
      { s with vigil := { s.vigil with count := BitVec.ofNat 48 (ceilDiv ((s.ttc.toNat + second) * 128) 390625) } } .count
  else s)

/-- A completed write of TTC_ADVANCE (R184). -/
def advanceTtc (s : State) (v : DWord) : State :=
  if !bitR s Reg.TTC_STATUS 1 && !ready s && decide (s.ttc.toNat < v.toNat) then
    raise (orR { s with ttc := v } Reg.TTC_STATUS 2) 21
  else orR s Reg.TTC_STATUS 8

/-- The low half that waits for its high half. -/
def heldLow (s : State) (a : Nat) : Word := mget 0 s.lowHeld a

/-- A write of the high half takes the low half held last, 0 where none was written (DESIGN CHOICE, log entry 172). -/
def writeAdvance (s : State) (h : Half) (v : DWord) : State :=
  match h with
  | .lo => { s with lowHeld := mset 0 s.lowHeld Reg.TTC_ADVANCE (lo32 v) }
  | .hi => advanceTtc s (pair64 (lo32 v) (heldLow s Reg.TTC_ADVANCE))
  | .both => advanceTtc s v

/-- TTC_ADVANCE (R184). -/
def execTtcAdvance (m : Master) (h : Half) (v : DWord) (s : State) : Out :=
  writeOut s m (halfAddr Reg.TTC_ADVANCE h) (decide (h = .both)) (fun s => writeAdvance s h v)

/-- TCXO_FAILURE (R33, R185, R564): RC time, the clock monitor's source 70, the early seal, and Maintenance. -/
def execTcxoFailure (s : State) : Out :=
  done (if !mainPower s ∨ bitR s Reg.TTC_STATUS 0 then s
    else
      let s := trip (orR s Reg.TTC_STATUS 1) 70 3
      if sealing s then changeMode s .maintenance 9 else s)

/-! ### Manifest room (R289) -/

/-- The kept stripes hold room for fewer than 64 Manifests: event 322, the early seal, and Maintenance. -/
def noteRoom (s : State) : State :=
  if logFull s && sealing s && decide (keptRoom s < 64) then changeMode (raise s 322) .maintenance 10 else s

/-- What follows a change of what is stored, released or reclaimable. -/
def noteLog (s : State) : State := noteRoom (noteFull (startProgram s))

/-! ### Epochs (R190, R196, R198) -/

/-- EPOCH_CLOSE (R190). -/
def execEpochClose (s : State) : Out := done (if boundaryReached s && tracksPast s then closeAtBoundary s else s)

/-- Step 2 to 5 of R196 for the first job; an unsigned Manifest goes to the log writer at once, and the backlog is signed
ahead of newer epochs (R206). -/
def rootFrozen (s : State) : State :=
  match s.su.jobs with
  | j :: _ =>
    if j.phase ≠ .freezing ∨ s.su.rebuilding then s
    else if privateBad s .treeStore then treeFault s
    else signBacklog (handOver (freeze s))
  | [] => s

/-- ROOT_FROZEN (R196). -/
def execRootFrozen (s : State) : Out := done (if mainPower s then rootFrozen s else s)

/-- The signature of the first job arrives, or cannot be made any more (R196, R575). -/
def manifestSigned (s : State) : State :=
  match s.su.jobs with
  | j :: _ => if j.phase = .signing then handOver (signJob (signBacklog s)) else s
  | [] => s

/-- MANIFEST_SIGNED (R196). -/
def execManifestSigned (s : State) : Out := done (if mainPower s then manifestSigned s else s)

/-- Staging writes up to the first that carries a Manifest. -/
def writesToManifest (s : State) : Nat := ((s.log.staging.findIdx? (fun w => w.manifest)).map (· + 1)).getD 0

/-- MANIFEST_STORED (R196): its staging write verifies, and those handed over before it have. -/
def execManifestStored (s : State) : Out := done (if mainPower s then noteLog (verifyN (writesToManifest s) s) else s)

/-- TREE_REBUILD_DONE (R214, R215). -/
def execTreeRebuildDone (s : State) : Out := done (if mainPower s then finishRebuild s else s)

/-- STATION_STALE (R268): event 298 once each time the slot becomes stale. -/
def execStationStale (slot : BitVec 12) (s : State) : Out :=
  match mget? s.stations slot.toNat with
  | some st =>
    .next (if isTerminus s && stationStale s st && !st.stale then
      raise { s with stations := mput s.stations slot.toNat { st with stale := true } } 298
    else s)
  | none => .next s

/-! ### Staging (R275, R287, R289, R291) -/

/-- STAGING_WRITE_VERIFIED (R275): a write that fails is written again, with the same serial, LINK and bytes. -/
def execStagingWriteVerified (ok : Bool) (s : State) : Out :=
  done (if !mainPower s then s
    else
      match s.log.staging with
      | [] => s
      | w :: _ =>
        if ok then noteLog (verifyStaging s) else if ringRoom s (writeSize w) then wearStaging s (writeSize w) else s)

/-- WORDLINE_STRIPE_PROGRAMMED (R276, R297): the one under way finishes, also while the last-gasp seal runs; one not read back
without error releases nothing and is written again into a fresh wordline. -/
def execWordlineStripeProgrammed (ok : Bool) (s : State) : Out :=
  done (if mainPower s && s.flash.programming then noteLog (if ok then programStripe s else skipWordline s) else s)

end Sys2Proof.Machine
end

