-- ==== Sys2Proof/Machine/MlKem.lean ====
section
/-! DEFINITION. ML-KEM-1024 as FIPS 203 gives it, which the spec names and does not restate (R227 to R229, R336; log entry 7).
A polynomial is the list of its 256 coefficients modulo 3,329. -/

namespace Sys2Proof.Machine

/-! ### The ring and the number-theoretic transform -/

def kemQ : Nat := 3329

def addPoly (a b : List Nat) : List Nat := List.zipWith (fun x y => (x + y) % kemQ) a b
def subPoly (a b : List Nat) : List Nat := List.zipWith (fun x y => (x + kemQ - y) % kemQ) a b
def scalePoly (c : Nat) (a : List Nat) : List Nat := a.map (fun x => c * x % kemQ)

/-- The bits of a number of `n` bits in reverse order. -/
def reverseBits : Nat → Nat → Nat
  | 0, _ => 0
  | n + 1, v => v % 2 * 2 ^ n + reverseBits n (v / 2)

/-- The power of the root 17 that stands at place `k` of the transform. -/
def zeta (k : Nat) : Nat := powMod 17 (reverseBits 7 k) kemQ

/-- The transform over `n` levels: a block splits into the sums and the differences with its scaled upper half. -/
def ntt : Nat → Nat → List Nat → List Nat
  | 0, _, f => f
  | n + 1, k, f =>
    let lo := f.take (2 ^ (n + 1))
    let t := scalePoly (zeta k) (f.drop (2 ^ (n + 1)))
    ntt n (2 * k) (addPoly lo t) ++ ntt n (2 * k + 1) (subPoly lo t)

/-- Its inverse, up to the factor 128. -/
def inverseNtt : Nat → Nat → List Nat → List Nat
  | 0, _, f => f
  | n + 1, k, f =>
    let lo := inverseNtt n (2 * k + 1) (f.take (2 ^ (n + 1)))
    let hi := inverseNtt n (2 * k) (f.drop (2 ^ (n + 1)))
    addPoly lo hi ++ scalePoly (zeta k) (subPoly hi lo)

def toNtt (f : List Nat) : List Nat := ntt 7 1 f
def fromNtt (f : List Nat) : List Nat := scalePoly 3303 (inverseNtt 7 1 f)

/-- Products of the pairs of two transformed polynomials, from pair `i`. -/
def mulPairs : Nat → List Nat → List Nat → List Nat
  | i, a0 :: a1 :: a, b0 :: b1 :: b =>
    (a0 * b0 + a1 * b1 % kemQ * (powMod 17 (2 * reverseBits 7 i + 1) kemQ)) % kemQ :: (a0 * b1 + a1 * b0) % kemQ ::
      mulPairs (i + 1) a b
  | _, _, _ => []

/-- The inner product of two vectors of transformed polynomials. -/
def dotNtt (a b : List (List Nat)) : List Nat :=
  (List.zipWith (mulPairs 0) a b).foldl addPoly (List.replicate 256 0)

/-! ### Bytes and sampling -/

/-- The `d`-bit digits of a number, the least significant first. -/
def digits (d : Nat) : Nat → Nat → List Nat
  | 0, _ => []
  | n + 1, v => v % 2 ^ d :: digits d n (v / 2 ^ d)

/-- ByteEncode of 256 numbers of `d` bits. -/
def packPoly (d : Nat) (f : List Nat) : Bytes := le (32 * d) (f.foldr (fun x acc => x % 2 ^ d + 2 ^ d * acc) 0)

/-- ByteDecode; numbers of 12 bits are taken modulo q. -/
def unpackPoly (d : Nat) (b : Bytes) : List Nat :=
  (digits d 256 (ofLe b)).map (fun x => if d = 12 then x % kemQ else x)

/-- Compress to `d` bits. -/
def compressPoly (d : Nat) (f : List Nat) : List Nat := f.map (fun x => (2 ^ (d + 1) * x + kemQ) / (2 * kemQ) % 2 ^ d)

def expandPoly (d : Nat) (f : List Nat) : List Nat := f.map (fun y => (2 * kemQ * y + 2 ^ d) / 2 ^ (d + 1))

/-- The numbers below q that three bytes at a time spell (SampleNTT). -/
def acceptCoeffs : Nat → Bytes → List Nat
  | 0, _ => []
  | n + 1, b =>
    let x := num b 0 3
    ([x % 4096, x / 4096].filter (fun v => decide (v < kemQ))) ++ acceptCoeffs n (b.drop 3)

/-- A uniform transformed polynomial; the 1,176 bytes taken give more than 256 coefficients but in a negligible share of seeds, for
which zeros follow. -/
def samplePoly (rho : Bytes) (j i : Nat) : List Nat :=
  (acceptCoeffs 392 (shake128 (rho ++ [BitVec.ofNat 8 j, BitVec.ofNat 8 i]) 1176) ++ List.replicate 256 0).take 256

/-- A polynomial of the centred binomial distribution with parameter 2, from 128 bytes. -/
def smallPoly (seed : Bytes) (n : Nat) : List Nat :=
  (digits 4 256 (ofLe (shake256 (slice seed 0 32 ++ [BitVec.ofNat 8 n]) 128))).map (fun v =>
    (v % 2 + v / 2 % 2 + kemQ - v / 4 % 2 - v / 8 % 2) % kemQ)

def smallVector (seed : Bytes) (first : Nat) : List (List Nat) := (List.range 4).map (fun i => smallPoly seed (first + i))

/-- Row `i` of the public matrix. -/
def matrixRow (rho : Bytes) (i : Nat) : List (List Nat) := (List.range 4).map (fun j => samplePoly rho j i)
def matrixColumn (rho : Bytes) (i : Nat) : List (List Nat) := (List.range 4).map (fun j => samplePoly rho i j)

/-! ### K-PKE -/

/-- ρ and σ of a seed d. -/
def kemSeeds (d : Bytes) : Bytes × Bytes :=
  let g := sha3_512 (slice d 0 32 ++ [4])
  (slice g 0 32, slice g 32 32)

/-- The secret vector of d, transformed. -/
def kemSecret (d : Bytes) : List (List Nat) := (smallVector (kemSeeds d).2 0).map toNtt

def encodeVector (v : List (List Nat)) : Bytes := v.flatMap (packPoly 12)

/-- The encapsulation key of d: 1,568 bytes. -/
def kemPublic (d : Bytes) : Bytes :=
  let s := kemSecret d
  let e := (smallVector (kemSeeds d).2 4).map toNtt
  let rho := (kemSeeds d).1
  encodeVector ((List.range 4).map (fun i => addPoly (dotNtt (matrixRow rho i) s) (e.getD i []))) ++ rho

/-- The four polynomials of an encapsulation key. -/
def decodeVector (ek : Bytes) : List (List Nat) := (List.range 4).map (fun i => unpackPoly 12 (slice ek (384 * i) 384))

/-- The modulus check of FIPS 203: every coefficient of the key is below q. -/
def kemKeyOk (ek : Bytes) : Bool :=
  decide (ek.length = 1568) && (digits 12 1024 (ofLe (ek.take 1536))).all (fun x => decide (x < kemQ))

/-- K-PKE.Encrypt of a 32-byte message under 32 bytes of randomness: 1,568 bytes. -/
def pkeEncrypt (ek m r : Bytes) : Bytes :=
  let rho := slice ek 1536 32
  let y := (smallVector r 0).map toNtt
  let e1 := smallVector r 4
  let u := (List.range 4).map (fun i => addPoly (fromNtt (dotNtt (matrixColumn rho i) y)) (e1.getD i []))
  let v := addPoly (addPoly (fromNtt (dotNtt (decodeVector ek) y)) (smallPoly r 8)) (expandPoly 1 (unpackPoly 1 (slice m 0 32)))
  u.flatMap (fun p => packPoly 11 (compressPoly 11 p)) ++ packPoly 5 (compressPoly 5 v)

/-- K-PKE.Decrypt under the secret of d. -/
def pkeDecrypt (d ct : Bytes) : Bytes :=
  let u := (List.range 4).map (fun i => toNtt (expandPoly 11 (unpackPoly 11 (slice ct (352 * i) 352))))
  let v := expandPoly 5 (unpackPoly 5 (slice ct 1408 160))
  packPoly 1 (compressPoly 1 (subPoly v (fromNtt (dotNtt (kemSecret d) u))))

/-! ### The key encapsulation -/

/-- Shared secret and randomness of a message under a key. -/
def kemShare (ek m : Bytes) : Bytes × Bytes :=
  let g := sha3_512 (slice m 0 32 ++ sha3_256 ek)
  (slice g 0 32, slice g 32 32)

/-- The ciphertext and the shared secret of an encapsulation with 32 random bytes. -/
def kemEncaps (ek m : Bytes) : Bytes × Bytes := (pkeEncrypt ek m (kemShare ek m).2, (kemShare ek m).1)

/-- The shared secret of a ciphertext under d ‖ z, implicit rejection included. -/
def kemDecaps (dz ct : Bytes) : Bytes :=
  let d := slice dz 0 32
  let ek := kemPublic d
  let m := pkeDecrypt d ct
  let g := kemShare ek m
  if pkeEncrypt ek m g.2 = ct then g.1 else shake256 (slice dz 32 32 ++ ct) 32

end Sys2Proof.Machine
end

