-- ==== Sys2Proof/Machine/Hybrid.lean ====
section
/-! DEFINITION. The hybrid exchange, the Trunk backup, and the structural work of the branch tree unit with its table image
(R227 to R229, R239 to R249, R253 to R258). -/

namespace Sys2Proof.Machine

/-! ### The hybrid exchange (R227 to R229) -/

/-- Draw 56 bytes as a P-384 scalar. -/
def scalarOf (b : Bytes) : Nat := ofBe b % (p384.n - 1) + 1

/-- Public block of an ML-KEM seed and a P-384 scalar. -/
def publicBlock (dz : Bytes) (k : Nat) : Bytes :=
  slice (kemPublic dz) 0 1568 ++ encodePoint p384 (mulPoint p384 k (basePoint p384))

/-- The pair of a KEM-seed branch's key. -/
def kemPublicBlock (k : Bytes) : Bytes := publicBlock (kemSeed k) (scalarOf (ecdhBytes k))

/-- The x-coordinate of a shared point. -/
def sharedX (k : Nat) (p : Point) : Bytes :=
  match mulPoint p384 k p with
  | some (x, _) => be 48 x
  | none => zeros 48

/-- A public block that the encapsulator accepts (R228). -/
def publicOk (pub : Bytes) : Bool := kemKeyOk (slice pub 0 1568) && (decodePoint p384 (slice pub 1568 97)).isSome

/-- K_B of a hybrid exchange: `tail` is LABEL ‖ KIND, or the IDENTITY of a release. -/
def hybridKey (ssk sse pub ct tail custom : Bytes) : Bytes :=
  kmac256 (slice ssk 0 32 ++ sse) (sha3_256 pub ++ sha3_256 ct ++ tail) 32 custom

/-- Encapsulate to a public block with 88 random bytes: the ciphertext and the two shared secrets. -/
def encapsulate (pub rnd : Bytes) : Bytes × Bytes × Bytes :=
  let r := kemEncaps (slice pub 0 1568) (slice rnd 0 32)
  let k := scalarOf (slice rnd 32 56)
  (slice r.1 0 1568 ++ encodePoint p384 (mulPoint p384 k (basePoint p384)), r.2, sharedX k (decodePoint p384 (slice pub 1568 97)))

/-- Decapsulate; an ephemeral point off the curve gives `fallback` in place of its shared secret (R228). -/
def decapsulate (dz : Bytes) (k : Nat) (ct fallback : Bytes) : Bytes × Bytes :=
  let p := decodePoint p384 (slice ct 1568 97)
  (kemDecaps dz (slice ct 0 1568), if p.isNone then fallback else sharedX k p)

/-- A command in progress that has changed nothing yet. -/
def waitingCommand (i : Nat) (w : Option (Nat × Nat)) : BtrPending :=
  { op := 0, index := i, waybill := w, report := w.isNone, length := 0, writes := [], slot := none, pair := none,
    persist := false, prior := none }

/-- The engines that a hybrid exchange needs take it now: no owner's job runs on the MAE, and a lane in use is free (R328, R333). -/
def hybridReady (s : State) : Bool := !decide (fieldR s Reg.MAE_STATUS 0 3 = 1) && !lanesBusy s

/-- A hybrid exchange runs at once, or its request waits, with its operands in the private store, for the end of the owner's job, the
next yield point, or a free lane (R328, R333). -/
def viaMae (s : State) (i : Nat) (w : Option (Nat × Nat)) (r : HybridRequest) (f : State → State) : State :=
  if hybridReady s then f s else { s with btr := some (waitingCommand i w), mae := { s.mae with request := some r } }

def asciiHybrid : Bytes := ascii "XLX hybrid"

/-- The new key of an encapsulation, and its ciphertext. -/
def encapsKey (pub rnd label : Bytes) (kind : Nat) : Bytes × Bytes :=
  let e := encapsulate pub rnd
  (hybridKey e.2.1 e.2.2 pub e.1 (slice label 0 32 ++ [BitVec.ofNat 8 kind]) asciiHybrid, e.1)

/-- The new key of a decapsulation under the key of a KEM-seed branch. -/
def decapsKey (k ct label : Bytes) (kind : Nat) : Bytes :=
  let d := decapsulate (kemSeed k) (scalarOf (ecdhBytes k)) ct (kmac256 k ct 48 asciiHybrid)
  hybridKey d.1 d.2 (kemPublicBlock k) ct (slice label 0 32 ++ [BitVec.ofNat 8 kind]) asciiHybrid

/-! ### The table image (R239 to R243) -/

def xorBytes (a b : Bytes) : Bytes := List.zipWith (· ^^^ ·) a b

/-- An image can be written. -/
def canPersist (s : State) : Bool := decide (s.vigil.trunk = .valid) && !imageWorn s

def asciiTable : Bytes := ascii "XLX branch table"

/-- K_def of a Trunk (R239). -/
def imageKey (trunk : Bytes) : Bytes := kmac256 trunk (ascii "def") 32 asciiTable

/-- What masks the key of an installed branch (R240). -/
def wrapMask (kdef : Bytes) (i serial : Nat) : Bytes := kmacXof256 kdef (le 2 i ++ le 4 serial) 32 (ascii "XLX branch wrap")

/-- The 96-byte record of a branch (R240). -/
def imageRecord (kdef : Bytes) (serial i : Nat) (b : Branch) : Bytes :=
  [1, b.kind.setWidth 8] ++ le 2 i ++ le 2 b.parent ++
    [BitVec.ofNat 8 b.depth, BitVec.ofNat 8 (b2n b.installed + 2 * b2n (decide (b.state = .invalid)))] ++
    le 8 b.mask.toNat ++ le 4 b.uses.toNat ++ le 4 b.generation.toNat ++ slice b.label 0 32 ++
    (if b.installed then xorBytes (slice b.key 0 32) (wrapMask kdef i serial) else zeros 32) ++ le 8 b.created.toNat

/-- The bytes of an image: header, records, trailer (R240). -/
def imageBytes (trunk check : Bytes) (serial : Nat) (m : SMap Branch) : Bytes :=
  let kdef := imageKey trunk
  let body := [1, 0] ++ le 2 m.length ++ le 4 serial ++ slice check 0 8 ++ zeros 48 ++
    m.flatMap (fun e => imageRecord kdef serial e.1 e.2)
  body ++ kmac256 kdef body 32 asciiTable

/-- USES at a rebuild (R241). -/
def rebuiltUses (u : Word) : Word := if u = 0xFFFFFFFF then u else if u.toNat < 4096 then 0 else u - 4096

/-- The branch that a record holds, after the count records of the image (R240, R241). -/
def parseRecord (kdef : Bytes) (serial : Nat) (counts : SMap Word) (r : Bytes) : Nat × Branch :=
  let i := num r 2 2 % 4096
  let saved := (mget? counts i).getD (BitVec.ofNat 32 (num r 16 4))
  let installed := decide (byteAt r 7 % 2 = 1)
  (i, { state := if byteAt r 7 / 2 % 2 = 1 then .invalid else .valid, kind := BitVec.ofNat 3 (byteAt r 1),
        parent := num r 4 2 % 4096, depth := byteAt r 6, label := slice r 24 32, mask := num64 r 8,
        uses := rebuiltUses saved, expire := false, generation := BitVec.ofNat 32 (num r 20 4), installed := installed,
        lines := 0, key := if installed then xorBytes (slice r 56 32) (wrapMask kdef i serial) else [],
        created := num64 r 88, usesSaved := saved })

/-- The branches of an image. -/
def imageBranches (trunk : Bytes) (t : TableImage) : SMap Branch :=
  ((List.range (num t.bytes 2 2)).map (fun k =>
    parseRecord (imageKey trunk) (num t.bytes 4 4) t.counts (slice t.bytes (64 + 96 * k) 96))).foldl
      (fun m e => mput m e.1 e.2) []

/-- The trailer of an image. -/
def imageTrailer (b : Bytes) : Bytes := b.drop (b.length - 32)

/-- The image of the next serial is written and verified; the sealed serial follows (R239, R243). -/
def commitImage (s : State) : State :=
  let n := imageSerial s + 1
  let s := { s with
    image := some { bytes := imageBytes s.vigil.trunkKey (trunkCheckNow s) n (persistent s.branches), counts := [] },
    branches := s.branches.map (fun e => (e.1, { e.2 with usesSaved := e.2.uses })) }
  let s := sstStore s 9 (BitVec.ofNat 64 n)
  if imageWorn s then raise (orR s Reg.BTR_ERR 4) 293 else s

/-- Invalidations that could not be persisted any more are applied again from the Running Log (R243). -/
def reapply (s : State) (m : SMap Branch) : SMap Branch :=
  if imageWorn s then
    (s.log.frames.filter (fun f => decide (f.typ = 0x25) && !f.lost)).foldl (fun a f =>
      mmap? a (num f.body 0 2) (fun b =>
        if b.generation.toNat = num f.body 4 4 ∧ b.label = slice f.body 16 32 then { b with state := .invalid } else b)) m
  else m

/-- An image qualifies: its serial is the sealed one, and its Trunk check and its trailer verify (R242). -/
def imageOpens (s : State) (t : TableImage) : Bool :=
  decide (num t.bytes 4 4 = imageSerial s) && decide (slice t.bytes 8 8 = trunkCheckNow s) &&
    decide (kmac256 (imageKey s.vigil.trunkKey) (t.bytes.take (t.bytes.length - 32)) 32 asciiTable = imageTrailer t.bytes)

/-! ### The upward pairing and the level (R252, R257) -/

/-- Purpose byte of a pairing LABEL (R253). -/
def purposeOf (label : Bytes) : Nat := byteAt label 11

/-- The branch of the upward pairing, while it is not FREE: its LABEL is that of a recorded pairing. -/
def upwardBranch (s : State) : Option (Nat × Branch) :=
  s.branches.find? (fun e => decide (e.2.kind = 6) && s.pairings.any (fun p => !p.standby && decide (p.label = e.2.label)))

/-- The level in the sealed settings. -/
def setLevel (s : State) (n : Nat) : State :=
  sstStore s 5 (BitVec.ofNat 64 ((sstGet s 5).toNat % 256 + 256 * n))

/-- The level that the upward pairing gives: 1 without one, else T_LEVEL + 1. -/
def dueLevel (s : State) : Nat := ((upwardBranch s).map (fun e => byteAt e.2.label 10 + 1)).getD 1

/-- The level follows the upward pairing (R252). -/
def settleLevel (s : State) : State := if dueLevel s = level s then s else setLevel s (dueLevel s)

/-- T_ID of the upward Terminus in the sealed settings (R257, R558). -/
def recordTerminus (s : State) (tId : Bytes) : State := sstStore (sstStore s 6 (num64 tId 0)) 7 (num64 tId 8)

/-! ### The rebuild (R242) -/

/-- Every entry of a table written anew has a fresh seal (R25). -/
def sealTable (s : State) : State :=
  { s with badPrivate := s.badPrivate.filter (fun c =>
      match c with
      | .branch _ => false
      | _ => true) }

/-- A measurement entry (R270). -/
def measurement (s : State) (kind version : Nat) (digest : Bytes) : Bytes :=
  [BitVec.ofNat 8 kind, 0, 0, 0] ++ le 4 version ++ le 8 s.ttc.toNat ++ slice digest 0 64

/-- The trailer of the image that the table is rebuilt from joins the measurement log, with its serial for VERSION (R270; log
entry 86). -/
def measureImage (s : State) (t : TableImage) : State :=
  { s with flash := { s.flash with
      measured := (s.flash.measured ++ [measurement s 4 (num t.bytes 4 4) (shake256 (imageTrailer t.bytes) 64)]).take 83 } }

/-- The table without an image. -/
def emptyTable (s : State) : State := settleLevel (sealTable { s with branches := [] })

/-- No image qualifies: BTR_ERR.IMAGE_BAD, event 290 and the alarm of source 104. -/
def imageBad (s : State) : State := trip (raise (orR (emptyTable s) Reg.BTR_ERR 2) 290) 104 3

/-- LINES of a branch: the lines, other than CLOSED ones, that name it as PARENT (R223, R230). -/
def linesUnder (s : State) (i : Nat) : Nat :=
  (s.lne.lines.filter (fun e => decide (e.2.state ≠ .closed ∧ e.2.service = false ∧ e.2.parent = i))).length

/-- LINES of every entry, counted from the lines that are open. -/
def countParents (s : State) : State :=
  { s with branches := s.branches.map (fun e => (e.1, { e.2 with lines := linesUnder s e.1 })) }

/-- The table of a qualifying image. -/
def takeImage (s : State) (t : TableImage) : State :=
  let s := countParents (sealTable { s with branches := reapply s (imageBranches s.vigil.trunkKey t) })
  settleLevel (orR (measureImage s t) Reg.BTR_STATUS 8)

/-- Rebuild the table (R242): a Trunk that cannot be read opens no image, and with K_dev's fuses failed neither the Trunk's cell nor a
setting is read (R428). -/
def rebuildTable (s : State) : State :=
  if !s.fusesOk then sealTable { s with branches := [] }
  else if s.vigil.trunk ≠ .valid then emptyTable s
  else if privateBad s .trunk then imageBad (sealFault s spineTile)
  else
    match s.image with
    | some t => if imageOpens s t then takeImage s t else imageBad s
    | none => imageBad s

/-- Lookups wait until the rebuild ends: what needs the table before then finds it rebuilt (R242; log entry 144). The lanes generate
the Manifest key once they can look its branch up (R337). -/
def builtTable (s : State) : State := if s.tableBuilt then s else regenKeys (rebuildTable { s with tableBuilt := true })

/-! ### Structural work (R235, R238, R239, R255, R257, R258) -/

def invalidationRecord (s : State) (i : Nat) : Bytes :=
  match mget? s.branches i with
  | some b => le 2 i ++ [0, 0] ++ le 4 b.generation.toNat ++ le 8 s.ttc.toNat ++ slice b.label 0 32
  | none => zeros 48

/-- LABEL of a Station's Manifest key (R258). -/
def manifestLabel : Bytes := slice (ascii "XLX-MANIFEST") 0 32

/-- A DERIVE of the Manifest key of R258: SEAL_KEY then names it. -/
def namesManifestKey (s : State) (i : Nat) : Bool :=
  match mget? s.branches i with
  | some b => decide (s.mode = .commissioning ∧ b.kind = 2 ∧ b.label = manifestLabel) &&
      decide ((upwardBranch s).map (fun e => e.1) = some b.parent)
  | none => false

/-- A change of SEAL_KEY: the lanes generate its key (R337), and Manifests unsigned for want of a key are signed (R207). -/
def setSealKey (s : State) (v : Word) : State := signBacklog (regenKeys (sstStore s 3 (v.setWidth 64)))

/-- A pairing is installed: its Station slot, where it has one, and event 299 (R255 steps 3 to 6). -/
def installPairing (s : State) (p : BtrPending) : State :=
  match p.slot with
  | some (i, st) => raise { s with stations := mput s.stations i st } 299
  | none =>
    raiseIf (decide (p.op = 2) && p.waybill.isSome && ((mget? s.branches p.index).map (fun b => decide (b.kind = 6))).getD false)
      s 299

/-- A pairing is recorded on the decapsulating side (R257): an upward one gives the level and T_ID. -/
def recordPairing (s : State) (q : Pairing) : State :=
  let s := { s with pairings := q :: s.pairings }
  if q.standby then s else settleLevel (recordTerminus s q.tId)

/-- The effects of a structural command that come with its end. -/
def structuralEffects (s : State) (p : BtrPending) : State :=
  let s := installPairing s p
  let s := match p.pair with
    | some q => recordPairing s q
    | none => s
  let s := if p.op = 5 ∨ p.op = 8 then settleLevel s else s
  let s := if p.op = 1 ∧ namesManifestKey s p.index then setSealKey s (BitVec.ofNat 32 p.index ||| 0x80000000) else s
  if p.op = 4 then raise (appendRecord s 0x25 (invalidationRecord s p.index)) 288 else s

/-- A structural command ends. -/
def endStructural (s : State) (p : BtrPending) : State :=
  let s := structuralEffects { s with btr := none } p
  match p.waybill with
  | some (l, id) => completeService (writeAll s p.writes) l id 0 p.length []
  | none => if p.report then btrResult s 0 0 else s

/-- Branches affected by a change of branch `i`: itself and its descendants. -/
def affectedBy (s : State) (i j : Nat) : Bool := (pathUp s.branches 9 j).contains i

/-- A line-key derivation under a branch is under way (R238). -/
def derivesUnder (s : State) (i : Nat) : Bool :=
  s.lne.lines.any (fun e => e.2.flights.any (fun f => decide (f.phase = .keyWait)) &&
    ((ctx? s e.1).map (fun c => affectedBy s i c.parent.toNat)).getD false)

/-- The report of an INVALIDATE or a ROTATE waits for the derivations that it meets (R238). -/
def reportWaits (s : State) (p : BtrPending) : Bool := (decide (p.op = 4) || decide (p.op = 6)) && derivesUnder s p.index

/-- A structural command has taken effect in the table: its image is written before it ends, where one can be, and its report may
have to wait. -/
def structural (s : State) (p : BtrPending) (image : Bool) : State :=
  let p := { p with persist := image && canPersist s }
  if p.persist || reportWaits s p then { s with btr := some p } else endStructural s p

/-- A command of firmware. -/
def plainPending (op i : Nat) : BtrPending :=
  { op := op, index := i, waybill := none, report := true, length := 0, writes := [], slot := none, pair := none,
    persist := true, prior := none }

/-- Flush the key cache and the key stores (R235, R236, R337). -/
def flushBranch (s : State) (i : Nat) : State := clearLaneKeys (flushKeys s i) (fun j => affectedBy s i j)

def setBranch (s : State) (i : Nat) (f : Branch → Branch) : State := { s with branches := mmap? s.branches i f }

/-- Steps 1 and 2 of R235. -/
def markInvalid (s : State) (i : Nat) : State := flushBranch (setBranch s i (fun b => { b with state := .invalid })) i

end Sys2Proof.Machine
end

