-- ==== Sys2Proof/Machine/BtrRows.lean ====
section
/-! DEFINITION. The commands of the branch tree unit (R219 to R221, R226, R235 to R250, R259). -/

namespace Sys2Proof.Machine

/-! ### Commands (R250) -/

/-- The parameters as they stand when BTR_CMD is written. -/
def commandArgs (s : State) (m : Master) : BtrArgs :=
  { arg := getR s Reg.BTR_ARG, uses := getR s Reg.BTR_ARG2, mask := getR64 s Reg.BTR_MASK, buf := getR s Reg.BTR_BUF, master := m }

/-- A BTR_CMD write: ignored while a command is in progress, refused in the wrong mode. -/
def btrCommand (s : State) (m : Master) (modeOk : State → Bool) (f : State → BtrArgs → State) : State :=
  guardedWrite s m Reg.BTR_CMD (fun s =>
    if s.btr.isSome then orR s Reg.BTR_ERR 1
    else
      let s := clearR s Reg.BTR_RESULT 0x80000000
      if modeOk s then f (builtTable s) (commandArgs s m) else btrResult s 0x0A 7)

/-- A write of a reserved OP: it does nothing but what every BTR_CMD write does (R250). -/
def btrReserved (s : State) (m : Master) : State :=
  guardedWrite s m Reg.BTR_CMD (fun s =>
    if s.btr.isSome then orR s Reg.BTR_ERR 1 else clearR s Reg.BTR_RESULT 0x80000000)

def inCommissioning (s : State) : Bool := decide (s.mode = .commissioning)
def inRunning (s : State) : Bool := decide (s.mode = .running)

def argIndex (a : BtrArgs) : Nat := bitsOf a.arg 0 12
def argKind (a : BtrArgs) : Nat := bitsOf a.arg 12 3
def argParent (a : BtrArgs) : Nat := bitsOf a.arg 16 12
def argExpire (a : BtrArgs) : Bool := bit a.arg 28
def bufAddr (a : BtrArgs) : Nat := a.buf.toNat

/-- An access to the command buffer that fails ends the command: 0x0D on a seal fault (R24), else 0x05 (log entry 139). -/
def bufFails (r : Reach) : State := btrResult r.state (if r.outcome = .sealFault then 0x0D else 0x05) 0

/-- The bytes of the command buffer, read under the identity of the master that wrote BTR_CMD (R28; log entry 139). -/
def withBuf (s : State) (a : BtrArgs) (n : Nat) (f : State → Bytes → State) : State :=
  let r := reach s a.master .read (bufAddr a) n
  if r.outcome = .ok then f r.state (engineBytes r.state (bufAddr a) n) else bufFails r

/-- Write into the command buffer under the same identity, and go on. -/
def putBuf (s : State) (a : BtrArgs) (o : Nat) (b : Bytes) (f : State → State) : State :=
  let r := engineWrite s a.master (bufAddr a + o) b
  if r.outcome = .ok then f r.state else bufFails r

/-- A command on a branch whose entry it reads first (R223). -/
def withEntry (s : State) (i : Nat) (f : Nat → Branch → State) : State :=
  match mget? s.branches i with
  | none => btrResult s 0x06 13
  | some b => if privateBad s (.branch i) then btrResult (sealFault s spineTile) 0x0D 0 else f i b

/-- A refusal by the serial register's wear (R243). -/
def refuseWorn (s : State) (f : State → State) : State := if imageWorn s then btrResult s 0x07 11 else f s

/-! ### Creation (R226 to R228) -/

/-- The branch that a command's parameters describe. -/
def commandBranch (s : State) (a : BtrArgs) (parent : Nat) (label : Bytes) (key : Option Bytes) : Branch :=
  newBranch s parent (argKind a) label a.mask a.uses (argExpire a) key

/-- A creation that writes a table image, which the wear of the serial register refuses before it has any effect (R239, R243). -/
def creationWorn (s : State) (b : Branch) : Bool := imageWorn s && !b.expire

/-- Enter the branch and persist it, unless it expires at reset. -/
def enterBranch (s : State) (op i : Nat) (b : Branch) : State :=
  structural (createBranch s i b) (plainPending op i) (!b.expire)

def deriveCommand (s : State) (a : BtrArgs) : State :=
  withBuf s a 32 (fun s label =>
    let c := createCheck s (argIndex a) (argParent a) (argKind a) label false [a.master.toNat]
    let b := commandBranch s a (argParent a) label none
    if c.status ≠ 0 then btrResult (noteCheck s c) c.status c.reason
    else if creationWorn s b then btrResult s 0x07 11
    else enterBranch s 1 (argIndex a) b)

/-- BTR_DERIVE (R226). -/
def execBtrDerive (m : Master) (s : State) : Out := done (btrCommand s m inRunOrCommission deriveCommand)

/-- An encapsulation by command: the ciphertext is written behind the label (log entry 15). -/
def encapsCommand (peer : Bytes) (s : State) (a : BtrArgs) : State :=
  withBuf s a 1697 (fun s label =>
    let c := createCheck s (argIndex a) (argParent a) (argKind a) label true [a.master.toNat]
    if c.status ≠ 0 then btrResult (noteCheck s c) c.status c.reason
    else if creationWorn s (commandBranch s a (argParent a) label none) then btrResult s 0x07 11
    else if !publicOk peer then btrResult s 0x1B 0
    else if !entReady s || !anyLane s then btrResult s 0x0B 0
    else
      viaMae s (argIndex a) none (.command 2 a peer 0) (fun s =>
        let k := encapsKey (slice peer 0 1665) (drawBytes s 88) label (argKind a)
        putBuf (drawn s 88) a 32 k.2 (fun t => enterBranch t 2 (argIndex a) (commandBranch s a (argParent a) label (some k.1)))))

/-- INSTALL_ENCAPS (R227). -/
def execInstallEncaps (m : Master) (peer : Bytes) (s : State) : Out :=
  done (btrCommand s m inRunOrCommission (encapsCommand peer))

/-- A decapsulation by command: BTR_ARG.PARENT names the KEM-seed branch, and the new branch is a child of the Trunk (log
entry 15). -/
def decapsCommand (ct : Bytes) (s : State) (a : BtrArgs) : State :=
  withBuf s a 1697 (fun s label =>
    let c := createCheck s (argIndex a) 0 (argKind a) label true []
    let u := useCheck s (argParent a) (fun k => decide (k = 3)) [27, 26, a.master.toNat]
    if c.status ≠ 0 then btrResult (noteCheck s c) c.status c.reason
    else if u.status ≠ 0 then btrResult (noteCheck s u) u.status u.reason
    else if creationWorn s (commandBranch s a 0 label none) then btrResult s 0x07 11
    else if !anyLane s then btrResult s 0x0B 0
    else
      viaMae s (argIndex a) none (.command 3 a ct (argParent a)) (fun s =>
        let k := decapsKey (branchKey s (argParent a)) (slice ct 0 1665) label (argKind a)
        enterBranch (useBranch s (argParent a)) 3 (argIndex a) (commandBranch s a 0 label (some k))))

/-- INSTALL_DECAPS (R228). -/
def execInstallDecaps (m : Master) (ct : Bytes) (s : State) : Out :=
  done (btrCommand s m inRunOrCommission (decapsCommand ct))

/-! ### INVALIDATE, PURGE, ROTATE (R235 to R237) -/

def invalidateCommand (s : State) (a : BtrArgs) : State :=
  withEntry s (argIndex a) (fun i b =>
    if b.state = .invalid then btrResult s 0 0 else structural (markInvalid s i) (plainPending 4 i) true)

/-- INVALIDATE (R235): accepted in every mode with main power. -/
def execInvalidate (m : Master) (s : State) : Out := done (btrCommand s m (fun _ => true) invalidateCommand)

def hasChildren (s : State) (i : Nat) : Bool := s.branches.any (fun e => decide (e.2.parent = i))

def purgeCommand (s : State) (a : BtrArgs) : State :=
  withEntry s (argIndex a) (fun i b =>
    if b.state ≠ .invalid then btrResult s 0x06 14
    else if hasChildren s i ∨ b.lines ≠ 0 then btrResult s 0x08 6
    else refuseWorn s (fun s =>
      structural { s with branches := mdel s.branches i } { plainPending 5 i with prior := some b } true))

/-- PURGE (R237). -/
def execPurge (m : Master) (s : State) : Out := done (btrCommand s m inRunOrCommission purgeCommand)

def rotateCommand (s : State) (a : BtrArgs) : State :=
  withEntry s (argIndex a) (fun i b =>
    if b.state ≠ .valid then btrResult s 0x06 1
    else if b.installed ∨ b.kind = 6 then btrResult s 0x06 12
    else refuseWorn s (fun s =>
      structural (setBranch (flushBranch s i) i (fun b => { b with generation := b.generation + 1 }))
        { plainPending 6 i with prior := some b } true))

/-- ROTATE (R236). -/
def execRotate (m : Master) (s : State) : Out := done (btrCommand s m inRunOrCommission rotateCommand)

/-! ### The Trunk (R219, R221) -/

/-- Put a Trunk into the vigil cells (R219). -/
def putTrunk (s : State) (k : Bytes) : State :=
  tailDue (raise (sealPrivate { s with vigil := { s.vigil with trunk := .valid, trunkKey := k }, keyCache := [] } .trunk) 291)

def trunkCreate (s : State) (_ : BtrArgs) : State :=
  if s.vigil.trunk = .valid then btrResult s 0x06 8
  else if !entReady s then btrResult s 0x0B 0
  else refuseWorn s (fun s => { s with btr := some (plainPending 8 0) })

/-- What a structural command puts in force before its image is written: TRUNK_CREATE draws the Trunk (R219). -/
def beforeImage (s : State) (p : BtrPending) : State :=
  if p.op = 8 then putTrunk (drawn { s with branches := [] } 32) (drawBytes s 32) else s

/-- TRUNK_CREATE (R219). -/
def execTrunkCreate (m : Master) (s : State) : Out := done (btrCommand s m inCommissioning trunkCreate)

/-- TRUNK_ZEROISE (R221). -/
def execTrunkZeroise (m : Master) (s : State) : Out :=
  done (btrCommand s m inCommissioning (fun s _ => btrResult (loseTrunk s) 0 0))

/-! ### Backup and import (R246 to R248) -/

def wrapTrunk : Bytes := ascii "XLX trunk wrap"
def sealTrunk : Bytes := ascii "XLX trunk seal"

/-- The blob of the Trunk under Seal branch `sb` of pairing branch `p` (R246). -/
def backupBlob (s : State) (key : Bytes) (sb p : Branch) (nonce : Bytes) : Bytes :=
  let head := [1, 1, 0, 0] ++ le 4 sb.generation.toNat ++ identity s ++ slice p.label 0 32 ++ slice sb.label 0 32 ++
    le 8 s.ttc.toNat ++ trunkCheckNow s ++ nonce ++
    xorBytes s.vigil.trunkKey (kmacXof256 key (nonce ++ identity s) 32 wrapTrunk)
  head ++ kmac256 key head 32 sealTrunk

def backupCommand (s : State) (a : BtrArgs) : State :=
  let i := argIndex a
  let u := useCheck s i (fun k => decide (k = 5)) [a.master.toNat]
  let u := if u.status = 0 ∧ privateBad s .trunk then Check.sealFault else u
  if u.status ≠ 0 then btrResult (noteCheck s u) u.status u.reason
  else if !entReady s then btrResult s 0x0B 0
  else
    match mget? s.branches i with
    | some b =>
      match mget? s.branches b.parent with
      | some p =>
        putBuf (cachePath (drawn s 16) i) a 0 (backupBlob s (branchKey s i) b p (drawBytes s 16)) (fun s => btrResult s 0 0)
      | none => btrResult s 0x06 1
    | none => btrResult s 0x06 13

/-- BACKUP (R246). -/
def execBackup (m : Master) (s : State) : Out := done (btrCommand s m inRunOrCommission backupCommand)

/-- The held rescue pair's public block; the seed is d ‖ z and a 56-byte scalar seed. -/
def rescuePublic (seed : Bytes) : Bytes := publicBlock (slice seed 0 64) (scalarOf (slice seed 64 56))

def rescueMsg (pub id : Bytes) : Bytes := ascii "XLX rescue" ++ sha3_256 pub ++ id

def rescueCommand (s : State) (a : BtrArgs) : State :=
  if s.vigil.trunk = .valid then btrResult s 0x06 8
  else if !hasPlate s then btrResult s 0x06 10
  else if !entReady s ∨ !anyLane s then btrResult s 0x0B 0
  else
    viaMae s 0 none (.command 11 a [] 0) (fun s =>
      let seed := drawBytes s 120
      let s := drawn { s with rescueSeed := seed } 120
      let pub := rescuePublic seed
      let r := signBy s 4095 (rescueMsg pub (identity s))
      putBuf r.state a 0 (pub ++ platePublic s ++ r.sig) (fun s => btrResult s 0 0))

/-- RESCUE (R247). -/
def execRescue (m : Master) (s : State) : Out := done (btrCommand s m inCommissioning rescueCommand)

/-- The key of a Station's escrow (R256). -/
def escrowMask (trunk label : Bytes) (station : Nat) : Bytes :=
  kmacXof256 (kmac256 trunk (ascii "reg") 32 (ascii "XLX station register")) (le 2 station ++ slice label 0 32) 32
    (ascii "XLX pair escrow")

/-- The pairing key behind a PAIR_LABEL: a VALID command-pairing branch, or a Station's escrow. -/
inductive PairKey where
  | none
  | branch (i : Nat) (key : Bytes)
  | escrow (key : Bytes)
  /-- the escrow was wrapped under another Trunk (R256) -/
  | unreadable
  deriving DecidableEq, Repr

def pairKey (s : State) (label : Bytes) : PairKey :=
  match s.branches.find? (fun e => decide (e.2.kind = 6 ∧ e.2.label = label) && chainValid s e.1) with
  | some (i, _) => .branch i (branchKey s i)
  | none =>
    match s.stations.find? (fun e => decide (e.2.state ≠ .free ∧ e.2.label = label)) with
    | some (i, st) =>
      if st.escrowCheck = trunkCheckNow s then .escrow (xorBytes st.escrow (escrowMask s.vigil.trunkKey label i))
      else .unreadable
    | none => .none

/-- The release block for a rescue public block (R248). -/
def releaseBlock (ks pub id rnd : Bytes) : Bytes :=
  let e := encapsulate pub rnd
  let kx := hybridKey e.2.1 e.2.2 pub e.1 id (ascii "XLX release")
  let head := e.1 ++ slice rnd 88 16 ++ xorBytes ks (kmacXof256 kx (slice rnd 88 16) 32 wrapTrunk)
  head ++ kmac256 kx head 32 sealTrunk

/-- Release K_S once the pairing key is at hand. The release block goes to BTR_BUF+184, behind the blob (DESIGN CHOICE, log
entry 158). -/
def releaseWith (s : State) (a : BtrArgs) (kp blob pub : Bytes) : State :=
  let ks := childKey kp (slice blob 56 32) 5 (BitVec.ofNat 32 (num blob 4 4))
  if kmac256 ks (slice blob 0 152) 32 sealTrunk ≠ slice blob 152 32 then btrResult s 0x06 9
  else if !publicOk pub then btrResult s 0x1B 0
  else if !entReady s then btrResult s 0x0B 0
  else putBuf (drawn s 104) a 184 (releaseBlock ks pub (slice blob 8 16) (drawBytes s 104)) (fun s => btrResult s 0 0)

/-- Release with a pairing branch: its use is checked for the requesting core, and the derivation of K_S charges it (R233,
R247). -/
def releaseBranch (s : State) (a : BtrArgs) (i : Nat) (kp blob pub : Bytes) : State :=
  let u := useCheck s i (fun k => decide (k = 6)) [a.master.toNat]
  if u.status ≠ 0 then btrResult (noteCheck s u) u.status u.reason else releaseWith (useBranch s i) a kp blob pub

/-- The part of RELEASE that follows the signature check (R247). -/
def releaseSigned (s : State) (a : BtrArgs) (blob pub : Bytes) : State :=
  match pairKey s (slice blob 24 32) with
  | .none => btrResult s 0x06 1
  | .unreadable => btrResult s 0x06 1
  | .escrow k => releaseWith s a k blob pub
  | .branch i k => releaseBranch s a i k blob pub

def releaseCommand (s : State) (a : BtrArgs) : State :=
  withBuf s a 4922 (fun s b =>
    let blob := slice b 0 184
    let pub := slice b 184 1665
    let plate := slice b 1849 1793
    if (sha3_256 plate).take 16 ≠ slice blob 8 16 then btrResult s 0x06 10
    else if !anyLane s then btrResult s 0x0B 0
    else if !falconVerify plate (rescueMsg pub (slice blob 8 16)) (slice b 3642 1280) then btrResult (countVerify s) 0x06 9
    else viaMae s 0 none (.command 12 a [] 0) (fun s => releaseSigned (countVerify s) a blob pub))

/-- RELEASE (R247). -/
def execRelease (m : Master) (s : State) : Out := done (btrCommand s m inRunning releaseCommand)

/-- The checks and the effect of IMPORT on what its buffer holds (R247). -/
def importFrom (s : State) (b : Bytes) : State :=
  let blob := slice b 0 184
  let rel := slice b 184 1745
  let pub := rescuePublic s.rescueSeed
  let k := scalarOf (slice s.rescueSeed 64 56)
  let d := decapsulate (slice s.rescueSeed 0 64) k (slice rel 0 1665) (zeros 48)
  let kx := hybridKey d.1 d.2 pub (slice rel 0 1665) (slice blob 8 16) (ascii "XLX release")
  let ks := xorBytes (slice rel 1681 32) (kmacXof256 kx (slice rel 1665 16) 32 wrapTrunk)
  let trunk := xorBytes (slice blob 120 32) (kmacXof256 ks (slice blob 104 16 ++ slice blob 8 16) 32 wrapTrunk)
  if s.rescueSeed.isEmpty then btrResult s 0x06 9
  else if kmac256 kx (slice rel 0 1713) 32 sealTrunk ≠ slice rel 1713 32 then btrResult s 0x06 9
  else if kmac256 ks (slice blob 0 152) 32 sealTrunk ≠ slice blob 152 32 then btrResult s 0x06 9
  else if !hasPlate s ∨ slice blob 8 16 ≠ identity s then btrResult s 0x06 10
  else if trunkCheck trunk ≠ slice blob 96 8 then btrResult s 0x06 9
  else btrResult (rebuildTable (putTrunk s trunk)) 0 0

def importCommand (s : State) (a : BtrArgs) : State :=
  if s.vigil.trunk = .valid then btrResult s 0x06 8
  else if !anyLane s then btrResult s 0x0B 0
  else withBuf s a 1929 (fun s b => viaMae s 0 none (.command 13 a [] 0) (fun s => importFrom s b))

/-- IMPORT (R247). -/
def execBtrImport (m : Master) (s : State) : Out := done (btrCommand s m inCommissioning importCommand)

/-! ### Ends (R239, R242) -/

/-- The command in progress ends, once no derivation or request that it waits for is under way (R238, R328). -/
def finishCommand (s : State) (p : BtrPending) : State :=
  if reportWaits s p || s.mae.request.isSome then s
  else if p.persist then endStructural (commitImage (beforeImage s p)) p
  else endStructural s p

/-- BTR_COMMAND_DONE (R238, R239): the image is written and verified, and the serial advances. -/
def execBtrCommandDone (s : State) : Out :=
  match s.btr with
  | none => .next s
  | some p => done (if mainPower s then finishCommand s p else s)

/-- TABLE_REBUILD_DONE (R242). -/
def execTableRebuildDone (s : State) : Out :=
  done (if mainPower s then builtTable s else s)

/-! ### Retiring a Station slot (R259) -/

def isSignalbox (m : Master) : Bool := decide (1 ≤ m.toNat ∧ m.toNat ≤ 16) && decide (2 ≤ (m.toNat - 1) % 4)

def retirementRecord (i : Nat) (st : Station) : Bytes :=
  le 2 i ++ zeros 6 ++ le 8 st.epoch ++ slice st.digest 0 32 ++ slice st.label 0 32

/-- The slot's kept pairing branch, while it is still that of the slot's LABEL and VALID. -/
def keptPairing (s : State) (st : Station) : Bool :=
  match mget? s.branches st.branch with
  | some b => decide (b.kind = 6 ∧ b.label = st.label ∧ b.state = .valid)
  | none => false

/-- The kept pairing branch of a retired slot is invalidated. -/
def dropPairing (s : State) (st : Station) : State :=
  if keptPairing s st then
    structural (markInvalid s st.branch) { plainPending 4 st.branch with report := false } true
  else s

def retireSlot (s : State) (i : Nat) (st : Station) : State :=
  dropPairing (appendRecord { s with stations := mdel s.stations i } 0x22 (retirementRecord i st)) st

/-- RETIRE (R259): a command of the Terminus firmware, in Commissioning. -/
def execRetire (m : Master) (slot : BitVec 12) (s : State) : Out :=
  match mget? s.stations slot.toNat with
  | some st =>
    done (if s.mode = .commissioning ∧ isTerminus s ∧ isSignalbox m ∧ s.btr.isNone then retireSlot s slot.toNat st else s)
  | none => .next s

end Sys2Proof.Machine
end

