-- ==== Sys2Proof/Machine/Service.lean ====
section
/-! DEFINITION. The service waybills that firmware runs with the crypto engines and the branch tree (R130 to R133, R191, R203,
R209, R227, R228, R251 to R270, R282 to R284, R288, R573). -/

namespace Sys2Proof.Machine

/-! ### Replies -/

/-- Answer a waybill of a line. -/
def reply (l id : Nat) (r : Reply) : State := completeService (writeAll r.state r.writes) l id r.status r.length r.result

/-- Run a service waybill at a position of its line, unless it has to wait. -/
def runUnless (s : State) (line : BitVec 19) (pos op : Nat) (wait : Flight → Bool) (f : State → Flight → Reply) : State :=
  match flightAt s line.toNat pos op with
  | some g => if wait g then s else reply line.toNat g.id (f s g)
  | none => s

/-- Run a service waybill at a position of its line. -/
def runService (s : State) (line : BitVec 19) (pos op : Nat) (f : State → Flight → Reply) : State :=
  runUnless s line pos op (fun _ => false) f

/-! ### SIGN (R130, R203, R233, R340) -/

/-- The branch check of a SIGN: the Manifest key signs nothing for a waybill (R203, R233). -/
def signCheck (s : State) (raw : Bytes) : Check :=
  let i := num raw 4 2 % 4096
  if keyValid s ∧ i = keyBranch s then { status := 0x06, reason := 3 }
  else useCheck s i (fun k => decide (k = 2)) [27]

/-- The LSU takes no further job: no lane for it, or a full descriptor queue (R335, R342). -/
def lsuBusy (s : State) : Bool := !anyLane s || decide (32 ≤ s.descQueue.length)

/-- A waybill's SIGN message as the lane signs it. -/
def signReply (s : State) (raw msg : Bytes) : Reply :=
  let i := num raw 4 2 % 4096
  let u := signCheck s raw
  if u.status ≠ 0 then refuse (noteCheck s u) u.status
  else if !entReady s ∨ lsuBusy s then refuse s 0x0B
  else
    let m := slice msg 0 (wf64 raw 16)
    let r := signBy (useBranch s i) i m
    output r.state (wf64 raw 24) r.sig []

/-- SIGN (R130): its branch is looked up once the table is rebuilt (R242), and it waits for a free lane (R333). -/
def execSign (line : BitVec 19) (pos : Nat) (msg : Bytes) (s : State) : Out :=
  done (runUnless s line pos 0x20 (fun _ => !s.tableBuilt || lanesBusy s) (fun s f => signReply s f.raw msg))

/-! ### VERIFY_SIG (R131) -/

/-- MGF1 with SHA3-256. -/
def mgf1 (seed : Bytes) (n : Nat) : Bytes :=
  ((List.range ((n + 31) / 32)).flatMap (fun i => sha3_256 (seed ++ be 4 i))).take n

/-- RSASSA-PSS over a 32-byte digest, 32-byte salt (RFC 8017). -/
def pssOk (em d : Bytes) (bits : Nat) : Bool :=
  let len := em.length
  let h := slice em (len - 33) 32
  let db := List.zipWith (· ^^^ ·) (em.take (len - 33)) (mgf1 h (len - 33))
  let db := (db.take 1).map (fun b => b &&& BitVec.ofNat 8 (255 / 2 ^ (8 * len - bits))) ++ db.drop 1
  let ps := len - 66
  decide (66 ≤ len) && decide (em.getLast? = some 0xBC) && decide (byteAt em 0 / 2 ^ (8 - (8 * len - bits)) = 0) &&
    allZero (db.take ps) && decide (byteAt db ps = 1) && decide (sha3_256 (zeros 8 ++ d ++ slice db (ps + 1) 32) = h)

/-- DER prefix of a SHA3-256 DigestInfo. -/
def digestInfo : Bytes :=
  [0x30, 0x31, 0x30, 0x0d, 0x06, 0x09, 0x60, 0x86, 0x48, 0x01, 0x65, 0x03, 0x04, 0x02, 0x08, 0x05, 0x00, 0x04, 0x20]

def pkcs1Block (len : Nat) (d : Bytes) : Bytes :=
  [0x00, 0x01] ++ List.replicate (len - 3 - 51) 0xFF ++ [0x00] ++ digestInfo ++ d

/-- An RSA verification; none for a malformed key. -/
def rsaVerify (pss : Bool) (key sig d : Bytes) : Option Bool :=
  let len := key.length - 4
  let n := ofBe (key.take len)
  let e := ofBe (key.drop len)
  let bits := n.log2 + 1
  if key.length < 5 ∨ bits < 2048 ∨ 4096 < bits ∨ sig.length ≠ len then none
  else
    let v := powMod (ofBe sig) e n
    let emLen := (bits + 6) / 8
    let shape := decide (v < 2 ^ (8 * emLen)) && pssOk (be emLen v) d (bits - 1)
    some (decide (ofBe sig < n) && (if pss then shape else decide (be len v = pkcs1Block len d)))

/-- An ECDSA verification; none for a malformed key or signature length. -/
def ecVerify (c : Curve) (key sig d : Bytes) : Option Bool :=
  if key.length ≠ 2 * c.len + 1 ∨ sig.length ≠ 2 * c.len ∨ (decodePoint c key).isNone then none
  else some (ecdsaVerify c (decodePoint c key) (digestNum c d) (ofBe (sig.take c.len)) (ofBe (sig.drop c.len)))

/-- The verdict of a supported algorithm; none is KEY_MALFORMED. -/
def verdict (alg : Nat) (pre : Bool) (key sig msg : Bytes) : Option Bool :=
  match alg with
  | 0 =>
    if !falconKeyOk key ∨ sig.length ≠ 1280 then none else some (falconVerify key msg sig)
  | 1 => ecVerify p256 key sig (if pre then msg else sha3_256 msg)
  | 2 => ecVerify p384 key sig (if pre then msg else sha3_384 msg)
  | 3 => ecVerify p521 key sig (if pre then msg else sha3_512 msg)
  | 4 => if key.length ≠ 32 ∨ sig.length ≠ 64 then none else ed25519Verify key sig msg
  | 5 => rsaVerify true key sig (if pre then msg else sha3_256 msg)
  | _ => rsaVerify false key sig (if pre then msg else sha3_256 msg)

def verifyReply (s : State) (raw msg keysig : Bytes) : Reply :=
  let alg := byteAt raw 4 % 16
  let kl := num keysig 0 2
  let sl := num keysig 2 2
  if alg = 0 ∧ lsuBusy s then refuse s 0x0B
  else
    let s := if alg = 0 then countVerify s else s
    match verdict alg (decide (byteAt raw 3 % 2 = 1)) (slice keysig 4 kl) (slice keysig (4 + kl) sl)
        (slice msg 0 (wf64 raw 16)) with
    | none => refuse s 0x1B
    | some true => refuse s 0
    | some false => refuse s 0x10

/-- VERIFY_SIG (R131); a Falcon verification waits for a free lane (R333). -/
def execVerifySig (line : BitVec 19) (pos : Nat) (msg keysig : Bytes) (s : State) : Out :=
  done (runUnless s line pos 0x21 (fun f => decide (byteAt f.raw 4 % 16 = 0) && lanesBusy s)
    (fun s f => verifyReply s f.raw msg keysig))

/-! ### Branches by waybill (R132, R226 to R228, R253 to R258) -/

def wbTarget (raw : Bytes) : Nat := num raw 4 2 % 4096
def wbKind (raw : Bytes) : Nat := byteAt raw 5 / 16
def wbParent (raw : Bytes) : Nat := num raw 6 2 % 4096
def wbMask (raw : Bytes) : DWord := num64 raw 24
def wbLabel (raw : Bytes) : Bytes := slice raw 32 32

def wbBranch (s : State) (raw : Bytes) (expire : Bool) (key : Option Bytes) : Branch :=
  newBranch s (wbParent raw) (wbKind raw) (wbLabel raw) (wbMask raw) defaultUses expire key

/-- The layout of a kind-6 LABEL (R253). -/
def labelOk (b : Bytes) : Bool :=
  decide (b.take 8 = ascii "XLX-PAIR") && decide (num b 8 2 < 4096) && decide (1 ≤ byteAt b 10 ∧ byteAt b 10 ≤ 2) &&
    decide (1 ≤ purposeOf b ∧ purposeOf b ≤ 3) && allZero (slice b 12 4) &&
    (decide (purposeOf b ≠ 3) || decide (num b 8 2 = 0 ∧ byteAt b 10 = 1))

/-- The Terminus side of a pairing (R253, R254). -/
def pairingCheck (s : State) (label : Bytes) : Nat :=
  if !labelOk label then 0x06
  else if !isTerminus s then 0x06
  else if slice label 16 16 ≠ identity s ∨ byteAt label 10 ≠ level s then 0x06
  else if 2 < level s ∨ (purposeOf label = 3 ∧ level s ≠ 1) then 0x06
  else if purposeOf label ≠ 3 ∧ (mget? s.stations (num label 8 2)).isSome then 0x13
  else 0

/-- The slot a pairing sets (R255, R256). -/
def pairedSlot (s : State) (raw pub ct kp : Bytes) : Station :=
  let label := wbLabel raw
  { state := .paired, pubKey := slice (falconPublic (falconSeed (childKey kp manifestLabel 2 0))) 0 1793, label := label,
    pubDigest := sha3_256 pub, ctDigest := sha3_256 ct,
    escrow := xorBytes kp (escrowMask s.vigil.trunkKey label (num label 8 2)), escrowCheck := trunkCheckNow s,
    branch := if purposeOf label = 2 then wbTarget raw else 0, format := 0, sId := [], digest := [], epoch := 0,
    lastRelay := 0, relays := [], stale := false, moved := false, snapEpoch := 0, snapId := [], snapDigest := [] }

/-- A structural command that serves a waybill. -/
def wbPending (op l id i length : Nat) (w : List (DWord × Bytes)) : BtrPending :=
  { op := op, index := i, waybill := some (l, id), report := false, length := length, writes := w, slot := none, pair := none,
    persist := false, prior := none }

/-- The branch tree unit carries out structural work one at a time (R238), and none before the table is rebuilt (R242). -/
def structuralWaybill (s : State) (line : BitVec 19) (pos op : Nat) (f : State → Flight → State) : State :=
  match flightAt s line.toNat pos op with
  | some g => if s.btr.isSome || !s.tableBuilt then s else f s g
  | none => s

def endWith (s : State) (l id status : Nat) : State := completeService s l id status 0 []

/-- Install an encapsulated branch for waybill `f`. -/
def encapsInstall (s : State) (l : Nat) (f : Flight) (pub : Bytes) : State :=
  let raw := f.raw
  let label := wbLabel raw
  let k := encapsKey pub (drawBytes s 88) label (wbKind raw)
  let pairing := decide (wbKind raw = 6)
  let enrol := pairing && decide (purposeOf label ≠ 3)
  let p := { wbPending 2 l f.id (wbTarget raw) 1665 [(num64 raw 16, k.2)] with
    slot := if enrol then some (num label 8 2, pairedSlot s raw pub k.2 k.1) else none }
  let s := drawn s 88
  let b := wbBranch s raw false (some k.1)
  let t := createBranch s (wbTarget raw) b
  if pairing ∧ purposeOf label = 1 then structural { t with branches := mdel t.branches (wbTarget raw) } p false
  else structural t p (!b.expire)

/-- The branch checks of a KEM_ENCAPS: those of a pairing, then those of the new branch. -/
def encapsCheck (s : State) (raw : Bytes) : Check :=
  let p := if wbKind raw = 6 then pairingCheck s (wbLabel raw) else 0
  if p ≠ 0 then { status := p, reason := 0 }
  else createCheck s (wbTarget raw) (wbParent raw) (wbKind raw) (wbLabel raw) true []

/-- A creation that writes a table image, which the wear of the serial register refuses (R239, R243): a branch that expires at
reset, also by its parent, and a pairing of PURPOSE 1 write none. -/
def wornRefuses (s : State) (raw : Bytes) : Bool :=
  let expires := ((mget? s.branches (wbParent raw)).map (fun b => b.expire)).getD false
  imageWorn s && !expires &&
    (match byteAt raw 2 with
     | 0x22 => !(decide (wbKind raw = 6) && decide (purposeOf (wbLabel raw) = 1))
     | 0x23 => true
     | 0x24 => decide (byteAt raw 16 % 2 = 0)
     | _ => false)

/-- KEM_ENCAPS behind its admission: the branch checks, a worn image, the public block, then entropy and lanes. That order is the
model's choice (log entry 137). -/
def encapsWaybill (peer : Bytes) (s : State) (l : Nat) (f : Flight) : State :=
  let raw := f.raw
  let c := encapsCheck s raw
  let pub := slice peer 0 1665
  if c.status ≠ 0 then endWith (noteCheck s c) l f.id c.status
  else if wornRefuses s raw then endWith s l f.id 0x07
  else if !publicOk pub then endWith s l f.id 0x1B
  else if !entReady s || !anyLane s then endWith s l f.id 0x0B
  else viaMae s (wbTarget raw) (some (l, f.id)) (.waybill l f.id 2 peer 0) (fun s => encapsInstall s l f pub)

/-- KEM_ENCAPS (R227, R255). The order of its checks is the model's (log entry 137). -/
def execKemEncaps (line : BitVec 19) (pos : Nat) (peer : Bytes) (s : State) : Out :=
  done (structuralWaybill s line pos 0x22 (fun s f => encapsWaybill peer s line.toNat f))

/-- Some command-pairing branch of the table has a PURPOSE that the test picks. -/
def pairedFor (s : State) (f : Nat → Bool) : Bool := s.branches.any (fun e => decide (e.2.kind = 6) && f (purposeOf e.2.label))

/-- The Station side of a pairing (R253, R257). -/
def upwardCheck (s : State) (label : Bytes) : Nat :=
  let t := byteAt label 10
  if s.mode ≠ .commissioning then 0x0A
  else if !labelOk label then 0x06
  else if purposeOf label = 3 then
    (if role s = 2 ∧ level s = 1 ∧ t = 1 ∧ !pairedFor s (fun p => decide (p = 3)) then 0 else 0x06)
  else if (role s = 1 ∨ (role s = 3 ∧ t = 1)) ∧ (t = 1 ∨ t = 2) ∧ !pairedFor s (fun p => decide (p = 1) || decide (p = 2)) then 0
  else 0x06

/-- Bytes 16 and 17 name the KEM-seed branch. -/
def wbKemBranch (raw : Bytes) : Nat := num raw 16 2 % 4096

/-- The pairing that a decapsulation of kind 6 records (R257). -/
def newPairing (raw pub ct : Bytes) : Option Pairing :=
  if wbKind raw = 6 then
    some { tId := slice (wbLabel raw) 16 16, pubDigest := sha3_256 pub, ctDigest := sha3_256 ct,
           standby := decide (purposeOf (wbLabel raw) = 3), label := slice (wbLabel raw) 0 32 }
  else none

def decapsInstall (s : State) (l : Nat) (f : Flight) (ct : Bytes) : State :=
  let raw := f.raw
  let key := branchKey s (wbKemBranch raw)
  let k := decapsKey key ct (wbLabel raw) (wbKind raw)
  let p := { wbPending 3 l f.id (wbTarget raw) 0 [] with pair := newPairing raw (kemPublicBlock key) ct }
  let s := useBranch s (wbKemBranch raw)
  let b := wbBranch s raw false (some k)
  structural (createBranch s (wbTarget raw) b) p (!b.expire)

/-- The branch checks of a KEM_DECAPS: those of a pairing, those of the new branch, then those of the key branch (log entry
137). -/
def decapsCheck (s : State) (raw : Bytes) : Check :=
  let p := if wbKind raw = 6 then upwardCheck s (wbLabel raw) else 0
  let c := createCheck s (wbTarget raw) (wbParent raw) (wbKind raw) (wbLabel raw) true []
  if p ≠ 0 then { status := p, reason := 0 }
  else if c.status ≠ 0 then c
  else useCheck s (wbKemBranch raw) (fun k => decide (k = 3)) [27, 26]

def decapsWaybill (ct : Bytes) (s : State) (l : Nat) (f : Flight) : State :=
  let raw := f.raw
  let c := decapsCheck s raw
  if c.status ≠ 0 then endWith (noteCheck s c) l f.id c.status
  else if wornRefuses s raw then endWith s l f.id 0x07
  else if !anyLane s then endWith s l f.id 0x0B
  else
    viaMae s (wbTarget raw) (some (l, f.id)) (.waybill l f.id 3 ct (wbKemBranch raw)) (fun s =>
      decapsInstall s l f (slice ct 0 1665))

/-- KEM_DECAPS (R228, R257). -/
def execKemDecaps (line : BitVec 19) (pos : Nat) (ct : Bytes) (s : State) : Out :=
  done (structuralWaybill s line pos 0x23 (fun s f => decapsWaybill ct s line.toNat f))

/-- The public key that a DERIVE puts out (R132). -/
def derivedPublic (kind : Nat) (k : Bytes) : Bytes :=
  if kind = 2 then slice (falconPublic (falconSeed k)) 0 1793
  else if kind = 3 then slice (kemPublicBlock k) 0 1665
  else []

def deriveInstall (s : State) (l : Nat) (f : Flight) : State :=
  let raw := f.raw
  let b := wbBranch s raw (decide (byteAt raw 16 % 2 = 1)) none
  let k := childKey (branchKey s (wbParent raw)) b.label (wbKind raw) 0
  let pub := if wf64 raw 8 = 0 then [] else derivedPublic (wbKind raw) k
  let p := wbPending 1 l f.id (wbTarget raw) pub.length (if pub.isEmpty then [] else [(num64 raw 8, pub)])
  let t := createBranch s (wbTarget raw) b
  structural (if pub.isEmpty then t else cachePath t (wbTarget raw)) p (!b.expire)

/-- A DERIVE that puts out a public key: a lane generates it (R333), with the MAE for the P-384 half of a KEM seed (R328). -/
def derivesPublic (raw : Bytes) : Bool := (decide (wbKind raw = 2) || decide (wbKind raw = 3)) && decide (wf64 raw 8 ≠ 0)

def deriveWaybill (s : State) (l : Nat) (f : Flight) : State :=
  let raw := f.raw
  let c := createCheck s (wbTarget raw) (wbParent raw) (wbKind raw) (wbLabel raw) false []
  if c.status ≠ 0 then endWith (noteCheck s c) l f.id c.status
  else if wornRefuses s raw then endWith s l f.id 0x07
  else if derivesPublic raw && !anyLane s then endWith s l f.id 0x0B
  else if derivesPublic raw && lanesBusy s then s
  else if derivesPublic raw && decide (wbKind raw = 3) then
    viaMae s (wbTarget raw) (some (l, f.id)) (.waybill l f.id 1 [] 0) (fun s => deriveInstall s l f)
  else deriveInstall s l f

/-- DERIVE (R132, R226). -/
def execDerive (line : BitVec 19) (pos : Nat) (s : State) : Out :=
  done (structuralWaybill s line pos 0x24 (fun s f => deriveWaybill s line.toNat f))

/-! ### PROVE (R208, R209) -/

/-- The 816-byte proof. -/
def proof (t : Tree) (l : Nat) : Bytes :=
  let f := mget? t.leaves l
  let seq := (f.map (fun x => x.seq.toNat)).getD 0
  let head := (f.map (fun x => x.head)).getD (zeros 32)
  [0x01, if f.isNone then 1 else 0] ++ le 2 19 ++ le 4 l ++ le 8 seq ++ slice head 0 32 ++
    (match f with
     | some _ => leafHash l seq head
     | none => emptyLeaf) ++ (siblings 19 l (leafValues t.leaves)).flatten ++ slice t.header 0 128

/-- PROVE's answer; an epoch outside the window comes before a short buffer (DESIGN CHOICE, log entry 158). -/
def proveReply (s : State) (raw : Bytes) : Reply :=
  match s.su.window.find? (fun t => decide (t.epoch = wf64 raw 8)) with
  | none => refuse s 0x11
  | some t =>
    if wf64 raw 24 < 816 then refuse s 0x12
    else if privateBad s .treeStore then refuse (treeFault s) 0x0D
    else output s (wf64 raw 16) (proof t (num raw 4 4 % 524288)) (slice t.header 48 32)

/-- PROVE (R209); it waits out a rebuild of the tree (log entry 16). -/
def execProve (line : BitVec 19) (pos : Nat) (s : State) : Out :=
  done (runUnless s line pos 0x25 (fun _ => s.su.rebuilding) (fun s f => proveReply s f.raw))

/-! ### MANIFEST_READ (R206, R573) -/

/-- The Manifests a read returns. -/
def manifestsFrom (s : State) (first count : Nat) : List Bytes :=
  let m := manifests s
  let l := if first = 2 ^ 64 - 1 then m.drop (m.length - count)
           else (m.dropWhile (fun b => !decide (manifestEpoch b = first))).take count
  l.map (signedCopy s)

def manifestReply (s : State) (raw : Bytes) : Reply :=
  let l := manifestsFrom s (wf64 raw 8) (num raw 4 4)
  match l.getLast? with
  | none => refuse s 0x11
  | some b => output s (wf64 raw 16) l.flatten (sha3_256 (b.take 128))

/-- MANIFEST_READ (R573). -/
def execManifestRead (line : BitVec 19) (pos : Nat) (s : State) : Out :=
  done (runService s line pos 0x26 (fun s f => manifestReply s f.raw))

/-! ### LOG_EXPORT (R282 to R284) -/

/-- Answer a LOG_EXPORT of a line; its mark rises when the completion is written. -/
def answerExport (s : State) (l : Nat) (f : Flight) (bad : List Nat) : State :=
  let r := exportReply s f.raw bad
  reply l f.id { r with state := updFlight r.state l f.id (fun g => { g with advance := advanceOf f.raw r }) }

/-- LOG_EXPORT (R284), in its turn; `bad` are the serials whose codewords cannot be corrected or rebuilt (R281). -/
def execLogExport (line : BitVec 19) (pos : Reading Nat) (s : State) : Out :=
  match flightAt s line.toNat pos.value 0x27 with
  | some f => done (if exportTurn s f.id then answerExport s line.toNat f pos.bad else s)
  | none => .next s

/-! ### RELAY (R260, R264 to R266) -/

def blockDigest (b : Bytes) : Bytes := sha3_256 (b.take 128)

/-- FORMAT and FLAGS fit the slot (R264, R265). -/
def relayFormatOk (st : Station) (b : Bytes) : Bool :=
  (decide (byteAt b 0 = 1) || (decide (byteAt b 0 = 2) && decide (byteAt b 1 < 8))) &&
    (decide (st.format = 0) || decide (b.getD 0 0 = st.format))

def relaySigned (st : Station) (b : Bytes) : Bool :=
  let sig := slice b 128 1280
  !allZero sig && falconVerify st.pubKey ((if byteAt b 0 = 1 then manifestMsg else plantMsg) (b.take 128)) sig

/-- The status of the first failing check of R265; 0 when none fails. -/
def relayCheck (s : State) (i : Nat) (b : Bytes) : Nat :=
  if !isTerminus s then 0x1A
  else
    match mget? s.stations i with
    | none => 0x14
    | some st =>
      if !relayFormatOk st b then 0x10
      else if !relaySigned st b then 0x10
      else if st.state = .enrolled ∧ slice b 32 16 ≠ st.sId then 0x10
      else if st.state = .enrolled ∧ blockDigest b ≠ st.digest ∧ slice b 80 32 ≠ st.digest then 0x15
      else 0

/-- The body of a Station certificate (R260). -/
def certBody (s : State) (i : Nat) (st : Station) (b : Bytes) : Bytes :=
  [1, 1] ++ le 2 i ++ [BitVec.ofNat 8 (byteAt st.label 10 + 1), st.label.getD 11 0, b.getD 0 0, 0] ++ le 8 s.ttc.toNat ++
    le 8 (num b 4 6) ++ identity s ++ slice b 32 16 ++ sha3_256 st.pubKey ++ slice st.pubDigest 0 32 ++
    slice st.ctDigest 0 32 ++ slice st.label 0 32 ++ zeros 8

/-- Record an accepted relay; it belongs to the Terminus epoch of its ADMIT_TTC (R266, R267). -/
def recordRelay (s : State) (i : Nat) (st : Station) (b : Bytes) (admitted : DWord) : State :=
  { s with stations := mput s.stations i { st with
      state := .enrolled, format := b.getD 0 0, sId := slice b 32 16, digest := blockDigest b, epoch := num b 4 6,
      lastRelay := s.ttc, relays := { epoch := epochOf s admitted.toNat, before := slotLeaf st } :: st.relays,
      stale := false, moved := true } }

/-- The slot as the certificate's write leaves it in flash: until a snapshot holds the slot, its moving part is that of the first
relay (R260, R269; log entry 146). -/
def keepFirst (b : Bytes) (st : Station) : Station :=
  { st with snapEpoch := num b 4 6, snapId := slice b 32 16, snapDigest := blockDigest b }

/-- The first accepted relay into a slot: certificate, ENROLLED, event 296. -/
def firstRelay (s : State) (i : Nat) (st : Station) (b : Bytes) (admitted : DWord) : State :=
  let body := certBody s i st b
  let r := signBy s (keyBranch s) (ascii "XLX station cert" ++ body)
  let s := appendRecord r.state 0x21 (body ++ slice st.pubKey 0 1793 ++ r.sig)
  raise (recordRelay s i (keepFirst b st) b admitted) 296

/-- A relay comes as far as the verification of its signature (R265). -/
def relayVerifies (s : State) (i : Nat) (b : Bytes) : Bool :=
  isTerminus s && (match mget? s.stations i with
    | some st => relayFormatOk st b && !allZero (slice b 128 1280)
    | none => false)

/-- RELAY's answer: its signature is verified by a lane, with 0x0B where the LSU takes no job (R137); a first relay whose certificate
cannot be signed now is retryable (log entry 18). -/
def relayReply (s : State) (f : Flight) (block : Bytes) : Reply :=
  let i := num f.raw 4 2 % 4096
  let b := slice block 0 1408
  let c := relayCheck s i b
  let verifies := relayVerifies s i b
  let busy := verifies && lsuBusy s
  let s := if verifies && !busy then countVerify s else s
  if busy then refuse s 0x0B
  else if c ≠ 0 then refuse (raiseLimited s 297) c
  else
    match mget? s.stations i with
    | none => refuse s 0x14
    | some st =>
      let ok (t : State) : Reply := { state := t, status := 0, length := 0, result := blockDigest b, writes := [] }
      if st.state = .enrolled then (if blockDigest b = st.digest then ok s else ok (recordRelay s i st b f.admitTtc))
      else if canSign s then ok (firstRelay s i st b f.admitTtc)
      else refuse s 0x0B

/-- The turn of a RELAY: none admitted before it for the same slot is still to be carried out (R266, R271). -/
def relayTurn (s : State) (f : Flight) : Bool :=
  s.lne.lines.all (fun e => !e.2.service || e.2.flights.all (fun g =>
    !(isRelay g && decide (num g.raw 4 2 % 4096 = num f.raw 4 2 % 4096) && decide (g.id < f.id))))

/-- RELAY (R265), in its turn, with a free lane (R333). -/
def execRelay (line : BitVec 19) (pos : Nat) (block : Bytes) (s : State) : Out :=
  match flightAt s line.toNat pos 0x28 with
  | some f => done (if relayTurn s f && !lanesBusy s then reply line.toNat f.id (relayReply s f block) else s)
  | none => .next s

/-! ### ATTEST (R244, R270) -/

/-- The upward pairing that a quote names: the one recorded for the branch that stands in the table. -/
def upward (s : State) : Option Pairing :=
  match upwardBranch s with
  | some (_, b) => s.pairings.find? (fun p => !p.standby && decide (p.label = b.label))
  | none => none

/-- The 256-byte header of a quote. -/
def quoteHeader (s : State) (nonce : Bytes) : Bytes :=
  let key := keyValid s && !decide (s.mode = .condemned)
  [0x01, BitVec.ofNat 8 (modeCode s.mode), BitVec.ofNat 8 (role s), BitVec.ofNat 8 (level s)] ++
    le 2 s.flash.measured.length ++ [0, 0] ++ le 8 s.ttc.toNat ++ le 8 (getR64 s Reg.SEAL_LAST).toNat ++ identity s ++
    slice nonce 0 32 ++ shake256 s.flash.measured.flatten 64 ++
    (if key then sha3_256 (manifestPublic s) else zeros 32) ++ slice (((upward s).map (fun p => p.pubDigest)).getD []) 0 32 ++
    slice (((upward s).map (fun p => p.ctDigest)).getD []) 0 32 ++ (sha3_256 (evidenceSummary s)).take 16 ++ zeros 8

def attestReply (s : State) (raw : Bytes) : Reply :=
  let n := 1536 + 80 * s.flash.measured.length
  if !hasPlate s then refuse s 0x06
  else if wf64 raw 24 < n then refuse s 0x12
  else if !entReady s ∨ lsuBusy s then refuse s 0x0B
  else
    let h := quoteHeader s (slice raw 32 32)
    let r := signBy s 4095 (ascii "XLX quote" ++ h)
    output r.state (wf64 raw 16) (h ++ s.flash.measured.flatten ++ r.sig) []

/-- ATTEST (R270), with a free lane (R333). -/
def execAttest (line : BitVec 19) (pos : Nat) (s : State) : Out :=
  done (runUnless s line pos 0x29 (fun _ => lanesBusy s) (fun s f => attestReply s f.raw))

/-! ### TIME_HINT (R191) -/

def timeHintBody (s : State) (l : Nat) (f : Flight) : Bytes :=
  le 8 f.admitTtc.toNat ++ le 8 (epochOf s f.admitTtc.toNat) ++ le 4 l ++ zeros 4 ++ slice f.raw 8 8 ++ slice f.raw 16 8 ++
    slice f.raw 32 32

/-- Record a hint: the waybill waits until the record is stored, or ends at once when the full log drops it. -/
def recordHint (s : State) (l : Nat) (f : Flight) : State :=
  let n := recordSerial s 0x20
  let s := appendRecord s 0x20 (timeHintBody s l f)
  if n = 0 then completeService s l f.id 0 0 (zeros 8)
  else updFlight s l f.id (fun g => { g with phase := .parked, waitFor := n })

/-- TIME_HINT (R191). -/
def execTimeHint (line : BitVec 19) (pos : Nat) (s : State) : Out :=
  match flightAt s line.toNat pos 0x2A with
  | some f => done (recordHint s line.toNat f)
  | none => .next s

end Sys2Proof.Machine
end

