-- ==== Sys2Proof/Machine/KdeRows.lean ====
section
/-! DEFINITION. The Keccak Digest Engine (R303 to R319). -/

namespace Sys2Proof.Machine

/-! ### Registers (R306, R307, R316) -/

/-- Bytes of consecutive registers. -/
def regBytes (s : State) (a words : Nat) : Bytes := (List.range words).flatMap (fun i => wordBytes (getR s (a + 4 * i)))

/-- Put bytes, a whole number of words, into consecutive registers. -/
def setRegBytes (s : State) (a : Nat) (b : Bytes) : State :=
  (List.range (b.length / 4)).foldl (fun t i => setR t (a + 4 * i) (BitVec.ofNat 32 (num b (4 * i) 4))) s

/-- Read a lock: a free one goes to the reader, and the value read is what the lock held before (R306). -/
def takeLock (s : State) (m : Master) (a : Nat) : State :=
  let o := getR s a
  readData (if o = 0 then setR s a (m.setWidth 32) else s) (o.setWidth 64)

def lockOwner (s : State) (a : Nat) : Master := (getR s a).setWidth 6

/-- The write of a non-owner (R307). -/
def kdeNotOwner (s : State) : State := orR (raiseLimited s 258) Reg.KDE_ERR 1

/-- Run a write of the lock's owner. -/
def kdeOwned (s : State) (m : Master) (f : State → State) : State :=
  if lockOwner s Reg.KDE_LOCK = m ∧ m ≠ 0 then f s else kdeNotOwner s

/-- A command that does not fit the state (R319). -/
def kdeRefused (s : State) : State := orR s Reg.KDE_ERR 2

def kdeStatus (s : State) : Nat := fieldR s Reg.KDE_STATUS 0 3

/-- Set STATE, keeping CODE. -/
def kdeSetState (s : State) (n : Nat) : State := setFieldR s Reg.KDE_STATUS 0 3 n

def noJob (k : Kde) : Kde := { k with lanes := zeroLanes, part := [], keyed := false, gen := 0, hide := false }

/-- A job ends other than DONE: its state is cleared (R316). -/
def kdeEnd (s : State) (code : Nat) : State :=
  raise (setR { s with kde := noJob s.kde } Reg.KDE_STATUS (place 8 8 code ||| place 16 8 (255 - code))) 257

/-- A job waits for its next segment (R309). -/
def kdeWaiting (s : State) : State := raise (kdeSetState s 2) 256

/-! ### Functions (R303, R304) -/

def kdeFunc (w : Word) : Nat := bitsOf w 0 4
def kdeCompare (w : Word) : Bool := bit w 4
def kdeCmpLen (w : Word) : Nat := bitsOf w 6 7
def kdeNLen (w : Word) : Nat := bitsOf w 16 8
def kdeSLen (w : Word) : Nat := bitsOf w 24 8

def kdeIsCshake (f : Nat) : Bool := decide (f = 7) || decide (f = 8)
def kdeIsKmac (f : Nat) : Bool := decide (9 ≤ f ∧ f ≤ 12)

/-- Rate in bytes. -/
def kdeRate : Nat → Nat
  | 1 => 144 | 3 => 104 | 4 => 72 | 5 => 168 | 7 => 168 | 9 => 168 | 11 => 168
  | _ => 136

/-- Output bytes of a job. -/
def kdeOutBytes (f outLen : Nat) : Nat :=
  match f with
  | 1 => 28 | 2 => 32 | 3 => 48 | 4 => 64
  | _ => outLen

/-- A cSHAKE with N and S both empty is SHAKE. -/
def kdePlainCshake (w : Word) : Bool :=
  kdeIsCshake (kdeFunc w) && decide (kdeNLen w = 0) && decide (kdeSLen w = 0)

/-- Domain suffix. -/
def kdeSuffix (w : Word) : Byte :=
  if kdeFunc w ≤ 4 then 0x06
  else if kdeFunc w ≤ 6 || kdePlainCshake w then 0x1F
  else 0x04

/-- What follows the message of a KMAC (SP 800-185). -/
def kdeTail (f outLen : Nat) : Bytes :=
  if f = 9 ∨ f = 10 then rightEncode (8 * outLen) else if f = 11 ∨ f = 12 then rightEncode 0 else []

/-- Absorb bytes after the part of a block that waits. -/
def kdeAbsorb (k : Kde) (b : Bytes) : Kde :=
  let rate := kdeRate (kdeFunc k.config)
  let m := k.part ++ b
  let r := absorbBlocks rate (m.length / rate) k.lanes m
  { k with lanes := r.1, part := r.2 }

/-- The output of a job whose message is absorbed. -/
def kdeOutput (k : Kde) : Bytes :=
  let rate := kdeRate (kdeFunc k.config)
  let k := kdeAbsorb k (kdeTail (kdeFunc k.config) k.outLen)
  squeeze rate (kdeOutBytes (kdeFunc k.config) k.outLen) (absorbBlock k.lanes (padBlock rate (kdeSuffix k.config) k.part))

/-! ### The end of a job (R304, R309, R311, R315) -/

/-- Match of the compare unit: bytes beyond the output have no stated value. -/
def kdeMatch (s : State) (out : Bytes) : Bool :=
  let n := kdeCmpLen s.kde.config
  let m := min n out.length
  decide (out.take m = (regBytes s Reg.KDE_EXPECT 16).take m) && (decide (n ≤ out.length) || (freeWord s).getLsbD 0)

/-- A comparator's field: match or mismatch. -/
def cmpField (ok : Bool) : Nat := if ok then 1 else 2

/-- Run the compare: both comparators report. `split` says that comparator B fails and reports the opposite of A (R315; log entry
149). -/
def kdeRunCompare (s : State) (out : Bytes) (split : Bool) : State :=
  if kdeCompare s.kde.config then
    let ok := kdeMatch s out
    let s := usedFree (setR s Reg.KDE_CMP (place 0 2 (cmpField ok) ||| place 2 2 (cmpField (ok != split))))
    if split then raise (orR s Reg.KDE_ERR 4) 257 else raiseIf (!ok) s 260
  else s

def accessCode : Access → Nat
  | .ok => 0
  | .busError => 0x04
  | .sealFault => 0x05

/-- KDE_DST and KDE_BLOB hold what was written; their bits [2:0] read as zero, and are looked at only for CODE ALIGN (R304, R312,
R316; log entry 148). -/
def kdeAligned (s : State) (a : Nat) : Bool := decide ((getR s a).toNat % 8 = 0)

/-- Pad, squeeze, write the output and compare. -/
def kdeFinish (s : State) (split : Bool) : State :=
  let out := kdeOutput s.kde
  let shown := if s.kde.hide then zeros out.length else out
  let r := if 64 < out.length then engineWrite s 25 (getR s Reg.KDE_DST).toNat shown else { state := s, outcome := .ok }
  if 64 < out.length ∧ !kdeAligned s Reg.KDE_DST then kdeEnd s 0x03
  else if r.outcome ≠ .ok then kdeEnd r.state (accessCode r.outcome)
  else
    let s := r.state
    let s := setRegBytes s Reg.KDE_RESULT (patch (regBytes s Reg.KDE_RESULT 16) 0 (shown.take 64))
    let s := kdeRunCompare s out split
    raise (setR { s with kde := noJob s.kde } Reg.KDE_STATUS (4 ||| place 16 8 255)) 256

/-- After START or a segment: the job waits, or ends when its message is complete. -/
def kdeAdvance (s : State) (split : Bool) : State :=
  if getR64 s Reg.KDE_ABSORBED = s.kde.total then kdeFinish s split else kdeWaiting s

/-! ### START (R305, R309, R311, R316) -/

def kdeTotalReg (s : State) : DWord := getR64 s Reg.KDE_TOTAL &&& 0xFFFFFFFFFF

/-- CODE PARAM. -/
def kdeBadParam (w : Word) (outLen : Nat) : Bool :=
  decide (kdeFunc w = 0 ∨ 12 < kdeFunc w) || (decide (5 ≤ kdeFunc w) && decide (outLen = 0)) ||
    (kdeCompare w && decide (kdeCmpLen w = 0 ∨ 64 < kdeCmpLen w))

/-- A keyed job is accepted (R311). -/
def kdeKeyedMode (s : State) (w : Word) : Bool :=
  decide (s.mode = .running) || decide (s.mode = .commissioning) || (decide (s.mode = .caution) && kdeCompare w)

def kdeKeyCheck (s : State) (i : Nat) (m : Master) : Check := useCheck s i (fun k => decide (k = 1)) [25, m.toNat]

/-- The prefix buffer: N then S. -/
def kdePrefixLen (w : Word) : Nat :=
  if kdeIsCshake (kdeFunc w) then kdeNLen w + kdeSLen w else if kdeIsKmac (kdeFunc w) then kdeSLen w else 0

/-- What goes before the message. -/
def kdePrefix (w : Word) (buf key : Bytes) : Bytes :=
  let rate := kdeRate (kdeFunc w)
  if kdeIsKmac (kdeFunc w) then cshakePrefix rate (ascii "KMAC") buf ++ bytepad rate (encodeString key)
  else if kdeIsCshake (kdeFunc w) && !kdePlainCshake w then
    cshakePrefix rate (buf.take (kdeNLen w)) (buf.drop (kdeNLen w))
  else []

/-- Take up an accepted job. -/
def kdeBegin (s : State) (w : Word) (split : Bool) : State :=
  let n := kdePrefixLen w
  let r := reach s 25 .read (getR s Reg.KDE_PFX).toNat n
  if r.outcome ≠ .ok then kdeEnd r.state (accessCode r.outcome)
  else
    let s := r.state
    let i := s.kde.branch
    let keyed := kdeIsKmac (kdeFunc w)
    let pre := kdePrefix w (engineBytes s (getR s Reg.KDE_PFX).toNat n) (if keyed then branchKey s i else [])
    let g := ((mget? s.branches i).map (fun b => b.generation)).getD 0
    let k := { noJob s.kde with keyed := keyed, gen := if keyed then g else 0, hide := keyed && decide (s.mode = .caution) }
    kdeAdvance { s with kde := kdeAbsorb k pre } split

def kdeStartJob (s : State) (m : Master) (split : Bool) : State :=
  let w := getR s Reg.KDE_CONFIG
  let outLen := fieldR s Reg.KDE_OUTLEN 0 24
  let i := fieldR s Reg.KDE_KEY 0 12
  let s := setR64 (setR s Reg.KDE_CMP 0) Reg.KDE_ABSORBED 0
  let s := { s with kde := { s.kde with config := w, total := kdeTotalReg s, outLen := outLen, branch := i } }
  if kdeBadParam w outLen then kdeEnd s 0x0A
  else if !kdeIsKmac (kdeFunc w) then kdeBegin s w split
  else if !kdeKeyedMode s w then kdeEnd s 0x09
  else
    let u := kdeKeyCheck s i m
    if u.status ≠ 0 then kdeEnd (noteCheck s u) (if u.status = 0x0D then 0x05 else u.status)
    else kdeBegin (useBranch s i) w split

/-- KDE_CTRL.START is taken in IDLE or DONE. -/
def kdeStart (s : State) (m : Master) (split : Bool) : State :=
  if kdeStatus s = 0 ∨ kdeStatus s = 4 then kdeStartJob (builtTable s) m split else kdeRefused s

/-! ### FEED and the end of a segment (R309, R310) -/

def kdeSegLen (s : State) : Nat := fieldR s Reg.KDE_SEGLEN 0 25

/-- FEED takes KDE_SRC and KDE_SEGLEN for the segment. -/
def kdeFeed (s : State) : State :=
  if kdeStatus s ≠ 2 then kdeRefused s
  else if s.kde.total.toNat < (getR64 s Reg.KDE_ABSORBED).toNat + kdeSegLen s then kdeEnd s 0x02
  else if kdeSegLen s = 0 ∨ 16777216 < kdeSegLen s then kdeRefused s
  else kdeSetState { s with kde := { s.kde with src := getR s Reg.KDE_SRC, seg := kdeSegLen s } } 1

/-- Absorb `n` bytes of the segment; the registers follow. -/
def kdeTakeBytes (s : State) (n : Nat) : State :=
  let b := engineBytes s s.kde.src.toNat n
  setR64 { s with kde := kdeAbsorb s.kde b } Reg.KDE_ABSORBED (getR64 s Reg.KDE_ABSORBED + BitVec.ofNat 64 n)

def kdeSegmentEnd (s : State) (seen : Access) (split : Bool) : State :=
  if seen ≠ .ok then kdeEnd (noteSeen s seen 20) (accessCode seen)
  else
    let r := reach s 25 .read s.kde.src.toNat s.kde.seg
    if r.outcome ≠ .ok then kdeEnd r.state (accessCode r.outcome)
    else kdeAdvance (kdeTakeBytes r.state s.kde.seg) split

/-! ### SAVE (R312, R313) -/

/-- K_sv, drawn once per boot: at the first READY, or by the first job that needs it. -/
def withKsv (s : State) : State :=
  if s.kde.ksv.isEmpty then drawn { s with kde := { s.kde with ksv := drawBytes s 32 } } 32 else s

/-- Bytes 0 to 47 of a blob. -/
def blobHead (k : Kde) (absorbed : Nat) (nonce : Bytes) : Bytes :=
  [0x01, BitVec.ofNat 8 (kdeFunc k.config), BitVec.ofNat 8 (b2n k.keyed + 2 * b2n (kdeCompare k.config)),
    BitVec.ofNat 8 (kdeCmpLen k.config)] ++ le 4 k.outLen ++ le 8 k.total.toNat ++ le 8 absorbed ++
    le 2 (if k.keyed then k.branch else 0) ++ zeros 2 ++ le 4 k.gen.toNat ++ nonce

def blobMask (ksv nonce : Bytes) : Bytes := kmacXof256 ksv nonce 200 (ascii "XLX kde mask")

/-- The 288 bytes of a blob. -/
def kdeBlob (k : Kde) (absorbed : Nat) (nonce : Bytes) : Bytes :=
  let b := blobHead k absorbed nonce ++
    (if k.keyed then xorBytes (stateBytes k.lanes) (blobMask k.ksv nonce) else stateBytes k.lanes)
  b ++ kmac256 k.ksv b 32 (ascii "XLX kde save") ++ zeros 8

/-- Write the blob of a job at a block boundary. -/
def kdeWriteBlob (s : State) : State :=
  if !kdeAligned s Reg.KDE_BLOB then kdeEnd s 0x03 else
  let s := withKsv s
  let nonce := if s.kde.keyed then drawBytes s 16 else zeros 16
  let s := if s.kde.keyed then drawn s 16 else s
  let r := engineWrite s 25 (getR s Reg.KDE_BLOB).toNat (kdeBlob s.kde (getR64 s Reg.KDE_ABSORBED).toNat nonce)
  if r.outcome ≠ .ok then kdeEnd r.state (accessCode r.outcome)
  else kdeSetState { r.state with kde := noJob r.state.kde } 0

/-- Bytes of the segment after which the feeder can stop: block boundaries before the job's last block ends. -/
def stopsOf (s : State) : List Nat :=
  let a := (getR64 s Reg.KDE_ABSORBED).toNat
  let rate := kdeRate (kdeFunc s.kde.config)
  ((List.range (s.kde.seg / rate + 1)).map (fun i => (a / rate + 1 + i) * rate - a)).filter
    (fun n => decide (n ≤ s.kde.seg ∧ a + n < s.kde.total.toNat))

/-- Stop the feeder after `n` bytes of the segment and save; the registers keep what is not yet fed. -/
def kdeStop (s : State) (n : Nat) : State :=
  let r := reach s 25 .read s.kde.src.toNat n
  if r.outcome ≠ .ok then kdeEnd r.state (accessCode r.outcome)
  else
    let s := kdeTakeBytes r.state n
    kdeWriteBlob (setFieldR (setR s Reg.KDE_SRC (s.kde.src + BitVec.ofNat 32 n)) Reg.KDE_SEGLEN 0 25 (s.kde.seg - n))

/-- A SAVE meets a segment being absorbed. How far the feeder had come is a free value: it stops at the boundary after the block in
progress, and past the last such boundary the SAVE is refused (R312, R317). -/
def kdeSaveFeeding (s : State) : State :=
  let l := stopsOf s
  let stops := if l.contains s.kde.seg then l.map some else l.map some ++ [none]
  match stops.getD ((freeWord s).toNat % stops.length) none with
  | some n => kdeStop (usedFree s) n
  | none => kdeRefused (usedFree s)

def kdeSave (s : State) : State :=
  if kdeStatus s = 1 then kdeSaveFeeding s
  else if kdeStatus s = 2 ∧ s.kde.part.isEmpty then kdeWriteBlob s
  else kdeRefused s

/-! ### RESTORE (R314) -/

/-- FORMAT and the reserved bytes and bits. -/
def blobShapeOk (b : Bytes) : Bool :=
  decide (byteAt b 0 = 1) && decide (byteAt b 2 < 4) && decide (num b 8 8 < 2 ^ 40) && decide (num b 16 8 < 2 ^ 40) &&
    decide (byteAt b 25 < 16) && decide (num b 26 2 = 0) && decide (num b 280 8 = 0)

def blobTagOk (s : State) (b : Bytes) : Bool :=
  decide (slice b 248 32 = kmac256 s.kde.ksv (b.take 248) 32 (ascii "XLX kde save"))

def blobKeyed (b : Bytes) : Bool := (byteAt b 2).testBit 0

def blobBranchOk (s : State) (m : Master) (b : Bytes) : Bool :=
  !blobKeyed b || (decide ((kdeKeyCheck s (num b 24 2) m).status ≠ 0x06) &&
    decide ((mget? s.branches (num b 24 2)).map (fun x => x.generation.toNat) = some (num b 28 4)))

/-- KDE_CONFIG after a restore: N_LEN and S_LEN, which a blob does not hold, stay as they are. -/
def blobConfig (old : Word) (b : Bytes) : Word :=
  withBits (withBits (withBits old 0 4 (byteAt b 1)) 4 1 (byteAt b 2 / 2)) 6 7 (byteAt b 3)

/-- The job a blob holds. -/
def blobKde (s : State) (w : Word) (b : Bytes) : Kde :=
  let st := slice b 48 200
  { s.kde with
    lanes := lanesOf (if blobKeyed b then xorBytes st (blobMask s.kde.ksv (slice b 32 16)) else st),
    part := [], src := s.kde.src, seg := 0, keyed := blobKeyed b, gen := BitVec.ofNat 32 (num b 28 4), config := w,
    total := num64 b 8, outLen := num b 4 4, branch := num b 24 2, hide := blobKeyed b && decide (s.mode = .caution) }

def kdeRestoreBlob (s : State) (m : Master) (b : Bytes) : State :=
  let s := if blobKeyed b then builtTable (withKsv s) else withKsv s
  if !(blobShapeOk b && blobTagOk s b) then kdeEnd s 0x08
  else if blobKeyed b && decide ((kdeKeyCheck s (num b 24 2) m).status = 0x0D) then kdeEnd (sealFault s spineTile) 0x05
  else if !blobBranchOk s m b then kdeEnd s 0x08
  else
    let w := blobConfig (getR s Reg.KDE_CONFIG) b
    let s := setR64 (setR64 (setR s Reg.KDE_CONFIG w) Reg.KDE_TOTAL (num64 b 8)) Reg.KDE_ABSORBED (num64 b 16)
    let s := setR (setR s Reg.KDE_OUTLEN (BitVec.ofNat 32 (num b 4 4))) Reg.KDE_KEY (BitVec.ofNat 32 (num b 24 2))
    kdeWaiting { s with kde := blobKde s w b }

def kdeRestore (s : State) (m : Master) : State :=
  if kdeStatus s ≠ 0 then kdeRefused s
  else
    let a := (getR s Reg.KDE_BLOB).toNat
    let r := reach s 25 .read a 288
    if !kdeAligned s Reg.KDE_BLOB then kdeEnd s 0x03
    else if r.outcome ≠ .ok then kdeEnd r.state (accessCode r.outcome) else kdeRestoreBlob r.state m (engineBytes r.state a 288)

/-! ### ABORT, CLEAR and the lock (R306, R308, R316, R319) -/

def kdeJobOn (s : State) : Bool := decide (kdeStatus s = 1) || decide (kdeStatus s = 2)

def kdeAbort (s : State) : State := if kdeJobOn s then kdeEnd s 0x01 else kdeRefused s

/-- SAVE and ABORT in one write: an ABORT that meets a SAVE in progress leaves no blob (R317). -/
def kdeSaveUnless (s : State) (abort : Bool) : State := if abort && kdeJobOn s then s else kdeSave s

/-- Zero KDE_RESULT, KDE_EXPECT and KDE_CMP. -/
def kdeClear (s : State) : State :=
  setR (setRegBytes (setRegBytes s Reg.KDE_RESULT (zeros 64)) Reg.KDE_EXPECT (zeros 64)) Reg.KDE_CMP 0

/-- The forced release by identity 12 (R308). -/
def kdeForce (s : State) : State :=
  let s := if kdeJobOn s then kdeEnd s 0x01 else kdeSetState { s with kde := noJob s.kde } 0
  raise (kdeClear (setR s Reg.KDE_LOCK 0)) 259

def kdeRelease (s : State) (m : Master) : State :=
  if m = 12 then kdeForce s
  else if lockOwner s Reg.KDE_LOCK = m then setR s Reg.KDE_LOCK 0
  else s

/-! ### The rows -/

/-- KDE_LOCK_READ (R306). -/
def execKdeLockRead (m : Master) (s : State) : Out :=
  done (guardedRead s m Reg.KDE_LOCK (fun s => takeLock s m Reg.KDE_LOCK))

/-- KDE_LOCK_RELEASE (R306, R308). -/
def execKdeLockRelease (m : Master) (s : State) : Out := done (guardedWrite s m Reg.KDE_LOCK (fun s => kdeRelease s m))

/-- A KDE_CTRL row. -/
def kdeCommand (s : State) (m : Master) (f : State → State) : State :=
  guardedWrite s m Reg.KDE_CTRL (fun s => kdeOwned s m f)

/-- KDE_START (R309). -/
def execKdeStart (m : Compared Master) (s : State) : Out := done (kdeCommand s m.value (fun s => kdeStart s m.value m.split))

/-- KDE_FEED (R309, R310). -/
def execKdeFeed (m : Master) (s : State) : Out := done (kdeCommand s m kdeFeed)

/-- KDE_SEGMENT_DONE (R309). -/
def execKdeSegmentDone (outcome : Compared Access) (s : State) : Out :=
  done (if mainPower s && decide (kdeStatus s = 1) then kdeSegmentEnd s outcome.value outcome.split else s)

/-- KDE_SAVE (R312). -/
def execKdeSave (m : Master) (s : State) : Out := done (kdeCommand s m kdeSave)

/-- KDE_RESTORE (R314). -/
def execKdeRestore (m : Master) (s : State) : Out := done (kdeCommand s m (fun s => kdeRestore s m))

/-- KDE_ABORT (R316). -/
def execKdeAbort (m : Master) (s : State) : Out := done (kdeCommand s m kdeAbort)

/-- KDE_CLEAR (R319). -/
def execKdeClear (m : Master) (s : State) : Out := done (kdeCommand s m kdeClear)

end Sys2Proof.Machine
end

