-- ==== Sys2Proof/Machine/Arith.lean ====
section
/-! DEFINITION. The operations of the Modular Arithmetic Engine over its operand slots (R320, R321, R326, R330). -/

namespace Sys2Proof.Machine

/-! ### Slots (R321) -/

def slotAddr (n : Nat) : Nat := 0x50000000 + 512 * n

/-- A big-endian operand in the last `len` bytes of a slot. -/
def slotTail (s : State) (n len : Nat) : Bytes := memBytes s (slotAddr n + 512 - len) len

def slotNum (s : State) (n len : Nat) : Nat := ofBe (slotTail s n len)

/-- A little-endian operand from the first byte of a slot. -/
def slotHead (s : State) (n len : Nat) : Bytes := memBytes s (slotAddr n) len

/-- Points and r ‖ s take two slots in a row and are right-aligned in them (log entry 19). -/
def slotWide (s : State) (n len : Nat) : Bytes := memBytes s (slotAddr n + 1024 - len) len

/-- An output overwrites its slots whole. -/
def putTail (s : State) (n : Nat) (b : Bytes) : State := memWrite s (slotAddr n) (zeros (512 - b.length) ++ b)
def putHead (s : State) (n : Nat) (b : Bytes) : State := memWrite s (slotAddr n) (slice b 0 512)
def putWide (s : State) (n : Nat) (b : Bytes) : State := memWrite s (slotAddr n) (zeros (1024 - b.length) ++ b)

/-! ### Jobs (R320) -/

/-- A job as it stood at START. -/
structure MaeJob where
  op : Nat
  curve : Nat
  len : Nat
  a : Nat
  b : Nat
  c : Nat
  d : Nat
  e : Nat
  f : Nat
  g : Nat
  h : Nat
  deriving DecidableEq, Repr

def maeJob (op args0 args1 : Word) : MaeJob :=
  { op := bitsOf op 0 6, curve := bitsOf op 8 2, len := bitsOf op 16 10, a := bitsOf args0 0 7, b := bitsOf args0 8 7,
    c := bitsOf args0 16 7, d := bitsOf args0 24 7, e := bitsOf args1 0 7, f := bitsOf args1 8 7, g := bitsOf args1 16 7,
    h := bitsOf args1 24 7 }

def maeCurve (n : Nat) : Curve := if n = 0 then p256 else if n = 1 then p384 else p521

/-- The slots a job uses, first slot and count. -/
def jobSlots (j : MaeJob) : List (Nat × Nat) :=
  match j.op with
  | 0x01 => [(j.a, 1), (j.b, 1), (j.c, 1), (j.d, 1)]
  | 0x02 => [(j.a, 1), (j.b, 1), (j.c, 1), (j.d, 1)]
  | 0x03 => [(j.a, 1), (j.b, 1), (j.c, 1), (j.d, 1)]
  | 0x08 => [(j.a, 1), (j.b, 1), (j.c, 1), (j.d, 1)]
  | 0x09 => [(j.a, 1), (j.b, 1), (j.c, 1), (j.d, 1), (j.e, 1), (j.f, 1), (j.g, 1), (j.h, 1)]
  | 0x10 => [(j.a, 1), (j.b, 1), (j.c, 2)]
  | 0x11 => [(j.a, 1), (j.b, 2), (j.c, 2)]
  | 0x12 => [(j.a, 1), (j.b, 2), (j.c, 1)]
  | 0x13 => [(j.a, 1), (j.b, 2)]
  | 0x18 => [(j.a, 1), (j.b, 1), (j.c, 1)]
  | 0x19 => [(j.a, 1), (j.b, 1), (j.c, 1)]
  | _ => []

/-- An operation on a NIST curve. -/
def maeOnCurve (op : Nat) : Bool := decide (0x10 ≤ op ∧ op ≤ 0x13)

/-- An operation with a secret input (R320, R329). -/
def maeSecret (op : Nat) : Bool := ([0x09, 0x10, 0x12, 0x13, 0x18] : List Nat).contains op

/-- CODE PARAM: OP, CURVE or LEN reserved or out of range, a slot out of range, or a slot of the short window in Izpen
mode (R327, R330). -/
def maeBadParam (j : MaeJob) (izpen : Bool) : Bool :=
  (jobSlots j).isEmpty || (maeOnCurve j.op && decide (j.curve = 3)) || decide (j.len = 0 ∨ 512 < j.len) ||
    (jobSlots j).any (fun x => decide (128 < x.1 + x.2) || (izpen && decide (112 < x.1 + x.2)))

/-- A seal mismatch in a slot the job uses. -/
def maeSealBad (s : State) (j : MaeJob) : Option Nat :=
  (jobSlots j).findSome? (fun x => badCell? s (slotAddr x.1) (512 * x.2))

/-! ### Results -/

/-- How a job ends: the state with its output written, CODE and VERDICT. -/
structure MaeEnd where
  state : State
  code : Nat
  verdict : Nat
  deriving DecidableEq, Repr

def maeOk (s : State) : MaeEnd := { state := s, code := 0, verdict := 0 }
def maeFail (s : State) (code : Nat) : MaeEnd := { state := s, code := code, verdict := 0 }
def maeVerdict (s : State) (ok : Bool) : MaeEnd := { state := s, code := 0, verdict := if ok then 1 else 2 }

/-- Bits of a number. -/
def bitLen (n : Nat) : Nat := if n = 0 then 0 else n.log2 + 1

/-- MODMUL, MODADD and MODSUB; the modulus is not 0. -/
def modResult (op a b c : Nat) : Nat :=
  if op = 1 then a * b % c else if op = 2 then (a + b) % c else subMod a b c

def runMod (s : State) (j : MaeJob) : MaeEnd :=
  let m := slotNum s j.c j.len
  if m = 0 then maeFail s 0x03
  else maeOk (putTail s j.d (be j.len (modResult j.op (slotNum s j.a j.len) (slotNum s j.b j.len) m)))

def runRsaPublic (s : State) (j : MaeJob) : MaeEnd :=
  let m := slotNum s j.c j.len
  let e := slotNum s j.b j.len
  if bitLen m < 2048 ∨ 4096 < bitLen m ∨ e < 3 ∨ 4294967295 < e ∨ e % 2 = 0 then maeFail s 0x03
  else maeOk (putTail s j.d (be j.len (powMod (slotNum s j.a j.len) e m)))

/-- Extended Euclid: the coefficient of `a` in a combination that gives the greatest common divisor, modulo `m`. -/
def egcdN : Nat → Nat → Nat → Nat → Nat → Nat → Nat
  | 0, _, _, x, _, _ => x
  | n + 1, r0, r1, x0, x1, m => if r1 = 0 then x0 else egcdN n r1 (r0 % r1) x1 (subMod x0 (r0 / r1 * x1) m) m

/-- The inverse of `a` modulo `m`, where there is one. -/
def inverse (a m : Nat) : Nat := egcdN (2 * (bitLen m + 1)) (a % m) m 1 0 m

/-- RFC 8017 CRT with the randomisation of R326. -/
def rsaCrt (a p q dp dq qinv g r1 r2 u : Nat) : Nat :=
  let n := p * q
  let x := a * powMod u g n % n
  let m1 := powMod x (dp + r1 * (p - 1)) p
  let m2 := powMod x (dq + r2 * (q - 1)) q
  (m2 + q * (subMod m1 m2 p * qinv % p)) % n * inverse u n % n

/-- RSA_PRIVATE: the result is checked before it is written (R326). -/
def runRsaPrivate (s : State) (j : MaeJob) : MaeEnd :=
  let num x := slotNum s x j.len
  let n := num j.b * num j.c
  if num j.b = 0 ∨ num j.c = 0 ∨ 256 ^ j.len ≤ n then maeFail s 0x03
  else
    let r1 := ofBe (drawBytes s 8)
    let s := drawn s 8
    let r2 := ofBe (drawBytes s 8)
    let s := drawn s 8
    let u := ofBe (drawBytes s (j.len + 8)) % n
    let s := drawn s (j.len + 8)
    let h := rsaCrt (num j.a) (num j.b) (num j.c) (num j.d) (num j.e) (num j.f) (num j.g) r1 r2 u
    if powMod h (num j.g) n = num j.a then maeOk (putTail s j.h (be j.len h))
    else maeFail (raise (putTail s j.h []) 263) 0x07

/-- r and s of an ECDSA signature of `z` under `d` with the per-signature number `k`. -/
def ecdsaPair (c : Curve) (d z k : Nat) : Nat × Nat :=
  let x := match mulPoint c k (basePoint c) with
    | some (x, _) => x % c.n
    | none => 0
  (x, invMod k c.n * ((z + x * d) % c.n) % c.n)

/-- FIPS 186-5 draws k anew where r or s is 0; after 16 draws the model gives up (log entry 164). The pair, and how many numbers were
drawn. -/
def ecdsaTries (c : Curve) (d z : Nat) (rnd : Bytes) : (Nat × Nat) × Nat :=
  let pair (i : Nat) : Nat × Nat := ecdsaPair c d z (ofBe (slice rnd (i * (c.len + 8)) (c.len + 8)) % (c.n - 1) + 1)
  match (List.range 16).find? (fun i => decide ((pair i).1 ≠ 0 ∧ (pair i).2 ≠ 0)) with
  | some i => (pair i, i + 1)
  | none => (pair 15, 16)

def runEcdsaSign (s : State) (j : MaeJob) : MaeEnd :=
  let c := maeCurve j.curve
  let d := slotNum s j.b j.len
  if d = 0 ∨ c.n ≤ d then maeFail s 0x03
  else
    let r := ecdsaTries c d (digestNum c (slotTail s j.a j.len)) (drawBytes s (16 * (c.len + 8)))
    let s := drawn s ((r.2 + 1) * (c.len + 8))
    maeOk (putWide s j.c (be c.len r.1.1 ++ be c.len r.1.2))

def runEcdsaVerify (s : State) (j : MaeJob) : MaeEnd :=
  let c := maeCurve j.curve
  let q := decodePoint c (slotWide s j.b (2 * c.len + 1))
  let rs := slotWide s j.c (2 * c.len)
  if q.isNone then maeFail s 0x03
  else maeVerdict s (ecdsaVerify c q (digestNum c (slotTail s j.a j.len)) (ofBe (rs.take c.len)) (ofBe (rs.drop c.len)))

def runEcdh (s : State) (j : MaeJob) : MaeEnd :=
  let c := maeCurve j.curve
  let s := drawn s (8 + c.len)
  match mulPoint c (slotNum s j.a j.len) (decodePoint c (slotWide s j.b (2 * c.len + 1))) with
  | some (x, _) => maeOk (putTail s j.c (be c.len x))
  | none => maeFail s 0x03

def runEcPubkey (s : State) (j : MaeJob) : MaeEnd :=
  let c := maeCurve j.curve
  let s := drawn s (8 + c.len)
  match mulPoint c (slotNum s j.a j.len) (basePoint c) with
  | some p => maeOk (putWide s j.b (encodePoint c (some p)))
  | none => maeFail s 0x03

def runX25519 (s : State) (j : MaeJob) : MaeEnd :=
  maeOk (putHead (drawn s 32) j.c (x25519 (slotHead s j.a 32) (slotHead s j.b 32)))

def runEd25519 (s : State) (j : MaeJob) : MaeEnd :=
  match ed25519Equation (slotHead s j.b 32) (slotHead s j.c 64) (ofLe (slotHead s j.a 64)) with
  | some ok => maeVerdict s ok
  | none => maeFail s 0x03

/-- Run a job whose parameters were accepted. -/
def maeRun (s : State) (j : MaeJob) : MaeEnd :=
  match j.op with
  | 0x08 => runRsaPublic s j
  | 0x09 => runRsaPrivate s j
  | 0x10 => runEcdsaSign s j
  | 0x11 => runEcdsaVerify s j
  | 0x12 => runEcdh s j
  | 0x13 => runEcPubkey s j
  | 0x18 => runX25519 s j
  | 0x19 => runEd25519 s j
  | _ => runMod s j

end Sys2Proof.Machine
end

