-- ==== Sys2Proof/Machine/MaeRows.lean ====
section
/-! DEFINITION. The rows of the Modular Arithmetic Engine: locks, jobs, wipes, Izpen mode (R322 to R330, R343). -/

namespace Sys2Proof.Machine

/-! ### Registers (R322, R323) -/

def maeOwned (s : State) (m : Master) (f : State → State) : State :=
  if lockOwner s Reg.MAE_LOCK = m ∧ m ≠ 0 then f s else maeNotOwner s

def maeRefused (s : State) : State := orR s Reg.MAE_ERR 2

def maeState (s : State) : Nat := fieldR s Reg.MAE_STATUS 0 3
def maeRunning (s : State) : Bool := decide (maeState s = 1)

/-- A long job is in progress, running or parked (R327). -/
def maeBusy (s : State) : Bool := decide (maeState s = 1) || decide (maeState s = 2)

/-- MAE_STATUS at the end of a job. -/
def maeStatus (state code verdict : Nat) : Word :=
  place 0 3 state ||| place 8 8 code ||| place 16 8 (255 - code) ||| place 24 2 verdict

def maeWipeOn (s : State) : Bool := (sstGet s 14).getLsbD 0
def maeIzpen (s : State) : Bool := bitR s Reg.MAE_CONFIG 1

/-! ### Short jobs and requests (R327, R328) -/

/-- A short job has ended: DONE, event 264. -/
def shortEnded (s : State) : State := raise (orR { s with mae := { s.mae with shortPending := false } } Reg.MAE_SCTRL 0x4000000) 264

/-- The value a short job writes; a modulus of 0 gives a free value. -/
def shortValue (s : State) (op a b c len : Nat) : Nat :=
  if c = 0 then (freeWord s).toNat else modResult op a b c % 256 ^ len

/-- A short job ends with a CODE other than DONE: its CODE and inverse, and event 262 (R330, R343). -/
def shortFails (s : State) (code : Nat) : State :=
  raise (shortEnded { setFieldR (setFieldR s Reg.MAE_STATUS 8 8 code) Reg.MAE_STATUS 16 8 (255 - code) with
    mae := { s.mae with short := none } }) 262

/-- A seal mismatch in a slot of a short job (R24). -/
def shortSealBad (s : State) (args : Word) : Option Nat :=
  ([0, 8, 16, 24] : List Nat).findSome? (fun lo => badCell? s (slotAddr (bitsOf args lo 7)) 512)

/-- Run the pending short job. -/
def runShort (s : State) : State :=
  match s.mae.short with
  | none => s
  | some (ctl, args) =>
    match shortSealBad s args with
    | some c => shortFails (sealFault s (tileOf (8 * c))) 6
    | none =>
      let len := bitsOf ctl 16 10
      let num i := slotNum s (bitsOf args (8 * i) 7) len
      let v := shortValue s (bitsOf ctl 0 2) (num 0) (num 1) (num 2) len
      shortEnded (usedFree (putTail { s with mae := { s.mae with short := none } } (bitsOf args 24 7) (be len v)))

def runShortIf (s : State) : State := if s.mae.shortPending then runShort s else s

/-- A command whose request waited goes on. -/
def resumeCommand (s : State) (op : Nat) (a : BtrArgs) (data : Bytes) : State :=
  match op with
  | 2 => encapsCommand data s a
  | 3 => decapsCommand data s a
  | 11 => rescueCommand s a
  | 12 => releaseCommand s a
  | _ => importCommand s a

/-- A waybill whose request waited goes on. -/
def resumeWaybill (s : State) (l id op : Nat) (data : Bytes) : State :=
  match flight? s l id with
  | none => s
  | some f =>
    match op with
    | 1 => deriveWaybill s l f
    | 2 => encapsWaybill data s l f
    | _ => decapsWaybill data s l f

def resumeHybrid (s : State) : HybridRequest → State
  | .command op a data _ => resumeCommand s op a data
  | .waybill l id op data _ => resumeWaybill s l id op data

/-- The branch tree unit's request runs once the engines can take it; its private store is zeroed (R328). -/
def runRequest (s : State) : State :=
  match s.mae.request with
  | none => s
  | some r => if hybridReady s then resumeHybrid { s with btr := none, mae := { s.mae with request := none } } r else s

/-- A request that no lane can serve ends: its command, or its waybill, with 0x0B (R342). -/
def refuseRequest (s : State) : State :=
  match s.mae.request with
  | none => s
  | some r =>
    let s := { s with btr := none, mae := { s.mae with request := none } }
    match r with
    | .command _ _ _ _ => btrResult s 0x0B 0
    | .waybill l id _ _ _ => endWith s l id 0x0B

/-- What waits for the engine to be free, or for a yield point: one short job, then the request (R327, R328). -/
def maeFree (s : State) : State := runRequest (runShortIf s)

/-! ### The end of a job (R323, R330) -/

/-- The job ends with its code: STATE is DONE, event 261, and event 262 for every code but 0x00. -/
def maeEnd (s : State) (code verdict : Nat) : State :=
  let s := setR { s with mae := { s.mae with job := none } } Reg.MAE_STATUS (maeStatus 3 code verdict)
  let s := raiseIf (decide (code ≠ 0)) (raise s 261) 262
  maeFree (if code = 0 then countR64 s Reg.MAE_JOBS 1 else s)

/-! ### START (R323, R326, R327, R329) -/

/-- Operations with a secret input run in Running and Commissioning (R329). -/
def maeModeOk (s : State) (op : Nat) : Bool :=
  !maeSecret op || decide (s.mode = .running) || decide (s.mode = .commissioning)

def maeStart (s : State) : State :=
  if maeState s ≠ 0 ∧ maeState s ≠ 3 then maeRefused s
  else
    let s := runRequest s
    let regs := (getR s Reg.MAE_OP, getR s Reg.MAE_ARGS0, getR s Reg.MAE_ARGS1)
    let j := maeJob regs.1 regs.2.1 regs.2.2
    if maeBadParam j (maeIzpen s) then maeEnd s 0x02 0
    else if !maeModeOk s j.op then maeEnd s 0x05 0
    else if maeSecret j.op && !entReady s then maeEnd s 0x04 0
    else setR { s with mae := { s.mae with job := some regs } } Reg.MAE_STATUS (maeStatus 1 0 0)

/-- The running job ends (R323). -/
def maeJobEnd (s : State) (seen : Access) : State :=
  match s.mae.job with
  | none => s
  | some regs =>
    let j := maeJob regs.1 regs.2.1 regs.2.2
    match maeSealBad s j with
    | some c => maeEnd (sealFault s (tileOf (8 * c))) 0x06 0
    | none =>
      if seen = .sealFault then maeEnd (noteSeen s seen 20) 0x06 0
      else if maeSecret j.op && !entReady s then maeEnd s 0x04 0
      else
        let r := maeRun s j
        maeEnd r.state r.code r.verdict

/-! ### Wipes (R324, R325, R343) -/

/-- Zero all 128 slots; the working state goes with them. -/
def wipeSlots (s : State) : State := memWrite s 0x50000000 (zeros 65536)

/-- Start a wipe: a job in progress, parked or not, ends with CODE ABORTED and event 262, and a short job with it. -/
def maeWipe (s : State) : State :=
  let busy := maeBusy s
  let s := if busy then setR s Reg.MAE_STATUS (maeStatus 4 1 0) else setFieldR s Reg.MAE_STATUS 0 3 4
  let s := raiseIf busy s 262
  let s := if s.mae.shortPending then shortEnded { s with mae := { s.mae with short := none } } else s
  wipeSlots { s with mae := { s.mae with job := none, parked := none } }

def maeAbort (s : State) : State := if maeBusy s then maeWipe s else raise (maeWipe s) 262

def maeRelease (s : State) (m : Master) : State :=
  if m = 12 then maeAbort (setR s Reg.MAE_LOCK 0)
  else if lockOwner s Reg.MAE_LOCK = m then setR s Reg.MAE_LOCK 0
  else s

/-- The lock goes to a reader; an owner change starts the wipe (R325). -/
def maeLockRead (s : State) (m : Master) : State :=
  let free := decide (getR s Reg.MAE_LOCK = 0)
  let prev := s.mae.prevOwner
  let s := takeLock s m Reg.MAE_LOCK
  if free then
    let s := { s with mae := { s.mae with prevOwner := m } }
    if maeWipeOn s ∧ prev ≠ 0 ∧ prev ≠ m then maeWipe s else s
  else s

/-! ### Short jobs by register (R327, R343) -/

def slockOwned (s : State) (m : Master) (f : State → State) : State :=
  if lockOwner s Reg.MAE_SLOCK = m ∧ m ≠ 0 then f s else maeNotOwner s

/-- Every slot of MAE_SARGS lies in the short window; 0, the value after reset, does not. -/
def shortSlotsOk (args : Word) : Bool := ([0, 8, 16, 24] : List Nat).all (fun lo => decide (112 ≤ bitsOf args lo 7))

/-- A write of MAE_SCTRL: reserved values of OP and LEN keep the old ones; START clears DONE and requests the job. -/
def shortWrite (s : State) (v : Word) : State :=
  let old := getR s Reg.MAE_SCTRL
  let op := if bitsOf v 0 2 = 0 then bitsOf old 0 2 else bitsOf v 0 2
  let len := if bitsOf v 16 10 = 0 ∨ 512 < bitsOf v 16 10 then bitsOf old 16 10 else bitsOf v 16 10
  let ctl := place 0 2 op ||| place 16 10 len
  if !bit v 4 then setR s Reg.MAE_SCTRL (ctl ||| (old &&& 0x4000000))
  else if op = 0 ∨ len = 0 ∨ !shortSlotsOk (getR s Reg.MAE_SARGS) ∨ s.mae.shortPending ∨ maeState s = 4 then
    maeRefused (setR s Reg.MAE_SCTRL (ctl ||| (old &&& 0x4000000)))
  else
    let s := setR { s with mae := { s.mae with shortPending := true, short := some (ctl, getR s Reg.MAE_SARGS) } }
      Reg.MAE_SCTRL ctl
    if maeBusy s then s else runShort s

/-- Zero the slots a pending short job names. -/
def zeroShortSlots (s : State) : State :=
  match s.mae.short with
  | none => s
  | some (_, args) => [0, 8, 16, 24].foldl (fun t lo => putTail t (bitsOf args lo 7) []) s

/-- A forced release ends the short job with CODE 0x01 and zeroes its window slots (R343). -/
def slockForce (s : State) : State :=
  let s := setR s Reg.MAE_SLOCK 0
  if s.mae.shortPending then
    shortFails (zeroShortSlots s) 1
  else s

def slockRelease (s : State) (m : Master) : State :=
  if m = 12 then slockForce s
  else if lockOwner s Reg.MAE_SLOCK = m then setR s Reg.MAE_SLOCK 0
  else s

/-! ### The rows -/

/-- MAE_LOCK_READ (R325). -/
def execMaeLockRead (m : Master) (s : State) : Out := done (guardedRead s m Reg.MAE_LOCK (fun s => maeLockRead s m))

/-- MAE_LOCK_RELEASE (R322, R324). -/
def execMaeLockRelease (m : Master) (s : State) : Out := done (guardedWrite s m Reg.MAE_LOCK (fun s => maeRelease s m))

/-- A MAE_CTRL row. -/
def maeCommand (s : State) (m : Master) (f : State → State) : State :=
  guardedWrite s m Reg.MAE_CTRL (fun s => maeOwned s m f)

/-- MAE_START (R323). -/
def execMaeStart (m : Master) (s : State) : Out := done (maeCommand s m maeStart)

/-- MAE_ABORT (R324). -/
def execMaeAbort (m : Master) (s : State) : Out := done (maeCommand s m maeAbort)

/-- MAE_CLEAR (R324). -/
def execMaeClear (m : Master) (s : State) : Out := done (maeCommand s m maeWipe)

/-- MAE_WIPE_DONE (R324). -/
def execMaeWipeDone (s : State) : Out :=
  done (if mainPower s && decide (maeState s = 4) then maeFree (setFieldR s Reg.MAE_STATUS 0 3 0) else s)

/-- MAE_JOB_DONE (R323). -/
def execMaeJobDone (outcome : Access) (s : State) : Out :=
  done (if mainPower s && maeRunning s then maeJobEnd s outcome else s)

/-- MAE_SLOCK_READ (R327). -/
def execMaeSlockRead (m : Master) (s : State) : Out :=
  done (guardedRead s m Reg.MAE_SLOCK (fun s => takeLock s m Reg.MAE_SLOCK))

/-- MAE_SLOCK_RELEASE (R327, R343). -/
def execMaeSlockRelease (m : Master) (s : State) : Out :=
  done (guardedWrite s m Reg.MAE_SLOCK (fun s => slockRelease s m))

/-- MAE_SHORT_START (R327): a write of MAE_SCTRL. -/
def execMaeShortStart (m : Master) (v : Word) (s : State) : Out :=
  done (guardedWrite s m Reg.MAE_SCTRL (fun s => slockOwned s m (fun s => shortWrite s v)))

/-- Park the long job in the internal buffer (R327). -/
def maePark (s : State) : State :=
  setFieldR { s with mae := { s.mae with job := none, parked := s.mae.job } } Reg.MAE_STATUS 0 3 2

/-- The parked job resumes. -/
def maeResume (s : State) : State :=
  setFieldR { s with mae := { s.mae with job := s.mae.parked, parked := none } } Reg.MAE_STATUS 0 3 1

/-- MAE_YIELD_POINT (R327): the long job is parked, the pending short job and request run, and it resumes. -/
def execMaeYieldPoint (s : State) : Out :=
  done (if mainPower s && maeRunning s && maeIzpen s then maeResume (maeFree (maePark s)) else s)

/-- MAE_BTR_REQUEST (R328): the request runs once no job of the owner does. -/
def execMaeBtrRequest (s : State) : Out := done (if mainPower s then runRequest s else s)

end Sys2Proof.Machine
end

