-- ==== Sys2Proof/Machine/LsuRows.lean ====
section
/-! DEFINITION. The rows of the Lattice Signing Unit (R332 to R342, R575). -/

namespace Sys2Proof.Machine

/-! ### Fences (R341, R342, R575) -/

/-- When the last lane goes, the branch tree unit's request ends, and the Manifest that waits for a signature is stored unsigned; one
that a lane signs already is signed by it (R341, R342, R575). -/
def unsignedNow (s : State) : State :=
  if anyLane s then s
  else
    let s := refuseRequest s
    if manifestRuns s then s else handOver (signJob s)

/-- A lane is fenced; a job in progress runs to its end. -/
def lsuFence (s : State) (n cause : Nat) : State := unsignedNow (fenceLane s n cause)

/-- Past SEAL_LIMIT seal faults within a second the lane is fenced (R341). -/
def laneDensity (s : State) (n : Nat) : State :=
  if fieldR s Reg.LSU_CHECK 16 4 < sealFaultCount s (12 + n) then lsuFence s n 2 else s

/-- A descriptor that met a seal fault ends with RESULT 0x06 (R339, R341). -/
def laneSealFault (s : State) (n a : Nat) (pusher : Master) (start : DWord) : State :=
  laneDensity (endDesc s a pusher 0x06 n 0 start) n

/-! ### The descriptor queue (R335, R339) -/

/-- With no lane unfenced, descriptors end with RESULT 0x09 (R342). -/
def noLaneEnds (s : State) : State := if (unfencedLanes s).isEmpty then endQueued s 0x09 (fun _ => true) else s

def lsuPush (s : State) (m : Master) (a : Word) : State :=
  if 32 ≤ s.descQueue.length then raise (orR s Reg.LSU_ERR 1) 266
  else if a.toNat % 64 ≠ 0 then raise (orR s Reg.LSU_ERR 2) 266
  else noLaneEnds { s with descQueue := s.descQueue ++ [(a.toNat, m)] }

/-- LSU_QPUSH (R335). -/
def execLsuQpush (m : Master) (addr : Word) (s : State) : Out :=
  done (guardedWrite s m Reg.LSU_QPUSH (fun s => lsuPush s m addr))

/-- LSU_FLUSH (R339). -/
def execLsuFlush (m : Master) (s : State) : Out :=
  done (guardedWrite s m Reg.LSU_CTRL (fun s => endQueued s 0x09 (fun _ => true)))

/-! ### A lane begins (R233, R333, R335 to R337, R340) -/

/-- A length outside R336, a reserved OP or FLAGS. -/
def descBadParam (d : Bytes) : Bool :=
  let pre := decide (descFlags d = 1)
  decide (1 < descFlags d) ||
    (match descOp d with
     | 1 => decide (descOutLen d < 1793) || pre
     | 2 => decide (descOutLen d < 1280) || decide (descInLen d = 0 ∨ 1048576 < descInLen d) ||
         (pre && decide (descInLen d ≠ 64))
     | 3 => decide (1048576 < descInLen d) || (pre && decide (descInLen d ≠ 64))
     | 4 => decide (descOutLen d < 1568) || pre
     | _ => true)

/-- The modes of R340. -/
def descModeOk (s : State) (d : Bytes) : Bool :=
  let work := decide (s.mode = .running) || decide (s.mode = .commissioning)
  decide (descOp d = 3) || work ||
    (decide (descOp d = 2 ∧ descBranch d = 4095) && (decide (s.mode = .maintenance) || decide (s.mode = .condemned)))

/-- The branch check of a descriptor, for master 27 and the pusher (R233, R336). -/
def descCheck (s : State) (d : Bytes) (pusher : Master) : Nat :=
  if descOp d = 3 then 0
  else if descOp d = 2 ∧ descBranch d = 4095 then (if hasPlate s then 0 else 0x06)
  else
    let u := useCheck s (descBranch d) (fun k => decide (k = if descOp d = 4 then 3 else 2)) [27, pusher.toNat]
    u.status

/-- Lane `n` takes the key of a descriptor: a signature loads it from the key store (R337). -/
def descKey (s : State) (n : Nat) (d : Bytes) : Signed :=
  match descOp d with
  | 1 => { state := s, sig := falconSeed (branchKey s (descBranch d)) }
  | 2 =>
    let k := loadKey s n (descBranch d)
    { state := k.state, sig := k.key.seed }
  | 4 => { state := s, sig := kemSeed (branchKey s (descBranch d)) }
  | _ => { state := s, sig := [] }

/-- RESULT of a descriptor that cannot run; 0 when it can. -/
def descRefusal (s : State) (d : Bytes) (pusher : Master) : Nat :=
  if descBadParam d then 0x07
  else if !descModeOk s d then 0x04
  else if descCheck s d pusher = 0x06 then 0x02
  else if descCheck s d pusher = 0x07 then 0x03
  else if descCheck s d pusher = 0x0D then 0x06
  else if descOp d = 2 ∧ !entReady s then 0x05
  else 0

/-- A use of a descriptor's branch: FALCON_SIGN is charged, key generation is not. -/
def descCharge (s : State) (d : Bytes) : State :=
  if descOp d = 2 ∧ descBranch d ≠ 4095 then useBranch s (descBranch d)
  else if descOp d = 3 ∨ descBranch d = 4095 then s
  else cachePath s (descBranch d)

def setLaneJob (s : State) (n : Nat) (j : LsuJob) : State := setLane s n { laneAt s n with job := some j, started := s.ttc }

/-- A lane takes the descriptor at the front of the queue. -/
def takeDesc (s : State) (n a : Nat) (pusher : Master) : State :=
  let r := reach s 27 .read a 64
  if r.outcome = .sealFault then laneSealFault r.state n a pusher s.ttc
  else if r.outcome ≠ .ok then endDesc r.state a pusher 0x07 n 0 s.ttc
  else
    let s := builtTable r.state
    let d := descBytes s a
    let res := descRefusal s d pusher
    if res = 0x06 then laneSealFault (sealFault s spineTile) n a pusher s.ttc
    else if res ≠ 0 then
      endDesc (noteCheck s { status := if res = 0x03 then 0x07 else 0, reason := 0 }) a pusher res n 0 s.ttc
    else
      let k := descKey (descCharge s d) n d
      setLaneJob k.state n (.desc a pusher d k.sig)

/-- A Manifest waits for a lane at the Seal unit's port. -/
def manifestWaits (s : State) : Bool :=
  (match s.su.jobs with
   | j :: _ => decide (j.phase = .signing) && j.signature.isEmpty
   | [] => false) && !manifestRuns s

/-- A lane takes the Manifest: it loads the key, unless signing has become impossible (R575). -/
def takeManifest (s : State) (n : Nat) : State :=
  if canSign s then
    let k := loadKey s n (keyBranch s)
    setLaneJob k.state n (.manifest k.key.seed)
  else handOver (signJob s)

/-- A free lane takes the next job, in the order of R333, and the lowest-numbered one first: the Seal unit's, then the branch tree
unit's request, which is carried out at once (log entry 3), then the descriptor at the front of the queue. -/
def laneStart (s : State) (n : Nat) : State :=
  if freeLane s ≠ some n then s
  else if manifestWaits s then takeManifest s n
  else if s.mae.request.isSome && hybridReady s then runRequest s
  else
    match s.descQueue with
    | [] => s
    | (a, m) :: r => takeDesc { s with descQueue := r } n a m

/-- LANE_JOB_START (R333). -/
def execLaneJobStart (lane : BitVec 2) (s : State) : Out := done (if mainPower s then laneStart s lane.toNat else s)

/-! ### A lane ends (R334 to R339) -/

/-- A finished operation: RESULT and the bytes it puts out. -/
structure DescEnd where
  state : State
  result : Nat
  out : Bytes
  deriving DecidableEq, Repr

/-- The verdict of FALCON_VERIFY on the padded format (R338, R339). -/
def verifyDesc (aux msg : Bytes) : Nat :=
  if !falconKeyOk (slice aux 0 1793) then 0x08
  else if falconVerify (slice aux 0 1793) msg (slice aux 1793 1280) then 0 else 1

/-- The Works Plate signs only ATTEST quotes and rescue requests (R244). -/
def plateMessage (msg : Bytes) : Bool :=
  (decide (msg.length = 265) && decide (msg.take 9 = ascii "XLX quote")) ||
    (decide (msg.length = 58) && decide (msg.take 10 = ascii "XLX rescue"))

/-- A signature under the Works Plate that it does not make: the mask is the LSU's alone (R233, R244). -/
def plateRefuses (d msg : Bytes) : Bool :=
  decide (descOp d = 2 ∧ descBranch d = 4095) && (decide (descFlags d = 1) || !plateMessage msg)

/-- What a lane does with the bytes it read. -/
def runDesc (s : State) (d seed msg aux : Bytes) : DescEnd :=
  match descOp d with
  | 1 => { state := s, result := 0, out := slice (falconPublic seed) 0 1793 }
  | 2 =>
    if entReady s then { state := (signWith s seed msg).state, result := 0, out := (signWith s seed msg).sig }
    else { state := s, result := 0x05, out := [] }
  | 3 => { state := countVerify s, result := verifyDesc aux msg, out := [] }
  | _ => { state := s, result := 0, out := slice (kemPublic seed) 0 1568 }

/-- An access of the lane failed. -/
def laneFault (s : State) (n a : Nat) (pusher : Master) (start : DWord) (o : Access) : State :=
  if o = .sealFault then laneSealFault s n a pusher start else endDesc s a pusher 0x07 n 0 start

/-- Read what a descriptor names. -/
def readDesc (s : State) (d : Bytes) : Reach :=
  if descOp d = 1 ∨ descOp d = 4 then { state := s, outcome := .ok }
  else
    let r := reach s 27 .read (descIn d) (descInLen d)
    if r.outcome ≠ .ok ∨ descOp d = 2 then r else reach r.state 27 .read (descAux d) 3073

/-- The end of a descriptor job. -/
def finishDesc (s : State) (n a : Nat) (pusher : Master) (d seed : Bytes) (start : DWord) (seen : Access) : State :=
  if seen ≠ .ok then laneFault (noteSeen s seen (12 + n)) n a pusher start seen
  else
    let r := readDesc s d
    if r.outcome ≠ .ok then laneFault r.state n a pusher start r.outcome
    else
      let s := r.state
      let msg := engineBytes s (descIn d) (descInLen d)
      let e := runDesc s d seed msg (engineBytes s (descAux d) 3073)
      if plateRefuses d msg then endDesc s a pusher 0x02 n 0 start
      else if e.out.isEmpty then endDesc e.state a pusher e.result n 0 start
      else
        let w := engineWrite e.state 27 (descOut d) e.out
        if w.outcome ≠ .ok then laneFault w.state n a pusher start w.outcome
        else endDesc w.state a pusher e.result n e.out.length start

/-- A Manifest job meets a seal fault: nothing is signed, the fault counts, and the Manifest waits for a lane again (R24, R341). -/
def manifestFault (s : State) (n : Nat) (seen : Access) : State :=
  laneDensity (noteSeen (setLane s n { laneAt s n with job := none }) seen (12 + n)) n

def laneEnd (s : State) (n : Nat) (seen : Access) : State :=
  let l := laneAt s n
  match l.job with
  | none => s
  | some (.manifest _) => if seen = .ok then manifestSigned s else manifestFault s n seen
  | some (.desc a m d seed) => finishDesc (setLane s n { l with job := none }) n a m d seed l.started seen

/-- LANE_JOB_DONE (R335); a lane that is free again serves the request that waits for one (R333). -/
def execLaneJobDone (lane : BitVec 2) (outcome : Access) (s : State) : Out :=
  done (if mainPower s then runRequest (laneEnd s lane.toNat outcome) else s)

/-! ### Fences by firmware and by self-test (R341) -/

/-- LSU_FENCE (R341). -/
def execLsuFence (m : Master) (bits : BitVec 4) (s : State) : Out :=
  done (guardedWrite s m Reg.LSU_FENCE (fun s =>
    (List.range 4).foldl (fun t n => if bits.getLsbD n then lsuFence t n 3 else t) s))

/-- LANE_SELF_TEST (R341): made between jobs. -/
def execLaneSelfTest (lane : BitVec 2) (pass : Bool) (s : State) : Out :=
  done (if !mainPower s ∨ pass ∨ (laneAt s lane.toNat).fenced ∨ (laneAt s lane.toNat).job.isSome then s
    else lsuFence s lane.toNat 1)

end Sys2Proof.Machine
end

