-- ==== Sys2Proof/Machine/EntRows.lean ====
section
/-! DEFINITION. The entropy source: health tests, conditioning, start-up, failures and reads (R347 to R359). -/

namespace Sys2Proof.Machine

/-! ### Health tests (R349) -/

/-- Samples of a block in sampling order, the least significant bit of each byte first (log entry 21). -/
def samples (block : Bytes) : List Bool := block.flatMap (fun b => (List.range 8).map (fun i => b.getLsbD i))

/-- A cell's run after one more sample. -/
def runStep (r : Bool × Nat) (x : Bool) : Bool × Nat := if r.2 ≠ 0 ∧ r.1 = x then (x, r.2 + 1) else (x, 1)

/-- Runs of the four cells, taken in rotation, and whether one reached 41. -/
def runTest : List Bool → List (Bool × Nat) → Bool → List (Bool × Nat) × Bool
  | [], r, bad => (r, bad)
  | x :: l, r, bad =>
    match r with
    | [] => (r, bad)
    | c :: rest =>
      let c' := runStep c x
      runTest l (rest ++ [c']) (bad || decide (41 ≤ c'.2))

def freshRuns : List (Bool × Nat) := List.replicate 4 (false, 0)

/-- The adaptive proportion test fails. -/
def proportionBad (l : List Bool) : Bool :=
  match l with
  | [] => false
  | x :: _ => decide (795 ≤ (l.filter (fun y => decide (y = x))).length)

/-! ### Registers -/

def entFatal (s : State) : Bool := bitR s Reg.ENT_STATUS 2

def setEntReason (s : State) (r : Nat) : State := setFieldR s Reg.ENT_STATUS 3 3 r

/-- An error response of the source: REASON, and event 283 at most once per millisecond (R355). -/
def entError (s : State) (r : Nat) : State := raiseLimited (setEntReason s r) 283

/-! ### Reads (R355, R357) -/

/-- Four bytes of the pool. -/
def poolWord (s : State) : DWord := BitVec.ofNat 64 (num s.ent.pool 0 4)

def takeWord (s : State) : State := { s with ent := { s.ent with pool := s.ent.pool.drop 4 } }

/-- The word that has been granted to a core's stalled instruction. -/
def grantOf (s : State) (m : Master) : Option Word :=
  (coreOfMaster m).bind (fun n => (s.ent.granted.find? (fun e => decide (e.1 = n))).map (fun e => e.2))

def dropGrant (s : State) (m : Master) : State :=
  { s with ent := { s.ent with granted := s.ent.granted.filter (fun e => !decide (some e.1 = coreOfMaster m)) } }

/-- A read waits for the pool. -/
def entWait (s : State) (r : EntRead) : State :=
  if s.ent.waiting.contains r then s else { s with ent := { s.ent with waiting := s.ent.waiting ++ [r] } }

def setWinner (s : State) (m : Master) : State := { s with ent := { s.ent with winner := m } }

/-- A read of ENT_DATA: data, a stall, or the error response after a fatal failure. -/
def readEnt (s : State) (m : Master) : State :=
  if entFatal s then readError (entError s 3)
  else
    match grantOf s m with
    | some w => readData (dropGrant s m) (w.setWidth 64)
    | none =>
      if 4 ≤ s.ent.pool.length then readData (setWinner (takeWord s) m) (poolWord s) else entWait s (.port m)

/-- The master of a waiting read; a core's by its lowest identity. -/
def readMaster : EntRead → Master
  | .port m => m
  | .core n _ => BitVec.ofNat 6 (1 + 4 * n)

/-- How far a master stands behind the last winner in the rotation of R29. -/
def turnsFrom (winner m : Master) : Nat := (m - winner - 1).toNat

/-- The waiting read whose turn it is: round-robin from the last winner, the first issued of one master's. -/
def nextRead (s : State) : Option EntRead :=
  s.ent.waiting.foldl (fun best r =>
    match best with
    | none => some r
    | some b => if turnsFrom s.ent.winner (readMaster r) < turnsFrom s.ent.winner (readMaster b) then some r else some b) none

/-- A waiting read receives the next word of the pool. -/
def serveRead (s : State) (r : EntRead) : State :=
  let w := poolWord s
  let s := setWinner (takeWord { s with ent := { s.ent with waiting := s.ent.waiting.erase r } }) (readMaster r)
  match r with
  | .port m => { readData s w with ports := { (readData s w).ports with served := s.ports.served ++ [(m, some (lo32 w))] } }
  | .core n _ => { s with ent := { s.ent with granted := s.ent.granted ++ [(n, lo32 w)] } }

/-- Serve the reads that wait, each in its turn (R356, R357). -/
def serveWaiting : Nat → State → State
  | 0, s => s
  | n + 1, s =>
    match nextRead s with
    | none => s
    | some r => if 4 ≤ s.ent.pool.length then serveWaiting n (serveRead s r) else s

/-- A waiting read of a master ends with an error response. -/
def failRead (s : State) (m : Master) : State :=
  let s := readError { s with ent := { s.ent with waiting := s.ent.waiting.erase (.port m) } }
  { s with ports := { s.ports with served := s.ports.served ++ [(m, none)] } }

/-! ### Blocks (R350, R351, R353, R354) -/

/-- A passing block enters the pool if there is room for it. -/
def condition (s : State) (block : Bytes) : State :=
  if s.ent.pool.length + 32 ≤ 256 then
    let s := { s with ent := { s.ent with pool := s.ent.pool ++ shake256 (slice block 0 128) 32 } }
    serveWaiting s.ent.waiting.length s
  else s

/-- A permutation of the 50 channels from 50 random bytes, by exchanges from the last place down (log entry 40). -/
def shuffle : Nat → Bytes → List Nat → List Nat
  | 0, _, l => l
  | n + 1, b, l =>
    let j := byteAt b n % (n + 1)
    let x := l.getD n 0
    let y := l.getD j 0
    shuffle n b ((l.set n y).set j x)

/-- K_ctx, K_sv and the hop sequence are drawn at the first READY, and what waited for it goes on (R91, R313, R475, R539). -/
def drawBootKeys (s : State) : State :=
  if s.lne.kctx.isEmpty then
    let s := drawn { s with lne := { s.lne with kctx := drawBytes s 32 } } 32
    let s := drawn { s with kde := { s.kde with ksv := drawBytes s 32 } } 32
    let s := drawn { s with lko := { s.lko with hop := shuffle 50 (drawBytes s 50) (List.range 50) } } 50
    retryEntry (setReady s)
  else s

/-- The start-up samples have passed: READY and event 280. -/
def entStarted (s : State) : State := raise (clearR (orR s Reg.ENT_STATUS 1) Reg.ENT_STATUS 2) 280

def blockPassed (s : State) (block : Bytes) : State :=
  match s.ent.startup with
  | 0 => condition s block
  | 1 => drawBootKeys (condition (entStarted { s with ent := { s.ent with startup := 0 } }) block)
  | n + 1 => { s with ent := { s.ent with startup := n } }

/-- The fourth failure among the last 64 blocks (R354). The cores whose instructions wait take their bus faults in the same
step (TamemSys, `endCoreReads`). -/
def entFatalNow (s : State) : State :=
  let waiting := s.ent.waiting
  let s := raise (orR (clearR { s with ent := { s.ent with pool := [], biased := false, granted := [] } } Reg.ENT_STATUS 2)
    Reg.ENT_STATUS 4) 282
  let s := if waiting.isEmpty then s else entError s 3
  let s := waiting.foldl (fun t r => match r with
    | .port m => failRead t m
    | .core _ _ => t) s
  { s with tripsDue := s.tripsDue ++ [103] }

/-- A restart: the cells are biased anew and the start-up samples taken again (R351, R353); the runs of the cells carry over
(R349). -/
def entRestart (s : State) : State :=
  orR { s with ent := { s.ent with biased := false, startup := 4 } } Reg.ENT_STATUS 2

def blockFailed (s : State) : State :=
  let s := raise (setR s Reg.ENT_FAILS (place 0 16 (min 65535 (fieldR s Reg.ENT_FAILS 0 16 + 1)))) 281
  if 4 ≤ (s.ent.recent.filter (fun x => x)).length then entFatalNow s else entRestart s

/-- Test a block (R349). -/
def testBlock (s : State) (block : Bytes) : State :=
  let l := samples (slice block 0 128)
  let t := runTest l (if s.ent.runs.isEmpty then freshRuns else s.ent.runs) false
  let bad := t.2 || proportionBad l
  let recent := (bad :: s.ent.recent).take 64
  let s := countR64 { s with ent := { s.ent with runs := t.1, recent := recent } } Reg.ENT_BLOCKS 1
  let s := setFieldR s Reg.ENT_STATUS 16 3 (min 4 (recent.filter (fun x => x)).length)
  let s := setFieldR s Reg.ENT_STATUS 24 2 (if bad then 2 else 1)
  if bad then blockFailed s else blockPassed s block

/-! ### The rows -/

/-- ENT_BIAS_DONE (R351, R353). -/
def execEntBiasDone (s : State) : Out :=
  .next (if mainPower s && !entFatal s then { s with ent := { s.ent with biased := true } } else s)

/-- ENT_DATA_READ (R355). -/
def execEntDataRead (m : Master) (s : State) : Out := done (guardedRead s m Reg.ENT_DATA (fun s => readEnt s m))

end Sys2Proof.Machine
end

