-- ==== Sys2Proof/Machine/BootRec.lean ====
section
/-! DEFINITION. The boot record, its two copies, the image header and its checks (R530 to R533, R567). -/

namespace Sys2Proof.Machine

/-! ### The record (R530) -/

structure BootRec where
  seq : Nat
  /-- 0 EMPTY, 1 LOADING, 2 PENDING, 3 TRIAL, 4 GOOD, 5 BAD -/
  stateA : Nat
  stateB : Nat
  /-- slot B is ACTIVE -/
  active : Bool
  verA : Nat
  verB : Nat
  deriving DecidableEq, Repr

def BootRec.empty : BootRec := { seq := 0, stateA := 0, stateB := 0, active := false, verA := 0, verB := 0 }

def recOk (b : Bytes) : Bool :=
  decide (b.take 4 = ascii "XLXB") && decide (byteAt b 4 = 1) && decide (slice b 32 32 = sha3_256 (slice b 0 32))

def parseRec (b : Bytes) : BootRec :=
  { seq := num b 8 8, stateA := byteAt b 16, stateB := byteAt b 17, active := decide (byteAt b 18 = 1),
    verA := num b 20 4, verB := num b 24 4 }

def recBytes (r : BootRec) : Bytes :=
  let h := ascii "XLXB" ++ [1, 0, 0, 0] ++ le 8 r.seq ++
    [BitVec.ofNat 8 r.stateA, BitVec.ofNat 8 r.stateB, BitVec.ofNat 8 (b2n r.active), 0] ++ le 4 r.verA ++ le 4 r.verB ++
    zeros 4
  h ++ sha3_256 h

/-- Copy 1 holds the newest valid record. -/
def newestIsOne (s : State) : Bool :=
  recOk s.flash.bootRec1 &&
    (!recOk s.flash.bootRec0 || decide ((parseRec s.flash.bootRec0).seq < (parseRec s.flash.bootRec1).seq))

/-- The valid record; none when neither copy is valid. -/
def bootRec? (s : State) : Option BootRec :=
  if newestIsOne s then some (parseRec s.flash.bootRec1)
  else if recOk s.flash.bootRec0 then some (parseRec s.flash.bootRec0)
  else none

/-- With no valid record both slots count as EMPTY (R531). -/
def bootRec (s : State) : BootRec := (bootRec? s).getD BootRec.empty

/-- Write the record to the copy that does not hold the newest one; a copy on a failed die is passed over. The copies lie on
dies 0 and 2 (R567). -/
def writeRec (s : State) (r : BootRec) : State :=
  let b := recBytes { r with seq := (bootRec s).seq + 1 }
  let zero := (newestIsOne s || (bootRec? s).isNone || s.flash.deadDies.getLsbD 2) && !s.flash.deadDies.getLsbD 0
  if zero then { s with flash := { s.flash with bootRec0 := b } }
  else if s.flash.deadDies.getLsbD 2 then s
  else { s with flash := { s.flash with bootRec1 := b } }

def slotState (r : BootRec) (slotB : Bool) : Nat := if slotB then r.stateB else r.stateA
def slotVersion (r : BootRec) (slotB : Bool) : Nat := if slotB then r.verB else r.verA

/-- Mark a slot; its VERSION is kept only while it is PENDING, TRIAL or GOOD. -/
def markSlot (r : BootRec) (slotB : Bool) (st ver : Nat) : BootRec :=
  let v := if st = 2 ∨ st = 3 ∨ st = 4 then ver else 0
  if slotB then { r with stateB := st, verB := v } else { r with stateA := st, verA := v }

/-! ### Images (R532, R533) -/

def imgLength (h : Bytes) : Nat := num h 16 4
def imgVersion (h : Bytes) : Nat := num h 8 4
def imgMinVersion (h : Bytes) : Nat := num h 12 4
def imgEntry (h : Bytes) : Nat := num h 20 4
def imgKind (h : Bytes) : Nat := byteAt h 5

/-- Check 1: the fields and the zero bytes of the header. -/
def imgHeaderOk (h : Bytes) : Bool :=
  decide (h.take 4 = ascii "XLXI") && decide (byteAt h 4 = 1) && decide (imgKind h = 1 ∨ imgKind h = 2) &&
    decide (num h 6 2 = 0) && decide (imgMinVersion h ≤ imgVersion h) &&
    decide (imgLength h % 4096 = 0 ∧ 4096 ≤ imgLength h ∧ imgLength h ≤ 67104768) &&
    decide (imgEntry h % 4 = 0 ∧ imgEntry h < imgLength h) && decide (num h 24 8 = 0) && allZero (slice h 64 64) &&
    allZero (slice h 3201 895)

def imgHeader (s : State) (slotB : Bool) : Bytes := slotBytes s (b2n slotB) 0 4096

/-- IMAGE_DIGEST. -/
def imgDigest (s : State) (slotB : Bool) : Bytes :=
  let h := imgHeader s slotB
  shake256 (slice h 0 128 ++ slotBytes s (b2n slotB) 4096 (imgLength h)) 64

/-- The version floor (R538, R558). -/
def versionFloor (s : State) : Nat := (sstGet s 18).toNat % 4294967296

/-- The first check of R533 that fails; 0 when the image passes. -/
def imgCheck (s : State) (slotB : Bool) : Nat :=
  let h := imgHeader s slotB
  if !imgHeaderOk h then 1
  else if sha3_256 (slice h 128 1793) ≠ Config.imageKeyDigest then 2
  else if imgVersion h < versionFloor s then 3
  else if !falconVerify (slice h 128 1793) (imgDigest s slotB) (slice h 1921 1280) then 4
  else 0

end Sys2Proof.Machine
end

