-- ==== Sys2Proof/Machine/FlashRows.lean ====
section
/-! DEFINITION. The flash controller's commands, the code window, and the loss of a die (R290, R292 to R298, R302, R566). -/

namespace Sys2Proof.Machine

/-! ### Results (R302) -/

/-- FLC_RESULT, final. -/
def flcResult (s : State) (st : Nat) : State := setR s Reg.FLC_RESULT (withInverse st ||| 0x80000000)

/-- A command ends. -/
def flcEnd (s : State) (st : Nat) : State := flcResult { s with flash := { s.flash with op := none } } st

def argDie (s : State) : Nat := fieldR s Reg.FLC_ARG 0 2
def argBlock (s : State) : Nat := fieldR s Reg.FLC_ARG 2 11
def argPage (s : State) : Nat := fieldR s Reg.FLC_ARG 13 12

def dieDead (s : State) (d : Nat) : Bool := s.flash.deadDies.getLsbD d

/-- The block is retired or its die has failed. -/
def blockBad (s : State) (d b : Nat) : Bool := (blockAt s d b).retired || dieDead s d

/-- A mapped slice lies in the block (R294). -/
def blockMapped (s : State) (d b : Nat) : Bool := s.flash.slices.any (fun e => e.2.valid && decide (e.2.die = d ∧ e.2.block = b))

/-- The image slot that holds a block is being updated: it is LOADING. -/
def slotUpdating (s : State) (k : Nat) : Bool := decide (slotState (bootRec s) (decide (slotOfDie (k / 1696) = 1)) = 1)

/-- The stripe of the log window that a block serves in, with the serial before its first one. -/
def stripeOf (s : State) (d b : Nat) : Option (Nat × Stripe) :=
  (withStart 0 s.flash.stripes).find? (fun e =>
    (planesOf e.2.dead).any (fun p => decide (turnBlock s e.2.slot p = blockKey d b)))

/-- A block that firmware may not program or erase, by the partition it serves in: the log, the staging ring, a spare, or a block
of the fixed partition other than one of a slot that is being updated (R295). -/
def blockProtected (s : State) (d b : Nat) : Bool :=
  let k := homeBlock s (blockKey d b)
  match partitionAt s d b with
  | .reserve => (stripeOf s d b).isSome
  | .fixed => !(isImageBlock (k % 1696) && slotUpdating s k)
  | _ => true

/-! ### Commands -/

/-- A write of FLC_CMD: ignored while BUSY; it clears FLC_RESULT.DONE, whatever OP it names (R302). -/
def flcCommand (s : State) (m : Master) (f : State → State) : State :=
  guardedWrite s m Reg.FLC_CMD (fun s =>
    if s.flash.op.isSome then orR s Reg.FLC_ERR 0x80 else f (clearR s Reg.FLC_RESULT 0x80000000))

/-- Start an operation of a die; none is started while the last-gasp seal runs (R297). -/
def startOp (s : State) (k : FlashOp) : State :=
  if s.power.lastGasp then s
  else { s with flash := { s.flash with op := some (k, argDie s, argBlock s, argPage s, (getR s Reg.FLC_BUF).toNat) } }

/-- FLC_CMD READ (R295): accepted on every block. -/
def execFlcRead (m : Master) (s : State) : Out := done (flcCommand s m (fun s => startOp s .read))

/-- The refusals of PROGRAM and ERASE; none when the command starts. -/
def flcRefusal (s : State) (program : Bool) : Option State :=
  let d := argDie s
  let b := argBlock s
  if blockMapped s d b then some (raise (orR (flcResult s 0x01) Reg.FLC_ERR 1) 326)
  else if blockProtected s d b then some (orR (flcResult s 0x02) Reg.FLC_ERR 2)
  else if blockBad s d b then some (flcResult s 0x03)
  else if program && !pageErased s d b (argPage s) then some (flcResult s 0x07)
  else none

/-- FLC_CMD PROGRAM (R294, R295). -/
def execFlcProgram (m : Master) (s : State) : Out :=
  done (flcCommand s m (fun s => (flcRefusal s true).getD (startOp s .program)))

/-- FLC_CMD ERASE (R294, R295). -/
def execFlcErase (m : Master) (s : State) : Out :=
  done (flcCommand s m (fun s => (flcRefusal s false).getD (startOp s .erase)))

/-- Reserve blocks in the order a CLAIM takes them: by die, then by number. -/
def reserveBlocks : List (Nat × Nat) :=
  (List.range 4).flatMap (fun d => (List.range 438).map (fun i => (d, 1130 + i)))

/-- The place of the Turntable that a block of the log or the reserve belongs to. -/
def placeOfBlock (b : Nat) : Nat := b / 2 - 80

/-- A free reserve block: its place holds no stripe of the log, and retirement has not taken it. -/
def freeReserve (s : State) : Option (Nat × Nat) :=
  reserveBlocks.find? (fun x => !blockBad s x.1 x.2 && !(blockAt s x.1 x.2).claimed &&
    !s.flash.stripes.any (fun t => decide (t.slot = placeOfBlock x.2)) && !s.flash.shrunk.contains (placeOfBlock x.2))

/-- FLC_CMD CLAIM (R295): the number of the block comes back in FLC_ARG. -/
def execFlcClaim (m : Master) (s : State) : Out :=
  done (flcCommand s m (fun s =>
    match freeReserve s with
    | none => flcResult s 0x08
    | some (d, b) =>
      let s := setBlock s d b { blockAt s d b with claimed := true }
      flcResult (setFieldR (setFieldR s Reg.FLC_ARG 0 2 d) Reg.FLC_ARG 2 11 b) 0))

/-- FLC_CMD RETURN (R295): a block that is not claimed ends with BAD_BLOCK. -/
def execFlcReturn (m : Master) (s : State) : Out :=
  done (flcCommand s m (fun s =>
    let k := blockAt s (argDie s) (argBlock s)
    if k.claimed then flcResult (setBlock s (argDie s) (argBlock s) { k with claimed := false }) 0 else flcResult s 0x03))

/-! ### The end of a command -/

/-- Pages of a block in its mode. -/
def pageExists (b p : Nat) : Bool := decide (p < if isSlc b then 768 else 2304)

/-! ### What a page holds (R274, R275, R295, R567)

The log keeps its frames, not its pages; a page of a stripe is laid out from them, a page of the staging ring from the writes in it,
and a page of the fixed blocks from what they hold. Where the spec gives no layout the byte is free (log entry 10). -/

/-- Data planes of a stripe, in the order its records fill them (log entry 10). -/
def dataPlanes (t : Stripe) : List Nat := (planesOf t.dead).filter (fun p => !decide (p = t.parity))

/-- The frames of a stripe are all held and readable. -/
def stripeKnown (s : State) (start : Nat) (t : Stripe) : Bool :=
  (decide (t.headBytes = 0) || (frameAt s start).isSome) &&
    s.log.frames.all (fun f => !(decide (start ≤ f.serial ∧ f.serial ≤ t.last) && f.lost))

/-- The record bytes of a stripe: the rest of the frame begun before it, then its frames. -/
def stripeBytesOf (s : State) (start : Nat) (t : Stripe) : Bytes :=
  let head := ((frameAt s start).map frameBytes).getD []
  head.drop (head.length - t.headBytes) ++
    (s.log.frames.filter (fun f => decide (start < f.serial ∧ f.serial ≤ t.last))).flatMap frameBytes

/-- One page of a data plane: wordline `j` of those that hold records, page `q` of the wordline, plane number `i`. -/
def dataPage (t : Stripe) (b : Bytes) (i j q : Nat) : Bytes :=
  slice b ((j * (dataPlanes t).length + i) * wordlineBytes + q * 16384) 16384

/-- A page of a stripe: records on its data planes, their exclusive or on its parity plane. -/
def stripePage (t : Stripe) (b : Bytes) (plane j q : Nat) : Bytes :=
  if plane = t.parity then
    (List.range (dataPlanes t).length).foldl (fun x i => xorBytes x (dataPage t b i j q)) (zeros 16384)
  else dataPage t b ((dataPlanes t).idxOf plane) j q

/-- A page of free bytes: the same at every READ while the content is the same. -/
def openPage (kind : Nat) (content : Bytes) (place : Nat) : Bytes :=
  (List.range 16384).map (fun i => Config.pageByte kind content (place + i))

/-- Bytes from `o` of a stream laid over a page that begins at `at_`. -/
def overlay16K (page : Bytes) (at_ o : Nat) (b : Bytes) : Bytes :=
  if at_ < o + b.length ∧ o < at_ + 16384 then
    patch page (o - at_) (slice b (at_ - o) (min (o + b.length) (at_ + 16384) - max o at_))
  else page

/-- The page of the staging stream that stands in a page of the ring: the planes take the pages in turn, and the block that the ring
writes next is erased as it is entered (R275, R285); none where it is erased. -/
def ringPage (s : State) (d b p : Nat) : Option Nat :=
  let pl := planesOf s.flash.deadDies
  let k := homeBlock s (blockKey d b)
  let row := (k % 1696 / 2 - 3) * 768 + p
  let n := row * pl.length + pl.idxOf (k / 1696 * 2 + k % 2)
  let turn := 73 * 768 * pl.length
  let written := (s.flash.stagingBytes + 16383) / 16384
  let head := written % turn
  if n < head then some (written / turn * turn + n)
  else if written < turn ∨ n < (head + 768 * pl.length - 1) / (768 * pl.length) * (768 * pl.length) then none
  else some ((written / turn - 1) * turn + n)

/-- A page of the staging ring. -/
def stagingPage (s : State) (d b p : Nat) : Bytes :=
  match ringPage s d b p with
  | none => erasedPage
  | some n => s.flash.ring.foldr (fun e page => overlay16K page (n * 16384) e.1 e.2) (openPage 0 [] (n * 16384))

/-- The sealed settings, as their copies hold them. -/
def settingBytes (s : State) : Bytes := (List.range 32).flatMap (fun i => le 8 (sstGet s i).toNat ++ le 4 (sstCount s i))

/-- The fixed part of the Station register (R255, R260, R269). -/
def registerBytes (s : State) : Bytes :=
  s.stations.flatMap (fun e => le 2 e.1 ++ slice e.2.pubKey 0 1793 ++ slice e.2.label 0 32 ++ slice e.2.pubDigest 0 32 ++
    slice e.2.ctDigest 0 32 ++ slice e.2.escrow 0 32 ++ slice e.2.escrowCheck 0 8 ++ [e.2.format])

/-- Bytes that stand from the first byte of a block, and are followed by erased bytes. -/
def blockPage (b : Bytes) (p : Nat) : Bytes := overlay16K erasedPage (p * 16384) 0 b

/-- A page of the table image: its bytes, then its count records, whose layout is not given (R240, R241). -/
def imagePage (s : State) (p : Nat) : Bytes :=
  match s.image with
  | some t => overlay16K (openPage 1 (t.bytes ++ t.counts.flatMap (fun e => le 2 e.1 ++ le 4 e.2.toNat)) (p * 16384)) (p * 16384) 0 t.bytes
  | none => erasedPage

/-- A page of the blocks that R567 leaves beside the image slots: on dies 0 and 2 the boot record and the sealed settings, on dies 1
and 3 the table image and the Station register, in this order of the planes (log entry 10). -/
def fixedPage (s : State) (k p : Nat) : Bytes :=
  let die := k / 1696
  if k % 2 = 0 then
    if die = 0 then blockPage s.flash.bootRec0 p
    else if die = 2 then blockPage s.flash.bootRec1 p
    else imagePage s p
  else if die % 2 = 0 then openPage 2 (settingBytes s) (p * 16384)
  else openPage 3 (registerBytes s) (p * 16384)
/-- A page of the log: erased past what was programmed, open where a wordline was abandoned or a frame is gone. -/
def logPage (s : State) (e : Nat × Stripe) (d b p : Nat) : Option Bytes :=
  let t := e.2
  let plane := homeBlock s (blockKey d b) / 1696 * 2 + homeBlock s (blockKey d b) % 2
  if t.used ≤ p / 3 then some erasedPage
  else if t.skipped.contains (p / 3) ∨ !stripeKnown s e.1 t then none
  else
    let j := p / 3 - (t.skipped.filter (fun w => decide (w < p / 3))).length
    some (stripePage t (stripeBytesOf s e.1 t) plane j (p % 3))

/-- What a READ finds in a page; none where it is open. -/
def pageHeld (s : State) (d b p : Nat) : Option Bytes :=
  match stripeOf s d b with
  | some e => logPage s e d b p
  | none =>
    match partitionAt s d b with
    | .staging => some (stagingPage s d b p)
    | .fixed =>
      let k := homeBlock s (blockKey d b)
      some (if isImageBlock (k % 1696) then getPage s d b p else fixedPage s k p)
    | _ => some (getPage s d b p)

/-- The page that a READ delivers. -/
def readPage (s : State) (d b p : Nat) : Bytes := (pageHeld s d b p).getD
  (openPage 4 (((stripeOf s d b).map (fun e => le 8 e.1)).getD []) (pageKey d b p * 16384))

/-- FLC_RESULT of a command whose access to FLC_BUF fails: 0x0D where it met a seal mismatch (R24), else the command's own code
(log entry 142). -/
def bufStatus (o : Access) (st : Nat) : Nat := if o = .sealFault then 0x0D else st

/-- The page in a die's interface holds a seal mismatch: event 192, counted for the interface's tile, and nothing is delivered; the next
page through it has fresh seals (R21, R24, R430). -/
def nandFault (s : State) (d : Nat) : State := flcEnd (sealPrivate (sealFault s (16 + d)) (.nand d)) 0x0D

def readEnd (s : State) (d b p buf : Nat) (ok : Bool) : State :=
  if !ok ∨ dieDead s d ∨ !pageExists b p then flcEnd s 0x06
  else if privateBad s (.nand d) then nandFault s d
  else
    let r := engineWrite s 28 buf (readPage s d b p)
    flcEnd r.state (if r.outcome = .ok then 0 else bufStatus r.outcome 0x06)

def programEnd (s : State) (d b p buf : Nat) (ok : Bool) : State :=
  let r := reach s 28 .read buf 16384
  if r.outcome ≠ .ok ∨ !pageExists b p then flcEnd r.state (bufStatus r.outcome 0x04)
  else if privateBad r.state (.nand d) then nandFault r.state d
  else if !ok ∨ dieDead s d then flcEnd (retireBlock r.state d b) 0x04
  else flcEnd (putPage r.state d b p (engineBytes r.state buf 16384)) 0

def eraseEnd (s : State) (d b : Nat) (ok : Bool) : State :=
  if !ok ∨ dieDead s d then flcEnd (retireBlock s d b) 0x05 else flcEnd (eraseBlock s d b) 0

def flashOpEnd (s : State) (ok : Bool) : State :=
  match s.flash.op with
  | some (.read, d, b, p, buf) => readEnd s d b p buf ok
  | some (.program, d, b, p, buf) => programEnd s d b p buf ok
  | some (.erase, d, b, _, _) => eraseEnd s d b ok
  | _ => s

/-- FLASH_OP_DONE (R295, R302): `ok` is false when the array reports a failure. -/
def execFlashOpDone (ok : Bool) (s : State) : Out := done (if mainPower s then flashOpEnd s ok else s)

/-! ### The code window (R292, R293) -/

def sliceAt (s : State) (n : Nat) : Slice :=
  (mget? s.flash.slices n).getD { die := 0, block := 0, offset := 0, valid := false }

def sliceOf (a : Nat) : Nat := (a - 0x30000000) / 0x100000

/-- A cache line of the window, by its 4 KiB codeword; 128 sets of 8 ways, least recently used replaced. -/
def cacheFetch (l : List Nat) (n : Nat) : List Nat :=
  let l' := n :: l.filter (fun x => !decide (x = n))
  let same := l'.filter (fun x => decide (x % 128 = n % 128))
  if same.length ≤ 8 then l' else l'.filter (fun x => (same.take 8).contains x || !decide (x % 128 = n % 128))

/-- The codeword of an address of the window. -/
def codewordOf (a : Nat) : Nat := (a - 0x30000000) / 4096

/-- A fetch finds its codeword cached with a seal mismatch (R24, R293). -/
def windowBad (s : State) (a : Nat) : Bool := s.flash.cwCache.contains (codewordOf a) && privateBad s (.codeLine (codewordOf a))

/-- A fetch from the window: a miss fills the codeword's line with fresh seals. -/
def windowFetch (s : State) (a : Nat) : State :=
  sealPrivate { s with flash := { s.flash with cwCache := cacheFetch s.flash.cwCache (codewordOf a) } } (.codeLine (codewordOf a))

/-- A write of FLC_CW_MAP: reserved encodings keep their fields; the slice's cache lines are invalid before it completes. -/
def mapWrite (s : State) (v : Word) : State :=
  let n := fieldR s Reg.FLC_CW_SEL 0 8
  let old := sliceAt s n
  let fixed := decide (partitionAt s (bitsOf v 0 2) (bitsOf v 2 11) = .fixed)
  let s := if fixed then s else orR s Reg.FLC_ERR 4
  let t : Slice := {
    die := bitsOf v 0 2, block := if fixed then bitsOf v 2 11 else old.block,
    offset := if bitsOf v 13 4 ≤ 11 then bitsOf v 13 4 else old.offset, valid := bit v 31 }
  { s with flash := { s.flash with slices := mput s.flash.slices n t,
                                   cwCache := s.flash.cwCache.filter (fun x => !decide (x / 256 = n)) } }

/-- CW_MAP_WRITE (R293, R302). -/
def execCwMapWrite (m : Master) (v : Word) (s : State) : Out :=
  done (guardedWrite s m Reg.FLC_CW_MAP (fun s => mapWrite s v))

/-! ### The loss of a die (R290, R566) -/

/-- The plane of a stripe that holds the wordline `k` of its record bytes. -/
def planeOfChunk (t : Stripe) (k : Nat) : Nat := (dataPlanes t).getD (k % max 1 (dataPlanes t).length) 0

/-- Some of `n` bytes from offset `o` of a stripe lie on a die. -/
def touchesDie (t : Stripe) (die o n : Nat) : Bool :=
  decide (0 < n) && (List.range (min 8 ((o + n - 1) / wordlineBytes - o / wordlineBytes + 1))).any (fun i =>
    decide (planeOfChunk t (o / wordlineBytes + i) / 2 = die))

/-- Serials of a stripe with bytes on a die: its frames with their sizes, from an offset on. -/
def lostFrames (t : Stripe) (die : Nat) : Nat → List (Nat × Nat) → List Nat
  | _, [] => []
  | o, (n, size) :: r =>
    let cap := 768 * (dataPlanes t).length * wordlineBytes
    (if touchesDie t die o (min size (cap - o)) then [n] else []) ++ lostFrames t die (o + size) r

/-- Frames that end or begin in a stripe, the one begun before it with the bytes it has here. -/
def stripeFrames (s : State) (start : Nat) (t : Stripe) : List (Nat × Nat) :=
  (if t.headBytes = 0 then [] else [(start, t.headBytes)]) ++
    (s.log.frames.filter (fun f => decide (start < f.serial ∧ f.serial ≤ t.last))).map (fun f => (f.serial, frameSize f))

/-- Some of `n` bytes from byte `o` of the staging stream lie on a die: the ring fills the serving planes page by page. -/
def stagedOn (s : State) (die o n : Nat) : Bool :=
  let pl := planesOf s.flash.deadDies
  (List.range (min 8 ((o + n - 1) / pageBytes - o / pageBytes + 1))).any (fun i =>
    decide (pl.getD ((o / pageBytes + i) % max 1 pl.length) 0 / 2 = die))

/-- Staged frames whose bytes lie on a die. -/
def stagedLost (s : State) (die : Nat) : List Nat :=
  (s.flash.staged.filter (fun e => stagedOn s die e.2 (sizeAt s e.1))).map (fun e => e.1)

/-- Deltas and the staging checkpoint with bytes on a die can no longer be read. -/
def loseStaged (s : State) (die : Nat) : SealUnit :=
  { s.su with
    deltas := s.su.deltas.map (fun d => { d with lost := d.lost || stagedOn s die d.at_ d.size }),
    stagedCkpt := s.su.stagedCkpt.map (fun c => { c with lost := c.lost || stagedOn s die c.at_ c.size }) }

/-- Every serial lost with a die. -/
def lostSerials (s : State) (die : Nat) : List Nat :=
  (withStart 0 s.flash.stripes).flatMap (fun e => lostFrames e.2 die 0 (stripeFrames s e.1 e.2)) ++ stagedLost s die

/-- A die is declared failed. -/
def failDie (s : State) (die : Nat) : State :=
  let lost := lostSerials s die
  let lo := pageKey die 0 0
  let f := s.flash
  let s := markLost { s with su := loseStaged s die } lost
  let s := { s with
    flash := { f with
      deadDies := f.deadDies ||| (1#4 <<< die), pages := f.pages.filter (fun e => !decide (lo ≤ e.1 ∧ e.1 < lo + 1696 * 2304)),
      wordlines := 768, programming := false,
      bootRec0 := if die = 0 then [] else f.bootRec0, bootRec1 := if die = 2 then [] else f.bootRec1 },
    image := if (die = 1 ∧ f.deadDies.getLsbD 3) ∨ (die = 3 ∧ f.deadDies.getLsbD 1) then none else s.image }
  raise (raise (orR s Reg.FLC_ERR 0x10) 325) 330

/-- NAND_DIE_FAILED (R566). -/
def execNandDieFailed (die : BitVec 2) (s : State) : Out :=
  done (if mainPower s && !dieDead s die.toNat then noteLog (failDie s die.toNat) else s)

end Sys2Proof.Machine
end

