-- ==== Sys2Proof/Machine/MbxRows.lean ====
section
/-! DEFINITION. Mailboxes and tablets (R408 to R412). -/

namespace Sys2Proof.Machine

def Mailbox.empty : Mailbox := { senders := 0, receiver := 0, claimant := 0, full := false, value := 0, sender := 0 }

def mailbox (s : State) (n : Nat) : Mailbox := s.mailboxes[n]?.getD Mailbox.empty

def setMailbox (s : State) (n : Nat) (b : Mailbox) : State := { s with mailboxes := s.mailboxes.setIfInBounds n b }

/-- An access that the mailbox refuses: REFUSED, and event 480 at most once per millisecond. -/
def mbxRefused (s : State) : State := raiseLimited (orR s Reg.MBX_ERR 1) 480

/-- The identity may claim and post; RECEIVER 0 disables the mailbox. -/
def maySend (b : Mailbox) (m : Master) : Bool :=
  decide (1 ≤ m.toNat ∧ m.toNat ≤ 16) && b.senders.getLsbD (m.toNat - 1) && decide (b.receiver ≠ 0)

/-! ### Claim, post, take (R409) -/

def claimRead (s : State) (m : Master) (n : Nat) : State :=
  let b := mailbox s n
  if !maySend b m then mbxRefused (readData s 63)
  else if b.claimant ≠ 0 then readData s (b.claimant.setWidth 64)
  else if b.full then readData s 62
  else readData (setMailbox s n { b with claimant := m }) 0

/-- MBX_CLAIM_READ. -/
def execMbxClaimRead (m : Master) (n : BitVec 4) (s : State) : Out :=
  done (guardedRead s m (Reg.MBX_CLAIM n.toNat) (fun s => claimRead s m n.toNat))

def isClaimant (b : Mailbox) (m : Master) : Bool := decide (b.claimant = m ∧ m ≠ 0)

def claimFree (s : State) (m : Master) (n : Nat) : State :=
  let b := mailbox s n
  if isClaimant b m then setMailbox s n { b with claimant := 0 } else mbxRefused s

/-- MBX_CLAIM_FREE. -/
def execMbxClaimFree (m : Master) (n : BitVec 4) (s : State) : Out :=
  done (guardedWrite s m (Reg.MBX_CLAIM n.toNat) (fun s => claimFree s m n.toNat))

def post (s : State) (m : Master) (n : Nat) (v : Word) : State :=
  let b := mailbox s n
  if isClaimant b m ∧ v ≠ 0 then
    raise (setMailbox s n { b with claimant := 0, full := true, value := v, sender := m }) (448 + n)
  else mbxRefused s

/-- MBX_POST. -/
def execMbxPost (m : Master) (n : BitVec 4) (v : Word) (s : State) : Out :=
  done (guardedWrite s m (Reg.MBX_DATA n.toNat) (fun s => post s m n.toNat v))

def take (s : State) (m : Master) (n : Nat) : State :=
  let b := mailbox s n
  if b.receiver ≠ m ∨ m = 0 then mbxRefused (readData s 0)
  else if b.full then
    raise (setMailbox (readData s (b.value.setWidth 64)) n { b with full := false, value := 0 }) (464 + n)
  else readData s 0

/-- MBX_TAKE. -/
def execMbxTake (m : Master) (n : BitVec 4) (s : State) : Out :=
  done (guardedRead s m (Reg.MBX_TAKE n.toNat) (fun s => take s m n.toNat))

/-- A write of MBX_CFG empties the mailbox and frees the claim (R411). -/
def cfgWrite (s : State) (n : Nat) (v : Word) : State :=
  setMailbox s n { mailbox s n with
    senders := BitVec.ofNat 16 (bitsOf v 0 16), receiver := BitVec.ofNat 6 (bitsOf v 16 6), claimant := 0, full := false,
    value := 0 }

/-- MBX_CFG_WRITE (R411, R412). -/
def execMbxCfgWrite (m : Master) (n : BitVec 4) (v : Word) (s : State) : Out :=
  done (guardedWrite s m (Reg.MBX_CFG n.toNat) (fun s => cfgWrite s n.toNat v))

/-! ### Tablets (R410) -/

def tablet (s : State) (t : Nat) : Master := s.tablets[t]?.getD 0

def setTablet (s : State) (t : Nat) (m : Master) : State := { s with tablets := s.tablets.setIfInBounds t m }

def tabletTake (s : State) (m : Master) (t : Nat) : State :=
  let o := tablet s t
  readData (if o = 0 then setTablet s t m else s) (o.setWidth 64)

/-- TABLET_READ. -/
def execTabletRead (m : Master) (t : BitVec 6) (s : State) : Out :=
  done (guardedRead s m (Reg.TBL t.toNat) (fun s => tabletTake s m t.toNat))

/-- The owner frees a tablet; identity 4 frees one whoever owns it, with event 481. -/
def tabletFree (s : State) (m : Master) (t : Nat) : State :=
  let o := tablet s t
  if m = 4 then raise (setTablet s t 0) 481
  else if o = m then setTablet s t 0
  else s

/-- TABLET_RELEASE. -/
def execTabletRelease (m : Master) (t : BitVec 6) (s : State) : Out :=
  done (guardedWrite s m (Reg.TBL t.toNat) (fun s => tabletFree s m t.toNat))

end Sys2Proof.Machine
end

