-- ==== Sys2Proof/Machine/IlkRows.lean ====
section
/-! DEFINITION. Changing routes, the shadow compare, and debug sessions (R420 to R424, R429, R432 to R437). -/

namespace Sys2Proof.Machine

/-! ### Routes (R413, R420, R421) -/

def noRoute : Route :=
  { valid := false, lock := false, debug := 0, base := 0, limit := 0, rmask := 0, wmask := 0, xmask := 0 }

def routeAt (s : State) (n : Nat) : Route := (mget? s.routes n).getD noRoute

def ilkSel (s : State) : Nat := fieldR s Reg.ILK_SEL 0 10

/-- The staged route. -/
def stagedRoute (s : State) : Route :=
  { valid := bitR s Reg.ILK_ATTR 0, lock := bitR s Reg.ILK_ATTR 1, debug := BitVec.ofNat 2 (fieldR s Reg.ILK_ATTR 2 2),
    base := fieldR s Reg.ILK_BASE 12 20, limit := fieldR s Reg.ILK_LIMIT 12 20, rmask := getR64 s Reg.ILK_RMASK,
    wmask := getR64 s Reg.ILK_WMASK, xmask := getR64 s Reg.ILK_XMASK }

/-- COMMIT: the route changes in the central table and in the shadows together, in fresh cells (R420, R429). -/
def commit (s : State) : State :=
  let n := ilkSel s
  let r := stagedRoute s
  if (routeAt s n).lock then raise (orR s Reg.ILK_ERR 1) 199
  else if r.debug = 3 ∨ r.limit < r.base then orR s Reg.ILK_ERR 2
  else { s with routes := mput s.routes n r, shadows := s.shadows.map (fun t => mput t n r),
                badRoutes := s.badRoutes.filter (fun x => !decide (x = n)) }

/-- ILK_COMMIT (R420, R421). -/
def execIlkCommit (m : Master) (s : State) : Out := done (guardedWrite s m Reg.ILK_CMD commit)

/-- LOAD: a route is copied into staging; one whose cells hold a seal fault is not delivered (R24, R435). -/
def loadRoute (s : State) : State :=
  let n := ilkSel s
  let r := routeAt s n
  if s.badRoutes.contains n then sealFault s 20
  else
    let s := setR s Reg.ILK_ATTR (place 0 1 (b2n r.valid) ||| place 1 1 (b2n r.lock) ||| place 2 2 (BitVec.toNat r.debug))
    let s := setR (setR s Reg.ILK_BASE (place 12 20 r.base)) Reg.ILK_LIMIT (place 12 20 r.limit)
    setR64 (setR64 (setR64 s Reg.ILK_RMASK r.rmask) Reg.ILK_WMASK r.wmask) Reg.ILK_XMASK r.xmask

/-- ILK_LOAD (R435). -/
def execIlkLoad (m : Master) (s : State) : Out := done (guardedWrite s m Reg.ILK_CMD loadRoute)

/-- Routes that reach pages of core `n`'s TCM: what its shadow holds (R424). -/
def tcmRoutes (n : Nat) (t : SMap Route) : SMap Route :=
  t.filter (fun e => e.2.valid && decide (e.2.base ≤ 0x110FF + 0x100 * n ∧ 0x11000 + 0x100 * n ≤ e.2.limit))

/-- A shadow disagrees with the central table. -/
def shadowDiffers (s : State) : Bool :=
  (List.range 4).any (fun n => decide (tcmRoutes n s.routes ≠ tcmRoutes n (s.shadows[n]?.getD [])))

/-- SHADOW_COMPARE (R424). -/
def execShadowCompare (s : State) : Out :=
  done (if mainPower s && shadowDiffers s then
      let s := raise (orR (orR { s with shadowBad := true } Reg.ILK_STATUS 8) Reg.ILK_ERR 4) 203
      { s with tripsDue := s.tripsDue ++ [102] }
    else s)

/-! ### Debug sessions (R432 to R437) -/

/-- The private path serves: with main power, and K_dev's fuses whole (R428). -/
def pathServes (s : State) : Bool := mainPower s && s.fusesOk

/-- Run a DBG register access: the TAP uses its private path, every other master a route (R436). -/
def dbgWrite (s : State) (m : Master) (a : Nat) (f : State → State) : State :=
  if m = 32 then (if pathServes s then f s else s) else guardedWrite s m a f

def dbgRead (s : State) (m : Master) (a : Nat) (f : State → State) : State :=
  if m = 32 then (if pathServes s then f s else s) else guardedRead s m a f

/-- A read of offset 0x0000 draws a new nonce; zero until READY. -/
def nonceRead (s : State) : State :=
  if entReady s then
    let n := drawBytes s 32
    let s := drawn { s with dbg := { s.dbg with nonce := n, fresh := true } } 32
    readData s (BitVec.ofNat 64 (num n 0 4))
  else readData s 0

/-- DBG_NONCE_READ (R437). -/
def execDbgNonceRead (m : Master) (s : State) : Out := done (dbgRead s m Reg.DBG_NONCE nonceRead)

def debugCertBody (s : State) : Bytes := slice s.dbg.cert 0 128
def certKey (s : State) : Bytes := slice s.dbg.cert 128 1793
def certSig (s : State) : Bytes := slice s.dbg.cert 1921 1280
def certLevel (s : State) : Nat := byteAt (debugCertBody s) 1

/-- The plant debug key digest: settings 20 to 23. -/
def plantKeyDigest (s : State) : Bytes := (List.range 4).flatMap (fun i => le 8 (sstGet s (20 + i)).toNat)

def certModeOk (s : State) : Bool :=
  if certLevel s = 2 then decide (s.mode = .commissioning)
  else decide (s.mode = .running) || decide (s.mode = .caution) || decide (s.mode = .commissioning) ||
    decide (s.mode = .maintenance)

/-- The first check of R433 that fails; 0 when the certificate passes. -/
def certCheck (s : State) : Nat :=
  let b := debugCertBody s
  if byteAt b 0 ≠ 1 ∨ num b 3 5 ≠ 0 ∨ 16 ≤ byteAt b 2 ∨ !allZero (slice b 64 64) ∨ (certLevel s ≠ 1 ∧ certLevel s ≠ 2) then 1
  else if slice b 8 16 ≠ identity s ∨ slice b 24 32 ≠ s.dbg.nonce ∨ !s.dbg.fresh then 2
  else if sha3_256 (certKey s) ≠ (if certLevel s = 1 then plantKeyDigest s else Config.debugKeyDigest) then 3
  else if !anyLane s ∨ verifyDesc (certKey s ++ certSig s) (ascii "XLX debug cert" ++ b) ≠ 0 then 4
  else if !certModeOk s then 5
  else 0

def dbgResult (s : State) (st : Nat) : State := setR s Reg.DBG_RESULT (withInverse st ||| 0x80000000)

/-- The session opens. -/
def openDebug (s : State) : State :=
  let b := debugCertBody s
  let s := setFieldR s Reg.ILK_STATUS 0 2 (certLevel s)
  let s := setR64 s Reg.DBG_NOT_AFTER (num64 b 56)
  raise { s with dbg := { s.dbg with cores := BitVec.ofNat 4 (byteAt b 2) } } 200

/-- A CHECK consumes the nonce, whatever its outcome. -/
def dbgCheck (s : State) : State :=
  let used (t : State) : State := { t with dbg := { t.dbg with fresh := false } }
  if sessionLevel s ≠ 0 then raise (dbgResult (used s) 6) 201
  else
    let c := certCheck s
    let t := if (c = 0 ∨ 4 ≤ c) && anyLane s then countR64 s Reg.LSU_VERIFIES 1 else s
    if c = 0 then openDebug (dbgResult (used t) 0) else raise (dbgResult (used t) c) 201

/-- DBG_CHECK (R433, R436): written by the TAP over its private path. -/
def execDbgCheck (s : State) : Out := done (if pathServes s then dbgCheck s else s)

/-- The bits that the session's LEVEL and CORES permit, as bit 2·core + world. -/
def armAllowed (s : State) (i : Nat) : Bool :=
  s.dbg.cores.getLsbD (i / 2) && (if i % 2 = 0 then decide (sessionLevel s ≠ 0) else decide (sessionLevel s = 2))

/-- A core whose arm is cleared resumes. -/
def disarm (l : List (Nat × Bool × Nat × Word)) (arm : BitVec 8) (n : Nat) (c : Core) : Core :=
  resumeCore l n (arm.getLsbD (2 * n)) (arm.getLsbD (2 * n + 1)) c

def armWrite (s : State) (arm : BitVec 8) : State :=
  let a := BitVec.ofNat 8 (((List.range 8).filter (fun i => arm.getLsbD i && armAllowed s i)).foldl (fun x i => x + 2 ^ i) 0)
  setFieldR
    { s with cores := Vector.ofFn (fun n => disarm s.dbg.haltWrites a n.val s.cores[n]),
             dbg := { s.dbg with haltWrites := s.dbg.haltWrites.filter (fun e => a.getLsbD (2 * e.1 + b2n e.2.1)) } }
    Reg.DBG_SESSION 2 8 a.toNat

/-- DBG_ARM (R434): only the TAP writes ARM; a core's write of it is ignored (R436). -/
def execDbgArm (m : Master) (arm : BitVec 8) (s : State) : Out :=
  done (dbgWrite s m Reg.DBG_SESSION (fun s => if m = 32 then armWrite s arm else s))

/-- DBG_SESSION_CLOSE (R433). -/
def execDbgSessionClose (m : Master) (s : State) : Out :=
  done (dbgWrite s m Reg.DBG_SESSION (fun s => if sessionLevel s = 0 then s else closeDebug s))

/-- DEBUG_SESSION_EXPIRY (R433): the TTC has reached NOT_AFTER. -/
def execDebugSessionExpiry (s : State) : Out :=
  done (if decide (sessionLevel s ≠ 0) && decide ((getR64 s Reg.DBG_NOT_AFTER).toNat ≤ s.ttc.toNat) then closeDebug s else s)

end Sys2Proof.Machine
end

