-- ==== Sys2Proof/Machine/CardRows.lean ====
section
/-! DEFINITION. The custody card interface (R459 to R473). -/

namespace Sys2Proof.Machine

/-! ### Registers -/

def cciState (s : State) : Nat := fieldR s Reg.CCI_STATUS 1 3

def setCciState (s : State) (n : Nat) : State := setFieldR s Reg.CCI_STATUS 1 3 n

def cciErr (s : State) (b : Nat) : State := orR s Reg.CCI_ERR (place b 1 1)

/-- CCI_RESULT, final. -/
def cciResult (s : State) (st : Nat) : State := setR s Reg.CCI_RESULT (withInverse st ||| 0x80000000)

def setCid (s : State) (b : Bytes) : State := setRegBytes s Reg.CCI_CID (slice b 0 16)

/-- Power the card off (R462): no bus, no lock state; what was unlocked is locked again. -/
def powerOffCard (s : State) : State :=
  let s := setFieldR (setFieldR (setCciState s 0) Reg.CCI_STATUS 4 2 3) Reg.CCI_STATUS 6 1 0
  { s with card := s.card.map (fun c => { c with unlocked := false }) }

/-! ### Negotiation (R460) -/

/-- The card's answers; a failing step refuses it. -/
def negotiateCard (s : State) (c : Card) : State :=
  if c.img.failStep = 0 then
    let s := setFieldR (setFieldR (setCciState s 2) Reg.CCI_STATUS 4 2 c.img.bus.toNat) Reg.CCI_STATUS 6 1 (b2n c.img.locked)
    setCid s c.img.cid
  else
    let s := setCid (setCciState (powerOffCard s) 4) (if c.img.failStep ≤ 4 then [] else c.img.cid)
    raise (cciErr s 0) 386

/-- Negotiate with the card, unless that is done. -/
def readyCard (s : State) : State :=
  match s.card with
  | some c => if cciState s = 2 then s else negotiateCard s c
  | none => s

/-! ### The card header (R463) -/

structure CardHeader where
  kind : Nat
  seq : Nat
  identity : Bytes
  nextUnit : Nat
  last : Bytes
  person : Nat
  secret : Bytes
  blob : Bytes
  deriving DecidableEq, Repr

def headerOk (b : Bytes) : Bool :=
  decide (b.take 4 = ascii "XLXK") && decide (byteAt b 4 = 1) && decide (slice b 480 32 = sha3_256 (slice b 0 480))

def parseHeader (b : Bytes) : CardHeader :=
  { kind := byteAt b 5, seq := num b 8 8, identity := slice b 16 16, nextUnit := num b 40 8, last := slice b 48 32,
    person := byteAt b 80, secret := slice b 88 32, blob := slice b 120 184 }

/-- The copy at LBA 8 holds the newest valid header. -/
def newestIsEight (c : CardImage) : Bool :=
  headerOk c.hdr8 && (!headerOk c.hdr0 || decide ((parseHeader c.hdr0).seq < (parseHeader c.hdr8).seq))

def cardHeader? (c : CardImage) : Option CardHeader :=
  if newestIsEight c then some (parseHeader c.hdr8) else if headerOk c.hdr0 then some (parseHeader c.hdr0) else none

def headerSeq (c : CardImage) : Nat := ((cardHeader? c).map (fun h => h.seq)).getD 0

/-- The 512 bytes of a header. -/
def headerBytes (s : State) (kind seq nextUnit : Nat) (last : Bytes) (person : Nat) (secret blob : Bytes) : Bytes :=
  let b := ascii "XLXK" ++ [1, BitVec.ofNat 8 kind, 0, 0] ++ le 8 seq ++ identity s ++ le 8 s.ttc.toNat ++ le 8 nextUnit ++
    slice last 0 32 ++ [BitVec.ofNat 8 person] ++ zeros 7 ++ slice secret 0 32 ++ slice blob 0 184 ++ zeros 176
  b ++ sha3_256 b

/-- Write a header to the copy that does not hold the newest one. -/
def putHeader (c : CardImage) (f : Nat → Bytes) : CardImage :=
  let b := f (headerSeq c + 1)
  if newestIsEight c || (cardHeader? c).isNone then { c with hdr0 := b } else { c with hdr8 := b }

def modCard (s : State) (f : CardImage → CardImage) : State :=
  { s with card := s.card.map (fun c => { c with img := f c.img }) }

/-! ### Credentials (R470) -/

def credentialDigest (s : State) (person : Nat) (secret : Bytes) : Bytes :=
  (sha3_256 (ascii "XLX release credential" ++ identity s ++ [BitVec.ofNat 8 person] ++ secret)).take 16

def credentialSlot (p : Nat) : Nat := 24 + 2 * (p - 1)

/-- The stored credential of a PERSON. -/
def storedCredential (s : State) (p : Nat) : Bytes :=
  le 8 (sstGet s (credentialSlot p)).toNat ++ le 8 (sstGet s (credentialSlot p + 1)).toNat

def personOk (p : Nat) : Bool := decide (1 ≤ p ∧ p ≤ 16)

def credentialOk (s : State) (h : CardHeader) : Bool :=
  personOk h.person && decide (storedCredential s h.person = credentialDigest s h.person h.secret)

/-- A KIND 3 card inserted while LSM_RELEASE.STATE is 1 or 2. -/
def checkCredential (s : State) (c : CardImage) : State :=
  match cardHeader? c with
  | some h =>
    if h.kind = 3 ∧ (releaseState s = 1 ∨ releaseState s = 2) ∧ windowOpen s then
      raise (presentResult s false (credentialOk s h) (BitVec.ofNat 8 h.person)) 393
    else s
  | none => s

/-! ### Sessions (R465, R466, R471) -/

/-- The card session record (R465); `kind` is the KIND of the header that was read, 0 where none was (log entry 153). -/
def sessionRecord (s : State) (kind status first next units : Nat) : Bytes :=
  [BitVec.ofNat 8 kind, BitVec.ofNat 8 status] ++ zeros 6 ++ (if s.card.isSome then regBytes s Reg.CCI_CID 4 else zeros 16) ++ le 8 first ++
    le 8 next ++ le 4 units ++ zeros 4

/-- A session ends without its work: the record, the card off, the completion. -/
def failSession (s : State) (l id kind status : Nat) (v : Option CardSession) : State :=
  let b := match v with
    | some x => sessionRecord s kind status (if x.units = 0 then 0 else x.first) (if x.units = 0 then 0 else x.cursor) x.units
    | none => sessionRecord s kind status 0 0 0
  let s := appendRecord s 0x34 b
  let s := { s with card := s.card.map (fun c => { c with session := none }) }
  startProgram (completeService (powerOffCard s) l id status 0 [])

/-- End the open session with a status; `gasp` marks the last-gasp seal. -/
def abortSession (s : State) (status : Nat) (gasp : Bool) : State :=
  match s.card.bind (fun c => c.session) with
  | some v => failSession (if gasp then markGasp s v.line v.id else s) v.line v.id 1 status (some v)
  | none => s

/-- A session ends with its work done: header, record, mark, event 387, completion. -/
def finishSession (s : State) (v : CardSession) : State :=
  let s := modCard s (fun c => putHeader c (fun q => headerBytes s 1 q v.nextUnit v.prev 0 [] []))
  let s := appendRecord s 0x34 (sessionRecord s 1 0 (if v.units = 0 then 0 else v.first) v.cursor v.units)
  let s := { s with card := s.card.map (fun c => { c with session := none }) }
  let s := updFlight s v.line v.id (fun f => { f with advance := if v.advance then v.cursor else 0 })
  startProgram (completeService (raise (powerOffCard s) 387) v.line v.id 0 0 (le 8 v.cursor ++ le 4 v.units))

/-- Stop or go on: LENGTH units, nothing newer, or the card's end with event 390. -/
def continueSession (s : State) (v : CardSession) : State :=
  let room := ((s.card.map (fun c => c.img.capacity)).getD 0)
  if v.left = 0 ∨ v.newest < v.cursor then finishSession s v
  else if room ≤ v.nextUnit then finishSession (raise s 390) v
  else { s with card := s.card.map (fun c => { c with session := some v }) }

/-! ### Units (R464) -/

def segmentBytes : Nat := 1044480

def trailerOf (u : Bytes) : Bytes := slice u segmentBytes 4096
def trailerDigest (u : Bytes) : Bytes := sha3_256 (slice u segmentBytes 128)
def unitMagic (u : Bytes) : Bool := decide (slice u segmentBytes 4 = ascii "XLXU")

def unitOk (u prev : Bytes) : Bool :=
  let t := trailerOf u
  unitMagic u && decide (slice t 88 32 = prev) && decide (slice t 56 32 = sha3_256 (slice u 0 segmentBytes))

/-- Step forward from a unit: the append point, the digest before it, and whether a half-written unit stands there. -/
def appendPoint : Nat → List Bytes → Nat → Bytes → Nat × Bytes × Bool
  | 0, _, n, prev => (n, prev, false)
  | k + 1, us, n, prev =>
    match us with
    | [] => (n, prev, false)
    | u :: r => if unitOk u prev then appendPoint k r (n + 1) (trailerDigest u) else (n, prev, unitMagic u)

/-- The 4,096-byte trailer of a unit. -/
def unitTrailer (s : State) (v : CardSession) (next : Nat) (seg : Bytes) : Bytes :=
  slice (ascii "XLXU" ++ [1, 0, 0, 0] ++ le 8 v.nextUnit ++ le 8 v.seq ++ identity s ++ le 8 v.cursor ++ le 8 next ++
    sha3_256 seg ++ slice v.prev 0 32 ++ le 8 s.ttc.toNat) 0 4096

/-- Write unit `n`; the units before it that the card does not hold stay blank. -/
def putUnit (c : CardImage) (n : Nat) (u : Bytes) : CardImage :=
  { c with units := (c.units ++ List.replicate (n - c.units.length) []).take n ++ [u] ++ c.units.drop (n + 1) }

/-- Write one unit and go on; `bad` are serials that cannot be read (R281). -/
def writeUnit (s : State) (v : CardSession) (bad : List Nat) : State :=
  let s := readFrames s v.cursor bad
  let g := segment s v.cursor v.newest segmentBytes
  let seg := slice g.bytes 0 segmentBytes
  let u := seg ++ unitTrailer s v g.next seg
  let s := modCard (noteLost s g.lost) (fun c => putUnit c v.nextUnit u)
  let s := setFieldR s Reg.CCI_STATUS 16 16 (v.units + 1)
  continueSession s { v with cursor := g.next, left := v.left - 1, units := v.units + 1, nextUnit := v.nextUnit + 1,
                             prev := trailerDigest u }

/-- A write failure: event 389; the session ends with 0x0B (log entry 41). -/
def writeFailure (s : State) : State := abortSession (raise (cciErr s 1) 389) 0x0B false

/-- CARD_UNIT_WRITTEN (R465): `ok` is false when the read-back does not match. -/
def execCardUnitWritten (ok : Reading Bool) (s : State) : Out :=
  match s.card.bind (fun c => c.session) with
  | some v => done (if !mainPower s then s else if ok.value then writeUnit s v ok.bad else writeFailure s)
  | none => .next s

/-- CARD_BUSY_TIMEOUT (R461). -/
def execCardBusyTimeout (s : State) : Out :=
  done (if mainPower s && (s.card.bind (fun c => c.session)).isSome then writeFailure s else s)

/-! ### Locks (R467, R469) -/

/-- Modes in which a card-lock key may be used. -/
def lockModeOk (s : State) : Bool := decide (s.mode ≠ .caution) && decide (s.mode ≠ .condemned)

/-- The check of a card-lock branch for master 29 and for the core that requested its use, if one did (R233). -/
def lockCheck (s : State) (i : Nat) (by_ : List Nat) : Check := useCheck s i (fun k => decide (k = 4)) (29 :: by_)

def lockPassword (s : State) (i : Nat) : Bytes := cardPassword (branchKey s i) (regBytes s Reg.CCI_CID 4)

def cciBranch (s : State) : Nat := (sstGet s 17).toNat % 4096

/-- The LABEL of the card-lock branch of a backup card. -/
def cardlockLabel : Bytes := slice (ascii "XLX-CARDLOCK") 0 32

/-- The card-lock branch under the pairing branch that a blob names (R469). -/
def backupLock (s : State) (blob : Bytes) : Nat :=
  ((s.branches.find? (fun e => decide (e.2.kind = 4) && decide (e.2.label = cardlockLabel) && decide (e.2.generation = 0) &&
    ((mget? s.branches e.2.parent).map (fun p => decide (p.kind = 6) && decide (p.label = slice blob 24 32))).getD false)).map
      (fun e => e.1)).getD 0

/-- The branch that opens a card: that of R469 for a backup card, CCI_LOCK.BRANCH for every other (log entry 165). -/
def lockBranch (s : State) (c : CardImage) : Nat :=
  match cardHeader? c with
  | some h => if h.kind = 2 then backupLock s h.blob else cciBranch s
  | none => cciBranch s

/-- Unlock a locked card: 0, or the status of the failure. The attempt charges the branch. -/
def unlockCard (s : State) (by_ : List Nat) : State × Nat :=
  match s.card with
  | none => (s, 0)
  | some c =>
    if !c.img.locked || c.unlocked then (s, 0)
    else
      let s := builtTable s
      let i := lockBranch s c.img
      let k := lockCheck s i by_
      if !lockModeOk s then (raise s 391, 0x18)
      else if k.status = 0x0D then (noteCheck s k, 0x0D)
      else if k.status ≠ 0 then (raise (noteCheck s k) 391, 0x18)
      else
        let p := lockPassword s i
        let s := useBranch s i
        if p = c.img.password then
          (setFieldR { s with card := some { c with unlocked := true } } Reg.CCI_STATUS 6 1 0, 0)
        else (raise s 391, 0x18)

/-- Lock the card with a branch: no use is charged. -/
def lockCard (s : State) (i : Nat) : State :=
  let p := lockPassword s i
  let s := modCard (cachePath s i) (fun c => { c with locked := true, password := p })
  setFieldR { s with card := s.card.map (fun c => { c with unlocked := false }) } Reg.CCI_STATUS 6 1 1

/-! ### CARD_EXPORT (R465) -/

/-- Steps 3 to 5: the header, the append point, and the session. -/
def openSession (s : State) (l : Nat) (f : Flight) (c : CardImage) : State :=
  match cardHeader? c with
  | none => failSession s l f.id 0 0x19 none
  | some h =>
    if h.kind ≠ 1 ∨ h.identity ≠ identity s then failSession s l f.id h.kind 0x19 none
    else
      let us := c.units.drop h.nextUnit
      let p := appendPoint us.length us h.nextUnit (if h.nextUnit = 0 then zeros 32 else h.last)
      let s := if p.2.2 then raise (cciErr s 2) 392 else s
      match exportCursor s (wf64 f.raw 8) with
      | none => failSession s l f.id 1 0x19 none
      | some k =>
        let s := setFieldR (setCciState s 3) Reg.CCI_STATUS 16 16 0
        continueSession (updFlight s l f.id (fun g => { g with phase := .parked }))
          { line := l, id := f.id, cursor := k, left := num f.raw 4 4, units := 0, nextUnit := p.1, prev := p.2.1,
            newest := newestStored s, first := k, seq := h.seq, advance := decide (byteAt f.raw 3 % 2 = 1) }

def startExport (s : State) (l : Nat) (f : Flight) : State :=
  match s.card with
  | none => failSession s l f.id 0 0x16 none
  | some _ =>
    let s := readyCard s
    if cciState s ≠ 2 then setCciState (failSession s l f.id 0 0x16 none) (cciState s)
    else
      let u := unlockCard s []
      if u.2 ≠ 0 then failSession u.1 l f.id 0 u.2 none
      else
        match u.1.card with
        | some c => openSession u.1 l f c.img
        | none => u.1

/-- The card is busy with a command or a session. -/
def cardBusy (s : State) : Bool := (s.card.map (fun c => c.session.isSome || c.erasing)).getD false

/-- CARD_EXPORT (R465): it waits for its turn (R282) and for the card. -/
def execCardExport (line : BitVec 19) (pos : Nat) (s : State) : Out :=
  match flightAt s line.toNat pos 0x2B with
  | some f => done (if exportTurn s f.id && !cardBusy s then startExport s line.toNat f else s)
  | none => .next s

/-! ### Insertion and removal (R460, R462, R466, R470) -/

/-- A card is put in: event 384, negotiation, and the check of a credential. -/
def insertCard (s : State) (img : CardImage) : State :=
  let c : Card := { img := img, unlocked := false, erasing := false, session := none }
  let s := { s with card := some c, cardPresent := true }
  if !mainPower s then s
  else
    let s := negotiateCard (raise s 384) c
    if cciState s = 2 ∧ !img.locked then checkCredential s img else s

/-- CARD_INSERTED (R460). -/
def execCardInserted (card : CardImage) (s : State) : Out := done (if s.cardPresent then s else insertCard s card)

def removeCard (s : State) : State :=
  let open_ := (s.card.bind (fun c => c.session)).isSome
  let erasing := (s.card.map (fun c => c.erasing)).getD false
  let s := raise s 385
  let s := if open_ then raise (abortSession s 0x17 false) 388 else s
  let s := if erasing then cciResult s 0x17 else s
  { powerOffCard s with card := none, cardPresent := false }

/-- CARD_REMOVED (R462). -/
def execCardRemoved (s : State) : Out :=
  done (if !s.cardPresent then s
    else if mainPower s then removeCard s
    else { s with card := none, cardPresent := false })

/-! ### CCI commands (R463, R468 to R470, R473) -/

/-- A CCI_CMD write: ignored during a session or an erase; a mode test comes first, then the card. -/
def cciCommand (s : State) (m : Master) (modeOk : Bool) (f : State → State) : State :=
  guardedWrite s m Reg.CCI_CMD (fun s =>
    if cardBusy s then cciErr s 3
    else
      let s := clearR s Reg.CCI_RESULT 0x80000000
      if !modeOk then cciResult s 0x0A
      else if s.card.isNone then cciResult s 0x16
      else f s)

/-- A write of a reserved OP: it does nothing but what every CCI_CMD write does (R473). -/
def cciReserved (s : State) (m : Master) : State :=
  guardedWrite s m Reg.CCI_CMD (fun s => if cardBusy s then cciErr s 3 else clearR s Reg.CCI_RESULT 0x80000000)

/-- A command that talks to the card. -/
def withCard (s : State) (f : State → CardImage → State) : State :=
  let s := readyCard s
  match s.card with
  | some c => if cciState s = 2 then f s c.img else cciResult s 0x16
  | none => cciResult s 0x16

/-- A command that needs the card unlocked, and no key to unlock it. -/
def isLocked (s : State) : Bool := (s.card.map (fun c => c.img.locked && !c.unlocked)).getD false

def lockRefused (s : State) (k : Check) : State :=
  if k.status = 0x0D then cciResult (noteCheck s k) 0x0D else cciResult (raise (noteCheck s k) 391) 0x18

/-- FORMAT KIND 1, with the lock that CCI_ARG.LOCK asks for. -/
def formatExport (m : Master) (s : State) : State :=
  let s := builtTable s
  let u := unlockCard s [m.toNat]
  let want := bitR s Reg.CCI_ARG 0
  let k := lockCheck u.1 (cciBranch s) [m.toNat]
  if u.2 ≠ 0 then cciResult u.1 u.2
  else if want ∧ !lockModeOk s then lockRefused u.1 .ok
  else if want ∧ k.status ≠ 0 then lockRefused u.1 k
  else
    let t := modCard u.1 (fun c => { putHeader c (fun q => headerBytes s 1 q 0 [] 0 [] []) with erased := false })
    cciResult (if want then lockCard t (cciBranch s) else t) 0

/-- CARD_FORMAT_EXPORT (R463, R467). -/
def execCardFormatExport (m : Master) (s : State) : Out :=
  done (cciCommand s m true (fun s => withCard s (fun s _ => formatExport m s)))

/-- FORMAT KIND 2: both headers with the blob, then the lock. A buffer that cannot be read ends with 0x0D on a seal fault, else with
0x0B (log entry 142). -/
def formatBackup (m : Master) (s : State) (img : CardImage) : State :=
  let s := builtTable s
  let a := (getR s Reg.CCI_BUF).toNat
  let r := reach s 29 .read a 184
  if isLocked s then cciResult (raise s 391) 0x18
  else if !img.erased then cciResult s 0x0B
  else if r.outcome ≠ .ok then cciResult r.state (if r.outcome = .sealFault then 0x0D else 0x0B)
  else
    let blob := engineBytes s a 184
    let i := backupLock s blob
    let k := lockCheck s i [m.toNat]
    if !lockModeOk s then lockRefused r.state .ok
    else if k.status ≠ 0 then lockRefused r.state k
    else
      let w (c : CardImage) : CardImage := putHeader c (fun q => headerBytes s 2 q 0 [] 0 [] blob)
      cciResult (lockCard (modCard r.state (fun c => { w (w c) with erased := false })) i) 0

/-- CARD_FORMAT_BACKUP (R469). -/
def execCardFormatBackup (m : Master) (s : State) : Out :=
  done (cciCommand s m true (fun s => withCard s (formatBackup m)))

/-- FORMAT KIND 3: SECRET, both headers, and D in slot PERSON. -/
def formatCredential (s : State) : State :=
  let p := fieldR s Reg.CCI_ARG 4 5
  if isLocked s then cciResult (raise s 391) 0x18
  else if !personOk p ∨ !entReady s then cciResult s 0x0B
  else
    let x := drawBytes s 32
    let d := credentialDigest s p x
    let w (c : CardImage) : CardImage := putHeader c (fun q => headerBytes s 3 q 0 [] p x [])
    let s := modCard (drawn s 32) (fun c => { w (w c) with erased := false })
    let s := sstStore (sstStore s (credentialSlot p) (num64 d 0)) (credentialSlot p + 1) (num64 d 8)
    cciResult s 0

/-- CARD_FORMAT_CREDENTIAL (R470). -/
def execCardFormatCredential (m : Master) (s : State) : Out :=
  done (cciCommand s m (decide (s.mode = .commissioning)) (fun s => withCard s (fun s _ => formatCredential s)))

/-- FORCE_ERASE (R468): the card goes busy. -/
def execForceErase (m : Master) (s : State) : Out :=
  done (cciCommand s m (inRunOrCommission s) (fun s => withCard s (fun s _ =>
    { s with card := s.card.map (fun c => { c with erasing := true }) })))

/-- The card is empty and has no password. -/
def erasedImage (c : CardImage) : CardImage :=
  { c with locked := false, password := [], hdr0 := [], hdr8 := [], units := [], erased := true }

/-- FORCE_ERASE_DONE (R468). -/
def execForceEraseDone (s : State) : Out :=
  .next (match s.card with
    | some c =>
      if c.erasing && mainPower s then
        let s := { s with card := some { c with img := erasedImage c.img, unlocked := false, erasing := false } }
        raise (cciResult (setFieldR s Reg.CCI_STATUS 6 1 0) 0) 394
      else s
    | none => s)

/-- EJECT (R462). -/
def execEject (m : Master) (s : State) : Out :=
  done (cciCommand s m true (fun s => cciResult (powerOffCard s) 0))

end Sys2Proof.Machine
end

