-- ==== Sys2Proof/Machine/LookoutRows.lean ====
section
/-! DEFINITION. The Lookout (R474, R479 to R484, R491 to R497). -/

namespace Sys2Proof.Machine

/-! ### Inventories (R480 to R484) -/

def startInventory (s : State) (o : InvOwner) (rounds maxTags : Nat) : State :=
  let v : Inventory := {
    owner := o, round := 1, rounds := rounds, maxTags := maxTags, slot := 0, q := 4, qfp := 40, replies := 0,
    entries := [], seen := [], badgeRan := false }
  { s with lko := { s.lko with inv := some v } }

/-- BASE takes the value of GAMMA. -/
def rebasePing (s : State) : State := setFieldR s Reg.LKO_PING 8 8 (fieldR s Reg.LKO_PING 0 8)

/-- Entries of auto rounds go to the table at LKO_AUTOBUF, with event 416. -/
def endAuto (s : State) (entries : List Bytes) : State :=
  raise (engineWrite s 30 (getR s Reg.LKO_AUTOBUF).toNat (entries.take 256).flatten).state 416

/-- The completion of a waybill inventory. -/
def endWaybillRounds (s : State) (l id : Nat) (entries : List Bytes) : State :=
  match flight? s l id with
  | none => s
  | some f =>
    let n := entries.length
    if wf64 f.raw 16 < 48 * n then completeService s l id 0x12 0 []
    else completeService (hostWrite s (num64 f.raw 8) entries.flatten) l id 0 (48 * n) (le 4 n)

/-- A set of rounds is complete. -/
def endRounds (s : State) (v : Inventory) : State :=
  let s := rebasePing { s with lko := { s.lko with inv := none } }
  match v.owner with
  | .waybill l id => endWaybillRounds s l id v.entries
  | .auto => endAuto s v.entries

/-! ### The self-inventory (R493) -/

/-- The self-inventory waits for the round in progress to end (R494). -/
def selfTest (s : State) (gamma : Byte) (answers : List TagObs) : State :=
  if inRound s then { s with lko := { s.lko with selfWait := some (gamma, answers) } } else runSelfTest s gamma answers

/-- An LKO_CMD write: ignored while a command is in progress. -/
def lkoCommand (s : State) (m : Master) (f : State → State) : State :=
  guardedWrite s m Reg.LKO_CMD (fun s =>
    if s.lko.selfWait.isSome then orR s Reg.LKO_ERR 1 else f (clearR s Reg.LKO_RESULT 0x80000000))

/-- SELFTEST (R493). -/
def execSelftest (m : Master) (answers : Air TagObs) (s : State) : Out :=
  done (lkoCommand s m (fun s => selfTest s answers.gamma answers.seen))

/-- The timer's moment counts: at entry into Running, and then by SELF_H unless it is 0. -/
def timerRuns (s : State) : Bool :=
  match s.lko.selfTimer with
  | .off => false
  | .due => true
  | .hourly => decide (fieldR s Reg.LKO_CFG 16 8 ≠ 0)

/-- SELFTEST_TIMER (R493). -/
def execSelftestTimer (answers : Air TagObs) (s : State) : Out :=
  done (if lookoutMode s && s.lko.selfWait.isNone && timerRuns s then
      selfTest { s with lko := { s.lko with selfTimer := .hourly } } answers.gamma answers.seen
    else s)

/-! ### Slots (R481, R482) -/

/-- Qfp after a slot, in tenths. -/
def nextQfp (q : Nat) : SlotObs → Nat
  | .empty => q - 2
  | .collision _ => min 150 (q + 2)
  | .tag _ => q

/-- Q of the next round: rounded half up. -/
def roundQ (qfp : Nat) : Nat := (qfp + 5) / 10

def replied : SlotObs → Bool
  | .empty => false
  | _ => true

/-- A tag is reported once, with its first read. -/
def noteTag (s : State) (v : Inventory) : SlotObs → Inventory
  | .tag t =>
    if v.seen.contains t.epc then v
    else { v with entries := v.entries ++ [tagEntry s false v.round t], seen := v.seen ++ [t.epc] }
  | _ => v

/-- What the slot counts. -/
def countSlot (s : State) : SlotObs → State
  | .empty => s
  | .tag _ => countR64 s Reg.LKO_TAGS 1
  | .collision _ => raiseEvery (orR (countR64 s Reg.LKO_COLLISIONS 1) Reg.LKO_ERR 4) second 418

/-- The round is over: the inventory ends, or the next round begins. -/
def endRound (s : State) (v : Inventory) : State :=
  if v.replies = 0 ∨ v.rounds ≤ v.round ∨ v.maxTags ≤ v.entries.length then runWaiting (endRounds s v)
  else
    let v := { v with round := v.round + 1, slot := 0, q := roundQ v.qfp, replies := 0, badgeRan := false }
    runWaiting { s with lko := { s.lko with inv := some v } }

def endSlot (s : State) (v : Inventory) (o : SlotObs) : State :=
  let s := countSlot s o
  let v := noteTag s v o
  let v := { v with slot := v.slot + 1, qfp := nextQfp v.qfp o, replies := v.replies + b2n (replied o) }
  if 2 ^ v.q ≤ v.slot ∨ v.maxTags ≤ v.entries.length then endRound s v
  else { s with lko := { s.lko with inv := some v } }

/-- What opens a slot: the Select of the inventory, the Query of the round, or a QueryRep (R480). -/
def slotOpens (v : Inventory) : List AirCommand :=
  if v.slot ≠ 0 then [.queryRep] else if v.round = 1 then [.select 0 [], .query v.q] else [.query v.q]

/-- What answers the reply in a slot: nothing to a broken RN16, ACK otherwise, and NAK to a broken reply (R482). -/
def slotAnswers : SlotObs → List AirCommand
  | .empty => []
  | .collision none => []
  | .collision (some rn) => [.ack rn, .nak]
  | .tag t => [.ack t.rn]

/-- The search of R492 is running. -/
def badgeSearch (s : State) : Bool :=
  decide (1 ≤ releaseState s ∧ releaseState s ≤ 3) && decide (fieldR s Reg.LSM_RELEASE 6 2 ≠ 1) && lookoutMode s

def forWaybill (v : Inventory) : Bool :=
  match v.owner with
  | .waybill _ _ => true
  | .auto => false

/-- The next round of a waybill inventory waits: a badge round goes first (R494). -/
def badgeFirst (s : State) (v : Inventory) : Bool :=
  forWaybill v && decide (v.slot = 0) && !v.badgeRan && badgeSearch s && badgeReady s

/-- A slot of the inventory; the first of a round begins with the measurement of the reflection (R476). -/
def inventorySlot (s : State) (v : Inventory) (gamma : Byte) (o : SlotObs) : State :=
  if badgeFirst s v then s
  else if v.slot = 0 ∧ reflects gamma then runWaiting (faultRf s)
  else endSlot (transmit (hop s) (txPower s) (slotOpens v ++ slotAnswers o)) v o

/-- INVENTORY_SLOT (R480 to R483). -/
def execInventorySlot (gamma : Byte) (o : SlotObs) (s : State) : Out :=
  match s.lko.inv with
  | some v => done (if mainPower s then inventorySlot s v gamma o else s)
  | none => .next s

/-! ### LOOKOUT_INVENTORY (R483) -/

def isInventory (f : Flight) : Bool := decide (byteAt f.raw 2 = 0x2C) && !decide (f.phase = .formed)

/-- Inventories are carried out one at a time, in admission order. -/
def inventoryTurn (s : State) (id : Nat) : Bool :=
  s.lne.lines.all (fun e => !e.2.service || e.2.flights.all (fun f => !(isInventory f && decide (f.id < id))))

def beginInventory (s : State) (l : Nat) (f : Flight) : State :=
  if s.power.tier < 2 then completeService s l f.id 0x0E 0 []
  else if num f.raw 6 2 = 0 then completeService s l f.id 0x02 0 []
  else if !txReady s then completeService s l f.id 0x0B 0 []
  else
    startInventory (updFlight s l f.id (fun g => { g with phase := .parked })) (.waybill l f.id) (byteAt f.raw 4) (num f.raw 6 2)

/-- LOOKOUT_INVENTORY (R483). -/
def execLookoutInventory (line : BitVec 19) (pos : Nat) (s : State) : Out :=
  match flightAt s line.toNat pos 0x2C with
  | some f =>
    done (if inventoryTurn s f.id && s.lko.inv.isNone && s.lko.selfWait.isNone then beginInventory s line.toNat f else s)
  | none => .next s

/-! ### Pings (R479) -/

/-- A ping may be sent: on, permitted, and no round, self-inventory or badge search under way. -/
def pingDue (s : State) : Bool :=
  bitR s Reg.LKO_CFG 7 && txEnabled s && regionReady s && s.lko.inv.isNone && s.lko.selfWait.isNone && !badgeSearch s

def absDiff (a b : Nat) : Nat := (a - b) + (b - a)

/-- A ping at +10 dBm: GAMMA, the RF fault, a detuning change with event 417, and the auto rounds. -/
def sendPing (s : State) (gamma : Byte) : State :=
  let s := setFieldR (transmit (hop s) 0 [.carrier]) Reg.LKO_PING 0 8 gamma.toNat
  let s := if reflects gamma then faultRf s else clearR s Reg.LKO_STATUS 0x20000
  if absDiff gamma.toNat (fieldR s Reg.LKO_PING 8 8) < fieldR s Reg.LKO_PING 16 8 then s
  else
    let s := raise s 417
    if bitR s Reg.LKO_CFG 6 && !rfFault s then startInventory s .auto (fieldR s Reg.LKO_CFG 8 8) 256 else s

/-- PING (R479). -/
def execPing (gamma : Byte) (s : State) : Out := done (if pingDue s then sendPing s gamma else s)

/-- Stop auto rounds: what they have read is written (log entry 43). -/
def stopAuto (s : State) : State :=
  match s.lko.inv with
  | some v =>
    match v.owner with
    | .auto => endAuto { s with lko := { s.lko with inv := none } } v.entries
    | .waybill _ _ => s
  | none => s

/-- STOP (R497). -/
def execStop (m : Master) (s : State) : Out := done (lkoCommand s m (fun s => lkoResult (stopAuto s) 0))

/-- REBASE (R479). -/
def execRebase (m : Master) (s : State) : Out := done (lkoCommand s m (fun s => lkoResult (rebasePing s) 0))

/-! ### Badges (R491, R492) -/

def badgeSlot (p : Nat) : Nat := 56 + 3 * (p - 1)

def badgeDigest (s : State) (p : Nat) (tid secret : Bytes) : Bytes :=
  (sha3_256 (ascii "XLX release badge" ++ identity s ++ [BitVec.ofNat 8 p] ++ tid ++ secret)).take 16

def storedBadge (s : State) (p : Nat) : Bytes := le 8 (sstGet s (badgeSlot p)).toNat ++ le 8 (sstGet s (badgeSlot p + 1)).toNat

/-- Store an enrolled badge. -/
def storeBadge (s : State) (p : Nat) (d pass : Bytes) : State :=
  sstStore (sstStore (sstStore s (badgeSlot p) (num64 d 0)) (badgeSlot p + 1) (num64 d 8)) (badgeSlot p + 2)
    (BitVec.ofNat 64 (num pass 0 4))

/-- The first 15 bytes of a badge's EPC (R491, R492). -/
def badgePrefix (s : State) : Bytes := ascii "XLXBADGE" ++ slice (identity s) 0 7

/-- Steps 2 to 5: what is sent to the badge of a person. The password's bytes stand high byte first, as the Gen2 bank has it. -/
def badgeSteps (s : State) (p : Nat) (secret password : Bytes) : List AirCommand :=
  [.write 1 2 (badgePrefix s ++ [BitVec.ofNat 8 p]), .write 3 0 secret, .write 0 2 password.reverse, .lock]

/-- Step 1, and the others in order, up to one that the tag refuses. -/
def sendBadge (s : State) (t : EnrolObs) (l : List AirCommand) : State :=
  transmit s (txPower s) ([.reqRn t.rn, .readTid] ++ (if t.refusedAt = 0 then l else l.take (t.refusedAt - 1)))

/-- A round of one-tag slots at Q 4, with the ACK of each tag that answers (R480 to R482). -/
def enrolRound (tags : List EnrolObs) : List AirCommand :=
  [.select 0 [], .query 4] ++ List.replicate 15 .queryRep ++ tags.map (fun t => .ack t.rn)

/-- Enrol the one tag that answered. -/
def enrolTag (s : State) (p : Nat) (t : EnrolObs) : State :=
  if !t.passwordZero ∨ !personOk p ∨ !entReady s then lkoResult s 4
  else
    let x := drawBytes s 36
    let s := sendBadge (drawn s 36) t (badgeSteps s p (slice x 0 32) (slice x 32 4))
    if t.refusedAt = 0 then raise (lkoResult (storeBadge s p (badgeDigest s p t.tid (slice x 0 32)) (slice x 32 4)) 0) 421
    else lkoResult s 4

def enrolBadge (s : State) (gamma : Byte) (tags : List EnrolObs) : State :=
  if s.mode ≠ .commissioning ∨ !regionReady s then lkoResult s 5
  else if s.power.tier < 2 then lkoResult s 6
  else if rfFault s then lkoResult s 7
  else if reflects gamma then lkoResult (faultRf (hop s)) 7
  else
    let s := transmit (hop s) (txPower s) (enrolRound tags)
    match tags with
    | [] => lkoResult s 1
    | [t] => enrolTag s (fieldR s Reg.LKO_ARG 0 5) t
    | _ => lkoResult s 2

/-- BADGE_ENROL (R491). -/
def execBadgeEnrol (m : Master) (tags : Air EnrolObs) (s : State) : Out :=
  done (lkoCommand s m (fun s => enrolBadge s tags.gamma tags.seen))

/-- The access password of a badge slot (R491). -/
def badgePassword (s : State) (p : Nat) : Word := lo32 (sstGet s (badgeSlot p + 2))

/-- Access succeeds: the badge holds the slot's password. -/
def accessOk (s : State) (b : BadgeObs) : Bool := personOk b.person.toNat && decide (badgePassword s b.person.toNat = b.password)

/-- The badge's Access succeeded, its 16 words were read, and its D is the stored one. -/
def badgeOk (s : State) (b : BadgeObs) : Bool :=
  accessOk s b && decide (b.user.length = 32) &&
    decide (badgeDigest s b.person.toNat b.tid b.user = storedBadge s b.person.toNat)

/-- Checked within the last 2 s. -/
def badgeRecent (s : State) (p : Nat) : Bool :=
  match mget? s.lko.badgeSeen p with
  | some t => decide (s.ttc.toNat < t.toNat + 2 * second)
  | none => false

/-- Steps 1 to 3: the TID serial, Access with the two halves of the password, each covered with an RN16 of the badge, and after
it the read of the 16 words. -/
def badgeAsks (s : State) (b : BadgeObs) : List AirCommand :=
  let w := badgePassword s b.person.toNat
  [.reqRn b.rn, .readTid, .reqRn b.handle, .access (w.extractLsb' 16 16 ^^^ b.cover.1), .reqRn b.handle,
    .access (w.setWidth 16 ^^^ b.cover.2)] ++ (if accessOk s b then [.readUser 16] else [])

/-- Check one badge; a PERSON without a slot has no password to send and fails. -/
def checkBadge (s : State) (b : BadgeObs) : State :=
  let s := transmit s (badgePower s) [.ack b.rn]
  if badgeRecent s b.person.toNat then s
  else
    let s := transmit s (badgePower s) (if personOk b.person.toNat then badgeAsks s b else [.reqRn b.rn, .readTid])
    let s := { s with lko := { s.lko with badgeSeen := mput s.lko.badgeSeen b.person.toNat s.ttc } }
    raise (presentResult s true (badgeOk s b) b.person) 420

/-- The Select and the Query of a badge round; its Q is that of a first round (R481; log entry 166). -/
def badgeOpens (s : State) : List AirCommand := [.select 0x20 (badgePrefix s), .query 4]

/-- Between the rounds of an inventory, and once before each round of a waybill's (R494). -/
def badgeTurn (s : State) : Bool :=
  match s.lko.inv with
  | none => true
  | some v => decide (v.slot = 0) && !(forWaybill v && v.badgeRan)

/-- The badge round is over: the inventory's round is next. -/
def badgeDone (s : State) : State := { s with lko := { s.lko with inv := s.lko.inv.map (fun v => { v with badgeRan := true }) } }

/-- A badge round; its transmission starts with the measurement of R476. -/
def badgeRound (s : State) (badges : List BadgeObs) : State :=
  badgeDone (badges.foldl checkBadge (transmit s (badgePower s) (badgeOpens s)))

/-- BADGE_ROUND (R492). -/
def execBadgeRound (badges : Air BadgeObs) (s : State) : Out :=
  done (if badgeSearch s && badgeReady s && badgeTurn s then
      (if reflects badges.gamma then runWaiting (faultRf (hop s)) else badgeRound (hop s) badges.seen)
    else s)

end Sys2Proof.Machine
end

