-- ==== Sys2Proof/Machine/TailRows.lean ====
section
/-! DEFINITION. The Tail lamp: the tag face, its memory and the internal updates (R474, R478, R485 to R490, R498). What
ISO/IEC 18000-63 gives and the spec only names is in log entry 44. -/

namespace Sys2Proof.Machine

/-! ### Memory (R486, R487) -/

/-- A word of the tag's memory: byte 2w in bits [15:8]. -/
def wordAt (b : Bytes) (w : Nat) : BitVec 16 := BitVec.ofNat 16 (256 * byteAt b (2 * w) + byteAt b (2 * w + 1))

/-- CRC-16 of the air interface: polynomial 0x1021, preset ones, complemented. -/
def crcBits : Nat → BitVec 16 → BitVec 16
  | 0, c => c
  | n + 1, c => crcBits n (if c.getLsbD 15 then (c <<< 1) ^^^ 0x1021 else c <<< 1)

def crc16 (b : Bytes) : BitVec 16 := ~~~(b.foldl (fun c x => crcBits 8 (c ^^^ BitVec.ofNat 16 (256 * x.toNat))) 0xFFFF)

/-- PC word and IDENTITY. -/
def pcEpc (s : State) : Bytes := [0x45, 0x00] ++ identity s

/-- The EPC bank: StoredCRC, PC, IDENTITY. -/
def epcBank (s : State) : Bytes := be 2 (crc16 (pcEpc s)).toNat ++ pcEpc s

def labelBytes (s : State) : Bytes := if s.tail.labCommit then s.tail.lab1 else s.tail.lab0

/-- User memory: the committed evidence block, zeros, the committed label. -/
def userBank (s : State) : Bytes := slice (committedBlock s) 0 80 ++ zeros 16 ++ slice (labelBytes s) 0 32

/-- The bytes of a bank. -/
def tagBank (s : State) : Nat → Bytes
  | 0 => zeros 8
  | 1 => epcBank s
  | 2 => tagTid
  | _ => userBank s

/-- MODE of the status block: 6 in Stabled. -/
def tailMode (s : State) : Nat := if s.mode = .stabled then 6 else modeCode s.mode

/-- UPDATES of the committed status block. -/
def tailUpdates (s : State) : Nat := 256 * byteAt (committedBlock s) 64 + byteAt (committedBlock s) 65

/-- EPOCH of the status block: without main power, as the committed block has it. -/
def tailEpoch (s : State) : Bytes :=
  if mainPower s then le 6 (getR64 s Reg.SEAL_LAST).toNat else slice (committedBlock s) 70 6

/-- The block that an internal update writes (R487, R488). -/
def updateBlock (s : State) : Bytes :=
  evidenceSummary s ++ be 2 ((tailUpdates s + 1) % 65536) ++
    [BitVec.ofNat 8 (tailMode s), BitVec.ofNat 8 (role s), BitVec.ofNat 8 (level s), BitVec.ofNat 8 (region s)] ++ tailEpoch s ++
    le 4 s.vigil.count.toNat

/-! ### Internal updates (R488) -/

/-- TAIL_LAMP_UPDATE (R488): TLP_CTRL.UPDATE. -/
def execTailLampUpdate (m : Master) (s : State) : Out := done (guardedWrite s m Reg.TLP_CTRL tailDue)

def slotLimit : Nat := 100000

/-- A write of the evidence slot `one` counts, whatever it holds; a slot that has reached its limit sets WORN. -/
def wearSlot (s : State) (one : Bool) : State :=
  let s := { s with tail := if one then { s.tail with wear1 := s.tail.wear1 + 1 } else { s.tail with wear0 := s.tail.wear0 + 1 } }
  if slotLimit ≤ (if one then s.tail.wear1 else s.tail.wear0) ∧ mainPower s then orR s Reg.TLP_ERR 4 else s

def putSlotBytes (s : State) (one : Bool) (b : Bytes) : State :=
  { s with tail := if one then { s.tail with ev1 := b } else { s.tail with ev0 := b } }

/-- The slot that an update writes: the one not committed, unless it is worn. -/
def updateSlot (s : State) : Bool :=
  let worn := decide (slotLimit ≤ (if s.tail.evCommit then s.tail.wear0 else s.tail.wear1))
  if worn then s.tail.evCommit else !s.tail.evCommit

def raiseMain (s : State) (n : Nat) : State := if mainPower s then raise s n else s

/-- The slot is written and verified, or not; a failed verify is retried once. -/
def endUpdate (s : State) (verifyOk : Bool) : State :=
  let slot := updateSlot s
  if verifyOk then
    let s := wearSlot (putSlotBytes s slot (updateBlock s)) slot
    raiseMain { s with tail := { s.tail with evCommit := slot, updating := false, retry := false, lastUpdate := s.ttc } } 434
  else
    let s := wearSlot s slot
    if s.tail.retry then
      let s := { s with tail := { s.tail with updating := false, retry := false } }
      raiseMain (if mainPower s then orR s Reg.TLP_ERR 1 else s) 435
    else { s with tail := { s.tail with retry := true } }

/-- INTERNAL_UPDATE_DONE (R488): from main power, or from the cell in Stabled. -/
def execInternalUpdateDone (verifyOk : Bool) (s : State) : Out :=
  .next (if s.tail.updating && decide (s.mode ≠ .dark) then endUpdate s verifyOk else s)

/-! ### The field (R478, R485, R489) -/

/-- Bits of the session flags that survived without a field: a free value (log entry 44). -/
def survivors (s : State) : Word := freeWord s

/-- READER_FIELD_ARRIVAL (R485): the tag face starts in ready; flags S1 to S3 and SL may have decayed. -/
def execReaderFieldArrival (s : State) : Out :=
  let k := survivors s
  .next (if s.tail.field then s
    else
      let s := usedFree s
      { s with tail := { s.tail with field := true, state := .ready, inventoried := s.tail.inventoried &&& (k.setWidth 4 &&& 0xE),
                                     truncated := none,
                                     sl := s.tail.sl && k.getLsbD 4 } })

/-- FIELD_COLLAPSE (R489): an uncommitted label write leaves no trace. -/
def execFieldCollapse (s : State) : Out :=
  .next { s with tail := { s.tail with field := false, state := .ready } }

/-- The tag hears a reader: its field is there, and the switch rests in position 1 (R478). -/
def tagHears (s : State) : Bool := s.tail.field && s.lko.inv.isNone

/-- Run a command of a reader. -/
def heard (s : State) (f : State → State) : Out := .next (if tagHears s then f s else s)

def tagSay (s : State) (r : TagReply) : State := { s with ports := { s.ports with tagOut := s.ports.tagOut ++ [r] } }

def setTag (s : State) (f : Tail → Tail) : State := { s with tail := f s.tail }

/-! ### Inventory commands (R474) -/

/-- A bit of a bank, most significant bit of a byte first. -/
def bankBit (b : Bytes) (i : Nat) : Bool := (b.getD (i / 8) 0).getMsbD (i % 8)

/-- The mask matches; a mask that runs past the bank does not. -/
def maskMatches (b : Bytes) (pointer : Nat) (mask : List Bool) : Bool :=
  decide (pointer + mask.length ≤ 8 * b.length) &&
    decide ((List.range mask.length).map (fun i => bankBit b (pointer + i)) = mask)

/-- What a Select does to a flag: `some true` asserts SL or sets A, `some false` deasserts or sets B. -/
inductive Flag where
  | assert | deassert | invert | keep
  deriving DecidableEq, Repr

/-- The action table: for a matching tag, and for one that does not match. -/
def selectAction (action : Nat) (hit : Bool) : Flag :=
  match action, hit with
  | 0, true => .assert
  | 0, false => .deassert
  | 1, true => .assert
  | 2, false => .deassert
  | 3, true => .invert
  | 4, true => .deassert
  | 4, false => .assert
  | 5, true => .deassert
  | 6, false => .assert
  | 7, false => .invert
  | _, _ => .keep

def applyFlag (f : Flag) (b : Bool) : Bool :=
  match f with
  | .assert => true
  | .deassert => false
  | .invert => !b
  | .keep => b

/-- Flag B of a session. -/
def flagB (t : Tail) (session : Nat) : Bool := t.inventoried.getLsbD session

def setFlagB (t : Tail) (session : Nat) (b : Bool) : Tail :=
  { t with inventoried := if b then t.inventoried ||| (1#4 <<< session) else t.inventoried &&& ~~~(1#4 <<< session) }

/-- A Select changes SL (target 4) or a session's flag (targets 0 to 3) and returns the tag to ready. -/
def applySelect (t : Tail) (target : Nat) (f : Flag) : Tail :=
  let t := { t with state := .ready }
  if target = 4 then { t with sl := applyFlag f t.sl }
  else if target < 4 then setFlagB t target (!applyFlag f (!flagB t target))
  else t

/-- Truncate goes with target SL and a mask that ends in the EPC; a Select that asserts it otherwise is invalid. -/
def truncateOk (target : BitVec 3) (bank : BitVec 2) (last : Nat) : Bool :=
  decide (target = 4) && decide (bank = 1) && decide (0x20 ≤ last ∧ last ≤ 0xA0)

/-- The first bit of the replies to come, from the last Select heard. -/
def setTruncation (t : Tail) (hit truncate : Bool) (last : Nat) : Tail :=
  { t with truncated := if hit && truncate then some last else none }

/-- SELECT (R474). -/
def execSelect (target action : BitVec 3) (bank : BitVec 2) (pointer : Nat) (mask : SelectMask) (s : State) : Out :=
  heard s (fun s =>
    let last := pointer + mask.bits.length
    if bank = 0 ∨ 4 < target.toNat ∨ (mask.truncate ∧ !truncateOk target bank last) then s
    else
      let hit := maskMatches (tagBank s bank.toNat) pointer mask.bits
      setTag s (fun t => setTruncation (applySelect t target.toNat (selectAction action.toNat hit)) hit mask.truncate last))

/-- The next value of the tag's own noise generator (R485). -/
def nextNoise (s : State) : BitVec 16 := Config.tagNoise s.tail.noise
def usedNoise (s : State) : State := setTag s (fun t => { t with noise := t.noise + 1 })

/-- Reply with a new RN16. -/
def replyRn (s : State) : State :=
  let r := nextNoise s
  tagSay (setTag (usedNoise s) (fun t => { t with state := .reply, rn := r })) (.rn16 r)

/-- Draw a slot among 2^Q: 0 replies at once. -/
def drawSlot (s : State) (q : Nat) : State :=
  let n := (nextNoise s).toNat % 2 ^ q
  let s := setTag (usedNoise s) (fun t => { t with slot := n, q := q, state := .arbitrate })
  if n = 0 then replyRn s else s

def singulated (t : Tail) : Bool :=
  decide (t.state = .acknowledged) || decide (t.state = .opened) || decide (t.state = .secured)

/-- A singulated tag that hears the next Query or QueryRep of its session inverts its flag. -/
def leaveRound (s : State) (session : Nat) : State :=
  if singulated s.tail ∧ s.tail.session.toNat = session then
    setTag s (fun t => { setFlagB t session (!flagB t session) with state := .ready })
  else s

/-- The tag takes part: its SL and its inventoried flag fit. -/
def takesPart (t : Tail) (sel session : Nat) (target : Bool) : Bool :=
  (decide (sel < 2) || decide (t.sl = decide (sel = 3))) && decide (flagB t session = target)

/-- QUERY (R474). -/
def execQuery (sel session : BitVec 2) (target : Bool) (q : BitVec 4) (s : State) : Out :=
  heard s (fun s =>
    let s := leaveRound s session.toNat
    let s := setTag s (fun t => { t with session := session, state := .ready, bySl := decide (2 ≤ sel.toNat) })
    if takesPart s.tail sel.toNat session.toNat target then drawSlot s q.toNat else s)

/-- Count a slot down; at 0 the tag replies, and from 0 it goes to the far end. -/
def countDown (s : State) : State :=
  if s.tail.slot = 1 then replyRn (setTag s (fun t => { t with slot := 0 }))
  else setTag s (fun t => { t with slot := if t.slot = 0 then 32767 else t.slot - 1 })

/-- QUERY_REP (R474). -/
def execQueryRep (session : BitVec 2) (s : State) : Out :=
  heard s (fun s =>
    if s.tail.session ≠ session then s
    else if singulated s.tail then leaveRound s session.toNat
    else if s.tail.state = .arbitrate then countDown s
    else if s.tail.state = .reply then setTag s (fun t => { t with state := .arbitrate, slot := 32767 })
    else s)

/-- Q after a QueryAdjust; none where UpDn is not a code of the standard. -/
def adjustQ (q : Nat) (updn : BitVec 3) : Option Nat :=
  if updn = 6 then some (min 15 (q + 1)) else if updn = 3 then some (q - 1) else if updn = 0 then some q else none

/-- QUERY_ADJUST (R474). -/
def execQueryAdjust (session : BitVec 2) (updn : BitVec 3) (s : State) : Out :=
  heard s (fun s =>
    if s.tail.session ≠ session then s
    else
      match adjustQ s.tail.q updn with
      | none => s
      | some q =>
        if singulated s.tail then leaveRound s session.toNat
        else if s.tail.state = .arbitrate ∨ s.tail.state = .reply then drawSlot s q
        else s)

/-- The tag goes back to arbitration, its flag unchanged. -/
def toArbitrate (s : State) : State :=
  if s.tail.state = .ready then s else setTag s (fun t => { t with state := .arbitrate, slot := 32767 })

/-- The RN16 that an ACK must carry. -/
def ackOk (t : Tail) (rn : BitVec 16) : Bool :=
  match t.state with
  | .reply => decide (rn = t.rn)
  | .acknowledged => decide (rn = t.rn)
  | .opened => decide (rn = t.handle)
  | .secured => decide (rn = t.handle)
  | _ => false

/-- PC, EPC and their CRC-16; the EPC only behind the mask where the last Select truncates and the Query asked by SL. -/
def epcReply (s : State) : TagReply :=
  let b := pcEpc s
  let crc := crc16 b
  match s.tail.truncated with
  | some n =>
    if s.tail.bySl then .shortEpc (List.replicate 5 false ++ (List.range (0xA0 - n)).map (fun i => bankBit (epcBank s) (n + i))) crc
    else .epc (b ++ be 2 crc.toNat)
  | none => .epc (b ++ be 2 crc.toNat)

/-- ACK (R474). -/
def execAck (rn : BitVec 16) (s : State) : Out :=
  heard s (fun s =>
    if s.tail.state = .ready ∨ s.tail.state = .arbitrate then s
    else if ackOk s.tail rn then
      tagSay (if s.tail.state = .reply then setTag s (fun t => { t with state := .acknowledged }) else s) (epcReply s)
    else toArbitrate s)

/-- NAK (R474). -/
def execNak (s : State) : Out := heard s toArbitrate

/-! ### Access commands (R485, R486, R489, R490) -/

def accessible (t : Tail) : Bool := decide (t.state = .opened) || decide (t.state = .secured)

/-- REQ_RN (R474): a handle from the acknowledged state, a fresh RN16 afterwards. -/
def execReqRn (rn : BitVec 16) (s : State) : Out :=
  heard s (fun s =>
    let r := nextNoise s
    if s.tail.state = .acknowledged then
      if rn = s.tail.rn then
        tagSay (setTag (usedNoise s) (fun t => { t with state := .opened, handle := r, rn := r })) (.handle r)
      else toArbitrate s
    else if accessible s.tail && decide (rn = s.tail.handle) then
      tagSay (setTag (usedNoise s) (fun t => { t with rn := r })) (.rn16 r)
    else s)

/-- Run a command that carries the handle. -/
def withHandle (s : State) (rn : BitVec 16) (f : State → State) : Out :=
  heard s (fun s => if accessible s.tail && decide (rn = s.tail.handle) then f s else s)

def tagError (s : State) (code : Byte) : State := tagSay s (.error code s.tail.handle)

/-- The error of a range of a bank; none when it may be read (R485, R486). -/
def readError? (s : State) (bank word count : Nat) : Option Byte :=
  if (tagBank s bank).length ≤ 2 * word ∨ (tagBank s bank).length < 2 * (word + count) then some 0x03
  else if bank = 0 then some 0x04
  else none

/-- Words of a read: a count of 0 reads to the end of the bank. -/
def readCount (s : State) (bank word count : Nat) : Nat := if count = 0 then (tagBank s bank).length / 2 - word else count

/-- READ (R490). -/
def execTagRead (rn : BitVec 16) (bank : BitVec 2) (word count : Nat) (s : State) : Out :=
  withHandle s rn (fun s =>
    match readError? s bank.toNat word count with
    | some e => tagError s e
    | none =>
      tagSay s (.words (slice (tagBank s bank.toNat) (2 * word) (2 * readCount s bank.toNat word count)) s.tail.handle))

/-- The error of a write before its steps; none for the label (R486). -/
def writeError? (s : State) (bank word count : Nat) : Option Byte :=
  if 2 * (word + count) > (tagBank s bank).length then some 0x03
  else if bank = 3 ∧ 0x30 ≤ word then none
  else some 0x04

def bump16 (s : State) (lo : Nat) : State :=
  setFieldR s Reg.TLP_EXTW lo 16 (min 65535 (fieldR s Reg.TLP_EXTW lo 16 + 1))

/-- Step 1 refuses for power: 0x0B. -/
def refusePower (s : State) : State :=
  tagError (if mainPower s then raise (orR (bump16 s 16) Reg.TLP_ERR 2) 433 else s) 0x0B

/-- Steps 2 to 5 of a label write (R489). -/
def writeLabel (s : State) (word : Nat) (v : List (BitVec 16)) (verifyOk : Bool) : State :=
  let b := patch (slice (labelBytes s) 0 32) (2 * (word - 0x30)) (v.flatMap (fun x => be 2 x.toNat))
  let one := !s.tail.labCommit
  if !verifyOk then
    tagError (setTag s (fun t => if one then { t with lab1 := b } else { t with lab0 := b })) 0x0F
  else
    let s := setTag s (fun t => if one then { t with lab1 := b, labCommit := one } else { t with lab0 := b, labCommit := one })
    tagSay (if mainPower s then raise (bump16 s 0) 432 else s) (.ok s.tail.handle)

/-- A write of words, from its checks to its reply. -/
def tagStore (s : State) (bank word : Nat) (v : List (BitVec 16)) (energy verifyOk : Bool) : State :=
  match writeError? s bank word v.length with
  | some e => tagError s e
  | none => if energy then writeLabel s word v verifyOk else refusePower s

/-- WRITE (R489): the word is cover-coded with the last RN16. -/
def execTagWrite (rn : BitVec 16) (bank : BitVec 2) (word : Nat) (v : BitVec 16) (energy verifyOk : Bool) (s : State) : Out :=
  withHandle s rn (fun s => tagStore s bank.toNat word [v ^^^ s.tail.rn] energy verifyOk)

/-- BLOCK_WRITE (R489): 1 to 16 words; any other number is not supported (R474). -/
def execBlockWrite (rn : BitVec 16) (bank : BitVec 2) (word : Nat) (v : List (BitVec 16)) (energy verifyOk : Bool) (s : State) : Out :=
  withHandle s rn (fun s =>
    if v.length = 0 ∨ 16 < v.length then tagError s 0x01 else tagStore s bank.toNat word v energy verifyOk)

/-- ACCESS (R485): the secured state, without a password. -/
def execTagAccess (rn : BitVec 16) (_half : BitVec 16) (s : State) : Out :=
  withHandle s rn (fun s => tagSay (setTag s (fun t => { t with state := .secured })) (.ok s.tail.handle))

/-- LOCK (R485). -/
def execTagLock (rn : BitVec 16) (s : State) : Out := withHandle s rn (fun s => tagError s 0x04)

/-- KILL (R485): never executed; the error code of its reply is not stated (log entry 8). -/
def execTagKill (rn : BitVec 16) (s : State) : Out :=
  withHandle s rn (fun s => tagError (usedFree s) ((freeWord s).setWidth 8))

/-- UNSUPPORTED_COMMAND (R474). -/
def execUnsupportedCommand (rn : BitVec 16) (s : State) : Out := withHandle s rn (fun s => tagError s 0x01)

end Sys2Proof.Machine
end

