-- ==== Sys2Proof/Machine/PowerRows.lean ====
section
/-! DEFINITION. Power: the PD sink, disturbances, the last-gasp seal, thermal cap, the cell and the arrival of main power
(R499 to R515, R181, R205, R297 to R300, R563, R565). -/

namespace Sys2Proof.Machine

/-! ### The Power Delivery sink (R499 to R502, R504) -/

/-- A source's offer in milliwatts. -/
def pdoMw (p : Pdo) : Nat := p.mv * p.ma / 1000

def pdSay (s : State) (m : PdMsg) : State := { s with ports := { s.ports with pdOut := s.ports.pdOut ++ [m] } }

/-- The best of a list by a measure, the first of equals. -/
def bestBy (f : Pdo → Nat) : List Pdo → Option Pdo
  | [] => none
  | p :: r =>
    match bestBy f r with
    | some q => if f p < f q then some q else some p
    | none => some p

/-- What the sink asks for: voltage, current, EPR, and Capability Mismatch. -/
structure Ask where
  mv : Nat
  ma : Nat
  epr : Bool
  mismatch : Bool
  deriving DecidableEq, Repr

def eprEnabled (s : State) : Bool := (sstGet s 15).getLsbD 0

/-- Sink_Capabilities: millivolts and milliamperes, the last in EPR mode (R499). -/
def sinkCapabilities : List (Nat × Nat) := [(5000, 3000), (9000, 3000), (15000, 3000), (20000, 3000), (28000, 5000)]

/-- The 28 V offer, capped at the sink's own current. -/
def eprAsk (l : List Pdo) : Ask :=
  let own := ((sinkCapabilities.find? (fun c => decide (c.1 = 28000))).map (fun c => c.2)).getD 0
  { mv := 28000, ma := min own (((l.find? (fun p => p.fixed && p.epr && decide (p.mv = 28000))).map (fun p => p.ma)).getD own),
    epr := true, mismatch := false }

/-- The selection of R500. -/
def selectPdo (s : State) (l : List Pdo) (eprSource eprCable : Bool) : Option Ask :=
  let spr := l.filter (fun p => p.fixed && !p.epr)
  match bestBy (fun p => p.mv) (spr.filter (fun p => decide (45000 ≤ pdoMw p))) with
  | some p => some { mv := p.mv, ma := p.ma, epr := false, mismatch := false }
  | none =>
    if eprSource && eprCable && eprEnabled s then some (eprAsk l)
    else
      match bestBy pdoMw (spr.filter (fun p => decide (27000 ≤ pdoMw p))) with
      | some p => some { mv := p.mv, ma := p.ma, epr := false, mismatch := true }
      | none => (spr.find? (fun p => decide (p.mv = 5000))).map (fun p => { mv := p.mv, ma := p.ma, epr := false, mismatch := true })

def contractWord (mv ma : Nat) : Word := place 0 16 mv ||| place 16 16 ma

/-- What an available power allows: the mode first, then the tier, the link, and the die itself (R502, R504, R520). A
higher tier waits for PS_RDY. -/
def adoptPower (s : State) (mw : Nat) : State :=
  let s := powerFloor s mw
  let s := { s with power := { s.power with contractMw := mw, tierPending := none } }
  let t := tierFor s mw
  let s := if s.booted then s else showTier s t
  let s := if t < s.power.tier then setTier s t
    else if s.power.tier < t then { s with power := { s.power with tierPending := some t } }
    else s
  let s := if mw < 27000 then loseLink s else s
  let s := if s.flash.monitor ∧ s.mode = .shed ∧ 15000 ≤ mw then leaveShed s else s
  if mw < 4500 then deviceReset s 0 false else s

/-- Send the Request for an offer; event 3 when the contract is new or changed. -/
def requestPdo (s : State) (a : Ask) : State :=
  let old := getR s Reg.PWR_CONTRACT
  let s := adoptPower s (a.mv * a.ma / 1000)
  let s := if a.epr then pdSay s .eprEnter else s
  let s := pdSay s (.request a.mv a.ma a.mismatch)
  let s := setFieldR (setR s Reg.PWR_CONTRACT (contractWord a.mv a.ma)) Reg.PWR_INPUT 0 16 a.mv
  raiseIf (decide (old ≠ contractWord a.mv a.ma)) { s with power := { s.power with epr := a.epr } } 3

def negotiatePd (s : State) (l : List Pdo) (eprSource eprCable : Bool) : State :=
  let s := { s with power := { s.power with pdos := l, eprSource := eprSource, eprCable := eprCable } }
  match selectPdo s l eprSource eprCable with
  | some a => requestPdo s a
  | none => s

/-- SOURCE_CAPABILITIES (R500). -/
def execSourceCapabilities (pdos : List Pdo) (eprSource eprCable : Bool) (s : State) : Out :=
  done (if mainPower s then negotiatePd s pdos eprSource eprCable else s)

/-- PS_RDY (R502): the load of a raised tier, under the caps in force by then (R504, R506). -/
def execPsRdy (s : State) : Out :=
  done (match s.power.tierPending with
    | some _ =>
      if mainPower s then setTier { s with power := { s.power with tierPending := none } } (tierFor s s.power.contractMw) else s
    | none => s)

/-- Milliamperes of a Type-C current advertisement. -/
def advertised (adv : BitVec 2) : Nat := if adv = 2 then 3000 else if adv = 1 then 1500 else 900

/-- NO_CAPABILITIES (R501). -/
def execNoCapabilities (adv : BitVec 2) (s : State) : Out :=
  done (if mainPower s && s.power.pdos.isEmpty then
      let old := getR s Reg.PWR_CONTRACT
      let s := adoptPower s (5 * advertised adv)
      let s := orR (setR s Reg.PWR_CONTRACT (contractWord 5000 (advertised adv))) Reg.PWR_ERR 8
      raiseIf (decide (old ≠ contractWord 5000 (advertised adv))) s 3
    else s)

/-- SOFT_RESET (R502): the device requests again. -/
def execSoftReset (s : State) : Out :=
  done (if mainPower s then
      let s := orR s Reg.PWR_ERR 4
      if s.power.pdos.isEmpty then s else negotiatePd s s.power.pdos s.power.eprSource s.power.eprCable
    else s)

/-- PR_SWAP (R499). -/
def execPrSwap (s : State) : Out := .next (if mainPower s then pdSay s .reject else s)

/-- DR_SWAP (R499). -/
def execDrSwap (s : State) : Out := .next (if mainPower s then pdSay s .reject else s)

/-- VCONN_SWAP (R499). -/
def execVconnSwap (s : State) : Out := .next (if mainPower s then pdSay s .reject else s)

/-- FR_SWAP (R499). -/
def execFrSwap (s : State) : Out := .next (if mainPower s then pdSay s .notSupported else s)

/-! ### Disturbances (R507) -/

/-- The contract voltage; the Type-C default before a contract. -/
def contractMv (s : State) : Nat :=
  let v := fieldR s Reg.PWR_CONTRACT 0 16
  if v = 0 then 5000 else v

/-- VBUS is outside its window, or above 30 V. -/
def outsideWindow (s : State) (mv : Nat) : Bool :=
  decide (100 * mv < 85 * contractMv s) || decide (115 * contractMv s < 100 * mv) || decide (30000 < mv)

def beginDisturbance (s : State) (mv : Nat) : State :=
  let s := setFieldR { s with power := { s.power with sag := true, vbus := false } } Reg.PWR_INPUT 0 16 mv
  let s := raise s 4
  if 30000 < mv then raise (orR s Reg.PWR_ERR 1) 13 else s

/-- DISTURBANCE_BEGIN (R507). -/
def execDisturbanceBegin (mv : BitVec 16) (s : State) : Out :=
  done (if mainPower s && !s.power.sag && outsideWindow s mv.toNat then beginDisturbance s mv.toNat else s)

/-- The bank voltage after it has fed the stage: not above what it was, and otherwise not stated (log entry 8). -/
def drainBank (s : State) : State :=
  usedFree { s with power := { s.power with bankMv := min s.power.bankMv ((freeWord s).toNat % 65536) } }

/-- A disturbance ridden through: event 5 and PWR_SAGS. -/
def endDisturbance (s : State) (length : Nat) : State :=
  let s := drainBank { s with power := { s.power with sag := false, vbus := true } }
  let s := setFieldR s Reg.PWR_SAGS 0 16 (min 65535 (fieldR s Reg.PWR_SAGS 0 16 + 1))
  let s := setFieldR s Reg.PWR_SAGS 16 16 (max length (fieldR s Reg.PWR_SAGS 16 16))
  raise (setFieldR s Reg.PWR_INPUT 0 16 (contractMv s)) 5

/-- DISTURBANCE_END (R507): during a last-gasp seal the seal decides (R520). -/
def execDisturbanceEnd (length : BitVec 16) (s : State) : Out :=
  done (if mainPower s && s.power.sag && !s.power.lastGasp then endDisturbance s length.toNat else s)

/-- BANK_CHARGED (R509): BANK_OK, and an entry that waits for it. -/
def execBankCharged (mv : BitVec 16) (s : State) : Out :=
  done (if mainPower s && decide (15000 ≤ s.power.contractMw) && !s.power.sag then
      retryEntry { s with power := { s.power with bankMv := mv.toNat } }
    else s)

/-! ### The last-gasp seal (R510, R511, R513, R205, R297, R300, R343, R471, R494) -/

/-- Service waybills of one kind that wait end with 0x0C. -/
def endWaiting (s : State) (kind : Flight → Bool) : State :=
  s.lne.lines.foldl (fun t e =>
    e.2.flights.foldl (fun t f =>
      if e.2.service ∧ kind f then completeService (markGasp t e.1 f.id) e.1 f.id 0x0C 0 [] else t) t) s

/-- Exports that wait, on either path, end with 0x0C (R300); so do relays not yet started (R271). -/
def endExports (s : State) : State :=
  s.hlk.usbWait.foldl (fun t e => usbCompletion t e.2.1 (refuse t 0x0C) true)
    { endWaiting s isExport with hlk := { (endWaiting s isExport).hlk with usbWait := [] } }

/-- Steps 1 to 4. -/
def beginGasp (s : State) (trigger : Nat) : State :=
  if s.power.lastGasp then s
  else
    let s := { s with power := { s.power with lastGasp := true, trigger := BitVec.ofNat 2 trigger, lgStored := false } }
    let s := raise (orR s Reg.HLK_STATUS 0x100) 6
    let s := stopInventory (endUnstamped s 0x0C true (fun _ _ => true)) 0x0C true
    let s := endWaiting (endExports (abortSession (endQueued s 0x09 (fun _ => true)) 0x0C true)) isRelay
    if sealing s then
      let opened := s.su.open_.isSome
      let s := sealNow s 0x01 false
      { s with power := { s.power with lgStored := opened } }
    else s

/-- LAST_GASP_SEAL (R511): the disturbance has lasted 25 ms. -/
def execLastGaspSeal (s : State) : Out := done (if mainPower s && s.power.sag then beginGasp s 1 else s)

/-- BANK_LOW (R510). -/
def execBankLow (s : State) : Out :=
  done (if mainPower s && s.power.sag then beginGasp { s with power := { s.power with bankMv := 12700 } } 2 else s)

/-- HARD_RESET (R502, R510). -/
def execHardReset (s : State) : Out := done (if mainPower s then beginGasp s 3 else s)

/-- The vigil domain browns out: its cells are lost, the Trunk with them (R221, R449, R515). A seed that a full Zeroise has still
to erase is erased at the next power-up all the same (R245; log entry 160). -/
def loseVigil (s : State) : State :=
  let s := clearR (clearR s Reg.PWR_LGLAST 0xFFFFFFFF) Reg.ILK_STATUS 4
  tailDue { s with mode := .dark, prevMode := s.mode, badPrivate := [], vigil :=
      { Vigil.reset with trunk := .lost, boots := 0, canaryLost := true, fence := s.vigil.fence, forced := s.vigil.forced,
                         erasePending := s.vigil.erasePending } }

/-- The cell can hold the vigil domain. -/
def cellHolds (s : State) : Bool := decide (2000 ≤ fieldR s Reg.PWR_CELL 0 12)

/-- Main power is gone: Stabled, or Dark without a cell (R517, R565). -/
def darken (s : State) : State :=
  let s := powerLost (match s.flash.op with
    | some (.erase, d, b, _, _) => setBlock s d b { blockAt s d b with suspect := true }
    | _ => s)
  if cellHolds s then s else loseVigil s

/-- PWR_LGLAST after a seal; STORED only if no sealed Manifest still waits for staging (R205). -/
def gaspWord (s : State) (duration : Nat) : Word :=
  place 0 16 duration ||| place 16 1 (b2n (s.power.lgStored && s.su.jobs.isEmpty)) ||| place 17 2 s.power.trigger.toNat ||| 0x80000

/-- Step 6 and what follows it. With the supply back, a reset that the seal deferred is carried out by this one, which drops
the link (R66, R513; log entry 138). -/
def endGasp (s : State) (supply : Bool) (duration : Nat) : State :=
  let s := raise (setR s Reg.PWR_LGLAST (gaspWord s duration)) 7
  if supply then deviceReset { s with power := { s.power with vbus := true } } (causeLastGasp ||| s.power.deferred.toNat) false
  else darken s

/-- LAST_GASP_END (R511). -/
def execLastGaspEnd (supply : Bool) (duration : BitVec 16) (s : State) : Out :=
  done (if mainPower s && s.power.lastGasp then endGasp s supply duration.toNat else s)

/-- POWER_DIE_FAILURE (R563): main power is lost without hold-up; a program in progress is cut short. -/
def execPowerDieFailure (s : State) : Out :=
  .next (if mainPower s then
      darken (match s.flash.op with
        | some (.program, _, _, _, _) => { s with flash := { s.flash with op := none } }
        | _ => s)
    else s)

/-! ### Heat and the cell (R506, R515) -/

/-- A temperature in units of 0.125 °C. -/
def tempOf (t : BitVec 12) : Int := t.toInt

def setTemp (s : State) (t : BitVec 12) : State := setR s Reg.LSM_TEMP (t.setWidth 32)

/-- THERMAL_CAP (R506): +105 °C for 1 s. -/
def execThermalCap (temp : BitVec 12) (s : State) : Out :=
  done (if mainPower s && !s.power.thermal && decide (840 ≤ tempOf temp) then
      let s := raise (orR (setTemp { s with power := { s.power with thermal := true } } temp) Reg.PWR_ERR 0x10) 14
      setTier s (min s.power.tier (tierFor s s.power.contractMw))
    else s)

/-- THERMAL_LIFT (R506): +95 °C for 60 s. -/
def execThermalLift (temp : BitVec 12) (s : State) : Out :=
  done (if mainPower s && s.power.thermal && decide (tempOf temp ≤ 760) then
      let s := setTemp { s with power := { s.power with thermal := false } } temp
      if s.power.tierPending.isSome then s else setTier s (tierFor s s.power.contractMw)
    else s)

/-- CELL_LOW (R515): event 15 as the cell falls below 2.6 V. -/
def execCellLow (mv : BitVec 12) (s : State) : Out :=
  .next (if mainPower s && decide (mv.toNat < 2600) then
      let was := decide (fieldR s Reg.PWR_CELL 0 12 < 2600)
      raiseIf (!was) (setR s Reg.PWR_CELL (mv.setWidth 32)) 15
    else s)

/-- VIGIL_POWER_LOSS (R221, R517): the cell falls below 2.0 V in Stabled. -/
def execVigilPowerLoss (s : State) : Out := .next (if s.mode = .stabled then loseVigil s else s)

/-! ### The arrival of main power (R181, R509, R517, R525 to R528) -/

/-- The counter's seed. -/
def seedTtc (c : BitVec 48) : DWord := BitVec.ofNat 64 ((c.toNat * 390625 + 127) / 128)

/-- The bank as measured at power-up: event 12 below 12.0 mF. -/
def measureBank (s : State) (cap : Nat) : State :=
  let s := setR s Reg.PWR_BANK (place 16 16 cap)
  if cap < 1200 then raise (orR { s with power := { s.power with bankWeak := true } } Reg.PWR_ERR 2) 12 else s

/-- The cell as measured at power-up. -/
def measureCell (s : State) (cell : BitVec 12) : State :=
  raiseIf (decide (cell.toNat < 2600)) (setR s Reg.PWR_CELL (cell.setWidth 32)) 15

/-- The vigil count as the seed of the TTC reads it (R24, R38; log entry 159). -/
def countRead (s : State) : BitVec 48 := if privateBad s .count then (freeWord s).setWidth 48 else s.vigil.count

/-- A read of the vigil count that finds a mismatch (R24). -/
def noteCount (old s : State) : State := if privateBad old .count then usedFree (sealFault s spineTile) else s

/-- Main power arrives. The loss of vigil power is reported: TTC_STATUS.VIGIL_LOST, event 292 and source 105; so is, by event
292, a loss of the Trunk on cell power (R221). -/
def powerOn (s : State) (cap : BitVec 16) (cell : BitVec 12) : State :=
  let c := countRead s
  let old := s
  let lost := s.vigil.canaryLost
  let zeroised := s.vigil.lostOnCell
  let s := deviceReset { s with ttc := seedTtc c, power := Power.reset, vigil := { s.vigil with canaryLost := false } }
    causePowerOn false
  let s := setR64 (setR64 (setR s Reg.TTC_STATUS (if lost then 4 else 0)) Reg.TTC_SEED (seedTtc c)) Reg.TTC_VIGIL (c.setWidth 64)
  let s := measureCell (measureBank (setR (noteCount old s) Reg.PWR_INPUT (place 0 16 5000)) cap.toNat) cell
  let s := raiseIf (lost || zeroised) s 292
  if lost then { s with tripsDue := s.tripsDue ++ [105] } else s

/-- MAIN_POWER_ON (R517). -/
def execMainPowerOn (cap : BitVec 16) (cell : BitVec 12) (s : State) : Out :=
  done (if mainPower s then s else powerOn s cap cell)

end Sys2Proof.Machine
end

