-- ==== Sys2Proof/Machine/BootRows.lean ====
section
/-! DEFINITION. The boot chain, mode requests, image commit and the Deadman (R448, R454, R517 to R519, R527 to R546). -/

namespace Sys2Proof.Machine

/-! ### The boot chain (R529, R531, R533 to R535) -/

/-- What the ROM chose: the slot, and whether it fell back; no slot starts the recovery monitor. -/
structure Choice where
  record : BootRec
  slot : Option Bool
  fallback : Bool
  deriving DecidableEq, Repr

/-- The slot of the first three lines of R531, with the record to write. -/
def firstChoice (r : BootRec) : Choice :=
  if r.stateA = 3 ∨ r.stateB = 3 then
    let r := if r.stateA = 3 then markSlot r false 5 0 else r
    let r := if r.stateB = 3 then markSlot r true 5 0 else r
    { record := r, slot := some r.active, fallback := true }
  else if r.stateA = 2 then { record := markSlot r false 3 r.verA, slot := some false, fallback := false }
  else if r.stateB = 2 then { record := markSlot r true 3 r.verB, slot := some true, fallback := false }
  else { record := r, slot := some r.active, fallback := false }

/-- A slot boots: it is TRIAL or GOOD and its image passes R533. -/
def slotBoots (s : State) (r : BootRec) (b : Bool) : Bool :=
  (decide (slotState r b = 3) || decide (slotState r b = 4)) && decide (imgCheck s b = 0)

/-- The whole choice. -/
def chooseSlot (s : State) (r : BootRec) : Choice :=
  let c := firstChoice r
  let b := c.slot.getD false
  if slotBoots s c.record b then c
  else
    let bad := markSlot c.record b 5 0
    if slotState bad (!b) = 4 ∧ slotBoots s bad (!b) then { record := bad, slot := some (!b), fallback := true }
    else { record := bad, slot := none, fallback := c.fallback }

/-- The checks of an image reach its signature, which a lane then verifies (R346, R533). -/
def signatureTried (s : State) (slotB : Bool) : Bool := decide (imgCheck s slotB = 0) || decide (imgCheck s slotB = 4)

/-- The verifications of a boot: for the slot chosen first, and for the other one where that is tried. -/
def bootVerifies (s : State) (r : BootRec) : Nat :=
  let c := firstChoice r
  let b := c.slot.getD false
  b2n ((decide (slotState c.record b = 3) || decide (slotState c.record b = 4)) && signatureTried s b) +
    b2n (!slotBoots s c.record b && decide (slotState c.record (!b) = 4) && signatureTried s (!b))

def keepRecord (s : State) (old new_ : BootRec) : State := if old = new_ then s else writeRec s new_

def fallBack (s : State) : State := raise (orR s Reg.DMN_CAUSE 0x100) 37

/-- An address in the boot ROM; where the ROM's code stands is not stated (log entry 8). -/
def romPc (s : State) : Word := freeWord s &&& 0xFFFFC

def setPc (c : Core) (pc : Word) : Core := { c with wait := .none, sig := { c.sig with pc := pc } }

/-- All four cores run: core 0 at `pc`, cores 1 to 3 woken in the ROM. -/
def enterAt (s : State) (pc : Word) : State :=
  let r := romPc s
  usedFree { s with coresRun := true, cores := Vector.ofFn (fun n => setPc s.cores[n] (if n.val = 0 then pc else r)) }

/-- The recovery monitor: Maintenance, keys locked (R535); cores 1 to 3 stay in WAITF (R529). -/
def startMonitor (s : State) : State :=
  let r := romPc s
  let s := usedFree { s with
    coresRun := true, booted := true, flash := { s.flash with monitor := true },
    cores := Vector.ofFn (fun n => if n.val = 0 then setPc s.cores[n] r else { setPc s.cores[n] r with wait := .waitf 0 }) }
  leaveShed (raise (orR s Reg.DMN_CAUSE 0x200) 37)

/-- Slices of the code window for a slot (R534). -/
def mapSlices (s : State) (slot : Bool) (length : Nat) : SMap Slice :=
  (List.range ((4096 + length + 0xFFFFF) / 0x100000)).map (fun k =>
    let d := slotBlock s (b2n slot) (k / 12)
    (k, { die := d.1, block := d.2, offset := k % 12, valid := true }))

/-- The four things of R534. -/
def startImage (s : State) (slot : Bool) : State :=
  let h := imgHeader s slot
  let s := { s with flash := { s.flash with
    slices := mapSlices s slot (imgLength h), running := slot, recoveryImage := decide (imgKind h = 2),
    measured := s.flash.measured ++
      [measurement s 1 Config.romVersion Config.romDigest, measurement s 2 (imgVersion h) (imgDigest s slot)] } }
  enterAt s (BitVec.ofNat 32 (0x30001000 + imgEntry h) &&& 0xFFFFFFFC)

/-- The ROM's chain: the record is written before the image is read, and again where a slot is then marked BAD (R531). -/
def bootChain (s : State) : State :=
  if fieldR s Reg.DMN_CAUSE 10 3 = 4 ∨ (bootRec? s).isNone then startMonitor s
  else
    let r := bootRec s
    let first := (firstChoice r).record
    let c := chooseSlot s r
    let n := bootVerifies s r
    let s := countR64 (keepRecord (keepRecord s r first) first c.record) Reg.LSU_VERIFIES n
    let s := if c.fallback then fallBack s else s
    match c.slot with
    | some b => startImage s b
    | none => startMonitor s

/-! ### CORES_RELEASED (R528, R529) -/

/-- The result of a track's boot self-test (R175, R176). -/
def bootTrack (pass : BitVec 8) (s : State) (t : Nat) : State :=
  if pass.getLsbD t then s else fenceTrack s t 4

/-- The result of a lane's boot self-test, and its fixed keys (R337, R341). -/
def bootLane (pass : BitVec 4) (s : State) (n : Nat) : State :=
  if pass.getLsbD n then setLane s n { laneAt s n with keys := bootStore s } else fenceLane s n 4

/-- Suspect blocks are erased again and verified before use; one that fails is retired (R298). -/
def eraseSuspects (s : State) (fail : List (Nat × Nat)) : State :=
  s.flash.blocks.foldl (fun t e =>
    if e.2.suspect then
      if fail.contains (e.1 / 1696, e.1 % 1696) then retireBlock t (e.1 / 1696) (e.1 % 1696) else eraseKey t e.1
    else t) s

/-- The detectors that fail are recorded, and source 107 trips (R454). -/
def bootDetectors (s : State) (fail : BitVec 128) : State :=
  let f := fail &&& BitVec.ofNat 128 (2 ^ 101 - 1)
  let s := { s with vigil := { s.vigil with testMap := f } }
  if f = 0 then s else { s with tripsDue := s.tripsDue ++ [107] }

/-- Reset is released: the die's own tests, then the cores and the ROM's chain. -/
def releaseCores (s : State) (tracksPass : BitVec 8) (lanesPass : BitVec 4) (fail : BitVec 128) (blocks : List (Nat × Nat)) :
    State :=
  let s := eraseSuspects (bootDetectors s fail) blocks
  let s := (List.range 8).foldl (bootTrack tracksPass) s
  let s := (List.range 4).foldl (bootLane lanesPass) s
  bootChain (enableTracks (enableLanes s))

/-- The die is out of reset: with a contract or advertisement below 4.5 W it is held (R504). -/
def dieRuns (s : State) : Bool := decide (s.power.contractMw = 0) || decide (4500 ≤ s.power.contractMw)

/-- CORES_RELEASED (R529). -/
def execCoresReleased (tracksPass : BitVec 8) (lanesPass : BitVec 4) (fails : BootFails) (s : State) : Out :=
  done (if mainPower s && !s.coresRun && s.fusesOk && dieRuns s then
      releaseCores s tracksPass lanesPass fails.detectors fails.blocks
    else s)

/-! ### BOOT_COMPLETE (R448, R517, R527) -/

/-- The event (R438) and the alarm record of a source that tripped on cell power. -/
def cellAlarm (s : State) (n cls : Nat) : State :=
  let e := evidenceOf s n
  alarmRecord (raise s (64 + n)) n cls e.detectors.toNat 1 e.lastC 0

/-- Pending alarms are reported and their bits clear. -/
def reportPending (s : State) : State :=
  let s := s.vigil.cellTrips.foldl (fun s e => cellAlarm s e.1 e.2) s
  if s.vigil.pendReset || s.vigil.pendCaution then
    tailDue { s with vigil := { s.vigil with cellTrips := [], pendReset := false, pendCaution := false } }
  else { s with vigil := { s.vigil with cellTrips := [] } }

/-- 64 bytes whose values the spec does not give. -/
def freeDigest (s : State) : Bytes := (List.range 16).flatMap (fun i => le 4 (Config.freeWord (s.freeCtr + i)).toNat)

/-- The firmware's measurement of the sealed settings (R270; log entry 86). -/
def measureSettings (s : State) : State :=
  { s with freeCtr := s.freeCtr + 16, flash := { s.flash with
      measured := (s.flash.measured ++ [measurement s 5 0 (freeDigest s)]).take 83 } }

/-- BOOT_COMPLETE (R517). -/
def execBootComplete (s : State) : Out :=
  done (if mainPower s && s.coresRun && !s.flash.monitor then
      leaveShed (setReady { measureSettings (reportPending (builtTable s)) with booted := true })
    else s)

/-! ### Mode requests (R517 to R519) -/

def modeResult (s : State) (st reason : Nat) : State :=
  setR s Reg.SYS_MODERES (withInverse st ||| place 16 4 reason ||| 0x80000000)

def refuseMode (s : State) (reason : Nat) : State := raise (modeResult s 0x0A reason) 2

/-- Run a request: refusals come in the order writer, last gasp, row, and then the row's own conditions. -/
def modeRequest (s : State) (m : Master) (row : Bool) (cond : Nat) (target : Mode) : State :=
  let s := clearR s Reg.SYS_MODERES 0x80000000
  if m ≠ 4 then refuseMode s 1
  else if s.power.lastGasp then refuseMode s 7
  else if !row || s.flash.monitor then refuseMode s 2
  else if cond ≠ 0 then refuseMode s cond
  else modeResult (changeMode s target 2) 0 0

/-- MODEREQ_MAINTENANCE (R519). -/
def execModereqMaintenance (m : Master) (s : State) : Out :=
  done (guardedWrite s m Reg.SYS_MODEREQ (fun s =>
    modeRequest s m (sealing s || decide (s.mode = .commissioning) || decide (s.mode = .condemned))
      (if s.power.contractMw < 15000 then 3 else 0) .maintenance))

/-- Power, then the bank (R504, R509, R516). -/
def powerCond (s : State) : Nat := if s.power.contractMw < 27000 then 3 else if !bankOk s || s.power.bankWeak then 4 else 0

/-- A commissioning order: its key is known and its signature verifies (R518). -/
def orderOk (s : State) (key sig : Bytes) : Bool :=
  let k := slice key 0 1793
  (decide (sha3_256 k = plantKeyDigest s) || decide (sha3_256 k = Config.debugKeyDigest)) && anyLane s &&
    falconVerify k (ascii "XLX commission" ++ identity s ++ regBytes s Reg.SYS_NONCE 8) (slice sig 0 1280)

/-- The verification of an order under a known key is one of the lanes' (R346, R518). -/
def countOrder (s : State) (key : Bytes) : State :=
  let k := slice key 0 1793
  if (sha3_256 k = plantKeyDigest s ∨ sha3_256 k = Config.debugKeyDigest) ∧ anyLane s then countVerify s else s

/-- MODEREQ_COMMISSIONING (R518): identity 4 does not write it when the order fails. -/
def execModereqCommissioning (m : Master) (key sig : Bytes) (s : State) : Out :=
  done (if m = 4 ∧ !orderOk s key sig then countOrder s key
    else
      guardedWrite (if m = 4 then countOrder s key else s) m Reg.SYS_MODEREQ (fun s =>
        modeRequest s m (decide (s.mode = .maintenance) || decide (s.mode = .condemned))
          (if powerCond s ≠ 0 then powerCond s else if bitR s Reg.ENT_STATUS 0 then 0 else 6) .commissioning))

/-- The Shed-to-Running conditions. -/
def runningCond (s : State) : Nat :=
  if s.vigil.trunk ≠ .valid then 5
  else if powerCond s ≠ 0 then powerCond s
  else if !bitR s Reg.ENT_STATUS 0 || bitR s Reg.ENT_STATUS 2 || !tcxoOk s || (unfenced s).isEmpty then 6
  else 0

/-- MODEREQ_RUNNING (R519): Caution instead when HELD is set. -/
def execModereqRunning (m : Master) (s : State) : Out :=
  done (guardedWrite s m Reg.SYS_MODEREQ (fun s =>
    modeRequest s m (decide (s.mode = .maintenance) || decide (s.mode = .commissioning)) (runningCond s)
      (if s.vigil.held then .caution else .running)))

/-- SYS_NONCE_READ (R518): a new nonce; zeros while the entropy source is not ready. -/
def execSysNonceRead (m : Master) (s : State) : Out :=
  done (guardedRead s m Reg.SYS_NONCE (fun s =>
    if entReady s then
      let b := drawBytes s 32
      readData (setRegBytes (drawn s 32) Reg.SYS_NONCE b) (BitVec.ofNat 64 (num b 0 4))
    else readData s 0))

/-! ### IMAGE_COMMIT (R538) -/

/-- A commit of the running slot. -/
def commitImageSlot (s : State) : State :=
  let r := bootRec s
  let b := s.flash.running
  let h := imgHeader s b
  let s := writeRec s { markSlot r b 4 (slotVersion r b) with active := b }
  let s := if versionFloor s < imgMinVersion h then sstStore s 18 (BitVec.ofNat 64 (imgMinVersion h)) else s
  raise s 38

/-- IMAGE_COMMIT (R538). -/
def execImageCommit (m : Master) (s : State) : Out :=
  done (guardedWrite s m Reg.DMN_BOOT (fun s =>
    if m = 4 ∧ s.coresRun ∧ !s.flash.monitor ∧ slotState (bootRec s) s.flash.running = 3 then commitImageSlot s else s))

/-! ### The Deadman (R540) -/

def deadmanAt (s : State) (n : Nat) : Deadman := s.deadmen[n]?.getD { left := 0, armed := false }

def setDeadman (s : State) (n : Nat) (d : Deadman) : State := { s with deadmen := s.deadmen.setIfInBounds n d }

def deadmanOn (s : State) (n : Nat) : Bool := bitR s (Reg.DMN_CTRL n) 16

def deadmanTimeout (s : State) (n : Nat) : Nat := fieldR s (Reg.DMN_CTRL n) 0 16

/-- Expiry: the device resets with nothing sealed. -/
def expireDeadman (s : State) (n : Nat) : State := abruptReset s (causeDeadman n)

def kick (s : State) (n : Nat) (v : Word) : State :=
  let d := deadmanAt s n
  if v = 0x5A5A ∧ !d.armed then setDeadman s n { d with armed := true }
  else if v = 0xA5A5 ∧ d.armed then setDeadman s n { left := deadmanTimeout s n, armed := false }
  else expireDeadman s n

/-- DEADMAN_KICK (R540); the Deadman of a core that a double fault has stopped is not serviced (R401). -/
def execDeadmanKick (m : Master) (n : BitVec 2) (v : Word) (s : State) : Out :=
  done (guardedWrite s m (Reg.DMN_KICK n.toNat) (fun s =>
    if (m.toNat = 3 + 4 * n.toNat ∨ m.toNat = 4 + 4 * n.toNat) ∧ deadmanOn s n.toNat ∧ !(coreAt s n.toNat).stopped then kick s n.toNat v else s))

/-- What PREWARN divides the period by; 0 for never. -/
def prewarnPart (s : State) (n : Nat) : Nat :=
  match fieldR s (Reg.DMN_CTRL n) 18 2 with
  | 1 => 2
  | 2 => 4
  | 3 => 10
  | _ => 0

/-- DEADMAN_PREWARN (R540). -/
def execDeadmanPrewarn (n : BitVec 2) (s : State) : Out :=
  let k := prewarnPart s n.toNat
  .next (if mainPower s && deadmanOn s n.toNat && decide (k ≠ 0) &&
      decide ((deadmanAt s n.toNat).left * k ≤ deadmanTimeout s n.toNat) then raise s (33 + n.toNat)
    else s)

/-- DEADMAN_EXPIRY (R540). -/
def execDeadmanExpiry (n : BitVec 2) (s : State) : Out :=
  done (if mainPower s && deadmanOn s n.toNat && decide ((deadmanAt s n.toNat).left = 0) then expireDeadman s n.toNat else s)

end Sys2Proof.Machine
end

