-- ==== Sys2Proof/Machine/EvtRows.lean ====
section
/-! DEFINITION. Event routes and pending bits, and sealed settings (R549 to R553, R556 to R558). -/

namespace Sys2Proof.Machine

/-! ### Routes (R552) -/

/-- The word that a route write leaves: reserved bits are ignored, and DEST 3 keeps the old DEST. -/
def routeWord (old v : Word) : Word := keepReserved old [(0, 2, 0, 2)] (v &&& 0x87FF001F)

def putEvtRoute (s : State) (n : Nat) (w : Word) : State :=
  { s with evtRoutes := if w = routeDefault n then mdel s.evtRoutes n else mput s.evtRoutes n w }

def writeEvtRoute (s : State) (n : Nat) (v : Word) : State :=
  let old := evtRoute s n
  if bit old 31 then orR s Reg.EVT_ERR 1 else putEvtRoute s n (routeWord old v)

/-- EVT_ROUTE_WRITE (R552). -/
def execEvtRouteWrite (m : Master) (src : BitVec 10) (v : Word) (s : State) : Out :=
  done (guardedWrite s m (Reg.EVT_ROUTE src.toNat) (fun s => writeEvtRoute s src.toNat v))

/-! ### Pending bits (R548, R549, R553) -/

/-- A source is routed to a host vector. -/
def toHost (s : State) (n : Nat) : Bool :=
  match destOf (evtRoute s n) with
  | .host _ => true
  | _ => false

/-- The writer may clear the source's bit. -/
def mayClear (s : State) (m : Master) (n : Nat) : Bool :=
  if m = 4 then true
  else if m = 31 then toHost s n
  else if 1 ≤ m.toNat ∧ m.toNat ≤ 16 then
    match destOf (evtRoute s n) with
    | .core c sb => decide (c.toNat = (m.toNat - 1) / 4) && decide (sb = decide (2 ≤ (m.toNat - 1) % 4))
    | _ => false
  else false

/-- Sources of EVT_PEND n whose bit is written 1. -/
def onesOf (n : Nat) (ones : Word) : List Nat := ((List.range 32).filter (fun i => ones.getLsbD i)).map (fun i => 32 * n + i)

def clearPending (s : State) (m : Master) (n : Nat) (ones : Word) : State :=
  (onesOf n ones).foldl (fun t i =>
    if mayClear t m i then { t with evtPend := t.evtPend &&& ~~~(1#1024 <<< i) } else orR t Reg.EVT_ERR 2) s

/-- Where a master writes pending bits: the host in Window A, a core in the EVT block. -/
def pendAddr (m : Master) (n : Nat) : Nat := if m = 31 then 0x40161000 + 4 * n else Reg.EVT_PEND n

/-- EVT_PEND_CLEAR (R549). -/
def execEvtPendClear (m : Master) (n : BitVec 5) (ones : Word) (s : State) : Out :=
  done (guardedWrite s m (pendAddr m n.toNat) (fun s => clearPending s m n.toNat ones))

/-! ### Sealed settings (R556 to R558) -/

/-- What R558 lets a direct write do to a register. -/
inductive SstRule where
  /-- not used: ignored -/
  | unused
  /-- held by an owner or by the device: ignored, with SST_ERR.REFUSED -/
  | refused
  | direct
  deriving DecidableEq, Repr

def sstRule (s : State) (m : Master) (i : Nat) : SstRule :=
  if i = 19 ∨ (248 ≤ i ∧ i ≤ 251) then .unused
  else if i = 5 ∨ i = 8 ∨ (20 ≤ i ∧ i ≤ 23) then (if m = 4 ∧ s.mode = .commissioning then .direct else .refused)
  else if 104 ≤ i ∧ i ≤ 247 then (if m = 4 then .direct else .refused)
  else .refused

/-- The value a direct write leaves: reserved bits and a reserved region are ignored, and the level is the device's. -/
def sstValue (s : State) (i : Nat) (v : DWord) : DWord :=
  if i = 5 then (sstGet s 5 &&& 0x300) ||| (v &&& 3)
  else if i = 8 then (if v &&& 3 = 3 then sstGet s 8 else v &&& 3)
  else v

/-- The low half held for a register; the one in force where none was written. -/
def heldLowOf (s : State) (i : Nat) : Word := (mget? s.lowHeld (Reg.SST_REG i)).getD (lo32 (sstGet s i))

/-- The write of a high half carries the pair. -/
def writeSst (s : State) (m : Master) (i : Nat) (hi : Word) : State :=
  let v := pair64 hi (heldLowOf s i)
  let s := { s with lowHeld := mdel s.lowHeld (Reg.SST_REG i) }
  match sstRule s m i with
  | .unused => s
  | .refused => orR s Reg.SST_ERR 2
  | .direct => sstStore s i (sstValue s i v)

/-- One half of a register: the low half is held. -/
def sstHalf (s : State) (m : Master) (i : Nat) (hi : Bool) (v : Word) : State :=
  if hi then writeSst s m i v else { s with lowHeld := mput s.lowHeld (Reg.SST_REG i) v }

/-- SST_WRITE (R557). -/
def execSstWrite (m : Master) (idx : BitVec 8) (hi : Bool) (v : Word) (s : State) : Out :=
  done (guardedPair s m (Reg.SST_REG idx.toNat + if hi then 4 else 0) (fun s => sstHalf s m idx.toNat hi v))

/-- SST_PERSISTED (R557). -/
def execSstPersisted (s : State) : Out := .next (clearR s Reg.SST_STATUS 1)

end Sys2Proof.Machine
end

