-- ==== Sys2Proof/Machine/HostRows.lean ====
section
/-! DEFINITION. Failed host reads, the USB 2.0 maintenance path, image loads and the general DMA channels (R63, R67 to R69,
R97, R168, R536, R537, R570). -/

namespace Sys2Proof.Machine

/-! ### Host reads that fail (R67, R97, R128, R168) -/

def hostError (s : State) : State := raise (orR s Reg.HLK_ERR 0x80) 20

/-- The waybill of a line that is being absorbed with expected tags. -/
def waitsExpected (s : State) (l : Nat) : Option Flight :=
  (getLine s l).flights.find? (fun f => decide (f.phase = .stamped) && decide (byteAt f.raw 2 = 4))

/-- A data-line waybill ends with 0x05. -/
def failData (s : State) (l : Nat) (f : Flight) : State := stampAll (settle (endFlight s l f.id 0x05 false) l)

/-- The read of a waybill's records fails. A line key that cannot be derived is reported instead (R119); without a link the
waybill stays unconsumed (R64). -/
def failRecords (s : State) (l : Nat) (f : Flight) : State :=
  let s := hostError s
  if !s.hlk.up then s
  else
    match ctx? s l with
    | some c => if f.phase = .keyWait ∧ (lineKeyCheck s c.parent.toNat).status ≠ 0 then stampAll (deriveLineKey s l f) else failData s l f
    | none => s

/-- The read of a waybill's expected tags fails. A seal fault in the same waybill is reported instead (R119); without a link
it stays unconsumed (R64). -/
def failExpected (s : State) (l : Nat) (f : Flight) : State :=
  let s := hostError s
  if !s.hlk.up then s
  else if ctxBad s l || absorbFaults s f then stampAll (absorb s l f [])
  else stampAll (finishFencing (failData s l f) f.track.toNat)

/-- A service waybill that reads host memory for its work (R130). -/
def readsPayload (raw : Bytes) : Bool :=
  [0x20, 0x21, 0x22, 0x23, 0x28, 0x30].contains (byteAt raw 2)

/-- The branch check of a service waybill that reads host memory. -/
def branchCheck (s : State) (raw : Bytes) : Check :=
  match byteAt raw 2 with
  | 0x20 => signCheck s raw
  | 0x22 => encapsCheck s raw
  | 0x23 => decapsCheck s raw
  | _ => .ok

/-- The fault status that a service waybill reports in place of 0x05; 0 for none (R119). -/
def payloadFault (s : State) (raw : Bytes) : Nat :=
  let k := branchCheck s raw
  if k.status = 0x06 ∨ k.status = 0x07 ∨ k.status = 0x0D then k.status
  else if wornRefuses s raw then 0x07
  else 0

/-- The payload read of a service waybill fails. -/
def failService (s : State) (l : Nat) (f : Flight) : State :=
  if !readsPayload f.raw then s
  else
    let st := payloadFault s f.raw
    completeService (noteCheck (hostError s) (branchCheck s f.raw)) l f.id (if st = 0 then 0x05 else st) 0 []

/-- The read of HEAD_ADDR fails: only a LINE_OPEN that has come to step 5 of R576 makes it. -/
def failOpen (s : State) (f : Flight) : State :=
  if byteAt f.raw 2 = 0x10 ∧ firstOn s f ∧ openCheck s f.raw = 0 ∧ (getLine s (woTarget f.raw)).state = .closed ∧
      woContinue f.raw then
    completeControl (hostError s) f.id 0x05 0 []
  else s

/-- The payload read of the service or control waybill at a position of its line fails. -/
def failPayload (s : State) (l pos : Nat) : State :=
  match (getLine s l).flights[pos]? with
  | some f =>
    if f.phase ≠ .service then s
    else if l = 0 then failOpen s f
    else failService s l f
  | none => s

/-! ### DMA (R68, R69) -/

def dmaRunning (s : State) (c : Nat) : Bool := decide (fieldR s (Reg.DMA_STATUS c) 0 2 = 1)

def dmaLen (s : State) (c : Nat) : Nat := fieldR s (Reg.DMA_LEN c) 0 25
def dmaDir (s : State) (c : Nat) : Nat := fieldR s (Reg.DMA_CTRL c) 2 2
def dmaSrc (s : State) (c : Nat) : Nat := (getR64 s (Reg.DMA_SRC c)).toNat
def dmaDst (s : State) (c : Nat) : Nat := (getR64 s (Reg.DMA_DST c)).toNat

/-- A copy ends: DONE raises 44 + c, every other code 48 + c. -/
def dmaEnd (s : State) (c code moved : Nat) : State :=
  let s := setR s (Reg.DMA_STATUS c) (2 ||| place 8 8 code ||| place 16 8 (255 - code))
  raise (setR s (Reg.DMA_DONE c) (place 0 25 moved)) (if code = 0 then 44 + c else 48 + c)

def dmaMaster (c : Nat) : Master := BitVec.ofNat 6 (33 + c)

/-- An internal range: its high half is zero and it does not pass the top. -/
def internalOk (a n : Nat) : Bool := decide (a + n ≤ 2 ^ 32)

/-- The parameters fit R68. -/
def dmaParamOk (s : State) (c dir : Nat) : Bool :=
  let n := dmaLen s c
  decide (1 ≤ n ∧ n ≤ 16777216) && decide (dir ≠ 3) && (decide (dir = 1) || internalOk (dmaSrc s c) n) &&
    (decide (dir = 2) || internalOk (dmaDst s c) n)

/-- START, with the DIR that the same write carries. -/
def startDma (s : State) (c dir : Nat) : State :=
  if dmaRunning s c then orR s (Reg.DMA_ERR c) 1
  else
    let s := if dir = 3 then s else setFieldR s (Reg.DMA_CTRL c) 2 2 dir
    if dmaParamOk s c dir then setR (setR s (Reg.DMA_STATUS c) 0xFF0001) (Reg.DMA_DONE c) 0 else dmaEnd s c 5 0

/-- DMA_START (R68). -/
def execDmaStart (m : Master) (c dir : BitVec 2) (s : State) : Out :=
  done (guardedWrite s m (Reg.DMA_CTRL c.toNat) (fun s => startDma s c.toNat dir.toNat))

/-- Parts of a copy that no access splits: neither its source nor its destination part crosses a 4 KiB page (R28). -/
def copyParts (s : State) (c n : Nat) : List (Nat × Nat) :=
  let src := dmaSrc s c
  let dst := dmaDst s c
  let cuts := (List.range (n + 1)).filter (fun i => decide (i = 0) || decide (i = n) || decide ((src + i) % 4096 = 0) ||
    decide ((dst + i) % 4096 = 0))
  cuts.zip (cuts.drop 1)

/-- How a copy of parts went: the state and the bytes moved. -/
structure Moved where
  state : State
  bytes : Nat
  outcome : Access
  deriving DecidableEq, Repr

/-- Source bytes of a part. -/
def readPart (s : State) (c dir : Nat) (host : Bytes) (lo hi : Nat) : Reach × Bytes :=
  if dir = 1 then ({ state := s, outcome := .ok }, slice host lo (hi - lo))
  else
    let r := reach s (dmaMaster c) .read (dmaSrc s c + lo) (hi - lo)
    (r, engineBytes s (dmaSrc s c + lo) (hi - lo))

def writePart (s : State) (c dir lo : Nat) (b : Bytes) : Reach :=
  if dir = 2 then { state := hostWrite s (BitVec.ofNat 64 (dmaDst s c + lo)) b, outcome := .ok }
  else engineWrite s (dmaMaster c) (dmaDst s c + lo) b

/-- Copy the parts in ascending order; the first that fails ends the copy. -/
def copyLoop (c dir : Nat) (host : Bytes) : List (Nat × Nat) → State → Nat → Moved
  | [], s, n => { state := s, bytes := n, outcome := .ok }
  | (lo, hi) :: r, s, n =>
    let a := readPart s c dir host lo hi
    if a.1.outcome ≠ .ok then { state := a.1.state, bytes := n, outcome := a.1.outcome }
    else
      let w := writePart a.1.state c dir lo a.2
      if w.outcome ≠ .ok then { state := w.state, bytes := n, outcome := w.outcome } else copyLoop c dir host r w.state hi

/-- Copy the first `n` bytes. -/
def copyBytes (s : State) (c n : Nat) (host : Bytes) : Moved := copyLoop c (dmaDir s c) host (copyParts s c n) s 0

def dmaCode : Access → Nat
  | .ok => 0
  | .busError => 3
  | .sealFault => 4

/-- The copy is over: `seen` is what the fabric answered beyond what the state shows. -/
def finishDma (s : State) (c : Nat) (host : Bytes) (seen : Access) : State :=
  let n := dmaLen s c
  let short := decide (dmaDir s c = 1) && decide (host.length < n)
  let want := if short then host.length else n
  let k := copyBytes s c (if seen = .ok then want else (freeWord s).toNat % (want + 1)) host
  let t := if seen = .ok then k.state else usedFree k.state
  if k.outcome ≠ .ok then dmaEnd t c (dmaCode k.outcome) k.bytes
  else if seen ≠ .ok then dmaEnd (noteSeen t seen 20) c (dmaCode seen) k.bytes
  else if short then dmaEnd (hostError t) c 2 k.bytes
  else dmaEnd t c 0 k.bytes

/-- DMA_COPY_END (R68): `data` is what host reads returned for DIR 1; fewer bytes than LEN: the next host read failed. -/
def execDmaCopyEnd (c : BitVec 2) (data : Bytes) (outcome : Access) (s : State) : Out :=
  done (if mainPower s && dmaRunning s c.toNat then finishDma s c.toNat data outcome else s)

/-- ABORT: the bytes moved before it are not stated (log entry 8). -/
def abortDma (s : State) (c : Nat) : State :=
  if !dmaRunning s c then s
  else
    let n := (freeWord s).toNat % (dmaLen s c + 1)
    let k := copyBytes s c n (hostBytes s (dmaSrc s c) n)
    let t := usedFree k.state
    if k.outcome = .ok then dmaEnd t c 1 k.bytes else dmaEnd t c (dmaCode k.outcome) k.bytes

/-- DMA_ABORT (R68). -/
def execDmaAbort (m : Master) (c : BitVec 2) (s : State) : Out :=
  done (guardedWrite s m (Reg.DMA_CTRL c.toNat) (fun s => abortDma s c.toNat))

/-- A host read of a copy fails: the bytes before it are moved, how many is not stated (log entry 8). -/
def failDma (s : State) (c : Nat) : State :=
  if !dmaRunning s c ∨ dmaDir s c ≠ 1 then s
  else
    let n := (freeWord s).toNat % dmaLen s c
    let k := copyBytes s c n (hostBytes s (dmaSrc s c) n)
    let t := usedFree k.state
    if k.outcome = .ok then dmaEnd (hostError t) c 2 k.bytes else dmaEnd t c (dmaCode k.outcome) k.bytes

/-- A read of host memory fails; the read of an Up entry also after the link has gone (R67, R97). -/
def hostReadFails (s : State) : HostRead → State
  | .upEntry l =>
    if admissible s (getLine s l.toNat) then
      modLine (hostError s) l.toNat (fun r => { r with retryAt := s.ttc + BitVec.ofNat 64 msTicks })
    else s
  | .records l =>
    match fetching s l.toNat with
    | some f => failRecords s l.toNat f
    | none => s
  | .expected l =>
    match waitsExpected s l.toNat with
    | some f => failExpected s l.toNat f
    | none => s
  | .fill l =>
    if slot? s l.toNat = some .filling then
      afterTransfer (failControl (dropSlot (hostError s) l.toNat) l.toNat 0x05)
    else s
  | .payload l pos => failPayload s l.toNat pos
  | .dma c => failDma s c.toNat

/-- The error is recorded for the host's error reporting if a read failed (R48). -/
def noteAer (s t : State) (e : AerError) : State :=
  if fieldR t Reg.HLK_ERR 7 1 = 1 ∧ t ≠ s then { t with hlk := { t.hlk with aer := t.hlk.aer ++ [e] } } else t

/-- HOST_COMPLETION_TIMEOUT (R67). -/
def execHostCompletionTimeout (r : HostRead) (s : State) : Out :=
  done (if mainPower s then noteAer s (hostReadFails s r) .completionTimeout else s)

/-- HOST_READ_ERROR (R67). -/
def execHostReadError (r : HostRead) (s : State) : Out :=
  done (if mainPower s then noteAer s (hostReadFails s r) .badCompletion else s)

/-! ### IMAGE_LOAD (R536, R537) -/

def loadReason (s : State) (r : Nat) : State := setFieldR s Reg.DMN_BOOT 9 3 r

/-- The slot that is not running; under the monitor, the one that is not ACTIVE (log entry 45). -/
def loadSlot (s : State) : Bool := if s.flash.monitor then !(bootRec s).active else !s.flash.running

def loadRefusal (s : State) (st reason : Nat) : Reply := refuse (loadReason s reason) st

/-- The chunk does not start where the previous one ended. -/
def outOfOrder (s : State) (raw : Bytes) : Bool :=
  if byteAt raw 3 % 2 = 1 then decide (wf64 raw 8 ≠ 0) else decide (s.flash.loadNext ≠ some (wf64 raw 8))

/-- BEGIN erases the slot and marks it LOADING. -/
def beginLoad (s : State) : State :=
  let b := loadSlot s
  writeRec (eraseSlot s (b2n b)) (markSlot (bootRec s) b 1 0)

/-- FINISH checks the image. -/
def finishLoad (s : State) : Reply :=
  let b := loadSlot s
  let c := imgCheck s b
  let s := { s with flash := { s.flash with loadNext := none } }
  let s := if c = 0 ∨ c = 4 then countVerify s else s
  if c ≠ 0 then refuse (raise (loadReason s c) 39) 0x1C
  else
    let s' := writeRec s (markSlot (bootRec s) b 2 (imgVersion (imgHeader s b)))
    { state := s', status := 0, length := 0, result := (imgDigest s b).take 32, writes := [] }

/-- One chunk. -/
def loadReply (s : State) (raw chunk : Bytes) : Reply :=
  let n := num raw 4 4
  let finish := decide (byteAt raw 3 / 2 % 2 = 1)
  if outOfOrder s raw then loadRefusal s 0x1D 5
  else if !s.flash.monitor ∧ slotState (bootRec s) s.flash.running = 3 then loadRefusal s 0x0A 6
  else if finish && lsuBusy s then refuse s 0x0B
  else
    let s := if byteAt raw 3 % 2 = 1 then beginLoad s else s
    let s := slotWrite s (b2n (loadSlot s)) (wf64 raw 8) (slice chunk 0 n)
    let s := { s with flash := { s.flash with loadNext := some (wf64 raw 8 + n) } }
    if finish then finishLoad s else refuse s 0

/-- A chunk that has to wait: the last-gasp seal starts no erase and no such write (R297), and a FINISH takes a lane
(R333). -/
def loadWaits (s : State) (raw : Bytes) : Bool :=
  s.power.lastGasp || (lanesBusy s && decide (byteAt raw 3 / 2 % 2 = 1))

/-- IMAGE_LOAD (R536). -/
def execImageLoad (line : BitVec 19) (pos : Nat) (chunk : Bytes) (s : State) : Out :=
  done (runUnless s line pos 0x30 (fun f => loadWaits s f.raw) (fun s f => loadReply s f.raw chunk))

/-! ### The USB 2.0 bulk path (R63) -/

/-- What the maintenance path accepts, by mode; the monitor serves no ATTEST (R63, R535). -/
def usbAccepts (s : State) (op : Nat) : Bool :=
  decide (s.mode = .maintenance) && (decide (op = 0x26) || decide (op = 0x27) || decide (op = 0x30) ||
    (decide (op = 0x29) && !s.flash.monitor))

/-- The answer of a bulk waybill that needs no turn. -/
def usbReply (s : State) (w payload : Bytes) : Reply :=
  let op := byteAt w 2
  if !usbAccepts s op then refuse s 0x0A
  else if !lengthsOk w then refuse s 0x02
  else if !alignOk w true then refuse s 0x04
  else if op = 0x26 then manifestReply s w
  else if op = 0x29 then attestReply s w
  else loadReply s w payload

/-- A LOG_EXPORT that the maintenance path accepts waits for its turn (R282). -/
def usbIsExport (s : State) (w : Bytes) : Bool :=
  decide (byteAt w 2 = 0x27) && usbAccepts s 0x27 && lengthsOk w && alignOk w true

/-- An export in its turn is carried out at once, with `bad` the serials that cannot be read; another waits. One that meets the
last-gasp seal ends with 0x0C (R300). -/
def usbTakeExport (s : State) (w : Bytes) (bad : List Nat) : State :=
  if s.power.lastGasp then usbCompletion s w (refuse s 0x0C) true
  else if exportTurn s s.lne.nextId then usbExport s w bad
  else { s with lne := { s.lne with nextId := s.lne.nextId + 1 },
                hlk := { s.hlk with usbWait := s.hlk.usbWait ++ [(s.lne.nextId, w, bad)] } }

/-- A bulk waybill that the endpoint does not take yet: a load that has to wait, or a quote with every lane busy (R297, R333). -/
def usbHeld (s : State) (w : Bytes) : Bool :=
  usbAccepts s (byteAt w 2) && lengthsOk w && alignOk w true &&
    ((decide (byteAt w 2 = 0x30) && loadWaits s w) || (decide (byteAt w 2 = 0x29) && lanesBusy s))

/-- BULK_WAYBILL (R63); with K_dev's fuses failed only the status request is served (R428). -/
def execBulkWaybill (w : Bytes) (payload : Reading Bytes) (s : State) : Out :=
  done (if mainPower s && s.fusesOk && !usbHeld s (slice w 0 64) then
      let w := slice w 0 64
      if usbIsExport s w then usbTakeExport s w payload.bad else usbCompletion s w (usbReply s w payload.value) false
    else s)

end Sys2Proof.Machine
end

