-- ==== Sys2Proof/Machine/Views.lean ====
section
/-! DEFINITION. What a read of each register shows (R9, R10, R13). Registers that are plain storage come from the bank;
the others are computed from the state. -/

namespace Sys2Proof.Machine

/-- A bit in a place. -/
def flag (i : Nat) (b : Bool) : Word := place i 1 (b2n b)

/-- One 32-bit part of a wide value. -/
def part32 (v i : Nat) : Word := BitVec.ofNat 32 (v >>> (32 * i))

/-- The half of a 64-bit quantity at an address whose low half is at `base`. -/
def halfOf (a base : Nat) (v : DWord) : Word := if a = base then lo32 v else hi32 v

def isPair (a base : Nat) : Bool := decide (a = base) || decide (a = base + 4)

/-! ### SYS, CLK, PWR (R44, R523, R524) -/

def sysView (s : State) (a : Nat) : Word :=
  if a = Reg.SYS_MODE then getR s a ||| place 0 3 (modeCode s.mode) ||| place 4 3 (modeCode s.prevMode)
  else getR s a

def kdeIdle (s : State) : Bool := decide (kdeStatus s = 0) || decide (kdeStatus s = 4)
def maeIdle (s : State) : Bool := decide (maeState s = 0) || decide (maeState s = 3)

/-- A hold of CLK_GATE; ignored at reduced tier. -/
def held (s : State) (i : Nat) : Bool := decide (s.power.tier ≠ 1) && bitR s Reg.CLK_GATE i

/-- ck_lsu runs while a lane in use works, and while LSU_HOLD keeps the gating of an idle lane off; the last-gasp seal gates what
it does not need (R33, R44, R511). -/
def lanesClocked (s : State) : Bool :=
  (List.range 4).any (fun n => (laneAt s n).enabled && !(laneAt s n).fenced && ((laneAt s n).job.isSome || (held s 2 && !s.power.lastGasp)))

/-- Domains that run, in the order of R33; ck_dbg counts as driven while a debug session is open (log entry 46). The tracks' clock
stops with the last-gasp seal (R511). -/
def domainRuns (s : State) (d : Nat) : Bool :=
  match d with
  | 2 => (decide (s.mode = .shed) || sealing s) && !(unfenced s).isEmpty && !s.power.lastGasp
  | 3 => lanesClocked s
  | 4 => !maeIdle s || held s 0
  | 5 => !kdeIdle s || held s 1
  | 7 => s.hlk.up
  | 8 => if s.power.sag then decide (fieldR s Reg.PWR_INPUT 0 16 ≠ 0) else s.power.vbus
  | 11 => cardBusy s
  | 13 => s.tail.field || s.tail.updating
  | 17 => decide (sessionLevel s ≠ 0)
  | _ => decide (d < 18)

def clkRun (s : State) : Word := (List.range 18).foldl (fun w d => w ||| flag d (domainRuns s d)) 0

/-- Domains whose frequency monitor is tripped: sources 70 to 75 (R438). -/
def clkMon (s : State) : Word :=
  [(15, 70), (0, 71), (1, 72), (2, 73), (14, 74), (16, 75)].foldl
    (fun w e => w ||| flag e.1 (s.vigil.active.getLsbD e.2)) 0

def clkView (s : State) (a : Nat) : Word :=
  if a = Reg.CLK_RUN then clkRun s
  else if a = Reg.CLK_SRC then flag 0 true ||| flag 1 (bitR s Reg.TTC_STATUS 0)
  else if a = Reg.CLK_MON then clkMon s
  else getR s a

def pwrStatus (s : State) : Word :=
  place 0 2 s.power.tier ||| flag 2 s.power.epr ||| flag 3 s.power.sag ||| flag 4 s.power.lastGasp |||
    flag 5 (bankOk s) ||| flag 6 s.power.bankWeak ||| flag 7 s.power.thermal |||
    flag 8 (decide (fieldR s Reg.PWR_CELL 0 12 < 2600)) ||| flag 9 (tierCapped s && decide (45000 ≤ s.power.contractMw))

/-- The measured input power is a free value (log entry 8). -/
def pwrView (s : State) (a : Nat) : Word :=
  if a = Reg.PWR_STATUS then pwrStatus s
  else if a = Reg.PWR_BANK then getR s a ||| place 0 16 s.power.bankMv
  else if a = Reg.PWR_CFG then lo32 (sstGet s 15) &&& 3
  else if a = Reg.PWR_INPUT then (getR s a &&& 0xFFFF) ||| place 16 16 (freeWord s).toNat
  else getR s a

/-! ### EVT (R550, R560) -/

/-- An entry of the trace. -/
def traceEntry (s : State) (i : Nat) : Option (Nat × DWord) := s.trace[(s.traceHead.toNat + 255 - i % 256) % 256]?

def traceSel (s : State) : Option (Nat × DWord) := traceEntry s (fieldR s Reg.EVT_TRACE_SEL 0 8)

def pendWord (s : State) (n : Nat) : Word := part32 s.evtPend.toNat n

/-- EVT_PEND as Window A shows it: sources not routed to a host vector read 0 (R553). -/
def hostPend (s : State) (n : Nat) : Word :=
  (List.range 32).foldl (fun w i => w ||| flag i (isPending s (32 * n + i) && toHost s (32 * n + i))) 0

def evtView (s : State) (a : Nat) : Word :=
  if within a 0x40030000 0x4003007F then pendWord s ((a - 0x40030000) / 4)
  else if a = Reg.EVT_TRACE_HEAD then s.traceHead.setWidth 32 ||| flag 31 s.traceWrapped
  else if a = Reg.EVT_TRACE_SRC then place 0 10 (((traceSel s).map (fun e => e.1)).getD 0)
  else if isPair a Reg.EVT_TRACE_TTC then halfOf a Reg.EVT_TRACE_TTC (((traceSel s).map (fun e => e.2)).getD 0)
  else if within a 0x40031000 0x40031FFF then evtRoute s ((a - 0x40031000) / 4)
  else getR s a

/-! ### ILK, MBX, DMN, TTC, ENT (R186, R359, R412, R435, R546) -/

/-- ILK_SEALCNT: the tile of ILK_SEL and its faults in the last second. -/
def sealCnt (s : State) : Word :=
  let t := fieldR s Reg.ILK_SEL 0 5
  place 0 5 t ||| place 8 8 (min 255 (sealFaultCount s t))

def ilkView (s : State) (a : Nat) : Word := if a = Reg.ILK_SEALCNT then sealCnt s else getR s a

def mbxStat (b : Mailbox) : Word :=
  flag 0 b.full ||| flag 1 (decide (b.claimant ≠ 0)) ||| place 8 6 b.claimant.toNat ||| place 16 6 b.sender.toNat

/-- Registers of the MBX block whose read has no side effect. -/
def mbxView (s : State) (a : Nat) : Word :=
  if within a 0x40050000 0x4005003F then
    let b := mailbox s ((a - 0x40050000) / 4)
    place 0 16 b.senders.toNat ||| place 16 6 b.receiver.toNat
  else if within a 0x40051000 0x400510FF && decide (a % 16 = 12) then mbxStat (mailbox s ((a - 0x40051000) / 16))
  else getR s a

def dmnBoot (s : State) : Word :=
  let r := bootRec s
  getR s Reg.DMN_BOOT ||| place 0 3 r.stateA ||| place 3 3 r.stateB ||| flag 6 r.active ||| flag 7 s.flash.running

def dmnView (s : State) (a : Nat) : Word :=
  if a = Reg.DMN_BOOT then dmnBoot s
  else if a = Reg.DMN_FLOOR then lo32 (sstGet s 18)
  else if within a 0x40061000 0x4006101F && decide (a % 8 = 4) then
    let n := (a - 0x40061000) / 8
    if deadmanOn s n then BitVec.ofNat 32 (deadmanAt s n).left else 0
  else getR s a

def ttcView (s : State) (a : Nat) : Word := if isPair a Reg.TTC_NOW then halfOf a Reg.TTC_NOW s.ttc else getR s a

/-- POOL counts whole blocks of 32 bytes (log entry 21). -/
def entView (s : State) (a : Nat) : Word :=
  if a = Reg.ENT_STATUS then getR s a ||| place 8 4 (s.ent.pool.length / 32) else getR s a

/-! ### MAE, LSU, BTR (R250, R345, R346) -/

def maeView (s : State) (a : Nat) : Word :=
  if a = Reg.MAE_CONFIG then flag 0 (maeWipeOn s) ||| (getR s a &&& 2) else getR s a

def lsuStatus (s : State) : Word :=
  (List.range 4).foldl (fun w n =>
    w ||| flag n (laneAt s n).enabled ||| flag (4 + n) (laneAt s n).fenced ||| flag (8 + n) (laneAt s n).job.isSome)
    (place 12 6 (32 - s.descQueue.length) ||| flag 18 (!anyLane s))

def lsuView (s : State) (a : Nat) : Word := if a = Reg.LSU_STATUS then lsuStatus s else getR s a

def trunkCode : Trunk → Nat
  | .empty => 0
  | .valid => 1
  | .lost => 2

def btrStatus (s : State) : Word :=
  getR s Reg.BTR_STATUS ||| place 0 2 (trunkCode s.vigil.trunk) ||| flag 2 (hasPlate s) ||| flag 4 s.btr.isSome |||
    flag 5 (!s.rescueSeed.isEmpty) ||| place 16 13 s.branches.length

/-- STATE of BTR_SEL_ENTRY: a VALID branch with an invalid ancestor or a LOST Trunk is ORPHANED. -/
def entryState (s : State) (i : Nat) (b : Branch) : Nat :=
  match b.state with
  | .free => 0
  | .invalid => 2
  | .valid => if chainValid s i then 1 else 3

def btrSel (s : State) : Nat := fieldR s Reg.BTR_SEL 0 12

def selEntry (s : State) : Word :=
  match mget? s.branches (btrSel s) with
  | none => 0
  | some b =>
    place 0 2 (entryState s (btrSel s) b) ||| flag 2 b.installed ||| flag 3 b.expire ||| place 4 3 b.kind.toNat |||
      place 7 4 b.depth ||| place 12 12 b.parent

def btrView (s : State) (a : Nat) : Word :=
  if a = Reg.BTR_STATUS then btrStatus s
  else if a = Reg.BTR_CONFIG then flag 0 (zfull s)
  else if a = Reg.BTR_SEL_ENTRY then selEntry s
  else if a = Reg.BTR_SEL_USES then ((mget? s.branches (btrSel s)).map (fun b => b.uses)).getD 0
  else if a = Reg.BTR_SEL_LINES then place 0 20 (((mget? s.branches (btrSel s)).map (fun b => b.lines)).getD 0)
  else if isPair a Reg.BTR_TRUNK_CHECK then halfOf a Reg.BTR_TRUNK_CHECK (num64 (trunkCheckNow s) 0)
  else if a = Reg.BTR_IMAGE then BitVec.ofNat 32 (imageSerial s)
  else getR s a

/-! ### MSH, LNE, SEAL, FLC (R110, R179, R217, R302) -/

def mshTracks (s : State) : Word :=
  (List.range 8).foldl (fun w t =>
    w ||| flag t (trackAt s t).enabled ||| flag (8 + t) (trackAt s t).fenced ||| flag (16 + t) (stampedOn s t).isSome)
    (flag 24 (governed s))

def mshView (s : State) (a : Nat) : Word :=
  if a = Reg.MSH_TRACKS then mshTracks s
  else if a = Reg.MSH_QUEUE then getR s a ||| place 0 10 (queuedOnTracks s)
  else getR s a

def lneSel (s : State) : Nat := fieldR s Reg.LNE_SEL 0 19

def lineCode : LineState → Nat
  | .closed => 0
  | .opened => 1
  | .paused => 2
  | .faulted => 3

/-- Line 0's context stands outside the cache: RESIDENT reads 0, and PINNED 1 while line 0 has a waybill in flight (log entry
135). What PINNED shows of any other line without a context in the cache is the model's choice (log entry 168). -/
def lneSelState (s : State) : Word :=
  let l := lneSel s
  let r := getLine s l
  place 0 2 (lineCode r.state) ||| flag 2 r.halt ||| flag 3 (resident s l) ||| flag 4 (pinned s l) |||
    place 8 4 r.flights.length ||| place 16 8 r.fault.toNat

def openLines (s : State) : Nat := (s.lne.lines.filter (fun e => decide (e.2.state ≠ .closed))).length

/-- Pinned slots, those that a dropped context's spill still occupies included (R94). -/
def pinnedCount (s : State) : Nat := (s.lne.cache.filter (fun e => pinned s e.1)).length + s.lne.leaving.length

def lneView (s : State) (a : Nat) : Word :=
  if a = Reg.LNE_INFLIGHT then getR s a ||| place 0 10 (inFlight s)
  else if a = Reg.LNE_OPEN_LINES then place 0 20 (openLines s)
  else if a = Reg.LNE_CACHE then place 0 17 (occupied s) ||| place 17 11 (pinnedCount s)
  else if a = Reg.LNE_SEL_STATE then lneSelState s
  else if a = Reg.LNE_SEL_UPTAIL then BitVec.ofNat 32 (getLine s (lneSel s)).upTail
  else if a = Reg.LNE_SEL_UPHEAD then BitVec.ofNat 32 (getLine s (lneSel s)).upHead
  else if a = Reg.LNE_SEL_DNTAIL then BitVec.ofNat 32 (getLine s (lneSel s)).dnTail
  else if a = Reg.LNE_SEL_DNHEAD then BitVec.ofNat 32 (getLine s (lneSel s)).dnHead
  else getR s a

/-- STATE of SEAL_STATUS: a rebuild first, then the oldest closed epoch, then the open one. -/
def sealState (s : State) : Nat :=
  if s.su.rebuilding then 5
  else
    match s.su.jobs with
    | j :: _ => if j.phase = .freezing then 3 else 4
    | [] =>
      match s.su.open_ with
      | none => 0
      | some _ => if boundaryReached s then 2 else 1

def sealView (s : State) (a : Nat) : Word :=
  if a = Reg.SEAL_STATUS then
    getR s a ||| place 0 3 (sealState s) ||| place 8 3 s.su.window.length ||| place 16 16 (min 65535 s.su.unsigned.length)
  else if isPair a Reg.SEAL_EPOCH_LEN then halfOf a Reg.SEAL_EPOCH_LEN (sstGet s 0)
  else if isPair a Reg.SEAL_BASE then halfOf a Reg.SEAL_BASE (sstGet s 1)
  else if isPair a Reg.SEAL_K0 then halfOf a Reg.SEAL_K0 (sstGet s 2)
  else if isPair a Reg.SEAL_OPEN then
    halfOf a Reg.SEAL_OPEN (BitVec.ofNat 64 ((s.su.open_.map (fun e => e.number)).getD 0))
  else if a = Reg.SEAL_KEY then lo32 (sstGet s 3)
  else if a = Reg.SEAL_CKPT then lo32 (sstGet s 4)
  else getR s a

/-- DIE_BUSY: the die of a command in progress; every die that serves while a staging write or a wordline stripe is under way,
which run over all planes (R275, R276). -/
def diesBusy (s : State) : Word :=
  (match s.flash.op with
    | some (_, d, _) => flag d true
    | none => 0) |||
    (if s.log.staging.isEmpty && !s.flash.programming then 0 else place 0 4 (~~~s.flash.deadDies).toNat)

def flcStatus (s : State) : Word :=
  diesBusy s ||| flag 4 s.flash.op.isSome ||| flag 5 s.power.lastGasp ||| flag 6 (logFull s)

def cwWord (c : Slice) : Word := place 0 2 c.die ||| place 2 11 c.block ||| place 13 4 c.offset ||| flag 31 c.valid

def logUse (s : State) : Word :=
  place 0 9 s.flash.stripes.length ||| place 9 9 (lockedStripes s) ||| flag 18 (logFull s) |||
    place 20 12 (min 4095 (keptRoom s / 1024))

/-- STAGING_PCT: mean staging wear as a percentage of 60,000 cycles. -/
def flcWear (s : State) : Word :=
  place 0 7 (min 127 (ringWear s.flash.stagingWear * 100 / 60000)) ||| place 8 10 (sparesLeft s false) |||
    place 18 6 (sparesLeft s true)

def flcView (s : State) (a : Nat) : Word :=
  if a = Reg.FLC_STATUS then flcStatus s
  else if isPair a Reg.FLC_LOG_NEXT then halfOf a Reg.FLC_LOG_NEXT (BitVec.ofNat 64 (newestStored s + 1))
  else if isPair a Reg.FLC_LOG_OLDEST then halfOf a Reg.FLC_LOG_OLDEST (BitVec.ofNat 64 (oldestStored s))
  else if isPair a Reg.FLC_LOG_MARK then halfOf a Reg.FLC_LOG_MARK (BitVec.ofNat 64 s.log.mark)
  else if a = Reg.FLC_CW_MAP then cwWord (sliceAt s (fieldR s Reg.FLC_CW_SEL 0 8))
  else if a = Reg.FLC_LOG_USE then logUse s
  else if a = Reg.FLC_WEAR then flcWear s
  else getR s a

/-! ### CCI, LKO, TLP, LSM, SST (R458, R473, R497, R498, R561) -/

def cciView (s : State) (a : Nat) : Word :=
  if a = Reg.CCI_STATUS then getR s a ||| flag 0 s.cardPresent
  else if a = Reg.CCI_LOCK then lo32 (sstGet s 17) &&& 0xFFF
  else getR s a

/-- LKO_STATUS. A ping is over within its own command, so ACTIVITY shows rounds and self-inventories. -/
def lkoStatus (s : State) : Word :=
  getR s Reg.LKO_STATUS ||| place 0 2 (region s) ||| flag 2 (txEnabled s && regionReady s) ||| flag 3 s.lko.inv.isSome |||
    place 4 2 (if s.lko.inv.isSome then 2 else if s.lko.selfWait.isSome then 3 else 0) ||| place 6 6 (channel s) |||
    place 12 4 ((s.lko.inv.map (fun v => v.q)).getD 0) ||| flag 16 (badgeSearch s)

def lkoView (s : State) (a : Nat) : Word := if a = Reg.LKO_STATUS then lkoStatus s else getR s a

def tlpView (s : State) (a : Nat) : Word :=
  if a = Reg.TLP_STATUS then flag 0 s.tail.field ||| flag 1 s.tail.updating ||| flag 2 s.lko.inv.isSome ||| place 16 16 (tailUpdates s)
  else if a = Reg.TLP_WEAR then place 0 17 (min 100000 (max s.tail.wear0 s.tail.wear1))
  else if within a 0x40130020 0x4013002B then BitVec.ofNat 32 (num tagTid (a - 0x40130020) 4)
  else getR s a

def lsmStatus (s : State) : Word :=
  place 0 7 s.vigil.lastSrc.toNat ||| flag 7 (decide (s.vigil.sticky ≠ 0)) |||
    place 8 2 (if s.vigil.highest = 0xFF then 0 else s.vigil.highest.toNat) ||| flag 10 (s.vigil.sticky.getLsbD 105)

/-- One half of LSM_CLASS n: 16 effective classes. -/
def classWord (s : State) (first : Nat) : Word :=
  (List.range 16).foldl (fun w k => w ||| place (2 * k) 2 (classOf s (first + k))) 0

def lsmSel (s : State) : Nat := fieldR s Reg.LSM_SEL 0 7

def selInfo (s : State) : Word :=
  let n := lsmSel s
  let e := evidenceOf s n
  place 0 2 (classOf s n) ||| place 2 2 e.detectors.toNat ||| flag 4 (s.vigil.sticky.getLsbD n) |||
    flag 5 (s.vigil.active.getLsbD n) ||| place 8 8 e.count.toNat

def lsmView (s : State) (a : Nat) : Word :=
  if a = Reg.LSM_STATUS then lsmStatus s
  else if within a 0x40140010 0x4014001F then part32 s.vigil.sticky.toNat ((a - 0x40140010) / 4)
  else if within a 0x40140020 0x4014002F then part32 s.vigil.active.toNat ((a - 0x40140020) / 4)
  else if within a 0x40140030 0x4014003F then part32 s.vigil.new_.toNat ((a - 0x40140030) / 4)
  else if within a 0x40140040 0x4014005F then classWord s ((a - 0x40140040) / 4 * 16)
  else if a = Reg.LSM_PENDING then flag 0 s.vigil.pendReset ||| flag 1 s.vigil.pendCaution ||| flag 2 s.vigil.held
  else if within a 0x40140070 0x4014007F then part32 s.vigil.testMap.toNat ((a - 0x40140070) / 4)
  else if a = Reg.LSM_SEL_INFO then selInfo s
  else if isPair a Reg.LSM_SEL_C then halfOf a Reg.LSM_SEL_C ((evidenceOf s (lsmSel s)).lastC.setWidth 64)
  else getR s a

/-- A setting as a read shows it: the Works Plate reads as zero (R558). -/
def sstShown (s : State) (i : Nat) : DWord := if 252 ≤ i then 0 else sstGet s i

def sstWearWord (s : State) (i : Nat) : Word :=
  let n := sstCount s i
  place 0 17 n ||| flag 30 (decide (90000 ≤ n)) ||| flag 31 (decide (100000 ≤ n))

def sstView (s : State) (a : Nat) : Word :=
  if within a 0x40150000 0x401507FF then
    let v := sstShown s ((a - 0x40150000) / 8)
    if a % 8 = 0 then lo32 v else hi32 v
  else if within a 0x40150800 0x40150BFF then sstWearWord s ((a - 0x40150800) / 4)
  else getR s a

/-! ### HLK and DBG (R54, R58, R60, R437)

Offsets 0x1000 to 0x107F of HLK are the host's view of EVT_PEND and hold no register for any other master, which reaches
EVT_PEND in the EVT block (R53, R553). -/

/-- The MSI-X table: message address and data from the bank, the mask in bit 0 of the vector control. -/
def msixWord (s : State) (a : Nat) : Word :=
  if a % 16 = 12 then flag 0 (s.hlk.mask.getLsbD ((a - 0x40168000) / 16)) else getR s a

def hlkView (s : State) (m : Master) (a : Nat) : Word :=
  if a = Reg.HLK_STATUS then hlkStatus s
  else if within a 0x40161000 0x4016107F then (if m = 31 then hostPend s ((a - 0x40161000) / 4) else 0)
  else if within a 0x40167F00 0x40167FFF then part32 s.hlk.pend.toNat ((a - 0x40167F00) / 4)
  else if within a 0x40168000 0x4016FFFF then msixWord s a
  else getR s a

/-- The line that an offset of Window C shows, in the group that HLK_LWSEL selects. -/
def windowLine (s : State) (off : Nat) : Nat := fieldR s Reg.HLK_LWSEL 0 7 * 4096 + off / 16

/-- Window C: the index registers of a group of lines (R58). -/
def windowC (s : State) (off : Nat) : Word :=
  let r := getLine s (windowLine s off)
  BitVec.ofNat 32 (match off % 16 / 4 with
    | 0 => r.upTail
    | 1 => r.upHead
    | 2 => r.dnTail
    | _ => r.dnHead)

/-- STATUS of a world (R392). -/
def statusWord (n : Nat) (sig : Bool) (w : World) : Word :=
  flag 0 w.level ||| flag 1 sig ||| flag 2 w.ie ||| flag 3 w.rstrap ||| flag 4 w.shadow ||| place 8 2 n

def haltedBits (s : State) : Nat :=
  (List.range 4).foldl (fun x n => x + b2n (coreAt s n).haltP * 4 ^ n + b2n (coreAt s n).haltS * (2 * 4 ^ n)) 0

/-- A register of the halt page of a world. -/
def haltWord (n : Nat) (sig : Bool) (w : World) (off : Nat) : Word :=
  if off < 0x80 then (if off / 4 = 0 then 0 else w.w[off / 4]?.getD 0)
  else if off = 0x80 then (w.p ||| 1).setWidth 32
  else if off = 0x84 then w.pc
  else if off = 0x88 then statusWord n sig w
  else if off = 0x8C then w.lw0
  else if off = 0x90 then w.lw1
  else if off = 0x94 then w.lw2
  else if off = 0x98 then w.ssp
  else if off = 0x9C then w.vbase
  else if off = 0xA0 then BitVec.ofNat 32 w.rstack.length
  else 0

/-- A halt page: core, world, offset. -/
def haltPage (a : Nat) : Nat × Bool × Nat :=
  let i := (a - 0x40182000) / 0x1000
  (i / 2, decide (i % 2 = 1), a % 0x1000)

def haltedWorld (s : State) (n : Nat) (sig : Bool) : Bool := if sig then (coreAt s n).haltS else (coreAt s n).haltP

def isHaltPage (a : Nat) : Bool := within a 0x40182000 0x40189FFF

def dbgView (s : State) (m : Master) (a : Nat) : Word :=
  if within a 0x40180000 0x4018001F then BitVec.ofNat 32 (num s.dbg.nonce (a - 0x40180000) 4)
  else if a = Reg.DBG_SESSION then getR s a ||| place 0 2 (sessionLevel s) ||| place 10 8 (haltedBits s)
  else if within a 0x40181000 0x40181C80 then
    (if m = 32 then BitVec.ofNat 32 (num (slice s.dbg.cert 0 3201) (a - 0x40181000) 4) else 0)
  else if isHaltPage a then
    let h := haltPage a
    if m = 32 ∧ haltedWorld s h.1 h.2.1 then haltWord h.1 h.2.1 (worldOf (coreAt s h.1) h.2.1) h.2.2 else 0
  else getR s a

def kdeView (s : State) (a : Nat) : Word :=
  if a = Reg.KDE_DST ∨ a = Reg.KDE_BLOB then getR s a &&& 0xFFFFFFF8 else getR s a

/-! ### Every register -/

/-- The value a read shows. -/
def regView (s : State) (m : Master) (a : Nat) : Word :=
  match (a - 0x40000000) / 0x10000 with
  | 0x00 => sysView s a
  | 0x01 => clkView s a
  | 0x02 => pwrView s a
  | 0x03 => evtView s a
  | 0x04 => ilkView s a
  | 0x05 => mbxView s a
  | 0x06 => dmnView s a
  | 0x07 => ttcView s a
  | 0x08 => entView s a
  | 0x09 => kdeView s a
  | 0x0A => maeView s a
  | 0x0B => lsuView s a
  | 0x0C => btrView s a
  | 0x0D => mshView s a
  | 0x0E => lneView s a
  | 0x0F => sealView s a
  | 0x10 => flcView s a
  | 0x11 => cciView s a
  | 0x12 => lkoView s a
  | 0x13 => tlpView s a
  | 0x14 => lsmView s a
  | 0x15 => sstView s a
  | 0x16 => hlkView s m a
  | 0x18 => dbgView s m a
  | _ => getR s a

end Sys2Proof.Machine
end

