-- ==== Sys2Proof/Machine/Operands.lean ====
section
/-! DEFINITION. The core worlds within the device's state, and the identity under which a core acts (R41, R42, R391). -/

namespace Sys2Proof.Machine

/-! ### Worlds of a core -/

def setCore (s : State) (n : Nat) (c : Core) : State := { s with cores := s.cores.setIfInBounds n c }

def curSig (s : State) (n : Nat) : Bool := (coreAt s n).signalbox

/-- The current world. -/
def curWorld (s : State) (n : Nat) : World := worldOf (coreAt s n) (curSig s n)

def putWorld (s : State) (n : Nat) (sig : Bool) (w : World) : State := setCore s n ((coreAt s n).put sig w)

/-- Change the current world. -/
def modWorld (s : State) (n : Nat) (f : World → World) : State := putWorld s n (curSig s n) (f (curWorld s n))

/-- The master identity of a core at this moment (R41, R42). -/
def masterOf (s : State) (n : Nat) : Master := BitVec.ofNat 6 (coreId n (curSig s n) (curWorld s n).level)

end Sys2Proof.Machine
end

