-- ==== Sys2Proof/Machine/Bus.lean ====
section
/-! DEFINITION. Reads and writes over the fabric by any master: every register with its access code, and internal memory
(R9 to R14, R24, R25, R31, R32, R44, R52, R53, R307, R322, R436, R572). -/

namespace Sys2Proof.Machine

/-- The state a meaning answers. -/
def ran (s : State) (o : Out) : State :=
  match o with
  | .next t => t
  | _ => s

/-! ### Reads of registers -/

/-- How a register answers a read. -/
structure RegRead where
  state : State
  value : Word
  /-- it ended in an error response -/
  err : Bool
  deriving DecidableEq, Repr

/-- What a read row left for its master, taken off the port. -/
def offPort (s t : State) : RegRead :=
  { state := { t with ports := { t.ports with readData := s.ports.readData, readErr := s.ports.readErr } },
    value := lo32 t.ports.readData, err := t.ports.readErr }

/-- Low halves of the 64-bit quantities (R9). -/
def pairLows : List Nat :=
  [Reg.HLK_BSTORE_BASE, Reg.HLK_ITAB_BASE, Reg.HLK_CL_UP_BASE, Reg.HLK_CL_DOWN_BASE, Reg.LNE_FILLS, Reg.LNE_SPILLS,
   Reg.MSH_LASTPASS, Reg.MSH_RECORDS, Reg.MSH_CONSISTS, Reg.MSH_KEY_HITS, Reg.MSH_KEY_MISSES, Reg.TTC_NOW, Reg.TTC_SEED,
   Reg.TTC_VIGIL, Reg.SEAL_EPOCH_LEN, Reg.SEAL_BASE, Reg.SEAL_K0, Reg.SEAL_OPEN, Reg.SEAL_LAST, Reg.BTR_MASK] ++
  [Reg.BTR_TRUNK_CHECK, Reg.BTR_DERIVES, Reg.FLC_LOG_NEXT, Reg.FLC_LOG_OLDEST, Reg.FLC_LOG_MARK, Reg.FLC_DROPPED,
   Reg.KDE_TOTAL, Reg.KDE_ABSORBED, Reg.MAE_JOBS, Reg.LSU_SIGNS, Reg.LSU_VERIFIES, Reg.ENT_BLOCKS, Reg.ILK_RMASK,
   Reg.ILK_WMASK, Reg.ILK_XMASK, Reg.DBG_NOT_AFTER, Reg.LSM_SEL_C, Reg.LKO_TAGS, Reg.LKO_COLLISIONS, Reg.EVT_TRACE_TTC]

/-- The address is the low half of a 64-bit quantity. -/
def isLow (a : Nat) : Bool :=
  pairLows.contains a || (within a 0x40150000 0x401507FF && decide (a % 8 = 0)) ||
    (within a 0x40140040 0x4014005F && decide (a % 8 = 0)) ||
    (within a 0x40170000 0x40173FFF && (decide (a % 0x1000 = 0) || decide (a % 0x1000 = 8)))

/-- The latch of a master for a 64-bit quantity. -/
def latchKey (m : Master) (low : Nat) : Nat := m.toNat * 2 ^ 32 + low

/-- A read of the low half latches the high half (R9). -/
def readLow (s : State) (m : Master) (a : Nat) : RegRead :=
  { state := { s with latch := mput s.latch (latchKey m a) (regView s m (a + 4)) }, value := regView s m a, err := false }

/-- A read of the high half takes the value latched for its master; without one, the value now. -/
def readHigh (s : State) (m : Master) (a : Nat) : RegRead :=
  match mget? s.latch (latchKey m (a - 4)) with
  | some v => { state := { s with latch := mdel s.latch (latchKey m (a - 4)) }, value := v, err := false }
  | none => { state := s, value := regView s m a, err := false }

/-- PEAK of LNE_INFLIGHT and MSH_QUEUE: the highest value since the last read, so a read begins it anew from the
count of the moment (R13, R14; DEDUCED, log entry 51). -/
def readClears (s : State) (m : Master) (a : Nat) : RegRead :=
  let now := if a = Reg.LNE_INFLIGHT then inFlight s else queuedOnTracks s
  { state := setFieldR s a 16 10 now, value := regView s m a, err := false }

/-- A mailbox register (R409): MBX_DATA does not take a read. -/
def readMbx (s : State) (m : Master) (a : Nat) : RegRead :=
  let n := (a - 0x40051000) / 16
  match a % 16 with
  | 0 => offPort s (claimRead s m n)
  | 4 => { state := mbxRefused s, value := 0, err := false }
  | 8 => offPort s (take s m n)
  | _ => { state := s, value := mbxView s a, err := false }

/-- A read of a register with whatever it does, by a master that its route permits (R13). -/
def readReg (s : State) (m : Master) (a : Nat) : RegRead :=
  if hostHeld s m a || limitedView m a then { state := s, value := 0, err := false }
  else if a = Reg.KDE_LOCK ∨ a = Reg.MAE_SLOCK then offPort s (takeLock s m a)
  else if a = Reg.MAE_LOCK then offPort s (maeLockRead s m)
  else if a = Reg.ENT_DATA then offPort s (readEnt s m)
  else if a = Reg.SYS_NONCE then offPort s (ran s (execSysNonceRead m s))
  else if a = Reg.DBG_NONCE then offPort s (nonceRead s)
  else if within a 0x40051000 0x400510FF then readMbx s m a
  else if within a 0x40052000 0x400520FF then offPort s (tabletTake s m ((a - 0x40052000) / 4))
  else if a = Reg.LNE_INFLIGHT ∨ a = Reg.MSH_QUEUE then readClears s m a
  else if a = Reg.PWR_INPUT then { state := usedFree s, value := regView s m a, err := false }
  else if isLow a then readLow s m a
  else if isLow (a - 4) then readHigh s m a
  else { state := s, value := regView s m a, err := false }

/-! ### Writes of registers, block by block -/

/-- A write of plain storage (R11 to R13). -/
def writePlain (s : State) (a : Nat) (v : Word) : State :=
  match plainSpec? a with
  | some p => setR s a (plainWrite p (getR s a) v)
  | none => s

/-- SYS_MODEREQ: reserved targets are ignored. A commissioning order has been verified by whoever writes (R518). -/
def wSys (s : State) (m : Master) (a : Nat) (v : Word) : State :=
  if a = Reg.SYS_MODEREQ then
    match bitsOf v 0 3 with
    | 1 => ran s (execModereqMaintenance m s)
    | 2 => modeRequest s m (decide (s.mode = .maintenance) || decide (s.mode = .condemned))
        (if powerCond s ≠ 0 then powerCond s else if bitR s Reg.ENT_STATUS 0 then 0 else 6) .commissioning
    | 3 => ran s (execModereqRunning m s)
    | _ => s
  else s

/-- A selection of the clock measurement: reserved domains leave it as it was (R44). -/
def selectMeas (s : State) (v : Word) : State :=
  if bitsOf v 0 5 ≤ 17 then clearR (setR s Reg.CLK_MEAS_SEL (place 0 5 (bitsOf v 0 5))) Reg.CLK_MEAS 0x80000000
  else clearR s Reg.CLK_MEAS 0x80000000

def wClk (s : State) (a : Nat) (v : Word) : State := if a = Reg.CLK_MEAS_SEL then selectMeas s v else writePlain s a v

/-- PWR_CFG is persistent, and its cap takes effect at once (R504, R523). -/
def wPwr (s : State) (a : Nat) (v : Word) : State :=
  if a = Reg.PWR_CFG then
    let s := sstStore s 15 ((v &&& 3).setWidth 64)
    let t := tierFor s s.power.contractMw
    if s.power.tier < t ∧ s.power.tierPending.isSome then { s with power := { s.power with tierPending := some t } }
    else setTier s t
  else writePlain s a v

def wEvt (s : State) (m : Master) (a : Nat) (v : Word) : State :=
  if within a 0x40030000 0x4003007F then clearPending s m ((a - 0x40030000) / 4) v
  else if within a 0x40031000 0x40031FFF then writeEvtRoute s ((a - 0x40031000) / 4) v
  else writePlain s a v

/-- ILK_CMD runs its bits in order; DEBUG_DENIED is cleared in Commissioning only (R435). -/
def wIlk (s : State) (a : Nat) (v : Word) : State :=
  if a = Reg.ILK_CMD then
    let s := if bit v 0 then commit s else s
    if bit v 1 then loadRoute s else s
  else if a = Reg.ILK_STATUS then (if bit v 2 ∧ s.mode = .commissioning then clearR s a 4 else s)
  else writePlain s a v

def wMbx (s : State) (m : Master) (a : Nat) (v : Word) : State :=
  if within a 0x40050000 0x4005003F then cfgWrite s ((a - 0x40050000) / 4) v
  else if within a 0x40051000 0x400510FF then
    let n := (a - 0x40051000) / 16
    match a % 16 with
    | 0 => if bitsOf v 0 6 = 0 then claimFree s m n else mbxRefused s
    | 4 => post s m n v
    | 8 => mbxRefused s
    | _ => s
  else if within a 0x40052000 0x400520FF then (if bitsOf v 0 6 = 0 then tabletFree s m ((a - 0x40052000) / 4) else s)
  else writePlain s a v

/-- DMN_CTRL: nothing changes while LOCK is 1; TIMEOUT 0 is reserved; a Deadman that is enabled starts its count
(R540, R546). -/
def writeDmnCtrl (s : State) (n : Nat) (v : Word) : State :=
  let a := Reg.DMN_CTRL n
  let old := getR s a
  if bit old 17 then s
  else
    let w := keepReserved old [(0, 16, 1, 65535)] (v &&& 0xFFFFF)
    let s := setR s a w
    if bit w 16 ∧ !bit old 16 then setDeadman s n { left := bitsOf w 0 16, armed := false } else s

def wDmn (s : State) (m : Master) (a : Nat) (v : Word) : State :=
  if within a 0x40060000 0x4006000F then writeDmnCtrl s ((a - 0x40060000) / 4) v
  else if a = Reg.DMN_BOOT then (if bit v 8 then ran s (execImageCommit m s) else s)
  else if within a 0x40061000 0x4006101F && decide (a % 8 = 0) then
    ran s (execDeadmanKick m (BitVec.ofNat 2 ((a - 0x40061000) / 8)) v s)
  else writePlain s a v

def wTtc (s : State) (a : Nat) (v : Word) : State :=
  if a = Reg.TTC_ADVANCE then writeAdvance s .lo (v.setWidth 64)
  else if a = Reg.TTC_ADVANCE + 4 then writeAdvance s .hi (v.setWidth 64)
  else writePlain s a v

/-- The commands of KDE_CTRL, in the order of their bits (R319). -/
def kdeControl (s : State) (m : Master) (v : Word) : State :=
  let s := if bit v 0 then kdeStart s m false else s
  let s := if bit v 1 then kdeFeed s else s
  let s := if bit v 2 then kdeSaveUnless s (bit v 4) else s
  let s := if bit v 3 then kdeRestore s m else s
  let s := if bit v 4 then kdeAbort s else s
  if bit v 5 then kdeClear s else s

/-- Registers of the KDE that only its owner writes (R307, R319); FUNC 0 and 13 to 15 are reserved. -/
def kdeOwnWrite (s : State) (m : Master) (a : Nat) (v : Word) : State :=
  if a = Reg.KDE_CTRL then kdeControl s m v
  else if a = Reg.KDE_CONFIG then setR s a (keepReserved (getR s a) [(0, 4, 1, 12)] (v &&& 0xFFFF1FDF))
  else if a = Reg.KDE_TOTAL ∨ a = Reg.KDE_PFX ∨ a = Reg.KDE_SRC ∨ within a 0x40090080 0x400900BF then setR s a v
  else if a = Reg.KDE_TOTAL + 4 then setR s a (v &&& 0xFF)
  else if a = Reg.KDE_OUTLEN then setR s a (v &&& 0xFFFFFF)
  else if a = Reg.KDE_KEY then setR s a (v &&& 0xFFF)
  else if a = Reg.KDE_SEGLEN then setR s a (v &&& 0x1FFFFFF)
  else if a = Reg.KDE_DST ∨ a = Reg.KDE_BLOB then setR s a v
  else writePlain s a v

/-- An offset of the KDE block that holds a register (R319). -/
def kdeRegister (a : Nat) : Bool :=
  within a 0x40090000 0x40090033 || within a 0x40090038 0x40090047 || within a 0x40090080 0x400900FF

def wKde (s : State) (m : Master) (a : Nat) (v : Word) : State :=
  if a = Reg.KDE_LOCK then (if bitsOf v 0 6 = 0 then kdeRelease s m else s)
  else if !kdeRegister a then s
  else kdeOwned s m (fun s => kdeOwnWrite s m a v)

/-- Operations of R320. -/
def maeOps : List Nat := [0x01, 0x02, 0x03, 0x08, 0x09, 0x10, 0x11, 0x12, 0x13, 0x18, 0x19]

/-- MAE_OP: each field keeps its value where a reserved one is written (R12, R345). -/
def writeMaeOp (s : State) (v : Word) : State :=
  let old := getR s Reg.MAE_OP
  let w := keepReserved old [(8, 2, 0, 2), (16, 10, 1, 512)] (v &&& 0x03FF033F)
  setR s Reg.MAE_OP (if maeOps.contains (bitsOf v 0 6) then w else withBits w 0 6 (bitsOf old 0 6))

/-- MAE_CONFIG: IZPEN changes only while MAE_LOCK is free (R327); WIPE is persistent (R325). -/
def writeMaeConfig (s : State) (v : Word) : State :=
  if bit v 1 ≠ maeIzpen s ∧ getR s Reg.MAE_LOCK ≠ 0 then maeRefused s
  else setR (sstStore s 14 ((v &&& 1).setWidth 64)) Reg.MAE_CONFIG (v &&& 2)

def maeControl (s : State) (v : Word) : State :=
  let s := if bit v 0 then maeStart s else s
  let s := if bit v 1 then maeAbort s else s
  if bit v 2 then maeWipe s else s

def wMae (s : State) (m : Master) (a : Nat) (v : Word) : State :=
  if a = Reg.MAE_LOCK then (if bitsOf v 0 6 = 0 then maeRelease s m else s)
  else if a = Reg.MAE_SLOCK then (if bitsOf v 0 6 = 0 then slockRelease s m else s)
  else if a = Reg.MAE_CTRL then maeOwned s m (fun s => maeControl s v)
  else if a = Reg.MAE_OP then maeOwned s m (fun s => writeMaeOp s v)
  else if a = Reg.MAE_ARGS0 ∨ a = Reg.MAE_ARGS1 then maeOwned s m (fun s => setR s a (v &&& 0x7F7F7F7F))
  else if a = Reg.MAE_CONFIG then writeMaeConfig s v
  else if a = Reg.MAE_SCTRL then slockOwned s m (fun s => shortWrite s v)
  else if a = Reg.MAE_SARGS then
    slockOwned s m (fun s => setR s a (keepReserved (getR s a)
      [(0, 7, 112, 127), (8, 7, 112, 127), (16, 7, 112, 127), (24, 7, 112, 127)] (v &&& 0x7F7F7F7F)))
  else writePlain s a v

def wLsu (s : State) (m : Master) (a : Nat) (v : Word) : State :=
  if a = Reg.LSU_QPUSH then lsuPush s m v
  else if a = Reg.LSU_CTRL then (if bit v 0 then endQueued s 0x09 (fun _ => true) else s)
  else if a = Reg.LSU_FENCE then ran s (execLsuFence m (v.setWidth 4) s)
  else writePlain s a v

/-- BTR_CMD: the peer's key or ciphertext of an install stands behind the label in the command buffer (log entry 15). -/
def btrOp (s : State) (m : Master) (v : Word) : State :=
  let behind := engineBytes s ((getR s Reg.BTR_BUF).toNat + 32) 1665
  match bitsOf v 0 4 with
  | 0x1 => ran s (execBtrDerive m s)
  | 0x2 => ran s (execInstallEncaps m behind s)
  | 0x3 => ran s (execInstallDecaps m behind s)
  | 0x4 => ran s (execInvalidate m s)
  | 0x5 => ran s (execPurge m s)
  | 0x6 => ran s (execRotate m s)
  | 0x8 => ran s (execTrunkCreate m s)
  | 0x9 => ran s (execTrunkZeroise m s)
  | 0xA => ran s (execBackup m s)
  | 0xB => ran s (execRescue m s)
  | 0xC => ran s (execRelease m s)
  | 0xD => ran s (execBtrImport m s)
  | _ => btrReserved s m

/-- BTR_CONFIG.ZFULL is set in Commissioning and never cleared (R245). -/
def wBtr (s : State) (m : Master) (a : Nat) (v : Word) : State :=
  if a = Reg.BTR_CMD then btrOp s m v
  else if a = Reg.BTR_CONFIG then (if bit v 0 ∧ s.mode = .commissioning then sstStore s 16 1 else s)
  else writePlain s a v

def wMsh (s : State) (m : Master) (a : Nat) (v : Word) : State :=
  if a = Reg.MSH_FENCE then ran s (execTrackFence m (v.setWidth 8) s) else writePlain s a v

/-- A legal epoch length (R187). -/
def epochLenOk (v : DWord) : Bool :=
  decide (v.toNat % 100000 = 0 ∧ 1000000 ≤ v.toNat ∧ v.toNat ≤ 6000000000)

/-- SEAL_EPOCH_LEN is carried out by its high half, as the setting that holds it is (R187, R188, R557). -/
def writeEpochLen (s : State) (hi : Word) : State :=
  let v := pair64 hi ((mget? s.lowHeld Reg.SEAL_EPOCH_LEN).getD (lo32 (sstGet s 0)))
  let s := { s with lowHeld := mdel s.lowHeld Reg.SEAL_EPOCH_LEN }
  if epochLenOk v then sstStore { s with su := { s.su with basePending := true } } 0 v else s

/-- SEAL_EPOCH_LEN, SEAL_KEY and SEAL_CKPT are writable in Commissioning only (R217). -/
def wSeal (s : State) (a : Nat) (v : Word) : State :=
  if a = Reg.SEAL_ERR then writePlain s a v
  else if s.mode ≠ .commissioning then s
  else if a = Reg.SEAL_EPOCH_LEN then { s with lowHeld := mput s.lowHeld a v }
  else if a = Reg.SEAL_EPOCH_LEN + 4 then writeEpochLen s v
  else if a = Reg.SEAL_KEY then setSealKey s (v &&& 0x80000FFF)
  else if a = Reg.SEAL_CKPT then
    sstStore s 4 ((keepReserved (lo32 (sstGet s 4)) [(0, 16, 1, 65535), (16, 8, 1, 255)] (v &&& 0xFFFFFF)).setWidth 64)
  else s

def wFlc (s : State) (m : Master) (a : Nat) (v : Word) : State :=
  if a = Reg.FLC_CMD then
    match bitsOf v 0 3 with
    | 1 => ran s (execFlcRead m s)
    | 2 => ran s (execFlcProgram m s)
    | 3 => ran s (execFlcErase m s)
    | 4 => ran s (execFlcClaim m s)
    | 5 => ran s (execFlcReturn m s)
    | _ => flcCommand s m (fun s => s)
  else if a = Reg.FLC_CW_MAP then mapWrite s v
  else writePlain s a v

def wCci (s : State) (m : Master) (a : Nat) (v : Word) : State :=
  if a = Reg.CCI_CMD then
    match bitsOf v 0 3 with
    | 1 => ran s (execCardFormatExport m s)
    | 2 => ran s (execCardFormatBackup m s)
    | 3 => ran s (execCardFormatCredential m s)
    | 4 => ran s (execForceErase m s)
    | 5 => ran s (execEject m s)
    | _ => cciReserved s m
  else if a = Reg.CCI_LOCK then sstStore s 17 ((v &&& 0xFFF).setWidth 64)
  else writePlain s a v

/-- LKO_CMD by a plain write meets an empty field (log entry 47). -/
def wLko (s : State) (m : Master) (a : Nat) (v : Word) : State :=
  if a = Reg.LKO_CMD then
    match bitsOf v 0 3 with
    | 1 => ran s (execSelftest m { gamma := 0, seen := [] } s)
    | 2 => ran s (execBadgeEnrol m { gamma := 0, seen := [] } s)
    | 3 => ran s (execStop m s)
    | 4 => ran s (execRebase m s)
    | _ => lkoCommand s m (fun s => s)
  else writePlain s a v

def wTlp (s : State) (a : Nat) (v : Word) : State :=
  if a = Reg.TLP_CTRL then (if bit v 0 then tailDue s else s) else writePlain s a v

/-- LSM_RELEASE runs its bits in order. -/
def releaseControl (s : State) (m : Master) (v : Word) : State :=
  let s := if bit v 24 then armRelease s m else s
  let s := if bit v 25 then commitRelease s m else s
  if bit v 26 then setFieldR s Reg.LSM_RELEASE 0 3 0 else s

def wLsm (s : State) (m : Master) (a : Nat) (v : Word) : State :=
  if within a 0x40140010 0x4014001F then clearSticky s ((a - 0x40140010) / 4) v
  else if within a 0x40140030 0x4014003F then
    { s with vigil := { s.vigil with new_ := s.vigil.new_ &&& ~~~(flagsOf ((a - 0x40140030) / 4) v) } }
  else if within a 0x40140040 0x4014005F then writeClass s ((a - 0x40140040) / 8) (decide (a % 8 = 4)) v
  else if a = Reg.LSM_TEST then
    (if bit v 8 then startTest s (bitsOf v 0 7) (bit v 7)
     else setR s a (testFields s (bitsOf v 0 7) (bit v 7) ||| (getR s a &&& 0xE00)))
  else if a = Reg.LSM_RELEASE then releaseControl s m v
  else writePlain s a v

def wSst (s : State) (m : Master) (a : Nat) (v : Word) : State :=
  if within a 0x40150000 0x401507FF then sstHalf s m ((a - 0x40150000) / 8) (decide (a % 8 = 4)) v else writePlain s a v

/-- The MSI-X table: message address and data are stored; bit 0 of the vector control masks (R60). -/
def writeMsix (s : State) (a : Nat) (v : Word) : State :=
  let n := (a - 0x40168000) / 16
  if a % 16 = 12 then
    (if bit v 0 then { s with hlk := { s.hlk with mask := s.hlk.mask ||| (1#2048 <<< n) } }
     else unmaskVector (BitVec.ofNat 11 n) s)
  else setR s a (if a % 16 = 0 then v &&& 0xFFFFFFFC else v)

/-- The set-up register that an address belongs to. -/
def setupReg? (a : Nat) : Option SetupReg :=
  [SetupReg.bstore, .itab, .clUp, .clDown].find? (fun r => isPair a (setupAddr r))

/-- With MIRROR_EN 0 no write of an index-table entry is pending; after it is set again an entry waits for its line's next change
(R88). -/
def dropMirrors (s : State) : State :=
  if mirrorOn s then s
  else { s with lne := { s.lne with lines :=
    (s.lne.lines.map (fun e => (e.1, { e.2 with mirror := false }))).filter (fun e => !decide (e.2 = Line.closed)) } }

/-- The HLK block; offsets 0x1000 to 0x107F hold a register for the host alone, and a write by another master is ignored
there (R10, R53). -/
def wHlk (s : State) (m : Master) (a : Nat) (v : Word) : State :=
  match setupReg? a with
  | some r => writeSetup s r (if a = setupAddr r then .lo else .hi) (v.setWidth 64)
  | none =>
    if a = Reg.HLK_CONTROL then (if bit v 0 then requestedReset s else dropMirrors (writePlain s a v))
    else if a = Reg.HLK_CL_CONFIG then (if bit v 31 then openControl s v else closeControl s v)
    else if within a 0x40161000 0x4016107F then (if m = 31 then clearPending s 31 ((a - 0x40161000) / 4) v else s)
    else if within a 0x40168000 0x4016FFFF then writeMsix s a v
    else writePlain s a v

/-- DMA_CTRL: START and ABORT; DIR is ignored, and flagged, while the channel runs (R69). -/
def writeDmaCtrl (s : State) (c : Nat) (v : Word) : State :=
  let s := if bit v 0 then startDma s c (bitsOf v 2 2)
    else if bitsOf v 2 2 = dmaDir s c then s
    else if dmaRunning s c then orR s (Reg.DMA_ERR c) 1
    else if bitsOf v 2 2 = 3 then s
    else setFieldR s (Reg.DMA_CTRL c) 2 2 (bitsOf v 2 2)
  if bit v 1 then abortDma s c else s

def wDma (s : State) (a : Nat) (v : Word) : State :=
  let c := (a - 0x40170000) / 0x1000
  let o := a % 0x1000
  if 4 ≤ c then s
  else if o < 0x14 then
    (if dmaRunning s c then orR s (Reg.DMA_ERR c) 1 else setR s a (if o = 0x10 then v &&& 0x1FFFFFF else v))
  else if o = 0x14 then writeDmaCtrl s c v
  else writePlain s a v

/-- The DBG block over the fabric: a core writes only CLOSE, the TAP only halt pages, whose writes take effect when the
core-world resumes (R436, R437). -/
def wDbg (s : State) (m : Master) (a : Nat) (v : Word) : State :=
  if isHaltPage a then
    let h := haltPage a
    if m = 32 ∧ haltedWorld s h.1 h.2.1 then
      { s with dbg := { s.dbg with haltWrites := s.dbg.haltWrites ++ [(h.1, h.2.1, h.2.2, v)] } }
    else s
  else if a = Reg.DBG_SESSION ∧ bit v 24 ∧ sessionLevel s ≠ 0 then closeDebug s
  else s

/-- A write of a register by a master that its route permits. -/
def writeReg (s : State) (m : Master) (a : Nat) (v : Word) : State :=
  if hostHeld s m a then orR s Reg.HLK_ERR 4
  else
    match (a - 0x40000000) / 0x10000 with
    | 0x00 => wSys s m a v
    | 0x01 => wClk s a v
    | 0x02 => wPwr s a v
    | 0x03 => wEvt s m a v
    | 0x04 => wIlk s a v
    | 0x05 => wMbx s m a v
    | 0x06 => wDmn s m a v
    | 0x07 => wTtc s a v
    | 0x09 => wKde s m a v
    | 0x0A => wMae s m a v
    | 0x0B => wLsu s m a v
    | 0x0C => wBtr s m a v
    | 0x0D => wMsh s m a v
    | 0x0F => wSeal s a v
    | 0x10 => wFlc s m a v
    | 0x11 => wCci s m a v
    | 0x12 => wLko s m a v
    | 0x13 => wTlp s a v
    | 0x14 => wLsm s m a v
    | 0x15 => wSst s m a v
    | 0x16 => wHlk s m a v
    | 0x17 => wDma s a v
    | 0x18 => wDbg s m a v
    | _ => writePlain s a v

/-! ### Accesses over the fabric (R24, R25, R31, R32, R373, R396) -/

/-- How an access ended: DETAIL of R396, 0 for success. -/
structure Load where
  state : State
  value : Word
  detail : Nat
  deriving DecidableEq, Repr

/-- Bytes of a lane of a register (log entry 48). -/
def laneMask (a n : Nat) : Word := fmask (8 * (a % 4)) (8 * n)

/-- A read of ENT_DATA that would stall (R355). -/
def stalls (s : State) (m : Master) (a : Nat) : Bool :=
  decide (a / 4 * 4 = Reg.ENT_DATA) && !entFatal s && (grantOf s m).isNone && decide (s.ent.pool.length < 4) &&
    permits s m .read a && !limitedView m a && !regBad s a

/-- A register whose cell holds a seal mismatch answers nobody that the block would serve (R24). -/
def sealStops (s : State) (m : Master) (a : Nat) : Bool := regBad s a && !hostHeld s m a

def readBlock (s : State) (m : Master) (a n : Nat) : Load :=
  let r := readReg s m (a / 4 * 4)
  if sealStops s m a && !limitedView m a then { state := sealFault s (tileOf a), value := 0, detail := 3 }
  else if r.err then { state := r.state, value := 0, detail := 4 }
  else { state := r.state, value := place 0 (8 * n) (bitsOf r.value (8 * (a % 4)) 32), detail := 0 }

/-- A read of `n` bytes, 1, 2 or 4, aligned. -/
def fabricRead (s : State) (m : Master) (a n : Nat) : Load :=
  if !mapped a then { state := unmapped s m, value := 0, detail := 2 }
  else if !permits s m .read a then { state := denied s m .read a, value := 0, detail := 1 }
  else if isBlock a then readBlock s m a n
  else
    match badCell? s a n with
    | some c => { state := sealFault s (tileOf (8 * c)), value := 0, detail := 3 }
    | none => { state := noteRead s a n, value := BitVec.ofNat 32 (ofLe (engineBytes s a n)), detail := 0 }

/-- Registers of read-write fields that their blocks write by rules of their own. -/
def mergedReg (a : Nat) : Bool :=
  [Reg.CLK_MEAS_SEL, Reg.PWR_CFG, Reg.KDE_CONFIG, Reg.KDE_TOTAL, Reg.KDE_TOTAL + 4, Reg.KDE_PFX, Reg.KDE_SRC, Reg.KDE_OUTLEN,
   Reg.KDE_KEY, Reg.KDE_SEGLEN, Reg.KDE_DST, Reg.KDE_BLOB, Reg.MAE_OP, Reg.MAE_ARGS0, Reg.MAE_ARGS1, Reg.MAE_CONFIG,
   Reg.MAE_SARGS, Reg.SEAL_EPOCH_LEN, Reg.SEAL_EPOCH_LEN + 4, Reg.SEAL_KEY, Reg.SEAL_CKPT, Reg.FLC_CW_MAP, Reg.CCI_LOCK,
   Reg.HLK_CL_CONFIG].contains a ||
  within a 0x40031000 0x40031FFF || within a 0x40050000 0x4005003F || within a 0x40060000 0x4006000F ||
  within a 0x40090080 0x400900BF || within a 0x40140040 0x4014005F || within a 0x40150000 0x401507FF ||
  within a 0x40160010 0x4016003F || within a 0x40168000 0x4016FFFF || isHaltPage a ||
  (within a 0x40170000 0x40173FFF && decide (a % 0x1000 < 0x14))

/-- What the bytes of a register hold that a write of other bytes of it leaves alone (R25): the fields that a write sets to
its own value, and nothing of a command or a W1C register (log entry 48). -/
def laneBase (s : State) (m : Master) (a : Nat) : Word :=
  match plainSpec? a with
  | some p => getR s a &&& p.rw
  | none =>
    if mergedReg a then regView s m a
    else if within a 0x40170000 0x40173FFF && decide (a % 0x1000 = 0x14) then getR s a &&& 0xC
    else if a = Reg.LSM_TEST then getR s a &&& 0xFF
    else 0

/-- The word that a write of some bytes of a register carries (log entry 48). -/
def laneWord (s : State) (m : Master) (a n : Nat) (v : Word) : Word :=
  let k := laneMask a n
  ((v <<< (8 * (a % 4))) &&& k) ||| (laneBase s m (a / 4 * 4) &&& ~~~k)

/-- The halves of a 64-bit quantity that its block takes as one: the low half is held and the high half writes the whole cell
(R184, R187, R557). -/
def heldPair (a : Nat) : Bool :=
  within a 0x40150000 0x401507FF || isPair a Reg.SEAL_EPOCH_LEN || isPair a Reg.TTC_ADVANCE

/-- A write of a register that may replace a cell with a seal mismatch (R25). -/
def writeBlock (s : State) (m : Master) (a n : Nat) (v : Word) : State :=
  let s := if heldPair a && decide (a / 4 % 2 = 1) && decide (n = 4) && !within a 0x40150000 0x401507FF then mend s a else s
  writeReg s m (a / 4 * 4) (laneWord s m a n v)

/-- A write of `n` bytes, 1, 2 or 4, aligned. -/
def fabricWrite (s : State) (m : Master) (a n : Nat) (v : Word) : Load :=
  if !mapped a then { state := unmapped s m, value := 0, detail := 2 }
  else if !permits s m .write a then { state := denied s m .write a, value := 0, detail := 1 }
  else if isBlock a && sealStops s m a && !(heldPair a && decide (n = 4)) then
    { state := sealFault s (tileOf a), value := 0, detail := 3 }
  else if isBlock a then { state := writeBlock s m a n v, value := 0, detail := 0 }
  else
    match badPartial? s a n with
    | some c => { state := sealFault s (tileOf (8 * c)), value := 0, detail := 3 }
    | none => { state := storeBytes s m a (le n v.toNat), value := 0, detail := 0 }

/-! ### The rows -/

/-- A write of a word, or of both words of a cell in one step, which gives the cell a fresh seal (R25, R49, R52). -/
def writeWords (s : State) (m : Master) (a : Nat) (v : Word) (upper : Option Word) : State :=
  match upper with
  | none => (fabricWrite s m a 4 v).state
  | some u =>
    if isBlock a then
      let s := if permits s m .write a && !hostHeld s m a && decide (a % 8 = 0) then mend s a else s
      (fabricWrite (fabricWrite s m a 4 v).state m (a + 4) 4 u).state
    else (engineWrite s m a (wordBytes v ++ wordBytes u)).state

/-- REGISTER_WRITE (R13): a write under the register's access code; `upper` is the high half of a 64-bit write (R52). -/
def execRegisterWrite (m : Master) (addr : Word) (v : WriteData) (s : State) : Out :=
  done (if mainPower s then writeWords s m (busAddr m (addr.toNat / 4 * 4)) v.low v.high else s)

/-- What a read row leaves: the value, or an error response; zero for the host and the TAP. -/
def showLoad (m : Master) (r : Load) : State :=
  if r.detail = 0 ∨ m = 31 ∨ m = 32 then readData r.state (r.value.setWidth 64) else readError r.state

/-- A read by a master: one of ENT_DATA that stalls waits (R355). -/
def readRow (s : State) (m : Master) (a : Nat) : State :=
  if stalls s m a then entWait s (.port m) else showLoad m (fabricRead s m a 4)

/-- A 64-bit read of the host: both halves at one instant (R52). -/
def readWide (s : State) (m : Master) (a : Nat) : State :=
  if stalls s m a then entWait s (.port m)
  else
  let lo := fabricRead s m a 4
  let hi := fabricRead lo.state m (a + 4) 4
  readData hi.state (pair64 hi.value lo.value)

/-- A word of Window C; one in a line record that holds a seal mismatch reads as zero (R58, R86; log entry 133). -/
def readWindowC (s : State) (off : Nat) (wide : Bool) : State :=
  if recordBad s (windowLine s off) then readData (sealFault s spineTile) 0
  else if wide then readData s (pair64 (windowC s (off + 4)) (windowC s off))
  else readData s ((windowC s off).setWidth 64)

/-- A read, of 32 bits or, by the host, of 64 (R49). -/
def readAt (s : State) (wide : Bool) : ReadAt → State
  | .fabric m addr =>
    if wide ∧ m = 31 then readWide s m (addr.toNat / 8 * 8) else readRow s m (busAddr m (addr.toNat / 4 * 4))
  | .windowB _ => readData s 0
  | .windowC off => readWindowC s (off.toNat / (if wide then 8 else 4) * (if wide then 8 else 4)) wide

/-- RC_READ (R14): a read of a register that a read may clear, and every other plain read, Windows B and C of the host
included (R49, R57, R58). -/
def execRcRead (target : ReadAt) (wide : Bool) (s : State) : Out := done (if mainPower s then readAt s wide target else s)

/-- LOW_HALF_READ (R9). -/
def execLowHalfRead (m : Master) (addr : Word) (s : State) : Out :=
  done (if mainPower s then readRow s m (busAddr m (addr.toNat / 4 * 4)) else s)

/-- CLK_MEAS_SELECT (R44). -/
def execClkMeasSelect (m : Master) (v : Word) (s : State) : Out :=
  done (guardedWrite s m Reg.CLK_MEAS_SEL (fun s => selectMeas s v))

/-- CLK_MEAS_DONE (R44): a domain that is not running reads 0. -/
def execClkMeasDone (khz : BitVec 24) (s : State) : Out :=
  .next (if mainPower s then
      setR s Reg.CLK_MEAS (place 0 24 (if domainRuns s (fieldR s Reg.CLK_MEAS_SEL 0 5) then khz.toNat else 0) ||| 0x80000000)
    else s)

/-- The six registers of the TAP's private path (R436). -/
def privatePath (a : Nat) : Bool :=
  within a 0x40180000 0x4018001F || decide (a = Reg.DBG_CMD) || decide (a = Reg.DBG_RESULT) ||
    decide (a = Reg.DBG_SESSION) || isPair a Reg.DBG_NOT_AFTER || within a 0x40181000 0x40181C83

def certWrite (s : State) (o : Nat) (v : Word) : State :=
  { s with dbg := { s.dbg with cert := patch (slice s.dbg.cert 0 3201) o (wordBytes v) } }

/-- A write over the private path. -/
def tapWrite (s : State) (a : Nat) (v : Word) : State :=
  if a = Reg.DBG_CMD then (if bit v 0 then dbgCheck s else s)
  else if a = Reg.DBG_SESSION then
    let s := armWrite s (BitVec.ofNat 8 (bitsOf v 2 8))
    if bit v 24 ∧ sessionLevel s ≠ 0 then closeDebug s else s
  else if within a 0x40181000 0x40181C83 then certWrite s (a - 0x40181000) v
  else s

/-- DEBUG_ACCESS (R431, R436): an access of the TAP, over its private path or as master 32. -/
def execDebugAccess (write : Bool) (addr v : Word) (s : State) : Out :=
  let a := addr.toNat / 4 * 4
  done (if !mainPower s then s
    else if privatePath a && !s.fusesOk then (if write then s else readData s 0)
    else if privatePath a then
      (if write then tapWrite s a v
       else
         let r := readReg s 32 a
         readData r.state (r.value.setWidth 64))
    else if write then (fabricWrite s 32 a 4 v).state
    else readRow s 32 a)

end Sys2Proof.Machine
end

