-- ==== Sys2Proof/Machine/Flags.lean ====
section
/-! DEFINITION. Arithmetic results, the carry in p7, and compare conditions (R364, R368 to R370). -/

namespace Sys2Proof.Machine

/-- Carry out of bit 31 of `a + b + c`. -/
def carryOut (a b : Word) (c : Bool) : Bool := decide (2 ^ 32 ≤ a.toNat + b.toNat + b2n c)

def addWith (a b : Word) (c : Bool) : Word := a + b + BitVec.ofNat 32 (b2n c)

/-- Borrow of `a - b - c`. -/
def borrowOut (a b : Word) (c : Bool) : Bool := decide (a.toNat < b.toNat + b2n c)

def subWith (a b : Word) (c : Bool) : Word := a - b - BitVec.ofNat 32 (b2n c)

/-- A shift amount: bits [4:0]. -/
def amount (b : Word) : Nat := b.toNat % 32

def mulHigh (a b : Word) : Word := BitVec.ofInt 32 (a.toInt * b.toInt / 2 ^ 32)
def mulHighU (a b : Word) : Word := BitVec.ofNat 32 (a.toNat * b.toNat / 2 ^ 32)

/-- Division by zero gives all ones. -/
def divU (a b : Word) : Word := if b = 0 then 0xFFFFFFFF else BitVec.ofNat 32 (a.toNat / b.toNat)

/-- The remainder by zero is the dividend. -/
def remU (a b : Word) : Word := if b = 0 then a else BitVec.ofNat 32 (a.toNat % b.toNat)

/-- Leading zeros; 32 for 0. -/
def leadingZeros (a : Word) : Word := BitVec.ofNat 32 (((List.range 32).find? (fun i => bit a (31 - i))).getD 32)

def onesCount (a : Word) : Word := BitVec.ofNat 32 ((List.range 32).filter (fun i => bit a i)).length

/-! ### Conditions (R364, R368) -/

def condEq (a b : Word) : Bool := decide (a = b)
def condNe (a b : Word) : Bool := decide (a ≠ b)
def condLt (a b : Word) : Bool := decide (a.toInt < b.toInt)
def condLtu (a b : Word) : Bool := decide (a.toNat < b.toNat)
def condGe (a b : Word) : Bool := decide (b.toInt ≤ a.toInt)
def condGeu (a b : Word) : Bool := decide (b.toNat ≤ a.toNat)
def condTst (a b : Word) : Bool := decide (a &&& b ≠ 0)

/-- Immediates of formats I, K and B. -/
def imm12 (v : BitVec 12) : Word := v.signExtend 32
def imm10 (v : BitVec 10) : Word := v.signExtend 32
def offset22 (v : BitVec 22) : Word := v.signExtend 32 <<< 2

end Sys2Proof.Machine
end

