-- ==== Sys2Proof/Machine/Exceptions.lean ====
section
/-! DEFINITION. Taking an exception, returning from one, and the issue of an instruction (R361, R366, R367, R379, R391 to
R406). -/

namespace Sys2Proof.Machine

/-! ### Exceptions (R396 to R401) -/

abbrev Code.illegal : Nat := 0x01
abbrev Code.privilege : Nat := 0x02
abbrev Code.alignment : Nat := 0x03
abbrev Code.busFault : Nat := 0x04
abbrev Code.fetchFault : Nat := 0x05
abbrev Code.sealFault : Nat := 0x06
abbrev Code.loopFault : Nat := 0x07
abbrev Code.rsOverflow : Nat := 0x08
abbrev Code.rsUnderflow : Nat := 0x09
abbrev Code.syscall : Nat := 0x0A
abbrev Code.wcall : Nat := 0x0B
abbrev Code.bkpt : Nat := 0x0C
abbrev Code.interrupt : Nat := 0x0D

/-- What an exception carries into its frame. -/
structure Trap where
  code : Nat
  arg : Nat
  detail : Nat
  fault : Word
  deriving DecidableEq, Repr

def Trap.plain (code : Nat) : Trap := { code := code, arg := 0, detail := 0, fault := 0 }

def Trap.at (code : Nat) (fault : Word) : Trap := { Trap.plain code with fault := fault }

def Trap.bus (detail : Nat) (fault : Word) : Trap := { code := Code.busFault, arg := 0, detail := detail, fault := fault }

/-- The CAUSE word (R397). -/
def causeWord (t : Trap) (sig level : Bool) : Word :=
  place 0 8 t.code ||| flag 8 sig ||| flag 9 level ||| place 10 10 t.arg ||| place 20 4 t.detail

/-- The eight words of the frame (R399). -/
def frameWords (n : Nat) (t : Trap) (sig : Bool) (w : World) (pc : Word) : List Word :=
  [pc, statusWord n sig { w with shadow := false }, causeWord t sig w.level, t.fault,
   (w.p ||| 1).setWidth 32 ||| place 8 5 w.rstack.length, w.lw0, w.lw1, w.lw2]

/-- The target world at entry: supervisor, interrupts off, no loop, at the handler (R398). -/
def entered (code : Nat) (w : World) : World :=
  { w with level := true, ie := false, shadow := false, lw0 := 0, lw1 := 0, lw2 := 0, badLoop := 0,
           ssp := w.ssp - 32, pc := w.vbase + BitVec.ofNat 32 (64 * code) }

/-- A fault during the frame writes: the core stops (R401). -/
def doubleFault (s : State) (n : Nat) : State :=
  raise (setCore s n { coreAt s n with stopped := true, wait := .none }) (8 + n)

/-- Leave one world for another. -/
def switchTo (s : State) (n : Nat) (sig : Bool) (code : Nat) : State :=
  let c := coreAt s n
  let c := c.put c.signalbox { worldOf c c.signalbox with shadow := false }
  setCore s n { c.put sig (entered code (worldOf c sig)) with signalbox := sig, wait := .none, stepDone := 0, stepAcc := 0 }

/-- The frame reads the predicates and the loop words of the world that is left: one of them holds a seal mismatch (R361,
R399). -/
def frameBad (w : World) : Bool := w.badP || decide (w.badLoop ≠ 0)

/-- The words of a frame with the addresses at which a core writes them, each translated by itself. -/
def frameStores (n : Nat) (ssp : Word) (l : List Word) : List (Nat × Word) :=
  ((List.range 8).map (fun i => translate n (ssp - 32 + BitVec.ofNat 32 (4 * i)).toNat)).zip l

/-- What the first word of a frame that cannot be written leaves; none when all can (R25, R401). -/
def frameFault (s : State) (m : Master) (l : List (Nat × Word)) : Option State :=
  (l.find? (fun e => decide ((fabricWrite s m e.1 4 e.2).detail ≠ 0))).map (fun e => (fabricWrite s m e.1 4 e.2).state)

/-- Take an exception into world `sig` with the saved PC `pc`: one indivisible step (R398). The frame is written under the
target world's supervisor identity, whole or not at all (R401). -/
def takeException (s : State) (n : Nat) (sig : Bool) (t : Trap) (pc : Word) : State :=
  let c := coreAt s n
  let w := worldOf c c.signalbox
  let m : Master := BitVec.ofNat 6 (coreId n sig true)
  let l := frameStores n (worldOf c sig).ssp (frameWords n t c.signalbox w pc)
  if frameBad w then doubleFault (sealFault s n) n
  else
    match frameFault s m l with
    | some f => doubleFault f n
    | none => switchTo (l.foldl (fun t e => (fabricWrite t m e.1 4 e.2).state) s) n sig t.code

/-- The world that takes a cause (R396). -/
def takenIn (code : Nat) (current : Bool) : Bool := decide (code = Code.sealFault) || decide (code = Code.wcall) || current

/-- A fault of the instruction at PC: its own PC is saved (R400). -/
def faultAt (s : State) (n : Nat) (t : Trap) : State :=
  takeException s n (takenIn t.code (curSig s n)) t (curWorld s n).pc

/-! ### Issue (R361, R366, R367, R377, R379, R395, R400) -/

/-- What an instruction that issues does. -/
inductive Effect where
  /-- it completes without transferring control -/
  | complete (s : State)
  /-- it completes and transfers control -/
  | jump (s : State) (target : Word)
  /-- it completes with PC already set -/
  | placed (s : State)
  /-- it waits -/
  | stay (s : State)
  /-- it issues again: a stall, or a step of a long instruction that leaves work -/
  | again (s : State)
  /-- a fault before any effect; the state carries what the access itself left -/
  | fault (s : State) (t : Trap)
  /-- it completes and its exception is taken -/
  | call (s : State) (t : Trap)

/-- The current world of a core is halted (R434). -/
def isHalted (s : State) (n : Nat) : Bool := haltedWorld s n (curSig s n)

/-- The core executes instructions. -/
def running (s : State) (n : Nat) : Bool :=
  mainPower s && s.coresRun && !(coreAt s n).stopped && !isHalted s n

/-- The core may issue an instruction: it runs and does not wait. -/
def canIssue (s : State) (n : Nat) : Bool := running s n && decide ((coreAt s n).wait = .none)

/-- A fetched word, or the exception that its fetch takes. -/
structure Fetch where
  state : State
  trap : Option Trap
  deriving DecidableEq, Repr

/-- Fetch one word (R293, R377, R396). -/
def fetchWord (s : State) (n : Nat) (pc : Word) : Fetch :=
  let a := translate n pc.toNat
  if !mapped a then { state := unmapped s (masterOf s n), trap := some (Trap.bus 2 pc) }
  else if !permits s (masterOf s n) .fetch a then
    { state := denied s (masterOf s n) .fetch a, trap := some (Trap.at Code.fetchFault pc) }
  else if isCodeWindow a then
    (if (sliceAt s (sliceOf a)).valid then
      (if windowBad s a then { state := sealFault s spineTile, trap := some (Trap.bus 3 pc) }
       else { state := windowFetch s a, trap := none })
     else { state := raise s 193, trap := some (Trap.bus 2 pc) })
  else
    match badCell? s a 4 with
    | some c => { state := sealFault s (tileOf (8 * c)), trap := some (Trap.bus 3 pc) }
    | none => { state := s, trap := none }

/-- Fetch the words of an instruction of `size` bytes at the current PC. -/
def fetchInstr (s : State) (n size : Nat) : Fetch :=
  let pc := (curWorld s n).pc
  let f := fetchWord s n pc
  if f.trap.isSome ∨ size = 4 then f else fetchWord f.state n (pc + 4)

/-- One of the word registers read holds a seal mismatch. -/
def badOperand (w : World) (reads : List (BitVec 5)) : Bool :=
  reads.any (fun r => decide (r ≠ 0) && w.badW.getLsbD r.toNat)

/-- An instruction executes when p[P] XOR N is 1 (R366). -/
def executes (i : Issue) (w : World) : Bool := readP w i.p != i.neg

/-- The register file answers with a seal fault: event 192 and the exception (R361). -/
def registerSealFault (s : State) (n : Nat) : State := faultAt (sealFault s n) n (Trap.plain Code.sealFault)

/-- Finish an instruction; `shadow` is the shadow it issued in, which ends only when it completes or takes an exception
(R395). -/
def settleEffect (n size : Nat) (shadow : Bool) : Effect → State
  | .complete t => modWorld t n (advancePc size)
  | .jump t target => modWorld t n (fun w => { w with pc := target })
  | .placed t => t
  | .stay t => modWorld t n (fun w => { w with shadow := shadow })
  | .again t => modWorld t n (fun w => { w with shadow := shadow })
  | .fault t trap => faultAt t n trap
  | .call t trap =>
    let t := modWorld t n (advancePc size)
    takeException t n (takenIn trap.code (curSig t n)) trap (curWorld t n).pc

/-- The shadow of R395 ends with the instruction. -/
def unshadow (s : State) (n : Nat) : State := modWorld s n (fun w => { w with shadow := false })

/-- What an instruction reads beside its predicate. -/
structure Reads where
  words : List (BitVec 5)
  preds : Bool
  /-- bit i: LWi -/
  loops : BitVec 3
  /-- the newest entry of the return stack -/
  stack : Bool
  deriving DecidableEq, Repr

def Reads.of (l : List (BitVec 5)) : Reads := { words := l, preds := false, loops := 0, stack := false }

def badReads (w : World) (r : Reads) : Bool :=
  badOperand w r.words || (r.preds && w.badP) || decide (r.loops &&& w.badLoop ≠ 0) || (r.stack && badTop w)

/-- The instruction that a core issues no longer waits for the entropy source. -/
def unstall (s : State) (n : Nat) : State :=
  { s with ent := { s.ent with waiting := s.ent.waiting.filter (fun r => match r with
    | .core k _ => !decide (k = n)
    | .port _ => true) } }

/-- A read of the instruction that a core has issued waits for the entropy source. -/
def stalledOnEnt (s : State) (n : Nat) : Bool :=
  s.ent.waiting.any (fun r => match r with
    | .core k _ => decide (k = n)
    | .port _ => false)

/-- Issue an instruction of `size` bytes whose words the core fetches at its PC: decode-time exceptions, the predicate, the
register file, and then its effect. An instruction that executes reads the loop words, for the loop end it may contain (log
entry 150). -/
def issue (i : Issue) (size : Nat) (decode : State → Nat → Option Nat) (reads : Reads) (eff : State → Nat → Effect)
    (s : State) : State :=
  let n := i.core.toNat
  if !canIssue s n then s
  else
    let f := fetchInstr (unstall s n) n size
    match f.trap with
    | some t => faultAt f.state n t
    | none =>
      let s := f.state
      match decode s n with
      | some code => faultAt s n (Trap.plain code)
      | none =>
        let w := curWorld s n
        if i.p ≠ 0 ∧ w.badP then registerSealFault s n
        else if !executes i w then modWorld (unshadow s n) n (advancePc size)
        else if badLoopEnd w ∨ badReads w reads then registerSealFault s n
        else settleEffect n size w.shadow (eff (unshadow s n) n)

def legal (_ : State) (_ : Nat) : Option Nat := none

/-- Illegal unless an operand constraint holds (R365). -/
def constrained (ok : Bool) (_ : State) (_ : Nat) : Option Nat := if ok then none else some Code.illegal

/-! ### Returning (R402, R403) -/

/-- Read consecutive words. -/
def readWords (s : State) (m : Master) (core : Nat) : Nat → Nat → List Word → State × List Word × Option Trap
  | 0, _, acc => (s, acc.reverse, none)
  | k + 1, a, acc =>
    let r := fabricRead s m (translate core a) 4
    if r.detail ≠ 0 then (r.state, acc.reverse, some (Trap.bus r.detail (BitVec.ofNat 32 a)))
    else readWords r.state m core k ((a + 4) % 2 ^ 32) (r.value :: acc)

def frameWordAt (l : List Word) (i : Nat) : Word := l.getD i 0

/-- What RETX restores in the world that the saved STATUS names. -/
def restored (l : List Word) (w : World) : World :=
  { w with pc := frameWordAt l 0, level := bit (frameWordAt l 1) 0, ie := bit (frameWordAt l 1) 2, rstrap := bit (frameWordAt l 1) 3,
           shadow := true, p := (frameWordAt l 4).setWidth 8 ||| 1, badP := false, lw0 := frameWordAt l 5, lw1 := frameWordAt l 6,
           lw2 := frameWordAt l 7 &&& 0x00FFFFFF, badLoop := 0 }

/-- RETX at supervisor level. -/
def returnFrom (s : State) (n : Nat) : Effect :=
  let sig := curSig s n
  let r := readWords s (masterOf s n) n 8 (curWorld s n).ssp.toNat []
  let l := r.2.1
  match r.2.2 with
  | some t => .fault r.1 t
  | none =>
    if bit (frameWordAt l 1) 1 ∧ !sig then .fault s (Trap.plain Code.privilege)
    else if frameWordAt l 0 &&& 3 ≠ 0 then .fault s (Trap.at Code.alignment (frameWordAt l 0))
    else
      let s := modWorld r.1 n (fun w => { w with ssp := w.ssp + 32 })
      let toSig := bit (frameWordAt l 1) 1
      let c := coreAt s n
      .placed (setCore s n { c.put toSig (restored l (worldOf c toSig)) with signalbox := toSig })

/-! ### Interrupts (R405, R406) -/

/-- The source is pending and routed to a core world. -/
def pendsFor (s : State) (n : Nat) (sig : Bool) (src : Nat) : Bool :=
  isPending s src && decide (destOf (evtRoute s src) = .core (BitVec.ofNat 2 n) sig)

/-- The lowest-numbered source that pends for a core world. -/
def lowestFor (s : State) (n : Nat) (sig : Bool) : Option Nat := (List.range 1024).find? (pendsFor s n sig)

def intSrc (s : State) (n : Nat) : Word :=
  match lowestFor s n (curSig s n) with
  | some k => BitVec.ofNat 32 k
  | none => 0x80000000

/-- The gate of R405 for a world's interrupts. -/
def gateOpen (s : State) (n : Nat) (sig : Bool) : Bool :=
  let c := coreAt s n
  if sig then !c.signalbox || c.sig.ie else !c.signalbox && c.plat.ie

/-- The world whose interrupt is taken: the Signalbox world first (log entry 49). -/
def interruptFor (s : State) (n : Nat) : Option (Bool × Nat) :=
  match (if gateOpen s n true then lowestFor s n true else none) with
  | some k => some (true, k)
  | none => ((if gateOpen s n false then lowestFor s n false else none)).map (fun k => (false, k))

/-- Write the wake register to rd, clearing the bits written (R382). -/
def takeWake (s : State) (n : Nat) (rd : BitVec 5) : State :=
  let s := modWorld s n (writeW rd ((coreAt s n).wake.setWidth 32))
  setCore s n { coreAt s n with wake := 0 }

/-- A wait ends, and with it the shadow that its instruction issued in (R395). -/
def endWait (s : State) (n : Nat) : State := setCore (unshadow s n) n { coreAt (unshadow s n) n with wait := .none }

/-- An interrupt ends a WAITF with the next instruction as its saved PC and the loop words unchanged, and stops a WAITT, which
waits again after return (R382, R384, R400). -/
def leaveWait (s : State) (n : Nat) : State :=
  match (coreAt s n).wait with
  | .waitf rd => endWait (modWorld (takeWake s n rd) n (fun w => { w with pc := w.pc + 4 })) n
  | .waitt _ _ => setCore s n { coreAt s n with wait := .none }
  | .none => s

def inWaitf (s : State) (n : Nat) : Bool :=
  match (coreAt s n).wait with
  | .waitf _ => true
  | _ => false

/-- The core takes no interrupt now: an instruction in a shadow has still to complete, unless it is a WAITF, which an interrupt
completes (R382, R395); or an instruction in progress waits for a read. -/
def heldOff (s : State) (n : Nat) : Bool := ((curWorld s n).shadow && !inWaitf s n) || stalledOnEnt s n

/-- INTERRUPT_TAKEN (R395, R405): between issue groups. -/
def takeInterrupt (s : State) (n : Nat) : State :=
  if !running s n || heldOff s n then s
  else
    match interruptFor s n with
    | none => s
    | some (sig, k) =>
      let s := leaveWait s n
      takeException s n sig { Trap.plain Code.interrupt with arg := k } (curWorld s n).pc

end Sys2Proof.Machine
end

