-- ==== Sys2Proof/Machine/TamemAlu.lean ====
section
/-! DEFINITION. Tamem-32: arithmetic, compares and predicate logic (R363 to R371). -/

namespace Sys2Proof.Machine

/-- An instruction that writes one word register from the world's state. -/
def wordOp (i : Issue) (size : Nat) (rd : BitVec 5) (reads : List (BitVec 5)) (v : World → Word) (s : State) : Out :=
  done (issue i size legal (Reads.of reads) (fun s n => .complete (modWorld s n (fun w => writeW rd (v w) w))) s)

/-- rd ← f ra rb. -/
def regOp (i : Issue) (rd ra rb : BitVec 5) (f : Word → Word → Word) (s : State) : Out :=
  wordOp i 4 rd [ra, rb] (fun w => f (readW w ra) (readW w rb)) s

/-- rd ← f ra imm. -/
def immOp (i : Issue) (size : Nat) (rd ra : BitVec 5) (imm : Word) (f : Word → Word → Word) (s : State) : Out :=
  wordOp i size rd [ra] (fun w => f (readW w ra) imm) s

def shiftL (a b : Word) : Word := a <<< amount b
def shiftR (a b : Word) : Word := a >>> amount b
def shiftA (a b : Word) : Word := a.sshiftRight (amount b)
def rotL (a b : Word) : Word := a.rotateLeft (amount b)
def rotR (a b : Word) : Word := a.rotateRight (amount b)

/-- A sum or difference through p7 (R369). -/
def carryOp (i : Issue) (rd ra rb : BitVec 5) (f : Word → Word → Bool → Word) (c : Word → Word → Bool → Bool)
    (s : State) : Out :=
  done (issue i 4 legal { words := [ra, rb], preds := true, loops := 0, stack := false }
    (fun s n => .complete (modWorld s n (fun w =>
      writeP 7 (c (readW w ra) (readW w rb) (readP w 7)) (writeW rd (f (readW w ra) (readW w rb) (readP w 7)) w)))) s)

/-- A compare: pd, and with PAIR its inverse in pd + 1 (R368). -/
def compareOp (i : Issue) (pd : BitVec 3) (pair : Bool) (reads : List (BitVec 5)) (cond : World → Bool) (s : State) : Out :=
  done (issue i 4 (constrained (!pair || pairable pd)) (Reads.of reads)
    (fun s n => .complete (modWorld s n (fun w =>
      if pair then writePair pd (cond w) (!cond w) w else writeP pd (cond w) w))) s)

def compareReg (i : Issue) (pd : BitVec 3) (pair : Bool) (ra rb : BitVec 5) (c : Word → Word → Bool) (s : State) : Out :=
  compareOp i pd pair [ra, rb] (fun w => c (readW w ra) (readW w rb)) s

def compareImm (i : Issue) (pd : BitVec 3) (pair : Bool) (ra : BitVec 5) (imm : BitVec 10) (c : Word → Word → Bool)
    (s : State) : Out :=
  compareOp i pd pair [ra] (fun w => c (readW w ra) (imm10 imm)) s

/-- A predicate operation. -/
def predOp (i : Issue) (pd : BitVec 3) (reads : Bool) (v : World → Bool) (s : State) : Out :=
  done (issue i 4 legal { words := [], preds := reads, loops := 0, stack := false }
    (fun s n => .complete (modWorld s n (fun w => writeP pd (v w) w))) s)

/-! ### Registers -/

/-- ADD (R364). -/
def execAdd (i : Issue) (rd ra rb : BitVec 5) (s : State) : Out := regOp i rd ra rb (· + ·) s

/-- SUB (R364). -/
def execSub (i : Issue) (rd ra rb : BitVec 5) (s : State) : Out := regOp i rd ra rb (· - ·) s

/-- AND (R364). -/
def execAnd (i : Issue) (rd ra rb : BitVec 5) (s : State) : Out := regOp i rd ra rb (· &&& ·) s

/-- OR (R364). -/
def execOr (i : Issue) (rd ra rb : BitVec 5) (s : State) : Out := regOp i rd ra rb (· ||| ·) s

/-- XOR (R364). -/
def execXor (i : Issue) (rd ra rb : BitVec 5) (s : State) : Out := regOp i rd ra rb (· ^^^ ·) s

/-- ANDN (R364). -/
def execAndn (i : Issue) (rd ra rb : BitVec 5) (s : State) : Out := regOp i rd ra rb (fun a b => a &&& ~~~b) s

/-- SHL (R364, R370). -/
def execShl (i : Issue) (rd ra rb : BitVec 5) (s : State) : Out := regOp i rd ra rb shiftL s

/-- SHR (R364, R370). -/
def execShr (i : Issue) (rd ra rb : BitVec 5) (s : State) : Out := regOp i rd ra rb shiftR s

/-- SAR (R364, R370). -/
def execSar (i : Issue) (rd ra rb : BitVec 5) (s : State) : Out := regOp i rd ra rb shiftA s

/-- ROL (R364, R370). -/
def execRol (i : Issue) (rd ra rb : BitVec 5) (s : State) : Out := regOp i rd ra rb rotL s

/-- ROR (R364, R370). -/
def execRor (i : Issue) (rd ra rb : BitVec 5) (s : State) : Out := regOp i rd ra rb rotR s

/-- MUL (R364, R370). -/
def execMul (i : Issue) (rd ra rb : BitVec 5) (s : State) : Out := regOp i rd ra rb (· * ·) s

/-- MULH (R364, R370). -/
def execMulh (i : Issue) (rd ra rb : BitVec 5) (s : State) : Out := regOp i rd ra rb mulHigh s

/-- MULHU (R364, R370). -/
def execMulhu (i : Issue) (rd ra rb : BitVec 5) (s : State) : Out := regOp i rd ra rb mulHighU s

/-- DIVU (R364, R370). -/
def execDivu (i : Issue) (rd ra rb : BitVec 5) (s : State) : Out := regOp i rd ra rb divU s

/-- REMU (R364, R370). -/
def execRemu (i : Issue) (rd ra rb : BitVec 5) (s : State) : Out := regOp i rd ra rb remU s

/-- CLZ (R364, R370). -/
def execClz (i : Issue) (rd ra : BitVec 5) (s : State) : Out := wordOp i 4 rd [ra] (fun w => leadingZeros (readW w ra)) s

/-- POPC (R364, R370). -/
def execPopc (i : Issue) (rd ra : BitVec 5) (s : State) : Out := wordOp i 4 rd [ra] (fun w => onesCount (readW w ra)) s

/-- ADDC (R369). -/
def execAddc (i : Issue) (rd ra rb : BitVec 5) (s : State) : Out := carryOp i rd ra rb addWith carryOut s

/-- SUBB (R369). -/
def execSubb (i : Issue) (rd ra rb : BitVec 5) (s : State) : Out := carryOp i rd ra rb subWith borrowOut s

/-! ### Immediates -/

/-- ADDI (R364): imm12 is sign-extended. -/
def execAddi (i : Issue) (rd ra : BitVec 5) (imm : BitVec 12) (s : State) : Out := immOp i 4 rd ra (imm12 imm) (· + ·) s

/-- ANDI (R364): imm12 is sign-extended. -/
def execAndi (i : Issue) (rd ra : BitVec 5) (imm : BitVec 12) (s : State) : Out := immOp i 4 rd ra (imm12 imm) (· &&& ·) s

/-- ORI (R364): imm12 is sign-extended. -/
def execOri (i : Issue) (rd ra : BitVec 5) (imm : BitVec 12) (s : State) : Out := immOp i 4 rd ra (imm12 imm) (· ||| ·) s

/-- XORI (R364): imm12 is sign-extended. -/
def execXori (i : Issue) (rd ra : BitVec 5) (imm : BitVec 12) (s : State) : Out := immOp i 4 rd ra (imm12 imm) (· ^^^ ·) s

/-- SHL by an immediate amount (R364, R370). -/
def execShli (i : Issue) (rd ra amt : BitVec 5) (s : State) : Out := immOp i 4 rd ra (amt.setWidth 32) shiftL s

/-- SHR by an immediate amount (R364, R370). -/
def execShri (i : Issue) (rd ra amt : BitVec 5) (s : State) : Out := immOp i 4 rd ra (amt.setWidth 32) shiftR s

/-- SAR by an immediate amount (R364, R370). -/
def execSari (i : Issue) (rd ra amt : BitVec 5) (s : State) : Out := immOp i 4 rd ra (amt.setWidth 32) shiftA s

/-- ROL by an immediate amount (R364, R370). -/
def execRoli (i : Issue) (rd ra amt : BitVec 5) (s : State) : Out := immOp i 4 rd ra (amt.setWidth 32) rotL s

/-- ROR by an immediate amount (R364, R370). -/
def execRori (i : Issue) (rd ra amt : BitVec 5) (s : State) : Out := immOp i 4 rd ra (amt.setWidth 32) rotR s

/-- LI (R371). -/
def execLi (i : Issue) (rd : BitVec 5) (imm : Word) (s : State) : Out := wordOp i 8 rd [] (fun _ => imm) s

/-- ADDL (R371). -/
def execAddl (i : Issue) (rd ra : BitVec 5) (imm : Word) (s : State) : Out := immOp i 8 rd ra imm (· + ·) s

/-- ANDL (R371). -/
def execAndl (i : Issue) (rd ra : BitVec 5) (imm : Word) (s : State) : Out := immOp i 8 rd ra imm (· &&& ·) s

/-- ORL (R371). -/
def execOrl (i : Issue) (rd ra : BitVec 5) (imm : Word) (s : State) : Out := immOp i 8 rd ra imm (· ||| ·) s

/-- XORL (R371). -/
def execXorl (i : Issue) (rd ra : BitVec 5) (imm : Word) (s : State) : Out := immOp i 8 rd ra imm (· ^^^ ·) s

/-! ### Compares (R368) -/

/-- Compare EQ, registers. -/
def execCmpeq (i : Issue) (pd : BitVec 3) (pair : Bool) (ra rb : BitVec 5) (s : State) : Out := compareReg i pd pair ra rb condEq s

/-- Compare NE, registers. -/
def execCmpne (i : Issue) (pd : BitVec 3) (pair : Bool) (ra rb : BitVec 5) (s : State) : Out := compareReg i pd pair ra rb condNe s

/-- Compare LT, registers. -/
def execCmplt (i : Issue) (pd : BitVec 3) (pair : Bool) (ra rb : BitVec 5) (s : State) : Out := compareReg i pd pair ra rb condLt s

/-- Compare LTU, registers. -/
def execCmpltu (i : Issue) (pd : BitVec 3) (pair : Bool) (ra rb : BitVec 5) (s : State) : Out := compareReg i pd pair ra rb condLtu s

/-- Compare GE, registers. -/
def execCmpge (i : Issue) (pd : BitVec 3) (pair : Bool) (ra rb : BitVec 5) (s : State) : Out := compareReg i pd pair ra rb condGe s

/-- Compare GEU, registers. -/
def execCmpgeu (i : Issue) (pd : BitVec 3) (pair : Bool) (ra rb : BitVec 5) (s : State) : Out := compareReg i pd pair ra rb condGeu s

/-- Compare TST, registers. -/
def execCmptst (i : Issue) (pd : BitVec 3) (pair : Bool) (ra rb : BitVec 5) (s : State) : Out := compareReg i pd pair ra rb condTst s

/-- Compare EQ, immediate. -/
def execCmpieq (i : Issue) (pd : BitVec 3) (pair : Bool) (ra : BitVec 5) (imm : BitVec 10) (s : State) : Out :=
  compareImm i pd pair ra imm condEq s

/-- Compare NE, immediate. -/
def execCmpine (i : Issue) (pd : BitVec 3) (pair : Bool) (ra : BitVec 5) (imm : BitVec 10) (s : State) : Out :=
  compareImm i pd pair ra imm condNe s

/-- Compare LT, immediate. -/
def execCmpilt (i : Issue) (pd : BitVec 3) (pair : Bool) (ra : BitVec 5) (imm : BitVec 10) (s : State) : Out :=
  compareImm i pd pair ra imm condLt s

/-- Compare LTU, immediate. -/
def execCmpiltu (i : Issue) (pd : BitVec 3) (pair : Bool) (ra : BitVec 5) (imm : BitVec 10) (s : State) : Out :=
  compareImm i pd pair ra imm condLtu s

/-- Compare GE, immediate. -/
def execCmpige (i : Issue) (pd : BitVec 3) (pair : Bool) (ra : BitVec 5) (imm : BitVec 10) (s : State) : Out :=
  compareImm i pd pair ra imm condGe s

/-- Compare GEU, immediate. -/
def execCmpigeu (i : Issue) (pd : BitVec 3) (pair : Bool) (ra : BitVec 5) (imm : BitVec 10) (s : State) : Out :=
  compareImm i pd pair ra imm condGeu s

/-- Compare TST, immediate. -/
def execCmpitst (i : Issue) (pd : BitVec 3) (pair : Bool) (ra : BitVec 5) (imm : BitVec 10) (s : State) : Out :=
  compareImm i pd pair ra imm condTst s

/-! ### Predicate logic (R364) -/

/-- PAND. -/
def execPand (i : Issue) (pd pa pb : BitVec 3) (s : State) : Out := predOp i pd true (fun w => readP w pa && readP w pb) s

/-- POR. -/
def execPor (i : Issue) (pd pa pb : BitVec 3) (s : State) : Out := predOp i pd true (fun w => readP w pa || readP w pb) s

/-- PXOR. -/
def execPxor (i : Issue) (pd pa pb : BitVec 3) (s : State) : Out := predOp i pd true (fun w => readP w pa != readP w pb) s

/-- PANDN. -/
def execPandn (i : Issue) (pd pa pb : BitVec 3) (s : State) : Out := predOp i pd true (fun w => readP w pa && !readP w pb) s

/-- PNOT. -/
def execPnot (i : Issue) (pd pa : BitVec 3) (s : State) : Out := predOp i pd true (fun w => !readP w pa) s

/-- PSET. -/
def execPset (i : Issue) (pd : BitVec 3) (s : State) : Out := predOp i pd false (fun _ => true) s

/-- PCLR. -/
def execPclr (i : Issue) (pd : BitVec 3) (s : State) : Out := predOp i pd false (fun _ => false) s

end Sys2Proof.Machine
end

