-- ==== Sys2Proof/Machine/TamemMem.lean ====
section
/-! DEFINITION. Tamem-32: loads, stores and the long resumable instructions (R372 to R374, R385 to R387). -/

namespace Sys2Proof.Machine

/-! ### Loads and stores (R372, R373) -/

/-- ra + imm12. -/
def address (w : World) (ra : BitVec 5) (imm : BitVec 12) : Word := readW w ra + imm12 imm

/-- Aligned for an access of `n` bytes. -/
def aligned (a : Word) (n : Nat) : Bool := decide (a.toNat % n = 0)

/-- A load of `n` bytes; a read of the entropy source that stalls does not complete. -/
def loadOp (i : Issue) (n : Nat) (rd ra : BitVec 5) (imm : BitVec 12) (ext : Word → Word) (s : State) : Out :=
  done (issue i 4 legal (Reads.of [ra])
    (fun s c =>
      let a := address (curWorld s c) ra imm
      if !aligned a n then .fault s (Trap.at Code.alignment a)
      else if stalls s (masterOf s c) a.toNat then .again (entWait s (.core c a))
      else
        let r := fabricRead s (masterOf s c) (translate c a.toNat) n
        if r.detail ≠ 0 then .fault r.state (Trap.bus r.detail a)
        else .complete (modWorld r.state c (writeW rd (ext r.value)))) s)

/-- A store of `n` bytes of a register. -/
def storeOp (i : Issue) (n : Nat) (rs ra : BitVec 5) (imm : BitVec 12) (s : State) : Out :=
  done (issue i 4 legal (Reads.of [rs, ra])
    (fun s c =>
      let a := address (curWorld s c) ra imm
      if !aligned a n then .fault s (Trap.at Code.alignment a)
      else
        let r := fabricWrite s (masterOf s c) (translate c a.toNat) n (readW (curWorld s c) rs)
        if r.detail ≠ 0 then .fault r.state (Trap.bus r.detail a) else .complete r.state) s)

/-- LDB: sign-extended. -/
def execLdb (i : Issue) (rd ra : BitVec 5) (imm : BitVec 12) (s : State) : Out :=
  loadOp i 1 rd ra imm (fun v => (v.setWidth 8).signExtend 32) s

/-- LDBU: zero-extended. -/
def execLdbu (i : Issue) (rd ra : BitVec 5) (imm : BitVec 12) (s : State) : Out := loadOp i 1 rd ra imm (fun v => v) s

/-- LDH: sign-extended. -/
def execLdh (i : Issue) (rd ra : BitVec 5) (imm : BitVec 12) (s : State) : Out :=
  loadOp i 2 rd ra imm (fun v => (v.setWidth 16).signExtend 32) s

/-- LDHU: zero-extended. -/
def execLdhu (i : Issue) (rd ra : BitVec 5) (imm : BitVec 12) (s : State) : Out := loadOp i 2 rd ra imm (fun v => v) s

/-- LDW. -/
def execLdw (i : Issue) (rd ra : BitVec 5) (imm : BitVec 12) (s : State) : Out := loadOp i 4 rd ra imm (fun v => v) s

/-- STB. -/
def execStb (i : Issue) (rs ra : BitVec 5) (imm : BitVec 12) (s : State) : Out := storeOp i 1 rs ra imm s

/-- STH. -/
def execSth (i : Issue) (rs ra : BitVec 5) (imm : BitVec 12) (s : State) : Out := storeOp i 2 rs ra imm s

/-- STW. -/
def execStw (i : Issue) (rs ra : BitVec 5) (imm : BitVec 12) (s : State) : Out := storeOp i 4 rs ra imm s

/-! ### Long resumable instructions, one step of 64 bytes (R385 to R387)

A read of the entropy source that stalls ends the command with the words before it done, and the next one goes on from there;
the registers move only with a completed step. -/

/-- How a step went: the state, what CTEQ gathered, the exception that stopped it, and whether a read of the entropy source
stalls with words left, and how many. -/
structure Step where
  state : State
  acc : Word
  trap : Option Trap
  left : Nat
  deriving DecidableEq, Repr

/-- The access at address `a` that a step made. -/
def Step.of (r : Load) (acc : Word) (a : Word) : Step :=
  { state := r.state, acc := acc, trap := if r.detail = 0 then none else some (Trap.bus r.detail a), left := 0 }

/-- The step stalls at a read with `k` words left. -/
def Step.stalled (s : State) (core : Nat) (acc a : Word) (k : Nat) : Step :=
  { state := entWait s (.core core a), acc := acc, trap := none, left := k }

/-- Copy words one by one, in ascending order. -/
def copyWords (m : Master) (core : Nat) : Nat → Word → Word → State → Step
  | 0, _, _, s => { state := s, acc := 0, trap := none, left := 0 }
  | k + 1, d, a, s =>
    if stalls s m (translate core a.toNat) then Step.stalled s core 0 a (k + 1)
    else
    let r := fabricRead s m (translate core a.toNat) 4
    if r.detail ≠ 0 then Step.of r 0 a
    else
      let t := fabricWrite r.state m (translate core d.toNat) 4 r.value
      if t.detail ≠ 0 then Step.of t 0 d else copyWords m core k (d + 4) (a + 4) t.state

/-- Write zero words. -/
def zeroWords (m : Master) (core : Nat) : Nat → Word → State → Step
  | 0, _, s => { state := s, acc := 0, trap := none, left := 0 }
  | k + 1, d, s =>
    let t := fabricWrite s m (translate core d.toNat) 4 0
    if t.detail ≠ 0 then Step.of t 0 d else zeroWords m core k (d + 4) t.state

/-- Gather the differences of two ranges of words. -/
def diffWords (m : Master) (core : Nat) : Nat → Word → Word → Word → State → Step
  | 0, _, _, acc, s => { state := s, acc := acc, trap := none, left := 0 }
  | k + 1, a, b, acc, s =>
    if stalls s m (translate core a.toNat) then Step.stalled s core acc a (k + 1)
    else if stalls s m (translate core b.toNat) then Step.stalled s core acc b (k + 1)
    else
    let r := fabricRead s m (translate core a.toNat) 4
    if r.detail ≠ 0 then Step.of r acc a
    else
      let t := fabricRead r.state m (translate core b.toNat) 4
      if t.detail ≠ 0 then Step.of t acc b
      else diffWords m core k (a + 4) (b + 4) (acc ||| (r.value ^^^ t.value)) t.state

/-- Bytes of the next step. -/
def stepBytes (count : Word) : Word := if count.toNat < 64 then count else 64

/-- The first operand that breaks R385: a misaligned address or count, or a count above 65,536. -/
def longFault (addrs : List Word) (count : Word) : Option Word :=
  match addrs.find? (fun a => !aligned a 4) with
  | some a => some a
  | none => if aligned count 4 ∧ count.toNat ≤ 65536 then none else some count

/-- Keep how far the step in progress has come. -/
def holdStep (s : State) (n done : Nat) (acc : Word) : State :=
  setCore s n { coreAt s n with stepDone := done, stepAcc := acc }

/-- A step ends: with nothing left the instruction completes. -/
def endStep (s : State) (left : Word) : Effect := if left = 0 then .complete s else .again s

/-- BCOPY. -/
def execBcopy (i : Issue) (wd ws wn : BitVec 5) (s : State) : Out :=
  done (issue i 4 (constrained (decide (wd ≠ 0 ∧ ws ≠ 0 ∧ wn ≠ 0 ∧ wd ≠ ws ∧ wd ≠ wn ∧ ws ≠ wn))) (Reads.of [wd, ws, wn])
    (fun s c =>
      let w := curWorld s c
      let k := stepBytes (readW w wn)
      match longFault [readW w wd, readW w ws] (readW w wn) with
      | some a => .fault s (Trap.at Code.alignment a)
      | none =>
        let o := BitVec.ofNat 32 (4 * (coreAt s c).stepDone)
        let r := copyWords (masterOf s c) c (k.toNat / 4 - (coreAt s c).stepDone) (readW w wd + o) (readW w ws + o) s
        match r.trap with
        | some t => .fault r.state t
        | none =>
          if r.left ≠ 0 then .again (holdStep r.state c (k.toNat / 4 - r.left) 0)
          else
            endStep (modWorld (holdStep r.state c 0 0) c (fun w =>
              writeW wn (readW w wn - k) (writeW ws (readW w ws + k) (writeW wd (readW w wd + k) w)))) (readW w wn - k)) s)

/-- BZERO. -/
def execBzero (i : Issue) (wd wn : BitVec 5) (s : State) : Out :=
  done (issue i 4 (constrained (decide (wd ≠ 0 ∧ wn ≠ 0 ∧ wd ≠ wn))) (Reads.of [wd, wn])
    (fun s c =>
      let w := curWorld s c
      let k := stepBytes (readW w wn)
      match longFault [readW w wd] (readW w wn) with
      | some a => .fault s (Trap.at Code.alignment a)
      | none =>
        let r := zeroWords (masterOf s c) c (k.toNat / 4) (readW w wd) s
        match r.trap with
        | some t => .fault r.state t
        | none =>
          endStep (modWorld r.state c (fun w => writeW wn (readW w wn - k) (writeW wd (readW w wd + k) w)))
            (readW w wn - k)) s)

/-- The register constraints of CTEQ. -/
def cteqOk (pd : BitVec 3) (wa wb wn : BitVec 5) : Bool :=
  pairable pd && decide (wn.toNat % 2 = 0 ∧ wn ≠ 0 ∧ wa ≠ 0 ∧ wb ≠ 0 ∧ wa ≠ wb ∧ wa ≠ wn ∧ wb ≠ wn ∧ wa ≠ wn + 1 ∧ wb ≠ wn + 1)

/-- CTEQ: it never stops early, and writes pd and pd + 1 when no byte is left. -/
def execCteq (i : Issue) (pd : BitVec 3) (wa wb wn : BitVec 5) (s : State) : Out :=
  done (issue i 4 (constrained (cteqOk pd wa wb wn)) (Reads.of [wa, wb, wn, wn + 1])
    (fun s c =>
      let w := curWorld s c
      let k := stepBytes (readW w wn)
      match longFault [readW w wa, readW w wb] (readW w wn) with
      | some a => .fault s (Trap.at Code.alignment a)
      | none =>
        let d := (coreAt s c).stepDone
        let o := BitVec.ofNat 32 (4 * d)
        let r := diffWords (masterOf s c) c (k.toNat / 4 - d) (readW w wa + o) (readW w wb + o)
          (if d = 0 then readW w (wn + 1) else (coreAt s c).stepAcc) s
        match r.trap with
        | some t => .fault r.state t
        | none =>
          let left := readW w wn - k
          let s := modWorld (holdStep r.state c 0 0) c (fun w =>
            writeW (wn + 1) r.acc (writeW wn left (writeW wb (readW w wb + k) (writeW wa (readW w wa + k) w))))
          if r.left ≠ 0 then .again (holdStep r.state c (k.toNat / 4 - r.left) r.acc)
          else endStep (if left = 0 then modWorld s c (writePair pd (decide (r.acc = 0)) (decide (r.acc ≠ 0))) else s) left) s)

end Sys2Proof.Machine
end

