-- ==== Sys2Proof/Machine/TamemSys.lean ====
section
/-! DEFINITION. Tamem-32: control flow, hardware loops, system instructions, waits and special registers (R375 to R384,
R391 to R406), and what reaches a core from outside (R31, R293, R365, R405). -/

namespace Sys2Proof.Machine

/-! ### Control flow (R371, R375 to R377) -/

/-- A transfer of control to an address that may be misaligned. -/
def jumpTo (s : State) (target : Word) : Effect :=
  if target &&& 3 ≠ 0 then .fault s (Trap.at Code.alignment target) else .jump s target

/-- A call: the address of the next instruction is pushed (R376). -/
def callTo (s : State) (n size : Nat) (target : Word) : Effect :=
  let w := curWorld s n
  if target &&& 3 ≠ 0 then .fault s (Trap.at Code.alignment target)
  else if stackFull w ∧ w.rstrap then .fault s (Trap.plain Code.rsOverflow)
  else .jump (modWorld s n (pushStack (w.pc + BitVec.ofNat 32 size))) target

/-- An instruction that pops reads the newest entry of the return stack. -/
def stackReads (l : List (BitVec 5)) : Reads := { words := l, preds := false, loops := 0, stack := true }

/-- BR. -/
def execBr (i : Issue) (off : BitVec 22) (s : State) : Out :=
  done (issue i 4 legal (Reads.of []) (fun s n => .jump s ((curWorld s n).pc + offset22 off)) s)

/-- CALL. -/
def execCall (i : Issue) (off : BitVec 22) (s : State) : Out :=
  done (issue i 4 legal (Reads.of []) (fun s n => callTo s n 4 ((curWorld s n).pc + offset22 off)) s)

/-- JR. -/
def execJr (i : Issue) (ra : BitVec 5) (s : State) : Out :=
  done (issue i 4 legal (Reads.of [ra]) (fun s n => jumpTo s (readW (curWorld s n) ra)) s)

/-- CALLR. -/
def execCallr (i : Issue) (ra : BitVec 5) (s : State) : Out :=
  done (issue i 4 legal (Reads.of [ra]) (fun s n => callTo s n 4 (readW (curWorld s n) ra)) s)

/-- RET; an entry that is misaligned is treated as any misaligned target (log entry 50). -/
def execRet (i : Issue) (s : State) : Out :=
  done (issue i 4 legal (stackReads [])
    (fun s n =>
      match (curWorld s n).rstack with
      | [] => .fault s (Trap.plain Code.rsUnderflow)
      | t :: _ =>
        if t &&& 3 ≠ 0 then .fault s (Trap.at Code.alignment t)
        else .jump (modWorld s n dropTop) t) s)

/-- CALLA: bits [1:0] of the target must be zero. -/
def execCalla (i : Issue) (imm : Word) (s : State) : Out :=
  done (issue i 8 (constrained (decide (imm &&& 3 = 0))) (Reads.of []) (fun s n => callTo s n 8 imm) s)

/-- BRA. -/
def execBra (i : Issue) (imm : Word) (s : State) : Out :=
  done (issue i 8 (constrained (decide (imm &&& 3 = 0))) (Reads.of []) (fun s _ => .jump s imm) s)

/-! ### Hardware loops (R378, R380) -/

/-- Level 0 starts at PC + 4. -/
def startLevel0 (count len : Nat) (w : World) : World :=
  { w with lw0 := (w.pc + 4) ||| 1, lw1 := withBits w.lw1 0 16 count, lw2 := withBits w.lw2 0 8 len }

/-- Level 1 starts at PC + 4. -/
def startLevel1 (count len : Nat) (w : World) : World :=
  { w with lw0 := w.lw0 ||| 2, lw1 := withBits w.lw1 16 16 count,
           lw2 := withBits (withBits w.lw2 8 8 len) 16 8 ((w.pc + 4 - loopStart0 w).toNat / 4) }

/-- A new body of `len + 1` words lies within the level-0 body. -/
def loopInside (w : World) (len : Nat) : Bool :=
  decide ((loopStart0 w).toNat ≤ (w.pc + 4).toNat ∧ (w.pc + 4).toNat + 4 * len ≤ (loopEnd0 w).toNat)

/-- LOOP. -/
def execLoop (i : Issue) (wc : BitVec 5) (len : BitVec 8) (s : State) : Out :=
  done (issue i 4 legal { words := [wc], preds := false, loops := 7, stack := false }
    (fun s n =>
      let w := curWorld s n
      let count := bitsOf (readW w wc) 0 16
      if count = 0 then .jump s (w.pc + BitVec.ofNat 32 (8 + 4 * len.toNat))
      else if !act0 w then .placed (modWorld s n (fun w => { startLevel0 count len.toNat w with pc := w.pc + 4 }))
      else if !act1 w ∧ loopInside w len.toNat then .complete (modWorld s n (startLevel1 count len.toNat))
      else .fault s (Trap.plain Code.loopFault)) s)

/-- LBREAK. -/
def execLbreak (i : Issue) (s : State) : Out :=
  done (issue i 4 legal { words := [], preds := false, loops := 7, stack := false }
    (fun s n => .complete (modWorld s n breakLoop)) s)

/-! ### SYSCALL, WCALL, BKPT, RETX (R394, R402, R434) -/

/-- SYSCALL. -/
def execSyscall (i : Issue) (code : BitVec 10) (s : State) : Out :=
  done (issue i 4 legal (Reads.of []) (fun s _ => .call s { Trap.plain Code.syscall with arg := code.toNat }) s)

/-- WCALL is legal from the Platform supervisor. -/
def wcallLegal (s : State) (n : Nat) : Option Nat :=
  if curSig s n then some Code.illegal else if (curWorld s n).level then none else some Code.privilege

/-- WCALL. -/
def execWcall (i : Issue) (code : BitVec 10) (s : State) : Out :=
  done (issue i 4 wcallLegal (Reads.of []) (fun s _ => .call s { Trap.plain Code.wcall with arg := code.toNat }) s)

/-- The supervisor level is needed. -/
def supervisor (s : State) (n : Nat) : Option Nat := if (curWorld s n).level then none else some Code.privilege

/-- RETX. -/
def execRetx (i : Issue) (s : State) : Out := done (issue i 4 supervisor (Reads.of []) returnFrom s)

/-- A halt is armed for the current world (R434). -/
def armed (s : State) (n : Nat) : Bool := decide (sessionLevel s ≠ 0) && bitR s Reg.DBG_SESSION (2 + 2 * n + b2n (curSig s n))

/-- The core halts in its current world. -/
def haltCore (s : State) (n : Nat) : State :=
  let c := coreAt s n
  setCore s n (if c.signalbox then { c with haltS := true } else { c with haltP := true })

/-- BKPT. -/
def execBkpt (i : Issue) (s : State) : Out :=
  done (issue i 4 legal (Reads.of [])
    (fun s n => if armed s n then .complete (haltCore s n) else .call s (Trap.plain Code.bkpt)) s)

/-! ### Events and time (R374, R382 to R384) -/

/-- The 64-bit deadline in ra + 1 and ra. -/
def deadline (w : World) (ra : BitVec 5) : DWord := pair64 (readW w (ra + 1)) (readW w ra)

def setWait (s : State) (n : Nat) (t : Wait) : State := setCore s n { coreAt s n with wait := t }

def wakeOf (s : State) (n : Nat) : BitVec 4 := (coreAt s n).wake

/-- WAITF. -/
def execWaitf (i : Issue) (rd : BitVec 5) (s : State) : Out :=
  done (issue i 4 legal (Reads.of [])
    (fun s n => if wakeOf s n = 0 then .stay (setWait s n (.waitf rd)) else .complete (takeWake s n rd)) s)

/-- WAITF_WAKE (R382): the wake register has become nonzero. -/
def execWaitfWake (core : BitVec 2) (s : State) : Out :=
  let n := core.toNat
  match (coreAt s n).wait with
  | .waitf rd =>
    done (if running s n && decide (wakeOf s n ≠ 0) then endWait (modWorld (takeWake s n rd) n (advancePc 4)) n else s)
  | _ => .next s

/-- Signal the cores of a mask. -/
def signalCores (s : State) (n : Nat) (mask : BitVec 4) : State :=
  (List.range 4).foldl (fun t k =>
    if mask.getLsbD k then setCore t k { coreAt t k with wake := wakeOf t k ||| (1#4 <<< n) } else t) s

/-- SIGF. -/
def execSigf (i : Issue) (mask : BitVec 4) (s : State) : Out :=
  done (issue i 4 legal (Reads.of []) (fun s n => .complete (signalCores s n mask)) s)

/-- The outcome of a WAITT: pd is the timeout, pd + 1 the wake. -/
def waittDone (s : State) (n : Nat) (pd : BitVec 3) (d : DWord) : State :=
  modWorld s n (writePair pd (decide (d.toNat ≤ s.ttc.toNat)) (decide (wakeOf s n ≠ 0)))

def waittOver (s : State) (n : Nat) (d : DWord) : Bool := decide (d.toNat ≤ s.ttc.toNat) || decide (wakeOf s n ≠ 0)

/-- WAITT: ra is even and pd is 2, 4 or 6. -/
def execWaitt (i : Issue) (pd : BitVec 3) (ra : BitVec 5) (s : State) : Out :=
  done (issue i 4 (constrained (decide (ra.toNat % 2 = 0) && pairable pd)) (Reads.of [ra, ra + 1])
    (fun s n =>
      let d := deadline (curWorld s n) ra
      if waittOver s n d then .complete (waittDone s n pd d) else .stay (setWait s n (.waitt pd d))) s)

/-- WAITT_COMPLETE (R383). -/
def execWaittComplete (core : BitVec 2) (s : State) : Out :=
  let n := core.toNat
  match (coreAt s n).wait with
  | .waitt pd d =>
    done (if running s n && waittOver s n d then modWorld (endWait (waittDone s n pd d) n) n (advancePc 4) else s)
  | _ => .next s

/-- BAR: every store has its response when its own command ends (R374). -/
def execBar (i : Issue) (s : State) : Out := done (issue i 4 legal (Reads.of []) (fun s _ => .complete s) s)

/-! ### Special registers (R381, R392, R393, R404, R406) -/

/-- MFS RSTOP: the top entry is popped; 0 when there is none. -/
def popTop (s : State) (n : Nat) (rd : BitVec 5) : Effect :=
  .complete (modWorld s n (fun w =>
    match w.rstack with
    | [] => writeW rd 0 w
    | t :: _ => writeW rd t (dropTop w)))

/-- MTS RSTOP. -/
def pushTop (s : State) (n : Nat) (ra : BitVec 5) : Effect :=
  .complete (modWorld s n (fun w => pushStack (readW w ra) w))

/-- The Platform register that XSEL selects. -/
def xregValue (c : Core) : Word :=
  if c.xsel.getLsbD 5 then BitVec.ofNat 32 (b2n (readP c.plat (c.xsel.setWidth 3))) else readW c.plat (c.xsel.setWidth 5)

def xregPut (v : Word) (c : Core) : Core :=
  { c with plat := if c.xsel.getLsbD 5 then writeP (c.xsel.setWidth 3) (bit v 0) c.plat
                   else writeW (c.xsel.setWidth 5) v c.plat }

/-- The register-file entry that XSEL selects holds a seal mismatch. -/
def xregBad (c : Core) : Bool :=
  if c.xsel.getLsbD 5 then c.plat.badP else badOperand c.plat [c.xsel.setWidth 5]

/-- MFS XREG. -/
def readX (s : State) (n : Nat) (rd : BitVec 5) : Effect :=
  if xregBad (coreAt s n) then .fault (sealFault s n) (Trap.plain Code.sealFault)
  else .complete (modWorld s n (writeW rd (xregValue (coreAt s n))))

/-- MTS XREG. -/
def writeX (s : State) (n : Nat) (ra : BitVec 5) : Effect :=
  .complete (setCore s n (xregPut (readW (curWorld s n) ra) (coreAt s n)))

/-- The level that a special register needs: 0 user, 1 supervisor, 2 Signalbox supervisor; none for an unlisted number. -/
def mfsLevel : Nat → Option Nat
  | 0x00 => some 0 | 0x01 => some 1 | 0x02 => some 1 | 0x03 => some 1 | 0x04 => some 0 | 0x05 => some 1
  | 0x06 => some 2 | 0x07 => some 2 | 0x08 => some 0 | 0x10 => some 0 | 0x11 => some 0 | 0x12 => some 0
  | _ => none

/-- As `mfsLevel`, for a write; one to a read-only register is ignored at either level. -/
def mtsLevel : Nat → Option Nat
  | 0x00 => some 1 | 0x03 => some 0 | 0x04 => some 0 | 0x08 => some 0
  | k => mfsLevel k

/-- Decode-time checks of an access to a special register (R367, R392). -/
def specLegal (lvl : Option Nat) (s : State) (n : Nat) : Option Nat :=
  match lvl with
  | none => some Code.illegal
  | some 0 => none
  | some 1 => supervisor s n
  | some _ => if curSig s n && (curWorld s n).level then none else some Code.privilege

/-- The value of a special register without side effects. -/
def specValue (s : State) (n k : Nat) : Word :=
  let w := curWorld s n
  match k with
  | 0x00 => statusWord n (curSig s n) w
  | 0x01 => w.vbase
  | 0x02 => w.ssp
  | 0x03 => intSrc s n
  | 0x04 => BitVec.ofNat 32 w.rstack.length
  | 0x06 => (coreAt s n).xsel.setWidth 32
  | 0x08 => place 0 2 n ||| place 2 6 (masterOf s n).toNat
  | 0x10 => w.lw0
  | 0x11 => w.lw1
  | 0x12 => w.lw2
  | _ => 0

/-- Which parts of the register file a read of a special register uses. -/
def specReads (k : Nat) : Reads :=
  { words := [], preds := false, loops := if 0x10 ≤ k ∧ k ≤ 0x12 then 1#3 <<< (k - 0x10) else 0, stack := decide (k = 5) }

/-- MFS by number. -/
def readSpec (k : Nat) (rd : BitVec 5) (s : State) (n : Nat) : Effect :=
  if k = 5 then popTop s n rd
  else if k = 7 then readX s n rd
  else .complete (modWorld s n (writeW rd (specValue s n k)))

/-- MFS (R381, R392). -/
def execMfs (i : Issue) (rd spec : BitVec 5) (s : State) : Out :=
  done (issue i 4 (specLegal (mfsLevel spec.toNat)) (specReads spec.toNat) (readSpec spec.toNat rd) s)

/-- A loop word written at the end of the instruction: its own loop end is handled first (R381). -/
def placeLoop (f : Word → World → World) (v : Word) (s : State) (n : Nat) : Effect :=
  .placed (modWorld s n (fun w => f v (advancePc 4 w)))

/-- MTS by number. -/
def writeSpec (k : Nat) (ra : BitVec 5) (s : State) (n : Nat) : Effect :=
  let v := readW (curWorld s n) ra
  match k with
  | 0x00 => .complete (modWorld s n (fun w => { w with ie := bit v 2, rstrap := bit v 3, shadow := true }))
  | 0x01 => .complete (modWorld s n (writeVbase v))
  | 0x02 => .complete (modWorld s n (writeSsp v))
  | 0x05 => pushTop s n ra
  | 0x06 => .complete (setCore s n { coreAt s n with xsel := v.setWidth 6 })
  | 0x07 => writeX s n ra
  | 0x10 => placeLoop writeLw0 v s n
  | 0x11 => placeLoop writeLw1 v s n
  | 0x12 => placeLoop writeLw2 v s n
  | _ => .complete s

/-- MTS (R381, R392, R393, R395). -/
def execMts (i : Issue) (spec ra : BitVec 5) (s : State) : Out :=
  done (issue i 4 (specLegal (mtsLevel spec.toNat)) (Reads.of [ra]) (writeSpec spec.toNat ra) s)

/-- MFS RSTOP (R404). -/
def execRstopPop (i : Issue) (rd : BitVec 5) (s : State) : Out :=
  done (issue i 4 supervisor (stackReads []) (fun s n => popTop s n rd) s)

/-- MTS RSTOP (R404). -/
def execRstopPush (i : Issue) (ra : BitVec 5) (s : State) : Out :=
  done (issue i 4 supervisor (Reads.of [ra]) (fun s n => pushTop s n ra) s)

/-- MFS XREG (R404). -/
def execXregRead (i : Issue) (rd : BitVec 5) (s : State) : Out :=
  done (issue i 4 (specLegal (some 2)) (Reads.of []) (fun s n => readX s n rd) s)

/-- MTS XREG (R404). -/
def execXregWrite (i : Issue) (ra : BitVec 5) (s : State) : Out :=
  done (issue i 4 (specLegal (some 2)) (Reads.of [ra]) (fun s n => writeX s n ra) s)

/-! ### What reaches a core from outside -/

/-- ILLEGAL_INSTRUCTION (R365): the fetched word has no meaning. -/
def execIllegalInstruction (core : BitVec 2) (s : State) : Out :=
  let n := core.toNat
  done (if canIssue s n then
      let f := fetchInstr s n 4
      faultAt f.state n (f.trap.getD (Trap.plain Code.illegal))
    else s)

/-- INTERRUPT_TAKEN (R405). -/
def execInterruptTaken (core : BitVec 2) (s : State) : Out := done (takeInterrupt s core.toNat)

/-- CODE_WINDOW_FETCH (R293): a fetch at an address of the window by a core; the page is read and the codeword that was
missed is filled. A fetch that fails takes its exception. -/
def execCodeWindowFetch (core : BitVec 2) (addr : Word) (s : State) : Out :=
  let n := core.toNat
  done (if canIssue s n && isCodeWindow addr.toNat then
      let f := fetchWord s n addr
      match f.trap with
      | none => f.state
      | some t => faultAt f.state n t
    else s)

/-- REASON of a read of the entropy source that was not served (R355). -/
def entReason (s : State) : Nat := if bitR s Reg.ENT_STATUS 1 then 2 else if bitR s Reg.ENT_STATUS 0 then 4 else 1

/-- The core that issues under an identity. -/
def coreOf (s : State) (m : Master) : Option Nat := (List.range 4).find? (fun n => decide (masterOf s n = m))

/-- A core's stalled read of the entropy source ends in an error response. -/
def endCoreRead (s : State) (n : Nat) (addr : Word) : State :=
  let s := { s with ent := { s.ent with waiting := s.ent.waiting.erase (.core n addr) } }
  if running s n then faultAt s n (Trap.bus 4 addr) else s

/-- After a fatal failure every read of a core ends at once (R354). -/
def endCoreReads (s : State) : State :=
  if entFatal s then
    s.ent.waiting.foldl (fun t r => match r with
      | .core n addr => endCoreRead t n addr
      | .port _ => t) s
  else s

/-- ENT_BLOCK_TESTED (R349, R354). -/
def execEntBlockTested (block : Bytes) (s : State) : Out :=
  done (if mainPower s && s.ent.biased && !entFatal s then endCoreReads (testBlock s block) else s)

/-- An access of a core ends in an error response. -/
def coreTimeout (s : State) (m : Master) (addr : Word) : State :=
  match coreOf s m with
  | some n => if canIssue s n then faultAt s n (Trap.bus 4 addr) else s
  | none => s

/-- A read of the entropy source is not served in 50 µs: one that waits ends, and without one nothing happens (R355). -/
def entTimeout (s : State) (m : Master) (addr : Word) : State :=
  let t := raise (entError s (entReason s)) 194
  if s.ent.waiting.contains (.port m) then failRead t m
  else
    match coreOf s m with
    | some n => if s.ent.waiting.contains (.core n addr) then endCoreRead t n addr else s
    | none => s

/-- A fetch from a die that has failed. -/
def deadSlice (s : State) (a : Nat) : Bool := s.flash.deadDies.getLsbD (sliceAt s (sliceOf a)).die

/-- FABRIC_READ_TIMEOUT (R31): only a read of the entropy source stalls, and a fetch from a failed die. -/
def execFabricReadTimeout (m : Master) (addr : Word) (fetch : Bool) (s : State) : Out :=
  done (if !mainPower s then s
    else if fetch then
      (if isCodeWindow addr.toNat && deadSlice s addr.toNat then coreTimeout (raise s 194) m addr else s)
    else entTimeout s m addr)

end Sys2Proof.Machine
end

