-- ==== Sys2Proof/Machine/Dispatch.lean ====
section
/-! DEFINITION. One arm per command. -/

namespace Sys2Proof.Machine

def exec (i : Instr) (s : State) : Host.Outcome State Fault Refusal :=
  match i with
  | .registerWrite m addr v => Sys2Proof.Machine.execRegisterWrite m addr v s
  | .rcRead target wide => Sys2Proof.Machine.execRcRead target wide s
  | .fabricReadTimeout m addr fetch => Sys2Proof.Machine.execFabricReadTimeout m addr fetch s
  | .lowHalfRead m addr => Sys2Proof.Machine.execLowHalfRead m addr s
  | .clkMeasSelect m v => Sys2Proof.Machine.execClkMeasSelect m v s
  | .clkMeasDone khz => Sys2Proof.Machine.execClkMeasDone khz s
  | .linkUp cfg => Sys2Proof.Machine.execLinkUp cfg s
  | .linkLoss => Sys2Proof.Machine.execLinkLoss s
  | .linkRetrain cfg => Sys2Proof.Machine.execLinkRetrain cfg s
  | .graceExpiry => Sys2Proof.Machine.execGraceExpiry s
  | .hotReset => Sys2Proof.Machine.execHotReset s
  | .flr => Sys2Proof.Machine.execFlr s
  | .deviceReset m => Sys2Proof.Machine.execDeviceReset m s
  | .setupBaseWrite m r h v => Sys2Proof.Machine.execSetupBaseWrite m r h v s
  | .controlLineOpen m v => Sys2Proof.Machine.execControlLineOpen m v s
  | .controlLineClose m v => Sys2Proof.Machine.execControlLineClose m v s
  | .windowCWrite off v => Sys2Proof.Machine.execWindowCWrite off v s
  | .evtPendClear m n ones => Sys2Proof.Machine.execEvtPendClear m n ones s
  | .msixUnmask vector => Sys2Proof.Machine.execMsixUnmask vector s
  | .hostCompletionTimeout r => Sys2Proof.Machine.execHostCompletionTimeout r s
  | .hostReadError r => Sys2Proof.Machine.execHostReadError r s
  | .statusRequest => Sys2Proof.Machine.execStatusRequest s
  | .bulkWaybill w payload => Sys2Proof.Machine.execBulkWaybill w payload s
  | .dmaStart m c dir => Sys2Proof.Machine.execDmaStart m c dir s
  | .dmaAbort m c => Sys2Proof.Machine.execDmaAbort m c s
  | .dmaCopyEnd c data outcome => Sys2Proof.Machine.execDmaCopyEnd c data outcome s
  | .doorbell off whole v => Sys2Proof.Machine.execDoorbell off whole v s
  | .admission line entry => Sys2Proof.Machine.execAdmission line entry s
  | .entryReadRetry line entry => Sys2Proof.Machine.execEntryReadRetry line entry s
  | .fillComplete line slot => Sys2Proof.Machine.execFillComplete line slot s
  | .spillDeparted line => Sys2Proof.Machine.execSpillDeparted line s
  | .indexMirrorWrite line => Sys2Proof.Machine.execIndexMirrorWrite line s
  | .tagConsist line records => Sys2Proof.Machine.execTagConsist line records s
  | .tagRecords line records => Sys2Proof.Machine.execTagRecords line records s
  | .verifyConsist line records => Sys2Proof.Machine.execVerifyConsist line records s
  | .verifyRecords line records expected => Sys2Proof.Machine.execVerifyRecords line records expected s
  | .mark line => Sys2Proof.Machine.execMark line s
  | .fence line => Sys2Proof.Machine.execFence line s
  | .lineOpen pos head => Sys2Proof.Machine.execLineOpen pos head s
  | .linePause pos => Sys2Proof.Machine.execLinePause pos s
  | .linePauseComplete target => Sys2Proof.Machine.execLinePauseComplete target s
  | .lineClose pos => Sys2Proof.Machine.execLineClose pos s
  | .sign line pos msg => Sys2Proof.Machine.execSign line pos msg s
  | .verifySig line pos msg keysig => Sys2Proof.Machine.execVerifySig line pos msg keysig s
  | .kemEncaps line pos peer => Sys2Proof.Machine.execKemEncaps line pos peer s
  | .kemDecaps line pos ct => Sys2Proof.Machine.execKemDecaps line pos ct s
  | .derive line pos => Sys2Proof.Machine.execDerive line pos s
  | .prove line pos => Sys2Proof.Machine.execProve line pos s
  | .manifestRead line pos => Sys2Proof.Machine.execManifestRead line pos s
  | .logExport line pos => Sys2Proof.Machine.execLogExport line pos s
  | .relay line pos block => Sys2Proof.Machine.execRelay line pos block s
  | .attest line pos => Sys2Proof.Machine.execAttest line pos s
  | .timeHint line pos => Sys2Proof.Machine.execTimeHint line pos s
  | .cardExport line pos => Sys2Proof.Machine.execCardExport line pos s
  | .lookoutInventory line pos => Sys2Proof.Machine.execLookoutInventory line pos s
  | .imageLoad line pos chunk => Sys2Proof.Machine.execImageLoad line pos chunk s
  | .lineKeyDerived line => Sys2Proof.Machine.execLineKeyDerived line s
  | .keyWaitTimeout line => Sys2Proof.Machine.execKeyWaitTimeout line s
  | .consistFetched line records => Sys2Proof.Machine.execConsistFetched line records s
  | .consistAbsorbed line expected => Sys2Proof.Machine.execConsistAbsorbed line expected s
  | .trackSelfTest t pass => Sys2Proof.Machine.execTrackSelfTest t pass s
  | .trackFence m bits => Sys2Proof.Machine.execTrackFence m bits s
  | .creditAccount t micros => Sys2Proof.Machine.execCreditAccount t micros s
  | .vigilCountRewrite => Sys2Proof.Machine.execVigilCountRewrite s
  | .ttcAdvance m h v => Sys2Proof.Machine.execTtcAdvance m h v s
  | .tcxoFailure => Sys2Proof.Machine.execTcxoFailure s
  | .epochClose => Sys2Proof.Machine.execEpochClose s
  | .rootFrozen => Sys2Proof.Machine.execRootFrozen s
  | .manifestSigned => Sys2Proof.Machine.execManifestSigned s
  | .manifestStored => Sys2Proof.Machine.execManifestStored s
  | .treeRebuildDone => Sys2Proof.Machine.execTreeRebuildDone s
  | .stationStale slot => Sys2Proof.Machine.execStationStale slot s
  | .btrDerive m => Sys2Proof.Machine.execBtrDerive m s
  | .installEncaps m peer => Sys2Proof.Machine.execInstallEncaps m peer s
  | .installDecaps m ct => Sys2Proof.Machine.execInstallDecaps m ct s
  | .invalidate m => Sys2Proof.Machine.execInvalidate m s
  | .purge m => Sys2Proof.Machine.execPurge m s
  | .rotate m => Sys2Proof.Machine.execRotate m s
  | .trunkCreate m => Sys2Proof.Machine.execTrunkCreate m s
  | .trunkZeroise m => Sys2Proof.Machine.execTrunkZeroise m s
  | .backup m => Sys2Proof.Machine.execBackup m s
  | .rescue m => Sys2Proof.Machine.execRescue m s
  | .release m => Sys2Proof.Machine.execRelease m s
  | .btrImport m => Sys2Proof.Machine.execBtrImport m s
  | .btrCommandDone => Sys2Proof.Machine.execBtrCommandDone s
  | .tableRebuildDone => Sys2Proof.Machine.execTableRebuildDone s
  | .retire m slot => Sys2Proof.Machine.execRetire m slot s
  | .stagingWriteVerified ok => Sys2Proof.Machine.execStagingWriteVerified ok s
  | .wordlineStripeProgrammed ok => Sys2Proof.Machine.execWordlineStripeProgrammed ok s
  | .flcRead m => Sys2Proof.Machine.execFlcRead m s
  | .flcProgram m => Sys2Proof.Machine.execFlcProgram m s
  | .flcErase m => Sys2Proof.Machine.execFlcErase m s
  | .flcClaim m => Sys2Proof.Machine.execFlcClaim m s
  | .flcReturn m => Sys2Proof.Machine.execFlcReturn m s
  | .flashOpDone ok => Sys2Proof.Machine.execFlashOpDone ok s
  | .codeWindowFetch core addr => Sys2Proof.Machine.execCodeWindowFetch core addr s
  | .cwMapWrite m v => Sys2Proof.Machine.execCwMapWrite m v s
  | .nandDieFailed die => Sys2Proof.Machine.execNandDieFailed die s
  | .kdeLockRead m => Sys2Proof.Machine.execKdeLockRead m s
  | .kdeLockRelease m => Sys2Proof.Machine.execKdeLockRelease m s
  | .kdeStart m => Sys2Proof.Machine.execKdeStart m s
  | .kdeFeed m => Sys2Proof.Machine.execKdeFeed m s
  | .kdeSegmentDone outcome => Sys2Proof.Machine.execKdeSegmentDone outcome s
  | .kdeSave m => Sys2Proof.Machine.execKdeSave m s
  | .kdeRestore m => Sys2Proof.Machine.execKdeRestore m s
  | .kdeAbort m => Sys2Proof.Machine.execKdeAbort m s
  | .kdeClear m => Sys2Proof.Machine.execKdeClear m s
  | .maeLockRead m => Sys2Proof.Machine.execMaeLockRead m s
  | .maeLockRelease m => Sys2Proof.Machine.execMaeLockRelease m s
  | .maeStart m => Sys2Proof.Machine.execMaeStart m s
  | .maeAbort m => Sys2Proof.Machine.execMaeAbort m s
  | .maeClear m => Sys2Proof.Machine.execMaeClear m s
  | .maeWipeDone => Sys2Proof.Machine.execMaeWipeDone s
  | .maeJobDone outcome => Sys2Proof.Machine.execMaeJobDone outcome s
  | .maeSlockRead m => Sys2Proof.Machine.execMaeSlockRead m s
  | .maeSlockRelease m => Sys2Proof.Machine.execMaeSlockRelease m s
  | .maeShortStart m v => Sys2Proof.Machine.execMaeShortStart m v s
  | .maeYieldPoint => Sys2Proof.Machine.execMaeYieldPoint s
  | .maeBtrRequest => Sys2Proof.Machine.execMaeBtrRequest s
  | .lsuQpush m addr => Sys2Proof.Machine.execLsuQpush m addr s
  | .laneJobStart lane => Sys2Proof.Machine.execLaneJobStart lane s
  | .laneJobDone lane outcome => Sys2Proof.Machine.execLaneJobDone lane outcome s
  | .lsuFlush m => Sys2Proof.Machine.execLsuFlush m s
  | .lsuFence m bits => Sys2Proof.Machine.execLsuFence m bits s
  | .laneSelfTest lane pass => Sys2Proof.Machine.execLaneSelfTest lane pass s
  | .entBiasDone => Sys2Proof.Machine.execEntBiasDone s
  | .entBlockTested block => Sys2Proof.Machine.execEntBlockTested block s
  | .entDataRead m => Sys2Proof.Machine.execEntDataRead m s
  | .add iss rd ra rb => Sys2Proof.Machine.execAdd iss rd ra rb s
  | .sub iss rd ra rb => Sys2Proof.Machine.execSub iss rd ra rb s
  | .and iss rd ra rb => Sys2Proof.Machine.execAnd iss rd ra rb s
  | .or iss rd ra rb => Sys2Proof.Machine.execOr iss rd ra rb s
  | .xor iss rd ra rb => Sys2Proof.Machine.execXor iss rd ra rb s
  | .andn iss rd ra rb => Sys2Proof.Machine.execAndn iss rd ra rb s
  | .shl iss rd ra rb => Sys2Proof.Machine.execShl iss rd ra rb s
  | .shr iss rd ra rb => Sys2Proof.Machine.execShr iss rd ra rb s
  | .sar iss rd ra rb => Sys2Proof.Machine.execSar iss rd ra rb s
  | .rol iss rd ra rb => Sys2Proof.Machine.execRol iss rd ra rb s
  | .ror iss rd ra rb => Sys2Proof.Machine.execRor iss rd ra rb s
  | .mul iss rd ra rb => Sys2Proof.Machine.execMul iss rd ra rb s
  | .mulh iss rd ra rb => Sys2Proof.Machine.execMulh iss rd ra rb s
  | .mulhu iss rd ra rb => Sys2Proof.Machine.execMulhu iss rd ra rb s
  | .divu iss rd ra rb => Sys2Proof.Machine.execDivu iss rd ra rb s
  | .remu iss rd ra rb => Sys2Proof.Machine.execRemu iss rd ra rb s
  | .clz iss rd ra => Sys2Proof.Machine.execClz iss rd ra s
  | .popc iss rd ra => Sys2Proof.Machine.execPopc iss rd ra s
  | .addc iss rd ra rb => Sys2Proof.Machine.execAddc iss rd ra rb s
  | .subb iss rd ra rb => Sys2Proof.Machine.execSubb iss rd ra rb s
  | .addi iss rd ra imm => Sys2Proof.Machine.execAddi iss rd ra imm s
  | .andi iss rd ra imm => Sys2Proof.Machine.execAndi iss rd ra imm s
  | .ori iss rd ra imm => Sys2Proof.Machine.execOri iss rd ra imm s
  | .xori iss rd ra imm => Sys2Proof.Machine.execXori iss rd ra imm s
  | .shli iss rd ra amt => Sys2Proof.Machine.execShli iss rd ra amt s
  | .shri iss rd ra amt => Sys2Proof.Machine.execShri iss rd ra amt s
  | .sari iss rd ra amt => Sys2Proof.Machine.execSari iss rd ra amt s
  | .roli iss rd ra amt => Sys2Proof.Machine.execRoli iss rd ra amt s
  | .rori iss rd ra amt => Sys2Proof.Machine.execRori iss rd ra amt s
  | .cmpeq iss pd pair ra rb => Sys2Proof.Machine.execCmpeq iss pd pair ra rb s
  | .cmpne iss pd pair ra rb => Sys2Proof.Machine.execCmpne iss pd pair ra rb s
  | .cmplt iss pd pair ra rb => Sys2Proof.Machine.execCmplt iss pd pair ra rb s
  | .cmpltu iss pd pair ra rb => Sys2Proof.Machine.execCmpltu iss pd pair ra rb s
  | .cmpge iss pd pair ra rb => Sys2Proof.Machine.execCmpge iss pd pair ra rb s
  | .cmpgeu iss pd pair ra rb => Sys2Proof.Machine.execCmpgeu iss pd pair ra rb s
  | .cmptst iss pd pair ra rb => Sys2Proof.Machine.execCmptst iss pd pair ra rb s
  | .cmpieq iss pd pair ra imm => Sys2Proof.Machine.execCmpieq iss pd pair ra imm s
  | .cmpine iss pd pair ra imm => Sys2Proof.Machine.execCmpine iss pd pair ra imm s
  | .cmpilt iss pd pair ra imm => Sys2Proof.Machine.execCmpilt iss pd pair ra imm s
  | .cmpiltu iss pd pair ra imm => Sys2Proof.Machine.execCmpiltu iss pd pair ra imm s
  | .cmpige iss pd pair ra imm => Sys2Proof.Machine.execCmpige iss pd pair ra imm s
  | .cmpigeu iss pd pair ra imm => Sys2Proof.Machine.execCmpigeu iss pd pair ra imm s
  | .cmpitst iss pd pair ra imm => Sys2Proof.Machine.execCmpitst iss pd pair ra imm s
  | .pand iss pd pa pb => Sys2Proof.Machine.execPand iss pd pa pb s
  | .por iss pd pa pb => Sys2Proof.Machine.execPor iss pd pa pb s
  | .pxor iss pd pa pb => Sys2Proof.Machine.execPxor iss pd pa pb s
  | .pandn iss pd pa pb => Sys2Proof.Machine.execPandn iss pd pa pb s
  | .pnot iss pd pa => Sys2Proof.Machine.execPnot iss pd pa s
  | .pset iss pd => Sys2Proof.Machine.execPset iss pd s
  | .pclr iss pd => Sys2Proof.Machine.execPclr iss pd s
  | .ldb iss rd ra imm => Sys2Proof.Machine.execLdb iss rd ra imm s
  | .ldbu iss rd ra imm => Sys2Proof.Machine.execLdbu iss rd ra imm s
  | .ldh iss rd ra imm => Sys2Proof.Machine.execLdh iss rd ra imm s
  | .ldhu iss rd ra imm => Sys2Proof.Machine.execLdhu iss rd ra imm s
  | .ldw iss rd ra imm => Sys2Proof.Machine.execLdw iss rd ra imm s
  | .stb iss rs ra imm => Sys2Proof.Machine.execStb iss rs ra imm s
  | .sth iss rs ra imm => Sys2Proof.Machine.execSth iss rs ra imm s
  | .stw iss rs ra imm => Sys2Proof.Machine.execStw iss rs ra imm s
  | .br iss off => Sys2Proof.Machine.execBr iss off s
  | .call iss off => Sys2Proof.Machine.execCall iss off s
  | .jr iss ra => Sys2Proof.Machine.execJr iss ra s
  | .callr iss ra => Sys2Proof.Machine.execCallr iss ra s
  | .ret iss => Sys2Proof.Machine.execRet iss s
  | .loop iss wc len => Sys2Proof.Machine.execLoop iss wc len s
  | .lbreak iss => Sys2Proof.Machine.execLbreak iss s
  | .syscall iss code => Sys2Proof.Machine.execSyscall iss code s
  | .wcall iss code => Sys2Proof.Machine.execWcall iss code s
  | .retx iss => Sys2Proof.Machine.execRetx iss s
  | .waitf iss rd => Sys2Proof.Machine.execWaitf iss rd s
  | .waitfWake core => Sys2Proof.Machine.execWaitfWake core s
  | .sigf iss mask => Sys2Proof.Machine.execSigf iss mask s
  | .waitt iss pd ra => Sys2Proof.Machine.execWaitt iss pd ra s
  | .waittComplete core => Sys2Proof.Machine.execWaittComplete core s
  | .bar iss => Sys2Proof.Machine.execBar iss s
  | .mfs iss rd spec => Sys2Proof.Machine.execMfs iss rd spec s
  | .mts iss spec ra => Sys2Proof.Machine.execMts iss spec ra s
  | .rstopPop iss rd => Sys2Proof.Machine.execRstopPop iss rd s
  | .rstopPush iss ra => Sys2Proof.Machine.execRstopPush iss ra s
  | .xregRead iss rd => Sys2Proof.Machine.execXregRead iss rd s
  | .xregWrite iss ra => Sys2Proof.Machine.execXregWrite iss ra s
  | .bkpt iss => Sys2Proof.Machine.execBkpt iss s
  | .li iss rd imm => Sys2Proof.Machine.execLi iss rd imm s
  | .addl iss rd ra imm => Sys2Proof.Machine.execAddl iss rd ra imm s
  | .andl iss rd ra imm => Sys2Proof.Machine.execAndl iss rd ra imm s
  | .orl iss rd ra imm => Sys2Proof.Machine.execOrl iss rd ra imm s
  | .xorl iss rd ra imm => Sys2Proof.Machine.execXorl iss rd ra imm s
  | .calla iss imm => Sys2Proof.Machine.execCalla iss imm s
  | .bra iss imm => Sys2Proof.Machine.execBra iss imm s
  | .bcopy iss wd ws wn => Sys2Proof.Machine.execBcopy iss wd ws wn s
  | .bzero iss wd wn => Sys2Proof.Machine.execBzero iss wd wn s
  | .cteq iss pd wa wb wn => Sys2Proof.Machine.execCteq iss pd wa wb wn s
  | .illegalInstruction core => Sys2Proof.Machine.execIllegalInstruction core s
  | .interruptTaken core => Sys2Proof.Machine.execInterruptTaken core s
  | .mbxClaimRead m n => Sys2Proof.Machine.execMbxClaimRead m n s
  | .mbxClaimFree m n => Sys2Proof.Machine.execMbxClaimFree m n s
  | .mbxPost m n v => Sys2Proof.Machine.execMbxPost m n v s
  | .mbxTake m n => Sys2Proof.Machine.execMbxTake m n s
  | .mbxCfgWrite m n v => Sys2Proof.Machine.execMbxCfgWrite m n v s
  | .tabletRead m t => Sys2Proof.Machine.execTabletRead m t s
  | .tabletRelease m t => Sys2Proof.Machine.execTabletRelease m t s
  | .ilkCommit m => Sys2Proof.Machine.execIlkCommit m s
  | .ilkLoad m => Sys2Proof.Machine.execIlkLoad m s
  | .shadowCompare => Sys2Proof.Machine.execShadowCompare s
  | .debugAccess write addr v => Sys2Proof.Machine.execDebugAccess write addr v s
  | .dbgNonceRead m => Sys2Proof.Machine.execDbgNonceRead m s
  | .dbgCheck => Sys2Proof.Machine.execDbgCheck s
  | .dbgArm m arm => Sys2Proof.Machine.execDbgArm m arm s
  | .dbgSessionClose m => Sys2Proof.Machine.execDbgSessionClose m s
  | .debugSessionExpiry => Sys2Proof.Machine.execDebugSessionExpiry s
  | .linesideTrip src det => Sys2Proof.Machine.execLinesideTrip src det s
  | .detectorSplit src => Sys2Proof.Machine.execDetectorSplit src s
  | .stickyClear m n ones => Sys2Proof.Machine.execStickyClear m n ones s
  | .classWrite m n hi v => Sys2Proof.Machine.execClassWrite m n hi v s
  | .lsmTestStart m src det => Sys2Proof.Machine.execLsmTestStart m src det s
  | .lsmTestDone tripped => Sys2Proof.Machine.execLsmTestDone tripped s
  | .releaseArm m => Sys2Proof.Machine.execReleaseArm m s
  | .releaseCommit m => Sys2Proof.Machine.execReleaseCommit m s
  | .releaseAbort m => Sys2Proof.Machine.execReleaseAbort m s
  | .releaseWindowExpiry => Sys2Proof.Machine.execReleaseWindowExpiry s
  | .sourceDeassert src => Sys2Proof.Machine.execSourceDeassert src s
  | .cardInserted card => Sys2Proof.Machine.execCardInserted card s
  | .cardRemoved => Sys2Proof.Machine.execCardRemoved s
  | .cardFormatExport m => Sys2Proof.Machine.execCardFormatExport m s
  | .cardFormatBackup m => Sys2Proof.Machine.execCardFormatBackup m s
  | .cardFormatCredential m => Sys2Proof.Machine.execCardFormatCredential m s
  | .forceErase m => Sys2Proof.Machine.execForceErase m s
  | .forceEraseDone => Sys2Proof.Machine.execForceEraseDone s
  | .eject m => Sys2Proof.Machine.execEject m s
  | .cardUnitWritten ok => Sys2Proof.Machine.execCardUnitWritten ok s
  | .cardBusyTimeout => Sys2Proof.Machine.execCardBusyTimeout s
  | .selftest m answers => Sys2Proof.Machine.execSelftest m answers s
  | .selftestTimer answers => Sys2Proof.Machine.execSelftestTimer answers s
  | .badgeEnrol m tags => Sys2Proof.Machine.execBadgeEnrol m tags s
  | .stop m => Sys2Proof.Machine.execStop m s
  | .rebase m => Sys2Proof.Machine.execRebase m s
  | .ping gamma => Sys2Proof.Machine.execPing gamma s
  | .inventorySlot gamma o => Sys2Proof.Machine.execInventorySlot gamma o s
  | .badgeRound badges => Sys2Proof.Machine.execBadgeRound badges s
  | .select target action bank pointer mask => Sys2Proof.Machine.execSelect target action bank pointer mask s
  | .query sel session target q => Sys2Proof.Machine.execQuery sel session target q s
  | .queryRep session => Sys2Proof.Machine.execQueryRep session s
  | .queryAdjust session updn => Sys2Proof.Machine.execQueryAdjust session updn s
  | .ack rn => Sys2Proof.Machine.execAck rn s
  | .nak => Sys2Proof.Machine.execNak s
  | .reqRn rn => Sys2Proof.Machine.execReqRn rn s
  | .tagRead rn bank word count => Sys2Proof.Machine.execTagRead rn bank word count s
  | .tagWrite rn bank word v energy verifyOk => Sys2Proof.Machine.execTagWrite rn bank word v energy verifyOk s
  | .blockWrite rn bank word v energy verifyOk => Sys2Proof.Machine.execBlockWrite rn bank word v energy verifyOk s
  | .tagAccess rn half => Sys2Proof.Machine.execTagAccess rn half s
  | .tagLock rn => Sys2Proof.Machine.execTagLock rn s
  | .tagKill rn => Sys2Proof.Machine.execTagKill rn s
  | .unsupportedCommand rn => Sys2Proof.Machine.execUnsupportedCommand rn s
  | .tailLampUpdate m => Sys2Proof.Machine.execTailLampUpdate m s
  | .internalUpdateDone verifyOk => Sys2Proof.Machine.execInternalUpdateDone verifyOk s
  | .readerFieldArrival => Sys2Proof.Machine.execReaderFieldArrival s
  | .fieldCollapse => Sys2Proof.Machine.execFieldCollapse s
  | .sourceCapabilities pdos eprSource eprCable => Sys2Proof.Machine.execSourceCapabilities pdos eprSource eprCable s
  | .psRdy => Sys2Proof.Machine.execPsRdy s
  | .noCapabilities adv => Sys2Proof.Machine.execNoCapabilities adv s
  | .softReset => Sys2Proof.Machine.execSoftReset s
  | .hardReset => Sys2Proof.Machine.execHardReset s
  | .prSwap => Sys2Proof.Machine.execPrSwap s
  | .drSwap => Sys2Proof.Machine.execDrSwap s
  | .vconnSwap => Sys2Proof.Machine.execVconnSwap s
  | .frSwap => Sys2Proof.Machine.execFrSwap s
  | .disturbanceBegin mv => Sys2Proof.Machine.execDisturbanceBegin mv s
  | .disturbanceEnd length => Sys2Proof.Machine.execDisturbanceEnd length s
  | .lastGaspSeal => Sys2Proof.Machine.execLastGaspSeal s
  | .bankLow => Sys2Proof.Machine.execBankLow s
  | .lastGaspEnd supply duration => Sys2Proof.Machine.execLastGaspEnd supply duration s
  | .thermalCap temp => Sys2Proof.Machine.execThermalCap temp s
  | .thermalLift temp => Sys2Proof.Machine.execThermalLift temp s
  | .cellLow mv => Sys2Proof.Machine.execCellLow mv s
  | .vigilPowerLoss => Sys2Proof.Machine.execVigilPowerLoss s
  | .mainPowerOn cap cell => Sys2Proof.Machine.execMainPowerOn cap cell s
  | .bankCharged mv => Sys2Proof.Machine.execBankCharged mv s
  | .powerDieFailure => Sys2Proof.Machine.execPowerDieFailure s
  | .coresReleased tracksPass lanesPass fails => Sys2Proof.Machine.execCoresReleased tracksPass lanesPass fails s
  | .bootComplete => Sys2Proof.Machine.execBootComplete s
  | .modereqMaintenance m => Sys2Proof.Machine.execModereqMaintenance m s
  | .modereqCommissioning m key sig => Sys2Proof.Machine.execModereqCommissioning m key sig s
  | .modereqRunning m => Sys2Proof.Machine.execModereqRunning m s
  | .sysNonceRead m => Sys2Proof.Machine.execSysNonceRead m s
  | .imageCommit m => Sys2Proof.Machine.execImageCommit m s
  | .deadmanKick m n v => Sys2Proof.Machine.execDeadmanKick m n v s
  | .deadmanPrewarn n => Sys2Proof.Machine.execDeadmanPrewarn n s
  | .deadmanExpiry n => Sys2Proof.Machine.execDeadmanExpiry n s
  | .evtRouteWrite m src v => Sys2Proof.Machine.execEvtRouteWrite m src v s
  | .sstWrite m idx hi v => Sys2Proof.Machine.execSstWrite m idx hi v s
  | .sstPersisted => Sys2Proof.Machine.execSstPersisted s

end Sys2Proof.Machine
end

