-- ==== Sys2Proof/Machine/Idle.lean ====
section
/-! DEFINITION. What passes with one tick of the clock when no command waits (R180 to R182, R540; log entry 1). -/

namespace Sys2Proof.Machine

/-- Vigil counts up to a TTC value: 128 of them in 390,625 ticks (R181). -/
def countsAt (t : Nat) : Nat := t * 128 / 390625

/-- One millisecond passes for a running Deadman (R540). -/
def deadmanTick (s : State) (n : Nat) (d : Deadman) : Deadman :=
  let halted := ((s.cores[n]?).map (fun c => c.haltP || c.haltS)).getD false
  if bitR s (Reg.DMN_CTRL n) 16 && !halted then { d with left := d.left - 1 } else d

/-- One step of a pair's generator, x^32 + x^22 + x^2 + x + 1 (R440; the shift form is the model's, log entry 152). -/
def fenceNext (v : Word) : Word :=
  (v <<< 1) ||| BitVec.ofNat 32 (b2n ((bit v 31 != bit v 21) != (bit v 1 != bit v 0)))

/-- The pattern bit that a pair's generator drives onto one wire, its inverse going onto the other (R440). -/
def fenceBits (v : Word) : Bool × Bool := (bit v 31, !bit v 31)

/-- What detector A sees of a pair: the levels driven, but for a wire on which damage forces another. -/
def fenceSeen (v : Word) (f : Option Bool × Option Bool) : Bool × Bool :=
  (f.1.getD (fenceBits v).1, f.2.getD (fenceBits v).2)

/-- Pairs of which detector A finds a wire at a wrong level at this step (R441). -/
def fenceWrong (s : State) : List Nat :=
  (List.range 64).filter (fun p =>
    let v := s.vigil.fence.getD p 0
    decide (fenceSeen v (mget (none, none) s.vigil.forced p) ≠ fenceBits v))

/-- The Fence's generators take one step, and detector A compares every pair: a wrong level trips the source that covers the
pair (R438, R441). -/
def fenceStep (s : State) : State :=
  let s := { s with vigil := { s.vigil with fence := s.vigil.fence.map fenceNext } }
  let l := fenceWrong s
  if l.isEmpty then s else after (tripAll s (l.map (fun p => (p / 2, 1))))

/-- A millisecond boundary of the TTC. -/
def msTick (s : State) : State :=
  { s with deadmen := Vector.ofFn (fun n => deadmanTick s n.val s.deadmen[n]) }

/-- One tick: with main power the TTC advances and the vigil count with it; on the cell the vigil count runs by itself. The
Fence steps at 10 MHz with main power and at 64 Hz on the cell (R441). -/
def idleTick (s : State) : State :=
  if s.mode = .dark then s
  else if s.mode = .stabled then 
    let s := { s with vigil := { s.vigil with count := s.vigil.count + 1 } }
    if s.vigil.count.toNat % 512 = 0 then fenceStep s else s
  else
    let t := s.ttc.toNat
    let s := { s with
      ttc := s.ttc + 1,
      vigil := { s.vigil with count := s.vigil.count + BitVec.ofNat 48 (countsAt (t + 1) - countsAt t) } }
    let s := if (t + 1) % msTicks = 0 then msTick s else s
    if (t + 1) % 10 = 0 then fenceStep s else s

end Sys2Proof.Machine
end

