-- ==== Sys2Proof/WellFormed.lean ====
section
/-! DEFINITION. When a command is well formed: the byte strings that it carries have the lengths the spec gives them.
The meanings do not rest on it: they read a byte that is not there as zero. -/

namespace Sys2Proof

/-- Records are 16 bytes, at most 4,096 of them (R114). -/
def recordsOk (b : Bytes) : Bool := decide (b.length % 16 = 0 ∧ b.length ≤ 65536)

/-- A card header is 512 bytes and a unit 1 MiB (R463, R464). -/
def cardOk (c : CardImage) : Bool :=
  decide (c.failStep ≤ 8 ∧ c.cid.length = 16 ∧ c.hdr0.length = 512 ∧ c.hdr8.length = 512 ∧ c.bus ≠ 3) &&
    c.units.all (fun u => decide (u.length = 1048576))

/-- The length field of a PC word counts at most 31 words of EPC (R474). -/
def tagOk (t : TagObs) : Bool := decide (t.epc.length ≤ 62)

def slotOk : SlotObs → Bool
  | .empty => true
  | .collision _ => true
  | .tag t => tagOk t

/-- A 64-bit access is the host's, in Window A, and aligned (R49, R52). -/
def wideOk (m : Master) (addr : Word) (wide : Bool) : Bool :=
  !wide || (decide (m = 31) && decide (addr.toNat % 8 = 0) && decide (0x40160000 ≤ addr.toNat ∧ addr.toNat ≤ 0x4016FFFF))

def readOk (target : ReadAt) (wide : Bool) : Bool :=
  match target with
  | .fabric m addr => wideOk m addr wide
  | .windowB _ => true
  | .windowC off => decide (off.toNat % (if wide then 8 else 4) = 0)

/-- The check, by constructor. -/
def Instr.wellFormed : Instr → Bool
  | .bulkWaybill w _ => decide (w.length = 64)
  | .dmaCopyEnd _ data _ => decide (data.length ≤ 16777216)
  | .admission _ entry => decide (entry.length = 64)
  | .entryReadRetry _ entry => decide (entry.length = 64)
  | .fillComplete _ slot => decide (slot.length = 144)
  | .tagConsist _ records => recordsOk records
  | .tagRecords _ records => recordsOk records
  | .verifyConsist _ records => recordsOk records
  | .verifyRecords _ records expected => recordsOk records && decide (expected.length ≤ 65568)
  | .sign _ _ msg => decide (msg.length ≤ 1048576)
  | .verifySig _ _ msg _ => decide (msg.length ≤ 1048576)
  | .relay _ _ block => decide (block.length ≤ 1408)
  | .imageLoad _ _ chunk => decide (chunk.length ≤ 1048576)
  | .consistFetched _ records => recordsOk records
  | .consistAbsorbed _ expected => decide (expected.length ≤ 65568)
  | .codeWindowFetch _ addr => decide (addr &&& 3 = 0)
  | .entBlockTested block => decide (block.length = 128)
  | .cardInserted card => cardOk card
  | .selftest _ answers => answers.seen.all tagOk
  | .selftestTimer answers => answers.seen.all tagOk
  | .badgeEnrol _ tags => tags.seen.all (fun t => decide (t.tid.length ≤ 12 ∧ (t.refusedAt = 0 ∨ 2 ≤ t.refusedAt ∧ t.refusedAt ≤ 5)))
  | .inventorySlot _ o => slotOk o
  | .badgeRound badges => badges.seen.all (fun b => decide (b.tid.length ≤ 12 ∧ b.user.length ≤ 32))
  | .select _ _ _ _ mask => decide (mask.bits.length ≤ 255)
  | .tagRead _ _ _ count => decide (count ≤ 255)
  | .blockWrite _ _ _ v _ _ => decide (v.length ≤ 255)
  | .modereqCommissioning _ key sig => decide (key.length = 1793 ∧ sig.length = 1280)
  | .registerWrite m addr v => wideOk m addr v.high.isSome
  | .rcRead target wide => readOk target wide
  | .fabricReadTimeout .. | .lowHalfRead .. | .clkMeasSelect .. | .clkMeasDone ..
  | .linkUp .. | .linkLoss .. | .linkRetrain .. | .graceExpiry .. | .hotReset .. | .flr .. | .deviceReset ..
  | .setupBaseWrite .. | .controlLineOpen .. | .controlLineClose .. | .windowCWrite .. | .evtPendClear ..
  | .msixUnmask .. | .hostCompletionTimeout .. | .hostReadError .. | .statusRequest .. | .dmaStart ..
  | .dmaAbort .. | .doorbell .. | .spillDeparted .. | .indexMirrorWrite .. | .mark .. | .fence .. | .lineOpen ..
  | .linePause .. | .linePauseComplete .. | .lineClose .. | .kemEncaps .. | .kemDecaps .. | .derive .. | .prove ..
  | .manifestRead .. | .logExport .. | .attest .. | .timeHint .. | .cardExport .. | .lookoutInventory ..
  | .lineKeyDerived .. | .keyWaitTimeout .. | .trackSelfTest .. | .trackFence .. | .creditAccount ..
  | .vigilCountRewrite .. | .ttcAdvance .. | .tcxoFailure .. | .epochClose .. | .rootFrozen .. | .manifestSigned ..
  | .manifestStored .. | .treeRebuildDone .. | .stationStale .. | .btrDerive .. | .installEncaps ..
  | .installDecaps .. | .invalidate .. | .purge .. | .rotate .. | .trunkCreate .. | .trunkZeroise .. | .backup ..
  | .rescue .. | .release .. | .btrImport .. | .btrCommandDone .. | .tableRebuildDone .. | .retire ..
  | .stagingWriteVerified .. | .wordlineStripeProgrammed .. | .flcRead .. | .flcProgram .. | .flcErase ..
  | .flcClaim .. | .flcReturn .. | .flashOpDone .. | .cwMapWrite .. | .nandDieFailed .. | .kdeLockRead ..
  | .kdeLockRelease .. | .kdeStart .. | .kdeFeed .. | .kdeSegmentDone .. | .kdeSave .. | .kdeRestore ..
  | .kdeAbort .. | .kdeClear .. | .maeLockRead .. | .maeLockRelease .. | .maeStart .. | .maeAbort .. | .maeClear ..
  | .maeWipeDone .. | .maeJobDone .. | .maeSlockRead .. | .maeSlockRelease .. | .maeShortStart ..
  | .maeYieldPoint .. | .maeBtrRequest .. | .lsuQpush .. | .laneJobStart .. | .laneJobDone .. | .lsuFlush ..
  | .lsuFence .. | .laneSelfTest .. | .entBiasDone .. | .entDataRead .. | .add .. | .sub .. | .and .. | .or ..
  | .xor .. | .andn .. | .shl .. | .shr .. | .sar .. | .rol .. | .ror .. | .mul .. | .mulh .. | .mulhu ..
  | .divu .. | .remu .. | .clz .. | .popc .. | .addc .. | .subb .. | .addi .. | .andi .. | .ori .. | .xori ..
  | .shli .. | .shri .. | .sari .. | .roli .. | .rori .. | .cmpeq .. | .cmpne .. | .cmplt .. | .cmpltu ..
  | .cmpge .. | .cmpgeu .. | .cmptst .. | .cmpieq .. | .cmpine .. | .cmpilt .. | .cmpiltu .. | .cmpige ..
  | .cmpigeu .. | .cmpitst .. | .pand .. | .por .. | .pxor .. | .pandn .. | .pnot .. | .pset .. | .pclr ..
  | .ldb .. | .ldbu .. | .ldh .. | .ldhu .. | .ldw .. | .stb .. | .sth .. | .stw .. | .br .. | .call .. | .jr ..
  | .callr .. | .ret .. | .loop .. | .lbreak .. | .syscall .. | .wcall .. | .retx .. | .waitf .. | .waitfWake ..
  | .sigf .. | .waitt .. | .waittComplete .. | .bar .. | .mfs .. | .mts .. | .rstopPop .. | .rstopPush ..
  | .xregRead .. | .xregWrite .. | .bkpt .. | .li .. | .addl .. | .andl .. | .orl .. | .xorl .. | .calla ..
  | .bra .. | .bcopy .. | .bzero .. | .cteq .. | .illegalInstruction .. | .interruptTaken .. | .mbxClaimRead ..
  | .mbxClaimFree .. | .mbxPost .. | .mbxTake .. | .mbxCfgWrite .. | .tabletRead .. | .tabletRelease ..
  | .ilkCommit .. | .ilkLoad .. | .shadowCompare .. | .debugAccess .. | .dbgNonceRead .. | .dbgCheck ..
  | .dbgArm .. | .dbgSessionClose .. | .debugSessionExpiry .. | .linesideTrip .. | .detectorSplit ..
  | .stickyClear .. | .classWrite .. | .lsmTestStart .. | .lsmTestDone .. | .releaseArm .. | .releaseCommit ..
  | .releaseAbort .. | .releaseWindowExpiry .. | .sourceDeassert .. | .cardRemoved .. | .cardFormatExport ..
  | .cardFormatBackup .. | .cardFormatCredential .. | .forceErase .. | .forceEraseDone .. | .eject ..
  | .cardUnitWritten .. | .cardBusyTimeout .. | .stop .. | .rebase .. | .ping .. | .query .. | .queryRep ..
  | .queryAdjust .. | .ack .. | .nak .. | .reqRn .. | .tagWrite .. | .tagAccess .. | .tagLock .. | .tagKill ..
  | .unsupportedCommand .. | .tailLampUpdate .. | .internalUpdateDone .. | .readerFieldArrival ..
  | .fieldCollapse .. | .sourceCapabilities .. | .psRdy .. | .noCapabilities .. | .softReset .. | .hardReset ..
  | .prSwap .. | .drSwap .. | .vconnSwap .. | .frSwap .. | .disturbanceBegin .. | .disturbanceEnd ..
  | .lastGaspSeal .. | .bankLow .. | .lastGaspEnd .. | .thermalCap .. | .thermalLift .. | .cellLow ..
  | .vigilPowerLoss .. | .mainPowerOn .. | .bankCharged .. | .powerDieFailure .. | .coresReleased ..
  | .bootComplete .. | .modereqMaintenance .. | .modereqRunning .. | .sysNonceRead .. | .imageCommit ..
  | .deadmanKick .. | .deadmanPrewarn .. | .deadmanExpiry .. | .evtRouteWrite .. | .sstWrite .. | .sstPersisted .. => true

end Sys2Proof
end

