-- ==== Sys2Proof/Safety.lean ====
section
/-! DEFINITION. The terms that claims are stated in: where a command leads, what it leaves alone, which events it raises,
and the invariants of a run. -/

namespace Sys2Proof.Machine

/-! ### Where a command leads -/

/-- A command answers a next state, of which `P` holds. -/
def Leads (c : Instr) (s : State) (P : State → Prop) : Prop := ∃ t, exec c s = .next t ∧ P t

/-- Between two commands nothing of the last one is left to do: no Lineside trip and no track's fence is due, a device in Running
or Caution has an unfenced track, and no export of the maintenance path and no rise of the export mark waits to be carried out
(R175, R178, R282, R288, R443). -/
def Quiet (s : State) : Prop :=
  s.tripsDue = [] ∧ fenceDue s = false ∧ (sealing s = true → unfenced s ≠ []) ∧ usbDue s = false ∧ s.log.raised = false

/-- No seal mismatch stands in memory, a register, a context or a block's private memory (R24). -/
def SealsWhole (s : State) : Prop := s.badCells = [] ∧ s.badPrivate = []

/-- Nothing waits for a waybill in flight: no track's fence, no export of the maintenance path (R175, R282). -/
def NothingPends (s : State) : Prop :=
  Quiet s ∧ s.hlk.usbWait = [] ∧ ∀ i, i < 8 → (trackAt s i).dense = false ∧ (trackAt s i).fencing = false

/-- A master's write of a register reaches it: main power is on, the routes permit it, the host's gate of R53 is open, and the
register's cell holds no seal mismatch (R25, R53, R416). -/
def MayWrite (s : State) (m : Master) (a : Nat) : Prop :=
  mainPower s = true ∧ permits s m .write a = true ∧ hostHeld s m a = false ∧ regBad s a = false

/-- A master's read of a register reaches it (R24, R53, R416, R572). -/
def MayRead (s : State) (m : Master) (a : Nat) : Prop :=
  mainPower s = true ∧ permits s m .read a = true ∧ hostHeld s m a = false ∧ limitedView m a = false ∧ regBad s a = false

/-- `n` bytes of plain memory that a master may read, and that hold no seal mismatch (R24, R28, R416). -/
def PlainRead (s : State) (m : Master) (a n : Nat) : Prop :=
  meetsSpecial a n = false ∧ ∀ x ∈ partRanges a n,
    mapped x.1 = true ∧ permits s m .read x.1 = true ∧ badCell? s x.1 x.2 = none

/-- `n` bytes of plain memory that a master may write, where no cell written in part holds a seal mismatch (R25, R28, R322,
R416). -/
def PlainWrite (s : State) (m : Master) (a n : Nat) : Prop :=
  meetsSpecial a n = false ∧ ∀ x ∈ partRanges a n,
    mapped x.1 = true ∧ permits s m .write x.1 = true ∧ badPartial? s x.1 x.2 = none ∧ isRam x.1 = true ∧
    opRamClosed s m x.1 x.2 = false

/-! ### Frames -/

/-- The parts of the state that raising events may change, taken from `t`: pending bits, the trace, vectors pended or sent
(R548 to R551, R571). -/
def withEvents (s t : State) : State :=
  { s with evtPend := t.evtPend, trace := t.trace, traceWrapped := t.traceWrapped, traceHead := t.traceHead,
           hlk := { s.hlk with pend := t.hlk.pend }, ports := { s.ports with hostOut := t.ports.hostOut } }

/-- Every register of the bank but the named ones reads as before. -/
def SameRegs (s t : State) (but : List Nat) : Prop := ∀ a, a ∉ but → getR t a = getR s a

/-- Exactly the named sources were raised: their pending bits are set, every other stays, and nothing went to the host but
messages. -/
def Raises (s t : State) (l : List Nat) : Prop :=
  (∀ k, k < 1024 → isPending t k = (isPending s k || l.contains k)) ∧
    ∃ v : List (BitVec 11), t.ports.hostOut = s.ports.hostOut ++ v.map HostWrite.msix

/-- A command of registers and events: nothing changed but the named registers and what the named events change. -/
def OnlyRegs (s t : State) (regs events : List Nat) : Prop :=
  t = withEvents { s with regs := t.regs } t ∧ SameRegs s t regs ∧ Raises s t events

/-! ### Completions -/

/-- The waybill `f` stands at a position of a line whose record holds no seal mismatch (R86), is in firmware's or the Hump's
hands, and is the one its name finds. -/
def WaybillAt (s : State) (l pos op : Nat) (f : Flight) : Prop :=
  flightAt s l pos op = some f ∧ flight? s l f.id = some f ∧ recordBad s l = false

/-- Where the next completion record of a line goes (R82, R87). -/
def nextDownEntry (r : Line) : DWord := r.dnBase + BitVec.ofNat 64 (64 * (r.dnTail % 2 ^ r.dnLog2))

/-- A waybill of a line was answered over a trained link: its output data, then its completion record at the Down tail,
which advances; the waybill is no longer in flight, and the line group's event is raised (R51, R100, R134). Each write goes out
in requests of the function's payload (R48). -/
def Answered (s t : State) (l : Nat) (f : Flight) (outs : List (DWord × Bytes)) (status flags seq : Nat) (result : Bytes) :
    Prop :=
  (∃ pre rest : List HostWrite, (∀ w ∈ pre, ∃ v, w = HostWrite.msix v) ∧
    t.ports.hostOut = s.ports.hostOut ++ pre ++ outs.flatMap (fun e => packets e.1 e.2) ++
      packets (nextDownEntry (getLine s l)) (completionRecord f.raw status (flags + gaspFlag f.gasp) seq
        f.admitTtc.toNat (epochOf s f.admitTtc.toNat) result) ++ rest) ∧
  (getLine t l).dnTail = bump (getLine s l).dnLog2 (getLine s l).dnTail ∧
  (getLine t l).flights = (getLine s l).flights.filter (fun g => !decide (g.id = f.id)) ∧
  isPending t (512 + l / 1024) = true

/-- A service waybill on a line whose context is in the cache and holds no seal mismatch, over a trained link. -/
def ServiceAt (s : State) (l pos op : Nat) (f : Flight) (c : Context) : Prop :=
  WaybillAt s l pos op f ∧ l ≠ 0 ∧ l < 2 ^ 19 ∧ ctx? s l = some c ∧ ctxBad s l = false ∧ s.hlk.up = true ∧ Quiet s

/-- A record was handed to staging (R275, R278). -/
def Recorded (s t : State) (typ : Byte) (body : Bytes) : Prop :=
  t.log.staging = s.log.staging ++ [{ frames := framesOf s typ body, delta := [], manifest := false, ckpt := none }]

/-! ### Invariants of a run -/

/-- Memory in its one canonical form: addresses rise strictly and no entry is the zero that an unlisted address reads as. -/
def Memory.wf (m : List Host.Cell) : Bool := mwfD (fun _ => (0 : Byte)) m

/-- The register file of a world: w0 reads 0, p0 reads 1, PC and VBASE are word addresses, and at most 24 return addresses
are held (R360, R392). -/
def World.ok (w : World) : Prop :=
  w.w[0] = 0 ∧ w.p.getLsbD 0 = true ∧ w.pc.toNat % 4 = 0 ∧ w.vbase.toNat % 4 = 0 ∧ w.rstack.length ≤ 24

/-- Every core world is as R360 has it. -/
def CoresOk (s : State) : Prop := ∀ c ∈ s.cores.toList, c.plat.ok ∧ c.sig.ok

end Sys2Proof.Machine
end

