-- ==== Sys2Proof/Certificates/Slice0/Obligations.lean ====
section
/-! DEFINITION. The statements for the provers. Each `Leads c s P` says that the command completes with a next state and
what that state holds; the hypotheses speak of the state and the operands alone. -/

open Sys2Proof Sys2Proof.Machine

/-! ### The host link -/

/-- A line after the end of a host session (R65, R88, R107): OPEN and PAUSED lines are PAUSED with the halt flag 0, a FAULTED
line stays FAULTED; their indices are 0, an index-table entry pends where the Up head or the Down tail changed, and nothing is
in flight. -/
def Sys2Proof.Machine.SessionEnded (s t : State) : Prop :=
  sessionOn t = false ∧ clOpen t = false ∧ t.hlk.held = [] ∧ t.hlk.grace = false ∧ isPending t 18 = true ∧
  ∀ l, l ≠ 0 → (getLine s l).state ≠ .closed →
    (getLine t l).state = (if (getLine s l).state = .faulted then .faulted else .paused) ∧
    ((getLine s l).state ≠ .faulted → (getLine t l).halt = false) ∧ (getLine t l).flights = [] ∧
    (getLine t l).upTail = 0 ∧ (getLine t l).upHead = 0 ∧ (getLine t l).dnTail = 0 ∧ (getLine t l).dnHead = 0 ∧
    (getLine t l).mirror = ((getLine s l).mirror ||
      (mirrorOn s && !decide ((getLine s l).upHead = 0 ∧ (getLine s l).dnTail = 0)))

/-- Each held completion is that of a formed waybill of a line whose record holds no seal mismatch, and none of them raises the
export mark (R64, R86, R282). -/
def Sys2Proof.Machine.HeldPlain (s : State) : Prop :=
  ∀ h ∈ s.hlk.held, recordBad s h.line = false ∧ ∀ f, flight? s h.line h.id = some f → f.phase = .formed ∧ f.advance = 0

/-- A trained link (R45, R65, R571): event 16, nothing held, no unmasked vector left pending. -/
def Sys2Proof.Machine.LinkTrained (s t : State) (cfg : BitVec 2) : Prop :=
  t.hlk.up = true ∧ t.hlk.grace = false ∧ t.hlk.held = [] ∧ t.hlk.mask = s.hlk.mask ∧ t.hlk.pend &&& ~~~t.hlk.mask = 0 ∧
  isPending t 16 = true ∧ fieldR t Reg.HLK_STATUS 6 2 = cfg.toNat ∧ SameRegs s t [Reg.HLK_STATUS] ∧
  (∃ w, t.ports.hostOut = s.ports.hostOut ++ w) ∧
  t = withEvents { s with regs := t.regs, hlk := t.hlk, lne := t.lne } t

/-- LINK_UP, LINK_RETRAIN (R65): the link trains when it may; a retrain within the grace period keeps the session; with the
fuse check failed it does not train (R428). -/
def Sys2Proof.Claims.LinkTrains : Prop :=
  (∀ s cfg, Quiet s → HeldPlain s → s.hlk.up = false → mainPower s = true → s.fusesOk = true → 27000 ≤ s.power.contractMw →
    Leads (.linkUp cfg) s (fun t => LinkTrained s t cfg)) ∧
  (∀ s cfg, Quiet s → HeldPlain s → s.hlk.up = false → s.hlk.grace = true → mainPower s = true → s.fusesOk = true →
    27000 ≤ s.power.contractMw →
    Leads (.linkRetrain cfg) s (fun t => LinkTrained s t cfg ∧ sessionOn t = sessionOn s)) ∧
  (∀ s cfg, Quiet s → s.hlk.up = false → s.fusesOk = false → Leads (.linkUp cfg) s (fun t => t = s))

/-- LINK_LOSS (R64), GRACE_EXPIRY, HOT_RESET (R65). -/
def Sys2Proof.Claims.LinkLossEndsSession : Prop :=
  (∀ s, s.hlk.up = true → Leads .linkLoss s (fun t =>
    t.hlk.up = false ∧ t.hlk.grace = sessionOn s ∧ t.hlk.held = s.hlk.held ∧ t.hlk.mask = s.hlk.mask ∧
    getR t Reg.HLK_ERR = getR s Reg.HLK_ERR ||| 0x100 ∧ SameRegs s t [Reg.HLK_ERR] ∧ Raises s t [17] ∧
    t.ports.hostOut = s.ports.hostOut ∧ t = withEvents { s with regs := t.regs, hlk := t.hlk } t)) ∧
  (∀ s, NothingPends s → s.hlk.up = false → s.hlk.grace = true → Leads .graceExpiry s (fun t =>
    SessionEnded s t ∧ SameRegs s t [Reg.HLK_STATUS, Reg.HLK_CL_CONFIG] ∧
    t = withEvents { s with regs := t.regs, hlk := t.hlk, lne := t.lne, tracks := t.tracks } t)) ∧
  (∀ s, NothingPends s → s.hlk.up = true → sessionOn s = true → Leads .hotReset s (fun t =>
    SessionEnded s t ∧ t.hlk.mask = BitVec.allOnes 2048 ∧ t.hlk.up = true ∧
    SameRegs s t [Reg.HLK_STATUS, Reg.HLK_CL_CONFIG] ∧
    t = withEvents { s with regs := t.regs, hlk := t.hlk, lne := t.lne, tracks := t.tracks } t))

/-- FLR, DEVICE_RESET (R66, R108, R525): every line is CLOSED, the cores are held in reset, memory is zero, the device
boots from Shed, and the link stays trained. No seal is under way; from Running and Caution the early seal of R204 comes
first. -/
def Sys2Proof.Machine.ResetDone (s t : State) : Prop :=
  t.mode = .shed ∧ t.booted = false ∧ t.coresRun = false ∧ t.cores = Vector.replicate 4 Core.reset ∧ t.mem = [] ∧
  t.lne.lines = [] ∧ t.branches = [] ∧ t.keyCache = [] ∧ t.mailboxes = State.reset.mailboxes ∧ t.tablets = State.reset.tablets ∧
  t.routes = Route.resetTable ∧ t.ttc = s.ttc ∧ t.hlk.up = s.hlk.up ∧ fieldR t Reg.DMN_CAUSE 0 8 = causeRequested ∧
  t.vigil.boots = s.vigil.boots + 1 ∧ t.vigil.sticky = s.vigil.sticky ∧ t.vigil.trunk = s.vigil.trunk ∧
  t.vigil.trunkKey = s.vigil.trunkKey ∧ t.fusesOk = s.fusesOk ∧ t.pending = s.pending

/-- FLR, DEVICE_RESET (R66, R108, R525): what a requested reset leaves, where the vigil cells that it reads hold no seal mismatch;
with the fuse check failed the host is not served (R428). -/
def Sys2Proof.Claims.RequestedResetClears : Prop :=
  (∀ s, mainPower s = true → s.fusesOk = true → s.power.lastGasp = false → resetFault s = false → Leads .flr s (ResetDone s)) ∧
  (∀ s m, MayWrite s m Reg.HLK_CONTROL → s.power.lastGasp = false → resetFault s = false →
    Leads (.deviceReset m) s (ResetDone s)) ∧
  (∀ s, Quiet s → s.fusesOk = false → Leads .flr s (fun t => t = s))

/-- SETUP_BASE_WRITE (R54), CONTROL_LINE_OPEN, CONTROL_LINE_CLOSE (R55), WINDOW_C_WRITE (R58): the set-up page. Model choices
in it: log entries 62, 70, 117. -/
def Obligations.SetupPage : Prop :=
  (∀ s m r h v, MayWrite s m (halfAddr (setupAddr r) h) → setupLocked s r = false →
    Leads (.setupBaseWrite m r h v) s (fun t =>
      getR64 t (setupAddr r) = writeHalf (getR64 s (setupAddr r)) h v &&& ~~~(0xFFF#64) ∧
      OnlyRegs s t [setupAddr r, setupAddr r + 4] [])) ∧
  (∀ s m r h v, MayWrite s m (halfAddr (setupAddr r) h) → setupLocked s r = true →
    Leads (.setupBaseWrite m r h v) s (fun t =>
      getR t Reg.HLK_ERR = getR s Reg.HLK_ERR ||| 8 ∧ OnlyRegs s t [Reg.HLK_ERR] [])) ∧
  (∀ s m v, MayWrite s m Reg.HLK_CL_CONFIG → clOpen s = false → getR64 s Reg.HLK_BSTORE_BASE ≠ 0 →
    4 ≤ bitsOf v 0 5 → bitsOf v 0 5 ≤ 16 → 4 ≤ bitsOf v 8 5 → bitsOf v 8 5 ≤ 16 →
    Leads (.controlLineOpen m v) s (fun t =>
      clOpen t = true ∧ sessionOn t = true ∧ (getLine t 0).state = .opened ∧ (getLine t 0).upTail = 0 ∧
      (getLine t 0).upHead = 0 ∧ (getLine t 0).dnTail = 0 ∧ (getLine t 0).dnHead = 0 ∧
      (getLine t 0).upLog2 = bitsOf v 0 5 ∧ (getLine t 0).dnLog2 = bitsOf v 8 5 ∧
      (∀ l, l ≠ 0 → getLine t l = getLine s l) ∧ SameRegs s t [Reg.HLK_CL_CONFIG, Reg.HLK_STATUS] ∧
      t = { s with regs := t.regs, lne := { s.lne with lines := t.lne.lines } })) ∧
  (∀ s m v, MayWrite s m Reg.HLK_CL_CONFIG → clOpen s = true → controlBusy s = false →
    v &&& 0x07FF1F1F = getR s Reg.HLK_CL_CONFIG &&& 0x7FFFFFFF →
    4 ≤ bitsOf v 0 5 → bitsOf v 0 5 ≤ 16 → 4 ≤ bitsOf v 8 5 → bitsOf v 8 5 ≤ 16 →
    Leads (.controlLineClose m v) s (fun t =>
      SessionEnded s t ∧ t = withEvents { s with regs := t.regs, hlk := t.hlk, lne := t.lne } t)) ∧
  (∀ s off v, mainPower s = true → Leads (.windowCWrite off v) s (fun t =>
    getR t Reg.HLK_ERR = getR s Reg.HLK_ERR ||| 0x20 ∧ OnlyRegs s t [Reg.HLK_ERR] []))

/-- The host link (R64 to R66): training, retraining, loss, the ends of a session, and a requested reset. Model choices in
it: log entries 104, 132, 138, 159, 167. -/
def Obligations.HostLinkSession : Prop := Sys2Proof.Claims.LinkTrains ∧ Sys2Proof.Claims.LinkLossEndsSession ∧ Sys2Proof.Claims.RequestedResetClears

/-! ### Events and sealed settings -/

/-- EVT_PEND_CLEAR (R549), EVT_ROUTE_WRITE (R552), MSIX_UNMASK (R60), which is a host write of Window A and waits for READY
(R53). -/
def Sys2Proof.Claims.EventRegisters : Prop :=
  (∀ s m n ones, Quiet s → MayWrite s m (pendAddr m (BitVec.toNat n)) → Leads (.evtPendClear m n ones) s (fun t =>
    (∀ k, k < 1024 → isPending t k = (isPending s k && !(decide (k / 32 = n.toNat) && ones.getLsbD (k % 32) && mayClear s m k))) ∧
    bitR t Reg.EVT_ERR 1 = (bitR s Reg.EVT_ERR 1 ||
      (List.range 32).any (fun i => ones.getLsbD i && !mayClear s m (32 * n.toNat + i))) ∧
    SameRegs s t [Reg.EVT_ERR] ∧ t = { s with regs := t.regs, evtPend := t.evtPend })) ∧
  (∀ s m n v, Quiet s → MayWrite s m (Reg.EVT_ROUTE (BitVec.toNat n)) → bit (evtRoute s n.toNat) 31 = false →
    Leads (.evtRouteWrite m n v) s (fun t =>
      (bitsOf v 0 2 ≠ 3 → evtRoute t n.toNat = v &&& 0x87FF001F) ∧
      (bitsOf v 0 2 = 3 → evtRoute t n.toNat = withBits (v &&& 0x87FF001F) 0 2 (bitsOf (evtRoute s n.toNat) 0 2)) ∧
      (∀ k, k ≠ n.toNat → evtRoute t k = evtRoute s k) ∧ t = { s with evtRoutes := t.evtRoutes })) ∧
  (∀ s m n v, Quiet s → MayWrite s m (Reg.EVT_ROUTE (BitVec.toNat n)) → bit (evtRoute s n.toNat) 31 = true →
    Leads (.evtRouteWrite m n v) s (fun t =>
      getR t Reg.EVT_ERR = getR s Reg.EVT_ERR ||| 1 ∧ OnlyRegs s t [Reg.EVT_ERR] [])) ∧
  (∀ s v, Quiet s → MayWrite s 31 (vectorControl v) → s.hlk.up = true → Leads (.msixUnmask v) s (fun t =>
    t.hlk.mask.getLsbD v.toNat = false ∧ t.hlk.pend.getLsbD v.toNat = false ∧
    (∀ k, k ≠ v.toNat → t.hlk.mask.getLsbD k = s.hlk.mask.getLsbD k ∧ t.hlk.pend.getLsbD k = s.hlk.pend.getLsbD k) ∧
    t.ports.hostOut = s.ports.hostOut ++ (if s.hlk.pend.getLsbD v.toNat then [.msix v] else []) ∧
    t = { s with hlk := { s.hlk with mask := t.hlk.mask, pend := t.hlk.pend },
                 ports := { s.ports with hostOut := t.ports.hostOut } })) ∧
  (∀ s v, Quiet s → MayWrite s 31 (vectorControl v) → s.hlk.up = false → Leads (.msixUnmask v) s (fun t =>
    t.hlk.mask.getLsbD v.toNat = false ∧ t.hlk.pend = s.hlk.pend ∧
    (∀ k, k ≠ v.toNat → t.hlk.mask.getLsbD k = s.hlk.mask.getLsbD k) ∧
    t = { s with hlk := { s.hlk with mask := t.hlk.mask } })) ∧
  (∀ s v, Quiet s → mainPower s = true → permits s 31 .write (vectorControl v) = true → ready s = false →
    Leads (.msixUnmask v) s (fun t =>
      getR t Reg.HLK_ERR = getR s Reg.HLK_ERR ||| 4 ∧ OnlyRegs s t [Reg.HLK_ERR] []))

/-- SST_WRITE, SST_PERSISTED (R556, R557, R558): a write of the high half carries the pair, with the low half that was held;
it counts, raises event 41 at 90,000 writes and event 40 as the register freezes. -/
def Sys2Proof.Claims.SealedSettings : Prop :=
  (∀ s m i v, Quiet s → MayWrite s m (Reg.SST_REG (BitVec.toNat i) + 4) → m = 4 → 104 ≤ i.toNat → i.toNat ≤ 247 →
    sstCount s i.toNat < 100000 → Leads (.sstWrite m i true v) s (fun t =>
      sstGet t i.toNat = pair64 v (heldLowOf s i.toNat) ∧ sstCount t i.toNat = sstCount s i.toNat + 1 ∧
      getR t Reg.SST_STATUS = (1 ||| place 8 8 i.toNat) ∧
      (∀ k, k ≠ i.toNat → sstGet t k = sstGet s k ∧ sstCount t k = sstCount s k) ∧
      SameRegs s t [Reg.SST_STATUS] ∧
      Raises s t ((if sstCount s i.toNat = 89999 then [41] else []) ++ (if sstCount s i.toNat = 99999 then [40] else [])) ∧
      t = withEvents { s with regs := t.regs, sst := t.sst, sstWear := t.sstWear, lowHeld := t.lowHeld } t)) ∧
  (∀ s m i v, Quiet s → MayWrite s m (Reg.SST_REG (BitVec.toNat i)) → Leads (.sstWrite m i false v) s (fun t =>
    heldLowOf t i.toNat = v ∧ t = { s with lowHeld := t.lowHeld })) ∧
  (∀ s m i v, Quiet s → MayWrite s m (Reg.SST_REG (BitVec.toNat i) + 4) → 9 ≤ i.toNat → i.toNat ≤ 18 →
    Leads (.sstWrite m i true v) s (fun t =>
      getR t Reg.SST_ERR = getR s Reg.SST_ERR ||| 2 ∧ SameRegs s t [Reg.SST_ERR] ∧
      t = { s with regs := t.regs, lowHeld := t.lowHeld })) ∧
  (∀ s, Leads .sstPersisted s (fun t =>
    getR t Reg.SST_STATUS = getR s Reg.SST_STATUS &&& ~~~1 ∧ OnlyRegs s t [Reg.SST_STATUS] []))

/-- Event and sealed-setting registers (R549 to R558, R60). Model choices in it: log entries 64, 85. -/
def Obligations.EventsAndSettings : Prop := Sys2Proof.Claims.EventRegisters ∧ Sys2Proof.Claims.SealedSettings

/-! ### Register and memory accesses -/

/-- REGISTER_WRITE (R11, R12, R13): W1C bits clear where ones are written, reserved bits are ignored, a reserved field keeps
its old value; a 64-bit write of the host carries both halves (R52). CLK_MEAS_SELECT, CLK_MEAS_DONE (R44). -/
def Sys2Proof.Claims.RegisterWrites : Prop :=
  (∀ s m v, Quiet s → MayWrite s m Reg.HLK_ERR → Leads (.registerWrite m (BitVec.ofNat 32 Reg.HLK_ERR) ⟨v, none⟩) s (fun t =>
    getR t Reg.HLK_ERR = getR s Reg.HLK_ERR &&& ~~~(v &&& 0x1FF) ∧ OnlyRegs s t [Reg.HLK_ERR] [])) ∧
  (∀ s m v, Quiet s → MayWrite s m Reg.CLK_GATE → Leads (.registerWrite m (BitVec.ofNat 32 Reg.CLK_GATE) ⟨v, none⟩) s (fun t =>
    getR t Reg.CLK_GATE = (getR s Reg.CLK_GATE &&& ~~~7) ||| (v &&& 7) ∧ OnlyRegs s t [Reg.CLK_GATE] [])) ∧
  (∀ s m v, Quiet s → MayWrite s m Reg.LNE_WEIGHTS → Leads (.registerWrite m (BitVec.ofNat 32 Reg.LNE_WEIGHTS) ⟨v, none⟩) s (fun t =>
    (∀ c, c < 4 → fieldR t Reg.LNE_WEIGHTS (4 * c) 4 =
      if bitsOf v (4 * c) 4 = 0 then fieldR s Reg.LNE_WEIGHTS (4 * c) 4 else bitsOf v (4 * c) 4) ∧
    OnlyRegs s t [Reg.LNE_WEIGHTS] [])) ∧
  (∀ s m v, Quiet s → MayWrite s m Reg.CLK_MEAS_SEL → Leads (.clkMeasSelect m v) s (fun t =>
    getR t Reg.CLK_MEAS_SEL = (if bitsOf v 0 5 ≤ 17 then place 0 5 (bitsOf v 0 5) else getR s Reg.CLK_MEAS_SEL) ∧
    getR t Reg.CLK_MEAS = getR s Reg.CLK_MEAS &&& ~~~0x80000000 ∧
    OnlyRegs s t [Reg.CLK_MEAS_SEL, Reg.CLK_MEAS] [])) ∧
  (∀ s khz, mainPower s = true → Leads (.clkMeasDone khz) s (fun t =>
    fieldR t Reg.CLK_MEAS 0 24 = (if domainRuns s (fieldR s Reg.CLK_MEAS_SEL 0 5) then khz.toNat else 0) ∧
    bitR t Reg.CLK_MEAS 31 = true ∧ OnlyRegs s t [Reg.CLK_MEAS] [])) ∧
  (∀ s v u, Quiet s → MayWrite s 31 Reg.HLK_BSTORE_BASE → MayWrite s 31 (Reg.HLK_BSTORE_BASE + 4) → sessionOn s = false →
    Leads (.registerWrite 31 (BitVec.ofNat 32 Reg.HLK_BSTORE_BASE) ⟨v, some u⟩) s (fun t =>
      getR64 t Reg.HLK_BSTORE_BASE = pair64 u v &&& ~~~(0xFFF#64) ∧
      OnlyRegs s t [Reg.HLK_BSTORE_BASE, Reg.HLK_BSTORE_BASE + 4] []))

/-- RC_READ (R14), LOW_HALF_READ (R9): what a read returns and what it does. Window B reads as zero (R57); a 64-bit read of
Window C shows the two indices of a ring at one instant (R58). -/
def Sys2Proof.Claims.RegisterReads : Prop :=
  (∀ s m, Quiet s → MayRead s m Reg.LNE_INFLIGHT → Leads (.rcRead (.fabric m (BitVec.ofNat 32 Reg.LNE_INFLIGHT)) false) s (fun t =>
    t.ports.readErr = false ∧ bitsOf (lo32 t.ports.readData) 16 10 = fieldR s Reg.LNE_INFLIGHT 16 10 ∧
    fieldR t Reg.LNE_INFLIGHT 16 10 = inFlight s % 1024 ∧ SameRegs s t [Reg.LNE_INFLIGHT] ∧
    t = { s with regs := t.regs, ports := { s.ports with readData := t.ports.readData, readErr := false } })) ∧
  (∀ s m a, Quiet s → a ∈ pairLows → MayRead s m a → Leads (.lowHalfRead m (BitVec.ofNat 32 a)) s (fun t =>
    t.ports.readErr = false ∧ lo32 t.ports.readData = regView s m a ∧
    mget? t.latch (latchKey m a) = some (regView s m (a + 4)) ∧
    (∀ k, k ≠ latchKey m a → mget? t.latch k = mget? s.latch k) ∧
    t = { s with latch := t.latch, ports := { s.ports with readData := t.ports.readData, readErr := false } })) ∧
  (∀ s m a v, Quiet s → a ∈ pairLows → MayRead s m (a + 4) → mget? s.latch (latchKey m a) = some v →
    Leads (.lowHalfRead m (BitVec.ofNat 32 (a + 4))) s (fun t =>
      t.ports.readErr = false ∧ lo32 t.ports.readData = v ∧ mget? t.latch (latchKey m a) = none)) ∧
  (∀ s off wide, Quiet s → mainPower s = true → Leads (.rcRead (.windowB off) wide) s (fun t =>
    t.ports.readData = 0 ∧ t = { s with ports := { s.ports with readData := t.ports.readData, readErr := false } })) ∧
  (∀ s off, Quiet s → mainPower s = true → recordBad s (windowLine s (BitVec.toNat off)) = false →
    Leads (.rcRead (.windowC off) true) s (fun t =>
      (off.toNat % 16 < 8 → lo32 t.ports.readData = BitVec.ofNat 32 (getLine s (windowLine s off.toNat)).upTail ∧
        hi32 t.ports.readData = BitVec.ofNat 32 (getLine s (windowLine s off.toNat)).upHead) ∧
      (8 ≤ off.toNat % 16 → lo32 t.ports.readData = BitVec.ofNat 32 (getLine s (windowLine s off.toNat)).dnTail ∧
        hi32 t.ports.readData = BitVec.ofNat 32 (getLine s (windowLine s off.toNat)).dnHead) ∧
      t = { s with ports := { s.ports with readData := t.ports.readData, readErr := false } }))

/-- A word of plain memory that a master may access and that holds no seal mismatch. -/
def Sys2Proof.Machine.PlainWord (s : State) (a : Nat) : Prop :=
  a % 4 = 0 ∧ a < 2 ^ 32 ∧ isRam a = true ∧ meetsSpecial a 4 = false ∧ a / 8 ∉ s.badCells

/-- DEBUG_ACCESS (R431): the TAP reads and writes memory as master 32; a denial returns zero with event 197. Every byte but
the four written stays. FABRIC_READ_TIMEOUT (R31): event 194, and an error response for the read that waited. Model choices
in it: log entries 98, 99. -/
def Obligations.DebugAccessMemory : Prop :=
  (∀ s a v, Quiet s → mainPower s = true → PlainWord s (BitVec.toNat a) → permits s 32 .read a.toNat = true →
    Leads (.debugAccess false a v) s (fun t =>
      t.ports.readErr = false ∧ t.ports.readData = BitVec.ofNat 64 (ofLe (memBytes s a.toNat 4)) ∧
      t = { s with ports := { s.ports with readData := t.ports.readData, readErr := false } })) ∧
  (∀ s a v, Quiet s → mainPower s = true → PlainWord s (BitVec.toNat a) → permits s 32 .write a.toNat = true →
    opRamClosed s 32 a.toNat 4 = false →
    Leads (.debugAccess true a v) s (fun t =>
      memBytes t a.toNat 4 = wordBytes v ∧ (∀ b, (b < a.toNat ∨ a.toNat + 4 ≤ b) → memByte t b = memByte s b) ∧
      t = { s with mem := t.mem })) ∧
  (∀ s a v, Quiet s → mainPower s = true → PlainWord s (BitVec.toNat a) → permits s 32 .read a.toNat = false →
    s.dbg.denials = [] → mget? s.lastRaise 197 = none → s.badRoutes.contains (decidingRoute s a.toNat) = false →
    Leads (.debugAccess false a v) s (fun t =>
      t.ports.readData = 0 ∧ isPending t 197 = true ∧ t.mem = s.mem)) ∧
  (∀ s m, Quiet s → mainPower s = true → EntRead.port m ∈ s.ent.waiting →
    Leads (.fabricReadTimeout m (BitVec.ofNat 32 Reg.ENT_DATA) false) s (fun t =>
      isPending t 194 = true ∧ t.ports.readErr = true ∧ t.ent.waiting = s.ent.waiting.erase (.port m) ∧
      t.ports.served = s.ports.served ++ [(m, none)] ∧ t.mem = s.mem))

/-- Plain writes and reads of the register map. Model choices in it: log entries 70, 98, 157. -/
def Obligations.RegisterAccess : Prop := Sys2Proof.Claims.RegisterWrites ∧ Sys2Proof.Claims.RegisterReads

/-! ### DMA channels, host reads, the USB path -/

/-- DMA_START, DMA_COPY_END, DMA_ABORT (R68, R69). -/
def Sys2Proof.Claims.DmaChannels : Prop :=
  (∀ s m c d, Quiet s → MayWrite s m (Reg.DMA_CTRL (BitVec.toNat c)) → dmaRunning s c.toNat = false →
    1 ≤ dmaLen s c.toNat → dmaLen s c.toNat ≤ 16777216 → d ≠ 3 →
    (d = 1 ∨ dmaSrc s c.toNat + dmaLen s c.toNat ≤ 2 ^ 32) → (d = 2 ∨ dmaDst s c.toNat + dmaLen s c.toNat ≤ 2 ^ 32) →
    Leads (.dmaStart m c d) s (fun t =>
      dmaRunning t c.toNat = true ∧ dmaDir t c.toNat = d.toNat ∧ getR t (Reg.DMA_DONE c.toNat) = 0 ∧
      OnlyRegs s t [Reg.DMA_CTRL c.toNat, Reg.DMA_STATUS c.toNat, Reg.DMA_DONE c.toNat] [])) ∧
  (∀ s c data, Quiet s → mainPower s = true → dmaRunning s (BitVec.toNat c) = true → dmaDir s c.toNat = 0 →
    1 ≤ dmaLen s c.toNat → dmaSrc s c.toNat % 4096 + dmaLen s c.toNat ≤ 4096 →
    dmaDst s c.toNat % 4096 + dmaLen s c.toNat ≤ 4096 →
    reach s (dmaMaster c.toNat) .read (dmaSrc s c.toNat) (dmaLen s c.toNat) = { state := s, outcome := .ok } →
    reach s (dmaMaster c.toNat) .write (dmaDst s c.toNat) (dmaLen s c.toNat) = { state := s, outcome := .ok } →
    isRam (dmaDst s c.toNat) = true → meetsSpecial (dmaDst s c.toNat) (dmaLen s c.toNat) = false →
    opRamClosed s (dmaMaster c.toNat) (dmaDst s c.toNat) (dmaLen s c.toNat) = false →
    Leads (.dmaCopyEnd c data .ok) s (fun t =>
      memBytes t (dmaDst s c.toNat) (dmaLen s c.toNat) = memBytes s (dmaSrc s c.toNat) (dmaLen s c.toNat) ∧
      (∀ b, (b < dmaDst s c.toNat ∨ dmaDst s c.toNat + dmaLen s c.toNat ≤ b) → memByte t b = memByte s b) ∧
      getR t (Reg.DMA_DONE c.toNat) = place 0 25 (dmaLen s c.toNat) ∧ fieldR t (Reg.DMA_STATUS c.toNat) 0 2 = 2 ∧
      fieldR t (Reg.DMA_STATUS c.toNat) 8 8 = 0 ∧ fieldR t (Reg.DMA_STATUS c.toNat) 16 8 = 255 ∧
      SameRegs s t [Reg.DMA_STATUS c.toNat, Reg.DMA_DONE c.toNat] ∧ Raises s t [44 + c.toNat] ∧
      t = withEvents { s with regs := t.regs, mem := t.mem, badCells := t.badCells } t)) ∧
  (∀ s m c, Quiet s → MayWrite s m (Reg.DMA_CTRL (BitVec.toNat c)) → dmaRunning s c.toNat = true →
    (∀ k h, k ≤ dmaLen s c.toNat → (copyBytes s c.toNat k h).outcome = .ok) →
    Leads (.dmaAbort m c) s (fun t =>
      fieldR t (Reg.DMA_STATUS c.toNat) 0 2 = 2 ∧ fieldR t (Reg.DMA_STATUS c.toNat) 8 8 = 1 ∧
      fieldR t (Reg.DMA_DONE c.toNat) 0 25 ≤ dmaLen s c.toNat ∧ isPending t (48 + c.toNat) = true ∧
      s.freeCtr < t.freeCtr))

/-- HOST_COMPLETION_TIMEOUT, HOST_READ_ERROR (R64, R67, R97, R128): event 20 and HOST_ERROR; an Up-ring entry is read again no
sooner than 1 ms later, a service waybill ends with 0x05 or an earlier check's status (R119), without a link a waybill whose
records are read stays unconsumed, and the host's error reporting records each error (R48). -/
def Sys2Proof.Claims.HostReadsFail : Prop :=
  (∀ s l, Quiet s → mainPower s = true → admissible s (getLine s (BitVec.toNat l)) = true →
    Leads (.hostCompletionTimeout (.upEntry l)) s (fun t =>
      (getLine t l.toNat).retryAt = s.ttc + 100000 ∧ getR t Reg.HLK_ERR = getR s Reg.HLK_ERR ||| 0x80 ∧
      SameRegs s t [Reg.HLK_ERR] ∧ Raises s t [20] ∧ (∀ k, k ≠ l.toNat → getLine t k = getLine s k) ∧
      t = withEvents { s with regs := t.regs, lne := { s.lne with lines := t.lne.lines },
                              hlk := { s.hlk with aer := s.hlk.aer ++ [.completionTimeout] } } t)) ∧
  (∀ s l, Quiet s → mainPower s = true → admissible s (getLine s (BitVec.toNat l)) = true →
    Leads (.hostReadError (.upEntry l)) s (fun t =>
      (getLine t l.toNat).retryAt = s.ttc + 100000 ∧ getR t Reg.HLK_ERR = getR s Reg.HLK_ERR ||| 0x80 ∧
      SameRegs s t [Reg.HLK_ERR] ∧ Raises s t [20] ∧ (∀ k, k ≠ l.toNat → getLine t k = getLine s k) ∧
      t = withEvents { s with regs := t.regs, lne := { s.lne with lines := t.lne.lines },
                              hlk := { s.hlk with aer := s.hlk.aer ++ [.badCompletion] } } t)) ∧
  (∀ s l pos op f c, ServiceAt s (BitVec.toNat l) pos op f c → readsPayload f.raw = true →
    (branchCheck s f.raw).status ≠ 0x0D →
    Leads (.hostReadError (.payload l pos)) s (fun t =>
      Answered s t l.toNat f [] (if payloadFault s f.raw = 0 then 0x05 else payloadFault s f.raw) 0 (c.sequence.toNat + 1) [] ∧
      isPending t 20 = true ∧ bitR t Reg.HLK_ERR 7 = true)) ∧
  (∀ s l f, Quiet s → mainPower s = true → s.hlk.up = false → fetching s (BitVec.toNat l) = some f →
    Leads (.hostCompletionTimeout (.records l)) s (fun t =>
      getR t Reg.HLK_ERR = getR s Reg.HLK_ERR ||| 0x80 ∧ SameRegs s t [Reg.HLK_ERR] ∧ Raises s t [20] ∧
      t = withEvents { s with regs := t.regs, hlk := { s.hlk with aer := s.hlk.aer ++ [.completionTimeout] } } t))

/-- STATUS_REQUEST, BULK_WAYBILL (R63): 12 bytes in every mode with main power; a waybill the mode does not allow is answered
0x0A, a MANIFEST_READ in Maintenance with the stored Manifests, a LOG_EXPORT out of its turn waits
(R282), one that meets the last-gasp seal ends with 0x0C (R300), and with the fuse check failed none is served (R428). -/
def Sys2Proof.Claims.UsbPath : Prop :=
  (∀ s, mainPower s = true → Leads .statusRequest s (fun t =>
    t.ports.usbOut = s.ports.usbOut ++ [wordBytes (getR s Reg.HLK_ID) ++ wordBytes (hlkStatus s) ++ wordBytes (getR s Reg.HLK_ERR)] ∧
    t = { s with ports := { s.ports with usbOut := t.ports.usbOut } })) ∧
  (∀ s w p bad, Quiet s → mainPower s = true → s.fusesOk = true → w.length = 64 → s.mode ≠ .maintenance → Leads (.bulkWaybill w ⟨p, bad⟩) s (fun t =>
    t.ports.usbOut = s.ports.usbOut ++ [completionRecord w 0x0A 0 0 s.ttc.toNat (epochOf s s.ttc.toNat) []] ∧
    t = { s with ports := { s.ports with usbOut := t.ports.usbOut } })) ∧
  (∀ s w p bad, Quiet s → s.mode = .maintenance → s.fusesOk = true → w.length = 64 → byteAt w 2 = 0x26 → lengthsOk w = true →
    alignOk w true = true → manifestsFrom s (wf64 w 8) (num w 4 4) ≠ [] → Leads (.bulkWaybill w ⟨p, bad⟩) s (fun t =>
    (∃ r, t.ports.usbOut = s.ports.usbOut ++ [(manifestsFrom s (wf64 w 8) (num w 4 4)).flatten, r] ∧ r.length = 64 ∧
      byteAt r 2 = 0 ∧ slice r 0 2 = slice w 0 2) ∧
    t = { s with ports := { s.ports with usbOut := t.ports.usbOut } })) ∧
  (∀ s w p bad, Quiet s → mainPower s = true → s.fusesOk = true → s.power.lastGasp = false → w.length = 64 →
    usbIsExport s w = true → exportTurn s s.lne.nextId = false →
    Leads (.bulkWaybill w ⟨p, bad⟩) s (fun t =>
      t.ports = s.ports ∧ t.hlk.usbWait = s.hlk.usbWait ++ [(s.lne.nextId, w, bad)] ∧
      t = { s with lne := { s.lne with nextId := s.lne.nextId + 1 }, hlk := { s.hlk with usbWait := t.hlk.usbWait } })) ∧
  (∀ s w p bad, Quiet s → mainPower s = true → s.fusesOk = true → s.power.lastGasp = true → w.length = 64 →
    usbIsExport s w = true → Leads (.bulkWaybill w ⟨p, bad⟩) s (fun t =>
      t.ports.usbOut = s.ports.usbOut ++ [completionRecord w 0x0C 0x40000000 0 s.ttc.toNat (epochOf s s.ttc.toNat) []] ∧
      t = { s with ports := { s.ports with usbOut := t.ports.usbOut } })) ∧
  (∀ s w p, Quiet s → s.fusesOk = false → Leads (.bulkWaybill w p) s (fun t => t = s))

/-- DMA channels, host reads that fail, and the USB path. Model choices in it: log entries 8, 67, 83, 136, 161. -/
def Obligations.HostTransfers : Prop := Sys2Proof.Claims.DmaChannels ∧ Sys2Proof.Claims.HostReadsFail ∧ Sys2Proof.Claims.UsbPath

/-! ### Lines -/

/-- DOORBELL (R56, R57, R83 to R85): an accepted index moves the Up tail or the Down head and nothing else; a rejected one is
recorded. -/
def Sys2Proof.Claims.Doorbells : Prop :=
  (∀ s v, mainPower s = true → ready s = true → lastGasp s = false → BitVec.toNat v < 2 ^ 52 → doorbellRing v = false →
    recordBad s (doorbellLine v) = false → doorbellReason (getLine s (doorbellLine v)) false (doorbellIndex v) = 0 →
    Leads (.doorbell 0 true v) s (fun t =>
      (getLine t (doorbellLine v)).upTail = doorbellIndex v ∧
      getLine t (doorbellLine v) = { getLine s (doorbellLine v) with
        upTail := doorbellIndex v, ready := (getLine t (doorbellLine v)).ready } ∧
      (∀ k, k ≠ doorbellLine v → getLine t k = getLine s k) ∧
      t = { s with lne := { s.lne with lines := t.lne.lines } })) ∧
  (∀ s v, mainPower s = true → ready s = true → lastGasp s = false → BitVec.toNat v < 2 ^ 52 → doorbellRing v = true →
    recordBad s (doorbellLine v) = false → doorbellReason (getLine s (doorbellLine v)) true (doorbellIndex v) = 0 →
    Leads (.doorbell 0 true v) s (fun t =>
      getLine t (doorbellLine v) = { getLine s (doorbellLine v) with dnHead := doorbellIndex v } ∧
      (∀ k, k ≠ doorbellLine v → getLine t k = getLine s k) ∧
      t = { s with lne := { s.lne with lines := t.lne.lines } })) ∧
  (∀ s v, mainPower s = true → ready s = true → lastGasp s = false → BitVec.toNat v < 2 ^ 52 →
    recordBad s (doorbellLine v) = false → doorbellReason (getLine s (doorbellLine v)) (doorbellRing v) (doorbellIndex v) ≠ 0 →
    Leads (.doorbell 0 true v) s (fun t =>
      fieldR t Reg.LNE_DBERR 0 19 = doorbellLine v ∧ bitR t Reg.LNE_DBERR 19 = doorbellRing v ∧ bitR t Reg.LNE_DBERR 20 = true ∧
      fieldR t Reg.LNE_DBERR 21 3 = doorbellReason (getLine s (doorbellLine v)) (doorbellRing v) (doorbellIndex v) ∧
      SameRegs s t [Reg.LNE_DBERR] ∧ t = withEvents { s with regs := t.regs, lastRaise := t.lastRaise } t)) ∧
  (∀ s o w v, mainPower s = true → (o ≠ 0 ∨ w = false ∨ 2 ^ 52 ≤ BitVec.toNat v) → Leads (.doorbell o w v) s (fun t =>
    getR t Reg.HLK_ERR = getR s Reg.HLK_ERR ||| 1 ∧ SameRegs s t [Reg.HLK_ERR] ∧
    t = withEvents { s with regs := t.regs, lastRaise := t.lastRaise } t))

/-- What admitting a service waybill leaves (R98): it is in flight on its line, and the Up head has passed its entry. -/
def Sys2Proof.Machine.ServiceAdmitted (s t : State) (l : Nat) (entry : Bytes) : Prop :=
  (getLine t l).upHead = bump (getLine s l).upLog2 (getLine s l).upHead ∧
  (∃ f : Flight, (getLine t l).flights = (getLine s l).flights ++ [f] ∧ f.raw = slice entry 0 64 ∧ f.phase = .service ∧
    f.admitTtc = s.ttc) ∧
  (∀ k, k ≠ l → getLine t k = getLine s k) ∧ t.lne.nextId = s.lne.nextId + 1 ∧
  SameRegs s t [Reg.LNE_INFLIGHT, Reg.MSH_QUEUE] ∧ t = { s with regs := t.regs, lne := t.lne }

/-- No line but `l` waits for its context, and no LINE_* waybill is parked: the end of a transfer lets nothing else go on (R94). -/
def Sys2Proof.Machine.NoneWaits (s : State) (l : Nat) : Prop :=
  (∀ e ∈ s.lne.lines, e.1 ≠ l → wantsAdmission s e.2 = false) ∧ ∀ f ∈ (getLine s 0).flights, f.phase ≠ .parked

/-- ADMISSION, ENTRY_READ_RETRY (R97, R98): the waybill at the Up head of the line that the Hump serves next. -/
def Sys2Proof.Claims.Admission : Prop :=
  (∀ s l e c u, Quiet s → eligible s (BitVec.toNat l) (getLine s l.toNat) = true → humpNext s = some (c, u, l.toNat) →
    (getLine s l.toNat).state = .opened → (getLine s l.toNat).service = true → recordBad s l.toNat = false →
    admissionStatus s l.toNat (getLine s l.toNat) (slice e 0 64) = 0 →
    Leads (.admission l e) s (fun t => ServiceAdmitted s t l.toNat e)) ∧
  (∀ s l e c u, Quiet s → eligible s (BitVec.toNat l) (getLine s l.toNat) = true → humpNext s = some (c, u, l.toNat) →
    (getLine s l.toNat).state = .opened → (getLine s l.toNat).service = true → (getLine s l.toNat).retryAt ≠ 0 →
    recordBad s l.toNat = false → admissionStatus s l.toNat (getLine s l.toNat) (slice e 0 64) = 0 →
    Leads (.entryReadRetry l e) s (fun t => ServiceAdmitted s t l.toNat e ∧ (getLine t l.toNat).retryAt = 0)) ∧
  (∀ s l e, Quiet s → wantsAdmission s (getLine s (BitVec.toNat l)) = false →
    Leads (.admission l e) s (fun t => t = s))

/-- FILL_COMPLETE, SPILL_DEPARTED, INDEX_MIRROR_WRITE (R88, R92, R94). Model choices in it: log entries 100, 103, 107, 130.
-/
def Obligations.ContextTransfers : Prop :=
  (∀ s l b, Quiet s → slot? s (BitVec.toNat l) = some .filling → fillOk s l.toNat b = true →
    NoneWaits s l.toNat → l ≠ 0 → Leads (.fillComplete l b) s (fun t =>
      ctx? t l.toNat = some (parseContext (slice b 0 128)) ∧ resident t l.toNat = true ∧
      ctxBad t l.toNat = false ∧ (∀ b, b ∈ t.badCells → b ∈ s.badCells) ∧
      (∀ k, k ≠ l.toNat → ctx? t k = ctx? s k ∧ slot? t k = slot? s k ∧ getLine t k = getLine s k) ∧
      t = { s with lne := t.lne, badCells := t.badCells })) ∧
  (∀ s l c, Quiet s → slot? s (BitVec.toNat l) = some (.live c true) → (∀ e ∈ s.lne.leaving, e.1 ≠ l.toNat) →
    NoneWaits s l.toNat → Leads (.spillDeparted l) s (fun t =>
    slot? t l.toNat = some (.live c false) ∧ (∀ k, k ≠ l.toNat → slot? t k = slot? s k) ∧
    t = { s with lne := { s.lne with cache := t.lne.cache } })) ∧
  (∀ s l, Quiet s → slot? s (BitVec.toNat l) = some .spilling → (∀ e ∈ s.lne.leaving, e.1 ≠ l.toNat) →
    NoneWaits s l.toNat → (∀ e ∈ s.lne.lines, wantsAdmission s e.2 = false) → Leads (.spillDeparted l) s (fun t =>
      slot? t l.toNat = none ∧ ctx? t l.toNat = none ∧ (∀ k, k ≠ l.toNat → slot? t k = slot? s k ∧ ctx? t k = ctx? s k) ∧
      (∀ a, (∀ p, placeOf s l.toNat = some p → a < slotBase p ∨ slotBase p + 128 ≤ a) → memByte t a = memByte s a) ∧
      t = { s with lne := t.lne, mem := t.mem })) ∧
  (∀ s l, (getLine s (BitVec.toNat l)).mirror = true → s.hlk.up = true → mirrorOn s = true → recordBad s l.toNat = false →
    Leads (.indexMirrorWrite l) s (fun t =>
      t.ports.hostOut = s.ports.hostOut ++
        packets (getR64 s Reg.HLK_ITAB_BASE + BitVec.ofNat 64 (16 * l.toNat))
          (le 4 (getLine s l.toNat).upTail ++ le 4 (getLine s l.toNat).upHead ++ le 4 (getLine s l.toNat).dnTail ++
            le 4 (getLine s l.toNat).dnHead) ∧
      getLine t l.toNat = { getLine s l.toNat with mirror := false } ∧
      (∀ k, k ≠ l.toNat → getLine t k = getLine s k) ∧
      t = { s with lne := { s.lne with lines := t.lne.lines }, ports := { s.ports with hostOut := t.ports.hostOut } }))

/-- A LINE_* waybill on line 0 that is the oldest naming its target, with a sound line record; none that names the target has
ended before its turn (R75, R86). -/
def Sys2Proof.Machine.ControlAt (s : State) (pos op : Nat) (f : Flight) : Prop :=
  WaybillAt s 0 pos op f ∧ firstOn s f = true ∧ s.hlk.up = true ∧ Quiet s ∧ recordBad s (woTarget f.raw) = false ∧
  ∀ g ∈ opsOn s (woTarget f.raw), g.phase ≠ .ended

/-- LINE_OPEN (R76, R127, R576): the new-chain form opens a CLOSED line with a context of its own; a resume keeps the chain. -/
def Sys2Proof.Claims.LineOpens : Prop :=
  (∀ s pos head f, ControlAt s pos 0x10 f → openCheckEarly s f.raw = 0 → openCheckParent s f.raw = true →
    (getLine s (woTarget f.raw)).state = .closed → woContinue f.raw = false → occupied s < 65536 →
    Leads (.lineOpen pos head) s (fun t =>
      Answered s t 0 f [] 0 0 0 (zeros 32) ∧
      getLine t (woTarget f.raw) = openedLine f.raw (getLine s (woTarget f.raw)).mirror ∧ resident t (woTarget f.raw) = true ∧
      (∃ c, ctx? t (woTarget f.raw) = some c ∧ c.chainHead = zeros 32 ∧ c.sequence = 0 ∧ c.openTtc = s.ttc ∧
        c.service = woService f.raw) ∧
      (∀ k, k ≠ 0 → k ≠ woTarget f.raw → getLine t k = getLine s k))) ∧
  (∀ s pos head f c, ControlAt s pos 0x10 f → openCheckEarly s f.raw = 0 → woReplace f.raw = false →
    (getLine s (woTarget f.raw)).state = .paused → resident s (woTarget f.raw) = true →
    ctxBad s (woTarget f.raw) = false → ctx? s (woTarget f.raw) = some c →
    Leads (.lineOpen pos head) s (fun t =>
      Answered s t 0 f [] 0 0 c.sequence.toNat c.chainHead ∧ ctx? t (woTarget f.raw) = some c ∧
      (getLine t (woTarget f.raw)).state = .opened ∧ (getLine t (woTarget f.raw)).halt = false ∧
      (getLine t (woTarget f.raw)).fault = (getLine s (woTarget f.raw)).fault ∧
      (getLine t (woTarget f.raw)).upHead = (getLine s (woTarget f.raw)).upHead ∧
      (getLine t (woTarget f.raw)).dnTail = (getLine s (woTarget f.raw)).dnTail))

/-- LINE_PAUSE, LINE_PAUSE_COMPLETE, LINE_CLOSE (R75, R78). -/
def Sys2Proof.Claims.LinePauseClose : Prop :=
  (∀ s pos f, ControlAt s pos 0x11 f → woTarget f.raw ≠ 0 → (getLine s (woTarget f.raw)).state = .opened →
    (getLine s (woTarget f.raw)).flights = [] → Leads (.linePause pos) s (fun t =>
      Answered s t 0 f [] 0 0 0 [] ∧
      getLine t (woTarget f.raw) = { getLine s (woTarget f.raw) with state := .paused } ∧
      (∀ k, k ≠ 0 → k ≠ woTarget f.raw → getLine t k = getLine s k))) ∧
  (∀ s pos f, ControlAt s pos 0x11 f → woTarget f.raw ≠ 0 → (getLine s (woTarget f.raw)).state = .opened →
    (getLine s (woTarget f.raw)).flights ≠ [] → Leads (.linePause pos) s (fun t =>
      getLine t (woTarget f.raw) = { getLine s (woTarget f.raw) with state := .paused, pausing := true } ∧
      t.ports.hostOut = s.ports.hostOut ∧ (∀ k, k ≠ 0 → k ≠ woTarget f.raw → getLine t k = getLine s k))) ∧
  (∀ s (l : BitVec 19) f, Quiet s → l ≠ 0 → (∀ g ∈ opsOn s l.toNat, g.phase ≠ .ended) →
    pauseOn s l.toNat = some f → flight? s 0 f.id = some f → recordBad s 0 = false → s.hlk.up = true →
    (getLine s l.toNat).state = .paused → (getLine s l.toNat).flights = [] → Leads (.linePauseComplete l) s (fun t =>
      Answered s t 0 f [] 0 0 0 [] ∧ getLine t l.toNat = { getLine s l.toNat with pausing := false } ∧
      (∀ k, k ≠ 0 → k ≠ l.toNat → getLine t k = getLine s k))) ∧
  (∀ s pos f c, ControlAt s pos 0x12 f → woTarget f.raw ≠ 0 → (getLine s (woTarget f.raw)).state = .paused →
    (getLine s (woTarget f.raw)).flights = [] → (getLine s (woTarget f.raw)).lost = false →
    resident s (woTarget f.raw) = true → ctxBad s (woTarget f.raw) = false → ctx? s (woTarget f.raw) = some c →
    Leads (.lineClose pos) s (fun t =>
      Answered s t 0 f [] 0 0 c.sequence.toNat c.chainHead ∧ getLine t (woTarget f.raw) = { Line.closed with mirror :=
        (getLine s (woTarget f.raw)).mirror ||
          (mirrorOn s && !decide ((getLine s (woTarget f.raw)).upHead = 0 ∧ (getLine s (woTarget f.raw)).dnTail = 0)) } ∧
      slot? t (woTarget f.raw) = none ∧ (∀ k, k ≠ 0 → k ≠ woTarget f.raw → getLine t k = getLine s k)))

/-- Doorbells and the admission of waybills. Model choices in it: log entries 123, 133, 155. -/
def Obligations.LineAdmission : Prop := Sys2Proof.Claims.Doorbells ∧ Sys2Proof.Claims.Admission

/-- Lines open, pause and close. Model choices in it: log entries 11, 52, 134, 135, 156, 168. -/
def Obligations.LineLifecycle : Prop := Sys2Proof.Claims.LineOpens ∧ Sys2Proof.Claims.LinePauseClose

/-! ### Data lines -/

/-- The records of waybill `f`, which are all to be read, come into its track's empty buffer now: no waybill before it on that
track still has records to fetch (R140, R141). -/
def Sys2Proof.Machine.Fetches (s : State) (f : Flight) : Prop :=
  f.assigned = true ∧ f.place = none ∧ 1 ≤ countOf f.raw ∧ countOf f.raw ≤ 4096 ∧ fetchTurn s f = true ∧
  (trackAt s f.track.toNat).half0 = BufHalf.free ∧ (trackAt s f.track.toNat).half1 = BufHalf.free ∧
  ∀ e ∈ s.lne.lines, ∀ g ∈ e.2.flights, onTrack g = true → g.track = f.track → g.place = none

/-- A waybill whose key is read is the next that its idle, enabled track stamps, once its records are there (R144, R147, R172). -/
def Sys2Proof.Machine.StampsNext (s : State) (f : Flight) : Prop :=
  f.phase = .ready ∧ (trackAt s f.track.toNat).enabled = true ∧ stampedOn s f.track.toNat = none ∧ queueHead s f = true ∧
  creditFor s f = true

/-- A data-line waybill of an opcode stands first on its line, its key read, with the record, the context and the compare queue unharmed: it
takes its stamp now, with records that are in the buffer, sound, or that come with the command (R141, R143, R147, R152, R172). -/
def Sys2Proof.Machine.DataAt (s : State) (l op : Nat) (f : Flight) (c : Context) : Prop :=
  Quiet s ∧ mainPower s = true ∧ s.hlk.up = true ∧ l ≠ 0 ∧ (getLine s l).service = false ∧
  (getLine s l).flights.head? = some f ∧ (∀ g ∈ (getLine s l).flights.tail, g.id ≠ f.id) ∧
  (∀ g ∈ (getLine s l).flights, g.phase ≠ .keyWait) ∧ byteAt f.raw 2 = op ∧ ctx? s l = some c ∧ ctxBad s l = false ∧
  recordBad s l = false ∧ privateBad s (.compare f.track.toNat) = false ∧ (trackAt s f.track.toNat).fencing = false ∧ StampsNext s f ∧
  ((recordsIn s f = true ∧ bufBad s f = false) ∨ Fetches s f)

/-- No track has anything to take up: its halves stand as they should, and no consist in its buffer can be stamped (R140, R144). -/
def Sys2Proof.Machine.Settled (s : State) : Prop := ∀ u, u < 8 → turnHalves s u = s ∧ nextFetched s u = none

/-- The records of a waybill: those that its track's buffer holds, or those that its row brings. -/
def Sys2Proof.Machine.recordsOf (f : Flight) (records : Bytes) : Bytes :=
  if f.place = none ∧ countOf f.raw ≠ 0 then slice records 0 (16 * countOf f.raw) else f.records

/-- The stamp a waybill takes: strictly above the last stamp of its track and of its line (R148). -/
def Sys2Proof.Machine.stampOf (s : State) (l : Nat) (c : Context) (f : Flight) : DWord :=
  if s.ttc.toNat ≤ (trackAt s f.track.toNat).lastStamp.toNat ∨ s.ttc.toNat ≤ (getLine s l).lastStamp.toNat ∨
      s.ttc.toNat ≤ c.lastTtc.toNat then
    laterOf (laterOf (trackAt s f.track.toNat).lastStamp (getLine s l).lastStamp) c.lastTtc + 1
  else s.ttc

/-- The tag of a consist: KMAC256 under the line key over its header and its records (R155, R156). -/
def Sys2Proof.Machine.consistTag (l : Nat) (c : Context) (f : Flight) (stamp : Nat) (records : Bytes) : Bytes :=
  kmacFrom f.key (header 1 (countOf f.raw) l c.sequence.toNat stamp (num f.raw 16 8) c.chainHead ++
    slice records 0 (16 * countOf f.raw)) 32

/-- What the host sees of an absorbed waybill: its writes, then the completion record at the Down tail (R134, R163). -/
def Sys2Proof.Machine.Absorbs (s t : State) (l : Nat) (f : Flight) (c : Context) (stamp : DWord) (writes : List (DWord × Bytes))
    (status flags : Nat) (result : Bytes) : Prop :=
  ∃ pre mid rest : List HostWrite, (∀ w ∈ pre ++ mid, ∃ v, w = HostWrite.msix v) ∧
    t.ports.hostOut = s.ports.hostOut ++ pre ++ writes.flatMap (fun e => packets e.1 e.2) ++ mid ++
      packets (nextDownEntry (getLine s l))
        (completionRecord f.raw status flags c.sequence.toNat stamp.toNat (epochOf s stamp.toNat) result) ++ rest

/-- The chain advanced by one waybill (R161). -/
def Sys2Proof.Machine.Advanced (t : State) (l : Nat) (c : Context) (f : Flight) (tag : Bytes) (stamp : DWord) : Prop :=
  ∃ d, ctx? t l = some d ∧ d.chainHead = tag ∧ d.sequence = c.sequence + 1 ∧
    d.records = c.records + BitVec.ofNat 64 (countOf f.raw) ∧ d.lastTtc = stamp ∧ d.parent = c.parent ∧
    d.generation = c.generation

/-- The leaf of a line with the advanced chain stands in the open epoch, if the stamp lies before its boundary (R163, R190). -/
def Sys2Proof.Machine.LeafPosted (s t : State) (l : Nat) (c : Context) (tag : Bytes) (stamp : DWord) : Prop :=
  ∀ e, s.su.open_ = some e → stamp.toNat < epochEnd s e.number → ∃ d, t.su.open_ = some d ∧ d.number = e.number ∧
    mget? d.changed l = some { seq := c.sequence + 1, head := tag } ∧ d.consists = e.consists + 1

/-- TAG_CONSIST, TAG_RECORDS (R122), MARK on a produce line (R125): the tag becomes the chain head, and the completion
carries it. Model choices in it: log entry 131. -/
def Obligations.ProduceLineTags : Prop :=
  (∀ s (l : BitVec 19) records f c, DataAt s l.toNat 1 f c → Leads (.tagConsist l records) s (fun t =>
    let tag := consistTag l.toNat c f (headerStamp c.verify { f with stamp := stampOf s l.toNat c f }) (recordsOf f records)
    Advanced t l.toNat c f tag (stampOf s l.toNat c f) ∧ LeafPosted s t l.toNat c tag (stampOf s l.toNat c f) ∧
    Absorbs s t l.toNat f c (stampOf s l.toNat c f) [] 0 (countOf f.raw) tag)) ∧
  (∀ s (l : BitVec 19) records f c, DataAt s l.toNat 2 f c → Leads (.tagRecords l records) s (fun t =>
    let tag := consistTag l.toNat c f (headerStamp c.verify { f with stamp := stampOf s l.toNat c f }) (recordsOf f records)
    Advanced t l.toNat c f tag (stampOf s l.toNat c f) ∧ LeafPosted s t l.toNat c tag (stampOf s l.toNat c f) ∧
    Absorbs s t l.toNat f c (stampOf s l.toNat c f)
      [(num64 f.raw 24, (produceTags f.key l.toNat c.sequence.toNat (countOf f.raw) 0 (c.chainHead.take 16)
        (recordsOf f records)).flatten)] 0 (countOf f.raw) tag)) ∧
  (∀ s (l : BitVec 19) f c, DataAt s l.toNat 5 f c → c.verify = false → Leads (.mark l) s (fun t =>
    let tag := kmacFrom f.key (header 2 0 l.toNat c.sequence.toNat (stampOf s l.toNat c f).toNat 0 c.chainHead ++ slice f.raw 16 16) 32
    Advanced t l.toNat c f tag (stampOf s l.toNat c f) ∧ Absorbs s t l.toNat f c (stampOf s l.toNat c f) [] 0 0 tag))

/-- VERIFY_CONSIST (R123), VERIFY_RECORDS (R124): a match advances the chain with VERDICT 1; a mismatch leaves it, with
status 0x01 and VERDICT 2; VERIFY_RECORDS writes its verdict block first. Model choices in it: log entry 131. -/
def Obligations.VerifyLineChecks : Prop :=
  (∀ s (l : BitVec 19) records f c, DataAt s l.toNat 3 f c → c.verify = true →
    consistTag l.toNat c f (num f.raw 24 8) (recordsOf f records) = slice f.raw 32 32 → Leads (.verifyConsist l records) s (fun t =>
      Advanced t l.toNat c f (slice f.raw 32 32) (stampOf s l.toNat c f) ∧
      Absorbs s t l.toNat f c (stampOf s l.toNat c f) [] 0 (countOf f.raw + 0x2000) (slice f.raw 32 32))) ∧
  (∀ s (l : BitVec 19) records f c, DataAt s l.toNat 3 f c → c.verify = true →
    consistTag l.toNat c f (num f.raw 24 8) (recordsOf f records) ≠ slice f.raw 32 32 → Leads (.verifyConsist l records) s (fun t =>
      ctx? t l.toNat = some c ∧
      Absorbs s t l.toNat f c (stampOf s l.toNat c f) [] 1 (countOf f.raw + 2 * 0x2000) c.chainHead)) ∧
  (∀ s (l : BitVec 19) records expected f c, DataAt s l.toNat 4 f c → c.verify = true →
    consistTag l.toNat c f (num f.raw 32 8) (recordsOf f records) = slice expected (16 * countOf f.raw) 32 →
    (verifyTags f.key l.toNat c.sequence.toNat (countOf f.raw) 0 (c.chainHead.take 16)
      (recordsOf f records) expected).any id = false →
    Leads (.verifyRecords l records expected) s (fun t =>
      Advanced t l.toNat c f (slice expected (16 * countOf f.raw) 32) (stampOf s l.toNat c f) ∧
      Absorbs s t l.toNat f c (stampOf s l.toNat c f)
        [(num64 f.raw 40, verdictBlock (countOf f.raw) (verifyTags f.key l.toNat c.sequence.toNat (countOf f.raw) 0
          (c.chainHead.take 16) (recordsOf f records) expected))]
        0 (countOf f.raw + 0x2000) (slice expected (16 * countOf f.raw) 32)))

/-- CONSIST_FETCHED (R147), CONSIST_ABSORBED (R163): the stamp is taken, strictly above the track's last, when every record
is in the buffer; the final tag then advances the chain. Model choices in it: log entries 123, 131, 162. -/
def Obligations.StampAndAbsorb : Prop :=
  (∀ s (l : BitVec 19) records op f c, DataAt s l.toNat op f c → Fetches s f → Leads (.consistFetched l records) s (fun t =>
    (∃ g, (getLine t l.toNat).flights.head? = some g ∧ g.phase = .stamped ∧ g.stamp = stampOf s l.toNat c f ∧
      g.records = slice records 0 (16 * countOf f.raw) ∧ g.place = some ((trackAt s f.track.toNat).fill1, 0) ∧
      g.raw = f.raw ∧ g.key = f.key ∧ bufBad t g = false) ∧
    (trackAt t f.track.toNat).lastStamp = stampOf s l.toNat c f ∧ (∀ k, k ≠ l.toNat → getLine t k = getLine s k) ∧
    t.lne.credit = (if governed s then s.lne.credit - countOf f.raw else s.lne.credit) ∧
    t = { s with tracks := t.tracks, lne := t.lne, badPrivate := t.badPrivate })) ∧
  (∀ s (l : BitVec 19) records f c, DataAt s l.toNat 5 f c → Leads (.consistFetched l records) s (fun t =>
    (∃ g, (getLine t l.toNat).flights.head? = some g ∧ g = { f with phase := .stamped, stamp := stampOf s l.toNat c f }) ∧
    (trackAt t f.track.toNat).lastStamp = stampOf s l.toNat c f ∧ (∀ k, k ≠ l.toNat → getLine t k = getLine s k) ∧
    t = { s with tracks := t.tracks, lne := t.lne })) ∧
  (∀ s (l : BitVec 19) f c, Quiet s → mainPower s = true → s.hlk.up = true → l ≠ 0 → (getLine s l.toNat).service = false →
    (getLine s l.toNat).flights.head? = some f → (∀ g ∈ (getLine s l.toNat).flights.tail, g.id ≠ f.id) →
    f.phase = .stamped → byteAt f.raw 2 = 1 → c.verify = false → ctx? s l.toNat = some c →
    (trackAt s f.track.toNat).fencing = false → (trackAt s f.track.toNat).dense = false → ctxBad s l.toNat = false →
    recordBad s l.toNat = false → bufBad s f = false → Leads (.consistAbsorbed l []) s (fun t =>
      let tag := consistTag l.toNat c f f.stamp.toNat f.records
      Advanced t l.toNat c f tag f.stamp ∧ LeafPosted s t l.toNat c tag f.stamp ∧ Absorbs s t l.toNat f c f.stamp [] 0 (countOf f.raw) tag))

/-- FENCE (R126, R145): chain head and sequence after the waybills before it; with its flag set it waits for its epoch.
LINE_KEY_DERIVED, KEY_WAIT_TIMEOUT (R152, R153, R242): the waiting waybill reads the key derived from the line's parent, once the
table is rebuilt, and is stamped at once if its records came first (CONSIST_FETCHED takes them while the key is awaited, R140);
one not answered in time ends with 0x0B and halts its line. -/
def Sys2Proof.Claims.FencesAndKeys : Prop :=
  (∀ s (l : BitVec 19) f c, DataAt s l.toNat 6 f c → byteAt f.raw 3 % 2 = 0 → Leads (.fence l) s (fun t =>
    ctx? t l.toNat = some c ∧
    ∃ pre rest : List HostWrite, (∀ w ∈ pre, ∃ v, w = HostWrite.msix v) ∧ t.ports.hostOut = s.ports.hostOut ++ pre ++
      packets (nextDownEntry (getLine s l.toNat))
        (completionRecord f.raw 0 (b2n (stillUnsigned s (fenceEpoch c)) * 0x10000000) c.sequence.toNat s.ttc.toNat (fenceEpoch c)
          c.chainHead) ++ rest)) ∧
  (∀ s (l : BitVec 19) f c, DataAt s l.toNat 6 f c → byteAt f.raw 3 % 2 = 1 → unsealed s (fenceEpoch c) = true →
    Leads (.fence l) s (fun t =>
      (∃ g, (getLine t l.toNat).flights.head? = some g ∧ g.phase = .sealWait ∧ g.waitFor = fenceEpoch c) ∧
      t.ports = s.ports ∧ ctx? t l.toNat = some c ∧ t = { s with lne := t.lne, tracks := t.tracks })) ∧
  (∀ s (l : BitVec 19) records f, mainPower s = true → (getLine s l.toNat).service = false → headFlight s l.toNat = some f →
    f.phase = .keyWait → (∀ g ∈ (getLine s l.toNat).flights, g.id = f.id → g = f) → Fetches s f →
    Leads (.consistFetched l records) s (fun t =>
      (∃ g, headFlight t l.toNat = some g ∧ g = { f with
        records := slice records 0 (16 * countOf f.raw), place := some ((trackAt s f.track.toNat).fill1, 0) }) ∧
      (∀ k, k ≠ l.toNat → getLine t k = getLine s k) ∧
      t = { s with tracks := t.tracks, lne := { s.lne with lines := t.lne.lines }, badPrivate := t.badPrivate })) ∧
  (∀ s (l : BitVec 19) f c, Quiet s → mainPower s = true → (getLine s l.toNat).service = false → s.tableBuilt = true →
    headFlight s l.toNat = some f → f.phase = .keyWait → f.place ≠ none → recordsIn s f = true → Settled s →
    ctx? s l.toNat = some c → ctxBad s l.toNat = false →
    (lineKeyCheck s c.parent.toNat).status = 0 → (trackAt s f.track.toNat).enabled = true →
    stampedOn s f.track.toNat = none → creditFor s f = true → (∀ g ∈ (getLine s l.toNat).flights, g.id = f.id → g = f) →
    (∀ e ∈ s.lne.lines, ∀ x ∈ e.2.flights, x.track = f.track → (x.phase = .ready ∨ x.phase = .keyWait) → f.order ≤ x.order) →
    Leads (.lineKeyDerived l) s (fun t =>
      (∃ h, headFlight t l.toNat = some h ∧ h.phase = .stamped ∧ h.records = f.records ∧ h.stamp = stampOf s l.toNat c f) ∧
      (trackAt t f.track.toNat).lastStamp = stampOf s l.toNat c f ∧ getR64 t Reg.BTR_DERIVES = getR64 s Reg.BTR_DERIVES + 1 ∧
      (∀ k, k ≠ l.toNat → getLine t k = getLine s k))) ∧
  (∀ s (l : BitVec 19) f c, Quiet s → mainPower s = true → s.tableBuilt = true → headFlight s l.toNat = some f →
    f.phase = .keyWait → f.place = none → Settled s → ctx? s l.toNat = some c → ctxBad s l.toNat = false → (lineKeyCheck s c.parent.toNat).status = 0 →
    Leads (.lineKeyDerived l) s (fun t =>
      (∀ g ∈ (getLine t l.toNat).flights, g.phase ≠ .keyWait) ∧
      (∃ g, headFlight t l.toNat = some g ∧ g.phase = .ready ∧
        g.key = keyedState (lineKey (branchKey s c.parent.toNat) l.toNat c.generation)) ∧
      getR64 t Reg.BTR_DERIVES = getR64 s Reg.BTR_DERIVES + 1 ∧ (∀ k, k ≠ l.toNat → getLine t k = getLine s k))) ∧
  (∀ s (l : BitVec 19), Quiet s → mainPower s = true → s.tableBuilt = false → Settled s →
    Leads (.lineKeyDerived l) s (fun t => t = s)) ∧
  (∀ s (l : BitVec 19) f, Quiet s → mainPower s = true → headFlight s l.toNat = some f → f.phase = .keyWait →
    ctxBad s l.toNat = false → (getLine s l.toNat).state = .opened →
    (getLine s l.toNat).halt = false → Leads (.keyWaitTimeout l) s (fun t =>
      (getLine t l.toNat).state = .paused ∧ (getLine t l.toNat).halt = true ∧ (getLine t l.toNat).fault = 0x0B ∧
      fieldR t Reg.LNE_FAULT 0 19 = l.toNat ∧ fieldR t Reg.LNE_FAULT 24 8 = 0x0B ∧ isPending t 24 = true ∧
      (∀ k, k ≠ l.toNat → (getLine t k).state = (getLine s k).state ∧ (getLine t k).halt = (getLine s k).halt)))

/-- TRACK_SELF_TEST, TRACK_FENCE (R174, R175, R280), CREDIT_ACCOUNT (R172). A fenced track leaves a suspect-window record. -/
def Sys2Proof.Claims.TracksAndCredit : Prop :=
  (∀ s (n : BitVec 3), Quiet s → mainPower s = true → (trackAt s n.toNat).enabled = true → stampedOn s n.toNat = none →
    Leads (.trackSelfTest n true) s (fun t =>
      trackAt t n.toNat = { trackAt s n.toNat with lastPass := s.ttc } ∧
      (∀ k, k ≠ n.toNat → trackAt t k = trackAt s k) ∧ t = { s with tracks := t.tracks })) ∧
  (∀ s (n : BitVec 3), Quiet s → mainPower s = true → (trackAt s n.toNat).enabled = true →
    (trackAt s n.toNat).fenced = false → stampedOn s n.toNat = none → (∃ u ∈ unfenced s, u ≠ n.toNat) →
    s.badCells = [] → s.badPrivate = [] →
    Leads (.trackSelfTest n false) s (fun t =>
      (trackAt t n.toNat).fenced = true ∧ (trackAt t n.toNat).enabled = false ∧ fieldR t Reg.MSH_FAULT 0 3 = n.toNat ∧
      fieldR t Reg.MSH_FAULT 4 3 = 1 ∧ bitR t Reg.MSH_FAULT 7 = true ∧ isPending t 27 = true ∧ t.mode = s.mode ∧
      (logFull s = false → Recorded s t 0x24 (suspectRecord s n.toNat 1)))) ∧
  (∀ s m bits, Quiet s → MayWrite s m Reg.MSH_FENCE → (∃ u ∈ unfenced s, BitVec.getLsbD bits u = false) →
    s.badCells = [] → s.badPrivate = [] →
    Leads (.trackFence m bits) s (fun t =>
      (∀ k, k < 8 → bits.getLsbD k = true → (trackAt t k).fenced = true ∨ (trackAt t k).fencing = true) ∧
      (∀ k, k < 8 → bits.getLsbD k = false → (trackAt t k).fenced = (trackAt s k).fenced) ∧ t.mode = s.mode)) ∧
  (∀ s (n : BitVec 3) us, governed s = true → mainPower s = true → turnHalves s n.toNat = s →
    nextFetched { s with lne := { s.lne with credit := min 8192 (s.lne.credit + 160 * us) } } n.toNat = none →
    Leads (.creditAccount n us) s (fun t =>
      t = { s with lne := { s.lne with credit := min 8192 (s.lne.credit + 160 * us) } })) ∧
  (∀ s (n : BitVec 3) us l f c, governed s = true → mainPower s = true → turnHalves s n.toNat = s → ctx? s l = some c →
    nextFetched { s with lne := { s.lne with credit := min 8192 (s.lne.credit + 160 * us) } } n.toNat = some (l, f) →
    Leads (.creditAccount n us) s (fun t =>
      t.lne.credit = min 8192 (s.lne.credit + 160 * us) - countOf f.raw ∧
      (trackAt t f.track.toNat).lastStamp = stampOf s l c f ∧ t = { s with tracks := t.tracks, lne := t.lne, badPrivate := t.badPrivate }))

/-- Fences and keys; tracks and credit. Model choices in it: log entries 101, 123, 169, 170. -/
def Obligations.FencesKeysTracksCredit : Prop := Sys2Proof.Claims.FencesAndKeys ∧ Sys2Proof.Claims.TracksAndCredit

/-! ### Time, epochs, staging -/

/-- TTC_ADVANCE (R184), VIGIL_COUNT_REWRITE (R182), TCXO_FAILURE (R33, R185, R564). Model choices in it: log entries 118,
172. -/
def Obligations.Timetable : Prop :=
  (∀ s m v, MayWrite s m Reg.TTC_ADVANCE → bitR s Reg.TTC_STATUS 1 = false → ready s = false →
    s.ttc.toNat < BitVec.toNat v → Leads (.ttcAdvance m .both v) s (fun t =>
      t.ttc = v ∧ getR t Reg.TTC_STATUS = getR s Reg.TTC_STATUS ||| 2 ∧ SameRegs s t [Reg.TTC_STATUS] ∧ Raises s t [21] ∧
      t = withEvents { s with regs := t.regs, ttc := v } t)) ∧
  (∀ s m v, MayWrite s m Reg.TTC_ADVANCE → (bitR s Reg.TTC_STATUS 1 = true ∨ ready s = true ∨ BitVec.toNat v ≤ s.ttc.toNat) →
    Leads (.ttcAdvance m .both v) s (fun t =>
      getR t Reg.TTC_STATUS = getR s Reg.TTC_STATUS ||| 8 ∧ OnlyRegs s t [Reg.TTC_STATUS] [])) ∧
  (∀ s m v, MayWrite s m Reg.TTC_ADVANCE → Leads (.ttcAdvance m .lo v) s (fun t =>
    heldLow t Reg.TTC_ADVANCE = lo32 v ∧ t = { s with lowHeld := t.lowHeld })) ∧
  (∀ s, mainPower s = true → Leads .vigilCountRewrite s (fun t =>
    t.vigil.count = BitVec.ofNat 48 (((s.ttc.toNat + 100000000) * 128 + 390624) / 390625) ∧
    privateBad t .count = false ∧
    t = { s with vigil := { s.vigil with count := t.vigil.count }, badPrivate := t.badPrivate })) ∧
  (∀ s, Quiet s → mainPower s = true → bitR s Reg.TTC_STATUS 0 = false → sealing s = false → classOf s 70 = 0 →
    s.vigil.active.getLsbD 70 = false → s.vigil.testing = none → Leads .tcxoFailure s (fun t =>
      bitR t Reg.TTC_STATUS 0 = true ∧ isPending t 134 = true ∧ t.vigil.sticky.getLsbD 70 = true ∧ t.mode = s.mode ∧
      t.ttc = s.ttc))

/-- No waybill is in flight on any line. -/
def Sys2Proof.Machine.NoFlights (s : State) : Prop := ∀ e ∈ s.lne.lines, e.2.flights = []

/-- The log has room to spare: it is not full, and no stripe has to be reclaimed for another wordline. -/
def Sys2Proof.Machine.LogRoom (s : State) : Prop :=
  logFull s = false ∧ s.flash.stripes.length < 476 ∧ heldBytes s + wordlineStripe s.flash.deadDies ≤ 128000000000

/-- The signature of a Manifest under the key that a lane has loaded for it, or loads now (R202, R337, R338). -/
def Sys2Proof.Machine.manifestSignature (s : State) (j : SealJob) : Bytes :=
  (signWith s ((loadedSeed s).getD (loadKey (freeManifestLane s) (workLane (freeManifestLane s)) (keyBranch s)).key.seed)
    (manifestMsg j.header)).sig

/-- EPOCH_CLOSE (R190), ROOT_FROZEN, MANIFEST_SIGNED, MANIFEST_STORED (R196, R199, R202): the open epoch becomes a sealing job
at its boundary and the next opens there; its header is frozen, signed under the Manifest key (with zeros for a signature where
nothing can sign it), staged, and counted as stored with event 272. -/
def Sys2Proof.Claims.EpochSealing : Prop :=
  (∀ s e, Quiet s → s.su.open_ = some e → epochEnd s e.number ≤ s.ttc.toNat → tracksPast s = true → s.su.ahead = [] →
    Leads .epochClose s (fun t =>
      (∃ j, t.su.jobs = s.su.jobs ++ [j] ∧ j.epoch = e ∧ j.ttcEnd = BitVec.ofNat 64 (epochEnd s e.number) ∧
        j.phase = .freezing ∧ j.leaves = s.su.leaves ∧ j.condemned = false) ∧
      (∃ n, t.su.open_ = some n ∧ n.number = e.number + 1 ∧ n.ttcStart = BitVec.ofNat 64 (epochEnd s e.number) ∧
        n.restart = false ∧ n.consists = 0 ∧ n.changed = []) ∧
      t.su.leaves = s.su.leaves ∧ SameRegs s t [Reg.SEAL_ERR] ∧
      t = withEvents { s with regs := t.regs, su := t.su } t)) ∧
  (∀ s j r, Quiet s → mainPower s = true → s.su.jobs = j :: r → j.phase = .freezing → s.su.rebuilding = false →
    privateBad s .treeStore = false → refusedAtFreeze s j = false → s.su.unsigned = [] → Leads .rootFrozen s (fun t =>
      (∃ k, t.su.jobs = k :: r ∧ k.header = manifestHeader s j false ∧ k.phase = .signing ∧ k.signature = [] ∧
        k.epoch = j.epoch ∧ k.leaves = j.leaves) ∧
      t.su.prev = sha3_256 (manifestHeader s j false) ∧ t.log = s.log ∧ SameRegs s t [Reg.SEAL_ERR])) ∧
  (∀ s j r, Quiet s → mainPower s = true → s.su.jobs = j :: r → j.phase = .signing → j.signature = [] → j.plant = [] →
    s.su.unsigned = [] → canSign s = true → Leads .manifestSigned s (fun t =>
      t.log.staging = s.log.staging ++
        [{ frames := framesOf s 0x01 (j.header ++ manifestSignature s j), delta := deltaRecord j, manifest := true, ckpt := none }] ∧
      (∃ k, t.su.jobs = k :: r ∧ k.phase = .storing ∧ k.signature = manifestSignature s j ∧ k.header = j.header) ∧
      getR64 t Reg.LSU_SIGNS = getR64 s Reg.LSU_SIGNS + 1 ∧ manifestRuns t = false)) ∧
  (∀ s j r, Quiet s → mainPower s = true → s.su.jobs = j :: r → j.phase = .signing → j.signature = [] → j.plant = [] →
    s.su.unsigned = [] → loadedSeed s = none → canSign s = false → Leads .manifestSigned s (fun t =>
      t.log.staging = s.log.staging ++
        [{ frames := framesOf s 0x01 (j.header ++ zeros 1280), delta := deltaRecord j, manifest := true, ckpt := none }] ∧
      getR64 t Reg.LSU_SIGNS = getR64 s Reg.LSU_SIGNS ∧ t.lanes = s.lanes)) ∧
  (∀ s j r w q, Quiet s → mainPower s = true → s.su.jobs = j :: r → s.log.staging = w :: q → w.manifest = true →
    ringRoom s (writeSize w) = true → NoFlights s → LogRoom s → Leads .manifestStored s (fun t =>
      getR64 t Reg.SEAL_LAST = BitVec.ofNat 64 j.epoch.number ∧ isPending t 272 = true ∧ t.su.jobs = r ∧
      t.su.stored = j.leaves ∧ t.su.window.head?.map (fun x => x.epoch) = some j.epoch.number ∧
      t.log.frames = s.log.frames ++ w.frames))

/-- TREE_REBUILD_DONE (R214, R215), STATION_STALE (R268), STAGING_WRITE_VERIFIED (R275, R277), WORDLINE_STRIPE_PROGRAMMED (R276,
R297): the one under way finishes, also while the last-gasp seal runs. -/
def Sys2Proof.Claims.RebuildAndStaging : Prop :=
  (∀ s, Quiet s → mainPower s = true → s.su.rebuilding = true → s.su.storedRoot = lineRoot s.su.stored →
    privateBad s .deltaLists = false → (getLine s 0).flights = [] → Leads .treeRebuildDone s (fun t =>
      t.su.rebuilding = false ∧ t.su.treeReset = s.su.treeReset ∧
      t.su.leaves = overlay (s.su.jobs.foldl (fun m j => overlay m j.epoch.changed) s.su.stored)
        ((s.su.open_.map (fun e => e.changed)).getD []) ∧
      SameRegs s t [Reg.SEAL_STATUS] ∧ t = { s with regs := t.regs, su := t.su })) ∧
  (∀ s, Quiet s → mainPower s = true → s.su.rebuilding = true → s.su.storedRoot ≠ [] → s.su.storedRoot ≠ lineRoot s.su.stored →
    privateBad s .deltaLists = false → (getLine s 0).flights = [] → Leads .treeRebuildDone s (fun t =>
      t.su.rebuilding = false ∧ t.su.treeReset = true ∧ t.su.window = [] ∧ t.su.stored = [] ∧ isPending t 274 = true ∧
      bitR t Reg.SEAL_ERR 1 = true)) ∧
  (∀ s (n : BitVec 12) st, mget? s.stations n.toNat = some st → isTerminus s = true → st.state = .enrolled → st.stale = false →
    st.lastRelay.toNat + 6000000000 ≤ s.ttc.toNat → Leads (.stationStale n) s (fun t =>
      mget? t.stations n.toNat = some { st with stale := true } ∧
      (∀ k, k ≠ n.toNat → mget? t.stations k = mget? s.stations k) ∧ Raises s t [298] ∧
      t = withEvents { s with stations := t.stations } t)) ∧
  (∀ s w q, Quiet s → mainPower s = true → s.log.staging = w :: q → w.manifest = false → ringRoom s (writeSize w) = true →
    NoFlights s → LogRoom s → Leads (.stagingWriteVerified true) s (fun t =>
      t.log.frames = s.log.frames ++ w.frames ∧ t.log.staging = q ∧ t.su.jobs = s.su.jobs ∧
      t.flash.stagingBytes = s.flash.stagingBytes + writeSize w)) ∧
  (∀ s w q, Quiet s → mainPower s = true → s.log.staging = w :: q → ringRoom s (writeSize w) = true →
    Leads (.stagingWriteVerified false) s (fun t =>
      t.log = s.log ∧ t.flash.stagingBytes = s.flash.stagingBytes + writeSize w ∧
      t = withEvents { s with flash := t.flash } t)) ∧
  (∀ s w q ok, Quiet s → mainPower s = true → s.log.staging = w :: q → ringRoom s (writeSize w) = false → LogRoom s →
    Leads (.stagingWriteVerified ok) s (fun t => t.log = s.log ∧ t.flash.stagingBytes = s.flash.stagingBytes ∧ t.su = s.su)) ∧
  (∀ s, Quiet s → mainPower s = true → s.flash.programming = true → LogRoom s → needsReclaim (programStripe s) = false →
    s.flash.stripes ≠ [] → s.flash.wordlines < 767 → Leads (.wordlineStripeProgrammed true) s (fun t =>
      t.flash.wordlines = s.flash.wordlines + 1 ∧ t.flash.stripes.length = s.flash.stripes.length ∧
      t.flash.staged = (release s (s.flash.carry + wordlineStripe s.flash.deadDies) s.flash.staged
        (((s.flash.stripes.getLast?).map (fun x => x.last)).getD 0)).1 ∧
      t.log = s.log ∧ t = { s with flash := t.flash }))

/-- Epochs are sealed, rebuilt, staged and stored. Model choices in it: log entries 106, 114, 121, 140, 141, 158, 171. -/
def Obligations.EpochsAndStaging : Prop := Sys2Proof.Claims.EpochSealing ∧ Sys2Proof.Claims.RebuildAndStaging

/-! ### The branch tree unit -/

/-- A BTR_CMD write that the unit accepts: no command is in progress, and the table is rebuilt (R242, R250). -/
def Sys2Proof.Machine.BtrIdle (s : State) (m : Master) : Prop :=
  Quiet s ∧ MayWrite s m Reg.BTR_CMD ∧ s.btr = none ∧ s.tableBuilt = true

/-- The image that stands opens under a Trunk (R242). -/
def Sys2Proof.Machine.ImageOpensUnder (s : State) (trunk : Bytes) : Prop :=
  ∃ im, s.image = some im ∧
    imageOpens { s with vigil := { s.vigil with trunk := .valid, trunkKey := trunk } } im = true

/-- BTR_RESULT reports a command's end: status, its inverse, reason, DONE (R15, R250). -/
def Sys2Proof.Machine.BtrEnds (t : State) (status reason : Nat) : Prop :=
  fieldR t Reg.BTR_RESULT 0 8 = status ∧ fieldR t Reg.BTR_RESULT 8 8 = 255 - status ∧
  fieldR t Reg.BTR_RESULT 16 4 = reason ∧ bitR t Reg.BTR_RESULT 31 = true

/-- A structural command of firmware is in progress: the table has changed, its image is being written (R239). -/
def Sys2Proof.Machine.BtrBusy (t : State) (op i : Nat) : Prop :=
  (∃ p, t.btr = some p ∧ p.op = op ∧ p.index = i ∧ p.waybill = none ∧ p.report = true) ∧ bitR t Reg.BTR_RESULT 31 = false

/-- The fields of BTR_ARG, and BTR_BUF (R250). -/
def Sys2Proof.Machine.btrIndex (s : State) : Nat := fieldR s Reg.BTR_ARG 0 12
def Sys2Proof.Machine.btrKind (s : State) : Nat := fieldR s Reg.BTR_ARG 12 3
def Sys2Proof.Machine.btrParent (s : State) : Nat := fieldR s Reg.BTR_ARG 16 12
def Sys2Proof.Machine.btrExpire (s : State) : Bool := bitR s Reg.BTR_ARG 28
def Sys2Proof.Machine.btrBuf (s : State) : Nat := (getR s Reg.BTR_BUF).toNat

/-- The engines that a hybrid exchange needs take it at once (R328, R333, R342). -/
def Sys2Proof.Machine.HybridFree (s : State) : Prop := hybridReady s = true ∧ anyLane s = true

/-- The new entry of a branch command (R223, R226). -/
def Sys2Proof.Machine.EnteredBranch (s t : State) (parent : Nat) (label : Bytes) (key : Option Bytes) : Prop :=
  ∃ b, mget? t.branches (btrIndex s) = some b ∧ b.state = .valid ∧ b.kind.toNat = btrKind s ∧ b.parent = parent ∧
    b.depth = depthOf s parent + 1 ∧ b.label = slice label 0 32 ∧ b.uses = getR s Reg.BTR_ARG2 ∧
    b.mask = legalMask (getR64 s Reg.BTR_MASK) ∧ b.generation = 0 ∧ b.installed = key.isSome ∧ b.key = key.getD [] ∧
    b.lines = 0

/-- BTR_DERIVE (R226), INSTALL_ENCAPS (R227), INSTALL_DECAPS (R228): a branch created by firmware's command; while the
engines of a hybrid exchange are taken, the request waits for them with its operands (R328, R333). Model choices in it: log
entries 15, 20, 139, 144. -/
def Obligations.BranchCreation : Prop :=
  (∀ s m, BtrIdle s m → inRunOrCommission s = true → PlainRead s m (btrBuf s) 32 → imageWorn s = false →
    createCheck s (btrIndex s) (btrParent s) (btrKind s) (memBytes s (btrBuf s) 32) false [BitVec.toNat m] = Check.ok →
    (commandBranch s (commandArgs s m) (btrParent s) (memBytes s (btrBuf s) 32) none).expire = false →
    Leads (.btrDerive m) s (fun t =>
      EnteredBranch s t (btrParent s) (memBytes s (btrBuf s) 32) none ∧ BtrBusy t 1 (btrIndex s) ∧
      (∀ k, k ≠ btrIndex s → k ≠ btrParent s → mget? t.branches k = mget? s.branches k) ∧
      SameRegs s t [Reg.BTR_RESULT] ∧ t = { s with regs := t.regs, branches := t.branches, image := t.image, btr := t.btr, badPrivate := t.badPrivate })) ∧
  (∀ s m peer, BtrIdle s m → inRunOrCommission s = true → PlainRead s m (btrBuf s) 1697 → PlainWrite s m (btrBuf s + 32) 1665 → imageWorn s = false →
    createCheck s (btrIndex s) (btrParent s) (btrKind s) (memBytes s (btrBuf s) 1697) true [BitVec.toNat m] = Check.ok →
    (commandBranch s (commandArgs s m) (btrParent s) (memBytes s (btrBuf s) 1697) (some [])).expire = false →
    entReady s = true → HybridFree s →
    Leads (.installEncaps m peer) s (fun t => publicOk peer = true →
      let e := encapsKey (slice peer 0 1665) (drawBytes s 88) (memBytes s (btrBuf s) 1697) (btrKind s)
      EnteredBranch s t (btrParent s) (memBytes s (btrBuf s) 1697) (some e.1) ∧
      memBytes t (btrBuf s + 32) 1665 = e.2 ∧ BtrBusy t 2 (btrIndex s))) ∧
  (∀ s m ct, BtrIdle s m → inRunOrCommission s = true → PlainRead s m (btrBuf s) 1697 → imageWorn s = false →
    createCheck s (btrIndex s) 0 (btrKind s) (memBytes s (btrBuf s) 1697) true [] = Check.ok → btrExpire s = false →
    mget? s.branches 0 = none → HybridFree s →
    (useCheck s (btrParent s) (fun k => decide (k = 3)) [27, 26, BitVec.toNat m]) = Check.ok →
    Leads (.installDecaps m ct) s (fun t =>
      EnteredBranch s t 0 (memBytes s (btrBuf s) 1697)
        (some (decapsKey (branchKey s (btrParent s)) (slice ct 0 1665) (memBytes s (btrBuf s) 1697) (btrKind s))) ∧
      BtrBusy t 3 (btrIndex s))) ∧
  (∀ s m ct, BtrIdle s m → inRunOrCommission s = true → PlainRead s m (btrBuf s) 1697 → imageWorn s = false →
    createCheck s (btrIndex s) 0 (btrKind s) (memBytes s (btrBuf s) 1697) true [] = Check.ok →
    (useCheck s (btrParent s) (fun k => decide (k = 3)) [27, 26, BitVec.toNat m]) = Check.ok → anyLane s = true →
    hybridReady s = false → Leads (.installDecaps m ct) s (fun t =>
      t.mae.request = some (.command 3 (commandArgs s m) ct (btrParent s)) ∧ t.branches = s.branches ∧
      (∃ p, t.btr = some p ∧ p.index = btrIndex s ∧ p.report = true) ∧ bitR t Reg.BTR_RESULT 31 = false ∧
      SameRegs s t [Reg.BTR_RESULT] ∧ t = { s with regs := t.regs, btr := t.btr, mae := t.mae }))

/-- INVALIDATE (R235), ROTATE (R236), PURGE (R237). -/
def Sys2Proof.Claims.BranchEnds : Prop :=
  (∀ s m b, BtrIdle s m → mget? s.branches (btrIndex s) = some b → b.state = .valid → s.vigil.trunk = .valid →
    privateBad s (.branch (btrIndex s)) = false → imageWorn s = false → Leads (.invalidate m) s (fun t =>
      mget? t.branches (btrIndex s) = some { b with state := .invalid } ∧ BtrBusy t 4 (btrIndex s) ∧
      (∀ k, k ≠ btrIndex s → mget? t.branches k = mget? s.branches k) ∧
      (∀ k ∈ t.keyCache, k.parent ≠ btrIndex s ∧ k.ancestors.contains (btrIndex s) = false) ∧ t.mode = s.mode)) ∧
  (∀ s m b, BtrIdle s m → inRunOrCommission s = true → mget? s.branches (btrIndex s) = some b → b.state = .valid →
    b.installed = false → b.kind ≠ 6 → s.vigil.trunk = .valid → privateBad s (.branch (btrIndex s)) = false →
    imageWorn s = false → Leads (.rotate m) s (fun t =>
      mget? t.branches (btrIndex s) = some { b with generation := b.generation + 1 } ∧ BtrBusy t 6 (btrIndex s) ∧
      (∀ k, k ≠ btrIndex s → mget? t.branches k = mget? s.branches k) ∧
      (∀ k ∈ t.keyCache, k.parent ≠ btrIndex s ∧ k.ancestors.contains (btrIndex s) = false) ∧ t.mode = s.mode)) ∧
  (∀ s m b, BtrIdle s m → inRunOrCommission s = true → mget? s.branches (btrIndex s) = some b → b.state = .invalid →
    hasChildren s (btrIndex s) = false → b.lines = 0 → s.vigil.trunk = .valid →
    privateBad s (.branch (btrIndex s)) = false → imageWorn s = false →
    Leads (.purge m) s (fun t =>
      mget? t.branches (btrIndex s) = none ∧ BtrBusy t 5 (btrIndex s) ∧
      (∀ k, k ≠ btrIndex s → mget? t.branches k = mget? s.branches k) ∧ t.mode = s.mode))

/-- TRUNK_CREATE (R219), BTR_COMMAND_DONE (R239, R243), TABLE_REBUILD_DONE (R242): the Trunk is drawn and the table emptied,
the image takes the next serial, and the rebuild takes the branches of a qualifying image. TRUNK_ZEROISE (R221): the Trunk is
lost, with event 292, and the device enters Condemned. -/
def Sys2Proof.Claims.TrunkAndTable : Prop :=
  (∀ s m, BtrIdle s m → s.mode = .commissioning → s.vigil.trunk ≠ .valid → entReady s = true → imageWorn s = false →
    Leads (.trunkCreate m) s (fun t =>
      BtrBusy t 8 0 ∧ SameRegs s t [Reg.BTR_RESULT] ∧ t = { s with regs := t.regs, btr := t.btr })) ∧
  (∀ s, Quiet s → mainPower s = true → s.btr = some (plainPending 8 0) → s.mae.request = none → s.fusesOk = true →
    sstCount s 9 < 99999 → Leads .btrCommandDone s (fun t =>
      t.btr = none ∧ t.vigil.trunk = .valid ∧ t.vigil.trunkKey = drawBytes s 32 ∧ t.branches = [] ∧ t.keyCache = [] ∧
      isPending t 291 = true ∧
      t.image = some { bytes := imageBytes (drawBytes s 32) (trunkCheck (drawBytes s 32)) (imageSerial s + 1) [], counts := [] } ∧
      sstGet t 9 = BitVec.ofNat 64 (imageSerial s + 1) ∧ BtrEnds t 0 0)) ∧
  (∀ s p, Quiet s → mainPower s = true → s.btr = some p → p.persist = true → p.op ≠ 1 → p.op ≠ 4 → p.op ≠ 8 →
    p.waybill = none → p.report = true → p.slot = none → p.pair = none → reportWaits s p = false →
    s.mae.request = none → Leads .btrCommandDone s (fun t =>
      t.btr = none ∧
      t.image = some { bytes := imageBytes s.vigil.trunkKey (trunkCheckNow s) (imageSerial s + 1) (persistent s.branches),
                       counts := [] } ∧
      BtrEnds t 0 0)) ∧
  (∀ s p, Quiet s → mainPower s = true → s.btr = some p → (reportWaits s p = true ∨ s.mae.request ≠ none) →
    Leads .btrCommandDone s (fun t => t = s)) ∧
  (∀ s im, Quiet s → mainPower s = true → s.fusesOk = true → s.tableBuilt = false → s.vigil.trunk = .valid → privateBad s .trunk = false →
    imageWorn s = false → s.image = some im → imageOpens s im = true → Leads .tableRebuildDone s (fun t =>
      t.tableBuilt = true ∧
      t.branches = (imageBranches s.vigil.trunkKey im).map (fun e => (e.1, { e.2 with lines := linesUnder s e.1 })) ∧
      getR t Reg.BTR_STATUS = getR s Reg.BTR_STATUS ||| 8 ∧ SameRegs s t [Reg.BTR_STATUS, Reg.SST_STATUS, Reg.SST_ERR] ∧
      t = withEvents { s with regs := t.regs, branches := t.branches, tableBuilt := true, flash := t.flash,
                              badPrivate := t.badPrivate, sst := t.sst, sstWear := t.sstWear, badCells := t.badCells,
                              lanes := t.lanes, keyCache := t.keyCache } t)) ∧
  (∀ s, Quiet s → mainPower s = true → s.fusesOk = false → s.tableBuilt = false → Leads .tableRebuildDone s (fun t =>
      t.tableBuilt = true ∧ t.branches = [] ∧ t.sst = s.sst ∧ t.regs = s.regs)) ∧
  (∀ s, Quiet s → s.tableBuilt = true → Leads .tableRebuildDone s (fun t => t = s)) ∧
  (∀ s m, BtrIdle s m → s.mode = .commissioning → sessionLevel s ≠ 2 → s.lko.inv = none →
    Leads (.trunkZeroise m) s (fun t =>
      t.vigil.trunk = .lost ∧ t.vigil.trunkKey = zeros 32 ∧ t.keyCache = [] ∧ isPending t 292 = true ∧ t.mode = .condemned ∧
      t.prevMode = .commissioning ∧ t.worksPlate = (if zfull s then zeros 32 else s.worksPlate) ∧ BtrEnds t 0 0))

/-- BACKUP (R246), RESCUE, RELEASE, IMPORT (R247, R248): the Trunk wrapped under a Seal branch; the rescue key pair under the
Works Plate; the Seal key released to it; the Trunk taken back. -/
def Sys2Proof.Claims.TrunkBackup : Prop :=
  (∀ s m b p, BtrIdle s m → inRunOrCommission s = true →
    useCheck s (btrIndex s) (fun k => decide (k = 5)) [BitVec.toNat m] = Check.ok → entReady s = true →
    mget? s.branches (btrIndex s) = some b → mget? s.branches b.parent = some p → privateBad s .trunk = false →
    PlainWrite s m (btrBuf s) (backupBlob s (branchKey s (btrIndex s)) b p (drawBytes s 16)).length →
    Leads (.backup m) s (fun t =>
      memBytes t (btrBuf s) (backupBlob s (branchKey s (btrIndex s)) b p (drawBytes s 16)).length =
        backupBlob s (branchKey s (btrIndex s)) b p (drawBytes s 16) ∧
      BtrEnds t 0 0 ∧ SameRegs s t [Reg.BTR_RESULT] ∧ t.branches = s.branches ∧ t.vigil = s.vigil)) ∧
  (∀ s m, BtrIdle s m → s.mode = .commissioning → s.vigil.trunk ≠ .valid → hasPlate s = true → entReady s = true →
    HybridFree s → PlainWrite s m (btrBuf s) 4738 →
    Leads (.rescue m) s (fun t =>
      t.rescueSeed = drawBytes s 120 ∧
      memBytes t (btrBuf s) 3458 = rescuePublic (drawBytes s 120) ++ platePublic s ∧ BtrEnds t 0 0 ∧
      t.vigil = s.vigil)) ∧
  (∀ s m kp, BtrIdle s m → s.mode = .running → PlainRead s m (btrBuf s) 4922 →
    pairKey s (slice (slice (memBytes s (btrBuf s) 4922) 0 184) 24 32) = .escrow kp → entReady s = true → HybridFree s →
    Leads (.release m) s (fun t =>
      let chain := memBytes s (btrBuf s) 4922
      let blob := slice chain 0 184
      let ks := childKey kp (slice blob 56 32) 5 (BitVec.ofNat 32 (num blob 4 4))
      let r := releaseBlock ks (slice chain 184 1665) (slice blob 8 16) (drawBytes s 104)
      (sha3_256 (slice chain 1849 1793)).take 16 = slice blob 8 16 →
      falconVerify (slice chain 1849 1793) (rescueMsg (slice chain 184 1665) (slice blob 8 16)) (slice chain 3642 1280) =
        true →
      kmac256 ks (slice blob 0 152) 32 sealTrunk = slice blob 152 32 → publicOk (slice chain 184 1665) = true →
      PlainWrite s m (btrBuf s + 184) r.length →
      memBytes t (btrBuf s + 184) r.length = r ∧ BtrEnds t 0 0 ∧ t.vigil = s.vigil ∧ t.branches = s.branches)) ∧
  (∀ s m, BtrIdle s m → s.mode = .commissioning → s.vigil.trunk ≠ .valid → PlainRead s m (btrBuf s) 1929 → s.rescueSeed ≠ [] → hasPlate s = true →
    HybridFree s →
    Leads (.btrImport m) s (fun t =>
      (let blob := slice (memBytes s (btrBuf s) 1929) 0 184
       let rel := slice (memBytes s (btrBuf s) 1929) 184 1745
       let d := decapsulate (slice s.rescueSeed 0 64) (scalarOf (slice s.rescueSeed 64 56)) (slice rel 0 1665) (zeros 48)
       let kx := hybridKey d.1 d.2 (rescuePublic s.rescueSeed) (slice rel 0 1665) (slice blob 8 16) (ascii "XLX release")
       let ks := xorBytes (slice rel 1681 32) (kmacXof256 kx (slice rel 1665 16) 32 wrapTrunk)
       let trunk := xorBytes (slice blob 120 32) (kmacXof256 ks (slice blob 104 16 ++ slice blob 8 16) 32 wrapTrunk)
       kmac256 kx (slice rel 0 1713) 32 sealTrunk = slice rel 1713 32 ∧
       kmac256 ks (slice blob 0 152) 32 sealTrunk = slice blob 152 32 ∧ slice blob 8 16 = identity s ∧
       trunkCheck trunk = slice blob 96 8 ∧ ImageOpensUnder s trunk) →
      t.vigil.trunk = .valid ∧ trunkCheck t.vigil.trunkKey = slice (slice (memBytes s (btrBuf s) 1929) 0 184) 96 8 ∧
      isPending t 291 = true ∧ BtrEnds t 0 0))

/-- RETIRE (R259): the slot is freed and a retirement record appended; the slot's pairing branch, where it is still kept, is
invalidated. -/
def Sys2Proof.Claims.RetireFreesSlot : Prop :=
  (∀ s m (n : BitVec 12) st b, Quiet s → mget? s.stations n.toNat = some st → s.mode = .commissioning → isTerminus s = true →
    isSignalbox m = true → s.btr = none → keptPairing s st = true → mget? s.branches st.branch = some b →
    s.vigil.trunk = .valid → imageWorn s = false → Leads (.retire m n) s (fun t =>
      mget? t.stations n.toNat = none ∧ mget? t.branches st.branch = some { b with state := .invalid } ∧
      (∃ p, t.btr = some p ∧ p.op = 4 ∧ p.index = st.branch ∧ p.report = false) ∧
      Recorded s t 0x22 (le 2 n.toNat ++ zeros 6 ++ le 8 st.epoch ++ slice st.digest 0 32 ++ slice st.label 0 32))) ∧
  ∀ s m (n : BitVec 12) st, Quiet s → mget? s.stations n.toNat = some st → s.mode = .commissioning → isTerminus s = true →
    isSignalbox m = true → s.btr = none → keptPairing s st = false → Leads (.retire m n) s (fun t =>
      mget? t.stations n.toNat = none ∧ (∀ k, k ≠ n.toNat → mget? t.stations k = mget? s.stations k) ∧
      Recorded s t 0x22 (le 2 n.toNat ++ zeros 6 ++ le 8 st.epoch ++ slice st.digest 0 32 ++ slice st.label 0 32) ∧
      t = { s with stations := t.stations, log := t.log })

/-- Branches end and key slots are freed. Model choices in it: log entries 119, 144. -/
def Obligations.BranchAndSlotEnds : Prop := Sys2Proof.Claims.BranchEnds ∧ Sys2Proof.Claims.RetireFreesSlot

/-- The Trunk, its backup and the branch table. Model choices in it: log entries 15, 20, 119, 120, 131, 139, 144, 158, 160.
-/
def Obligations.TrunkUnit : Prop := Sys2Proof.Claims.TrunkAndTable ∧ Sys2Proof.Claims.TrunkBackup

/-! ### Service waybills -/

/-- A signature under a branch's key: from the store of the lane that serves it, else generated (R202, R229, R337, R338). -/
def Sys2Proof.Machine.signatureBy (s : State) (i : Nat) (msg : Bytes) : Signed :=
  signWith s (loadKey s (workLane s) i).key.seed msg

/-- SIGN (R130, R202, R233), VERIFY_SIG (R131): a padded signature under the named Falcon seed, with a fresh nonce; a
signature that verifies ends with 0x00, one that does not with 0x10,
a key or signature that cannot be read with 0x1B; a SIGN waits for the table and for a free lane (R242, R333). -/
def Sys2Proof.Claims.SignatureWaybills : Prop :=
  (∀ s (l : BitVec 19) pos msg f c, ServiceAt s l.toNat pos 0x20 f c →
    ¬ (keyValid s = true ∧ num f.raw 4 2 % 4096 = keyBranch s) →
    useCheck s (num f.raw 4 2 % 4096) (fun k => decide (k = 2)) [27] = Check.ok → entReady s = true → lsuBusy s = false →
    s.tableBuilt = true → lanesBusy s = false → Leads (.sign l pos msg) s (fun t =>
      let r := signatureBy s (num f.raw 4 2 % 4096) (slice msg 0 (wf64 f.raw 16))
      Answered s t l.toNat f [(BitVec.ofNat 64 (wf64 f.raw 24), r.sig)] 0 1280 (c.sequence.toNat + 1) [] ∧
      t.entCtr = r.state.entCtr ∧ getR64 t Reg.LSU_SIGNS = getR64 s Reg.LSU_SIGNS + 1)) ∧
  (∀ s (l : BitVec 19) pos msg f, WaybillAt s l.toNat pos 0x20 f → Quiet s → (s.tableBuilt = false ∨ lanesBusy s = true) →
    Leads (.sign l pos msg) s (fun t => t = s)) ∧
  (∀ s (l : BitVec 19) pos msg ks f c, ServiceAt s l.toNat pos 0x21 f c →
    (byteAt f.raw 4 % 16 ≠ 0 ∨ (lsuBusy s = false ∧ lanesBusy s = false)) →
    Leads (.verifySig l pos msg ks) s (fun t =>
      let v := verdict (byteAt f.raw 4 % 16) (decide (byteAt f.raw 3 % 2 = 1)) (slice ks 4 (num ks 0 2))
        (slice ks (4 + num ks 0 2) (num ks 2 2)) (slice msg 0 (wf64 f.raw 16))
      (v = some true → Answered s t l.toNat f [] 0 0 (c.sequence.toNat + 1) []) ∧
      (v = some false → Answered s t l.toNat f [] 0x10 0 (c.sequence.toNat + 1) []) ∧
      (v = none → Answered s t l.toNat f [] 0x1B 0 (c.sequence.toNat + 1) [])))

/-- The entry that a waybill of the branch tree creates, and the image write that its completion waits for (R132, R226,
R239). -/
def Sys2Proof.Machine.WaybillBranch (s t : State) (op l : Nat) (f : Flight) (key : Option Bytes) (length : Nat)
    (writes : List (DWord × Bytes)) : Prop :=
  (∃ b, mget? t.branches (wbTarget f.raw) = some b ∧ b.state = .valid ∧ b.kind = BitVec.ofNat 3 (wbKind f.raw) ∧
    b.parent = wbParent f.raw ∧ b.label = wbLabel f.raw ∧ b.mask = legalMask (wbMask f.raw) ∧ b.uses = 0xFFFFFFFF ∧
    b.generation = 0 ∧ b.installed = key.isSome ∧ b.key = key.getD []) ∧
  (∃ p, t.btr = some p ∧ p.op = op ∧ p.index = wbTarget f.raw ∧ p.waybill = some (l, f.id) ∧ p.length = length ∧
    p.writes = writes) ∧
  t.ports.hostOut = s.ports.hostOut ∧ t.lne = s.lne

/-- DERIVE (R132, R226), KEM_ENCAPS (R227), KEM_DECAPS (R228); a KEM_DECAPS whose engines are taken waits for them with its
operands (R328, R333). -/
def Sys2Proof.Claims.BranchWaybills : Prop :=
  (∀ s (l : BitVec 19) pos f c, ServiceAt s l.toNat pos 0x24 f c → s.btr = none → s.tableBuilt = true → imageWorn s = false →
    createCheck s (wbTarget f.raw) (wbParent f.raw) (wbKind f.raw) (wbLabel f.raw) false [] = Check.ok →
    (wbBranch s f.raw (decide (byteAt f.raw 16 % 2 = 1)) none).expire = false → wf64 f.raw 8 = 0 →
    Leads (.derive l pos) s (fun t => WaybillBranch s t 1 l.toNat f none 0 [])) ∧
  (∀ s (l : BitVec 19) pos f c, ServiceAt s l.toNat pos 0x24 f c → s.btr = none → s.tableBuilt = true → imageWorn s = false →
    anyLane s = true → lanesBusy s = false →
    createCheck s (wbTarget f.raw) (wbParent f.raw) (wbKind f.raw) (wbLabel f.raw) false [] = Check.ok →
    (wbBranch s f.raw (decide (byteAt f.raw 16 % 2 = 1)) none).expire = false → wf64 f.raw 8 ≠ 0 → wbKind f.raw = 2 →
    Leads (.derive l pos) s (fun t =>
      WaybillBranch s t 1 l.toNat f none 1793 [(num64 f.raw 8, slice (falconPublic
        (falconSeed (childKey (branchKey s (wbParent f.raw)) (wbLabel f.raw) 2 0))) 0 1793)])) ∧
  (∀ s (l : BitVec 19) pos peer f c, ServiceAt s l.toNat pos 0x22 f c → s.btr = none → s.tableBuilt = true → imageWorn s = false →
    wbKind f.raw = 1 → (wbBranch s f.raw false none).expire = false →
    createCheck s (wbTarget f.raw) (wbParent f.raw) (wbKind f.raw) (wbLabel f.raw) true [] = Check.ok →
    entReady s = true → HybridFree s →
    Leads (.kemEncaps l pos peer) s (fun t => publicOk (slice peer 0 1665) = true →
      let k := encapsKey (slice peer 0 1665) (drawBytes s 88) (wbLabel f.raw) 1
      WaybillBranch s t 2 l.toNat f (some k.1) 1665 [(num64 f.raw 16, k.2)])) ∧
  (∀ s (l : BitVec 19) pos ct f c, ServiceAt s l.toNat pos 0x23 f c → s.btr = none → s.tableBuilt = true → imageWorn s = false →
    wbKind f.raw = 1 → (wbBranch s f.raw false none).expire = false → HybridFree s →
    createCheck s (wbTarget f.raw) (wbParent f.raw) (wbKind f.raw) (wbLabel f.raw) true [] = Check.ok →
    useCheck s (wbKemBranch f.raw) (fun k => decide (k = 3)) [27, 26] = Check.ok →
    Leads (.kemDecaps l pos ct) s (fun t =>
      WaybillBranch s t 3 l.toNat f
        (some (decapsKey (branchKey s (wbKemBranch f.raw)) (slice ct 0 1665) (wbLabel f.raw) 1)) 0 [])) ∧
  (∀ s (l : BitVec 19) pos ct f c, ServiceAt s l.toNat pos 0x23 f c → s.btr = none → s.tableBuilt = true → imageWorn s = false →
    wbKind f.raw = 1 → (wbBranch s f.raw false none).expire = false → anyLane s = true → hybridReady s = false →
    createCheck s (wbTarget f.raw) (wbParent f.raw) (wbKind f.raw) (wbLabel f.raw) true [] = Check.ok →
    useCheck s (wbKemBranch f.raw) (fun k => decide (k = 3)) [27, 26] = Check.ok →
    Leads (.kemDecaps l pos ct) s (fun t =>
      t.mae.request = some (.waybill l.toNat f.id 3 ct (wbKemBranch f.raw)) ∧
      (∃ p, t.btr = some p ∧ p.index = wbTarget f.raw ∧ p.waybill = some (l.toNat, f.id)) ∧
      t = { s with btr := t.btr, mae := t.mae }))

/-- PROVE (R209), MANIFEST_READ (R573), LOG_EXPORT (R281, R282, R284): frames that cannot be read any more are delivered as a
lost span, and the mark rises with the completion of an ADVANCE. Model choices in it: log entries 16, 17, 120, 158. -/
def Obligations.ReadoutWaybills : Prop :=
  (∀ s (l : BitVec 19) pos f c w, ServiceAt s l.toNat pos 0x25 f c → s.su.rebuilding = false → privateBad s .treeStore = false →
    s.su.window.find? (fun x => decide (x.epoch = wf64 f.raw 8)) = some w → 816 ≤ wf64 f.raw 24 →
    Leads (.prove l pos) s (fun t =>
      let p := proof w (num f.raw 4 4 % 524288)
      Answered s t l.toNat f [(BitVec.ofNat 64 (wf64 f.raw 16), p)] 0 p.length (c.sequence.toNat + 1) (slice w.header 48 32))) ∧
  (∀ s (l : BitVec 19) pos f c m, ServiceAt s l.toNat pos 0x26 f c →
    (manifestsFrom s (wf64 f.raw 8) (num f.raw 4 4)).getLast? = some m → Leads (.manifestRead l pos) s (fun t =>
      let b := (manifestsFrom s (wf64 f.raw 8) (num f.raw 4 4)).flatten
      Answered s t l.toNat f [(BitVec.ofNat 64 (wf64 f.raw 16), b)] 0 b.length (c.sequence.toNat + 1) (sha3_256 (m.take 128)))) ∧
  (∀ s (l : BitVec 19) pos bad f c k, ServiceAt s l.toNat pos 0x27 f c → exportTurn s f.id = true → s.hlk.usbWait = [] →
    exportCursor s (wf64 f.raw 8) = some k → byteAt f.raw 3 % 2 = 0 → Leads (.logExport l ⟨pos, bad⟩) s (fun t =>
      let u := readFrames s k bad
      let g := segment u k (newestStored u) (num f.raw 4 4)
      Answered s t l.toNat f [(BitVec.ofNat 64 (wf64 f.raw 16), g.bytes)] 0 g.bytes.length (c.sequence.toNat + 1) (le 8 g.next) ∧
      t.log = u.log ∧ (g.lost = true → isPending t 329 = true ∧ bitR t Reg.FLC_ERR 3 = true))) ∧
  (∀ s (l : BitVec 19) pos bad f c k, ServiceAt s l.toNat pos 0x27 f c → exportTurn s f.id = true → s.hlk.usbWait = [] →
    logFull s = false → exportCursor s (wf64 f.raw 8) = some k → byteAt f.raw 3 % 2 = 1 →
    Leads (.logExport l ⟨pos, bad⟩) s (fun t =>
      let u := readFrames s k bad
      let g := segment u k (newestStored u) (num f.raw 4 4)
      Answered s t l.toNat f [(BitVec.ofNat 64 (wf64 f.raw 16), g.bytes)] 0 g.bytes.length (c.sequence.toNat + 1) (le 8 g.next) ∧
      t.log.mark = max s.log.mark (g.next % 2 ^ 64))) ∧
  (∀ s (l : BitVec 19) pos bad f, WaybillAt s l.toNat pos 0x27 f → Quiet s → exportTurn s f.id = false →
    Leads (.logExport l ⟨pos, bad⟩) s (fun t => t = s))

/-- RELAY (R265, R266), ATTEST (R270), TIME_HINT (R191). -/
def Sys2Proof.Claims.FleetWaybills : Prop :=
  (∀ s (l : BitVec 19) pos b f c st, ServiceAt s l.toNat pos 0x28 f c → isTerminus s = true → relayTurn s f = true →
    mget? s.stations (num f.raw 4 2 % 4096) = some st →
    st.state = .enrolled → blockDigest (slice b 0 1408) ≠ st.digest → lsuBusy s = false → lanesBusy s = false → Leads (.relay l pos b) s (fun t =>
      relayCheck s (num f.raw 4 2 % 4096) (slice b 0 1408) = 0 →
      let m := slice b 0 1408
      Answered s t l.toNat f [] 0 0 (c.sequence.toNat + 1) (sha3_256 (m.take 128)) ∧
      (∃ r, mget? t.stations (num f.raw 4 2 % 4096) = some r ∧ r.digest = sha3_256 (m.take 128) ∧ r.epoch = num m 4 6 ∧
        r.lastRelay = s.ttc ∧
        r.relays = { epoch := epochOf s f.admitTtc.toNat, before := slotLeaf st } :: st.relays ∧ r.state = .enrolled ∧ r.sId = slice m 32 16) ∧
      (∀ k, k ≠ num f.raw 4 2 % 4096 → mget? t.stations k = mget? s.stations k))) ∧
  (∀ s (l : BitVec 19) pos f c, ServiceAt s l.toNat pos 0x29 f c → hasPlate s = true →
    1536 + 80 * s.flash.measured.length ≤ wf64 f.raw 24 → entReady s = true → lsuBusy s = false → lanesBusy s = false →
    Leads (.attest l pos) s (fun t =>
      let h := quoteHeader s (slice f.raw 32 32)
      let q := h ++ s.flash.measured.flatten ++ (signatureBy s 4095 (ascii "XLX quote" ++ h)).sig
      Answered s t l.toNat f [(BitVec.ofNat 64 (wf64 f.raw 16), q)] 0 q.length (c.sequence.toNat + 1) [])) ∧
  (∀ s (l : BitVec 19) pos f c, ServiceAt s l.toNat pos 0x2A f c → logFull s = false → s.log.next ≠ 0 →
    Leads (.timeHint l pos) s (fun t =>
      Recorded s t 0x20 (timeHintBody s l.toNat f) ∧
      (∃ g, flight? t l.toNat f.id = some g ∧ g.phase = .parked ∧ g.waitFor = s.log.next) ∧
      t.ttc = s.ttc ∧ t.ports = s.ports))

/-- IMAGE_LOAD (R536): a chunk that starts where the last one ended is written into the slot that does not run. -/
def Sys2Proof.Claims.ImageChunks : Prop :=
  ∀ s (l : BitVec 19) pos chunk f c, ServiceAt s l.toNat pos 0x30 f c → byteAt f.raw 3 % 4 = 0 →
    f.advance = 0 → s.power.lastGasp = false → s.flash.loadNext = some (wf64 f.raw 8) → (s.flash.monitor = true ∨ slotState (bootRec s) s.flash.running ≠ 3) →
    Leads (.imageLoad l pos chunk) s (fun t =>
      Answered s t l.toNat f [] 0 0 (c.sequence.toNat + 1) [] ∧
      t.flash.loadNext = some (wf64 f.raw 8 + num f.raw 4 4) ∧
      t.flash.pages = (slotWrite s (b2n (loadSlot s)) (wf64 f.raw 8) (slice chunk 0 (num f.raw 4 4))).flash.pages ∧
      t.log = s.log ∧ t.mem = s.mem)

/-- Signature and branch waybills. Model choices in it: log entries 7, 20, 137, 144, 164. -/
def Obligations.SignAndBranchWaybills : Prop := Sys2Proof.Claims.SignatureWaybills ∧ Sys2Proof.Claims.BranchWaybills

/-- Fleet and image waybills. Model choices in it: log entries 18, 45, 146. -/
def Obligations.FleetAndImageWaybills : Prop := Sys2Proof.Claims.FleetWaybills ∧ Sys2Proof.Claims.ImageChunks

/-! ### The custody card -/

/-- A result register reports a command's end: the status, its inverse, and DONE (R15). -/
def Sys2Proof.Machine.ResultIs (t : State) (a status : Nat) : Prop :=
  fieldR t a 0 8 = status ∧ fieldR t a 8 8 = 255 - status ∧ bitR t a 31 = true

/-- A CCI command meets a negotiated card that is idle. -/
def Sys2Proof.Machine.CardIdle (s : State) (m : Master) (c : Card) : Prop :=
  Quiet s ∧ MayWrite s m Reg.CCI_CMD ∧ s.card = some c ∧ cciState s = 2 ∧ c.session = none ∧ c.erasing = false

/-- A header write goes to the copy that does not hold the newest header (R463). -/
def Sys2Proof.Machine.HeaderWritten (c d : CardImage) (b : Bytes) : Prop :=
  if newestIsEight c || (cardHeader? c).isNone then d.hdr0 = b ∧ d.hdr8 = c.hdr8 else d.hdr8 = b ∧ d.hdr0 = c.hdr0

/-- CARD_INSERTED (R460), CARD_REMOVED, EJECT (R462). -/
def Sys2Proof.Claims.CardPresence : Prop :=
  (∀ s i, Quiet s → mainPower s = true → s.cardPresent = false → i.failStep = 0 → releaseState s = 0 →
    Leads (.cardInserted i) s (fun t =>
      cciState t = 2 ∧ fieldR t Reg.CCI_STATUS 4 2 = i.bus.toNat ∧ bitR t Reg.CCI_STATUS 6 = i.locked ∧ t.cardPresent = true ∧
      t.card = some { img := i, unlocked := false, erasing := false, session := none } ∧ Raises s t [384] ∧
      t = withEvents { s with regs := t.regs, card := t.card, cardPresent := true } t)) ∧
  (∀ s i, Quiet s → mainPower s = true → s.cardPresent = false → i.failStep ≠ 0 → Leads (.cardInserted i) s (fun t =>
    cciState t = 4 ∧ bitR t Reg.CCI_ERR 0 = true ∧ Raises s t [384, 386] ∧
    t = withEvents { s with regs := t.regs, card := t.card, cardPresent := true } t)) ∧
  (∀ s c, Quiet s → mainPower s = true → s.cardPresent = true → s.card = some c → c.session = none → c.erasing = false →
    Leads .cardRemoved s (fun t =>
      t.card = none ∧ t.cardPresent = false ∧ cciState t = 0 ∧ Raises s t [385] ∧ SameRegs s t [Reg.CCI_STATUS] ∧
      t = withEvents { s with regs := t.regs, card := none, cardPresent := false } t)) ∧
  (∀ s m c, CardIdle s m c → Leads (.eject m) s (fun t =>
    cciState t = 0 ∧ ResultIs t Reg.CCI_RESULT 0 ∧ t.card = some { c with unlocked := false } ∧
    OnlyRegs { s with card := t.card } t [Reg.CCI_STATUS, Reg.CCI_RESULT] []))

/-- CARD_FORMAT_EXPORT (R463), CARD_FORMAT_BACKUP (R469), CARD_FORMAT_CREDENTIAL (R470), FORCE_ERASE, FORCE_ERASE_DONE
(R468). -/
def Sys2Proof.Claims.CardCommands : Prop :=
  (∀ s m c, CardIdle s m c → s.tableBuilt = true → c.img.locked = false → bitR s Reg.CCI_ARG 0 = false → Leads (.cardFormatExport m) s (fun t =>
    ResultIs t Reg.CCI_RESULT 0 ∧
    (∃ d, t.card = some d ∧ HeaderWritten c.img d.img (headerBytes s 1 (headerSeq c.img + 1) 0 [] 0 [] []) ∧
      d.img.units = c.img.units ∧ d.img.locked = false) ∧
    OnlyRegs { s with card := t.card } t [Reg.CCI_RESULT] [])) ∧
  (∀ s m c, CardIdle s m c → s.tableBuilt = true → c.img.locked = false → c.img.erased = true →
    reach s 29 .read (getR s Reg.CCI_BUF).toNat 184 = { state := s, outcome := .ok } →
    lockModeOk s = true →
    lockCheck s (backupLock s (memBytes s (getR s Reg.CCI_BUF).toNat 184)) [BitVec.toNat m] = Check.ok →
    Leads (.cardFormatBackup m) s (fun t =>
      ResultIs t Reg.CCI_RESULT 0 ∧
      (∃ d, t.card = some d ∧ d.img.locked = true ∧ d.img.erased = false ∧
        d.img.password = lockPassword s (backupLock s (memBytes s (getR s Reg.CCI_BUF).toNat 184)) ∧
        HeaderWritten (putHeader c.img (fun q => headerBytes s 2 q 0 [] 0 [] (memBytes s (getR s Reg.CCI_BUF).toNat 184))) d.img
          (headerBytes s 2 (headerSeq (putHeader c.img (fun q => headerBytes s 2 q 0 [] 0 []
            (memBytes s (getR s Reg.CCI_BUF).toNat 184))) + 1) 0 [] 0 [] (memBytes s (getR s Reg.CCI_BUF).toNat 184))) ∧
      bitR t Reg.CCI_STATUS 6 = true)) ∧
  (∀ s m c, CardIdle s m c → s.mode = .commissioning → c.img.locked = false → 1 ≤ fieldR s Reg.CCI_ARG 4 5 →
    fieldR s Reg.CCI_ARG 4 5 ≤ 16 → entReady s = true →
    sstCount s (credentialSlot (fieldR s Reg.CCI_ARG 4 5)) < 100000 →
    sstCount s (credentialSlot (fieldR s Reg.CCI_ARG 4 5) + 1) < 100000 → Leads (.cardFormatCredential m) s (fun t =>
      let d := credentialDigest s (fieldR s Reg.CCI_ARG 4 5) (drawBytes s 32)
      ResultIs t Reg.CCI_RESULT 0 ∧ sstGet t (credentialSlot (fieldR s Reg.CCI_ARG 4 5)) = num64 d 0 ∧
      sstGet t (credentialSlot (fieldR s Reg.CCI_ARG 4 5) + 1) = num64 d 8)) ∧
  (∀ s m c, CardIdle s m c → inRunOrCommission s = true → Leads (.forceErase m) s (fun t =>
    t.card = some { c with erasing := true } ∧ bitR t Reg.CCI_RESULT 31 = false ∧
    OnlyRegs { s with card := t.card } t [Reg.CCI_RESULT] [])) ∧
  (∀ s c, mainPower s = true → s.card = some c → c.erasing = true → Leads .forceEraseDone s (fun t =>
    (∃ d, t.card = some d ∧ d.img.locked = false ∧ d.img.units = [] ∧ d.img.hdr0 = [] ∧ d.img.hdr8 = [] ∧
      d.img.erased = true ∧ d.erasing = false) ∧
    ResultIs t Reg.CCI_RESULT 0 ∧ bitR t Reg.CCI_STATUS 6 = false ∧
    OnlyRegs { s with card := t.card } t [Reg.CCI_RESULT, Reg.CCI_STATUS] [394]))

/-- CARD_EXPORT, CARD_UNIT_WRITTEN (R464, R465), CARD_BUSY_TIMEOUT (R461): a session opens at its cursor, each unit that
verifies advances it, and a card busy for too long ends it as a write failure. Model choices in it: log entries 41, 153, 165.
-/
def Obligations.CardSessions : Prop :=
  (∀ s (l : BitVec 19) pos f x c h k, ServiceAt s l.toNat pos 0x2B f x → exportTurn s f.id = true → s.card = some c →
    c.session = none → c.erasing = false → cciState s = 2 → c.img.locked = false →
    exportCursor s (wf64 f.raw 8) = some k → num f.raw 4 4 ≠ 0 → k ≤ newestStored s →
    Leads (.cardExport l pos) s (fun t =>
      cardHeader? c.img = some h → h.kind = 1 → h.identity = identity s →
      (appendPoint (c.img.units.drop h.nextUnit).length (c.img.units.drop h.nextUnit) h.nextUnit
        (if h.nextUnit = 0 then zeros 32 else h.last)).1 < c.img.capacity →
      cciState t = 3 ∧ fieldR t Reg.CCI_STATUS 16 16 = 0 ∧
      (∃ d v, t.card = some d ∧ d.session = some v ∧ d.img = c.img ∧ v.line = l.toNat ∧ v.id = f.id ∧ v.cursor = k ∧
        v.first = k ∧ v.left = num f.raw 4 4 ∧ v.units = 0 ∧ v.newest = newestStored s) ∧
      (∃ g, flight? t l.toNat f.id = some g ∧ g.phase = .parked) ∧ t.log = s.log)) ∧
  (∀ s c v bad, Quiet s → mainPower s = true → s.card = some c → c.session = some v → 2 ≤ v.left →
    v.nextUnit + 1 < c.img.capacity → Leads (.cardUnitWritten ⟨true, bad⟩) s (fun t =>
      let r := readFrames s v.cursor bad
      let g := segment r v.cursor v.newest 1044480
      let u := slice g.bytes 0 1044480 ++ unitTrailer s v g.next (slice g.bytes 0 1044480)
      g.lost = false → g.next ≤ v.newest →
      (∃ d, t.card = some d ∧ d.img.units[v.nextUnit]? = some u ∧
        (∀ n, n ≠ v.nextUnit → n < c.img.units.length → d.img.units[n]? = c.img.units[n]?) ∧
        d.session = some { v with cursor := g.next, left := v.left - 1, units := v.units + 1, nextUnit := v.nextUnit + 1,
                                  prev := sha3_256 (slice u 1044480 128) }) ∧
      fieldR t Reg.CCI_STATUS 16 16 = (v.units + 1) % 65536 ∧ SameRegs s t [Reg.CCI_STATUS] ∧
      t = { r with regs := t.regs, card := t.card })) ∧
  (∀ s c v, Quiet s → mainPower s = true → s.card = some c → c.session = some v → Leads .cardBusyTimeout s (fun t =>
    (t.card.bind (fun d => d.session)) = none ∧ cciState t = 0 ∧ isPending t 389 = true ∧ bitR t Reg.CCI_ERR 1 = true))

/-- The custody card comes, goes, and is commanded. Model choices in it: log entries 41, 142, 165. -/
def Obligations.CardControl : Prop := Sys2Proof.Claims.CardPresence ∧ Sys2Proof.Claims.CardCommands

/-! ### Flash -/

/-- A flash command meets an idle controller that no last-gasp seal holds back (R297). -/
def Sys2Proof.Machine.FlcIdle (s : State) (m : Master) : Prop :=
  Quiet s ∧ MayWrite s m Reg.FLC_CMD ∧ s.flash.op = none ∧ s.power.lastGasp = false

/-- A flash command started: BUSY with the parameters of FLC_ARG and FLC_BUF, DONE cleared, nothing else changed. -/
def Sys2Proof.Machine.FlcStarted (s t : State) (k : FlashOp) : Prop :=
  t.flash = { s.flash with op := some (k, fieldR s Reg.FLC_ARG 0 2, fieldR s Reg.FLC_ARG 2 11, fieldR s Reg.FLC_ARG 13 12,
                                       (getR s Reg.FLC_BUF).toNat) } ∧
  bitR t Reg.FLC_RESULT 31 = false ∧ OnlyRegs { s with flash := t.flash } t [Reg.FLC_RESULT] []

/-- PROGRAM and ERASE on a block that holds a mapped slice are refused with result 0x01 and event 326 (R294), on a protected
one with 0x02 (R295). -/
def Sys2Proof.Machine.FlcRefuses (c : Instr) (s : State) (m : Master) : Prop :=
  let d := fieldR s Reg.FLC_ARG 0 2
  let b := fieldR s Reg.FLC_ARG 2 11
  (FlcIdle s m → blockMapped s d b = true → Leads c s (fun t =>
    ResultIs t Reg.FLC_RESULT 0x01 ∧ bitR t Reg.FLC_ERR 0 = true ∧ OnlyRegs s t [Reg.FLC_RESULT, Reg.FLC_ERR] [326])) ∧
  (FlcIdle s m → blockMapped s d b = false → blockProtected s d b = true → Leads c s (fun t =>
    ResultIs t Reg.FLC_RESULT 0x02 ∧ bitR t Reg.FLC_ERR 1 = true ∧ OnlyRegs s t [Reg.FLC_RESULT, Reg.FLC_ERR] []))

/-- FLC_CMD READ, PROGRAM, ERASE, CLAIM, RETURN (R294, R295, R302): which start, and which are refused. -/
def Sys2Proof.Claims.FlashCommands : Prop :=
  (∀ s m, FlcIdle s m → Leads (.flcRead m) s (fun t => FlcStarted s t .read)) ∧
  (∀ s m, FlcIdle s m → flcRefusal s true = none → Leads (.flcProgram m) s (fun t => FlcStarted s t .program)) ∧
  (∀ s m, FlcIdle s m → flcRefusal s false = none → Leads (.flcErase m) s (fun t => FlcStarted s t .erase)) ∧
  (∀ s m, FlcRefuses (.flcProgram m) s m ∧ FlcRefuses (.flcErase m) s m) ∧
  (∀ s m d b, FlcIdle s m → freeReserve s = some (d, b) → Leads (.flcClaim m) s (fun t =>
    ResultIs t Reg.FLC_RESULT 0 ∧ fieldR t Reg.FLC_ARG 0 2 = d ∧ fieldR t Reg.FLC_ARG 2 11 = b ∧
    (blockAt t d b).claimed = true ∧
    (∀ x y, blockKey x y ≠ blockKey d b → blockAt t x y = blockAt s x y) ∧
    t.flash = { s.flash with blocks := t.flash.blocks } ∧
    OnlyRegs { s with flash := t.flash } t [Reg.FLC_RESULT, Reg.FLC_ARG] [])) ∧
  (∀ s m, FlcIdle s m → freeReserve s = none → Leads (.flcClaim m) s (fun t =>
    ResultIs t Reg.FLC_RESULT 0x08 ∧ OnlyRegs s t [Reg.FLC_RESULT] [])) ∧
  (∀ s m, FlcIdle s m →
    let d := fieldR s Reg.FLC_ARG 0 2
    let b := fieldR s Reg.FLC_ARG 2 11
    Leads (.flcReturn m) s (fun t =>
      ResultIs t Reg.FLC_RESULT (if (blockAt s d b).claimed then 0 else 0x03) ∧ (blockAt t d b).claimed = false ∧
      (∀ x y, blockKey x y ≠ blockKey d b → blockAt t x y = blockAt s x y) ∧
      t.flash = { s.flash with blocks := t.flash.blocks } ∧
      OnlyRegs { s with flash := t.flash } t [Reg.FLC_RESULT] []))

/-- FLASH_OP_DONE (R295, R302; R24 for a page with a seal mismatch), CW_MAP_WRITE and CODE_WINDOW_FETCH (R293), NAND_DIE_FAILED (R566). -/
def Sys2Proof.Claims.FlashWork : Prop :=
  (∀ s d b p a, Quiet s → mainPower s = true → s.flash.op = some (.program, d, b, p, a) →
    reach s 28 .read a 16384 = { state := s, outcome := .ok } → dieDead s d = false → pageExists b p = true →
    privateBad s (.nand d) = false →
    Leads (.flashOpDone true) s (fun t =>
      ResultIs t Reg.FLC_RESULT 0 ∧ t.flash.op = none ∧ getPage t d b p = memBytes s a 16384 ∧
      (∀ x y z, pageKey x y z ≠ pageKey d b p → getPage t x y z = getPage s x y z) ∧
      t.flash = { s.flash with op := none, pages := t.flash.pages } ∧
      OnlyRegs { s with flash := t.flash } t [Reg.FLC_RESULT] [])) ∧
  (∀ s d b p a, Quiet s → mainPower s = true → s.flash.op = some (.erase, d, b, p, a) → dieDead s d = false →
    Leads (.flashOpDone true) s (fun t =>
      ResultIs t Reg.FLC_RESULT 0 ∧ t.flash.op = none ∧ (∀ z, z < 2304 → getPage t d b z = erasedPage) ∧
      (blockAt t d b).wear = (blockAt s d b).wear + 1 ∧ t.mem = s.mem ∧ SameRegs s t [Reg.FLC_RESULT])) ∧
  (∀ s d b p a, Quiet s → mainPower s = true → s.flash.op = some (.read, d, b, p, a) → dieDead s d = false →
    pageExists b p = true → privateBad s (.nand d) = false → PlainWrite s 28 a (readPage s d b p).length →
    Leads (.flashOpDone true) s (fun t =>
      ResultIs t Reg.FLC_RESULT 0 ∧ t.flash = { s.flash with op := none } ∧
      memBytes t a (readPage s d b p).length = readPage s d b p ∧
      (∀ x, (x < a ∨ a + (readPage s d b p).length ≤ x) → memByte t x = memByte s x) ∧
      OnlyRegs { s with flash := t.flash, mem := t.mem, badCells := t.badCells } t [Reg.FLC_RESULT] [])) ∧
  (∀ s d b p, stripeOf s d b = none → partitionAt s d b ≠ .staging → partitionAt s d b ≠ .fixed →
    readPage s d b p = getPage s d b p) ∧
  (∀ s d b p a, Quiet s → mainPower s = true → s.flash.op = some (.read, d, b, p, a) → dieDead s d = false →
    pageExists b p = true → privateBad s (.nand d) = true → bitR s Reg.FLC_RESULT 31 = false → Leads (.flashOpDone true) s (fun t =>
      ResultIs t Reg.FLC_RESULT 0x0D ∧ t.mem = s.mem ∧ isPending t 192 = true ∧ privateBad t (.nand d) = false)) ∧
  (∀ s d b p a, Quiet s → mainPower s = true → s.flash.op = some (.read, d, b, p, a) → Leads (.flashOpDone false) s (fun t =>
    ResultIs t Reg.FLC_RESULT 0x06 ∧ t.flash = { s.flash with op := none } ∧ t.mem = s.mem)) ∧
  (∀ s m v, Quiet s → MayWrite s m Reg.FLC_CW_MAP → partitionAt s (bitsOf v 0 2) (bitsOf v 2 11) = .fixed → bitsOf v 13 4 ≤ 11 →
    Leads (.cwMapWrite m v) s (fun t =>
      sliceAt t (fieldR s Reg.FLC_CW_SEL 0 8) =
        { die := bitsOf v 0 2, block := bitsOf v 2 11, offset := bitsOf v 13 4, valid := bit v 31 } ∧
      (∀ n, n ≠ fieldR s Reg.FLC_CW_SEL 0 8 → sliceAt t n = sliceAt s n) ∧
      (∀ x, x ∈ t.flash.cwCache ↔ x ∈ s.flash.cwCache ∧ x / 256 ≠ fieldR s Reg.FLC_CW_SEL 0 8) ∧
      t = { s with flash := { s.flash with slices := t.flash.slices, cwCache := t.flash.cwCache } })) ∧
  (∀ s (c : BitVec 2) a, Quiet s → canIssue s c.toNat = true → isCodeWindow (BitVec.toNat a) = true →
    permits s (masterOf s c.toNat) .fetch a.toNat = true → (sliceAt s (sliceOf a.toNat)).valid = true →
    windowBad s a.toNat = false →
    Leads (.codeWindowFetch c a) s (fun t =>
      (a.toNat - 0x30000000) / 4096 ∈ t.flash.cwCache ∧
      t = { s with flash := { s.flash with cwCache := t.flash.cwCache }, badPrivate := t.badPrivate })) ∧
  (∀ s (d : BitVec 2), Quiet s → mainPower s = true → dieDead s d.toNat = false → Leads (.nandDieFailed d) s (fun t =>
    dieDead t d.toNat = true ∧ (∀ b p, b < 1696 → p < 2304 → getPage t d.toNat b p = erasedPage) ∧
    isPending t 325 = true ∧ isPending t 330 = true ∧ bitR t Reg.FLC_ERR 4 = true ∧ t.mem = s.mem ∧ t.mode = s.mode))

/-- The flash controller: its commands and its work. Model choices in it: log entries 10, 92, 142, 143. -/
def Obligations.FlashController : Prop := Sys2Proof.Claims.FlashCommands ∧ Sys2Proof.Claims.FlashWork

/-! ### Locks, mailboxes and tablets -/

/-- A read of a lock register (R306, R325, R327, R410): a free one goes to the reader and reads 0, an owned one reads as its
owner and does not change. -/
def Sys2Proof.Machine.LockRead (s t : State) (m : Master) (a : Nat) : Prop :=
  t.ports.readData = (getR s a).setWidth 64 ∧ t.ports.readErr = false ∧
  getR t a = (if getR s a = 0 then m.setWidth 32 else getR s a) ∧ SameRegs s t [a] ∧
  t = { s with regs := t.regs, ports := { s.ports with readData := t.ports.readData, readErr := false } }

/-- KDE_LOCK_READ, KDE_LOCK_RELEASE (R306), MAE_LOCK_READ (R325), MAE_LOCK_RELEASE, MAE_SLOCK_READ, MAE_SLOCK_RELEASE (R322,
R327), TABLET_READ, TABLET_RELEASE (R410). -/
def Sys2Proof.Claims.Locks : Prop :=
  (∀ s m, Quiet s → MayRead s m Reg.KDE_LOCK → Leads (.kdeLockRead m) s (fun t => LockRead s t m Reg.KDE_LOCK)) ∧
  (∀ s m, Quiet s → MayWrite s m Reg.KDE_LOCK → m ≠ 12 → Leads (.kdeLockRelease m) s (fun t =>
    getR t Reg.KDE_LOCK = (if lockOwner s Reg.KDE_LOCK = m then 0 else getR s Reg.KDE_LOCK) ∧
    OnlyRegs s t [Reg.KDE_LOCK] [])) ∧
  (∀ s m, Quiet s → MayRead s m Reg.MAE_LOCK →
    (getR s Reg.MAE_LOCK ≠ 0 ∨ maeWipeOn s = false ∨ s.mae.prevOwner = 0 ∨ s.mae.prevOwner = m) →
    Leads (.maeLockRead m) s (fun t => LockRead { s with mae := t.mae } t m Reg.MAE_LOCK ∧
      t.mae = { s.mae with prevOwner := if getR s Reg.MAE_LOCK = 0 then m else s.mae.prevOwner })) ∧
  (∀ s m, Quiet s → MayWrite s m Reg.MAE_LOCK → m ≠ 12 → Leads (.maeLockRelease m) s (fun t =>
    getR t Reg.MAE_LOCK = (if lockOwner s Reg.MAE_LOCK = m then 0 else getR s Reg.MAE_LOCK) ∧
    OnlyRegs s t [Reg.MAE_LOCK] [])) ∧
  (∀ s m, Quiet s → MayRead s m Reg.MAE_SLOCK → Leads (.maeSlockRead m) s (fun t => LockRead s t m Reg.MAE_SLOCK)) ∧
  (∀ s m, Quiet s → MayWrite s m Reg.MAE_SLOCK → m ≠ 12 → Leads (.maeSlockRelease m) s (fun t =>
    getR t Reg.MAE_SLOCK = (if lockOwner s Reg.MAE_SLOCK = m then 0 else getR s Reg.MAE_SLOCK) ∧
    OnlyRegs s t [Reg.MAE_SLOCK] [])) ∧
  (∀ s m n, Quiet s → MayRead s m (Reg.TBL (BitVec.toNat n)) → Leads (.tabletRead m n) s (fun t =>
    t.ports.readData = (tablet s n.toNat).setWidth 64 ∧
    tablet t n.toNat = (if tablet s n.toNat = 0 then m else tablet s n.toNat) ∧
    (∀ k, k ≠ n.toNat → tablet t k = tablet s k) ∧
    t = { s with tablets := t.tablets, ports := { s.ports with readData := t.ports.readData, readErr := false } })) ∧
  (∀ s m n, Quiet s → MayWrite s m (Reg.TBL (BitVec.toNat n)) → m ≠ 4 → Leads (.tabletRelease m n) s (fun t =>
    tablet t n.toNat = (if tablet s n.toNat = m then 0 else tablet s n.toNat) ∧
    (∀ k, k ≠ n.toNat → tablet t k = tablet s k) ∧ t = { s with tablets := t.tablets })) ∧
  (∀ s n, Quiet s → MayWrite s 4 (Reg.TBL (BitVec.toNat n)) → Leads (.tabletRelease 4 n) s (fun t =>
    tablet t n.toNat = 0 ∧ (∀ k, k ≠ n.toNat → tablet t k = tablet s k) ∧
    OnlyRegs { s with tablets := t.tablets } t [] [481]))

/-- A mailbox as one command left it; the others stay. -/
def Sys2Proof.Machine.MailboxIs (s t : State) (n : Nat) (b : Mailbox) : Prop :=
  mailbox t n = b ∧ ∀ k, k ≠ n → mailbox t k = mailbox s k

/-- MBX_CLAIM_READ, MBX_CLAIM_FREE, MBX_POST, MBX_TAKE (R409), MBX_CFG_WRITE (R411). -/
def Sys2Proof.Claims.Mailboxes : Prop :=
  (∀ s m n, Quiet s → MayRead s m (Reg.MBX_CLAIM (BitVec.toNat n)) → maySend (mailbox s n.toNat) m = true →
    Leads (.mbxClaimRead m n) s (fun t =>
      let b := mailbox s n.toNat
      t.ports.readData = (if b.claimant ≠ 0 then b.claimant.setWidth 64 else if b.full then 62 else 0) ∧
      MailboxIs s t n.toNat (if b.claimant = 0 ∧ b.full = false then { b with claimant := m } else b) ∧
      t = { s with mailboxes := t.mailboxes, ports := { s.ports with readData := t.ports.readData, readErr := false } })) ∧
  (∀ s m n, Quiet s → MayRead s m (Reg.MBX_CLAIM (BitVec.toNat n)) → maySend (mailbox s n.toNat) m = false →
    mget? s.lastRaise 480 = none → Leads (.mbxClaimRead m n) s (fun t =>
      t.ports.readData = 63 ∧ bitR t Reg.MBX_ERR 0 = true ∧ t.mailboxes = s.mailboxes ∧ isPending t 480 = true)) ∧
  (∀ s m n, Quiet s → MayWrite s m (Reg.MBX_CLAIM (BitVec.toNat n)) → isClaimant (mailbox s n.toNat) m = true →
    Leads (.mbxClaimFree m n) s (fun t =>
      MailboxIs s t n.toNat { mailbox s n.toNat with claimant := 0 } ∧ t = { s with mailboxes := t.mailboxes })) ∧
  (∀ s m n v, Quiet s → MayWrite s m (Reg.MBX_DATA (BitVec.toNat n)) → isClaimant (mailbox s n.toNat) m = true → v ≠ 0 →
    Leads (.mbxPost m n v) s (fun t =>
      MailboxIs s t n.toNat { mailbox s n.toNat with claimant := 0, full := true, value := v, sender := m } ∧
      OnlyRegs { s with mailboxes := t.mailboxes } t [] [448 + n.toNat])) ∧
  (∀ s m n v, Quiet s → MayWrite s m (Reg.MBX_DATA (BitVec.toNat n)) → (isClaimant (mailbox s n.toNat) m = false ∨ v = 0) →
    mget? s.lastRaise 480 = none → Leads (.mbxPost m n v) s (fun t =>
      bitR t Reg.MBX_ERR 0 = true ∧ t.mailboxes = s.mailboxes ∧ isPending t 480 = true)) ∧
  (∀ s m n, Quiet s → MayRead s m (Reg.MBX_TAKE (BitVec.toNat n)) → (mailbox s n.toNat).receiver = m → m ≠ 0 →
    (mailbox s n.toNat).full = true → Leads (.mbxTake m n) s (fun t =>
      t.ports.readData = (mailbox s n.toNat).value.setWidth 64 ∧
      MailboxIs s t n.toNat { mailbox s n.toNat with full := false, value := 0 } ∧ isPending t (464 + n.toNat) = true ∧
      t.regs = s.regs ∧ t.mem = s.mem)) ∧
  (∀ s m n v, Quiet s → MayWrite s m (Reg.MBX_CFG (BitVec.toNat n)) → Leads (.mbxCfgWrite m n v) s (fun t =>
    MailboxIs s t n.toNat { mailbox s n.toNat with
      senders := BitVec.ofNat 16 (bitsOf v 0 16), receiver := BitVec.ofNat 6 (bitsOf v 16 6), claimant := 0, full := false,
      value := 0 } ∧ t = { s with mailboxes := t.mailboxes }))

/-! ### The digest engine -/

/-- The owner of KDE_LOCK commands the engine (R307). -/
def Sys2Proof.Machine.KdeOwner (s : State) (m : Master) : Prop :=
  Quiet s ∧ MayWrite s m Reg.KDE_CTRL ∧ lockOwner s Reg.KDE_LOCK = m ∧ m ≠ 0

/-- A job ended other than DONE (R316): IDLE, its code with its inverse, event 257, its state cleared. -/
def Sys2Proof.Machine.KdeFailed (s t : State) (code : Nat) (regs : List Nat) : Prop :=
  getR t Reg.KDE_STATUS = (place 8 8 code ||| place 16 8 (255 - code)) ∧ t.kde.lanes = zeroLanes ∧ t.kde.part = [] ∧
  OnlyRegs { s with kde := t.kde } t (Reg.KDE_STATUS :: regs) [257]

/-- KDE_START (R309, R311, R316), KDE_FEED (R310), KDE_SEGMENT_DONE (R309, R315): an unkeyed job, and the compare unit's two
reports, which differ when one comparator fails. -/
def Sys2Proof.Claims.DigestJobs : Prop :=
  (∀ s m split, KdeOwner s m → (kdeStatus s = 0 ∨ kdeStatus s = 4) → 1 ≤ kdeFunc (getR s Reg.KDE_CONFIG) →
    kdeFunc (getR s Reg.KDE_CONFIG) ≤ 6 → kdeBadParam (getR s Reg.KDE_CONFIG) (fieldR s Reg.KDE_OUTLEN 0 24) = false →
    kdeTotalReg s ≠ 0 → s.tableBuilt = true → Leads (.kdeStart ⟨m, split⟩) s (fun t =>
      kdeStatus t = 2 ∧ getR64 t Reg.KDE_ABSORBED = 0 ∧ getR t Reg.KDE_CMP = 0 ∧
      t.kde = { noJob s.kde with config := getR s Reg.KDE_CONFIG, total := kdeTotalReg s,
                                 outLen := fieldR s Reg.KDE_OUTLEN 0 24, branch := fieldR s Reg.KDE_KEY 0 12 } ∧
      OnlyRegs { s with kde := t.kde } t [Reg.KDE_STATUS, Reg.KDE_CMP, Reg.KDE_ABSORBED, Reg.KDE_ABSORBED + 4] [256])) ∧
  (∀ s m split, KdeOwner s m → (kdeStatus s = 0 ∨ kdeStatus s = 4) → s.tableBuilt = true →
    kdeBadParam (getR s Reg.KDE_CONFIG) (fieldR s Reg.KDE_OUTLEN 0 24) = true → Leads (.kdeStart ⟨m, split⟩) s (fun t =>
      KdeFailed s t 0x0A [Reg.KDE_CMP, Reg.KDE_ABSORBED, Reg.KDE_ABSORBED + 4])) ∧
  (∀ s m split, KdeOwner s m → (kdeStatus s = 0 ∨ kdeStatus s = 4) → s.tableBuilt = true →
    kdeBadParam (getR s Reg.KDE_CONFIG) (fieldR s Reg.KDE_OUTLEN 0 24) = false → 9 ≤ kdeFunc (getR s Reg.KDE_CONFIG) →
    s.mode ≠ .running → s.mode ≠ .commissioning → (s.mode ≠ .caution ∨ bitR s Reg.KDE_CONFIG 4 = false) →
    Leads (.kdeStart ⟨m, split⟩) s (fun t => KdeFailed s t 0x09 [Reg.KDE_CMP, Reg.KDE_ABSORBED, Reg.KDE_ABSORBED + 4])) ∧
  (∀ s m, KdeOwner s m → kdeStatus s = 2 → 1 ≤ kdeSegLen s → kdeSegLen s ≤ 16777216 →
    (getR64 s Reg.KDE_ABSORBED).toNat + kdeSegLen s ≤ s.kde.total.toNat → Leads (.kdeFeed m) s (fun t =>
      kdeStatus t = 1 ∧ t.kde = { s.kde with src := getR s Reg.KDE_SRC, seg := kdeSegLen s } ∧
      OnlyRegs { s with kde := t.kde } t [Reg.KDE_STATUS] [])) ∧
  (∀ s m, KdeOwner s m → kdeStatus s = 2 → s.kde.total.toNat < (getR64 s Reg.KDE_ABSORBED).toNat + kdeSegLen s → Leads (.kdeFeed m) s (fun t =>
      KdeFailed s t 0x02 [])) ∧
  (∀ s split, Quiet s → mainPower s = true → kdeStatus s = 1 → PlainRead s 25 s.kde.src.toNat s.kde.seg →
    getR64 s Reg.KDE_ABSORBED + BitVec.ofNat 64 s.kde.seg ≠ s.kde.total → Leads (.kdeSegmentDone ⟨.ok, split⟩) s (fun t =>
      kdeStatus t = 2 ∧ getR64 t Reg.KDE_ABSORBED = getR64 s Reg.KDE_ABSORBED + BitVec.ofNat 64 s.kde.seg ∧
      t.kde = kdeAbsorb s.kde (memBytes s s.kde.src.toNat s.kde.seg) ∧
      OnlyRegs { s with kde := t.kde } t [Reg.KDE_STATUS, Reg.KDE_ABSORBED, Reg.KDE_ABSORBED + 4] [256])) ∧
  (∀ s split, Quiet s → mainPower s = true → kdeStatus s = 1 → PlainRead s 25 s.kde.src.toNat s.kde.seg →
    getR64 s Reg.KDE_ABSORBED + BitVec.ofNat 64 s.kde.seg = s.kde.total → kdeCompare s.kde.config = true →
    (kdeOutput (kdeAbsorb s.kde (memBytes s s.kde.src.toNat s.kde.seg))).length ≤ 64 →
    Leads (.kdeSegmentDone ⟨.ok, split⟩) s (fun t =>
      kdeStatus t = 4 ∧ fieldR t Reg.KDE_CMP 0 2 ∈ [1, 2] ∧
      fieldR t Reg.KDE_CMP 2 2 = (if split then 3 - fieldR t Reg.KDE_CMP 0 2 else fieldR t Reg.KDE_CMP 0 2) ∧
      (split = true → bitR t Reg.KDE_ERR 2 = true ∧ isPending t 257 = true) ∧ isPending t 256 = true ∧ t.mem = s.mem)) ∧
  (∀ s split, Quiet s → mainPower s = true → kdeStatus s = 1 → PlainRead s 25 s.kde.src.toNat s.kde.seg →
    getR64 s Reg.KDE_ABSORBED + BitVec.ofNat 64 s.kde.seg = s.kde.total → kdeCompare s.kde.config = false →
    let out := kdeOutput (kdeAbsorb s.kde (memBytes s s.kde.src.toNat s.kde.seg))
    out.length ≤ 64 → s.kde.hide = false → Leads (.kdeSegmentDone ⟨.ok, split⟩) s (fun t =>
      getR t Reg.KDE_STATUS = (4 ||| place 16 8 255) ∧
      (∀ i, i < 16 → getR t (Reg.KDE_RESULT + 4 * i) =
        BitVec.ofNat 32 (num (patch (regBytes s Reg.KDE_RESULT 16) 0 out) (4 * i) 4)) ∧
      t.kde.lanes = zeroLanes ∧ t.mem = s.mem ∧ Raises s t [256])) ∧
  (∀ s split, Quiet s → mainPower s = true → kdeStatus s = 1 → Leads (.kdeSegmentDone ⟨.busError, split⟩) s (fun t => KdeFailed s t 0x04 []))

/-- KDE_SAVE (R312, R313), KDE_RESTORE (R314), KDE_ABORT (R316), KDE_CLEAR (R319), the lock's forced release (R308), and a
command by another master (R307). -/
def Sys2Proof.Claims.DigestState : Prop :=
  (∀ s m, KdeOwner s m → kdeStatus s = 2 → s.kde.part = [] → s.kde.keyed = false → s.kde.ksv ≠ [] →
    let a := (getR s Reg.KDE_BLOB).toNat
    let b := kdeBlob s.kde (getR64 s Reg.KDE_ABSORBED).toNat (zeros 16)
    a % 8 = 0 → PlainWrite s 25 a b.length →
    Leads (.kdeSave m) s (fun t =>
      memBytes t a b.length = b ∧ (∀ x, (x < a ∨ a + b.length ≤ x) → memByte t x = memByte s x) ∧ kdeStatus t = 0 ∧
      t.kde = noJob s.kde ∧
      OnlyRegs { s with kde := t.kde, mem := t.mem, badCells := t.badCells } t [Reg.KDE_STATUS] [])) ∧
  (∀ s m, KdeOwner s m → kdeStatus s = 2 → s.kde.part ≠ [] → Leads (.kdeSave m) s (fun t =>
    getR t Reg.KDE_ERR = getR s Reg.KDE_ERR ||| 2 ∧ OnlyRegs s t [Reg.KDE_ERR] [])) ∧
  (∀ s m, KdeOwner s m → kdeStatus s = 0 → s.kde.ksv ≠ [] →
    let a := (getR s Reg.KDE_BLOB).toNat
    let b := memBytes s a 288
    a % 8 = 0 → PlainRead s 25 a 288 → s.tableBuilt = true →
    (blobKeyed b = true → (kdeKeyCheck s (num b 24 2) m).status ≠ 0x0D) → blobShapeOk b = true → blobTagOk s b = true → blobBranchOk s m b = true → Leads (.kdeRestore m) s (fun t =>
      kdeStatus t = 2 ∧ getR64 t Reg.KDE_TOTAL = num64 b 8 ∧ getR64 t Reg.KDE_ABSORBED = num64 b 16 ∧
      t.kde = blobKde s (blobConfig (getR s Reg.KDE_CONFIG) b) b ∧
      OnlyRegs { s with kde := t.kde } t [Reg.KDE_STATUS, Reg.KDE_CONFIG, Reg.KDE_TOTAL, Reg.KDE_TOTAL + 4, Reg.KDE_ABSORBED,
        Reg.KDE_ABSORBED + 4, Reg.KDE_OUTLEN, Reg.KDE_KEY] [256])) ∧
  (∀ s m, KdeOwner s m → kdeStatus s = 0 → s.kde.ksv ≠ [] →
    let a := (getR s Reg.KDE_BLOB).toNat
    let b := memBytes s a 288
    a % 8 = 0 → PlainRead s 25 a 288 → s.tableBuilt = true →
    (blobShapeOk b = false ∨ blobTagOk s b = false) →
    Leads (.kdeRestore m) s (fun t => KdeFailed s t 0x08 [])) ∧
  (∀ s m, KdeOwner s m → (kdeStatus s = 1 ∨ kdeStatus s = 2) → Leads (.kdeAbort m) s (fun t => KdeFailed s t 0x01 [])) ∧
  (∀ s m, KdeOwner s m → Leads (.kdeClear m) s (fun t =>
    (∀ i, i < 32 → getR t (Reg.KDE_EXPECT + 4 * i) = 0) ∧ getR t Reg.KDE_CMP = 0 ∧
    OnlyRegs s t (Reg.KDE_CMP :: (List.range 32).map (fun i => Reg.KDE_EXPECT + 4 * i)) [])) ∧
  (∀ s, Quiet s → MayWrite s 12 Reg.KDE_LOCK → Leads (.kdeLockRelease 12) s (fun t =>
    getR t Reg.KDE_LOCK = 0 ∧ (∀ i, i < 32 → getR t (Reg.KDE_EXPECT + 4 * i) = 0) ∧ getR t Reg.KDE_CMP = 0 ∧
    kdeStatus t = 0 ∧ t.kde = noJob s.kde ∧ isPending t 259 = true ∧ t.mem = s.mem)) ∧
  (∀ s m c split, Quiet s → MayWrite s m Reg.KDE_CTRL → lockOwner s Reg.KDE_LOCK ≠ m → mget? s.lastRaise 258 = none →
    c ∈ [Instr.kdeStart ⟨m, split⟩, .kdeFeed m, .kdeSave m, .kdeRestore m, .kdeAbort m, .kdeClear m] → Leads c s (fun t =>
      getR t Reg.KDE_ERR = getR s Reg.KDE_ERR ||| 1 ∧ SameRegs s t [Reg.KDE_ERR] ∧ Raises s t [258] ∧ t.kde = s.kde ∧
      t.mem = s.mem))

/-- Locks, tablets and mailboxes. Model choices in it: log entries 68, 69. -/
def Obligations.LocksAndMailboxes : Prop := Sys2Proof.Claims.Locks ∧ Sys2Proof.Claims.Mailboxes

/-- The digest engine: its jobs and its state. Model choices in it: log entries 8, 89, 148, 149. -/
def Obligations.DigestEngine : Prop := Sys2Proof.Claims.DigestJobs ∧ Sys2Proof.Claims.DigestState

/-! ### The arithmetic engine -/

/-- The owner of MAE_LOCK commands the engine, and no short job and no request of the branch tree unit waits (R322, R327, R328). -/
def Sys2Proof.Machine.MaeOwner (s : State) (m : Master) : Prop :=
  Quiet s ∧ MayWrite s m Reg.MAE_CTRL ∧ lockOwner s Reg.MAE_LOCK = m ∧ m ≠ 0 ∧ s.mae.shortPending = false ∧
  s.mae.request = none

/-- The job that MAE_OP and MAE_ARGS describe. -/
def Sys2Proof.Machine.stagedJob (s : State) : MaeJob := maeJob (getR s Reg.MAE_OP) (getR s Reg.MAE_ARGS0) (getR s Reg.MAE_ARGS1)

/-- A job that START refuses with a code: DONE, events 261 and 262 (R323, R330). -/
def Sys2Proof.Machine.MaeRefused (s t : State) (code : Nat) : Prop :=
  getR t Reg.MAE_STATUS = maeStatus 3 code 0 ∧ t.mae = { s.mae with job := none } ∧
  OnlyRegs { s with mae := t.mae } t [Reg.MAE_STATUS] [261, 262]

/-- Every operand slot is zero and STATE is WIPING (R324). -/
def Sys2Proof.Machine.Wiping (s t : State) : Prop :=
  maeState t = 4 ∧ t.mae.job = none ∧ t.mae.parked = none ∧ (∀ x, memByte t x = if 0x50000000 ≤ x ∧ x < 0x50010000 then 0 else memByte s x)

/-- MAE_START (R323, R326, R329, R330), MAE_JOB_DONE (R320, R323): a number job writes its result, a verification its
verdict. Model choices in it: log entries 19, 90, 164. -/
def Obligations.ArithmeticJobs : Prop :=
  (∀ s m, MaeOwner s m → (maeState s = 0 ∨ maeState s = 3) → maeBadParam (stagedJob s) (maeIzpen s) = false →
    maeModeOk s (stagedJob s).op = true → (maeSecret (stagedJob s).op = true → entReady s = true) →
    Leads (.maeStart m) s (fun t =>
      getR t Reg.MAE_STATUS = maeStatus 1 0 0 ∧
      t.mae = { s.mae with job := some (getR s Reg.MAE_OP, getR s Reg.MAE_ARGS0, getR s Reg.MAE_ARGS1) } ∧
      OnlyRegs { s with mae := t.mae } t [Reg.MAE_STATUS] [])) ∧
  (∀ s m, MaeOwner s m → (maeState s = 0 ∨ maeState s = 3) → maeBadParam (stagedJob s) (maeIzpen s) = true →
    Leads (.maeStart m) s (fun t => MaeRefused s t 0x02)) ∧
  (∀ s m, MaeOwner s m → (maeState s = 0 ∨ maeState s = 3) → maeBadParam (stagedJob s) (maeIzpen s) = false →
    maeSecret (stagedJob s).op = true → s.mode ≠ .running → s.mode ≠ .commissioning →
    Leads (.maeStart m) s (fun t => MaeRefused s t 0x05)) ∧
  (∀ s m, MaeOwner s m → (maeState s = 1 ∨ maeState s = 2 ∨ maeState s = 4) → Leads (.maeStart m) s (fun t =>
    getR t Reg.MAE_ERR = getR s Reg.MAE_ERR ||| 2 ∧ OnlyRegs s t [Reg.MAE_ERR] [])) ∧
  (∀ s op x y, Quiet s → mainPower s = true → maeState s = 1 → s.mae.shortPending = false → s.mae.request = none →
    s.mae.job = some (op, x, y) →
    maeSealBad s (maeJob op x y) = none →
    let j := maeJob op x y
    1 ≤ j.op → j.op ≤ 3 → 1 ≤ j.len → j.len ≤ 512 → slotNum s j.c j.len ≠ 0 → Leads (.maeJobDone .ok) s (fun t =>
      getR t Reg.MAE_STATUS = maeStatus 3 0 0 ∧ t.mae = { s.mae with job := none } ∧
      memBytes t (slotAddr j.d) 512 = zeros (512 - j.len) ++
        be j.len (modResult j.op (slotNum s j.a j.len) (slotNum s j.b j.len) (slotNum s j.c j.len)) ∧
      (∀ z, (z < slotAddr j.d ∨ slotAddr j.d + 512 ≤ z) → memByte t z = memByte s z) ∧
      getR64 t Reg.MAE_JOBS = getR64 s Reg.MAE_JOBS + 1 ∧
      OnlyRegs { s with mae := t.mae, mem := t.mem, badCells := t.badCells } t
        [Reg.MAE_STATUS, Reg.MAE_JOBS, Reg.MAE_JOBS + 4] [261])) ∧
  (∀ s op x y, Quiet s → mainPower s = true → maeState s = 1 → s.mae.shortPending = false → s.mae.request = none →
    s.mae.job = some (op, x, y) →
    maeSealBad s (maeJob op x y) = none → (maeJob op x y).op = 0x19 → Leads (.maeJobDone .ok) s (fun t =>
      let j := maeJob op x y
      let e := ed25519Equation (slotHead s j.b 32) (slotHead s j.c 64) (ofLe (slotHead s j.a 64))
      getR t Reg.MAE_STATUS = (if e.isNone then maeStatus 3 0x03 0 else maeStatus 3 0 (if e.getD false then 1 else 2)) ∧
      t.mae.job = none ∧ t.mem = s.mem ∧ Raises s t (261 :: if e.isNone then [262] else []))) ∧
  (∀ s op x y, Quiet s → mainPower s = true → maeState s = 1 → s.mae.shortPending = false → s.mae.request = none →
    s.mae.job = some (op, x, y) →
    maeSealBad s (maeJob op x y) = none → sealFaultCount s 20 ≠ fieldR s Reg.ILK_SEALCFG 0 4 →
    Leads (.maeJobDone .sealFault) s (fun t =>
      getR t Reg.MAE_STATUS = maeStatus 3 0x06 0 ∧ t.mae = { s.mae with job := none } ∧
      ((mget? t.sealFaults 20).getD []).head? = some s.ttc ∧
      OnlyRegs { s with mae := t.mae, sealFaults := t.sealFaults } t [Reg.MAE_STATUS] [192, 261, 262]))

/-- MAE_ABORT, MAE_CLEAR, MAE_WIPE_DONE (R324), the lock's forced release (R322) and the wipe of R325; MAE_SHORT_START,
MAE_YIELD_POINT (R327), MAE_BTR_REQUEST (R328), the forced release of MAE_SLOCK (R343). Model choices in it: log entries 8,
20, 90, 154. -/
def Obligations.WipesAndShortJobs : Prop :=
  (∀ s m, MaeOwner s m → Leads (.maeAbort m) s (fun t => Wiping s t ∧ isPending t 262 = true ∧
    (maeBusy s = true → getR t Reg.MAE_STATUS = maeStatus 4 1 0) ∧ SameRegs s t [Reg.MAE_STATUS])) ∧
  (∀ s m, MaeOwner s m → maeBusy s = false → Leads (.maeClear m) s (fun t => Wiping s t ∧
    OnlyRegs { s with mae := t.mae, mem := t.mem, badCells := t.badCells } t [Reg.MAE_STATUS] [])) ∧
  (∀ s, Quiet s → mainPower s = true → maeState s = 4 → s.mae.shortPending = false → s.mae.request = none →
    Leads .maeWipeDone s (fun t =>
    maeState t = 0 ∧ t.mae = s.mae ∧ OnlyRegs { s with mae := t.mae } t [Reg.MAE_STATUS] [])) ∧
  (∀ s, Quiet s → MayWrite s 12 Reg.MAE_LOCK → s.mae.shortPending = false → Leads (.maeLockRelease 12) s (fun t =>
    Wiping s t ∧ getR t Reg.MAE_LOCK = 0 ∧ isPending t 262 = true)) ∧
  (∀ s m, Quiet s → MayRead s m Reg.MAE_LOCK → getR s Reg.MAE_LOCK = 0 → maeWipeOn s = true → s.mae.prevOwner ≠ 0 →
    s.mae.prevOwner ≠ m → s.mae.shortPending = false → Leads (.maeLockRead m) s (fun t =>
      Wiping s t ∧ getR t Reg.MAE_LOCK = m.setWidth 32 ∧ t.ports.readData = 0 ∧ t.mae.prevOwner = m)) ∧
  (∀ s m v, Quiet s → MayWrite s m Reg.MAE_SCTRL → lockOwner s Reg.MAE_SLOCK = m → m ≠ 0 → bit v 4 = true →
    1 ≤ bitsOf v 0 2 → 1 ≤ bitsOf v 16 10 → bitsOf v 16 10 ≤ 512 → shortSlotsOk (getR s Reg.MAE_SARGS) = true →
    s.mae.shortPending = false → maeBusy s = true → Leads (.maeShortStart m v) s (fun t =>
      getR t Reg.MAE_SCTRL = (place 0 2 (bitsOf v 0 2) ||| place 16 10 (bitsOf v 16 10)) ∧
      t.mae = { s.mae with shortPending := true, short := some (getR t Reg.MAE_SCTRL, getR s Reg.MAE_SARGS) } ∧
      OnlyRegs { s with mae := t.mae } t [Reg.MAE_SCTRL] [])) ∧
  (∀ s ctl args, Quiet s → mainPower s = true → maeState s = 1 → maeIzpen s = true → s.mae.shortPending = true →
    s.mae.short = some (ctl, args) → s.mae.request = none → shortSealBad s args = none →
    let len := bitsOf ctl 16 10
    let d := slotAddr (bitsOf args 24 7)
    1 ≤ len → len ≤ 512 → slotNum s (bitsOf args 16 7) len ≠ 0 → Leads .maeYieldPoint s (fun t =>
      memBytes t d 512 = zeros (512 - len) ++ be len (modResult (bitsOf ctl 0 2) (slotNum s (bitsOf args 0 7) len)
        (slotNum s (bitsOf args 8 7) len) (slotNum s (bitsOf args 16 7) len) % 256 ^ len) ∧
      (∀ z, (z < d ∨ d + 512 ≤ z) → memByte t z = memByte s z) ∧
      t.mae = { s.mae with shortPending := false, short := none, parked := none } ∧
      bitR t Reg.MAE_SCTRL 26 = true ∧ SameRegs s t [Reg.MAE_SCTRL] ∧ Raises s t [264])) ∧
  (∀ s ctl args c, Quiet s → mainPower s = true → maeState s = 1 → maeIzpen s = true → s.mae.shortPending = true →
    s.mae.short = some (ctl, args) → s.mae.request = none → shortSealBad s args = some c → Leads .maeYieldPoint s (fun t =>
      fieldR t Reg.MAE_STATUS 8 8 = 6 ∧ maeState t = 1 ∧ t.mae.job = s.mae.job ∧ t.mae.shortPending = false ∧ t.mem = s.mem ∧
      isPending t 192 = true ∧ isPending t 262 = true ∧ isPending t 264 = true)) ∧
  (∀ s, Quiet s → (s.mae.request = none ∨ hybridReady s = false) → Leads .maeBtrRequest s (fun t => t = s)) ∧
  (∀ s a ct k, Quiet s → mainPower s = true → s.mae.request = some (.command 3 a ct k) → hybridReady s = true →
    anyLane s = true → imageWorn s = false → argExpire a = false → mget? s.branches 0 = none →
    PlainRead s a.master (bufAddr a) 1697 →
    createCheck s (argIndex a) 0 (argKind a) (memBytes s (bufAddr a) 1697) true [] = Check.ok →
    useCheck s (argParent a) (fun k => decide (k = 3)) [27, 26, BitVec.toNat a.master] = Check.ok →
    Leads .maeBtrRequest s (fun t =>
      t.mae.request = none ∧
      (∃ b, mget? t.branches (argIndex a) = some b ∧ b.state = .valid ∧
        b.key = decapsKey (branchKey s (argParent a)) (slice ct 0 1665) (memBytes s (bufAddr a) 1697) (argKind a)) ∧
      (∃ p, t.btr = some p ∧ p.op = 3 ∧ p.index = argIndex a) ∧ t.mem = s.mem)) ∧
  (∀ s, Quiet s → MayWrite s 12 Reg.MAE_SLOCK → s.mae.shortPending = true → s.mae.short ≠ none →
    Leads (.maeSlockRelease 12) s (fun t =>
      getR t Reg.MAE_SLOCK = 0 ∧ fieldR t Reg.MAE_STATUS 8 8 = 1 ∧ fieldR t Reg.MAE_STATUS 16 8 = 254 ∧
      t.mae.shortPending = false ∧ Raises s t [262, 264]))

/-! ### The lattice unit and the entropy source -/

/-- A lane is the first free one, and no Manifest and no request of the branch tree unit waits for it (R333). -/
def Sys2Proof.Machine.LaneFree (s : State) (n : Nat) : Prop :=
  Quiet s ∧ mainPower s = true ∧ freeLane s = some n ∧ manifestWaits s = false ∧ s.mae.request = none

/-- LSU_QPUSH, LSU_FLUSH (R335, R339), LANE_JOB_START, LANE_JOB_DONE (R333, R336), LSU_FENCE, LANE_SELF_TEST (R341). Model
choices in it: log entries 20, 91, 145, 154, 164. -/
def Obligations.LatticeLanes : Prop :=
  (∀ s m a, Quiet s → MayWrite s m Reg.LSU_QPUSH → s.descQueue.length < 32 → BitVec.toNat a % 64 = 0 →
    unfencedLanes s ≠ [] → Leads (.lsuQpush m a) s (fun t => t = { s with descQueue := s.descQueue ++ [(a.toNat, m)] })) ∧
  (∀ s m a, Quiet s → MayWrite s m Reg.LSU_QPUSH → s.descQueue.length = 32 → Leads (.lsuQpush m a) s (fun t =>
    bitR t Reg.LSU_ERR 0 = true ∧ OnlyRegs s t [Reg.LSU_ERR] [266])) ∧
  (∀ s m a, Quiet s → MayWrite s m Reg.LSU_QPUSH → s.descQueue.length < 32 → BitVec.toNat a % 64 ≠ 0 →
    Leads (.lsuQpush m a) s (fun t => bitR t Reg.LSU_ERR 1 = true ∧ OnlyRegs s t [Reg.LSU_ERR] [266])) ∧
  (∀ s m a p, Quiet s → MayWrite s m Reg.LSU_CTRL → s.descQueue = [(a, p)] → PlainWrite s 27 (a + 32) 32 →
    Leads (.lsuFlush m) s (fun t =>
      t.descQueue = [] ∧ memBytes t (a + 32) 32 = descTail 0x09 0 p 0 s.ttc s.ttc ∧
      (∀ x, (x < a + 32 ∨ a + 64 ≤ x) → memByte t x = memByte s x) ∧ t.regs = s.regs ∧ Raises s t [265, 267])) ∧
  (∀ s (n : BitVec 2) a p r, LaneFree s n.toNat → s.descQueue = (a, p) :: r →
    PlainRead s 27 a 64 → s.tableBuilt = true → descRefusal { s with descQueue := r } (memBytes s a 64) p = 0 →
    Leads (.laneJobStart n) s (fun t =>
      t.descQueue = r ∧ (laneAt t n.toNat).started = s.ttc ∧
      (∃ seed, (laneAt t n.toNat).job = some (.desc a p (memBytes s a 64) seed)) ∧ t.mem = s.mem ∧ t.regs = s.regs)) ∧
  (∀ s n, Quiet s → freeLane s ≠ some (BitVec.toNat n) → Leads (.laneJobStart n) s (fun t => t = s)) ∧
  (∀ s (n : BitVec 2) a p d seed, Quiet s → mainPower s = true → s.mae.request = none → (laneAt s n.toNat).job = some (.desc a p d seed) →
    descOp d = 3 → readDesc s d = { state := s, outcome := .ok } → PlainWrite s 27 (a + 32) 32 →
    Leads (.laneJobDone n .ok) s (fun t =>
      let v := verifyDesc (memBytes s (descAux d) 3073) (memBytes s (descIn d) (descInLen d))
      memBytes t (a + 32) 32 = descTail v n.toNat p 0 (laneAt s n.toNat).started s.ttc ∧
      (∀ x, (x < a + 32 ∨ a + 64 ≤ x) → memByte t x = memByte s x) ∧ (laneAt t n.toNat).job = none ∧
      getR64 t Reg.LSU_VERIFIES = getR64 s Reg.LSU_VERIFIES + 1 ∧
      Raises s t (265 :: if v ≠ 0 ∧ v ≠ 1 then [267] else []))) ∧
  (∀ s m bits, Quiet s → MayWrite s m Reg.LSU_FENCE →
    (∃ n, n < 4 ∧ (laneAt s n).fenced = false ∧ BitVec.getLsbD bits n = false) → Leads (.lsuFence m bits) s (fun t =>
      (∀ n, n < 4 → (laneAt t n).fenced = ((laneAt s n).fenced || bits.getLsbD n) ∧ (laneAt t n).job = (laneAt s n).job) ∧
      SameRegs s t [Reg.LSU_FAULT] ∧ t.descQueue = s.descQueue ∧
      ((∃ n, n < 4 ∧ (laneAt s n).fenced = false ∧ bits.getLsbD n = true) → isPending t 268 = true))) ∧
  (∀ s n, Quiet s → Leads (.laneSelfTest n true) s (fun t => t = s)) ∧
  (∀ s (n : BitVec 2), Quiet s → mainPower s = true → (laneAt s n.toNat).fenced = false → (laneAt s n.toNat).job = none →
    (∃ k, k < 4 ∧ k ≠ n.toNat ∧ (laneAt s k).fenced = false) → Leads (.laneSelfTest n false) s (fun t =>
      (laneAt t n.toNat).fenced = true ∧ getR t Reg.LSU_FAULT = (place 0 2 n.toNat ||| place 4 3 1 ||| 0x80) ∧
      SameRegs s t [Reg.LSU_FAULT] ∧ Raises s t [268]))

/-- A block passes both health tests, from the runs carried over (R349). -/
def Sys2Proof.Machine.blockBadNow (s : State) (block : Bytes) : Bool :=
  (runTest (samples (slice block 0 128)) (if s.ent.runs.isEmpty then freshRuns else s.ent.runs) false).2 ||
    proportionBad (samples (slice block 0 128))

/-- ENT_BIAS_DONE (R351, R353), ENT_BLOCK_TESTED (R349, R350, R353), ENT_DATA_READ (R354, R355). Model choices in it: log
entries 21, 57. -/
def Obligations.EntropySource : Prop :=
  (∀ s, mainPower s = true → bitR s Reg.ENT_STATUS 2 = false → Leads .entBiasDone s (fun t =>
    t = { s with ent := { s.ent with biased := true } })) ∧
  (∀ s block, Quiet s → mainPower s = true → s.ent.biased = true → bitR s Reg.ENT_STATUS 2 = false → s.ent.startup = 0 →
    s.ent.waiting = [] → blockBadNow s block = false → Leads (.entBlockTested block) s (fun t =>
      t.ent.pool = (if s.ent.pool.length + 32 ≤ 256 then s.ent.pool ++ shake256 (slice block 0 128) 32 else s.ent.pool) ∧
      t.ent.recent = (false :: s.ent.recent).take 64 ∧ getR64 t Reg.ENT_BLOCKS = getR64 s Reg.ENT_BLOCKS + 1 ∧
      OnlyRegs { s with ent := t.ent } t [Reg.ENT_STATUS, Reg.ENT_BLOCKS, Reg.ENT_BLOCKS + 4] [])) ∧
  (∀ s block, Quiet s → mainPower s = true → s.ent.biased = true → bitR s Reg.ENT_STATUS 2 = false →
    blockBadNow s block = true → ((s.ent.recent.take 63).filter (fun x => x)).length < 3 →
    Leads (.entBlockTested block) s (fun t =>
      t.ent.pool = s.ent.pool ∧ t.ent.biased = false ∧ t.ent.startup = 4 ∧ bitR t Reg.ENT_STATUS 1 = true ∧
      getR t Reg.ENT_FAILS = place 0 16 (min 65535 (fieldR s Reg.ENT_FAILS 0 16 + 1)) ∧
      OnlyRegs { s with ent := t.ent } t [Reg.ENT_STATUS, Reg.ENT_FAILS, Reg.ENT_BLOCKS, Reg.ENT_BLOCKS + 4] [281])) ∧
  (∀ s m, Quiet s → MayRead s m Reg.ENT_DATA → bitR s Reg.ENT_STATUS 2 = false → grantOf s m = none → 4 ≤ s.ent.pool.length →
    Leads (.entDataRead m) s (fun t =>
      t.ports.readData = BitVec.ofNat 64 (num s.ent.pool 0 4) ∧
      t = { s with ent := { s.ent with pool := s.ent.pool.drop 4, winner := m },
                   ports := { s.ports with readData := t.ports.readData, readErr := false } })) ∧
  (∀ s m w, Quiet s → MayRead s m Reg.ENT_DATA → bitR s Reg.ENT_STATUS 2 = false → grantOf s m = some w →
    Leads (.entDataRead m) s (fun t =>
      t.ports.readData = BitVec.setWidth 64 w ∧ t.ent.pool = s.ent.pool ∧
      t = { s with ent := { s.ent with granted := t.ent.granted },
                   ports := { s.ports with readData := t.ports.readData, readErr := false } })) ∧
  (∀ s m, Quiet s → MayRead s m Reg.ENT_DATA → bitR s Reg.ENT_STATUS 2 = false → grantOf s m = none → s.ent.pool.length < 4 →
    Leads (.entDataRead m) s (fun t =>
      EntRead.port m ∈ t.ent.waiting ∧ (∀ r, r ∈ t.ent.waiting ↔ r ∈ s.ent.waiting ∨ r = .port m) ∧
      t = { s with ent := { s.ent with waiting := t.ent.waiting } })) ∧
  (∀ s m, Quiet s → MayRead s m Reg.ENT_DATA → bitR s Reg.ENT_STATUS 2 = true → mget? s.lastRaise 283 = none →
    Leads (.entDataRead m) s (fun t =>
      t.ports.readErr = true ∧ fieldR t Reg.ENT_STATUS 3 3 = 3 ∧ t.ent = s.ent ∧ SameRegs s t [Reg.ENT_STATUS] ∧
      Raises s t [283]))

/-! ### Tamem-32 -/

/-- A core may issue, and the words of an instruction of `size` bytes are fetched at its PC; `f` is the state after the
fetch, which differs at most in the code window's cache and in the core's own waiting read (R293, R355, R377). -/
def Sys2Proof.Machine.Fetched (s : State) (i : Issue) (size : Nat) (f : State) : Prop :=
  Quiet s ∧ canIssue s i.core.toNat = true ∧
    fetchInstr (unstall s i.core.toNat) i.core.toNat size = { state := f, trap := none }

/-- The fetched instruction executes: its predicate and the loop words in use are readable, and p[P] XOR N is 1 (R361, R366,
R379). -/
def Sys2Proof.Machine.Executed (s : State) (i : Issue) (size : Nat) (f : State) : Prop :=
  Fetched s i size f ∧ (i.p = 0 ∨ (curWorld f i.core.toNat).badP = false) ∧ badLoopEnd (curWorld f i.core.toNat) = false ∧
    executes i (curWorld f i.core.toNat) = true

/-- The current world after an instruction that ended the interrupt shadow, did `g` and advanced PC (R379, R395); nothing
but that world changed. -/
def Sys2Proof.Machine.Ended (f t : State) (i : Issue) (size : Nat) (g : World → World) : Prop :=
  t = modWorld f i.core.toNat (fun w => advancePc size (g { w with shadow := false }))

/-- The instructions that write one word register: where they execute, their size, the register, the registers read and the
value (R364, R370, R371). -/
def Sys2Proof.Machine.wordRow : Instr → Option (Issue × Nat × BitVec 5 × List (BitVec 5) × (World → Word))
  | .add i rd ra rb => some (i, 4, rd, [ra, rb], fun w => readW w ra + readW w rb)
  | .sub i rd ra rb => some (i, 4, rd, [ra, rb], fun w => readW w ra - readW w rb)
  | .and i rd ra rb => some (i, 4, rd, [ra, rb], fun w => readW w ra &&& readW w rb)
  | .or i rd ra rb => some (i, 4, rd, [ra, rb], fun w => readW w ra ||| readW w rb)
  | .xor i rd ra rb => some (i, 4, rd, [ra, rb], fun w => readW w ra ^^^ readW w rb)
  | .andn i rd ra rb => some (i, 4, rd, [ra, rb], fun w => readW w ra &&& ~~~readW w rb)
  | .shl i rd ra rb => some (i, 4, rd, [ra, rb], fun w => readW w ra <<< ((readW w rb).toNat % 32))
  | .shr i rd ra rb => some (i, 4, rd, [ra, rb], fun w => readW w ra >>> ((readW w rb).toNat % 32))
  | .sar i rd ra rb => some (i, 4, rd, [ra, rb], fun w => (readW w ra).sshiftRight ((readW w rb).toNat % 32))
  | .rol i rd ra rb => some (i, 4, rd, [ra, rb], fun w => (readW w ra).rotateLeft ((readW w rb).toNat % 32))
  | .ror i rd ra rb => some (i, 4, rd, [ra, rb], fun w => (readW w ra).rotateRight ((readW w rb).toNat % 32))
  | .mul i rd ra rb => some (i, 4, rd, [ra, rb], fun w => readW w ra * readW w rb)
  | .mulh i rd ra rb => some (i, 4, rd, [ra, rb], fun w =>
      BitVec.ofInt 32 ((readW w ra).toInt * (readW w rb).toInt / 4294967296))
  | .mulhu i rd ra rb => some (i, 4, rd, [ra, rb], fun w =>
      BitVec.ofNat 32 ((readW w ra).toNat * (readW w rb).toNat / 4294967296))
  | .divu i rd ra rb => some (i, 4, rd, [ra, rb], fun w =>
      if readW w rb = 0 then 0xFFFFFFFF else BitVec.ofNat 32 ((readW w ra).toNat / (readW w rb).toNat))
  | .remu i rd ra rb => some (i, 4, rd, [ra, rb], fun w =>
      if readW w rb = 0 then readW w ra else BitVec.ofNat 32 ((readW w ra).toNat % (readW w rb).toNat))
  | .clz i rd ra => some (i, 4, rd, [ra], fun w => leadingZeros (readW w ra))
  | .popc i rd ra => some (i, 4, rd, [ra], fun w => onesCount (readW w ra))
  | .addi i rd ra imm => some (i, 4, rd, [ra], fun w => readW w ra + imm.signExtend 32)
  | .andi i rd ra imm => some (i, 4, rd, [ra], fun w => readW w ra &&& imm.signExtend 32)
  | .ori i rd ra imm => some (i, 4, rd, [ra], fun w => readW w ra ||| imm.signExtend 32)
  | .xori i rd ra imm => some (i, 4, rd, [ra], fun w => readW w ra ^^^ imm.signExtend 32)
  | .shli i rd ra amt => some (i, 4, rd, [ra], fun w => readW w ra <<< amt.toNat)
  | .shri i rd ra amt => some (i, 4, rd, [ra], fun w => readW w ra >>> amt.toNat)
  | .sari i rd ra amt => some (i, 4, rd, [ra], fun w => (readW w ra).sshiftRight amt.toNat)
  | .roli i rd ra amt => some (i, 4, rd, [ra], fun w => (readW w ra).rotateLeft amt.toNat)
  | .rori i rd ra amt => some (i, 4, rd, [ra], fun w => (readW w ra).rotateRight amt.toNat)
  | .li i rd imm => some (i, 8, rd, [], fun _ => imm)
  | .addl i rd ra imm => some (i, 8, rd, [ra], fun w => readW w ra + imm)
  | .andl i rd ra imm => some (i, 8, rd, [ra], fun w => readW w ra &&& imm)
  | .orl i rd ra imm => some (i, 8, rd, [ra], fun w => readW w ra ||| imm)
  | .xorl i rd ra imm => some (i, 8, rd, [ra], fun w => readW w ra ^^^ imm)
  | _ => none

/-- ADD, SUB, AND, OR, XOR, ANDN, SHL, SHR, SAR, ROL, ROR, MUL, MULH, MULHU, DIVU, REMU, CLZ, POPC, ADDI, ANDI, ORI, XORI,
the immediate shifts and rotates, LI, ADDL, ANDL, ORL, XORL (R364, R370, R371): what each writes, that nothing else changes,
and that a write of w0 is ignored (R360). -/
def Obligations.WordResults : Prop :=
  (∀ c i size rd reads v, wordRow c = some (i, size, rd, reads, v) → ∀ s f, Executed s i size f →
    badOperand (curWorld f i.core.toNat) reads = false → Leads c s (fun t => Ended f t i size (fun w => writeW rd (v w) w))) ∧
  (∀ w rd v r, readW (writeW rd v w) r = if r = rd ∧ r ≠ 0 then v else readW w r) ∧ (∀ w, readW w 0 = 0)

/-- The compares: the destination, PAIR, the registers read and the condition (R364, R368). -/
def Sys2Proof.Machine.compareRow : Instr → Option (Issue × BitVec 3 × Bool × List (BitVec 5) × (World → Bool))
  | .cmpeq i pd p ra rb => some (i, pd, p, [ra, rb], fun w => decide (readW w ra = readW w rb))
  | .cmpne i pd p ra rb => some (i, pd, p, [ra, rb], fun w => decide (readW w ra ≠ readW w rb))
  | .cmplt i pd p ra rb => some (i, pd, p, [ra, rb], fun w => (readW w ra).slt (readW w rb))
  | .cmpltu i pd p ra rb => some (i, pd, p, [ra, rb], fun w => decide (readW w ra < readW w rb))
  | .cmpge i pd p ra rb => some (i, pd, p, [ra, rb], fun w => !(readW w ra).slt (readW w rb))
  | .cmpgeu i pd p ra rb => some (i, pd, p, [ra, rb], fun w => decide (readW w rb ≤ readW w ra))
  | .cmptst i pd p ra rb => some (i, pd, p, [ra, rb], fun w => decide (readW w ra &&& readW w rb ≠ 0))
  | .cmpieq i pd p ra k => some (i, pd, p, [ra], fun w => decide (readW w ra = k.signExtend 32))
  | .cmpine i pd p ra k => some (i, pd, p, [ra], fun w => decide (readW w ra ≠ k.signExtend 32))
  | .cmpilt i pd p ra k => some (i, pd, p, [ra], fun w => (readW w ra).slt (k.signExtend 32))
  | .cmpiltu i pd p ra k => some (i, pd, p, [ra], fun w => decide (readW w ra < k.signExtend 32))
  | .cmpige i pd p ra k => some (i, pd, p, [ra], fun w => !(readW w ra).slt (k.signExtend 32))
  | .cmpigeu i pd p ra k => some (i, pd, p, [ra], fun w => decide (k.signExtend 32 ≤ readW w ra))
  | .cmpitst i pd p ra k => some (i, pd, p, [ra], fun w => decide (readW w ra &&& k.signExtend 32 ≠ 0))
  | _ => none

/-- The predicate operations and their values (R364). -/
def Sys2Proof.Machine.predRow : Instr → Option (Issue × BitVec 3 × (World → Bool))
  | .pand i pd pa pb => some (i, pd, fun w => readP w pa && readP w pb)
  | .por i pd pa pb => some (i, pd, fun w => readP w pa || readP w pb)
  | .pxor i pd pa pb => some (i, pd, fun w => readP w pa ^^ readP w pb)
  | .pandn i pd pa pb => some (i, pd, fun w => readP w pa && !readP w pb)
  | .pnot i pd pa => some (i, pd, fun w => !readP w pa)
  | .pset i pd => some (i, pd, fun _ => true)
  | .pclr i pd => some (i, pd, fun _ => false)
  | _ => none

/-- The compares, with PAIR only on p2, p4 and p6 (R365, R368), PAND, POR, PXOR, PANDN, PNOT, PSET, PCLR (R364), and ADDC and
SUBB with the carry in p7 (R369); a write of p0 is ignored (R360). -/
def Obligations.PredicateResults : Prop :=
  (∀ c i pd pair reads v, compareRow c = some (i, pd, pair, reads, v) → ∀ s f, Executed s i 4 f →
    badOperand (curWorld f i.core.toNat) reads = false → (pair = true → pd = 2 ∨ pd = 4 ∨ pd = 6) →
    Leads c s (fun t => Ended f t i 4 (fun w =>
      if pair then writeP (pd + 1) (!v w) (writeP pd (v w) w) else writeP pd (v w) w))) ∧
  (∀ c i pd v, predRow c = some (i, pd, v) → ∀ s f, Executed s i 4 f → (curWorld f i.core.toNat).badP = false →
    Leads c s (fun t => Ended f t i 4 (fun w => writeP pd (v w) w))) ∧
  (∀ i rd ra rb s f, Executed s i 4 f → badOperand (curWorld f i.core.toNat) [ra, rb] = false →
    (curWorld f i.core.toNat).badP = false → Leads (.addc i rd ra rb) s (fun t => Ended f t i 4 (fun w =>
      let x := (readW w ra).toNat + (readW w rb).toNat + (readP w 7).toNat
      writeP 7 (decide (2 ^ 32 ≤ x)) (writeW rd (BitVec.ofNat 32 x) w)))) ∧
  (∀ i rd ra rb s f, Executed s i 4 f → badOperand (curWorld f i.core.toNat) [ra, rb] = false →
    (curWorld f i.core.toNat).badP = false → Leads (.subb i rd ra rb) s (fun t => Ended f t i 4 (fun w =>
      let x : Int := (readW w ra).toNat - (readW w rb).toNat - (readP w 7).toNat
      writeP 7 (decide (x < 0)) (writeW rd (BitVec.ofInt 32 x) w)))) ∧
  (∀ w pd b q, readP (writeP pd b w) q = if q = pd ∧ q ≠ 0 then b else readP w q) ∧ (∀ w, readP w 0 = true)

/-- The instructions that issue at a core: their size and the exception that decoding them takes, given whether the world is
the Signalbox world and whether it is at supervisor level (R365, R367, R392, R394, R402). -/
def Sys2Proof.Machine.issueRow (sig sup : Bool) : Instr → Option (Issue × Nat × Option Nat)
  | .bra i a => some (i, 8, if a &&& 3 = 0 then none else some 0x01)
  | .calla i a => some (i, 8, if a &&& 3 = 0 then none else some 0x01)
  | .br i _ => some (i, 4, none)
  | .call i _ => some (i, 4, none)
  | .jr i _ => some (i, 4, none)
  | .callr i _ => some (i, 4, none)
  | .ret i => some (i, 4, none)
  | .loop i _ _ => some (i, 4, none)
  | .lbreak i => some (i, 4, none)
  | .syscall i _ => some (i, 4, none)
  | .bkpt i => some (i, 4, none)
  | .bar i => some (i, 4, none)
  | .sigf i _ => some (i, 4, none)
  | .waitf i _ => some (i, 4, none)
  | .wcall i _ => some (i, 4, if sig then some 0x01 else if sup then none else some 0x02)
  | .retx i => some (i, 4, if sup then none else some 0x02)
  | .rstopPop i _ => some (i, 4, if sup then none else some 0x02)
  | .rstopPush i _ => some (i, 4, if sup then none else some 0x02)
  | .xregRead i _ => some (i, 4, if sig && sup then none else some 0x02)
  | .xregWrite i _ => some (i, 4, if sig && sup then none else some 0x02)
  | .waitt i pd ra => some (i, 4, if ra.toNat % 2 = 0 ∧ (pd = 2 ∨ pd = 4 ∨ pd = 6) then none else some 0x01)
  | .ldb i _ _ _ => some (i, 4, none)
  | .ldbu i _ _ _ => some (i, 4, none)
  | .ldh i _ _ _ => some (i, 4, none)
  | .ldhu i _ _ _ => some (i, 4, none)
  | .ldw i _ _ _ => some (i, 4, none)
  | .stb i _ _ _ => some (i, 4, none)
  | .sth i _ _ _ => some (i, 4, none)
  | .stw i _ _ _ => some (i, 4, none)
  | .bcopy i d a n => some (i, 4, if d ≠ 0 ∧ a ≠ 0 ∧ n ≠ 0 ∧ d ≠ a ∧ d ≠ n ∧ a ≠ n then none else some 0x01)
  | .bzero i d n => some (i, 4, if d ≠ 0 ∧ n ≠ 0 ∧ d ≠ n then none else some 0x01)
  | .cteq i pd a b n => some (i, 4, if (pd = 2 ∨ pd = 4 ∨ pd = 6) ∧ n.toNat % 2 = 0 ∧ n ≠ 0 ∧ a ≠ 0 ∧ b ≠ 0 ∧ a ≠ b ∧
      a ≠ n ∧ b ≠ n ∧ a ≠ n + 1 ∧ b ≠ n + 1 then none else some 0x01)
  | .mfs i _ k => some (i, 4, match mfsLevel k.toNat with
      | none => some 0x01
      | some 0 => none
      | some 1 => if sup then none else some 0x02
      | some _ => if sig && sup then none else some 0x02)
  | .mts i k _ => some (i, 4, match mtsLevel k.toNat with
      | none => some 0x01
      | some 0 => none
      | some 1 => if sup then none else some 0x02
      | some _ => if sig && sup then none else some 0x02)
  | c =>
    match wordRow c, compareRow c, predRow c with
    | some (i, size, _), _, _ => some (i, size, none)
    | _, some (i, pd, pair, _), _ => some (i, 4, if pair = false ∨ pd = 2 ∨ pd = 4 ∨ pd = 6 then none else some 0x01)
    | _, _, some (i, _) => some (i, 4, none)
    | _, _, _ => none

/-- An instruction that decodes to an exception takes it whether or not its predicate holds (R367); one whose predicate does
not hold only advances PC (R366); one whose predicate holds a seal mismatch, or that executes beside loop words that do,
takes the seal fault (R361, R367); a core that may not issue does nothing. Model choices in it: log entries 77, 150. -/
def Obligations.IssueRules : Prop :=
  (∀ c s f i size code, issueRow (curSig f i.core.toNat) (curWorld f i.core.toNat).level c = some (i, size, some code) →
    Fetched s i size f → Leads c s (fun t => t = after (faultAt f i.core.toNat (Trap.plain code)))) ∧
  (∀ c s f i size, issueRow (curSig f i.core.toNat) (curWorld f i.core.toNat).level c = some (i, size, none) →
    Fetched s i size f → (i.p = 0 ∨ (curWorld f i.core.toNat).badP = false) →
    executes i (curWorld f i.core.toNat) = false → Leads c s (fun t => Ended f t i size (fun w => w))) ∧
  (∀ c s f i size, issueRow (curSig f i.core.toNat) (curWorld f i.core.toNat).level c = some (i, size, none) →
    Fetched s i size f → ((i.p ≠ 0 ∧ (curWorld f i.core.toNat).badP = true) ∨
      (executes i (curWorld f i.core.toNat) = true ∧ badLoopEnd (curWorld f i.core.toNat) = true)) →
    Leads c s (fun t => t = after (registerSealFault f i.core.toNat))) ∧
  (∀ c s i size x, issueRow (curSig s i.core.toNat) (curWorld s i.core.toNat).level c = some (i, size, x) → Quiet s →
    canIssue s i.core.toNat = false → Leads c s (fun t => t = s)) ∧
  (∀ c s f i size tr, issueRow (curSig s i.core.toNat) (curWorld s i.core.toNat).level c = some (i, size, none) →
    Quiet s → canIssue s i.core.toNat = true → 
    fetchInstr (unstall s i.core.toNat) i.core.toNat size = { state := f, trap := some tr } →
    Leads c s (fun t => t = after (faultAt f i.core.toNat tr)))

/-- The state in which an executing instruction does its work: the fetch is made and the interrupt shadow is over. -/
def Sys2Proof.Machine.Working (s : State) (i : Issue) (size : Nat) (reads : List (BitVec 5)) (f : State) : Prop :=
  ∃ g, Executed s i size g ∧ badOperand (curWorld g i.core.toNat) reads = false ∧ f = unshadow g i.core.toNat

/-- The address of a load or store as the program gives it (R372). -/
def Sys2Proof.Machine.dataAddress (f : State) (i : Issue) (ra : BitVec 5) (imm : BitVec 12) : Word :=
  readW (curWorld f i.core.toNat) ra + imm.signExtend 32

/-- The loads: size, destination, base, offset and what becomes of the bytes read (R373). -/
def Sys2Proof.Machine.loadRow : Instr → Option (Issue × Nat × BitVec 5 × BitVec 5 × BitVec 12 × (Word → Word))
  | .ldb i rd ra k => some (i, 1, rd, ra, k, fun v => (v.setWidth 8).signExtend 32)
  | .ldbu i rd ra k => some (i, 1, rd, ra, k, fun v => v)
  | .ldh i rd ra k => some (i, 2, rd, ra, k, fun v => (v.setWidth 16).signExtend 32)
  | .ldhu i rd ra k => some (i, 2, rd, ra, k, fun v => v)
  | .ldw i rd ra k => some (i, 4, rd, ra, k, fun v => v)
  | _ => none

/-- The stores: size, source, base and offset (R373). -/
def Sys2Proof.Machine.storeRow : Instr → Option (Issue × Nat × BitVec 5 × BitVec 5 × BitVec 12)
  | .stb i rs ra k => some (i, 1, rs, ra, k)
  | .sth i rs ra k => some (i, 2, rs, ra, k)
  | .stw i rs ra k => some (i, 4, rs, ra, k)
  | _ => none

/-- LDB, LDBU, LDH, LDHU, LDW, STB, STH, STW (R372, R373, R414): an aligned access that is served, one in plain memory byte
by byte; a misaligned access takes the alignment exception, one that fails a bus fault; a load from an empty entropy pool stalls
(R355). -/
def Sys2Proof.Claims.LoadsAndStores : Prop :=
  (∀ c i n rd ra k ext, loadRow c = some (i, n, rd, ra, k, ext) → ∀ s f, Working s i 4 [ra] f →
    let a := dataAddress f i ra k
    let x := translate i.core.toNat a.toNat
    let r := fabricRead f (masterOf f i.core.toNat) x n
    (a.toNat % n = 0 → stalls f (masterOf f i.core.toNat) a.toNat = false → r.detail = 0 → Quiet r.state → Leads c s (fun t =>
      t = modWorld r.state i.core.toNat (fun w => advancePc 4 (writeW rd (ext r.value) w)))) ∧
    (a.toNat % n = 0 → stalls f (masterOf f i.core.toNat) a.toNat = true → Leads c s (fun t =>
      t = modWorld (entWait f (.core i.core.toNat a)) i.core.toNat (fun w => { w with shadow := (curWorld s i.core.toNat).shadow }))) ∧
    (a.toNat % n = 0 → stalls f (masterOf f i.core.toNat) a.toNat = false → r.detail ≠ 0 → Leads c s (fun t =>
      t = after (faultAt r.state i.core.toNat (Trap.bus r.detail a)))) ∧
    (a.toNat % n ≠ 0 → Leads c s (fun t => t = after (faultAt f i.core.toNat (Trap.at 0x03 a))))) ∧
  (∀ c i n rs ra k, storeRow c = some (i, n, rs, ra, k) → ∀ s f, Working s i 4 [rs, ra] f →
    let a := dataAddress f i ra k
    let x := translate i.core.toNat a.toNat
    let r := fabricWrite f (masterOf f i.core.toNat) x n (readW (curWorld f i.core.toNat) rs)
    (a.toNat % n = 0 → r.detail = 0 → Quiet r.state → Leads c s (fun t =>
      t = modWorld r.state i.core.toNat (advancePc 4))) ∧
    (a.toNat % n = 0 → r.detail ≠ 0 → Leads c s (fun t =>
      t = after (faultAt r.state i.core.toNat (Trap.bus r.detail a)))) ∧
    (a.toNat % n ≠ 0 → Leads c s (fun t => t = after (faultAt f i.core.toNat (Trap.at 0x03 a))))) ∧
  (∀ s m a n, isRam a = true → isBlock a = false → meetsSpecial a n = false → permits s m .read a = true →
    badCell? s a n = none →
    fabricRead s m a n = { state := s, value := BitVec.ofNat 32 (ofLe (memBytes s a n)), detail := 0 }) ∧
  (∀ s m a n v, isRam a = true → isBlock a = false → meetsSpecial a n = false → permits s m .write a = true → 0 < n →
    badPartial? s a n = none → opRamClosed s m a n = false →
    let r := fabricWrite s m a n v
    r.detail = 0 ∧ memBytes r.state a n = le n v.toNat ∧
    (∀ b, (b < a ∨ a + n ≤ b) → memByte r.state b = memByte s b) ∧
    r.state = { s with mem := r.state.mem, badCells := r.state.badCells })

/-- The registers a step of BCOPY, BZERO or CTEQ moves: addresses up, count down (R386). -/
def Sys2Proof.Machine.stepped (ups : List (BitVec 5)) (wn : BitVec 5) (k : Word) (w : World) : World :=
  writeW wn (readW w wn - k) (ups.foldl (fun v r => writeW r (readW w r + k) v) w)

/-- The next `k` bytes from `a` are plain memory, word by word, as a core reaches them. -/
def Sys2Proof.Machine.PlainSpan (n : Nat) (a k : Word) : Prop :=
  ∀ j, 4 * j < k.toNat → isBlock (translate n (a + BitVec.ofNat 32 (4 * j)).toNat) = false

/-- BCOPY, BZERO, CTEQ (R385 to R387): one step of at most 64 bytes; with nothing left the instruction completes, else PC stays,
and so does the interrupt shadow (R395); a read that stalls holds the step at its word (R355). A misaligned operand or a count above 65,536 takes the alignment exception. -/
def Sys2Proof.Claims.LongInstructions : Prop :=
  (∀ s f i wd ws wn, Working s i 4 [wd, ws, wn] f → wd ≠ 0 → ws ≠ 0 → wn ≠ 0 → wd ≠ ws → wd ≠ wn → ws ≠ wn →
    let n := i.core.toNat
    let w := curWorld f n
    let k : Word := if (readW w wn).toNat < 64 then readW w wn else 64
    let o := BitVec.ofNat 32 (4 * (coreAt f n).stepDone)
    let r := copyWords (masterOf f n) n (k.toNat / 4 - (coreAt f n).stepDone) (readW w wd + o) (readW w ws + o) f
    longFault [readW w wd, readW w ws] (readW w wn) = none → r.trap = none → Quiet r.state →
    Leads (.bcopy i wd ws wn) s (fun t =>
      t = if r.left = 0 then modWorld (holdStep r.state n 0 0) n (fun v =>
          if readW w wn - k = 0 then advancePc 4 (stepped [wd, ws] wn k v)
          else { stepped [wd, ws] wn k v with shadow := (curWorld s n).shadow })
        else modWorld (holdStep r.state n (k.toNat / 4 - r.left) 0) n (fun v => { v with shadow := (curWorld s n).shadow }))) ∧
  (∀ s f i wd wn, Working s i 4 [wd, wn] f → wd ≠ 0 → wn ≠ 0 → wd ≠ wn →
    let n := i.core.toNat
    let w := curWorld f n
    let k : Word := if (readW w wn).toNat < 64 then readW w wn else 64
    let r := zeroWords (masterOf f n) n (k.toNat / 4) (readW w wd) f
    longFault [readW w wd] (readW w wn) = none → r.trap = none → Quiet r.state →
    Leads (.bzero i wd wn) s (fun t =>
      t = modWorld r.state n (fun v =>
        if readW w wn - k = 0 then advancePc 4 (stepped [wd] wn k v)
        else { stepped [wd] wn k v with shadow := (curWorld s n).shadow }))) ∧
  (∀ s f i pd wa wb wn, Working s i 4 [wa, wb, wn, wn + 1] f → cteqOk pd wa wb wn = true →
    let n := i.core.toNat
    let w := curWorld f n
    let k : Word := if (readW w wn).toNat < 64 then readW w wn else 64
    let d := (coreAt f n).stepDone
    let o := BitVec.ofNat 32 (4 * d)
    let r := diffWords (masterOf f n) n (k.toNat / 4 - d) (readW w wa + o) (readW w wb + o)
      (if d = 0 then readW w (wn + 1) else (coreAt f n).stepAcc) f
    longFault [readW w wa, readW w wb] (readW w wn) = none → r.trap = none → Quiet r.state →
    Leads (.cteq i pd wa wb wn) s (fun t =>
      t = if r.left = 0 then modWorld (holdStep r.state n 0 0) n (fun v =>
        let v := writeW (wn + 1) r.acc (writeW wn (readW w wn - k)
          (writeW wb (readW v wb + k) (writeW wa (readW v wa + k) v)))
        if readW w wn - k = 0 then
          advancePc 4 (writeP (pd + 1) (decide (r.acc ≠ 0)) (writeP pd (decide (r.acc = 0)) v))
        else { v with shadow := (curWorld s n).shadow })
        else modWorld (holdStep r.state n (k.toNat / 4 - r.left) r.acc) n (fun v =>
          { v with shadow := (curWorld s n).shadow }))) ∧
  (∀ s f i wd ws wn a, Working s i 4 [wd, ws, wn] f → wd ≠ 0 → ws ≠ 0 → wn ≠ 0 → wd ≠ ws → wd ≠ wn → ws ≠ wn →
    longFault [readW (curWorld f i.core.toNat) wd, readW (curWorld f i.core.toNat) ws] (readW (curWorld f i.core.toNat) wn) =
      some a →
    Leads (.bcopy i wd ws wn) s (fun t => t = after (faultAt f i.core.toNat (Trap.at 0x03 a)))) ∧
  (∀ s m n (d k : Word), k.toNat % 4 = 0 → PlainSpan n d k → (zeroWords m n (k.toNat / 4) d s).trap = none →
    ∀ b, (∀ j, 4 * j < k.toNat → b < translate n (d + BitVec.ofNat 32 (4 * j)).toNat ∨
      translate n (d + BitVec.ofNat 32 (4 * j)).toNat + 4 ≤ b) →
    memByte (zeroWords m n (k.toNat / 4) d s).state b = memByte s b) ∧
  (∀ s m n (d a k : Word), k.toNat % 4 = 0 → PlainSpan n d k → PlainSpan n a k →
    (copyWords m n (k.toNat / 4) d a s).trap = none →
    ∀ b, (∀ j, 4 * j < k.toNat → b < translate n (d + BitVec.ofNat 32 (4 * j)).toNat ∨
      translate n (d + BitVec.ofNat 32 (4 * j)).toNat + 4 ≤ b) →
    memByte (copyWords m n (k.toNat / 4) d a s).state b = memByte s b)

/-! ### Control flow -/

/-- A jump: PC is the target, nothing else of the state after `g` changes. -/
def Sys2Proof.Machine.Jumped (f t : State) (i : Issue) (g : World → World) (target : Word) : Prop :=
  t = modWorld f i.core.toNat (fun w => { g w with pc := target })

/-- The instructions that transfer control to a known target: the register read, the target, and for a call the size that
the return address adds (R371, R375, R376). -/
def Sys2Proof.Machine.jumpRow (w : World) : Instr → Option (Issue × Nat × List (BitVec 5) × Word × Bool)
  | .br i k => some (i, 4, [], w.pc + (k.signExtend 32 <<< 2), false)
  | .call i k => some (i, 4, [], w.pc + (k.signExtend 32 <<< 2), true)
  | .jr i ra => some (i, 4, [ra], readW w ra, false)
  | .callr i ra => some (i, 4, [ra], readW w ra, true)
  | .bra i a => some (i, 8, [], a, false)
  | .calla i a => some (i, 8, [], a, true)
  | _ => none

/-- BR, CALL, JR, CALLR, RET, BRA, CALLA (R375, R376, R377): the target, and what a call pushes and a return pops; a misaligned
target and a full or empty return stack take their exceptions; an entry that a call writes holds no seal mismatch, and one that
holds one is not popped (R361, R427). -/
def Sys2Proof.Claims.ControlTransfers : Prop :=
  (∀ c s f i size reads target, jumpRow (curWorld f i.core.toNat) c = some (i, size, reads, target, false) →
    Working s i size reads f → target &&& 3 = 0 → Leads c s (fun t => Jumped f t i (fun w => w) target)) ∧
  (∀ c s f i size reads target, jumpRow (curWorld f i.core.toNat) c = some (i, size, reads, target, true) →
    Working s i size reads f → target &&& 3 = 0 →
    ((curWorld f i.core.toNat).rstack.length < 24 ∨ (curWorld f i.core.toNat).rstrap = false) →
    Leads c s (fun t => Jumped f t i (fun w => pushStack (w.pc + BitVec.ofNat 32 size) w) target)) ∧
  (∀ v w, (pushStack v w).rstack = (v :: w.rstack).take 24 ∧ badTop (pushStack v w) = false ∧
    (w.rstack.length < 24 → ∀ k, k < w.rstack.length → (pushStack v w).badStack.getLsbD k = w.badStack.getLsbD k) ∧
    pushStack v w = { w with rstack := (pushStack v w).rstack, badStack := (pushStack v w).badStack }) ∧
  (∀ c s f i size reads target, jumpRow (curWorld f i.core.toNat) c = some (i, size, reads, target, true) →
    Working s i size reads f → target &&& 3 = 0 →
    24 ≤ (curWorld f i.core.toNat).rstack.length → (curWorld f i.core.toNat).rstrap = true →
    Leads c s (fun t => t = after (faultAt f i.core.toNat (Trap.plain 0x08)))) ∧
  (∀ s f i ra, Working s i 4 [ra] f → readW (curWorld f i.core.toNat) ra &&& 3 ≠ 0 →
    Leads (.jr i ra) s (fun t => t = after (faultAt f i.core.toNat (Trap.at 0x03 (readW (curWorld f i.core.toNat) ra))))) ∧
  (∀ s g i, Executed s i 4 g → badTop (curWorld g i.core.toNat) = true → Leads (.ret i) s (fun t =>
    t = after (registerSealFault g i.core.toNat))) ∧
  (∀ s f i a l, Working s i 4 [] f → badTop (curWorld f i.core.toNat) = false →
    (curWorld f i.core.toNat).rstack = a :: l → a &&& 3 = 0 →
    Leads (.ret i) s (fun t => Jumped f t i (fun w => { w with rstack := l }) a)) ∧
  (∀ s f i, Working s i 4 [] f → (curWorld f i.core.toNat).rstack = [] →
    Leads (.ret i) s (fun t => t = after (faultAt f i.core.toNat (Trap.plain 0x09))))

/-- LOOP, LBREAK (R378, R380), the loop end (R379): a level starts, is skipped with COUNT 0, ends, or repeats. -/
def Sys2Proof.Claims.HardwareLoops : Prop :=
  (∀ s f i wc (len : BitVec 8), Working s i 4 [wc] f → (curWorld f i.core.toNat).badLoop = 0 →
    (readW (curWorld f i.core.toNat) wc).toNat % 65536 = 0 →
    Leads (.loop i wc len) s (fun t => t = modWorld f i.core.toNat (fun w =>
      { w with pc := w.pc + BitVec.ofNat 32 (8 + 4 * len.toNat) }))) ∧
  (∀ s f i wc (len : BitVec 8), Working s i 4 [wc] f → (curWorld f i.core.toNat).badLoop = 0 →
    (readW (curWorld f i.core.toNat) wc).toNat % 65536 ≠ 0 → act0 (curWorld f i.core.toNat) = false →
    Leads (.loop i wc len) s (fun t => t = modWorld f i.core.toNat (fun w =>
      { w with pc := w.pc + 4, lw0 := (w.pc + 4) ||| 1,
               lw1 := withBits w.lw1 0 16 ((readW w wc).toNat % 65536), lw2 := withBits w.lw2 0 8 len.toNat }))) ∧
  (∀ s f i wc (len : BitVec 8), Working s i 4 [wc] f → (curWorld f i.core.toNat).badLoop = 0 →
    (readW (curWorld f i.core.toNat) wc).toNat % 65536 ≠ 0 → act0 (curWorld f i.core.toNat) = true →
    act1 (curWorld f i.core.toNat) = true → Leads (.loop i wc len) s (fun t =>
      t = after (faultAt f i.core.toNat (Trap.plain 0x07)))) ∧
  (∀ s f i wc (len : BitVec 8), Working s i 4 [wc] f → (curWorld f i.core.toNat).badLoop = 0 →
    (readW (curWorld f i.core.toNat) wc).toNat % 65536 ≠ 0 → act0 (curWorld f i.core.toNat) = true →
    act1 (curWorld f i.core.toNat) = false → loopInside (curWorld f i.core.toNat) len.toNat = true →
    Leads (.loop i wc len) s (fun t => t = modWorld f i.core.toNat (fun w => advancePc 4 { w with
      lw0 := w.lw0 ||| 2, lw1 := withBits w.lw1 16 16 ((readW w wc).toNat % 65536),
      lw2 := withBits (withBits w.lw2 8 8 len.toNat) 16 8 ((w.pc + 4 - (w.lw0 &&& 0xFFFFFFFC)).toNat / 4) }))) ∧
  (∀ s f i, Working s i 4 [] f → (curWorld f i.core.toNat).badLoop = 0 → Leads (.lbreak i) s (fun t =>
    t = modWorld f i.core.toNat (fun w => advancePc 4 (if act1 w then { w with lw0 := w.lw0 &&& ~~~2#32 }
      else if act0 w then { w with lw0 := w.lw0 &&& ~~~1#32 } else w)))) ∧
  (∀ w size, act0 w = false → advancePc size w = { w with pc := w.pc + BitVec.ofNat 32 size }) ∧
  (∀ w size, act0 w = true → containsWord w.pc size (loopEnd0 w) = false →
    (act1 w = true → containsWord w.pc size (loopEnd1 w) = false) →
    advancePc size w = { w with pc := w.pc + BitVec.ofNat 32 size }) ∧
  (∀ w size, act0 w = true → act1 w = false → containsWord w.pc size (loopEnd0 w) = true → 2 ≤ bitsOf w.lw1 0 16 →
    advancePc size w = { w with pc := w.lw0 &&& 0xFFFFFFFC, lw1 := withBits w.lw1 0 16 (bitsOf w.lw1 0 16 - 1) }) ∧
  (∀ w size, act0 w = true → act1 w = false → containsWord w.pc size (loopEnd0 w) = true → bitsOf w.lw1 0 16 = 1 →
    advancePc size w = { w with pc := w.pc + BitVec.ofNat 32 size, lw1 := withBits w.lw1 0 16 0,
                                lw0 := w.lw0 &&& ~~~1#32 }) ∧
  (∀ w size, act1 w = true → containsWord w.pc size (loopEnd1 w) = true → 2 ≤ bitsOf w.lw1 16 16 →
    advancePc size w = { w with pc := loopStart1 w, lw1 := withBits w.lw1 16 16 (bitsOf w.lw1 16 16 - 1) })

/-- The memory forms of the cores. Model choices in it: log entries 77, 150. -/
def Obligations.MemoryForms : Prop := Sys2Proof.Claims.LoadsAndStores ∧ Sys2Proof.Claims.LongInstructions

/-- Control transfers and hardware loops of the cores. Model choices in it: log entries 50, 71, 73, 150. -/
def Obligations.ControlForms : Prop := Sys2Proof.Claims.ControlTransfers ∧ Sys2Proof.Claims.HardwareLoops

/-! ### Exceptions, waits and special registers -/

/-- Where word `k` of the frame of an exception into a world stands, as the core reaches it (R39, R398). -/
def Sys2Proof.Machine.frameAddr (s : State) (n : Nat) (sig : Bool) (k : Nat) : Nat :=
  translate n ((worldOf (coreAt s n) sig).ssp - 32 + BitVec.ofNat 32 (4 * k)).toNat

/-- The frame of an exception into a world can be written: what it takes from the register file is readable, and the eight words
below the world's SSP are plain memory that its supervisor may write (R361, R398). -/
def Sys2Proof.Machine.FrameFits (s : State) (n : Nat) (sig : Bool) : Prop :=
  Quiet s ∧ frameBad (curWorld s n) = false ∧
    ∀ k, k < 8 → PlainWrite s (BitVec.ofNat 6 (coreId n sig true)) (frameAddr s n sig k) 4

/-- Word `k` of the frame that an exception left (R399). -/
def Sys2Proof.Machine.frameWord (t : State) (n k : Nat) : Word :=
  BitVec.ofNat 32 (ofLe (memBytes t (translate n ((curWorld t n).ssp + BitVec.ofNat 32 (4 * k)).toNat) 4))

/-- An exception was taken from state `f` into world `sig` with the saved PC `pc` (R397, R398, R399): the eight words of the
frame, the entered world, everything else as before. -/
def Sys2Proof.Machine.Taken (f t : State) (n : Nat) (sig : Bool) (tr : Trap) (pc : Word) : Prop :=
  let o := curWorld f n
  frameWord t n 0 = pc ∧ frameWord t n 1 = statusWord n (curSig f n) { o with shadow := false } ∧
  frameWord t n 2 = causeWord tr (curSig f n) o.level ∧ frameWord t n 3 = tr.fault ∧
  frameWord t n 4 = ((o.p ||| 1).setWidth 32 ||| place 8 5 o.rstack.length) ∧
  frameWord t n 5 = o.lw0 ∧ frameWord t n 6 = o.lw1 ∧ frameWord t n 7 = o.lw2 ∧
  curSig t n = sig ∧
  curWorld t n = { worldOf (coreAt f n) sig with
    level := true, ie := false, shadow := false, lw0 := 0, lw1 := 0, lw2 := 0, badLoop := 0,
    ssp := (worldOf (coreAt f n) sig).ssp - 32,
    pc := (worldOf (coreAt f n) sig).vbase + BitVec.ofNat 32 (64 * tr.code) } ∧
  (∀ other, other ≠ sig → worldOf (coreAt t n) other = { worldOf (coreAt f n) other with
    shadow := if other = curSig f n then false else (worldOf (coreAt f n) other).shadow }) ∧
  (coreAt t n).wait = .none ∧ (coreAt t n).wake = (coreAt f n).wake ∧ (∀ k, k ≠ n → coreAt t k = coreAt f k) ∧
  (∀ b, (∀ k, k < 8 → b < frameAddr f n sig k ∨ frameAddr f n sig k + 4 ≤ b) → memByte t b = memByte f b) ∧
  t = { f with cores := t.cores, mem := t.mem, badCells := t.badCells }

/-- SYSCALL, WCALL, BKPT (R394, R396 to R400, R434), ILLEGAL_INSTRUCTION (R365), INTERRUPT_TAKEN (R405); a fault of an
instruction saves its own PC (R400), and one during the frame writes stops the core (R401). -/
def Sys2Proof.Claims.ExceptionEntry : Prop :=
  (∀ s f i code, Working s i 4 [] f →
    let n := i.core.toNat
    let g := modWorld f n (advancePc 4)
    FrameFits g n (curSig f n) → Leads (.syscall i code) s (fun t =>
      Taken g t n (curSig f n) { code := 0x0A, arg := code.toNat, detail := 0, fault := 0 } (curWorld g n).pc)) ∧
  (∀ s f i code, Working s i 4 [] f →
    let n := i.core.toNat
    let g := modWorld f n (advancePc 4)
    curSig f n = false → (curWorld f n).level = true → FrameFits g n true → Leads (.wcall i code) s (fun t =>
      Taken g t n true { code := 0x0B, arg := code.toNat, detail := 0, fault := 0 } (curWorld g n).pc)) ∧
  (∀ s f i, Working s i 4 [] f →
    let n := i.core.toNat
    let g := modWorld f n (advancePc 4)
    armed f n = false → FrameFits g n (curSig f n) → Leads (.bkpt i) s (fun t =>
      Taken g t n (curSig f n) { code := 0x0C, arg := 0, detail := 0, fault := 0 } (curWorld g n).pc)) ∧
  (∀ s f i, Working s i 4 [] f → armed f i.core.toNat = true → Leads (.bkpt i) s (fun t =>
    haltedWorld t i.core.toNat (curSig f i.core.toNat) = true ∧
    curWorld t i.core.toNat = advancePc 4 (curWorld f i.core.toNat) ∧ (∀ k, k ≠ i.core.toNat → coreAt t k = coreAt f k) ∧
    t = { f with cores := t.cores })) ∧
  (∀ s f (c : BitVec 2), Quiet s → canIssue s c.toNat = true → fetchInstr s c.toNat 4 = { state := f, trap := none } →
    FrameFits f c.toNat (curSig f c.toNat) → Leads (.illegalInstruction c) s (fun t =>
      Taken f t c.toNat (curSig f c.toNat) { code := 0x01, arg := 0, detail := 0, fault := 0 } (curWorld f c.toNat).pc)) ∧
  (∀ s (c : BitVec 2) sig k, running s c.toNat = true → heldOff s c.toNat = false → (coreAt s c.toNat).wait = .none →
    interruptFor s c.toNat = some (sig, k) → FrameFits s c.toNat sig →
    Leads (.interruptTaken c) s (fun t =>
      Taken s t c.toNat sig { code := 0x0D, arg := k, detail := 0, fault := 0 } (curWorld s c.toNat).pc)) ∧
  (∀ s (c : BitVec 2) rd sig k, running s c.toNat = true → heldOff s c.toNat = false → (coreAt s c.toNat).wait = .waitf rd →
    interruptFor s c.toNat = some (sig, k) → FrameFits (leaveWait s c.toNat) c.toNat sig → Leads (.interruptTaken c) s (fun t =>
      Taken (leaveWait s c.toNat) t c.toNat sig { code := 0x0D, arg := k, detail := 0, fault := 0 } ((curWorld s c.toNat).pc + 4) ∧
      (curWorld (leaveWait s c.toNat) c.toNat) =
        { writeW rd ((coreAt s c.toNat).wake.setWidth 32) (curWorld s c.toNat) with
            pc := (curWorld s c.toNat).pc + 4, shadow := false })) ∧
  (∀ s (c : BitVec 2), Quiet s → heldOff s c.toNat = true → Leads (.interruptTaken c) s (fun t => t = s)) ∧
  (∀ s n tr, n < 4 → FrameFits s n (takenIn tr.code (curSig s n)) →
    Taken s (faultAt s n tr) n (takenIn tr.code (curSig s n)) tr (curWorld s n).pc) ∧
  (∀ s n tr, n < 4 → (frameBad (curWorld s n) = true ∨
      ∃ e ∈ frameStores n (worldOf (coreAt s n) (takenIn tr.code (curSig s n))).ssp
          (frameWords n tr (curSig s n) (curWorld s n) (curWorld s n).pc),
        (fabricWrite s (BitVec.ofNat 6 (coreId n (takenIn tr.code (curSig s n)) true)) e.1 4 e.2).detail ≠ 0) →
    (coreAt (faultAt s n tr) n).stopped = true ∧ isPending (faultAt s n tr) (8 + n) = true)

/-- RETX at supervisor level (R402, R403): what it restores from a frame in plain memory, and what it refuses. -/
def Sys2Proof.Claims.ExceptionReturn : Prop :=
  (∀ s f i l, Working s i 4 [] f → (curWorld f i.core.toNat).level = true →
    let n := i.core.toNat
    readWords f (masterOf f n) n 8 (curWorld f n).ssp.toNat [] = (f, l, none) →
    (bit (l.getD 1 0) 1 = true → curSig f n = true) → l.getD 0 0 &&& 3 = 0 → Leads (.retx i) s (fun t =>
      let sig := bit (l.getD 1 0) 1
      let o := if sig = curSig f n then { curWorld f n with ssp := (curWorld f n).ssp + 32 } else worldOf (coreAt f n) sig
      curSig t n = sig ∧ (curWorld t n).pc = l.getD 0 0 ∧ (curWorld t n).level = bit (l.getD 1 0) 0 ∧
      (curWorld t n).ie = bit (l.getD 1 0) 2 ∧ (curWorld t n).rstrap = bit (l.getD 1 0) 3 ∧ (curWorld t n).shadow = true ∧
      (curWorld t n).p = (l.getD 4 0).setWidth 8 ||| 1 ∧ (curWorld t n).lw0 = l.getD 5 0 ∧ (curWorld t n).lw1 = l.getD 6 0 ∧
      (curWorld t n).lw2 = l.getD 7 0 &&& 0x00FFFFFF ∧ (curWorld t n).w = o.w ∧ (curWorld t n).rstack = o.rstack ∧
      (curWorld t n).vbase = o.vbase ∧ (curWorld t n).ssp = o.ssp ∧
      (∀ k, k ≠ n → coreAt t k = coreAt f k) ∧ t = { f with cores := t.cores })) ∧
  (∀ s f i l, Working s i 4 [] f → (curWorld f i.core.toNat).level = true →
    readWords f (masterOf f i.core.toNat) i.core.toNat 8 (curWorld f i.core.toNat).ssp.toNat [] = (f, l, none) →
    bit (l.getD 1 0) 1 = true → curSig f i.core.toNat = false →
    Leads (.retx i) s (fun t => t = after (faultAt f i.core.toNat (Trap.plain 0x02)))) ∧
  (∀ s f i l, Working s i 4 [] f → (curWorld f i.core.toNat).level = true →
    readWords f (masterOf f i.core.toNat) i.core.toNat 8 (curWorld f i.core.toNat).ssp.toNat [] = (f, l, none) →
    (bit (l.getD 1 0) 1 = true → curSig f i.core.toNat = true) → l.getD 0 0 &&& 3 ≠ 0 →
    Leads (.retx i) s (fun t => t = after (faultAt f i.core.toNat (Trap.at 0x03 (l.getD 0 0)))))

/-- SIGF, WAITF, WAITF_WAKE (R382), WAITT, WAITT_COMPLETE (R383), BAR (R374). Model choices in it: log entry 77. -/
def Obligations.WaitsAndSignals : Prop :=
  (∀ s f i (mask : BitVec 4), Working s i 4 [] f → Leads (.sigf i mask) s (fun t =>
    (∀ k, k < 4 → (coreAt t k).wake =
      if mask.getLsbD k then (coreAt f k).wake ||| (1#4 <<< i.core.toNat) else (coreAt f k).wake) ∧
    curWorld t i.core.toNat = advancePc 4 (curWorld f i.core.toNat) ∧
    (∀ k, k < 4 → coreAt t k = { coreAt f k with wake := (coreAt t k).wake, plat := (coreAt t k).plat, sig := (coreAt t k).sig }) ∧
    (∀ k, k ≠ i.core.toNat → (coreAt t k).plat = (coreAt f k).plat ∧ (coreAt t k).sig = (coreAt f k).sig) ∧
    t = { f with cores := t.cores })) ∧
  (∀ s f i rd, Working s i 4 [] f → (coreAt f i.core.toNat).wake ≠ 0 → Leads (.waitf i rd) s (fun t =>
    curWorld t i.core.toNat = advancePc 4 (writeW rd ((coreAt f i.core.toNat).wake.setWidth 32) (curWorld f i.core.toNat)) ∧
    (coreAt t i.core.toNat).wake = 0 ∧ (∀ k, k ≠ i.core.toNat → coreAt t k = coreAt f k) ∧ t = { f with cores := t.cores })) ∧
  (∀ s f i rd, Working s i 4 [] f → (coreAt f i.core.toNat).wake = 0 → Leads (.waitf i rd) s (fun t =>
    t = modWorld (setCore f i.core.toNat { coreAt f i.core.toNat with wait := .waitf rd }) i.core.toNat
      (fun w => { w with shadow := (curWorld s i.core.toNat).shadow }))) ∧
  (∀ s (c : BitVec 2) rd, Quiet s → running s c.toNat = true → (coreAt s c.toNat).wait = .waitf rd →
    (coreAt s c.toNat).wake ≠ 0 → Leads (.waitfWake c) s (fun t =>
      curWorld t c.toNat =
        { advancePc 4 (writeW rd ((coreAt s c.toNat).wake.setWidth 32) (curWorld s c.toNat)) with shadow := false } ∧
      (coreAt t c.toNat).wake = 0 ∧ (coreAt t c.toNat).wait = .none ∧ (∀ k, k ≠ c.toNat → coreAt t k = coreAt s k) ∧
      t = { s with cores := t.cores })) ∧
  (∀ s f i pd ra, Working s i 4 [ra, ra + 1] f → ra.toNat % 2 = 0 → (pd = 2 ∨ pd = 4 ∨ pd = 6) →
    let n := i.core.toNat
    let d := pair64 (readW (curWorld f n) (ra + 1)) (readW (curWorld f n) ra)
    (d.toNat ≤ f.ttc.toNat ∨ (coreAt f n).wake ≠ 0) → Leads (.waitt i pd ra) s (fun t =>
      t = modWorld f n (fun w => advancePc 4 (writeP (pd + 1) (decide ((coreAt f n).wake ≠ 0))
        (writeP pd (decide (d.toNat ≤ f.ttc.toNat)) w))))) ∧
  (∀ s f i pd ra, Working s i 4 [ra, ra + 1] f → ra.toNat % 2 = 0 → (pd = 2 ∨ pd = 4 ∨ pd = 6) →
    let n := i.core.toNat
    let d := pair64 (readW (curWorld f n) (ra + 1)) (readW (curWorld f n) ra)
    f.ttc.toNat < d.toNat → (coreAt f n).wake = 0 → Leads (.waitt i pd ra) s (fun t =>
      t = modWorld (setCore f n { coreAt f n with wait := .waitt pd d }) n
        (fun w => { w with shadow := (curWorld s n).shadow }))) ∧
  (∀ s (c : BitVec 2) pd d, Quiet s → running s c.toNat = true → (coreAt s c.toNat).wait = .waitt pd d →
    (BitVec.toNat d ≤ s.ttc.toNat ∨ (coreAt s c.toNat).wake ≠ 0) → Leads (.waittComplete c) s (fun t =>
      curWorld t c.toNat = { advancePc 4 (writeP (pd + 1) (decide ((coreAt s c.toNat).wake ≠ 0))
        (writeP pd (decide (d.toNat ≤ s.ttc.toNat)) (curWorld s c.toNat))) with shadow := false } ∧
      (coreAt t c.toNat).wait = .none ∧ (coreAt t c.toNat).wake = (coreAt s c.toNat).wake ∧
      (∀ k, k ≠ c.toNat → coreAt t k = coreAt s k) ∧ t = { s with cores := t.cores })) ∧
  (∀ s f i, Working s i 4 [] f → Leads (.bar i) s (fun t => t = modWorld f i.core.toNat (advancePc 4)))

/-- What an MFS of a special register without side effects reads (R381, R392, R393, R406). -/
def Sys2Proof.Machine.specRead (f : State) (n : Nat) : List (BitVec 5 × Word) :=
  let w := curWorld f n
  [(0x00, statusWord n (curSig f n) w), (0x01, w.vbase), (0x02, w.ssp), (0x03, intSrc f n),
   (0x04, BitVec.ofNat 32 w.rstack.length), (0x06, (coreAt f n).xsel.setWidth 32),
   (0x08, place 0 2 n ||| place 2 6 (masterOf f n).toNat), (0x10, w.lw0), (0x11, w.lw1), (0x12, w.lw2)]

/-- What an MTS leaves of the world (R381, R392, R393, R395): STATUS writes IE and RSTRAP and sets SHADOW; a read-only number
is ignored. -/
def Sys2Proof.Machine.specWrite (v : Word) : List (BitVec 5 × (World → World)) :=
  [(0x00, fun w => advancePc 4 { w with ie := bit v 2, rstrap := bit v 3, shadow := true }),
   (0x01, fun w => advancePc 4 { w with vbase := v &&& 0xFFFFF800 }),
   (0x02, fun w => advancePc 4 { w with ssp := v &&& 0xFFFFFFFC }),
   (0x03, fun w => advancePc 4 w), (0x04, fun w => advancePc 4 w), (0x08, fun w => advancePc 4 w),
   (0x05, fun w => advancePc 4 (pushStack v w)),
   (0x11, fun w => { advancePc 4 w with lw1 := v, badLoop := w.badLoop &&& 5 }),
   (0x12, fun w => { advancePc 4 w with lw2 := v &&& 0x00FFFFFF, badLoop := w.badLoop &&& 3 })]

/-- An executing special-register instruction whose decode-time checks pass. -/
def Sys2Proof.Machine.SpecWorking (s f : State) (i : Issue) (lvl : Option Nat) (reads : List (BitVec 5)) : Prop :=
  Working s i 4 reads f ∧ specLegal lvl f i.core.toNat = none

/-- MFS, MTS (R381, R392, R393, R395), MFS and MTS of RSTOP and XREG (R404). Model choices in it: log entry 71. -/
def Obligations.SpecialRegisters : Prop :=
  (∀ s f i rd k v, SpecWorking s f i (mfsLevel (BitVec.toNat k)) [] → (k, v) ∈ specRead f i.core.toNat →
    (∀ j, j < 3 → k.toNat = 16 + j → (curWorld f i.core.toNat).badLoop.getLsbD j = false) →
    Leads (.mfs i rd k) s (fun t => t = modWorld f i.core.toNat (fun w => advancePc 4 (writeW rd v w)))) ∧
  (∀ s f i ra k g, SpecWorking s f i (mtsLevel (BitVec.toNat k)) [ra] →
    (k, g) ∈ specWrite (readW (curWorld f i.core.toNat) ra) →
    Leads (.mts i k ra) s (fun t => t = modWorld f i.core.toNat g)) ∧
  (∀ s f i ra, SpecWorking s f i (some 2) [ra] → Leads (.mts i 0x06 ra) s (fun t =>
    (coreAt t i.core.toNat).xsel = (readW (curWorld f i.core.toNat) ra).setWidth 6 ∧
    curWorld t i.core.toNat = advancePc 4 (curWorld f i.core.toNat) ∧ t = { f with cores := t.cores })) ∧
  (∀ s f i rd c, c ∈ [Instr.rstopPop i rd, .mfs i rd 0x05] → SpecWorking s f i (some 1) [] →
    badTop (curWorld f i.core.toNat) = false → Leads c s (fun t => t = modWorld f i.core.toNat (fun w => advancePc 4
      (writeW rd (w.rstack.headD 0) { w with rstack := w.rstack.tail })))) ∧
  (∀ s f i ra, SpecWorking s f i (some 1) [ra] → Leads (.rstopPush i ra) s (fun t =>
    t = modWorld f i.core.toNat (fun w => advancePc 4 (pushStack (readW w ra) w)))) ∧
  (∀ s f i rd c, c ∈ [Instr.xregRead i rd, .mfs i rd 0x07] → SpecWorking s f i (some 2) [] →
    xregBad (coreAt f i.core.toNat) = false → Leads c s (fun t =>
      let k := coreAt f i.core.toNat
      t = modWorld f i.core.toNat (fun w => advancePc 4 (writeW rd
        (if k.xsel.getLsbD 5 then BitVec.ofNat 32 (readP k.plat (k.xsel.setWidth 3)).toNat
         else readW k.plat (k.xsel.setWidth 5)) w)))) ∧
  (∀ s f i ra c, c ∈ [Instr.xregWrite i ra, .mts i 0x07 ra] → SpecWorking s f i (some 2) [ra] → Leads c s (fun t =>
    let k := coreAt f i.core.toNat
    let v := readW k.sig ra
    coreAt t i.core.toNat = { k with
      sig := advancePc 4 k.sig,
      plat := if k.xsel.getLsbD 5 then writeP (k.xsel.setWidth 3) (bit v 0) k.plat else writeW (k.xsel.setWidth 5) v k.plat } ∧
    (∀ j, j ≠ i.core.toNat → coreAt t j = coreAt f j) ∧ t = { f with cores := t.cores }))

/-- Exceptions and interrupts are taken and returned from. Model choices in it: log entries 49, 72, 124, 150. -/
def Obligations.ExceptionEntryAndReturn : Prop := Sys2Proof.Claims.ExceptionEntry ∧ Sys2Proof.Claims.ExceptionReturn

/-! ### The Interlocking and debug sessions -/

/-- ILK_COMMIT (R420, R421), ILK_LOAD (R435), SHADOW_COMPARE (R424): a route changes in the table and its shadows together; LOAD
shows a route in staging. -/
def Sys2Proof.Claims.Routes : Prop :=
  (∀ s m, Quiet s → MayWrite s m Reg.ILK_CMD → (routeAt s (ilkSel s)).lock = false → (stagedRoute s).debug ≠ 3 →
    (stagedRoute s).base ≤ (stagedRoute s).limit → Leads (.ilkCommit m) s (fun t =>
      routeAt t (ilkSel s) = stagedRoute s ∧
      (∀ k, k < 4 → mget? (t.shadows[k]?.getD []) (ilkSel s) = some (stagedRoute s)) ∧
      (∀ n, n ≠ ilkSel s → mget? t.routes n = mget? s.routes n ∧
        ∀ k, k < 4 → mget? (t.shadows[k]?.getD []) n = mget? (s.shadows[k]?.getD []) n) ∧
      (∀ n, n ∈ t.badRoutes ↔ n ∈ s.badRoutes ∧ n ≠ ilkSel s) ∧
      t = { s with routes := t.routes, shadows := t.shadows, badRoutes := t.badRoutes })) ∧
  (∀ s m, Quiet s → MayWrite s m Reg.ILK_CMD → ilkSel s ∉ s.badRoutes → (routeAt s (ilkSel s)).base < 2 ^ 20 →
    (routeAt s (ilkSel s)).limit < 2 ^ 20 → Leads (.ilkLoad m) s (fun t =>
      stagedRoute t = routeAt s (ilkSel s) ∧
      OnlyRegs s t [Reg.ILK_ATTR, Reg.ILK_BASE, Reg.ILK_LIMIT, Reg.ILK_RMASK, Reg.ILK_RMASK + 4, Reg.ILK_WMASK,
        Reg.ILK_WMASK + 4, Reg.ILK_XMASK, Reg.ILK_XMASK + 4] [])) ∧
  (∀ s, Quiet s → shadowDiffers s = false → Leads .shadowCompare s (fun t => t = s)) ∧
  (∀ s, Quiet s → mainPower s = true → shadowDiffers s = true → Leads .shadowCompare s (fun t =>
    t.shadowBad = true ∧ bitR t Reg.ILK_STATUS 3 = true ∧ bitR t Reg.ILK_ERR 2 = true ∧ isPending t 203 = true))

/-- A world of a core as it resumes, with the writes of its halt page that have waited (R434, R437). -/
def Sys2Proof.Machine.Resumed (s : State) (n : Nat) (sig : Bool) (goes : Bool) : World :=
  if (if sig then (coreAt s n).haltS else (coreAt s n).haltP) && goes then
    resumeWorld s.dbg.haltWrites n sig (worldOf (coreAt s n) sig)
  else worldOf (coreAt s n) sig

/-- A closed debug session (R433, R434, R437): no level, nothing armed, every core resumes. -/
def Sys2Proof.Machine.DebugClosed (s t : State) : Prop :=
  sessionLevel t = 0 ∧ getR t Reg.DBG_SESSION = 0 ∧ getR64 t Reg.DBG_NOT_AFTER = 0 ∧
  (∀ n, coreAt t n = { coreAt s n with haltP := false, haltS := false, plat := Resumed s n false true,
                                       sig := Resumed s n true true }) ∧
  OnlyRegs { s with cores := t.cores, dbg := { s.dbg with cores := 0, haltWrites := [] } } t
    [Reg.ILK_STATUS, Reg.DBG_SESSION, Reg.DBG_NOT_AFTER, Reg.DBG_NOT_AFTER + 4] []

/-- DBG_NONCE_READ (R428, R437), DBG_CHECK (R433, R436), DBG_ARM (R434, R436), DBG_SESSION_CLOSE, DEBUG_SESSION_EXPIRY (R433). -/
def Sys2Proof.Claims.DebugSessions : Prop :=
  (∀ s, Quiet s → pathServes s = true → entReady s = true → Leads (.dbgNonceRead 32) s (fun t =>
    t.dbg = { s.dbg with nonce := drawBytes s 32, fresh := true } ∧
    t.ports.readData = BitVec.ofNat 64 (num (drawBytes s 32) 0 4) ∧ t.ent.pool = s.ent.pool.drop 32 ∧ t.regs = s.regs)) ∧
  (∀ s, Quiet s → pathServes s = true → sessionLevel s ≠ 0 → Leads .dbgCheck s (fun t =>
    ResultIs t Reg.DBG_RESULT 6 ∧ t.dbg = { s.dbg with fresh := false } ∧
    OnlyRegs { s with dbg := t.dbg } t [Reg.DBG_RESULT] [201])) ∧
  (∀ s, Quiet s → pathServes s = true → sessionLevel s = 0 → Leads .dbgCheck s (fun t =>
    ResultIs t Reg.DBG_RESULT (certCheck s) ∧
    (certCheck s ≠ 0 → sessionLevel t = 0 ∧ t.dbg = { s.dbg with fresh := false } ∧
      OnlyRegs { s with dbg := t.dbg } t [Reg.DBG_RESULT, Reg.LSU_VERIFIES, Reg.LSU_VERIFIES + 4] [201]) ∧
    (certCheck s = 0 → sessionLevel t = certLevel s ∧
      getR64 t Reg.DBG_NOT_AFTER = num64 (debugCertBody s) 56 ∧
      t.dbg = { s.dbg with fresh := false, cores := BitVec.ofNat 4 (byteAt (debugCertBody s) 2) } ∧
      OnlyRegs { s with dbg := t.dbg } t [Reg.DBG_RESULT, Reg.LSU_VERIFIES, Reg.LSU_VERIFIES + 4, Reg.ILK_STATUS,
        Reg.DBG_NOT_AFTER, Reg.DBG_NOT_AFTER + 4] [200]))) ∧
  (∀ s arm, Quiet s → pathServes s = true → Leads (.dbgArm 32 arm) s (fun t =>
    (∀ i, i < 8 → bitR t Reg.DBG_SESSION (2 + i) = (BitVec.getLsbD arm i && armAllowed s i)) ∧
    (∀ n, n < 4 → (coreAt t n).haltP = ((coreAt s n).haltP && bitR t Reg.DBG_SESSION (2 + 2 * n)) ∧
      (coreAt t n).haltS = ((coreAt s n).haltS && bitR t Reg.DBG_SESSION (3 + 2 * n)) ∧
      (coreAt t n).plat = Resumed s n false (!bitR t Reg.DBG_SESSION (2 + 2 * n)) ∧
      (coreAt t n).sig = Resumed s n true (!bitR t Reg.DBG_SESSION (3 + 2 * n))) ∧
    (∀ e, e.1 < 4 → (e ∈ t.dbg.haltWrites ↔ e ∈ s.dbg.haltWrites ∧ bitR t Reg.DBG_SESSION (2 + 2 * e.1 + e.2.1.toNat) = true)) ∧
    OnlyRegs { s with cores := t.cores, dbg := { s.dbg with haltWrites := t.dbg.haltWrites } } t [Reg.DBG_SESSION] [])) ∧
  (∀ s m arm, Quiet s → MayWrite s m Reg.DBG_SESSION → m ≠ 32 → Leads (.dbgArm m arm) s (fun t => t = s)) ∧
  (∀ s, Quiet s → pathServes s = true → sessionLevel s ≠ 0 → Leads (.dbgSessionClose 32) s (DebugClosed s)) ∧
  (∀ s, Quiet s → sessionLevel s ≠ 0 → (getR64 s Reg.DBG_NOT_AFTER).toNat ≤ s.ttc.toNat →
    Leads .debugSessionExpiry s (DebugClosed s))

/-- A commit to a locked route is refused, and so is one with a reserved DEBUG value or LIMIT below BASE; a commit can
set LOCK; a route that is locked stays as it is in every step, until a device reset or the loss of main power gives the table
its reset values (R421). -/
def Obligations.LockedRoutes : Prop :=
  (∀ s m, Quiet s → MayWrite s m Reg.ILK_CMD → (routeAt s (ilkSel s)).lock = true → Leads (.ilkCommit m) s (fun t =>
    getR t Reg.ILK_ERR = getR s Reg.ILK_ERR ||| 1 ∧ OnlyRegs s t [Reg.ILK_ERR] [199])) ∧
  (∀ s m, Quiet s → MayWrite s m Reg.ILK_CMD → (routeAt s (ilkSel s)).lock = false →
    ((stagedRoute s).debug = 3 ∨ (stagedRoute s).limit < (stagedRoute s).base) → Leads (.ilkCommit m) s (fun t =>
      getR t Reg.ILK_ERR = getR s Reg.ILK_ERR ||| 2 ∧ OnlyRegs s t [Reg.ILK_ERR] [])) ∧
  (∀ s m, Quiet s → MayWrite s m Reg.ILK_CMD → (routeAt s (ilkSel s)).lock = false → (stagedRoute s).debug ≠ 3 →
    (stagedRoute s).base ≤ (stagedRoute s).limit → (stagedRoute s).lock = true → Leads (.ilkCommit m) s (fun t =>
      (routeAt t (ilkSel s)).lock = true)) ∧
  (∀ s t n, (routeAt s n).lock = true → step s = .next t →
    routeAt t n = routeAt s n ∨ t.routes = Route.resetTable ∨ mainPower t = false)

/-- Routes, and debug sessions. Model choices in it: log entries 93, 98, 151. -/
def Obligations.InterlockingAndDebug : Prop := Sys2Proof.Claims.Routes ∧ Sys2Proof.Claims.DebugSessions

/-! ### Lineside -/

/-- The evidence that a trip leaves (R449, R451): its flag, one more in its count, its detectors, its last-trip count. -/
def Sys2Proof.Machine.Tripped (s t : State) (n : Nat) (dets : BitVec 2) : Prop :=
  t.vigil.sticky = s.vigil.sticky ||| (1#128 <<< n) ∧ t.vigil.active = s.vigil.active ||| (1#128 <<< n) ∧
  (evidenceOf t n).count = (if (evidenceOf s n).count = 255 then 255 else (evidenceOf s n).count + 1) ∧
  (evidenceOf t n).detectors = (evidenceOf s n).detectors ||| dets ∧ (evidenceOf t n).lastC = s.vigil.count ∧
  (∀ k, k ≠ n → evidenceOf t k = evidenceOf s k) ∧ t.tail.updating = true

/-- A source that a trip can reach: it is not asserted, and none of its detectors is under test (R442, R450, R453). -/
def Sys2Proof.Machine.Trippable (s : State) (n : Nat) (dets : BitVec 2) : Prop :=
  Quiet s ∧ n < 108 ∧ s.vigil.active.getLsbD n = false ∧ s.vigil.testing = none ∧ dets ≠ 0

/-- LINESIDE_TRIP with each class (R442, R444, R447), sources that trip together (R446), DETECTOR_SPLIT (R438),
SOURCE_DEASSERT (R450). Model choices in it: log entries 55, 108, 173. -/
def Obligations.LinesideTrips : Prop :=
  (∀ s (src : BitVec 7) d, Trippable s src.toNat d → mainPower s = true → classOf s src.toNat = 0 →
    Leads (.linesideTrip src d) s (fun t =>
      Tripped s t src.toNat (if duplicated src.toNat then d else 3) ∧ isPending t (64 + src.toNat) = true ∧
      (logFull s = false → Recorded s t 0x30 ([BitVec.ofNat 8 src.toNat, 0,
        BitVec.ofNat 8 (if duplicated src.toNat then d else 3).toNat, 0] ++ zeros 4 ++ le 8 s.vigil.count.toNat ++
        le 8 s.ttc.toNat ++ zeros 8)) ∧
      t.mode = s.mode ∧ t.mem = s.mem ∧ t.vigil.held = s.vigil.held ∧ t.vigil.trunk = s.vigil.trunk)) ∧
  (∀ s (src : BitVec 7) d, Trippable s src.toNat d → mainPower s = true → appliedClass s src.toNat = 2 →
    s.badCells = [] → s.badPrivate = [] → Leads (.linesideTrip src d) s (fun t =>
      t.vigil.held = true ∧ t.vigil.sticky.getLsbD src.toNat = true ∧ isPending t (64 + src.toNat) = true ∧
      t.mode = (if s.mode = .running then .caution else s.mode) ∧ t.vigil.trunk = s.vigil.trunk)) ∧
  (∀ s (src : BitVec 7) d, Trippable s src.toNat d → mainPower s = true → appliedClass s src.toNat = 1 →
    s.power.lastGasp = false → resetFault s = false → Leads (.linesideTrip src d) s (fun t =>
      t.mode = .shed ∧ t.coresRun = false ∧ t.mem = [] ∧ fieldR t Reg.DMN_CAUSE 0 8 = 0x40 ∧
      t.vigil.sticky.getLsbD src.toNat = true ∧ t.vigil.boots = s.vigil.boots + 1)) ∧
  (∀ s (src : BitVec 7) d, Trippable s src.toNat d → mainPower s = true → appliedClass s src.toNat = 3 →
    sealing s = false → s.btr = none → s.lko.inv = none → Leads (.linesideTrip src d) s (fun t =>
      t.mode = .condemned ∧ t.vigil.held = true ∧ t.vigil.trunk = .lost ∧ t.vigil.trunkKey = zeros 32 ∧
      t.vigil.sticky.getLsbD src.toNat = true)) ∧
  (∀ s (src : BitVec 7) d, Trippable s src.toNat d → s.mode = .stabled → watchedOnCell src.toNat = true →
    Leads (.linesideTrip src d) s (fun t =>
      Tripped s t src.toNat (if duplicated src.toNat then d else 3) ∧ 
      mget? t.vigil.cellTrips src.toNat = some (appliedClass s src.toNat) ∧
      (appliedClass s src.toNat = 1 → t.vigil.pendReset = true) ∧ (appliedClass s src.toNat = 2 → t.vigil.pendCaution = true) ∧
      (appliedClass s src.toNat = 3 → t.vigil.held = true ∧ t.vigil.trunk = .lost ∧ t.vigil.trunkKey = zeros 32) ∧
      (appliedClass s src.toNat ≠ 3 → t.vigil.trunk = s.vigil.trunk) ∧ t.mode = .stabled ∧ t.evtPend = s.evtPend)) ∧
  (∀ s (src : BitVec 7), Trippable s 106 3 → mainPower s = true → duplicated src.toNat = true → classOf s 106 = 0 →
    Leads (.detectorSplit src) s (fun t => Tripped s t 106 3 ∧ isPending t 170 = true ∧ t.mode = s.mode)) ∧
  (∀ s a b, Trippable s a 3 → Trippable s b 3 → a ≠ b → mainPower s = true → s.mode = .running → appliedClass s a = 1 →
    appliedClass s b = 2 → s.badCells = [] → s.badPrivate = [] → s.tripsDue = [] →
    let t := applyTrips { s with tripsDue := [a, b] }
    t.mode = .caution ∧ t.vigil.held = true ∧ t.vigil.sticky.getLsbD a = true ∧ t.vigil.sticky.getLsbD b = true) ∧
  (∀ s src, Leads (.sourceDeassert src) s (fun t =>
    (∀ k, t.vigil.active.getLsbD k = (s.vigil.active.getLsbD k && !decide (k = src.toNat))) ∧
    t.vigil.sticky = s.vigil.sticky ∧ t.vigil.evidence = s.vigil.evidence ∧
    t = { s with vigil := { s.vigil with active := t.vigil.active, activeDet := t.vigil.activeDet } }))

/-- STICKY_CLEAR (R450), CLASS_WRITE (R445), LSM_TEST_START, LSM_TEST_DONE (R453). -/
def Sys2Proof.Claims.LinesideControl : Prop :=
  (∀ s m (n : BitVec 2) ones, Quiet s → MayWrite s m (Reg.LSM_STICKY n.toNat) → s.mode = .commissioning →
    s.vigil.sticky &&& flagsOf n.toNat ones ≠ 0 → Leads (.stickyClear m n ones) s (fun t =>
      (∀ k, k < 128 → t.vigil.sticky.getLsbD k = (s.vigil.sticky.getLsbD k &&
        !((flagsOf n.toNat ones).getLsbD k && !s.vigil.active.getLsbD k))) ∧
      t.vigil.clearedC = s.vigil.count ∧ isPending t 174 = true ∧ t.mode = .commissioning ∧ t.vigil.trunk = s.vigil.trunk)) ∧
  (∀ s m (n : BitVec 2) ones, Quiet s → MayWrite s m (Reg.LSM_STICKY n.toNat) → s.mode ≠ .commissioning →
    Leads (.stickyClear m n ones) s (fun t =>
      bitR t Reg.LSM_ERR 1 = true ∧ t.vigil = s.vigil ∧ OnlyRegs s t [Reg.LSM_ERR] [])) ∧
  (∀ s m (n : BitVec 2) hi v j, Quiet s → MayWrite s m (Reg.LSM_CLASS n.toNat + if hi then 4 else 0) →
    (s.mode = .running ∨ s.mode = .commissioning) → sstCount s (10 + n.toNat) < 100000 → j < 16 →
    let src := fun k => 32 * n.toNat + (if hi then 16 else 0) + k
    src j < 108 → classOf s (src j) < bitsOf v (2 * j) 2 →
    (∀ k, k < 16 → k ≠ j → bitsOf v (2 * k) 2 = classOf s (src k)) → Leads (.classWrite m n hi v) s (fun t =>
      classOf t (src j) = bitsOf v (2 * j) 2 ∧ (∀ k, k ≠ src j → classOf t k = classOf s k) ∧ isPending t 175 = true ∧
      t.mode = s.mode ∧ t.vigil = s.vigil)) ∧
  (∀ s m (n : BitVec 2) hi v, Quiet s → MayWrite s m (Reg.LSM_CLASS n.toNat + if hi then 4 else 0) → s.mode ≠ .running →
    s.mode ≠ .commissioning → Leads (.classWrite m n hi v) s (fun t =>
      bitR t Reg.LSM_ERR 1 = true ∧ OnlyRegs s t [Reg.LSM_ERR] [])) ∧
  (∀ s m src det, Quiet s → MayWrite s m Reg.LSM_TEST → testMode s = true → s.vigil.testing = none → BitVec.toNat src ≤ 100 →
    Leads (.lsmTestStart m src det) s (fun t =>
      t.vigil = { s.vigil with testing := some (src, det) } ∧ fieldR t Reg.LSM_TEST 0 7 = src.toNat ∧
      bitR t Reg.LSM_TEST 7 = det ∧ bitR t Reg.LSM_TEST 9 = true ∧ OnlyRegs { s with vigil := t.vigil } t [Reg.LSM_TEST] [])) ∧
  (∀ s, Quiet s → s.vigil.testing ≠ none → Leads (.lsmTestDone true) s (fun t =>
    t.vigil = { s.vigil with testing := none } ∧ fieldR t Reg.LSM_TEST 10 2 = 1 ∧ bitR t Reg.LSM_TEST 9 = false ∧
    OnlyRegs { s with vigil := t.vigil } t [Reg.LSM_TEST] []))

/-- RELEASE_ARM (R455), RELEASE_COMMIT, RELEASE_ABORT, RELEASE_WINDOW_EXPIRY (R456): Caution is released by identity 4 when
every condition holds, and by nothing else here. -/
def Sys2Proof.Claims.ReleaseOfCaution : Prop :=
  (∀ s, Quiet s → MayWrite s 4 Reg.LSM_RELEASE → s.mode = .caution → Leads (.releaseArm 4) s (fun t =>
    releaseState t = 1 ∧ fieldR t Reg.LSM_RELEASE 4 2 = 0 ∧ fieldR t Reg.LSM_RELEASE 6 2 = 0 ∧ t.vigil.armTtc = s.ttc ∧
    OnlyRegs { s with vigil := { s.vigil with armTtc := s.ttc } } t [Reg.LSM_RELEASE] [])) ∧
  (∀ s m c, Quiet s → MayWrite s m Reg.LSM_RELEASE → m ≠ 4 → c ∈ [Instr.releaseArm m, .releaseCommit m] →
    Leads c s (fun t => fieldR t Reg.LSM_RELEASE 28 3 = 7 ∧ releaseState t = releaseState s ∧
      OnlyRegs s t [Reg.LSM_RELEASE] [])) ∧
  (∀ s, Quiet s → MayWrite s 4 Reg.LSM_RELEASE → commitReason s = 0 → Leads (.releaseCommit 4) s (fun t =>
    t.mode = .running ∧ t.vigil.held = false ∧ releaseState t = 4 ∧ isPending t 172 = true ∧
    t.vigil.sticky = s.vigil.sticky)) ∧
  (∀ s, Quiet s → MayWrite s 4 Reg.LSM_RELEASE → commitReason s ≠ 0 → Leads (.releaseCommit 4) s (fun t =>
    t.mode = s.mode ∧ t.vigil = s.vigil ∧ releaseState t = 0 ∧ fieldR t Reg.LSM_RELEASE 28 3 = commitReason s ∧
    OnlyRegs s t [Reg.LSM_RELEASE] [173])) ∧
  (∀ s m, Quiet s → MayWrite s m Reg.LSM_RELEASE → Leads (.releaseAbort m) s (fun t =>
    releaseState t = 0 ∧ OnlyRegs s t [Reg.LSM_RELEASE] [])) ∧
  (∀ s, 1 ≤ releaseState s → s.vigil.armTtc.toNat + 120 * second ≤ s.ttc.toNat →
    Leads .releaseWindowExpiry s (fun t => releaseState t = 0 ∧ OnlyRegs s t [Reg.LSM_RELEASE] []))

/-- Lineside is commanded, and Caution is released. Model choices in it: log entry 112. -/
def Obligations.LinesideUnit : Prop := Sys2Proof.Claims.LinesideControl ∧ Sys2Proof.Claims.ReleaseOfCaution

/-! ### The Lookout -/

/-- A write of LKO_CMD with no command in progress. -/
def Sys2Proof.Machine.LkoReady (s : State) (m : Master) : Prop := Quiet s ∧ MayWrite s m Reg.LKO_CMD ∧ s.lko.selfWait = none

/-- The Lookout may transmit: a mode with RF, a region, full tier, no RF fault (R475 to R477, R539). -/
def Sys2Proof.Machine.RfReady (s : State) : Prop :=
  lookoutMode s = true ∧ regionReady s = true ∧ s.power.tier = 2 ∧ rfFault s = false

/-- What the Lookout sent: commands at a power on the channel of this moment (R474 to R476). -/
def Sys2Proof.Machine.Sent (s t : State) (power : Nat) (l : List AirCommand) : Prop :=
  t.ports.airOut = s.ports.airOut ++ l.map (fun c => { power := power, channel := channel (hop s), command := c : AirSent })

/-- The status of a self-inventory (R493): one answer that carries IDENTITY, and whose summary is the current one or the one that
a pending update will replace. -/
def Sys2Proof.Machine.selfAnswer (s : State) (l : List TagObs) : Nat :=
  match l with
  | [] => 1
  | [y] => if y.epc = identity s ∧ (slice (committedBlock s) 0 64 = evidenceSummary s ∨ s.tail.updating = true) then 0 else 3
  | _ => 2

/-- What a self-inventory sends (R478, R493): a round of one slot at S1, and to one tag that answers, its RN16 and the read of the
40 words. -/
def Sys2Proof.Machine.selfSends (s : State) (l : List TagObs) : List AirCommand :=
  [.select 0 [], .query 0] ++
    (match l with
     | [y] =>
       let rn := if y.epc = identity s then Config.tagNoise s.tail.noise else y.rn
       [.ack rn, .reqRn rn, .readUser 40]
     | _ => [])

/-- A self-inventory ran (R484, R493): its result and event, what it sent, and the entry of the tag that answered. -/
def Sys2Proof.Machine.SelfTested (s t : State) (l : List TagObs) : Prop :=
  ResultIs t Reg.LKO_RESULT (selfAnswer s l) ∧ Sent s t 0 (selfSends s l) ∧
  (∀ y, l = [y] → t.lko.selfEntry = tagEntry (hop s) (decide (y.epc = identity s)) 1 y) ∧
  t.lko = { (hop s).lko with selfEntry := t.lko.selfEntry } ∧
  t.tail = { s.tail with noise := t.tail.noise, inventoried := t.tail.inventoried, state := t.tail.state } ∧
  OnlyRegs { s with lko := t.lko, tail := t.tail, ports := { s.ports with airOut := t.ports.airOut } } t [Reg.LKO_RESULT]
    [if selfAnswer s l = 0 then 422 else 423]

/-- SELFTEST, SELFTEST_TIMER (R493), STOP, REBASE, PING (R479, R497). -/
def Sys2Proof.Claims.LookoutCommands : Prop :=
  (∀ s m (g : Byte) l, LkoReady s m → inRound s = false → RfReady s → g.toNat ≤ 128 → Leads (.selftest m ⟨g, l⟩) s (fun t =>
    SelfTested s t l)) ∧
  (∀ s m g l, LkoReady s m → inRound s = false → (lookoutMode s = false ∨ regionReady s = false) →
    Leads (.selftest m ⟨g, l⟩) s (fun t => ResultIs t Reg.LKO_RESULT 5 ∧ OnlyRegs s t [Reg.LKO_RESULT] [423])) ∧
  (∀ s m g l, LkoReady s m → inRound s = false → lookoutMode s = true → regionReady s = true → s.power.tier < 2 →
    Leads (.selftest m ⟨g, l⟩) s (fun t => ResultIs t Reg.LKO_RESULT 6 ∧ OnlyRegs s t [Reg.LKO_RESULT] [423])) ∧
  (∀ s m (g : Byte) l, LkoReady s m → s.lko.inv = none → RfReady s → 128 < g.toNat → Leads (.selftest m ⟨g, l⟩) s (fun t =>
    ResultIs t Reg.LKO_RESULT 7 ∧ rfFault t = true ∧ bitR t Reg.LKO_ERR 1 = true ∧
    OnlyRegs { s with lko := t.lko } t [Reg.LKO_RESULT, Reg.LKO_STATUS, Reg.LKO_ERR] [423, 424])) ∧
  (∀ s (g : Byte) l, Quiet s → s.lko.selfWait = none → inRound s = false → RfReady s → g.toNat ≤ 128 → timerRuns s = true →
    Leads (.selftestTimer ⟨g, l⟩) s (fun t => SelfTested { s with lko := { s.lko with selfTimer := .hourly } } t l)) ∧
  (∀ s (g : Byte) l, Quiet s → timerRuns s = false → Leads (.selftestTimer ⟨g, l⟩) s (fun t => t = s)) ∧
  (∀ s m, LkoReady s m → s.lko.inv = none → Leads (.stop m) s (fun t =>
    ResultIs t Reg.LKO_RESULT 0 ∧ OnlyRegs s t [Reg.LKO_RESULT] [])) ∧
  (∀ s m v, LkoReady s m → s.lko.inv = some v → v.owner = .auto → Leads (.stop m) s (fun t =>
    ResultIs t Reg.LKO_RESULT 0 ∧ t.lko.inv = none ∧ isPending t 416 = true)) ∧
  (∀ s m, LkoReady s m → Leads (.rebase m) s (fun t =>
    ResultIs t Reg.LKO_RESULT 0 ∧ fieldR t Reg.LKO_PING 8 8 = fieldR s Reg.LKO_PING 0 8 ∧
    fieldR t Reg.LKO_PING 0 8 = fieldR s Reg.LKO_PING 0 8 ∧ OnlyRegs s t [Reg.LKO_RESULT, Reg.LKO_PING] [])) ∧
  (∀ s (g : Byte), Quiet s → pingDue s = true → g.toNat ≤ 128 →
    absDiff g.toNat (fieldR s Reg.LKO_PING 8 8) < fieldR s Reg.LKO_PING 16 8 → Leads (.ping g) s (fun t =>
      fieldR t Reg.LKO_PING 0 8 = g.toNat ∧ rfFault t = false ∧ t.lko = (hop s).lko ∧ Sent s t 0 [.carrier] ∧
      OnlyRegs { s with lko := t.lko, ports := { s.ports with airOut := t.ports.airOut } } t [Reg.LKO_PING, Reg.LKO_STATUS] [])) ∧
  (∀ s (g : Byte), Quiet s → pingDue s = true → g.toNat ≤ 128 → bitR s Reg.LKO_CFG 6 = true →
    fieldR s Reg.LKO_PING 16 8 ≤ absDiff g.toNat (fieldR s Reg.LKO_PING 8 8) → Leads (.ping g) s (fun t =>
      fieldR t Reg.LKO_PING 0 8 = g.toNat ∧ isPending t 417 = true ∧ SameRegs s t [Reg.LKO_PING, Reg.LKO_STATUS] ∧
      ∃ v, t.lko.inv = some v ∧ v.owner = .auto ∧ v.rounds = fieldR s Reg.LKO_CFG 8 8 ∧ v.maxTags = 256 ∧ v.q = 4))

/-- LOOKOUT_INVENTORY (R483), INVENTORY_SLOT (R476, R481, R482, R484), BADGE_ENROL (R491), BADGE_ROUND (R492). -/
def Sys2Proof.Claims.LookoutRounds : Prop :=
  (∀ s (l : BitVec 19) pos f x, ServiceAt s l.toNat pos 0x2C f x → inventoryTurn s f.id = true → s.lko.inv = none →
    s.lko.selfWait = none → RfReady s → num f.raw 6 2 ≠ 0 → Leads (.lookoutInventory l pos) s (fun t =>
      t.lko.inv = some { owner := .waybill l.toNat f.id, round := 1, rounds := byteAt f.raw 4, maxTags := num f.raw 6 2,
                         slot := 0, q := 4, qfp := 40, replies := 0, entries := [], seen := [], badgeRan := false } ∧
      (∃ g, flight? t l.toNat f.id = some g ∧ g.phase = .parked) ∧ t.regs = s.regs ∧ t.ports = s.ports)) ∧
  (∀ s (g : Byte) o v, Quiet s → mainPower s = true → s.lko.inv = some v → (v.slot ≠ 0 ∨ g.toNat ≤ 128) →
    badgeFirst s v = false →
    v.slot + 1 < 2 ^ v.q → (noteTag (hop s) v o).entries.length < v.maxTags → Leads (.inventorySlot g o) s (fun t =>
      t.lko.inv = some { noteTag (hop s) v o with
        slot := v.slot + 1, qfp := nextQfp v.qfp o, replies := v.replies + (replied o).toNat } ∧
      Sent s t (txPower s) ((if v.slot ≠ 0 then [.queryRep] else if v.round = 1 then [.select 0 [], .query v.q] else [.query v.q])
        ++ (match o with
            | .tag y => [.ack y.rn]
            | .collision (some rn) => [.ack rn, .nak]
            | _ => [])) ∧
      (∀ y, o = .tag y → getR64 t Reg.LKO_TAGS = getR64 s Reg.LKO_TAGS + 1) ∧
      (o = .empty → t.regs = s.regs ∧ t.evtPend = s.evtPend) ∧
      (∀ a, o = .collision a → getR64 t Reg.LKO_COLLISIONS = getR64 s Reg.LKO_COLLISIONS + 1 ∧ bitR t Reg.LKO_ERR 2 = true))) ∧
  (∀ s g o v, Quiet s → s.lko.inv = some v → badgeFirst s v = true → Leads (.inventorySlot g o) s (fun t => t = s)) ∧
  (∀ s (v : Inventory) y, v.seen.contains y.epc = false →
    (noteTag s v (.tag y)).entries = v.entries ++ [tagEntry s false v.round y] ∧
    (tagEntry s false v.round y).length = 48 ∧ (noteTag s v (.tag y)).seen = v.seen ++ [y.epc]) ∧
  (∀ s (v : Inventory) y, v.seen.contains y.epc = true → noteTag s v (.tag y) = v) ∧
  (∀ s m (g : Byte) e, LkoReady s m → s.mode = .commissioning → RfReady s → g.toNat ≤ 128 → entReady s = true →
    EnrolObs.passwordZero e = true → e.refusedAt = 0 → personOk (fieldR s Reg.LKO_ARG 0 5) = true →
    let p := fieldR s Reg.LKO_ARG 0 5
    (∀ k, k < 3 → sstCount s (badgeSlot p + k) < 100000) → Leads (.badgeEnrol m ⟨g, [e]⟩) s (fun t =>
      let d := badgeDigest s p e.tid (slice (drawBytes s 36) 0 32)
      ResultIs t Reg.LKO_RESULT 0 ∧ sstGet t (badgeSlot p) = num64 d 0 ∧ sstGet t (badgeSlot p + 1) = num64 d 8 ∧
      sstGet t (badgeSlot p + 2) = BitVec.ofNat 64 (num (slice (drawBytes s 36) 32 4) 0 4) ∧ isPending t 421 = true ∧
      Sent s t (txPower s) (enrolRound [e] ++ [.reqRn e.rn, .readTid, .write 1 2 (badgePrefix s ++ [BitVec.ofNat 8 p]),
        .write 3 0 (slice (drawBytes s 36) 0 32), .write 0 2 (slice (drawBytes s 36) 32 4).reverse, .lock]) ∧
      t.ent.pool = s.ent.pool.drop 36)) ∧
  (∀ s (g : Byte) b, Quiet s → g.toNat ≤ 128 → badgeSearch s = true → badgeReady s = true → badgeTurn s = true →
    badgeRecent s (BadgeObs.person b).toNat = false →
    windowOpen s = true → Leads (.badgeRound ⟨g, [b]⟩) s (fun t =>
      fieldR t Reg.LSM_RELEASE 6 2 = (if badgeOk s b then 1 else 2) ∧ fieldR t Reg.LSM_RELEASE 16 8 = b.person.toNat ∧
      releaseState t = (if fieldR s Reg.LSM_RELEASE 4 2 ≠ 0 then 3 else 2) ∧
      mget? t.lko.badgeSeen b.person.toNat = some s.ttc ∧ SameRegs s t [Reg.LSM_RELEASE] ∧ Raises s t [420] ∧
      Sent s t (badgePower s) ([.select 0x20 (badgePrefix s), .query 4, .ack b.rn] ++
        (if personOk b.person.toNat then badgeAsks s b else [.reqRn b.rn, .readTid])))) ∧
  (∀ s b, badgeOk s b = true ↔ personOk (BadgeObs.person b).toNat = true ∧ badgePassword s b.person.toNat = b.password ∧
    b.user.length = 32 ∧ badgeDigest s b.person.toNat b.tid b.user = storedBadge s b.person.toNat) ∧
  (∀ s, badgePower s = if s.power.tier = 2 then txPower s else min (txPower s) 20)

/-- The Lookout: its commands and its rounds. Model choices in it: log entries 42, 43, 47, 79, 166. -/
def Obligations.LookoutRadio : Prop := Sys2Proof.Claims.LookoutCommands ∧ Sys2Proof.Claims.LookoutRounds

/-! ### The Tail lamp -/

/-- The tag hears a command (R474, R478). -/
def Sys2Proof.Machine.Hears (s : State) : Prop := s.tail.field = true ∧ s.lko.inv = none

/-- The tag answered with `r` and changed only its own state to `k`; `g` counts the free values taken. -/
def Sys2Proof.Machine.TagDid (s t : State) (k : Tail) (r : List TagReply) : Prop :=
  t = { s with tail := k, ports := { s.ports with tagOut := s.ports.tagOut ++ r } }

/-- SELECT, QUERY, QUERY_REP, QUERY_ADJUST, ACK, NAK (R474): the inventory commands of ISO/IEC 18000-63 as log entry 44 reads
them; READER_FIELD_ARRIVAL, FIELD_COLLAPSE (R485, R489). Model choices in it: log entry 44. -/
def Obligations.TagInventory : Prop :=
  (∀ s (target action : BitVec 3) (bank : BitVec 2) pointer bits, Hears s → bank ≠ 0 → target.toNat ≤ 4 →
    Leads (.select target action bank pointer ⟨bits, false⟩) s (fun t =>
      TagDid s t { applySelect s.tail target.toNat (selectAction action.toNat
        (maskMatches (tagBank s bank.toNat) pointer bits)) with truncated := none } [])) ∧
  (∀ s (action : BitVec 3) pointer bits, Hears s → 0x20 ≤ pointer + List.length bits → pointer + bits.length ≤ 0xA0 →
    Leads (.select 4 action 1 pointer ⟨bits, true⟩) s (fun t =>
      TagDid s t { applySelect s.tail 4 (selectAction action.toNat (maskMatches (tagBank s 1) pointer bits)) with
        truncated := if maskMatches (tagBank s 1) pointer bits then some (pointer + bits.length) else none } [])) ∧
  (∀ s (target action : BitVec 3) (bank : BitVec 2) pointer bits, Hears s →
    (bank = 0 ∨ 4 < target.toNat ∨ target ≠ 4 ∨ bank ≠ 1 ∨ pointer + List.length bits < 0x20 ∨ 0xA0 < pointer + bits.length) →
    Leads (.select target action bank pointer ⟨bits, true⟩) s (fun t => t = s)) ∧
  (∀ s sel session target q, Hears s → s.tail.state = .ready →
    takesPart s.tail (BitVec.toNat sel) (BitVec.toNat session) target = true →
    let n := (Config.tagNoise s.tail.noise).toNat % 2 ^ BitVec.toNat q
    Leads (.query sel session target q) s (fun t =>
      (n ≠ 0 → TagDid s t { s.tail with session := session, q := q.toNat, slot := n, noise := s.tail.noise + 1,
                                         state := .arbitrate, bySl := decide (2 ≤ sel.toNat) } []) ∧
      (n = 0 → TagDid s t { s.tail with session := session, q := q.toNat, slot := 0, noise := s.tail.noise + 2, state := .reply,
                                        rn := Config.tagNoise (s.tail.noise + 1), bySl := decide (2 ≤ sel.toNat) }
                 [.rn16 (Config.tagNoise (s.tail.noise + 1))]))) ∧
  (∀ s sel session target q, Hears s → s.tail.state = .ready →
    takesPart s.tail (BitVec.toNat sel) (BitVec.toNat session) target = false →
    Leads (.query sel session target q) s (fun t =>
      TagDid s t { s.tail with session := session, bySl := decide (2 ≤ sel.toNat) } [])) ∧
  (∀ s, Hears s → s.tail.state = .arbitrate → s.tail.slot = 1 → Leads (.queryRep s.tail.session) s (fun t =>
    TagDid s t { s.tail with slot := 0, noise := s.tail.noise + 1, state := .reply, rn := Config.tagNoise s.tail.noise }
      [.rn16 (Config.tagNoise s.tail.noise)])) ∧
  (∀ s, Hears s → s.tail.state = .arbitrate → 2 ≤ s.tail.slot → Leads (.queryRep s.tail.session) s (fun t =>
    TagDid s t { s.tail with slot := s.tail.slot - 1 } [])) ∧
  (∀ s, Hears s → singulated s.tail = true → Leads (.queryRep s.tail.session) s (fun t =>
    TagDid s t { s.tail with state := .ready, inventoried := s.tail.inventoried ^^^ (1#4 <<< s.tail.session.toNat) } [])) ∧
  (∀ s updn q, Hears s → s.tail.state = .arbitrate → adjustQ s.tail.q updn = some q →
    let n := (Config.tagNoise s.tail.noise).toNat % 2 ^ q
    Leads (.queryAdjust s.tail.session updn) s (fun t =>
      (n ≠ 0 → TagDid s t { s.tail with q := q, slot := n, noise := s.tail.noise + 1 } []) ∧
      (n = 0 → TagDid s t { s.tail with q := q, slot := 0, noise := s.tail.noise + 2, state := .reply,
                                        rn := Config.tagNoise (s.tail.noise + 1) }
                 [.rn16 (Config.tagNoise (s.tail.noise + 1))]))) ∧
  (∀ s, Hears s → s.tail.state = .reply → (s.tail.truncated = none ∨ s.tail.bySl = false) → Leads (.ack s.tail.rn) s (fun t =>
    TagDid s t { s.tail with state := .acknowledged } [.epc (pcEpc s ++ be 2 (crc16 (pcEpc s)).toNat)])) ∧
  (∀ s n, Hears s → s.tail.state = .reply → s.tail.truncated = some n → s.tail.bySl = true → Leads (.ack s.tail.rn) s (fun t =>
    TagDid s t { s.tail with state := .acknowledged }
      [.shortEpc (List.replicate 5 false ++ (List.range (0xA0 - n)).map (fun i => bankBit (epcBank s) (n + i)))
        (crc16 (pcEpc s))])) ∧
  (∀ s rn, Hears s → s.tail.state = .reply → rn ≠ s.tail.rn → Leads (.ack rn) s (fun t =>
    TagDid s t { s.tail with state := .arbitrate, slot := 32767 } [])) ∧
  (∀ s, Hears s → s.tail.state ≠ .ready → Leads .nak s (fun t =>
    TagDid s t { s.tail with state := .arbitrate, slot := 32767 } [])) ∧
  (∀ s, s.tail.field = false → Leads .readerFieldArrival s (fun t =>
    t.tail.field = true ∧ t.tail.state = .ready ∧ t.tail.inventoried &&& ~~~s.tail.inventoried = 0 ∧
    t.tail.inventoried.getLsbD 0 = false ∧ (t.tail.sl = true → s.tail.sl = true) ∧
    t = { s with freeCtr := s.freeCtr + 1, tail := { s.tail with
      field := true, state := .ready, inventoried := t.tail.inventoried, sl := t.tail.sl } })) ∧
  (∀ s, Leads .fieldCollapse s (fun t => t = { s with tail := { s.tail with field := false, state := .ready } }))

/-- The tag is in open or secured, and the command carries its handle. -/
def Sys2Proof.Machine.Handled (s : State) (rn : BitVec 16) : Prop :=
  Hears s ∧ (s.tail.state = .opened ∨ s.tail.state = .secured) ∧ rn = s.tail.handle

/-- A label write that the tag may carry out (R486, R489). -/
def Sys2Proof.Machine.LabelWrite (s : State) (word n : Nat) : Prop := 0x30 ≤ word ∧ 2 * (word + n) ≤ (tagBank s 3).length

/-- The label as a write of `v` at `word` leaves it. -/
def Sys2Proof.Machine.newLabel (s : State) (word : Nat) (v : List (BitVec 16)) : Bytes :=
  patch (slice (labelBytes s) 0 32) (2 * (word - 0x30)) (v.flatMap (fun x => be 2 x.toNat))

/-- REQ_RN, TAG_READ (R490), TAG_WRITE, BLOCK_WRITE (R489), TAG_ACCESS, TAG_LOCK, TAG_KILL (R485), UNSUPPORTED_COMMAND (R474):
the accesses with a handle. A label write is committed whole or leaves no trace (R489). -/
def Sys2Proof.Claims.TagAccess : Prop :=
  (∀ s, Hears s → s.tail.state = .acknowledged → Leads (.reqRn s.tail.rn) s (fun t =>
    TagDid s t { s.tail with state := .opened, handle := Config.tagNoise s.tail.noise, rn := Config.tagNoise s.tail.noise,
                             noise := s.tail.noise + 1 } [.handle (Config.tagNoise s.tail.noise)])) ∧
  (∀ s rn, Handled s rn → Leads (.reqRn rn) s (fun t =>
    TagDid s t { s.tail with rn := Config.tagNoise s.tail.noise, noise := s.tail.noise + 1 }
      [.rn16 (Config.tagNoise s.tail.noise)])) ∧
  (∀ s rn (bank : BitVec 2) word count, Handled s rn → bank ≠ 0 → count ≠ 0 →
    2 * (word + count) ≤ (tagBank s bank.toNat).length → Leads (.tagRead rn bank word count) s (fun t =>
      TagDid s t s.tail [.words (slice (tagBank s bank.toNat) (2 * word) (2 * count)) s.tail.handle])) ∧
  (∀ s rn (bank : BitVec 2) word count, Handled s rn →
    ((tagBank s bank.toNat).length < 2 * (word + count) ∨ (tagBank s bank.toNat).length ≤ 2 * word) →
    Leads (.tagRead rn bank word count) s (fun t => TagDid s t s.tail [.error 0x03 s.tail.handle])) ∧
  (∀ s rn word v, Handled s rn → LabelWrite s word 1 → mainPower s = true →
    Leads (.tagWrite rn 3 word v true true) s (fun t =>
      labelBytes t = newLabel s word [v ^^^ s.tail.rn] ∧ t.tail.labCommit = !s.tail.labCommit ∧
      t.ports.tagOut = s.ports.tagOut ++ [.ok s.tail.handle] ∧ isPending t 432 = true ∧
      fieldR t Reg.TLP_EXTW 0 16 = min 65535 (fieldR s Reg.TLP_EXTW 0 16 + 1) ∧ SameRegs s t [Reg.TLP_EXTW])) ∧
  (∀ s rn word v, Handled s rn → LabelWrite s word (List.length v) → 1 ≤ v.length → v.length ≤ 16 → mainPower s = true →
    Leads (.blockWrite rn 3 word v true true) s (fun t =>
      labelBytes t = newLabel s word v ∧ t.tail.labCommit = !s.tail.labCommit ∧
      t.ports.tagOut = s.ports.tagOut ++ [.ok s.tail.handle] ∧ isPending t 432 = true)) ∧
  (∀ s rn word v, Handled s rn → LabelWrite s word 1 → Leads (.tagWrite rn 3 word v true false) s (fun t =>
    labelBytes t = labelBytes s ∧ t.ports.tagOut = s.ports.tagOut ++ [.error 0x0F s.tail.handle] ∧ t.regs = s.regs)) ∧
  (∀ s rn word v, Handled s rn → LabelWrite s word 1 → mainPower s = true →
    Leads (.tagWrite rn 3 word v false true) s (fun t =>
      t.tail = s.tail ∧ t.ports.tagOut = s.ports.tagOut ++ [.error 0x0B s.tail.handle] ∧ isPending t 433 = true ∧
      bitR t Reg.TLP_ERR 1 = true)) ∧
  (∀ s rn word v e ok, Handled s rn → word < 0x30 → 2 * (word + 1) ≤ (tagBank s 3).length →
    Leads (.tagWrite rn 3 word v e ok) s (fun t => TagDid s t s.tail [.error 0x04 s.tail.handle])) ∧
  (∀ s rn half, Handled s rn → Leads (.tagAccess rn half) s (fun t =>
    TagDid s t { s.tail with state := .secured } [.ok s.tail.handle])) ∧
  (∀ s rn, Handled s rn → Leads (.tagLock rn) s (fun t => TagDid s t s.tail [.error 0x04 s.tail.handle])) ∧
  (∀ s rn, Handled s rn → Leads (.tagKill rn) s (fun t =>
    ∃ code, TagDid { s with freeCtr := s.freeCtr + 1 } t s.tail [.error code s.tail.handle])) ∧
  (∀ s rn, Handled s rn → Leads (.unsupportedCommand rn) s (fun t => TagDid s t s.tail [.error 0x01 s.tail.handle]))

/-- TAIL_LAMP_UPDATE, INTERNAL_UPDATE_DONE (R487, R488): the slot not committed takes the status block; a second failed verify
gives up with event 435. -/
def Sys2Proof.Claims.TailUpdates : Prop :=
  (∀ s m, Quiet s → MayWrite s m Reg.TLP_CTRL → Leads (.tailLampUpdate m) s (fun t =>
    t = { s with tail := { s.tail with updating := true } })) ∧
  (∀ s, s.tail.updating = true → mainPower s = true → s.tail.wear0 < 99999 → s.tail.wear1 < 99999 →
    Leads (.internalUpdateDone true) s (fun t =>
      committedBlock t = updateBlock s ∧ t.tail.evCommit = !s.tail.evCommit ∧ t.tail.updating = false ∧
      t.tail.retry = false ∧ t.tail.lastUpdate = s.ttc ∧
      t.tail = { s.tail with ev0 := t.tail.ev0, ev1 := t.tail.ev1, wear0 := t.tail.wear0, wear1 := t.tail.wear1,
                             evCommit := t.tail.evCommit, updating := false, retry := false, lastUpdate := s.ttc } ∧
      OnlyRegs { s with tail := t.tail } t [] [434])) ∧
  (∀ s, s.tail.updating = true → mainPower s = true → s.tail.retry = false → s.tail.wear0 < 99999 → s.tail.wear1 < 99999 →
    Leads (.internalUpdateDone false) s (fun t =>
      committedBlock t = committedBlock s ∧ t.tail.updating = true ∧ t.tail.retry = true ∧ t.evtPend = s.evtPend)) ∧
  (∀ s, s.tail.updating = true → mainPower s = true → s.tail.retry = true → Leads (.internalUpdateDone false) s (fun t =>
    committedBlock t = committedBlock s ∧ t.tail.updating = false ∧ t.tail.retry = false ∧ isPending t 435 = true ∧
    bitR t Reg.TLP_ERR 0 = true))

/-- The tag face is read and written, from outside and from within. Model choices in it: log entries 8, 44. -/
def Obligations.TagFace : Prop := Sys2Proof.Claims.TagAccess ∧ Sys2Proof.Claims.TailUpdates

/-! ### Power -/

/-- The state after a message to the source, nothing else (R499). -/
def Sys2Proof.Machine.PdSaid (s t : State) (l : List PdMsg) : Prop :=
  t = { s with ports := { s.ports with pdOut := s.ports.pdOut ++ l } }

/-- A contract of `mw` that changes no tier, mode or link (R502, R504). -/
def Sys2Proof.Machine.PowerSteady (s : State) (mw : Nat) : Prop :=
  Quiet s ∧ mainPower s = true ∧ s.booted = true ∧ 27000 ≤ mw ∧ tierFor s mw = s.power.tier ∧ s.flash.monitor = false

/-- What a Request leaves (R500): the contract, the input voltage, event 3 when the contract changed. -/
def Sys2Proof.Machine.Contracted (s t : State) (a : Ask) : Prop :=
  getR t Reg.PWR_CONTRACT = (place 0 16 a.mv ||| place 16 16 a.ma) ∧ fieldR t Reg.PWR_INPUT 0 16 = a.mv % 65536 ∧
  t.power.contractMw = a.mv * a.ma / 1000 ∧ t.power.tier = s.power.tier ∧ t.power.epr = a.epr ∧ t.mode = s.mode ∧
  t.ports.pdOut = s.ports.pdOut ++ (if a.epr then [.eprEnter] else []) ++ [.request a.mv a.ma a.mismatch] ∧
  Raises s t (if getR s Reg.PWR_CONTRACT = (place 0 16 a.mv ||| place 16 16 a.ma) then [] else [3])

/-- SOURCE_CAPABILITIES, NO_CAPABILITIES, PS_RDY, SOFT_RESET, PR_SWAP, DR_SWAP, VCONN_SWAP, FR_SWAP (R499 to R502, R504).
Model choices in it: log entries 53, 81. -/
def Obligations.PowerDelivery : Prop :=
  (∀ s l es ec a, selectPdo s l es ec = some a → PowerSteady s (a.mv * a.ma / 1000) →
    Leads (.sourceCapabilities l es ec) s (fun t =>
      Contracted s t a ∧ t.power.pdos = l ∧ SameRegs s t [Reg.PWR_CONTRACT, Reg.PWR_INPUT])) ∧
  (∀ s a, s.power.pdos ≠ [] → selectPdo s s.power.pdos s.power.eprSource s.power.eprCable = some a →
    PowerSteady s (a.mv * a.ma / 1000) → Leads .softReset s (fun t =>
      Contracted s t a ∧ bitR t Reg.PWR_ERR 2 = true ∧ SameRegs s t [Reg.PWR_CONTRACT, Reg.PWR_INPUT, Reg.PWR_ERR])) ∧
  (∀ s adv, Quiet s → mainPower s = true → s.power.pdos = [] → s.mode = .shed → s.booted = true → s.flash.monitor = false →
    s.power.tier = 0 → s.hlk.up = false → Leads (.noCapabilities adv) s (fun t =>
      let ma := if adv = 2 then 3000 else if adv = 1 then 1500 else 900
      getR t Reg.PWR_CONTRACT = (place 0 16 5000 ||| place 16 16 ma) ∧ bitR t Reg.PWR_ERR 3 = true ∧
      t.power = { s.power with contractMw := 5 * ma, tierPending := none } ∧ t.mode = .shed ∧
      SameRegs s t [Reg.PWR_CONTRACT, Reg.PWR_ERR])) ∧
  (∀ s k, Quiet s → mainPower s = true → s.power.tierPending = some k →
    k = tierFor s s.power.contractMw → k ≠ s.power.tier → SealsWhole s → Leads .psRdy s (fun t =>
    t.power.tier = k ∧ t.power.tierPending = none ∧ isPending t 1 = true ∧ t.mode = s.mode ∧ t.mem = s.mem)) ∧
  (∀ s c, mainPower s = true → c ∈ [Instr.prSwap, .drSwap, .vconnSwap] → Leads c s (fun t => PdSaid s t [.reject])) ∧
  (∀ s, mainPower s = true → Leads .frSwap s (fun t => PdSaid s t [.notSupported]))

/-- DISTURBANCE_BEGIN, DISTURBANCE_END (R507), BANK_CHARGED (R509), LAST_GASP_SEAL, BANK_LOW, HARD_RESET, LAST_GASP_END (R510,
R511, R513), THERMAL_CAP, THERMAL_LIFT (R506). -/
def Sys2Proof.Claims.HoldUp : Prop :=
  (∀ s mv, Quiet s → mainPower s = true → s.power.sag = false → outsideWindow s (BitVec.toNat mv) = true →
    Leads (.disturbanceBegin mv) s (fun t =>
      t.power = { s.power with sag := true, vbus := false } ∧ fieldR t Reg.PWR_INPUT 0 16 = mv.toNat ∧
      (30000 < mv.toNat → bitR t Reg.PWR_ERR 0 = true) ∧
      OnlyRegs { s with power := t.power } t (Reg.PWR_INPUT :: if 30000 < mv.toNat then [Reg.PWR_ERR] else [])
        (4 :: if 30000 < mv.toNat then [13] else []))) ∧
  (∀ s len, Quiet s → mainPower s = true → s.power.sag = true → s.power.lastGasp = false →
    Leads (.disturbanceEnd len) s (fun t =>
      t.power.sag = false ∧ t.power.vbus = true ∧ t.power.bankMv ≤ s.power.bankMv ∧
      fieldR t Reg.PWR_SAGS 0 16 = min 65535 (fieldR s Reg.PWR_SAGS 0 16 + 1) ∧
      fieldR t Reg.PWR_SAGS 16 16 = max len.toNat (fieldR s Reg.PWR_SAGS 16 16) ∧
      SameRegs s t [Reg.PWR_SAGS, Reg.PWR_INPUT] ∧ Raises s t [5])) ∧
  (∀ s mv, Quiet s → mainPower s = true → 15000 ≤ s.power.contractMw → s.power.sag = false → s.awaiting = none →
    Leads (.bankCharged mv) s (fun t => t = { s with power := { s.power with bankMv := mv.toNat } })) ∧
  (∀ s c k, Quiet s → SealsWhole s → mainPower s = true → s.power.lastGasp = false → sealing s = false → s.power.sag = true → s.descQueue = [] →
    (c, k) ∈ [(Instr.lastGaspSeal, 1), (.bankLow, 2), (.hardReset, 3)] → Leads c s (fun t =>
      t.power.lastGasp = true ∧ t.power.trigger = BitVec.ofNat 2 k ∧ bitR t Reg.HLK_STATUS 8 = true ∧ isPending t 6 = true ∧
      t.mode = s.mode ∧ t.mem = s.mem)) ∧
  (∀ s d, Quiet s → mainPower s = true → s.power.lastGasp = true → resetFault s = false → Leads (.lastGaspEnd true d) s (fun t =>
    t.mode = .shed ∧ t.power.lastGasp = false ∧ t.mem = [] ∧
    fieldR t Reg.DMN_CAUSE 0 8 = (0x80 ||| s.power.deferred.toNat) ∧
    fieldR t Reg.PWR_LGLAST 0 16 = d.toNat ∧ fieldR t Reg.PWR_LGLAST 17 2 = s.power.trigger.toNat ∧
    bitR t Reg.PWR_LGLAST 16 = (s.power.lgStored && s.su.jobs.isEmpty) ∧ t.vigil.boots = s.vigil.boots + 1)) ∧
  (∀ s d, Quiet s → mainPower s = true → s.power.lastGasp = true → cellHolds s = true → Leads (.lastGaspEnd false d) s (fun t =>
    t.mode = .stabled ∧ t.mem = [] ∧ t.coresRun = false ∧ t.vigil.trunk = s.vigil.trunk ∧
    t.vigil.trunkKey = s.vigil.trunkKey ∧ t.vigil.sticky = s.vigil.sticky ∧ t.vigil.held = s.vigil.held ∧
    bitR t Reg.ILK_STATUS 2 = bitR s Reg.ILK_STATUS 2 ∧ t.tail.updating = true ∧ fieldR t Reg.PWR_LGLAST 0 16 = d.toNat)) ∧
  (∀ s temp, Quiet s → SealsWhole s → mainPower s = true → s.power.thermal = false → 840 ≤ BitVec.toInt temp →
    Leads (.thermalCap temp) s (fun t =>
      t.power.thermal = true ∧ t.power.tier ≤ 1 ∧ bitR t Reg.PWR_ERR 4 = true ∧ isPending t 14 = true ∧
      getR t Reg.LSM_TEMP = temp.setWidth 32 ∧ t.mode = s.mode)) ∧
  (∀ s temp, Quiet s → SealsWhole s → mainPower s = true → s.power.thermal = true → s.power.tierPending = none →
    BitVec.toInt temp ≤ 760 → Leads (.thermalLift temp) s (fun t =>
      t.power.thermal = false ∧ getR t Reg.LSM_TEMP = temp.setWidth 32 ∧ t.mode = s.mode ∧
      t.power.tier = tierFor { s with power := { s.power with thermal := false } } s.power.contractMw))

/-- CELL_LOW (R515), VIGIL_POWER_LOSS (R221, R517; that an erasure still due outlives it is log entry 160's choice),
MAIN_POWER_ON (R181, R517, R525), POWER_DIE_FAILURE (R563). -/
def Sys2Proof.Claims.PowerComesAndGoes : Prop :=
  (∀ s mv, mainPower s = true → BitVec.toNat mv < 2600 → Leads (.cellLow mv) s (fun t =>
    getR t Reg.PWR_CELL = mv.setWidth 32 ∧
    OnlyRegs s t [Reg.PWR_CELL] (if fieldR s Reg.PWR_CELL 0 12 < 2600 then [] else [15]))) ∧
  (∀ s, s.mode = .stabled → Leads .vigilPowerLoss s (fun t =>
    t.mode = .dark ∧ t.vigil.trunk = .lost ∧ t.vigil.trunkKey = zeros 32 ∧ t.vigil.sticky = 0 ∧ t.vigil.boots = 0 ∧
    t.vigil.erasePending = s.vigil.erasePending ∧ t.tail = { s.tail with updating := true } ∧
    getR t Reg.PWR_LGLAST = 0 ∧ bitR t Reg.ILK_STATUS 2 = false ∧ SameRegs s t [Reg.PWR_LGLAST, Reg.ILK_STATUS] ∧
    t = { s with mode := .dark, prevMode := .stabled, vigil := t.vigil, badPrivate := [], regs := t.regs, tail := t.tail })) ∧
  (∀ s cap cell, mainPower s = false → s.vigil.canaryLost = false → resetFault s = false → privateBad s .count = false →
    Leads (.mainPowerOn cap cell) s (fun t =>
    t.mode = .shed ∧ t.ttc = BitVec.ofNat 64 ((s.vigil.count.toNat * 390625 + 127) / 128) ∧
    getR64 t Reg.TTC_SEED = t.ttc ∧ fieldR t Reg.DMN_CAUSE 0 8 = 1 ∧ t.vigil.boots = s.vigil.boots + 1 ∧
    t.vigil.trunk = s.vigil.trunk ∧ t.vigil.sticky = s.vigil.sticky ∧
    t.vigil.held = (s.vigil.held || s.vigil.pendReset || s.vigil.pendCaution) ∧ t.mem = [] ∧ t.coresRun = false ∧
    fieldR t Reg.PWR_BANK 16 16 = cap.toNat ∧ getR t Reg.PWR_CELL = cell.setWidth 32 ∧
    (cap.toNat < 1200 → isPending t 12 = true ∧ bitR t Reg.PWR_ERR 1 = true) ∧ (cell.toNat < 2600 → isPending t 15 = true))) ∧
  (∀ s, mainPower s = true → cellHolds s = true → Leads .powerDieFailure s (fun t =>
    t.mode = .stabled ∧ t.mem = [] ∧ t.coresRun = false ∧ t.vigil.trunk = s.vigil.trunk ∧
    t.vigil.trunkKey = s.vigil.trunkKey ∧ t.vigil.sticky = s.vigil.sticky ∧ t.tail.updating = true ∧
    bitR t Reg.ILK_STATUS 2 = bitR s Reg.ILK_STATUS 2)) ∧
  (∀ s, mainPower s = true → cellHolds s = false → Leads .powerDieFailure s (fun t =>
    t.mode = .dark ∧ t.mem = [] ∧ t.coresRun = false ∧ t.vigil.trunk = .lost ∧ t.vigil.trunkKey = zeros 32))

/-! ### Boot and modes -/

/-- The recovery monitor runs (R529, R535). -/
def Sys2Proof.Machine.MonitorRuns (s t : State) : Prop :=
  t.flash.monitor = true ∧ t.coresRun = true ∧ t.booted = true ∧ bitR t Reg.DMN_CAUSE 9 = true ∧ isPending t 37 = true ∧
  (∀ n, n < 4 → (coreAt t n).wait = if n = 0 then .none else .waitf 0) ∧
  t.mode = (if 15000 ≤ s.power.contractMw then .maintenance else .shed)

/-- CORES_RELEASED (R529, R531, R534, R535): with every self-test passed, the chosen image starts, or the recovery monitor.
Model choices in it: log entries 78, 84, 86. -/
def Obligations.BootChain : Prop :=
  (∀ s, Quiet s → SealsWhole s → s.mode = .shed → s.coresRun = false → s.fusesOk = true → dieRuns s = true → bootRec? s = none →
    Leads (.coresReleased 0xFF 0xF ⟨0, []⟩) s (MonitorRuns s)) ∧
  (∀ s, Quiet s → SealsWhole s → s.mode = .shed → s.coresRun = false → s.fusesOk = true → dieRuns s = true → fieldR s Reg.DMN_CAUSE 10 3 = 4 →
    Leads (.coresReleased 0xFF 0xF ⟨0, []⟩) s (MonitorRuns s)) ∧
  (∀ s r, Quiet s → SealsWhole s → s.mode = .shed → s.coresRun = false → s.fusesOk = true → dieRuns s = true →
    (∀ e ∈ s.flash.blocks, e.2.suspect = false) → fieldR s Reg.DMN_CAUSE 10 3 ≠ 4 → bootRec? s = some r →
    Leads (.coresReleased 0xFF 0xF ⟨0, []⟩) s (fun t =>
      t.coresRun = true ∧
      ((chooseSlot s r).fallback = true → bitR t Reg.DMN_CAUSE 8 = true ∧ isPending t 37 = true) ∧
      ((chooseSlot s r).slot = none → MonitorRuns s t) ∧
      (∀ b, (chooseSlot s r).slot = some b →
        let h := imgHeader s b
        t.flash.running = b ∧ t.flash.recoveryImage = decide (imgKind h = 2) ∧
        (coreAt t 0).sig.pc = BitVec.ofNat 32 (0x30001000 + imgEntry h) &&& 0xFFFFFFFC ∧
        (∀ n, n < 4 → (coreAt t n).wait = .none ∧ (coreAt t n).sig.pc.toNat % 4 = 0) ∧
        t.flash.slices = mapSlices s b (imgLength h) ∧ t.mode = .shed))) ∧
  (∀ s, s.flash.monitor = false → s.flash.recoveryImage = false →
    (s.vigil.trunk = .lost → 15000 ≤ s.power.contractMw → bootTarget s = .condemned) ∧
    (s.vigil.trunk = .empty → 27000 ≤ s.power.contractMw → s.power.bankWeak = false → bootTarget s = .commissioning) ∧
    (s.vigil.trunk = .valid → 15000 ≤ s.power.contractMw → s.power.contractMw < 27000 → bootTarget s = .maintenance) ∧
    (s.vigil.trunk = .valid → 27000 ≤ s.power.contractMw → s.power.bankWeak = false → bitR s Reg.ENT_STATUS 2 = false →
      s.vigil.held = true → tcxoOk s = true → bootTarget s = .caution) ∧
    (s.vigil.trunk = .valid → 27000 ≤ s.power.contractMw → tcxoOk s = false → bootTarget s = .maintenance) ∧
    (s.vigil.trunk = .valid → 27000 ≤ s.power.contractMw → s.power.bankWeak = false → bitR s Reg.ENT_STATUS 2 = false →
      s.vigil.held = false → tcxoOk s = true → unfenced s ≠ [] → bootTarget s = .running))

/-- BOOT_COMPLETE, MODEREQ_MAINTENANCE, MODEREQ_COMMISSIONING, MODEREQ_RUNNING (R517 to R519). Model choices in it: log
entries 58, 60, 86, 115, 116, 144. -/
def Obligations.ModeChanges : Prop :=
  (∀ s m, Quiet s → SealsWhole s → s.tableBuilt = true → s.mode = .shed → s.coresRun = true → s.flash.monitor = false →
    s.fusesOk = true → s.vigil.cellTrips = [] →
    s.vigil.pendReset = false → s.vigil.pendCaution = false → bootTarget s = m → m ≠ .shed → mustWait s m = false → unfenced s ≠ [] →
    Leads .bootComplete s (fun t => t.booted = true ∧ t.mode = m ∧ isPending t 0 = true ∧
      (m = .running → t.lko.selfTimer = .due) ∧ (m = .running ∨ m = .caution → t.su.open_ ≠ none))) ∧
  (∀ s m, Quiet s → s.tableBuilt = true → s.mode = .shed → s.coresRun = true → s.flash.monitor = false → s.fusesOk = true →
    s.vigil.cellTrips = [] →
    s.vigil.pendReset = false → s.vigil.pendCaution = false → bootTarget s = m → m ≠ .shed → mustWait s m = true →
    Leads .bootComplete s (fun t => t.booted = true ∧ t.mode = .shed ∧ t.awaiting = some m)) ∧
  (∀ s, Quiet s → SealsWhole s → MayWrite s 4 Reg.SYS_MODEREQ → (s.mode = .commissioning ∨ s.mode = .condemned) → s.power.lastGasp = false →
    s.flash.monitor = false → 15000 ≤ s.power.contractMw → Leads (.modereqMaintenance 4) s (fun t =>
      t.mode = .maintenance ∧ getR t Reg.SYS_MODERES = (withInverse 0 ||| 0x80000000) ∧ isPending t 0 = true ∧
      t.vigil.trunk = s.vigil.trunk ∧ t.vigil.held = s.vigil.held)) ∧
  (∀ s key sig, Quiet s → MayWrite s 4 Reg.SYS_MODEREQ → (s.mode = .maintenance ∨ s.mode = .condemned) →
    s.power.lastGasp = false → s.flash.monitor = false → powerCond s = 0 → bitR s Reg.ENT_STATUS 0 = true →
    Leads (.modereqCommissioning 4 key sig) s (fun t =>
      (orderOk s key sig = false → t = countOrder s key) ∧
      getR64 t Reg.LSU_VERIFIES = getR64 (countOrder s key) Reg.LSU_VERIFIES ∧
      (orderOk s key sig = true → t.mode = .commissioning ∧
        getR t Reg.SYS_MODERES = (withInverse 0 ||| 0x80000000) ∧ t.vigil = s.vigil))) ∧
  (∀ s, Quiet s → MayWrite s 4 Reg.SYS_MODEREQ → (s.mode = .maintenance ∨ s.mode = .commissioning) → s.power.lastGasp = false →
    s.flash.monitor = false → runningCond s = 0 → Leads (.modereqRunning 4) s (fun t =>
      t.mode = (if s.vigil.held then .caution else .running) ∧ getR t Reg.SYS_MODERES = (withInverse 0 ||| 0x80000000) ∧
      t.su.open_ ≠ none)) ∧
  (∀ s m c key sig, Quiet s → MayWrite s m Reg.SYS_MODEREQ → m ≠ 4 →
    c ∈ [Instr.modereqMaintenance m, .modereqCommissioning m key sig, .modereqRunning m] → Leads c s (fun t =>
      getR t Reg.SYS_MODERES = (withInverse 0x0A ||| place 16 4 1 ||| 0x80000000) ∧
      OnlyRegs s t [Reg.SYS_MODERES] [2])) ∧
  (∀ s, Quiet s → MayWrite s 4 Reg.SYS_MODEREQ → (s.mode = .maintenance ∨ s.mode = .commissioning) → s.power.lastGasp = false →
    s.flash.monitor = false → s.vigil.trunk ≠ .valid → Leads (.modereqRunning 4) s (fun t =>
      getR t Reg.SYS_MODERES = (withInverse 0x0A ||| place 16 4 5 ||| 0x80000000) ∧
      OnlyRegs s t [Reg.SYS_MODERES] [2]))

/-- SYS_NONCE_READ (R518), IMAGE_COMMIT (R538), DEADMAN_KICK, DEADMAN_PREWARN, DEADMAN_EXPIRY (R540). Model choices in it:
log entries 65, 85. -/
def Obligations.DeadmanAndImages : Prop :=
  (∀ s m, Quiet s → MayRead s m Reg.SYS_NONCE → entReady s = true → Leads (.sysNonceRead m) s (fun t =>
    (∀ k, k < 8 → getR t (Reg.SYS_NONCE + 4 * k) = BitVec.ofNat 32 (num (drawBytes s 32) (4 * k) 4)) ∧
    t.ports.readData = BitVec.ofNat 64 (num (drawBytes s 32) 0 4) ∧ t.ent.pool = s.ent.pool.drop 32 ∧
    SameRegs s t ((List.range 8).map (fun k => Reg.SYS_NONCE + 4 * k)))) ∧
  (∀ s, Quiet s → MayWrite s 4 Reg.DMN_BOOT → s.coresRun = true → s.flash.monitor = false → s.flash.deadDies = 0 →
    slotState (bootRec s) s.flash.running = 3 → sstCount s 18 < 100000 → Leads (.imageCommit 4) s (fun t =>
      let r := { markSlot (bootRec s) s.flash.running 4 (slotVersion (bootRec s) s.flash.running) with
        active := s.flash.running, seq := (bootRec s).seq + 1 }
      (t.flash.bootRec0 = recBytes r ∨ t.flash.bootRec1 = recBytes r) ∧
      versionFloor t = max (versionFloor s) (imgMinVersion (imgHeader s s.flash.running)) ∧ isPending t 38 = true ∧
      t.flash = { s.flash with bootRec0 := t.flash.bootRec0, bootRec1 := t.flash.bootRec1 })) ∧
  (∀ s m (n : BitVec 2), Quiet s → MayWrite s m (Reg.DMN_KICK n.toNat) → (m.toNat = 3 + 4 * n.toNat ∨ m.toNat = 4 + 4 * n.toNat) →
    deadmanOn s n.toNat = true → (coreAt s n.toNat).stopped = false → (deadmanAt s n.toNat).armed = false → Leads (.deadmanKick m n 0x5A5A) s (fun t =>
      deadmanAt t n.toNat = { deadmanAt s n.toNat with armed := true } ∧
      (∀ k, k ≠ n.toNat → deadmanAt t k = deadmanAt s k) ∧ t = { s with deadmen := t.deadmen })) ∧
  (∀ s m (n : BitVec 2), Quiet s → MayWrite s m (Reg.DMN_KICK n.toNat) → (m.toNat = 3 + 4 * n.toNat ∨ m.toNat = 4 + 4 * n.toNat) →
    deadmanOn s n.toNat = true → (coreAt s n.toNat).stopped = false → (deadmanAt s n.toNat).armed = true → Leads (.deadmanKick m n 0xA5A5) s (fun t =>
      deadmanAt t n.toNat = { left := fieldR s (Reg.DMN_CTRL n.toNat) 0 16, armed := false } ∧
      (∀ k, k ≠ n.toNat → deadmanAt t k = deadmanAt s k) ∧ t = { s with deadmen := t.deadmen })) ∧
  (∀ s m (n : BitVec 2) v, Quiet s → MayWrite s m (Reg.DMN_KICK n.toNat) →
    (m.toNat = 3 + 4 * n.toNat ∨ m.toNat = 4 + 4 * n.toNat) → deadmanOn s n.toNat = true → (coreAt s n.toNat).stopped = false →
    s.power.lastGasp = false → resetFault s = false →
    v ≠ 0x5A5A → v ≠ 0xA5A5 → Leads (.deadmanKick m n v) s (fun t =>
      t.mode = .shed ∧ fieldR t Reg.DMN_CAUSE 0 8 = 2 ^ (2 + n.toNat) ∧ t.coresRun = false ∧ t.mem = [])) ∧
  (∀ s m (n : BitVec 2) v, Quiet s → MayWrite s m (Reg.DMN_KICK n.toNat) → (coreAt s n.toNat).stopped = true →
    Leads (.deadmanKick m n v) s (fun t => t = s)) ∧
  (∀ s (n : BitVec 2), mainPower s = true → deadmanOn s n.toNat = true → prewarnPart s n.toNat ≠ 0 →
    (deadmanAt s n.toNat).left * prewarnPart s n.toNat ≤ fieldR s (Reg.DMN_CTRL n.toNat) 0 16 →
    Leads (.deadmanPrewarn n) s (fun t => OnlyRegs s t [] [33 + n.toNat])) ∧
  (∀ s (n : BitVec 2), Quiet s → mainPower s = true → deadmanOn s n.toNat = true → (deadmanAt s n.toNat).left = 0 →
    s.power.lastGasp = false → resetFault s = false → Leads (.deadmanExpiry n) s (fun t =>
      t.mode = .shed ∧ fieldR t Reg.DMN_CAUSE 0 8 = 2 ^ (2 + n.toNat) ∧ t.coresRun = false ∧ t.mem = [] ∧
      t.vigil.boots = s.vigil.boots + 1))

/-- Hold-up, and power that comes and goes. Model choices in it: log entries 8, 80, 82, 88, 138, 159, 160. -/
def Obligations.HoldUpAndPowerLoss : Prop := Sys2Proof.Claims.HoldUp ∧ Sys2Proof.Claims.PowerComesAndGoes

/-! ### The whole device -/

/-- One step runs the command at the front of the queue with the queue's rest; on an empty queue one tick of the clock
passes, which changes the TTC, the vigil count, the Fence and the Deadman timers only, while no damage forces a level on a
wire; at a step of the Fence a pair with a wire at a wrong level trips the source that covers it (R180 to R182, R438, R441;
log entries 1 and 152). Model choices in it: log entry 173. -/
def Obligations.StepRunsFront : Prop :=
  (∀ s c rest, s.pending = c :: rest → step s = exec c { s with pending := rest }) ∧
  (∀ s, s.pending = [] → step s = .next (idleTick s)) ∧
  (∀ s, mainPower s = true → s.vigil.forced = [] → (idleTick s).ttc = s.ttc + 1 ∧
    idleTick s = { s with ttc := s.ttc + 1, vigil := { s.vigil with count := (idleTick s).vigil.count,
                                                                    fence := (idleTick s).vigil.fence },
                          deadmen := (idleTick s).deadmen } ∧
    (idleTick s).vigil.fence = (if (s.ttc.toNat + 1) % 10 = 0 then s.vigil.fence.map fenceNext else s.vigil.fence)) ∧
  (∀ s p, mainPower s = true → (s.ttc.toNat + 1) % 10 = 0 → s.vigil.testing = none → s.vigil.active.getLsbD (p / 2) = false →
    p ∈ fenceWrong { s with vigil := { s.vigil with fence := s.vigil.fence.map fenceNext } } →
    (idleTick s).vigil.sticky.getLsbD (p / 2) = true) ∧
  (∀ s, s.mode = .stabled → s.vigil.forced = [] → idleTick s = { s with vigil := { s.vigil with
    count := s.vigil.count + 1,
    fence := if (s.vigil.count + 1).toNat % 512 = 0 then s.vigil.fence.map fenceNext else s.vigil.fence } }) ∧
  (∀ s, s.mode = .dark → idleTick s = s)

/-- Every command completes in every state, and none touches the queue of commands that wait. Model choices in it: log entry
2. -/
def Obligations.EveryCommandCompletes : Prop :=
  ∀ c s, ∃ t, exec c s = .next t ∧ t.pending = s.pending ∧ t.fusesOk = s.fusesOk

/-- Memory keeps its canonical form in every step. Model choices in it: log entry 126. -/
def Obligations.MemoryFormKept : Prop :=
  ∀ s t, Memory.wf s.mem = true → step s = .next t → Memory.wf t.mem = true

/-- In every step the register file of each core world keeps what R360 says of it: w0 reads 0, p0 reads 1, PC and VBASE are
word addresses, the return stack holds at most 24 entries. -/
def Obligations.RegisterFileKept : Prop :=
  ∀ s t, CoresOk s → step s = .next t → CoresOk t

/-- Between two commands nothing is left due: no Lineside trip, no track's fence, no export of the maintenance path whose turn
has come, no work after a rise of the export mark; a device in Running or Caution has an unfenced track (R175, R178, R282, R443).
Every step keeps it so. -/
def Obligations.QuietKept : Prop :=
  ∀ s t, Quiet s → step s = .next t → Quiet t

/-- While main power stays, no step sets the TTC back (R180, R184): it holds, it advances, or a completed TTC_ADVANCE sets it
forward. The last value of the counter, from which a tick wraps, is left out. Model choices in it: log entry 1. -/
def Obligations.TtcNeverSetBack : Prop :=
  ∀ s t, mainPower s = true → mainPower t = true → s.ttc ≠ BitVec.allOnes 64 → step s = .next t → s.ttc.toNat ≤ t.ttc.toNat

/-- While its cell holds no seal mismatch, HELD clears in no step but the release of Caution, with all of its conditions met,
and the loss of vigil power (R443, R449, R456). Model choices in it: log entry 159. -/
def Obligations.HeldUntilReleased : Prop :=
  ∀ s t, s.vigil.held = true → privateBad s .held = false → step s = .next t → t.vigil.held = true ∨ t.mode = .dark ∨ commitReason s = 0

/-- The device right after reset, as the spec gives it: Shed, the cores held, worlds as R361 and R392 have them, memory empty
(R525 to R527); the form of memory and of the register file hold there, and no trip is due. Model choices in it: log entries
4, 5, 155. -/
def Obligations.ResetState : Prop :=
  State.reset.mode = .shed ∧ State.reset.pending = [] ∧ State.reset.coresRun = false ∧ State.reset.mem = [] ∧
  Memory.wf State.reset.mem = true ∧ CoresOk State.reset ∧ Quiet State.reset ∧ State.reset.routes = Route.resetTable ∧
  State.reset.evtPend = 0 ∧ sessionLevel State.reset = 0 ∧ releaseState State.reset = 0 ∧
  (∀ n, n < 4 → curSig State.reset n = true ∧ (curWorld State.reset n).level = true ∧
    (curWorld State.reset n).w = Vector.replicate 32 0 ∧ (curWorld State.reset n).rstack = [] ∧
    (coreAt State.reset n).wake = 0 ∧ (coreAt State.reset n).plat.level = false ∧
    statusWord n true (coreAt State.reset n).sig = BitVec.ofNat 32 (3 + 0x100 * n)) ∧
  (∀ l, ctx? State.reset l = none) ∧ inFlight State.reset = 0

/-- Internal memory (R8, R20, R25): bytes written read back, every other byte stays, and the canonical form is kept; a cell
covered whole gets a fresh seal. Model choices in it: log entry 126. -/
def Obligations.MemoryLaws : Prop :=
  (∀ s a b, memBytes (memWrite s a b) a b.length = b) ∧
  (∀ s a b x, (x < a ∨ a + b.length ≤ x) → memByte (memWrite s a b) x = memByte s x) ∧
  (∀ s a b, Memory.wf s.mem = true → Memory.wf (memWrite s a b).mem = true) ∧
  (∀ s a b k, k ∈ (memWrite s a b).badCells ↔ k ∈ s.badCells ∧ ¬(a ≤ 8 * k ∧ 8 * k + 8 ≤ a + List.length b)) ∧
  (∀ m m' : List Host.Cell, Memory.wf m = true → Memory.wf m' = true → (∀ x, mget (0 : Byte) m x = mget 0 m' x) → m = m')

/-- Raising a source (R548, R550, R551, R571): its pending bit, one trace entry with the TTC, and for a route to the host one
message, or the vector's pending bit while it is masked or the link is down. -/
def Obligations.EventRaise : Prop :=
  (∀ s n k, k < 1024 → n < 1024 → isPending (raise s n) k = (isPending s k || decide (k = n))) ∧
  (∀ s n, (raise s n).trace = ((n, s.ttc) :: s.trace).take 256) ∧
  (∀ s n, (∀ v, destOf (evtRoute s n) ≠ .host v) → (raise s n).hlk = s.hlk ∧ (raise s n).ports = s.ports) ∧
  (∀ s n v, destOf (evtRoute s n) = .host v → s.hlk.up = true → s.hlk.mask.getLsbD v.toNat = false →
    (raise s n).ports.hostOut = s.ports.hostOut ++ [.msix v] ∧ (raise s n).hlk = s.hlk) ∧
  (∀ s n v, destOf (evtRoute s n) = .host v → (s.hlk.up = false ∨ s.hlk.mask.getLsbD v.toNat = true) →
    (raise s n).ports = s.ports ∧ (raise s n).hlk = { s.hlk with pend := s.hlk.pend ||| (1#2048 <<< v.toNat) }) ∧
  (∀ s n, raise s n = withEvents { s with hlk := { s.hlk with pend := (raise s n).hlk.pend } } (raise s n))
end

