-- ==== Sys2Proof/Laws/State.lean ====
section
/-! SUPPORT. What each update of the state leaves alone, field by field. -/

namespace Sys2Proof.Machine

/-! ### setR -/

@[simp] theorem setR_pending (s : State) (a : Nat) (v : Word) : (setR s a v).pending = s.pending := rfl
@[simp] theorem setR_mode (s : State) (a : Nat) (v : Word) : (setR s a v).mode = s.mode := rfl
@[simp] theorem setR_prevMode (s : State) (a : Nat) (v : Word) : (setR s a v).prevMode = s.prevMode := rfl
@[simp] theorem setR_awaiting (s : State) (a : Nat) (v : Word) : (setR s a v).awaiting = s.awaiting := rfl
@[simp] theorem setR_booted (s : State) (a : Nat) (v : Word) : (setR s a v).booted = s.booted := rfl
@[simp] theorem setR_ttc (s : State) (a : Nat) (v : Word) : (setR s a v).ttc = s.ttc := rfl
@[simp] theorem setR_latch (s : State) (a : Nat) (v : Word) : (setR s a v).latch = s.latch := rfl
@[simp] theorem setR_lowHeld (s : State) (a : Nat) (v : Word) : (setR s a v).lowHeld = s.lowHeld := rfl
@[simp] theorem setR_mem (s : State) (a : Nat) (v : Word) : (setR s a v).mem = s.mem := rfl
@[simp] theorem setR_badCells (s : State) (a : Nat) (v : Word) : (setR s a v).badCells = s.badCells := rfl
@[simp] theorem setR_badPrivate (s : State) (a : Nat) (v : Word) : (setR s a v).badPrivate = s.badPrivate := rfl
@[simp] theorem setR_ports (s : State) (a : Nat) (v : Word) : (setR s a v).ports = s.ports := rfl
@[simp] theorem setR_coresRun (s : State) (a : Nat) (v : Word) : (setR s a v).coresRun = s.coresRun := rfl
@[simp] theorem setR_cores (s : State) (a : Nat) (v : Word) : (setR s a v).cores = s.cores := rfl
@[simp] theorem setR_hlk (s : State) (a : Nat) (v : Word) : (setR s a v).hlk = s.hlk := rfl
@[simp] theorem setR_lne (s : State) (a : Nat) (v : Word) : (setR s a v).lne = s.lne := rfl
@[simp] theorem setR_tracks (s : State) (a : Nat) (v : Word) : (setR s a v).tracks = s.tracks := rfl
@[simp] theorem setR_keyCache (s : State) (a : Nat) (v : Word) : (setR s a v).keyCache = s.keyCache := rfl
@[simp] theorem setR_branches (s : State) (a : Nat) (v : Word) : (setR s a v).branches = s.branches := rfl
@[simp] theorem setR_btr (s : State) (a : Nat) (v : Word) : (setR s a v).btr = s.btr := rfl
@[simp] theorem setR_tableBuilt (s : State) (a : Nat) (v : Word) : (setR s a v).tableBuilt = s.tableBuilt := rfl
@[simp] theorem setR_image (s : State) (a : Nat) (v : Word) : (setR s a v).image = s.image := rfl
@[simp] theorem setR_rescueSeed (s : State) (a : Nat) (v : Word) : (setR s a v).rescueSeed = s.rescueSeed := rfl
@[simp] theorem setR_stations (s : State) (a : Nat) (v : Word) : (setR s a v).stations = s.stations := rfl
@[simp] theorem setR_pairings (s : State) (a : Nat) (v : Word) : (setR s a v).pairings = s.pairings := rfl
@[simp] theorem setR_su (s : State) (a : Nat) (v : Word) : (setR s a v).su = s.su := rfl
@[simp] theorem setR_log (s : State) (a : Nat) (v : Word) : (setR s a v).log = s.log := rfl
@[simp] theorem setR_flash (s : State) (a : Nat) (v : Word) : (setR s a v).flash = s.flash := rfl
@[simp] theorem setR_kde (s : State) (a : Nat) (v : Word) : (setR s a v).kde = s.kde := rfl
@[simp] theorem setR_mae (s : State) (a : Nat) (v : Word) : (setR s a v).mae = s.mae := rfl
@[simp] theorem setR_lanes (s : State) (a : Nat) (v : Word) : (setR s a v).lanes = s.lanes := rfl
@[simp] theorem setR_descQueue (s : State) (a : Nat) (v : Word) : (setR s a v).descQueue = s.descQueue := rfl
@[simp] theorem setR_ent (s : State) (a : Nat) (v : Word) : (setR s a v).ent = s.ent := rfl
@[simp] theorem setR_entCtr (s : State) (a : Nat) (v : Word) : (setR s a v).entCtr = s.entCtr := rfl
@[simp] theorem setR_freeCtr (s : State) (a : Nat) (v : Word) : (setR s a v).freeCtr = s.freeCtr := rfl
@[simp] theorem setR_evtPend (s : State) (a : Nat) (v : Word) : (setR s a v).evtPend = s.evtPend := rfl
@[simp] theorem setR_evtRoutes (s : State) (a : Nat) (v : Word) : (setR s a v).evtRoutes = s.evtRoutes := rfl
@[simp] theorem setR_lastRaise (s : State) (a : Nat) (v : Word) : (setR s a v).lastRaise = s.lastRaise := rfl
@[simp] theorem setR_trace (s : State) (a : Nat) (v : Word) : (setR s a v).trace = s.trace := rfl
@[simp] theorem setR_traceWrapped (s : State) (a : Nat) (v : Word) : (setR s a v).traceWrapped = s.traceWrapped := rfl
@[simp] theorem setR_traceHead (s : State) (a : Nat) (v : Word) : (setR s a v).traceHead = s.traceHead := rfl
@[simp] theorem setR_routes (s : State) (a : Nat) (v : Word) : (setR s a v).routes = s.routes := rfl
@[simp] theorem setR_badRoutes (s : State) (a : Nat) (v : Word) : (setR s a v).badRoutes = s.badRoutes := rfl
@[simp] theorem setR_shadowBad (s : State) (a : Nat) (v : Word) : (setR s a v).shadowBad = s.shadowBad := rfl
@[simp] theorem setR_shadows (s : State) (a : Nat) (v : Word) : (setR s a v).shadows = s.shadows := rfl
@[simp] theorem setR_sealFaults (s : State) (a : Nat) (v : Word) : (setR s a v).sealFaults = s.sealFaults := rfl
@[simp] theorem setR_sealOver (s : State) (a : Nat) (v : Word) : (setR s a v).sealOver = s.sealOver := rfl
@[simp] theorem setR_tripsDue (s : State) (a : Nat) (v : Word) : (setR s a v).tripsDue = s.tripsDue := rfl
@[simp] theorem setR_mailboxes (s : State) (a : Nat) (v : Word) : (setR s a v).mailboxes = s.mailboxes := rfl
@[simp] theorem setR_tablets (s : State) (a : Nat) (v : Word) : (setR s a v).tablets = s.tablets := rfl
@[simp] theorem setR_dbg (s : State) (a : Nat) (v : Word) : (setR s a v).dbg = s.dbg := rfl
@[simp] theorem setR_sst (s : State) (a : Nat) (v : Word) : (setR s a v).sst = s.sst := rfl
@[simp] theorem setR_sstWear (s : State) (a : Nat) (v : Word) : (setR s a v).sstWear = s.sstWear := rfl
@[simp] theorem setR_vigil (s : State) (a : Nat) (v : Word) : (setR s a v).vigil = s.vigil := rfl
@[simp] theorem setR_card (s : State) (a : Nat) (v : Word) : (setR s a v).card = s.card := rfl
@[simp] theorem setR_cardPresent (s : State) (a : Nat) (v : Word) : (setR s a v).cardPresent = s.cardPresent := rfl
@[simp] theorem setR_lko (s : State) (a : Nat) (v : Word) : (setR s a v).lko = s.lko := rfl
@[simp] theorem setR_tail (s : State) (a : Nat) (v : Word) : (setR s a v).tail = s.tail := rfl
@[simp] theorem setR_power (s : State) (a : Nat) (v : Word) : (setR s a v).power = s.power := rfl
@[simp] theorem setR_deadmen (s : State) (a : Nat) (v : Word) : (setR s a v).deadmen = s.deadmen := rfl
@[simp] theorem setR_lastDeadman (s : State) (a : Nat) (v : Word) : (setR s a v).lastDeadman = s.lastDeadman := rfl
@[simp] theorem setR_worksPlate (s : State) (a : Nat) (v : Word) : (setR s a v).worksPlate = s.worksPlate := rfl
@[simp] theorem setR_kvs (s : State) (a : Nat) (v : Word) : (setR s a v).kvs = s.kvs := rfl
@[simp] theorem setR_fusesOk (s : State) (a : Nat) (v : Word) : (setR s a v).fusesOk = s.fusesOk := rfl

/-! ### memWrite -/

@[simp] theorem memWrite_pending (s : State) (a : Nat) (b : Bytes) : (memWrite s a b).pending = s.pending := rfl
@[simp] theorem memWrite_mode (s : State) (a : Nat) (b : Bytes) : (memWrite s a b).mode = s.mode := rfl
@[simp] theorem memWrite_prevMode (s : State) (a : Nat) (b : Bytes) : (memWrite s a b).prevMode = s.prevMode := rfl
@[simp] theorem memWrite_awaiting (s : State) (a : Nat) (b : Bytes) : (memWrite s a b).awaiting = s.awaiting := rfl
@[simp] theorem memWrite_booted (s : State) (a : Nat) (b : Bytes) : (memWrite s a b).booted = s.booted := rfl
@[simp] theorem memWrite_ttc (s : State) (a : Nat) (b : Bytes) : (memWrite s a b).ttc = s.ttc := rfl
@[simp] theorem memWrite_regs (s : State) (a : Nat) (b : Bytes) : (memWrite s a b).regs = s.regs := rfl
@[simp] theorem memWrite_latch (s : State) (a : Nat) (b : Bytes) : (memWrite s a b).latch = s.latch := rfl
@[simp] theorem memWrite_lowHeld (s : State) (a : Nat) (b : Bytes) : (memWrite s a b).lowHeld = s.lowHeld := rfl
@[simp] theorem memWrite_badPrivate (s : State) (a : Nat) (b : Bytes) : (memWrite s a b).badPrivate = s.badPrivate := rfl
@[simp] theorem memWrite_ports (s : State) (a : Nat) (b : Bytes) : (memWrite s a b).ports = s.ports := rfl
@[simp] theorem memWrite_coresRun (s : State) (a : Nat) (b : Bytes) : (memWrite s a b).coresRun = s.coresRun := rfl
@[simp] theorem memWrite_cores (s : State) (a : Nat) (b : Bytes) : (memWrite s a b).cores = s.cores := rfl
@[simp] theorem memWrite_hlk (s : State) (a : Nat) (b : Bytes) : (memWrite s a b).hlk = s.hlk := rfl
@[simp] theorem memWrite_lne (s : State) (a : Nat) (b : Bytes) : (memWrite s a b).lne = s.lne := rfl
@[simp] theorem memWrite_tracks (s : State) (a : Nat) (b : Bytes) : (memWrite s a b).tracks = s.tracks := rfl
@[simp] theorem memWrite_keyCache (s : State) (a : Nat) (b : Bytes) : (memWrite s a b).keyCache = s.keyCache := rfl
@[simp] theorem memWrite_branches (s : State) (a : Nat) (b : Bytes) : (memWrite s a b).branches = s.branches := rfl
@[simp] theorem memWrite_btr (s : State) (a : Nat) (b : Bytes) : (memWrite s a b).btr = s.btr := rfl
@[simp] theorem memWrite_tableBuilt (s : State) (a : Nat) (b : Bytes) : (memWrite s a b).tableBuilt = s.tableBuilt := rfl
@[simp] theorem memWrite_image (s : State) (a : Nat) (b : Bytes) : (memWrite s a b).image = s.image := rfl
@[simp] theorem memWrite_rescueSeed (s : State) (a : Nat) (b : Bytes) : (memWrite s a b).rescueSeed = s.rescueSeed := rfl
@[simp] theorem memWrite_stations (s : State) (a : Nat) (b : Bytes) : (memWrite s a b).stations = s.stations := rfl
@[simp] theorem memWrite_pairings (s : State) (a : Nat) (b : Bytes) : (memWrite s a b).pairings = s.pairings := rfl
@[simp] theorem memWrite_su (s : State) (a : Nat) (b : Bytes) : (memWrite s a b).su = s.su := rfl
@[simp] theorem memWrite_log (s : State) (a : Nat) (b : Bytes) : (memWrite s a b).log = s.log := rfl
@[simp] theorem memWrite_flash (s : State) (a : Nat) (b : Bytes) : (memWrite s a b).flash = s.flash := rfl
@[simp] theorem memWrite_kde (s : State) (a : Nat) (b : Bytes) : (memWrite s a b).kde = s.kde := rfl
@[simp] theorem memWrite_mae (s : State) (a : Nat) (b : Bytes) : (memWrite s a b).mae = s.mae := rfl
@[simp] theorem memWrite_lanes (s : State) (a : Nat) (b : Bytes) : (memWrite s a b).lanes = s.lanes := rfl
@[simp] theorem memWrite_descQueue (s : State) (a : Nat) (b : Bytes) : (memWrite s a b).descQueue = s.descQueue := rfl
@[simp] theorem memWrite_ent (s : State) (a : Nat) (b : Bytes) : (memWrite s a b).ent = s.ent := rfl
@[simp] theorem memWrite_entCtr (s : State) (a : Nat) (b : Bytes) : (memWrite s a b).entCtr = s.entCtr := rfl
@[simp] theorem memWrite_freeCtr (s : State) (a : Nat) (b : Bytes) : (memWrite s a b).freeCtr = s.freeCtr := rfl
@[simp] theorem memWrite_evtPend (s : State) (a : Nat) (b : Bytes) : (memWrite s a b).evtPend = s.evtPend := rfl
@[simp] theorem memWrite_evtRoutes (s : State) (a : Nat) (b : Bytes) : (memWrite s a b).evtRoutes = s.evtRoutes := rfl
@[simp] theorem memWrite_lastRaise (s : State) (a : Nat) (b : Bytes) : (memWrite s a b).lastRaise = s.lastRaise := rfl
@[simp] theorem memWrite_trace (s : State) (a : Nat) (b : Bytes) : (memWrite s a b).trace = s.trace := rfl
@[simp] theorem memWrite_traceWrapped (s : State) (a : Nat) (b : Bytes) : (memWrite s a b).traceWrapped = s.traceWrapped := rfl
@[simp] theorem memWrite_traceHead (s : State) (a : Nat) (b : Bytes) : (memWrite s a b).traceHead = s.traceHead := rfl
@[simp] theorem memWrite_routes (s : State) (a : Nat) (b : Bytes) : (memWrite s a b).routes = s.routes := rfl
@[simp] theorem memWrite_badRoutes (s : State) (a : Nat) (b : Bytes) : (memWrite s a b).badRoutes = s.badRoutes := rfl
@[simp] theorem memWrite_shadowBad (s : State) (a : Nat) (b : Bytes) : (memWrite s a b).shadowBad = s.shadowBad := rfl
@[simp] theorem memWrite_shadows (s : State) (a : Nat) (b : Bytes) : (memWrite s a b).shadows = s.shadows := rfl
@[simp] theorem memWrite_sealFaults (s : State) (a : Nat) (b : Bytes) : (memWrite s a b).sealFaults = s.sealFaults := rfl
@[simp] theorem memWrite_sealOver (s : State) (a : Nat) (b : Bytes) : (memWrite s a b).sealOver = s.sealOver := rfl
@[simp] theorem memWrite_tripsDue (s : State) (a : Nat) (b : Bytes) : (memWrite s a b).tripsDue = s.tripsDue := rfl
@[simp] theorem memWrite_mailboxes (s : State) (a : Nat) (b : Bytes) : (memWrite s a b).mailboxes = s.mailboxes := rfl
@[simp] theorem memWrite_tablets (s : State) (a : Nat) (b : Bytes) : (memWrite s a b).tablets = s.tablets := rfl
@[simp] theorem memWrite_dbg (s : State) (a : Nat) (b : Bytes) : (memWrite s a b).dbg = s.dbg := rfl
@[simp] theorem memWrite_sst (s : State) (a : Nat) (b : Bytes) : (memWrite s a b).sst = s.sst := rfl
@[simp] theorem memWrite_sstWear (s : State) (a : Nat) (b : Bytes) : (memWrite s a b).sstWear = s.sstWear := rfl
@[simp] theorem memWrite_vigil (s : State) (a : Nat) (b : Bytes) : (memWrite s a b).vigil = s.vigil := rfl
@[simp] theorem memWrite_card (s : State) (a : Nat) (b : Bytes) : (memWrite s a b).card = s.card := rfl
@[simp] theorem memWrite_cardPresent (s : State) (a : Nat) (b : Bytes) : (memWrite s a b).cardPresent = s.cardPresent := rfl
@[simp] theorem memWrite_lko (s : State) (a : Nat) (b : Bytes) : (memWrite s a b).lko = s.lko := rfl
@[simp] theorem memWrite_tail (s : State) (a : Nat) (b : Bytes) : (memWrite s a b).tail = s.tail := rfl
@[simp] theorem memWrite_power (s : State) (a : Nat) (b : Bytes) : (memWrite s a b).power = s.power := rfl
@[simp] theorem memWrite_deadmen (s : State) (a : Nat) (b : Bytes) : (memWrite s a b).deadmen = s.deadmen := rfl
@[simp] theorem memWrite_lastDeadman (s : State) (a : Nat) (b : Bytes) : (memWrite s a b).lastDeadman = s.lastDeadman := rfl
@[simp] theorem memWrite_worksPlate (s : State) (a : Nat) (b : Bytes) : (memWrite s a b).worksPlate = s.worksPlate := rfl
@[simp] theorem memWrite_kvs (s : State) (a : Nat) (b : Bytes) : (memWrite s a b).kvs = s.kvs := rfl
@[simp] theorem memWrite_fusesOk (s : State) (a : Nat) (b : Bytes) : (memWrite s a b).fusesOk = s.fusesOk := rfl

/-! ### tailDue -/

@[simp] theorem tailDue_pending (s : State) : (tailDue s).pending = s.pending := rfl
@[simp] theorem tailDue_mode (s : State) : (tailDue s).mode = s.mode := rfl
@[simp] theorem tailDue_prevMode (s : State) : (tailDue s).prevMode = s.prevMode := rfl
@[simp] theorem tailDue_awaiting (s : State) : (tailDue s).awaiting = s.awaiting := rfl
@[simp] theorem tailDue_booted (s : State) : (tailDue s).booted = s.booted := rfl
@[simp] theorem tailDue_ttc (s : State) : (tailDue s).ttc = s.ttc := rfl
@[simp] theorem tailDue_regs (s : State) : (tailDue s).regs = s.regs := rfl
@[simp] theorem tailDue_latch (s : State) : (tailDue s).latch = s.latch := rfl
@[simp] theorem tailDue_lowHeld (s : State) : (tailDue s).lowHeld = s.lowHeld := rfl
@[simp] theorem tailDue_mem (s : State) : (tailDue s).mem = s.mem := rfl
@[simp] theorem tailDue_badCells (s : State) : (tailDue s).badCells = s.badCells := rfl
@[simp] theorem tailDue_badPrivate (s : State) : (tailDue s).badPrivate = s.badPrivate := rfl
@[simp] theorem tailDue_ports (s : State) : (tailDue s).ports = s.ports := rfl
@[simp] theorem tailDue_coresRun (s : State) : (tailDue s).coresRun = s.coresRun := rfl
@[simp] theorem tailDue_cores (s : State) : (tailDue s).cores = s.cores := rfl
@[simp] theorem tailDue_hlk (s : State) : (tailDue s).hlk = s.hlk := rfl
@[simp] theorem tailDue_lne (s : State) : (tailDue s).lne = s.lne := rfl
@[simp] theorem tailDue_tracks (s : State) : (tailDue s).tracks = s.tracks := rfl
@[simp] theorem tailDue_keyCache (s : State) : (tailDue s).keyCache = s.keyCache := rfl
@[simp] theorem tailDue_branches (s : State) : (tailDue s).branches = s.branches := rfl
@[simp] theorem tailDue_btr (s : State) : (tailDue s).btr = s.btr := rfl
@[simp] theorem tailDue_tableBuilt (s : State) : (tailDue s).tableBuilt = s.tableBuilt := rfl
@[simp] theorem tailDue_image (s : State) : (tailDue s).image = s.image := rfl
@[simp] theorem tailDue_rescueSeed (s : State) : (tailDue s).rescueSeed = s.rescueSeed := rfl
@[simp] theorem tailDue_stations (s : State) : (tailDue s).stations = s.stations := rfl
@[simp] theorem tailDue_pairings (s : State) : (tailDue s).pairings = s.pairings := rfl
@[simp] theorem tailDue_su (s : State) : (tailDue s).su = s.su := rfl
@[simp] theorem tailDue_log (s : State) : (tailDue s).log = s.log := rfl
@[simp] theorem tailDue_flash (s : State) : (tailDue s).flash = s.flash := rfl
@[simp] theorem tailDue_kde (s : State) : (tailDue s).kde = s.kde := rfl
@[simp] theorem tailDue_mae (s : State) : (tailDue s).mae = s.mae := rfl
@[simp] theorem tailDue_lanes (s : State) : (tailDue s).lanes = s.lanes := rfl
@[simp] theorem tailDue_descQueue (s : State) : (tailDue s).descQueue = s.descQueue := rfl
@[simp] theorem tailDue_ent (s : State) : (tailDue s).ent = s.ent := rfl
@[simp] theorem tailDue_entCtr (s : State) : (tailDue s).entCtr = s.entCtr := rfl
@[simp] theorem tailDue_freeCtr (s : State) : (tailDue s).freeCtr = s.freeCtr := rfl
@[simp] theorem tailDue_evtPend (s : State) : (tailDue s).evtPend = s.evtPend := rfl
@[simp] theorem tailDue_evtRoutes (s : State) : (tailDue s).evtRoutes = s.evtRoutes := rfl
@[simp] theorem tailDue_lastRaise (s : State) : (tailDue s).lastRaise = s.lastRaise := rfl
@[simp] theorem tailDue_trace (s : State) : (tailDue s).trace = s.trace := rfl
@[simp] theorem tailDue_traceWrapped (s : State) : (tailDue s).traceWrapped = s.traceWrapped := rfl
@[simp] theorem tailDue_traceHead (s : State) : (tailDue s).traceHead = s.traceHead := rfl
@[simp] theorem tailDue_routes (s : State) : (tailDue s).routes = s.routes := rfl
@[simp] theorem tailDue_badRoutes (s : State) : (tailDue s).badRoutes = s.badRoutes := rfl
@[simp] theorem tailDue_shadowBad (s : State) : (tailDue s).shadowBad = s.shadowBad := rfl
@[simp] theorem tailDue_shadows (s : State) : (tailDue s).shadows = s.shadows := rfl
@[simp] theorem tailDue_sealFaults (s : State) : (tailDue s).sealFaults = s.sealFaults := rfl
@[simp] theorem tailDue_sealOver (s : State) : (tailDue s).sealOver = s.sealOver := rfl
@[simp] theorem tailDue_tripsDue (s : State) : (tailDue s).tripsDue = s.tripsDue := rfl
@[simp] theorem tailDue_mailboxes (s : State) : (tailDue s).mailboxes = s.mailboxes := rfl
@[simp] theorem tailDue_tablets (s : State) : (tailDue s).tablets = s.tablets := rfl
@[simp] theorem tailDue_dbg (s : State) : (tailDue s).dbg = s.dbg := rfl
@[simp] theorem tailDue_sst (s : State) : (tailDue s).sst = s.sst := rfl
@[simp] theorem tailDue_sstWear (s : State) : (tailDue s).sstWear = s.sstWear := rfl
@[simp] theorem tailDue_vigil (s : State) : (tailDue s).vigil = s.vigil := rfl
@[simp] theorem tailDue_card (s : State) : (tailDue s).card = s.card := rfl
@[simp] theorem tailDue_cardPresent (s : State) : (tailDue s).cardPresent = s.cardPresent := rfl
@[simp] theorem tailDue_lko (s : State) : (tailDue s).lko = s.lko := rfl
@[simp] theorem tailDue_power (s : State) : (tailDue s).power = s.power := rfl
@[simp] theorem tailDue_deadmen (s : State) : (tailDue s).deadmen = s.deadmen := rfl
@[simp] theorem tailDue_lastDeadman (s : State) : (tailDue s).lastDeadman = s.lastDeadman := rfl
@[simp] theorem tailDue_worksPlate (s : State) : (tailDue s).worksPlate = s.worksPlate := rfl
@[simp] theorem tailDue_kvs (s : State) : (tailDue s).kvs = s.kvs := rfl
@[simp] theorem tailDue_fusesOk (s : State) : (tailDue s).fusesOk = s.fusesOk := rfl

/-! ### usedFree -/

@[simp] theorem usedFree_pending (s : State) : (usedFree s).pending = s.pending := rfl
@[simp] theorem usedFree_mode (s : State) : (usedFree s).mode = s.mode := rfl
@[simp] theorem usedFree_prevMode (s : State) : (usedFree s).prevMode = s.prevMode := rfl
@[simp] theorem usedFree_awaiting (s : State) : (usedFree s).awaiting = s.awaiting := rfl
@[simp] theorem usedFree_booted (s : State) : (usedFree s).booted = s.booted := rfl
@[simp] theorem usedFree_ttc (s : State) : (usedFree s).ttc = s.ttc := rfl
@[simp] theorem usedFree_regs (s : State) : (usedFree s).regs = s.regs := rfl
@[simp] theorem usedFree_latch (s : State) : (usedFree s).latch = s.latch := rfl
@[simp] theorem usedFree_lowHeld (s : State) : (usedFree s).lowHeld = s.lowHeld := rfl
@[simp] theorem usedFree_mem (s : State) : (usedFree s).mem = s.mem := rfl
@[simp] theorem usedFree_badCells (s : State) : (usedFree s).badCells = s.badCells := rfl
@[simp] theorem usedFree_badPrivate (s : State) : (usedFree s).badPrivate = s.badPrivate := rfl
@[simp] theorem usedFree_ports (s : State) : (usedFree s).ports = s.ports := rfl
@[simp] theorem usedFree_coresRun (s : State) : (usedFree s).coresRun = s.coresRun := rfl
@[simp] theorem usedFree_cores (s : State) : (usedFree s).cores = s.cores := rfl
@[simp] theorem usedFree_hlk (s : State) : (usedFree s).hlk = s.hlk := rfl
@[simp] theorem usedFree_lne (s : State) : (usedFree s).lne = s.lne := rfl
@[simp] theorem usedFree_tracks (s : State) : (usedFree s).tracks = s.tracks := rfl
@[simp] theorem usedFree_keyCache (s : State) : (usedFree s).keyCache = s.keyCache := rfl
@[simp] theorem usedFree_branches (s : State) : (usedFree s).branches = s.branches := rfl
@[simp] theorem usedFree_btr (s : State) : (usedFree s).btr = s.btr := rfl
@[simp] theorem usedFree_tableBuilt (s : State) : (usedFree s).tableBuilt = s.tableBuilt := rfl
@[simp] theorem usedFree_image (s : State) : (usedFree s).image = s.image := rfl
@[simp] theorem usedFree_rescueSeed (s : State) : (usedFree s).rescueSeed = s.rescueSeed := rfl
@[simp] theorem usedFree_stations (s : State) : (usedFree s).stations = s.stations := rfl
@[simp] theorem usedFree_pairings (s : State) : (usedFree s).pairings = s.pairings := rfl
@[simp] theorem usedFree_su (s : State) : (usedFree s).su = s.su := rfl
@[simp] theorem usedFree_log (s : State) : (usedFree s).log = s.log := rfl
@[simp] theorem usedFree_flash (s : State) : (usedFree s).flash = s.flash := rfl
@[simp] theorem usedFree_kde (s : State) : (usedFree s).kde = s.kde := rfl
@[simp] theorem usedFree_mae (s : State) : (usedFree s).mae = s.mae := rfl
@[simp] theorem usedFree_lanes (s : State) : (usedFree s).lanes = s.lanes := rfl
@[simp] theorem usedFree_descQueue (s : State) : (usedFree s).descQueue = s.descQueue := rfl
@[simp] theorem usedFree_ent (s : State) : (usedFree s).ent = s.ent := rfl
@[simp] theorem usedFree_entCtr (s : State) : (usedFree s).entCtr = s.entCtr := rfl
@[simp] theorem usedFree_evtPend (s : State) : (usedFree s).evtPend = s.evtPend := rfl
@[simp] theorem usedFree_evtRoutes (s : State) : (usedFree s).evtRoutes = s.evtRoutes := rfl
@[simp] theorem usedFree_lastRaise (s : State) : (usedFree s).lastRaise = s.lastRaise := rfl
@[simp] theorem usedFree_trace (s : State) : (usedFree s).trace = s.trace := rfl
@[simp] theorem usedFree_traceWrapped (s : State) : (usedFree s).traceWrapped = s.traceWrapped := rfl
@[simp] theorem usedFree_traceHead (s : State) : (usedFree s).traceHead = s.traceHead := rfl
@[simp] theorem usedFree_routes (s : State) : (usedFree s).routes = s.routes := rfl
@[simp] theorem usedFree_badRoutes (s : State) : (usedFree s).badRoutes = s.badRoutes := rfl
@[simp] theorem usedFree_shadowBad (s : State) : (usedFree s).shadowBad = s.shadowBad := rfl
@[simp] theorem usedFree_shadows (s : State) : (usedFree s).shadows = s.shadows := rfl
@[simp] theorem usedFree_sealFaults (s : State) : (usedFree s).sealFaults = s.sealFaults := rfl
@[simp] theorem usedFree_sealOver (s : State) : (usedFree s).sealOver = s.sealOver := rfl
@[simp] theorem usedFree_tripsDue (s : State) : (usedFree s).tripsDue = s.tripsDue := rfl
@[simp] theorem usedFree_mailboxes (s : State) : (usedFree s).mailboxes = s.mailboxes := rfl
@[simp] theorem usedFree_tablets (s : State) : (usedFree s).tablets = s.tablets := rfl
@[simp] theorem usedFree_dbg (s : State) : (usedFree s).dbg = s.dbg := rfl
@[simp] theorem usedFree_sst (s : State) : (usedFree s).sst = s.sst := rfl
@[simp] theorem usedFree_sstWear (s : State) : (usedFree s).sstWear = s.sstWear := rfl
@[simp] theorem usedFree_vigil (s : State) : (usedFree s).vigil = s.vigil := rfl
@[simp] theorem usedFree_card (s : State) : (usedFree s).card = s.card := rfl
@[simp] theorem usedFree_cardPresent (s : State) : (usedFree s).cardPresent = s.cardPresent := rfl
@[simp] theorem usedFree_lko (s : State) : (usedFree s).lko = s.lko := rfl
@[simp] theorem usedFree_tail (s : State) : (usedFree s).tail = s.tail := rfl
@[simp] theorem usedFree_power (s : State) : (usedFree s).power = s.power := rfl
@[simp] theorem usedFree_deadmen (s : State) : (usedFree s).deadmen = s.deadmen := rfl
@[simp] theorem usedFree_lastDeadman (s : State) : (usedFree s).lastDeadman = s.lastDeadman := rfl
@[simp] theorem usedFree_worksPlate (s : State) : (usedFree s).worksPlate = s.worksPlate := rfl
@[simp] theorem usedFree_kvs (s : State) : (usedFree s).kvs = s.kvs := rfl
@[simp] theorem usedFree_fusesOk (s : State) : (usedFree s).fusesOk = s.fusesOk := rfl

/-! ### drawn -/

@[simp] theorem drawn_pending (s : State) (n : Nat) : (drawn s n).pending = s.pending := rfl
@[simp] theorem drawn_mode (s : State) (n : Nat) : (drawn s n).mode = s.mode := rfl
@[simp] theorem drawn_prevMode (s : State) (n : Nat) : (drawn s n).prevMode = s.prevMode := rfl
@[simp] theorem drawn_awaiting (s : State) (n : Nat) : (drawn s n).awaiting = s.awaiting := rfl
@[simp] theorem drawn_booted (s : State) (n : Nat) : (drawn s n).booted = s.booted := rfl
@[simp] theorem drawn_ttc (s : State) (n : Nat) : (drawn s n).ttc = s.ttc := rfl
@[simp] theorem drawn_regs (s : State) (n : Nat) : (drawn s n).regs = s.regs := rfl
@[simp] theorem drawn_latch (s : State) (n : Nat) : (drawn s n).latch = s.latch := rfl
@[simp] theorem drawn_lowHeld (s : State) (n : Nat) : (drawn s n).lowHeld = s.lowHeld := rfl
@[simp] theorem drawn_mem (s : State) (n : Nat) : (drawn s n).mem = s.mem := rfl
@[simp] theorem drawn_badCells (s : State) (n : Nat) : (drawn s n).badCells = s.badCells := rfl
@[simp] theorem drawn_badPrivate (s : State) (n : Nat) : (drawn s n).badPrivate = s.badPrivate := rfl
@[simp] theorem drawn_ports (s : State) (n : Nat) : (drawn s n).ports = s.ports := rfl
@[simp] theorem drawn_coresRun (s : State) (n : Nat) : (drawn s n).coresRun = s.coresRun := rfl
@[simp] theorem drawn_cores (s : State) (n : Nat) : (drawn s n).cores = s.cores := rfl
@[simp] theorem drawn_hlk (s : State) (n : Nat) : (drawn s n).hlk = s.hlk := rfl
@[simp] theorem drawn_lne (s : State) (n : Nat) : (drawn s n).lne = s.lne := rfl
@[simp] theorem drawn_tracks (s : State) (n : Nat) : (drawn s n).tracks = s.tracks := rfl
@[simp] theorem drawn_keyCache (s : State) (n : Nat) : (drawn s n).keyCache = s.keyCache := rfl
@[simp] theorem drawn_branches (s : State) (n : Nat) : (drawn s n).branches = s.branches := rfl
@[simp] theorem drawn_btr (s : State) (n : Nat) : (drawn s n).btr = s.btr := rfl
@[simp] theorem drawn_tableBuilt (s : State) (n : Nat) : (drawn s n).tableBuilt = s.tableBuilt := rfl
@[simp] theorem drawn_image (s : State) (n : Nat) : (drawn s n).image = s.image := rfl
@[simp] theorem drawn_rescueSeed (s : State) (n : Nat) : (drawn s n).rescueSeed = s.rescueSeed := rfl
@[simp] theorem drawn_stations (s : State) (n : Nat) : (drawn s n).stations = s.stations := rfl
@[simp] theorem drawn_pairings (s : State) (n : Nat) : (drawn s n).pairings = s.pairings := rfl
@[simp] theorem drawn_su (s : State) (n : Nat) : (drawn s n).su = s.su := rfl
@[simp] theorem drawn_log (s : State) (n : Nat) : (drawn s n).log = s.log := rfl
@[simp] theorem drawn_flash (s : State) (n : Nat) : (drawn s n).flash = s.flash := rfl
@[simp] theorem drawn_kde (s : State) (n : Nat) : (drawn s n).kde = s.kde := rfl
@[simp] theorem drawn_mae (s : State) (n : Nat) : (drawn s n).mae = s.mae := rfl
@[simp] theorem drawn_lanes (s : State) (n : Nat) : (drawn s n).lanes = s.lanes := rfl
@[simp] theorem drawn_descQueue (s : State) (n : Nat) : (drawn s n).descQueue = s.descQueue := rfl
@[simp] theorem drawn_freeCtr (s : State) (n : Nat) : (drawn s n).freeCtr = s.freeCtr := rfl
@[simp] theorem drawn_evtPend (s : State) (n : Nat) : (drawn s n).evtPend = s.evtPend := rfl
@[simp] theorem drawn_evtRoutes (s : State) (n : Nat) : (drawn s n).evtRoutes = s.evtRoutes := rfl
@[simp] theorem drawn_lastRaise (s : State) (n : Nat) : (drawn s n).lastRaise = s.lastRaise := rfl
@[simp] theorem drawn_trace (s : State) (n : Nat) : (drawn s n).trace = s.trace := rfl
@[simp] theorem drawn_traceWrapped (s : State) (n : Nat) : (drawn s n).traceWrapped = s.traceWrapped := rfl
@[simp] theorem drawn_traceHead (s : State) (n : Nat) : (drawn s n).traceHead = s.traceHead := rfl
@[simp] theorem drawn_routes (s : State) (n : Nat) : (drawn s n).routes = s.routes := rfl
@[simp] theorem drawn_badRoutes (s : State) (n : Nat) : (drawn s n).badRoutes = s.badRoutes := rfl
@[simp] theorem drawn_shadowBad (s : State) (n : Nat) : (drawn s n).shadowBad = s.shadowBad := rfl
@[simp] theorem drawn_shadows (s : State) (n : Nat) : (drawn s n).shadows = s.shadows := rfl
@[simp] theorem drawn_sealFaults (s : State) (n : Nat) : (drawn s n).sealFaults = s.sealFaults := rfl
@[simp] theorem drawn_sealOver (s : State) (n : Nat) : (drawn s n).sealOver = s.sealOver := rfl
@[simp] theorem drawn_tripsDue (s : State) (n : Nat) : (drawn s n).tripsDue = s.tripsDue := rfl
@[simp] theorem drawn_mailboxes (s : State) (n : Nat) : (drawn s n).mailboxes = s.mailboxes := rfl
@[simp] theorem drawn_tablets (s : State) (n : Nat) : (drawn s n).tablets = s.tablets := rfl
@[simp] theorem drawn_dbg (s : State) (n : Nat) : (drawn s n).dbg = s.dbg := rfl
@[simp] theorem drawn_sst (s : State) (n : Nat) : (drawn s n).sst = s.sst := rfl
@[simp] theorem drawn_sstWear (s : State) (n : Nat) : (drawn s n).sstWear = s.sstWear := rfl
@[simp] theorem drawn_vigil (s : State) (n : Nat) : (drawn s n).vigil = s.vigil := rfl
@[simp] theorem drawn_card (s : State) (n : Nat) : (drawn s n).card = s.card := rfl
@[simp] theorem drawn_cardPresent (s : State) (n : Nat) : (drawn s n).cardPresent = s.cardPresent := rfl
@[simp] theorem drawn_lko (s : State) (n : Nat) : (drawn s n).lko = s.lko := rfl
@[simp] theorem drawn_tail (s : State) (n : Nat) : (drawn s n).tail = s.tail := rfl
@[simp] theorem drawn_power (s : State) (n : Nat) : (drawn s n).power = s.power := rfl
@[simp] theorem drawn_deadmen (s : State) (n : Nat) : (drawn s n).deadmen = s.deadmen := rfl
@[simp] theorem drawn_lastDeadman (s : State) (n : Nat) : (drawn s n).lastDeadman = s.lastDeadman := rfl
@[simp] theorem drawn_worksPlate (s : State) (n : Nat) : (drawn s n).worksPlate = s.worksPlate := rfl
@[simp] theorem drawn_kvs (s : State) (n : Nat) : (drawn s n).kvs = s.kvs := rfl
@[simp] theorem drawn_fusesOk (s : State) (n : Nat) : (drawn s n).fusesOk = s.fusesOk := rfl

/-! ### readData -/

@[simp] theorem readData_pending (s : State) (v : DWord) : (readData s v).pending = s.pending := rfl
@[simp] theorem readData_mode (s : State) (v : DWord) : (readData s v).mode = s.mode := rfl
@[simp] theorem readData_prevMode (s : State) (v : DWord) : (readData s v).prevMode = s.prevMode := rfl
@[simp] theorem readData_awaiting (s : State) (v : DWord) : (readData s v).awaiting = s.awaiting := rfl
@[simp] theorem readData_booted (s : State) (v : DWord) : (readData s v).booted = s.booted := rfl
@[simp] theorem readData_ttc (s : State) (v : DWord) : (readData s v).ttc = s.ttc := rfl
@[simp] theorem readData_regs (s : State) (v : DWord) : (readData s v).regs = s.regs := rfl
@[simp] theorem readData_latch (s : State) (v : DWord) : (readData s v).latch = s.latch := rfl
@[simp] theorem readData_lowHeld (s : State) (v : DWord) : (readData s v).lowHeld = s.lowHeld := rfl
@[simp] theorem readData_mem (s : State) (v : DWord) : (readData s v).mem = s.mem := rfl
@[simp] theorem readData_badCells (s : State) (v : DWord) : (readData s v).badCells = s.badCells := rfl
@[simp] theorem readData_badPrivate (s : State) (v : DWord) : (readData s v).badPrivate = s.badPrivate := rfl
@[simp] theorem readData_coresRun (s : State) (v : DWord) : (readData s v).coresRun = s.coresRun := rfl
@[simp] theorem readData_cores (s : State) (v : DWord) : (readData s v).cores = s.cores := rfl
@[simp] theorem readData_hlk (s : State) (v : DWord) : (readData s v).hlk = s.hlk := rfl
@[simp] theorem readData_lne (s : State) (v : DWord) : (readData s v).lne = s.lne := rfl
@[simp] theorem readData_tracks (s : State) (v : DWord) : (readData s v).tracks = s.tracks := rfl
@[simp] theorem readData_keyCache (s : State) (v : DWord) : (readData s v).keyCache = s.keyCache := rfl
@[simp] theorem readData_branches (s : State) (v : DWord) : (readData s v).branches = s.branches := rfl
@[simp] theorem readData_btr (s : State) (v : DWord) : (readData s v).btr = s.btr := rfl
@[simp] theorem readData_tableBuilt (s : State) (v : DWord) : (readData s v).tableBuilt = s.tableBuilt := rfl
@[simp] theorem readData_image (s : State) (v : DWord) : (readData s v).image = s.image := rfl
@[simp] theorem readData_rescueSeed (s : State) (v : DWord) : (readData s v).rescueSeed = s.rescueSeed := rfl
@[simp] theorem readData_stations (s : State) (v : DWord) : (readData s v).stations = s.stations := rfl
@[simp] theorem readData_pairings (s : State) (v : DWord) : (readData s v).pairings = s.pairings := rfl
@[simp] theorem readData_su (s : State) (v : DWord) : (readData s v).su = s.su := rfl
@[simp] theorem readData_log (s : State) (v : DWord) : (readData s v).log = s.log := rfl
@[simp] theorem readData_flash (s : State) (v : DWord) : (readData s v).flash = s.flash := rfl
@[simp] theorem readData_kde (s : State) (v : DWord) : (readData s v).kde = s.kde := rfl
@[simp] theorem readData_mae (s : State) (v : DWord) : (readData s v).mae = s.mae := rfl
@[simp] theorem readData_lanes (s : State) (v : DWord) : (readData s v).lanes = s.lanes := rfl
@[simp] theorem readData_descQueue (s : State) (v : DWord) : (readData s v).descQueue = s.descQueue := rfl
@[simp] theorem readData_ent (s : State) (v : DWord) : (readData s v).ent = s.ent := rfl
@[simp] theorem readData_entCtr (s : State) (v : DWord) : (readData s v).entCtr = s.entCtr := rfl
@[simp] theorem readData_freeCtr (s : State) (v : DWord) : (readData s v).freeCtr = s.freeCtr := rfl
@[simp] theorem readData_evtPend (s : State) (v : DWord) : (readData s v).evtPend = s.evtPend := rfl
@[simp] theorem readData_evtRoutes (s : State) (v : DWord) : (readData s v).evtRoutes = s.evtRoutes := rfl
@[simp] theorem readData_lastRaise (s : State) (v : DWord) : (readData s v).lastRaise = s.lastRaise := rfl
@[simp] theorem readData_trace (s : State) (v : DWord) : (readData s v).trace = s.trace := rfl
@[simp] theorem readData_traceWrapped (s : State) (v : DWord) : (readData s v).traceWrapped = s.traceWrapped := rfl
@[simp] theorem readData_traceHead (s : State) (v : DWord) : (readData s v).traceHead = s.traceHead := rfl
@[simp] theorem readData_routes (s : State) (v : DWord) : (readData s v).routes = s.routes := rfl
@[simp] theorem readData_badRoutes (s : State) (v : DWord) : (readData s v).badRoutes = s.badRoutes := rfl
@[simp] theorem readData_shadowBad (s : State) (v : DWord) : (readData s v).shadowBad = s.shadowBad := rfl
@[simp] theorem readData_shadows (s : State) (v : DWord) : (readData s v).shadows = s.shadows := rfl
@[simp] theorem readData_sealFaults (s : State) (v : DWord) : (readData s v).sealFaults = s.sealFaults := rfl
@[simp] theorem readData_sealOver (s : State) (v : DWord) : (readData s v).sealOver = s.sealOver := rfl
@[simp] theorem readData_tripsDue (s : State) (v : DWord) : (readData s v).tripsDue = s.tripsDue := rfl
@[simp] theorem readData_mailboxes (s : State) (v : DWord) : (readData s v).mailboxes = s.mailboxes := rfl
@[simp] theorem readData_tablets (s : State) (v : DWord) : (readData s v).tablets = s.tablets := rfl
@[simp] theorem readData_dbg (s : State) (v : DWord) : (readData s v).dbg = s.dbg := rfl
@[simp] theorem readData_sst (s : State) (v : DWord) : (readData s v).sst = s.sst := rfl
@[simp] theorem readData_sstWear (s : State) (v : DWord) : (readData s v).sstWear = s.sstWear := rfl
@[simp] theorem readData_vigil (s : State) (v : DWord) : (readData s v).vigil = s.vigil := rfl
@[simp] theorem readData_card (s : State) (v : DWord) : (readData s v).card = s.card := rfl
@[simp] theorem readData_cardPresent (s : State) (v : DWord) : (readData s v).cardPresent = s.cardPresent := rfl
@[simp] theorem readData_lko (s : State) (v : DWord) : (readData s v).lko = s.lko := rfl
@[simp] theorem readData_tail (s : State) (v : DWord) : (readData s v).tail = s.tail := rfl
@[simp] theorem readData_power (s : State) (v : DWord) : (readData s v).power = s.power := rfl
@[simp] theorem readData_deadmen (s : State) (v : DWord) : (readData s v).deadmen = s.deadmen := rfl
@[simp] theorem readData_lastDeadman (s : State) (v : DWord) : (readData s v).lastDeadman = s.lastDeadman := rfl
@[simp] theorem readData_worksPlate (s : State) (v : DWord) : (readData s v).worksPlate = s.worksPlate := rfl
@[simp] theorem readData_kvs (s : State) (v : DWord) : (readData s v).kvs = s.kvs := rfl
@[simp] theorem readData_fusesOk (s : State) (v : DWord) : (readData s v).fusesOk = s.fusesOk := rfl

/-! ### hostWrite -/

@[simp] theorem hostWrite_pending (s : State) (a : DWord) (b : Bytes) : (hostWrite s a b).pending = s.pending := rfl
@[simp] theorem hostWrite_mode (s : State) (a : DWord) (b : Bytes) : (hostWrite s a b).mode = s.mode := rfl
@[simp] theorem hostWrite_prevMode (s : State) (a : DWord) (b : Bytes) : (hostWrite s a b).prevMode = s.prevMode := rfl
@[simp] theorem hostWrite_awaiting (s : State) (a : DWord) (b : Bytes) : (hostWrite s a b).awaiting = s.awaiting := rfl
@[simp] theorem hostWrite_booted (s : State) (a : DWord) (b : Bytes) : (hostWrite s a b).booted = s.booted := rfl
@[simp] theorem hostWrite_ttc (s : State) (a : DWord) (b : Bytes) : (hostWrite s a b).ttc = s.ttc := rfl
@[simp] theorem hostWrite_regs (s : State) (a : DWord) (b : Bytes) : (hostWrite s a b).regs = s.regs := rfl
@[simp] theorem hostWrite_latch (s : State) (a : DWord) (b : Bytes) : (hostWrite s a b).latch = s.latch := rfl
@[simp] theorem hostWrite_lowHeld (s : State) (a : DWord) (b : Bytes) : (hostWrite s a b).lowHeld = s.lowHeld := rfl
@[simp] theorem hostWrite_mem (s : State) (a : DWord) (b : Bytes) : (hostWrite s a b).mem = s.mem := rfl
@[simp] theorem hostWrite_badCells (s : State) (a : DWord) (b : Bytes) : (hostWrite s a b).badCells = s.badCells := rfl
@[simp] theorem hostWrite_badPrivate (s : State) (a : DWord) (b : Bytes) : (hostWrite s a b).badPrivate = s.badPrivate := rfl
@[simp] theorem hostWrite_coresRun (s : State) (a : DWord) (b : Bytes) : (hostWrite s a b).coresRun = s.coresRun := rfl
@[simp] theorem hostWrite_cores (s : State) (a : DWord) (b : Bytes) : (hostWrite s a b).cores = s.cores := rfl
@[simp] theorem hostWrite_hlk (s : State) (a : DWord) (b : Bytes) : (hostWrite s a b).hlk = s.hlk := rfl
@[simp] theorem hostWrite_lne (s : State) (a : DWord) (b : Bytes) : (hostWrite s a b).lne = s.lne := rfl
@[simp] theorem hostWrite_tracks (s : State) (a : DWord) (b : Bytes) : (hostWrite s a b).tracks = s.tracks := rfl
@[simp] theorem hostWrite_keyCache (s : State) (a : DWord) (b : Bytes) : (hostWrite s a b).keyCache = s.keyCache := rfl
@[simp] theorem hostWrite_branches (s : State) (a : DWord) (b : Bytes) : (hostWrite s a b).branches = s.branches := rfl
@[simp] theorem hostWrite_btr (s : State) (a : DWord) (b : Bytes) : (hostWrite s a b).btr = s.btr := rfl
@[simp] theorem hostWrite_tableBuilt (s : State) (a : DWord) (b : Bytes) : (hostWrite s a b).tableBuilt = s.tableBuilt := rfl
@[simp] theorem hostWrite_image (s : State) (a : DWord) (b : Bytes) : (hostWrite s a b).image = s.image := rfl
@[simp] theorem hostWrite_rescueSeed (s : State) (a : DWord) (b : Bytes) : (hostWrite s a b).rescueSeed = s.rescueSeed := rfl
@[simp] theorem hostWrite_stations (s : State) (a : DWord) (b : Bytes) : (hostWrite s a b).stations = s.stations := rfl
@[simp] theorem hostWrite_pairings (s : State) (a : DWord) (b : Bytes) : (hostWrite s a b).pairings = s.pairings := rfl
@[simp] theorem hostWrite_su (s : State) (a : DWord) (b : Bytes) : (hostWrite s a b).su = s.su := rfl
@[simp] theorem hostWrite_log (s : State) (a : DWord) (b : Bytes) : (hostWrite s a b).log = s.log := rfl
@[simp] theorem hostWrite_flash (s : State) (a : DWord) (b : Bytes) : (hostWrite s a b).flash = s.flash := rfl
@[simp] theorem hostWrite_kde (s : State) (a : DWord) (b : Bytes) : (hostWrite s a b).kde = s.kde := rfl
@[simp] theorem hostWrite_mae (s : State) (a : DWord) (b : Bytes) : (hostWrite s a b).mae = s.mae := rfl
@[simp] theorem hostWrite_lanes (s : State) (a : DWord) (b : Bytes) : (hostWrite s a b).lanes = s.lanes := rfl
@[simp] theorem hostWrite_descQueue (s : State) (a : DWord) (b : Bytes) : (hostWrite s a b).descQueue = s.descQueue := rfl
@[simp] theorem hostWrite_ent (s : State) (a : DWord) (b : Bytes) : (hostWrite s a b).ent = s.ent := rfl
@[simp] theorem hostWrite_entCtr (s : State) (a : DWord) (b : Bytes) : (hostWrite s a b).entCtr = s.entCtr := rfl
@[simp] theorem hostWrite_freeCtr (s : State) (a : DWord) (b : Bytes) : (hostWrite s a b).freeCtr = s.freeCtr := rfl
@[simp] theorem hostWrite_evtPend (s : State) (a : DWord) (b : Bytes) : (hostWrite s a b).evtPend = s.evtPend := rfl
@[simp] theorem hostWrite_evtRoutes (s : State) (a : DWord) (b : Bytes) : (hostWrite s a b).evtRoutes = s.evtRoutes := rfl
@[simp] theorem hostWrite_lastRaise (s : State) (a : DWord) (b : Bytes) : (hostWrite s a b).lastRaise = s.lastRaise := rfl
@[simp] theorem hostWrite_trace (s : State) (a : DWord) (b : Bytes) : (hostWrite s a b).trace = s.trace := rfl
@[simp] theorem hostWrite_traceWrapped (s : State) (a : DWord) (b : Bytes) : (hostWrite s a b).traceWrapped = s.traceWrapped := rfl
@[simp] theorem hostWrite_traceHead (s : State) (a : DWord) (b : Bytes) : (hostWrite s a b).traceHead = s.traceHead := rfl
@[simp] theorem hostWrite_routes (s : State) (a : DWord) (b : Bytes) : (hostWrite s a b).routes = s.routes := rfl
@[simp] theorem hostWrite_badRoutes (s : State) (a : DWord) (b : Bytes) : (hostWrite s a b).badRoutes = s.badRoutes := rfl
@[simp] theorem hostWrite_shadowBad (s : State) (a : DWord) (b : Bytes) : (hostWrite s a b).shadowBad = s.shadowBad := rfl
@[simp] theorem hostWrite_shadows (s : State) (a : DWord) (b : Bytes) : (hostWrite s a b).shadows = s.shadows := rfl
@[simp] theorem hostWrite_sealFaults (s : State) (a : DWord) (b : Bytes) : (hostWrite s a b).sealFaults = s.sealFaults := rfl
@[simp] theorem hostWrite_sealOver (s : State) (a : DWord) (b : Bytes) : (hostWrite s a b).sealOver = s.sealOver := rfl
@[simp] theorem hostWrite_tripsDue (s : State) (a : DWord) (b : Bytes) : (hostWrite s a b).tripsDue = s.tripsDue := rfl
@[simp] theorem hostWrite_mailboxes (s : State) (a : DWord) (b : Bytes) : (hostWrite s a b).mailboxes = s.mailboxes := rfl
@[simp] theorem hostWrite_tablets (s : State) (a : DWord) (b : Bytes) : (hostWrite s a b).tablets = s.tablets := rfl
@[simp] theorem hostWrite_dbg (s : State) (a : DWord) (b : Bytes) : (hostWrite s a b).dbg = s.dbg := rfl
@[simp] theorem hostWrite_sst (s : State) (a : DWord) (b : Bytes) : (hostWrite s a b).sst = s.sst := rfl
@[simp] theorem hostWrite_sstWear (s : State) (a : DWord) (b : Bytes) : (hostWrite s a b).sstWear = s.sstWear := rfl
@[simp] theorem hostWrite_vigil (s : State) (a : DWord) (b : Bytes) : (hostWrite s a b).vigil = s.vigil := rfl
@[simp] theorem hostWrite_card (s : State) (a : DWord) (b : Bytes) : (hostWrite s a b).card = s.card := rfl
@[simp] theorem hostWrite_cardPresent (s : State) (a : DWord) (b : Bytes) : (hostWrite s a b).cardPresent = s.cardPresent := rfl
@[simp] theorem hostWrite_lko (s : State) (a : DWord) (b : Bytes) : (hostWrite s a b).lko = s.lko := rfl
@[simp] theorem hostWrite_tail (s : State) (a : DWord) (b : Bytes) : (hostWrite s a b).tail = s.tail := rfl
@[simp] theorem hostWrite_power (s : State) (a : DWord) (b : Bytes) : (hostWrite s a b).power = s.power := rfl
@[simp] theorem hostWrite_deadmen (s : State) (a : DWord) (b : Bytes) : (hostWrite s a b).deadmen = s.deadmen := rfl
@[simp] theorem hostWrite_lastDeadman (s : State) (a : DWord) (b : Bytes) : (hostWrite s a b).lastDeadman = s.lastDeadman := rfl
@[simp] theorem hostWrite_worksPlate (s : State) (a : DWord) (b : Bytes) : (hostWrite s a b).worksPlate = s.worksPlate := rfl
@[simp] theorem hostWrite_kvs (s : State) (a : DWord) (b : Bytes) : (hostWrite s a b).kvs = s.kvs := rfl
@[simp] theorem hostWrite_fusesOk (s : State) (a : DWord) (b : Bytes) : (hostWrite s a b).fusesOk = s.fusesOk := rfl

/-! ### setLine -/

@[simp] theorem setLine_pending (s : State) (l : Nat) (r : Line) : (setLine s l r).pending = s.pending := rfl
@[simp] theorem setLine_mode (s : State) (l : Nat) (r : Line) : (setLine s l r).mode = s.mode := rfl
@[simp] theorem setLine_prevMode (s : State) (l : Nat) (r : Line) : (setLine s l r).prevMode = s.prevMode := rfl
@[simp] theorem setLine_awaiting (s : State) (l : Nat) (r : Line) : (setLine s l r).awaiting = s.awaiting := rfl
@[simp] theorem setLine_booted (s : State) (l : Nat) (r : Line) : (setLine s l r).booted = s.booted := rfl
@[simp] theorem setLine_ttc (s : State) (l : Nat) (r : Line) : (setLine s l r).ttc = s.ttc := rfl
@[simp] theorem setLine_regs (s : State) (l : Nat) (r : Line) : (setLine s l r).regs = s.regs := rfl
@[simp] theorem setLine_latch (s : State) (l : Nat) (r : Line) : (setLine s l r).latch = s.latch := rfl
@[simp] theorem setLine_lowHeld (s : State) (l : Nat) (r : Line) : (setLine s l r).lowHeld = s.lowHeld := rfl
@[simp] theorem setLine_mem (s : State) (l : Nat) (r : Line) : (setLine s l r).mem = s.mem := rfl
@[simp] theorem setLine_badCells (s : State) (l : Nat) (r : Line) : (setLine s l r).badCells = s.badCells := rfl
@[simp] theorem setLine_badPrivate (s : State) (l : Nat) (r : Line) : (setLine s l r).badPrivate = s.badPrivate := rfl
@[simp] theorem setLine_ports (s : State) (l : Nat) (r : Line) : (setLine s l r).ports = s.ports := rfl
@[simp] theorem setLine_coresRun (s : State) (l : Nat) (r : Line) : (setLine s l r).coresRun = s.coresRun := rfl
@[simp] theorem setLine_cores (s : State) (l : Nat) (r : Line) : (setLine s l r).cores = s.cores := rfl
@[simp] theorem setLine_hlk (s : State) (l : Nat) (r : Line) : (setLine s l r).hlk = s.hlk := rfl
@[simp] theorem setLine_tracks (s : State) (l : Nat) (r : Line) : (setLine s l r).tracks = s.tracks := rfl
@[simp] theorem setLine_keyCache (s : State) (l : Nat) (r : Line) : (setLine s l r).keyCache = s.keyCache := rfl
@[simp] theorem setLine_branches (s : State) (l : Nat) (r : Line) : (setLine s l r).branches = s.branches := rfl
@[simp] theorem setLine_btr (s : State) (l : Nat) (r : Line) : (setLine s l r).btr = s.btr := rfl
@[simp] theorem setLine_tableBuilt (s : State) (l : Nat) (r : Line) : (setLine s l r).tableBuilt = s.tableBuilt := rfl
@[simp] theorem setLine_image (s : State) (l : Nat) (r : Line) : (setLine s l r).image = s.image := rfl
@[simp] theorem setLine_rescueSeed (s : State) (l : Nat) (r : Line) : (setLine s l r).rescueSeed = s.rescueSeed := rfl
@[simp] theorem setLine_stations (s : State) (l : Nat) (r : Line) : (setLine s l r).stations = s.stations := rfl
@[simp] theorem setLine_pairings (s : State) (l : Nat) (r : Line) : (setLine s l r).pairings = s.pairings := rfl
@[simp] theorem setLine_su (s : State) (l : Nat) (r : Line) : (setLine s l r).su = s.su := rfl
@[simp] theorem setLine_log (s : State) (l : Nat) (r : Line) : (setLine s l r).log = s.log := rfl
@[simp] theorem setLine_flash (s : State) (l : Nat) (r : Line) : (setLine s l r).flash = s.flash := rfl
@[simp] theorem setLine_kde (s : State) (l : Nat) (r : Line) : (setLine s l r).kde = s.kde := rfl
@[simp] theorem setLine_mae (s : State) (l : Nat) (r : Line) : (setLine s l r).mae = s.mae := rfl
@[simp] theorem setLine_lanes (s : State) (l : Nat) (r : Line) : (setLine s l r).lanes = s.lanes := rfl
@[simp] theorem setLine_descQueue (s : State) (l : Nat) (r : Line) : (setLine s l r).descQueue = s.descQueue := rfl
@[simp] theorem setLine_ent (s : State) (l : Nat) (r : Line) : (setLine s l r).ent = s.ent := rfl
@[simp] theorem setLine_entCtr (s : State) (l : Nat) (r : Line) : (setLine s l r).entCtr = s.entCtr := rfl
@[simp] theorem setLine_freeCtr (s : State) (l : Nat) (r : Line) : (setLine s l r).freeCtr = s.freeCtr := rfl
@[simp] theorem setLine_evtPend (s : State) (l : Nat) (r : Line) : (setLine s l r).evtPend = s.evtPend := rfl
@[simp] theorem setLine_evtRoutes (s : State) (l : Nat) (r : Line) : (setLine s l r).evtRoutes = s.evtRoutes := rfl
@[simp] theorem setLine_lastRaise (s : State) (l : Nat) (r : Line) : (setLine s l r).lastRaise = s.lastRaise := rfl
@[simp] theorem setLine_trace (s : State) (l : Nat) (r : Line) : (setLine s l r).trace = s.trace := rfl
@[simp] theorem setLine_traceWrapped (s : State) (l : Nat) (r : Line) : (setLine s l r).traceWrapped = s.traceWrapped := rfl
@[simp] theorem setLine_traceHead (s : State) (l : Nat) (r : Line) : (setLine s l r).traceHead = s.traceHead := rfl
@[simp] theorem setLine_routes (s : State) (l : Nat) (r : Line) : (setLine s l r).routes = s.routes := rfl
@[simp] theorem setLine_badRoutes (s : State) (l : Nat) (r : Line) : (setLine s l r).badRoutes = s.badRoutes := rfl
@[simp] theorem setLine_shadowBad (s : State) (l : Nat) (r : Line) : (setLine s l r).shadowBad = s.shadowBad := rfl
@[simp] theorem setLine_shadows (s : State) (l : Nat) (r : Line) : (setLine s l r).shadows = s.shadows := rfl
@[simp] theorem setLine_sealFaults (s : State) (l : Nat) (r : Line) : (setLine s l r).sealFaults = s.sealFaults := rfl
@[simp] theorem setLine_sealOver (s : State) (l : Nat) (r : Line) : (setLine s l r).sealOver = s.sealOver := rfl
@[simp] theorem setLine_tripsDue (s : State) (l : Nat) (r : Line) : (setLine s l r).tripsDue = s.tripsDue := rfl
@[simp] theorem setLine_mailboxes (s : State) (l : Nat) (r : Line) : (setLine s l r).mailboxes = s.mailboxes := rfl
@[simp] theorem setLine_tablets (s : State) (l : Nat) (r : Line) : (setLine s l r).tablets = s.tablets := rfl
@[simp] theorem setLine_dbg (s : State) (l : Nat) (r : Line) : (setLine s l r).dbg = s.dbg := rfl
@[simp] theorem setLine_sst (s : State) (l : Nat) (r : Line) : (setLine s l r).sst = s.sst := rfl
@[simp] theorem setLine_sstWear (s : State) (l : Nat) (r : Line) : (setLine s l r).sstWear = s.sstWear := rfl
@[simp] theorem setLine_vigil (s : State) (l : Nat) (r : Line) : (setLine s l r).vigil = s.vigil := rfl
@[simp] theorem setLine_card (s : State) (l : Nat) (r : Line) : (setLine s l r).card = s.card := rfl
@[simp] theorem setLine_cardPresent (s : State) (l : Nat) (r : Line) : (setLine s l r).cardPresent = s.cardPresent := rfl
@[simp] theorem setLine_lko (s : State) (l : Nat) (r : Line) : (setLine s l r).lko = s.lko := rfl
@[simp] theorem setLine_tail (s : State) (l : Nat) (r : Line) : (setLine s l r).tail = s.tail := rfl
@[simp] theorem setLine_power (s : State) (l : Nat) (r : Line) : (setLine s l r).power = s.power := rfl
@[simp] theorem setLine_deadmen (s : State) (l : Nat) (r : Line) : (setLine s l r).deadmen = s.deadmen := rfl
@[simp] theorem setLine_lastDeadman (s : State) (l : Nat) (r : Line) : (setLine s l r).lastDeadman = s.lastDeadman := rfl
@[simp] theorem setLine_worksPlate (s : State) (l : Nat) (r : Line) : (setLine s l r).worksPlate = s.worksPlate := rfl
@[simp] theorem setLine_kvs (s : State) (l : Nat) (r : Line) : (setLine s l r).kvs = s.kvs := rfl
@[simp] theorem setLine_fusesOk (s : State) (l : Nat) (r : Line) : (setLine s l r).fusesOk = s.fusesOk := rfl

/-! ### setTrack -/

@[simp] theorem setTrack_pending (s : State) (t : Nat) (k : Track) : (setTrack s t k).pending = s.pending := rfl
@[simp] theorem setTrack_mode (s : State) (t : Nat) (k : Track) : (setTrack s t k).mode = s.mode := rfl
@[simp] theorem setTrack_prevMode (s : State) (t : Nat) (k : Track) : (setTrack s t k).prevMode = s.prevMode := rfl
@[simp] theorem setTrack_awaiting (s : State) (t : Nat) (k : Track) : (setTrack s t k).awaiting = s.awaiting := rfl
@[simp] theorem setTrack_booted (s : State) (t : Nat) (k : Track) : (setTrack s t k).booted = s.booted := rfl
@[simp] theorem setTrack_ttc (s : State) (t : Nat) (k : Track) : (setTrack s t k).ttc = s.ttc := rfl
@[simp] theorem setTrack_regs (s : State) (t : Nat) (k : Track) : (setTrack s t k).regs = s.regs := rfl
@[simp] theorem setTrack_latch (s : State) (t : Nat) (k : Track) : (setTrack s t k).latch = s.latch := rfl
@[simp] theorem setTrack_lowHeld (s : State) (t : Nat) (k : Track) : (setTrack s t k).lowHeld = s.lowHeld := rfl
@[simp] theorem setTrack_mem (s : State) (t : Nat) (k : Track) : (setTrack s t k).mem = s.mem := rfl
@[simp] theorem setTrack_badCells (s : State) (t : Nat) (k : Track) : (setTrack s t k).badCells = s.badCells := rfl
@[simp] theorem setTrack_badPrivate (s : State) (t : Nat) (k : Track) : (setTrack s t k).badPrivate = s.badPrivate := rfl
@[simp] theorem setTrack_ports (s : State) (t : Nat) (k : Track) : (setTrack s t k).ports = s.ports := rfl
@[simp] theorem setTrack_coresRun (s : State) (t : Nat) (k : Track) : (setTrack s t k).coresRun = s.coresRun := rfl
@[simp] theorem setTrack_cores (s : State) (t : Nat) (k : Track) : (setTrack s t k).cores = s.cores := rfl
@[simp] theorem setTrack_hlk (s : State) (t : Nat) (k : Track) : (setTrack s t k).hlk = s.hlk := rfl
@[simp] theorem setTrack_lne (s : State) (t : Nat) (k : Track) : (setTrack s t k).lne = s.lne := rfl
@[simp] theorem setTrack_keyCache (s : State) (t : Nat) (k : Track) : (setTrack s t k).keyCache = s.keyCache := rfl
@[simp] theorem setTrack_branches (s : State) (t : Nat) (k : Track) : (setTrack s t k).branches = s.branches := rfl
@[simp] theorem setTrack_btr (s : State) (t : Nat) (k : Track) : (setTrack s t k).btr = s.btr := rfl
@[simp] theorem setTrack_tableBuilt (s : State) (t : Nat) (k : Track) : (setTrack s t k).tableBuilt = s.tableBuilt := rfl
@[simp] theorem setTrack_image (s : State) (t : Nat) (k : Track) : (setTrack s t k).image = s.image := rfl
@[simp] theorem setTrack_rescueSeed (s : State) (t : Nat) (k : Track) : (setTrack s t k).rescueSeed = s.rescueSeed := rfl
@[simp] theorem setTrack_stations (s : State) (t : Nat) (k : Track) : (setTrack s t k).stations = s.stations := rfl
@[simp] theorem setTrack_pairings (s : State) (t : Nat) (k : Track) : (setTrack s t k).pairings = s.pairings := rfl
@[simp] theorem setTrack_su (s : State) (t : Nat) (k : Track) : (setTrack s t k).su = s.su := rfl
@[simp] theorem setTrack_log (s : State) (t : Nat) (k : Track) : (setTrack s t k).log = s.log := rfl
@[simp] theorem setTrack_flash (s : State) (t : Nat) (k : Track) : (setTrack s t k).flash = s.flash := rfl
@[simp] theorem setTrack_kde (s : State) (t : Nat) (k : Track) : (setTrack s t k).kde = s.kde := rfl
@[simp] theorem setTrack_mae (s : State) (t : Nat) (k : Track) : (setTrack s t k).mae = s.mae := rfl
@[simp] theorem setTrack_lanes (s : State) (t : Nat) (k : Track) : (setTrack s t k).lanes = s.lanes := rfl
@[simp] theorem setTrack_descQueue (s : State) (t : Nat) (k : Track) : (setTrack s t k).descQueue = s.descQueue := rfl
@[simp] theorem setTrack_ent (s : State) (t : Nat) (k : Track) : (setTrack s t k).ent = s.ent := rfl
@[simp] theorem setTrack_entCtr (s : State) (t : Nat) (k : Track) : (setTrack s t k).entCtr = s.entCtr := rfl
@[simp] theorem setTrack_freeCtr (s : State) (t : Nat) (k : Track) : (setTrack s t k).freeCtr = s.freeCtr := rfl
@[simp] theorem setTrack_evtPend (s : State) (t : Nat) (k : Track) : (setTrack s t k).evtPend = s.evtPend := rfl
@[simp] theorem setTrack_evtRoutes (s : State) (t : Nat) (k : Track) : (setTrack s t k).evtRoutes = s.evtRoutes := rfl
@[simp] theorem setTrack_lastRaise (s : State) (t : Nat) (k : Track) : (setTrack s t k).lastRaise = s.lastRaise := rfl
@[simp] theorem setTrack_trace (s : State) (t : Nat) (k : Track) : (setTrack s t k).trace = s.trace := rfl
@[simp] theorem setTrack_traceWrapped (s : State) (t : Nat) (k : Track) : (setTrack s t k).traceWrapped = s.traceWrapped := rfl
@[simp] theorem setTrack_traceHead (s : State) (t : Nat) (k : Track) : (setTrack s t k).traceHead = s.traceHead := rfl
@[simp] theorem setTrack_routes (s : State) (t : Nat) (k : Track) : (setTrack s t k).routes = s.routes := rfl
@[simp] theorem setTrack_badRoutes (s : State) (t : Nat) (k : Track) : (setTrack s t k).badRoutes = s.badRoutes := rfl
@[simp] theorem setTrack_shadowBad (s : State) (t : Nat) (k : Track) : (setTrack s t k).shadowBad = s.shadowBad := rfl
@[simp] theorem setTrack_shadows (s : State) (t : Nat) (k : Track) : (setTrack s t k).shadows = s.shadows := rfl
@[simp] theorem setTrack_sealFaults (s : State) (t : Nat) (k : Track) : (setTrack s t k).sealFaults = s.sealFaults := rfl
@[simp] theorem setTrack_sealOver (s : State) (t : Nat) (k : Track) : (setTrack s t k).sealOver = s.sealOver := rfl
@[simp] theorem setTrack_tripsDue (s : State) (t : Nat) (k : Track) : (setTrack s t k).tripsDue = s.tripsDue := rfl
@[simp] theorem setTrack_mailboxes (s : State) (t : Nat) (k : Track) : (setTrack s t k).mailboxes = s.mailboxes := rfl
@[simp] theorem setTrack_tablets (s : State) (t : Nat) (k : Track) : (setTrack s t k).tablets = s.tablets := rfl
@[simp] theorem setTrack_dbg (s : State) (t : Nat) (k : Track) : (setTrack s t k).dbg = s.dbg := rfl
@[simp] theorem setTrack_sst (s : State) (t : Nat) (k : Track) : (setTrack s t k).sst = s.sst := rfl
@[simp] theorem setTrack_sstWear (s : State) (t : Nat) (k : Track) : (setTrack s t k).sstWear = s.sstWear := rfl
@[simp] theorem setTrack_vigil (s : State) (t : Nat) (k : Track) : (setTrack s t k).vigil = s.vigil := rfl
@[simp] theorem setTrack_card (s : State) (t : Nat) (k : Track) : (setTrack s t k).card = s.card := rfl
@[simp] theorem setTrack_cardPresent (s : State) (t : Nat) (k : Track) : (setTrack s t k).cardPresent = s.cardPresent := rfl
@[simp] theorem setTrack_lko (s : State) (t : Nat) (k : Track) : (setTrack s t k).lko = s.lko := rfl
@[simp] theorem setTrack_tail (s : State) (t : Nat) (k : Track) : (setTrack s t k).tail = s.tail := rfl
@[simp] theorem setTrack_power (s : State) (t : Nat) (k : Track) : (setTrack s t k).power = s.power := rfl
@[simp] theorem setTrack_deadmen (s : State) (t : Nat) (k : Track) : (setTrack s t k).deadmen = s.deadmen := rfl
@[simp] theorem setTrack_lastDeadman (s : State) (t : Nat) (k : Track) : (setTrack s t k).lastDeadman = s.lastDeadman := rfl
@[simp] theorem setTrack_worksPlate (s : State) (t : Nat) (k : Track) : (setTrack s t k).worksPlate = s.worksPlate := rfl
@[simp] theorem setTrack_kvs (s : State) (t : Nat) (k : Track) : (setTrack s t k).kvs = s.kvs := rfl
@[simp] theorem setTrack_fusesOk (s : State) (t : Nat) (k : Track) : (setTrack s t k).fusesOk = s.fusesOk := rfl

/-! ### setLane -/

@[simp] theorem setLane_pending (s : State) (n : Nat) (k : Lane) : (setLane s n k).pending = s.pending := rfl
@[simp] theorem setLane_mode (s : State) (n : Nat) (k : Lane) : (setLane s n k).mode = s.mode := rfl
@[simp] theorem setLane_prevMode (s : State) (n : Nat) (k : Lane) : (setLane s n k).prevMode = s.prevMode := rfl
@[simp] theorem setLane_awaiting (s : State) (n : Nat) (k : Lane) : (setLane s n k).awaiting = s.awaiting := rfl
@[simp] theorem setLane_booted (s : State) (n : Nat) (k : Lane) : (setLane s n k).booted = s.booted := rfl
@[simp] theorem setLane_ttc (s : State) (n : Nat) (k : Lane) : (setLane s n k).ttc = s.ttc := rfl
@[simp] theorem setLane_regs (s : State) (n : Nat) (k : Lane) : (setLane s n k).regs = s.regs := rfl
@[simp] theorem setLane_latch (s : State) (n : Nat) (k : Lane) : (setLane s n k).latch = s.latch := rfl
@[simp] theorem setLane_lowHeld (s : State) (n : Nat) (k : Lane) : (setLane s n k).lowHeld = s.lowHeld := rfl
@[simp] theorem setLane_mem (s : State) (n : Nat) (k : Lane) : (setLane s n k).mem = s.mem := rfl
@[simp] theorem setLane_badCells (s : State) (n : Nat) (k : Lane) : (setLane s n k).badCells = s.badCells := rfl
@[simp] theorem setLane_badPrivate (s : State) (n : Nat) (k : Lane) : (setLane s n k).badPrivate = s.badPrivate := rfl
@[simp] theorem setLane_ports (s : State) (n : Nat) (k : Lane) : (setLane s n k).ports = s.ports := rfl
@[simp] theorem setLane_coresRun (s : State) (n : Nat) (k : Lane) : (setLane s n k).coresRun = s.coresRun := rfl
@[simp] theorem setLane_cores (s : State) (n : Nat) (k : Lane) : (setLane s n k).cores = s.cores := rfl
@[simp] theorem setLane_hlk (s : State) (n : Nat) (k : Lane) : (setLane s n k).hlk = s.hlk := rfl
@[simp] theorem setLane_lne (s : State) (n : Nat) (k : Lane) : (setLane s n k).lne = s.lne := rfl
@[simp] theorem setLane_tracks (s : State) (n : Nat) (k : Lane) : (setLane s n k).tracks = s.tracks := rfl
@[simp] theorem setLane_keyCache (s : State) (n : Nat) (k : Lane) : (setLane s n k).keyCache = s.keyCache := rfl
@[simp] theorem setLane_branches (s : State) (n : Nat) (k : Lane) : (setLane s n k).branches = s.branches := rfl
@[simp] theorem setLane_btr (s : State) (n : Nat) (k : Lane) : (setLane s n k).btr = s.btr := rfl
@[simp] theorem setLane_tableBuilt (s : State) (n : Nat) (k : Lane) : (setLane s n k).tableBuilt = s.tableBuilt := rfl
@[simp] theorem setLane_image (s : State) (n : Nat) (k : Lane) : (setLane s n k).image = s.image := rfl
@[simp] theorem setLane_rescueSeed (s : State) (n : Nat) (k : Lane) : (setLane s n k).rescueSeed = s.rescueSeed := rfl
@[simp] theorem setLane_stations (s : State) (n : Nat) (k : Lane) : (setLane s n k).stations = s.stations := rfl
@[simp] theorem setLane_pairings (s : State) (n : Nat) (k : Lane) : (setLane s n k).pairings = s.pairings := rfl
@[simp] theorem setLane_su (s : State) (n : Nat) (k : Lane) : (setLane s n k).su = s.su := rfl
@[simp] theorem setLane_log (s : State) (n : Nat) (k : Lane) : (setLane s n k).log = s.log := rfl
@[simp] theorem setLane_flash (s : State) (n : Nat) (k : Lane) : (setLane s n k).flash = s.flash := rfl
@[simp] theorem setLane_kde (s : State) (n : Nat) (k : Lane) : (setLane s n k).kde = s.kde := rfl
@[simp] theorem setLane_mae (s : State) (n : Nat) (k : Lane) : (setLane s n k).mae = s.mae := rfl
@[simp] theorem setLane_descQueue (s : State) (n : Nat) (k : Lane) : (setLane s n k).descQueue = s.descQueue := rfl
@[simp] theorem setLane_ent (s : State) (n : Nat) (k : Lane) : (setLane s n k).ent = s.ent := rfl
@[simp] theorem setLane_entCtr (s : State) (n : Nat) (k : Lane) : (setLane s n k).entCtr = s.entCtr := rfl
@[simp] theorem setLane_freeCtr (s : State) (n : Nat) (k : Lane) : (setLane s n k).freeCtr = s.freeCtr := rfl
@[simp] theorem setLane_evtPend (s : State) (n : Nat) (k : Lane) : (setLane s n k).evtPend = s.evtPend := rfl
@[simp] theorem setLane_evtRoutes (s : State) (n : Nat) (k : Lane) : (setLane s n k).evtRoutes = s.evtRoutes := rfl
@[simp] theorem setLane_lastRaise (s : State) (n : Nat) (k : Lane) : (setLane s n k).lastRaise = s.lastRaise := rfl
@[simp] theorem setLane_trace (s : State) (n : Nat) (k : Lane) : (setLane s n k).trace = s.trace := rfl
@[simp] theorem setLane_traceWrapped (s : State) (n : Nat) (k : Lane) : (setLane s n k).traceWrapped = s.traceWrapped := rfl
@[simp] theorem setLane_traceHead (s : State) (n : Nat) (k : Lane) : (setLane s n k).traceHead = s.traceHead := rfl
@[simp] theorem setLane_routes (s : State) (n : Nat) (k : Lane) : (setLane s n k).routes = s.routes := rfl
@[simp] theorem setLane_badRoutes (s : State) (n : Nat) (k : Lane) : (setLane s n k).badRoutes = s.badRoutes := rfl
@[simp] theorem setLane_shadowBad (s : State) (n : Nat) (k : Lane) : (setLane s n k).shadowBad = s.shadowBad := rfl
@[simp] theorem setLane_shadows (s : State) (n : Nat) (k : Lane) : (setLane s n k).shadows = s.shadows := rfl
@[simp] theorem setLane_sealFaults (s : State) (n : Nat) (k : Lane) : (setLane s n k).sealFaults = s.sealFaults := rfl
@[simp] theorem setLane_sealOver (s : State) (n : Nat) (k : Lane) : (setLane s n k).sealOver = s.sealOver := rfl
@[simp] theorem setLane_tripsDue (s : State) (n : Nat) (k : Lane) : (setLane s n k).tripsDue = s.tripsDue := rfl
@[simp] theorem setLane_mailboxes (s : State) (n : Nat) (k : Lane) : (setLane s n k).mailboxes = s.mailboxes := rfl
@[simp] theorem setLane_tablets (s : State) (n : Nat) (k : Lane) : (setLane s n k).tablets = s.tablets := rfl
@[simp] theorem setLane_dbg (s : State) (n : Nat) (k : Lane) : (setLane s n k).dbg = s.dbg := rfl
@[simp] theorem setLane_sst (s : State) (n : Nat) (k : Lane) : (setLane s n k).sst = s.sst := rfl
@[simp] theorem setLane_sstWear (s : State) (n : Nat) (k : Lane) : (setLane s n k).sstWear = s.sstWear := rfl
@[simp] theorem setLane_vigil (s : State) (n : Nat) (k : Lane) : (setLane s n k).vigil = s.vigil := rfl
@[simp] theorem setLane_card (s : State) (n : Nat) (k : Lane) : (setLane s n k).card = s.card := rfl
@[simp] theorem setLane_cardPresent (s : State) (n : Nat) (k : Lane) : (setLane s n k).cardPresent = s.cardPresent := rfl
@[simp] theorem setLane_lko (s : State) (n : Nat) (k : Lane) : (setLane s n k).lko = s.lko := rfl
@[simp] theorem setLane_tail (s : State) (n : Nat) (k : Lane) : (setLane s n k).tail = s.tail := rfl
@[simp] theorem setLane_power (s : State) (n : Nat) (k : Lane) : (setLane s n k).power = s.power := rfl
@[simp] theorem setLane_deadmen (s : State) (n : Nat) (k : Lane) : (setLane s n k).deadmen = s.deadmen := rfl
@[simp] theorem setLane_lastDeadman (s : State) (n : Nat) (k : Lane) : (setLane s n k).lastDeadman = s.lastDeadman := rfl
@[simp] theorem setLane_worksPlate (s : State) (n : Nat) (k : Lane) : (setLane s n k).worksPlate = s.worksPlate := rfl
@[simp] theorem setLane_kvs (s : State) (n : Nat) (k : Lane) : (setLane s n k).kvs = s.kvs := rfl
@[simp] theorem setLane_fusesOk (s : State) (n : Nat) (k : Lane) : (setLane s n k).fusesOk = s.fusesOk := rfl

/-! ### setCore -/

@[simp] theorem setCore_pending (s : State) (n : Nat) (c : Core) : (setCore s n c).pending = s.pending := rfl
@[simp] theorem setCore_mode (s : State) (n : Nat) (c : Core) : (setCore s n c).mode = s.mode := rfl
@[simp] theorem setCore_prevMode (s : State) (n : Nat) (c : Core) : (setCore s n c).prevMode = s.prevMode := rfl
@[simp] theorem setCore_awaiting (s : State) (n : Nat) (c : Core) : (setCore s n c).awaiting = s.awaiting := rfl
@[simp] theorem setCore_booted (s : State) (n : Nat) (c : Core) : (setCore s n c).booted = s.booted := rfl
@[simp] theorem setCore_ttc (s : State) (n : Nat) (c : Core) : (setCore s n c).ttc = s.ttc := rfl
@[simp] theorem setCore_regs (s : State) (n : Nat) (c : Core) : (setCore s n c).regs = s.regs := rfl
@[simp] theorem setCore_latch (s : State) (n : Nat) (c : Core) : (setCore s n c).latch = s.latch := rfl
@[simp] theorem setCore_lowHeld (s : State) (n : Nat) (c : Core) : (setCore s n c).lowHeld = s.lowHeld := rfl
@[simp] theorem setCore_mem (s : State) (n : Nat) (c : Core) : (setCore s n c).mem = s.mem := rfl
@[simp] theorem setCore_badCells (s : State) (n : Nat) (c : Core) : (setCore s n c).badCells = s.badCells := rfl
@[simp] theorem setCore_badPrivate (s : State) (n : Nat) (c : Core) : (setCore s n c).badPrivate = s.badPrivate := rfl
@[simp] theorem setCore_ports (s : State) (n : Nat) (c : Core) : (setCore s n c).ports = s.ports := rfl
@[simp] theorem setCore_coresRun (s : State) (n : Nat) (c : Core) : (setCore s n c).coresRun = s.coresRun := rfl
@[simp] theorem setCore_hlk (s : State) (n : Nat) (c : Core) : (setCore s n c).hlk = s.hlk := rfl
@[simp] theorem setCore_lne (s : State) (n : Nat) (c : Core) : (setCore s n c).lne = s.lne := rfl
@[simp] theorem setCore_tracks (s : State) (n : Nat) (c : Core) : (setCore s n c).tracks = s.tracks := rfl
@[simp] theorem setCore_keyCache (s : State) (n : Nat) (c : Core) : (setCore s n c).keyCache = s.keyCache := rfl
@[simp] theorem setCore_branches (s : State) (n : Nat) (c : Core) : (setCore s n c).branches = s.branches := rfl
@[simp] theorem setCore_btr (s : State) (n : Nat) (c : Core) : (setCore s n c).btr = s.btr := rfl
@[simp] theorem setCore_tableBuilt (s : State) (n : Nat) (c : Core) : (setCore s n c).tableBuilt = s.tableBuilt := rfl
@[simp] theorem setCore_image (s : State) (n : Nat) (c : Core) : (setCore s n c).image = s.image := rfl
@[simp] theorem setCore_rescueSeed (s : State) (n : Nat) (c : Core) : (setCore s n c).rescueSeed = s.rescueSeed := rfl
@[simp] theorem setCore_stations (s : State) (n : Nat) (c : Core) : (setCore s n c).stations = s.stations := rfl
@[simp] theorem setCore_pairings (s : State) (n : Nat) (c : Core) : (setCore s n c).pairings = s.pairings := rfl
@[simp] theorem setCore_su (s : State) (n : Nat) (c : Core) : (setCore s n c).su = s.su := rfl
@[simp] theorem setCore_log (s : State) (n : Nat) (c : Core) : (setCore s n c).log = s.log := rfl
@[simp] theorem setCore_flash (s : State) (n : Nat) (c : Core) : (setCore s n c).flash = s.flash := rfl
@[simp] theorem setCore_kde (s : State) (n : Nat) (c : Core) : (setCore s n c).kde = s.kde := rfl
@[simp] theorem setCore_mae (s : State) (n : Nat) (c : Core) : (setCore s n c).mae = s.mae := rfl
@[simp] theorem setCore_lanes (s : State) (n : Nat) (c : Core) : (setCore s n c).lanes = s.lanes := rfl
@[simp] theorem setCore_descQueue (s : State) (n : Nat) (c : Core) : (setCore s n c).descQueue = s.descQueue := rfl
@[simp] theorem setCore_ent (s : State) (n : Nat) (c : Core) : (setCore s n c).ent = s.ent := rfl
@[simp] theorem setCore_entCtr (s : State) (n : Nat) (c : Core) : (setCore s n c).entCtr = s.entCtr := rfl
@[simp] theorem setCore_freeCtr (s : State) (n : Nat) (c : Core) : (setCore s n c).freeCtr = s.freeCtr := rfl
@[simp] theorem setCore_evtPend (s : State) (n : Nat) (c : Core) : (setCore s n c).evtPend = s.evtPend := rfl
@[simp] theorem setCore_evtRoutes (s : State) (n : Nat) (c : Core) : (setCore s n c).evtRoutes = s.evtRoutes := rfl
@[simp] theorem setCore_lastRaise (s : State) (n : Nat) (c : Core) : (setCore s n c).lastRaise = s.lastRaise := rfl
@[simp] theorem setCore_trace (s : State) (n : Nat) (c : Core) : (setCore s n c).trace = s.trace := rfl
@[simp] theorem setCore_traceWrapped (s : State) (n : Nat) (c : Core) : (setCore s n c).traceWrapped = s.traceWrapped := rfl
@[simp] theorem setCore_traceHead (s : State) (n : Nat) (c : Core) : (setCore s n c).traceHead = s.traceHead := rfl
@[simp] theorem setCore_routes (s : State) (n : Nat) (c : Core) : (setCore s n c).routes = s.routes := rfl
@[simp] theorem setCore_badRoutes (s : State) (n : Nat) (c : Core) : (setCore s n c).badRoutes = s.badRoutes := rfl
@[simp] theorem setCore_shadowBad (s : State) (n : Nat) (c : Core) : (setCore s n c).shadowBad = s.shadowBad := rfl
@[simp] theorem setCore_shadows (s : State) (n : Nat) (c : Core) : (setCore s n c).shadows = s.shadows := rfl
@[simp] theorem setCore_sealFaults (s : State) (n : Nat) (c : Core) : (setCore s n c).sealFaults = s.sealFaults := rfl
@[simp] theorem setCore_sealOver (s : State) (n : Nat) (c : Core) : (setCore s n c).sealOver = s.sealOver := rfl
@[simp] theorem setCore_tripsDue (s : State) (n : Nat) (c : Core) : (setCore s n c).tripsDue = s.tripsDue := rfl
@[simp] theorem setCore_mailboxes (s : State) (n : Nat) (c : Core) : (setCore s n c).mailboxes = s.mailboxes := rfl
@[simp] theorem setCore_tablets (s : State) (n : Nat) (c : Core) : (setCore s n c).tablets = s.tablets := rfl
@[simp] theorem setCore_dbg (s : State) (n : Nat) (c : Core) : (setCore s n c).dbg = s.dbg := rfl
@[simp] theorem setCore_sst (s : State) (n : Nat) (c : Core) : (setCore s n c).sst = s.sst := rfl
@[simp] theorem setCore_sstWear (s : State) (n : Nat) (c : Core) : (setCore s n c).sstWear = s.sstWear := rfl
@[simp] theorem setCore_vigil (s : State) (n : Nat) (c : Core) : (setCore s n c).vigil = s.vigil := rfl
@[simp] theorem setCore_card (s : State) (n : Nat) (c : Core) : (setCore s n c).card = s.card := rfl
@[simp] theorem setCore_cardPresent (s : State) (n : Nat) (c : Core) : (setCore s n c).cardPresent = s.cardPresent := rfl
@[simp] theorem setCore_lko (s : State) (n : Nat) (c : Core) : (setCore s n c).lko = s.lko := rfl
@[simp] theorem setCore_tail (s : State) (n : Nat) (c : Core) : (setCore s n c).tail = s.tail := rfl
@[simp] theorem setCore_power (s : State) (n : Nat) (c : Core) : (setCore s n c).power = s.power := rfl
@[simp] theorem setCore_deadmen (s : State) (n : Nat) (c : Core) : (setCore s n c).deadmen = s.deadmen := rfl
@[simp] theorem setCore_lastDeadman (s : State) (n : Nat) (c : Core) : (setCore s n c).lastDeadman = s.lastDeadman := rfl
@[simp] theorem setCore_worksPlate (s : State) (n : Nat) (c : Core) : (setCore s n c).worksPlate = s.worksPlate := rfl
@[simp] theorem setCore_kvs (s : State) (n : Nat) (c : Core) : (setCore s n c).kvs = s.kvs := rfl
@[simp] theorem setCore_fusesOk (s : State) (n : Nat) (c : Core) : (setCore s n c).fusesOk = s.fusesOk := rfl

/-! ### triggerVector -/

@[simp] theorem triggerVector_pending (s : State) (v : BitVec 11) : (triggerVector s v).pending = s.pending := by unfold triggerVector; split <;> rfl
@[simp] theorem triggerVector_mode (s : State) (v : BitVec 11) : (triggerVector s v).mode = s.mode := by unfold triggerVector; split <;> rfl
@[simp] theorem triggerVector_prevMode (s : State) (v : BitVec 11) : (triggerVector s v).prevMode = s.prevMode := by unfold triggerVector; split <;> rfl
@[simp] theorem triggerVector_awaiting (s : State) (v : BitVec 11) : (triggerVector s v).awaiting = s.awaiting := by unfold triggerVector; split <;> rfl
@[simp] theorem triggerVector_booted (s : State) (v : BitVec 11) : (triggerVector s v).booted = s.booted := by unfold triggerVector; split <;> rfl
@[simp] theorem triggerVector_ttc (s : State) (v : BitVec 11) : (triggerVector s v).ttc = s.ttc := by unfold triggerVector; split <;> rfl
@[simp] theorem triggerVector_regs (s : State) (v : BitVec 11) : (triggerVector s v).regs = s.regs := by unfold triggerVector; split <;> rfl
@[simp] theorem triggerVector_latch (s : State) (v : BitVec 11) : (triggerVector s v).latch = s.latch := by unfold triggerVector; split <;> rfl
@[simp] theorem triggerVector_lowHeld (s : State) (v : BitVec 11) : (triggerVector s v).lowHeld = s.lowHeld := by unfold triggerVector; split <;> rfl
@[simp] theorem triggerVector_mem (s : State) (v : BitVec 11) : (triggerVector s v).mem = s.mem := by unfold triggerVector; split <;> rfl
@[simp] theorem triggerVector_badCells (s : State) (v : BitVec 11) : (triggerVector s v).badCells = s.badCells := by unfold triggerVector; split <;> rfl
@[simp] theorem triggerVector_badPrivate (s : State) (v : BitVec 11) : (triggerVector s v).badPrivate = s.badPrivate := by unfold triggerVector; split <;> rfl
@[simp] theorem triggerVector_coresRun (s : State) (v : BitVec 11) : (triggerVector s v).coresRun = s.coresRun := by unfold triggerVector; split <;> rfl
@[simp] theorem triggerVector_cores (s : State) (v : BitVec 11) : (triggerVector s v).cores = s.cores := by unfold triggerVector; split <;> rfl
@[simp] theorem triggerVector_lne (s : State) (v : BitVec 11) : (triggerVector s v).lne = s.lne := by unfold triggerVector; split <;> rfl
@[simp] theorem triggerVector_tracks (s : State) (v : BitVec 11) : (triggerVector s v).tracks = s.tracks := by unfold triggerVector; split <;> rfl
@[simp] theorem triggerVector_keyCache (s : State) (v : BitVec 11) : (triggerVector s v).keyCache = s.keyCache := by unfold triggerVector; split <;> rfl
@[simp] theorem triggerVector_branches (s : State) (v : BitVec 11) : (triggerVector s v).branches = s.branches := by unfold triggerVector; split <;> rfl
@[simp] theorem triggerVector_btr (s : State) (v : BitVec 11) : (triggerVector s v).btr = s.btr := by unfold triggerVector; split <;> rfl
@[simp] theorem triggerVector_tableBuilt (s : State) (v : BitVec 11) : (triggerVector s v).tableBuilt = s.tableBuilt := by unfold triggerVector; split <;> rfl
@[simp] theorem triggerVector_image (s : State) (v : BitVec 11) : (triggerVector s v).image = s.image := by unfold triggerVector; split <;> rfl
@[simp] theorem triggerVector_rescueSeed (s : State) (v : BitVec 11) : (triggerVector s v).rescueSeed = s.rescueSeed := by unfold triggerVector; split <;> rfl
@[simp] theorem triggerVector_stations (s : State) (v : BitVec 11) : (triggerVector s v).stations = s.stations := by unfold triggerVector; split <;> rfl
@[simp] theorem triggerVector_pairings (s : State) (v : BitVec 11) : (triggerVector s v).pairings = s.pairings := by unfold triggerVector; split <;> rfl
@[simp] theorem triggerVector_su (s : State) (v : BitVec 11) : (triggerVector s v).su = s.su := by unfold triggerVector; split <;> rfl
@[simp] theorem triggerVector_log (s : State) (v : BitVec 11) : (triggerVector s v).log = s.log := by unfold triggerVector; split <;> rfl
@[simp] theorem triggerVector_flash (s : State) (v : BitVec 11) : (triggerVector s v).flash = s.flash := by unfold triggerVector; split <;> rfl
@[simp] theorem triggerVector_kde (s : State) (v : BitVec 11) : (triggerVector s v).kde = s.kde := by unfold triggerVector; split <;> rfl
@[simp] theorem triggerVector_mae (s : State) (v : BitVec 11) : (triggerVector s v).mae = s.mae := by unfold triggerVector; split <;> rfl
@[simp] theorem triggerVector_lanes (s : State) (v : BitVec 11) : (triggerVector s v).lanes = s.lanes := by unfold triggerVector; split <;> rfl
@[simp] theorem triggerVector_descQueue (s : State) (v : BitVec 11) : (triggerVector s v).descQueue = s.descQueue := by unfold triggerVector; split <;> rfl
@[simp] theorem triggerVector_ent (s : State) (v : BitVec 11) : (triggerVector s v).ent = s.ent := by unfold triggerVector; split <;> rfl
@[simp] theorem triggerVector_entCtr (s : State) (v : BitVec 11) : (triggerVector s v).entCtr = s.entCtr := by unfold triggerVector; split <;> rfl
@[simp] theorem triggerVector_freeCtr (s : State) (v : BitVec 11) : (triggerVector s v).freeCtr = s.freeCtr := by unfold triggerVector; split <;> rfl
@[simp] theorem triggerVector_evtPend (s : State) (v : BitVec 11) : (triggerVector s v).evtPend = s.evtPend := by unfold triggerVector; split <;> rfl
@[simp] theorem triggerVector_evtRoutes (s : State) (v : BitVec 11) : (triggerVector s v).evtRoutes = s.evtRoutes := by unfold triggerVector; split <;> rfl
@[simp] theorem triggerVector_lastRaise (s : State) (v : BitVec 11) : (triggerVector s v).lastRaise = s.lastRaise := by unfold triggerVector; split <;> rfl
@[simp] theorem triggerVector_trace (s : State) (v : BitVec 11) : (triggerVector s v).trace = s.trace := by unfold triggerVector; split <;> rfl
@[simp] theorem triggerVector_traceWrapped (s : State) (v : BitVec 11) : (triggerVector s v).traceWrapped = s.traceWrapped := by unfold triggerVector; split <;> rfl
@[simp] theorem triggerVector_traceHead (s : State) (v : BitVec 11) : (triggerVector s v).traceHead = s.traceHead := by unfold triggerVector; split <;> rfl
@[simp] theorem triggerVector_routes (s : State) (v : BitVec 11) : (triggerVector s v).routes = s.routes := by unfold triggerVector; split <;> rfl
@[simp] theorem triggerVector_badRoutes (s : State) (v : BitVec 11) : (triggerVector s v).badRoutes = s.badRoutes := by unfold triggerVector; split <;> rfl
@[simp] theorem triggerVector_shadowBad (s : State) (v : BitVec 11) : (triggerVector s v).shadowBad = s.shadowBad := by unfold triggerVector; split <;> rfl
@[simp] theorem triggerVector_shadows (s : State) (v : BitVec 11) : (triggerVector s v).shadows = s.shadows := by unfold triggerVector; split <;> rfl
@[simp] theorem triggerVector_sealFaults (s : State) (v : BitVec 11) : (triggerVector s v).sealFaults = s.sealFaults := by unfold triggerVector; split <;> rfl
@[simp] theorem triggerVector_sealOver (s : State) (v : BitVec 11) : (triggerVector s v).sealOver = s.sealOver := by unfold triggerVector; split <;> rfl
@[simp] theorem triggerVector_tripsDue (s : State) (v : BitVec 11) : (triggerVector s v).tripsDue = s.tripsDue := by unfold triggerVector; split <;> rfl
@[simp] theorem triggerVector_mailboxes (s : State) (v : BitVec 11) : (triggerVector s v).mailboxes = s.mailboxes := by unfold triggerVector; split <;> rfl
@[simp] theorem triggerVector_tablets (s : State) (v : BitVec 11) : (triggerVector s v).tablets = s.tablets := by unfold triggerVector; split <;> rfl
@[simp] theorem triggerVector_dbg (s : State) (v : BitVec 11) : (triggerVector s v).dbg = s.dbg := by unfold triggerVector; split <;> rfl
@[simp] theorem triggerVector_sst (s : State) (v : BitVec 11) : (triggerVector s v).sst = s.sst := by unfold triggerVector; split <;> rfl
@[simp] theorem triggerVector_sstWear (s : State) (v : BitVec 11) : (triggerVector s v).sstWear = s.sstWear := by unfold triggerVector; split <;> rfl
@[simp] theorem triggerVector_vigil (s : State) (v : BitVec 11) : (triggerVector s v).vigil = s.vigil := by unfold triggerVector; split <;> rfl
@[simp] theorem triggerVector_card (s : State) (v : BitVec 11) : (triggerVector s v).card = s.card := by unfold triggerVector; split <;> rfl
@[simp] theorem triggerVector_cardPresent (s : State) (v : BitVec 11) : (triggerVector s v).cardPresent = s.cardPresent := by unfold triggerVector; split <;> rfl
@[simp] theorem triggerVector_lko (s : State) (v : BitVec 11) : (triggerVector s v).lko = s.lko := by unfold triggerVector; split <;> rfl
@[simp] theorem triggerVector_tail (s : State) (v : BitVec 11) : (triggerVector s v).tail = s.tail := by unfold triggerVector; split <;> rfl
@[simp] theorem triggerVector_power (s : State) (v : BitVec 11) : (triggerVector s v).power = s.power := by unfold triggerVector; split <;> rfl
@[simp] theorem triggerVector_deadmen (s : State) (v : BitVec 11) : (triggerVector s v).deadmen = s.deadmen := by unfold triggerVector; split <;> rfl
@[simp] theorem triggerVector_lastDeadman (s : State) (v : BitVec 11) : (triggerVector s v).lastDeadman = s.lastDeadman := by unfold triggerVector; split <;> rfl
@[simp] theorem triggerVector_worksPlate (s : State) (v : BitVec 11) : (triggerVector s v).worksPlate = s.worksPlate := by unfold triggerVector; split <;> rfl
@[simp] theorem triggerVector_kvs (s : State) (v : BitVec 11) : (triggerVector s v).kvs = s.kvs := by unfold triggerVector; split <;> rfl
@[simp] theorem triggerVector_fusesOk (s : State) (v : BitVec 11) : (triggerVector s v).fusesOk = s.fusesOk := by unfold triggerVector; split <;> rfl

/-! ### raise -/

/-- Raising a source writes its pending bit and the trace, and at most the vectors of the host link. -/
theorem raise_shape (s : State) (n : Nat) : ∃ h p, raise s n =
    { s with evtPend := s.evtPend ||| (1#1024 <<< n), trace := ((n, s.ttc) :: s.trace).take 256,
             traceHead := s.traceHead + 1, traceWrapped := s.traceWrapped || decide (s.traceHead = 255), hlk := h, ports := p } := by
  unfold raise
  dsimp only
  split
  · unfold triggerVector
    split <;> exact ⟨_, _, rfl⟩
  · exact ⟨_, _, rfl⟩

@[simp] theorem raise_pending (s : State) (n : Nat) : (raise s n).pending = s.pending := by obtain ⟨_, _, e⟩ := raise_shape s n; rw [e]
@[simp] theorem raise_mode (s : State) (n : Nat) : (raise s n).mode = s.mode := by obtain ⟨_, _, e⟩ := raise_shape s n; rw [e]
@[simp] theorem raise_prevMode (s : State) (n : Nat) : (raise s n).prevMode = s.prevMode := by obtain ⟨_, _, e⟩ := raise_shape s n; rw [e]
@[simp] theorem raise_awaiting (s : State) (n : Nat) : (raise s n).awaiting = s.awaiting := by obtain ⟨_, _, e⟩ := raise_shape s n; rw [e]
@[simp] theorem raise_booted (s : State) (n : Nat) : (raise s n).booted = s.booted := by obtain ⟨_, _, e⟩ := raise_shape s n; rw [e]
@[simp] theorem raise_ttc (s : State) (n : Nat) : (raise s n).ttc = s.ttc := by obtain ⟨_, _, e⟩ := raise_shape s n; rw [e]
@[simp] theorem raise_regs (s : State) (n : Nat) : (raise s n).regs = s.regs := by obtain ⟨_, _, e⟩ := raise_shape s n; rw [e]
@[simp] theorem raise_latch (s : State) (n : Nat) : (raise s n).latch = s.latch := by obtain ⟨_, _, e⟩ := raise_shape s n; rw [e]
@[simp] theorem raise_lowHeld (s : State) (n : Nat) : (raise s n).lowHeld = s.lowHeld := by obtain ⟨_, _, e⟩ := raise_shape s n; rw [e]
@[simp] theorem raise_mem (s : State) (n : Nat) : (raise s n).mem = s.mem := by obtain ⟨_, _, e⟩ := raise_shape s n; rw [e]
@[simp] theorem raise_badCells (s : State) (n : Nat) : (raise s n).badCells = s.badCells := by obtain ⟨_, _, e⟩ := raise_shape s n; rw [e]
@[simp] theorem raise_badPrivate (s : State) (n : Nat) : (raise s n).badPrivate = s.badPrivate := by obtain ⟨_, _, e⟩ := raise_shape s n; rw [e]
@[simp] theorem raise_coresRun (s : State) (n : Nat) : (raise s n).coresRun = s.coresRun := by obtain ⟨_, _, e⟩ := raise_shape s n; rw [e]
@[simp] theorem raise_cores (s : State) (n : Nat) : (raise s n).cores = s.cores := by obtain ⟨_, _, e⟩ := raise_shape s n; rw [e]
@[simp] theorem raise_lne (s : State) (n : Nat) : (raise s n).lne = s.lne := by obtain ⟨_, _, e⟩ := raise_shape s n; rw [e]
@[simp] theorem raise_tracks (s : State) (n : Nat) : (raise s n).tracks = s.tracks := by obtain ⟨_, _, e⟩ := raise_shape s n; rw [e]
@[simp] theorem raise_keyCache (s : State) (n : Nat) : (raise s n).keyCache = s.keyCache := by obtain ⟨_, _, e⟩ := raise_shape s n; rw [e]
@[simp] theorem raise_branches (s : State) (n : Nat) : (raise s n).branches = s.branches := by obtain ⟨_, _, e⟩ := raise_shape s n; rw [e]
@[simp] theorem raise_btr (s : State) (n : Nat) : (raise s n).btr = s.btr := by obtain ⟨_, _, e⟩ := raise_shape s n; rw [e]
@[simp] theorem raise_tableBuilt (s : State) (n : Nat) : (raise s n).tableBuilt = s.tableBuilt := by obtain ⟨_, _, e⟩ := raise_shape s n; rw [e]
@[simp] theorem raise_image (s : State) (n : Nat) : (raise s n).image = s.image := by obtain ⟨_, _, e⟩ := raise_shape s n; rw [e]
@[simp] theorem raise_rescueSeed (s : State) (n : Nat) : (raise s n).rescueSeed = s.rescueSeed := by obtain ⟨_, _, e⟩ := raise_shape s n; rw [e]
@[simp] theorem raise_stations (s : State) (n : Nat) : (raise s n).stations = s.stations := by obtain ⟨_, _, e⟩ := raise_shape s n; rw [e]
@[simp] theorem raise_pairings (s : State) (n : Nat) : (raise s n).pairings = s.pairings := by obtain ⟨_, _, e⟩ := raise_shape s n; rw [e]
@[simp] theorem raise_su (s : State) (n : Nat) : (raise s n).su = s.su := by obtain ⟨_, _, e⟩ := raise_shape s n; rw [e]
@[simp] theorem raise_log (s : State) (n : Nat) : (raise s n).log = s.log := by obtain ⟨_, _, e⟩ := raise_shape s n; rw [e]
@[simp] theorem raise_flash (s : State) (n : Nat) : (raise s n).flash = s.flash := by obtain ⟨_, _, e⟩ := raise_shape s n; rw [e]
@[simp] theorem raise_kde (s : State) (n : Nat) : (raise s n).kde = s.kde := by obtain ⟨_, _, e⟩ := raise_shape s n; rw [e]
@[simp] theorem raise_mae (s : State) (n : Nat) : (raise s n).mae = s.mae := by obtain ⟨_, _, e⟩ := raise_shape s n; rw [e]
@[simp] theorem raise_lanes (s : State) (n : Nat) : (raise s n).lanes = s.lanes := by obtain ⟨_, _, e⟩ := raise_shape s n; rw [e]
@[simp] theorem raise_descQueue (s : State) (n : Nat) : (raise s n).descQueue = s.descQueue := by obtain ⟨_, _, e⟩ := raise_shape s n; rw [e]
@[simp] theorem raise_ent (s : State) (n : Nat) : (raise s n).ent = s.ent := by obtain ⟨_, _, e⟩ := raise_shape s n; rw [e]
@[simp] theorem raise_entCtr (s : State) (n : Nat) : (raise s n).entCtr = s.entCtr := by obtain ⟨_, _, e⟩ := raise_shape s n; rw [e]
@[simp] theorem raise_freeCtr (s : State) (n : Nat) : (raise s n).freeCtr = s.freeCtr := by obtain ⟨_, _, e⟩ := raise_shape s n; rw [e]
@[simp] theorem raise_evtRoutes (s : State) (n : Nat) : (raise s n).evtRoutes = s.evtRoutes := by obtain ⟨_, _, e⟩ := raise_shape s n; rw [e]
@[simp] theorem raise_lastRaise (s : State) (n : Nat) : (raise s n).lastRaise = s.lastRaise := by obtain ⟨_, _, e⟩ := raise_shape s n; rw [e]
@[simp] theorem raise_routes (s : State) (n : Nat) : (raise s n).routes = s.routes := by obtain ⟨_, _, e⟩ := raise_shape s n; rw [e]
@[simp] theorem raise_badRoutes (s : State) (n : Nat) : (raise s n).badRoutes = s.badRoutes := by obtain ⟨_, _, e⟩ := raise_shape s n; rw [e]
@[simp] theorem raise_shadowBad (s : State) (n : Nat) : (raise s n).shadowBad = s.shadowBad := by obtain ⟨_, _, e⟩ := raise_shape s n; rw [e]
@[simp] theorem raise_shadows (s : State) (n : Nat) : (raise s n).shadows = s.shadows := by obtain ⟨_, _, e⟩ := raise_shape s n; rw [e]
@[simp] theorem raise_sealFaults (s : State) (n : Nat) : (raise s n).sealFaults = s.sealFaults := by obtain ⟨_, _, e⟩ := raise_shape s n; rw [e]
@[simp] theorem raise_sealOver (s : State) (n : Nat) : (raise s n).sealOver = s.sealOver := by obtain ⟨_, _, e⟩ := raise_shape s n; rw [e]
@[simp] theorem raise_tripsDue (s : State) (n : Nat) : (raise s n).tripsDue = s.tripsDue := by obtain ⟨_, _, e⟩ := raise_shape s n; rw [e]
@[simp] theorem raise_mailboxes (s : State) (n : Nat) : (raise s n).mailboxes = s.mailboxes := by obtain ⟨_, _, e⟩ := raise_shape s n; rw [e]
@[simp] theorem raise_tablets (s : State) (n : Nat) : (raise s n).tablets = s.tablets := by obtain ⟨_, _, e⟩ := raise_shape s n; rw [e]
@[simp] theorem raise_dbg (s : State) (n : Nat) : (raise s n).dbg = s.dbg := by obtain ⟨_, _, e⟩ := raise_shape s n; rw [e]
@[simp] theorem raise_sst (s : State) (n : Nat) : (raise s n).sst = s.sst := by obtain ⟨_, _, e⟩ := raise_shape s n; rw [e]
@[simp] theorem raise_sstWear (s : State) (n : Nat) : (raise s n).sstWear = s.sstWear := by obtain ⟨_, _, e⟩ := raise_shape s n; rw [e]
@[simp] theorem raise_vigil (s : State) (n : Nat) : (raise s n).vigil = s.vigil := by obtain ⟨_, _, e⟩ := raise_shape s n; rw [e]
@[simp] theorem raise_card (s : State) (n : Nat) : (raise s n).card = s.card := by obtain ⟨_, _, e⟩ := raise_shape s n; rw [e]
@[simp] theorem raise_cardPresent (s : State) (n : Nat) : (raise s n).cardPresent = s.cardPresent := by obtain ⟨_, _, e⟩ := raise_shape s n; rw [e]
@[simp] theorem raise_lko (s : State) (n : Nat) : (raise s n).lko = s.lko := by obtain ⟨_, _, e⟩ := raise_shape s n; rw [e]
@[simp] theorem raise_tail (s : State) (n : Nat) : (raise s n).tail = s.tail := by obtain ⟨_, _, e⟩ := raise_shape s n; rw [e]
@[simp] theorem raise_power (s : State) (n : Nat) : (raise s n).power = s.power := by obtain ⟨_, _, e⟩ := raise_shape s n; rw [e]
@[simp] theorem raise_deadmen (s : State) (n : Nat) : (raise s n).deadmen = s.deadmen := by obtain ⟨_, _, e⟩ := raise_shape s n; rw [e]
@[simp] theorem raise_lastDeadman (s : State) (n : Nat) : (raise s n).lastDeadman = s.lastDeadman := by obtain ⟨_, _, e⟩ := raise_shape s n; rw [e]
@[simp] theorem raise_worksPlate (s : State) (n : Nat) : (raise s n).worksPlate = s.worksPlate := by obtain ⟨_, _, e⟩ := raise_shape s n; rw [e]
@[simp] theorem raise_kvs (s : State) (n : Nat) : (raise s n).kvs = s.kvs := by obtain ⟨_, _, e⟩ := raise_shape s n; rw [e]
@[simp] theorem raise_fusesOk (s : State) (n : Nat) : (raise s n).fusesOk = s.fusesOk := by obtain ⟨_, _, e⟩ := raise_shape s n; rw [e]

end Sys2Proof.Machine
end

