-- ==== Sys2Proof/Laws/Access.lean ====
section
/-! SUPPORT. What the shared operations around a meaning do: the guards of register rows, and what a meaning leads to at
once. -/

namespace Sys2Proof.Machine

/-- A permitted write of a register row is the row's own effect. -/
theorem guardedWrite_permitted (s : State) (m : Master) (a : Nat) (f : State → State) (h : MayWrite s m a) :
    guardedWrite s m a f = f s := by
  obtain ⟨h1, h2, h3, h4⟩ := h
  simp [guardedWrite, h1, h2, h3, h4]

/-- A permitted read of a register row is the row's own effect. -/
theorem guardedRead_permitted (s : State) (m : Master) (a : Nat) (f : State → State) (h : MayRead s m a) :
    guardedRead s m a f = f s := by
  obtain ⟨h1, h2, h3, h4, h5⟩ := h
  simp [guardedRead, h1, h2, h3, h4, h5]

/-- Without main power no register answers. -/
theorem guardedWrite_dark (s : State) (m : Master) (a : Nat) (f : State → State) (h : mainPower s = false) :
    guardedWrite s m a f = s := by simp [guardedWrite, h]

/-- Everything a register write can do: nothing, the denial, the host's gate, the seal fault, or the row's effect (R24, R25,
R53, R416). -/
theorem guardedWrite_cases (s : State) (m : Master) (a : Nat) (f : State → State) :
    (mainPower s = false ∧ guardedWrite s m a f = s) ∨
    (mainPower s = true ∧ permits s m .write a = false ∧ guardedWrite s m a f = failAccess s m .write a) ∨
    (mainPower s = true ∧ permits s m .write a = true ∧ hostHeld s m a = true ∧ guardedWrite s m a f = orR s Reg.HLK_ERR 4) ∨
    (mainPower s = true ∧ permits s m .write a = true ∧ hostHeld s m a = false ∧ regBad s a = true ∧
      guardedWrite s m a f = failSeal s .write a) ∨
    (MayWrite s m a ∧ guardedWrite s m a f = f s) := by
  unfold guardedWrite MayWrite
  cases mainPower s <;> cases permits s m .write a <;> cases hostHeld s m a <;> cases regBad s a <;> simp

/-- With no fence due nothing is fenced. -/
theorem finishFences_none (s : State) (h : fenceDue s = false) : finishFences s = s := by
  have hd : ∀ t ∈ List.range 8, denseAt s t = false := by simpa [fenceDue, List.any_eq_false] using h
  unfold finishFences
  generalize List.range 8 = l at hd
  induction l with
  | nil => rfl
  | cons t r ih =>
    rw [List.foldl_cons, hd t List.mem_cons_self]
    exact ih fun u hu => hd u (List.mem_cons_of_mem t hu)

/-- An export of the maintenance path whose turn has not come waits. -/
theorem serveUsb_none (s : State) (h : usbDue s = false) : serveUsb s.hlk.usbWait s = s := by
  unfold usbDue at h
  unfold serveUsb
  split at h <;> simp_all

/-- A mark that was not raised leaves nothing to do. -/
theorem settleMark_none (s : State) (h : s.log.raised = false) : settleMark s = s := by simp [settleMark, h]

/-- In a quiet state nothing follows a meaning. -/
theorem done_quiet (s : State) (h : Quiet s) : done s = .next s := by
  obtain ⟨h1, h2, h3, h4, h5⟩ := h
  have hc : (sealing s && (unfenced s).isEmpty) = false := by
    cases hs : sealing s with
    | false => rfl
    | true => simpa [List.isEmpty_iff] using h3 hs
  have hr : afterRounds 8 s = s := by
    simp [afterRounds, applyTrips, h1, checkTracks, finishFences_none s h2, hc, h2]
  simp [done, after, hr, serveUsb_none s h4, settleMark_none s h5]

/-- A permitted write that leads to nothing further is the row's own effect. -/
theorem writeOut_permitted (s : State) (m : Master) (a : Nat) (whole : Bool) (f : State → State) (h : MayWrite s m a) :
    writeOut s m a whole f = .next (f s) := by
  obtain ⟨h1, h2, h3, h4⟩ := h
  simp [writeOut, mend, h1, h2, h3, h4]

/-- No trip is left due after a command. -/
theorem afterRounds_due (n : Nat) (s : State) : (afterRounds n s).tripsDue = [] := by
  induction n generalizing s with
  | zero => rfl
  | succ n ih =>
    unfold afterRounds
    dsimp only
    split
    · next h => exact List.isEmpty_iff.1 (Bool.and_eq_true_iff.1 h).1
    · exact ih _

/-- A command that leads somewhere completes. -/
theorem Leads.next {c : Instr} {s : State} {P : State → Prop} (h : Leads c s P) : ∃ t, exec c s = .next t :=
  ⟨h.choose, h.choose_spec.1⟩

/-- A command leads to its next state. -/
theorem leads_of_exec {c : Instr} {s t : State} {P : State → Prop} (h : exec c s = .next t) (hp : P t) : Leads c s P :=
  ⟨t, h, hp⟩

end Sys2Proof.Machine
end

