-- ==== Sys2Proof/Laws/Keccak.lean ====
section
/-! SUPPORT. How many bytes the Keccak functions give (R303). -/

namespace Sys2Proof.Machine

theorem addConstant_length {w : Nat} (rc : BitVec w) (e : List (BitVec w)) : (addConstant rc e).length = e.length := by
  cases e <;> rfl

theorem keccakRound_length {w : Nat} (a : List (BitVec w)) (rc : BitVec w) : (keccakRound a rc).length = 25 := by
  simp only [keccakRound, addConstant_length, mixRows, List.length_map, List.length_range]

theorem foldl_keccakRound_length {w : Nat} (l a : List (BitVec w)) (h : a.length = 25) :
    (l.foldl keccakRound a).length = 25 := by
  induction l generalizing a with
  | nil => exact h
  | cons c r ih => exact ih _ (keccakRound_length a c)

theorem keccakF_length (a : List DWord) (h : a.length = 25) : (keccakF a).length = 25 :=
  foldl_keccakRound_length _ _ h

theorem le_length (n v : Nat) : (le n v).length = n := by
  induction n generalizing v with
  | zero => rfl
  | succ n ih => simp [le, ih]

theorem stateBytes_length (a : List DWord) : (stateBytes a).length = 8 * a.length := by
  induction a with
  | nil => rfl
  | cons d r ih => simp only [stateBytes, List.flatMap_cons, List.length_append, laneBytes, le_length, List.length_cons] at *; omega

theorem squeezeBlocks_length (rate n : Nat) (a : List DWord) (hr : rate ≤ 200) (h : a.length = 25) :
    (squeezeBlocks rate n a).length = rate * n := by
  induction n generalizing a with
  | zero => rfl
  | succ n ih =>
    simp only [squeezeBlocks, List.length_append, List.length_take, stateBytes_length, h, ih _ (keccakF_length a h), Nat.mul_succ]
    omega

theorem squeeze_length (rate n : Nat) (a : List DWord) (h0 : 0 < rate) (hr : rate ≤ 200) (h : a.length = 25) :
    (squeeze rate n a).length = n := by
  have : n < rate * (n / rate + 1) := by
    rw [Nat.mul_succ]
    exact Nat.lt_mul_div_succ n h0
  simp only [squeeze, List.length_take, squeezeBlocks_length rate _ a hr h]
  omega

/-- A sponge gives the bytes asked for. -/
theorem sponge_length (rate : Nat) (suffix : Byte) (m : Bytes) (n : Nat) (h0 : 0 < rate) (hr : rate ≤ 200) :
    (sponge rate suffix m n).length = n := by
  simp only [sponge]
  exact squeeze_length rate n _ h0 hr (keccakF_length _ (by simp))

/-- KMAC256 gives the bytes asked for. -/
theorem kmac256_length (key m : Bytes) (out : Nat) (s : Bytes) : (kmac256 key m out s).length = out := by
  simp only [kmac256, cshake256, cshake]
  split <;> exact sponge_length 136 _ _ out (by decide) (by decide)

end Sys2Proof.Machine
end

