-- ==== Sys2Proof/Laws/Map.lean ====
section
/-! SUPPORT. What the operations on sparse tables do: a read after a write, and the canonical form. -/

namespace Sys2Proof.Machine

variable {α : Type}

@[simp] theorem mget?_mput_same (m : SMap α) (i : Nat) (v : α) : mget? (mput m i v) i = some v := by
  induction m with
  | nil => simp [mput, mget?]
  | cons e r ih =>
    unfold mput
    split
    · next h => simp [mget?, h]
    · split <;> simp_all [mget?]

theorem mget?_mput_other (m : SMap α) (i j : Nat) (v : α) (h : j ≠ i) : mget? (mput m i v) j = mget? m j := by
  induction m with
  | nil => simp [mput, mget?, h]
  | cons e r ih =>
    unfold mput
    split
    · next hk => subst hk; simp [mget?, h]
    · split <;> simp_all [mget?]

@[simp] theorem mget?_mdel_same (m : SMap α) (i : Nat) : mget? (mdel m i) i = none := by
  induction m with
  | nil => rfl
  | cons e r ih =>
    unfold mdel
    split
    · exact ih
    · simp_all [mget?]

theorem mget?_mdel_other (m : SMap α) (i j : Nat) (h : j ≠ i) : mget? (mdel m i) j = mget? m j := by
  induction m with
  | nil => rfl
  | cons e r ih =>
    unfold mdel
    split
    · next hk => subst hk; simp [mget?, h, ih]
    · simp [mget?, ih]

@[simp] theorem mget_mset_same [DecidableEq α] (d : α) (m : SMap α) (i : Nat) (v : α) : mget d (mset d m i v) i = v := by
  unfold mset mget
  split
  · next h => simp [h]
  · simp

theorem mget_mset_other [DecidableEq α] (d : α) (m : SMap α) (i j : Nat) (v : α) (h : j ≠ i) :
    mget d (mset d m i v) j = mget d m j := by
  unfold mset mget
  split
  · rw [mget?_mdel_other _ _ _ h]
  · rw [mget?_mput_other _ _ _ _ h]

/-! ### The canonical form -/

theorem mwfFrom_mono (b c : Nat) (m : SMap α) (h : mwfFrom b m = true) (hc : c ≤ b) : mwfFrom c m = true := by
  cases m with
  | nil => rfl
  | cons e r =>
    simp only [mwfFrom, Bool.and_eq_true, decide_eq_true_eq] at h ⊢
    exact ⟨by omega, h.2⟩

theorem mwfFrom_mput (m : SMap α) (b i : Nat) (v : α) (h : mwfFrom b m = true) (hb : b ≤ i) :
    mwfFrom b (mput m i v) = true := by
  induction m generalizing b with
  | nil => simp [mput, mwfFrom, hb]
  | cons e r ih =>
    simp only [mwfFrom, Bool.and_eq_true, decide_eq_true_eq] at h
    unfold mput
    split
    · next hk => simp [mwfFrom, h.1, h.2]
    · split
      · simp only [mwfFrom, Bool.and_eq_true, decide_eq_true_eq]
        exact ⟨hb, by omega, h.2⟩
      · simp only [mwfFrom, Bool.and_eq_true, decide_eq_true_eq]
        exact ⟨h.1, ih _ h.2 (by omega)⟩

theorem mwfFrom_mdel (m : SMap α) (b i : Nat) (h : mwfFrom b m = true) : mwfFrom b (mdel m i) = true := by
  induction m generalizing b with
  | nil => rfl
  | cons e r ih =>
    simp only [mwfFrom, Bool.and_eq_true, decide_eq_true_eq] at h
    unfold mdel
    split
    · exact ih _ (mwfFrom_mono _ _ _ h.2 (by omega))
    · simp only [mwfFrom, Bool.and_eq_true, decide_eq_true_eq]
      exact ⟨h.1, ih _ h.2⟩

theorem mwf_mput (m : SMap α) (i : Nat) (v : α) (h : mwf m = true) : mwf (mput m i v) = true :=
  mwfFrom_mput m 0 i v h (Nat.zero_le i)

theorem mwf_mdel (m : SMap α) (i : Nat) (h : mwf m = true) : mwf (mdel m i) = true := mwfFrom_mdel m 0 i h

theorem all_mput (p : Nat × α → Bool) (m : SMap α) (i : Nat) (v : α) (h : m.all p = true) (hv : p (i, v) = true) :
    (mput m i v).all p = true := by
  induction m with
  | nil => simp [mput, hv]
  | cons e r ih =>
    simp only [List.all_cons, Bool.and_eq_true] at h
    unfold mput
    split
    · next hk => subst hk; simp [hv, h.2]
    · split <;> simp [hv, h.1, h.2, ih h.2]

theorem all_mdel (p : Nat × α → Bool) (m : SMap α) (i : Nat) (h : m.all p = true) : (mdel m i).all p = true := by
  induction m with
  | nil => rfl
  | cons e r ih =>
    simp only [List.all_cons, Bool.and_eq_true] at h
    unfold mdel
    split <;> simp [h.1, ih h.2]

/-- Setting an entry keeps the canonical form of a table with a default. -/
theorem mwfD_mset [DecidableEq α] (d : α) (m : SMap α) (i : Nat) (v : α) (h : mwfD (fun _ => d) m = true) :
    mwfD (fun _ => d) (mset d m i v) = true := by
  simp only [mwfD, Bool.and_eq_true] at h ⊢
  unfold mset
  split
  · exact ⟨mwf_mdel _ _ h.1, all_mdel _ _ _ h.2⟩
  · next hv => exact ⟨mwf_mput _ _ _ h.1, all_mput _ _ _ _ h.2 (by simpa using hv)⟩

end Sys2Proof.Machine
end

