-- ==== Sys2Proof/Laws/Memory.lean ====
section
/-! SUPPORT. Internal memory: what a read gives after a write, and the canonical form that every memory operation keeps. -/

namespace Sys2Proof.Machine

theorem mget_putBytes_out (m : SMap Byte) (a : Nat) (b : Bytes) (x : Nat) (h : x < a ∨ a + b.length ≤ x) :
    mget 0 (putBytes m a b) x = mget 0 m x := by
  induction b generalizing m a with
  | nil => rfl
  | cons c r ih =>
    simp only [List.length_cons] at h
    rw [putBytes, ih _ _ (by omega), mget_mset_other _ _ _ _ _ (by omega)]

theorem mget_putBytes_in (m : SMap Byte) (a : Nat) (b : Bytes) (i : Nat) (h : i < b.length) :
    mget 0 (putBytes m a b) (a + i) = b[i] := by
  induction b generalizing m a i with
  | nil => simp at h
  | cons c r ih =>
    cases i with
    | zero =>
      have := mget_putBytes_out (mset 0 m a c) (a + 1) r a (by omega)
      simpa [putBytes] using this.trans (mget_mset_same 0 m a c)
    | succ j =>
      have := ih (mset 0 m a c) (a + 1) j (by simpa using h)
      simpa [putBytes, Nat.add_assoc, Nat.add_comm 1 j] using this

/-- Storing bytes keeps the canonical form: addresses rise strictly and no entry is zero. -/
theorem mwfD_putBytes (m : SMap Byte) (a : Nat) (b : Bytes) (h : mwfD (fun _ => (0 : Byte)) m = true) :
    mwfD (fun _ => (0 : Byte)) (putBytes m a b) = true := by
  induction b generalizing m a with
  | nil => exact h
  | cons c r ih => exact ih _ _ (mwfD_mset _ _ _ _ h)

/-- The store of internal memory keeps the canonical form. -/
theorem memWrite_form (s : State) (a : Nat) (b : Bytes) (h : mwfD (fun _ => (0 : Byte)) s.mem = true) :
    mwfD (fun _ => (0 : Byte)) (memWrite s a b).mem = true := mwfD_putBytes _ _ _ h

@[simp] theorem memBytes_length (s : State) (a n : Nat) : (memBytes s a n).length = n := by simp [memBytes]

end Sys2Proof.Machine
end

