-- ==== Sys2Proof/Laws/Registers.lean ====
section
/-! SUPPORT. What a read gives after a write: the register bank, the settings, word registers, predicates, cores, tracks,
lanes and line records. -/

namespace Sys2Proof.Machine

/-! ### The register bank -/

@[simp] theorem getR_setR_same (s : State) (a : Nat) (v : Word) : getR (setR s a v) a = v := by
  unfold getR setR
  split <;> simp_all

theorem getR_setR_other (s : State) (a b : Nat) (v : Word) (h : b ≠ a) : getR (setR s a v) b = getR s b := by
  unfold getR setR
  split <;> simp [mget?_mdel_other, mget?_mput_other, h]

theorem getR_setR (s : State) (a b : Nat) (v : Word) : getR (setR s a v) b = if b = a then v else getR s b := by
  split
  · next h => subst h; simp
  · next h => exact getR_setR_other s a b v h

theorem orR_eq (s : State) (a : Nat) (m : Word) : orR s a m = setR s a (getR s a ||| m) := rfl
theorem clearR_eq (s : State) (a : Nat) (m : Word) : clearR s a m = setR s a (getR s a &&& ~~~m) := rfl
theorem setFieldR_eq (s : State) (a lo n v : Nat) : setFieldR s a lo n v = setR s a (withBits (getR s a) lo n v) := rfl
theorem setR64_eq (s : State) (a : Nat) (v : DWord) : setR64 s a v = setR (setR s a (lo32 v)) (a + 4) (hi32 v) := rfl

/-- Raising a source leaves the register bank alone. -/
@[simp] theorem getR_raise (s : State) (n a : Nat) : getR (raise s n) a = getR s a := by simp [getR]

/-- The bank keeps its canonical form: no entry equals the register's reset value. -/
theorem setR_wf (s : State) (a : Nat) (v : Word) (h : mwfD regDefault s.regs = true) :
    mwfD regDefault (setR s a v).regs = true := by
  simp only [mwfD, Bool.and_eq_true] at h ⊢
  unfold setR
  split
  · exact ⟨mwf_mdel _ _ h.1, all_mdel _ _ _ h.2⟩
  · next hv => exact ⟨mwf_mput _ _ _ h.1, all_mput _ _ _ _ h.2 (by simpa using hv)⟩

/-! ### Settings -/

/-- With the fuses in order a setting reads as it was written. -/
theorem sstGet_sstPut_same (s : State) (i : Nat) (v : DWord) (h : s.fusesOk = true) : sstGet (sstPut s i v) i = v := by
  unfold sstGet sstPut
  split <;> simp_all

theorem sstGet_sstPut_other (s : State) (i j : Nat) (v : DWord) (h : j ≠ i) : sstGet (sstPut s i v) j = sstGet s j := by
  have hc : settingCell j ≠ settingCell i := fun e => h (by unfold settingCell at e; omega)
  unfold sstGet sstPut
  split <;> simp [mget?_mdel_other, mget?_mput_other, h, hc]

/-! ### Word registers and predicates (R360) -/

@[simp] theorem readW_zero (w : World) : readW w 0 = 0 := rfl

theorem readW_writeW_same (w : World) (i : BitVec 5) (v : Word) (h : i ≠ 0) : readW (writeW i v w) i = v := by
  unfold readW writeW
  rw [if_neg h, if_neg h]
  exact Vector.getElem_set_self i.isLt

theorem readW_writeW_other (w : World) (i j : BitVec 5) (v : Word) (h : j ≠ i) : readW (writeW i v w) j = readW w j := by
  have hn : i.toNat ≠ j.toNat := fun e => h (BitVec.eq_of_toNat_eq e.symm)
  unfold writeW
  split
  · rfl
  · unfold readW
    split
    · rfl
    · exact Vector.getElem_set_ne i.isLt j.isLt hn

@[simp] theorem writeW_zero (w : World) (v : Word) : writeW 0 v w = w := rfl
@[simp] theorem writeP_zero (w : World) (b : Bool) : writeP 0 b w = w := rfl
@[simp] theorem readP_zero (w : World) : readP w 0 = true := rfl

theorem readP_writeP_same (w : World) (i : BitVec 3) (b : Bool) (h : i ≠ 0) : readP (writeP i b w) i = b := by
  unfold readP writeP
  rw [if_neg h, decide_eq_false h]
  have : i.toNat < 8 := i.isLt
  cases b <;> simp [this]

/-! ### Cores, tracks, lanes, lines -/

theorem coreAt_setCore_same (s : State) (n : Nat) (c : Core) (h : n < 4) : coreAt (setCore s n c) n = c := by
  simp [coreAt, setCore, h]

theorem coreAt_setCore_other (s : State) (n k : Nat) (c : Core) (h : k ≠ n) : coreAt (setCore s n c) k = coreAt s k := by
  simp [coreAt, setCore, Ne.symm h]

theorem trackAt_setTrack_same (s : State) (n : Nat) (k : Track) (h : n < 8) : trackAt (setTrack s n k) n = k := by
  simp [trackAt, setTrack, h]

theorem trackAt_setTrack_other (s : State) (n m : Nat) (k : Track) (h : m ≠ n) : trackAt (setTrack s n k) m = trackAt s m := by
  simp [trackAt, setTrack, Ne.symm h]

theorem laneAt_setLane_same (s : State) (n : Nat) (k : Lane) (h : n < 4) : laneAt (setLane s n k) n = k := by
  simp [laneAt, setLane, h]

theorem laneAt_setLane_other (s : State) (n m : Nat) (k : Lane) (h : m ≠ n) : laneAt (setLane s n k) m = laneAt s m := by
  simp [laneAt, setLane, Ne.symm h]

@[simp] theorem getLine_setLine_same (s : State) (l : Nat) (r : Line) : getLine (setLine s l r) l = r :=
  mget_mset_same Line.closed s.lne.lines l r

theorem getLine_setLine_other (s : State) (l k : Nat) (r : Line) (h : k ≠ l) : getLine (setLine s l r) k = getLine s k :=
  mget_mset_other Line.closed s.lne.lines l k r h

/-- The return stack never holds more than 24 entries (R375). -/
theorem pushStack_length (v : Word) (w : World) : (pushStack v w).rstack.length ≤ 24 := by
  simp [pushStack]

end Sys2Proof.Machine
end

