-- ==== Sys2Proof/Machine/Binary64.lean ====
section
/-! DEFINITION. The binary64 arithmetic of a lane's floating-point unit: addition, subtraction, multiplication, rounding and
truncation, to nearest with ties to even, subnormals in full (R334). A finite number is a whole multiple of 2^-1074. The
key generation and the sampler that use the unit are the opaque functions of Config (log entry 7). -/

namespace Sys2Proof.Machine

/-- Sign, exponent field and fraction. -/
def f64Sign (x : DWord) : Bool := x.getLsbD 63
def f64Exp (x : DWord) : Nat := x.toNat / 2 ^ 52 % 2048
def f64Frac (x : DWord) : Nat := x.toNat % 2 ^ 52

def f64IsInf (x : DWord) : Bool := decide (f64Exp x = 2047 ∧ f64Frac x = 0)
def f64IsNan (x : DWord) : Bool := decide (f64Exp x = 2047 ∧ f64Frac x ≠ 0)

/-- The magnitude of a finite number in units of 2^-1074. -/
def f64Mag (x : DWord) : Nat :=
  if f64Exp x = 0 then f64Frac x else (2 ^ 52 + f64Frac x) * 2 ^ (f64Exp x - 1)

/-- A finite number in units of 2^-1074. -/
def f64Value (x : DWord) : Int := if f64Sign x then -(Int.ofNat (f64Mag x)) else Int.ofNat (f64Mag x)

def f64Nan : DWord := 0x7FF8000000000000
def f64Inf (neg : Bool) : DWord := if neg then 0xFFF0000000000000 else 0x7FF0000000000000
def f64Zero (neg : Bool) : DWord := if neg then 0x8000000000000000 else 0

/-- `v / 2^k` rounded to the nearest whole number, ties to even. -/
def roundShift (v k : Nat) : Nat :=
  let q := v / 2 ^ k
  let r := v % 2 ^ k
  if 2 * r < 2 ^ k ∨ (2 * r = 2 ^ k ∧ q % 2 = 0) then q else q + 1

/-- The number nearest to `m · 2^-(1074 + s)`. -/
def f64Round (neg : Bool) (m s : Nat) : DWord :=
  if m = 0 then f64Zero neg
  else
    let shift := max s (m.log2 - 52)
    let r := roundShift m shift
    let e := shift - s
    let mag := if r < 2 ^ 52 then r else (e + 1) * 2 ^ 52 + (if r = 2 ^ 53 then 2 ^ 52 else r - 2 ^ 52)
    if 2047 * 2 ^ 52 ≤ mag then f64Inf neg else BitVec.ofNat 64 (mag + (if neg then 2 ^ 63 else 0))

/-- Sum of two finite numbers; an exact zero is positive unless both are negative. -/
def f64AddFinite (a b : DWord) : DWord :=
  let v := f64Value a + f64Value b
  if v = 0 then f64Zero (f64Sign a && f64Sign b) else f64Round (decide (v < 0)) v.natAbs 0

def f64Add (a b : DWord) : DWord :=
  if f64IsNan a || f64IsNan b then f64Nan
  else if f64IsInf a then (if f64IsInf b && f64Sign a != f64Sign b then f64Nan else a)
  else if f64IsInf b then b
  else f64AddFinite a b

def f64Neg (a : DWord) : DWord := a ^^^ 0x8000000000000000

def f64Sub (a b : DWord) : DWord := if f64IsNan b then f64Nan else f64Add a (f64Neg b)

def f64Mul (a b : DWord) : DWord :=
  let neg := f64Sign a != f64Sign b
  if f64IsNan a || f64IsNan b then f64Nan
  else if f64IsInf a || f64IsInf b then
    (if (f64Mag a = 0 && !f64IsInf a) || (f64Mag b = 0 && !f64IsInf b) then f64Nan else f64Inf neg)
  else f64Round neg (f64Mag a * f64Mag b) 1074

/-- The whole number nearest to a finite number, ties to even. -/
def f64Rint (a : DWord) : Int :=
  let n := roundShift (f64Mag a) 1074
  if f64Sign a then -(Int.ofNat n) else Int.ofNat n

/-- A finite number without its fraction. -/
def f64Trunc (a : DWord) : Int :=
  let n := f64Mag a / 2 ^ 1074
  if f64Sign a then -(Int.ofNat n) else Int.ofNat n

end Sys2Proof.Machine
end

