-- ==== Sys2Proof/Tests/Slice0.lean ====
section
/-! SUPPORT. Small states; ill-formed commands that the check refuses; a few commands with the results the spec gives; and for
every statement with hypotheses a state and operands that meet them, clause by clause. -/

set_option maxRecDepth 20000
set_option Elab.async false

namespace Sys2Proof.Tests

open Sys2Proof Sys2Proof.Machine

/-! ### States -/

/-- A data line with rings of 2^8 slots. -/
def openLine : Line :=
  { Line.closed with state := .opened, halt := true, upLog2 := 8, dnLog2 := 8, dnBase := 0x20000, vector := 3, vecEn := true,
                     parent := 9, ready := true }

def ctxOf (service : Bool) : Context :=
  { service := service, verify := false, cls := 1, upLog2 := 8, dnLog2 := 8, vector := 3, vecEn := true, upBase := 0x10000,
    dnBase := 0x20000, parent := 9, generation := 2, sequence := 7, records := 100, lastTtc := 500, lastEpoch := 1,
    chainHead := zeros 32, openTtc := 400, openEpoch := 1 }

def control : Line := { openLine with vecEn := false, parent := 0, service := true }

/-- The device after reset, with a K_vs written out. -/
def z0 : State :=
  { State.reset with kvs := zeros 32, vigil := { Vigil.reset with fence := List.replicate 64 1 } }

/-- A device in Maintenance with a trained link, a session, and two lines. -/
def m0 : State :=
  { z0 with
    mode := .maintenance, prevMode := .shed, booted := true, coresRun := true, ttc := 1000,
    regs := [(Reg.HLK_STATUS, 0x201), (Reg.HLK_CL_CONFIG, 0x80000808)],
    hlk := { HostLink.reset with up := true, mask := 0 },
    lne := { State.reset.lne with
      lines := [(0, control), (5, { openLine with resident := true }), (6, { openLine with service := true, resident := true })],
      contexts := [(5, ctxOf false), (6, ctxOf true)],
      cache := [(5, .live true false), (6, .live false false)], places := [(0, 5), (1, 6)], credit := 100, kctx := zeros 32, nextId := 10 },
    power := { Power.reset with contractMw := 60000, tier := 2, bankMv := 20000 } }

/-- A device in Running with an open epoch and all tracks and lanes in use. -/
def r0 : State :=
  { m0 with
    mode := .running, prevMode := .maintenance,
    tracks := Vector.replicate 8 { Track.reset with enabled := true },
    lanes := Vector.replicate 4 { Lane.reset with enabled := true },
    su := { SealUnit.reset with
      open_ := some { number := 3, ttcStart := 900, restart := false, consists := 2, tier := 2, caution := false, changed := [], during := [],
                      largestStamp := 950 }, basePending := false } }

def setReg (s : State) (a : Nat) (v : Word) : State := setR s a v

/-- Registers of a state set one after another. -/
def withRegs (s : State) : List (Nat × Word) → State
  | [] => s
  | e :: r => withRegs (setR s e.1 e.2) r

/-- A waybill: opcode, FLAGS and fields at their offsets; the tag is 0x1234. -/
def wb (op flags : Nat) (fields : List (Nat × Bytes)) : Bytes :=
  fields.foldl (fun b e => patch b e.1 e.2) ([0x34, 0x12, BitVec.ofNat 8 op, BitVec.ofNat 8 flags] ++ zeros 60)

def flight (id : Nat) (phase : Phase) (raw : Bytes) : Flight :=
  { id := id, raw := raw, phase := phase, track := 0, stamp := 0, records := [], key := [], status := 0, decided := 0,
    gasp := false, completion := [], admitTtc := 990, waitFor := 0, order := 0, place := none, assigned := false, advance := 0 }

def withFlights (s : State) (l : Nat) (fs : List Flight) : State := modLine s l (fun r => { r with flights := fs })

def wideRoute : Route :=
  { valid := true, lock := false, debug := 1, base := 0x11000, limit := 0x600FF, rmask := BitVec.allOnes 64,
    wmask := BitVec.allOnes 64, xmask := BitVec.allOnes 64 }

/-- Every master may read, write and execute all of memory, the TAP in a session of level 1. -/
def wide (s : State) : State := setR { s with routes := [(1, wideRoute)], shadows := Vector.replicate 4 [(1, wideRoute)] } Reg.ILK_STATUS 1

def sram : Nat := 0x20000000

/-- A data-line waybill of opcode `op` with 2 records, ready to be stamped on track 1. -/
def dataFlight (op flags : Nat) (fields : List (Nat × Bytes)) : Flight :=
  { flight 4 .ready (wb op flags ((4, le 4 2) :: fields)) with track := 1, key := zeros 200, assigned := true }

def dataState (f : Flight) : State := withFlights r0 5 [f]

/-- Its records stand in the first half of the buffer of track 1, which is closed. -/
def inBuffer (f : Flight) : Flight := { f with records := (List.range 32).map (fun i => BitVec.ofNat 8 i), place := some (false, 0) }

def buffered (f : Flight) : State :=
  { dataState (inBuffer f) with
    tracks := r0.tracks.set 1 { Track.reset with enabled := true, half0 := { records := 2, consists := 1, closed := true }, fill1 := true } }

def verifyCtx : Context := { ctxOf false with verify := true }

def verifyState (f : Flight) : State := { dataState f with lne := { (dataState f).lne with contexts := [(5, verifyCtx), (6, ctxOf true)] } }

def recs : Bytes := (List.range 32).map (fun i => BitVec.ofNat 8 i)

def trackSt (f : Track) : State := { r0 with tracks := (r0.tracks).set 2 f }

def branchOf (kind : Nat) (parent depth : Nat) (label : Byte) : Branch :=
  { state := .valid, kind := BitVec.ofNat 3 kind, parent := parent, depth := depth, label := label :: zeros 31,
    mask := BitVec.allOnes 64, uses := 50, expire := false, generation := 0, installed := false, lines := 0, key := [],
    created := 5, usesSaved := 50 }

/-- A branch table with one branch of each kind, under a Trunk, with entropy. -/
def keyed (s : State) : State :=
  setR { s with
    vigil := { s.vigil with trunk := .valid, trunkKey := List.replicate 32 7 }, tableBuilt := true,
    worksPlate := List.replicate 32 9,
    branches := [(2, branchOf 2 0 1 2), (3, branchOf 3 0 1 3), (4, branchOf 4 0 1 4), (5, branchOf 5 6 2 5),
                 (6, branchOf 6 0 1 6), (9, branchOf 1 0 1 9)],
    image := some { bytes := zeros 96, counts := [] },
    sst := [(3, 0x80000002)], keyCache := [{ parent := 9, parentGen := 0, line := some (5, 2), ancestors := [9, 0], key := zeros 200 }],
    ent := { s.ent with pool := recs200, startup := 0, biased := true } } Reg.ENT_STATUS 1
where recs200 : Bytes := (List.range 200).map (fun i => BitVec.ofNat 8 (i * 3 + 1))

/-- A branch command for target 12 under branch 9, of kind 1, with 5 uses; the buffer lies in memory. -/
def btrArgs (s : State) : State :=
  withRegs (wide s) [(Reg.BTR_ARG, 0x0009100C), (Reg.BTR_ARG2, 5), (Reg.BTR_BUF, 0x20000000)]

def c0 : State := { keyed m0 with mode := .commissioning }

def job0 (p : SealPhase) : SealJob :=
  { epoch := { number := 3, ttcStart := 900, restart := false, consists := 2, tier := 2, caution := false, changed := [(5, { seq := 8, head := zeros 32 })], during := [],
               largestStamp := 950 }, ttcEnd := 1000, condemned := false, flags := 0, phase := p, leaves := [(5, { seq := 8, head := zeros 32 })],
    header := zeros 128, signature := [], plant := [], plantSig := [], serial := 0 }

def frame0 (typ : Byte) (n : Nat) : Frame :=
  { typ := typ, frag := 0, more := false, serial := n, ttc := 5, epoch := 0, body := zeros 200, link := zeros 16, lost := false }

def withJobs (s : State) (js : List SealJob) : State := { s with su := { s.su with jobs := js } }

def withStaging (s : State) (w : List StagingWrite) : State := { s with log := { s.log with staging := w } }

def station0 : Station :=
  { state := .enrolled, pubKey := zeros 8, label := zeros 32, pubDigest := zeros 32, ctDigest := zeros 32, escrow := zeros 32,
    escrowCheck := zeros 8, branch := 0, format := 1, sId := zeros 16, digest := zeros 32, epoch := 2, lastRelay := 0, relays := [],
    stale := false, moved := false, snapEpoch := 0, snapId := zeros 16, snapDigest := zeros 32 }

def svcFlight (op flags : Nat) (fields : List (Nat × Bytes)) : Flight := flight 3 .service (wb op flags fields)

/-- A service waybill alone on line 6, under a Trunk with branches. -/
def svc (s : State) (op flags : Nat) (fields : List (Nat × Bytes)) : State := withFlights (keyed s) 6 [svcFlight op flags fields]

def emptyCard : CardImage :=
  { failStep := 0, cid := zeros 16, bus := 1, locked := false, password := [], hdr0 := [], hdr8 := [], units := [], capacity := 10, erased := false }

def withCardImg (s : State) (i : CardImage) : State :=
  { setR s Reg.CCI_STATUS 0x4 with card := some { img := i, unlocked := false, erasing := false, session := none }, cardPresent := true }

def cardOf (i : CardImage) : Card := { img := i, unlocked := false, erasing := false, session := none }

def exportSession : CardSession :=
  { line := 6, id := 3, cursor := 1, left := 3, units := 0, nextUnit := 0, prev := zeros 32, newest := 2, first := 1, seq := 0, advance := true }

def logState (s : State) : State := { s with log := { s.log with frames := [frame0 1 1, frame0 5 2], next := 3 } }

def cardLocks (s : State) : State :=
  { s with branches := [(4, { branchOf 4 6 2 4 with label := cardlockLabel }), (6, branchOf 6 0 1 6)] }

/-- Master 12 owns the digest engine and the arithmetic engine. -/
def owned (s : State) : State := withRegs { wide s with tableBuilt := true } [(Reg.KDE_LOCK, 12), (Reg.MAE_LOCK, 12), (Reg.MAE_SLOCK, 12)]

def kdeReady (s : State) : State :=
  withRegs (owned s) [(Reg.KDE_CONFIG, 2), (Reg.KDE_TOTAL, 64), (Reg.KDE_OUTLEN, 32), (Reg.KDE_SRC, 0x20000000), (Reg.KDE_SEGLEN, 32), (Reg.KDE_BLOB, 0x20001000)]

def kdeJob (s : State) (status : Word) : State :=
  { setR (kdeReady s) Reg.KDE_STATUS status with kde := { s.kde with config := 2, total := 64, outLen := 32, ksv := zeros 32, src := 0x20000000, seg := 32 }, mem := [(0x20000003, 5)] }

def savedBlob : Bytes := kdeBlob (kdeJob r0 2).kde 0 (zeros 16)

def maeArgs (s : State) (op : Word) : State :=
  withRegs (owned s) [(Reg.MAE_OP, op), (Reg.MAE_ARGS0, 0x03020100), (Reg.MAE_ARGS1, 0x07060504)]

def maeRun (s : State) (op : Word) : State :=
  { setR (maeArgs s op) Reg.MAE_STATUS 1 with
    mae := { s.mae with job := some (op, 0x03020100, 0x07060504) }, mem := [(0x500001FF, 5), (0x500003FF, 7), (0x500005FF, 11)] }

def descWords (op len : Nat) : Bytes :=
  patch (patch (patch (patch (patch (zeros 64) 0 [BitVec.ofNat 8 op, 0, 2, 0]) 8 (le 4 0x20002000)) 12 (le 4 len)) 16 (le 4 0x20003000)) 24 (le 4 0x800)

/-- A core world with numbers in its registers, at a place in memory. -/
def busyWorld (w : World) : World :=
  { w with pc := 0x20000000, p := 0x2B, shadow := true, vbase := 0x20008000,
           w := ((((w.w.set 1 0xFFFFFFF5).set 2 7).set 3 0x20004000).set 4 0x20005003).set 5 0x80000000 }

/-- Core 1 runs in its Signalbox supervisor world. -/
def sig1 (s : State) : State := modWorld (wide s) 1 busyWorld

/-- Core 1 runs in its Platform world, at user level. -/
def plat1 (s : State) : State :=
  modWorld (setCore (wide s) 1 { coreAt (wide s) 1 with signalbox := false }) 1 (fun w => { busyWorld w with level := false })

def at1 (p : BitVec 3) (neg : Bool) : Issue := { core := 1, p := p, neg := neg }

/-- Core 1 in its Signalbox supervisor world, its interrupt shadow over. -/
def sig2 (s : State) : State := unshadow (sig1 s) 1

def words1 (f : World → World) : State := modWorld { sig1 r0 with mem := [(0x20004000, 0x81), (0x20004001, 0x92), (0x20004002, 3), (0x20004041, 9)] } 1 f

def alsoUnshadow (s : State) : State := unshadow s 1

/-- Core 1 with a place for an exception frame in each of its worlds. -/
def framed (s : State) : State :=
  modCoreWorlds s (fun w => { w with ssp := 0x20006020 })
where modCoreWorlds (s : State) (g : World → World) : State :=
  setCore s 1 { coreAt s 1 with plat := g (coreAt s 1).plat, sig := g (coreAt s 1).sig }

/-- Core 1 in its Platform world at supervisor level. -/
def platSup (s : State) : State := modWorld (plat1 s) 1 (fun w => { w with level := true, rstack := [4, 8], lw0 := 1, lw1 := 3, lw2 := 5 })

/-- A frame to return from: PC, STATUS, CAUSE, FAULT, P, LW0, LW1, LW2. -/
def withFrame (s : State) (pc st : Word) : State :=
  { s with mem := putBytes s.mem 0x20006020 (([pc, st, 0, 0, 0x23, 0x20000001, 5, 0xFFFFFFFF] : List Word).flatMap wordBytes) }

/-- Core 1 in a debug session of level 2 with every halt armed. -/
def armedState : State := withRegs (framed (platSup r0)) [(Reg.ILK_STATUS, 2), (Reg.DBG_SESSION, 0x3FE)]

/-- A route in staging, for route 5: pages 0x11000 to 0x11010 of the core memories. -/
def staged (s : State) : State :=
  withRegs (wide s) [(Reg.ILK_SEL, 5), (Reg.ILK_ATTR, 5), (Reg.ILK_BASE, 0x11000000), (Reg.ILK_LIMIT, 0x11010FFF), (Reg.ILK_RMASK, 0xFF),
    (Reg.ILK_WMASK + 4, 0xF0)]

/-- Route 5 of the table. -/
def withRoute (s : State) (r : Route) : State := { s with routes := mput s.routes 5 r }

/-- A debug certificate of level 1 for core 1, with a fresh nonce. -/
def certState (s : State) (level : Byte) : State :=
  { s with dbg := { s.dbg with nonce := zeros 32, fresh := true, cert := [1, level, 2] ++ zeros 3200 } }

/-- A source reached by a trip: Running or on the cell. -/
def stabled : State := { r0 with mode := .stabled }

/-- Core 1 halted in both worlds. -/
def halted1 (s : State) : State := setCore s 1 { coreAt s 1 with haltP := true, haltS := true }

/-- The Lookout in Europe. -/
def radio (s : State) : State := { wide s with sst := [(8, 1)] }

def withInv (s : State) (v : Inventory) : State := { s with lko := { s.lko with inv := some v } }

def inv0 (o : InvOwner) : Inventory :=
  { owner := o, round := 1, rounds := 2, maxTags := 4, slot := 0, q := 4, qfp := 40, replies := 0, entries := [], seen := [], badgeRan := false }

def tag1 : TagObs := { rn := 0x5A5A, pc := 0x3000, epc := zeros 12, rssi := 200 }

/-- A badge of person 3. -/
def badge1 : BadgeObs :=
  { rn := 0x1111, person := 3, tid := zeros 12, handle := 0x2222, cover := (0x3333, 0x4444), password := 0, user := zeros 32 }

/-- An engine that the branch tree unit has to wait for: a long job runs in the arithmetic engine. -/
def engineBusy (s : State) : State := setR s Reg.MAE_STATUS 1

/-- A tag in a field. -/
def tagIn (s : State) (st : TagState) : State :=
  { s with tail := { s.tail with field := true, state := st, slot := 3, q := 4, session := 1, rn := 0x1234, handle := 0x4321 } }

def spr (mv ma : Nat) : Pdo := { fixed := true, epr := false, mv := mv, ma := ma }

/-- The die out of reset, at full power, in Shed. -/
def cold : State := { z0 with power := { Power.reset with contractMw := 60000, tier := 2, bankMv := 20000 } }

def bootRec1 : BootRec := { seq := 3, stateA := 4, stateB := 3, active := false, verA := 7, verB := 8 }

def withRecord (s : State) (r : BootRec) : State := { s with flash := { s.flash with bootRec0 := recBytes r } }

/-- The firmware has been started; the boot is not complete. -/
def booting (s : State) (tr : Trunk) : State :=
  { setR s Reg.ENT_STATUS 1 with coresRun := true, tableBuilt := true, vigil := { s.vigil with trunk := tr } }

/-- Core 1 with two return addresses, loop words and a place for a frame. -/
def spState : State :=
  modWorld (sig1 r0) 1 (fun w => { w with rstack := [4, 8], lw0 := 0x20001000, lw1 := 3, lw2 := 5, ssp := 0x20006020 })

/-- As `spState`, with a register of the other world selected. -/
def xState : State := setCore spState 1 { coreAt spState 1 with xsel := 0x23, plat := busyWorld (World.reset false) }

def core1 : State := words1 (fun w => w)

/-- A copy between two places of memory that is under way. -/
def copying : State :=
  { withRegs (wide r0) [(Reg.DMA_LEN 2, 5), (Reg.DMA_SRC 2, 0x20000000), (Reg.DMA_DST 2, 0x20000002), (Reg.DMA_STATUS 2, 0xFF0001)]
    with mem := [(sram, 1), (sram + 3, 2)] }

theorem copyLoop_internal (c : Nat) (h : Bytes) (l : List (Nat × Nat)) (s : State) (n : Nat) :
    copyLoop c 0 h l s n = copyLoop c 0 [] l s n := by
  induction l generalizing s n with
  | nil => rfl
  | cons e r ih =>
    obtain ⟨lo, hi⟩ := e
    simp only [copyLoop, readPart, if_neg (show ¬((0 : Nat) = 1) by decide)]
    split
    · rfl
    · split
      · rfl
      · exact ih _ _

theorem dmaCopies (k : Nat) (h : Bytes) (hk : k ≤ dmaLen copying 2) : (copyBytes copying 2 k h).outcome = .ok := by
  have h5 : dmaLen copying 2 = 5 := by decide +kernel
  have hd : dmaDir copying 2 = 0 := by decide +kernel
  unfold copyBytes
  rw [hd, copyLoop_internal]
  have : k = 0 ∨ k = 1 ∨ k = 2 ∨ k = 3 ∨ k = 4 ∨ k = 5 := by omega
  rcases this with rfl | rfl | rfl | rfl | rfl | rfl <;> decide +kernel

/-- A Station whose escrowed key is wrapped under the present Trunk; a rescue blob names it. -/
def escrowed : State :=
  { btrArgs (keyed r0) with
    stations := [(7, { station0 with label := 1 :: zeros 31, escrowCheck := trunkCheckNow (keyed r0) })],
    mem := putBytes [] sram (zeros 24 ++ [1]) }

theorem escrowed_key :
    pairKey escrowed (slice (slice (memBytes escrowed (btrBuf escrowed) 4922) 0 184) 24 32) =
      .escrow (xorBytes (zeros 32)
        (escrowMask (List.replicate 32 7) (slice (slice (memBytes escrowed (btrBuf escrowed) 4922) 0 184) 24 32) 7)) := by
  have hl : slice (slice (memBytes escrowed (btrBuf escrowed) 4922) 0 184) 24 32 = 1 :: zeros 31 := by decide +kernel
  rw [hl]
  have hb : escrowed.branches.find? (fun e => decide (e.2.kind = 6 ∧ e.2.label = 1 :: zeros 31) && chainValid escrowed e.1) = none := by
    decide +kernel
  have hs : escrowed.stations.find? (fun e => decide (e.2.state ≠ .free ∧ e.2.label = 1 :: zeros 31)) =
      some (7, { station0 with label := 1 :: zeros 31, escrowCheck := trunkCheckNow (keyed r0) }) := by
    simp [escrowed, station0]
  have hc : trunkCheckNow (keyed r0) = trunkCheckNow escrowed := rfl
  unfold pairKey
  rw [hb, hs]
  simp only [hc, if_true]
  rfl

/-- A device whose stored branch image belongs to its Trunk. -/
def imaged : State :=
  { keyed r0 with
    tableBuilt := false,
    image := some { bytes := imageBytes (List.replicate 32 7) (trunkCheckNow (keyed r0)) 0 [(9, branchOf 1 0 1 9)], counts := [] } }

def heldState : State := { r0 with mode := .caution, prevMode := .running, vigil := { r0.vigil with held := true } }
/-- The body of the image of `imaged`. -/
def imagedBody : Bytes :=
  [1, 0] ++ le 2 1 ++ le 4 0 ++ slice (trunkCheckNow (keyed r0)) 0 8 ++ zeros 48 ++
    imageRecord (imageKey (List.replicate 32 7)) 0 9 (branchOf 1 0 1 9)

theorem imaged_ok : imageOpens imaged (imaged.image.getD { bytes := [], counts := [] }) = true := by
  have hb : imageBytes (List.replicate 32 7) (trunkCheckNow (keyed r0)) 0 [(9, branchOf 1 0 1 9)] =
      imagedBody ++ kmac256 (imageKey (List.replicate 32 7)) imagedBody 32 asciiTable := by
    simp [imageBytes, imagedBody]
  have h1 : ∀ tag, num (imagedBody ++ tag) 4 4 = imageSerial imaged := fun tag => by
    have : imagedBody = [1, 0, 1, 0, 0, 0, 0, 0] ++ imagedBody.drop 8 := rfl
    rw [this]; rfl
  have h2 : ∀ tag, slice (imagedBody ++ tag) 8 8 = trunkCheckNow imaged := fun tag => by
    have hc : (trunkCheckNow (keyed r0)).length = 8 := by decide +kernel
    have : imagedBody = [1, 0, 1, 0, 0, 0, 0, 0] ++ (trunkCheckNow (keyed r0) ++ (zeros 48 ++
        imageRecord (imageKey (List.replicate 32 7)) 0 9 (branchOf 1 0 1 9))) := by
      have : slice (trunkCheckNow (keyed r0)) 0 8 = trunkCheckNow (keyed r0) := by simp [slice, hc]
      simp [imagedBody, this]; rfl
    rw [this]; simp [slice, hc]; rfl
  have h3 : imaged.image.getD { bytes := [], counts := [] } =
      { bytes := imagedBody ++ kmac256 (imageKey (List.replicate 32 7)) imagedBody 32 asciiTable, counts := [] } := by
    rw [← hb]; rfl
  have hk : imaged.vigil.trunkKey = List.replicate 32 7 := rfl
  rw [h3]
  simp [imageOpens, h1, h2, hk, imageTrailer, kmac256_length]

/-- The staging ring is full: the oldest staged write still waits for the log. -/
def fullRing (s : State) : State :=
  { s with flash := { s.flash with stagingBytes := 7348420608, staged := [(1, 0)] } }

/-- The last segment of a job that compares 32 bytes. -/
def comparing : State :=
  { setR (kdeJob r0 1) Reg.KDE_ABSORBED 32 with kde := { (kdeJob r0 1).kde with config := 0x812 } }

/-- Nothing is held for the host. -/
theorem held_plain_nil {s : State} (h : s.hlk.held = []) : HeldPlain s := by
  unfold HeldPlain; rw [h]; intro _ hh; cases hh

/-- Core 1 with a seal mismatch in the top of its return stack. -/
def badTop1 : State := modWorld (sig1 r0) 1 (fun w => { w with rstack := [4, 8], badStack := 2 })

/-! ### Ill-formed commands are refused -/

theorem test_wf_bulk : (Instr.bulkWaybill [] ⟨[], []⟩).wellFormed = false := by decide
theorem test_wf_dma (b : Bytes) (h : 16777216 < b.length) : (Instr.dmaCopyEnd 0 b .ok).wellFormed = false := by
  simp [Instr.wellFormed]; omega
theorem test_wf_admission : (Instr.admission 5 [1]).wellFormed = false := by decide
theorem test_wf_retry : (Instr.entryReadRetry 5 (List.replicate 65 0)).wellFormed = false := by decide
theorem test_wf_fill : (Instr.fillComplete 5 (List.replicate 128 0)).wellFormed = false := by decide
theorem test_wf_records_odd : (Instr.tagConsist 5 (List.replicate 15 0)).wellFormed = false := by decide
theorem test_wf_records_long (b : Bytes) (h : 65536 < b.length) : (Instr.tagRecords 5 b).wellFormed = false := by
  simp [Instr.wellFormed, recordsOk]; omega
theorem test_wf_verify_consist : (Instr.verifyConsist 5 [1]).wellFormed = false := by decide
theorem test_wf_verify_records (b : Bytes) (h : 65568 < b.length) : (Instr.verifyRecords 5 [] b).wellFormed = false := by
  simp [Instr.wellFormed]; omega
theorem test_wf_sign (b : Bytes) (h : 1048576 < b.length) : (Instr.sign 5 0 b).wellFormed = false := by
  simp [Instr.wellFormed]; omega
theorem test_wf_verify_sig (b : Bytes) (h : 1048576 < b.length) : (Instr.verifySig 5 0 b []).wellFormed = false := by
  simp [Instr.wellFormed]; omega
theorem test_wf_relay (b : Bytes) (h : 1408 < b.length) : (Instr.relay 5 0 b).wellFormed = false := by
  simp [Instr.wellFormed]; omega
theorem test_wf_image_load (b : Bytes) (h : 1048576 < b.length) : (Instr.imageLoad 5 0 b).wellFormed = false := by
  simp [Instr.wellFormed]; omega
theorem test_wf_fetched : (Instr.consistFetched 5 [1]).wellFormed = false := by decide
theorem test_wf_absorbed (b : Bytes) (h : 65568 < b.length) : (Instr.consistAbsorbed 5 b).wellFormed = false := by
  simp [Instr.wellFormed]; omega
theorem test_wf_code_window : (Instr.codeWindowFetch 0 0x30000002).wellFormed = false := by decide
theorem test_wf_entropy_block : (Instr.entBlockTested (List.replicate 127 0)).wellFormed = false := by decide
theorem test_wf_card_header : (Instr.cardInserted emptyCard).wellFormed = false := by decide
theorem test_wf_card_unit :
    cardOk { emptyCard with hdr0 := zeros 512, hdr8 := zeros 512, units := [[1]] } = false := by decide +kernel
theorem test_wf_selftest : (Instr.selftest 4 ⟨0, [{ tag1 with epc := zeros 63 }]⟩).wellFormed = false := by decide
theorem test_wf_selftest_timer : (Instr.selftestTimer ⟨0, [{ tag1 with epc := zeros 63 }]⟩).wellFormed = false := by decide
theorem test_wf_enrol :
    (Instr.badgeEnrol 4 ⟨0, [{ rn := 1, tid := zeros 13, passwordZero := true, refusedAt := 0 }]⟩).wellFormed = false := by decide
theorem test_wf_slot : (Instr.inventorySlot 0 (.tag { tag1 with epc := zeros 63 })).wellFormed = false := by decide
theorem test_wf_badge_round :
    (Instr.badgeRound ⟨0, [{ badge1 with tid := zeros 13 }]⟩).wellFormed = false := by decide
theorem test_wf_select : (Instr.select 0 0 1 0 ⟨List.replicate 256 true, false⟩).wellFormed = false := by decide
theorem test_wf_tag_read : (Instr.tagRead 0 1 0 256).wellFormed = false := by decide
theorem test_wf_block_write : (Instr.blockWrite 0 1 0 (List.replicate 256 0) true true).wellFormed = false := by decide
theorem test_wf_order : (Instr.modereqCommissioning 4 [] (List.replicate 1280 0)).wellFormed = false := by decide
theorem test_wf_wide_write : (Instr.registerWrite 4 0x40160008 ⟨0, some 0⟩).wellFormed = false := by decide
theorem test_wf_wide_read : (Instr.rcRead (.fabric 31 0x40160004) true).wellFormed = false := by decide
theorem test_wf_enrol_step :
    (Instr.badgeEnrol 4 ⟨0, [{ rn := 1, tid := zeros 12, passwordZero := true, refusedAt := 1 }]⟩).wellFormed = false := by decide
theorem test_wf_accepts : (Instr.bulkWaybill (List.replicate 64 0) ⟨[1], []⟩).wellFormed = true := by decide

/-! ### One command on a small state; what is expected is written out from the spec -/

/-- The outcome is a next state of which `p` holds. -/
def nextIs (o : Host.Outcome State Fault Refusal) (p : State → Bool) : Bool :=
  match o with
  | .next t => p t
  | _ => false

def reg1 (t : State) (r : BitVec 5) : Word := readW (curWorld t 1) r

/-- The table gives no row any bits. -/
theorem test_no_word_spells_a_command : decodeTableWord 32 0 = none := by decide

/-- The worked encoding of R365: ADD w3, w1, w2, executed when p2 is false. -/
theorem test_worked_encoding : decodeTamem 1 0xA0461100 0 = .add { core := 1, neg := true, p := 2 } 3 1 2 := by decide +kernel

-- ADD with the reserved FUNC 0x14, and MAJOR 0 (R364, R365)
theorem test_reserved_func : decodeTamem 1 0x00461114 0 = .illegalInstruction 1 := by decide +kernel
theorem test_reserved_major : decodeTamem 1 0x00000000 0 = .illegalInstruction 1 := by decide +kernel

-- w1 = -11, w2 = 7, w5 = 80000000H (R367, R370)
theorem test_add_wraps : nextIs (exec (.add (at1 0 false) 6 5 5) core1) (fun t => decide (reg1 t 6 = 0)) = true := by
  decide +kernel
theorem test_sub_order : nextIs (exec (.sub (at1 0 false) 6 2 1) core1) (fun t => decide (reg1 t 6 = 18)) = true := by
  decide +kernel
theorem test_sar_sign : nextIs (exec (.sari (at1 0 false) 6 5 31) core1) (fun t => decide (reg1 t 6 = 0xFFFFFFFF)) = true := by
  decide +kernel
theorem test_mulh_signed : nextIs (exec (.mulh (at1 0 false) 6 1 2) core1) (fun t => decide (reg1 t 6 = 0xFFFFFFFF)) = true := by
  decide +kernel
theorem test_mulhu_unsigned : nextIs (exec (.mulhu (at1 0 false) 6 1 2) core1) (fun t => decide (reg1 t 6 = 6)) = true := by
  decide +kernel
theorem test_divu_by_zero :
    nextIs (exec (.divu (at1 0 false) 6 2 0) core1) (fun t => decide (reg1 t 6 = 0xFFFFFFFF)) = true := by decide +kernel
theorem test_remu_by_zero : nextIs (exec (.remu (at1 0 false) 6 2 0) core1) (fun t => decide (reg1 t 6 = 7)) = true := by
  decide +kernel
theorem test_clz_of_zero : nextIs (exec (.clz (at1 0 false) 6 0) core1) (fun t => decide (reg1 t 6 = 32)) = true := by
  decide +kernel
theorem test_w0_discards : nextIs (exec (.addi (at1 0 false) 0 2 1) core1) (fun t => decide (reg1 t 0 = 0)) = true := by
  decide +kernel
theorem test_addi_sign_extends :
    nextIs (exec (.addi (at1 0 false) 6 2 0xFFF) core1) (fun t => decide (reg1 t 6 = 6)) = true := by decide +kernel
theorem test_cmplt_signed :
    nextIs (exec (.cmplt (at1 0 false) 3 false 1 2) core1) (fun t => readP (curWorld t 1) 3) = true := by decide +kernel
theorem test_cmpltu_unsigned :
    nextIs (exec (.cmpltu (at1 0 false) 3 false 1 2) core1) (fun t => !readP (curWorld t 1) 3) = true := by decide +kernel
-- the byte at 20004000H is 81H (R371)
theorem test_ldb_sign : nextIs (exec (.ldb (at1 0 false) 6 3 0) core1) (fun t => decide (reg1 t 6 = 0xFFFFFF81)) = true := by
  decide +kernel
theorem test_ldhu_little_endian :
    nextIs (exec (.ldhu (at1 0 false) 6 3 0) core1) (fun t => decide (reg1 t 6 = 0x9281)) = true := by decide +kernel

/-- The reset value of a route by the classes of R555. -/
theorem test_route_defaults :
    (evtRoute State.reset 16, evtRoute State.reset 21, evtRoute State.reset 256, evtRoute State.reset 447,
      evtRoute State.reset 448) = (2, 0x11, 0x19, 0x1D, 0) := by decide +kernel

/-- A tick of the clock advances the TTC and, from 999 to 1000, no vigil count (R181: a count is about 3,052 ticks). -/
theorem test_idle_tick : nextIs (step r0) (fun t => decide (t.ttc = 1001 ∧ t.vigil.count = r0.vigil.count)) = true := by
  decide +kernel

theorem test_front_command_runs :
    nextIs (step { r0 with pending := [.dbgNonceRead 32, .flashOpDone true] })
      (fun t => decide (t.pending = [.flashOpDone true])) = true := by decide +kernel

/-! ### Witnesses -/

/-- Witnesses for the hypotheses of `HostLinkSession` (its part `LinkTrains`), clause by clause. -/
theorem witness_LinkTrains :
    (∃ (s : State), Quiet s ∧ HeldPlain s ∧ s.hlk.up = false ∧ mainPower s = true ∧ s.fusesOk = true ∧ 27000 ≤ s.power.contractMw) ∧
    (∃ (s : State), Quiet s ∧ HeldPlain s ∧ s.hlk.up = false ∧ s.hlk.grace = true ∧ mainPower s = true ∧ s.fusesOk = true ∧ 27000 ≤ s.power.contractMw) ∧
    (∃ (s : State), Quiet s ∧ s.hlk.up = false ∧ s.fusesOk = false) :=
  ⟨⟨{ m0 with hlk := { m0.hlk with up := false, pend := 5 } }, by
      try unfold HeldPlain
      try unfold Quiet
      decide +kernel, held_plain_nil rfl, by
      try unfold HeldPlain
      try unfold Quiet
      decide +kernel⟩,
   ⟨{ m0 with hlk := { m0.hlk with up := false, grace := true, pend := 5 } }, by
      try unfold HeldPlain
      try unfold Quiet
      decide +kernel, held_plain_nil rfl, by
      try unfold HeldPlain
      try unfold Quiet
      decide +kernel⟩,
   ⟨{ m0 with fusesOk := false, hlk := { m0.hlk with up := false } }, by
      try unfold Quiet
      decide +kernel⟩⟩

/-- Witnesses for the hypotheses of `HostLinkSession` (its part `LinkLossEndsSession`), clause by clause. -/
theorem witness_LinkLossEndsSession :
    (∃ (s : State), s.hlk.up = true) ∧
    (∃ (s : State), NothingPends s ∧ s.hlk.up = false ∧ s.hlk.grace = true) ∧
    (∃ (s : State), NothingPends s ∧ s.hlk.up = true ∧ sessionOn s = true) :=
  ⟨⟨r0, by
      decide +kernel⟩,
   ⟨{ r0 with hlk := { m0.hlk with up := false, grace := true } }, by
      try unfold NothingPends
      try unfold Quiet
      decide +kernel⟩,
   ⟨r0, by
      try unfold NothingPends
      try unfold Quiet
      decide +kernel⟩⟩

/-- Witnesses for the hypotheses of `HostLinkSession` (its part `RequestedResetClears`), clause by clause. -/
theorem witness_RequestedResetClears :
    (∃ (s : State), mainPower s = true ∧ s.fusesOk = true ∧ s.power.lastGasp = false ∧ resetFault s = false) ∧
    (∃ (s : State), ∃ (m : Master), MayWrite s m Reg.HLK_CONTROL ∧ s.power.lastGasp = false ∧ resetFault s = false) ∧
    (∃ (s : State), Quiet s ∧ s.fusesOk = false) :=
  ⟨⟨r0, by
      decide +kernel⟩,
   ⟨r0, 4, by
      try unfold MayWrite
      decide +kernel⟩,
   ⟨{ r0 with fusesOk := false }, by
      try unfold Quiet
      decide +kernel⟩⟩

/-- Witnesses for the hypotheses of `SetupPage`, clause by clause. -/
theorem witness_SetupPage :
    (∃ (s : State), ∃ (m : Master), ∃ (r : SetupReg), ∃ (h : Half), MayWrite s m (halfAddr (setupAddr r) h) ∧ setupLocked s r = false) ∧
    (∃ (s : State), ∃ (m : Master), ∃ (r : SetupReg), ∃ (h : Half), MayWrite s m (halfAddr (setupAddr r) h) ∧ setupLocked s r = true) ∧
    (∃ (s : State), ∃ (m : Master), ∃ (v : Word), MayWrite s m Reg.HLK_CL_CONFIG ∧ clOpen s = false ∧ getR64 s Reg.HLK_BSTORE_BASE ≠ 0 ∧ 4 ≤ bitsOf v 0 5 ∧ bitsOf v 0 5 ≤ 16 ∧ 4 ≤ bitsOf v 8 5 ∧ bitsOf v 8 5 ≤ 16) ∧
    (∃ (s : State), ∃ (m : Master), ∃ (v : Word), MayWrite s m Reg.HLK_CL_CONFIG ∧ clOpen s = true ∧ controlBusy s = false ∧ v &&& 0x07FF1F1F = getR s Reg.HLK_CL_CONFIG &&& 0x7FFFFFFF ∧ 4 ≤ bitsOf v 0 5 ∧ bitsOf v 0 5 ≤ 16 ∧ 4 ≤ bitsOf v 8 5 ∧ bitsOf v 8 5 ≤ 16) ∧
    (∃ (s : State), mainPower s = true) :=
  ⟨⟨State.reset, 4, .bstore, .both, by
      try unfold MayWrite
      decide +kernel⟩,
   ⟨m0, 4, .itab, .lo, by
      try unfold MayWrite
      decide +kernel⟩,
   ⟨{ State.reset with regs := [(Reg.HLK_BSTORE_BASE, 0x1000)] }, 4, 0x80000A0C, by
      try unfold MayWrite
      decide +kernel⟩,
   ⟨{ m0 with lne := { m0.lne with lines := [(0, control)] } }, 31, 0x808, by
      try unfold MayWrite
      decide +kernel⟩,
   ⟨m0, by
      decide +kernel⟩⟩

/-- Witnesses for the hypotheses of `EventsAndSettings` (its part `EventRegisters`), clause by clause. -/
theorem witness_EventRegisters :
    (∃ (s : State), ∃ (m : Master), ∃ (n : BitVec 5), Quiet s ∧ MayWrite s m (pendAddr m (BitVec.toNat n))) ∧
    (∃ (s : State), ∃ (m : Master), ∃ (n : BitVec 10), Quiet s ∧ MayWrite s m (Reg.EVT_ROUTE (BitVec.toNat n)) ∧ bit (evtRoute s n.toNat) 31 = false) ∧
    (∃ (s : State), ∃ (m : Master), ∃ (n : BitVec 10), Quiet s ∧ MayWrite s m (Reg.EVT_ROUTE (BitVec.toNat n)) ∧ bit (evtRoute s n.toNat) 31 = true) ∧
    (∃ (s : State), ∃ (v : BitVec 11), Quiet s ∧ MayWrite s 31 (vectorControl v) ∧ s.hlk.up = true) ∧
    (∃ (s : State), ∃ (v : BitVec 11), Quiet s ∧ MayWrite s 31 (vectorControl v) ∧ s.hlk.up = false) ∧
    (∃ (s : State), ∃ (v : BitVec 11), Quiet s ∧ mainPower s = true ∧ permits s 31 .write (vectorControl v) = true ∧ ready s = false) :=
  ⟨⟨{ m0 with evtPend := 0xF0F0F0F0F0F0F0F0F0 }, 4, 0, by
      try unfold MayWrite
      try unfold Quiet
      decide +kernel⟩,
   ⟨m0, 4, 200, by
      try unfold MayWrite
      try unfold Quiet
      decide +kernel⟩,
   ⟨{ m0 with evtRoutes := [(200, 0x80000000)] }, 4, 200, by
      try unfold MayWrite
      try unfold Quiet
      decide +kernel⟩,
   ⟨{ m0 with hlk := { m0.hlk with mask := 0xFF, pend := 0xF } }, 3, by
      try unfold MayWrite
      try unfold Quiet
      decide +kernel⟩,
   ⟨{ m0 with hlk := { m0.hlk with up := false, mask := 0xFF, pend := 0xF } }, 3, by
      try unfold MayWrite
      try unfold Quiet
      decide +kernel⟩,
   ⟨setR m0 Reg.HLK_STATUS 0x200, 3, by
      try unfold Quiet
      decide +kernel⟩⟩

/-- Witnesses for the hypotheses of `EventsAndSettings` (its part `SealedSettings`), clause by clause. -/
theorem witness_SealedSettings :
    (∃ (s : State), ∃ (m : Master), ∃ (i : BitVec 8), Quiet s ∧ MayWrite s m (Reg.SST_REG (BitVec.toNat i) + 4) ∧ m = 4 ∧ 104 ≤ i.toNat ∧ i.toNat ≤ 247 ∧ sstCount s i.toNat < 100000) ∧
    (∃ (s : State), ∃ (m : Master), ∃ (i : BitVec 8), Quiet s ∧ MayWrite s m (Reg.SST_REG (BitVec.toNat i))) ∧
    (∃ (s : State), ∃ (m : Master), ∃ (i : BitVec 8), Quiet s ∧ MayWrite s m (Reg.SST_REG (BitVec.toNat i) + 4) ∧ 9 ≤ i.toNat ∧ i.toNat ≤ 18) :=
  ⟨⟨{ m0 with sstWear := [(120, 89999)], lowHeld := [(Reg.SST_REG 120, 7)] }, 4, 120, by
      try unfold MayWrite
      try unfold Quiet
      decide +kernel⟩,
   ⟨r0, 4, 104, by
      try unfold MayWrite
      try unfold Quiet
      decide +kernel⟩,
   ⟨r0, 4, 9, by
      try unfold MayWrite
      try unfold Quiet
      decide +kernel⟩⟩

/-- Witnesses for the hypotheses of `RegisterAccess` (its part `RegisterWrites`), clause by clause. -/
theorem witness_RegisterWrites :
    (∃ (s : State), ∃ (m : Master), Quiet s ∧ MayWrite s m Reg.HLK_ERR) ∧
    (∃ (s : State), ∃ (m : Master), Quiet s ∧ MayWrite s m Reg.CLK_GATE) ∧
    (∃ (s : State), ∃ (m : Master), Quiet s ∧ MayWrite s m Reg.LNE_WEIGHTS) ∧
    (∃ (s : State), ∃ (m : Master), Quiet s ∧ MayWrite s m Reg.CLK_MEAS_SEL) ∧
    (∃ (s : State), mainPower s = true) ∧
    (∃ (s : State), Quiet s ∧ MayWrite s 31 Reg.HLK_BSTORE_BASE ∧ MayWrite s 31 (Reg.HLK_BSTORE_BASE + 4) ∧ sessionOn s = false) :=
  ⟨⟨setR r0 Reg.HLK_ERR 0xFFF, 4, by
      try unfold MayWrite
      try unfold Quiet
      decide +kernel⟩,
   ⟨setR r0 Reg.CLK_GATE 0xFFF, 4, by
      try unfold MayWrite
      try unfold Quiet
      decide +kernel⟩,
   ⟨m0, 8, by
      try unfold MayWrite
      try unfold Quiet
      decide +kernel⟩,
   ⟨setR m0 Reg.CLK_MEAS 0x80000123, 4, by
      try unfold MayWrite
      try unfold Quiet
      decide +kernel⟩,
   ⟨setR m0 Reg.CLK_MEAS_SEL 1, by
      decide +kernel⟩,
   ⟨setR m0 Reg.HLK_STATUS 1, by
      try unfold MayWrite
      try unfold Quiet
      decide +kernel⟩⟩

/-- Witnesses for the hypotheses of `RegisterAccess` (its part `RegisterReads`), clause by clause. -/
theorem witness_RegisterReads :
    (∃ (s : State), ∃ (m : Master), Quiet s ∧ MayRead s m Reg.LNE_INFLIGHT) ∧
    (∃ (s : State), ∃ (m : Master), ∃ (a : Nat), Quiet s ∧ a ∈ pairLows ∧ MayRead s m a) ∧
    (∃ (s : State), ∃ (m : Master), ∃ (a : Nat), ∃ (v : Word), Quiet s ∧ a ∈ pairLows ∧ MayRead s m (a + 4) ∧ mget? s.latch (latchKey m a) = some v) ∧
    (∃ (s : State), Quiet s ∧ mainPower s = true) ∧
    (∃ (s : State), ∃ (off : BitVec 16), Quiet s ∧ mainPower s = true ∧ recordBad s (windowLine s (BitVec.toNat off)) = false) :=
  ⟨⟨withFlights m0 5 [flight 1 .ready (wb 1 0 [])], 8, by
      try unfold MayRead
      try unfold Quiet
      decide +kernel⟩,
   ⟨r0, 4, Reg.TTC_NOW, by
      try unfold MayRead
      try unfold Quiet
      decide +kernel⟩,
   ⟨{ r0 with latch := [(latchKey 4 Reg.TTC_NOW, 77)] }, 4, Reg.TTC_NOW, 77, by
      try unfold MayRead
      try unfold Quiet
      decide +kernel⟩,
   ⟨r0, by
      try unfold Quiet
      decide +kernel⟩,
   ⟨r0, 0x28, by
      try unfold Quiet
      decide +kernel⟩⟩

/-- Witnesses for the hypotheses of `DebugAccessMemory`, clause by clause. -/
theorem witness_DebugAccessMemory :
    (∃ (s : State), ∃ (a : BitVec 32), Quiet s ∧ mainPower s = true ∧ PlainWord s (BitVec.toNat a) ∧ permits s 32 .read a.toNat = true) ∧
    (∃ (s : State), ∃ (a : BitVec 32), Quiet s ∧ mainPower s = true ∧ PlainWord s (BitVec.toNat a) ∧ permits s 32 .write a.toNat = true ∧ opRamClosed s 32 a.toNat 4 = false) ∧
    (∃ (s : State), ∃ (a : BitVec 32), Quiet s ∧ mainPower s = true ∧ PlainWord s (BitVec.toNat a) ∧ permits s 32 .read a.toNat = false ∧ s.dbg.denials = [] ∧ mget? s.lastRaise 197 = none ∧ s.badRoutes.contains (decidingRoute s a.toNat) = false) ∧
    (∃ (s : State), ∃ (m : Master), Quiet s ∧ mainPower s = true ∧ EntRead.port m ∈ s.ent.waiting) :=
  ⟨⟨{ wide r0 with mem := [(sram, 1), (sram + 3, 2)] }, 0x20000000, by
      try unfold PlainWord
      try unfold MayWrite
      try unfold MayRead
      try unfold Quiet
      decide +kernel⟩,
   ⟨{ wide r0 with mem := [(sram, 1), (sram + 3, 2)] }, 0x20000000, by
      try unfold PlainWord
      try unfold MayWrite
      try unfold MayRead
      try unfold Quiet
      decide +kernel⟩,
   ⟨{ wide r0 with mem := [(sram, 1), (sram + 3, 2)], routes := [] }, 0x20000000, by
      try unfold PlainWord
      try unfold MayWrite
      try unfold MayRead
      try unfold Quiet
      decide +kernel⟩,
   ⟨{ m0 with ent := { m0.ent with waiting := [.port 3, .port 4] } }, 4, by
      try unfold Quiet
      decide +kernel⟩⟩

/-- Witnesses for the hypotheses of `HostTransfers` (its part `DmaChannels`), clause by clause. -/
theorem witness_DmaChannels :
    (∃ (s : State), ∃ (m : Master), ∃ (c : BitVec 2), ∃ (d : BitVec 2), Quiet s ∧ MayWrite s m (Reg.DMA_CTRL (BitVec.toNat c)) ∧ dmaRunning s c.toNat = false ∧ 1 ≤ dmaLen s c.toNat ∧ dmaLen s c.toNat ≤ 16777216 ∧ d ≠ 3 ∧ (d = 1 ∨ dmaSrc s c.toNat + dmaLen s c.toNat ≤ 2 ^ 32) ∧ (d = 2 ∨ dmaDst s c.toNat + dmaLen s c.toNat ≤ 2 ^ 32)) ∧
    (∃ (s : State), ∃ (c : BitVec 2), Quiet s ∧ mainPower s = true ∧ dmaRunning s (BitVec.toNat c) = true ∧ dmaDir s c.toNat = 0 ∧ 1 ≤ dmaLen s c.toNat ∧ dmaSrc s c.toNat % 4096 + dmaLen s c.toNat ≤ 4096 ∧ dmaDst s c.toNat % 4096 + dmaLen s c.toNat ≤ 4096 ∧ reach s (dmaMaster c.toNat) .read (dmaSrc s c.toNat) (dmaLen s c.toNat) = { state := s, outcome := .ok } ∧ reach s (dmaMaster c.toNat) .write (dmaDst s c.toNat) (dmaLen s c.toNat) = { state := s, outcome := .ok } ∧ isRam (dmaDst s c.toNat) = true ∧ meetsSpecial (dmaDst s c.toNat) (dmaLen s c.toNat) = false ∧ opRamClosed s (dmaMaster c.toNat) (dmaDst s c.toNat) (dmaLen s c.toNat) = false) ∧
    (∃ (s : State), ∃ (m : Master), ∃ (c : BitVec 2), Quiet s ∧ MayWrite s m (Reg.DMA_CTRL (BitVec.toNat c)) ∧ dmaRunning s c.toNat = true ∧ (∀ k h, k ≤ dmaLen s c.toNat → (copyBytes s c.toNat k h).outcome = .ok)) :=
  ⟨⟨withRegs m0 [(Reg.DMA_LEN 2, 16), (Reg.DMA_SRC 2, 0x20000000)], 4, 2, 0, by
      try unfold MayWrite
      try unfold Quiet
      decide +kernel⟩,
   ⟨{ withRegs (wide r0) [(Reg.DMA_LEN 2, 5), (Reg.DMA_SRC 2, 0x20000000), (Reg.DMA_DST 2, 0x20000002), (Reg.DMA_STATUS 2, 0xFF0001)] with mem := [(sram, 1), (sram + 3, 2)], badCells := [sram / 8 + 6] }, 2, by
      try unfold Quiet
      decide +kernel⟩,
   ⟨copying, 4, 2, by
      try unfold MayWrite
      try unfold Quiet
      decide +kernel, by
      try unfold MayWrite
      try unfold Quiet
      decide +kernel, by
      try unfold MayWrite
      try unfold Quiet
      decide +kernel, dmaCopies⟩⟩

/-- Witnesses for the hypotheses of `HostTransfers` (its part `HostReadsFail`), clause by clause. -/
theorem witness_HostReadsFail :
    (∃ (s : State), ∃ (l : BitVec 19), Quiet s ∧ mainPower s = true ∧ admissible s (getLine s (BitVec.toNat l)) = true) ∧
    (∃ (s : State), ∃ (l : BitVec 19), Quiet s ∧ mainPower s = true ∧ admissible s (getLine s (BitVec.toNat l)) = true) ∧
    (∃ (s : State), ∃ (l : BitVec 19), ∃ (pos : Nat), ∃ (op : Nat), ∃ (f : Flight), ∃ (c : Context), ServiceAt s (BitVec.toNat l) pos op f c ∧ readsPayload f.raw = true ∧ (branchCheck s f.raw).status ≠ 0x0D) ∧
    (∃ (s : State), ∃ (l : BitVec 19), ∃ (f : Flight), Quiet s ∧ mainPower s = true ∧ s.hlk.up = false ∧ fetching s (BitVec.toNat l) = some f) :=
  ⟨⟨modLine r0 5 (fun r => { r with upTail := 3 }), 5, by
      try unfold Quiet
      decide +kernel⟩,
   ⟨modLine m0 6 (fun r => { r with upTail := 3 }), 6, by
      try unfold Quiet
      decide +kernel⟩,
   ⟨withFlights r0 6 [flight 2 .parked [], flight 3 .service (wb 0x20 0 [])], 6, 1, 0x20, flight 3 .service (wb 0x20 0 []), ctxOf true, by
      try unfold ServiceAt
      try unfold WaybillAt
      try unfold Quiet
      decide +kernel⟩,
   ⟨{ dataState (dataFlight 1 0 []) with hlk := { m0.hlk with up := false } }, 5, dataFlight 1 0 [], by
      try unfold Quiet
      decide +kernel⟩⟩

/-- Witnesses for the hypotheses of `HostTransfers` (its part `UsbPath`), clause by clause. -/
theorem witness_UsbPath :
    (∃ (s : State), mainPower s = true) ∧
    (∃ (s : State), ∃ (w : Bytes), Quiet s ∧ mainPower s = true ∧ s.fusesOk = true ∧ w.length = 64 ∧ s.mode ≠ .maintenance) ∧
    (∃ (s : State), ∃ (w : Bytes), Quiet s ∧ s.mode = .maintenance ∧ s.fusesOk = true ∧ w.length = 64 ∧ byteAt w 2 = 0x26 ∧ lengthsOk w = true ∧ alignOk w true = true ∧ manifestsFrom s (wf64 w 8) (num w 4 4) ≠ []) ∧
    (∃ (s : State), ∃ (w : Bytes), Quiet s ∧ mainPower s = true ∧ s.fusesOk = true ∧ s.power.lastGasp = false ∧ w.length = 64 ∧ usbIsExport s w = true ∧ exportTurn s s.lne.nextId = false) ∧
    (∃ (s : State), ∃ (w : Bytes), Quiet s ∧ mainPower s = true ∧ s.fusesOk = true ∧ s.power.lastGasp = true ∧ w.length = 64 ∧ usbIsExport s w = true) ∧
    (∃ (s : State), Quiet s ∧ s.fusesOk = false) :=
  ⟨⟨r0, by
      decide +kernel⟩,
   ⟨r0, wb 0x26 0 [], by
      try unfold Quiet
      decide +kernel⟩,
   ⟨{ m0 with log := { m0.log with frames := [{ typ := 1, frag := 0, more := false, serial := 1, ttc := 5, epoch := 0, body := zeros 200, link := zeros 16, lost := false }] } }, wb 0x26 0 [(4, le 4 1)], by
      try unfold Quiet
      decide +kernel⟩,
   ⟨{ logState (svc m0 0x27 0 [(4, [0, 4]), (8, [1]), (16, [0, 0x80])]) with mode := .maintenance }, wb 0x27 0 [(4, le 4 4096), (8, [1]), (16, [0, 0x80])], by
      try unfold Quiet
      decide +kernel⟩,
   ⟨{ m0 with power := { m0.power with lastGasp := true } }, wb 0x27 0 [(4, le 4 4096), (8, [1]), (16, [0, 0x80])], by
      try unfold Quiet
      decide +kernel⟩,
   ⟨{ m0 with fusesOk := false }, by
      try unfold Quiet
      decide +kernel⟩⟩

/-- Witnesses for the hypotheses of `LineAdmission` (its part `Doorbells`), clause by clause. -/
theorem witness_Doorbells :
    (∃ (s : State), ∃ (v : BitVec 64), mainPower s = true ∧ ready s = true ∧ lastGasp s = false ∧ BitVec.toNat v < 2 ^ 52 ∧ doorbellRing v = false ∧ recordBad s (doorbellLine v) = false ∧ doorbellReason (getLine s (doorbellLine v)) false (doorbellIndex v) = 0) ∧
    (∃ (s : State), ∃ (v : BitVec 64), mainPower s = true ∧ ready s = true ∧ lastGasp s = false ∧ BitVec.toNat v < 2 ^ 52 ∧ doorbellRing v = true ∧ recordBad s (doorbellLine v) = false ∧ doorbellReason (getLine s (doorbellLine v)) true (doorbellIndex v) = 0) ∧
    (∃ (s : State), ∃ (v : BitVec 64), mainPower s = true ∧ ready s = true ∧ lastGasp s = false ∧ BitVec.toNat v < 2 ^ 52 ∧ recordBad s (doorbellLine v) = false ∧ doorbellReason (getLine s (doorbellLine v)) (doorbellRing v) (doorbellIndex v) ≠ 0) ∧
    (∃ (s : State), ∃ (o : BitVec 12), ∃ (w : Bool), ∃ (v : BitVec 64), mainPower s = true ∧ (o ≠ 0 ∨ w = false ∨ 2 ^ 52 ≤ BitVec.toNat v)) :=
  ⟨⟨r0, 0x500000003, by
      decide +kernel⟩,
   ⟨modLine r0 5 (fun r => { r with dnTail := 4 }), 0x8000500000003, by
      decide +kernel⟩,
   ⟨r0, 0x8000500000003, by
      decide +kernel⟩,
   ⟨m0, 8, true, 3, by
      decide +kernel⟩⟩

/-- Witnesses for the hypotheses of `LineAdmission` (its part `Admission`), clause by clause. -/
theorem witness_Admission :
    (∃ (s : State), ∃ (l : BitVec 19), ∃ (e : Bytes), ∃ (c : Nat), ∃ (u : Nat), Quiet s ∧ eligible s (BitVec.toNat l) (getLine s l.toNat) = true ∧ humpNext s = some (c, u, l.toNat) ∧ (getLine s l.toNat).state = .opened ∧ (getLine s l.toNat).service = true ∧ recordBad s l.toNat = false ∧ admissionStatus s l.toNat (getLine s l.toNat) (slice e 0 64) = 0) ∧
    (∃ (s : State), ∃ (l : BitVec 19), ∃ (e : Bytes), ∃ (c : Nat), ∃ (u : Nat), Quiet s ∧ eligible s (BitVec.toNat l) (getLine s l.toNat) = true ∧ humpNext s = some (c, u, l.toNat) ∧ (getLine s l.toNat).state = .opened ∧ (getLine s l.toNat).service = true ∧ (getLine s l.toNat).retryAt ≠ 0 ∧ recordBad s l.toNat = false ∧ admissionStatus s l.toNat (getLine s l.toNat) (slice e 0 64) = 0) ∧
    (∃ (s : State), ∃ (l : BitVec 19), Quiet s ∧ wantsAdmission s (getLine s (BitVec.toNat l)) = false) :=
  ⟨⟨modLine m0 6 (fun r => { r with upTail := 3, cls := 1 }), 6, wb 0x29 0 [], 1, 0, by
      try unfold Quiet
      decide +kernel⟩,
   ⟨modLine r0 6 (fun r => { r with upTail := 3, cls := 1, retryAt := 5 }), 6, wb 0x29 0 [], 1, 0, by
      try unfold Quiet
      decide +kernel⟩,
   ⟨m0, 5, by
      try unfold Quiet
      decide +kernel⟩⟩

/-- Witnesses for the hypotheses of `ContextTransfers`, clause by clause. -/
theorem witness_ContextTransfers :
    (∃ (s : State), ∃ (l : BitVec 19), ∃ (b : Bytes), Quiet s ∧ slot? s (BitVec.toNat l) = some .filling ∧ fillOk s l.toNat b = true ∧ NoneWaits s l.toNat ∧ l ≠ 0) ∧
    (∃ (s : State), ∃ (l : BitVec 19), ∃ (c : Bool), Quiet s ∧ slot? s (BitVec.toNat l) = some (.live c true) ∧ (∀ e ∈ s.lne.leaving, e.1 ≠ l.toNat) ∧ NoneWaits s l.toNat) ∧
    (∃ (s : State), ∃ (l : BitVec 19), Quiet s ∧ slot? s (BitVec.toNat l) = some .spilling ∧ (∀ e ∈ s.lne.leaving, e.1 ≠ l.toNat) ∧ NoneWaits s l.toNat ∧ (∀ e ∈ s.lne.lines, wantsAdmission s e.2 = false)) ∧
    (∃ (s : State), ∃ (l : BitVec 19), (getLine s (BitVec.toNat l)).mirror = true ∧ s.hlk.up = true ∧ mirrorOn s = true ∧ recordBad s l.toNat = false) :=
  ⟨⟨{ r0 with lne := { r0.lne with cache := [(7, .filling), (6, .live false true)], lines := r0.lne.lines ++ [(7, openLine)] } }, 7, contextBytes 7 (ctxOf false) ++ kctxTag { r0 with lne := { r0.lne with cache := [(7, .filling), (6, .live false true)], lines := r0.lne.lines ++ [(7, openLine)] } } 7 0 (contextBytes 7 (ctxOf false)), by
      try unfold NoneWaits
      try unfold Quiet
      decide +kernel⟩,
   ⟨{ r0 with lne := { r0.lne with cache := [(7, .filling), (6, .live false true)] } }, 6, false, by
      try unfold NoneWaits
      try unfold Quiet
      decide +kernel⟩,
   ⟨{ r0 with lne := { r0.lne with cache := [(7, .spilling), (6, .live false false)], places := [(0, 7), (1, 6)] } }, 7, by
      try unfold NoneWaits
      try unfold Quiet
      decide +kernel⟩,
   ⟨modLine (setR r0 Reg.HLK_CONTROL 2) 5 (fun r => { r with mirror := true, upTail := 7 }), 5, by
      decide +kernel⟩⟩

/-- Witnesses for the hypotheses of `LineLifecycle` (its part `LineOpens`), clause by clause. -/
theorem witness_LineOpens :
    (∃ (s : State), ∃ (pos : Nat), ∃ (f : Flight), ControlAt s pos 0x10 f ∧ openCheckEarly s f.raw = 0 ∧ openCheckParent s f.raw = true ∧ (getLine s (woTarget f.raw)).state = .closed ∧ woContinue f.raw = false ∧ occupied s < 65536) ∧
    (∃ (s : State), ∃ (pos : Nat), ∃ (f : Flight), ∃ (c : Context), ControlAt s pos 0x10 f ∧ openCheckEarly s f.raw = 0 ∧ woReplace f.raw = false ∧ (getLine s (woTarget f.raw)).state = .paused ∧ resident s (woTarget f.raw) = true ∧ ctxBad s (woTarget f.raw) = false ∧ ctx? s (woTarget f.raw) = some c) :=
  ⟨⟨withFlights { m0 with branches := [] } 0 [flight 3 .service (wb 0x10 0 [(4, [7, 0, 0, 1]), (8, [8, 9])])], 0, flight 3 .service (wb 0x10 0 [(4, [7, 0, 0, 1]), (8, [8, 9])]), by
      try unfold ControlAt
      try unfold WaybillAt
      try unfold Quiet
      decide +kernel⟩,
   ⟨modLine (withFlights r0 0 [flight 3 .service (wb 0x10 1 [(4, [5, 0, 0, 0]), (8, [8, 9])])]) 5 (fun r => { r with state := .paused, fault := 11, pausing := true, upHead := 3, upTail := 5, halt := false }), 0, flight 3 .service (wb 0x10 1 [(4, [5, 0, 0, 0]), (8, [8, 9])]), ctxOf false, by
      try unfold ControlAt
      try unfold WaybillAt
      try unfold Quiet
      decide +kernel⟩⟩

/-- Witnesses for the hypotheses of `LineLifecycle` (its part `LinePauseClose`), clause by clause. -/
theorem witness_LinePauseClose :
    (∃ (s : State), ∃ (pos : Nat), ∃ (f : Flight), ControlAt s pos 0x11 f ∧ woTarget f.raw ≠ 0 ∧ (getLine s (woTarget f.raw)).state = .opened ∧ (getLine s (woTarget f.raw)).flights = []) ∧
    (∃ (s : State), ∃ (pos : Nat), ∃ (f : Flight), ControlAt s pos 0x11 f ∧ woTarget f.raw ≠ 0 ∧ (getLine s (woTarget f.raw)).state = .opened ∧ (getLine s (woTarget f.raw)).flights ≠ []) ∧
    (∃ (s : State), ∃ (l : BitVec 19), ∃ (f : Flight), Quiet s ∧ l ≠ 0 ∧ (∀ g ∈ opsOn s l.toNat, g.phase ≠ .ended) ∧ pauseOn s l.toNat = some f ∧ flight? s 0 f.id = some f ∧ recordBad s 0 = false ∧ s.hlk.up = true ∧ (getLine s l.toNat).state = .paused ∧ (getLine s l.toNat).flights = []) ∧
    (∃ (s : State), ∃ (pos : Nat), ∃ (f : Flight), ∃ (c : Context), ControlAt s pos 0x12 f ∧ woTarget f.raw ≠ 0 ∧ (getLine s (woTarget f.raw)).state = .paused ∧ (getLine s (woTarget f.raw)).flights = [] ∧ (getLine s (woTarget f.raw)).lost = false ∧ resident s (woTarget f.raw) = true ∧ ctxBad s (woTarget f.raw) = false ∧ ctx? s (woTarget f.raw) = some c) :=
  ⟨⟨withFlights r0 0 [flight 3 .service (wb 0x11 1 [(4, [5, 0, 0, 0])])], 0, flight 3 .service (wb 0x11 1 [(4, [5, 0, 0, 0])]), by
      try unfold ControlAt
      try unfold WaybillAt
      try unfold Quiet
      decide +kernel⟩,
   ⟨withFlights (withFlights r0 0 [flight 3 .service (wb 0x11 1 [(4, [5, 0, 0, 0])])]) 5 [flight 4 .ready []], 0, flight 3 .service (wb 0x11 1 [(4, [5, 0, 0, 0])]), by
      try unfold ControlAt
      try unfold WaybillAt
      try unfold Quiet
      decide +kernel⟩,
   ⟨modLine (withFlights r0 0 [flight 3 .parked (wb 0x11 1 [(4, [5, 0, 0, 0])])]) 5 (fun r => { r with state := .paused, pausing := true }), 5, flight 3 .parked (wb 0x11 1 [(4, [5, 0, 0, 0])]), by
      try unfold Quiet
      decide +kernel⟩,
   ⟨modLine (withFlights r0 0 [flight 3 .service (wb 0x12 0 [(4, [5, 0, 0, 0])])]) 5 (fun r => { r with state := .paused }), 0, flight 3 .service (wb 0x12 0 [(4, [5, 0, 0, 0])]), ctxOf false, by
      try unfold ControlAt
      try unfold WaybillAt
      try unfold Quiet
      decide +kernel⟩⟩

/-- Witnesses for the hypotheses of `ProduceLineTags`, clause by clause. -/
theorem witness_ProduceLineTags :
    (∃ (s : State), ∃ (l : BitVec 19), ∃ (f : Flight), ∃ (c : Context), DataAt s l.toNat 1 f c) ∧
    (∃ (s : State), ∃ (l : BitVec 19), ∃ (f : Flight), ∃ (c : Context), DataAt s l.toNat 2 f c) ∧
    (∃ (s : State), ∃ (l : BitVec 19), ∃ (f : Flight), ∃ (c : Context), DataAt s l.toNat 5 f c ∧ c.verify = false) :=
  ⟨⟨dataState (dataFlight 1 0 []), 5, dataFlight 1 0 [], ctxOf false, by
      try unfold DataAt
      try unfold StampsNext
      try unfold Fetches
      try unfold DataAt
      try unfold Quiet
      decide +kernel⟩,
   ⟨dataState (dataFlight 2 0 [(24, le 8 0x8000)]), 5, dataFlight 2 0 [(24, le 8 0x8000)], ctxOf false, by
      try unfold DataAt
      try unfold StampsNext
      try unfold Fetches
      try unfold DataAt
      try unfold Quiet
      decide +kernel⟩,
   ⟨dataState (dataFlight 5 0 [(24, le 8 0x8000)]), 5, dataFlight 5 0 [(24, le 8 0x8000)], ctxOf false, by
      try unfold DataAt
      try unfold StampsNext
      try unfold Fetches
      try unfold DataAt
      try unfold Quiet
      decide +kernel⟩⟩

/-- Witnesses for the hypotheses of `VerifyLineChecks`, clause by clause. -/
theorem witness_VerifyLineChecks :
    (∃ (s : State), ∃ (l : BitVec 19), ∃ (records : Bytes), ∃ (f : Flight), ∃ (c : Context), DataAt s l.toNat 3 f c ∧ c.verify = true ∧ consistTag l.toNat c f (num f.raw 24 8) (recordsOf f records) = slice f.raw 32 32) ∧
    (∃ (s : State), ∃ (l : BitVec 19), ∃ (records : Bytes), ∃ (f : Flight), ∃ (c : Context), DataAt s l.toNat 3 f c ∧ c.verify = true ∧ consistTag l.toNat c f (num f.raw 24 8) (recordsOf f records) ≠ slice f.raw 32 32) ∧
    (∃ (s : State), ∃ (l : BitVec 19), ∃ (records : Bytes), ∃ (expected : Bytes), ∃ (f : Flight), ∃ (c : Context), DataAt s l.toNat 4 f c ∧ c.verify = true ∧ consistTag l.toNat c f (num f.raw 32 8) (recordsOf f records) = slice expected (16 * countOf f.raw) 32 ∧ (verifyTags f.key l.toNat c.sequence.toNat (countOf f.raw) 0 (c.chainHead.take 16) (recordsOf f records) expected).any id = false) :=
  ⟨⟨verifyState (dataFlight 3 0 [(32, consistTag 5 verifyCtx (dataFlight 3 0 []) 0 recs)]), 5, recs, dataFlight 3 0 [(32, consistTag 5 verifyCtx (dataFlight 3 0 []) 0 recs)], verifyCtx, by
      try unfold DataAt
      try unfold StampsNext
      try unfold Fetches
      try unfold DataAt
      try unfold Quiet
      decide +kernel⟩,
   ⟨verifyState (dataFlight 3 0 []), 5, recs, dataFlight 3 0 [], verifyCtx, by
      try unfold DataAt
      try unfold StampsNext
      try unfold Fetches
      try unfold DataAt
      try unfold Quiet
      decide +kernel⟩,
   ⟨verifyState (dataFlight 4 0 [(40, le 8 0x9000)]), 5, recs, (produceTags (zeros 200) 5 7 2 0 (zeros 16) recs).flatten ++ consistTag 5 verifyCtx (dataFlight 4 0 []) 0 recs, dataFlight 4 0 [(40, le 8 0x9000)], verifyCtx, by
      try unfold DataAt
      try unfold StampsNext
      try unfold Fetches
      try unfold DataAt
      try unfold Quiet
      decide +kernel⟩⟩

/-- Witnesses for the hypotheses of `StampAndAbsorb`, clause by clause. -/
theorem witness_StampAndAbsorb :
    (∃ (s : State), ∃ (l : BitVec 19), ∃ (op : Nat), ∃ (f : Flight), ∃ (c : Context), DataAt s l.toNat op f c ∧ Fetches s f) ∧
    (∃ (s : State), ∃ (l : BitVec 19), ∃ (f : Flight), ∃ (c : Context), DataAt s l.toNat 5 f c) ∧
    (∃ (s : State), ∃ (l : BitVec 19), ∃ (f : Flight), ∃ (c : Context), Quiet s ∧ mainPower s = true ∧ s.hlk.up = true ∧ l ≠ 0 ∧ (getLine s l.toNat).service = false ∧ (getLine s l.toNat).flights.head? = some f ∧ (∀ g ∈ (getLine s l.toNat).flights.tail, g.id ≠ f.id) ∧ f.phase = .stamped ∧ byteAt f.raw 2 = 1 ∧ c.verify = false ∧ ctx? s l.toNat = some c ∧ (trackAt s f.track.toNat).fencing = false ∧ (trackAt s f.track.toNat).dense = false ∧ ctxBad s l.toNat = false ∧ recordBad s l.toNat = false ∧ bufBad s f = false) :=
  ⟨⟨dataState (dataFlight 1 0 []), 5, 1, dataFlight 1 0 [], ctxOf false, by
      try unfold DataAt
      try unfold StampsNext
      try unfold Fetches
      try unfold DataAt
      try unfold Quiet
      decide +kernel⟩,
   ⟨dataState (dataFlight 5 0 [(4, [0])]), 5, dataFlight 5 0 [(4, [0])], ctxOf false, by
      try unfold DataAt
      try unfold StampsNext
      try unfold Fetches
      try unfold DataAt
      try unfold Quiet
      decide +kernel⟩,
   ⟨dataState { dataFlight 1 0 [] with phase := .stamped, stamp := 960, records := recs }, 5, { dataFlight 1 0 [] with phase := .stamped, stamp := 960, records := recs }, ctxOf false, by
      try unfold Quiet
      decide +kernel⟩⟩

/-- Witnesses for the hypotheses of `FencesKeysTracksCredit` (its part `FencesAndKeys`), clause by clause. -/
theorem witness_FencesAndKeys :
    (∃ (s : State), ∃ (l : BitVec 19), ∃ (f : Flight), ∃ (c : Context), DataAt s l.toNat 6 f c ∧ byteAt f.raw 3 % 2 = 0) ∧
    (∃ (s : State), ∃ (l : BitVec 19), ∃ (f : Flight), ∃ (c : Context), DataAt s l.toNat 6 f c ∧ byteAt f.raw 3 % 2 = 1 ∧ unsealed s (fenceEpoch c) = true) ∧
    (∃ (s : State), ∃ (l : BitVec 19), ∃ (f : Flight), mainPower s = true ∧ (getLine s l.toNat).service = false ∧ headFlight s l.toNat = some f ∧ f.phase = .keyWait ∧ (∀ g ∈ (getLine s l.toNat).flights, g.id = f.id → g = f) ∧ Fetches s f) ∧
    (∃ (s : State), ∃ (l : BitVec 19), ∃ (f : Flight), ∃ (c : Context), Quiet s ∧ mainPower s = true ∧ (getLine s l.toNat).service = false ∧ s.tableBuilt = true ∧ headFlight s l.toNat = some f ∧ f.phase = .keyWait ∧ f.place ≠ none ∧ recordsIn s f = true ∧ Settled s ∧ ctx? s l.toNat = some c ∧ ctxBad s l.toNat = false ∧ (lineKeyCheck s c.parent.toNat).status = 0 ∧ (trackAt s f.track.toNat).enabled = true ∧ stampedOn s f.track.toNat = none ∧ creditFor s f = true ∧ (∀ g ∈ (getLine s l.toNat).flights, g.id = f.id → g = f) ∧ (∀ e ∈ s.lne.lines, ∀ x ∈ e.2.flights, x.track = f.track → (x.phase = .ready ∨ x.phase = .keyWait) → f.order ≤ x.order)) ∧
    (∃ (s : State), ∃ (l : BitVec 19), ∃ (f : Flight), ∃ (c : Context), Quiet s ∧ mainPower s = true ∧ s.tableBuilt = true ∧ headFlight s l.toNat = some f ∧ f.phase = .keyWait ∧ f.place = none ∧ Settled s ∧ ctx? s l.toNat = some c ∧ ctxBad s l.toNat = false ∧ (lineKeyCheck s c.parent.toNat).status = 0) ∧
    (∃ (s : State), Quiet s ∧ mainPower s = true ∧ s.tableBuilt = false ∧ Settled s) ∧
    (∃ (s : State), ∃ (l : BitVec 19), ∃ (f : Flight), Quiet s ∧ mainPower s = true ∧ headFlight s l.toNat = some f ∧ f.phase = .keyWait ∧ ctxBad s l.toNat = false ∧ (getLine s l.toNat).state = .opened ∧ (getLine s l.toNat).halt = false) :=
  ⟨⟨dataState (dataFlight 6 0 []), 5, dataFlight 6 0 [], ctxOf false, by
      try unfold DataAt
      try unfold StampsNext
      try unfold Fetches
      try unfold DataAt
      try unfold Quiet
      decide +kernel⟩,
   ⟨{ dataState (dataFlight 6 1 []) with su := { r0.su with open_ := some { number := 1, ttcStart := 400, restart := false, consists := 2, tier := 2, caution := false, changed := [], during := [], largestStamp := 950 } } }, 5, dataFlight 6 1 [], ctxOf false, by
      try unfold DataAt
      try unfold StampsNext
      try unfold Fetches
      try unfold DataAt
      try unfold Quiet
      decide +kernel⟩,
   ⟨dataState { dataFlight 1 0 [] with phase := .keyWait }, 5, { dataFlight 1 0 [] with phase := .keyWait }, by
      try unfold Fetches
      decide +kernel⟩,
   ⟨keyed (buffered { dataFlight 1 0 [] with phase := .keyWait }), 5, inBuffer { dataFlight 1 0 [] with phase := .keyWait }, ctxOf false, by
      try unfold Settled
      try unfold Quiet
      decide +kernel⟩,
   ⟨keyed (dataState { dataFlight 1 0 [] with phase := .keyWait }), 5, { dataFlight 1 0 [] with phase := .keyWait }, ctxOf false, by
      try unfold Settled
      try unfold Quiet
      decide +kernel⟩,
   ⟨{ keyed (dataState { dataFlight 1 0 [] with phase := .keyWait }) with tableBuilt := false }, by
      try unfold Settled
      try unfold Quiet
      decide +kernel⟩,
   ⟨modLine (dataState { dataFlight 1 0 [] with phase := .keyWait }) 5 (fun r => { r with halt := false }), 5, { dataFlight 1 0 [] with phase := .keyWait }, by
      try unfold Quiet
      decide +kernel⟩⟩

/-- Witnesses for the hypotheses of `FencesKeysTracksCredit` (its part `TracksAndCredit`), clause by clause. -/
theorem witness_TracksAndCredit :
    (∃ (s : State), ∃ (n : BitVec 3), Quiet s ∧ mainPower s = true ∧ (trackAt s n.toNat).enabled = true ∧ stampedOn s n.toNat = none) ∧
    (∃ (s : State), ∃ (n : BitVec 3), Quiet s ∧ mainPower s = true ∧ (trackAt s n.toNat).enabled = true ∧ (trackAt s n.toNat).fenced = false ∧ stampedOn s n.toNat = none ∧ (∃ u ∈ unfenced s, u ≠ n.toNat) ∧ s.badCells = [] ∧ s.badPrivate = []) ∧
    (∃ (s : State), ∃ (m : Master), ∃ (bits : BitVec 8), Quiet s ∧ MayWrite s m Reg.MSH_FENCE ∧ (∃ u ∈ unfenced s, BitVec.getLsbD bits u = false) ∧ s.badCells = [] ∧ s.badPrivate = []) ∧
    (∃ (s : State), ∃ (n : BitVec 3), ∃ (us : Nat), governed s = true ∧ mainPower s = true ∧ turnHalves s n.toNat = s ∧ nextFetched { s with lne := { s.lne with credit := min 8192 (s.lne.credit + 160 * us) } } n.toNat = none) ∧
    (∃ (s : State), ∃ (n : BitVec 3), ∃ (us : Nat), ∃ (l : Nat), ∃ (f : Flight), ∃ (c : Context), governed s = true ∧ mainPower s = true ∧ turnHalves s n.toNat = s ∧ ctx? s l = some c ∧ nextFetched { s with lne := { s.lne with credit := min 8192 (s.lne.credit + 160 * us) } } n.toNat = some (l, f)) :=
  ⟨⟨r0, 3, by
      try unfold Quiet
      decide +kernel⟩,
   ⟨r0, 3, by
      try unfold Quiet
      decide +kernel⟩,
   ⟨r0, 8, 0x55, by
      try unfold MayWrite
      try unfold Quiet
      decide +kernel⟩,
   ⟨{ r0 with power := { r0.power with tier := 1 } }, 3, 7, by
      decide +kernel⟩,
   ⟨{ buffered (dataFlight 1 0 []) with power := { r0.power with tier := 1 }, lne := { (buffered (dataFlight 1 0 [])).lne with credit := 0 } }, 1, 7, 5, inBuffer (dataFlight 1 0 []), ctxOf false, by
      decide +kernel⟩⟩

/-- Witnesses for the hypotheses of `Timetable`, clause by clause. -/
theorem witness_Timetable :
    (∃ (s : State), ∃ (m : Master), ∃ (v : BitVec 64), MayWrite s m Reg.TTC_ADVANCE ∧ bitR s Reg.TTC_STATUS 1 = false ∧ ready s = false ∧ s.ttc.toNat < BitVec.toNat v) ∧
    (∃ (s : State), ∃ (m : Master), ∃ (v : BitVec 64), MayWrite s m Reg.TTC_ADVANCE ∧ (bitR s Reg.TTC_STATUS 1 = true ∨ ready s = true ∨ BitVec.toNat v ≤ s.ttc.toNat)) ∧
    (∃ (s : State), ∃ (m : Master), MayWrite s m Reg.TTC_ADVANCE) ∧
    (∃ (s : State), mainPower s = true) ∧
    (∃ (s : State), Quiet s ∧ mainPower s = true ∧ bitR s Reg.TTC_STATUS 0 = false ∧ sealing s = false ∧ classOf s 70 = 0 ∧ s.vigil.active.getLsbD 70 = false ∧ s.vigil.testing = none) :=
  ⟨⟨State.reset, 4, 500, by
      try unfold MayWrite
      decide +kernel⟩,
   ⟨m0, 4, 500, by
      try unfold MayWrite
      decide +kernel⟩,
   ⟨m0, 4, by
      try unfold MayWrite
      decide +kernel⟩,
   ⟨r0, by
      decide +kernel⟩,
   ⟨{ m0 with sst := [] }, by
      try unfold Quiet
      decide +kernel⟩⟩

/-- Witnesses for the hypotheses of `EpochsAndStaging` (its part `EpochSealing`), clause by clause. -/
theorem witness_EpochSealing :
    (∃ (s : State), ∃ (e : Epoch), Quiet s ∧ s.su.open_ = some e ∧ epochEnd s e.number ≤ s.ttc.toNat ∧ tracksPast s = true ∧ s.su.ahead = []) ∧
    (∃ (s : State), ∃ (j : SealJob), ∃ (r : List SealJob), Quiet s ∧ mainPower s = true ∧ s.su.jobs = j :: r ∧ j.phase = .freezing ∧ s.su.rebuilding = false ∧ privateBad s .treeStore = false ∧ refusedAtFreeze s j = false ∧ s.su.unsigned = []) ∧
    (∃ (s : State), ∃ (j : SealJob), ∃ (r : List SealJob), Quiet s ∧ mainPower s = true ∧ s.su.jobs = j :: r ∧ j.phase = .signing ∧ j.signature = [] ∧ j.plant = [] ∧ s.su.unsigned = [] ∧ canSign s = true) ∧
    (∃ (s : State), ∃ (j : SealJob), ∃ (r : List SealJob), Quiet s ∧ mainPower s = true ∧ s.su.jobs = j :: r ∧ j.phase = .signing ∧ j.signature = [] ∧ j.plant = [] ∧ s.su.unsigned = [] ∧ loadedSeed s = none ∧ canSign s = false) ∧
    (∃ (s : State), ∃ (j : SealJob), ∃ (r : List SealJob), ∃ (w : StagingWrite), ∃ (q : List StagingWrite), Quiet s ∧ mainPower s = true ∧ s.su.jobs = j :: r ∧ s.log.staging = w :: q ∧ w.manifest = true ∧ ringRoom s (writeSize w) = true ∧ NoFlights s ∧ LogRoom s) :=
  ⟨⟨{ r0 with ttc := 600000000 }, { number := 3, ttcStart := 900, restart := false, consists := 2, tier := 2, caution := false, changed := [], during := [], largestStamp := 950 }, by
      try unfold Quiet
      decide +kernel⟩,
   ⟨withJobs (keyed r0) [job0 .freezing], job0 .freezing, [], by
      try unfold Quiet
      decide +kernel⟩,
   ⟨withJobs (keyed r0) [job0 .signing], job0 .signing, [], by
      try unfold Quiet
      decide +kernel⟩,
   ⟨{ withJobs (keyed r0) [job0 .signing] with lanes := Vector.replicate 4 { Lane.reset with fenced := true } }, job0 .signing, [], by
      try unfold Quiet
      decide +kernel⟩,
   ⟨withStaging (withJobs (keyed r0) [job0 .storing]) [{ frames := [frame0 1 1], delta := [], manifest := true, ckpt := none }], job0 .storing, [], { frames := [frame0 1 1], delta := [], manifest := true, ckpt := none }, [], by
      try unfold NoFlights
      try unfold LogRoom
      try unfold Quiet
      decide +kernel⟩⟩

/-- Witnesses for the hypotheses of `EpochsAndStaging` (its part `RebuildAndStaging`), clause by clause. -/
theorem witness_RebuildAndStaging :
    (∃ (s : State), Quiet s ∧ mainPower s = true ∧ s.su.rebuilding = true ∧ s.su.storedRoot = lineRoot s.su.stored ∧ privateBad s .deltaLists = false ∧ (getLine s 0).flights = []) ∧
    (∃ (s : State), Quiet s ∧ mainPower s = true ∧ s.su.rebuilding = true ∧ s.su.storedRoot ≠ [] ∧ s.su.storedRoot ≠ lineRoot s.su.stored ∧ privateBad s .deltaLists = false ∧ (getLine s 0).flights = []) ∧
    (∃ (s : State), ∃ (n : BitVec 12), ∃ (st : Station), mget? s.stations n.toNat = some st ∧ isTerminus s = true ∧ st.state = .enrolled ∧ st.stale = false ∧ st.lastRelay.toNat + 6000000000 ≤ s.ttc.toNat) ∧
    (∃ (s : State), ∃ (w : StagingWrite), ∃ (q : List StagingWrite), Quiet s ∧ mainPower s = true ∧ s.log.staging = w :: q ∧ w.manifest = false ∧ ringRoom s (writeSize w) = true ∧ NoFlights s ∧ LogRoom s) ∧
    (∃ (s : State), ∃ (w : StagingWrite), ∃ (q : List StagingWrite), Quiet s ∧ mainPower s = true ∧ s.log.staging = w :: q ∧ ringRoom s (writeSize w) = true) ∧
    (∃ (s : State), ∃ (w : StagingWrite), ∃ (q : List StagingWrite), Quiet s ∧ mainPower s = true ∧ s.log.staging = w :: q ∧ ringRoom s (writeSize w) = false ∧ LogRoom s) ∧
    (∃ (s : State), Quiet s ∧ mainPower s = true ∧ s.flash.programming = true ∧ LogRoom s ∧ needsReclaim (programStripe s) = false ∧ s.flash.stripes ≠ [] ∧ s.flash.wordlines < 767) :=
  ⟨⟨{ r0 with su := { r0.su with rebuilding := true, stored := [], storedRoot := lineRoot [] } }, by
      try unfold Quiet
      decide +kernel, by
      try unfold Quiet
      decide +kernel, by
      try unfold Quiet
      decide +kernel, rfl, by
      try unfold Quiet
      decide +kernel⟩,
   ⟨{ r0 with su := { r0.su with rebuilding := true, stored := [], storedRoot := lineRoot [] ++ [1] } }, by
      try unfold Quiet
      decide +kernel, by
      try unfold Quiet
      decide +kernel, by
      try unfold Quiet
      decide +kernel, by
      intro h
      have h2 : (lineRoot [] ++ [(1 : Byte)]).length = 0 := congrArg List.length h
      simp at h2, by
      intro h
      have h2 : (lineRoot [] ++ [(1 : Byte)]).length = (lineRoot []).length := congrArg List.length h
      simp at h2, by
      try unfold Quiet
      decide +kernel⟩,
   ⟨{ r0 with sst := [(5, 2)], ttc := 7000000000, stations := [(7, station0)] }, 7, station0, by
      decide +kernel⟩,
   ⟨withStaging r0 [{ frames := [frame0 5 1], delta := [], manifest := false, ckpt := none }], { frames := [frame0 5 1], delta := [], manifest := false, ckpt := none }, [], by
      try unfold NoFlights
      try unfold LogRoom
      try unfold Quiet
      decide +kernel⟩,
   ⟨withStaging r0 [{ frames := [frame0 5 1], delta := [], manifest := false, ckpt := none }], { frames := [frame0 5 1], delta := [], manifest := false, ckpt := none }, [], by
      try unfold Quiet
      decide +kernel⟩,
   ⟨withStaging (fullRing r0) [{ frames := [frame0 5 1], delta := [], manifest := false, ckpt := none }], { frames := [frame0 5 1], delta := [], manifest := false, ckpt := none }, [], by
      try unfold LogRoom
      try unfold Quiet
      decide +kernel⟩,
   ⟨{ r0 with log := { r0.log with frames := [{ frame0 5 1 with body := zeros 1000 }] }, flash := { r0.flash with staged := List.replicate 60 (1, 0), deadDies := 14, programming := true, stripes := [{ last := 0, headBytes := 0, parity := 0, dead := 0, slot := 0, used := 1, skipped := [] }] } }, by
      try unfold LogRoom
      try unfold Quiet
      decide +kernel⟩⟩

/-- Witnesses for the hypotheses of `BranchCreation`, clause by clause. -/
theorem witness_BranchCreation :
    (∃ (s : State), ∃ (m : Master), BtrIdle s m ∧ inRunOrCommission s = true ∧ PlainRead s m (btrBuf s) 32 ∧ imageWorn s = false ∧ createCheck s (btrIndex s) (btrParent s) (btrKind s) (memBytes s (btrBuf s) 32) false [BitVec.toNat m] = Check.ok ∧ (commandBranch s (commandArgs s m) (btrParent s) (memBytes s (btrBuf s) 32) none).expire = false) ∧
    (∃ (s : State), ∃ (m : Master), BtrIdle s m ∧ inRunOrCommission s = true ∧ PlainRead s m (btrBuf s) 1697 ∧ PlainWrite s m (btrBuf s + 32) 1665 ∧ imageWorn s = false ∧ createCheck s (btrIndex s) (btrParent s) (btrKind s) (memBytes s (btrBuf s) 1697) true [BitVec.toNat m] = Check.ok ∧ (commandBranch s (commandArgs s m) (btrParent s) (memBytes s (btrBuf s) 1697) (some [])).expire = false ∧ entReady s = true ∧ HybridFree s) ∧
    (∃ (s : State), ∃ (m : Master), BtrIdle s m ∧ inRunOrCommission s = true ∧ PlainRead s m (btrBuf s) 1697 ∧ imageWorn s = false ∧ createCheck s (btrIndex s) 0 (btrKind s) (memBytes s (btrBuf s) 1697) true [] = Check.ok ∧ btrExpire s = false ∧ mget? s.branches 0 = none ∧ HybridFree s ∧ (useCheck s (btrParent s) (fun k => decide (k = 3)) [27, 26, BitVec.toNat m]) = Check.ok) ∧
    (∃ (s : State), ∃ (m : Master), BtrIdle s m ∧ inRunOrCommission s = true ∧ PlainRead s m (btrBuf s) 1697 ∧ imageWorn s = false ∧ createCheck s (btrIndex s) 0 (btrKind s) (memBytes s (btrBuf s) 1697) true [] = Check.ok ∧ (useCheck s (btrParent s) (fun k => decide (k = 3)) [27, 26, BitVec.toNat m]) = Check.ok ∧ anyLane s = true ∧ hybridReady s = false) :=
  ⟨⟨btrArgs (keyed r0), 12, by
      try unfold PlainRead
      try unfold BtrIdle
      try unfold MayWrite
      try unfold Quiet
      decide +kernel⟩,
   ⟨withRegs (btrArgs c0) [(Reg.BTR_ARG, 0x0000100C)], 12, by
      try unfold HybridFree
      try unfold PlainRead
      try unfold PlainWrite
      try unfold BtrIdle
      try unfold MayWrite
      try unfold Quiet
      decide +kernel⟩,
   ⟨withRegs (btrArgs c0) [(Reg.BTR_ARG, 0x0003100C)], 12, by
      try unfold HybridFree
      try unfold PlainRead
      try unfold BtrIdle
      try unfold MayWrite
      try unfold Quiet
      decide +kernel⟩,
   ⟨engineBusy (withRegs (btrArgs c0) [(Reg.BTR_ARG, 0x0003100C)]), 12, by
      try unfold PlainRead
      try unfold BtrIdle
      try unfold MayWrite
      try unfold Quiet
      decide +kernel⟩⟩

/-- Witnesses for the hypotheses of `BranchAndSlotEnds` (its part `BranchEnds`), clause by clause. -/
theorem witness_BranchEnds :
    (∃ (s : State), ∃ (m : Master), ∃ (b : Branch), BtrIdle s m ∧ mget? s.branches (btrIndex s) = some b ∧ b.state = .valid ∧ s.vigil.trunk = .valid ∧ privateBad s (.branch (btrIndex s)) = false ∧ imageWorn s = false) ∧
    (∃ (s : State), ∃ (m : Master), ∃ (b : Branch), BtrIdle s m ∧ inRunOrCommission s = true ∧ mget? s.branches (btrIndex s) = some b ∧ b.state = .valid ∧ b.installed = false ∧ b.kind ≠ 6 ∧ s.vigil.trunk = .valid ∧ privateBad s (.branch (btrIndex s)) = false ∧ imageWorn s = false) ∧
    (∃ (s : State), ∃ (m : Master), ∃ (b : Branch), BtrIdle s m ∧ inRunOrCommission s = true ∧ mget? s.branches (btrIndex s) = some b ∧ b.state = .invalid ∧ hasChildren s (btrIndex s) = false ∧ b.lines = 0 ∧ s.vigil.trunk = .valid ∧ privateBad s (.branch (btrIndex s)) = false ∧ imageWorn s = false) :=
  ⟨⟨withRegs (btrArgs (keyed r0)) [(Reg.BTR_ARG, 9)], 12, branchOf 1 0 1 9, by
      try unfold BtrIdle
      try unfold MayWrite
      try unfold Quiet
      decide +kernel⟩,
   ⟨withRegs (btrArgs (keyed r0)) [(Reg.BTR_ARG, 9)], 12, branchOf 1 0 1 9, by
      try unfold BtrIdle
      try unfold MayWrite
      try unfold Quiet
      decide +kernel⟩,
   ⟨{ withRegs (btrArgs (keyed r0)) [(Reg.BTR_ARG, 9)] with branches := [(9, { branchOf 1 0 1 9 with state := .invalid })] }, 12, { branchOf 1 0 1 9 with state := .invalid }, by
      try unfold BtrIdle
      try unfold MayWrite
      try unfold Quiet
      decide +kernel⟩⟩

/-- Witnesses for the hypotheses of `TrunkUnit` (its part `TrunkAndTable`), clause by clause. -/
theorem witness_TrunkAndTable :
    (∃ (s : State), ∃ (m : Master), BtrIdle s m ∧ s.mode = .commissioning ∧ s.vigil.trunk ≠ .valid ∧ entReady s = true ∧ imageWorn s = false) ∧
    (∃ (s : State), Quiet s ∧ mainPower s = true ∧ s.btr = some (plainPending 8 0) ∧ s.mae.request = none ∧ s.fusesOk = true ∧ sstCount s 9 < 99999) ∧
    (∃ (s : State), ∃ (p : BtrPending), Quiet s ∧ mainPower s = true ∧ s.btr = some p ∧ p.persist = true ∧ p.op ≠ 1 ∧ p.op ≠ 4 ∧ p.op ≠ 8 ∧ p.waybill = none ∧ p.report = true ∧ p.slot = none ∧ p.pair = none ∧ reportWaits s p = false ∧ s.mae.request = none) ∧
    (∃ (s : State), ∃ (p : BtrPending), Quiet s ∧ mainPower s = true ∧ s.btr = some p ∧ (reportWaits s p = true ∨ s.mae.request ≠ none)) ∧
    (∃ (s : State), ∃ (im : TableImage), Quiet s ∧ mainPower s = true ∧ s.fusesOk = true ∧ s.tableBuilt = false ∧ s.vigil.trunk = .valid ∧ privateBad s .trunk = false ∧ imageWorn s = false ∧ s.image = some im ∧ imageOpens s im = true) ∧
    (∃ (s : State), Quiet s ∧ mainPower s = true ∧ s.fusesOk = false ∧ s.tableBuilt = false) ∧
    (∃ (s : State), Quiet s ∧ s.tableBuilt = true) ∧
    (∃ (s : State), ∃ (m : Master), BtrIdle s m ∧ s.mode = .commissioning ∧ sessionLevel s ≠ 2 ∧ s.lko.inv = none) :=
  ⟨⟨{ c0 with vigil := Vigil.reset }, 12, by
      try unfold BtrIdle
      try unfold MayWrite
      try unfold Quiet
      decide +kernel⟩,
   ⟨{ c0 with vigil := Vigil.reset, btr := some (plainPending 8 0) }, by
      try unfold Quiet
      decide +kernel⟩,
   ⟨{ keyed r0 with btr := some (plainPending 6 9) }, plainPending 6 9, by
      try unfold Quiet
      decide +kernel⟩,
   ⟨{ keyed r0 with btr := some (plainPending 1 9), mae := { r0.mae with request := some (.command 3 (commandArgs (btrArgs c0) 12) (zeros 10) 3) } }, plainPending 1 9, by
      try unfold Quiet
      decide +kernel⟩,
   ⟨imaged, imaged.image.getD { bytes := [], counts := [] }, by
      try unfold Quiet
      decide +kernel, by
      try unfold Quiet
      decide +kernel, by
      try unfold Quiet
      decide +kernel, by
      try unfold Quiet
      decide +kernel, by
      try unfold Quiet
      decide +kernel, by
      try unfold Quiet
      decide +kernel, by
      try unfold Quiet
      decide +kernel, by
      try unfold Quiet
      decide +kernel, imaged_ok⟩,
   ⟨{ imaged with fusesOk := false }, by
      try unfold Quiet
      decide +kernel⟩,
   ⟨keyed r0, by
      try unfold Quiet
      decide +kernel⟩,
   ⟨c0, 12, by
      try unfold BtrIdle
      try unfold MayWrite
      try unfold Quiet
      decide +kernel⟩⟩

/-- Witnesses for the hypotheses of `TrunkUnit` (its part `TrunkBackup`), clause by clause. -/
theorem witness_TrunkBackup :
    (∃ (s : State), ∃ (m : Master), ∃ (b : Branch), ∃ (p : Branch), BtrIdle s m ∧ inRunOrCommission s = true ∧ useCheck s (btrIndex s) (fun k => decide (k = 5)) [BitVec.toNat m] = Check.ok ∧ entReady s = true ∧ mget? s.branches (btrIndex s) = some b ∧ mget? s.branches b.parent = some p ∧ privateBad s .trunk = false ∧ PlainWrite s m (btrBuf s) (backupBlob s (branchKey s (btrIndex s)) b p (drawBytes s 16)).length) ∧
    (∃ (s : State), ∃ (m : Master), BtrIdle s m ∧ s.mode = .commissioning ∧ s.vigil.trunk ≠ .valid ∧ hasPlate s = true ∧ entReady s = true ∧ HybridFree s ∧ PlainWrite s m (btrBuf s) 4738) ∧
    (∃ (s : State), ∃ (m : Master), ∃ (kp : Bytes), BtrIdle s m ∧ s.mode = .running ∧ PlainRead s m (btrBuf s) 4922 ∧ pairKey s (slice (slice (memBytes s (btrBuf s) 4922) 0 184) 24 32) = .escrow kp ∧ entReady s = true ∧ HybridFree s) ∧
    (∃ (s : State), ∃ (m : Master), BtrIdle s m ∧ s.mode = .commissioning ∧ s.vigil.trunk ≠ .valid ∧ PlainRead s m (btrBuf s) 1929 ∧ s.rescueSeed ≠ [] ∧ hasPlate s = true ∧ HybridFree s) :=
  ⟨⟨withRegs (btrArgs (keyed r0)) [(Reg.BTR_ARG, 5)], 12, branchOf 5 6 2 5, branchOf 6 0 1 6, by
      try unfold PlainWrite
      try unfold BtrIdle
      try unfold MayWrite
      try unfold Quiet
      decide +kernel⟩,
   ⟨{ btrArgs c0 with vigil := Vigil.reset }, 12, by
      try unfold HybridFree
      try unfold PlainWrite
      try unfold BtrIdle
      try unfold MayWrite
      try unfold Quiet
      decide +kernel⟩,
   ⟨escrowed, 12, xorBytes (zeros 32) (escrowMask (List.replicate 32 7) (slice (slice (memBytes escrowed (btrBuf escrowed) 4922) 0 184) 24 32) 7), by
      try unfold HybridFree
      try unfold PlainRead
      try unfold BtrIdle
      try unfold MayWrite
      try unfold Quiet
      decide +kernel, by
      try unfold HybridFree
      try unfold PlainRead
      try unfold BtrIdle
      try unfold MayWrite
      try unfold Quiet
      decide +kernel, by
      try unfold HybridFree
      try unfold PlainRead
      try unfold BtrIdle
      try unfold MayWrite
      try unfold Quiet
      decide +kernel, escrowed_key, by
      try unfold HybridFree
      try unfold PlainRead
      try unfold BtrIdle
      try unfold MayWrite
      try unfold Quiet
      decide +kernel⟩,
   ⟨{ btrArgs c0 with vigil := Vigil.reset, rescueSeed := zeros 120 }, 12, by
      try unfold HybridFree
      try unfold PlainRead
      try unfold BtrIdle
      try unfold MayWrite
      try unfold Quiet
      decide +kernel⟩⟩

/-- Witnesses for the hypotheses of `BranchAndSlotEnds` (its part `RetireFreesSlot`), clause by clause. -/
theorem witness_RetireFreesSlot :
    (∃ (s : State), ∃ (m : Master), ∃ (n : BitVec 12), ∃ (st : Station), ∃ (b : Branch), Quiet s ∧ mget? s.stations n.toNat = some st ∧ s.mode = .commissioning ∧ isTerminus s = true ∧ isSignalbox m = true ∧ s.btr = none ∧ keptPairing s st = true ∧ mget? s.branches st.branch = some b ∧ s.vigil.trunk = .valid ∧ imageWorn s = false) ∧
    (∃ (s : State), ∃ (m : Master), ∃ (n : BitVec 12), ∃ (st : Station), Quiet s ∧ mget? s.stations n.toNat = some st ∧ s.mode = .commissioning ∧ isTerminus s = true ∧ isSignalbox m = true ∧ s.btr = none ∧ keptPairing s st = false) :=
  ⟨⟨{ c0 with sst := [(5, 2)], stations := [(7, { station0 with branch := 8 })], branches := mput c0.branches 8 (branchOf 6 0 1 0) }, 4, 7, { station0 with branch := 8 }, branchOf 6 0 1 0, by
      try unfold Quiet
      decide +kernel⟩,
   ⟨{ c0 with sst := [(5, 2)], stations := [(6, station0), (7, station0)] }, 4, 7, station0, by
      try unfold Quiet
      decide +kernel⟩⟩

/-- Witnesses for the hypotheses of `SignAndBranchWaybills` (its part `SignatureWaybills`), clause by clause. -/
theorem witness_SignatureWaybills :
    (∃ (s : State), ∃ (l : BitVec 19), ∃ (pos : Nat), ∃ (f : Flight), ∃ (c : Context), ServiceAt s l.toNat pos 0x20 f c ∧ ¬ (keyValid s = true ∧ num f.raw 4 2 % 4096 = keyBranch s) ∧ useCheck s (num f.raw 4 2 % 4096) (fun k => decide (k = 2)) [27] = Check.ok ∧ entReady s = true ∧ lsuBusy s = false ∧ s.tableBuilt = true ∧ lanesBusy s = false) ∧
    (∃ (s : State), ∃ (l : BitVec 19), ∃ (pos : Nat), ∃ (f : Flight), WaybillAt s l.toNat pos 0x20 f ∧ Quiet s ∧ (s.tableBuilt = false ∨ lanesBusy s = true)) ∧
    (∃ (s : State), ∃ (l : BitVec 19), ∃ (pos : Nat), ∃ (f : Flight), ∃ (c : Context), ServiceAt s l.toNat pos 0x21 f c ∧ (byteAt f.raw 4 % 16 ≠ 0 ∨ (lsuBusy s = false ∧ lanesBusy s = false))) :=
  ⟨⟨{ svc r0 0x20 0 [(4, [2, 0]), (16, [5]), (24, [0, 0x80])] with sst := [] }, 6, 0, svcFlight 0x20 0 [(4, [2, 0]), (16, [5]), (24, [0, 0x80])], ctxOf true, by
      try unfold ServiceAt
      try unfold WaybillAt
      try unfold Quiet
      decide +kernel⟩,
   ⟨{ svc r0 0x20 0 [(4, le 2 2), (6, le 2 5)] with tableBuilt := false }, 6, 0, svcFlight 0x20 0 [(4, le 2 2), (6, le 2 5)], by
      try unfold WaybillAt
      try unfold Quiet
      decide +kernel⟩,
   ⟨svc r0 0x21 0 [(4, [2])], 6, 0, svcFlight 0x21 0 [(4, [2])], ctxOf true, by
      try unfold ServiceAt
      try unfold WaybillAt
      try unfold Quiet
      decide +kernel⟩⟩

/-- Witnesses for the hypotheses of `SignAndBranchWaybills` (its part `BranchWaybills`), clause by clause. -/
theorem witness_BranchWaybills :
    (∃ (s : State), ∃ (l : BitVec 19), ∃ (pos : Nat), ∃ (f : Flight), ∃ (c : Context), ServiceAt s l.toNat pos 0x24 f c ∧ s.btr = none ∧ s.tableBuilt = true ∧ imageWorn s = false ∧ createCheck s (wbTarget f.raw) (wbParent f.raw) (wbKind f.raw) (wbLabel f.raw) false [] = Check.ok ∧ (wbBranch s f.raw (decide (byteAt f.raw 16 % 2 = 1)) none).expire = false ∧ wf64 f.raw 8 = 0) ∧
    (∃ (s : State), ∃ (l : BitVec 19), ∃ (pos : Nat), ∃ (f : Flight), ∃ (c : Context), ServiceAt s l.toNat pos 0x24 f c ∧ s.btr = none ∧ s.tableBuilt = true ∧ imageWorn s = false ∧ anyLane s = true ∧ lanesBusy s = false ∧ createCheck s (wbTarget f.raw) (wbParent f.raw) (wbKind f.raw) (wbLabel f.raw) false [] = Check.ok ∧ (wbBranch s f.raw (decide (byteAt f.raw 16 % 2 = 1)) none).expire = false ∧ wf64 f.raw 8 ≠ 0 ∧ wbKind f.raw = 2) ∧
    (∃ (s : State), ∃ (l : BitVec 19), ∃ (pos : Nat), ∃ (f : Flight), ∃ (c : Context), ServiceAt s l.toNat pos 0x22 f c ∧ s.btr = none ∧ s.tableBuilt = true ∧ imageWorn s = false ∧ wbKind f.raw = 1 ∧ (wbBranch s f.raw false none).expire = false ∧ createCheck s (wbTarget f.raw) (wbParent f.raw) (wbKind f.raw) (wbLabel f.raw) true [] = Check.ok ∧ entReady s = true ∧ HybridFree s) ∧
    (∃ (s : State), ∃ (l : BitVec 19), ∃ (pos : Nat), ∃ (f : Flight), ∃ (c : Context), ServiceAt s l.toNat pos 0x23 f c ∧ s.btr = none ∧ s.tableBuilt = true ∧ imageWorn s = false ∧ wbKind f.raw = 1 ∧ (wbBranch s f.raw false none).expire = false ∧ HybridFree s ∧ createCheck s (wbTarget f.raw) (wbParent f.raw) (wbKind f.raw) (wbLabel f.raw) true [] = Check.ok ∧ useCheck s (wbKemBranch f.raw) (fun k => decide (k = 3)) [27, 26] = Check.ok) ∧
    (∃ (s : State), ∃ (l : BitVec 19), ∃ (pos : Nat), ∃ (f : Flight), ∃ (c : Context), ServiceAt s l.toNat pos 0x23 f c ∧ s.btr = none ∧ s.tableBuilt = true ∧ imageWorn s = false ∧ wbKind f.raw = 1 ∧ (wbBranch s f.raw false none).expire = false ∧ anyLane s = true ∧ hybridReady s = false ∧ createCheck s (wbTarget f.raw) (wbParent f.raw) (wbKind f.raw) (wbLabel f.raw) true [] = Check.ok ∧ useCheck s (wbKemBranch f.raw) (fun k => decide (k = 3)) [27, 26] = Check.ok) :=
  ⟨⟨svc r0 0x24 0 [(4, [12, 0x10, 9, 0])], 6, 0, svcFlight 0x24 0 [(4, [12, 0x10, 9, 0])], ctxOf true, by
      try unfold ServiceAt
      try unfold WaybillAt
      try unfold Quiet
      decide +kernel⟩,
   ⟨svc r0 0x24 0 [(4, [12, 0x20, 9, 0]), (8, [0, 0x90])], 6, 0, svcFlight 0x24 0 [(4, [12, 0x20, 9, 0]), (8, [0, 0x90])], ctxOf true, by
      try unfold ServiceAt
      try unfold WaybillAt
      try unfold Quiet
      decide +kernel⟩,
   ⟨svc r0 0x22 0 [(4, [12, 0x10, 9, 0])], 6, 0, svcFlight 0x22 0 [(4, [12, 0x10, 9, 0])], ctxOf true, by
      try unfold HybridFree
      try unfold ServiceAt
      try unfold WaybillAt
      try unfold Quiet
      decide +kernel⟩,
   ⟨svc r0 0x23 0 [(4, [12, 0x10, 9, 0]), (16, [3, 0])], 6, 0, svcFlight 0x23 0 [(4, [12, 0x10, 9, 0]), (16, [3, 0])], ctxOf true, by
      try unfold HybridFree
      try unfold ServiceAt
      try unfold WaybillAt
      try unfold Quiet
      decide +kernel⟩,
   ⟨engineBusy (svc c0 0x23 0 [(4, [12, 0x10, 0, 0]), (16, [3, 0])]), 6, 0, svcFlight 0x23 0 [(4, [12, 0x10, 0, 0]), (16, [3, 0])], ctxOf true, by
      try unfold ServiceAt
      try unfold WaybillAt
      try unfold Quiet
      decide +kernel⟩⟩

/-- Witnesses for the hypotheses of `ReadoutWaybills`, clause by clause. -/
theorem witness_ReadoutWaybills :
    (∃ (s : State), ∃ (l : BitVec 19), ∃ (pos : Nat), ∃ (f : Flight), ∃ (c : Context), ∃ (w : Tree), ServiceAt s l.toNat pos 0x25 f c ∧ s.su.rebuilding = false ∧ privateBad s .treeStore = false ∧ s.su.window.find? (fun x => decide (x.epoch = wf64 f.raw 8)) = some w ∧ 816 ≤ wf64 f.raw 24) ∧
    (∃ (s : State), ∃ (l : BitVec 19), ∃ (pos : Nat), ∃ (f : Flight), ∃ (c : Context), ∃ (m : Bytes), ServiceAt s l.toNat pos 0x26 f c ∧ (manifestsFrom s (wf64 f.raw 8) (num f.raw 4 4)).getLast? = some m) ∧
    (∃ (s : State), ∃ (l : BitVec 19), ∃ (pos : Nat), ∃ (f : Flight), ∃ (c : Context), ∃ (k : Nat), ServiceAt s l.toNat pos 0x27 f c ∧ exportTurn s f.id = true ∧ s.hlk.usbWait = [] ∧ exportCursor s (wf64 f.raw 8) = some k ∧ byteAt f.raw 3 % 2 = 0) ∧
    (∃ (s : State), ∃ (l : BitVec 19), ∃ (pos : Nat), ∃ (f : Flight), ∃ (c : Context), ∃ (k : Nat), ServiceAt s l.toNat pos 0x27 f c ∧ exportTurn s f.id = true ∧ s.hlk.usbWait = [] ∧ logFull s = false ∧ exportCursor s (wf64 f.raw 8) = some k ∧ byteAt f.raw 3 % 2 = 1) ∧
    (∃ (s : State), ∃ (l : BitVec 19), ∃ (pos : Nat), ∃ (f : Flight), WaybillAt s l.toNat pos 0x27 f ∧ Quiet s ∧ exportTurn s f.id = false) :=
  ⟨⟨{ svc r0 0x25 0 [(4, [5]), (8, [2]), (16, [0, 0x80]), (24, [0, 4])] with su := { r0.su with window := [{ epoch := 2, header := zeros 128, leaves := [(5, { seq := 1, head := zeros 32 })] }] } }, 6, 0, svcFlight 0x25 0 [(4, [5]), (8, [2]), (16, [0, 0x80]), (24, [0, 4])], ctxOf true, { epoch := 2, header := zeros 128, leaves := [(5, { seq := 1, head := zeros 32 })] }, by
      try unfold ServiceAt
      try unfold WaybillAt
      try unfold Quiet
      decide +kernel⟩,
   ⟨logState (svc r0 0x26 0 [(4, [1]), (8, [0]), (16, [0, 0x80])]), 6, 0, svcFlight 0x26 0 [(4, [1]), (8, [0]), (16, [0, 0x80])], ctxOf true, zeros 200, by
      try unfold ServiceAt
      try unfold WaybillAt
      try unfold Quiet
      decide +kernel⟩,
   ⟨logState (svc r0 0x27 0 [(4, [0, 4]), (8, [1]), (16, [0, 0x80])]), 6, 0, svcFlight 0x27 0 [(4, [0, 4]), (8, [1]), (16, [0, 0x80])], ctxOf true, 1, by
      try unfold ServiceAt
      try unfold WaybillAt
      try unfold Quiet
      decide +kernel⟩,
   ⟨logState (svc r0 0x27 1 [(4, [0, 4]), (8, [0]), (16, [0, 0x80])]), 6, 0, svcFlight 0x27 1 [(4, [0, 4]), (8, [0]), (16, [0, 0x80])], ctxOf true, 1, by
      try unfold ServiceAt
      try unfold WaybillAt
      try unfold Quiet
      decide +kernel⟩,
   ⟨withFlights (logState (svc r0 0x27 0 [])) 6 [flight 2 .parked (wb 0x27 0 []), svcFlight 0x27 0 []], 6, 1, svcFlight 0x27 0 [], by
      try unfold WaybillAt
      try unfold Quiet
      decide +kernel⟩⟩

/-- Witnesses for the hypotheses of `FleetAndImageWaybills` (its part `FleetWaybills`), clause by clause. -/
theorem witness_FleetWaybills :
    (∃ (s : State), ∃ (l : BitVec 19), ∃ (pos : Nat), ∃ (b : Bytes), ∃ (f : Flight), ∃ (c : Context), ∃ (st : Station), ServiceAt s l.toNat pos 0x28 f c ∧ isTerminus s = true ∧ relayTurn s f = true ∧ mget? s.stations (num f.raw 4 2 % 4096) = some st ∧ st.state = .enrolled ∧ blockDigest (slice b 0 1408) ≠ st.digest ∧ lsuBusy s = false ∧ lanesBusy s = false) ∧
    (∃ (s : State), ∃ (l : BitVec 19), ∃ (pos : Nat), ∃ (f : Flight), ∃ (c : Context), ServiceAt s l.toNat pos 0x29 f c ∧ hasPlate s = true ∧ 1536 + 80 * s.flash.measured.length ≤ wf64 f.raw 24 ∧ entReady s = true ∧ lsuBusy s = false ∧ lanesBusy s = false) ∧
    (∃ (s : State), ∃ (l : BitVec 19), ∃ (pos : Nat), ∃ (f : Flight), ∃ (c : Context), ServiceAt s l.toNat pos 0x2A f c ∧ logFull s = false ∧ s.log.next ≠ 0) :=
  ⟨⟨{ svc r0 0x28 0 [(4, [7, 0])] with sst := [(3, 0x80000002), (5, 2)], stations := [(6, station0), (7, { station0 with format := 0 })] }, 6, 0, [1] ++ zeros 127 ++ [1] ++ zeros 1279, svcFlight 0x28 0 [(4, [7, 0])], ctxOf true, { station0 with format := 0 }, by
      try unfold ServiceAt
      try unfold WaybillAt
      try unfold Quiet
      decide +kernel⟩,
   ⟨svc r0 0x29 0 [(16, [0, 0x80]), (24, [0, 0x10])], 6, 0, svcFlight 0x29 0 [(16, [0, 0x80]), (24, [0, 0x10])], ctxOf true, by
      try unfold ServiceAt
      try unfold WaybillAt
      try unfold Quiet
      decide +kernel⟩,
   ⟨svc r0 0x2A 0 [(16, [0, 0x80])], 6, 0, svcFlight 0x2A 0 [(16, [0, 0x80])], ctxOf true, by
      try unfold ServiceAt
      try unfold WaybillAt
      try unfold Quiet
      decide +kernel⟩⟩

/-- Witnesses for the hypotheses of `FleetAndImageWaybills` (its part `ImageChunks`), clause by clause. -/
theorem witness_ImageChunks :
    ∃ (s : State), ∃ (l : BitVec 19), ∃ (pos : Nat), ∃ (f : Flight), ∃ (c : Context), ServiceAt s l.toNat pos 0x30 f c ∧ byteAt f.raw 3 % 4 = 0 ∧ f.advance = 0 ∧ s.power.lastGasp = false ∧ s.flash.loadNext = some (wf64 f.raw 8) ∧ (s.flash.monitor = true ∨ slotState (bootRec s) s.flash.running ≠ 3) :=
  ⟨{ svc m0 0x30 0 [(4, [0, 16]), (8, [0, 16])] with flash := { m0.flash with loadNext := some 4096 } }, 6, 0, svcFlight 0x30 0 [(4, [0, 16]), (8, [0, 16])], ctxOf true, by
      try unfold ServiceAt
      try unfold WaybillAt
      try unfold Quiet
      decide +kernel⟩

/-- Witnesses for the hypotheses of `CardControl` (its part `CardPresence`), clause by clause. -/
theorem witness_CardPresence :
    (∃ (s : State), ∃ (i : CardImage), Quiet s ∧ mainPower s = true ∧ s.cardPresent = false ∧ i.failStep = 0 ∧ releaseState s = 0) ∧
    (∃ (s : State), ∃ (i : CardImage), Quiet s ∧ mainPower s = true ∧ s.cardPresent = false ∧ i.failStep ≠ 0) ∧
    (∃ (s : State), ∃ (c : Card), Quiet s ∧ mainPower s = true ∧ s.cardPresent = true ∧ s.card = some c ∧ c.session = none ∧ c.erasing = false) ∧
    (∃ (s : State), ∃ (m : Master), ∃ (c : Card), CardIdle s m c) :=
  ⟨⟨r0, emptyCard, by
      try unfold Quiet
      decide +kernel⟩,
   ⟨m0, { emptyCard with failStep := 3 }, by
      try unfold Quiet
      decide +kernel⟩,
   ⟨withCardImg r0 emptyCard, cardOf emptyCard, by
      try unfold Quiet
      decide +kernel⟩,
   ⟨withCardImg r0 emptyCard, 16, cardOf emptyCard, by
      try unfold CardIdle
      try unfold MayWrite
      try unfold Quiet
      decide +kernel⟩⟩

/-- Witnesses for the hypotheses of `CardControl` (its part `CardCommands`), clause by clause. -/
theorem witness_CardCommands :
    (∃ (s : State), ∃ (m : Master), ∃ (c : Card), CardIdle s m c ∧ s.tableBuilt = true ∧ c.img.locked = false ∧ bitR s Reg.CCI_ARG 0 = false) ∧
    (∃ (s : State), ∃ (m : Master), ∃ (c : Card), CardIdle s m c ∧ s.tableBuilt = true ∧ c.img.locked = false ∧ c.img.erased = true ∧ reach s 29 .read (getR s Reg.CCI_BUF).toNat 184 = { state := s, outcome := .ok } ∧ lockModeOk s = true ∧ lockCheck s (backupLock s (memBytes s (getR s Reg.CCI_BUF).toNat 184)) [BitVec.toNat m] = Check.ok) ∧
    (∃ (s : State), ∃ (m : Master), ∃ (c : Card), CardIdle s m c ∧ s.mode = .commissioning ∧ c.img.locked = false ∧ 1 ≤ fieldR s Reg.CCI_ARG 4 5 ∧ fieldR s Reg.CCI_ARG 4 5 ≤ 16 ∧ entReady s = true ∧ sstCount s (credentialSlot (fieldR s Reg.CCI_ARG 4 5)) < 100000 ∧ sstCount s (credentialSlot (fieldR s Reg.CCI_ARG 4 5) + 1) < 100000) ∧
    (∃ (s : State), ∃ (m : Master), ∃ (c : Card), CardIdle s m c ∧ inRunOrCommission s = true) ∧
    (∃ (s : State), ∃ (c : Card), mainPower s = true ∧ s.card = some c ∧ c.erasing = true) :=
  ⟨⟨withCardImg (keyed r0) emptyCard, 16, cardOf emptyCard, by
      try unfold CardIdle
      try unfold MayWrite
      try unfold Quiet
      decide +kernel⟩,
   ⟨{ withCardImg (cardLocks (wide (keyed (setR r0 Reg.CCI_BUF 0x20000000)))) { emptyCard with erased := true } with mem := [(0x20000018, 6)] }, 16, cardOf { emptyCard with erased := true }, by
      try unfold CardIdle
      try unfold MayWrite
      try unfold Quiet
      decide +kernel⟩,
   ⟨setR (withCardImg c0 emptyCard) Reg.CCI_ARG 0x35, 16, cardOf emptyCard, by
      try unfold CardIdle
      try unfold MayWrite
      try unfold Quiet
      decide +kernel⟩,
   ⟨withCardImg r0 emptyCard, 16, cardOf emptyCard, by
      try unfold CardIdle
      try unfold MayWrite
      try unfold Quiet
      decide +kernel⟩,
   ⟨{ withCardImg r0 emptyCard with card := some { cardOf { emptyCard with hdr0 := [1], locked := true } with erasing := true } }, { cardOf { emptyCard with hdr0 := [1], locked := true } with erasing := true }, by
      decide +kernel⟩⟩

/-- Witnesses for the hypotheses of `CardSessions`, clause by clause. -/
theorem witness_CardSessions :
    (∃ (s : State), ∃ (l : BitVec 19), ∃ (pos : Nat), ∃ (f : Flight), ∃ (x : Context), ∃ (c : Card), ∃ (k : Nat), ServiceAt s l.toNat pos 0x2B f x ∧ exportTurn s f.id = true ∧ s.card = some c ∧ c.session = none ∧ c.erasing = false ∧ cciState s = 2 ∧ c.img.locked = false ∧ exportCursor s (wf64 f.raw 8) = some k ∧ num f.raw 4 4 ≠ 0 ∧ k ≤ newestStored s) ∧
    (∃ (s : State), ∃ (c : Card), ∃ (v : CardSession), Quiet s ∧ mainPower s = true ∧ s.card = some c ∧ c.session = some v ∧ 2 ≤ v.left ∧ v.nextUnit + 1 < c.img.capacity) ∧
    (∃ (s : State), ∃ (c : Card), ∃ (v : CardSession), Quiet s ∧ mainPower s = true ∧ s.card = some c ∧ c.session = some v) :=
  ⟨⟨logState (withCardImg (svc r0 0x2B 0 [(4, [1]), (8, [1])]) emptyCard), 6, 0, svcFlight 0x2B 0 [(4, [1]), (8, [1])], ctxOf true, cardOf emptyCard, 1, by
      try unfold ServiceAt
      try unfold WaybillAt
      try unfold Quiet
      decide +kernel⟩,
   ⟨logState { withCardImg (keyed r0) emptyCard with card := some { cardOf emptyCard with session := some { exportSession with newest := 10 } } }, { cardOf emptyCard with session := some { exportSession with newest := 10 } }, { exportSession with newest := 10 }, by
      try unfold Quiet
      decide +kernel⟩,
   ⟨{ withCardImg (withFlights (keyed r0) 6 [{ svcFlight 0x2B 0 [] with phase := .parked }]) emptyCard with card := some { cardOf emptyCard with session := some exportSession } }, { cardOf emptyCard with session := some exportSession }, exportSession, by
      try unfold Quiet
      decide +kernel⟩⟩

/-- Witnesses for the hypotheses of `FlashController` (its part `FlashCommands`), clause by clause. -/
theorem witness_FlashCommands :
    (∃ (s : State), ∃ (m : Master), FlcIdle s m) ∧
    (∃ (s : State), ∃ (m : Master), FlcIdle s m ∧ flcRefusal s true = none) ∧
    (∃ (s : State), ∃ (m : Master), FlcIdle s m ∧ flcRefusal s false = none) ∧
    (∃ (s : State), ∃ (m : Master), ∃ (d : Nat), ∃ (b : Nat), FlcIdle s m ∧ freeReserve s = some (d, b)) ∧
    (∃ (s : State), ∃ (m : Master), FlcIdle s m ∧ freeReserve s = none) ∧
    (∃ (s : State), ∃ (m : Master), FlcIdle s m) ∧
    (∃ (s : State) (m : Master), FlcIdle s m ∧ blockMapped s (fieldR s Reg.FLC_ARG 0 2) (fieldR s Reg.FLC_ARG 2 11) = true) ∧
    (∃ (s : State) (m : Master), FlcIdle s m ∧ blockMapped s (fieldR s Reg.FLC_ARG 0 2) (fieldR s Reg.FLC_ARG 2 11) = false ∧ blockProtected s (fieldR s Reg.FLC_ARG 0 2) (fieldR s Reg.FLC_ARG 2 11) = true) :=
  ⟨⟨setR (withRegs r0 [(Reg.FLC_RESULT, 0x80000000)]) Reg.FLC_ARG 0x5555, 16, by
      try unfold FlcIdle
      try unfold MayWrite
      try unfold Quiet
      decide +kernel⟩,
   ⟨setR r0 Reg.FLC_ARG (1130 * 4 + 1), 16, by
      try unfold FlcIdle
      try unfold MayWrite
      try unfold Quiet
      decide +kernel⟩,
   ⟨setR r0 Reg.FLC_ARG (1130 * 4 + 1), 16, by
      try unfold FlcIdle
      try unfold MayWrite
      try unfold Quiet
      decide +kernel⟩,
   ⟨r0, 16, ((freeReserve r0).getD (0, 0)).1, ((freeReserve r0).getD (0, 0)).2, by
      try unfold FlcIdle
      try unfold MayWrite
      try unfold Quiet
      decide +kernel⟩,
   ⟨{ r0 with flash := { r0.flash with deadDies := 15 } }, 16, by
      try unfold FlcIdle
      try unfold MayWrite
      try unfold Quiet
      decide +kernel⟩,
   ⟨r0, 16, by
      try unfold FlcIdle
      try unfold MayWrite
      try unfold Quiet
      decide +kernel⟩,
   ⟨{ r0 with flash := { r0.flash with slices := [(3, { die := 0, block := 0, offset := 0, valid := true })] } }, 16, by unfold FlcIdle Quiet MayWrite; decide +kernel⟩,
   ⟨r0, 16, by unfold FlcIdle Quiet MayWrite; decide +kernel⟩⟩

/-- Witnesses for the hypotheses of `FlashController` (its part `FlashWork`), clause by clause. -/
theorem witness_FlashWork :
    (∃ (s : State), ∃ (d : Nat), ∃ (b : Nat), ∃ (p : Nat), ∃ (a : Nat), Quiet s ∧ mainPower s = true ∧ s.flash.op = some (.program, d, b, p, a) ∧ reach s 28 .read a 16384 = { state := s, outcome := .ok } ∧ dieDead s d = false ∧ pageExists b p = true ∧ privateBad s (.nand d) = false) ∧
    (∃ (s : State), ∃ (d : Nat), ∃ (b : Nat), ∃ (p : Nat), ∃ (a : Nat), Quiet s ∧ mainPower s = true ∧ s.flash.op = some (.erase, d, b, p, a) ∧ dieDead s d = false) ∧
    (∃ (s : State), ∃ (d : Nat), ∃ (b : Nat), ∃ (p : Nat), ∃ (a : Nat), Quiet s ∧ mainPower s = true ∧ s.flash.op = some (.read, d, b, p, a) ∧ dieDead s d = false ∧ pageExists b p = true ∧ privateBad s (.nand d) = false ∧ PlainWrite s 28 a (readPage s d b p).length) ∧
    (∃ (s : State), ∃ (d : Nat), ∃ (b : Nat), stripeOf s d b = none ∧ partitionAt s d b ≠ .staging ∧ partitionAt s d b ≠ .fixed) ∧
    (∃ (s : State), ∃ (d : Nat), ∃ (b : Nat), ∃ (p : Nat), ∃ (a : Nat), Quiet s ∧ mainPower s = true ∧ s.flash.op = some (.read, d, b, p, a) ∧ dieDead s d = false ∧ pageExists b p = true ∧ privateBad s (.nand d) = true ∧ bitR s Reg.FLC_RESULT 31 = false) ∧
    (∃ (s : State), ∃ (d : Nat), ∃ (b : Nat), ∃ (p : Nat), ∃ (a : Nat), Quiet s ∧ mainPower s = true ∧ s.flash.op = some (.read, d, b, p, a)) ∧
    (∃ (s : State), ∃ (m : Master), ∃ (v : Word), Quiet s ∧ MayWrite s m Reg.FLC_CW_MAP ∧ partitionAt s (bitsOf v 0 2) (bitsOf v 2 11) = .fixed ∧ bitsOf v 13 4 ≤ 11) ∧
    (∃ (s : State), ∃ (c : BitVec 2), ∃ (a : BitVec 32), Quiet s ∧ canIssue s c.toNat = true ∧ isCodeWindow (BitVec.toNat a) = true ∧ permits s (masterOf s c.toNat) .fetch a.toNat = true ∧ (sliceAt s (sliceOf a.toNat)).valid = true ∧ windowBad s a.toNat = false) ∧
    (∃ (s : State), ∃ (d : BitVec 2), Quiet s ∧ mainPower s = true ∧ dieDead s d.toNat = false) :=
  ⟨⟨{ wide r0 with flash := { r0.flash with op := some (.program, 1, 1130, 5, 0x20000000) }, mem := [(0x20000018, 6)] }, 1, 1130, 5, 0x20000000, by
      try unfold Quiet
      decide +kernel⟩,
   ⟨{ wide r0 with flash := { r0.flash with op := some (.erase, 1, 1130, 5, 0x20000000), pages := [(pageKey 1 1130 3, [1]), (pageKey 1 1131 3, [1])] }, mem := [(0x20000018, 6)] }, 1, 1130, 5, 0x20000000, by
      try unfold Quiet
      decide +kernel⟩,
   ⟨{ wide r0 with flash := { r0.flash with op := some (.read, 1, 1130, 3, 0x20000000), pages := [(pageKey 1 1130 3, [1]), (pageKey 1 1131 3, [1])] }, mem := [(0x20000018, 6)] }, 1, 1130, 3, 0x20000000, by
      try unfold PlainWrite
      try unfold Quiet
      decide +kernel⟩,
   ⟨r0, 1, 1130, by
      decide +kernel⟩,
   ⟨{ r0 with flash := { r0.flash with op := some (.read, 0, 900, 0, 0x20000000) }, badPrivate := [.nand 0] }, 0, 900, 0, 0x20000000, by
      try unfold Quiet
      decide +kernel⟩,
   ⟨{ wide r0 with flash := { r0.flash with op := some (.read, 1, 1130, 3, 0x20000000), pages := [(pageKey 1 1130 3, [1]), (pageKey 1 1131 3, [1])] }, mem := [(0x20000018, 6)] }, 1, 1130, 3, 0x20000000, by
      try unfold Quiet
      decide +kernel⟩,
   ⟨{ setR r0 Reg.FLC_CW_SEL 7 with flash := { r0.flash with cwCache := [1800, 5] } }, 16, 0x80000005, by
      try unfold MayWrite
      try unfold Quiet
      decide +kernel⟩,
   ⟨{ r0 with routes := [(1, { wideRoute with base := 0x30000, limit := 0x3FFFF })], flash := { r0.flash with cwCache := [1800, 5], slices := [(3, { die := 0, block := 0, offset := 0, valid := true })] } }, 1, 0x30300000, by
      try unfold Quiet
      decide +kernel⟩,
   ⟨{ r0 with flash := { r0.flash with pages := [(pageKey 1 1130 3, [1])] } }, 1, by
      try unfold Quiet
      decide +kernel⟩⟩

/-- Witnesses for the hypotheses of `LocksAndMailboxes` (its part `Locks`), clause by clause. -/
theorem witness_Locks :
    (∃ (s : State), ∃ (m : Master), Quiet s ∧ MayRead s m Reg.KDE_LOCK) ∧
    (∃ (s : State), ∃ (m : Master), Quiet s ∧ MayWrite s m Reg.KDE_LOCK ∧ m ≠ 12) ∧
    (∃ (s : State), ∃ (m : Master), Quiet s ∧ MayRead s m Reg.MAE_LOCK ∧ (getR s Reg.MAE_LOCK ≠ 0 ∨ maeWipeOn s = false ∨ s.mae.prevOwner = 0 ∨ s.mae.prevOwner = m)) ∧
    (∃ (s : State), ∃ (m : Master), Quiet s ∧ MayWrite s m Reg.MAE_LOCK ∧ m ≠ 12) ∧
    (∃ (s : State), ∃ (m : Master), Quiet s ∧ MayRead s m Reg.MAE_SLOCK) ∧
    (∃ (s : State), ∃ (m : Master), Quiet s ∧ MayWrite s m Reg.MAE_SLOCK ∧ m ≠ 12) ∧
    (∃ (s : State), ∃ (m : Master), ∃ (n : BitVec 6), Quiet s ∧ MayRead s m (Reg.TBL (BitVec.toNat n))) ∧
    (∃ (s : State), ∃ (m : Master), ∃ (n : BitVec 6), Quiet s ∧ MayWrite s m (Reg.TBL (BitVec.toNat n)) ∧ m ≠ 4) ∧
    (∃ (s : State), ∃ (n : BitVec 6), Quiet s ∧ MayWrite s 4 (Reg.TBL (BitVec.toNat n))) :=
  ⟨⟨m0, 8, by
      try unfold MayRead
      try unfold Quiet
      decide +kernel⟩,
   ⟨setR r0 Reg.KDE_LOCK 8, 8, by
      try unfold MayWrite
      try unfold Quiet
      decide +kernel⟩,
   ⟨setR { r0 with sst := [(14, 0)], mae := { r0.mae with prevOwner := 7 } } Reg.MAE_LOCK 0, 8, by
      try unfold MayRead
      try unfold Quiet
      decide +kernel⟩,
   ⟨setR r0 Reg.MAE_LOCK 8, 8, by
      try unfold MayWrite
      try unfold Quiet
      decide +kernel⟩,
   ⟨r0, 8, by
      try unfold MayRead
      try unfold Quiet
      decide +kernel⟩,
   ⟨setR r0 Reg.MAE_SLOCK 8, 8, by
      try unfold MayWrite
      try unfold Quiet
      decide +kernel⟩,
   ⟨r0, 8, 5, by
      try unfold MayRead
      try unfold Quiet
      decide +kernel⟩,
   ⟨{ r0 with tablets := r0.tablets.set 5 8 }, 8, 5, by
      try unfold MayWrite
      try unfold Quiet
      decide +kernel⟩,
   ⟨{ r0 with tablets := r0.tablets.set 5 7 }, 5, by
      try unfold MayWrite
      try unfold Quiet
      decide +kernel⟩⟩

/-- Witnesses for the hypotheses of `LocksAndMailboxes` (its part `Mailboxes`), clause by clause. -/
theorem witness_Mailboxes :
    (∃ (s : State), ∃ (m : Master), ∃ (n : BitVec 4), Quiet s ∧ MayRead s m (Reg.MBX_CLAIM (BitVec.toNat n)) ∧ maySend (mailbox s n.toNat) m = true) ∧
    (∃ (s : State), ∃ (m : Master), ∃ (n : BitVec 4), Quiet s ∧ MayRead s m (Reg.MBX_CLAIM (BitVec.toNat n)) ∧ maySend (mailbox s n.toNat) m = false ∧ mget? s.lastRaise 480 = none) ∧
    (∃ (s : State), ∃ (m : Master), ∃ (n : BitVec 4), Quiet s ∧ MayWrite s m (Reg.MBX_CLAIM (BitVec.toNat n)) ∧ isClaimant (mailbox s n.toNat) m = true) ∧
    (∃ (s : State), ∃ (m : Master), ∃ (n : BitVec 4), ∃ (v : Word), Quiet s ∧ MayWrite s m (Reg.MBX_DATA (BitVec.toNat n)) ∧ isClaimant (mailbox s n.toNat) m = true ∧ v ≠ 0) ∧
    (∃ (s : State), ∃ (m : Master), ∃ (n : BitVec 4), ∃ (v : Word), Quiet s ∧ MayWrite s m (Reg.MBX_DATA (BitVec.toNat n)) ∧ (isClaimant (mailbox s n.toNat) m = false ∨ v = 0) ∧ mget? s.lastRaise 480 = none) ∧
    (∃ (s : State), ∃ (m : Master), ∃ (n : BitVec 4), Quiet s ∧ MayRead s m (Reg.MBX_TAKE (BitVec.toNat n)) ∧ (mailbox s n.toNat).receiver = m ∧ m ≠ 0 ∧ (mailbox s n.toNat).full = true) ∧
    (∃ (s : State), ∃ (m : Master), ∃ (n : BitVec 4), Quiet s ∧ MayWrite s m (Reg.MBX_CFG (BitVec.toNat n))) :=
  ⟨⟨{ r0 with mailboxes := r0.mailboxes.set 5 { senders := 0xFFFF, receiver := 3, claimant := 0, full := false, value := 0, sender := 0 } }, 8, 5, by
      try unfold MayRead
      try unfold Quiet
      decide +kernel⟩,
   ⟨r0, 8, 5, by
      try unfold MayRead
      try unfold Quiet
      decide +kernel⟩,
   ⟨{ r0 with mailboxes := r0.mailboxes.set 5 { senders := 0xFFFF, receiver := 3, claimant := 8, full := true, value := 0, sender := 0 } }, 8, 5, by
      try unfold MayWrite
      try unfold Quiet
      decide +kernel⟩,
   ⟨{ r0 with mailboxes := r0.mailboxes.set 5 { senders := 0xFFFF, receiver := 3, claimant := 8, full := false, value := 0, sender := 0 } }, 8, 5, 77, by
      try unfold MayWrite
      try unfold Quiet
      decide +kernel⟩,
   ⟨{ r0 with mailboxes := r0.mailboxes.set 5 { senders := 0xFFFF, receiver := 3, claimant := 7, full := false, value := 0, sender := 0 } }, 8, 5, 77, by
      try unfold MayWrite
      try unfold Quiet
      decide +kernel⟩,
   ⟨{ r0 with mailboxes := r0.mailboxes.set 5 { senders := 0xFFFF, receiver := 8, claimant := 0, full := true, value := 77, sender := 3 } }, 8, 5, by
      try unfold MayRead
      try unfold Quiet
      decide +kernel⟩,
   ⟨r0, 4, 5, by
      try unfold MayWrite
      try unfold Quiet
      decide +kernel⟩⟩

/-- Witnesses for the hypotheses of `DigestEngine` (its part `DigestJobs`), clause by clause. -/
theorem witness_DigestJobs :
    (∃ (s : State), ∃ (m : Master), KdeOwner s m ∧ (kdeStatus s = 0 ∨ kdeStatus s = 4) ∧ 1 ≤ kdeFunc (getR s Reg.KDE_CONFIG) ∧ kdeFunc (getR s Reg.KDE_CONFIG) ≤ 6 ∧ kdeBadParam (getR s Reg.KDE_CONFIG) (fieldR s Reg.KDE_OUTLEN 0 24) = false ∧ kdeTotalReg s ≠ 0 ∧ s.tableBuilt = true) ∧
    (∃ (s : State), ∃ (m : Master), KdeOwner s m ∧ (kdeStatus s = 0 ∨ kdeStatus s = 4) ∧ s.tableBuilt = true ∧ kdeBadParam (getR s Reg.KDE_CONFIG) (fieldR s Reg.KDE_OUTLEN 0 24) = true) ∧
    (∃ (s : State), ∃ (m : Master), KdeOwner s m ∧ (kdeStatus s = 0 ∨ kdeStatus s = 4) ∧ s.tableBuilt = true ∧ kdeBadParam (getR s Reg.KDE_CONFIG) (fieldR s Reg.KDE_OUTLEN 0 24) = false ∧ 9 ≤ kdeFunc (getR s Reg.KDE_CONFIG) ∧ s.mode ≠ .running ∧ s.mode ≠ .commissioning ∧ (s.mode ≠ .caution ∨ bitR s Reg.KDE_CONFIG 4 = false)) ∧
    (∃ (s : State), ∃ (m : Master), KdeOwner s m ∧ kdeStatus s = 2 ∧ 1 ≤ kdeSegLen s ∧ kdeSegLen s ≤ 16777216 ∧ (getR64 s Reg.KDE_ABSORBED).toNat + kdeSegLen s ≤ s.kde.total.toNat) ∧
    (∃ (s : State), ∃ (m : Master), KdeOwner s m ∧ kdeStatus s = 2 ∧ s.kde.total.toNat < (getR64 s Reg.KDE_ABSORBED).toNat + kdeSegLen s) ∧
    (∃ (s : State), Quiet s ∧ mainPower s = true ∧ kdeStatus s = 1 ∧ PlainRead s 25 s.kde.src.toNat s.kde.seg ∧ getR64 s Reg.KDE_ABSORBED + BitVec.ofNat 64 s.kde.seg ≠ s.kde.total) ∧
    (∃ (s : State), Quiet s ∧ mainPower s = true ∧ kdeStatus s = 1 ∧ PlainRead s 25 s.kde.src.toNat s.kde.seg ∧ getR64 s Reg.KDE_ABSORBED + BitVec.ofNat 64 s.kde.seg = s.kde.total ∧ kdeCompare s.kde.config = true ∧ (kdeOutput (kdeAbsorb s.kde (memBytes s s.kde.src.toNat s.kde.seg))).length ≤ 64) ∧
    (∃ (s : State), Quiet s ∧ mainPower s = true ∧ kdeStatus s = 1 ∧ PlainRead s 25 s.kde.src.toNat s.kde.seg ∧ getR64 s Reg.KDE_ABSORBED + BitVec.ofNat 64 s.kde.seg = s.kde.total ∧ kdeCompare s.kde.config = false ∧ (kdeOutput (kdeAbsorb s.kde (memBytes s s.kde.src.toNat s.kde.seg))).length ≤ 64 ∧ s.kde.hide = false) ∧
    (∃ (s : State), Quiet s ∧ mainPower s = true ∧ kdeStatus s = 1) :=
  ⟨⟨kdeReady r0, 12, by
      try unfold KdeOwner
      try unfold MayWrite
      try unfold Quiet
      decide +kernel⟩,
   ⟨setR (kdeReady r0) Reg.KDE_CONFIG 0xD, 12, by
      try unfold KdeOwner
      try unfold MayWrite
      try unfold Quiet
      decide +kernel⟩,
   ⟨setR (kdeReady m0) Reg.KDE_CONFIG 0x9, 12, by
      try unfold KdeOwner
      try unfold MayWrite
      try unfold Quiet
      decide +kernel⟩,
   ⟨kdeJob r0 2, 12, by
      try unfold KdeOwner
      try unfold MayWrite
      try unfold Quiet
      decide +kernel⟩,
   ⟨setR (kdeJob r0 2) Reg.KDE_ABSORBED 40, 12, by
      try unfold KdeOwner
      try unfold MayWrite
      try unfold Quiet
      decide +kernel⟩,
   ⟨kdeJob r0 1, by
      try unfold PlainRead
      try unfold Quiet
      decide +kernel⟩,
   ⟨comparing, by
      try unfold PlainRead
      try unfold Quiet
      decide +kernel⟩,
   ⟨setR (kdeJob r0 1) Reg.KDE_ABSORBED 32, by
      try unfold PlainRead
      try unfold Quiet
      decide +kernel⟩,
   ⟨kdeJob r0 1, by
      try unfold Quiet
      decide +kernel⟩⟩

/-- Witnesses for the hypotheses of `DigestEngine` (its part `DigestState`), clause by clause. -/
theorem witness_DigestState :
    (∃ (s : State), ∃ (m : Master), KdeOwner s m ∧ kdeStatus s = 2 ∧ s.kde.part = [] ∧ s.kde.keyed = false ∧ s.kde.ksv ≠ [] ∧ (getR s Reg.KDE_BLOB).toNat % 8 = 0 ∧ PlainWrite s 25 (getR s Reg.KDE_BLOB).toNat (kdeBlob s.kde (getR64 s Reg.KDE_ABSORBED).toNat (zeros 16)).length) ∧
    (∃ (s : State), ∃ (m : Master), KdeOwner s m ∧ kdeStatus s = 2 ∧ s.kde.part ≠ []) ∧
    (∃ (s : State), ∃ (m : Master), KdeOwner s m ∧ kdeStatus s = 0 ∧ s.kde.ksv ≠ [] ∧ (getR s Reg.KDE_BLOB).toNat % 8 = 0 ∧ PlainRead s 25 (getR s Reg.KDE_BLOB).toNat 288 ∧ s.tableBuilt = true ∧ (blobKeyed (memBytes s (getR s Reg.KDE_BLOB).toNat 288) = true → (kdeKeyCheck s (num (memBytes s (getR s Reg.KDE_BLOB).toNat 288) 24 2) m).status ≠ 0x0D) ∧ blobShapeOk (memBytes s (getR s Reg.KDE_BLOB).toNat 288) = true ∧ blobTagOk s (memBytes s (getR s Reg.KDE_BLOB).toNat 288) = true ∧ blobBranchOk s m (memBytes s (getR s Reg.KDE_BLOB).toNat 288) = true) ∧
    (∃ (s : State), ∃ (m : Master), KdeOwner s m ∧ kdeStatus s = 0 ∧ s.kde.ksv ≠ [] ∧ (getR s Reg.KDE_BLOB).toNat % 8 = 0 ∧ PlainRead s 25 (getR s Reg.KDE_BLOB).toNat 288 ∧ s.tableBuilt = true ∧ (blobShapeOk (memBytes s (getR s Reg.KDE_BLOB).toNat 288) = false ∨ blobTagOk s (memBytes s (getR s Reg.KDE_BLOB).toNat 288) = false)) ∧
    (∃ (s : State), ∃ (m : Master), KdeOwner s m ∧ (kdeStatus s = 1 ∨ kdeStatus s = 2)) ∧
    (∃ (s : State), ∃ (m : Master), KdeOwner s m) ∧
    (∃ (s : State), Quiet s ∧ MayWrite s 12 Reg.KDE_LOCK) ∧
    (∃ (s : State), ∃ (m : Master), ∃ (c : Instr), ∃ (split : Bool), Quiet s ∧ MayWrite s m Reg.KDE_CTRL ∧ lockOwner s Reg.KDE_LOCK ≠ m ∧ mget? s.lastRaise 258 = none ∧ c ∈ [Instr.kdeStart ⟨m, split⟩, .kdeFeed m, .kdeSave m, .kdeRestore m, .kdeAbort m, .kdeClear m]) :=
  ⟨⟨kdeJob r0 2, 12, by
      try unfold PlainWrite
      try unfold KdeOwner
      try unfold MayWrite
      try unfold Quiet
      decide +kernel⟩,
   ⟨{ kdeJob r0 2 with kde := { (kdeJob r0 2).kde with part := [1] } }, 12, by
      try unfold KdeOwner
      try unfold MayWrite
      try unfold Quiet
      decide +kernel⟩,
   ⟨{ kdeJob r0 0 with mem := putBytes [] 0x20001000 savedBlob }, 12, by
      try unfold PlainRead
      try unfold KdeOwner
      try unfold MayWrite
      try unfold Quiet
      decide +kernel⟩,
   ⟨kdeJob r0 0, 12, by
      try unfold PlainRead
      try unfold KdeOwner
      try unfold MayWrite
      try unfold Quiet
      decide +kernel⟩,
   ⟨kdeJob r0 2, 12, by
      try unfold KdeOwner
      try unfold MayWrite
      try unfold Quiet
      decide +kernel⟩,
   ⟨withRegs (kdeJob r0 2) [(Reg.KDE_CMP, 3), (Reg.KDE_RESULT + 4, 4), (Reg.KDE_EXPECT, 7)], 12, by
      try unfold KdeOwner
      try unfold MayWrite
      try unfold Quiet
      decide +kernel⟩,
   ⟨kdeJob r0 2, by
      try unfold MayWrite
      try unfold Quiet
      decide +kernel⟩,
   ⟨setR (kdeJob r0 2) Reg.KDE_LOCK 3, 12, .kdeStart ⟨12, false⟩, false, by
      try unfold MayWrite
      try unfold Quiet
      decide +kernel⟩⟩

/-- Witnesses for the hypotheses of `ArithmeticJobs`, clause by clause. -/
theorem witness_ArithmeticJobs :
    (∃ (s : State), ∃ (m : Master), MaeOwner s m ∧ (maeState s = 0 ∨ maeState s = 3) ∧ maeBadParam (stagedJob s) (maeIzpen s) = false ∧ maeModeOk s (stagedJob s).op = true ∧ (maeSecret (stagedJob s).op = true → entReady s = true)) ∧
    (∃ (s : State), ∃ (m : Master), MaeOwner s m ∧ (maeState s = 0 ∨ maeState s = 3) ∧ maeBadParam (stagedJob s) (maeIzpen s) = true) ∧
    (∃ (s : State), ∃ (m : Master), MaeOwner s m ∧ (maeState s = 0 ∨ maeState s = 3) ∧ maeBadParam (stagedJob s) (maeIzpen s) = false ∧ maeSecret (stagedJob s).op = true ∧ s.mode ≠ .running ∧ s.mode ≠ .commissioning) ∧
    (∃ (s : State), ∃ (m : Master), MaeOwner s m ∧ (maeState s = 1 ∨ maeState s = 2 ∨ maeState s = 4)) ∧
    (∃ (s : State), ∃ (op : Word), ∃ (x : Word), ∃ (y : Word), Quiet s ∧ mainPower s = true ∧ maeState s = 1 ∧ s.mae.shortPending = false ∧ s.mae.request = none ∧ s.mae.job = some (op, x, y) ∧ maeSealBad s (maeJob op x y) = none ∧ 1 ≤ (maeJob op x y).op ∧ (maeJob op x y).op ≤ 3 ∧ 1 ≤ (maeJob op x y).len ∧ (maeJob op x y).len ≤ 512 ∧ slotNum s (maeJob op x y).c (maeJob op x y).len ≠ 0) ∧
    (∃ (s : State), ∃ (op : Word), ∃ (x : Word), ∃ (y : Word), Quiet s ∧ mainPower s = true ∧ maeState s = 1 ∧ s.mae.shortPending = false ∧ s.mae.request = none ∧ s.mae.job = some (op, x, y) ∧ maeSealBad s (maeJob op x y) = none ∧ (maeJob op x y).op = 0x19) ∧
    (∃ (s : State), ∃ (op : Word), ∃ (x : Word), ∃ (y : Word), Quiet s ∧ mainPower s = true ∧ maeState s = 1 ∧ s.mae.shortPending = false ∧ s.mae.request = none ∧ s.mae.job = some (op, x, y) ∧ maeSealBad s (maeJob op x y) = none ∧ sealFaultCount s 20 ≠ fieldR s Reg.ILK_SEALCFG 0 4) :=
  ⟨⟨maeArgs r0 0x00200001, 12, by
      try unfold MaeOwner
      try unfold MayWrite
      try unfold Quiet
      decide +kernel⟩,
   ⟨maeArgs r0 0x0020003F, 12, by
      try unfold MaeOwner
      try unfold MayWrite
      try unfold Quiet
      decide +kernel⟩,
   ⟨maeArgs m0 0x00200018, 12, by
      try unfold MaeOwner
      try unfold MayWrite
      try unfold Quiet
      decide +kernel⟩,
   ⟨maeRun r0 0x00200001, 12, by
      try unfold MaeOwner
      try unfold MayWrite
      try unfold Quiet
      decide +kernel⟩,
   ⟨maeRun r0 0x00200001, 0x00200001, 0x03020100, 0x07060504, by
      try unfold Quiet
      decide +kernel⟩,
   ⟨maeRun r0 0x00000019, 0x00000019, 0x03020100, 0x07060504, by
      try unfold Quiet
      decide +kernel⟩,
   ⟨maeRun r0 0x00200001, 0x00200001, 0x03020100, 0x07060504, by
      try unfold Quiet
      decide +kernel⟩⟩

/-- Witnesses for the hypotheses of `WipesAndShortJobs`, clause by clause. -/
theorem witness_WipesAndShortJobs :
    (∃ (s : State), ∃ (m : Master), MaeOwner s m) ∧
    (∃ (s : State), ∃ (m : Master), MaeOwner s m ∧ maeBusy s = false) ∧
    (∃ (s : State), Quiet s ∧ mainPower s = true ∧ maeState s = 4 ∧ s.mae.shortPending = false ∧ s.mae.request = none) ∧
    (∃ (s : State), Quiet s ∧ MayWrite s 12 Reg.MAE_LOCK ∧ s.mae.shortPending = false) ∧
    (∃ (s : State), ∃ (m : Master), Quiet s ∧ MayRead s m Reg.MAE_LOCK ∧ getR s Reg.MAE_LOCK = 0 ∧ maeWipeOn s = true ∧ s.mae.prevOwner ≠ 0 ∧ s.mae.prevOwner ≠ m ∧ s.mae.shortPending = false) ∧
    (∃ (s : State), ∃ (m : Master), ∃ (v : Word), Quiet s ∧ MayWrite s m Reg.MAE_SCTRL ∧ lockOwner s Reg.MAE_SLOCK = m ∧ m ≠ 0 ∧ bit v 4 = true ∧ 1 ≤ bitsOf v 0 2 ∧ 1 ≤ bitsOf v 16 10 ∧ bitsOf v 16 10 ≤ 512 ∧ shortSlotsOk (getR s Reg.MAE_SARGS) = true ∧ s.mae.shortPending = false ∧ maeBusy s = true) ∧
    (∃ (s : State), ∃ (ctl : Word), ∃ (args : Word), Quiet s ∧ mainPower s = true ∧ maeState s = 1 ∧ maeIzpen s = true ∧ s.mae.shortPending = true ∧ s.mae.short = some (ctl, args) ∧ s.mae.request = none ∧ shortSealBad s args = none ∧ 1 ≤ bitsOf ctl 16 10 ∧ bitsOf ctl 16 10 ≤ 512 ∧ slotNum s (bitsOf args 16 7) (bitsOf ctl 16 10) ≠ 0) ∧
    (∃ (s : State), ∃ (ctl : Word), ∃ (args : Word), ∃ (c : Nat), Quiet s ∧ mainPower s = true ∧ maeState s = 1 ∧ maeIzpen s = true ∧ s.mae.shortPending = true ∧ s.mae.short = some (ctl, args) ∧ s.mae.request = none ∧ shortSealBad s args = some c) ∧
    (∃ (s : State), Quiet s ∧ (s.mae.request = none ∨ hybridReady s = false)) ∧
    (∃ (s : State), ∃ (a : BtrArgs), ∃ (ct : Bytes), ∃ (k : Nat), Quiet s ∧ mainPower s = true ∧ s.mae.request = some (.command 3 a ct k) ∧ hybridReady s = true ∧ anyLane s = true ∧ imageWorn s = false ∧ argExpire a = false ∧ mget? s.branches 0 = none ∧ PlainRead s a.master (bufAddr a) 1697 ∧ createCheck s (argIndex a) 0 (argKind a) (memBytes s (bufAddr a) 1697) true [] = Check.ok ∧ useCheck s (argParent a) (fun k => decide (k = 3)) [27, 26, BitVec.toNat a.master] = Check.ok) ∧
    (∃ (s : State), Quiet s ∧ MayWrite s 12 Reg.MAE_SLOCK ∧ s.mae.shortPending = true ∧ s.mae.short ≠ none) :=
  ⟨⟨maeRun r0 0x00200001, 12, by
      try unfold MaeOwner
      try unfold MayWrite
      try unfold Quiet
      decide +kernel⟩,
   ⟨{ maeArgs r0 0x00200001 with mem := [(0x20000000, 1), (0x50000003, 4)] }, 12, by
      try unfold MaeOwner
      try unfold MayWrite
      try unfold Quiet
      decide +kernel⟩,
   ⟨{ setR (maeRun r0 0x00200001) Reg.MAE_STATUS 0xFF0004 with mae := { r0.mae with prevOwner := 5 } }, by
      try unfold Quiet
      decide +kernel⟩,
   ⟨maeRun r0 0x00200001, by
      try unfold MayWrite
      try unfold Quiet
      decide +kernel⟩,
   ⟨{ setR (maeRun r0 0x00200001) Reg.MAE_LOCK 0 with mae := { r0.mae with prevOwner := 7 } }, 12, by
      try unfold MayRead
      try unfold Quiet
      decide +kernel⟩,
   ⟨setR (maeRun r0 0x00200001) Reg.MAE_SARGS 0x70717273, 12, 0x00200011, by
      try unfold MayWrite
      try unfold Quiet
      decide +kernel⟩,
   ⟨setR { maeRun r0 0x00200001 with mae := { r0.mae with shortPending := true, short := some (0x00200001, 0x03020100) } } Reg.MAE_CONFIG 2, 0x00200001, 0x03020100, by
      try unfold Quiet
      decide +kernel⟩,
   ⟨{ setR (maeRun r0 0x00200001) Reg.MAE_CONFIG 2 with mae := { (maeRun r0 0x00200001).mae with shortPending := true, short := some (0x00200101, 0x00030201) }, badCells := [0x50000400 / 8] }, 0x00200101, 0x00030201, 0x50000400 / 8, by
      try unfold Quiet
      decide +kernel⟩,
   ⟨{ engineBusy (maeArgs r0 0) with mae := { r0.mae with request := some (.command 3 (commandArgs (btrArgs c0) 12) (zeros 10) 3) } }, by
      try unfold Quiet
      decide +kernel⟩,
   ⟨{ btrArgs c0 with mae := { c0.mae with request := some (.command 3 { commandArgs (btrArgs c0) 12 with arg := 0x0003100C } (zeros 10) 3) } }, { commandArgs (btrArgs c0) 12 with arg := 0x0003100C }, zeros 10, 3, by
      try unfold PlainRead
      try unfold Quiet
      decide +kernel⟩,
   ⟨{ maeRun r0 0x00200001 with mae := { r0.mae with shortPending := true, short := some (0x00200001, 0x03020100) } }, by
      try unfold MayWrite
      try unfold Quiet
      decide +kernel⟩⟩

/-- Witnesses for the hypotheses of `LatticeLanes`, clause by clause. -/
theorem witness_LatticeLanes :
    (∃ (s : State), ∃ (m : Master), ∃ (a : BitVec 32), Quiet s ∧ MayWrite s m Reg.LSU_QPUSH ∧ s.descQueue.length < 32 ∧ BitVec.toNat a % 64 = 0 ∧ unfencedLanes s ≠ []) ∧
    (∃ (s : State), ∃ (m : Master), Quiet s ∧ MayWrite s m Reg.LSU_QPUSH ∧ s.descQueue.length = 32) ∧
    (∃ (s : State), ∃ (m : Master), ∃ (a : BitVec 32), Quiet s ∧ MayWrite s m Reg.LSU_QPUSH ∧ s.descQueue.length < 32 ∧ BitVec.toNat a % 64 ≠ 0) ∧
    (∃ (s : State), ∃ (m : Master), ∃ (a : Nat), ∃ (p : Master), Quiet s ∧ MayWrite s m Reg.LSU_CTRL ∧ s.descQueue = [(a, p)] ∧ PlainWrite s 27 (a + 32) 32) ∧
    (∃ (s : State), ∃ (n : BitVec 2), ∃ (a : Nat), ∃ (p : Master), ∃ (r : List (Nat × Master)), LaneFree s n.toNat ∧ s.descQueue = (a, p) :: r ∧ PlainRead s 27 a 64 ∧ s.tableBuilt = true ∧ descRefusal { s with descQueue := r } (memBytes s a 64) p = 0) ∧
    (∃ (s : State), ∃ (n : BitVec 2), Quiet s ∧ freeLane s ≠ some (BitVec.toNat n)) ∧
    (∃ (s : State), ∃ (n : BitVec 2), ∃ (a : Nat), ∃ (p : Master), ∃ (d : Bytes), ∃ (seed : Bytes), Quiet s ∧ mainPower s = true ∧ s.mae.request = none ∧ (laneAt s n.toNat).job = some (.desc a p d seed) ∧ descOp d = 3 ∧ readDesc s d = { state := s, outcome := .ok } ∧ PlainWrite s 27 (a + 32) 32) ∧
    (∃ (s : State), ∃ (m : Master), ∃ (bits : BitVec 4), Quiet s ∧ MayWrite s m Reg.LSU_FENCE ∧ (∃ n, n < 4 ∧ (laneAt s n).fenced = false ∧ BitVec.getLsbD bits n = false)) ∧
    (∃ (s : State), Quiet s) ∧
    (∃ (s : State), ∃ (n : BitVec 2), Quiet s ∧ mainPower s = true ∧ (laneAt s n.toNat).fenced = false ∧ (laneAt s n.toNat).job = none ∧ (∃ k, k < 4 ∧ k ≠ n.toNat ∧ (laneAt s k).fenced = false)) :=
  ⟨⟨{ r0 with descQueue := [(64, 3)] }, 12, 0x20000040, by
      try unfold MayWrite
      try unfold Quiet
      decide +kernel⟩,
   ⟨{ r0 with descQueue := List.replicate 32 (64, 3) }, 12, by
      try unfold MayWrite
      try unfold Quiet
      decide +kernel⟩,
   ⟨{ r0 with descQueue := [(64, 3)] }, 12, 0x20000041, by
      try unfold MayWrite
      try unfold Quiet
      decide +kernel⟩,
   ⟨{ wide r0 with descQueue := [(0x20000040, 3)] }, 8, 0x20000040, 3, by
      try unfold PlainWrite
      try unfold MayWrite
      try unfold Quiet
      decide +kernel⟩,
   ⟨{ wide (keyed r0) with descQueue := [(0x20000040, 3)], mem := putBytes [] 0x20000040 (descWords 3 64) }, 0, 0x20000040, 3, [], by
      try unfold PlainRead
      try unfold LaneFree
      try unfold Quiet
      decide +kernel⟩,
   ⟨r0, 2, by
      try unfold Quiet
      decide +kernel⟩,
   ⟨{ wide (keyed r0) with lanes := r0.lanes.set 1 { Lane.reset with job := some (.desc 0x20000040 3 (descWords 3 64) []), started := 7 }, mem := putBytes [] 0x20003000 [0x0A] }, 1, 0x20000040, 3, descWords 3 64, [], by
      try unfold PlainWrite
      try unfold Quiet
      decide +kernel⟩,
   ⟨r0, 12, 5, by
      try unfold MayWrite
      try unfold Quiet
      decide +kernel⟩,
   ⟨r0, by
      try unfold Quiet
      decide +kernel⟩,
   ⟨r0, 1, by
      try unfold Quiet
      decide +kernel⟩⟩

/-- Witnesses for the hypotheses of `EntropySource`, clause by clause. -/
theorem witness_EntropySource :
    (∃ (s : State), mainPower s = true ∧ bitR s Reg.ENT_STATUS 2 = false) ∧
    (∃ (s : State), ∃ (block : Bytes), Quiet s ∧ mainPower s = true ∧ s.ent.biased = true ∧ bitR s Reg.ENT_STATUS 2 = false ∧ s.ent.startup = 0 ∧ s.ent.waiting = [] ∧ blockBadNow s block = false) ∧
    (∃ (s : State), ∃ (block : Bytes), Quiet s ∧ mainPower s = true ∧ s.ent.biased = true ∧ bitR s Reg.ENT_STATUS 2 = false ∧ blockBadNow s block = true ∧ ((s.ent.recent.take 63).filter (fun x => x)).length < 3) ∧
    (∃ (s : State), ∃ (m : Master), Quiet s ∧ MayRead s m Reg.ENT_DATA ∧ bitR s Reg.ENT_STATUS 2 = false ∧ grantOf s m = none ∧ 4 ≤ s.ent.pool.length) ∧
    (∃ (s : State), ∃ (m : Master), ∃ (w : Word), Quiet s ∧ MayRead s m Reg.ENT_DATA ∧ bitR s Reg.ENT_STATUS 2 = false ∧ grantOf s m = some w) ∧
    (∃ (s : State), ∃ (m : Master), Quiet s ∧ MayRead s m Reg.ENT_DATA ∧ bitR s Reg.ENT_STATUS 2 = false ∧ grantOf s m = none ∧ s.ent.pool.length < 4) ∧
    (∃ (s : State), ∃ (m : Master), Quiet s ∧ MayRead s m Reg.ENT_DATA ∧ bitR s Reg.ENT_STATUS 2 = true ∧ mget? s.lastRaise 283 = none) :=
  ⟨⟨m0, by
      decide +kernel⟩,
   ⟨setR { r0 with ent := { r0.ent with startup := 0, biased := true } } Reg.ENT_STATUS 1, (List.range 128).map (fun i => BitVec.ofNat 8 (i * 37 + i / 3)), by
      try unfold Quiet
      decide +kernel⟩,
   ⟨setR { r0 with ent := { r0.ent with startup := 0, biased := true } } Reg.ENT_STATUS 1, zeros 128, by
      try unfold Quiet
      decide +kernel⟩,
   ⟨keyed r0, 8, by
      try unfold MayRead
      try unfold Quiet
      decide +kernel⟩,
   ⟨{ keyed (wide r0) with ent := { (keyed r0).ent with granted := [(1, 77)] } }, 7, 77, by
      try unfold MayRead
      try unfold Quiet
      decide +kernel⟩,
   ⟨r0, 8, by
      try unfold MayRead
      try unfold Quiet
      decide +kernel⟩,
   ⟨setR r0 Reg.ENT_STATUS 4, 8, by
      try unfold MayRead
      try unfold Quiet
      decide +kernel⟩⟩

/-- Witnesses for the hypotheses of `WordResults`, clause by clause. -/
theorem witness_WordResults :
    ∃ (c : Instr), ∃ (i : Issue), ∃ (size : Nat), ∃ (rd : BitVec 5), ∃ (reads : List (BitVec 5)), ∃ (v : World → Word), wordRow c = some (i, size, rd, reads, v) :=
  ⟨.add (at1 1 false) (3) (1) (2), _, _, _, _, _, rfl⟩

/-- Witnesses for the hypotheses of `PredicateResults`, clause by clause. -/
theorem witness_PredicateResults :
    (∃ (c : Instr), ∃ (i : Issue), ∃ (pd : BitVec 3), ∃ (pair : Bool), ∃ (reads : List (BitVec 5)), ∃ (v : World → Bool), compareRow c = some (i, pd, pair, reads, v)) ∧
    (∃ (c : Instr), ∃ (i : Issue), ∃ (pd : BitVec 3), ∃ (v : World → Bool), predRow c = some (i, pd, v)) ∧
    (∃ (i : Issue), ∃ (ra : BitVec 5), ∃ (rb : BitVec 5), ∃ (s : State), ∃ (f : State), Executed s i 4 f ∧ badOperand (curWorld f i.core.toNat) [ra, rb] = false ∧ (curWorld f i.core.toNat).badP = false) ∧
    (∃ (i : Issue), ∃ (ra : BitVec 5), ∃ (rb : BitVec 5), ∃ (s : State), ∃ (f : State), Executed s i 4 f ∧ badOperand (curWorld f i.core.toNat) [ra, rb] = false ∧ (curWorld f i.core.toNat).badP = false) :=
  ⟨⟨.cmpeq (at1 1 false) (4) (true) (1) (2), _, _, _, _, _, rfl⟩,
   ⟨.pand (at1 1 false) (4) (3) (5), _, _, _, rfl⟩,
   ⟨at1 0 false, 1, 5, sig1 r0, sig1 r0, by
      try unfold Executed
      try unfold Fetched
      try unfold Quiet
      decide +kernel⟩,
   ⟨at1 0 false, 2, 1, sig1 r0, sig1 r0, by
      try unfold Executed
      try unfold Fetched
      try unfold Quiet
      decide +kernel⟩⟩

/-- Witnesses for the hypotheses of `IssueRules`, clause by clause. -/
theorem witness_IssueRules :
    (∃ (c : Instr), ∃ (s : State), ∃ (f : State), ∃ (i : Issue), ∃ (size : Nat), ∃ (code : Nat), issueRow (curSig f i.core.toNat) (curWorld f i.core.toNat).level c = some (i, size, some code) ∧ Fetched s i size f) ∧
    (∃ (c : Instr), ∃ (s : State), ∃ (f : State), ∃ (i : Issue), ∃ (size : Nat), issueRow (curSig f i.core.toNat) (curWorld f i.core.toNat).level c = some (i, size, none) ∧ Fetched s i size f ∧ (i.p = 0 ∨ (curWorld f i.core.toNat).badP = false) ∧ executes i (curWorld f i.core.toNat) = false) ∧
    (∃ (c : Instr), ∃ (s : State), ∃ (f : State), ∃ (i : Issue), ∃ (size : Nat), issueRow (curSig f i.core.toNat) (curWorld f i.core.toNat).level c = some (i, size, none) ∧ Fetched s i size f ∧ ((i.p ≠ 0 ∧ (curWorld f i.core.toNat).badP = true) ∨ (executes i (curWorld f i.core.toNat) = true ∧ badLoopEnd (curWorld f i.core.toNat) = true))) ∧
    (∃ (c : Instr), ∃ (s : State), ∃ (i : Issue), ∃ (size : Nat), ∃ (x : Option Nat), issueRow (curSig s i.core.toNat) (curWorld s i.core.toNat).level c = some (i, size, x) ∧ Quiet s ∧ canIssue s i.core.toNat = false) ∧
    (∃ (c : Instr), ∃ (s : State), ∃ (f : State), ∃ (i : Issue), ∃ (size : Nat), ∃ (tr : Trap), issueRow (curSig s i.core.toNat) (curWorld s i.core.toNat).level c = some (i, size, none) ∧ Quiet s ∧ canIssue s i.core.toNat = true ∧ fetchInstr (unstall s i.core.toNat) i.core.toNat size = { state := f, trap := some tr }) :=
  ⟨⟨.bra (at1 0 false) 3, sig1 r0, sig1 r0, at1 0 false, 8, 1, rfl, by
      try unfold Fetched
      try unfold Quiet
      decide +kernel⟩,
   ⟨.bra (at1 1 true) 4, sig1 r0, sig1 r0, at1 1 true, 8, rfl, by
      try unfold Fetched
      try unfold Quiet
      decide +kernel⟩,
   ⟨.bra (at1 1 true) 4, modWorld (sig1 r0) 1 (fun w => { w with badP := true }), modWorld (sig1 r0) 1 (fun w => { w with badP := true }), at1 1 true, 8, rfl, by
      try unfold Fetched
      try unfold Quiet
      decide +kernel⟩,
   ⟨.bra (at1 1 true) 4, { sig1 r0 with coresRun := false }, at1 1 true, 8, none, rfl, by
      try unfold Quiet
      decide +kernel⟩,
   ⟨.bra (at1 1 true) 4, modWorld (sig1 r0) 1 (fun w => { w with pc := 0x14000000 }), (fetchInstr (modWorld (sig1 r0) 1 (fun w => { w with pc := 0x14000000 })) 1 8).state, at1 1 true, 8, ((fetchInstr (modWorld (sig1 r0) 1 (fun w => { w with pc := 0x14000000 })) 1 8).trap.getD (Trap.plain 0)), rfl, by
      try unfold Quiet
      decide +kernel⟩⟩

/-- Witnesses for the hypotheses of `MemoryForms` (its part `LoadsAndStores`), clause by clause. -/
theorem witness_LoadsAndStores :
    (∃ (c : Instr), ∃ (i : Issue), ∃ (n : Nat), ∃ (rd : BitVec 5), ∃ (ra : BitVec 5), ∃ (k : BitVec 12), ∃ (ext : Word → Word), loadRow c = some (i, n, rd, ra, k, ext)) ∧
    (∃ (c : Instr), ∃ (i : Issue), ∃ (n : Nat), ∃ (rs : BitVec 5), ∃ (ra : BitVec 5), ∃ (k : BitVec 12), storeRow c = some (i, n, rs, ra, k)) ∧
    (∃ (s : State), ∃ (m : Master), ∃ (a : Nat), ∃ (n : Nat), isRam a = true ∧ isBlock a = false ∧ meetsSpecial a n = false ∧ permits s m .read a = true ∧ badCell? s a n = none) ∧
    (∃ (s : State), ∃ (m : Master), ∃ (a : Nat), ∃ (n : Nat), isRam a = true ∧ isBlock a = false ∧ meetsSpecial a n = false ∧ permits s m .write a = true ∧ 0 < n ∧ badPartial? s a n = none ∧ opRamClosed s m a n = false) :=
  ⟨⟨.ldb (at1 0 false) 6 3 0, _, _, _, _, _, _, rfl⟩,
   ⟨.stb (at1 0 false) 1 3 0, _, _, _, _, _, rfl⟩,
   ⟨core1, 8, 0x20004000, 4, by
      decide +kernel⟩,
   ⟨core1, 8, 0x20004000, 4, by
      decide +kernel⟩⟩

/-- Witnesses for the hypotheses of `MemoryForms` (its part `LongInstructions`), clause by clause. -/
theorem witness_LongInstructions :
    (∃ (s : State), ∃ (f : State), ∃ (i : Issue), ∃ (wd : BitVec 5), ∃ (ws : BitVec 5), ∃ (wn : BitVec 5), Working s i 4 [wd, ws, wn] f ∧ wd ≠ 0 ∧ ws ≠ 0 ∧ wn ≠ 0 ∧ wd ≠ ws ∧ wd ≠ wn ∧ ws ≠ wn ∧ longFault [readW (curWorld f i.core.toNat) wd, readW (curWorld f i.core.toNat) ws] (readW (curWorld f i.core.toNat) wn) = none ∧ (copyWords (masterOf f i.core.toNat) i.core.toNat ((if (readW (curWorld f i.core.toNat) wn).toNat < 64 then readW (curWorld f i.core.toNat) wn else 64 : Word).toNat / 4 - (coreAt f i.core.toNat).stepDone) (readW (curWorld f i.core.toNat) wd + BitVec.ofNat 32 (4 * (coreAt f i.core.toNat).stepDone)) (readW (curWorld f i.core.toNat) ws + BitVec.ofNat 32 (4 * (coreAt f i.core.toNat).stepDone)) f).trap = none ∧ Quiet (copyWords (masterOf f i.core.toNat) i.core.toNat ((if (readW (curWorld f i.core.toNat) wn).toNat < 64 then readW (curWorld f i.core.toNat) wn else 64 : Word).toNat / 4 - (coreAt f i.core.toNat).stepDone) (readW (curWorld f i.core.toNat) wd + BitVec.ofNat 32 (4 * (coreAt f i.core.toNat).stepDone)) (readW (curWorld f i.core.toNat) ws + BitVec.ofNat 32 (4 * (coreAt f i.core.toNat).stepDone)) f).state) ∧
    (∃ (s : State), ∃ (f : State), ∃ (i : Issue), ∃ (wd : BitVec 5), ∃ (wn : BitVec 5), Working s i 4 [wd, wn] f ∧ wd ≠ 0 ∧ wn ≠ 0 ∧ wd ≠ wn ∧ longFault [readW (curWorld f i.core.toNat) wd] (readW (curWorld f i.core.toNat) wn) = none ∧ (zeroWords (masterOf f i.core.toNat) i.core.toNat ((if (readW (curWorld f i.core.toNat) wn).toNat < 64 then readW (curWorld f i.core.toNat) wn else 64 : Word).toNat / 4) (readW (curWorld f i.core.toNat) wd) f).trap = none ∧ Quiet (zeroWords (masterOf f i.core.toNat) i.core.toNat ((if (readW (curWorld f i.core.toNat) wn).toNat < 64 then readW (curWorld f i.core.toNat) wn else 64 : Word).toNat / 4) (readW (curWorld f i.core.toNat) wd) f).state) ∧
    (∃ (s : State), ∃ (f : State), ∃ (i : Issue), ∃ (pd : BitVec 3), ∃ (wa : BitVec 5), ∃ (wb : BitVec 5), ∃ (wn : BitVec 5), Working s i 4 [wa, wb, wn, wn + 1] f ∧ cteqOk pd wa wb wn = true ∧ longFault [readW (curWorld f i.core.toNat) wa, readW (curWorld f i.core.toNat) wb] (readW (curWorld f i.core.toNat) wn) = none ∧ (diffWords (masterOf f i.core.toNat) i.core.toNat ((if (readW (curWorld f i.core.toNat) wn).toNat < 64 then readW (curWorld f i.core.toNat) wn else 64 : Word).toNat / 4 - (coreAt f i.core.toNat).stepDone) (readW (curWorld f i.core.toNat) wa + BitVec.ofNat 32 (4 * (coreAt f i.core.toNat).stepDone)) (readW (curWorld f i.core.toNat) wb + BitVec.ofNat 32 (4 * (coreAt f i.core.toNat).stepDone)) (if (coreAt f i.core.toNat).stepDone = 0 then readW (curWorld f i.core.toNat) (wn + 1) else (coreAt f i.core.toNat).stepAcc) f).trap = none ∧ Quiet (diffWords (masterOf f i.core.toNat) i.core.toNat ((if (readW (curWorld f i.core.toNat) wn).toNat < 64 then readW (curWorld f i.core.toNat) wn else 64 : Word).toNat / 4 - (coreAt f i.core.toNat).stepDone) (readW (curWorld f i.core.toNat) wa + BitVec.ofNat 32 (4 * (coreAt f i.core.toNat).stepDone)) (readW (curWorld f i.core.toNat) wb + BitVec.ofNat 32 (4 * (coreAt f i.core.toNat).stepDone)) (if (coreAt f i.core.toNat).stepDone = 0 then readW (curWorld f i.core.toNat) (wn + 1) else (coreAt f i.core.toNat).stepAcc) f).state) ∧
    (∃ (s : State), ∃ (f : State), ∃ (i : Issue), ∃ (wd : BitVec 5), ∃ (ws : BitVec 5), ∃ (wn : BitVec 5), ∃ (a : Word), Working s i 4 [wd, ws, wn] f ∧ wd ≠ 0 ∧ ws ≠ 0 ∧ wn ≠ 0 ∧ wd ≠ ws ∧ wd ≠ wn ∧ ws ≠ wn ∧ longFault [readW (curWorld f i.core.toNat) wd, readW (curWorld f i.core.toNat) ws] (readW (curWorld f i.core.toNat) wn) = some a) ∧
    (∃ (s : State), ∃ (m : Master), ∃ (n : Nat), ∃ (d : Word), ∃ (k : Word), k.toNat % 4 = 0 ∧ PlainSpan n d k ∧ (zeroWords m n (k.toNat / 4) d s).trap = none) ∧
    (∃ (s : State), ∃ (m : Master), ∃ (n : Nat), ∃ (d : Word), ∃ (a : Word), ∃ (k : Word), k.toNat % 4 = 0 ∧ PlainSpan n d k ∧ PlainSpan n a k ∧ (copyWords m n (k.toNat / 4) d a s).trap = none) :=
  ⟨⟨words1 (fun w => { w with w := (((w.w.set 6 8).set 7 0x20004040).set 2 0).set 3 0x20004000 }), alsoUnshadow (words1 (fun w => { w with w := (((w.w.set 6 8).set 7 0x20004040).set 2 0).set 3 0x20004000 })), at1 0 false, 7, 3, 6, by unfold Working Executed Fetched Quiet; exact ⟨(words1 (fun w => { w with w := (((w.w.set 6 8).set 7 0x20004040).set 2 0).set 3 0x20004000 })), by decide +kernel⟩, by
      try unfold Working
      try unfold Fetched
      try unfold Quiet
      decide +kernel⟩,
   ⟨words1 (fun w => { w with w := (((w.w.set 6 8).set 7 0x20004040).set 2 0).set 3 0x20004000 }), alsoUnshadow (words1 (fun w => { w with w := (((w.w.set 6 8).set 7 0x20004040).set 2 0).set 3 0x20004000 })), at1 0 false, 7, 6, by unfold Working Executed Fetched Quiet; exact ⟨(words1 (fun w => { w with w := (((w.w.set 6 8).set 7 0x20004040).set 2 0).set 3 0x20004000 })), by decide +kernel⟩, by
      try unfold Working
      try unfold Fetched
      try unfold Quiet
      decide +kernel⟩,
   ⟨words1 (fun w => { w with w := ((((w.w.set 6 8).set 7 0x20005040).set 9 0x20004000).set 8 0x20004000).set 5 0 }), alsoUnshadow (words1 (fun w => { w with w := ((((w.w.set 6 8).set 7 0x20005040).set 9 0x20004000).set 8 0x20004000).set 5 0 })), at1 0 false, 4, 8, 9, 6, by unfold Working Executed Fetched Quiet; exact ⟨(words1 (fun w => { w with w := ((((w.w.set 6 8).set 7 0x20005040).set 9 0x20004000).set 8 0x20004000).set 5 0 })), by decide +kernel⟩, by
      try unfold Working
      try unfold Fetched
      try unfold Quiet
      decide +kernel⟩,
   ⟨words1 (fun w => { w with w := (((w.w.set 6 65).set 7 0x20004040).set 2 0).set 3 0x20004000 }), alsoUnshadow (words1 (fun w => { w with w := (((w.w.set 6 65).set 7 0x20004040).set 2 0).set 3 0x20004000 })), at1 0 false, 7, 3, 6, 65, by unfold Working Executed Fetched Quiet; exact ⟨(words1 (fun w => { w with w := (((w.w.set 6 65).set 7 0x20004040).set 2 0).set 3 0x20004000 })), by decide +kernel⟩, by
      try unfold Working
      try unfold Fetched
      try unfold Quiet
      decide +kernel⟩,
   ⟨core1, 8, 1, 0x20004000, 8, by
      try unfold PlainSpan
      decide +kernel, by
      unfold PlainSpan
      intro j hj
      have : j = 0 ∨ j = 1 := (by have h8 : (8 : Word).toNat = 8 := rfl; omega)
      rcases this with rfl | rfl <;> decide +kernel, by
      try unfold PlainSpan
      decide +kernel⟩,
   ⟨core1, 8, 1, 0x20004008, 0x20004000, 8, by
      try unfold PlainSpan
      decide +kernel, by
      unfold PlainSpan
      intro j hj
      have : j = 0 ∨ j = 1 := (by have h8 : (8 : Word).toNat = 8 := rfl; omega)
      rcases this with rfl | rfl <;> decide +kernel, by
      unfold PlainSpan
      intro j hj
      have : j = 0 ∨ j = 1 := (by have h8 : (8 : Word).toNat = 8 := rfl; omega)
      rcases this with rfl | rfl <;> decide +kernel, by
      try unfold PlainSpan
      decide +kernel⟩⟩

/-- Witnesses for the hypotheses of `ControlForms` (its part `ControlTransfers`), clause by clause. -/
theorem witness_ControlTransfers :
    (∃ (c : Instr), ∃ (s : State), ∃ (f : State), ∃ (i : Issue), ∃ (size : Nat), ∃ (reads : List (BitVec 5)), ∃ (target : Word), jumpRow (curWorld f i.core.toNat) c = some (i, size, reads, target, false) ∧ Working s i size reads f ∧ target &&& 3 = 0) ∧
    (∃ (c : Instr), ∃ (s : State), ∃ (f : State), ∃ (i : Issue), ∃ (size : Nat), ∃ (reads : List (BitVec 5)), ∃ (target : Word), jumpRow (curWorld f i.core.toNat) c = some (i, size, reads, target, true) ∧ Working s i size reads f ∧ target &&& 3 = 0 ∧ ((curWorld f i.core.toNat).rstack.length < 24 ∨ (curWorld f i.core.toNat).rstrap = false)) ∧
    (∃ (c : Instr), ∃ (s : State), ∃ (f : State), ∃ (i : Issue), ∃ (size : Nat), ∃ (reads : List (BitVec 5)), ∃ (target : Word), jumpRow (curWorld f i.core.toNat) c = some (i, size, reads, target, true) ∧ Working s i size reads f ∧ target &&& 3 = 0 ∧ 24 ≤ (curWorld f i.core.toNat).rstack.length ∧ (curWorld f i.core.toNat).rstrap = true) ∧
    (∃ (s : State), ∃ (f : State), ∃ (i : Issue), ∃ (ra : BitVec 5), Working s i 4 [ra] f ∧ readW (curWorld f i.core.toNat) ra &&& 3 ≠ 0) ∧
    (∃ (s : State), ∃ (g : State), ∃ (i : Issue), Executed s i 4 g ∧ badTop (curWorld g i.core.toNat) = true) ∧
    (∃ (s : State), ∃ (f : State), ∃ (i : Issue), ∃ (a : Word), ∃ (l : List Word), Working s i 4 [] f ∧ badTop (curWorld f i.core.toNat) = false ∧ (curWorld f i.core.toNat).rstack = a :: l ∧ a &&& 3 = 0) ∧
    (∃ (s : State), ∃ (f : State), ∃ (i : Issue), Working s i 4 [] f ∧ (curWorld f i.core.toNat).rstack = []) :=
  ⟨⟨.br (at1 0 false) 5, core1, alsoUnshadow core1, at1 0 false, 4, [], _, rfl, by unfold Working Executed Fetched Quiet; exact ⟨(core1), by decide +kernel⟩, by
      try unfold Working
      try unfold Fetched
      try unfold Quiet
      decide +kernel⟩,
   ⟨.call (at1 0 false) 5, core1, alsoUnshadow core1, at1 0 false, 4, [], _, rfl, by unfold Working Executed Fetched Quiet; exact ⟨(core1), by decide +kernel⟩, by
      try unfold Working
      try unfold Fetched
      try unfold Quiet
      decide +kernel⟩,
   ⟨.call (at1 0 false) 5, words1 (fun w => { w with rstack := List.replicate 24 4, rstrap := true }), alsoUnshadow (words1 (fun w => { w with rstack := List.replicate 24 4, rstrap := true })), at1 0 false, 4, [], _, rfl, by unfold Working Executed Fetched Quiet; exact ⟨(words1 (fun w => { w with rstack := List.replicate 24 4, rstrap := true })), by decide +kernel⟩, by
      try unfold Working
      try unfold Fetched
      try unfold Quiet
      decide +kernel⟩,
   ⟨core1, alsoUnshadow core1, at1 0 false, 4, by unfold Working Executed Fetched Quiet; exact ⟨(core1), by decide +kernel⟩, by
      try unfold Working
      try unfold Fetched
      try unfold Quiet
      decide +kernel⟩,
   ⟨badTop1, badTop1, at1 0 false, by
      try unfold Executed
      try unfold Fetched
      try unfold Quiet
      decide +kernel⟩,
   ⟨words1 (fun w => { w with rstack := [4, 8] }), alsoUnshadow (words1 (fun w => { w with rstack := [4, 8] })), at1 0 false, 4, [8], by unfold Working Executed Fetched Quiet; exact ⟨(words1 (fun w => { w with rstack := [4, 8] })), by decide +kernel⟩, by
      try unfold Working
      try unfold Fetched
      try unfold Quiet
      decide +kernel⟩,
   ⟨core1, alsoUnshadow core1, at1 0 false, by unfold Working Executed Fetched Quiet; exact ⟨(core1), by decide +kernel⟩, by
      try unfold Working
      try unfold Fetched
      try unfold Quiet
      decide +kernel⟩⟩

/-- Witnesses for the hypotheses of `ControlForms` (its part `HardwareLoops`), clause by clause. -/
theorem witness_HardwareLoops :
    (∃ (s : State), ∃ (f : State), ∃ (i : Issue), ∃ (wc : BitVec 5), Working s i 4 [wc] f ∧ (curWorld f i.core.toNat).badLoop = 0 ∧ (readW (curWorld f i.core.toNat) wc).toNat % 65536 = 0) ∧
    (∃ (s : State), ∃ (f : State), ∃ (i : Issue), ∃ (wc : BitVec 5), Working s i 4 [wc] f ∧ (curWorld f i.core.toNat).badLoop = 0 ∧ (readW (curWorld f i.core.toNat) wc).toNat % 65536 ≠ 0 ∧ act0 (curWorld f i.core.toNat) = false) ∧
    (∃ (s : State), ∃ (f : State), ∃ (i : Issue), ∃ (wc : BitVec 5), Working s i 4 [wc] f ∧ (curWorld f i.core.toNat).badLoop = 0 ∧ (readW (curWorld f i.core.toNat) wc).toNat % 65536 ≠ 0 ∧ act0 (curWorld f i.core.toNat) = true ∧ act1 (curWorld f i.core.toNat) = true) ∧
    (∃ (s : State), ∃ (f : State), ∃ (i : Issue), ∃ (wc : BitVec 5), ∃ (len : BitVec 8), Working s i 4 [wc] f ∧ (curWorld f i.core.toNat).badLoop = 0 ∧ (readW (curWorld f i.core.toNat) wc).toNat % 65536 ≠ 0 ∧ act0 (curWorld f i.core.toNat) = true ∧ act1 (curWorld f i.core.toNat) = false ∧ loopInside (curWorld f i.core.toNat) len.toNat = true) ∧
    (∃ (s : State), ∃ (f : State), ∃ (i : Issue), Working s i 4 [] f ∧ (curWorld f i.core.toNat).badLoop = 0) ∧
    (∃ (w : World), act0 w = false) ∧
    (∃ (w : World), ∃ (size : Nat), act0 w = true ∧ containsWord w.pc size (loopEnd0 w) = false ∧ (act1 w = true → containsWord w.pc size (loopEnd1 w) = false)) ∧
    (∃ (w : World), ∃ (size : Nat), act0 w = true ∧ act1 w = false ∧ containsWord w.pc size (loopEnd0 w) = true ∧ 2 ≤ bitsOf w.lw1 0 16) ∧
    (∃ (w : World), ∃ (size : Nat), act0 w = true ∧ act1 w = false ∧ containsWord w.pc size (loopEnd0 w) = true ∧ bitsOf w.lw1 0 16 = 1) ∧
    (∃ (w : World), ∃ (size : Nat), act1 w = true ∧ containsWord w.pc size (loopEnd1 w) = true ∧ 2 ≤ bitsOf w.lw1 16 16) :=
  ⟨⟨words1 (fun w => { w with lw0 := 0, lw1 := 0, lw2 := 0, w := w.w.set 8 0x10000 }), alsoUnshadow (words1 (fun w => { w with lw0 := 0, lw1 := 0, lw2 := 0, w := w.w.set 8 0x10000 })), at1 0 false, 8, by unfold Working Executed Fetched Quiet; exact ⟨(words1 (fun w => { w with lw0 := 0, lw1 := 0, lw2 := 0, w := w.w.set 8 0x10000 })), by decide +kernel⟩, by
      try unfold Working
      try unfold Fetched
      try unfold Quiet
      decide +kernel⟩,
   ⟨words1 (fun w => { w with lw0 := 0, lw1 := 7, lw2 := 0, w := w.w.set 8 0x10005 }), alsoUnshadow (words1 (fun w => { w with lw0 := 0, lw1 := 7, lw2 := 0, w := w.w.set 8 0x10005 })), at1 0 false, 8, by unfold Working Executed Fetched Quiet; exact ⟨(words1 (fun w => { w with lw0 := 0, lw1 := 7, lw2 := 0, w := w.w.set 8 0x10005 })), by decide +kernel⟩, by
      try unfold Working
      try unfold Fetched
      try unfold Quiet
      decide +kernel⟩,
   ⟨words1 (fun w => { w with lw0 := 0x20000003, lw1 := 7, lw2 := 0, w := w.w.set 8 5 }), alsoUnshadow (words1 (fun w => { w with lw0 := 0x20000003, lw1 := 7, lw2 := 0, w := w.w.set 8 5 })), at1 0 false, 8, by unfold Working Executed Fetched Quiet; exact ⟨(words1 (fun w => { w with lw0 := 0x20000003, lw1 := 7, lw2 := 0, w := w.w.set 8 5 })), by decide +kernel⟩, by
      try unfold Working
      try unfold Fetched
      try unfold Quiet
      decide +kernel⟩,
   ⟨words1 (fun w => { w with lw0 := 0x1FFFFFF1, lw1 := 7, lw2 := 0x40, w := w.w.set 8 5 }), alsoUnshadow (words1 (fun w => { w with lw0 := 0x1FFFFFF1, lw1 := 7, lw2 := 0x40, w := w.w.set 8 5 })), at1 0 false, 8, 9, by unfold Working Executed Fetched Quiet; exact ⟨(words1 (fun w => { w with lw0 := 0x1FFFFFF1, lw1 := 7, lw2 := 0x40, w := w.w.set 8 5 })), by decide +kernel⟩, by
      try unfold Working
      try unfold Fetched
      try unfold Quiet
      decide +kernel⟩,
   ⟨words1 (fun w => { w with lw0 := 0x1FFFFFF3, lw1 := 7, lw2 := 0x10210, w := w.w.set 8 5 }), alsoUnshadow (words1 (fun w => { w with lw0 := 0x1FFFFFF3, lw1 := 7, lw2 := 0x10210, w := w.w.set 8 5 })), at1 0 false, by unfold Working Executed Fetched Quiet; exact ⟨(words1 (fun w => { w with lw0 := 0x1FFFFFF3, lw1 := 7, lw2 := 0x10210, w := w.w.set 8 5 })), by decide +kernel⟩, by
      try unfold Working
      try unfold Fetched
      try unfold Quiet
      decide +kernel⟩,
   ⟨{ busyWorld (World.reset true) with lw0 := 0, lw1 := 0, lw2 := 0 }, by
      decide +kernel⟩,
   ⟨{ busyWorld (World.reset true) with lw0 := 0x1FFFFFF1, lw1 := 0x50005, lw2 := 0x40440 }, 8, by
      decide +kernel⟩,
   ⟨{ busyWorld (World.reset true) with lw0 := 0x1FFFFFF1, lw1 := 0x50005, lw2 := 0x40404 }, 4, by
      decide +kernel⟩,
   ⟨{ busyWorld (World.reset true) with lw0 := 0x1FFFFFF1, lw1 := 0x50001, lw2 := 0x40404 }, 4, by
      decide +kernel⟩,
   ⟨{ busyWorld (World.reset true) with lw0 := 0x1FFFFFF3, lw1 := 0x50001, lw2 := 0x20208 }, 4, by
      decide +kernel⟩⟩

/-- Witnesses for the hypotheses of `ExceptionEntryAndReturn` (its part `ExceptionEntry`), clause by clause. -/
theorem witness_ExceptionEntry :
    (∃ (s : State), ∃ (f : State), ∃ (i : Issue), Working s i 4 [] f ∧ FrameFits (modWorld f i.core.toNat (advancePc 4)) i.core.toNat (curSig f i.core.toNat)) ∧
    (∃ (s : State), ∃ (f : State), ∃ (i : Issue), Working s i 4 [] f ∧ curSig f i.core.toNat = false ∧ (curWorld f i.core.toNat).level = true ∧ FrameFits (modWorld f i.core.toNat (advancePc 4)) i.core.toNat true) ∧
    (∃ (s : State), ∃ (f : State), ∃ (i : Issue), Working s i 4 [] f ∧ armed f i.core.toNat = false ∧ FrameFits (modWorld f i.core.toNat (advancePc 4)) i.core.toNat (curSig f i.core.toNat)) ∧
    (∃ (s : State), ∃ (f : State), ∃ (i : Issue), Working s i 4 [] f ∧ armed f i.core.toNat = true) ∧
    (∃ (s : State), ∃ (f : State), ∃ (c : BitVec 2), Quiet s ∧ canIssue s c.toNat = true ∧ fetchInstr s c.toNat 4 = { state := f, trap := none } ∧ FrameFits f c.toNat (curSig f c.toNat)) ∧
    (∃ (s : State), ∃ (c : BitVec 2), ∃ (sig : Bool), ∃ (k : Nat), running s c.toNat = true ∧ heldOff s c.toNat = false ∧ (coreAt s c.toNat).wait = .none ∧ interruptFor s c.toNat = some (sig, k) ∧ FrameFits s c.toNat sig) ∧
    (∃ (s : State), ∃ (c : BitVec 2), ∃ (rd : BitVec 5), ∃ (sig : Bool), ∃ (k : Nat), running s c.toNat = true ∧ heldOff s c.toNat = false ∧ (coreAt s c.toNat).wait = .waitf rd ∧ interruptFor s c.toNat = some (sig, k) ∧ FrameFits (leaveWait s c.toNat) c.toNat sig) ∧
    (∃ (s : State), ∃ (c : BitVec 2), Quiet s ∧ heldOff s c.toNat = true) ∧
    (∃ (s : State), ∃ (n : Nat), ∃ (tr : Trap), n < 4 ∧ FrameFits s n (takenIn tr.code (curSig s n))) ∧
    (∃ (s : State), ∃ (n : Nat), ∃ (tr : Trap), n < 4 ∧ (frameBad (curWorld s n) = true ∨ ∃ e ∈ frameStores n (worldOf (coreAt s n) (takenIn tr.code (curSig s n))).ssp (frameWords n tr (curSig s n) (curWorld s n) (curWorld s n).pc), (fabricWrite s (BitVec.ofNat 6 (coreId n (takenIn tr.code (curSig s n)) true)) e.1 4 e.2).detail ≠ 0)) :=
  ⟨⟨framed (sig1 r0), alsoUnshadow (framed (sig1 r0)), at1 0 false, by unfold Working Executed Fetched Quiet; exact ⟨(framed (sig1 r0)), by decide +kernel⟩, by
      try unfold FrameFits
      try unfold PlainWrite
      try unfold Working
      try unfold Fetched
      try unfold Quiet
      decide +kernel⟩,
   ⟨framed (platSup r0), alsoUnshadow (framed (platSup r0)), at1 0 false, by unfold Working Executed Fetched Quiet; exact ⟨(framed (platSup r0)), by decide +kernel⟩, by
      try unfold FrameFits
      try unfold PlainWrite
      try unfold Working
      try unfold Fetched
      try unfold Quiet
      decide +kernel⟩,
   ⟨framed (sig1 r0), alsoUnshadow (framed (sig1 r0)), at1 0 false, by unfold Working Executed Fetched Quiet; exact ⟨(framed (sig1 r0)), by decide +kernel⟩, by
      try unfold FrameFits
      try unfold PlainWrite
      try unfold Working
      try unfold Fetched
      try unfold Quiet
      decide +kernel⟩,
   ⟨armedState, alsoUnshadow (armedState), at1 0 false, by unfold Working Executed Fetched Quiet; exact ⟨(armedState), by decide +kernel⟩, by
      try unfold Working
      try unfold Fetched
      try unfold Quiet
      decide +kernel⟩,
   ⟨framed (sig1 r0), framed (sig1 r0), 1, by
      try unfold FrameFits
      try unfold PlainWrite
      try unfold Quiet
      decide +kernel⟩,
   ⟨modWorld { framed (platSup r0) with evtPend := 0x100000000000000000000000000, evtRoutes := [(104, 0x5), (200, 0x15)] } 1 (fun w => { w with ie := true, shadow := false }), 1, false, ((interruptFor (modWorld { framed (platSup r0) with evtPend := 0x100000000000000000000000000, evtRoutes := [(104, 0x5), (200, 0x15)] } 1 (fun w => { w with ie := true, shadow := false })) 1).getD (false, 0)).2, by
      try unfold FrameFits
      try unfold PlainWrite
      try unfold Quiet
      decide +kernel⟩,
   ⟨modWorld (setCore ({ framed (platSup r0) with evtPend := 0x100000000000000000000000000, evtRoutes := [(104, 0x5), (200, 0x15)] }) 1 { coreAt (framed (platSup r0)) 1 with wait := .waitf 4, wake := 9 }) 1 (fun w => { w with ie := true, shadow := true }), 1, 4, false, ((interruptFor (modWorld (setCore ({ framed (platSup r0) with evtPend := 0x100000000000000000000000000, evtRoutes := [(104, 0x5), (200, 0x15)] }) 1 { coreAt (framed (platSup r0)) 1 with wait := .waitf 4, wake := 9 }) 1 (fun w => { w with ie := true, shadow := true })) 1).getD (true, 0)).2, by
      try unfold FrameFits
      try unfold PlainWrite
      try unfold Quiet
      decide +kernel⟩,
   ⟨sig1 r0, 1, by
      try unfold Quiet
      decide +kernel⟩,
   ⟨framed (plat1 r0), 1, Trap.at 0x03 0x77, by
      try unfold FrameFits
      try unfold PlainWrite
      try unfold Quiet
      decide +kernel⟩,
   ⟨plat1 r0, 1, Trap.bus 2 0x77, by
      decide +kernel⟩⟩

/-- Witnesses for the hypotheses of `ExceptionEntryAndReturn` (its part `ExceptionReturn`), clause by clause. -/
theorem witness_ExceptionReturn :
    (∃ (s : State), ∃ (f : State), ∃ (i : Issue), ∃ (l : List Word), Working s i 4 [] f ∧ (curWorld f i.core.toNat).level = true ∧ readWords f (masterOf f i.core.toNat) i.core.toNat 8 (curWorld f i.core.toNat).ssp.toNat [] = (f, l, none) ∧ (bit (l.getD 1 0) 1 = true → curSig f i.core.toNat = true) ∧ l.getD 0 0 &&& 3 = 0) ∧
    (∃ (s : State), ∃ (f : State), ∃ (i : Issue), ∃ (l : List Word), Working s i 4 [] f ∧ (curWorld f i.core.toNat).level = true ∧ readWords f (masterOf f i.core.toNat) i.core.toNat 8 (curWorld f i.core.toNat).ssp.toNat [] = (f, l, none) ∧ bit (l.getD 1 0) 1 = true ∧ curSig f i.core.toNat = false) ∧
    (∃ (s : State), ∃ (f : State), ∃ (i : Issue), ∃ (l : List Word), Working s i 4 [] f ∧ (curWorld f i.core.toNat).level = true ∧ readWords f (masterOf f i.core.toNat) i.core.toNat 8 (curWorld f i.core.toNat).ssp.toNat [] = (f, l, none) ∧ (bit (l.getD 1 0) 1 = true → curSig f i.core.toNat = true) ∧ l.getD 0 0 &&& 3 ≠ 0) :=
  ⟨⟨modWorld (withFrame (framed (platSup m0)) 0x20004000 0x5) 1 (fun w => { w with ssp := 0x20006020 }), alsoUnshadow (modWorld (withFrame (framed (platSup m0)) 0x20004000 0x5) 1 (fun w => { w with ssp := 0x20006020 })), at1 0 false, (readWords (alsoUnshadow (modWorld (withFrame (framed (platSup m0)) 0x20004000 0x5) 1 (fun w => { w with ssp := 0x20006020 }))) (masterOf (alsoUnshadow (modWorld (withFrame (framed (platSup m0)) 0x20004000 0x5) 1 (fun w => { w with ssp := 0x20006020 }))) 1) 1 8 (curWorld (alsoUnshadow (modWorld (withFrame (framed (platSup m0)) 0x20004000 0x5) 1 (fun w => { w with ssp := 0x20006020 }))) 1).ssp.toNat []).2.1, by unfold Working Executed Fetched Quiet; exact ⟨(modWorld (withFrame (framed (platSup m0)) 0x20004000 0x5) 1 (fun w => { w with ssp := 0x20006020 })), by decide +kernel⟩, by
      try unfold Working
      try unfold Fetched
      try unfold Quiet
      decide +kernel⟩,
   ⟨modWorld (withFrame (framed (platSup m0)) 0x20004000 0x2) 1 (fun w => { w with ssp := 0x20006020 }), alsoUnshadow (modWorld (withFrame (framed (platSup m0)) 0x20004000 0x2) 1 (fun w => { w with ssp := 0x20006020 })), at1 0 false, (readWords (alsoUnshadow (modWorld (withFrame (framed (platSup m0)) 0x20004000 0x2) 1 (fun w => { w with ssp := 0x20006020 }))) (masterOf (alsoUnshadow (modWorld (withFrame (framed (platSup m0)) 0x20004000 0x2) 1 (fun w => { w with ssp := 0x20006020 }))) 1) 1 8 (curWorld (alsoUnshadow (modWorld (withFrame (framed (platSup m0)) 0x20004000 0x2) 1 (fun w => { w with ssp := 0x20006020 }))) 1).ssp.toNat []).2.1, by unfold Working Executed Fetched Quiet; exact ⟨(modWorld (withFrame (framed (platSup m0)) 0x20004000 0x2) 1 (fun w => { w with ssp := 0x20006020 })), by decide +kernel⟩, by
      try unfold Working
      try unfold Fetched
      try unfold Quiet
      decide +kernel⟩,
   ⟨modWorld (withFrame (framed (platSup m0)) 0x20004002 0x1) 1 (fun w => { w with ssp := 0x20006020 }), alsoUnshadow (modWorld (withFrame (framed (platSup m0)) 0x20004002 0x1) 1 (fun w => { w with ssp := 0x20006020 })), at1 0 false, (readWords (alsoUnshadow (modWorld (withFrame (framed (platSup m0)) 0x20004002 0x1) 1 (fun w => { w with ssp := 0x20006020 }))) (masterOf (alsoUnshadow (modWorld (withFrame (framed (platSup m0)) 0x20004002 0x1) 1 (fun w => { w with ssp := 0x20006020 }))) 1) 1 8 (curWorld (alsoUnshadow (modWorld (withFrame (framed (platSup m0)) 0x20004002 0x1) 1 (fun w => { w with ssp := 0x20006020 }))) 1).ssp.toNat []).2.1, by unfold Working Executed Fetched Quiet; exact ⟨(modWorld (withFrame (framed (platSup m0)) 0x20004002 0x1) 1 (fun w => { w with ssp := 0x20006020 })), by decide +kernel⟩, by
      try unfold Working
      try unfold Fetched
      try unfold Quiet
      decide +kernel⟩⟩

/-- Witnesses for the hypotheses of `WaitsAndSignals`, clause by clause. -/
theorem witness_WaitsAndSignals :
    (∃ (s : State), ∃ (f : State), ∃ (i : Issue), Working s i 4 [] f) ∧
    (∃ (s : State), ∃ (f : State), ∃ (i : Issue), Working s i 4 [] f ∧ (coreAt f i.core.toNat).wake ≠ 0) ∧
    (∃ (s : State), ∃ (f : State), ∃ (i : Issue), Working s i 4 [] f ∧ (coreAt f i.core.toNat).wake = 0) ∧
    (∃ (s : State), ∃ (c : BitVec 2), ∃ (rd : BitVec 5), Quiet s ∧ running s c.toNat = true ∧ (coreAt s c.toNat).wait = .waitf rd ∧ (coreAt s c.toNat).wake ≠ 0) ∧
    (∃ (s : State), ∃ (f : State), ∃ (i : Issue), ∃ (pd : BitVec 3), ∃ (ra : BitVec 5), Working s i 4 [ra, ra + 1] f ∧ ra.toNat % 2 = 0 ∧ (pd = 2 ∨ pd = 4 ∨ pd = 6) ∧ ((pair64 (readW (curWorld f i.core.toNat) (ra + 1)) (readW (curWorld f i.core.toNat) ra)).toNat ≤ f.ttc.toNat ∨ (coreAt f i.core.toNat).wake ≠ 0)) ∧
    (∃ (s : State), ∃ (f : State), ∃ (i : Issue), ∃ (pd : BitVec 3), ∃ (ra : BitVec 5), Working s i 4 [ra, ra + 1] f ∧ ra.toNat % 2 = 0 ∧ (pd = 2 ∨ pd = 4 ∨ pd = 6) ∧ f.ttc.toNat < (pair64 (readW (curWorld f i.core.toNat) (ra + 1)) (readW (curWorld f i.core.toNat) ra)).toNat ∧ (coreAt f i.core.toNat).wake = 0) ∧
    (∃ (s : State), ∃ (c : BitVec 2), ∃ (pd : BitVec 3), ∃ (d : DWord), Quiet s ∧ running s c.toNat = true ∧ (coreAt s c.toNat).wait = .waitt pd d ∧ (BitVec.toNat d ≤ s.ttc.toNat ∨ (coreAt s c.toNat).wake ≠ 0)) ∧
    (∃ (s : State), ∃ (f : State), ∃ (i : Issue), Working s i 4 [] f) :=
  ⟨⟨sig1 r0, alsoUnshadow (sig1 r0), at1 0 false, by unfold Working Executed Fetched Quiet; exact ⟨(sig1 r0), by decide +kernel⟩⟩,
   ⟨setCore (sig1 r0) 1 { coreAt (sig1 r0) 1 with wake := 5 }, alsoUnshadow (setCore (sig1 r0) 1 { coreAt (sig1 r0) 1 with wake := 5 }), at1 0 false, by unfold Working Executed Fetched Quiet; exact ⟨(setCore (sig1 r0) 1 { coreAt (sig1 r0) 1 with wake := 5 }), by decide +kernel⟩, by
      try unfold Working
      try unfold Fetched
      try unfold Quiet
      decide +kernel⟩,
   ⟨sig1 r0, alsoUnshadow (sig1 r0), at1 0 false, by unfold Working Executed Fetched Quiet; exact ⟨(sig1 r0), by decide +kernel⟩, by
      try unfold Working
      try unfold Fetched
      try unfold Quiet
      decide +kernel⟩,
   ⟨setCore (sig1 r0) 1 { coreAt (sig1 r0) 1 with wake := 5, wait := .waitf 4 }, 1, 4, by
      try unfold Quiet
      decide +kernel⟩,
   ⟨words1 (fun w => { w with w := (w.w.set 6 900).set 7 0 }), alsoUnshadow (words1 (fun w => { w with w := (w.w.set 6 900).set 7 0 })), at1 0 false, 4, 6, by unfold Working Executed Fetched Quiet; exact ⟨(words1 (fun w => { w with w := (w.w.set 6 900).set 7 0 })), by decide +kernel⟩, by
      try unfold Working
      try unfold Fetched
      try unfold Quiet
      decide +kernel⟩,
   ⟨words1 (fun w => { w with w := (w.w.set 6 900).set 7 1 }), alsoUnshadow (words1 (fun w => { w with w := (w.w.set 6 900).set 7 1 })), at1 0 false, 2, 6, by unfold Working Executed Fetched Quiet; exact ⟨(words1 (fun w => { w with w := (w.w.set 6 900).set 7 1 })), by decide +kernel⟩, by
      try unfold Working
      try unfold Fetched
      try unfold Quiet
      decide +kernel⟩,
   ⟨setCore (sig1 r0) 1 { coreAt (sig1 r0) 1 with wake := 5, wait := .waitt 4 2000 }, 1, 4, 2000, by
      try unfold Quiet
      decide +kernel⟩,
   ⟨sig1 r0, alsoUnshadow (sig1 r0), at1 0 false, by unfold Working Executed Fetched Quiet; exact ⟨(sig1 r0), by decide +kernel⟩⟩⟩

/-- Witnesses for the hypotheses of `SpecialRegisters`, clause by clause. -/
theorem witness_SpecialRegisters :
    (∃ (s : State), ∃ (f : State), ∃ (i : Issue), ∃ (k : BitVec 5), ∃ (v : Word), SpecWorking s f i (mfsLevel (BitVec.toNat k)) [] ∧ (k, v) ∈ specRead f i.core.toNat ∧ (∀ j, j < 3 → k.toNat = 16 + j → (curWorld f i.core.toNat).badLoop.getLsbD j = false)) ∧
    (∃ (s : State), ∃ (f : State), ∃ (i : Issue), ∃ (ra : BitVec 5), ∃ (k : BitVec 5), ∃ (g : World → World), SpecWorking s f i (mtsLevel (BitVec.toNat k)) [ra] ∧ (k, g) ∈ specWrite (readW (curWorld f i.core.toNat) ra)) ∧
    (∃ (s : State), ∃ (f : State), ∃ (i : Issue), ∃ (ra : BitVec 5), SpecWorking s f i (some 2) [ra]) ∧
    (∃ (s : State), ∃ (f : State), ∃ (i : Issue), ∃ (rd : BitVec 5), ∃ (c : Instr), c ∈ [Instr.rstopPop i rd, .mfs i rd 0x05] ∧ SpecWorking s f i (some 1) [] ∧ badTop (curWorld f i.core.toNat) = false) ∧
    (∃ (s : State), ∃ (f : State), ∃ (i : Issue), ∃ (ra : BitVec 5), SpecWorking s f i (some 1) [ra]) ∧
    (∃ (s : State), ∃ (f : State), ∃ (i : Issue), ∃ (rd : BitVec 5), ∃ (c : Instr), c ∈ [Instr.xregRead i rd, .mfs i rd 0x07] ∧ SpecWorking s f i (some 2) [] ∧ xregBad (coreAt f i.core.toNat) = false) ∧
    (∃ (s : State), ∃ (f : State), ∃ (i : Issue), ∃ (ra : BitVec 5), ∃ (c : Instr), c ∈ [Instr.xregWrite i ra, .mts i 0x07 ra] ∧ SpecWorking s f i (some 2) [ra]) :=
  ⟨⟨spState, alsoUnshadow spState, at1 0 false, 1, (curWorld (alsoUnshadow spState) 1).vbase, by unfold SpecWorking Working Executed Fetched Quiet; exact ⟨⟨(spState), by decide +kernel⟩, by decide +kernel⟩, List.Mem.tail _ (List.Mem.head _), by
      try unfold SpecWorking
      try unfold Working
      try unfold Fetched
      try unfold Quiet
      decide +kernel⟩,
   ⟨spState, alsoUnshadow spState, at1 0 false, 1, 1, fun w => advancePc 4 { w with vbase := readW (curWorld (alsoUnshadow spState) 1) 1 &&& 0xFFFFF800 }, by unfold SpecWorking Working Executed Fetched Quiet; exact ⟨⟨(spState), by decide +kernel⟩, by decide +kernel⟩, List.Mem.tail _ (List.Mem.head _)⟩,
   ⟨spState, alsoUnshadow spState, at1 0 false, 1, by unfold SpecWorking Working Executed Fetched Quiet; exact ⟨⟨(spState), by decide +kernel⟩, by decide +kernel⟩⟩,
   ⟨spState, alsoUnshadow spState, at1 0 false, 3, .rstopPop (at1 0 false) 3, by
      try unfold SpecWorking
      try unfold Working
      try unfold Fetched
      try unfold Quiet
      decide +kernel, by unfold SpecWorking Working Executed Fetched Quiet; exact ⟨⟨(spState), by decide +kernel⟩, by decide +kernel⟩, by
      try unfold SpecWorking
      try unfold Working
      try unfold Fetched
      try unfold Quiet
      decide +kernel⟩,
   ⟨spState, alsoUnshadow spState, at1 0 false, 2, by unfold SpecWorking Working Executed Fetched Quiet; exact ⟨⟨(spState), by decide +kernel⟩, by decide +kernel⟩⟩,
   ⟨xState, alsoUnshadow xState, at1 0 false, 3, .xregRead (at1 0 false) 3, by
      try unfold SpecWorking
      try unfold Working
      try unfold Fetched
      try unfold Quiet
      decide +kernel, by unfold SpecWorking Working Executed Fetched Quiet; exact ⟨⟨(xState), by decide +kernel⟩, by decide +kernel⟩, by
      try unfold SpecWorking
      try unfold Working
      try unfold Fetched
      try unfold Quiet
      decide +kernel⟩,
   ⟨xState, alsoUnshadow xState, at1 0 false, 2, .xregWrite (at1 0 false) 2, by
      try unfold SpecWorking
      try unfold Working
      try unfold Fetched
      try unfold Quiet
      decide +kernel, by unfold SpecWorking Working Executed Fetched Quiet; exact ⟨⟨(xState), by decide +kernel⟩, by decide +kernel⟩⟩⟩

/-- Witnesses for the hypotheses of `InterlockingAndDebug` (its part `Routes`), clause by clause. -/
theorem witness_Routes :
    (∃ (s : State), ∃ (m : Master), Quiet s ∧ MayWrite s m Reg.ILK_CMD ∧ (routeAt s (ilkSel s)).lock = false ∧ (stagedRoute s).debug ≠ 3 ∧ (stagedRoute s).base ≤ (stagedRoute s).limit) ∧
    (∃ (s : State), ∃ (m : Master), Quiet s ∧ MayWrite s m Reg.ILK_CMD ∧ ilkSel s ∉ s.badRoutes ∧ (routeAt s (ilkSel s)).base < 2 ^ 20 ∧ (routeAt s (ilkSel s)).limit < 2 ^ 20) ∧
    (∃ (s : State), Quiet s ∧ shadowDiffers s = false) ∧
    (∃ (s : State), Quiet s ∧ mainPower s = true ∧ shadowDiffers s = true) :=
  ⟨⟨staged r0, 4, by
      try unfold MayWrite
      try unfold Quiet
      decide +kernel⟩,
   ⟨withRoute (staged r0) { wideRoute with lock := true, rmask := 0x123456789ABCDEF0 }, 4, by
      try unfold MayWrite
      try unfold Quiet
      decide +kernel⟩,
   ⟨staged r0, by
      try unfold Quiet
      decide +kernel⟩,
   ⟨{ wide r0 with shadows := Vector.replicate 4 [] }, by
      try unfold Quiet
      decide +kernel⟩⟩

/-- Witnesses for the hypotheses of `InterlockingAndDebug` (its part `DebugSessions`), clause by clause. -/
theorem witness_DebugSessions :
    (∃ (s : State), Quiet s ∧ pathServes s = true ∧ entReady s = true) ∧
    (∃ (s : State), Quiet s ∧ pathServes s = true ∧ sessionLevel s ≠ 0) ∧
    (∃ (s : State), Quiet s ∧ pathServes s = true ∧ sessionLevel s = 0) ∧
    (∃ (s : State), Quiet s ∧ pathServes s = true) ∧
    (∃ (s : State), ∃ (m : Master), Quiet s ∧ MayWrite s m Reg.DBG_SESSION ∧ m ≠ 32) ∧
    (∃ (s : State), Quiet s ∧ pathServes s = true ∧ sessionLevel s ≠ 0) ∧
    (∃ (s : State), Quiet s ∧ sessionLevel s ≠ 0 ∧ (getR64 s Reg.DBG_NOT_AFTER).toNat ≤ s.ttc.toNat) :=
  ⟨⟨keyed r0, by
      try unfold Quiet
      decide +kernel⟩,
   ⟨certState (setR r0 Reg.ILK_STATUS 2) 1, by
      try unfold Quiet
      decide +kernel⟩,
   ⟨certState r0 1, by
      try unfold Quiet
      decide +kernel⟩,
   ⟨halted1 { setR r0 Reg.ILK_STATUS 2 with dbg := { r0.dbg with cores := 0x5 } }, by
      try unfold Quiet
      decide +kernel⟩,
   ⟨wide r0, 4, by
      try unfold MayWrite
      try unfold Quiet
      decide +kernel⟩,
   ⟨halted1 armedState, by
      try unfold Quiet
      decide +kernel⟩,
   ⟨halted1 (setR armedState Reg.DBG_NOT_AFTER 1000), by
      try unfold Quiet
      decide +kernel⟩⟩

/-- Witnesses for the hypotheses of `LockedRoutes`, clause by clause. -/
theorem witness_LockedRoutes :
    (∃ (s : State), ∃ (m : Master), Quiet s ∧ MayWrite s m Reg.ILK_CMD ∧ (routeAt s (ilkSel s)).lock = true) ∧
    (∃ (s : State), ∃ (m : Master), Quiet s ∧ MayWrite s m Reg.ILK_CMD ∧ (routeAt s (ilkSel s)).lock = false ∧ ((stagedRoute s).debug = 3 ∨ (stagedRoute s).limit < (stagedRoute s).base)) ∧
    (∃ (s : State), ∃ (m : Master), Quiet s ∧ MayWrite s m Reg.ILK_CMD ∧ (routeAt s (ilkSel s)).lock = false ∧ (stagedRoute s).debug ≠ 3 ∧ (stagedRoute s).base ≤ (stagedRoute s).limit ∧ (stagedRoute s).lock = true) ∧
    (∃ (s : State), ∃ (t : State), ∃ (n : Nat), (routeAt s n).lock = true ∧ step s = .next t) :=
  ⟨⟨withRoute (staged r0) { wideRoute with lock := true }, 4, by
      try unfold MayWrite
      try unfold Quiet
      decide +kernel⟩,
   ⟨setR (staged r0) Reg.ILK_ATTR 0xD, 4, by
      try unfold MayWrite
      try unfold Quiet
      decide +kernel⟩,
   ⟨setR (staged r0) Reg.ILK_ATTR 7, 4, by
      try unfold MayWrite
      try unfold Quiet
      decide +kernel⟩,
   ⟨withRoute r0 { wideRoute with lock := true }, idleTick (withRoute r0 { wideRoute with lock := true }), 5, by
      decide +kernel, rfl⟩⟩

/-- Witnesses for the hypotheses of `LinesideTrips`, clause by clause. -/
theorem witness_LinesideTrips :
    (∃ (s : State), ∃ (src : BitVec 7), ∃ (d : BitVec 2), Trippable s src.toNat d ∧ mainPower s = true ∧ classOf s src.toNat = 0) ∧
    (∃ (s : State), ∃ (src : BitVec 7), ∃ (d : BitVec 2), Trippable s src.toNat d ∧ mainPower s = true ∧ appliedClass s src.toNat = 2 ∧ s.badCells = [] ∧ s.badPrivate = []) ∧
    (∃ (s : State), ∃ (src : BitVec 7), ∃ (d : BitVec 2), Trippable s src.toNat d ∧ mainPower s = true ∧ appliedClass s src.toNat = 1 ∧ s.power.lastGasp = false ∧ resetFault s = false) ∧
    (∃ (s : State), ∃ (src : BitVec 7), ∃ (d : BitVec 2), Trippable s src.toNat d ∧ mainPower s = true ∧ appliedClass s src.toNat = 3 ∧ sealing s = false ∧ s.btr = none ∧ s.lko.inv = none) ∧
    (∃ (s : State), ∃ (src : BitVec 7), ∃ (d : BitVec 2), Trippable s src.toNat d ∧ s.mode = .stabled ∧ watchedOnCell src.toNat = true) ∧
    (∃ (s : State), ∃ (src : BitVec 7), Trippable s 106 3 ∧ mainPower s = true ∧ duplicated src.toNat = true ∧ classOf s 106 = 0) ∧
    (∃ (s : State), ∃ (a : Nat), ∃ (b : Nat), Trippable s a 3 ∧ Trippable s b 3 ∧ a ≠ b ∧ mainPower s = true ∧ s.mode = .running ∧ appliedClass s a = 1 ∧ appliedClass s b = 2 ∧ s.badCells = [] ∧ s.badPrivate = [] ∧ s.tripsDue = []) :=
  ⟨⟨r0, 75, 1, by
      try unfold Trippable
      try unfold Quiet
      decide +kernel⟩,
   ⟨r0, 77, 2, by
      try unfold Trippable
      try unfold Quiet
      decide +kernel⟩,
   ⟨{ r0 with mem := [(3, 1)] }, 65, 3, by
      try unfold Trippable
      try unfold Quiet
      decide +kernel⟩,
   ⟨m0, 5, 1, by
      try unfold Trippable
      try unfold Quiet
      decide +kernel⟩,
   ⟨stabled, 5, 1, by
      try unfold Trippable
      try unfold Quiet
      decide +kernel⟩,
   ⟨r0, 3, by
      try unfold Trippable
      try unfold Quiet
      decide +kernel⟩,
   ⟨r0, 64, 80, by
      try unfold Trippable
      try unfold Quiet
      decide +kernel⟩⟩

/-- Witnesses for the hypotheses of `LinesideUnit` (its part `LinesideControl`), clause by clause. -/
theorem witness_LinesideControl :
    (∃ (s : State), ∃ (m : Master), ∃ (n : BitVec 2), ∃ (ones : Word), Quiet s ∧ MayWrite s m (Reg.LSM_STICKY n.toNat) ∧ s.mode = .commissioning ∧ s.vigil.sticky &&& flagsOf n.toNat ones ≠ 0) ∧
    (∃ (s : State), ∃ (m : Master), ∃ (n : BitVec 2), Quiet s ∧ MayWrite s m (Reg.LSM_STICKY n.toNat) ∧ s.mode ≠ .commissioning) ∧
    (∃ (s : State), ∃ (m : Master), ∃ (n : BitVec 2), ∃ (hi : Bool), ∃ (v : Word), ∃ (j : Nat), Quiet s ∧ MayWrite s m (Reg.LSM_CLASS n.toNat + if hi then 4 else 0) ∧ (s.mode = .running ∨ s.mode = .commissioning) ∧ sstCount s (10 + n.toNat) < 100000 ∧ j < 16 ∧ 32 * n.toNat + (if hi then 16 else 0) + j < 108 ∧ classOf s (32 * n.toNat + (if hi then 16 else 0) + j) < bitsOf v (2 * j) 2 ∧ (∀ k, k < 16 → k ≠ j → bitsOf v (2 * k) 2 = classOf s (32 * n.toNat + (if hi then 16 else 0) + k))) ∧
    (∃ (s : State), ∃ (m : Master), ∃ (n : BitVec 2), ∃ (hi : Bool), Quiet s ∧ MayWrite s m (Reg.LSM_CLASS n.toNat + if hi then 4 else 0) ∧ s.mode ≠ .running ∧ s.mode ≠ .commissioning) ∧
    (∃ (s : State), ∃ (m : Master), ∃ (src : BitVec 7), Quiet s ∧ MayWrite s m Reg.LSM_TEST ∧ testMode s = true ∧ s.vigil.testing = none ∧ BitVec.toNat src ≤ 100) ∧
    (∃ (s : State), Quiet s ∧ s.vigil.testing ≠ none) :=
  ⟨⟨{ wide c0 with vigil := { c0.vigil with active := 0x1, sticky := 0x7 } }, 4, 0, 0x3, by
      try unfold MayWrite
      try unfold Quiet
      decide +kernel⟩,
   ⟨wide r0, 4, 0, by
      try unfold MayWrite
      try unfold Quiet
      decide +kernel⟩,
   ⟨wide r0, 4, 2, false, 0xAAA54555, 11, by
      try unfold MayWrite
      try unfold Quiet
      decide +kernel⟩,
   ⟨wide m0, 4, 2, false, by
      try unfold MayWrite
      try unfold Quiet
      decide +kernel⟩,
   ⟨wide r0, 4, 70, by
      try unfold MayWrite
      try unfold Quiet
      decide +kernel⟩,
   ⟨{ r0 with vigil := { r0.vigil with testing := some (5, true) } }, by
      try unfold Quiet
      decide +kernel⟩⟩

/-- Witnesses for the hypotheses of `LinesideUnit` (its part `ReleaseOfCaution`), clause by clause. -/
theorem witness_ReleaseOfCaution :
    (∃ (s : State), Quiet s ∧ MayWrite s 4 Reg.LSM_RELEASE ∧ s.mode = .caution) ∧
    (∃ (s : State), ∃ (m : Master), ∃ (c : Instr), Quiet s ∧ MayWrite s m Reg.LSM_RELEASE ∧ m ≠ 4 ∧ c ∈ [Instr.releaseArm m, .releaseCommit m]) ∧
    (∃ (s : State), Quiet s ∧ MayWrite s 4 Reg.LSM_RELEASE ∧ commitReason s = 0) ∧
    (∃ (s : State), Quiet s ∧ MayWrite s 4 Reg.LSM_RELEASE ∧ commitReason s ≠ 0) ∧
    (∃ (s : State), ∃ (m : Master), Quiet s ∧ MayWrite s m Reg.LSM_RELEASE) ∧
    (∃ (s : State), 1 ≤ releaseState s ∧ s.vigil.armTtc.toNat + 120 * second ≤ s.ttc.toNat) :=
  ⟨⟨{ setR (wide r0) Reg.LSM_RELEASE 0x70000003 with mode := .caution }, by
      try unfold MayWrite
      try unfold Quiet
      decide +kernel⟩,
   ⟨wide r0, 8, .releaseArm 8, by
      try unfold MayWrite
      try unfold Quiet
      decide +kernel⟩,
   ⟨{ setR (wide r0) Reg.LSM_RELEASE 0x00050453 with mode := .caution, ttc := 1000, vigil := { r0.vigil with held := true, armTtc := 990 } }, by
      try unfold MayWrite
      try unfold Quiet
      decide +kernel⟩,
   ⟨{ setR (wide r0) Reg.LSM_RELEASE 0x00040453 with mode := .caution, ttc := 1000, vigil := { r0.vigil with held := true, armTtc := 990 } }, by
      try unfold MayWrite
      try unfold Quiet
      decide +kernel⟩,
   ⟨setR (wide r0) Reg.LSM_RELEASE 0x00040453, 8, by
      try unfold MayWrite
      try unfold Quiet
      decide +kernel⟩,
   ⟨{ setR (wide r0) Reg.LSM_RELEASE 0x00040453 with ttc := 12000000000 }, by
      decide +kernel⟩⟩

/-- Witnesses for the hypotheses of `LookoutRadio` (its part `LookoutCommands`), clause by clause. -/
theorem witness_LookoutCommands :
    (∃ (s : State), ∃ (m : Master), ∃ (g : Byte), LkoReady s m ∧ inRound s = false ∧ RfReady s ∧ g.toNat ≤ 128) ∧
    (∃ (s : State), ∃ (m : Master), LkoReady s m ∧ inRound s = false ∧ (lookoutMode s = false ∨ regionReady s = false)) ∧
    (∃ (s : State), ∃ (m : Master), LkoReady s m ∧ inRound s = false ∧ lookoutMode s = true ∧ regionReady s = true ∧ s.power.tier < 2) ∧
    (∃ (s : State), ∃ (m : Master), ∃ (g : Byte), LkoReady s m ∧ s.lko.inv = none ∧ RfReady s ∧ 128 < g.toNat) ∧
    (∃ (s : State), ∃ (g : Byte), Quiet s ∧ s.lko.selfWait = none ∧ inRound s = false ∧ RfReady s ∧ g.toNat ≤ 128 ∧ timerRuns s = true) ∧
    (∃ (s : State), Quiet s ∧ timerRuns s = false) ∧
    (∃ (s : State), ∃ (m : Master), LkoReady s m ∧ s.lko.inv = none) ∧
    (∃ (s : State), ∃ (m : Master), ∃ (v : Inventory), LkoReady s m ∧ s.lko.inv = some v ∧ v.owner = .auto) ∧
    (∃ (s : State), ∃ (m : Master), LkoReady s m) ∧
    (∃ (s : State), ∃ (g : Byte), Quiet s ∧ pingDue s = true ∧ g.toNat ≤ 128 ∧ absDiff g.toNat (fieldR s Reg.LKO_PING 8 8) < fieldR s Reg.LKO_PING 16 8) ∧
    (∃ (s : State), ∃ (g : Byte), Quiet s ∧ pingDue s = true ∧ g.toNat ≤ 128 ∧ bitR s Reg.LKO_CFG 6 = true ∧ fieldR s Reg.LKO_PING 16 8 ≤ absDiff g.toNat (fieldR s Reg.LKO_PING 8 8)) :=
  ⟨⟨radio r0, 4, (0 : Byte), by
      try unfold LkoReady
      try unfold RfReady
      try unfold MayWrite
      try unfold Quiet
      decide +kernel⟩,
   ⟨wide r0, 4, by
      try unfold LkoReady
      try unfold MayWrite
      try unfold Quiet
      decide +kernel⟩,
   ⟨{ radio r0 with power := { r0.power with tier := 1 } }, 4, by
      try unfold LkoReady
      try unfold MayWrite
      try unfold Quiet
      decide +kernel⟩,
   ⟨radio r0, 4, (200 : Byte), by
      try unfold LkoReady
      try unfold RfReady
      try unfold MayWrite
      try unfold Quiet
      decide +kernel⟩,
   ⟨{ radio r0 with lko := { r0.lko with selfTimer := .due } }, (0 : Byte), by
      try unfold RfReady
      try unfold Quiet
      decide +kernel⟩,
   ⟨radio r0, by
      try unfold Quiet
      decide +kernel⟩,
   ⟨radio r0, 4, by
      try unfold LkoReady
      try unfold MayWrite
      try unfold Quiet
      decide +kernel⟩,
   ⟨setR (withInv (radio r0) (inv0 .auto)) Reg.LKO_AUTOBUF 0x20000000, 4, inv0 .auto, by
      try unfold LkoReady
      try unfold MayWrite
      try unfold Quiet
      decide +kernel⟩,
   ⟨setR (radio r0) Reg.LKO_PING 0x8007F, 4, by
      try unfold LkoReady
      try unfold MayWrite
      try unfold Quiet
      decide +kernel⟩,
   ⟨radio (setR (setR r0 Reg.LKO_CFG 0x1804A8) Reg.LKO_PING 0x0A1007), 0x19, by
      try unfold Quiet
      decide +kernel⟩,
   ⟨radio (setR (setR r0 Reg.LKO_CFG 0x1804E8) Reg.LKO_PING 0x0A1007), 0x1A, by
      try unfold Quiet
      decide +kernel⟩⟩

/-- Witnesses for the hypotheses of `LookoutRadio` (its part `LookoutRounds`), clause by clause. -/
theorem witness_LookoutRounds :
    (∃ (s : State), ∃ (l : BitVec 19), ∃ (pos : Nat), ∃ (f : Flight), ∃ (x : Context), ServiceAt s l.toNat pos 0x2C f x ∧ inventoryTurn s f.id = true ∧ s.lko.inv = none ∧ s.lko.selfWait = none ∧ RfReady s ∧ num f.raw 6 2 ≠ 0) ∧
    (∃ (s : State), ∃ (g : Byte), ∃ (o : SlotObs), ∃ (v : Inventory), Quiet s ∧ mainPower s = true ∧ s.lko.inv = some v ∧ (v.slot ≠ 0 ∨ g.toNat ≤ 128) ∧ badgeFirst s v = false ∧ v.slot + 1 < 2 ^ v.q ∧ (noteTag (hop s) v o).entries.length < v.maxTags) ∧
    (∃ (s : State), ∃ (v : Inventory), Quiet s ∧ s.lko.inv = some v ∧ badgeFirst s v = true) ∧
    (∃ (v : Inventory), ∃ (y : TagObs), v.seen.contains y.epc = false) ∧
    (∃ (v : Inventory), ∃ (y : TagObs), v.seen.contains y.epc = true) ∧
    (∃ (s : State), ∃ (m : Master), ∃ (g : Byte), ∃ (e : EnrolObs), LkoReady s m ∧ s.mode = .commissioning ∧ RfReady s ∧ g.toNat ≤ 128 ∧ entReady s = true ∧ EnrolObs.passwordZero e = true ∧ e.refusedAt = 0 ∧ personOk (fieldR s Reg.LKO_ARG 0 5) = true ∧ (∀ k, k < 3 → sstCount s (badgeSlot (fieldR s Reg.LKO_ARG 0 5) + k) < 100000)) ∧
    (∃ (s : State), ∃ (g : Byte), ∃ (b : BadgeObs), Quiet s ∧ g.toNat ≤ 128 ∧ badgeSearch s = true ∧ badgeReady s = true ∧ badgeTurn s = true ∧ badgeRecent s (BadgeObs.person b).toNat = false ∧ windowOpen s = true) :=
  ⟨⟨{ svc (wide r0) 0x2C 0 [(4, [2]), (6, le 2 4), (8, le 8 0x9000), (16, le 8 500)] with sst := [(8, 1)] }, 6, 0, svcFlight 0x2C 0 [(4, [2]), (6, le 2 4), (8, le 8 0x9000), (16, le 8 500)], ctxOf true, by
      try unfold ServiceAt
      try unfold WaybillAt
      try unfold RfReady
      try unfold Quiet
      decide +kernel⟩,
   ⟨withInv (radio r0) (inv0 .auto), 3, .tag tag1, inv0 .auto, by
      try unfold Quiet
      decide +kernel⟩,
   ⟨{ setR (withInv (radio r0) { inv0 (.waybill 6 3) with slot := 0 }) Reg.LSM_RELEASE 0x1 with vigil := { r0.vigil with armTtc := 990 } }, { inv0 (.waybill 6 3) with slot := 0 }, by
      try unfold Quiet
      decide +kernel⟩,
   ⟨inv0 .auto, tag1, by
      decide +kernel⟩,
   ⟨{ inv0 .auto with seen := [zeros 12] }, tag1, by
      decide +kernel⟩,
   ⟨{ setR (wide c0) Reg.LKO_ARG 3 with sst := [(8, 1)] }, 4, (0 : Byte), { rn := 0x1111, tid := zeros 12, passwordZero := true, refusedAt := 0 }, by
      try unfold LkoReady
      try unfold RfReady
      try unfold MayWrite
      try unfold Quiet
      decide +kernel⟩,
   ⟨{ setR (radio r0) Reg.LSM_RELEASE 0x12 with vigil := { r0.vigil with armTtc := 990 } }, (0 : Byte), badge1, by
      try unfold Quiet
      decide +kernel⟩⟩

/-- Witnesses for the hypotheses of `TagInventory`, clause by clause. -/
theorem witness_TagInventory :
    (∃ (s : State), ∃ (target : BitVec 3), ∃ (bank : BitVec 2), Hears s ∧ bank ≠ 0 ∧ target.toNat ≤ 4) ∧
    (∃ (s : State), ∃ (pointer : Nat), ∃ (bits : List Bool), Hears s ∧ 0x20 ≤ pointer + List.length bits ∧ pointer + bits.length ≤ 0xA0) ∧
    (∃ (s : State), ∃ (target : BitVec 3), ∃ (bank : BitVec 2), ∃ (pointer : Nat), ∃ (bits : List Bool), Hears s ∧ (bank = 0 ∨ 4 < target.toNat ∨ target ≠ 4 ∨ bank ≠ 1 ∨ pointer + List.length bits < 0x20 ∨ 0xA0 < pointer + bits.length)) ∧
    (∃ (s : State), ∃ (sel : BitVec 2), ∃ (session : BitVec 2), ∃ (target : Bool), Hears s ∧ s.tail.state = .ready ∧ takesPart s.tail (BitVec.toNat sel) (BitVec.toNat session) target = true) ∧
    (∃ (s : State), ∃ (sel : BitVec 2), ∃ (session : BitVec 2), ∃ (target : Bool), Hears s ∧ s.tail.state = .ready ∧ takesPart s.tail (BitVec.toNat sel) (BitVec.toNat session) target = false) ∧
    (∃ (s : State), Hears s ∧ s.tail.state = .arbitrate ∧ s.tail.slot = 1) ∧
    (∃ (s : State), Hears s ∧ s.tail.state = .arbitrate ∧ 2 ≤ s.tail.slot) ∧
    (∃ (s : State), Hears s ∧ singulated s.tail = true) ∧
    (∃ (s : State), ∃ (updn : BitVec 3), ∃ (q : Nat), Hears s ∧ s.tail.state = .arbitrate ∧ adjustQ s.tail.q updn = some q) ∧
    (∃ (s : State), Hears s ∧ s.tail.state = .reply ∧ (s.tail.truncated = none ∨ s.tail.bySl = false)) ∧
    (∃ (s : State), ∃ (n : Nat), Hears s ∧ s.tail.state = .reply ∧ s.tail.truncated = some n ∧ s.tail.bySl = true) ∧
    (∃ (s : State), ∃ (rn : BitVec 16), Hears s ∧ s.tail.state = .reply ∧ rn ≠ s.tail.rn) ∧
    (∃ (s : State), Hears s ∧ s.tail.state ≠ .ready) ∧
    (∃ (s : State), s.tail.field = false) :=
  ⟨⟨tagIn r0 .arbitrate, 2, 1, by
      try unfold Hears
      decide +kernel⟩,
   ⟨tagIn r0 .ready, 0x20, [false, true], by
      try unfold Hears
      decide +kernel⟩,
   ⟨tagIn r0 .ready, 2, 1, 0x20, [false, true], by
      try unfold Hears
      decide +kernel⟩,
   ⟨tagIn r0 .ready, 0, 2, false, by
      try unfold Hears
      decide +kernel⟩,
   ⟨tagIn r0 .ready, 3, 2, false, by
      try unfold Hears
      decide +kernel⟩,
   ⟨{ tagIn r0 .arbitrate with tail := { (tagIn r0 .arbitrate).tail with slot := 1 } }, by
      try unfold Hears
      decide +kernel⟩,
   ⟨tagIn r0 .arbitrate, by
      try unfold Hears
      decide +kernel⟩,
   ⟨tagIn r0 .acknowledged, by
      try unfold Hears
      decide +kernel⟩,
   ⟨tagIn r0 .arbitrate, 6, 5, by
      try unfold Hears
      decide +kernel⟩,
   ⟨tagIn r0 .reply, by
      try unfold Hears
      decide +kernel⟩,
   ⟨(let s := tagIn r0 .reply; { s with tail := { s.tail with truncated := some 0x40, bySl := true } }), 0x40, by
      try unfold Hears
      decide +kernel⟩,
   ⟨tagIn r0 .reply, 0x1111, by
      try unfold Hears
      decide +kernel⟩,
   ⟨tagIn r0 .opened, by
      try unfold Hears
      decide +kernel⟩,
   ⟨{ r0 with tail := { r0.tail with inventoried := 0xF, sl := true } }, by
      decide +kernel⟩⟩

/-- Witnesses for the hypotheses of `TagFace` (its part `TagAccess`), clause by clause. -/
theorem witness_TagAccess :
    (∃ (s : State), Hears s ∧ s.tail.state = .acknowledged) ∧
    (∃ (s : State), ∃ (rn : BitVec 16), Handled s rn) ∧
    (∃ (s : State), ∃ (rn : BitVec 16), ∃ (bank : BitVec 2), ∃ (word : Nat), ∃ (count : Nat), Handled s rn ∧ bank ≠ 0 ∧ count ≠ 0 ∧ 2 * (word + count) ≤ (tagBank s bank.toNat).length) ∧
    (∃ (s : State), ∃ (rn : BitVec 16), ∃ (bank : BitVec 2), ∃ (word : Nat), ∃ (count : Nat), Handled s rn ∧ ((tagBank s bank.toNat).length < 2 * (word + count) ∨ (tagBank s bank.toNat).length ≤ 2 * word)) ∧
    (∃ (s : State), ∃ (rn : BitVec 16), ∃ (word : Nat), Handled s rn ∧ LabelWrite s word 1 ∧ mainPower s = true) ∧
    (∃ (s : State), ∃ (rn : BitVec 16), ∃ (word : Nat), ∃ (v : List (BitVec 16)), Handled s rn ∧ LabelWrite s word (List.length v) ∧ 1 ≤ v.length ∧ v.length ≤ 16 ∧ mainPower s = true) ∧
    (∃ (s : State), ∃ (rn : BitVec 16), ∃ (word : Nat), Handled s rn ∧ LabelWrite s word 1) ∧
    (∃ (s : State), ∃ (rn : BitVec 16), ∃ (word : Nat), Handled s rn ∧ LabelWrite s word 1 ∧ mainPower s = true) ∧
    (∃ (s : State), ∃ (rn : BitVec 16), ∃ (word : Nat), Handled s rn ∧ word < 0x30 ∧ 2 * (word + 1) ≤ (tagBank s 3).length) ∧
    (∃ (s : State), ∃ (rn : BitVec 16), Handled s rn) ∧
    (∃ (s : State), ∃ (rn : BitVec 16), Handled s rn) ∧
    (∃ (s : State), ∃ (rn : BitVec 16), Handled s rn) ∧
    (∃ (s : State), ∃ (rn : BitVec 16), Handled s rn) :=
  ⟨⟨tagIn r0 .acknowledged, by
      try unfold Hears
      decide +kernel⟩,
   ⟨tagIn r0 .opened, 0x4321, by
      try unfold Handled
      try unfold Hears
      decide +kernel⟩,
   ⟨tagIn r0 .secured, 0x4321, 1, 2, 3, by
      try unfold Handled
      try unfold Hears
      decide +kernel⟩,
   ⟨tagIn r0 .secured, 0x4321, 3, 0x30, 17, by
      try unfold Handled
      try unfold Hears
      decide +kernel⟩,
   ⟨tagIn r0 .secured, 0x4321, 0x30, by
      try unfold Handled
      try unfold Hears
      try unfold LabelWrite
      decide +kernel⟩,
   ⟨tagIn r0 .opened, 0x4321, 0x31, [1, 0x203, 5], by
      try unfold Handled
      try unfold Hears
      try unfold LabelWrite
      decide +kernel⟩,
   ⟨tagIn r0 .opened, 0x4321, 0x31, by
      try unfold Handled
      try unfold Hears
      try unfold LabelWrite
      decide +kernel⟩,
   ⟨tagIn r0 .opened, 0x4321, 0x31, by
      try unfold Handled
      try unfold Hears
      try unfold LabelWrite
      decide +kernel⟩,
   ⟨tagIn r0 .opened, 0x4321, 0x2F, by
      try unfold Handled
      try unfold Hears
      decide +kernel⟩,
   ⟨tagIn r0 .opened, 0x4321, by
      try unfold Handled
      try unfold Hears
      decide +kernel⟩,
   ⟨tagIn r0 .opened, 0x4321, by
      try unfold Handled
      try unfold Hears
      decide +kernel⟩,
   ⟨tagIn r0 .opened, 0x4321, by
      try unfold Handled
      try unfold Hears
      decide +kernel⟩,
   ⟨tagIn stabled .opened, 0x4321, by
      try unfold Handled
      try unfold Hears
      decide +kernel⟩⟩

/-- Witnesses for the hypotheses of `TagFace` (its part `TailUpdates`), clause by clause. -/
theorem witness_TailUpdates :
    (∃ (s : State), ∃ (m : Master), Quiet s ∧ MayWrite s m Reg.TLP_CTRL) ∧
    (∃ (s : State), s.tail.updating = true ∧ mainPower s = true ∧ s.tail.wear0 < 99999 ∧ s.tail.wear1 < 99999) ∧
    (∃ (s : State), s.tail.updating = true ∧ mainPower s = true ∧ s.tail.retry = false ∧ s.tail.wear0 < 99999 ∧ s.tail.wear1 < 99999) ∧
    (∃ (s : State), s.tail.updating = true ∧ mainPower s = true ∧ s.tail.retry = true) :=
  ⟨⟨wide r0, 4, by
      try unfold MayWrite
      try unfold Quiet
      decide +kernel⟩,
   ⟨{ r0 with tail := { r0.tail with updating := true, retry := true } }, by
      decide +kernel⟩,
   ⟨{ r0 with tail := { r0.tail with updating := true } }, by
      decide +kernel⟩,
   ⟨{ r0 with tail := { r0.tail with updating := true, retry := true, wear0 := 200000, wear1 := 200000 } }, by
      decide +kernel⟩⟩

/-- Witnesses for the hypotheses of `PowerDelivery`, clause by clause. -/
theorem witness_PowerDelivery :
    (∃ (s : State), ∃ (l : List Pdo), ∃ (es : Bool), ∃ (ec : Bool), ∃ (a : Ask), selectPdo s l es ec = some a ∧ PowerSteady s (a.mv * a.ma / 1000)) ∧
    (∃ (s : State), ∃ (a : Ask), s.power.pdos ≠ [] ∧ selectPdo s s.power.pdos s.power.eprSource s.power.eprCable = some a ∧ PowerSteady s (a.mv * a.ma / 1000)) ∧
    (∃ (s : State), Quiet s ∧ mainPower s = true ∧ s.power.pdos = [] ∧ s.mode = .shed ∧ s.booted = true ∧ s.flash.monitor = false ∧ s.power.tier = 0 ∧ s.hlk.up = false) ∧
    (∃ (s : State), ∃ (k : Nat), Quiet s ∧ mainPower s = true ∧ s.power.tierPending = some k ∧ k = tierFor s s.power.contractMw ∧ k ≠ s.power.tier ∧ SealsWhole s) ∧
    (∃ (s : State), ∃ (c : Instr), mainPower s = true ∧ c ∈ [Instr.prSwap, .drSwap, .vconnSwap]) ∧
    (∃ (s : State), mainPower s = true) :=
  ⟨⟨r0, [spr 5000 3000, spr 20000 3000, spr 9000 3000], false, false, { mv := 20000, ma := 3000, epr := false, mismatch := false }, by
      try unfold PowerSteady
      try unfold Quiet
      decide +kernel⟩,
   ⟨{ r0 with power := { r0.power with pdos := [spr 5000 3000, spr 20000 3000] } }, { mv := 20000, ma := 3000, epr := false, mismatch := false }, by
      try unfold PowerSteady
      try unfold Quiet
      decide +kernel⟩,
   ⟨{ cold with booted := true, power := { cold.power with tier := 0 } }, by
      try unfold Quiet
      decide +kernel⟩,
   ⟨{ r0 with power := { r0.power with contractMw := 45000, tier := 1, tierPending := some 2 } }, 2, by
      try unfold SealsWhole
      try unfold Quiet
      decide +kernel⟩,
   ⟨r0, .prSwap, by
      decide +kernel⟩,
   ⟨r0, by
      decide +kernel⟩⟩

/-- Witnesses for the hypotheses of `HoldUpAndPowerLoss` (its part `HoldUp`), clause by clause. -/
theorem witness_HoldUp :
    (∃ (s : State), ∃ (mv : BitVec 16), Quiet s ∧ mainPower s = true ∧ s.power.sag = false ∧ outsideWindow s (BitVec.toNat mv) = true) ∧
    (∃ (s : State), Quiet s ∧ mainPower s = true ∧ s.power.sag = true ∧ s.power.lastGasp = false) ∧
    (∃ (s : State), Quiet s ∧ mainPower s = true ∧ 15000 ≤ s.power.contractMw ∧ s.power.sag = false ∧ s.awaiting = none) ∧
    (∃ (s : State), ∃ (c : Instr), ∃ (k : Nat), Quiet s ∧ SealsWhole s ∧ mainPower s = true ∧ s.power.lastGasp = false ∧ sealing s = false ∧ s.power.sag = true ∧ s.descQueue = [] ∧ (c, k) ∈ [(Instr.lastGaspSeal, 1), (.bankLow, 2), (.hardReset, 3)]) ∧
    (∃ (s : State), Quiet s ∧ mainPower s = true ∧ s.power.lastGasp = true ∧ resetFault s = false) ∧
    (∃ (s : State), Quiet s ∧ mainPower s = true ∧ s.power.lastGasp = true ∧ cellHolds s = true) ∧
    (∃ (s : State), ∃ (temp : BitVec 12), Quiet s ∧ SealsWhole s ∧ mainPower s = true ∧ s.power.thermal = false ∧ 840 ≤ BitVec.toInt temp) ∧
    (∃ (s : State), ∃ (temp : BitVec 12), Quiet s ∧ SealsWhole s ∧ mainPower s = true ∧ s.power.thermal = true ∧ s.power.tierPending = none ∧ BitVec.toInt temp ≤ 760) :=
  ⟨⟨r0, 4000, by
      try unfold Quiet
      decide +kernel⟩,
   ⟨{ r0 with power := { r0.power with sag := true, vbus := false } }, by
      try unfold Quiet
      decide +kernel⟩,
   ⟨r0, by
      try unfold Quiet
      decide +kernel⟩,
   ⟨{ m0 with power := { m0.power with sag := true } }, .lastGaspSeal, 1, by
      try unfold SealsWhole
      try unfold Quiet
      decide +kernel⟩,
   ⟨{ m0 with power := { m0.power with sag := true, lastGasp := true, trigger := 2, deferred := 2 }, mem := [(3, 1)] }, by
      try unfold Quiet
      decide +kernel⟩,
   ⟨{ r0 with power := { m0.power with lastGasp := true, trigger := 1, lgStored := true }, mem := [(3, 1)] }, by
      try unfold Quiet
      decide +kernel⟩,
   ⟨r0, 840, by
      try unfold SealsWhole
      try unfold Quiet
      decide +kernel⟩,
   ⟨{ r0 with power := { r0.power with thermal := true, tier := 1 } }, 760, by
      try unfold SealsWhole
      try unfold Quiet
      decide +kernel⟩⟩

/-- Witnesses for the hypotheses of `HoldUpAndPowerLoss` (its part `PowerComesAndGoes`), clause by clause. -/
theorem witness_PowerComesAndGoes :
    (∃ (s : State), ∃ (mv : BitVec 12), mainPower s = true ∧ BitVec.toNat mv < 2600) ∧
    (∃ (s : State), s.mode = .stabled) ∧
    (∃ (s : State), mainPower s = false ∧ s.vigil.canaryLost = false ∧ resetFault s = false ∧ privateBad s .count = false) ∧
    (∃ (s : State), mainPower s = true ∧ cellHolds s = true) ∧
    (∃ (s : State), mainPower s = true ∧ cellHolds s = false) :=
  ⟨⟨r0, 2500, by
      decide +kernel⟩,
   ⟨stabled, by
      decide +kernel⟩,
   ⟨stabled, by
      decide +kernel⟩,
   ⟨keyed r0, by
      decide +kernel⟩,
   ⟨keyed (setR r0 Reg.PWR_CELL 1900), by
      decide +kernel⟩⟩

/-- Witnesses for the hypotheses of `BootChain`, clause by clause. -/
theorem witness_BootChain :
    (∃ (s : State), Quiet s ∧ SealsWhole s ∧ s.mode = .shed ∧ s.coresRun = false ∧ s.fusesOk = true ∧ dieRuns s = true ∧ bootRec? s = none) ∧
    (∃ (s : State), Quiet s ∧ SealsWhole s ∧ s.mode = .shed ∧ s.coresRun = false ∧ s.fusesOk = true ∧ dieRuns s = true ∧ fieldR s Reg.DMN_CAUSE 10 3 = 4) ∧
    (∃ (s : State), ∃ (r : BootRec), Quiet s ∧ SealsWhole s ∧ s.mode = .shed ∧ s.coresRun = false ∧ s.fusesOk = true ∧ dieRuns s = true ∧ (∀ e ∈ s.flash.blocks, e.2.suspect = false) ∧ fieldR s Reg.DMN_CAUSE 10 3 ≠ 4 ∧ bootRec? s = some r) ∧
    (∃ (s : State), s.flash.monitor = false ∧ s.flash.recoveryImage = false) :=
  ⟨⟨cold, by
      try unfold SealsWhole
      try unfold Quiet
      decide +kernel⟩,
   ⟨withRecord (setR cold Reg.DMN_CAUSE 0x1000) bootRec1, by
      try unfold SealsWhole
      try unfold Quiet
      decide +kernel⟩,
   ⟨withRecord cold bootRec1, bootRec1, by
      try unfold SealsWhole
      try unfold Quiet
      decide +kernel⟩,
   ⟨booting cold .valid, by
      decide +kernel⟩⟩

/-- Witnesses for the hypotheses of `ModeChanges`, clause by clause. -/
theorem witness_ModeChanges :
    (∃ (s : State), ∃ (m : Mode), Quiet s ∧ SealsWhole s ∧ s.tableBuilt = true ∧ s.mode = .shed ∧ s.coresRun = true ∧ s.flash.monitor = false ∧ s.fusesOk = true ∧ s.vigil.cellTrips = [] ∧ s.vigil.pendReset = false ∧ s.vigil.pendCaution = false ∧ bootTarget s = m ∧ m ≠ .shed ∧ mustWait s m = false ∧ unfenced s ≠ []) ∧
    (∃ (s : State), ∃ (m : Mode), Quiet s ∧ s.tableBuilt = true ∧ s.mode = .shed ∧ s.coresRun = true ∧ s.flash.monitor = false ∧ s.fusesOk = true ∧ s.vigil.cellTrips = [] ∧ s.vigil.pendReset = false ∧ s.vigil.pendCaution = false ∧ bootTarget s = m ∧ m ≠ .shed ∧ mustWait s m = true) ∧
    (∃ (s : State), Quiet s ∧ SealsWhole s ∧ MayWrite s 4 Reg.SYS_MODEREQ ∧ (s.mode = .commissioning ∨ s.mode = .condemned) ∧ s.power.lastGasp = false ∧ s.flash.monitor = false ∧ 15000 ≤ s.power.contractMw) ∧
    (∃ (s : State), Quiet s ∧ MayWrite s 4 Reg.SYS_MODEREQ ∧ (s.mode = .maintenance ∨ s.mode = .condemned) ∧ s.power.lastGasp = false ∧ s.flash.monitor = false ∧ powerCond s = 0 ∧ bitR s Reg.ENT_STATUS 0 = true) ∧
    (∃ (s : State), Quiet s ∧ MayWrite s 4 Reg.SYS_MODEREQ ∧ (s.mode = .maintenance ∨ s.mode = .commissioning) ∧ s.power.lastGasp = false ∧ s.flash.monitor = false ∧ runningCond s = 0) ∧
    (∃ (s : State), ∃ (m : Master), ∃ (c : Instr), ∃ (key : Bytes), ∃ (sig : Bytes), Quiet s ∧ MayWrite s m Reg.SYS_MODEREQ ∧ m ≠ 4 ∧ c ∈ [Instr.modereqMaintenance m, .modereqCommissioning m key sig, .modereqRunning m]) ∧
    (∃ (s : State), Quiet s ∧ MayWrite s 4 Reg.SYS_MODEREQ ∧ (s.mode = .maintenance ∨ s.mode = .commissioning) ∧ s.power.lastGasp = false ∧ s.flash.monitor = false ∧ s.vigil.trunk ≠ .valid) :=
  ⟨⟨booting cold .valid, .running, by
      try unfold SealsWhole
      try unfold Quiet
      decide +kernel⟩,
   ⟨booting { cold with power := { cold.power with bankMv := 17000 } } .valid, .running, by
      try unfold Quiet
      decide +kernel⟩,
   ⟨{ wide m0 with mode := .condemned }, by
      try unfold SealsWhole
      try unfold MayWrite
      try unfold Quiet
      decide +kernel⟩,
   ⟨setR (wide m0) Reg.ENT_STATUS 1, by
      try unfold MayWrite
      try unfold Quiet
      decide +kernel⟩,
   ⟨{ booting (wide m0) .valid with mode := .commissioning }, by
      try unfold MayWrite
      try unfold Quiet
      decide +kernel⟩,
   ⟨wide r0, 8, .modereqMaintenance 8, [], [], by
      try unfold MayWrite
      try unfold Quiet
      decide +kernel⟩,
   ⟨wide m0, by
      try unfold MayWrite
      try unfold Quiet
      decide +kernel⟩⟩

/-- Witnesses for the hypotheses of `DeadmanAndImages`, clause by clause. -/
theorem witness_DeadmanAndImages :
    (∃ (s : State), ∃ (m : Master), Quiet s ∧ MayRead s m Reg.SYS_NONCE ∧ entReady s = true) ∧
    (∃ (s : State), Quiet s ∧ MayWrite s 4 Reg.DMN_BOOT ∧ s.coresRun = true ∧ s.flash.monitor = false ∧ s.flash.deadDies = 0 ∧ slotState (bootRec s) s.flash.running = 3 ∧ sstCount s 18 < 100000) ∧
    (∃ (s : State), ∃ (m : Master), ∃ (n : BitVec 2), Quiet s ∧ MayWrite s m (Reg.DMN_KICK n.toNat) ∧ (m.toNat = 3 + 4 * n.toNat ∨ m.toNat = 4 + 4 * n.toNat) ∧ deadmanOn s n.toNat = true ∧ (coreAt s n.toNat).stopped = false ∧ (deadmanAt s n.toNat).armed = false) ∧
    (∃ (s : State), ∃ (m : Master), ∃ (n : BitVec 2), Quiet s ∧ MayWrite s m (Reg.DMN_KICK n.toNat) ∧ (m.toNat = 3 + 4 * n.toNat ∨ m.toNat = 4 + 4 * n.toNat) ∧ deadmanOn s n.toNat = true ∧ (coreAt s n.toNat).stopped = false ∧ (deadmanAt s n.toNat).armed = true) ∧
    (∃ (s : State), ∃ (m : Master), ∃ (n : BitVec 2), ∃ (v : Word), Quiet s ∧ MayWrite s m (Reg.DMN_KICK n.toNat) ∧ (m.toNat = 3 + 4 * n.toNat ∨ m.toNat = 4 + 4 * n.toNat) ∧ deadmanOn s n.toNat = true ∧ (coreAt s n.toNat).stopped = false ∧ s.power.lastGasp = false ∧ resetFault s = false ∧ v ≠ 0x5A5A ∧ v ≠ 0xA5A5) ∧
    (∃ (s : State), ∃ (m : Master), ∃ (n : BitVec 2), Quiet s ∧ MayWrite s m (Reg.DMN_KICK n.toNat) ∧ (coreAt s n.toNat).stopped = true) ∧
    (∃ (s : State), ∃ (n : BitVec 2), mainPower s = true ∧ deadmanOn s n.toNat = true ∧ prewarnPart s n.toNat ≠ 0 ∧ (deadmanAt s n.toNat).left * prewarnPart s n.toNat ≤ fieldR s (Reg.DMN_CTRL n.toNat) 0 16) ∧
    (∃ (s : State), ∃ (n : BitVec 2), Quiet s ∧ mainPower s = true ∧ deadmanOn s n.toNat = true ∧ (deadmanAt s n.toNat).left = 0 ∧ s.power.lastGasp = false ∧ resetFault s = false) :=
  ⟨⟨wide (keyed r0), 4, by
      try unfold MayRead
      try unfold Quiet
      decide +kernel⟩,
   ⟨{ withRecord (wide r0) bootRec1 with flash := { (withRecord (wide r0) bootRec1).flash with running := true } }, by
      try unfold MayWrite
      try unfold Quiet
      decide +kernel⟩,
   ⟨setR (wide r0) (Reg.DMN_CTRL 2) 0x107D0, 11, 2, by
      try unfold MayWrite
      try unfold Quiet
      decide +kernel⟩,
   ⟨{ setR (wide r0) (Reg.DMN_CTRL 2) 0x107D0 with deadmen := r0.deadmen.setIfInBounds 2 { left := 5, armed := true } }, 12, 2, by
      try unfold MayWrite
      try unfold Quiet
      decide +kernel⟩,
   ⟨setR (wide r0) (Reg.DMN_CTRL 2) 0x107D0, 11, 2, 7, by
      try unfold MayWrite
      try unfold Quiet
      decide +kernel⟩,
   ⟨setCore (wide r0) 1 { coreAt (wide r0) 1 with stopped := true }, 8, 1, by
      try unfold MayWrite
      try unfold Quiet
      decide +kernel⟩,
   ⟨{ setR (wide r0) (Reg.DMN_CTRL 2) 0x507D0 with deadmen := r0.deadmen.setIfInBounds 2 { left := 1000, armed := true } }, 2, by
      decide +kernel⟩,
   ⟨setR (wide r0) (Reg.DMN_CTRL 2) 0x107D0, 2, by
      try unfold Quiet
      decide +kernel⟩⟩

/-- Witnesses for the hypotheses of `StepRunsFront`, clause by clause. -/
theorem witness_StepRunsFront :
    (∃ (s : State), ∃ (c : Instr), ∃ (rest : List Instr), s.pending = c :: rest) ∧
    (∃ (s : State), s.pending = []) ∧
    (∃ (s : State), mainPower s = true ∧ s.vigil.forced = []) ∧
    (∃ (s : State), ∃ (p : Nat), mainPower s = true ∧ (s.ttc.toNat + 1) % 10 = 0 ∧ s.vigil.testing = none ∧ s.vigil.active.getLsbD (p / 2) = false ∧ p ∈ fenceWrong { s with vigil := { s.vigil with fence := s.vigil.fence.map fenceNext } }) ∧
    (∃ (s : State), s.mode = .stabled ∧ s.vigil.forced = []) ∧
    (∃ (s : State), s.mode = .dark) :=
  ⟨⟨{ r0 with pending := [.hotReset] }, .hotReset, [], by
      decide +kernel⟩,
   ⟨r0, by
      decide +kernel⟩,
   ⟨r0, by
      decide +kernel⟩,
   ⟨{ r0 with ttc := 999, vigil := { r0.vigil with fence := List.replicate 64 1, forced := [(7, (some true, none))] } }, 7, by
      decide +kernel⟩,
   ⟨stabled, by
      decide +kernel⟩,
   ⟨{ r0 with mode := .dark }, by
      decide +kernel⟩⟩

/-- Witnesses for the hypotheses of `MemoryFormKept`, clause by clause. -/
theorem witness_MemoryFormKept :
    ∃ (s : State), ∃ (t : State), Memory.wf s.mem = true ∧ step s = .next t :=
  ⟨{ r0 with mem := [(sram, 5), (sram + 9, 1)] }, idleTick { r0 with mem := [(sram, 5), (sram + 9, 1)] }, by
      decide +kernel, rfl⟩

/-- Witnesses for the hypotheses of `RegisterFileKept`, clause by clause. -/
theorem witness_RegisterFileKept :
    ∃ (s : State), ∃ (t : State), CoresOk s ∧ step s = .next t :=
  ⟨core1, idleTick core1, by unfold CoresOk World.ok; decide +kernel, rfl⟩

/-- Witnesses for the hypotheses of `QuietKept`, clause by clause. -/
theorem witness_QuietKept :
    ∃ (s : State), ∃ (t : State), Quiet s ∧ step s = .next t :=
  ⟨r0, idleTick r0, by
      try unfold Quiet
      decide +kernel, rfl⟩

/-- Witnesses for the hypotheses of `TtcNeverSetBack`, clause by clause. -/
theorem witness_TtcNeverSetBack :
    ∃ (s : State), ∃ (t : State), mainPower s = true ∧ mainPower t = true ∧ s.ttc ≠ BitVec.allOnes 64 ∧ step s = .next t :=
  ⟨r0, idleTick r0, by
      decide +kernel, by
      decide +kernel, by
      decide +kernel, rfl⟩

/-- Witnesses for the hypotheses of `HeldUntilReleased`, clause by clause. -/
theorem witness_HeldUntilReleased :
    ∃ (s : State), ∃ (t : State), s.vigil.held = true ∧ privateBad s .held = false ∧ step s = .next t :=
  ⟨heldState, idleTick heldState, by
      decide +kernel, by
      decide +kernel, rfl⟩

/-- Witnesses for the hypotheses of `ResetState`, clause by clause. -/
theorem witness_ResetState :
    ∃ (n : Nat), n < 4 :=
  ⟨3, by
      decide +kernel⟩

/-- Witnesses for the hypotheses of `MemoryLaws`, clause by clause. -/
theorem witness_MemoryLaws :
    (∃ (a : Nat), ∃ (b : Bytes), ∃ (x : Nat), (x < a ∨ a + b.length ≤ x)) ∧
    (∃ (s : State), Memory.wf s.mem = true) ∧
    (∃ (m : List Host.Cell), ∃ (m' : List Host.Cell), Memory.wf m = true ∧ Memory.wf m' = true ∧ (∀ x, mget (0 : Byte) m x = mget 0 m' x)) :=
  ⟨⟨sram, [1, 2], sram + 2, by
      decide +kernel⟩,
   ⟨{ r0 with mem := [(sram, 5)] }, by
      decide +kernel⟩,
   ⟨[(5, 1)], [(5, 1)], by
      decide +kernel, by
      decide +kernel, fun _ => rfl⟩⟩

/-- Witnesses for the hypotheses of `EventRaise`, clause by clause. -/
theorem witness_EventRaise :
    (∃ (n : Nat), ∃ (k : Nat), k < 1024 ∧ n < 1024) ∧
    (∃ (s : State), ∃ (n : Nat), (∀ v, destOf (evtRoute s n) ≠ .host v)) ∧
    (∃ (s : State), ∃ (n : Nat), ∃ (v : BitVec 11), destOf (evtRoute s n) = .host v ∧ s.hlk.up = true ∧ s.hlk.mask.getLsbD v.toNat = false) ∧
    (∃ (s : State), ∃ (n : Nat), ∃ (v : BitVec 11), destOf (evtRoute s n) = .host v ∧ (s.hlk.up = false ∨ s.hlk.mask.getLsbD v.toNat = true)) :=
  ⟨⟨1023, 0, by
      decide +kernel⟩,
   ⟨r0, 5, by
      intro v h
      have e : destOf (evtRoute r0 5) = .core 0 true := by decide +kernel
      rw [e] at h
      cases h⟩,
   ⟨r0, 16, 0, by
      decide +kernel⟩,
   ⟨{ r0 with hlk := { r0.hlk with up := false } }, 20, 0, by
      decide +kernel⟩⟩

end Sys2Proof.Tests
end

section
/-! PROOF. TAG_CONSIST, TAG_RECORDS and MARK on a produce line (R122, R125): the obligation fails. `DataAt` says nothing of the
phases of the waybills behind the one tagged, so it admits a line with a stamped waybill behind one that has ended without
work. The tagged completion lets the ended one form, the halt of R103 then takes the stamped one off its track, and the fence by
firmware that waited for it on the last unfenced track is made (R175). With every track fenced the device leaves Running (R178),
which seals the open epoch early (R204): no open epoch holds the leaf any more. -/

namespace Sys2Proof.ProduceLine

open Sys2Proof.Machine

/-! ### The counterexample -/

/-- A waybill of opcode 1 with one record, assigned to a track. -/
def consist (id : Nat) (phase : Phase) (track : BitVec 3) : Flight :=
  { id := id, raw := [0, 0, 1, 0, 1, 0, 0, 0] ++ zeros 56, phase := phase, track := track, stamp := 0, records := [],
    place := none, assigned := true, key := zeros 200, status := 0, decided := 0, gasp := false, completion := [],
    admitTtc := 0, waitFor := 0, order := id, advance := 0 }

/-- The waybill to be tagged: its key is read, its record comes with the command. -/
def tagged : Flight := consist 1 .ready 0

/-- The waybill behind it has ended with 0x0D (R169). -/
def endedBehind : Flight := { consist 2 .ended 0 with status := 0x0D }

/-- The last waybill is stamped on track 1. -/
def stampedBehind : Flight := consist 3 .stamped 1

/-- The open produce line that holds the three. -/
def crowdedLine : Line :=
  { Line.closed with state := .opened, upLog2 := 8, dnLog2 := 8, dnBase := 0x20000, resident := true,
                     flights := [tagged, endedBehind, stampedBehind] }

/-- Its context. -/
def produceContext : Context :=
  { service := false, verify := false, cls := 0, upLog2 := 8, dnLog2 := 8, vector := 0, vecEn := false, upBase := 0x10000,
    dnBase := 0x20000, parent := 9, generation := 0, sequence := 7, records := 100, lastTtc := 500, lastEpoch := 0,
    chainHead := zeros 32, openTtc := 400, openEpoch := 0 }

/-- Epoch 0, open since TTC 0. -/
def openEpoch : Epoch :=
  { number := 0, ttcStart := 0, restart := false, consists := 0, tier := 2, caution := false, changed := [], during := [],
    largestStamp := 0 }

/-- Track 0 takes its stamp, track 1 waits for its consist to be fenced, every other track is fenced. -/
def lastTracks : Vector Track 8 :=
  ((Vector.replicate 8 { Track.reset with fenced := true }).set 0 { Track.reset with enabled := true, fenced := true }).set 1
    { Track.reset with enabled := true, fencing := true }

/-- A device in Running that one more fence takes out of it. -/
def lastTrackState : State :=
  { State.reset with
    mode := .running, ttc := 1000, hlk := { HostLink.reset with up := true }, power := { Power.reset with tier := 2 },
    tracks := lastTracks,
    lne := { State.reset.lne with
      lines := [(5, crowdedLine)], contexts := [(5, produceContext)], cache := [(5, .live true false)], places := [(0, 5)] },
    su := { SealUnit.reset with open_ := some openEpoch, basePending := false } }

/-! ### What the model answers -/

/-- The open epoch of the state that a command answers. -/
def epochAfter : Out → Option Epoch
  | .next t => t.su.open_
  | _ => none

/-- The state meets every hypothesis of the first clause. -/
theorem dataAt_lastTrackState : DataAt lastTrackState (5 : BitVec 19).toNat 1 tagged produceContext := by
  unfold DataAt Quiet StampsNext Fetches
  decide +kernel

/-- The consist's stamp lies in the open epoch. -/
theorem stamp_before_boundary :
    (stampOf lastTrackState (5 : BitVec 19).toNat produceContext tagged).toNat <
      epochEnd lastTrackState openEpoch.number := by
  decide +kernel

/-- TAG_CONSIST leaves no epoch open. -/
theorem epochAfter_tagConsist : epochAfter (exec (.tagConsist 5 []) lastTrackState) = none := by
  decide +kernel

/-- A leaf posted into the open epoch needs one in the next state. -/
theorem open_ne_none_of_leafPosted {s t : State} {l : Nat} {c : Context} {tag : Bytes} {stamp : DWord} {e : Epoch}
    (h : LeafPosted s t l c tag stamp) (he : s.su.open_ = some e) (hs : stamp.toNat < epochEnd s e.number) :
    t.su.open_ ≠ none := by
  obtain ⟨d, hd, -⟩ := h e he hs
  simp [hd]

/-- Refutes O10: on `lastTrackState` the step of TAG_CONSIST ends in Maintenance with the open epoch sealed, so the leaf that the
first clause claims stands in no open epoch. -/
theorem not_produceLineTags : ¬ Obligations.ProduceLineTags := by
  unfold Obligations.ProduceLineTags
  rintro ⟨tagConsistClause, -, -⟩
  obtain ⟨t, hexec, -, hleaf, -⟩ := tagConsistClause lastTrackState 5 [] tagged produceContext dataAt_lastTrackState
  have hclosed : t.su.open_ = none := by
    have h := epochAfter_tagConsist
    rw [hexec] at h
    exact h
  exact open_ne_none_of_leafPosted hleaf rfl stamp_before_boundary hclosed

end Sys2Proof.ProduceLine
end

section
/-! PROOF. The word instructions (R360, R364, R370, R371): each is `wordOp` with the value that its row of `wordRow` names, and
an instruction that executes in a quiet state ends as `Ended` says: its fetch changes at most the cache of the code window and
the waits for the entropy source, so nothing falls due after it. -/

namespace Sys2Proof.TamemIssue

open Sys2Proof.Machine

/-! ### The worlds of a core -/

theorem curSig_modWorld (s : State) (n : Nat) (g : World → World) (h : n < 4) :
    curSig (modWorld s n g) n = curSig s n := by
  unfold curSig modWorld putWorld
  rw [coreAt_setCore_same _ _ _ h]
  unfold Core.put
  split <;> rfl

theorem curWorld_modWorld (s : State) (n : Nat) (g : World → World) (h : n < 4) :
    curWorld (modWorld s n g) n = g (curWorld s n) := by
  unfold curWorld
  rw [curSig_modWorld s n g h]
  unfold modWorld putWorld
  rw [coreAt_setCore_same _ _ _ h]
  unfold worldOf Core.put
  cases hsig : curSig s n <;> simp [curWorld, worldOf, hsig]

/-- The later of two replacements of a core's world stands. -/
theorem putWorld_putWorld (s : State) (n : Nat) (sig : Bool) (w v : World) (h : n < 4) :
    putWorld (putWorld s n sig w) n sig v = putWorld s n sig v := by
  unfold putWorld
  rw [coreAt_setCore_same _ _ _ h]
  cases sig <;> simp [setCore, Core.put]

/-- Two changes of the current world are one. -/
theorem modWorld_modWorld (s : State) (n : Nat) (g k : World → World) (h : n < 4) :
    modWorld (modWorld s n g) n k = modWorld s n (fun w => k (g w)) := by
  have hput : modWorld (modWorld s n g) n k = putWorld (modWorld s n g) n (curSig s n) (k (g (curWorld s n))) := by
    rw [modWorld, curSig_modWorld s n g h, curWorld_modWorld s n g h]
  exact hput.trans (putWorld_putWorld s n _ _ _ h)

/-! ### What leaves a state quiet -/

@[simp] theorem quiet_modWorld (s : State) (n : Nat) (g : World → World) : Quiet (modWorld s n g) ↔ Quiet s := Iff.rfl

@[simp] theorem quiet_unstall (s : State) (n : Nat) : Quiet (unstall s n) ↔ Quiet s := Iff.rfl

@[simp] theorem quiet_windowFetch (s : State) (a : Nat) : Quiet (windowFetch s a) ↔ Quiet s := Iff.rfl

/-- A word that is fetched without an exception leaves the state, or fills a line of the code window's cache (R293). -/
theorem fetchWord_state (s : State) (n : Nat) (pc : Word) (h : (fetchWord s n pc).trap = none) :
    (fetchWord s n pc).state = s ∨ ∃ a, (fetchWord s n pc).state = windowFetch s a := by
  revert h
  unfold fetchWord
  dsimp only
  split
  · nofun
  split
  · nofun
  split
  · split
    · split
      · nofun
      · exact fun _ => .inr ⟨_, rfl⟩
    · nofun
  · split
    · nofun
    · exact fun _ => .inl rfl

theorem quiet_fetchWord (s : State) (n : Nat) (pc : Word) (h : (fetchWord s n pc).trap = none) (hq : Quiet s) :
    Quiet (fetchWord s n pc).state := by
  obtain hs | ⟨a, hs⟩ := fetchWord_state s n pc h
  · rwa [hs]
  · rwa [hs, quiet_windowFetch]

theorem quiet_fetchInstr (s : State) (n size : Nat) (h : (fetchInstr s n size).trap = none) (hq : Quiet s) :
    Quiet (fetchInstr s n size).state := by
  revert h
  unfold fetchInstr
  dsimp only
  split
  · exact fun h => quiet_fetchWord _ _ _ h hq
  · next hfirst =>
    have htrap : (fetchWord s n (curWorld s n).pc).trap = none := by
      simpa using fun e => hfirst (.inl e)
    exact fun h => quiet_fetchWord _ _ _ h (quiet_fetchWord _ _ _ htrap hq)

/-- The fetch of an instruction that executes leaves a quiet state. -/
theorem quiet_of_executed {s f : State} {i : Issue} {size : Nat} (h : Executed s i size f) : Quiet f := by
  obtain ⟨⟨hquiet, -, hfetch⟩, -⟩ := h
  have hstate := quiet_fetchInstr (unstall s i.core.toNat) i.core.toNat size
  rw [hfetch] at hstate
  exact hstate rfl hquiet

/-! ### An instruction that executes -/

/-- An instruction that reads word registers only finds a seal mismatch in them only. -/
@[simp] theorem badReads_of (w : World) (l : List (BitVec 5)) : badReads w (Reads.of l) = badOperand w l := by
  simp [badReads, Reads.of]

/-- An instruction that executes, decodes to no exception and reads no seal mismatch has its own effect (R366, R367). -/
theorem issue_executed {s f : State} {i : Issue} {size : Nat} (h : Executed s i size f) (decode : State → Nat → Option Nat)
    (reads : Reads) (eff : State → Nat → Effect) (hdecode : decode f i.core.toNat = none)
    (hreads : badReads (curWorld f i.core.toNat) reads = false) :
    issue i size decode reads eff s =
      settleEffect i.core.toNat size (curWorld f i.core.toNat).shadow (eff (unshadow f i.core.toNat) i.core.toNat) := by
  obtain ⟨⟨-, hissue, hfetch⟩, hpred, hloop, hexec⟩ := h
  have hp : ¬ (i.p ≠ 0 ∧ (curWorld f i.core.toNat).badP = true) := by
    rintro ⟨hp0, hbad⟩
    obtain h0 | hgood := hpred
    · exact hp0 h0
    · simp [hgood] at hbad
  simp only [issue, hissue, hfetch, hdecode, if_neg hp, hexec, hloop, hreads]
  rfl

/-- An instruction that executes and completes with a change of its world ends with that change and with PC advanced. -/
theorem ended_of_complete (f : State) (i : Issue) (size : Nat) (shadow : Bool) (g : World → World) :
    Ended f (settleEffect i.core.toNat size shadow (.complete (modWorld (unshadow f i.core.toNat) i.core.toNat g))) i size g := by
  have hn : i.core.toNat < 4 := i.core.isLt
  simp only [Ended, settleEffect, unshadow, modWorld_modWorld _ _ _ _ hn]

theorem quiet_of_ended {f t : State} {i : Issue} {size : Nat} {g : World → World} (h : Ended f t i size g) (hf : Quiet f) :
    Quiet t := by
  rw [Ended] at h
  rwa [h, quiet_modWorld]

/-- A word operation that executes ends with its value in its register. -/
theorem wordOp_executed {s f : State} {i : Issue} {size : Nat} (h : Executed s i size f) (rd : BitVec 5)
    (reads : List (BitVec 5)) (v : World → Word) (hreads : badOperand (curWorld f i.core.toNat) reads = false) :
    ∃ t, wordOp i size rd reads v s = .next t ∧ Ended f t i size (fun w => writeW rd (v w) w) := by
  have hended := ended_of_complete f i size (curWorld f i.core.toNat).shadow (fun w => writeW rd (v w) w)
  refine ⟨_, ?_, hended⟩
  rw [wordOp, issue_executed h legal _ _ rfl (by rwa [badReads_of])]
  exact done_quiet _ (quiet_of_ended hended (quiet_of_executed h))

/-! ### The word instructions are word operations -/

/-- A shift amount that an instruction carries is below 32 (R370). -/
@[simp] theorem amount_setWidth (a : BitVec 5) : amount (a.setWidth 32) = a.toNat := by
  unfold amount
  rw [BitVec.toNat_setWidth]
  omega

/-- A shift or a rotate by an immediate amount writes its function of that amount. -/
theorem immOp_amount (i : Issue) (rd ra amt : BitVec 5) (shift : Word → Nat → Word) (s : State) :
    immOp i 4 rd ra (amt.setWidth 32) (fun a b => shift a (amount b)) s =
      wordOp i 4 rd [ra] (fun w => shift (readW w ra) amt.toNat) s := by
  simp only [immOp, amount_setWidth]

/-- An instruction with a row in the table is the word operation that the row spells. -/
theorem exec_of_wordRow {c : Instr} {i : Issue} {size : Nat} {rd : BitVec 5} {reads : List (BitVec 5)} {v : World → Word}
    (h : wordRow c = some (i, size, rd, reads, v)) (s : State) : exec c s = wordOp i size rd reads v s := by
  unfold wordRow at h
  split at h <;> cases h
  case h_23 ra amt => exact immOp_amount i rd ra amt (· <<< ·) s
  case h_24 ra amt => exact immOp_amount i rd ra amt (· >>> ·) s
  case h_25 ra amt => exact immOp_amount i rd ra amt BitVec.sshiftRight s
  case h_26 ra amt => exact immOp_amount i rd ra amt BitVec.rotateLeft s
  case h_27 ra amt => exact immOp_amount i rd ra amt BitVec.rotateRight s
  all_goals rfl

/-! ### The obligation -/

/-- A word register reads as it was last written; w0 keeps its zero (R360). -/
theorem readW_writeW (w : World) (rd : BitVec 5) (v : Word) (r : BitVec 5) :
    readW (writeW rd v w) r = if r = rd ∧ r ≠ 0 then v else readW w r := by
  split
  · next h =>
    obtain ⟨rfl, h0⟩ := h
    exact readW_writeW_same w r v h0
  · next h =>
    by_cases hr : r = rd
    · obtain rfl : r = 0 := not_not.1 fun h0 => h ⟨hr, h0⟩
      rfl
    · exact readW_writeW_other w rd r v hr

/-- Settles O31: each instruction is a word operation, which executes with its value written and PC advanced. -/
theorem wordResults : Obligations.WordResults := by
  unfold Obligations.WordResults
  refine ⟨fun c i size rd reads v hrow s f hexecuted hreads => ?_, readW_writeW, readW_zero⟩
  obtain ⟨t, hop, hended⟩ := wordOp_executed hexecuted rd reads v hreads
  exact leads_of_exec ((exec_of_wordRow hrow s).trans hop) hended

end Sys2Proof.TamemIssue
end

section
/-! PROOF. Locked routes (R421), the frame of what follows a command. Only a commit, a device reset and the loss of main power
write the table of routes. Here stands, operation by operation, what stays in all that a step does once its command is done
and in all that a read does: the routes, the cores, the writes that wait on the halting pages, and `commitRegs`. Where an
operation writes registers, `simp (disch := decide)` looks each of them up in `commitRegs`. -/

namespace Sys2Proof.LockedRoutes

open Sys2Proof.Machine

/-- The registers that decide whether one step of BCOPY commits a route after a reset in its midst: ILK_SEL, and the words behind
SYS_NONCE that such a step can still carry to ILK_CMD. -/
def commitRegs : List Nat :=
  [Reg.ILK_SEL, 0x40000038, 0x4000003C, 0x40000040, 0x40000044, 0x40000048, 0x4000004C]

/-- What a register bank holds in them. -/
def commitView (m : SMap Word) : List Word := commitRegs.map (fun a => (mget? m a).getD (regDefault a))

/-- From `s` to `t` the routes, the cores and the writes that wait on the halting pages stay. -/
@[simp] abbrev Kept (s t : State) : Prop := t.routes = s.routes ∧ t.cores = s.cores ∧ t.dbg.haltWrites = s.dbg.haltWrites

/-- From `s` to `t` the registers of `commitRegs` stay too. -/
@[simp] abbrev Still (s t : State) : Prop :=
  (t.routes = s.routes ∧ t.cores = s.cores ∧ t.dbg.haltWrites = s.dbg.haltWrites) ∧ commitView t.regs = commitView s.regs

theorem Still.refl (s : State) : Still s s := ⟨⟨rfl, rfl, rfl⟩, rfl⟩

theorem Still.trans {s t u : State} (h : Still s t) (k : Still t u) : Still s u :=
  ⟨⟨k.1.1.trans h.1.1, k.1.2.1.trans h.1.2.1, k.1.2.2.trans h.1.2.2⟩, k.2.trans h.2⟩

theorem foldl_still {α : Type} {g : State → α → State} (h : ∀ t e, Still t (g t e)) (l : List α) (s : State) :
    Still s (l.foldl g s) := by
  induction l generalizing s with
  | nil => exact Still.refl s
  | cons e r ih => exact (h s e).trans (ih (g s e))

/-! ### Writes of the register bank -/

@[simp] theorem commitView_setR (s : State) (a : Nat) (v : Word) (h : a ∉ commitRegs) :
    commitView (setR s a v).regs = commitView s.regs := by
  unfold commitView
  apply List.map_congr_left
  intro b hb
  have hne : b ≠ a := fun e => h (e ▸ hb)
  unfold setR
  dsimp only
  split
  · rw [mget?_mdel_other _ _ _ hne]
  · rw [mget?_mput_other _ _ _ _ hne]

@[simp] theorem orR_kept (s : State) (a : Nat) (v : Word) : Kept s (orR s a v) := ⟨rfl, rfl, rfl⟩
@[simp] theorem clearR_kept (s : State) (a : Nat) (v : Word) : Kept s (clearR s a v) := ⟨rfl, rfl, rfl⟩
@[simp] theorem setFieldR_kept (s : State) (a lo n v : Nat) : Kept s (setFieldR s a lo n v) := ⟨rfl, rfl, rfl⟩
@[simp] theorem setR64_kept (s : State) (a : Nat) (v : DWord) : Kept s (setR64 s a v) := ⟨rfl, rfl, rfl⟩
@[simp] theorem countR64_kept (s : State) (a n : Nat) : Kept s (countR64 s a n) := ⟨rfl, rfl, rfl⟩

@[simp] theorem commitView_orR (s : State) (a : Nat) (v : Word) (h : a ∉ commitRegs) :
    commitView (orR s a v).regs = commitView s.regs := commitView_setR s a _ h

@[simp] theorem commitView_clearR (s : State) (a : Nat) (v : Word) (h : a ∉ commitRegs) :
    commitView (clearR s a v).regs = commitView s.regs := commitView_setR s a _ h

@[simp] theorem commitView_setFieldR (s : State) (a lo n v : Nat) (h : a ∉ commitRegs) :
    commitView (setFieldR s a lo n v).regs = commitView s.regs := commitView_setR s a _ h

@[simp] theorem commitView_setR64 (s : State) (a : Nat) (v : DWord) (h : a ∉ commitRegs) (h4 : a + 4 ∉ commitRegs) :
    commitView (setR64 s a v).regs = commitView s.regs := (commitView_setR _ _ _ h4).trans (commitView_setR s a _ h)

@[simp] theorem commitView_countR64 (s : State) (a n : Nat) (h : a ∉ commitRegs) (h4 : a + 4 ∉ commitRegs) :
    commitView (countR64 s a n).regs = commitView s.regs := commitView_setR64 s a _ h h4

theorem foldl_setR_still {α : Type} {a : α → Nat} {v : State → α → Word} (l : List α) (h : ∀ e ∈ l, a e ∉ commitRegs)
    (s : State) : Still s (l.foldl (fun t e => setR t (a e) (v t e)) s) := by
  induction l generalizing s with
  | nil => exact Still.refl s
  | cons e r ih =>
    exact Still.trans (by simp [h e]) (ih (fun x hx => h x (List.mem_cons_of_mem e hx)) _)

/-! ### Registers, events and seal faults -/

@[simp] theorem sstPut_still (s : State) (i : Nat) (v : DWord) : Still s (sstPut s i v) := by simp (disch := decide) [sstPut]
@[simp] theorem traceRaise_still (s : State) (n : Nat) : Still s (traceRaise s n) := by simp (disch := decide) [traceRaise]

@[simp] theorem raise_still (s : State) (n : Nat) : Still s (raise s n) := by
  unfold raise
  dsimp only
  (repeat' split) <;> simp (disch := decide)

@[simp] theorem raiseIf_still (b : Bool) (s : State) (n : Nat) : Still s (raiseIf b s n) := by
  unfold raiseIf
  split <;> simp (disch := decide)

@[simp] theorem sstStore_still (s : State) (i : Nat) (v : DWord) : Still s (sstStore s i v) := by
  unfold sstStore
  dsimp only
  (repeat' split) <;> simp (disch := decide)

@[simp] theorem raiseEvery_still (s : State) (gap n : Nat) : Still s (raiseEvery s gap n) := by
  simp (disch := decide) only [raiseEvery]
  (repeat' split) <;> simp (disch := decide)

@[simp] theorem raiseLimited_still (s : State) (n : Nat) : Still s (raiseLimited s n) := by
  simp (disch := decide) [raiseLimited]

@[simp] theorem sealPrivate_still (s : State) (c : PrivateCell) : Still s (sealPrivate s c) := by
  simp (disch := decide) [sealPrivate]

@[simp] theorem countSealFault_still (s : State) (tile : Nat) : Still s (countSealFault s tile) := by
  unfold countSealFault
  dsimp only
  (repeat' split) <;> simp (disch := decide)

@[simp] theorem sealFault_still (s : State) (tile : Nat) : Still s (sealFault s tile) := by simp (disch := decide) [sealFault]
@[simp] theorem drawn_still (s : State) (n : Nat) : Still s (drawn s n) := by simp (disch := decide) [drawn]
@[simp] theorem usedFree_still (s : State) : Still s (usedFree s) := by simp (disch := decide) [usedFree]

@[simp] theorem memWrite_still (s : State) (a : Nat) (b : Bytes) : Still s (memWrite s a b) := by
  simp (disch := decide) [memWrite]

@[simp] theorem setMode_still (s : State) (m : Mode) (reason : Nat) : Still s (setMode s m reason) := by
  simp (disch := decide) [setMode]

/-! ### The log -/

@[simp] theorem stageWrite_still (s : State) (w : StagingWrite) : Still s (stageWrite s w) := by
  simp (disch := decide) [stageWrite]

@[simp] theorem stage_still (s : State) (fs : List Frame) (delta : Bytes) (manifest : Bool) :
    Still s (stage s fs delta manifest) := by
  simp (disch := decide) [stage]

@[simp] theorem appendRecord_still (s : State) (typ : Byte) (body : Bytes) : Still s (appendRecord s typ body) := by
  unfold appendRecord
  split <;> simp (disch := decide)

@[simp] theorem alarmRecord_still (s : State) (src cls : Nat) (dets origin : Nat) (c : BitVec 48) (ttc : DWord) :
    Still s (alarmRecord s src cls dets origin c ttc) := by
  simp (disch := decide) [alarmRecord]

/-! ### Branches and keys -/

@[simp] theorem cacheKey_still (s : State) (k : KeySlot) : Still s (cacheKey s k) := by simp (disch := decide) [cacheKey]

@[simp] theorem cachePath_still (s : State) (i : Nat) : Still s (cachePath s i) := by
  unfold cachePath
  refine foldl_still (fun t e => ?_) _ _
  simp

@[simp] theorem btrResult_still (s : State) (status reason : Nat) : Still s (btrResult s status reason) := by
  simp (disch := decide) [btrResult]

@[simp] theorem dropTrunk_still (s : State) : Still s (dropTrunk s) := by simp (disch := decide) [dropTrunk]

@[simp] theorem erasePlate_still (s : State) : Still s (erasePlate s) := by
  unfold erasePlate
  dsimp only
  (repeat' split) <;> simp (disch := decide)

/-! ### Trees and stations -/

@[simp] theorem dropTree_still (s : State) : Still s (dropTree s) := by
  unfold dropTree
  split <;> simp (disch := decide)

@[simp] theorem dropForLeaves_still (n : Nat) (s : State) : Still s (dropForLeaves n s) := by
  induction n generalizing s with
  | zero => exact Still.refl _
  | succ n ih =>
    unfold dropForLeaves
    (repeat' split) <;> simp [ih]

@[simp] theorem postInto_still (s : State) (line : Nat) (leaf : Leaf) (stamp : DWord) :
    Still s (postInto s line leaf stamp) := by
  unfold postInto
  split <;> simp (disch := decide)

@[simp] theorem postLeaf_still (s : State) (line : Nat) (leaf : Leaf) (stamp : DWord) :
    Still s (postLeaf s line leaf stamp) := by
  unfold postLeaf
  dsimp only
  (repeat' split) <;> simp (disch := decide)

/-! ### Lines and tracks -/

@[simp] theorem modLine_still (s : State) (l : Nat) (f : Line → Line) : Still s (modLine s l f) := by
  simp (disch := decide) [modLine]

@[simp] theorem updFlight_still (s : State) (l id : Nat) (g : Flight → Flight) : Still s (updFlight s l id g) := by
  simp (disch := decide) [updFlight]

@[simp] theorem putSlot_still (s : State) (l : Nat) (t : Slot) : Still s (putSlot s l t) := by simp (disch := decide) [putSlot]

@[simp] theorem touchSlot_still (s : State) (l : Nat) : Still s (touchSlot s l) := by
  unfold touchSlot
  split <;> simp (disch := decide)

@[simp] theorem dropSlot_still (s : State) (l : Nat) : Still s (dropSlot s l) := by simp (disch := decide) [dropSlot]

@[simp] theorem sealCtx_still (s : State) (l : Nat) : Still s (sealCtx s l) := by
  unfold sealCtx
  split <;> simp (disch := decide)

@[simp] theorem setCtx_still (s : State) (l : Nat) (c : Machine.Context) : Still s (setCtx s l c) := by
  simp (disch := decide) [setCtx]

@[simp] theorem startSpill_still (s : State) (l : Nat) : Still s (startSpill s l) := by simp (disch := decide) [startSpill]

@[simp] theorem makeRoom_still (s : State) : Still s (makeRoom s) := by
  simp (disch := decide) only [makeRoom]
  (repeat' split) <;> simp (disch := decide)

@[simp] theorem wantContext_still (s : State) (l : Nat) : Still s (wantContext s l) := by
  unfold wantContext
  dsimp only
  (repeat' split) <;> simp (disch := decide)

@[simp] theorem writeMirror_still (s : State) (l : Nat) : Still s (writeMirror s l) := by
  unfold writeMirror
  split <;> simp (disch := decide)

@[simp] theorem raiseMark_still (s : State) (n : Nat) : Still s (raiseMark s n) := by
  unfold raiseMark
  split <;> simp (disch := decide)

@[simp] theorem writeCompletionTo_still (s : State) (l : Nat) (f : Flight) : Still s (writeCompletionTo s l f) := by
  unfold writeCompletionTo
  dsimp only
  (repeat' split) <;> simp (disch := decide)

@[simp] theorem writeCompletion_still (s : State) (l : Nat) (f : Flight) : Still s (writeCompletion s l f) := by
  unfold writeCompletion
  split <;> simp (disch := decide)

@[simp] theorem deliver_still (s : State) (l id : Nat) : Still s (deliver s l id) := by
  unfold deliver
  dsimp only
  (repeat' split) <;> simp (disch := decide)

@[simp] theorem lneFault_still (s : State) (l : Nat) (isFault : Bool) (status : Nat) :
    Still s (lneFault s l isFault status) := by
  simp (disch := decide) [lneFault]

@[simp] theorem haltLine_still (s : State) (l status : Nat) : Still s (haltLine s l status) := by
  unfold haltLine
  dsimp only
  (repeat' split) <;> simp (disch := decide)

@[simp] theorem faultRecord_still (s : State) (l status : Nat) (cause : Option Nat) (lost : Bool) :
    Still s (faultRecord s l status cause lost) := by
  unfold faultRecord
  split <;> simp (disch := decide)

@[simp] theorem faultEnded_still (s : State) (l : Nat) (f : Flight) : Still s (faultEnded s l f) := by
  simp (disch := decide) [faultEnded]

@[simp] theorem settleOne_still (s : State) (l : Nat) : Still s (settleOne s l) := by
  simp (disch := decide) only [settleOne]
  (repeat' split) <;> simp (disch := decide)

@[simp] theorem settleLoop_still (n : Nat) (s : State) (k : Nat) : Still s (settleLoop n s k) := by
  induction n generalizing s k with
  | zero => exact Still.refl _
  | succ n ih =>
    unfold settleLoop
    simp [ih]

@[simp] theorem settle_still (s : State) (l : Nat) : Still s (settle s l) := by
  unfold settle
  exact Still.trans (settleLoop_still _ _ _) (foldl_still (fun t e => by simp) _ _)

@[simp] theorem endFlight_still (s : State) (l id status : Nat) (gasp : Bool) : Still s (endFlight s l id status gasp) := by
  simp (disch := decide) [endFlight]

@[simp] theorem countService_still (s : State) (l : Nat) : Still s (countService s l) := by
  unfold countService
  split <;> simp (disch := decide)

@[simp] theorem completeRaw_still (s : State) (l : Nat) (f : Flight) (status flags seq : Nat) (result : Bytes) :
    Still s (completeRaw s l f status flags seq result) := by
  simp (disch := decide) [completeRaw]

@[simp] theorem finishService_still (s : State) (l id : Nat) (status length : Nat) (result : Bytes) :
    Still s (finishService s l id status length result) := by
  simp (disch := decide) only [finishService]
  (repeat' split) <;> simp (disch := decide)

@[simp] theorem abortService_still (s : State) (l : Nat) (cause : Option Nat) (status : Nat) :
    Still s (abortService s l cause status) := by
  unfold abortService
  refine foldl_still (fun t e => ?_) _ _
  (repeat' split) <;> simp

@[simp] theorem faultLine_still (s : State) (l status : Nat) (cause : Option Nat) (lost : Bool) :
    Still s (faultLine s l status cause lost) := by
  unfold faultLine
  split <;> simp (disch := decide)

@[simp] theorem faultContext_still (s : State) (l : Nat) (cause : Option Nat) : Still s (faultContext s l cause) := by
  simp (disch := decide) [faultContext]

@[simp] theorem completeService_still (s : State) (l id : Nat) (status length : Nat) (result : Bytes) :
    Still s (completeService s l id status length result) := by
  unfold completeService
  split <;> simp (disch := decide)

@[simp] theorem endSession_still (s : State) : Still s (endSession s) := by simp (disch := decide) [endSession]

/-! ### Marshalling of lines -/

@[simp] theorem enableTracks_still (s : State) : Still s (enableTracks s) := by
  unfold enableTracks
  exact foldl_still (fun t e => by simp) _ _

@[simp] theorem trackFault_still (s : State) (t : Nat) : Still s (trackFault s t) := by
  unfold trackFault
  dsimp only
  (repeat' split) <;> simp (disch := decide)

@[simp] theorem keyLookup_still (s : State) (l id : Nat) : Still s (keyLookup s l id) := by
  unfold keyLookup
  dsimp only
  (repeat' split) <;> simp (disch := decide)

@[simp] theorem freeHalf_still (s : State) (t : Nat) (second : Bool) : Still s (freeHalf s t second) := by
  unfold freeHalf
  split <;> simp (disch := decide)

@[simp] theorem turnHalves_still (s : State) (t : Nat) : Still s (turnHalves s t) := by
  unfold turnHalves
  dsimp only
  (repeat' split) <;> simp (disch := decide)

@[simp] theorem moveFlight_still (s : State) (l id : Nat) : Still s (moveFlight s l id) := by
  unfold moveFlight
  dsimp only
  (repeat' split) <;> simp (disch := decide)

@[simp] theorem moveAll_still (s : State) (t : Nat) : Still s (moveAll s t) := by
  unfold moveAll
  exact Still.trans (foldl_still (fun t e => by simp) _ _) (turnHalves_still _ _)

@[simp] theorem recordFence_still (s : State) (t cause : Nat) : Still s (recordFence s t cause) := by
  simp (disch := decide) [recordFence]

@[simp] theorem fenceTrack_still (s : State) (t cause : Nat) : Still s (fenceTrack s t cause) := by
  unfold fenceTrack
  split <;> simp (disch := decide)

@[simp] theorem openQueue_still (s : State) (f : Flight) : Still s (openQueue s f) := by
  unfold openQueue
  split <;> simp (disch := decide)

@[simp] theorem stampFlight_still (s : State) (l : Nat) (f : Flight) : Still s (stampFlight s l f) := by
  unfold stampFlight
  dsimp only
  (repeat' split) <;> simp (disch := decide)

@[simp] theorem stampNext_still (s : State) (t : Nat) : Still s (stampNext s t) := by
  unfold stampNext
  dsimp only
  (repeat' split) <;> simp (disch := decide)

@[simp] theorem stampAll_still (s : State) : Still s (stampAll s) := by
  unfold stampAll
  refine foldl_still (fun t e => ?_) _ _
  simp

@[simp] theorem advance_still (s : State) (l : Nat) (c : Machine.Context) (f : Flight) (tag : Bytes) :
    Still s (advance s l c f tag) := by
  simp (disch := decide) [advance]

@[simp] theorem writeAll_still (s : State) (w : List (DWord × Bytes)) : Still s (writeAll s w) := by
  unfold writeAll
  refine foldl_still (fun t e => ?_) _ _
  simp

@[simp] theorem finishFencing_still (s : State) (t : Nat) : Still s (finishFencing s t) := by
  unfold finishFencing
  dsimp only
  (repeat' split) <;> simp (disch := decide)

@[simp] theorem finishFences_still (s : State) : Still s (finishFences s) := by
  unfold finishFences
  refine foldl_still (fun t e => ?_) _ _
  (repeat' split) <;> simp

@[simp] theorem absorbSealFault_still (s : State) (l : Nat) (f : Flight) : Still s (absorbSealFault s l f) := by
  simp (disch := decide) [absorbSealFault]

@[simp] theorem streamTags_still (s : State) (f : Flight) (expected : Bytes) : Still s (streamTags s f expected) := by
  unfold streamTags
  split <;> simp (disch := decide)

@[simp] theorem absorbWork_still (s : State) (l : Nat) (c : Machine.Context) (f : Flight) (expected : Bytes) :
    Still s (absorbWork s l c f expected) := by
  unfold absorbWork
  dsimp only
  (repeat' split) <;> simp (disch := decide)

@[simp] theorem absorb_still (s : State) (l : Nat) (f : Flight) (expected : Bytes) : Still s (absorb s l f expected) := by
  simp (disch := decide) only [absorb]
  (repeat' split) <;> simp (disch := decide)

@[simp] theorem drainStamped_still (s : State) : Still s (drainStamped s) := by
  unfold drainStamped
  refine foldl_still (fun t e => ?_) _ _
  (repeat' split) <;> simp

@[simp] theorem endUnstamped_still (s : State) (status : Nat) (gasp : Bool) (only : Line → Flight → Bool) :
    Still s (endUnstamped s status gasp only) := by
  unfold endUnstamped
  refine Still.trans (foldl_still (fun t e => ?_) _ _) (stampAll_still _)
  split
  · exact Still.refl _
  · refine Still.trans (foldl_still (fun b f => ?_) _ _) (settle_still _ _)
    split <;> simp

/-! ### Accesses of masters and engines -/

@[simp] theorem recordDeny_still (s : State) (m : Master) (k : Kind) (a : Nat) : Still s (recordDeny s m k a) := by
  unfold recordDeny
  split <;> simp (disch := decide)

@[simp] theorem debugDenied_still (s : State) : Still s (debugDenied s) := by
  unfold debugDenied
  dsimp only
  (repeat' split) <;> simp (disch := decide)

@[simp] theorem denied_still (s : State) (m : Master) (k : Kind) (a : Nat) : Still s (denied s m k a) := by
  unfold denied
  dsimp only
  (repeat' split) <;> simp (disch := decide)

@[simp] theorem unmapped_still (s : State) (m : Master) : Still s (unmapped s m) := by
  unfold unmapped
  split <;> simp (disch := decide)

@[simp] theorem readData_still (s : State) (v : DWord) : Still s (readData s v) := by simp (disch := decide) [readData]
@[simp] theorem readError_still (s : State) : Still s (readError s) := by simp (disch := decide) [readError]

@[simp] theorem failAccess_still (s : State) (m : Master) (k : Kind) (a : Nat) : Still s (failAccess s m k a) := by
  unfold failAccess
  dsimp only
  (repeat' split) <;> simp (disch := decide)

@[simp] theorem failSeal_still (s : State) (k : Kind) (a : Nat) : Still s (failSeal s k a) := by
  unfold failSeal
  split <;> simp (disch := decide)

@[simp] theorem guardedRead_still (s : State) (m : Master) (a : Nat) (f : State → State) (h : ∀ t, Still t (f t)) :
    Still s (guardedRead s m a f) := by
  unfold guardedRead
  split
  · exact Still.refl s
  split
  · simp (disch := decide)
  split
  · simp (disch := decide)
  split
  · simp (disch := decide)
  · exact h s

@[simp] theorem noteRead_still (s : State) (a n : Nat) : Still s (noteRead s a n) := by
  unfold noteRead
  split <;> simp (disch := decide)

@[simp] theorem patchSlot_still (a : Nat) (b : Bytes) (s : State) (slot : Nat) : Still s (patchSlot a b s slot) := by
  unfold patchSlot
  dsimp only
  (repeat' split) <;> simp (disch := decide)

@[simp] theorem writeSlots_still (s : State) (a : Nat) (b : Bytes) : Still s (writeSlots s a b) := by
  simp only [writeSlots]
  exact Still.trans (memWrite_still _ _ _) (foldl_still (fun t e => patchSlot_still _ _ _ _) _ _)

@[simp] theorem maeNotOwner_still (s : State) : Still s (maeNotOwner s) := by simp (disch := decide) [maeNotOwner]

@[simp] theorem storeBytes_still (s : State) (m : Master) (a : Nat) (b : Bytes) : Still s (storeBytes s m a b) := by
  simp (disch := decide) only [storeBytes]
  (repeat' split) <;> simp (disch := decide)

@[simp] theorem reachPart_still (s : State) (m : Master) (k : Kind) (p n : Nat) : Still s (reachPart s m k p n).state := by
  simp (disch := decide) only [reachPart]
  (repeat' split) <;> simp (disch := decide)

@[simp] theorem writeParts_still (m : Master) (a : Nat) (b : Bytes) (l : List (Nat × Nat)) (s : State) :
    Still s (writeParts m a b l s).state := by
  induction l generalizing s with
  | nil => exact Still.refl _
  | cons e r ih =>
    unfold writeParts
    dsimp only
    split <;> simp [ih]

@[simp] theorem engineWrite_still (s : State) (m : Master) (a : Nat) (b : Bytes) : Still s (engineWrite s m a b).state := by
  simp (disch := decide) [engineWrite]

/-! ### Lattice keys -/

@[simp] theorem endDesc_still (s : State) (a : Nat) (pusher : Master) (result lane written : Nat) (start : DWord) :
    Still s (endDesc s a pusher result lane written start) := by
  simp (disch := decide) [endDesc]

@[simp] theorem endQueued_still (s : State) (result : Nat) (pick : Bytes → Bool) : Still s (endQueued s result pick) := by
  unfold endQueued
  exact Still.trans (by simp) (foldl_still (fun t e => by simp) _ _)

@[simp] theorem loadKey_still (s : State) (n i : Nat) : Still s (loadKey s n i).state := by
  unfold loadKey
  dsimp only
  (repeat' split) <;> simp (disch := decide)

@[simp] theorem signWith_still (s : State) (seed msg : Bytes) : Still s (signWith s seed msg).state := by
  simp (disch := decide) [signWith]

@[simp] theorem signBy_still (s : State) (i : Nat) (msg : Bytes) : Still s (signBy s i msg).state := by
  simp (disch := decide) [signBy]

/-! ### Flash storage -/

@[simp] theorem setBlock_still (s : State) (die block : Nat) (b : Block) : Still s (setBlock s die block b) := by
  simp (disch := decide) [setBlock]

@[simp] theorem putPage_still (s : State) (die block page : Nat) (b : Bytes) : Still s (putPage s die block page b) := by
  simp (disch := decide) [putPage]

@[simp] theorem eraseKey_still (s : State) (k : Nat) : Still s (eraseKey s k) := by simp (disch := decide) [eraseKey]
@[simp] theorem markLost_still (s : State) (l : List Nat) : Still s (markLost s l) := by simp (disch := decide) [markLost]

@[simp] theorem eraseSlotBlocks_still (s : State) (k : Nat) : Still s (eraseSlotBlocks s k) := by
  unfold eraseSlotBlocks
  refine foldl_still (fun t e => ?_) _ _
  simp

@[simp] theorem eraseOldest_still (s : State) : Still s (eraseOldest s) := by
  unfold eraseOldest
  split <;> simp (disch := decide)

@[simp] theorem reclaimOldest_still (s : State) : Still s (reclaimOldest s) := by
  unfold reclaimOldest
  dsimp only
  split
  · exact Still.refl s
  split
  · exact Still.refl s
  split
  · split <;> simp
  split
  · simp
  · exact foldl_still (fun t e => by simp) _ _

@[simp] theorem copyForward_still (s : State) (t : Stripe) : Still s (copyForward s t) := by
  unfold copyForward
  split <;> simp (disch := decide)

@[simp] theorem levelWear_still (s : State) : Still s (levelWear s) := by
  unfold levelWear
  refine foldl_still (fun t e => ?_) _ _
  (repeat' split) <;> simp

@[simp] theorem beginStripe_still (s : State) : Still s (beginStripe s) := by
  unfold beginStripe
  split <;> simp (disch := decide)

@[simp] theorem startProgram_still (s : State) : Still s (startProgram s) := by
  unfold startProgram
  dsimp only
  (repeat' split) <;> simp (disch := decide)

@[simp] theorem programStripe_still (s : State) : Still s (programStripe s) := by simp (disch := decide) [programStripe]
@[simp] theorem skipWordline_still (s : State) : Still s (skipWordline s) := by simp (disch := decide) [skipWordline]

@[simp] theorem rewriteWordline_still (s : State) : Still s (rewriteWordline s) := by
  unfold rewriteWordline
  dsimp only
  (repeat' split) <;> simp (disch := decide)

/-! ### Opening and closing of lines -/

@[simp] theorem treeFault_still (s : State) : Still s (treeFault s) := by simp (disch := decide) [treeFault]

@[simp] theorem countLines_still (s : State) (p : Nat) (up : Bool) : Still s (countLines s p up) := by
  simp (disch := decide) [countLines]

@[simp] theorem completeEnded_still (l : List Flight) (s : State) : Still s (completeEnded l s) := by
  induction l generalizing s with
  | nil => exact Still.refl _
  | cons e r ih =>
    unfold completeEnded
    split <;> simp [ih]

@[simp] theorem completeControl_still (s : State) (id status seq : Nat) (head : Bytes) :
    Still s (completeControl s id status seq head) := by
  unfold completeControl
  split <;> simp (disch := decide)

@[simp] theorem withRecord_still (s : State) (id l : Nat) (f : State → State) (h : ∀ t, Still t (f t)) :
    Still s (withRecord s id l f) := by
  unfold withRecord
  split
  · simp
  · exact h s

@[simp] theorem openNew_still (s : State) (id : Nat) (raw head : Bytes) : Still s (openNew s id raw head) := by
  unfold openNew
  split <;> simp (disch := decide)

@[simp] theorem resumeLine_still (s : State) (id : Nat) (raw : Bytes) : Still s (resumeLine s id raw) := by
  unfold resumeLine
  dsimp only
  (repeat' split) <;> simp (disch := decide)

@[simp] theorem park_still (s : State) (id : Nat) : Still s (park s id) := by simp (disch := decide) [park]

@[simp] theorem openRoom_still (s : State) (id : Nat) (raw head : Bytes) : Still s (openRoom s id raw head) := by
  unfold openRoom
  dsimp only
  (repeat' split) <;> simp (disch := decide)

@[simp] theorem openContinue_still (s : State) (id : Nat) (raw head : Bytes) : Still s (openContinue s id raw head) := by
  unfold openContinue
  dsimp only
  (repeat' split) <;> simp (disch := decide)

@[simp] theorem openClosed_still (s : State) (id : Nat) (raw head : Bytes) : Still s (openClosed s id raw head) := by
  unfold openClosed
  split <;> simp (disch := decide)

@[simp] theorem openPaused_still (s : State) (id : Nat) (raw : Bytes) : Still s (openPaused s id raw) := by
  unfold openPaused
  dsimp only
  (repeat' split) <;> simp (disch := decide)

@[simp] theorem tryOpen_still (s : State) (id : Nat) (raw head : Bytes) : Still s (tryOpen s id raw head) := by
  refine withRecord_still _ _ _ _ (fun t => ?_)
  (repeat' split) <;> simp

@[simp] theorem recheckOpens_still (s : State) : Still s (recheckOpens s) := by
  unfold recheckOpens
  refine foldl_still (fun t e => ?_) _ _
  (repeat' split) <;> simp

/-! ### Seals and epochs -/

@[simp] theorem setBase_still (s : State) : Still s (setBase s) := by
  unfold setBase
  split <;> simp (disch := decide)

@[simp] theorem openEpochAt_still (s : State) (number : Nat) (start : DWord) (restart : Bool) :
    Still s (openEpochAt s number start restart) := by
  simp (disch := decide) [openEpochAt]

@[simp] theorem enterSealing_still (s : State) : Still s (enterSealing s) := by
  unfold enterSealing
  split <;> simp (disch := decide)

@[simp] theorem noteEpoch_still (s : State) : Still s (noteEpoch s) := by simp (disch := decide) [noteEpoch]

@[simp] theorem closeEpoch_still (s : State) (ttcEnd : DWord) (flags : Byte) (condemned : Bool) :
    Still s (closeEpoch s ttcEnd flags condemned) := by
  unfold closeEpoch
  split <;> simp (disch := decide)

@[simp] theorem postAhead_still (s : State) : Still s (postAhead s) := by
  unfold postAhead
  exact Still.trans (by simp) (foldl_still (fun t e => by simp) _ _)

@[simp] theorem forceAhead_still (s : State) : Still s (forceAhead s) := by
  unfold forceAhead
  exact Still.trans (by simp) (foldl_still (fun t e => by simp) _ _)

@[simp] theorem noteLate_still (s : State) (closed : Nat) : Still s (noteLate s closed) := by
  unfold noteLate
  split <;> simp (disch := decide)

@[simp] theorem closeAtBoundary_still (s : State) : Still s (closeAtBoundary s) := by
  unfold closeAtBoundary
  split <;> simp (disch := decide)

@[simp] theorem closeDue_still (n : Nat) (s : State) : Still s (closeDue n s) := by
  induction n generalizing s with
  | zero => exact Still.refl _
  | succ n ih =>
    unfold closeDue
    (repeat' split) <;> simp [ih]

@[simp] theorem makeSnapshot_still (s : State) (j : SealJob) : Still s (makeSnapshot s j) := by
  simp (disch := decide) only [makeSnapshot]
  (repeat' split) <;> simp (disch := decide)

@[simp] theorem setJob_still (s : State) (f : SealJob → SealJob) : Still s (setJob s f) := by
  unfold setJob
  split <;> simp (disch := decide)

@[simp] theorem noteUnsigned_still (s : State) : Still s (noteUnsigned s) := by simp (disch := decide) [noteUnsigned]

@[simp] theorem freeze_still (s : State) : Still s (freeze s) := by
  unfold freeze
  dsimp only
  (repeat' split) <;> simp (disch := decide)

@[simp] theorem freeManifestLane_still (s : State) : Still s (freeManifestLane s) := by
  simp (disch := decide) [freeManifestLane]

@[simp] theorem signLoaded_still (s : State) (j : SealJob) (seed : Bytes) : Still s (signLoaded s j seed) := by
  unfold signLoaded
  split <;> simp (disch := decide)

@[simp] theorem leaveUnsigned_still (s : State) : Still s (leaveUnsigned s) := by simp (disch := decide) [leaveUnsigned]

@[simp] theorem signJob_still (s : State) : Still s (signJob s) := by
  unfold signJob
  dsimp only
  (repeat' split) <;> simp (disch := decide)

@[simp] theorem signBacklogOne_still (s : State) : Still s (signBacklogOne s) := by
  unfold signBacklogOne
  split <;> simp (disch := decide)

@[simp] theorem signBacklogN_still (n : Nat) (s : State) : Still s (signBacklogN n s) := by
  induction n generalizing s with
  | zero => exact Still.refl _
  | succ n ih =>
    unfold signBacklogN
    simp [ih]

@[simp] theorem signBacklog_still (s : State) : Still s (signBacklog s) := by
  unfold signBacklog
  split <;> simp (disch := decide)

@[simp] theorem handOver_still (s : State) : Still s (handOver s) := by
  unfold handOver
  dsimp only
  (repeat' split) <;> simp (disch := decide)

@[simp] theorem logCheckpoint_still (s : State) (c : Ckpt) : Still s (logCheckpoint s c) := by
  simp (disch := decide) [logCheckpoint]

@[simp] theorem checkpoint_still (s : State) (epoch upTo : Nat) (header : Bytes) :
    Still s (checkpoint s epoch upTo header) := by
  unfold checkpoint
  split <;> simp (disch := decide)

@[simp] theorem checkpointDue_still (s : State) (epoch upTo : Nat) (header : Bytes) :
    Still s (checkpointDue s epoch upTo header) := by
  simp (disch := decide) only [checkpointDue]
  (repeat' split) <;> simp (disch := decide)

@[simp] theorem ckptStored_still (s : State) (c : Ckpt) : Still s (ckptStored s c) := by
  unfold ckptStored
  dsimp only
  (repeat' split) <;> simp (disch := decide)

@[simp] theorem stationSnapshot_still (s : State) : Still s (stationSnapshot s) := by
  unfold stationSnapshot
  dsimp only
  (repeat' split) <;> simp (disch := decide)

@[simp] theorem snapshotDue_still (s : State) : Still s (snapshotDue s) := by
  unfold snapshotDue
  dsimp only
  (repeat' split) <;> simp (disch := decide)

@[simp] theorem completeFence_still (s : State) (l : Nat) (f : Flight) (epoch : Nat) (uns : Bool) :
    Still s (completeFence s l f epoch uns) := by
  simp (disch := decide) [completeFence]

@[simp] theorem releaseFences_still (s : State) (epoch : Nat) (uns : Bool) : Still s (releaseFences s epoch uns) := by
  unfold releaseFences
  refine foldl_still (fun t e => foldl_still (fun b f => ?_) _ _) _ _
  (repeat' split) <;> simp

@[simp] theorem moveLast_still (s : State) (epoch : Nat) : Still s (moveLast s epoch) := by
  simp (disch := decide) only [moveLast]
  (repeat' split) <;> simp (disch := decide)

@[simp] theorem manifestStoredFx_still (s : State) (o deltaLen : Nat) : Still s (manifestStoredFx s o deltaLen) := by
  unfold manifestStoredFx
  split <;> simp (disch := decide)

@[simp] theorem releaseStored_still (s : State) : Still s (releaseStored s) := by
  unfold releaseStored
  refine foldl_still (fun t e => foldl_still (fun b f => ?_) _ _) _ _
  (repeat' split) <;> simp

@[simp] theorem wearStaging_still (s : State) (n : Nat) : Still s (wearStaging s n) := by simp (disch := decide) [wearStaging]

@[simp] theorem storeWrite_still (s : State) (w : StagingWrite) (r : List StagingWrite) : Still s (storeWrite s w r) := by
  unfold storeWrite
  dsimp only
  (repeat' split) <;> simp (disch := decide)

@[simp] theorem verifyStaging_still (s : State) : Still s (verifyStaging s) := by
  simp (disch := decide) only [verifyStaging]
  (repeat' split) <;> simp (disch := decide)

@[simp] theorem verifyN_still (n : Nat) (s : State) : Still s (verifyN n s) := by
  induction n generalizing s with
  | zero => exact Still.refl _
  | succ n ih =>
    unfold verifyN
    simp [ih]

@[simp] theorem verifyAll_still (s : State) : Still s (verifyAll s) := by simp (disch := decide) [verifyAll]
@[simp] theorem acceptRebuild_still (s : State) : Still s (acceptRebuild s) := by simp (disch := decide) [acceptRebuild]
@[simp] theorem restartTree_still (s : State) : Still s (restartTree s) := by simp (disch := decide) [restartTree]
@[simp] theorem listsFault_still (s : State) : Still s (listsFault s) := by simp (disch := decide) [listsFault]

@[simp] theorem finishRebuild_still (s : State) : Still s (finishRebuild s) := by
  simp (disch := decide) only [finishRebuild]
  (repeat' split) <;> simp (disch := decide)

@[simp] theorem soundTree_still (s : State) : Still s (soundTree s) := by
  unfold soundTree
  split <;> simp (disch := decide)

@[simp] theorem finishJob_still (s : State) : Still s (finishJob s) := by simp (disch := decide) [finishJob]

@[simp] theorem finishJobs_still (n : Nat) (s : State) : Still s (finishJobs n s) := by
  induction n generalizing s with
  | zero => exact Still.refl _
  | succ n ih =>
    unfold finishJobs
    (repeat' split) <;> simp [ih]

@[simp] theorem closePassed_still (s : State) : Still s (closePassed s) := by
  simp (disch := decide) only [closePassed]
  (repeat' split) <;> simp (disch := decide)

@[simp] theorem sealNow_still (s : State) (flags : Byte) (condemned : Bool) : Still s (sealNow s flags condemned) := by
  unfold sealNow
  dsimp only
  (repeat' split) <;> simp (disch := decide)

/-! ### The radio -/

@[simp] theorem hop_still (s : State) : Still s (hop s) := by
  unfold hop
  split <;> simp (disch := decide)

@[simp] theorem transmit_still (s : State) (power : Nat) (l : List AirCommand) : Still s (transmit s power l) := by
  simp (disch := decide) [transmit]

@[simp] theorem markGasp_still (s : State) (l id : Nat) : Still s (markGasp s l id) := by simp (disch := decide) [markGasp]

@[simp] theorem stopInventory_still (s : State) (status : Nat) (gasp : Bool) : Still s (stopInventory s status gasp) := by
  unfold stopInventory
  dsimp only
  (repeat' split) <;> simp (disch := decide)

@[simp] theorem faultRf_still (s : State) : Still s (faultRf s) := by simp (disch := decide) [faultRf]
@[simp] theorem lkoResult_still (s : State) (st : Nat) : Still s (lkoResult s st) := by simp (disch := decide) [lkoResult]
@[simp] theorem loopback_still (s : State) : Still s (loopback s) := by simp (disch := decide) [loopback]

@[simp] theorem askSelf_still (s : State) (answers : List TagObs) : Still s (askSelf s answers).1 := by
  unfold askSelf
  dsimp only
  (repeat' split) <;> simp (disch := decide)

@[simp] theorem endSelfTest_still (s : State) (st : Nat) : Still s (endSelfTest s st) := by simp (disch := decide) [endSelfTest]

@[simp] theorem runSelfTest_still (s : State) (gamma : Byte) (answers : List TagObs) :
    Still s (runSelfTest s gamma answers) := by
  unfold runSelfTest
  dsimp only
  (repeat' split) <;> simp (disch := decide)

@[simp] theorem runWaiting_still (s : State) : Still s (runWaiting s) := by
  simp (disch := decide) only [runWaiting]
  (repeat' split) <;> simp (disch := decide)

@[simp] theorem endInventory_still (s : State) (status : Nat) : Still s (endInventory s status) := by
  simp (disch := decide) [endInventory]

@[simp] theorem selfDue_still (s : State) (m : Mode) : Still s (selfDue s m) := by
  unfold selfDue
  split <;> simp (disch := decide)

/-! ### Modes and resets -/

@[simp] theorem undoStructural_still (s : State) (p : BtrPending) : Still s (undoStructural s p) := by
  simp (disch := decide) only [undoStructural]
  (repeat' split) <;> simp (disch := decide)

@[simp] theorem endBtr_still (s : State) (status reason : Nat) : Still s (endBtr s status reason) := by
  unfold endBtr
  dsimp only
  (repeat' split) <;> simp (disch := decide)

@[simp] theorem endDerivations_still (s : State) : Still s (endDerivations s) := by
  unfold endDerivations
  refine foldl_still (fun t e => ?_) _ _
  (repeat' split) <;> simp

@[simp] theorem keepRegs_still (old new_ : State) (link : Bool) : Still new_ (keepRegs old new_ link) := by
  unfold keepRegs
  refine foldl_setR_still _ ?_ _
  cases link <;> decide

@[simp] theorem loadSealLast_still (t : State) : Still t (loadSealLast t) := by
  unfold loadSealLast
  split <;> simp (disch := decide)

@[simp] theorem suspectErase_still (old s : State) : Still s (suspectErase old s) := by
  unfold suspectErase
  split <;> simp (disch := decide)

@[simp] theorem recoverStripe_still (old s : State) : Still s (recoverStripe old s) := by
  unfold recoverStripe
  split <;> simp (disch := decide)

@[simp] theorem showTier_still (s : State) (t : Nat) : Still s (showTier s t) := by simp (disch := decide) [showTier]

@[simp] theorem deferReset_still (s : State) (causes : Nat) : Still s (deferReset s causes) := by
  simp (disch := decide) [deferReset]

/-! ### Exports -/

@[simp] theorem refuse_still (s : State) (status : Nat) : Still s (refuse s status).state := by simp (disch := decide) [refuse]

@[simp] theorem output_still (s : State) (addr : Nat) (b result : Bytes) : Still s (output s addr b result).state := by
  simp (disch := decide) [output]

@[simp] theorem noteLost_still (s : State) (lost : Bool) : Still s (noteLost s lost) := by
  unfold noteLost
  split <;> simp (disch := decide)

@[simp] theorem readFrames_still (s : State) (cursor : Nat) (bad : List Nat) : Still s (readFrames s cursor bad) := by
  simp (disch := decide) [readFrames]

@[simp] theorem exportReply_still (s : State) (raw : Bytes) (bad : List Nat) : Still s (exportReply s raw bad).state := by
  unfold exportReply
  split <;> simp (disch := decide)

@[simp] theorem clearFull_still (s : State) : Still s (clearFull s) := by
  unfold clearFull
  dsimp only
  (repeat' split) <;> simp (disch := decide)

@[simp] theorem settleMark_still (s : State) : Still s (settleMark s) := by
  unfold settleMark
  split <;> simp (disch := decide)

@[simp] theorem usbSay_still (s : State) (b : Bytes) : Still s (usbSay s b) := by simp (disch := decide) [usbSay]

@[simp] theorem usbCompletion_still (s : State) (w : Bytes) (r : Reply) (gasp : Bool) :
    Still r.state (usbCompletion s w r gasp) := by
  unfold usbCompletion
  refine Still.trans (foldl_still (fun t e => ?_) _ _) (usbSay_still _ _)
  simp

@[simp] theorem usbExport_still (s : State) (w : Bytes) (bad : List Nat) : Still s (usbExport s w bad) := by
  simp (disch := decide) [usbExport]

@[simp] theorem serveUsb_still (l : List (Nat × Bytes × List Nat)) (s : State) : Still s (serveUsb l s) := by
  induction l generalizing s with
  | nil => exact Still.refl _
  | cons e r ih =>
    unfold serveUsb
    split <;> simp [ih]

/-! ### Lineside sources -/

@[simp] theorem stickyTrip_still (s : State) (n : Nat) (dets : BitVec 2) (cls : Nat) : Still s (stickyTrip s n dets cls) := by
  simp (disch := decide) [stickyTrip]

@[simp] theorem noteTrip_still (s : State) (n : Nat) (dets : BitVec 2) (cls : Nat) : Still s (noteTrip s n dets cls) := by
  simp (disch := decide) [noteTrip]

@[simp] theorem noteReset_still (s : State) (n : Nat) : Still s (noteReset s n) := by
  unfold noteReset
  split <;> simp (disch := decide)

@[simp] theorem setHeld_still (s : State) : Still s (setHeld s) := by simp (disch := decide) [setHeld]

@[simp] theorem noteCell_still (s : State) (n : Nat) (dets : BitVec 2) (cls : Nat) : Still s (noteCell s n dets cls) := by
  simp (disch := decide) [noteCell]

@[simp] theorem respondCell_still (s : State) (cls : Nat) : Still s (respondCell s cls) := by
  unfold respondCell
  dsimp only
  (repeat' split) <;> simp (disch := decide)

@[simp] theorem joinTrip_still (s : State) (n : Nat) (dets : BitVec 2) : Still s (joinTrip s n dets) := by
  simp (disch := decide) [joinTrip]

@[simp] theorem noteSource_still (s : State) (n : Nat) (dets : BitVec 2) : Still s (noteSource s n dets).1 := by
  unfold noteSource
  dsimp only
  (repeat' split) <;> simp (disch := decide)

/-! ### The KDE -/

@[simp] theorem setRegBytes_still (s : State) (a : Nat) (b : Bytes)
    (h : ∀ i ∈ List.range (b.length / 4), a + 4 * i ∉ commitRegs) :
    Still s (setRegBytes s a b) :=
  foldl_setR_still _ h s

@[simp] theorem takeLock_still (s : State) (m : Master) (a : Nat) (h : a ∉ commitRegs) : Still s (takeLock s m a) := by
  unfold takeLock
  dsimp only
  split <;> simp [h]

/-! ### The MAE -/

@[simp] theorem shortEnded_still (s : State) : Still s (shortEnded s) := by simp (disch := decide) [shortEnded]
@[simp] theorem wipeSlots_still (s : State) : Still s (wipeSlots s) := memWrite_still _ _ _

@[simp] theorem maeWipe_still (s : State) : Still s (maeWipe s) := by
  unfold maeWipe
  dsimp only
  (repeat' split) <;> simp (disch := decide)

@[simp] theorem maeLockRead_still (s : State) (m : Master) : Still s (maeLockRead s m) := by
  unfold maeLockRead
  dsimp only
  (repeat' split) <;> simp (disch := decide)

/-! ### The entropy source -/

@[simp] theorem setEntReason_still (s : State) (r : Nat) : Still s (setEntReason s r) := by
  simp (disch := decide) [setEntReason]

@[simp] theorem entError_still (s : State) (r : Nat) : Still s (entError s r) := by simp (disch := decide) [entError]
@[simp] theorem takeWord_still (s : State) : Still s (takeWord s) := by simp (disch := decide) [takeWord]
@[simp] theorem dropGrant_still (s : State) (m : Master) : Still s (dropGrant s m) := by simp (disch := decide) [dropGrant]

@[simp] theorem entWait_still (s : State) (r : EntRead) : Still s (entWait s r) := by
  unfold entWait
  split <;> simp (disch := decide)

@[simp] theorem setWinner_still (s : State) (m : Master) : Still s (setWinner s m) := by simp (disch := decide) [setWinner]

@[simp] theorem readEnt_still (s : State) (m : Master) : Still s (readEnt s m) := by
  simp (disch := decide) only [readEnt]
  (repeat' split) <;> simp (disch := decide)

/-! ### Mailboxes and tablets -/

@[simp] theorem setMailbox_still (s : State) (n : Nat) (b : Mailbox) : Still s (setMailbox s n b) := by
  simp (disch := decide) [setMailbox]

@[simp] theorem mbxRefused_still (s : State) : Still s (mbxRefused s) := by simp (disch := decide) [mbxRefused]

@[simp] theorem claimRead_still (s : State) (m : Master) (n : Nat) : Still s (claimRead s m n) := by
  unfold claimRead
  dsimp only
  (repeat' split) <;> simp (disch := decide)

@[simp] theorem take_still (s : State) (m : Master) (n : Nat) : Still s (take s m n) := by
  unfold take
  dsimp only
  (repeat' split) <;> simp (disch := decide)

@[simp] theorem setTablet_still (s : State) (t : Nat) (m : Master) : Still s (setTablet s t m) := by
  simp (disch := decide) [setTablet]

@[simp] theorem tabletTake_still (s : State) (m : Master) (t : Nat) : Still s (tabletTake s m t) := by
  unfold tabletTake
  dsimp only
  (repeat' split) <;> simp (disch := decide)

/-! ### Routes and debug sessions -/

@[simp] theorem nonceRead_still (s : State) : Still s (nonceRead s) := by
  unfold nonceRead
  split <;> simp (disch := decide)

/-! ### The bus -/

@[simp] theorem offPort_still (s t : State) : Still t (offPort s t).state := by simp (disch := decide) [offPort]

@[simp] theorem readLow_still (s : State) (m : Master) (a : Nat) : Still s (readLow s m a).state := by
  simp (disch := decide) [readLow]

@[simp] theorem readHigh_still (s : State) (m : Master) (a : Nat) : Still s (readHigh s m a).state := by
  unfold readHigh
  split <;> simp (disch := decide)

@[simp] theorem readClears_still (s : State) (m : Master) (a : Nat) (h : a ∉ commitRegs) :
    Still s (readClears s m a).state := by
  simp [readClears, h]

@[simp] theorem readMbx_still (s : State) (m : Master) (a : Nat) : Still s (readMbx s m a).state := by
  unfold readMbx
  split <;> simp (disch := decide)

end Sys2Proof.LockedRoutes
end

section
/-! PROOF. Locked routes (R421), the frame of register writes. An operation that a register write can come to may write the
registers of `commitRegs` too; the routes, the cores and the writes that wait on the halting pages stay. -/

namespace Sys2Proof.LockedRoutes

open Sys2Proof.Machine

theorem Kept.refl (s : State) : Kept s s := ⟨rfl, rfl, rfl⟩

theorem Kept.trans {s t u : State} (h : Kept s t) (k : Kept t u) : Kept s u :=
  ⟨k.1.trans h.1, k.2.1.trans h.2.1, k.2.2.trans h.2.2⟩

theorem foldl_kept {α : Type} {g : State → α → State} (h : ∀ t e, Kept t (g t e)) (l : List α) (s : State) :
    Kept s (l.foldl g s) := by
  induction l generalizing s with
  | nil => exact Kept.refl s
  | cons e r ih => exact (h s e).trans (ih (g s e))

/-! ### The KDE -/

@[simp] theorem setRegBytes_kept (s : State) (a : Nat) (b : Bytes) : Kept s (setRegBytes s a b) :=
  foldl_kept (fun t e => by simp) _ _

/-! ### Branches and keys -/

@[simp] theorem noteCheck_kept (s : State) (c : Check) : Kept s (noteCheck s c) := by
  simp only [noteCheck]
  (repeat' split) <;> simp

@[simp] theorem chargeUse_kept (s : State) (i : Nat) : Kept s (chargeUse s i) := by
  unfold chargeUse
  dsimp only
  (repeat' split) <;> simp

@[simp] theorem flushKeys_kept (s : State) (i : Nat) : Kept s (flushKeys s i) := by simp [flushKeys]
@[simp] theorem useBranch_kept (s : State) (i : Nat) : Kept s (useBranch s i) := by simp [useBranch]

@[simp] theorem createBranch_kept (s : State) (target : Nat) (b : Branch) : Kept s (createBranch s target b) := by
  unfold createBranch
  split <;> simp

/-! ### Accesses of masters and engines -/

@[simp] theorem guardedWrite_kept (s : State) (m : Master) (a : Nat) (f : State → State) (h : ∀ t, Kept t (f t)) :
    Kept s (guardedWrite s m a f) := by
  unfold guardedWrite
  split
  · simp
  split
  · simp
  split
  · simp
  split
  · simp
  · exact h s

@[simp] theorem reachParts_kept (m : Master) (k : Kind) (l : List (Nat × Nat)) (s : State) :
    Kept s (reachParts m k l s).state := by
  induction l generalizing s with
  | nil => exact Kept.refl _
  | cons e r ih =>
    unfold reachParts
    dsimp only
    split <;> simp [ih]

@[simp] theorem reach_kept (s : State) (m : Master) (k : Kind) (a n : Nat) : Kept s (reach s m k a n).state := by
  unfold reach
  dsimp only
  (repeat' split) <;> simp

/-! ### Lattice keys -/

@[simp] theorem enableLanes_kept (s : State) : Kept s (enableLanes s) := by
  unfold enableLanes
  refine foldl_kept (fun t e => ?_) _ _
  simp

@[simp] theorem noLane_kept (s : State) : Kept s (noLane s) := by
  unfold noLane
  split <;> simp

@[simp] theorem recordLaneFence_kept (s : State) (n cause : Nat) : Kept s (recordLaneFence s n cause) := by
  simp [recordLaneFence]

@[simp] theorem fenceLane_kept (s : State) (n cause : Nat) : Kept s (fenceLane s n cause) := by
  unfold fenceLane
  split <;> simp

@[simp] theorem regenKeys_kept (s : State) : Kept s (regenKeys s) := by
  unfold regenKeys
  split <;> simp

@[simp] theorem clearLaneKeys_kept (s : State) (affected : Nat → Bool) : Kept s (clearLaneKeys s affected) := by
  simp [clearLaneKeys]

@[simp] theorem countVerify_kept (s : State) : Kept s (countVerify s) := by simp [countVerify]

/-! ### Modes and resets -/

@[simp] theorem leaveTracks_kept (s : State) : Kept s (leaveTracks s) := by
  unfold leaveTracks
  refine foldl_kept (fun t e => ?_) _ _
  (repeat' split) <;> simp

@[simp] theorem setTier_kept (s : State) (t : Nat) : Kept s (setTier s t) := by
  unfold setTier
  dsimp only
  (repeat' split) <;> simp

/-! ### Lineside sources -/

@[simp] theorem mend_kept (s : State) (a : Nat) : Kept s (mend s a) := by
  unfold mend
  split <;> simp

@[simp] theorem lsmErr_kept (s : State) (b : Nat) : Kept s (lsmErr s b) := by simp [lsmErr]
@[simp] theorem clearSource_kept (s : State) (n : Nat) : Kept s (clearSource s n) := by simp [clearSource]

@[simp] theorem clearSticky_kept (s : State) (n : Nat) (ones : Word) : Kept s (clearSticky s n ones) := by
  unfold clearSticky
  have hfold := foldl_kept clearSource_kept
  split
  · simp
  · dsimp only
    split
    · simp
    · simp [hfold]

@[simp] theorem raiseClass_kept (s : State) (src new_ set : Nat) : Kept s (raiseClass s src new_ set).1 := by
  unfold raiseClass
  dsimp only
  (repeat' split) <;> simp

theorem raiseClasses_kept (first : Nat) (v : Word) (l : List Nat) (a : State × Nat) :
    Kept a.1 (l.foldl (fun a k => raiseClass a.1 (first + k) (bitsOf v (2 * k) 2) a.2) a).1 := by
  induction l generalizing a with
  | nil => exact Kept.refl _
  | cons k r ih => exact (raiseClass_kept _ _ _ _).trans (ih _)

@[simp] theorem writeClass_kept (s : State) (n : Nat) (hi : Bool) (v : Word) : Kept s (writeClass s n hi v) := by
  have hclasses := fun first => raiseClasses_kept first v (List.range 16) (s, (sstGet s (10 + n)).toNat)
  unfold writeClass
  extract_lets base old raised
  split
  · simp
  split
  · simp
  split
  · exact hclasses _
  · exact (hclasses _).trans (sstStore_still _ _ _).1

@[simp] theorem startTest_kept (s : State) (src : Nat) (det : Bool) : Kept s (startTest s src det) := by
  unfold startTest
  dsimp only
  (repeat' split) <;> simp

@[simp] theorem setReason_kept (s : State) (r : Nat) : Kept s (setReason s r) := by simp [setReason]

@[simp] theorem armRelease_kept (s : State) (m : Master) : Kept s (armRelease s m) := by
  unfold armRelease
  dsimp only
  (repeat' split) <;> simp

/-! ### The host link -/

@[simp] theorem cfgLocked_kept (s : State) : Kept s (cfgLocked s) := by simp [cfgLocked]

@[simp] theorem writeSetup_kept (s : State) (r : SetupReg) (h : Half) (v : DWord) : Kept s (writeSetup s r h v) := by
  unfold writeSetup
  split <;> simp

@[simp] theorem openControl_kept (s : State) (v : Word) : Kept s (openControl s v) := by
  unfold openControl
  dsimp only
  (repeat' split) <;> simp

@[simp] theorem closeControl_kept (s : State) (v : Word) : Kept s (closeControl s v) := by
  unfold closeControl
  dsimp only
  (repeat' split) <;> simp

@[simp] theorem unmaskVector_kept (vector : BitVec 11) (s : State) : Kept s (unmaskVector vector s) := by
  unfold unmaskVector
  dsimp only
  (repeat' split) <;> simp

/-! ### Tracks -/

@[simp] theorem fenceByFirmware_kept (s : State) (t : Nat) : Kept s (fenceByFirmware s t) := by
  unfold fenceByFirmware
  dsimp only
  (repeat' split) <;> simp

/-! ### Epochs and manifests -/

@[simp] theorem advanceTtc_kept (s : State) (v : DWord) : Kept s (advanceTtc s v) := by
  unfold advanceTtc
  split <;> simp

@[simp] theorem writeAdvance_kept (s : State) (h : Half) (v : DWord) : Kept s (writeAdvance s h v) := by
  unfold writeAdvance
  split <;> simp

/-! ### Hybrid keys and the table of branches -/

@[simp] theorem viaMae_kept (s : State) (i : Nat) (w : Option (Nat × Nat)) (r : HybridRequest) (f : State → State)
    (h : ∀ t, Kept t (f t)) :
    Kept s (viaMae s i w r f) := by
  unfold viaMae
  split
  · exact h s
  · simp

@[simp] theorem setLevel_kept (s : State) (n : Nat) : Kept s (setLevel s n) := by simp [setLevel]

@[simp] theorem settleLevel_kept (s : State) : Kept s (settleLevel s) := by
  unfold settleLevel
  split <;> simp

@[simp] theorem recordTerminus_kept (s : State) (tId : Bytes) : Kept s (recordTerminus s tId) := by simp [recordTerminus]
@[simp] theorem sealTable_kept (s : State) : Kept s (sealTable s) := by simp [sealTable]
@[simp] theorem measureImage_kept (s : State) (t : TableImage) : Kept s (measureImage s t) := by simp [measureImage]
@[simp] theorem emptyTable_kept (s : State) : Kept s (emptyTable s) := by simp [emptyTable]
@[simp] theorem countParents_kept (s : State) : Kept s (countParents s) := by simp [countParents]
@[simp] theorem takeImage_kept (s : State) (t : TableImage) : Kept s (takeImage s t) := by simp [takeImage]
@[simp] theorem setSealKey_kept (s : State) (v : Word) : Kept s (setSealKey s v) := by simp [setSealKey]

@[simp] theorem installPairing_kept (s : State) (p : BtrPending) : Kept s (installPairing s p) := by
  unfold installPairing
  split <;> simp

@[simp] theorem recordPairing_kept (s : State) (q : Pairing) : Kept s (recordPairing s q) := by
  unfold recordPairing
  split <;> simp

@[simp] theorem structuralEffects_kept (s : State) (p : BtrPending) : Kept s (structuralEffects s p) := by
  unfold structuralEffects
  dsimp only
  (repeat' split) <;> simp

@[simp] theorem endStructural_kept (s : State) (p : BtrPending) : Kept s (endStructural s p) := by
  unfold endStructural
  dsimp only
  (repeat' split) <;> simp

@[simp] theorem structural_kept (s : State) (p : BtrPending) (image : Bool) : Kept s (structural s p image) := by
  unfold structural
  dsimp only
  (repeat' split) <;> simp

@[simp] theorem flushBranch_kept (s : State) (i : Nat) : Kept s (flushBranch s i) := by simp [flushBranch]
@[simp] theorem setBranch_kept (s : State) (i : Nat) (f : Branch → Branch) : Kept s (setBranch s i f) := by simp [setBranch]
@[simp] theorem markInvalid_kept (s : State) (i : Nat) : Kept s (markInvalid s i) := by simp [markInvalid]

/-! ### Branch tree commands -/

@[simp] theorem btrReserved_kept (s : State) (m : Master) : Kept s (btrReserved s m) := by
  refine guardedWrite_kept _ _ _ _ (fun t => ?_)
  split <;> simp

@[simp] theorem bufFails_kept (r : Reach) : Kept r.state (bufFails r) := by
  unfold bufFails
  (repeat' split) <;> simp

@[simp] theorem withBuf_kept (s : State) (a : BtrArgs) (n : Nat) (f : State → Bytes → State) (h : ∀ t b, Kept t (f t b)) :
    Kept s (withBuf s a n f) := by
  unfold withBuf
  dsimp only
  split
  · exact Kept.trans (by simp) (h _ _)
  · exact Kept.trans (by simp) (bufFails_kept _)

@[simp] theorem putBuf_kept (s : State) (a : BtrArgs) (o : Nat) (b : Bytes) (f : State → State) (h : ∀ t, Kept t (f t)) :
    Kept s (putBuf s a o b f) := by
  unfold putBuf
  dsimp only
  split
  · exact Kept.trans (by simp) (h _)
  · exact Kept.trans (by simp) (bufFails_kept _)

@[simp] theorem withEntry_kept (s : State) (i : Nat) (f : Nat → Branch → State) (h : ∀ i b, Kept s (f i b)) :
    Kept s (withEntry s i f) := by
  unfold withEntry
  split
  · simp
  · split
    · simp
    · exact h _ _

@[simp] theorem refuseWorn_kept (s : State) (f : State → State) (h : ∀ t, Kept t (f t)) : Kept s (refuseWorn s f) := by
  unfold refuseWorn
  split
  · simp
  · exact h s

@[simp] theorem enterBranch_kept (s : State) (op i : Nat) (b : Branch) : Kept s (enterBranch s op i b) := by simp [enterBranch]

@[simp] theorem deriveCommand_kept (s : State) (a : BtrArgs) : Kept s (deriveCommand s a) := by
  refine withBuf_kept _ _ _ _ (fun s b => ?_)
  dsimp only
  (repeat' split) <;> simp

@[simp] theorem encapsCommand_kept (peer : Bytes) (s : State) (a : BtrArgs) : Kept s (encapsCommand peer s a) := by
  refine withBuf_kept _ _ _ _ (fun s b => ?_)
  dsimp only
  (repeat' split) <;> simp

@[simp] theorem decapsCommand_kept (ct : Bytes) (s : State) (a : BtrArgs) : Kept s (decapsCommand ct s a) := by
  refine withBuf_kept _ _ _ _ (fun s b => ?_)
  dsimp only
  (repeat' split) <;> simp

@[simp] theorem invalidateCommand_kept (s : State) (a : BtrArgs) : Kept s (invalidateCommand s a) := by
  refine withEntry_kept _ _ _ (fun i b => ?_)
  (repeat' split) <;> simp

@[simp] theorem purgeCommand_kept (s : State) (a : BtrArgs) : Kept s (purgeCommand s a) := by
  refine withEntry_kept _ _ _ (fun i b => ?_)
  (repeat' split) <;> simp

@[simp] theorem rotateCommand_kept (s : State) (a : BtrArgs) : Kept s (rotateCommand s a) := by
  refine withEntry_kept _ _ _ (fun i b => ?_)
  (repeat' split) <;> simp

@[simp] theorem putTrunk_kept (s : State) (k : Bytes) : Kept s (putTrunk s k) := by simp [putTrunk]

@[simp] theorem trunkCreate_kept (s : State) (a : BtrArgs) : Kept s (trunkCreate s a) := by
  simp only [trunkCreate]
  (repeat' split) <;> simp

@[simp] theorem backupCommand_kept (s : State) (a : BtrArgs) : Kept s (backupCommand s a) := by
  unfold backupCommand
  dsimp only
  (repeat' split) <;> simp

@[simp] theorem rescueCommand_kept (s : State) (a : BtrArgs) : Kept s (rescueCommand s a) := by
  unfold rescueCommand
  dsimp only
  (repeat' split) <;> simp

@[simp] theorem releaseWith_kept (s : State) (a : BtrArgs) (kp blob pub : Bytes) : Kept s (releaseWith s a kp blob pub) := by
  unfold releaseWith
  dsimp only
  (repeat' split) <;> simp

@[simp] theorem releaseBranch_kept (s : State) (a : BtrArgs) (i : Nat) (kp blob pub : Bytes) :
    Kept s (releaseBranch s a i kp blob pub) := by
  unfold releaseBranch
  dsimp only
  (repeat' split) <;> simp

@[simp] theorem releaseSigned_kept (s : State) (a : BtrArgs) (blob pub : Bytes) : Kept s (releaseSigned s a blob pub) := by
  unfold releaseSigned
  split <;> simp

@[simp] theorem releaseCommand_kept (s : State) (a : BtrArgs) : Kept s (releaseCommand s a) := by
  refine withBuf_kept _ _ _ _ (fun s b => ?_)
  dsimp only
  (repeat' split) <;> simp

/-! ### Services of waybills -/

@[simp] theorem endWith_kept (s : State) (l id status : Nat) : Kept s (endWith s l id status) := by simp [endWith]

@[simp] theorem encapsInstall_kept (s : State) (l : Nat) (f : Flight) (pub : Bytes) : Kept s (encapsInstall s l f pub) := by
  unfold encapsInstall
  dsimp only
  (repeat' split) <;> simp

@[simp] theorem encapsWaybill_kept (peer : Bytes) (s : State) (l : Nat) (f : Flight) : Kept s (encapsWaybill peer s l f) := by
  unfold encapsWaybill
  dsimp only
  (repeat' split) <;> simp

@[simp] theorem decapsInstall_kept (s : State) (l : Nat) (f : Flight) (ct : Bytes) : Kept s (decapsInstall s l f ct) := by
  simp [decapsInstall]

@[simp] theorem decapsWaybill_kept (ct : Bytes) (s : State) (l : Nat) (f : Flight) : Kept s (decapsWaybill ct s l f) := by
  unfold decapsWaybill
  dsimp only
  (repeat' split) <;> simp

@[simp] theorem deriveInstall_kept (s : State) (l : Nat) (f : Flight) : Kept s (deriveInstall s l f) := by
  unfold deriveInstall
  dsimp only
  (repeat' split) <;> simp

@[simp] theorem deriveWaybill_kept (s : State) (l : Nat) (f : Flight) : Kept s (deriveWaybill s l f) := by
  unfold deriveWaybill
  dsimp only
  (repeat' split) <;> simp

/-! ### The KDE -/

@[simp] theorem kdeNotOwner_kept (s : State) : Kept s (kdeNotOwner s) := by simp [kdeNotOwner]
@[simp] theorem kdeRefused_kept (s : State) : Kept s (kdeRefused s) := by simp [kdeRefused]
@[simp] theorem kdeSetState_kept (s : State) (n : Nat) : Kept s (kdeSetState s n) := by simp [kdeSetState]
@[simp] theorem kdeEnd_kept (s : State) (code : Nat) : Kept s (kdeEnd s code) := by simp [kdeEnd]
@[simp] theorem kdeWaiting_kept (s : State) : Kept s (kdeWaiting s) := by simp [kdeWaiting]

@[simp] theorem kdeRunCompare_kept (s : State) (out : Bytes) (split : Bool) : Kept s (kdeRunCompare s out split) := by
  unfold kdeRunCompare
  dsimp only
  (repeat' split) <;> simp

@[simp] theorem kdeFinish_kept (s : State) (split : Bool) : Kept s (kdeFinish s split) := by
  unfold kdeFinish
  dsimp only
  (repeat' split) <;> simp

@[simp] theorem kdeAdvance_kept (s : State) (split : Bool) : Kept s (kdeAdvance s split) := by
  unfold kdeAdvance
  split <;> simp

@[simp] theorem kdeBegin_kept (s : State) (w : Word) (split : Bool) : Kept s (kdeBegin s w split) := by
  unfold kdeBegin
  dsimp only
  (repeat' split) <;> simp

@[simp] theorem kdeStartJob_kept (s : State) (m : Master) (split : Bool) : Kept s (kdeStartJob s m split) := by
  unfold kdeStartJob
  dsimp only
  (repeat' split) <;> simp

@[simp] theorem kdeFeed_kept (s : State) : Kept s (kdeFeed s) := by
  unfold kdeFeed
  dsimp only
  (repeat' split) <;> simp

@[simp] theorem kdeTakeBytes_kept (s : State) (n : Nat) : Kept s (kdeTakeBytes s n) := by simp [kdeTakeBytes]

@[simp] theorem withKsv_kept (s : State) : Kept s (withKsv s) := by
  unfold withKsv
  split <;> simp

@[simp] theorem kdeWriteBlob_kept (s : State) : Kept s (kdeWriteBlob s) := by
  unfold kdeWriteBlob
  dsimp only
  (repeat' split) <;> simp

@[simp] theorem kdeStop_kept (s : State) (n : Nat) : Kept s (kdeStop s n) := by
  unfold kdeStop
  dsimp only
  (repeat' split) <;> simp

@[simp] theorem kdeSaveFeeding_kept (s : State) : Kept s (kdeSaveFeeding s) := by
  unfold kdeSaveFeeding
  dsimp only
  (repeat' split) <;> simp

@[simp] theorem kdeSave_kept (s : State) : Kept s (kdeSave s) := by
  simp only [kdeSave]
  (repeat' split) <;> simp

@[simp] theorem kdeAbort_kept (s : State) : Kept s (kdeAbort s) := by
  unfold kdeAbort
  split <;> simp

@[simp] theorem kdeSaveUnless_kept (s : State) (abort : Bool) : Kept s (kdeSaveUnless s abort) := by
  unfold kdeSaveUnless
  split <;> simp

@[simp] theorem kdeClear_kept (s : State) : Kept s (kdeClear s) := by simp [kdeClear]

@[simp] theorem kdeForce_kept (s : State) : Kept s (kdeForce s) := by
  unfold kdeForce
  split <;> simp

@[simp] theorem kdeRelease_kept (s : State) (m : Master) : Kept s (kdeRelease s m) := by
  simp only [kdeRelease]
  (repeat' split) <;> simp

/-! ### MAE arithmetic -/

@[simp] theorem putTail_kept (s : State) (n : Nat) (b : Bytes) : Kept s (putTail s n b) := by simp [putTail]

/-! ### The MAE -/

@[simp] theorem maeOwned_kept (s : State) (m : Master) (f : State → State) (h : ∀ t, Kept t (f t)) :
    Kept s (maeOwned s m f) := by
  unfold maeOwned
  split
  · exact h s
  · simp

@[simp] theorem maeRefused_kept (s : State) : Kept s (maeRefused s) := by simp [maeRefused]
@[simp] theorem shortFails_kept (s : State) (code : Nat) : Kept s (shortFails s code) := by simp [shortFails]

@[simp] theorem runShort_kept (s : State) : Kept s (runShort s) := by
  unfold runShort
  dsimp only
  (repeat' split) <;> simp

@[simp] theorem runShortIf_kept (s : State) : Kept s (runShortIf s) := by
  unfold runShortIf
  split <;> simp

@[simp] theorem resumeWaybill_kept (s : State) (l id op : Nat) (data : Bytes) : Kept s (resumeWaybill s l id op data) := by
  simp only [resumeWaybill]
  (repeat' split) <;> simp

@[simp] theorem refuseRequest_kept (s : State) : Kept s (refuseRequest s) := by
  unfold refuseRequest
  dsimp only
  (repeat' split) <;> simp

@[simp] theorem maeAbort_kept (s : State) : Kept s (maeAbort s) := by
  unfold maeAbort
  split <;> simp

@[simp] theorem maeRelease_kept (s : State) (m : Master) : Kept s (maeRelease s m) := by
  simp only [maeRelease]
  (repeat' split) <;> simp

@[simp] theorem slockOwned_kept (s : State) (m : Master) (f : State → State) (h : ∀ t, Kept t (f t)) :
    Kept s (slockOwned s m f) := by
  unfold slockOwned
  split
  · exact h s
  · simp

@[simp] theorem shortWrite_kept (s : State) (v : Word) : Kept s (shortWrite s v) := by
  unfold shortWrite
  dsimp only
  (repeat' split) <;> simp

@[simp] theorem zeroShortSlots_kept (s : State) : Kept s (zeroShortSlots s) := by
  unfold zeroShortSlots
  split <;> simp

@[simp] theorem slockForce_kept (s : State) : Kept s (slockForce s) := by
  unfold slockForce
  dsimp only
  (repeat' split) <;> simp

@[simp] theorem slockRelease_kept (s : State) (m : Master) : Kept s (slockRelease s m) := by
  simp only [slockRelease]
  (repeat' split) <;> simp

/-! ### Lanes -/

@[simp] theorem unsignedNow_kept (s : State) : Kept s (unsignedNow s) := by
  unfold unsignedNow
  dsimp only
  (repeat' split) <;> simp

@[simp] theorem lsuFence_kept (s : State) (n cause : Nat) : Kept s (lsuFence s n cause) := by simp [lsuFence]

@[simp] theorem noLaneEnds_kept (s : State) : Kept s (noLaneEnds s) := by
  unfold noLaneEnds
  split <;> simp

@[simp] theorem lsuPush_kept (s : State) (m : Master) (a : Word) : Kept s (lsuPush s m a) := by
  simp only [lsuPush]
  (repeat' split) <;> simp

/-! ### The boot record -/

@[simp] theorem writeRec_kept (s : State) (r : BootRec) : Kept s (writeRec s r) := by
  unfold writeRec
  dsimp only
  (repeat' split) <;> simp

/-! ### Flash commands -/

@[simp] theorem flcResult_kept (s : State) (st : Nat) : Kept s (flcResult s st) := by simp [flcResult]

@[simp] theorem startOp_kept (s : State) (k : FlashOp) : Kept s (startOp s k) := by
  unfold startOp
  split <;> simp

@[simp] theorem mapWrite_kept (s : State) (v : Word) : Kept s (mapWrite s v) := by
  unfold mapWrite
  dsimp only
  (repeat' split) <;> simp

/-! ### Mailboxes and tablets -/

@[simp] theorem claimFree_kept (s : State) (m : Master) (n : Nat) : Kept s (claimFree s m n) := by
  unfold claimFree
  dsimp only
  (repeat' split) <;> simp

@[simp] theorem post_kept (s : State) (m : Master) (n : Nat) (v : Word) : Kept s (post s m n v) := by
  unfold post
  dsimp only
  (repeat' split) <;> simp

@[simp] theorem cfgWrite_kept (s : State) (n : Nat) (v : Word) : Kept s (cfgWrite s n v) := by simp [cfgWrite]

@[simp] theorem tabletFree_kept (s : State) (m : Master) (t : Nat) : Kept s (tabletFree s m t) := by
  unfold tabletFree
  dsimp only
  (repeat' split) <;> simp

/-! ### Routes and debug sessions -/

@[simp] theorem loadRoute_kept (s : State) : Kept s (loadRoute s) := by
  unfold loadRoute
  dsimp only
  (repeat' split) <;> simp

/-! ### Cards -/

@[simp] theorem setCciState_kept (s : State) (n : Nat) : Kept s (setCciState s n) := by simp [setCciState]
@[simp] theorem cciErr_kept (s : State) (b : Nat) : Kept s (cciErr s b) := by simp [cciErr]
@[simp] theorem cciResult_kept (s : State) (st : Nat) : Kept s (cciResult s st) := by simp [cciResult]
@[simp] theorem setCid_kept (s : State) (b : Bytes) : Kept s (setCid s b) := by simp [setCid]
@[simp] theorem powerOffCard_kept (s : State) : Kept s (powerOffCard s) := by simp [powerOffCard]

@[simp] theorem negotiateCard_kept (s : State) (c : Card) : Kept s (negotiateCard s c) := by
  unfold negotiateCard
  split <;> simp

@[simp] theorem readyCard_kept (s : State) : Kept s (readyCard s) := by
  simp only [readyCard]
  (repeat' split) <;> simp

@[simp] theorem modCard_kept (s : State) (f : CardImage → CardImage) : Kept s (modCard s f) := by simp [modCard]
@[simp] theorem lockCard_kept (s : State) (i : Nat) : Kept s (lockCard s i) := by simp [lockCard]

@[simp] theorem cciReserved_kept (s : State) (m : Master) : Kept s (cciReserved s m) := by
  refine guardedWrite_kept _ _ _ _ (fun t => ?_)
  split <;> simp

@[simp] theorem lockRefused_kept (s : State) (k : Check) : Kept s (lockRefused s k) := by
  unfold lockRefused
  split <;> simp

@[simp] theorem formatCredential_kept (s : State) : Kept s (formatCredential s) := by
  unfold formatCredential
  dsimp only
  (repeat' split) <;> simp

/-! ### Lookout -/

@[simp] theorem rebasePing_kept (s : State) : Kept s (rebasePing s) := by simp [rebasePing]
@[simp] theorem endAuto_kept (s : State) (entries : List Bytes) : Kept s (endAuto s entries) := by simp [endAuto]

@[simp] theorem selfTest_kept (s : State) (gamma : Byte) (answers : List TagObs) : Kept s (selfTest s gamma answers) := by
  unfold selfTest
  split <;> simp

@[simp] theorem stopAuto_kept (s : State) : Kept s (stopAuto s) := by
  unfold stopAuto
  dsimp only
  (repeat' split) <;> simp

@[simp] theorem storeBadge_kept (s : State) (p : Nat) (d pass : Bytes) : Kept s (storeBadge s p d pass) := by simp [storeBadge]

@[simp] theorem sendBadge_kept (s : State) (t : EnrolObs) (l : List AirCommand) : Kept s (sendBadge s t l) := by
  simp [sendBadge]

@[simp] theorem enrolTag_kept (s : State) (p : Nat) (t : EnrolObs) : Kept s (enrolTag s p t) := by
  unfold enrolTag
  dsimp only
  (repeat' split) <;> simp

@[simp] theorem enrolBadge_kept (s : State) (gamma : Byte) (tags : List EnrolObs) : Kept s (enrolBadge s gamma tags) := by
  unfold enrolBadge
  dsimp only
  (repeat' split) <;> simp

/-! ### Boot and modes -/

@[simp] theorem modeResult_kept (s : State) (st reason : Nat) : Kept s (modeResult s st reason) := by simp [modeResult]
@[simp] theorem refuseMode_kept (s : State) (reason : Nat) : Kept s (refuseMode s reason) := by simp [refuseMode]

@[simp] theorem commitImageSlot_kept (s : State) : Kept s (commitImageSlot s) := by
  unfold commitImageSlot
  dsimp only
  (repeat' split) <;> simp

@[simp] theorem setDeadman_kept (s : State) (n : Nat) (d : Deadman) : Kept s (setDeadman s n d) := by simp [setDeadman]

/-! ### Events and settings -/

@[simp] theorem putEvtRoute_kept (s : State) (n : Nat) (w : Word) : Kept s (putEvtRoute s n w) := by simp [putEvtRoute]

@[simp] theorem writeEvtRoute_kept (s : State) (n : Nat) (v : Word) : Kept s (writeEvtRoute s n v) := by
  unfold writeEvtRoute
  dsimp only
  (repeat' split) <;> simp

@[simp] theorem clearPending_kept (s : State) (m : Master) (n : Nat) (ones : Word) : Kept s (clearPending s m n ones) := by
  unfold clearPending
  refine foldl_kept (fun t e => ?_) _ _
  (repeat' split) <;> simp

@[simp] theorem writeSst_kept (s : State) (m : Master) (i : Nat) (hi : Word) : Kept s (writeSst s m i hi) := by
  unfold writeSst
  dsimp only
  (repeat' split) <;> simp

@[simp] theorem sstHalf_kept (s : State) (m : Master) (i : Nat) (hi : Bool) (v : Word) : Kept s (sstHalf s m i hi v) := by
  unfold sstHalf
  split <;> simp

/-! ### The host -/

@[simp] theorem dmaEnd_kept (s : State) (c code moved : Nat) : Kept s (dmaEnd s c code moved) := by simp [dmaEnd]

@[simp] theorem startDma_kept (s : State) (c dir : Nat) : Kept s (startDma s c dir) := by
  unfold startDma
  dsimp only
  (repeat' split) <;> simp

@[simp] theorem readPart_kept (s : State) (c dir : Nat) (host : Bytes) (lo hi : Nat) :
    Kept s (readPart s c dir host lo hi).1.state := by
  unfold readPart
  split <;> simp

@[simp] theorem writePart_kept (s : State) (c dir lo : Nat) (b : Bytes) : Kept s (writePart s c dir lo b).state := by
  unfold writePart
  split <;> simp

@[simp] theorem copyLoop_kept (c dir : Nat) (host : Bytes) (l : List (Nat × Nat)) (s : State) (n : Nat) :
    Kept s (copyLoop c dir host l s n).state := by
  induction l generalizing s n with
  | nil => exact Kept.refl _
  | cons e r ih =>
    unfold copyLoop
    dsimp only
    (repeat' split) <;> simp [ih]

@[simp] theorem copyBytes_kept (s : State) (c n : Nat) (host : Bytes) : Kept s (copyBytes s c n host).state := by
  simp [copyBytes]

@[simp] theorem abortDma_kept (s : State) (c : Nat) : Kept s (abortDma s c) := by
  unfold abortDma
  dsimp only
  (repeat' split) <;> simp

/-! ### The bus -/

@[simp] theorem writePlain_kept (s : State) (a : Nat) (v : Word) : Kept s (writePlain s a v) := by
  unfold writePlain
  split <;> simp

@[simp] theorem selectMeas_kept (s : State) (v : Word) : Kept s (selectMeas s v) := by
  unfold selectMeas
  split <;> simp

@[simp] theorem wClk_kept (s : State) (a : Nat) (v : Word) : Kept s (wClk s a v) := by
  unfold wClk
  split <;> simp

@[simp] theorem wPwr_kept (s : State) (a : Nat) (v : Word) : Kept s (wPwr s a v) := by
  unfold wPwr
  dsimp only
  (repeat' split) <;> simp

@[simp] theorem wEvt_kept (s : State) (m : Master) (a : Nat) (v : Word) : Kept s (wEvt s m a v) := by
  simp only [wEvt]
  (repeat' split) <;> simp

@[simp] theorem wMbx_kept (s : State) (m : Master) (a : Nat) (v : Word) : Kept s (wMbx s m a v) := by
  unfold wMbx
  dsimp only
  (repeat' split) <;> simp

@[simp] theorem writeDmnCtrl_kept (s : State) (n : Nat) (v : Word) : Kept s (writeDmnCtrl s n v) := by
  unfold writeDmnCtrl
  dsimp only
  (repeat' split) <;> simp

@[simp] theorem wTtc_kept (s : State) (a : Nat) (v : Word) : Kept s (wTtc s a v) := by
  simp only [wTtc]
  (repeat' split) <;> simp

@[simp] theorem writeMaeOp_kept (s : State) (v : Word) : Kept s (writeMaeOp s v) := by simp [writeMaeOp]

@[simp] theorem writeMaeConfig_kept (s : State) (v : Word) : Kept s (writeMaeConfig s v) := by
  unfold writeMaeConfig
  split <;> simp

@[simp] theorem writeEpochLen_kept (s : State) (hi : Word) : Kept s (writeEpochLen s hi) := by
  unfold writeEpochLen
  dsimp only
  (repeat' split) <;> simp

@[simp] theorem wSeal_kept (s : State) (a : Nat) (v : Word) : Kept s (wSeal s a v) := by
  simp only [wSeal]
  (repeat' split) <;> simp

@[simp] theorem wTlp_kept (s : State) (a : Nat) (v : Word) : Kept s (wTlp s a v) := by
  simp only [wTlp]
  (repeat' split) <;> simp

@[simp] theorem wSst_kept (s : State) (m : Master) (a : Nat) (v : Word) : Kept s (wSst s m a v) := by
  unfold wSst
  split <;> simp

@[simp] theorem writeMsix_kept (s : State) (a : Nat) (v : Word) : Kept s (writeMsix s a v) := by
  unfold writeMsix
  dsimp only
  (repeat' split) <;> simp

@[simp] theorem dropMirrors_kept (s : State) : Kept s (dropMirrors s) := by
  unfold dropMirrors
  split <;> simp

@[simp] theorem writeDmaCtrl_kept (s : State) (c : Nat) (v : Word) : Kept s (writeDmaCtrl s c v) := by
  unfold writeDmaCtrl
  dsimp only
  (repeat' split) <;> simp

@[simp] theorem wDma_kept (s : State) (a : Nat) (v : Word) : Kept s (wDma s a v) := by
  rw [wDma]
  (repeat' split) <;> simp

end Sys2Proof.LockedRoutes
end

section
/-! PROOF. Locked routes (R421), the frame of the other commands: of an operation that no read and no register write comes to, the
routes alone are followed. -/

namespace Sys2Proof.LockedRoutes

open Sys2Proof.Machine

theorem foldl_routes {α : Type} {g : State → α → State} (h : ∀ t e, (g t e).routes = t.routes) (l : List α) (s : State) :
    (l.foldl g s).routes = s.routes := by
  induction l generalizing s with
  | nil => rfl
  | cons e r ih => exact (ih (g s e)).trans (h s e)

/-! ### Lines and tracks -/

@[simp] theorem acceptFill_routes (s : State) (l : Nat) (slotBytes : Bytes) :
    (acceptFill s l slotBytes).routes = s.routes := by
  simp [acceptFill]

@[simp] theorem completeAtOnce_routes (s : State) (l id status : Nat) : (completeAtOnce s l id status).routes = s.routes := by
  unfold completeAtOnce
  dsimp only
  (repeat' split) <;> simp

/-! ### Marshalling of lines -/

@[simp] theorem installLineKey_routes (s : State) (l : Nat) (c : Machine.Context) :
    (installLineKey s l c).routes = s.routes := by
  simp [installLineKey]

@[simp] theorem putConsist_routes (s : State) (l : Nat) (f : Flight) (records : Bytes) :
    (putConsist s l f records).routes = s.routes := by
  unfold putConsist
  dsimp only
  (repeat' split) <;> simp

/-! ### Accesses of masters and engines -/

@[simp] theorem guardedPair_routes (s : State) (m : Master) (a : Nat) (f : State → State) (h : ∀ t, (f t).routes = t.routes) :
    (guardedPair s m a f).routes = s.routes := by
  unfold guardedPair
  (repeat' split) <;> simp [h]

@[simp] theorem noteSeen_routes (s : State) (seen : Access) (tile : Nat) : (noteSeen s seen tile).routes = s.routes := by
  unfold noteSeen
  split <;> simp

/-! ### Flash storage -/

@[simp] theorem eraseBlock_routes (s : State) (die block : Nat) : (eraseBlock s die block).routes = s.routes := by
  simp [eraseBlock]

@[simp] theorem slotWrite_routes (s : State) (slot off : Nat) (b : Bytes) : (slotWrite s slot off b).routes = s.routes := by
  unfold slotWrite
  refine foldl_routes (fun t i => ?_) _ _
  rfl

@[simp] theorem eraseSlot_routes (s : State) (slot : Nat) : (eraseSlot s slot).routes = s.routes := by
  unfold eraseSlot
  refine foldl_routes (fun t e => ?_) _ _
  simp

@[simp] theorem shrinkReserve_routes (s : State) (k : Nat) : (shrinkReserve s k).routes = s.routes := by
  unfold shrinkReserve
  split <;> simp

@[simp] theorem replaceBlock_routes (s : State) (k : Nat) : (replaceBlock s k).routes = s.routes := by
  unfold replaceBlock
  dsimp only
  (repeat' split) <;> simp

@[simp] theorem retireBlock_routes (s : State) (die block : Nat) : (retireBlock s die block).routes = s.routes := by
  unfold retireBlock
  dsimp only
  (repeat' split) <;> simp

@[simp] theorem noteFull_routes (s : State) : (noteFull s).routes = s.routes := by
  unfold noteFull
  split <;> simp

/-! ### Opening and closing of lines -/

@[simp] theorem tryPause_routes (s : State) (id : Nat) (raw : Bytes) : (tryPause s id raw).routes = s.routes := by
  unfold tryPause withRecord
  dsimp only
  (repeat' split) <;> simp

@[simp] theorem closeLine_routes (s : State) (id l seq : Nat) (head : Bytes) :
    (closeLine s id l seq head).routes = s.routes := by
  unfold closeLine
  dsimp only
  (repeat' split) <;> simp

@[simp] theorem closeFilled_routes (s : State) (id l : Nat) : (closeFilled s id l).routes = s.routes := by
  unfold closeFilled
  dsimp only
  (repeat' split) <;> simp

@[simp] theorem tryClose_routes (s : State) (id : Nat) (raw : Bytes) : (tryClose s id raw).routes = s.routes := by
  unfold tryClose withRecord
  dsimp only
  (repeat' split) <;> simp

@[simp] theorem retryControl_routes (s : State) (l : Nat) : (retryControl s l).routes = s.routes := by
  simp only [retryControl]
  (repeat' split) <;> simp

@[simp] theorem failControl_routes (s : State) (l status : Nat) : (failControl s l status).routes = s.routes := by
  simp only [failControl]
  (repeat' split) <;> simp

/-! ### Modes and resets -/

@[simp] theorem setReady_routes (s : State) : (setReady s).routes = s.routes := by
  unfold setReady
  split <;> simp

/-! ### Lineside sources -/

@[simp] theorem presentResult_routes (s : State) (badge ok : Bool) (person : Byte) :
    (presentResult s badge ok person).routes = s.routes := by
  unfold presentResult
  split <;> simp

/-! ### Line rows -/

@[simp] theorem dropDoorbell_routes (s : State) (bits : Word) : (dropDoorbell s bits).routes = s.routes := by
  simp [dropDoorbell]

@[simp] theorem rejectDoorbell_routes (s : State) (l : Nat) (ring : Bool) (reason : Nat) :
    (rejectDoorbell s l ring reason).routes = s.routes := by
  simp [rejectDoorbell]

@[simp] theorem takeDoorbell_routes (s : State) (l : Nat) (ring : Bool) (i : Nat) :
    (takeDoorbell s l ring i).routes = s.routes := by
  unfold takeDoorbell
  dsimp only
  (repeat' split) <;> simp

@[simp] theorem doorbellWrite_routes (s : State) (off : Nat) (whole : Bool) (v : DWord) :
    (doorbellWrite s off whole v).routes = s.routes := by
  simp only [doorbellWrite]
  (repeat' split) <;> simp

@[simp] theorem humpGrant_routes (s : State) (c used l : Nat) : (humpGrant s c used l).routes = s.routes := by simp [humpGrant]

@[simp] theorem notePeaks_routes (s : State) : (notePeaks s).routes = s.routes := by
  unfold notePeaks
  dsimp only
  (repeat' split) <;> simp

@[simp] theorem passEntry_routes (s : State) (l : Nat) : (passEntry s l).routes = s.routes := by simp [passEntry]
@[simp] theorem putFlight_routes (s : State) (l : Nat) (f : Flight) : (putFlight s l f).routes = s.routes := by simp [putFlight]

@[simp] theorem admitData_routes (s : State) (l : Nat) (f : Flight) : (admitData s l f).routes = s.routes := by
  unfold admitData
  split <;> simp

@[simp] theorem enterData_routes (s : State) (l : Nat) (f : Flight) (st : Nat) : (enterData s l f st).routes = s.routes := by
  unfold enterData
  split <;> simp

@[simp] theorem refuseControl_routes (s : State) (f : Flight) (st : Nat) : (refuseControl s f st).routes = s.routes := by
  unfold refuseControl
  dsimp only
  (repeat' split) <;> simp

@[simp] theorem enterService_routes (s : State) (l : Nat) (f : Flight) (st : Nat) :
    (enterService s l f st).routes = s.routes := by
  simp only [enterService]
  (repeat' split) <;> simp

@[simp] theorem admitEntry_routes (s : State) (l : Nat) (raw : Bytes) : (admitEntry s l raw).routes = s.routes := by
  unfold admitEntry
  dsimp only
  (repeat' split) <;> simp

@[simp] theorem humpAdmit_routes (s : State) (l : Nat) (entry : Bytes) : (humpAdmit s l entry).routes = s.routes := by
  unfold humpAdmit
  dsimp only
  (repeat' split) <;> simp

@[simp] theorem startFills_routes (s : State) : (startFills s).routes = s.routes := by
  unfold startFills
  refine foldl_routes (fun t e => ?_) _ _
  (repeat' split) <;> simp

@[simp] theorem afterTransfer_routes (s : State) : (afterTransfer s).routes = s.routes := by simp [afterTransfer]

@[simp] theorem fillReturns_routes (s : State) (l : Nat) (b : Bytes) : (fillReturns s l b).routes = s.routes := by
  simp only [fillReturns]
  (repeat' split) <;> simp

@[simp] theorem spillGone_routes (s : State) (l : Nat) : (spillGone s l).routes = s.routes := by simp [spillGone]

@[simp] theorem spillLeaves_routes (s : State) (l : Nat) : (spillLeaves s l).routes = s.routes := by
  unfold spillLeaves
  dsimp only
  (repeat' split) <;> simp

/-! ### The host link -/

@[simp] theorem releaseHeld_routes (s : State) : (releaseHeld s).routes = s.routes := by
  unfold releaseHeld
  refine (foldl_routes (fun t e => ?_) _ _).trans rfl
  split <;> simp

@[simp] theorem sendPending_routes (s : State) : (sendPending s).routes = s.routes := by simp [sendPending]
@[simp] theorem trainLink_routes (s : State) (cfg : BitVec 2) : (trainLink s cfg).routes = s.routes := by simp [trainLink]

@[simp] theorem loseLink_routes (s : State) : (loseLink s).routes = s.routes := by
  unfold loseLink
  split <;> simp

@[simp] theorem dropSession_routes (s : State) : (dropSession s).routes = s.routes := by
  unfold dropSession
  exact (foldl_routes (fun t e => by simp) _ _).trans (by simp)

@[simp] theorem maskVectors_routes (s : State) : (maskVectors s).routes = s.routes := by simp [maskVectors]

/-! ### Tracks -/

@[simp] theorem readKey_routes (s : State) (l : Nat) (key : Bytes) : (readKey s l key).routes = s.routes := by simp [readKey]

@[simp] theorem deriveLineKey_routes (s : State) (l : Nat) (f : Flight) : (deriveLineKey s l f).routes = s.routes := by
  unfold deriveLineKey
  dsimp only
  (repeat' split) <;> simp

@[simp] theorem withKey_routes (s : State) (l : Nat) : (withKey s l).routes = s.routes := by
  unfold withKey
  split <;> simp

@[simp] theorem fetched_routes (s : State) (l : Nat) (records : Bytes) : (fetched s l records).routes = s.routes := by
  simp only [fetched]
  (repeat' split) <;> simp

@[simp] theorem stampHead_routes (s : State) (l op : Nat) (records : Bytes) :
    (stampHead s l op records).routes = s.routes := by
  unfold stampHead
  dsimp only
  (repeat' split) <;> simp

@[simp] theorem runData_routes (s : State) (l op : Nat) (records expected : Bytes) :
    (runData s l op records expected).routes = s.routes := by
  unfold runData
  dsimp only
  (repeat' split) <;> simp

@[simp] theorem fenceWith_routes (s : State) (l : Nat) (c : Machine.Context) (f : Flight) :
    (fenceWith s l c f).routes = s.routes := by
  unfold fenceWith
  split <;> simp

@[simp] theorem fenceNow_routes (s : State) (l : Nat) (f : Flight) : (fenceNow s l f).routes = s.routes := by
  simp only [fenceNow]
  (repeat' split) <;> simp

@[simp] theorem runFence_routes (s : State) (l : Nat) : (runFence s l).routes = s.routes := by
  unfold runFence
  dsimp only
  (repeat' split) <;> simp

@[simp] theorem selfTestTrack_routes (s : State) (t : Nat) (pass : Bool) : (selfTestTrack s t pass).routes = s.routes := by
  unfold selfTestTrack
  dsimp only
  (repeat' split) <;> simp

/-! ### Epochs and manifests -/

@[simp] theorem rootFrozen_routes (s : State) : (rootFrozen s).routes = s.routes := by
  simp only [rootFrozen]
  (repeat' split) <;> simp

@[simp] theorem manifestSigned_routes (s : State) : (manifestSigned s).routes = s.routes := by
  simp only [manifestSigned]
  (repeat' split) <;> simp

/-! ### Hybrid keys and the table of branches -/

@[simp] theorem commitImage_routes (s : State) : (commitImage s).routes = s.routes := by
  unfold commitImage
  dsimp only
  (repeat' split) <;> simp

/-! ### Branch tree commands -/

@[simp] theorem beforeImage_routes (s : State) (p : BtrPending) : (beforeImage s p).routes = s.routes := by
  unfold beforeImage
  split <;> simp

@[simp] theorem finishCommand_routes (s : State) (p : BtrPending) : (finishCommand s p).routes = s.routes := by
  simp only [finishCommand]
  (repeat' split) <;> simp

@[simp] theorem dropPairing_routes (s : State) (st : Station) : (dropPairing s st).routes = s.routes := by
  unfold dropPairing
  split <;> simp

@[simp] theorem retireSlot_routes (s : State) (i : Nat) (st : Station) : (retireSlot s i st).routes = s.routes := by
  simp [retireSlot]

/-! ### Services of waybills -/

@[simp] theorem reply_routes (l id : Nat) (r : Reply) : (reply l id r).routes = r.state.routes := by simp [reply]

@[simp] theorem runUnless_routes (s : State) (line : BitVec 19) (pos op : Nat) (wait : Flight → Bool)
    (f : State → Flight → Reply) (h : ∀ g, (f s g).state.routes = s.routes) :
    (runUnless s line pos op wait f).routes = s.routes := by
  unfold runUnless
  (repeat' split) <;> simp [h]

@[simp] theorem runService_routes (s : State) (line : BitVec 19) (pos op : Nat) (f : State → Flight → Reply)
    (h : ∀ g, (f s g).state.routes = s.routes) :
    (runService s line pos op f).routes = s.routes := by
  unfold runService
  exact runUnless_routes _ _ _ _ _ _ h

@[simp] theorem signReply_routes (s : State) (raw msg : Bytes) : ((signReply s raw msg).state).routes = s.routes := by
  unfold signReply
  dsimp only
  (repeat' split) <;> simp

@[simp] theorem verifyReply_routes (s : State) (raw msg keysig : Bytes) :
    ((verifyReply s raw msg keysig).state).routes = s.routes := by
  unfold verifyReply
  dsimp only
  (repeat' split) <;> simp

@[simp] theorem structuralWaybill_routes (s : State) (line : BitVec 19) (pos op : Nat) (f : State → Flight → State)
    (h : ∀ g, (f s g).routes = s.routes) :
    (structuralWaybill s line pos op f).routes = s.routes := by
  unfold structuralWaybill
  (repeat' split) <;> simp [h]

@[simp] theorem proveReply_routes (s : State) (raw : Bytes) : ((proveReply s raw).state).routes = s.routes := by
  simp only [proveReply]
  (repeat' split) <;> simp

@[simp] theorem manifestReply_routes (s : State) (raw : Bytes) : ((manifestReply s raw).state).routes = s.routes := by
  unfold manifestReply
  dsimp only
  (repeat' split) <;> simp

@[simp] theorem answerExport_routes (s : State) (l : Nat) (f : Flight) (bad : List Nat) :
    (answerExport s l f bad).routes = s.routes := by
  simp [answerExport]

@[simp] theorem recordRelay_routes (s : State) (i : Nat) (st : Station) (b : Bytes) (admitted : DWord) :
    (recordRelay s i st b admitted).routes = s.routes := by
  simp [recordRelay]

@[simp] theorem firstRelay_routes (s : State) (i : Nat) (st : Station) (b : Bytes) (admitted : DWord) :
    (firstRelay s i st b admitted).routes = s.routes := by
  simp [firstRelay]

@[simp] theorem relayReply_routes (s : State) (f : Flight) (block : Bytes) :
    ((relayReply s f block).state).routes = s.routes := by
  unfold relayReply
  dsimp only
  (repeat' split) <;> simp

@[simp] theorem attestReply_routes (s : State) (raw : Bytes) : ((attestReply s raw).state).routes = s.routes := by
  unfold attestReply
  dsimp only
  (repeat' split) <;> simp

@[simp] theorem recordHint_routes (s : State) (l : Nat) (f : Flight) : (recordHint s l f).routes = s.routes := by
  unfold recordHint
  dsimp only
  (repeat' split) <;> simp

/-! ### The KDE -/

@[simp] theorem kdeSegmentEnd_routes (s : State) (seen : Access) (split : Bool) :
    (kdeSegmentEnd s seen split).routes = s.routes := by
  unfold kdeSegmentEnd
  dsimp only
  (repeat' split) <;> simp

@[simp] theorem kdeCommand_routes (s : State) (m : Master) (f : State → State) (h : ∀ t, (f t).routes = t.routes) :
    (kdeCommand s m f).routes = s.routes := by
  unfold kdeCommand guardedWrite
  (repeat' split) <;> simp
  unfold kdeOwned
  split <;> simp [h]

/-! ### MAE arithmetic -/

@[simp] theorem putHead_routes (s : State) (n : Nat) (b : Bytes) : (putHead s n b).routes = s.routes := by simp [putHead]
@[simp] theorem putWide_routes (s : State) (n : Nat) (b : Bytes) : (putWide s n b).routes = s.routes := by simp [putWide]
@[simp] theorem maeOk_routes (s : State) : ((maeOk s).state).routes = s.routes := by simp [maeOk]
@[simp] theorem maeFail_routes (s : State) (code : Nat) : ((maeFail s code).state).routes = s.routes := by simp [maeFail]
@[simp] theorem maeVerdict_routes (s : State) (ok : Bool) : ((maeVerdict s ok).state).routes = s.routes := by simp [maeVerdict]

@[simp] theorem runMod_routes (s : State) (j : MaeJob) : ((runMod s j).state).routes = s.routes := by
  unfold runMod
  dsimp only
  (repeat' split) <;> simp

@[simp] theorem runRsaPublic_routes (s : State) (j : MaeJob) : ((runRsaPublic s j).state).routes = s.routes := by
  unfold runRsaPublic
  dsimp only
  (repeat' split) <;> simp

@[simp] theorem runRsaPrivate_routes (s : State) (j : MaeJob) : ((runRsaPrivate s j).state).routes = s.routes := by
  unfold runRsaPrivate
  dsimp only
  (repeat' split) <;> simp

@[simp] theorem runEcdsaSign_routes (s : State) (j : MaeJob) : ((runEcdsaSign s j).state).routes = s.routes := by
  unfold runEcdsaSign
  dsimp only
  (repeat' split) <;> simp

@[simp] theorem runEcdsaVerify_routes (s : State) (j : MaeJob) : ((runEcdsaVerify s j).state).routes = s.routes := by
  unfold runEcdsaVerify
  dsimp only
  (repeat' split) <;> simp

@[simp] theorem runEcdh_routes (s : State) (j : MaeJob) : ((runEcdh s j).state).routes = s.routes := by
  unfold runEcdh
  dsimp only
  (repeat' split) <;> simp

@[simp] theorem runEcPubkey_routes (s : State) (j : MaeJob) : ((runEcPubkey s j).state).routes = s.routes := by
  unfold runEcPubkey
  dsimp only
  (repeat' split) <;> simp

@[simp] theorem runX25519_routes (s : State) (j : MaeJob) : ((runX25519 s j).state).routes = s.routes := by simp [runX25519]

@[simp] theorem runEd25519_routes (s : State) (j : MaeJob) : ((runEd25519 s j).state).routes = s.routes := by
  unfold runEd25519
  split <;> simp

@[simp] theorem maeRun_routes (s : State) (j : MaeJob) : ((maeRun s j).state).routes = s.routes := by
  unfold maeRun
  split <;> simp

/-! ### The MAE -/

@[simp] theorem maeCommand_routes (s : State) (m : Master) (f : State → State) (h : ∀ t, (f t).routes = t.routes) :
    (maeCommand s m f).routes = s.routes := by
  unfold maeCommand guardedWrite
  (repeat' split) <;> simp
  unfold maeOwned
  split <;> simp [h]

@[simp] theorem maePark_routes (s : State) : (maePark s).routes = s.routes := by simp [maePark]
@[simp] theorem maeResume_routes (s : State) : (maeResume s).routes = s.routes := by simp [maeResume]

/-! ### Lanes -/

@[simp] theorem laneDensity_routes (s : State) (n : Nat) : (laneDensity s n).routes = s.routes := by
  unfold laneDensity
  split <;> simp

@[simp] theorem laneSealFault_routes (s : State) (n a : Nat) (pusher : Master) (start : DWord) :
    (laneSealFault s n a pusher start).routes = s.routes := by
  simp [laneSealFault]

@[simp] theorem descKey_routes (s : State) (n : Nat) (d : Bytes) : ((descKey s n d).state).routes = s.routes := by
  unfold descKey
  split <;> simp

@[simp] theorem descCharge_routes (s : State) (d : Bytes) : (descCharge s d).routes = s.routes := by
  simp only [descCharge]
  (repeat' split) <;> simp

@[simp] theorem setLaneJob_routes (s : State) (n : Nat) (j : LsuJob) : (setLaneJob s n j).routes = s.routes := by
  simp [setLaneJob]

@[simp] theorem takeManifest_routes (s : State) (n : Nat) : (takeManifest s n).routes = s.routes := by
  unfold takeManifest
  split <;> simp

@[simp] theorem runDesc_routes (s : State) (d seed : Bytes) (msg aux : Bytes) :
    ((runDesc s d seed msg aux).state).routes = s.routes := by
  simp only [runDesc]
  (repeat' split) <;> simp

@[simp] theorem laneFault_routes (s : State) (n a : Nat) (pusher : Master) (start : DWord) (o : Access) :
    (laneFault s n a pusher start o).routes = s.routes := by
  unfold laneFault
  split <;> simp

@[simp] theorem readDesc_routes (s : State) (d : Bytes) : ((readDesc s d).state).routes = s.routes := by
  unfold readDesc
  dsimp only
  (repeat' split) <;> simp

@[simp] theorem finishDesc_routes (s : State) (n a : Nat) (pusher : Master) (d seed : Bytes) (start : DWord) (seen : Access) :
    (finishDesc s n a pusher d seed start seen).routes = s.routes := by
  unfold finishDesc
  dsimp only
  (repeat' split) <;> simp

@[simp] theorem manifestFault_routes (s : State) (n : Nat) (seen : Access) : (manifestFault s n seen).routes = s.routes := by
  simp [manifestFault]

@[simp] theorem laneEnd_routes (s : State) (n : Nat) (seen : Access) : (laneEnd s n seen).routes = s.routes := by
  unfold laneEnd
  dsimp only
  (repeat' split) <;> simp

/-! ### The entropy source -/

@[simp] theorem serveRead_routes (s : State) (r : EntRead) : (serveRead s r).routes = s.routes := by
  unfold serveRead
  split <;> simp

@[simp] theorem serveWaiting_routes (n : Nat) (s : State) : (serveWaiting n s).routes = s.routes := by
  induction n generalizing s with
  | zero => rfl
  | succ n ih =>
    unfold serveWaiting
    (repeat' split) <;> simp [ih]

@[simp] theorem failRead_routes (s : State) (m : Master) : (failRead s m).routes = s.routes := by simp [failRead]

@[simp] theorem condition_routes (s : State) (block : Bytes) : (condition s block).routes = s.routes := by
  unfold condition
  split <;> simp

@[simp] theorem entStarted_routes (s : State) : (entStarted s).routes = s.routes := by simp [entStarted]

@[simp] theorem entFatalNow_routes (s : State) : (entFatalNow s).routes = s.routes := by
  unfold entFatalNow
  refine (foldl_routes (fun t r => ?_) _ _).trans ?_
  · split <;> simp
  · split <;> simp

@[simp] theorem entRestart_routes (s : State) : (entRestart s).routes = s.routes := by simp [entRestart]

@[simp] theorem blockFailed_routes (s : State) : (blockFailed s).routes = s.routes := by
  unfold blockFailed
  dsimp only
  (repeat' split) <;> simp

/-! ### Flash commands -/

@[simp] theorem flcEnd_routes (s : State) (st : Nat) : (flcEnd s st).routes = s.routes := by simp [flcEnd]
@[simp] theorem nandFault_routes (s : State) (d : Nat) : (nandFault s d).routes = s.routes := by simp [nandFault]

@[simp] theorem readEnd_routes (s : State) (d b : Nat) (p buf : Nat) (ok : Bool) :
    (readEnd s d b p buf ok).routes = s.routes := by
  unfold readEnd
  dsimp only
  (repeat' split) <;> simp

@[simp] theorem programEnd_routes (s : State) (d b : Nat) (p buf : Nat) (ok : Bool) :
    (programEnd s d b p buf ok).routes = s.routes := by
  unfold programEnd
  dsimp only
  (repeat' split) <;> simp

@[simp] theorem eraseEnd_routes (s : State) (d b : Nat) (ok : Bool) : (eraseEnd s d b ok).routes = s.routes := by
  unfold eraseEnd
  split <;> simp

@[simp] theorem flashOpEnd_routes (s : State) (ok : Bool) : (flashOpEnd s ok).routes = s.routes := by
  unfold flashOpEnd
  split <;> simp

@[simp] theorem windowFetch_routes (s : State) (a : Nat) : (windowFetch s a).routes = s.routes := by simp [windowFetch]
@[simp] theorem failDie_routes (s : State) (die : Nat) : (failDie s die).routes = s.routes := by simp [failDie]

/-! ### Routes and debug sessions -/

@[simp] theorem dbgWrite_routes (s : State) (m : Master) (a : Nat) (f : State → State) (h : ∀ t, (f t).routes = t.routes) :
    (dbgWrite s m a f).routes = s.routes := by
  unfold dbgWrite
  (repeat' split) <;> simp [h, guardedWrite]
  (repeat' split) <;> simp [h]

@[simp] theorem dbgRead_routes (s : State) (m : Master) (a : Nat) (f : State → State) (h : ∀ t, (f t).routes = t.routes) :
    (dbgRead s m a f).routes = s.routes := by
  unfold dbgRead
  (repeat' split) <;> simp [h, guardedRead]
  (repeat' split) <;> simp [h]

@[simp] theorem dbgResult_routes (s : State) (st : Nat) : (dbgResult s st).routes = s.routes := by simp [dbgResult]
@[simp] theorem openDebug_routes (s : State) : (openDebug s).routes = s.routes := by simp [openDebug]

@[simp] theorem dbgCheck_routes (s : State) : (dbgCheck s).routes = s.routes := by
  unfold dbgCheck
  dsimp only
  (repeat' split) <;> simp

@[simp] theorem armWrite_routes (s : State) (arm : BitVec 8) : (armWrite s arm).routes = s.routes := by simp [armWrite]

/-! ### Cards -/

@[simp] theorem checkCredential_routes (s : State) (c : CardImage) : (checkCredential s c).routes = s.routes := by
  simp only [checkCredential]
  (repeat' split) <;> simp

@[simp] theorem failSession_routes (s : State) (l id : Nat) (kind status : Nat) (v : Option CardSession) :
    (failSession s l id kind status v).routes = s.routes := by
  simp [failSession]

@[simp] theorem abortSession_routes (s : State) (status : Nat) (gasp : Bool) :
    (abortSession s status gasp).routes = s.routes := by
  simp only [abortSession]
  (repeat' split) <;> simp

@[simp] theorem finishSession_routes (s : State) (v : CardSession) : (finishSession s v).routes = s.routes := by
  simp [finishSession]

@[simp] theorem continueSession_routes (s : State) (v : CardSession) : (continueSession s v).routes = s.routes := by
  unfold continueSession
  dsimp only
  (repeat' split) <;> simp

@[simp] theorem writeUnit_routes (s : State) (v : CardSession) (bad : List Nat) : (writeUnit s v bad).routes = s.routes := by
  simp [writeUnit]

@[simp] theorem writeFailure_routes (s : State) : (writeFailure s).routes = s.routes := by simp [writeFailure]

@[simp] theorem openSession_routes (s : State) (l : Nat) (f : Flight) (c : CardImage) :
    (openSession s l f c).routes = s.routes := by
  unfold openSession
  dsimp only
  (repeat' split) <;> simp

@[simp] theorem insertCard_routes (s : State) (img : CardImage) : (insertCard s img).routes = s.routes := by
  unfold insertCard
  dsimp only
  (repeat' split) <;> simp

@[simp] theorem removeCard_routes (s : State) : (removeCard s).routes = s.routes := by
  unfold removeCard
  dsimp only
  (repeat' split) <;> simp

/-! ### Lookout -/

@[simp] theorem startInventory_routes (s : State) (o : InvOwner) (rounds maxTags : Nat) :
    (startInventory s o rounds maxTags).routes = s.routes := by
  simp [startInventory]

@[simp] theorem endWaybillRounds_routes (s : State) (l id : Nat) (entries : List Bytes) :
    (endWaybillRounds s l id entries).routes = s.routes := by
  unfold endWaybillRounds
  dsimp only
  (repeat' split) <;> simp

@[simp] theorem endRounds_routes (s : State) (v : Inventory) : (endRounds s v).routes = s.routes := by
  unfold endRounds
  split <;> simp

@[simp] theorem countSlot_routes (s : State) (o : SlotObs) : (countSlot s o).routes = s.routes := by
  unfold countSlot
  split <;> simp

@[simp] theorem endRound_routes (s : State) (v : Inventory) : (endRound s v).routes = s.routes := by
  unfold endRound
  split <;> simp

@[simp] theorem endSlot_routes (s : State) (v : Inventory) (o : SlotObs) : (endSlot s v o).routes = s.routes := by
  unfold endSlot
  dsimp only
  (repeat' split) <;> simp

@[simp] theorem inventorySlot_routes (s : State) (v : Inventory) (gamma : Byte) (o : SlotObs) :
    (inventorySlot s v gamma o).routes = s.routes := by
  simp only [inventorySlot]
  (repeat' split) <;> simp

@[simp] theorem beginInventory_routes (s : State) (l : Nat) (f : Flight) : (beginInventory s l f).routes = s.routes := by
  simp only [beginInventory]
  (repeat' split) <;> simp

@[simp] theorem sendPing_routes (s : State) (gamma : Byte) : (sendPing s gamma).routes = s.routes := by
  unfold sendPing
  dsimp only
  (repeat' split) <;> simp

@[simp] theorem checkBadge_routes (s : State) (b : BadgeObs) : (checkBadge s b).routes = s.routes := by
  unfold checkBadge
  dsimp only
  (repeat' split) <;> simp

@[simp] theorem badgeDone_routes (s : State) : (badgeDone s).routes = s.routes := by simp [badgeDone]

@[simp] theorem badgeRound_routes (s : State) (badges : List BadgeObs) : (badgeRound s badges).routes = s.routes := by
  unfold badgeRound
  simp [foldl_routes checkBadge_routes]

/-! ### The tail lamp -/

@[simp] theorem wearSlot_routes (s : State) (one : Bool) : (wearSlot s one).routes = s.routes := by
  unfold wearSlot
  dsimp only
  (repeat' split) <;> simp

@[simp] theorem putSlotBytes_routes (s : State) (one : Bool) (b : Bytes) : (putSlotBytes s one b).routes = s.routes := by
  simp [putSlotBytes]

@[simp] theorem raiseMain_routes (s : State) (n : Nat) : (raiseMain s n).routes = s.routes := by
  unfold raiseMain
  split <;> simp

@[simp] theorem endUpdate_routes (s : State) (verifyOk : Bool) : (endUpdate s verifyOk).routes = s.routes := by
  unfold endUpdate
  dsimp only
  (repeat' split) <;> simp

@[simp] theorem tagSay_routes (s : State) (r : TagReply) : (tagSay s r).routes = s.routes := by simp [tagSay]
@[simp] theorem setTag_routes (s : State) (f : Tail → Tail) : (setTag s f).routes = s.routes := by simp [setTag]
@[simp] theorem usedNoise_routes (s : State) : (usedNoise s).routes = s.routes := by simp [usedNoise]
@[simp] theorem replyRn_routes (s : State) : (replyRn s).routes = s.routes := by simp [replyRn]

@[simp] theorem drawSlot_routes (s : State) (q : Nat) : (drawSlot s q).routes = s.routes := by
  unfold drawSlot
  dsimp only
  (repeat' split) <;> simp

@[simp] theorem leaveRound_routes (s : State) (session : Nat) : (leaveRound s session).routes = s.routes := by
  unfold leaveRound
  split <;> simp

@[simp] theorem countDown_routes (s : State) : (countDown s).routes = s.routes := by
  unfold countDown
  split <;> simp

@[simp] theorem toArbitrate_routes (s : State) : (toArbitrate s).routes = s.routes := by
  unfold toArbitrate
  split <;> simp

@[simp] theorem tagError_routes (s : State) (code : Byte) : (tagError s code).routes = s.routes := by simp [tagError]
@[simp] theorem bump16_routes (s : State) (lo : Nat) : (bump16 s lo).routes = s.routes := by simp [bump16]

@[simp] theorem refusePower_routes (s : State) : (refusePower s).routes = s.routes := by
  unfold refusePower
  split <;> simp

@[simp] theorem writeLabel_routes (s : State) (word : Nat) (v : List (BitVec 16)) (verifyOk : Bool) :
    (writeLabel s word v verifyOk).routes = s.routes := by
  unfold writeLabel
  dsimp only
  (repeat' split) <;> simp

@[simp] theorem tagStore_routes (s : State) (bank word : Nat) (v : List (BitVec 16)) (energy verifyOk : Bool) :
    (tagStore s bank word v energy verifyOk).routes = s.routes := by
  simp only [tagStore]
  (repeat' split) <;> simp

/-! ### Power -/

@[simp] theorem pdSay_routes (s : State) (m : PdMsg) : (pdSay s m).routes = s.routes := by simp [pdSay]

@[simp] theorem beginDisturbance_routes (s : State) (mv : Nat) : (beginDisturbance s mv).routes = s.routes := by
  unfold beginDisturbance
  split <;> simp

@[simp] theorem drainBank_routes (s : State) : (drainBank s).routes = s.routes := by simp [drainBank]

@[simp] theorem endDisturbance_routes (s : State) (length : Nat) : (endDisturbance s length).routes = s.routes := by
  simp [endDisturbance]

@[simp] theorem endWaiting_routes (s : State) (kind : Flight → Bool) : (endWaiting s kind).routes = s.routes := by
  unfold endWaiting
  refine foldl_routes (fun t e => foldl_routes (fun b f => ?_) _ _) _ _
  split <;> simp

@[simp] theorem endExports_routes (s : State) : (endExports s).routes = s.routes := by
  unfold endExports
  refine (foldl_routes (fun t e => ?_) _ _).trans (by simp)
  simp

@[simp] theorem beginGasp_routes (s : State) (trigger : Nat) : (beginGasp s trigger).routes = s.routes := by
  unfold beginGasp
  dsimp only
  (repeat' split) <;> simp

@[simp] theorem loseVigil_routes (s : State) : (loseVigil s).routes = s.routes := by simp [loseVigil]
@[simp] theorem setTemp_routes (s : State) (t : BitVec 12) : (setTemp s t).routes = s.routes := by simp [setTemp]

@[simp] theorem measureBank_routes (s : State) (cap : Nat) : (measureBank s cap).routes = s.routes := by
  unfold measureBank
  split <;> simp

@[simp] theorem measureCell_routes (s : State) (cell : BitVec 12) : (measureCell s cell).routes = s.routes := by
  simp [measureCell]

@[simp] theorem noteCount_routes (old s : State) : (noteCount old s).routes = s.routes := by
  unfold noteCount
  split <;> simp

/-! ### Boot and modes -/

@[simp] theorem keepRecord_routes (s : State) (old new_ : BootRec) : (keepRecord s old new_).routes = s.routes := by
  unfold keepRecord
  split <;> simp

@[simp] theorem fallBack_routes (s : State) : (fallBack s).routes = s.routes := by simp [fallBack]
@[simp] theorem enterAt_routes (s : State) (pc : Word) : (enterAt s pc).routes = s.routes := by simp [enterAt]
@[simp] theorem startImage_routes (s : State) (slot : Bool) : (startImage s slot).routes = s.routes := by simp [startImage]

@[simp] theorem bootTrack_routes (pass : BitVec 8) (s : State) (t : Nat) : (bootTrack pass s t).routes = s.routes := by
  unfold bootTrack
  split <;> simp

@[simp] theorem bootLane_routes (pass : BitVec 4) (s : State) (n : Nat) : (bootLane pass s n).routes = s.routes := by
  unfold bootLane
  split <;> simp

@[simp] theorem eraseSuspects_routes (s : State) (fail : List (Nat × Nat)) : (eraseSuspects s fail).routes = s.routes := by
  unfold eraseSuspects
  refine foldl_routes (fun t e => ?_) _ _
  (repeat' split) <;> simp

@[simp] theorem bootDetectors_routes (s : State) (fail : BitVec 128) : (bootDetectors s fail).routes = s.routes := by
  unfold bootDetectors
  dsimp only
  (repeat' split) <;> simp

@[simp] theorem cellAlarm_routes (s : State) (n cls : Nat) : (cellAlarm s n cls).routes = s.routes := by simp [cellAlarm]

@[simp] theorem reportPending_routes (s : State) : (reportPending s).routes = s.routes := by
  have hfold : ∀ l : List (Nat × Nat), (l.foldl (fun s e => cellAlarm s e.1 e.2) s).routes = s.routes :=
    fun l => foldl_routes (fun t e => by simp) l s
  unfold reportPending
  dsimp only
  split <;> simp [hfold]

@[simp] theorem measureSettings_routes (s : State) : (measureSettings s).routes = s.routes := by simp [measureSettings]

@[simp] theorem countOrder_routes (s : State) (key : Bytes) : (countOrder s key).routes = s.routes := by
  unfold countOrder
  dsimp only
  (repeat' split) <;> simp

/-! ### The host -/

@[simp] theorem hostError_routes (s : State) : (hostError s).routes = s.routes := by simp [hostError]
@[simp] theorem failData_routes (s : State) (l : Nat) (f : Flight) : (failData s l f).routes = s.routes := by simp [failData]

@[simp] theorem failRecords_routes (s : State) (l : Nat) (f : Flight) : (failRecords s l f).routes = s.routes := by
  unfold failRecords
  dsimp only
  (repeat' split) <;> simp

@[simp] theorem failExpected_routes (s : State) (l : Nat) (f : Flight) : (failExpected s l f).routes = s.routes := by
  unfold failExpected
  dsimp only
  (repeat' split) <;> simp

@[simp] theorem failService_routes (s : State) (l : Nat) (f : Flight) : (failService s l f).routes = s.routes := by
  unfold failService
  split <;> simp

@[simp] theorem failOpen_routes (s : State) (f : Flight) : (failOpen s f).routes = s.routes := by
  unfold failOpen
  split <;> simp

@[simp] theorem failPayload_routes (s : State) (l pos : Nat) : (failPayload s l pos).routes = s.routes := by
  simp only [failPayload]
  (repeat' split) <;> simp

@[simp] theorem finishDma_routes (s : State) (c : Nat) (host : Bytes) (seen : Access) :
    (finishDma s c host seen).routes = s.routes := by
  unfold finishDma
  dsimp only
  (repeat' split) <;> simp

@[simp] theorem failDma_routes (s : State) (c : Nat) : (failDma s c).routes = s.routes := by
  unfold failDma
  dsimp only
  (repeat' split) <;> simp

@[simp] theorem hostReadFails_routes (s : State) (r : HostRead) : (hostReadFails s r).routes = s.routes := by
  simp only [hostReadFails]
  (repeat' split) <;> simp

@[simp] theorem noteAer_routes (s t : State) (e : AerError) : (noteAer s t e).routes = t.routes := by
  unfold noteAer
  split <;> simp

@[simp] theorem loadReason_routes (s : State) (r : Nat) : (loadReason s r).routes = s.routes := by simp [loadReason]

@[simp] theorem loadRefusal_routes (s : State) (st reason : Nat) : ((loadRefusal s st reason).state).routes = s.routes := by
  simp [loadRefusal]

@[simp] theorem beginLoad_routes (s : State) : (beginLoad s).routes = s.routes := by simp [beginLoad]

@[simp] theorem finishLoad_routes (s : State) : ((finishLoad s).state).routes = s.routes := by
  unfold finishLoad
  dsimp only
  (repeat' split) <;> simp

@[simp] theorem loadReply_routes (s : State) (raw chunk : Bytes) : ((loadReply s raw chunk).state).routes = s.routes := by
  unfold loadReply
  dsimp only
  (repeat' split) <;> simp

@[simp] theorem usbReply_routes (s : State) (w payload : Bytes) : ((usbReply s w payload).state).routes = s.routes := by
  unfold usbReply
  dsimp only
  (repeat' split) <;> simp

@[simp] theorem usbTakeExport_routes (s : State) (w : Bytes) (bad : List Nat) : (usbTakeExport s w bad).routes = s.routes := by
  unfold usbTakeExport
  dsimp only
  (repeat' split) <;> simp

/-! ### Worlds of a core -/

@[simp] theorem setCore_routes (s : State) (n : Nat) (c : Core) : (setCore s n c).routes = s.routes := by simp [setCore]

@[simp] theorem putWorld_routes (s : State) (n : Nat) (sig : Bool) (w : World) : (putWorld s n sig w).routes = s.routes := by
  simp [putWorld]

@[simp] theorem modWorld_routes (s : State) (n : Nat) (f : World → World) : (modWorld s n f).routes = s.routes := by
  simp [modWorld]

/-! ### The bus -/

@[simp] theorem showLoad_routes (m : Master) (r : Load) : (showLoad m r).routes = r.state.routes := by
  unfold showLoad
  split <;> simp

@[simp] theorem readWindowC_routes (s : State) (off : Nat) (wide : Bool) : (readWindowC s off wide).routes = s.routes := by
  simp only [readWindowC]
  (repeat' split) <;> simp

@[simp] theorem certWrite_routes (s : State) (o : Nat) (v : Word) : (certWrite s o v).routes = s.routes := by simp [certWrite]

/-! ### Exceptions -/

@[simp] theorem doubleFault_routes (s : State) (n : Nat) : (doubleFault s n).routes = s.routes := by simp [doubleFault]

@[simp] theorem switchTo_routes (s : State) (n : Nat) (sig : Bool) (code : Nat) :
    (switchTo s n sig code).routes = s.routes := by
  simp [switchTo]

@[simp] theorem fetchWord_routes (s : State) (n : Nat) (pc : Word) : ((fetchWord s n pc).state).routes = s.routes := by
  unfold fetchWord
  dsimp only
  (repeat' split) <;> simp

@[simp] theorem fetchInstr_routes (s : State) (n size : Nat) : ((fetchInstr s n size).state).routes = s.routes := by
  unfold fetchInstr
  dsimp only
  (repeat' split) <;> simp

@[simp] theorem unshadow_routes (s : State) (n : Nat) : (unshadow s n).routes = s.routes := by simp [unshadow]
@[simp] theorem unstall_routes (s : State) (n : Nat) : (unstall s n).routes = s.routes := by simp [unstall]

@[simp] theorem takeWake_routes (s : State) (n : Nat) (rd : BitVec 5) : (takeWake s n rd).routes = s.routes := by
  simp [takeWake]

@[simp] theorem endWait_routes (s : State) (n : Nat) : (endWait s n).routes = s.routes := by simp [endWait]

@[simp] theorem leaveWait_routes (s : State) (n : Nat) : (leaveWait s n).routes = s.routes := by
  unfold leaveWait
  split <;> simp

/-! ### Long instructions -/

@[simp] theorem holdStep_routes (s : State) (n done : Nat) (acc : Word) : (holdStep s n done acc).routes = s.routes := by
  simp [holdStep]

/-! ### Waits and signals -/

@[simp] theorem haltCore_routes (s : State) (n : Nat) : (haltCore s n).routes = s.routes := by simp [haltCore]
@[simp] theorem setWait_routes (s : State) (n : Nat) (t : Wait) : (setWait s n t).routes = s.routes := by simp [setWait]

@[simp] theorem signalCores_routes (s : State) (n : Nat) (mask : BitVec 4) : (signalCores s n mask).routes = s.routes := by
  unfold signalCores
  refine foldl_routes (fun t e => ?_) _ _
  (repeat' split) <;> simp

@[simp] theorem waittDone_routes (s : State) (n : Nat) (pd : BitVec 3) (d : DWord) :
    (waittDone s n pd d).routes = s.routes := by
  simp [waittDone]

/-! ### Ticks -/

@[simp] theorem msTick_routes (s : State) : (msTick s).routes = s.routes := by simp [msTick]

end Sys2Proof.LockedRoutes
end

section
/-! PROOF. Locked routes (R421), resets. A device reset gives the table its reset values, and with it what keeps the rest of the
same step from a commit: stack pointers at 0, no halted world, `commitRegs` at their reset values. `Follows` says of an
operation that it leaves the routes or ends so, and that it keeps such a state; it holds of everything that can follow a
command. -/

namespace Sys2Proof.LockedRoutes

open Sys2Proof.Machine

/-- The stack pointers and the halts of a core as a reset leaves them. -/
def CoreRenewed (c : Core) : Prop := c.plat.ssp = 0 ∧ c.sig.ssp = 0 ∧ c.haltP = false ∧ c.haltS = false

/-- The routes have their reset values, and so has what could lead the rest of the step to a commit. -/
def Renewed (s : State) : Prop :=
  s.routes = Route.resetTable ∧ s.dbg.haltWrites = [] ∧ ∀ n, CoreRenewed (coreAt s n)

/-- As `Renewed`, with `P` of the registers of `commitRegs`. -/
def Fresh (P : List Word → Prop) (s : State) : Prop := Renewed s ∧ P (commitView s.regs)

/-- From `s` to `t` the routes stay or a reset comes between, and a state after a reset remains one. -/
def Follows (P : List Word → Prop) (s t : State) : Prop :=
  (t.routes = s.routes ∨ Fresh P t) ∧ (Fresh P s → Fresh P t)

/-- Where no copy is under way the registers do not matter. -/
abbrev AnyRegs : List Word → Prop := fun _ => True

theorem Kept.renewed {s t : State} (h : Kept s t) (hs : Renewed s) : Renewed t := by
  obtain ⟨hr, hc, hw⟩ := h
  obtain ⟨h1, h2, h3⟩ := hs
  refine ⟨hr.trans h1, hw.trans h2, fun n => ?_⟩
  have := h3 n
  unfold coreAt at this ⊢
  rwa [hc]

section
variable {P : List Word → Prop}

theorem Follows.refl (s : State) : Follows P s s := ⟨.inl rfl, id⟩

theorem Follows.trans {s t u : State} (h : Follows P s t) (k : Follows P t u) : Follows P s u := by
  refine ⟨?_, fun hs => k.2 (h.2 hs)⟩
  obtain hu | hu := k.1
  · obtain ht | ht := h.1
    · exact .inl (hu.trans ht)
    · exact .inr (k.2 ht)
  · exact .inr hu

theorem Follows.of_fresh {s t : State} (h : Fresh P t) : Follows P s t := ⟨.inr h, fun _ => h⟩

theorem Still.follows {s t : State} (h : Still s t) : Follows P s t := by
  obtain ⟨hk, hst⟩ := h
  exact ⟨.inl hk.1, fun hs => ⟨Kept.renewed hk hs.1, hst.symm ▸ hs.2⟩⟩

theorem Kept.follows {s t : State} (h : Kept s t) : Follows AnyRegs s t :=
  ⟨.inl h.1, fun hs => ⟨Kept.renewed h hs.1, trivial⟩⟩

theorem Follows.still {s t u : State} (h : Follows P s t) (k : Still t u) : Follows P s u := h.trans (Still.follows k)
theorem Follows.kept {s t u : State} (h : Follows AnyRegs s t) (k : Kept t u) : Follows AnyRegs s u := h.trans (Kept.follows k)

theorem coreRenewed_reset : CoreRenewed Core.reset := ⟨rfl, rfl, rfl, rfl⟩

theorem CoreRenewed.resume {c : Core} (h : CoreRenewed c) (n : Nat) : CoreRenewed (resumeCore [] n false false c) := by
  obtain ⟨hp, hs, -, -⟩ := h
  simp [CoreRenewed, resumeCore, resumeWorld, hp, hs]

theorem coreAt_closeDebug (s : State) (n : Nat) :
    coreAt (closeDebug s) n = if n < 4 then resumeCore s.dbg.haltWrites n false false (coreAt s n) else Core.reset := by
  have hcores : (closeDebug s).cores = Vector.ofFn (fun n => resumeCore s.dbg.haltWrites n.val false false s.cores[n]) := rfl
  unfold coreAt
  rw [hcores]
  split
  · next h => simp [h]
  · next h => simp [h]

theorem commitView_closeDebug (s : State) : commitView (closeDebug s).regs = commitView s.regs :=
  (commitView_setR64 _ _ _ (by decide) (by decide)).trans
    ((commitView_setR _ _ _ (by decide)).trans (commitView_clearR _ _ _ (by decide)))

/-- With no write waiting on a halting page, a debug session that closes changes no world. -/
theorem closeDebug_follows (s : State) : Follows P s (closeDebug s) := by
  refine ⟨.inl rfl, fun ⟨⟨hr, hw, hc⟩, hP⟩ => ⟨⟨hr, rfl, fun n => ?_⟩, ?_⟩⟩
  · rw [coreAt_closeDebug, hw]
    split
    · exact (hc n).resume n
    · exact coreRenewed_reset
  · rwa [commitView_closeDebug]

theorem leaveCommissioning_follows (s : State) : Follows P s (leaveCommissioning s) := by
  unfold leaveCommissioning
  dsimp only
  split
  · exact Follows.trans (Still.follows ⟨⟨rfl, rfl, rfl⟩, rfl⟩) (closeDebug_follows _)
  · exact Still.follows ⟨⟨rfl, rfl, rfl⟩, rfl⟩

theorem changeMode_follows (s : State) (m : Mode) (reason : Nat) : Follows P s (changeMode s m reason) := by
  unfold changeMode
  extract_lets was stays left sealed told asked entered vig queued noted ended
  have hleft : Follows P s left := by
    simp only [left]
    split
    · exact leaveCommissioning_follows s
    · exact Follows.refl s
  have hsealed : Still left sealed := by
    simp only [sealed]
    split <;> simp
  have htold : Still sealed told := by
    simp only [told]
    split <;> simp
  have hasked : Still told asked := by simp [asked]
  have hentered : Still asked entered := by
    simp (disch := decide) [entered]
  have hqueued : Still entered queued := by
    simp only [queued]
    split <;> simp
  have hnoted : Still queued noted := by
    simp only [noted]
    split
    · split <;> simp
    · simp
  have hended : Still noted ended := by
    simp only [ended]
    split <;> simp
  refine (hleft.still (hsealed.trans
      (htold.trans (hasked.trans (hentered.trans (hqueued.trans (hnoted.trans hended))))))).still ?_
  split <;> simp

theorem enterCaution_follows (s : State) : Follows P s (enterCaution s) := by
  unfold enterCaution
  split
  · exact (changeMode_follows s .caution 3).still (by simp)
  · exact Follows.refl s

theorem loseTrunk_follows (s : State) : Follows P s (loseTrunk s) := by
  have hends : Follows P s (endDerivations (endBtr (dropTrunk s) 0x06 1)) := Still.follows (by simp (disch := decide))
  unfold loseTrunk
  dsimp only
  split
  · exact (hends.trans (changeMode_follows _ .condemned 5)).still (by simp (disch := decide))
  · exact hends.still (by simp (disch := decide))

theorem renewed_clearedState (s : State) (causes : Nat) (link : Bool) : Renewed (clearedState s causes link) := by
  refine ⟨rfl, rfl, fun n => ?_⟩
  have hcores : (clearedState s causes link).cores = Vector.replicate 4 Core.reset := rfl
  unfold coreAt
  rw [hcores]
  by_cases hn : n < 4
  · simpa [hn] using coreRenewed_reset
  · simpa [hn] using coreRenewed_reset

theorem deviceReset_fresh (hP : P (commitView [])) (s : State) (causes : Nat) (link : Bool) :
    Fresh P (deviceReset s causes link) := by
  have hcleared : ∀ t, Fresh P (clearedState t causes link) := fun t => ⟨renewed_clearedState t causes link, hP⟩
  have hstill : ∀ t : State, Fresh P t → ∀ u, Still t u → Fresh P u := fun t ht u h => (Still.follows h).2 ht
  unfold deviceReset
  refine hstill _ (hcleared (if sessionOn s then endSession s else s)) _ ?_
  generalize (if sessionOn s then endSession s else s) = t
  dsimp only
  split <;> simp (disch := decide)

theorem abruptReset_follows (hP : P (commitView [])) (s : State) (causes : Nat) : Follows P s (abruptReset s causes) := by
  unfold abruptReset
  split
  · exact Still.follows (by simp)
  · exact .of_fresh (deviceReset_fresh hP _ _ _)

theorem respondMain_follows (hP : P (commitView [])) (s : State) (cls : Nat) : Follows P s (respondMain s cls) := by
  unfold respondMain
  split
  · split
    · exact Still.follows (by simp)
    · exact abruptReset_follows hP s _
  split
  · exact (Still.follows (by simp)).trans (enterCaution_follows (setHeld s))
  split
  · exact (Still.follows (by simp)).trans (loseTrunk_follows (setHeld s))
  · exact Follows.refl s

theorem noteSources_still (l : List (Nat × BitVec 2)) (a : State × Nat) :
    Still a.1 (l.foldl (fun a e => ((noteSource a.1 e.1 e.2).1, max a.2 (noteSource a.1 e.1 e.2).2)) a).1 := by
  induction l generalizing a with
  | nil => exact Still.refl _
  | cons e r ih => exact Still.trans (noteSource_still _ _ _) (ih _)

theorem tripAll_follows (hP : P (commitView [])) (s : State) (l : List (Nat × BitVec 2)) : Follows P s (tripAll s l) := by
  unfold tripAll
  split
  · exact Follows.refl s
  · have hnoted := Still.follows (P := P) (noteSources_still l (s, 0))
    dsimp only
    split
    · exact hnoted.trans (respondMain_follows hP _ _)
    · exact hnoted.still (by simp)

theorem applyTrips_follows (hP : P (commitView [])) (s : State) : Follows P s (applyTrips s) := by
  unfold applyTrips
  split
  · exact Follows.refl s
  · exact Follows.trans (Still.follows ⟨⟨rfl, rfl, rfl⟩, rfl⟩) (tripAll_follows hP _ _)

theorem checkTracks_follows (s : State) : Follows P s (checkTracks s) := by
  have hfenced : Follows P s (finishFences s) := Still.follows (by simp)
  unfold checkTracks
  dsimp only
  split
  · exact hfenced.trans (changeMode_follows _ _ _)
  · exact hfenced

theorem afterRounds_follows (hP : P (commitView [])) (n : Nat) (s : State) : Follows P s (afterRounds n s) := by
  induction n generalizing s with
  | zero => exact Still.follows ⟨⟨rfl, rfl, rfl⟩, rfl⟩
  | succ n ih =>
    have hround : Follows P s (checkTracks (applyTrips s)) := (applyTrips_follows hP s).trans (checkTracks_follows _)
    unfold afterRounds
    dsimp only
    split
    · exact hround
    · exact hround.trans (ih _)

/-- What follows a command can reset the device, and change nothing else of the routes. -/
theorem after_follows (hP : P (commitView [])) (s : State) : Follows P s (after s) :=
  (afterRounds_follows hP 8 s).still (by simp [after])

end

end Sys2Proof.LockedRoutes
end

section
/-! PROOF. Locked routes (R421), the operations behind the registers that can end in a reset: releases, the table of branches, the
engines, cards, modes, deadmen. Each leaves the routes, or gives them their reset values. -/

namespace Sys2Proof.LockedRoutes

open Sys2Proof.Machine

theorem requestedReset_follows (s : State) : Follows AnyRegs s (requestedReset s) := by
  unfold requestedReset
  split
  · exact Kept.follows (by simp)
  · exact .of_fresh (deviceReset_fresh trivial _ _ _)

theorem trip_follows (s : State) (n : Nat) (dets : BitVec 2) : Follows AnyRegs s (trip s n dets) :=
  tripAll_follows trivial s _

theorem acceptRelease_follows (s : State) : Follows AnyRegs s (acceptRelease s) := by
  unfold acceptRelease
  extract_lets vigil unheld noted
  have hnoted : Kept s noted := by simp [noted, unheld, vigil]
  exact (Kept.follows hnoted).trans ((changeMode_follows noted .running 4).kept (by simp))

theorem commitRelease_follows (s : State) (m : Master) : Follows AnyRegs s (commitRelease s m) := by
  unfold commitRelease
  dsimp only
  split
  · exact Kept.follows (by simp)
  split
  · exact acceptRelease_follows s
  · exact Kept.follows (by simp)

theorem releaseControl_follows (s : State) (m : Master) (v : Word) : Follows AnyRegs s (releaseControl s m v) := by
  unfold releaseControl
  extract_lets armed committed
  have harmed : Kept s armed := by
    simp only [armed]
    split <;> simp
  have hcommitted : Follows AnyRegs armed committed := by
    simp only [committed]
    split
    · exact commitRelease_follows armed m
    · exact Follows.refl armed
  refine (Kept.follows harmed).trans (hcommitted.kept ?_)
  split <;> simp

theorem imageBad_follows (s : State) : Follows AnyRegs s (imageBad s) :=
  (Kept.follows (by simp)).trans (trip_follows _ 104 3)

theorem rebuildTable_follows (s : State) : Follows AnyRegs s (rebuildTable s) := by
  unfold rebuildTable
  split
  · exact Kept.follows (by simp)
  split
  · exact Kept.follows (by simp)
  split
  · exact (Kept.follows (by simp)).trans (imageBad_follows (sealFault s spineTile))
  split
  · split
    · exact Kept.follows (by simp)
    · exact imageBad_follows s
  · exact imageBad_follows s

theorem builtTable_follows (s : State) : Follows AnyRegs s (builtTable s) := by
  unfold builtTable
  split
  · exact Follows.refl s
  · exact (Kept.follows (by simp)).trans ((rebuildTable_follows { s with tableBuilt := true }).kept (by simp))

section
variable {P : List Word → Prop} {s : State}

theorem guardedWrite_follows {f : State → State} (m : Master) (a : Nat) (h : Follows AnyRegs s (f s)) :
    Follows AnyRegs s (guardedWrite s m a f) := by
  obtain ⟨-, e⟩ | ⟨-, -, e⟩ | ⟨-, -, -, e⟩ | ⟨-, -, -, -, e⟩ | ⟨-, e⟩ := guardedWrite_cases s m a f
  · rw [e]; exact Follows.refl s
  · rw [e]; exact Kept.follows (by simp)
  · rw [e]; exact Kept.follows (by simp)
  · rw [e]; exact Kept.follows (by simp)
  · rw [e]; exact h

theorem btrCommand_follows {f : State → BtrArgs → State} (m : Master) (modeOk : State → Bool)
    (h : ∀ t a, Follows AnyRegs t (f t a)) : Follows AnyRegs s (btrCommand s m modeOk f) := by
  refine guardedWrite_follows m _ ?_
  dsimp only
  split
  · exact Kept.follows (by simp)
  split
  · exact (Kept.follows (by simp)).trans ((builtTable_follows _).trans (h _ _))
  · exact Kept.follows (by simp)

theorem btrCommand_kept_follows {f : State → BtrArgs → State} (m : Master) (modeOk : State → Bool)
    (h : ∀ t a, Kept t (f t a)) : Follows AnyRegs s (btrCommand s m modeOk f) :=
  btrCommand_follows m modeOk (fun t a => Kept.follows (h t a))

theorem viaMae_follows {f : State → State} (i : Nat) (w : Option (Nat × Nat)) (r : HybridRequest)
    (h : Follows AnyRegs s (f s)) : Follows AnyRegs s (viaMae s i w r f) := by
  unfold viaMae
  split
  · exact h
  · exact Kept.follows (by simp)

theorem withBuf_follows {f : State → Bytes → State} (a : BtrArgs) (n : Nat) (h : ∀ t b, Follows AnyRegs t (f t b)) :
    Follows AnyRegs s (withBuf s a n f) := by
  unfold withBuf
  dsimp only
  split
  · exact (Kept.follows (reach_kept _ _ _ _ _)).trans (h _ _)
  · exact (Kept.follows (reach_kept _ _ _ _ _)).kept (bufFails_kept _)

theorem withCard_follows {f : State → CardImage → State} (h : ∀ t c, Follows AnyRegs t (f t c)) :
    Follows AnyRegs s (withCard s f) := by
  unfold withCard
  dsimp only
  split
  · split
    · exact (Kept.follows (by simp)).trans (h _ _)
    · exact Kept.follows (by simp)
  · exact Kept.follows (by simp)

theorem kdeOwned_follows {f : State → State} (m : Master) (h : Follows AnyRegs s (f s)) :
    Follows AnyRegs s (kdeOwned s m f) := by
  unfold kdeOwned
  split
  · exact h
  · exact Kept.follows (by simp)

theorem maeOwned_follows {f : State → State} (m : Master) (h : Follows AnyRegs s (f s)) :
    Follows AnyRegs s (maeOwned s m f) := by
  unfold maeOwned
  split
  · exact h
  · exact Kept.follows (by simp)

end

theorem importFrom_follows (s : State) (b : Bytes) : Follows AnyRegs s (importFrom s b) := by
  unfold importFrom
  dsimp only
  iterate 5
    split
    · exact Kept.follows (by simp)
  · exact (Kept.follows (putTrunk_kept _ _)).trans ((rebuildTable_follows _).still (btrResult_still _ _ _))

theorem importCommand_follows (s : State) (a : BtrArgs) : Follows AnyRegs s (importCommand s a) := by
  unfold importCommand
  split
  · exact Kept.follows (by simp)
  split
  · exact Kept.follows (by simp)
  · exact withBuf_follows a 1929 (fun t b => viaMae_follows 0 none _ (importFrom_follows t b))

theorem kdeStart_follows (s : State) (m : Master) (split : Bool) : Follows AnyRegs s (kdeStart s m split) := by
  unfold kdeStart
  split
  · exact (builtTable_follows s).kept (by simp)
  · exact Kept.follows (by simp)

theorem kdeRestoreBlob_follows (s : State) (m : Master) (b : Bytes) : Follows AnyRegs s (kdeRestoreBlob s m b) := by
  unfold kdeRestoreBlob
  extract_lets ready w configured placed
  have hready : Follows AnyRegs s ready := by
    simp only [ready]
    split
    · exact (Kept.follows (by simp)).trans (builtTable_follows _)
    · exact Kept.follows (by simp)
  refine hready.kept ?_
  split
  · simp
  split
  · simp
  split
  · simp
  · simp [placed, configured]

theorem kdeRestore_follows (s : State) (m : Master) : Follows AnyRegs s (kdeRestore s m) := by
  unfold kdeRestore
  dsimp only
  split
  · exact Kept.follows (by simp)
  split
  · exact Kept.follows (by simp)
  split
  · exact Kept.follows (by simp)
  · exact (Kept.follows (reach_kept _ _ _ _ _)).trans (kdeRestoreBlob_follows _ _ _)

/-- A part that is done under a condition. -/
theorem Follows.of_if {P : List Word → Prop} {s t : State} {c : Prop} [Decidable c] (h : Follows P s t) :
    Follows P s (if c then t else s) := by
  split
  · exact h
  · exact Follows.refl s

theorem kdeControl_follows (s : State) (m : Master) (v : Word) : Follows AnyRegs s (kdeControl s m v) := by
  unfold kdeControl
  exact (Follows.of_if (kdeStart_follows s m false)).trans ((Follows.of_if (Kept.follows (by simp))).trans
    ((Follows.of_if (Kept.follows (by simp))).trans ((Follows.of_if (kdeRestore_follows _ m)).trans
      ((Follows.of_if (Kept.follows (by simp))).trans (Follows.of_if (Kept.follows (by simp)))))))

theorem kdeOwnWrite_follows (s : State) (m : Master) (a : Nat) (v : Word) : Follows AnyRegs s (kdeOwnWrite s m a v) := by
  unfold kdeOwnWrite
  split
  · exact kdeControl_follows s m v
  · refine Kept.follows ?_
    (repeat' split) <;> simp

theorem resumeHybrid_follows (s : State) (r : HybridRequest) : Follows AnyRegs s (resumeHybrid s r) := by
  cases r with
  | command op a data _ =>
    simp only [resumeHybrid, resumeCommand]
    split
    · exact Kept.follows (by simp)
    · exact Kept.follows (by simp)
    · exact Kept.follows (by simp)
    · exact Kept.follows (by simp)
    · exact importCommand_follows s a
  | waybill l id op data _ => exact Kept.follows (resumeWaybill_kept s l id op data)

theorem runRequest_follows (s : State) : Follows AnyRegs s (runRequest s) := by
  unfold runRequest
  split
  · exact Follows.refl s
  · split
    · exact (Kept.follows (by simp)).trans (resumeHybrid_follows _ _)
    · exact Follows.refl s

theorem maeFree_follows (s : State) : Follows AnyRegs s (maeFree s) :=
  (Kept.follows (by simp)).trans (runRequest_follows (runShortIf s))

theorem maeEnd_follows (s : State) (code verdict : Nat) : Follows AnyRegs s (maeEnd s code verdict) := by
  unfold maeEnd
  refine Follows.trans (Kept.follows ?_) (maeFree_follows _)
  split <;> simp

theorem maeStart_follows (s : State) : Follows AnyRegs s (maeStart s) := by
  have hrun := runRequest_follows s
  unfold maeStart
  dsimp only
  split
  · exact Kept.follows (by simp)
  split
  · exact hrun.trans (maeEnd_follows _ _ _)
  split
  · exact hrun.trans (maeEnd_follows _ _ _)
  split
  · exact hrun.trans (maeEnd_follows _ _ _)
  · exact hrun.kept (by simp)

theorem maeControl_follows (s : State) (v : Word) : Follows AnyRegs s (maeControl s v) := by
  unfold maeControl
  exact (Follows.of_if (maeStart_follows s)).trans
    ((Follows.of_if (Kept.follows (by simp))).trans (Follows.of_if (Kept.follows (by simp))))

theorem unlockCard_follows (s : State) (by_ : List Nat) : Follows AnyRegs s (unlockCard s by_).1 := by
  have hbuilt := builtTable_follows s
  unfold unlockCard
  split
  · exact Follows.refl s
  · dsimp only
    split
    · exact Follows.refl s
    · refine hbuilt.kept ?_
      (repeat' split) <;> simp

theorem formatExport_follows (m : Master) (s : State) : Follows AnyRegs s (formatExport m s) := by
  have hunlocked := (builtTable_follows s).trans (unlockCard_follows (builtTable s) [m.toNat])
  unfold formatExport
  dsimp only
  refine hunlocked.kept ?_
  (repeat' split) <;> simp

theorem formatBackup_follows (m : Master) (s : State) (img : CardImage) : Follows AnyRegs s (formatBackup m s img) := by
  unfold formatBackup
  dsimp only
  refine (builtTable_follows s).kept ?_
  (repeat' split) <;> simp

section
variable {s : State}

theorem flcCommand_follows {f : State → State} (m : Master) (h : ∀ t, Follows AnyRegs t (f t)) :
    Follows AnyRegs s (flcCommand s m f) := by
  refine guardedWrite_follows m _ ?_
  split
  · exact Kept.follows (by simp)
  · exact (Kept.follows (by simp)).trans (h _)

theorem cciCommand_follows {f : State → State} (m : Master) (modeOk : Bool) (h : ∀ t, Follows AnyRegs t (f t)) :
    Follows AnyRegs s (cciCommand s m modeOk f) := by
  refine guardedWrite_follows m _ ?_
  dsimp only
  split
  · exact Kept.follows (by simp)
  split
  · exact Kept.follows (by simp)
  split
  · exact Kept.follows (by simp)
  · exact (Kept.follows (by simp)).trans (h _)

theorem lkoCommand_follows {f : State → State} (m : Master) (h : ∀ t, Follows AnyRegs t (f t)) :
    Follows AnyRegs s (lkoCommand s m f) := by
  refine guardedWrite_follows m _ ?_
  split
  · exact Kept.follows (by simp)
  · exact (Kept.follows (by simp)).trans (h _)

end

theorem modeRequest_follows (s : State) (m : Master) (row : Bool) (cond : Nat) (target : Mode) :
    Follows AnyRegs s (modeRequest s m row cond target) := by
  unfold modeRequest
  dsimp only
  iterate 4
    split
    · exact Kept.follows (by simp)
  · exact (Kept.follows (clearR_kept _ _ _)).trans ((changeMode_follows _ target 2).kept (modeResult_kept _ _ _))

theorem kick_follows (s : State) (n : Nat) (v : Word) : Follows AnyRegs s (kick s n v) := by
  unfold kick
  dsimp only
  split
  · exact Kept.follows (by simp)
  split
  · exact Kept.follows (by simp)
  · exact abruptReset_follows trivial s _

end Sys2Proof.LockedRoutes
end

section
/-! PROOF. Locked routes (R421), register writes block by block. But for ILK_CMD every register write leaves the routes, or gives
them their reset values. -/

namespace Sys2Proof.LockedRoutes

open Sys2Proof.Machine

theorem ran_done (s t : State) : ran s (done t) = after t := by
  unfold done ran
  rfl

/-- A row that its register write carries out to the end of its step. -/
theorem ran_done_follows {s t : State} (h : Follows AnyRegs s t) : Follows AnyRegs s (ran s (done t)) := by
  rw [ran_done]
  exact h.trans (after_follows trivial t)

theorem wSys_follows (s : State) (m : Master) (a : Nat) (v : Word) : Follows AnyRegs s (wSys s m a v) := by
  unfold wSys
  split
  · split
    · exact ran_done_follows (guardedWrite_follows m _ (modeRequest_follows s m _ _ _))
    · exact modeRequest_follows s m _ _ _
    · exact ran_done_follows (guardedWrite_follows m _ (modeRequest_follows s m _ _ _))
    · exact Follows.refl s
  · exact Follows.refl s

theorem execImageCommit_follows (s : State) (m : Master) : Follows AnyRegs s (ran s (execImageCommit m s)) := by
  refine ran_done_follows (guardedWrite_follows m _ (Kept.follows ?_))
  split <;> simp

theorem execDeadmanKick_follows (s : State) (m : Master) (n : BitVec 2) (v : Word) :
    Follows AnyRegs s (ran s (execDeadmanKick m n v s)) := by
  refine ran_done_follows (guardedWrite_follows m _ ?_)
  split
  · exact kick_follows s n.toNat v
  · exact Follows.refl s

theorem execLsuFence_follows (s : State) (m : Master) (bits : BitVec 4) :
    Follows AnyRegs s (ran s (execLsuFence m bits s)) := by
  refine ran_done_follows (guardedWrite_follows m _ (Kept.follows (foldl_kept (fun t n => ?_) _ s)))
  split <;> simp

theorem execTrackFence_follows (s : State) (m : Master) (bits : BitVec 8) :
    Follows AnyRegs s (ran s (execTrackFence m bits s)) :=
  ran_done_follows (guardedWrite_follows m _ (Kept.follows (foldl_kept fenceByFirmware_kept _ s)))

theorem wDmn_follows (s : State) (m : Master) (a : Nat) (v : Word) : Follows AnyRegs s (wDmn s m a v) := by
  unfold wDmn
  split
  · exact Kept.follows (by simp)
  split
  · exact Follows.of_if (execImageCommit_follows s m)
  split
  · exact execDeadmanKick_follows s m _ v
  · exact Kept.follows (by simp)

theorem wKde_follows (s : State) (m : Master) (a : Nat) (v : Word) : Follows AnyRegs s (wKde s m a v) := by
  unfold wKde
  split
  · exact Follows.of_if (Kept.follows (by simp))
  split
  · exact Follows.refl s
  · exact kdeOwned_follows m (kdeOwnWrite_follows s m a v)

theorem wMae_follows (s : State) (m : Master) (a : Nat) (v : Word) : Follows AnyRegs s (wMae s m a v) := by
  unfold wMae
  split
  · exact Follows.of_if (Kept.follows (by simp))
  split
  · exact Follows.of_if (Kept.follows (by simp))
  split
  · exact maeOwned_follows m (maeControl_follows s v)
  · refine Kept.follows ?_
    (repeat' split) <;> simp

theorem wLsu_follows (s : State) (m : Master) (a : Nat) (v : Word) : Follows AnyRegs s (wLsu s m a v) := by
  unfold wLsu
  split
  · exact Kept.follows (by simp)
  split
  · exact Follows.of_if (Kept.follows (by simp))
  split
  · exact execLsuFence_follows s m _
  · exact Kept.follows (by simp)

theorem btrOp_follows (s : State) (m : Master) (v : Word) : Follows AnyRegs s (btrOp s m v) := by
  have hkept : ∀ {f : State → BtrArgs → State} (modeOk : State → Bool), (∀ t a, Kept t (f t a)) →
      Follows AnyRegs s (ran s (done (btrCommand s m modeOk f))) := fun modeOk h =>
    ran_done_follows (btrCommand_kept_follows m modeOk h)
  unfold btrOp
  dsimp only
  split
  · exact hkept _ deriveCommand_kept
  · exact hkept _ (encapsCommand_kept _)
  · exact hkept _ (decapsCommand_kept _)
  · exact hkept _ invalidateCommand_kept
  · exact hkept _ purgeCommand_kept
  · exact hkept _ rotateCommand_kept
  · exact hkept _ trunkCreate_kept
  · exact ran_done_follows (btrCommand_follows m _ (fun t _ => (loseTrunk_follows t).still (btrResult_still _ _ _)))
  · exact hkept _ backupCommand_kept
  · exact hkept _ rescueCommand_kept
  · exact hkept _ releaseCommand_kept
  · exact ran_done_follows (btrCommand_follows m _ importCommand_follows)
  · exact Kept.follows (by simp)

theorem wBtr_follows (s : State) (m : Master) (a : Nat) (v : Word) : Follows AnyRegs s (wBtr s m a v) := by
  unfold wBtr
  split
  · exact btrOp_follows s m v
  split
  · exact Follows.of_if (Kept.follows (by simp))
  · exact Kept.follows (by simp)

theorem wMsh_follows (s : State) (m : Master) (a : Nat) (v : Word) : Follows AnyRegs s (wMsh s m a v) := by
  unfold wMsh
  split
  · exact execTrackFence_follows s m _
  · exact Kept.follows (by simp)

theorem flcRefused_kept (s : State) (program : Bool) (k : FlashOp) : Kept s ((flcRefusal s program).getD (startOp s k)) := by
  unfold flcRefusal
  dsimp only
  split
  · simp
  split
  · simp
  split
  · simp
  split <;> simp

theorem wFlc_follows (s : State) (m : Master) (a : Nat) (v : Word) : Follows AnyRegs s (wFlc s m a v) := by
  unfold wFlc
  split
  · split
    · exact ran_done_follows (flcCommand_follows m (fun t => Kept.follows (by simp)))
    · exact ran_done_follows (flcCommand_follows m (fun t => Kept.follows (flcRefused_kept t true .program)))
    · exact ran_done_follows (flcCommand_follows m (fun t => Kept.follows (flcRefused_kept t false .erase)))
    · refine ran_done_follows (flcCommand_follows m (fun t => Kept.follows ?_))
      split <;> simp
    · refine ran_done_follows (flcCommand_follows m (fun t => Kept.follows ?_))
      dsimp only
      split <;> simp
    · exact flcCommand_follows m Follows.refl
  split
  · exact Kept.follows (by simp)
  · exact Kept.follows (by simp)

theorem wCci_follows (s : State) (m : Master) (a : Nat) (v : Word) : Follows AnyRegs s (wCci s m a v) := by
  have hcard : ∀ {f : State → State} (modeOk : Bool), (∀ t, Follows AnyRegs t (f t)) →
      Follows AnyRegs s (ran s (done (cciCommand s m modeOk f))) := fun modeOk h =>
    ran_done_follows (cciCommand_follows m modeOk h)
  unfold wCci
  split
  · split
    · exact hcard _ (fun t => withCard_follows (fun u _ => formatExport_follows m u))
    · exact hcard _ (fun t => withCard_follows (fun u c => formatBackup_follows m u c))
    · exact hcard _ (fun t => withCard_follows (fun u _ => Kept.follows (by simp)))
    · exact hcard _ (fun t => withCard_follows (fun u _ => Kept.follows (by simp)))
    · exact hcard _ (fun t => Kept.follows (by simp))
    · exact Kept.follows (by simp)
  split
  · exact Kept.follows (by simp)
  · exact Kept.follows (by simp)

theorem wLko_follows (s : State) (m : Master) (a : Nat) (v : Word) : Follows AnyRegs s (wLko s m a v) := by
  have hlko : ∀ {f : State → State}, (∀ t, Kept t (f t)) → Follows AnyRegs s (ran s (done (lkoCommand s m f))) := fun h =>
    ran_done_follows (lkoCommand_follows m (fun t => Kept.follows (h t)))
  unfold wLko
  split
  · split
    · exact hlko (fun t => by simp)
    · exact hlko (fun t => by simp)
    · exact hlko (fun t => by simp)
    · exact hlko (fun t => by simp)
    · exact lkoCommand_follows m Follows.refl
  · exact Kept.follows (by simp)

theorem wLsm_follows (s : State) (m : Master) (a : Nat) (v : Word) : Follows AnyRegs s (wLsm s m a v) := by
  unfold wLsm
  iterate 3
    split
    · exact Kept.follows (by simp)
  split
  · split <;> exact Kept.follows (by simp)
  split
  · exact releaseControl_follows s m v
  · exact Kept.follows (by simp)

theorem wHlk_follows (s : State) (m : Master) (a : Nat) (v : Word) : Follows AnyRegs s (wHlk s m a v) := by
  unfold wHlk
  split
  · exact Kept.follows (by simp)
  split
  · split
    · exact requestedReset_follows s
    · exact Kept.follows (by simp)
  · refine Kept.follows ?_
    (repeat' split) <;> simp

/-- After a reset no world is halted, so a write of a halting page is ignored. -/
theorem Renewed.haltedWorld {s : State} (h : Renewed s) (n : Nat) (sig : Bool) : haltedWorld s n sig = false := by
  obtain ⟨-, -, hcores⟩ := h
  obtain ⟨-, -, hp, hs⟩ := hcores n
  unfold Machine.haltedWorld
  cases sig <;> simp [hp, hs]

theorem wDbg_follows (s : State) (m : Master) (a : Nat) (v : Word) : Follows AnyRegs s (wDbg s m a v) := by
  unfold wDbg
  split
  · refine ⟨.inl ?_, fun hs => ?_⟩
    · dsimp only
      split <;> rfl
    · simpa [hs.1.haltedWorld] using hs
  · exact Follows.of_if (closeDebug_follows s)

theorem wIlk_follows {a : Nat} (h : a ≠ Reg.ILK_CMD) (s : State) (v : Word) : Follows AnyRegs s (wIlk s a v) := by
  refine Kept.follows ?_
  unfold wIlk
  simp only [h, if_false]
  (repeat' split) <;> simp

/-- Every register write but one to ILK_CMD leaves the routes, or gives them their reset values. -/
theorem writeReg_follows {a : Nat} (h : a ≠ Reg.ILK_CMD) (s : State) (m : Master) (v : Word) :
    Follows AnyRegs s (writeReg s m a v) := by
  unfold writeReg
  split
  · exact Kept.follows (by simp)
  split
  · exact wSys_follows s m a v
  · exact Kept.follows (by simp)
  · exact Kept.follows (by simp)
  · exact Kept.follows (by simp)
  · exact wIlk_follows h s v
  · exact Kept.follows (by simp)
  · exact wDmn_follows s m a v
  · exact Kept.follows (by simp)
  · exact wKde_follows s m a v
  · exact wMae_follows s m a v
  · exact wLsu_follows s m a v
  · exact wBtr_follows s m a v
  · exact wMsh_follows s m a v
  · exact Kept.follows (by simp)
  · exact wFlc_follows s m a v
  · exact wCci_follows s m a v
  · exact wLko_follows s m a v
  · exact Kept.follows (by simp)
  · exact wLsm_follows s m a v
  · exact Kept.follows (by simp)
  · exact wHlk_follows s m a v
  · exact Kept.follows (by simp)
  · exact wDbg_follows s m a v
  · exact Kept.follows (by simp)

theorem writeBlock_follows {a : Nat} (h : a / 4 * 4 ≠ Reg.ILK_CMD) (s : State) (m : Master) (n : Nat) (v : Word) :
    Follows AnyRegs s (writeBlock s m a n v) := by
  unfold writeBlock
  refine Follows.trans (Kept.follows ?_) (writeReg_follows h _ m _)
  split <;> simp

theorem fabricWrite_follows {a : Nat} (h : a / 4 * 4 ≠ Reg.ILK_CMD) (s : State) (m : Master) (n : Nat) (v : Word) :
    Follows AnyRegs s (fabricWrite s m a n v).state := by
  unfold fabricWrite
  iterate 3
    split
    · exact Kept.follows (by simp)
  split
  · exact writeBlock_follows h s m n v
  · split <;> exact Kept.follows (by simp)

end Sys2Proof.LockedRoutes
end

section
/-! PROOF. Locked routes (R421), register reads. A read of SYS_NONCE ends its own step within the command (R518), and so it alone
among the reads can reset the device. -/

namespace Sys2Proof.LockedRoutes

open Sys2Proof.Machine

theorem length_drawBytes (s : State) (n : Nat) : (drawBytes s n).length = n := by
  simp [drawBytes]
  omega

/-- What a read of SYS_NONCE does before the step settles. -/
def nonceDrawn (m : Master) (s : State) : State :=
  guardedRead s m Reg.SYS_NONCE (fun s =>
    if entReady s then
      readData (setRegBytes (drawn s 32) Reg.SYS_NONCE (drawBytes s 32)) (BitVec.ofNat 64 (num (drawBytes s 32) 0 4))
    else readData s 0)

theorem execSysNonceRead_eq (m : Master) (s : State) : execSysNonceRead m s = done (nonceDrawn m s) := by
  unfold execSysNonceRead nonceDrawn
  rfl

theorem nonceDrawn_still (m : Master) (s : State) : Still s (nonceDrawn m s) := by
  refine guardedRead_still _ _ _ _ (fun t => ?_)
  split
  · refine Still.trans (Still.trans (drawn_still t 32) (setRegBytes_still _ _ _ ?_)) (readData_still _ _)
    rw [length_drawBytes]
    decide
  · exact readData_still t 0

section
variable {P : List Word → Prop}

theorem readReg_still {a : Nat} (h : a ≠ Reg.SYS_NONCE) (s : State) (m : Master) : Still s (readReg s m a).state := by
  unfold readReg
  split
  · exact Still.refl s
  split
  · next hlock =>
    have ha : a ∉ commitRegs := by obtain rfl | rfl := hlock <;> decide
    exact (takeLock_still s m a ha).trans (offPort_still _ _)
  split
  · exact (maeLockRead_still s m).trans (offPort_still _ _)
  split
  · exact (readEnt_still s m).trans (offPort_still _ _)
  split
  · exact (nonceRead_still s).trans (offPort_still _ _)
  split
  · exact readMbx_still s m a
  split
  · exact (tabletTake_still s m _).trans (offPort_still _ _)
  split
  · next hpeak =>
    have ha : a ∉ commitRegs := by obtain rfl | rfl := hpeak <;> decide
    exact readClears_still s m a ha
  split
  · exact usedFree_still s
  split
  · exact readLow_still s m a
  split
  · exact readHigh_still s m a
  · exact Still.refl s

theorem readReg_follows (hP : P (commitView [])) (s : State) (m : Master) (a : Nat) : Follows P s (readReg s m a).state := by
  by_cases h : a = Reg.SYS_NONCE
  · by_cases hheld : (hostHeld s m a || limitedView m a) = true
    · rw [readReg, if_pos hheld]
      exact Follows.refl s
    · rw [readReg, if_neg hheld, if_neg (by subst h; decide), if_neg (by subst h; decide), if_neg (by subst h; decide),
        if_pos h, execSysNonceRead_eq, ran_done]
      exact ((Still.follows (nonceDrawn_still m s)).trans (after_follows hP _)).still (offPort_still _ _)
  · exact Still.follows (readReg_still h s m)

theorem readBlock_still {a : Nat} (h : a / 4 * 4 ≠ Reg.SYS_NONCE) (s : State) (m : Master) (n : Nat) :
    Still s (readBlock s m a n).state := by
  have hread := readReg_still h s m
  unfold readBlock
  dsimp only
  split
  · exact sealFault_still s _
  split <;> exact hread

theorem readBlock_follows (hP : P (commitView [])) (s : State) (m : Master) (a n : Nat) :
    Follows P s (readBlock s m a n).state := by
  have hread := readReg_follows hP s m (a / 4 * 4)
  unfold readBlock
  dsimp only
  split
  · exact Still.follows (sealFault_still s _)
  split <;> exact hread

theorem fabricRead_still {a : Nat} (h : a / 4 * 4 ≠ Reg.SYS_NONCE) (s : State) (m : Master) (n : Nat) :
    Still s (fabricRead s m a n).state := by
  unfold fabricRead
  split
  · exact unmapped_still s m
  split
  · exact denied_still s m _ a
  split
  · exact readBlock_still h s m n
  split
  · exact sealFault_still s _
  · exact noteRead_still s a n

theorem fabricRead_follows (hP : P (commitView [])) (s : State) (m : Master) (a n : Nat) :
    Follows P s (fabricRead s m a n).state := by
  by_cases h : a / 4 * 4 = Reg.SYS_NONCE
  · unfold fabricRead
    split
    · exact Still.follows (unmapped_still s m)
    split
    · exact Still.follows (denied_still s m _ a)
    split
    · exact readBlock_follows hP s m a n
    split
    · exact Still.follows (sealFault_still s _)
    · exact Still.follows (noteRead_still s a n)
  · exact Still.follows (fabricRead_still h s m n)

end

/-! ### The words behind SYS_NONCE -/

theorem mem_behind_nonce {a : Nat} (ha : 0x40000038 ≤ a ∧ a < 0x40000050) (h4 : a % 4 = 0) : a ∈ commitRegs.tail := by
  simp only [commitRegs, List.tail_cons, List.mem_cons, List.not_mem_nil, or_false]
  omega

/-- A read of the register answers what it shows, and does nothing. -/
def PlainlyRead (a : Nat) : Prop :=
  ¬(a = Reg.KDE_LOCK ∨ a = Reg.MAE_SLOCK) ∧ a ≠ Reg.MAE_LOCK ∧ a ≠ Reg.ENT_DATA ∧ a ≠ Reg.SYS_NONCE ∧ a ≠ Reg.DBG_NONCE ∧
    within a 0x40051000 0x400510FF = false ∧ within a 0x40052000 0x400520FF = false ∧
    ¬(a = Reg.LNE_INFLIGHT ∨ a = Reg.MSH_QUEUE) ∧ a ≠ Reg.PWR_INPUT ∧ isLow a = false ∧ isLow (a - 4) = false

theorem plainlyRead_behind_nonce : ∀ a ∈ commitRegs.tail, PlainlyRead a := by
  unfold PlainlyRead
  decide

theorem readReg_plain {a : Nat} (h : PlainlyRead a) (s : State) (m : Master)
    (hheld : ¬(hostHeld s m a || limitedView m a) = true) :
    readReg s m a = { state := s, value := regView s m a, err := false } := by
  obtain ⟨h1, h2, h3, h4, h5, h6, h7, h8, h9, h10, h11⟩ := h
  rw [readReg, if_neg hheld, if_neg h1, if_neg h2, if_neg h3, if_neg h4, if_neg h5, h6, if_neg Bool.false_ne_true, h7,
    if_neg Bool.false_ne_true, if_neg h8, if_neg h9, h10, if_neg Bool.false_ne_true, h11, if_neg Bool.false_ne_true]

theorem regView_zero {a : Nat} (ha : 0x40000038 ≤ a ∧ a < 0x40000050) (s : State) (m : Master) (hz : getR s a = 0) :
    regView s m a = 0 := by
  have hblock : (a - 0x40000000) / 0x10000 = 0 := by omega
  have hne : a ≠ Reg.SYS_MODE := by
    unfold Reg.SYS_MODE
    omega
  unfold regView
  rw [hblock]
  simp [sysView, hne, hz]

theorem readReg_zero {a : Nat} (ha : 0x40000038 ≤ a ∧ a < 0x40000050) (h4 : a % 4 = 0) (s : State) (m : Master)
    (hz : getR s a = 0) : (readReg s m a).value = 0 := by
  by_cases hheld : (hostHeld s m a || limitedView m a) = true
  · rw [readReg, if_pos hheld]
  · rw [readReg_plain (plainlyRead_behind_nonce a (mem_behind_nonce ha h4)) s m hheld]
    exact regView_zero ha s m hz

end Sys2Proof.LockedRoutes
end

section
/-! PROOF. Locked routes (R421), writes at ILK_CMD and near it. A commit keeps every locked route. A write of a register within 64
bytes of ILK_CMD resets nothing, so the words that one command writes around ILK_CMD are safe together. -/

namespace Sys2Proof.LockedRoutes

open Sys2Proof.Machine

/-- A word behind SYS_NONCE that holds zero reads as zero, whoever reads it. -/
theorem fabricRead_zero {a : Nat} (ha : 0x40000038 ≤ a / 4 * 4 ∧ a / 4 * 4 < 0x40000050) (s : State) (m : Master)
    (hz : getR s (a / 4 * 4) = 0) : (fabricRead s m a 4).value = 0 := by
  have hvalue := readReg_zero ha (by omega) s m hz
  have hblock : isBlock a = true := by
    unfold isBlock within
    simp only [decide_eq_true_eq]
    omega
  unfold fabricRead
  split
  · rfl
  split
  · rfl
  unfold readBlock
  dsimp only
  split
  · rfl
  split
  · rfl
  · simp [hvalue, bitsOf, place]

/-- Every route that is locked stays as it is. -/
def Keeps (s t : State) : Prop := ∀ n, (routeAt s n).lock = true → routeAt t n = routeAt s n

theorem Keeps.of_routes {s t : State} (h : t.routes = s.routes) : Keeps s t := by
  intro n _
  unfold routeAt
  rw [h]

theorem Keeps.trans {s t u : State} (h : Keeps s t) (k : Keeps t u) : Keeps s u := by
  intro n hn
  have ht := h n hn
  rw [k n (by rw [ht]; exact hn), ht]

theorem commit_refused {s : State} (h : (routeAt s (ilkSel s)).lock = true) : commit s = raise (orR s Reg.ILK_ERR 1) 199 := by
  unfold commit
  rw [if_pos h]

theorem commit_keeps (s : State) : Keeps s (commit s) := by
  by_cases hlock : (routeAt s (ilkSel s)).lock = true
  · rw [commit_refused hlock]
    exact Keeps.of_routes (by simp)
  · unfold commit
    dsimp only
    rw [if_neg hlock]
    split
    · exact Keeps.of_routes (by simp)
    · intro n hn
      have hne : n ≠ ilkSel s := fun e => hlock (e ▸ hn)
      unfold routeAt
      rw [mget?_mput_other _ _ _ _ hne]

/-- A write of ILK_CMD commits at most, and then loads at most. -/
theorem wIlk_cmd_keeps (s : State) (v : Word) : Keeps s (wIlk s Reg.ILK_CMD v) := by
  unfold wIlk
  extract_lets committed
  have hcommitted : Keeps s committed := by
    simp only [committed]
    split
    · exact commit_keeps s
    · exact Keeps.of_routes rfl
  rw [if_pos rfl]
  refine hcommitted.trans (Keeps.of_routes ?_)
  split <;> simp

/-- A write of ILK_CMD without its COMMIT bit, or while the selected route is locked, commits nothing. -/
theorem wIlk_cmd_kept {s : State} {v : Word} (h : bit v 0 = false ∨ (routeAt s (ilkSel s)).lock = true) :
    Kept s (wIlk s Reg.ILK_CMD v) := by
  unfold wIlk
  extract_lets committed
  have hcommitted : Kept s committed := by
    simp only [committed]
    split
    · next hv =>
      rw [commit_refused (h.resolve_left (by simp [hv]))]
      simp
    · exact Kept.refl s
  rw [if_pos rfl]
  refine Kept.trans hcommitted ?_
  split <;> simp

theorem writeReg_cmd (s : State) (m : Master) (v : Word) :
    writeReg s m Reg.ILK_CMD v = if hostHeld s m Reg.ILK_CMD then orR s Reg.HLK_ERR 4 else wIlk s Reg.ILK_CMD v := by
  unfold writeReg
  rfl

/-- A write over the fabric is refused, or it writes the register. -/
theorem fabricWrite_block_cases {a : Nat} (hb : isBlock a = true) (s : State) (m : Master) (n : Nat) (v : Word) :
    Still s (fabricWrite s m a n v).state ∨ (fabricWrite s m a n v).state = writeBlock s m a n v := by
  unfold fabricWrite
  split
  · exact .inl (unmapped_still s m)
  split
  · exact .inl (denied_still s m _ a)
  split
  · exact .inl (sealFault_still s _)
  · exact .inr rfl

theorem mend_still (s : State) (a : Nat) : Still s (mend s a) := by
  unfold mend
  split
  · exact ⟨⟨rfl, rfl, rfl⟩, rfl⟩
  · exact Still.refl s

/-- A register write, after a cell that is written whole has been mended. -/
theorem writeBlock_eq (s : State) (m : Master) (a n : Nat) (v : Word) :
    ∃ u, Still s u ∧ writeBlock s m a n v = writeReg u m (a / 4 * 4) (laneWord u m a n v) := by
  refine ⟨_, ?_, rfl⟩
  split
  · exact mend_still s a
  · exact Still.refl s

theorem isBlock_of_word {a w : Nat} (h : a / 4 * 4 = w) (hw : 0x40000000 ≤ w ∧ w < 0x40180000) : isBlock a = true := by
  unfold isBlock within
  simp only [decide_eq_true_eq]
  omega

theorem isBlock_cmd {a : Nat} (h : a / 4 * 4 = Reg.ILK_CMD) : isBlock a = true := isBlock_of_word h (by decide)

theorem fabricWrite_cmd_keeps {a : Nat} (h : a / 4 * 4 = Reg.ILK_CMD) (s : State) (m : Master) (n : Nat) (v : Word) :
    Keeps s (fabricWrite s m a n v).state := by
  obtain hstill | hwrite := fabricWrite_block_cases (isBlock_cmd h) s m n v
  · exact Keeps.of_routes hstill.1.1
  · obtain ⟨u, hu, e⟩ := writeBlock_eq s m a n v
    rw [hwrite, e, h, writeReg_cmd]
    refine (Keeps.of_routes hu.1.1).trans ?_
    split
    · exact Keeps.of_routes (by simp)
    · exact wIlk_cmd_keeps u _

theorem laneWord_cmd_zero {a : Nat} (h : a / 4 * 4 = Reg.ILK_CMD) (s : State) (m : Master) (n : Nat) :
    laneWord s m a n 0 = 0 := by
  have hbase : laneBase s m Reg.ILK_CMD = 0 := rfl
  unfold laneWord
  rw [h, hbase]
  simp

theorem Still.lock {s t : State} (h : Still s t) : (routeAt t (ilkSel t)).lock = (routeAt s (ilkSel s)).lock := by
  obtain ⟨⟨hr, -, -⟩, hst⟩ := h
  have hsel : getR t Reg.ILK_SEL = getR s Reg.ILK_SEL := by
    have := congrArg List.head? hst
    simpa [commitView, commitRegs, getR] using this
  unfold ilkSel fieldR routeAt
  rw [hsel, hr]

/-- A zero written at ILK_CMD, and any word while the selected route is locked, commits nothing. -/
theorem fabricWrite_cmd_kept {a : Nat} (h : a / 4 * 4 = Reg.ILK_CMD) (s : State) (m : Master) (n : Nat) (v : Word)
    (hv : v = 0 ∨ (routeAt s (ilkSel s)).lock = true) : Kept s (fabricWrite s m a n v).state := by
  obtain hstill | hwrite := fabricWrite_block_cases (isBlock_cmd h) s m n v
  · exact hstill.1
  · obtain ⟨u, hu, e⟩ := writeBlock_eq s m a n v
    rw [hwrite, e, h, writeReg_cmd]
    refine Kept.trans hu.1 ?_
    split
    · simp
    · refine wIlk_cmd_kept ?_
      obtain rfl | hlock := hv
      · rw [laneWord_cmd_zero h]
        exact .inl rfl
      · exact .inr (hu.lock.trans hlock)

/-- The address lies within 64 bytes of ILK_CMD, and is not ILK_CMD. -/
def Near (a : Nat) : Prop := Reg.ILK_CMD - 64 < a ∧ a < Reg.ILK_CMD + 64 ∧ a ≠ Reg.ILK_CMD

/-- What a write near ILK_CMD changes of the registers that `commitView` follows: ILK_SEL at most. -/
def NearWrite (a : Nat) (s t : State) : Prop :=
  Kept s t ∧ (commitView t.regs).tail = (commitView s.regs).tail ∧ (a ≠ Reg.ILK_SEL → commitView t.regs = commitView s.regs)

theorem Still.nearWrite {s t : State} (h : Still s t) (a : Nat) : NearWrite a s t :=
  ⟨h.1, congrArg List.tail h.2, fun _ => h.2⟩

theorem setR_sel_nearWrite (s : State) (v : Word) : NearWrite Reg.ILK_SEL s (setR s Reg.ILK_SEL v) := by
  refine ⟨by simp, ?_, fun h => absurd rfl h⟩
  unfold commitView
  rw [← List.map_tail, ← List.map_tail]
  refine List.map_congr_left (fun b hb => ?_)
  have hne : b ≠ Reg.ILK_SEL := by
    rintro rfl
    exact absurd hb (by decide)
  unfold setR
  dsimp only
  split
  · rw [mget?_mdel_other _ _ _ hne]
  · rw [mget?_mput_other _ _ _ _ hne]

theorem writePlain_nearWrite {a : Nat} (ha : a = Reg.ILK_SEL ∨ a ∉ commitRegs) (s : State) (v : Word) :
    NearWrite a s (writePlain s a v) := by
  unfold writePlain
  split
  · obtain rfl | ha := ha
    · exact setR_sel_nearWrite s _
    · exact Still.nearWrite (by simp [ha]) a
  · exact (Still.refl s).nearWrite a

theorem writeReg_nearWrite {a : Nat} (ha : Near a) (s : State) (m : Master) (v : Word) : NearWrite a s (writeReg s m a v) := by
  obtain ⟨hlo, hhi, hne⟩ := ha
  unfold Reg.ILK_CMD at hlo hhi
  have hplain : NearWrite a s (writePlain s a v) := by
    refine writePlain_nearWrite (or_iff_not_imp_left.mpr fun hsel => ?_) s v
    simp only [commitRegs, List.mem_cons, hsel, List.not_mem_nil, false_or, or_false]
    omega
  unfold writeReg
  split
  · exact Still.nearWrite (by simp (disch := decide)) a
  · have hblock : (a - 0x40000000) / 0x10000 = 3 ∨ (a - 0x40000000) / 0x10000 = 4 := by omega
    obtain h3 | h4 := hblock
    · have h1 : within a 0x40030000 0x4003007F = false := by
        unfold within
        simp only [decide_eq_false_iff_not]
        omega
      have h2 : within a 0x40031000 0x40031FFF = false := by
        unfold within
        simp only [decide_eq_false_iff_not]
        omega
      rw [h3]
      change NearWrite a s (wEvt s m a v)
      unfold wEvt
      rw [h1, h2]
      exact hplain
    · rw [h4]
      change NearWrite a s (wIlk s a v)
      unfold wIlk
      rw [if_neg hne]
      split
      · next hstatus =>
        have ha : a ∉ commitRegs := by
          rw [hstatus]
          decide
        split
        · exact Still.nearWrite ⟨clearR_kept s a 4, commitView_clearR s a 4 ha⟩ a
        · exact (Still.refl s).nearWrite a
      · exact hplain

theorem fabricWrite_nearWrite {a : Nat} (ha : Near (a / 4 * 4)) (s : State) (m : Master) (n : Nat) (v : Word) :
    NearWrite (a / 4 * 4) s (fabricWrite s m a n v).state := by
  have hblock : isBlock a = true := by
    obtain ⟨hlo, hhi, -⟩ := ha
    refine isBlock_of_word rfl ?_
    unfold Reg.ILK_CMD at hlo hhi
    omega
  obtain hstill | hwrite := fabricWrite_block_cases hblock s m n v
  · exact hstill.nearWrite _
  · obtain ⟨u, hu, e⟩ := writeBlock_eq s m a n v
    obtain ⟨hk, ht, hl⟩ := writeReg_nearWrite ha u m (laneWord u m a n v)
    rw [hwrite, e]
    exact ⟨Kept.trans hu.1 hk, ht.trans (congrArg List.tail hu.2), fun h => (hl h).trans hu.2⟩

end Sys2Proof.LockedRoutes
end

section
/-! PROOF. Locked routes (R421), exceptions. The eight words of a frame either miss ILK_CMD, or lie at it and near; and after a
reset no core has memory for a frame, so nothing is written. -/

namespace Sys2Proof.LockedRoutes

open Sys2Proof.Machine

/-- Locked routes stay, or the reset table has taken their place. -/
def Safe (s t : State) : Prop := Keeps s t ∨ t.routes = Route.resetTable

/-- The stack pointer of a supervisor after a reset, and after one exception more. -/
def LostStack (w : World) : Prop := w.ssp = 0 ∨ w.ssp = 0xFFFFFFE0

/-- After a reset in the middle of a step no exception of a core finds memory for its frame. -/
def Stranded (s : State) : Prop := s.routes = Route.resetTable ∧ ∀ n sig, LostStack (worldOf (coreAt s n) sig)

/-- As `Safe`, with what an exception that follows in the same step needs. -/
def Good (s t : State) : Prop := Keeps s t ∨ Stranded t

theorem CoreRenewed.ssp {c : Core} (h : CoreRenewed c) (sig : Bool) : (worldOf c sig).ssp = 0 := by
  obtain ⟨hp, hs, -, -⟩ := h
  cases sig
  · exact hp
  · exact hs

theorem Renewed.stranded {s : State} (h : Renewed s) : Stranded s :=
  ⟨h.1, fun n sig => .inl ((h.2.2 n).ssp sig)⟩

theorem Kept.stranded {s t : State} (h : Kept s t) (hs : Stranded s) : Stranded t := by
  obtain ⟨hr, hc, -⟩ := h
  refine ⟨hr.trans hs.1, fun n sig => ?_⟩
  have := hs.2 n sig
  unfold coreAt at this ⊢
  rwa [hc]

theorem Good.safe {s t : State} (h : Good s t) : Safe s t := h.imp_right fun ht => ht.1

theorem Good.kept {s t u : State} (h : Good s t) (k : Kept t u) : Good s u :=
  h.imp (fun ht => ht.trans (Keeps.of_routes k.1)) k.stranded

theorem Follows.good {P : List Word → Prop} {s t : State} (h : Follows P s t) : Good s t :=
  h.1.imp Keeps.of_routes fun ht => ht.1.stranded

theorem Follows.safe {P : List Word → Prop} {s t : State} (h : Follows P s t) : Safe s t := h.good.safe

theorem Good.of_routes {s t : State} (h : t.routes = s.routes) : Good s t := .inl (Keeps.of_routes h)

theorem Keeps.good {s t u : State} (h : Keeps s t) (k : Good t u) : Good s u := k.imp_left h.trans

theorem Safe.of_routes {s t : State} (h : t.routes = s.routes) : Safe s t := .inl (Keeps.of_routes h)

theorem Safe.routes {s t u : State} (h : Safe s t) (k : u.routes = t.routes) : Safe s u :=
  h.imp (fun ht => ht.trans (Keeps.of_routes k)) k.trans

theorem Safe.follows {P : List Word → Prop} {s t u : State} (h : Safe s t) (k : Follows P t u) : Safe s u := by
  obtain hu | hu := k.1
  · exact h.routes hu
  · exact .inr hu.1.1

/-! ### Words around ILK_CMD -/

theorem translate_word {n a w : Nat} (hn : n < 4) (hw : 0x40000000 ≤ w) : translate n a / 4 * 4 = w ↔ a / 4 * 4 = w := by
  unfold Machine.translate within
  split
  · next h =>
    simp only [decide_eq_true_eq] at h
    omega
  · exact Iff.rfl

/-- Of a run of up to 16 words, one of which is ILK_CMD, each lies at ILK_CMD or near. -/
theorem window_near {n : Nat} (hn : n < 4) {b : Word} {i j : Nat} (hi : i < 16) (hj : j < 16)
    (h : translate n (b + BitVec.ofNat 32 (4 * i)).toNat / 4 * 4 = Reg.ILK_CMD) :
    translate n (b + BitVec.ofNat 32 (4 * j)).toNat / 4 * 4 = Reg.ILK_CMD ∨
      Near (translate n (b + BitVec.ofNat 32 (4 * j)).toNat / 4 * 4) := by
  rw [translate_word hn (by decide)] at h
  have hword : ∀ k < 16, (b + BitVec.ofNat 32 (4 * k)).toNat = (b.toNat + 4 * k) % 2 ^ 32 := by
    intro k hk
    rw [BitVec.toNat_add, BitVec.toNat_ofNat, Nat.mod_eq_of_lt (a := 4 * k) (by omega)]
  rw [hword i hi] at h
  have hb := b.isLt
  have htrans : translate n (b + BitVec.ofNat 32 (4 * j)).toNat = (b.toNat + 4 * j) % 2 ^ 32 := by
    rw [hword j hj]
    unfold Machine.translate within
    rw [if_neg]
    unfold Reg.ILK_CMD at h
    simp only [decide_eq_true_eq]
    omega
  rw [htrans]
  unfold Near
  unfold Reg.ILK_CMD at h ⊢
  omega

/-! ### Runs of writes -/

/-- The words that a run of writes stores, one after the other. -/
def writeRun (m : Master) (l : List (Nat × Word)) (s : State) : State :=
  l.foldl (fun t e => (fabricWrite t m e.1 4 e.2).state) s

theorem writeRun_follows (m : Master) (l : List (Nat × Word)) (h : ∀ e ∈ l, e.1 / 4 * 4 ≠ Reg.ILK_CMD) (s : State) :
    Follows AnyRegs s (writeRun m l s) := by
  induction l generalizing s with
  | nil => exact Follows.refl s
  | cons e r ih =>
    exact (fabricWrite_follows (h e List.mem_cons_self) s m 4 e.2).trans (ih (fun x hx => h x (List.mem_cons_of_mem e hx)) _)

theorem fabricWrite_near_keeps {a : Nat} (h : a / 4 * 4 = Reg.ILK_CMD ∨ Near (a / 4 * 4)) (s : State) (m : Master) (n : Nat)
    (v : Word) :
    Keeps s (fabricWrite s m a n v).state := by
  obtain hcmd | hnear := h
  · exact fabricWrite_cmd_keeps hcmd s m n v
  · exact Keeps.of_routes (fabricWrite_nearWrite hnear s m n v).1.1

theorem writeRun_keeps (m : Master) (l : List (Nat × Word)) (h : ∀ e ∈ l, e.1 / 4 * 4 = Reg.ILK_CMD ∨ Near (e.1 / 4 * 4))
    (s : State) :
    Keeps s (writeRun m l s) := by
  induction l generalizing s with
  | nil => exact Keeps.of_routes rfl
  | cons e r ih =>
    exact (fabricWrite_near_keeps (h e List.mem_cons_self) s m 4 e.2).trans (ih (fun x hx => h x (List.mem_cons_of_mem e hx)) _)

/-- A write that does not succeed writes no register that matters. -/
theorem fabricWrite_fault_still {a n : Nat} {v : Word} {s : State} {m : Master} (h : (fabricWrite s m a n v).detail ≠ 0) :
    Still s (fabricWrite s m a n v).state := by
  unfold fabricWrite at h ⊢
  split
  · exact unmapped_still s m
  split
  · exact denied_still s m _ a
  split
  · exact sealFault_still s _
  split
  · next h1 h2 h3 h4 => exact absurd (by rw [if_neg h1, if_neg h2, if_neg h3, if_pos h4]) h
  split
  · exact sealFault_still s _
  · exact storeBytes_still s m a _

/-! ### Exceptions -/

theorem frameFault_still {s f : State} {m : Master} {l : List (Nat × Word)} (h : frameFault s m l = some f) : Still s f := by
  unfold frameFault at h
  obtain ⟨e, he, rfl⟩ := Option.map_eq_some_iff.mp h
  have hdetail := List.find?_some he
  exact fabricWrite_fault_still (by simpa using hdetail)

theorem mem_frameStores {n : Nat} {ssp : Word} {l : List Word} {e : Nat × Word} (h : e ∈ frameStores n ssp l) :
    ∃ i < 8, e.1 = translate n (ssp - 32 + BitVec.ofNat 32 (4 * i)).toNat := by
  obtain ⟨a, v⟩ := e
  obtain ⟨ha, -⟩ := List.of_mem_zip h
  obtain ⟨i, hi, rfl⟩ := List.mem_map.mp ha
  exact ⟨i, List.mem_range.mp hi, rfl⟩

theorem frameRun_renewed {n : Nat} (hn : n < 4) (m : Master) (ssp : Word) (l : List Word) (s : State) :
    Keeps s (writeRun m (frameStores n ssp l) s) ∨ Renewed (writeRun m (frameStores n ssp l) s) := by
  by_cases h : ∃ i < 8, Machine.translate n (ssp - 32 + BitVec.ofNat 32 (4 * i)).toNat / 4 * 4 = Reg.ILK_CMD
  · obtain ⟨i, hi, hcmd⟩ := h
    refine .inl (writeRun_keeps m _ (fun e he => ?_) s)
    obtain ⟨j, hj, e1⟩ := mem_frameStores he
    rw [e1]
    exact window_near hn (by omega) (by omega) hcmd
  · have hrun : Follows AnyRegs s (writeRun m (frameStores n ssp l) s) := by
      refine writeRun_follows m _ (fun e he hcmd => ?_) s
      obtain ⟨j, hj, e1⟩ := mem_frameStores he
      exact h ⟨j, hj, e1 ▸ hcmd⟩
    exact hrun.1.imp Keeps.of_routes And.left

/-- A core without memory for the frame of an exception stops, and nothing is written. -/
theorem frame_unmapped {ssp : Word} (h : ssp = 0 ∨ ssp = 0xFFFFFFE0) (n : Nat) (m : Master) (s : State) (l : List Word)
    (v : Word) :
    (frameFault s m (frameStores n ssp (v :: l))).isSome = true := by
  have hfirst : (fabricWrite s m (Machine.translate n (ssp - 32 + BitVec.ofNat 32 (4 * 0)).toNat) 4 v).detail = 2 := by
    obtain rfl | rfl := h <;> rfl
  unfold frameFault
  rw [Option.isSome_map, List.find?_isSome]
  refine ⟨(Machine.translate n (ssp - 32 + BitVec.ofNat 32 (4 * 0)).toNat, v), List.mem_of_getElem? (i := 0) rfl, ?_⟩
  simp only [hfirst]
  rfl

theorem worldOf_put (c : Core) (sig sig' : Bool) (w : World) :
    worldOf (c.put sig w) sig' = if sig' = sig then w else worldOf c sig' := by
  unfold worldOf Core.put
  cases sig <;> cases sig' <;> rfl

theorem coreAt_setCore (s : State) (n k : Nat) (c : Core) :
    coreAt (setCore s n c) k = if k = n ∧ n < 4 then c else coreAt s k := by
  split
  · next h => rw [h.1, coreAt_setCore_same s n c h.2]
  · next h =>
    by_cases hk : k = n
    · unfold coreAt setCore
      simp [hk] at h
      simp [hk, h]
    · exact coreAt_setCore_other s n k c hk

theorem doubleFault_stranded {s : State} (h : Stranded s) (n : Nat) : Stranded (doubleFault s n) := by
  refine Kept.stranded (raise_still _ _).1 ⟨(setCore_routes s n _).trans h.1, fun k sig => ?_⟩
  rw [coreAt_setCore]
  split
  · exact h.2 n sig
  · exact h.2 k sig

theorem switchTo_stranded {s : State} (h : Renewed s) (n : Nat) (sig : Bool) (code : Nat) :
    Stranded (switchTo s n sig code) := by
  refine ⟨(switchTo_routes s n sig code).trans h.1, fun k sig' => ?_⟩
  have hssp : ∀ k sig, (worldOf (coreAt s k) sig).ssp = 0 := fun k sig => (h.2.2 k).ssp sig
  unfold switchTo
  dsimp only
  rw [coreAt_setCore]
  split
  · change LostStack (worldOf (((coreAt s n).put (coreAt s n).signalbox _).put sig _) sig')
    rw [worldOf_put]
    split
    · have hold : (worldOf ((coreAt s n).put (coreAt s n).signalbox
          { worldOf (coreAt s n) (coreAt s n).signalbox with shadow := false }) sig).ssp = 0 := by
        rw [worldOf_put]
        split
        · exact hssp n _
        · exact hssp n sig
      right
      simp only [entered, hold]
      decide
    · rw [worldOf_put]
      split
      · exact .inl (hssp n _)
      · exact .inl (hssp n _)
  · exact .inl (hssp k sig')

/-- Without memory for its frame an exception stops the core, and that is all. -/
theorem takeException_lost {s : State} {n : Nat} {sig : Bool} (h : LostStack (worldOf (coreAt s n) sig)) (t : Trap)
    (pc : Word) :
    ∃ f, Still s f ∧ takeException s n sig t pc = doubleFault f n := by
  unfold takeException
  dsimp only
  split
  · exact ⟨_, sealFault_still s n, rfl⟩
  split
  · next f hf => exact ⟨f, frameFault_still hf, rfl⟩
  · next hf =>
    rw [frameWords] at hf
    exact absurd (frame_unmapped h n _ s _ _) (by rw [hf]; decide)

theorem lostStack_absent {n : Nat} (hn : ¬n < 4) (s : State) (sig : Bool) : LostStack (worldOf (coreAt s n) sig) := by
  have hcore : coreAt s n = Core.reset := by
    unfold coreAt
    simp [hn]
  rw [hcore]
  exact .inl (coreRenewed_reset.ssp sig)

/-- A frame is written before a reset or by one that resets, never after one. -/
theorem takeException_good {s t : State} (h : Good s t) (n : Nat) (sig : Bool) (trap : Trap) (pc : Word) :
    Good s (takeException t n sig trap pc) := by
  by_cases hlost : LostStack (worldOf (coreAt t n) sig)
  · obtain ⟨f, hf, e⟩ := takeException_lost hlost trap pc
    rw [e]
    obtain hkeeps | hstranded := h.kept hf.1
    · exact .inl (hkeeps.trans (Keeps.of_routes (doubleFault_routes f n)))
    · exact .inr (doubleFault_stranded hstranded n)
  · have hn : n < 4 := Decidable.of_not_not fun hn => hlost (lostStack_absent hn t sig)
    have hkeeps : Keeps s t := h.resolve_right fun hstranded => hlost (hstranded.2 n sig)
    refine hkeeps.good ?_
    unfold takeException
    dsimp only
    split
    · exact Good.of_routes (by simp)
    split
    · next f hf => exact Good.of_routes ((doubleFault_routes f n).trans (frameFault_still hf).1.1)
    · refine (frameRun_renewed hn _ _ _ t).imp (fun e => e.trans (Keeps.of_routes (switchTo_routes _ _ _ _))) (fun e => ?_)
      exact switchTo_stranded e n sig trap.code

end Sys2Proof.LockedRoutes
end

section
/-! PROOF. Locked routes (R421), runs of accesses. In a copy a read of SYS_NONCE may reset the device and a later word may reach
ILK_CMD. A copy has at most 16 words, so ILK_CMD then lies close: either ILK_SEL was not written since the reset, and route 0,
which the reset table locks, is selected; or the word that reaches ILK_CMD comes from the zero words behind SYS_NONCE, and
commits nothing. -/

namespace Sys2Proof.LockedRoutes

open Sys2Proof.Machine

/-- The word in which an address lies. -/
def wordOf (a : Word) : Nat := a.toNat / 4 * 4

theorem translate_eq_word {n w : Nat} (hn : n < 4) (hw : 0x40000000 ≤ w) (a : Word) :
    Machine.translate n a.toNat / 4 * 4 = w ↔ wordOf a = w := translate_word hn hw

theorem wordOf_next (a : Word) : wordOf (a + 4) = wordOf a + 4 ∨ (wordOf (a + 4) = 0 ∧ 2 ^ 32 - 4 ≤ wordOf a) := by
  have ha := a.isLt
  have h4 : (a + 4).toNat = (a.toNat + 4) % 2 ^ 32 := by rw [BitVec.toNat_add]; rfl
  unfold wordOf
  rw [h4]
  omega

/-- The rest of a copy does not reach ILK_CMD. -/
def Misses (k d : Nat) : Prop := Reg.ILK_CMD < d ∨ d + 4 * k ≤ Reg.ILK_CMD

/-- The copy reads so far ahead that what it writes at ILK_CMD comes from the words behind SYS_NONCE. -/
def Far (d a : Nat) : Prop := Reg.SYS_NONCE + d ≤ a + Reg.ILK_SEL

/-- After a reset in the middle of a copy the words behind SYS_NONCE are zero, and so is ILK_SEL unless the copy wrote it since. -/
def Zeroed (d a : Nat) (l : List Word) : Prop := l.tail = List.replicate 6 0 ∧ (Far d a ∨ l.head? = some 0)

/-- The copy has `k` words left, from `a` to `d`: a commit in it finds route 0 selected or takes up a zero. -/
def Harmless (k d a : Nat) (s : State) : Prop :=
  Renewed s ∧ (Misses k d ∨ (Zeroed d a (commitView s.regs) ∧ Reg.SYS_NONCE < a ∧ a + 4 * k ≤ Reg.SYS_NONCE + 64))

/-- The copy has taken up the word `v`, and has yet to write it. -/
def Taken (k d a : Nat) (v : Word) (s : State) : Prop :=
  Renewed s ∧ (Misses k d ∨ (Zeroed d a (commitView s.regs) ∧ Reg.SYS_NONCE ≤ a ∧ a + 4 * k ≤ Reg.SYS_NONCE + 64 ∧
    (d = Reg.ILK_CMD → Far d a → v = 0)))

theorem getR_of_zeroed {s : State} (h : (commitView s.regs).tail = List.replicate 6 0) {a : Nat}
    (ha : 0x40000038 ≤ a ∧ a < 0x40000050) (h4 : a % 4 = 0) : getR s a = 0 := by
  have hzero : getR s a ∈ (commitView s.regs).tail := by
    unfold commitView
    rw [← List.map_tail]
    exact List.mem_map_of_mem (mem_behind_nonce ha h4)
  rw [h] at hzero
  exact List.eq_of_mem_replicate hzero

theorem lock_of_renewed {s : State} (h : Renewed s) (hsel : (commitView s.regs).head? = some 0) :
    (routeAt s (ilkSel s)).lock = true := by
  have hzero : getR s Reg.ILK_SEL = 0 := by
    simpa [commitView, commitRegs, getR] using hsel
  have hfirst : ilkSel s = 0 := by
    unfold ilkSel fieldR
    rw [hzero]
    rfl
  unfold routeAt
  rw [hfirst, h.1]
  rfl

/-- The read of a word in a copy. -/
theorem load_good {s0 s : State} {k d : Nat} {m : Master} {n : Nat} {a : Word} (hn : n < 4) (hk : k ≤ 16) (hk1 : 0 < k)
    (h : Keeps s0 s ∨ Harmless k d (wordOf a) s) :
    let r := fabricRead s m (Machine.translate n a.toNat) 4
    Keeps s0 r.state ∨ Taken k d (wordOf a) r.value r.state := by
  intro r
  by_cases hnonce : wordOf a = Reg.SYS_NONCE
  · obtain hkeeps | ⟨hrenewed, hmiss | ⟨-, hlt, -⟩⟩ := h
    · have hread : Follows (fun l => l.tail = List.replicate 6 0 ∧ l.head? = some 0) s r.state :=
        fabricRead_follows (by decide) s m _ 4
      obtain hroutes | ⟨hrenewed, htail, hhead⟩ := hread.1
      · exact .inl (hkeeps.trans (Keeps.of_routes hroutes))
      · refine .inr ⟨hrenewed, .inr ⟨⟨htail, .inr hhead⟩, hnonce.ge, by omega, fun hd hfar => ?_⟩⟩
        unfold Far at hfar
        rw [hd, hnonce] at hfar
        exact absurd hfar (by decide)
    · exact .inr ⟨((fabricRead_follows (P := AnyRegs) trivial s m _ 4).2 ⟨hrenewed, trivial⟩).1, .inl hmiss⟩
    · omega
  · have hread : Still s r.state := fabricRead_still (fun e => hnonce ((translate_eq_word hn (by decide) a).mp e)) s m 4
    obtain hkeeps | ⟨hrenewed, hmiss | ⟨hzeroed, hlt, hle⟩⟩ := h
    · exact .inl (hkeeps.trans (Keeps.of_routes hread.1.1))
    · exact .inr ⟨Kept.renewed hread.1 hrenewed, .inl hmiss⟩
    · refine .inr ⟨Kept.renewed hread.1 hrenewed, .inr ⟨hread.2 ▸ hzeroed, hlt.le, hle, fun hd hfar => ?_⟩⟩
      have hrange : 0x40000038 ≤ wordOf a ∧ wordOf a < 0x40000050 := by
        unfold Far at hfar
        rw [hd] at hfar
        unfold Reg.SYS_NONCE Reg.ILK_CMD Reg.ILK_SEL at *
        omega
      have hword : Machine.translate n a.toNat / 4 * 4 = wordOf a := (translate_eq_word hn (by omega) a).mpr rfl
      refine fabricRead_zero (hword.symm ▸ hrange) s m ?_
      rw [hword]
      exact getR_of_zeroed hzeroed.1 hrange (by unfold wordOf; omega)

/-- The write of a word in a copy. -/
theorem store_good {s0 s : State} {k : Nat} {m : Master} {n : Nat} {d a v : Word} (hn : n < 4) (hk : k < 16)
    (h : Keeps s0 s ∨ Taken (k + 1) (wordOf d) (wordOf a) v s) :
    let t := fabricWrite s m (Machine.translate n d.toNat) 4 v
    Keeps s0 t.state ∨ Harmless k (wordOf (d + 4)) (wordOf (a + 4)) t.state := by
  intro t
  have hd4 := wordOf_next d
  have ha4 := wordOf_next a
  by_cases hcmd : wordOf d = Reg.ILK_CMD
  · have hword := (translate_eq_word hn (by decide) d).mpr hcmd
    obtain hkeeps | ⟨hrenewed, hrest⟩ := h
    · exact .inl (hkeeps.trans (fabricWrite_cmd_keeps hword s m 4 v))
    · obtain hmiss | ⟨⟨-, hsel⟩, -, -, hv⟩ := hrest
      · unfold Misses at hmiss
        omega
      · have hkept : Kept s t.state := by
          refine fabricWrite_cmd_kept hword s m 4 v ?_
          exact hsel.imp (hv hcmd) (lock_of_renewed hrenewed)
        refine .inr ⟨Kept.renewed hkept hrenewed, .inl ?_⟩
        unfold Misses
        unfold Reg.ILK_CMD at *
        omega
  by_cases hmiss : Misses (k + 1) (wordOf d)
  · have hwrite : Follows AnyRegs s t.state :=
      fabricWrite_follows (fun e => hcmd ((translate_eq_word hn (by decide) d).mp e)) s m 4 v
    have hnext : Misses k (wordOf (d + 4)) := by
      unfold Misses at hmiss ⊢
      unfold Reg.ILK_CMD at *
      omega
    obtain hkeeps | ⟨hrenewed, -⟩ := h
    · exact hwrite.1.imp (fun e => hkeeps.trans (Keeps.of_routes e)) (fun e => ⟨e.1, .inl hnext⟩)
    · exact .inr ⟨(hwrite.2 ⟨hrenewed, trivial⟩).1, .inl hnext⟩
  · have hnear : Near (wordOf d) := by
      unfold Misses at hmiss
      unfold Near Reg.ILK_CMD at *
      omega
    have hword : Machine.translate n d.toNat / 4 * 4 = wordOf d := by
      refine (translate_eq_word hn ?_ d).mpr rfl
      unfold Near Reg.ILK_CMD at hnear
      omega
    obtain ⟨hkept, htail, hview⟩ : NearWrite (wordOf d) s t.state :=
      hword ▸ fabricWrite_nearWrite (hword.symm ▸ hnear) s m 4 v
    obtain hkeeps | ⟨hrenewed, hrest⟩ := h
    · exact .inl (hkeeps.trans (Keeps.of_routes hkept.1))
    · obtain ⟨⟨hzero, hsel⟩, hge, hle, -⟩ := hrest.resolve_left hmiss
      have hd : wordOf (d + 4) = wordOf d + 4 := by
        unfold Near Reg.ILK_CMD at hnear
        omega
      have ha : wordOf (a + 4) = wordOf a + 4 := by
        unfold Reg.SYS_NONCE at hle
        omega
      rw [hd, ha]
      refine .inr ⟨Kept.renewed hkept hrenewed, .inr ⟨⟨htail.trans hzero, ?_⟩, by omega, by omega⟩⟩
      by_cases hds : wordOf d = Reg.ILK_SEL
      · left
        unfold Far
        omega
      · rw [hview hds]
        refine hsel.imp_left (fun hfar => ?_)
        unfold Far at hfar ⊢
        omega

/-- A copy of at most 16 words keeps the locked routes, or ends after a reset. -/
theorem copyWords_good {m : Master} {n : Nat} (hn : n < 4) {k : Nat} (hk : k ≤ 16) (d a : Word) {s0 s : State}
    (h : Keeps s0 s ∨ Harmless k (wordOf d) (wordOf a) s) : Good s0 (copyWords m n k d a s).state := by
  have hgood : ∀ {k d a t}, Keeps s0 t ∨ Harmless k d a t → Good s0 t :=
    fun h => h.imp_right fun e => e.1.stranded
  induction k generalizing d a s with
  | zero => exact hgood h
  | succ k ih =>
    have hloaded := load_good (m := m) hn hk (Nat.succ_pos k) h
    have hstored := store_good (m := m) (v := (fabricRead s m (Machine.translate n a.toNat) 4).value) hn (by omega) hloaded
    unfold copyWords
    dsimp only
    split
    · exact (hgood h).kept (entWait_still s _).1
    split
    · exact hloaded.imp_right fun e => e.1.stranded
    split
    · exact hgood hstored
    · exact ih (by omega) _ _ hstored

/-- A zero commits nothing, wherever it is written. -/
theorem fabricWrite_zero_follows (a n : Nat) (s : State) (m : Master) : Follows AnyRegs s (fabricWrite s m a n 0).state := by
  by_cases h : a / 4 * 4 = Reg.ILK_CMD
  · exact Kept.follows (fabricWrite_cmd_kept h s m n 0 (.inl rfl))
  · exact fabricWrite_follows h s m n 0

theorem zeroWords_follows (m : Master) (n k : Nat) (d : Word) (s : State) : Follows AnyRegs s (zeroWords m n k d s).state := by
  induction k generalizing d s with
  | zero => exact Follows.refl s
  | succ k ih =>
    have hwrite := fabricWrite_zero_follows (Machine.translate n d.toNat) 4 s m
    unfold zeroWords
    dsimp only
    split
    · exact hwrite
    · exact hwrite.trans (ih _ _)

theorem diffWords_follows (m : Master) (n k : Nat) (a b acc : Word) (s : State) :
    Follows AnyRegs s (diffWords m n k a b acc s).state := by
  induction k generalizing a b acc s with
  | zero => exact Follows.refl s
  | succ k ih =>
    have hread := fabricRead_follows (P := AnyRegs) trivial s m (Machine.translate n a.toNat) 4
    have hboth := hread.trans (fabricRead_follows trivial _ m (Machine.translate n b.toNat) 4)
    unfold diffWords
    dsimp only
    split
    · exact Still.follows (entWait_still s _)
    split
    · exact Still.follows (entWait_still s _)
    split
    · exact hread
    split
    · exact hboth
    · exact hboth.trans (ih _ _ _ _)

theorem readWords_follows (m : Master) (n k a : Nat) (acc : List Word) (s : State) :
    Follows AnyRegs s (readWords s m n k a acc).1 := by
  induction k generalizing a acc s with
  | zero => exact Follows.refl s
  | succ k ih =>
    have hread := fabricRead_follows (P := AnyRegs) trivial s m (Machine.translate n a) 4
    unfold readWords
    dsimp only
    split
    · exact hread
    · exact hread.trans (ih _ _ _)

end Sys2Proof.LockedRoutes
end

section
/-! PROOF. Locked routes (R421), instructions: the effect of an instruction, how it settles, and the instructions that access the
fabric. -/

namespace Sys2Proof.LockedRoutes

open Sys2Proof.Machine

/-- An effect that leaves the locked routes, or stands after a reset. -/
def GoodEffect (s : State) : Effect → Prop
  | .complete t => Safe s t
  | .jump t _ => Safe s t
  | .placed t => Safe s t
  | .stay t => Safe s t
  | .again t => Safe s t
  | .fault t _ => Good s t
  | .call t _ => Keeps s t

theorem faultAt_good {n : Nat} {s t : State} (h : Good s t) (trap : Trap) : Good s (faultAt t n trap) :=
  takeException_good h n _ trap _

theorem settleEffect_safe {n : Nat} {s : State} (size : Nat) (shadow : Bool) {e : Effect} (h : GoodEffect s e) :
    Safe s (settleEffect n size shadow e) := by
  cases e with
  | complete t => exact Safe.routes h (modWorld_routes t n _)
  | jump t target => exact Safe.routes h (modWorld_routes t n _)
  | placed t => exact h
  | stay t => exact Safe.routes h (modWorld_routes t n _)
  | again t => exact Safe.routes h (modWorld_routes t n _)
  | fault t trap => exact (faultAt_good h trap).safe
  | call t trap =>
    have hmoved : Good s (modWorld t n (advancePc size)) := .inl (h.trans (Keeps.of_routes (modWorld_routes t n _)))
    exact (takeException_good hmoved n _ trap _).safe

theorem Keeps.safe {s t u : State} (h : Keeps s t) (k : Safe t u) : Safe s u := k.imp_left h.trans

theorem registerSealFault_good {n : Nat} {s t : State} (h : Good s t) : Good s (registerSealFault t n) :=
  faultAt_good (h.kept (sealFault_still t n).1) _

theorem issue_safe (i : Issue) (size : Nat) (decode : State → Nat → Option Nat) (reads : Reads) {eff : State → Nat → Effect}
    (heff : ∀ t n, n < 4 → GoodEffect t (eff t n)) (s : State) : Safe s (issue i size decode reads eff s) := by
  have hn : i.core.toNat < 4 := i.core.isLt
  unfold issue
  extract_lets n f s'
  have hfetched : s'.routes = s.routes := by simp [s', f]
  have hgood : Good s s' := Good.of_routes hfetched
  split
  · exact Safe.of_routes rfl
  split
  · exact (faultAt_good hgood _).safe
  split
  · exact (faultAt_good hgood _).safe
  split
  · exact (registerSealFault_good hgood).safe
  split
  · exact Safe.of_routes (by simp [hfetched])
  split
  · exact (registerSealFault_good hgood).safe
  · have hready : Keeps s (unshadow s' n) := Keeps.of_routes (by simp [hfetched])
    exact Keeps.safe hready (settleEffect_safe size _ (heff _ n hn))

theorem endStep_good {s t : State} (left : Word) (h : Safe s t) : GoodEffect s (endStep t left) := by
  unfold endStep
  split <;> exact h

/-- What a command answers is safe, or main power is lost. -/
def SafeOut (s : State) (o : Out) : Prop := ∀ t, o = .next t → Safe s t ∨ mainPower t = false

theorem SafeOut.next {s t : State} (h : Safe s t) : SafeOut s (.next t) := by
  intro u k
  injection k with e
  rw [← e]
  exact .inl h

theorem SafeOut.done {s t : State} (h : Safe s t) : SafeOut s (done t) := by
  unfold Machine.done
  exact .next (h.follows (P := AnyRegs) (after_follows trivial t))

/-- An instruction whose effect is good, to the end of its step. -/
theorem issued (i : Issue) (size : Nat) (decode : State → Nat → Option Nat) (reads : Reads) {eff : State → Nat → Effect}
    (heff : ∀ t n, n < 4 → GoodEffect t (eff t n)) (s : State) : SafeOut s (Machine.done (issue i size decode reads eff s)) :=
  .done (issue_safe i size decode reads heff s)

theorem wordOp_safe (i : Issue) (size : Nat) (rd : BitVec 5) (reads : List (BitVec 5)) (v : World → Word) (s : State) :
    SafeOut s (wordOp i size rd reads v s) :=
  issued i size _ _ (fun t n _ => by exact Safe.of_routes (modWorld_routes t n _)) s

theorem carryOp_safe (i : Issue) (rd ra rb : BitVec 5) (f : Word → Word → Bool → Word) (c : Word → Word → Bool → Bool)
    (s : State) : SafeOut s (carryOp i rd ra rb f c s) :=
  issued i 4 _ _ (fun t n _ => by exact Safe.of_routes (modWorld_routes t n _)) s

theorem compareOp_safe (i : Issue) (pd : BitVec 3) (pair : Bool) (reads : List (BitVec 5)) (cond : World → Bool) (s : State) :
    SafeOut s (compareOp i pd pair reads cond s) :=
  issued i 4 _ _ (fun t n _ => by exact Safe.of_routes (modWorld_routes t n _)) s

theorem predOp_safe (i : Issue) (pd : BitVec 3) (reads : Bool) (v : World → Bool) (s : State) :
    SafeOut s (predOp i pd reads v s) :=
  issued i 4 _ _ (fun t n _ => by exact Safe.of_routes (modWorld_routes t n _)) s

theorem loadOp_safe (i : Issue) (n : Nat) (rd ra : BitVec 5) (imm : BitVec 12) (ext : Word → Word) (s : State) :
    SafeOut s (loadOp i n rd ra imm ext s) := by
  refine issued i 4 _ _ (fun t c hc => ?_) s
  have hread := fabricRead_follows (P := AnyRegs) trivial t (masterOf t c)
      (Machine.translate c (address (curWorld t c) ra imm).toNat) n
  dsimp only
  split
  · exact Good.of_routes rfl
  split
  · exact Safe.of_routes (entWait_still t _).1.1
  split
  · exact hread.good
  · exact hread.safe.routes (modWorld_routes _ c _)

theorem fabricWrite_good {a : Nat} (s : State) (m : Master) (n : Nat) (v : Word) : Good s (fabricWrite s m a n v).state := by
  by_cases h : a / 4 * 4 = Reg.ILK_CMD
  · exact .inl (fabricWrite_cmd_keeps h s m n v)
  · exact (fabricWrite_follows h s m n v).good

theorem storeOp_safe (i : Issue) (n : Nat) (rs ra : BitVec 5) (imm : BitVec 12) (s : State) :
    SafeOut s (storeOp i n rs ra imm s) := by
  refine issued i 4 _ _ (fun t c hc => ?_) s
  dsimp only
  split
  · exact Good.of_routes rfl
  split
  · exact fabricWrite_good t _ n _
  · exact (fabricWrite_good t _ n _).safe

theorem stepBytes_le (count : Word) : (stepBytes count).toNat / 4 ≤ 16 := by
  unfold stepBytes
  split
  · omega
  · decide

theorem execBcopy_safe (i : Issue) (wd ws wn : BitVec 5) (s : State) : SafeOut s (execBcopy i wd ws wn s) := by
  refine issued i 4 _ _ (fun t c hc => ?_) s
  dsimp only
  split
  · exact Good.of_routes rfl
  · have hcopy := copyWords_good (m := masterOf t c) hc
      (k := (stepBytes (readW (curWorld t c) wn)).toNat / 4 - (coreAt t c).stepDone)
      ((Nat.sub_le _ _).trans (stepBytes_le _))
      (readW (curWorld t c) wd + BitVec.ofNat 32 (4 * (coreAt t c).stepDone))
      (readW (curWorld t c) ws + BitVec.ofNat 32 (4 * (coreAt t c).stepDone)) (s0 := t) (s := t) (.inl (Keeps.of_routes rfl))
    split
    · exact hcopy
    split
    · exact hcopy.safe.routes (holdStep_routes _ c _ _)
    · exact endStep_good _ (hcopy.safe.routes (by simp))

theorem execBzero_safe (i : Issue) (wd wn : BitVec 5) (s : State) : SafeOut s (execBzero i wd wn s) := by
  refine issued i 4 _ _ (fun t c _ => ?_) s
  dsimp only
  split
  · exact Good.of_routes rfl
  · have hzero := zeroWords_follows (masterOf t c) c ((stepBytes (readW (curWorld t c) wn)).toNat / 4)
      (readW (curWorld t c) wd) t
    split
    · exact hzero.good
    · exact endStep_good _ (hzero.safe.routes (modWorld_routes _ c _))

theorem execCteq_safe (i : Issue) (pd : BitVec 3) (wa wb wn : BitVec 5) (s : State) : SafeOut s (execCteq i pd wa wb wn s) := by
  refine issued i 4 _ _ (fun t c _ => ?_) s
  dsimp only
  split
  · exact Good.of_routes rfl
  · generalize (if (coreAt t c).stepDone = 0 then readW (curWorld t c) (wn + 1) else (coreAt t c).stepAcc) = acc
    have hdiff := diffWords_follows (masterOf t c) c
      ((stepBytes (readW (curWorld t c) wn)).toNat / 4 - (coreAt t c).stepDone)
      (readW (curWorld t c) wa + BitVec.ofNat 32 (4 * (coreAt t c).stepDone))
      (readW (curWorld t c) wb + BitVec.ofNat 32 (4 * (coreAt t c).stepDone)) acc t
    split
    · exact hdiff.good
    split
    · exact hdiff.safe.routes (holdStep_routes _ c _ _)
    · refine endStep_good _ (hdiff.safe.routes ?_)
      split <;> simp

theorem returnFrom_good (s : State) (n : Nat) : GoodEffect s (returnFrom s n) := by
  have hread := readWords_follows (masterOf s n) n 8 (curWorld s n).ssp.toNat [] s
  unfold returnFrom
  dsimp only
  split
  · exact hread.good
  split
  · exact Good.of_routes rfl
  split
  · exact Good.of_routes rfl
  · exact hread.safe.routes (by simp)

theorem takeInterrupt_good (s : State) (n : Nat) : Good s (takeInterrupt s n) := by
  unfold takeInterrupt
  split
  · exact Good.of_routes rfl
  split
  · exact Good.of_routes rfl
  · exact takeException_good (Good.of_routes (leaveWait_routes s n)) n _ _ _

theorem endCoreRead_good {s t : State} (h : Good s t) (n : Nat) (addr : Word) : Good s (endCoreRead t n addr) := by
  have hended : Kept t { t with ent := { t.ent with waiting := t.ent.waiting.erase (.core n addr) } } := ⟨rfl, rfl, rfl⟩
  unfold endCoreRead
  dsimp only
  split
  · exact faultAt_good (h.kept hended) _
  · exact h.kept hended

end Sys2Proof.LockedRoutes
end

section
/-! PROOF. Locked routes (R421), operations outside the fabric that can change the mode, reset the device or end main power. -/

namespace Sys2Proof.LockedRoutes

open Sys2Proof.Machine

theorem powerFloor_follows (s : State) (mw : Nat) : Follows AnyRegs s (powerFloor s mw) := by
  have hshed : Follows AnyRegs s (changeMode s .shed 6) := changeMode_follows s .shed 6
  unfold powerFloor
  split
  · exact Follows.of_if hshed
  · exact Follows.of_if hshed
  · exact Follows.of_if hshed
  · exact Follows.of_if hshed
  · exact Follows.of_if hshed
  · exact Follows.refl s

theorem leaveShed_follows (s : State) : Follows AnyRegs s (leaveShed s) := by
  unfold leaveShed
  dsimp only
  split
  · exact Follows.refl s
  split
  · exact Kept.follows (by simp)
  · exact changeMode_follows s _ 1

theorem retryEntry_follows (s : State) : Follows AnyRegs s (retryEntry s) := by
  unfold retryEntry
  exact Follows.of_if (leaveShed_follows s)

theorem noteRoom_follows (s : State) : Follows AnyRegs s (noteRoom s) := by
  unfold noteRoom
  exact Follows.of_if ((Kept.follows (by simp)).trans (changeMode_follows (raise s 322) .maintenance 10))

theorem noteLog_safe (s : State) : Safe s (noteLog s) :=
  (Safe.of_routes (by simp)).follows (noteRoom_follows (noteFull (startProgram s)))

theorem maeJobEnd_safe (s : State) (seen : Access) : Safe s (maeJobEnd s seen) := by
  unfold maeJobEnd
  split
  · exact Safe.of_routes rfl
  dsimp only
  split
  · exact (Safe.of_routes (by simp)).follows (maeEnd_follows (sealFault s _) 0x06 0)
  split
  · exact (Safe.of_routes (by simp)).follows (maeEnd_follows (noteSeen s seen 20) 0x06 0)
  split
  · exact (maeEnd_follows s 0x04 0).safe
  · exact (Safe.of_routes (maeRun_routes s _)).follows (maeEnd_follows _ _ _)

theorem takeDesc_safe (s : State) (n a : Nat) (pusher : Master) : Safe s (takeDesc s n a pusher) := by
  have hreach : Follows AnyRegs s (reach s 27 .read a 64).state := Kept.follows (reach_kept _ _ _ _ _)
  have hbuilt := (hreach.trans (builtTable_follows _)).safe
  unfold takeDesc
  dsimp only
  split
  · exact hreach.safe.routes (by simp)
  split
  · exact hreach.safe.routes (by simp)
  · refine hbuilt.routes ?_
    split
    · simp
    split <;> simp

theorem laneStart_safe (s : State) (n : Nat) : Safe s (laneStart s n) := by
  unfold laneStart
  split
  · exact Safe.of_routes rfl
  split
  · exact Safe.of_routes (by simp)
  split
  · exact (runRequest_follows s).safe
  split
  · exact Safe.of_routes rfl
  · refine Keeps.safe ?_ (takeDesc_safe _ n _ _)
    exact Keeps.of_routes rfl

theorem drawBootKeys_good (s : State) : Good s (drawBootKeys s) := by
  unfold drawBootKeys
  split
  · refine Keeps.good ?_ (retryEntry_follows _).good
    exact Keeps.of_routes (by simp)
  · exact Good.of_routes rfl

theorem blockPassed_good (s : State) (block : Bytes) : Good s (blockPassed s block) := by
  unfold blockPassed
  split
  · exact Good.of_routes (by simp)
  · exact Keeps.good (Keeps.of_routes (by simp)) (drawBootKeys_good _)
  · exact Good.of_routes rfl

theorem testBlock_good (s : State) (block : Bytes) : Good s (testBlock s block) := by
  unfold testBlock
  extract_lets l t bad recent ent counted failed tested
  have htested : tested.routes = s.routes := by simp [tested, failed, counted]
  split
  · exact Good.of_routes (by simp [htested])
  · exact Keeps.good (Keeps.of_routes htested) (blockPassed_good tested block)

theorem startExport_safe (s : State) (l : Nat) (f : Flight) : Safe s (startExport s l f) := by
  unfold startExport
  split
  · exact Safe.of_routes (by simp)
  dsimp only
  split
  · exact Safe.of_routes (by simp)
  have hunlocked : Safe s (unlockCard (readyCard s) []).1 :=
    (Safe.of_routes (by simp)).follows (unlockCard_follows (readyCard s) [])
  split
  · exact hunlocked.routes (by simp)
  split
  · exact hunlocked.routes (by simp)
  · exact hunlocked

theorem adoptPower_safe (s : State) (mw : Nat) : Safe s (adoptPower s mw) := by
  unfold adoptPower
  extract_lets floored power contracted t shown power' tiered linked left
  have hshown : Safe s shown := by
    refine (powerFloor_follows s mw).safe.routes ?_
    simp only [shown]
    split <;> simp [contracted, power, floored]
  have htiered : tiered.routes = shown.routes := by
    simp only [tiered]
    split
    · simp
    split <;> rfl
  have hlinked : linked.routes = tiered.routes := by
    simp only [linked]
    split <;> simp
  have hleft : Follows AnyRegs linked left := by
    simp only [left]
    exact Follows.of_if (leaveShed_follows linked)
  have hall : Safe s left := (hshown.routes (hlinked.trans htiered)).follows hleft
  split
  · exact .inr (deviceReset_fresh (P := AnyRegs) trivial left 0 false).1.1
  · exact hall

theorem requestPdo_safe (s : State) (a : Ask) : Safe s (requestPdo s a) := by
  unfold requestPdo
  dsimp only
  refine (adoptPower_safe s (a.mv * a.ma / 1000)).routes ?_
  simp
  split <;> simp

theorem negotiatePd_safe (s : State) (l : List Pdo) (eprSource eprCable : Bool) :
    Safe s (negotiatePd s l eprSource eprCable) := by
  unfold negotiatePd
  dsimp only
  split
  · exact requestPdo_safe { s with power := { s.power with pdos := l, eprSource := eprSource, eprCable := eprCable } } _
  · exact Safe.of_routes rfl

theorem powerOn_safe (s : State) (cap : BitVec 16) (cell : BitVec 12) : Safe s (powerOn s cap cell) := by
  unfold powerOn
  extract_lets c old lost zeroised vigil reset seeded measured told
  have hreset : reset.routes = Route.resetTable := (deviceReset_fresh (P := AnyRegs) trivial _ _ _).1.1
  have htold : told.routes = reset.routes := by simp [told, measured, seeded]
  refine .inr (Eq.trans ?_ (htold.trans hreset))
  split <;> rfl

theorem startMonitor_safe (s : State) : Safe s (startMonitor s) := by
  unfold startMonitor
  extract_lets r flash started
  have hstarted : started.routes = s.routes := by simp [started, flash]
  exact (Safe.of_routes (by simp [hstarted])).follows (leaveShed_follows _)

theorem bootChain_safe (s : State) : Safe s (bootChain s) := by
  unfold bootChain
  split
  · exact startMonitor_safe s
  extract_lets r first c n verified fell
  have hfell : fell.routes = s.routes := by
    simp only [fell]
    split <;> simp [verified]
  split
  · exact Safe.of_routes (by simp [hfell])
  · exact Keeps.safe (Keeps.of_routes hfell) (startMonitor_safe fell)

theorem releaseCores_safe (s : State) (tracksPass : BitVec 8) (lanesPass : BitVec 4) (fail : BitVec 128)
    (blocks : List (Nat × Nat)) : Safe s (releaseCores s tracksPass lanesPass fail blocks) := by
  unfold releaseCores
  extract_lets detected tracks lanes
  have hlanes : lanes.routes = s.routes := by
    simp only [lanes, tracks, detected]
    rw [foldl_routes (fun t n => by simp), foldl_routes (fun t n => by simp)]
    simp
  exact Keeps.safe (Keeps.of_routes (by simp [hlanes])) (bootChain_safe _)

theorem fenceStep_safe (s : State) : Safe s (fenceStep s) := by
  have htrip : ∀ t l, Safe t (after (tripAll t l)) := fun t l =>
    Follows.safe (P := AnyRegs) ((tripAll_follows trivial t l).trans (after_follows trivial (tripAll t l)))
  unfold fenceStep
  dsimp only
  split
  · exact Safe.of_routes rfl
  · refine Keeps.safe ?_ (htrip _ _)
    exact Keeps.of_routes rfl

theorem idleTick_safe (s : State) : Safe s (idleTick s) := by
  unfold idleTick
  split
  · exact Safe.of_routes rfl
  split
  · extract_lets vigil ticked
    split
    · exact fenceStep_safe ticked
    · exact Safe.of_routes rfl
  · extract_lets t vigil ticked moved
    have hmoved : moved.routes = s.routes := by
      simp only [moved]
      split <;> simp [ticked]
    split
    · exact Keeps.safe (Keeps.of_routes hmoved) (fenceStep_safe moved)
    · exact Safe.of_routes hmoved

/-! ### Main power lost -/

theorem foldl_setR_eq {α : Type} (a : α → Nat) (v : α → Word) (l : List α) (t : State) :
    ∃ m, l.foldl (fun t e => setR t (a e) (v e)) t = { t with regs := m } := by
  induction l generalizing t with
  | nil => exact ⟨t.regs, rfl⟩
  | cons e r ih =>
    obtain ⟨m, hm⟩ := ih (setR t (a e) (v e))
    exact ⟨m, hm⟩

/-- A device without main power and with nothing left to do. -/
def Unpowered (s : State) : Prop :=
  mainPower s = false ∧ sealing s = false ∧ s.tripsDue = [] ∧ s.tracks = Vector.replicate 8 Track.reset ∧
    s.hlk.usbWait = [] ∧ s.log.raised = false

theorem Unpowered.quiet {s : State} (h : Unpowered s) : Quiet s := by
  obtain ⟨-, hsealing, htrips, htracks, husb, hraised⟩ := h
  have htrack : ∀ n, trackAt s n = Track.reset := by
    intro n
    unfold trackAt
    rw [htracks]
    by_cases hn : n < 8 <;> simp [hn]
  have hdense : ∀ n, denseAt s n = false := by
    intro n
    unfold denseAt
    rw [htrack]
    rfl
  refine ⟨htrips, ?_, fun hs => ?_, ?_, hraised⟩
  · unfold fenceDue
    simp [hdense]
  · rw [hsealing] at hs
    cases hs
  · unfold usbDue
    rw [husb]

theorem powerLost_unpowered (s : State) : Unpowered (powerLost s) := by
  unfold powerLost
  extract_lets finished log blank flash vigil power t
  obtain ⟨m, hm⟩ := foldl_setR_eq (fun e => e.1) (fun e => getR finished e.1 &&& e.2) vigilRegs t
  rw [hm]
  exact ⟨rfl, rfl, rfl, rfl, rfl, rfl⟩

theorem loseVigil_unpowered {s : State} (h : Unpowered s) : Unpowered (loseVigil s) := by
  obtain ⟨-, -, htrips, htracks, husb, hraised⟩ := h
  exact ⟨rfl, rfl, htrips, htracks, husb, hraised⟩

theorem darken_unpowered (s : State) : Unpowered (darken s) := by
  unfold darken
  extract_lets dark
  have hdark : Unpowered dark := powerLost_unpowered _
  split
  · exact hdark
  · exact loseVigil_unpowered hdark

theorem SafeOut.unpowered {s t : State} (h : Unpowered t) : SafeOut s (.next t) := by
  intro u k
  injection k with e
  rw [← e]
  exact .inr h.1

theorem SafeOut.done_unpowered {s t : State} (h : Unpowered t) : SafeOut s (Machine.done t) := by
  rw [done_quiet t h.quiet]
  exact .unpowered h

end Sys2Proof.LockedRoutes
end

section
/-! PROOF. Locked routes (R421), what the rows of commands share: guards, waits, reads of the host and of the TAP, and words
written in pairs. -/

namespace Sys2Proof.LockedRoutes

open Sys2Proof.Machine

theorem writeOut_safe (s : State) (m : Master) (a : Nat) (whole : Bool) {f : State → State} (h : ∀ t, (f t).routes = t.routes) :
    SafeOut s (writeOut s m a whole f) := by
  unfold writeOut
  split
  · exact .next (Safe.of_routes rfl)
  split
  · exact .done (Safe.of_routes (by simp))
  split
  · exact .next (Safe.of_routes (by simp))
  split
  · exact .done (Safe.of_routes (by simp))
  · exact .next (Safe.of_routes ((h _).trans (by simp)))

/-- A part that is done under a condition. -/
theorem Safe.of_if {s t : State} {c : Prop} [Decidable c] (h : Safe s t) : Safe s (if c then t else s) := by
  split
  · exact h
  · exact Safe.of_routes rfl

/-- A command that its condition lets go on. -/
theorem SafeOut.done_if {s t : State} {c : Prop} [Decidable c] (h : Safe s t) : SafeOut s (Machine.done (if c then t else s)) :=
  .done (Safe.of_if h)

/-- A command that its condition stops. -/
theorem SafeOut.done_unless {s t : State} {c : Prop} [Decidable c] (h : Safe s t) :
    SafeOut s (Machine.done (if c then s else t)) := by
  refine .done ?_
  split
  · exact Safe.of_routes rfl
  · exact h

theorem SafeOut.next_if {s t : State} {c : Prop} [Decidable c] (h : t.routes = s.routes) :
    SafeOut s (.next (if c then t else s)) :=
  .next (Safe.of_if (Safe.of_routes h))

/-- A register write that the bus guards. -/
theorem SafeOut.guarded {s : State} {f : State → State} (m : Master) (a : Nat) (h : Follows AnyRegs s (f s)) :
    SafeOut s (Machine.done (guardedWrite s m a f)) := .done (guardedWrite_follows m a h).safe

theorem heard_safe (s : State) {f : State → State} (h : ∀ t, (f t).routes = t.routes) : SafeOut s (heard s f) :=
  .next_if (h s)

theorem withHandle_safe (s : State) (rn : BitVec 16) {f : State → State} (h : ∀ t, (f t).routes = t.routes) :
    SafeOut s (withHandle s rn f) := by
  refine heard_safe s (fun t => ?_)
  split
  · exact h t
  · rfl

theorem btrCommand_safe {s : State} {f : State → BtrArgs → State} (m : Master) (modeOk : State → Bool)
    (h : ∀ t a, Kept t (f t a)) :
    SafeOut s (Machine.done (btrCommand s m modeOk f)) := .done (btrCommand_kept_follows m modeOk h).safe

theorem flcCommand_safe {s : State} {f : State → State} (m : Master) (h : ∀ t, Kept t (f t)) :
    SafeOut s (Machine.done (flcCommand s m f)) := .done (flcCommand_follows m (fun t => Kept.follows (h t))).safe

theorem cciCommand_safe {s : State} {f : State → State} (m : Master) (modeOk : Bool) (h : ∀ t, Follows AnyRegs t (f t)) :
    SafeOut s (Machine.done (cciCommand s m modeOk f)) := .done (cciCommand_follows m modeOk h).safe

theorem lkoCommand_safe {s : State} {f : State → State} (m : Master) (h : ∀ t, Kept t (f t)) :
    SafeOut s (Machine.done (lkoCommand s m f)) := .done (lkoCommand_follows m (fun t => Kept.follows (h t))).safe

theorem jumpTo_good (s : State) (target : Word) : GoodEffect s (jumpTo s target) := by
  unfold jumpTo
  split
  · exact Good.of_routes rfl
  · exact Safe.of_routes rfl

theorem callTo_good (s : State) (n size : Nat) (target : Word) : GoodEffect s (callTo s n size target) := by
  unfold callTo
  dsimp only
  split
  · exact Good.of_routes rfl
  split
  · exact Good.of_routes rfl
  · exact Safe.of_routes (by simp)

theorem readX_good (s : State) (n : Nat) (rd : BitVec 5) : GoodEffect s (readX s n rd) := by
  unfold readX
  split
  · exact Good.of_routes (by simp)
  · exact Safe.of_routes (by simp)

theorem readSpec_good (k : Nat) (rd : BitVec 5) (s : State) (n : Nat) : GoodEffect s (readSpec k rd s n) := by
  unfold readSpec
  split
  · exact Safe.of_routes (modWorld_routes s n _)
  split
  · exact readX_good s n rd
  · exact Safe.of_routes (by simp)

theorem writeSpec_good (k : Nat) (ra : BitVec 5) (s : State) (n : Nat) : GoodEffect s (writeSpec k ra s n) := by
  have hmod : ∀ f, Safe s (modWorld s n f) := fun f => Safe.of_routes (modWorld_routes s n f)
  have hset : ∀ c, Safe s (setCore s n c) := fun c => Safe.of_routes (setCore_routes s n c)
  unfold writeSpec
  dsimp only
  split
  · exact hmod _
  · exact hmod _
  · exact hmod _
  · exact hmod _
  · exact hset _
  · exact hset _
  · exact hmod _
  · exact hmod _
  · exact hmod _
  · exact Safe.of_routes rfl

theorem foldl_good {α : Type} {g : State → α → State} {s : State} (h : ∀ t e, Good s t → Good s (g t e)) (l : List α)
    (t : State)
    (ht : Good s t) : Good s (l.foldl g t) := by
  induction l generalizing t with
  | nil => exact ht
  | cons e r ih => exact ih (g t e) (h t e ht)

/-- The waiting reads of the cores end one by one; after a reset among them no frame finds memory. -/
theorem endCoreReads_good {s t : State} (h : Good s t) : Good s (endCoreReads t) := by
  unfold endCoreReads
  split
  · refine foldl_good (fun u r hu => ?_) _ t h
    split
    · exact endCoreRead_good hu _ _
    · exact hu
  · exact h

theorem coreTimeout_good {s t : State} (h : Good s t) (m : Master) (addr : Word) : Good s (coreTimeout t m addr) := by
  unfold coreTimeout
  split
  · split
    · exact faultAt_good h _
    · exact h
  · exact h

theorem entTimeout_good (s : State) (m : Master) (addr : Word) : Good s (entTimeout s m addr) := by
  have ht : Kept s (raise (entError s (entReason s)) 194) := by simp
  unfold entTimeout
  dsimp only
  split
  · exact Good.of_routes (by simp)
  split
  · split
    · exact endCoreRead_good ((Good.of_routes rfl).kept ht) _ _
    · exact Good.of_routes rfl
  · exact Good.of_routes rfl

theorem readRow_safe (s : State) (m : Master) (a : Nat) : Safe s (readRow s m a) := by
  unfold readRow
  split
  · exact Safe.of_routes (by simp)
  · exact (fabricRead_follows (P := AnyRegs) trivial s m a 4).safe.routes (showLoad_routes m _)

theorem readWide_safe (s : State) (m : Master) (a : Nat) : Safe s (readWide s m a) := by
  have hlo := fabricRead_follows (P := AnyRegs) trivial s m a 4
  unfold readWide
  dsimp only
  split
  · exact Safe.of_routes (by simp)
  · exact (hlo.trans (fabricRead_follows trivial _ m (a + 4) 4)).safe.routes (by simp)

theorem readAt_safe (s : State) (wide : Bool) (target : ReadAt) : Safe s (readAt s wide target) := by
  unfold readAt
  split
  · split
    · exact readWide_safe s _ _
    · exact readRow_safe s _ _
  · exact Safe.of_routes (by simp)
  · exact Safe.of_routes (by simp)

theorem near_of_adjacent {a : Nat} (h : a / 4 * 4 = Reg.ILK_CMD) : (a + 4) / 4 * 4 = Reg.ILK_CMD ∨ Near ((a + 4) / 4 * 4) := by
  unfold Near
  unfold Reg.ILK_CMD at *
  omega

/-- Two adjacent words, written one after the other: where one of them is ILK_CMD, the other lies near. -/
theorem writePair_safe (s : State) (m : Master) (a : Nat) (v u : Word) :
    Safe s (fabricWrite (fabricWrite s m a 4 v).state m (a + 4) 4 u).state := by
  by_cases hlow : a / 4 * 4 = Reg.ILK_CMD
  · exact .inl ((fabricWrite_cmd_keeps hlow s m 4 v).trans (fabricWrite_near_keeps (near_of_adjacent hlow) _ m 4 u))
  by_cases hhigh : (a + 4) / 4 * 4 = Reg.ILK_CMD
  · have hnear : Near (a / 4 * 4) := by
      unfold Near
      unfold Reg.ILK_CMD at *
      omega
    exact .inl ((fabricWrite_near_keeps (.inr hnear) s m 4 v).trans (fabricWrite_cmd_keeps hhigh _ m 4 u))
  · exact ((fabricWrite_follows hlow s m 4 v).trans (fabricWrite_follows hhigh _ m 4 u)).safe

theorem writeWords_safe (s : State) (m : Master) (a : Nat) (v : Word) (upper : Option Word) :
    Safe s (writeWords s m a v upper) := by
  unfold writeWords
  split
  · exact (fabricWrite_good s m 4 v).safe
  split
  · refine Keeps.safe ?_ (writePair_safe _ m a v _)
    exact Keeps.of_routes (by split <;> simp)
  · exact Safe.of_routes (by simp)

theorem closeDebug_routes (s : State) : (closeDebug s).routes = s.routes := rfl

theorem tapWrite_routes (s : State) (a : Nat) (v : Word) : (tapWrite s a v).routes = s.routes := by
  unfold tapWrite
  dsimp only
  split
  · split <;> simp
  split
  · split <;> simp [closeDebug_routes]
  split <;> simp

end Sys2Proof.LockedRoutes
end

section
/-! PROOF. Locked routes (R421), command by command: a locked route stays, the table takes its reset values, or main power is
lost. -/

namespace Sys2Proof.LockedRoutes

open Sys2Proof.Machine

/-! ### Lineside sources -/

theorem execLinesideTrip_safe (src : BitVec 7) (det : BitVec 2) (s : State) : SafeOut s (execLinesideTrip src det s) :=
  .done (trip_follows s _ _).safe

theorem execDetectorSplit_safe (src : BitVec 7) (s : State) : SafeOut s (execDetectorSplit src s) :=
  .done_if (trip_follows s _ _).safe

theorem execSourceDeassert_safe (src : BitVec 7) (s : State) : SafeOut s (execSourceDeassert src s) :=
  .next (Safe.of_routes rfl)

theorem execStickyClear_safe (m : Master) (n : BitVec 2) (ones : Word) (s : State) :
    SafeOut s (execStickyClear m n ones s) :=
  .done (Safe.of_routes (by simp))

theorem execClassWrite_safe (m : Master) (n : BitVec 2) (hi : Bool) (v : Word) (s : State) :
    SafeOut s (execClassWrite m n hi v s) :=
  .done (Safe.of_routes (by simp))

theorem execLsmTestStart_safe (m : Master) (src : BitVec 7) (det : Bool) (s : State) :
    SafeOut s (execLsmTestStart m src det s) :=
  .done (Safe.of_routes (by simp))

theorem execLsmTestDone_safe (tripped : Bool) (s : State) : SafeOut s (execLsmTestDone tripped s) := by
  unfold execLsmTestDone
  split
  · exact .next (Safe.of_routes rfl)
  · refine .done ?_
    split
    · exact Safe.of_routes (by simp)
    · exact (Safe.of_routes (by simp)).follows (trip_follows (setFieldR _ Reg.LSM_TEST 9 3 _) 107 3)

theorem execReleaseArm_safe (m : Master) (s : State) : SafeOut s (execReleaseArm m s) := .done (Safe.of_routes (by simp))

theorem execReleaseCommit_safe (m : Master) (s : State) : SafeOut s (execReleaseCommit m s) :=
  .guarded m _ (commitRelease_follows s m)

theorem execReleaseAbort_safe (m : Master) (s : State) : SafeOut s (execReleaseAbort m s) := .done (Safe.of_routes (by simp))

theorem execReleaseWindowExpiry_safe (s : State) : SafeOut s (execReleaseWindowExpiry s) := .next_if (by simp)

/-! ### Line rows -/

theorem execDoorbell_safe (off : BitVec 12) (whole : Bool) (v : DWord) (s : State) :
    SafeOut s (execDoorbell off whole v s) :=
  .next (Safe.of_routes (by simp))

theorem execAdmission_safe (line : BitVec 19) (entry : Bytes) (s : State) : SafeOut s (execAdmission line entry s) :=
  .done (Safe.of_routes (by simp))

theorem execEntryReadRetry_safe (line : BitVec 19) (entry : Bytes) (s : State) :
    SafeOut s (execEntryReadRetry line entry s) :=
  .done_unless (Safe.of_routes (by simp))

theorem execFillComplete_safe (line : BitVec 19) (b : Bytes) (s : State) : SafeOut s (execFillComplete line b s) :=
  .done (Safe.of_routes (by simp))

theorem execSpillDeparted_safe (line : BitVec 19) (s : State) : SafeOut s (execSpillDeparted line s) :=
  .done (Safe.of_routes (by simp))

theorem execIndexMirrorWrite_safe (line : BitVec 19) (s : State) : SafeOut s (execIndexMirrorWrite line s) := by
  unfold execIndexMirrorWrite
  split
  · exact .next (Safe.of_routes rfl)
  split
  · exact .done (Safe.of_routes (by simp))
  · exact .next (Safe.of_routes (by simp))

theorem execLineOpen_safe (pos : Nat) (head : Bytes) (s : State) : SafeOut s (execLineOpen pos head s) := by
  unfold execLineOpen
  split
  · exact .done_if (Safe.of_routes (by simp))
  · exact .next (Safe.of_routes rfl)

theorem execLinePause_safe (pos : Nat) (s : State) : SafeOut s (execLinePause pos s) := by
  unfold execLinePause
  split
  · exact .done_if (Safe.of_routes (by simp))
  · exact .next (Safe.of_routes rfl)

theorem execLinePauseComplete_safe (target : BitVec 19) (s : State) : SafeOut s (execLinePauseComplete target s) := by
  unfold execLinePauseComplete
  dsimp only
  split
  · exact .next (Safe.of_routes rfl)
  · exact .done_if (Safe.of_routes (by simp))

theorem execLineClose_safe (pos : Nat) (s : State) : SafeOut s (execLineClose pos s) := by
  unfold execLineClose
  split
  · exact .done_if (Safe.of_routes (by simp))
  · exact .next (Safe.of_routes rfl)

/-! ### The host link -/

theorem execLinkUp_safe (cfg : BitVec 2) (s : State) : SafeOut s (execLinkUp cfg s) := .done_unless (Safe.of_routes (by simp))

theorem execLinkLoss_safe (s : State) : SafeOut s (execLinkLoss s) := .next (Safe.of_routes (by simp))

theorem execLinkRetrain_safe (cfg : BitVec 2) (s : State) : SafeOut s (execLinkRetrain cfg s) :=
  .done_if (Safe.of_routes (by simp))

theorem execGraceExpiry_safe (s : State) : SafeOut s (execGraceExpiry s) := .done_if (Safe.of_routes (by simp))

theorem execHotReset_safe (s : State) : SafeOut s (execHotReset s) := by
  unfold execHotReset
  refine .done (Safe.of_routes ?_)
  (repeat' split) <;> simp

theorem execFlr_safe (s : State) : SafeOut s (execFlr s) := .done_if (requestedReset_follows s).safe

theorem execDeviceReset_safe (m : Master) (s : State) : SafeOut s (execDeviceReset m s) :=
  .guarded m _ (requestedReset_follows s)

theorem execSetupBaseWrite_safe (m : Master) (r : SetupReg) (h : Half) (v : DWord) (s : State) :
    SafeOut s (execSetupBaseWrite m r h v s) :=
  writeOut_safe s m _ _ (fun t => by simp)

theorem execControlLineOpen_safe (m : Master) (v : Word) (s : State) : SafeOut s (execControlLineOpen m v s) :=
  writeOut_safe s m _ _ (fun t => by simp)

theorem execControlLineClose_safe (m : Master) (v : Word) (s : State) : SafeOut s (execControlLineClose m v s) :=
  writeOut_safe s m _ _ (fun t => by simp)

theorem execWindowCWrite_safe (_off : BitVec 16) (_v : DWord) (s : State) : SafeOut s (execWindowCWrite _off _v s) :=
  .next_if (by simp)

theorem execMsixUnmask_safe (vector : BitVec 11) (s : State) : SafeOut s (execMsixUnmask vector s) :=
  .done (Safe.of_routes (by simp))

theorem execStatusRequest_safe (s : State) : SafeOut s (execStatusRequest s) := .next_if rfl

/-! ### Tracks -/

theorem execKeyWaitTimeout_safe (line : BitVec 19) (s : State) : SafeOut s (execKeyWaitTimeout line s) := by
  unfold execKeyWaitTimeout
  split
  · exact .done (Safe.of_routes (by simp))
  · exact .next (Safe.of_routes rfl)

theorem execLineKeyDerived_safe (line : BitVec 19) (s : State) : SafeOut s (execLineKeyDerived line s) := by
  unfold execLineKeyDerived
  split
  · exact .done (Safe.of_routes (by simp))
  · exact .next (Safe.of_routes rfl)

theorem execConsistFetched_safe (line : BitVec 19) (records : Bytes) (s : State) :
    SafeOut s (execConsistFetched line records s) := by
  unfold execConsistFetched
  split
  · refine .next (Safe.of_routes ?_)
    split <;> simp
  · exact .next (Safe.of_routes rfl)

theorem execConsistAbsorbed_safe (line : BitVec 19) (expected : Bytes) (s : State) :
    SafeOut s (execConsistAbsorbed line expected s) := by
  unfold execConsistAbsorbed
  split
  · split
    · exact .done (Safe.of_routes (by simp))
    · exact .next (Safe.of_routes rfl)
  · exact .next (Safe.of_routes rfl)

theorem execTagConsist_safe (line : BitVec 19) (records : Bytes) (s : State) : SafeOut s (execTagConsist line records s) :=
  .done (Safe.of_routes (by simp))

theorem execTagRecords_safe (line : BitVec 19) (records : Bytes) (s : State) : SafeOut s (execTagRecords line records s) :=
  .done (Safe.of_routes (by simp))

theorem execVerifyConsist_safe (line : BitVec 19) (records : Bytes) (s : State) :
    SafeOut s (execVerifyConsist line records s) :=
  .done (Safe.of_routes (by simp))

theorem execVerifyRecords_safe (line : BitVec 19) (records expected : Bytes) (s : State) :
    SafeOut s (execVerifyRecords line records expected s) :=
  .done (Safe.of_routes (by simp))

theorem execMark_safe (line : BitVec 19) (s : State) : SafeOut s (execMark line s) := .done (Safe.of_routes (by simp))

theorem execFence_safe (line : BitVec 19) (s : State) : SafeOut s (execFence line s) := by
  unfold execFence
  split
  · refine .done (Safe.of_routes ?_)
    split <;> simp
  · exact .next (Safe.of_routes rfl)

theorem execTrackSelfTest_safe (t : BitVec 3) (pass : Bool) (s : State) : SafeOut s (execTrackSelfTest t pass s) :=
  .done (Safe.of_routes (by simp))

theorem execTrackFence_safe (m : Master) (bits : BitVec 8) (s : State) : SafeOut s (execTrackFence m bits s) :=
  .guarded m _ (Kept.follows (foldl_kept fenceByFirmware_kept _ s))

theorem execCreditAccount_safe (t : BitVec 3) (micros : Nat) (s : State) : SafeOut s (execCreditAccount t micros s) :=
  .next_if (by simp)

/-! ### Epochs and manifests -/

theorem execVigilCountRewrite_safe (s : State) : SafeOut s (execVigilCountRewrite s) := .next_if (by simp)

theorem execTtcAdvance_safe (m : Master) (h : Half) (v : DWord) (s : State) : SafeOut s (execTtcAdvance m h v s) :=
  writeOut_safe s m _ _ (fun t => by simp)

theorem execTcxoFailure_safe (s : State) : SafeOut s (execTcxoFailure s) := by
  have htrip := trip_follows (orR s Reg.TTC_STATUS 1) 70 3
  unfold execTcxoFailure
  refine .done ?_
  split
  · exact Safe.of_routes rfl
  dsimp only
  have hkept : Follows AnyRegs s (orR s Reg.TTC_STATUS 1) := Kept.follows (orR_kept _ _ _)
  split
  · exact (hkept.trans (htrip.trans (changeMode_follows _ .maintenance 9))).safe
  · exact (hkept.trans htrip).safe

theorem execEpochClose_safe (s : State) : SafeOut s (execEpochClose s) := .done_if (Safe.of_routes (by simp))

theorem execRootFrozen_safe (s : State) : SafeOut s (execRootFrozen s) := .done_if (Safe.of_routes (by simp))

theorem execManifestSigned_safe (s : State) : SafeOut s (execManifestSigned s) := .done_if (Safe.of_routes (by simp))

theorem execManifestStored_safe (s : State) : SafeOut s (execManifestStored s) := by
  have hverified : Keeps s (verifyN (writesToManifest s) s) := Keeps.of_routes (by simp)
  exact .done_if (hverified.safe (noteLog_safe _))

theorem execTreeRebuildDone_safe (s : State) : SafeOut s (execTreeRebuildDone s) := .done_if (Safe.of_routes (by simp))

theorem execStationStale_safe (slot : BitVec 12) (s : State) : SafeOut s (execStationStale slot s) := by
  unfold execStationStale
  split
  · exact .next_if (by simp)
  · exact .next (Safe.of_routes rfl)

theorem execStagingWriteVerified_safe (ok : Bool) (s : State) : SafeOut s (execStagingWriteVerified ok s) := by
  unfold execStagingWriteVerified
  refine .done ?_
  split
  · exact Safe.of_routes rfl
  split
  · exact Safe.of_routes rfl
  split
  · have hverified : Keeps s (verifyStaging s) := Keeps.of_routes (by simp)
    exact hverified.safe (noteLog_safe _)
  · exact Safe.of_if (Safe.of_routes (by simp))

theorem execWordlineStripeProgrammed_safe (ok : Bool) (s : State) : SafeOut s (execWordlineStripeProgrammed ok s) := by
  refine .done_if (Keeps.safe (Keeps.of_routes ?_) (noteLog_safe _))
  split <;> simp

/-! ### Branch tree commands -/

theorem execBtrDerive_safe (m : Master) (s : State) : SafeOut s (execBtrDerive m s) := btrCommand_safe m _ deriveCommand_kept

theorem execInstallEncaps_safe (m : Master) (peer : Bytes) (s : State) : SafeOut s (execInstallEncaps m peer s) :=
  btrCommand_safe m _ (encapsCommand_kept peer)

theorem execInstallDecaps_safe (m : Master) (ct : Bytes) (s : State) : SafeOut s (execInstallDecaps m ct s) :=
  btrCommand_safe m _ (decapsCommand_kept ct)

theorem execInvalidate_safe (m : Master) (s : State) : SafeOut s (execInvalidate m s) :=
  btrCommand_safe m _ invalidateCommand_kept

theorem execPurge_safe (m : Master) (s : State) : SafeOut s (execPurge m s) := btrCommand_safe m _ purgeCommand_kept

theorem execRotate_safe (m : Master) (s : State) : SafeOut s (execRotate m s) := btrCommand_safe m _ rotateCommand_kept

theorem execTrunkCreate_safe (m : Master) (s : State) : SafeOut s (execTrunkCreate m s) := btrCommand_safe m _ trunkCreate_kept

theorem execTrunkZeroise_safe (m : Master) (s : State) : SafeOut s (execTrunkZeroise m s) :=
  .done (btrCommand_follows m _ (fun t _ => (loseTrunk_follows t).still (btrResult_still _ _ _))).safe

theorem execBackup_safe (m : Master) (s : State) : SafeOut s (execBackup m s) := btrCommand_safe m _ backupCommand_kept

theorem execRescue_safe (m : Master) (s : State) : SafeOut s (execRescue m s) := btrCommand_safe m _ rescueCommand_kept

theorem execRelease_safe (m : Master) (s : State) : SafeOut s (execRelease m s) := btrCommand_safe m _ releaseCommand_kept

theorem execBtrImport_safe (m : Master) (s : State) : SafeOut s (execBtrImport m s) :=
  .done (btrCommand_follows m _ importCommand_follows).safe

theorem execBtrCommandDone_safe (s : State) : SafeOut s (execBtrCommandDone s) := by
  unfold execBtrCommandDone
  split
  · exact .next (Safe.of_routes rfl)
  · exact .done_if (Safe.of_routes (by simp))

theorem execTableRebuildDone_safe (s : State) : SafeOut s (execTableRebuildDone s) := .done_if (builtTable_follows s).safe

theorem execRetire_safe (m : Master) (slot : BitVec 12) (s : State) : SafeOut s (execRetire m slot s) := by
  unfold execRetire
  split
  · exact .done_if (Safe.of_routes (by simp))
  · exact .next (Safe.of_routes rfl)

/-! ### Services of waybills -/

theorem execSign_safe (line : BitVec 19) (pos : Nat) (msg : Bytes) (s : State) : SafeOut s (execSign line pos msg s) :=
  .done (Safe.of_routes (by simp))

theorem execVerifySig_safe (line : BitVec 19) (pos : Nat) (msg keysig : Bytes) (s : State) :
    SafeOut s (execVerifySig line pos msg keysig s) :=
  .done (Safe.of_routes (by simp))

theorem execKemEncaps_safe (line : BitVec 19) (pos : Nat) (peer : Bytes) (s : State) :
    SafeOut s (execKemEncaps line pos peer s) :=
  .done (Safe.of_routes (by simp))

theorem execKemDecaps_safe (line : BitVec 19) (pos : Nat) (ct : Bytes) (s : State) :
    SafeOut s (execKemDecaps line pos ct s) :=
  .done (Safe.of_routes (by simp))

theorem execDerive_safe (line : BitVec 19) (pos : Nat) (s : State) : SafeOut s (execDerive line pos s) :=
  .done (Safe.of_routes (by simp))

theorem execProve_safe (line : BitVec 19) (pos : Nat) (s : State) : SafeOut s (execProve line pos s) :=
  .done (Safe.of_routes (by simp))

theorem execManifestRead_safe (line : BitVec 19) (pos : Nat) (s : State) : SafeOut s (execManifestRead line pos s) :=
  .done (Safe.of_routes (by simp))

theorem execLogExport_safe (line : BitVec 19) (pos : Reading Nat) (s : State) : SafeOut s (execLogExport line pos s) := by
  unfold execLogExport
  split
  · exact .done_if (Safe.of_routes (by simp))
  · exact .next (Safe.of_routes rfl)

theorem execRelay_safe (line : BitVec 19) (pos : Nat) (block : Bytes) (s : State) :
    SafeOut s (execRelay line pos block s) := by
  unfold execRelay
  split
  · exact .done_if (Safe.of_routes (by simp))
  · exact .next (Safe.of_routes rfl)

theorem execAttest_safe (line : BitVec 19) (pos : Nat) (s : State) : SafeOut s (execAttest line pos s) :=
  .done (Safe.of_routes (by simp))

theorem execTimeHint_safe (line : BitVec 19) (pos : Nat) (s : State) : SafeOut s (execTimeHint line pos s) := by
  unfold execTimeHint
  split
  · exact .done (Safe.of_routes (by simp))
  · exact .next (Safe.of_routes rfl)

/-! ### The KDE -/

theorem execKdeLockRead_safe (m : Master) (s : State) : SafeOut s (execKdeLockRead m s) :=
  .done (Safe.of_routes (guardedRead_still s m _ _ (fun t => takeLock_still t m _ (by decide))).1.1)

theorem execKdeLockRelease_safe (m : Master) (s : State) : SafeOut s (execKdeLockRelease m s) :=
  .done (Safe.of_routes (by simp))

theorem execKdeStart_safe (m : Compared Master) (s : State) : SafeOut s (execKdeStart m s) :=
  .guarded m.value _ (kdeOwned_follows m.value (kdeStart_follows s m.value m.split))

theorem execKdeFeed_safe (m : Master) (s : State) : SafeOut s (execKdeFeed m s) := .done (Safe.of_routes (by simp))

theorem execKdeSegmentDone_safe (outcome : Compared Access) (s : State) : SafeOut s (execKdeSegmentDone outcome s) :=
  .done_if (Safe.of_routes (by simp))

theorem execKdeSave_safe (m : Master) (s : State) : SafeOut s (execKdeSave m s) := .done (Safe.of_routes (by simp))

theorem execKdeRestore_safe (m : Master) (s : State) : SafeOut s (execKdeRestore m s) :=
  .guarded m _ (kdeOwned_follows m (kdeRestore_follows s m))

theorem execKdeAbort_safe (m : Master) (s : State) : SafeOut s (execKdeAbort m s) := .done (Safe.of_routes (by simp))

theorem execKdeClear_safe (m : Master) (s : State) : SafeOut s (execKdeClear m s) := .done (Safe.of_routes (by simp))

/-! ### The MAE -/

theorem execMaeLockRead_safe (m : Master) (s : State) : SafeOut s (execMaeLockRead m s) := .done (Safe.of_routes (by simp))

theorem execMaeLockRelease_safe (m : Master) (s : State) : SafeOut s (execMaeLockRelease m s) :=
  .done (Safe.of_routes (by simp))

theorem execMaeStart_safe (m : Master) (s : State) : SafeOut s (execMaeStart m s) :=
  .guarded m _ (maeOwned_follows m (maeStart_follows s))

theorem execMaeAbort_safe (m : Master) (s : State) : SafeOut s (execMaeAbort m s) := .done (Safe.of_routes (by simp))

theorem execMaeClear_safe (m : Master) (s : State) : SafeOut s (execMaeClear m s) := .done (Safe.of_routes (by simp))

theorem execMaeWipeDone_safe (s : State) : SafeOut s (execMaeWipeDone s) :=
  .done_if ((Safe.of_routes (by simp)).follows (maeFree_follows (setFieldR s Reg.MAE_STATUS 0 3 0)))

theorem execMaeJobDone_safe (outcome : Access) (s : State) : SafeOut s (execMaeJobDone outcome s) :=
  .done_if (maeJobEnd_safe s outcome)

theorem execMaeSlockRead_safe (m : Master) (s : State) : SafeOut s (execMaeSlockRead m s) :=
  .done (Safe.of_routes (guardedRead_still s m _ _ (fun t => takeLock_still t m _ (by decide))).1.1)

theorem execMaeSlockRelease_safe (m : Master) (s : State) : SafeOut s (execMaeSlockRelease m s) :=
  .done (Safe.of_routes (by simp))

theorem execMaeShortStart_safe (m : Master) (v : Word) (s : State) : SafeOut s (execMaeShortStart m v s) :=
  .done (Safe.of_routes (by simp))

theorem execMaeYieldPoint_safe (s : State) : SafeOut s (execMaeYieldPoint s) :=
  .done_if (((Safe.of_routes (maePark_routes s)).follows (maeFree_follows (maePark s))).routes (maeResume_routes _))

theorem execMaeBtrRequest_safe (s : State) : SafeOut s (execMaeBtrRequest s) := .done_if (runRequest_follows s).safe

/-! ### Lanes -/

theorem execLsuQpush_safe (m : Master) (addr : Word) (s : State) : SafeOut s (execLsuQpush m addr s) :=
  .done (Safe.of_routes (by simp))

theorem execLsuFlush_safe (m : Master) (s : State) : SafeOut s (execLsuFlush m s) := .done (Safe.of_routes (by simp))

theorem execLaneJobStart_safe (lane : BitVec 2) (s : State) : SafeOut s (execLaneJobStart lane s) :=
  .done_if (laneStart_safe s _)

theorem execLaneJobDone_safe (lane : BitVec 2) (outcome : Access) (s : State) :
    SafeOut s (execLaneJobDone lane outcome s) :=
  .done_if ((Safe.of_routes (laneEnd_routes s _ _)).follows (runRequest_follows _))

theorem execLsuFence_safe (m : Master) (bits : BitVec 4) (s : State) : SafeOut s (execLsuFence m bits s) := by
  refine .guarded m _ (Kept.follows (foldl_kept (fun t n => ?_) _ s))
  split <;> simp

theorem execLaneSelfTest_safe (lane : BitVec 2) (pass : Bool) (s : State) : SafeOut s (execLaneSelfTest lane pass s) :=
  .done_unless (Safe.of_routes (by simp))

/-! ### The entropy source -/

theorem execEntBiasDone_safe (s : State) : SafeOut s (execEntBiasDone s) := .next_if rfl

theorem execEntDataRead_safe (m : Master) (s : State) : SafeOut s (execEntDataRead m s) := .done (Safe.of_routes (by simp))

/-! ### Flash commands -/

theorem execFlcRead_safe (m : Master) (s : State) : SafeOut s (execFlcRead m s) := flcCommand_safe m (fun t => by simp)

theorem execFlcProgram_safe (m : Master) (s : State) : SafeOut s (execFlcProgram m s) :=
  flcCommand_safe m (fun t => flcRefused_kept t true .program)

theorem execFlcErase_safe (m : Master) (s : State) : SafeOut s (execFlcErase m s) :=
  flcCommand_safe m (fun t => flcRefused_kept t false .erase)

theorem execFlcClaim_safe (m : Master) (s : State) : SafeOut s (execFlcClaim m s) := by
  refine flcCommand_safe m (fun t => ?_)
  split <;> simp

theorem execFlcReturn_safe (m : Master) (s : State) : SafeOut s (execFlcReturn m s) := by
  refine flcCommand_safe m (fun t => ?_)
  dsimp only
  split <;> simp

theorem execFlashOpDone_safe (ok : Bool) (s : State) : SafeOut s (execFlashOpDone ok s) := .done_if (Safe.of_routes (by simp))

theorem execCwMapWrite_safe (m : Master) (v : Word) (s : State) : SafeOut s (execCwMapWrite m v s) :=
  .done (Safe.of_routes (by simp))

theorem execNandDieFailed_safe (die : BitVec 2) (s : State) : SafeOut s (execNandDieFailed die s) := by
  have hfailed : Keeps s (failDie s die.toNat) := Keeps.of_routes (by simp)
  exact .done_if (hfailed.safe (noteLog_safe _))

/-! ### Mailboxes and tablets -/

theorem execMbxClaimRead_safe (m : Master) (n : BitVec 4) (s : State) : SafeOut s (execMbxClaimRead m n s) :=
  .done (Safe.of_routes (by simp))

theorem execMbxClaimFree_safe (m : Master) (n : BitVec 4) (s : State) : SafeOut s (execMbxClaimFree m n s) :=
  .done (Safe.of_routes (by simp))

theorem execMbxPost_safe (m : Master) (n : BitVec 4) (v : Word) (s : State) : SafeOut s (execMbxPost m n v s) :=
  .done (Safe.of_routes (by simp))

theorem execMbxTake_safe (m : Master) (n : BitVec 4) (s : State) : SafeOut s (execMbxTake m n s) :=
  .done (Safe.of_routes (by simp))

theorem execMbxCfgWrite_safe (m : Master) (n : BitVec 4) (v : Word) (s : State) : SafeOut s (execMbxCfgWrite m n v s) :=
  .done (Safe.of_routes (by simp))

theorem execTabletRead_safe (m : Master) (t : BitVec 6) (s : State) : SafeOut s (execTabletRead m t s) :=
  .done (Safe.of_routes (by simp))

theorem execTabletRelease_safe (m : Master) (t : BitVec 6) (s : State) : SafeOut s (execTabletRelease m t s) :=
  .done (Safe.of_routes (by simp))

/-! ### Routes and debug sessions -/

theorem execIlkCommit_safe (m : Master) (s : State) : SafeOut s (execIlkCommit m s) := by
  refine .done ?_
  obtain ⟨-, e⟩ | ⟨-, -, e⟩ | ⟨-, -, -, e⟩ | ⟨-, -, -, -, e⟩ | ⟨-, e⟩ := guardedWrite_cases s m Reg.ILK_CMD commit
  · exact Safe.of_routes (by rw [e])
  · exact Safe.of_routes (by simp [e])
  · exact Safe.of_routes (by simp [e])
  · exact Safe.of_routes (by simp [e])
  · exact .inl (e ▸ commit_keeps s)

theorem execIlkLoad_safe (m : Master) (s : State) : SafeOut s (execIlkLoad m s) := .done (Safe.of_routes (by simp))

theorem execShadowCompare_safe (s : State) : SafeOut s (execShadowCompare s) := .done_if (Safe.of_routes (by simp))

theorem execDbgNonceRead_safe (m : Master) (s : State) : SafeOut s (execDbgNonceRead m s) := .done (Safe.of_routes (by simp))

theorem execDbgCheck_safe (s : State) : SafeOut s (execDbgCheck s) := .done_if (Safe.of_routes (by simp))

theorem execDbgArm_safe (m : Master) (arm : BitVec 8) (s : State) : SafeOut s (execDbgArm m arm s) := by
  unfold execDbgArm
  refine .done (Safe.of_routes ?_)
  split <;> simp

theorem execDbgSessionClose_safe (m : Master) (s : State) : SafeOut s (execDbgSessionClose m s) := by
  have hclose : ∀ t, (if sessionLevel t = 0 then t else closeDebug t).routes = t.routes := by
    intro t
    split <;> rfl
  refine .done ?_
  unfold dbgWrite
  split
  · split
    · exact Safe.of_routes (hclose s)
    · exact Safe.of_routes rfl
  · obtain ⟨-, e⟩ | ⟨-, -, e⟩ | ⟨-, -, -, e⟩ | ⟨-, -, -, -, e⟩ | ⟨-, e⟩ := guardedWrite_cases s m Reg.DBG_SESSION
      (fun s => if sessionLevel s = 0 then s else closeDebug s)
    · exact Safe.of_routes (by rw [e])
    · exact Safe.of_routes (by simp [e])
    · exact Safe.of_routes (by simp [e])
    · exact Safe.of_routes (by simp [e])
    · exact Safe.of_routes (e ▸ hclose s)

theorem execDebugSessionExpiry_safe (s : State) : SafeOut s (execDebugSessionExpiry s) :=
  .done_if (Safe.of_routes (closeDebug_routes s))

/-! ### Cards -/

theorem execCardUnitWritten_safe (ok : Reading Bool) (s : State) : SafeOut s (execCardUnitWritten ok s) := by
  unfold execCardUnitWritten
  split
  · refine .done ?_
    split
    · exact Safe.of_routes rfl
    split <;> exact Safe.of_routes (by simp)
  · exact .next (Safe.of_routes rfl)

theorem execCardBusyTimeout_safe (s : State) : SafeOut s (execCardBusyTimeout s) := .done_if (Safe.of_routes (by simp))

theorem execCardExport_safe (line : BitVec 19) (pos : Nat) (s : State) : SafeOut s (execCardExport line pos s) := by
  unfold execCardExport
  split
  · exact .done_if (startExport_safe s _ _)
  · exact .next (Safe.of_routes rfl)

theorem execCardInserted_safe (card : CardImage) (s : State) : SafeOut s (execCardInserted card s) := by
  unfold execCardInserted
  refine .done (Safe.of_routes ?_)
  split <;> simp

theorem execCardRemoved_safe (s : State) : SafeOut s (execCardRemoved s) := by
  unfold execCardRemoved
  refine .done (Safe.of_routes ?_)
  (repeat' split) <;> simp

theorem execCardFormatExport_safe (m : Master) (s : State) : SafeOut s (execCardFormatExport m s) :=
  cciCommand_safe m _ (fun _ => withCard_follows (fun u _ => formatExport_follows m u))

theorem execCardFormatBackup_safe (m : Master) (s : State) : SafeOut s (execCardFormatBackup m s) :=
  cciCommand_safe m _ (fun _ => withCard_follows (fun u c => formatBackup_follows m u c))

theorem execCardFormatCredential_safe (m : Master) (s : State) : SafeOut s (execCardFormatCredential m s) :=
  cciCommand_safe m _ (fun t => withCard_follows (fun u _ => Kept.follows (by simp)))

theorem execForceErase_safe (m : Master) (s : State) : SafeOut s (execForceErase m s) :=
  cciCommand_safe m _ (fun t => withCard_follows (fun u _ => Kept.follows (by simp)))

theorem execForceEraseDone_safe (s : State) : SafeOut s (execForceEraseDone s) := by
  unfold execForceEraseDone
  refine .next ?_
  split
  · exact Safe.of_if (Safe.of_routes (by simp))
  · exact Safe.of_routes rfl

theorem execEject_safe (m : Master) (s : State) : SafeOut s (execEject m s) :=
  cciCommand_safe m _ (fun t => Kept.follows (by simp))

/-! ### Lookout -/

theorem execSelftest_safe (m : Master) (answers : Air TagObs) (s : State) : SafeOut s (execSelftest m answers s) :=
  lkoCommand_safe m (fun t => by simp)

theorem execSelftestTimer_safe (answers : Air TagObs) (s : State) : SafeOut s (execSelftestTimer answers s) :=
  .done_if (Safe.of_routes (by simp))

theorem execInventorySlot_safe (gamma : Byte) (o : SlotObs) (s : State) : SafeOut s (execInventorySlot gamma o s) := by
  unfold execInventorySlot
  split
  · exact .done_if (Safe.of_routes (by simp))
  · exact .next (Safe.of_routes rfl)

theorem execLookoutInventory_safe (line : BitVec 19) (pos : Nat) (s : State) :
    SafeOut s (execLookoutInventory line pos s) := by
  unfold execLookoutInventory
  split
  · exact .done_if (Safe.of_routes (by simp))
  · exact .next (Safe.of_routes rfl)

theorem execPing_safe (gamma : Byte) (s : State) : SafeOut s (execPing gamma s) := .done_if (Safe.of_routes (by simp))

theorem execStop_safe (m : Master) (s : State) : SafeOut s (execStop m s) := lkoCommand_safe m (fun t => by simp)

theorem execRebase_safe (m : Master) (s : State) : SafeOut s (execRebase m s) := lkoCommand_safe m (fun t => by simp)

theorem execBadgeEnrol_safe (m : Master) (tags : Air EnrolObs) (s : State) : SafeOut s (execBadgeEnrol m tags s) :=
  lkoCommand_safe m (fun t => by simp)

theorem execBadgeRound_safe (badges : Air BadgeObs) (s : State) : SafeOut s (execBadgeRound badges s) := by
  unfold execBadgeRound
  refine .done (Safe.of_routes ?_)
  (repeat' split) <;> simp

/-! ### The tail lamp -/

theorem execTailLampUpdate_safe (m : Master) (s : State) : SafeOut s (execTailLampUpdate m s) :=
  .done (Safe.of_routes (by simp))

theorem execInternalUpdateDone_safe (verifyOk : Bool) (s : State) : SafeOut s (execInternalUpdateDone verifyOk s) :=
  .next_if (by simp)

theorem execReaderFieldArrival_safe (s : State) : SafeOut s (execReaderFieldArrival s) := by
  unfold execReaderFieldArrival
  refine .next (Safe.of_routes ?_)
  split <;> simp

theorem execFieldCollapse_safe (s : State) : SafeOut s (execFieldCollapse s) := .next (Safe.of_routes rfl)

theorem execSelect_safe (target action : BitVec 3) (bank : BitVec 2) (pointer : Nat) (mask : SelectMask) (s : State) :
    SafeOut s (execSelect target action bank pointer mask s) := by
  refine heard_safe s (fun t => ?_)
  dsimp only
  split <;> simp

theorem execQuery_safe (sel session : BitVec 2) (target : Bool) (q : BitVec 4) (s : State) :
    SafeOut s (execQuery sel session target q s) := by
  refine heard_safe s (fun t => ?_)
  dsimp only
  split <;> simp

theorem execQueryRep_safe (session : BitVec 2) (s : State) : SafeOut s (execQueryRep session s) := by
  refine heard_safe s (fun t => ?_)
  (repeat' split) <;> simp

theorem execQueryAdjust_safe (session : BitVec 2) (updn : BitVec 3) (s : State) :
    SafeOut s (execQueryAdjust session updn s) := by
  refine heard_safe s (fun t => ?_)
  split
  · rfl
  split
  · rfl
  (repeat' split) <;> simp

theorem execAck_safe (rn : BitVec 16) (s : State) : SafeOut s (execAck rn s) := by
  refine heard_safe s (fun t => ?_)
  split
  · rfl
  split
  · split <;> simp
  · simp

theorem execNak_safe (s : State) : SafeOut s (execNak s) := heard_safe s toArbitrate_routes

theorem execReqRn_safe (rn : BitVec 16) (s : State) : SafeOut s (execReqRn rn s) := by
  refine heard_safe s (fun t => ?_)
  dsimp only
  split
  · split <;> simp
  · split <;> simp

theorem execTagRead_safe (rn : BitVec 16) (bank : BitVec 2) (word count : Nat) (s : State) :
    SafeOut s (execTagRead rn bank word count s) := by
  refine withHandle_safe s rn (fun t => ?_)
  split <;> simp

theorem execTagWrite_safe (rn : BitVec 16) (bank : BitVec 2) (word : Nat) (v : BitVec 16) (energy verifyOk : Bool) (s : State) :
    SafeOut s (execTagWrite rn bank word v energy verifyOk s) :=
  withHandle_safe s rn (fun t => by simp)

theorem execBlockWrite_safe (rn : BitVec 16) (bank : BitVec 2) (word : Nat) (v : List (BitVec 16)) (energy verifyOk : Bool)
    (s : State) :
    SafeOut s (execBlockWrite rn bank word v energy verifyOk s) := by
  refine withHandle_safe s rn (fun t => ?_)
  split <;> simp

theorem execTagAccess_safe (rn _half : BitVec 16) (s : State) : SafeOut s (execTagAccess rn _half s) :=
  withHandle_safe s rn (fun t => by simp)

theorem execTagLock_safe (rn : BitVec 16) (s : State) : SafeOut s (execTagLock rn s) := withHandle_safe s rn (fun t => by simp)

theorem execTagKill_safe (rn : BitVec 16) (s : State) : SafeOut s (execTagKill rn s) := withHandle_safe s rn (fun t => by simp)

theorem execUnsupportedCommand_safe (rn : BitVec 16) (s : State) : SafeOut s (execUnsupportedCommand rn s) :=
  withHandle_safe s rn (fun t => by simp)

/-! ### Power -/

theorem execSourceCapabilities_safe (pdos : List Pdo) (eprSource eprCable : Bool) (s : State) :
    SafeOut s (execSourceCapabilities pdos eprSource eprCable s) :=
  .done_if (negotiatePd_safe s pdos eprSource eprCable)

theorem execPsRdy_safe (s : State) : SafeOut s (execPsRdy s) := by
  unfold execPsRdy
  refine .done (Safe.of_routes ?_)
  (repeat' split) <;> simp

theorem execNoCapabilities_safe (adv : BitVec 2) (s : State) : SafeOut s (execNoCapabilities adv s) := by
  unfold execNoCapabilities
  refine .done_if ((adoptPower_safe s (5 * advertised adv)).routes ?_)
  simp

theorem execSoftReset_safe (s : State) : SafeOut s (execSoftReset s) := by
  unfold execSoftReset
  refine .done_if (Keeps.safe (Keeps.of_routes (orR_kept s Reg.PWR_ERR 4).1) ?_)
  dsimp only
  split
  · exact Safe.of_routes rfl
  · exact negotiatePd_safe _ _ _ _

theorem execPrSwap_safe (s : State) : SafeOut s (execPrSwap s) := .next_if (by simp)

theorem execDrSwap_safe (s : State) : SafeOut s (execDrSwap s) := .next_if (by simp)

theorem execVconnSwap_safe (s : State) : SafeOut s (execVconnSwap s) := .next_if (by simp)

theorem execFrSwap_safe (s : State) : SafeOut s (execFrSwap s) := .next_if (by simp)

theorem execDisturbanceBegin_safe (mv : BitVec 16) (s : State) : SafeOut s (execDisturbanceBegin mv s) :=
  .done_if (Safe.of_routes (by simp))

theorem execDisturbanceEnd_safe (length : BitVec 16) (s : State) : SafeOut s (execDisturbanceEnd length s) :=
  .done_if (Safe.of_routes (by simp))

theorem execBankCharged_safe (mv : BitVec 16) (s : State) : SafeOut s (execBankCharged mv s) := by
  unfold execBankCharged
  refine .done_if (Keeps.safe ?_ (retryEntry_follows _).safe)
  exact Keeps.of_routes rfl

theorem execLastGaspSeal_safe (s : State) : SafeOut s (execLastGaspSeal s) := .done_if (Safe.of_routes (by simp))

theorem execBankLow_safe (s : State) : SafeOut s (execBankLow s) := .done_if (Safe.of_routes (by simp))

theorem execHardReset_safe (s : State) : SafeOut s (execHardReset s) := .done_if (Safe.of_routes (by simp))

theorem execLastGaspEnd_safe (supply : Bool) (duration : BitVec 16) (s : State) :
    SafeOut s (execLastGaspEnd supply duration s) := by
  unfold execLastGaspEnd endGasp
  dsimp only
  split
  · split
    · exact .done (.inr (deviceReset_fresh (P := AnyRegs) trivial _ _ _).1.1)
    · exact .done_unpowered (darken_unpowered _)
  · exact .done (Safe.of_routes rfl)

theorem execPowerDieFailure_safe (s : State) : SafeOut s (execPowerDieFailure s) := by
  unfold execPowerDieFailure
  split
  · exact .unpowered (darken_unpowered _)
  · exact .next (Safe.of_routes rfl)

theorem execThermalCap_safe (temp : BitVec 12) (s : State) : SafeOut s (execThermalCap temp s) :=
  .done_if (Safe.of_routes (by simp))

theorem execThermalLift_safe (temp : BitVec 12) (s : State) : SafeOut s (execThermalLift temp s) := by
  unfold execThermalLift
  refine .done_if (Safe.of_routes ?_)
  dsimp only
  split <;> simp

theorem execCellLow_safe (mv : BitVec 12) (s : State) : SafeOut s (execCellLow mv s) := .next_if (by simp)

theorem execVigilPowerLoss_safe (s : State) : SafeOut s (execVigilPowerLoss s) := .next_if (by simp)

theorem execMainPowerOn_safe (cap : BitVec 16) (cell : BitVec 12) (s : State) : SafeOut s (execMainPowerOn cap cell s) :=
  .done_unless (powerOn_safe s cap cell)

/-! ### Boot and modes -/

theorem execCoresReleased_safe (tracksPass : BitVec 8) (lanesPass : BitVec 4) (fails : BootFails) (s : State) :
    SafeOut s (execCoresReleased tracksPass lanesPass fails s) :=
  .done_if (releaseCores_safe s _ _ _ _)

theorem execBootComplete_safe (s : State) : SafeOut s (execBootComplete s) := by
  have hbuilt := (builtTable_follows s).safe
  unfold execBootComplete
  refine .done_if (Safe.follows ?_ (leaveShed_follows _))
  exact hbuilt.routes (by simp)

theorem execModereqMaintenance_safe (m : Master) (s : State) : SafeOut s (execModereqMaintenance m s) :=
  .guarded m _ (modeRequest_follows s m _ _ _)

theorem execModereqCommissioning_safe (m : Master) (key sig : Bytes) (s : State) :
    SafeOut s (execModereqCommissioning m key sig s) := by
  unfold execModereqCommissioning
  refine .done ?_
  split
  · exact Safe.of_routes (by simp)
  · refine Keeps.safe (Keeps.of_routes ?_) (guardedWrite_follows m _ (modeRequest_follows _ m _ _ _)).safe
    split <;> simp

theorem execModereqRunning_safe (m : Master) (s : State) : SafeOut s (execModereqRunning m s) :=
  .guarded m _ (modeRequest_follows s m _ _ _)

theorem execSysNonceRead_safe (m : Master) (s : State) : SafeOut s (execSysNonceRead m s) := by
  rw [execSysNonceRead_eq]
  exact .done (Safe.of_routes (nonceDrawn_still m s).1.1)

theorem execImageCommit_safe (m : Master) (s : State) : SafeOut s (execImageCommit m s) := by
  refine .guarded m _ (Kept.follows ?_)
  split <;> simp

theorem execDeadmanKick_safe (m : Master) (n : BitVec 2) (v : Word) (s : State) : SafeOut s (execDeadmanKick m n v s) := by
  refine .guarded m _ ?_
  exact Follows.of_if (kick_follows s n.toNat v)

theorem execDeadmanPrewarn_safe (n : BitVec 2) (s : State) : SafeOut s (execDeadmanPrewarn n s) := .next_if (by simp)

theorem execDeadmanExpiry_safe (n : BitVec 2) (s : State) : SafeOut s (execDeadmanExpiry n s) :=
  .done_if (abruptReset_follows (P := AnyRegs) trivial s _).safe

/-! ### Events and settings -/

theorem execEvtRouteWrite_safe (m : Master) (src : BitVec 10) (v : Word) (s : State) :
    SafeOut s (execEvtRouteWrite m src v s) :=
  .done (Safe.of_routes (by simp))

theorem execEvtPendClear_safe (m : Master) (n : BitVec 5) (ones : Word) (s : State) :
    SafeOut s (execEvtPendClear m n ones s) :=
  .done (Safe.of_routes (by simp))

theorem execSstWrite_safe (m : Master) (idx : BitVec 8) (hi : Bool) (v : Word) (s : State) :
    SafeOut s (execSstWrite m idx hi v s) :=
  .done (Safe.of_routes (by simp))

theorem execSstPersisted_safe (s : State) : SafeOut s (execSstPersisted s) := .next (Safe.of_routes (by simp))

/-! ### The host -/

theorem execDmaStart_safe (m : Master) (c dir : BitVec 2) (s : State) : SafeOut s (execDmaStart m c dir s) :=
  .done (Safe.of_routes (by simp))

theorem execDmaCopyEnd_safe (c : BitVec 2) (data : Bytes) (outcome : Access) (s : State) :
    SafeOut s (execDmaCopyEnd c data outcome s) :=
  .done_if (Safe.of_routes (by simp))

theorem execDmaAbort_safe (m : Master) (c : BitVec 2) (s : State) : SafeOut s (execDmaAbort m c s) :=
  .done (Safe.of_routes (by simp))

theorem execHostCompletionTimeout_safe (r : HostRead) (s : State) : SafeOut s (execHostCompletionTimeout r s) :=
  .done_if (Safe.of_routes (by simp))

theorem execHostReadError_safe (r : HostRead) (s : State) : SafeOut s (execHostReadError r s) :=
  .done_if (Safe.of_routes (by simp))

theorem execImageLoad_safe (line : BitVec 19) (pos : Nat) (chunk : Bytes) (s : State) :
    SafeOut s (execImageLoad line pos chunk s) :=
  .done (Safe.of_routes (by simp))

theorem execBulkWaybill_safe (w : Bytes) (payload : Reading Bytes) (s : State) : SafeOut s (execBulkWaybill w payload s) := by
  unfold execBulkWaybill
  refine .done_if (Safe.of_routes ?_)
  dsimp only
  split
  · simp
  · exact (usbCompletion_still s _ _ false).1.1.trans (usbReply_routes s _ _)

/-! ### The bus -/

theorem execRegisterWrite_safe (m : Master) (addr : Word) (v : WriteData) (s : State) :
    SafeOut s (execRegisterWrite m addr v s) :=
  .done_if (writeWords_safe s m _ _ _)

theorem execRcRead_safe (target : ReadAt) (wide : Bool) (s : State) : SafeOut s (execRcRead target wide s) :=
  .done_if (readAt_safe s wide target)

theorem execLowHalfRead_safe (m : Master) (addr : Word) (s : State) : SafeOut s (execLowHalfRead m addr s) :=
  .done_if (readRow_safe s m _)

theorem execClkMeasSelect_safe (m : Master) (v : Word) (s : State) : SafeOut s (execClkMeasSelect m v s) :=
  .done (Safe.of_routes (by simp))

theorem execClkMeasDone_safe (khz : BitVec 24) (s : State) : SafeOut s (execClkMeasDone khz s) := .next_if (by simp)

theorem execDebugAccess_safe (write : Bool) (addr v : Word) (s : State) : SafeOut s (execDebugAccess write addr v s) := by
  unfold execDebugAccess
  dsimp only
  refine .done ?_
  split
  · exact Safe.of_routes rfl
  split
  · split
    · exact Safe.of_routes rfl
    · exact Safe.of_routes (by simp)
  split
  · split
    · exact Safe.of_routes (tapWrite_routes s _ v)
    · exact (readReg_follows (P := AnyRegs) trivial s 32 _).safe.routes (readData_still _ _).1.1
  split
  · exact (fabricWrite_good s 32 4 v).safe
  · exact readRow_safe s 32 _

/-! ### Waits and signals -/

theorem execBr_safe (i : Issue) (off : BitVec 22) (s : State) : SafeOut s (execBr i off s) := by
  refine issued _ 4 _ _ (fun t n _ => ?_) s
  exact Safe.of_routes rfl

theorem execCall_safe (i : Issue) (off : BitVec 22) (s : State) : SafeOut s (execCall i off s) := by
  refine issued _ 4 _ _ (fun t n _ => ?_) s
  exact callTo_good t n 4 _

theorem execJr_safe (i : Issue) (ra : BitVec 5) (s : State) : SafeOut s (execJr i ra s) := by
  refine issued _ 4 _ _ (fun t n _ => ?_) s
  exact jumpTo_good t _

theorem execCallr_safe (i : Issue) (ra : BitVec 5) (s : State) : SafeOut s (execCallr i ra s) := by
  refine issued _ 4 _ _ (fun t n _ => ?_) s
  exact callTo_good t n 4 _

theorem execRet_safe (i : Issue) (s : State) : SafeOut s (execRet i s) := by
  refine issued _ 4 _ _ (fun t n _ => ?_) s
  split
  · exact Good.of_routes rfl
  split
  · exact Good.of_routes rfl
  · exact Safe.of_routes (modWorld_routes t n _)

theorem execCalla_safe (i : Issue) (imm : Word) (s : State) : SafeOut s (execCalla i imm s) := by
  refine issued _ 8 _ _ (fun t n _ => ?_) s
  exact callTo_good t n 8 _

theorem execBra_safe (i : Issue) (imm : Word) (s : State) : SafeOut s (execBra i imm s) := by
  refine issued _ 8 _ _ (fun t n _ => ?_) s
  exact Safe.of_routes rfl

theorem execLoop_safe (i : Issue) (wc : BitVec 5) (len : BitVec 8) (s : State) : SafeOut s (execLoop i wc len s) := by
  refine issued _ 4 _ _ (fun t n _ => ?_) s
  dsimp only
  split
  · exact Safe.of_routes rfl
  split
  · exact Safe.of_routes (modWorld_routes t n _)
  split
  · exact Safe.of_routes (modWorld_routes t n _)
  · exact Good.of_routes rfl

theorem execLbreak_safe (i : Issue) (s : State) : SafeOut s (execLbreak i s) := by
  refine issued _ 4 _ _ (fun t n _ => ?_) s
  exact Safe.of_routes (modWorld_routes t n _)

theorem execSyscall_safe (i : Issue) (code : BitVec 10) (s : State) : SafeOut s (execSyscall i code s) := by
  refine issued _ 4 _ _ (fun t n _ => ?_) s
  exact Keeps.of_routes rfl

theorem execWcall_safe (i : Issue) (code : BitVec 10) (s : State) : SafeOut s (execWcall i code s) := by
  refine issued _ 4 _ _ (fun t n _ => ?_) s
  exact Keeps.of_routes rfl

theorem execRetx_safe (i : Issue) (s : State) : SafeOut s (execRetx i s) := issued _ 4 _ _ (fun t n _ => returnFrom_good t n) s

theorem execBkpt_safe (i : Issue) (s : State) : SafeOut s (execBkpt i s) := by
  refine issued _ 4 _ _ (fun t n _ => ?_) s
  split
  · exact Safe.of_routes (by simp)
  · exact Keeps.of_routes rfl

theorem execWaitf_safe (i : Issue) (rd : BitVec 5) (s : State) : SafeOut s (execWaitf i rd s) := by
  refine issued _ 4 _ _ (fun t n _ => ?_) s
  split
  · exact Safe.of_routes (by simp)
  · exact Safe.of_routes (by simp)

theorem execWaitfWake_safe (core : BitVec 2) (s : State) : SafeOut s (execWaitfWake core s) := by
  unfold execWaitfWake
  dsimp only
  split
  · exact .done_if (Safe.of_routes (by simp))
  · exact .next (Safe.of_routes rfl)

theorem execSigf_safe (i : Issue) (mask : BitVec 4) (s : State) : SafeOut s (execSigf i mask s) := by
  refine issued _ 4 _ _ (fun t n _ => ?_) s
  exact Safe.of_routes (signalCores_routes t n mask)

theorem execWaitt_safe (i : Issue) (pd : BitVec 3) (ra : BitVec 5) (s : State) : SafeOut s (execWaitt i pd ra s) := by
  refine issued _ 4 _ _ (fun t n _ => ?_) s
  dsimp only
  split
  · exact Safe.of_routes (by simp)
  · exact Safe.of_routes (by simp)

theorem execWaittComplete_safe (core : BitVec 2) (s : State) : SafeOut s (execWaittComplete core s) := by
  unfold execWaittComplete
  dsimp only
  split
  · exact .done_if (Safe.of_routes (by simp))
  · exact .next (Safe.of_routes rfl)

theorem execBar_safe (i : Issue) (s : State) : SafeOut s (execBar i s) := by
  refine issued _ 4 _ _ (fun t n _ => ?_) s
  exact Safe.of_routes rfl

theorem execMfs_safe (i : Issue) (rd spec : BitVec 5) (s : State) : SafeOut s (execMfs i rd spec s) :=
  issued _ 4 _ _ (fun t n _ => readSpec_good _ rd t n) s

theorem execMts_safe (i : Issue) (spec ra : BitVec 5) (s : State) : SafeOut s (execMts i spec ra s) :=
  issued _ 4 _ _ (fun t n _ => writeSpec_good _ ra t n) s

theorem execRstopPop_safe (i : Issue) (rd : BitVec 5) (s : State) : SafeOut s (execRstopPop i rd s) := by
  refine issued _ 4 _ _ (fun t n _ => ?_) s
  exact Safe.of_routes (modWorld_routes t n _)

theorem execRstopPush_safe (i : Issue) (ra : BitVec 5) (s : State) : SafeOut s (execRstopPush i ra s) := by
  refine issued _ 4 _ _ (fun t n _ => ?_) s
  exact Safe.of_routes (modWorld_routes t n _)

theorem execXregRead_safe (i : Issue) (rd : BitVec 5) (s : State) : SafeOut s (execXregRead i rd s) :=
  issued _ 4 _ _ (fun t n _ => readX_good t n rd) s

theorem execXregWrite_safe (i : Issue) (ra : BitVec 5) (s : State) : SafeOut s (execXregWrite i ra s) := by
  refine issued _ 4 _ _ (fun t n _ => ?_) s
  exact Safe.of_routes (setCore_routes t n _)

theorem execIllegalInstruction_safe (core : BitVec 2) (s : State) : SafeOut s (execIllegalInstruction core s) :=
  .done_if (faultAt_good (Good.of_routes (fetchInstr_routes s _ 4)) _).safe

theorem execInterruptTaken_safe (core : BitVec 2) (s : State) : SafeOut s (execInterruptTaken core s) :=
  .done (takeInterrupt_good s _).safe

theorem execCodeWindowFetch_safe (core : BitVec 2) (addr : Word) (s : State) :
    SafeOut s (execCodeWindowFetch core addr s) := by
  unfold execCodeWindowFetch
  refine .done_if ?_
  dsimp only
  split
  · exact Safe.of_routes (fetchWord_routes s _ addr)
  · exact (faultAt_good (Good.of_routes (fetchWord_routes s _ addr)) _).safe

theorem execEntBlockTested_safe (block : Bytes) (s : State) : SafeOut s (execEntBlockTested block s) := by
  unfold execEntBlockTested
  exact .done_if (endCoreReads_good (testBlock_good s block)).safe

theorem execFabricReadTimeout_safe (m : Master) (addr : Word) (fetch : Bool) (s : State) :
    SafeOut s (execFabricReadTimeout m addr fetch s) := by
  unfold execFabricReadTimeout
  refine .done ?_
  split
  · exact Safe.of_routes rfl
  split
  · exact Safe.of_if (coreTimeout_good (Good.of_routes (by simp)) m addr).safe
  · exact (entTimeout_good s m addr).safe

end Sys2Proof.LockedRoutes
end

section
/-! PROOF. Locked routes (R421): the obligation. -/

namespace Sys2Proof.LockedRoutes

open Sys2Proof.Machine

/-- Every command keeps the locked routes, gives the table its reset values, or ends main power. -/
theorem exec_safe (c : Instr) (s : State) : SafeOut s (exec c s) := by
  unfold exec
  cases c with
  | registerWrite => exact execRegisterWrite_safe _ _ _ _
  | rcRead => exact execRcRead_safe _ _ _
  | fabricReadTimeout => exact execFabricReadTimeout_safe _ _ _ _
  | lowHalfRead => exact execLowHalfRead_safe _ _ _
  | clkMeasSelect => exact execClkMeasSelect_safe _ _ _
  | clkMeasDone => exact execClkMeasDone_safe _ _
  | linkUp => exact execLinkUp_safe _ _
  | linkLoss => exact execLinkLoss_safe _
  | linkRetrain => exact execLinkRetrain_safe _ _
  | graceExpiry => exact execGraceExpiry_safe _
  | hotReset => exact execHotReset_safe _
  | flr => exact execFlr_safe _
  | deviceReset => exact execDeviceReset_safe _ _
  | setupBaseWrite => exact execSetupBaseWrite_safe _ _ _ _ _
  | controlLineOpen => exact execControlLineOpen_safe _ _ _
  | controlLineClose => exact execControlLineClose_safe _ _ _
  | windowCWrite => exact execWindowCWrite_safe _ _ _
  | evtPendClear => exact execEvtPendClear_safe _ _ _ _
  | msixUnmask => exact execMsixUnmask_safe _ _
  | hostCompletionTimeout => exact execHostCompletionTimeout_safe _ _
  | hostReadError => exact execHostReadError_safe _ _
  | statusRequest => exact execStatusRequest_safe _
  | bulkWaybill => exact execBulkWaybill_safe _ _ _
  | dmaStart => exact execDmaStart_safe _ _ _ _
  | dmaAbort => exact execDmaAbort_safe _ _ _
  | dmaCopyEnd => exact execDmaCopyEnd_safe _ _ _ _
  | doorbell => exact execDoorbell_safe _ _ _ _
  | admission => exact execAdmission_safe _ _ _
  | entryReadRetry => exact execEntryReadRetry_safe _ _ _
  | fillComplete => exact execFillComplete_safe _ _ _
  | spillDeparted => exact execSpillDeparted_safe _ _
  | indexMirrorWrite => exact execIndexMirrorWrite_safe _ _
  | tagConsist => exact execTagConsist_safe _ _ _
  | tagRecords => exact execTagRecords_safe _ _ _
  | verifyConsist => exact execVerifyConsist_safe _ _ _
  | verifyRecords => exact execVerifyRecords_safe _ _ _ _
  | mark => exact execMark_safe _ _
  | fence => exact execFence_safe _ _
  | lineOpen => exact execLineOpen_safe _ _ _
  | linePause => exact execLinePause_safe _ _
  | linePauseComplete => exact execLinePauseComplete_safe _ _
  | lineClose => exact execLineClose_safe _ _
  | sign => exact execSign_safe _ _ _ _
  | verifySig => exact execVerifySig_safe _ _ _ _ _
  | kemEncaps => exact execKemEncaps_safe _ _ _ _
  | kemDecaps => exact execKemDecaps_safe _ _ _ _
  | derive => exact execDerive_safe _ _ _
  | prove => exact execProve_safe _ _ _
  | manifestRead => exact execManifestRead_safe _ _ _
  | logExport => exact execLogExport_safe _ _ _
  | relay => exact execRelay_safe _ _ _ _
  | attest => exact execAttest_safe _ _ _
  | timeHint => exact execTimeHint_safe _ _ _
  | cardExport => exact execCardExport_safe _ _ _
  | lookoutInventory => exact execLookoutInventory_safe _ _ _
  | imageLoad => exact execImageLoad_safe _ _ _ _
  | lineKeyDerived => exact execLineKeyDerived_safe _ _
  | keyWaitTimeout => exact execKeyWaitTimeout_safe _ _
  | consistFetched => exact execConsistFetched_safe _ _ _
  | consistAbsorbed => exact execConsistAbsorbed_safe _ _ _
  | trackSelfTest => exact execTrackSelfTest_safe _ _ _
  | trackFence => exact execTrackFence_safe _ _ _
  | creditAccount => exact execCreditAccount_safe _ _ _
  | vigilCountRewrite => exact execVigilCountRewrite_safe _
  | ttcAdvance => exact execTtcAdvance_safe _ _ _ _
  | tcxoFailure => exact execTcxoFailure_safe _
  | epochClose => exact execEpochClose_safe _
  | rootFrozen => exact execRootFrozen_safe _
  | manifestSigned => exact execManifestSigned_safe _
  | manifestStored => exact execManifestStored_safe _
  | treeRebuildDone => exact execTreeRebuildDone_safe _
  | stationStale => exact execStationStale_safe _ _
  | btrDerive => exact execBtrDerive_safe _ _
  | installEncaps => exact execInstallEncaps_safe _ _ _
  | installDecaps => exact execInstallDecaps_safe _ _ _
  | invalidate => exact execInvalidate_safe _ _
  | purge => exact execPurge_safe _ _
  | rotate => exact execRotate_safe _ _
  | trunkCreate => exact execTrunkCreate_safe _ _
  | trunkZeroise => exact execTrunkZeroise_safe _ _
  | backup => exact execBackup_safe _ _
  | rescue => exact execRescue_safe _ _
  | release => exact execRelease_safe _ _
  | btrImport => exact execBtrImport_safe _ _
  | btrCommandDone => exact execBtrCommandDone_safe _
  | tableRebuildDone => exact execTableRebuildDone_safe _
  | retire => exact execRetire_safe _ _ _
  | stagingWriteVerified => exact execStagingWriteVerified_safe _ _
  | wordlineStripeProgrammed => exact execWordlineStripeProgrammed_safe _ _
  | flcRead => exact execFlcRead_safe _ _
  | flcProgram => exact execFlcProgram_safe _ _
  | flcErase => exact execFlcErase_safe _ _
  | flcClaim => exact execFlcClaim_safe _ _
  | flcReturn => exact execFlcReturn_safe _ _
  | flashOpDone => exact execFlashOpDone_safe _ _
  | codeWindowFetch => exact execCodeWindowFetch_safe _ _ _
  | cwMapWrite => exact execCwMapWrite_safe _ _ _
  | nandDieFailed => exact execNandDieFailed_safe _ _
  | kdeLockRead => exact execKdeLockRead_safe _ _
  | kdeLockRelease => exact execKdeLockRelease_safe _ _
  | kdeStart => exact execKdeStart_safe _ _
  | kdeFeed => exact execKdeFeed_safe _ _
  | kdeSegmentDone => exact execKdeSegmentDone_safe _ _
  | kdeSave => exact execKdeSave_safe _ _
  | kdeRestore => exact execKdeRestore_safe _ _
  | kdeAbort => exact execKdeAbort_safe _ _
  | kdeClear => exact execKdeClear_safe _ _
  | maeLockRead => exact execMaeLockRead_safe _ _
  | maeLockRelease => exact execMaeLockRelease_safe _ _
  | maeStart => exact execMaeStart_safe _ _
  | maeAbort => exact execMaeAbort_safe _ _
  | maeClear => exact execMaeClear_safe _ _
  | maeWipeDone => exact execMaeWipeDone_safe _
  | maeJobDone => exact execMaeJobDone_safe _ _
  | maeSlockRead => exact execMaeSlockRead_safe _ _
  | maeSlockRelease => exact execMaeSlockRelease_safe _ _
  | maeShortStart => exact execMaeShortStart_safe _ _ _
  | maeYieldPoint => exact execMaeYieldPoint_safe _
  | maeBtrRequest => exact execMaeBtrRequest_safe _
  | lsuQpush => exact execLsuQpush_safe _ _ _
  | laneJobStart => exact execLaneJobStart_safe _ _
  | laneJobDone => exact execLaneJobDone_safe _ _ _
  | lsuFlush => exact execLsuFlush_safe _ _
  | lsuFence => exact execLsuFence_safe _ _ _
  | laneSelfTest => exact execLaneSelfTest_safe _ _ _
  | entBiasDone => exact execEntBiasDone_safe _
  | entBlockTested => exact execEntBlockTested_safe _ _
  | entDataRead => exact execEntDataRead_safe _ _
  | br => exact execBr_safe _ _ _
  | call => exact execCall_safe _ _ _
  | jr => exact execJr_safe _ _ _
  | callr => exact execCallr_safe _ _ _
  | ret => exact execRet_safe _ _
  | loop => exact execLoop_safe _ _ _ _
  | lbreak => exact execLbreak_safe _ _
  | syscall => exact execSyscall_safe _ _ _
  | wcall => exact execWcall_safe _ _ _
  | retx => exact execRetx_safe _ _
  | waitf => exact execWaitf_safe _ _ _
  | waitfWake => exact execWaitfWake_safe _ _
  | sigf => exact execSigf_safe _ _ _
  | waitt => exact execWaitt_safe _ _ _ _
  | waittComplete => exact execWaittComplete_safe _ _
  | bar => exact execBar_safe _ _
  | mfs => exact execMfs_safe _ _ _ _
  | mts => exact execMts_safe _ _ _ _
  | rstopPop => exact execRstopPop_safe _ _ _
  | rstopPush => exact execRstopPush_safe _ _ _
  | xregRead => exact execXregRead_safe _ _ _
  | xregWrite => exact execXregWrite_safe _ _ _
  | bkpt => exact execBkpt_safe _ _
  | calla => exact execCalla_safe _ _ _
  | bra => exact execBra_safe _ _ _
  | bcopy => exact execBcopy_safe _ _ _ _ _
  | bzero => exact execBzero_safe _ _ _ _
  | cteq => exact execCteq_safe _ _ _ _ _ _
  | illegalInstruction => exact execIllegalInstruction_safe _ _
  | interruptTaken => exact execInterruptTaken_safe _ _
  | mbxClaimRead => exact execMbxClaimRead_safe _ _ _
  | mbxClaimFree => exact execMbxClaimFree_safe _ _ _
  | mbxPost => exact execMbxPost_safe _ _ _ _
  | mbxTake => exact execMbxTake_safe _ _ _
  | mbxCfgWrite => exact execMbxCfgWrite_safe _ _ _ _
  | tabletRead => exact execTabletRead_safe _ _ _
  | tabletRelease => exact execTabletRelease_safe _ _ _
  | ilkCommit => exact execIlkCommit_safe _ _
  | ilkLoad => exact execIlkLoad_safe _ _
  | shadowCompare => exact execShadowCompare_safe _
  | debugAccess => exact execDebugAccess_safe _ _ _ _
  | dbgNonceRead => exact execDbgNonceRead_safe _ _
  | dbgCheck => exact execDbgCheck_safe _
  | dbgArm => exact execDbgArm_safe _ _ _
  | dbgSessionClose => exact execDbgSessionClose_safe _ _
  | debugSessionExpiry => exact execDebugSessionExpiry_safe _
  | linesideTrip => exact execLinesideTrip_safe _ _ _
  | detectorSplit => exact execDetectorSplit_safe _ _
  | stickyClear => exact execStickyClear_safe _ _ _ _
  | classWrite => exact execClassWrite_safe _ _ _ _ _
  | lsmTestStart => exact execLsmTestStart_safe _ _ _ _
  | lsmTestDone => exact execLsmTestDone_safe _ _
  | releaseArm => exact execReleaseArm_safe _ _
  | releaseCommit => exact execReleaseCommit_safe _ _
  | releaseAbort => exact execReleaseAbort_safe _ _
  | releaseWindowExpiry => exact execReleaseWindowExpiry_safe _
  | sourceDeassert => exact execSourceDeassert_safe _ _
  | cardInserted => exact execCardInserted_safe _ _
  | cardRemoved => exact execCardRemoved_safe _
  | cardFormatExport => exact execCardFormatExport_safe _ _
  | cardFormatBackup => exact execCardFormatBackup_safe _ _
  | cardFormatCredential => exact execCardFormatCredential_safe _ _
  | forceErase => exact execForceErase_safe _ _
  | forceEraseDone => exact execForceEraseDone_safe _
  | eject => exact execEject_safe _ _
  | cardUnitWritten => exact execCardUnitWritten_safe _ _
  | cardBusyTimeout => exact execCardBusyTimeout_safe _
  | selftest => exact execSelftest_safe _ _ _
  | selftestTimer => exact execSelftestTimer_safe _ _
  | badgeEnrol => exact execBadgeEnrol_safe _ _ _
  | stop => exact execStop_safe _ _
  | rebase => exact execRebase_safe _ _
  | ping => exact execPing_safe _ _
  | inventorySlot => exact execInventorySlot_safe _ _ _
  | badgeRound => exact execBadgeRound_safe _ _
  | select => exact execSelect_safe _ _ _ _ _ _
  | query => exact execQuery_safe _ _ _ _ _
  | queryRep => exact execQueryRep_safe _ _
  | queryAdjust => exact execQueryAdjust_safe _ _ _
  | ack => exact execAck_safe _ _
  | nak => exact execNak_safe _
  | reqRn => exact execReqRn_safe _ _
  | tagRead => exact execTagRead_safe _ _ _ _ _
  | tagWrite => exact execTagWrite_safe _ _ _ _ _ _ _
  | blockWrite => exact execBlockWrite_safe _ _ _ _ _ _ _
  | tagAccess => exact execTagAccess_safe _ _ _
  | tagLock => exact execTagLock_safe _ _
  | tagKill => exact execTagKill_safe _ _
  | unsupportedCommand => exact execUnsupportedCommand_safe _ _
  | tailLampUpdate => exact execTailLampUpdate_safe _ _
  | internalUpdateDone => exact execInternalUpdateDone_safe _ _
  | readerFieldArrival => exact execReaderFieldArrival_safe _
  | fieldCollapse => exact execFieldCollapse_safe _
  | sourceCapabilities => exact execSourceCapabilities_safe _ _ _ _
  | psRdy => exact execPsRdy_safe _
  | noCapabilities => exact execNoCapabilities_safe _ _
  | softReset => exact execSoftReset_safe _
  | hardReset => exact execHardReset_safe _
  | prSwap => exact execPrSwap_safe _
  | drSwap => exact execDrSwap_safe _
  | vconnSwap => exact execVconnSwap_safe _
  | frSwap => exact execFrSwap_safe _
  | disturbanceBegin => exact execDisturbanceBegin_safe _ _
  | disturbanceEnd => exact execDisturbanceEnd_safe _ _
  | lastGaspSeal => exact execLastGaspSeal_safe _
  | bankLow => exact execBankLow_safe _
  | lastGaspEnd => exact execLastGaspEnd_safe _ _ _
  | thermalCap => exact execThermalCap_safe _ _
  | thermalLift => exact execThermalLift_safe _ _
  | cellLow => exact execCellLow_safe _ _
  | vigilPowerLoss => exact execVigilPowerLoss_safe _
  | mainPowerOn => exact execMainPowerOn_safe _ _ _
  | bankCharged => exact execBankCharged_safe _ _
  | powerDieFailure => exact execPowerDieFailure_safe _
  | coresReleased => exact execCoresReleased_safe _ _ _ _
  | bootComplete => exact execBootComplete_safe _
  | modereqMaintenance => exact execModereqMaintenance_safe _ _
  | modereqCommissioning => exact execModereqCommissioning_safe _ _ _ _
  | modereqRunning => exact execModereqRunning_safe _ _
  | sysNonceRead => exact execSysNonceRead_safe _ _
  | imageCommit => exact execImageCommit_safe _ _
  | deadmanKick => exact execDeadmanKick_safe _ _ _ _
  | deadmanPrewarn => exact execDeadmanPrewarn_safe _ _
  | deadmanExpiry => exact execDeadmanExpiry_safe _ _
  | evtRouteWrite => exact execEvtRouteWrite_safe _ _ _ _
  | sstWrite => exact execSstWrite_safe _ _ _ _ _
  | sstPersisted => exact execSstPersisted_safe _
  | add | sub | and | or | xor | andn | shl | shr | sar | rol | ror | mul | mulh | mulhu | divu | remu | clz
  | popc | addi | andi | ori | xori | shli | shri | sari | roli | rori | li | addl | andl | orl | xorl =>
    exact wordOp_safe _ _ _ _ _ _
  | addc | subb => exact carryOp_safe _ _ _ _ _ _ _
  | cmpeq | cmpne | cmplt | cmpltu | cmpge | cmpgeu | cmptst | cmpieq | cmpine | cmpilt | cmpiltu | cmpige
  | cmpigeu | cmpitst => exact compareOp_safe _ _ _ _ _ _
  | pand | por | pxor | pandn | pnot | pset | pclr => exact predOp_safe _ _ _ _ _
  | ldb | ldbu | ldh | ldhu | ldw => exact loadOp_safe _ _ _ _ _ _ _
  | stb | sth | stw => exact storeOp_safe _ _ _ _ _ _

theorem step_safe {s t : State} (h : step s = .next t) : Safe s t ∨ mainPower t = false := by
  unfold step at h
  split at h
  · next c rest _ =>
    exact (exec_safe c { s with pending := rest } t h).imp_left (Keeps.safe (Keeps.of_routes rfl))
  · injection h with e
    rw [← e]
    exact .inl (idleTick_safe s)

/-! ### What a commit answers -/

theorem raise_withEvents (s : State) (n : Nat) : raise s n = withEvents s (raise s n) := by
  unfold raise
  dsimp only
  split
  · unfold triggerVector
    split <;> rfl
  · rfl

theorem hostOut_raise (s : State) (n : Nat) :
    ∃ v : List (BitVec 11), (raise s n).ports.hostOut = s.ports.hostOut ++ v.map HostWrite.msix := by
  unfold raise
  dsimp only
  split
  · next v _ =>
    unfold triggerVector
    split
    · exact ⟨[], (List.append_nil _).symm⟩
    · exact ⟨[v], rfl⟩
  · exact ⟨[], (List.append_nil _).symm⟩

theorem isPending_raise (s : State) {n k : Nat} (hk : k < 1024) :
    isPending (raise s n) k = (isPending s k || [n].contains k) := by
  obtain ⟨h, p, e⟩ := raise_shape s n
  unfold isPending
  rw [e, BitVec.getLsbD_or]
  congr 1
  by_cases hkn : k = n
  · subst hkn
    simp [hk]
  · by_cases hlt : k < n
    · simp [hkn, hlt]
    · simp [hkn, hk, hlt, Nat.sub_eq_zero_iff_le]
      omega

theorem raises_raise (s : State) (n : Nat) : Raises s (raise s n) [n] :=
  ⟨fun _ hk => isPending_raise s hk, hostOut_raise s n⟩

theorem raises_nothing {s t : State} (he : t.evtPend = s.evtPend) (hp : t.ports = s.ports) : Raises s t [] := by
  refine ⟨fun k _ => ?_, [], ?_⟩
  · unfold isPending
    rw [he]
    simp
  · rw [hp]
    simp

theorem sameRegs_orR (s : State) (a : Nat) (v : Word) : SameRegs s (orR s a v) [a] := by
  intro b hb
  exact getR_setR_other s a b _ (fun e => hb (by simp [e]))

theorem getR_orR (s : State) (a : Nat) (v : Word) : getR (orR s a v) a = getR s a ||| v := getR_setR_same s a _

theorem onlyRegs_orR (s : State) (a : Nat) (v : Word) : OnlyRegs s (orR s a v) [a] [] :=
  ⟨rfl, sameRegs_orR s a v, raises_nothing rfl rfl⟩

theorem onlyRegs_raise_orR (s : State) (a n : Nat) (v : Word) : OnlyRegs s (raise (orR s a v) n) [a] [n] := by
  refine ⟨?_, fun b hb => ?_, raises_raise (orR s a v) n⟩
  · rw [raise_regs]
    exact raise_withEvents (orR s a v) n
  · rw [getR_raise]
    exact sameRegs_orR s a v b hb

theorem quiet_orR {s : State} (h : Quiet s) (a : Nat) (v : Word) : Quiet (orR s a v) := h

theorem quiet_raise {s : State} (h : Quiet s) (n : Nat) : Quiet (raise s n) := by
  rw [raise_withEvents]
  exact h

theorem execIlkCommit_permitted {s : State} {m : Master} (h : MayWrite s m Reg.ILK_CMD) (hq : Quiet (commit s)) :
    exec (.ilkCommit m) s = .next (commit s) := by
  change done (guardedWrite s m Reg.ILK_CMD commit) = .next (commit s)
  rw [guardedWrite_permitted s m _ commit h, done_quiet _ hq]

theorem commit_invalid {s : State} (h : (routeAt s (ilkSel s)).lock = false)
    (hbad : (stagedRoute s).debug = 3 ∨ (stagedRoute s).limit < (stagedRoute s).base) : commit s = orR s Reg.ILK_ERR 2 := by
  have hlock : ¬(routeAt s (ilkSel s)).lock = true := by simp [h]
  unfold commit
  dsimp only
  rw [if_neg hlock, if_pos hbad]

/-- The state that a commit of the staged route leaves. -/
def committed (s : State) : State :=
  { s with routes := mput s.routes (ilkSel s) (stagedRoute s),
           shadows := s.shadows.map (fun t => mput t (ilkSel s) (stagedRoute s)),
           badRoutes := s.badRoutes.filter (fun x => !decide (x = ilkSel s)) }

theorem commit_valid {s : State} (h : (routeAt s (ilkSel s)).lock = false) (hdebug : (stagedRoute s).debug ≠ 3)
    (hlimit : (stagedRoute s).base ≤ (stagedRoute s).limit) : commit s = committed s := by
  have hlock : ¬(routeAt s (ilkSel s)).lock = true := by simp [h]
  unfold commit
  dsimp only
  rw [if_neg hlock, if_neg (not_or.mpr ⟨hdebug, Nat.not_lt.mpr hlimit⟩)]
  rfl

theorem routeAt_committed (s : State) : routeAt (committed s) (ilkSel s) = stagedRoute s := by
  unfold routeAt committed
  rw [mget?_mput_same]
  rfl

/-- Settles O39: every command but a commit writes the routes as a reset does or not at all, whatever it reads, writes or copies
over the fabric, and a commit passes a locked route over. -/
theorem lockedRoutes : Obligations.LockedRoutes := by
  unfold Obligations.LockedRoutes
  refine ⟨fun s m hq hm hlock => ?_, fun s m hq hm hlock hbad => ?_, fun s m hq hm hlock hdebug hlimit hset => ?_,
    fun s t n hlock h => ?_⟩
  · have hcommit := commit_refused hlock
    refine ⟨commit s, execIlkCommit_permitted hm ?_, ?_, ?_⟩
    · rw [hcommit]
      exact quiet_raise (quiet_orR hq _ _) 199
    · rw [hcommit, getR_raise, getR_orR]
    · rw [hcommit]
      exact onlyRegs_raise_orR s _ 199 1
  · have hcommit := commit_invalid hlock hbad
    refine ⟨commit s, execIlkCommit_permitted hm ?_, ?_, ?_⟩
    · rw [hcommit]
      exact quiet_orR hq _ _
    · rw [hcommit, getR_orR]
    · rw [hcommit]
      exact onlyRegs_orR s _ 2
  · have hcommit := commit_valid hlock hdebug hlimit
    refine ⟨commit s, execIlkCommit_permitted hm ?_, ?_⟩
    · rw [hcommit]
      exact hq
    · rw [hcommit]
      change (routeAt (committed s) (ilkSel s)).lock = true
      rw [routeAt_committed]
      exact hset
  · obtain (hkeeps | hreset) | hpower := step_safe h
    · exact .inl (hkeeps n hlock)
    · exact .inr (.inl hreset)
    · exact .inr (.inr hpower)

end Sys2Proof.LockedRoutes
end

section
/-! PROOF. The register file (R360): every operation on a world keeps its rules. -/

namespace Sys2Proof.Invariants

open Sys2Proof.Machine

/-! ### Word addresses -/

theorem toNat_mod_four_iff (v : Word) : v.toNat % 4 = 0 ↔ v &&& 3 = 0 := by
  have hand : (v &&& 3).toNat = v.toNat % 4 := by
    rw [BitVec.toNat_and]
    exact Nat.and_two_pow_sub_one_eq_mod v.toNat 2
  rw [← hand]
  exact ⟨fun h => BitVec.eq_of_toNat_eq h, fun h => by rw [h]; rfl⟩

theorem and_mask_mod_four {c : Word} (v : Word) (h : c &&& 3 = 0) : (v &&& c).toNat % 4 = 0 := by
  rw [toNat_mod_four_iff, BitVec.and_assoc, h]
  exact BitVec.and_zero

theorem add_mod_four {v x : Word} (hv : v.toNat % 4 = 0) (hx : x.toNat % 4 = 0) : (v + x).toNat % 4 = 0 := by
  rw [BitVec.toNat_add]
  omega

theorem add_ofNat_mod_four {v : Word} (n : Nat) (hv : v.toNat % 4 = 0) (hn : n % 4 = 0) :
    (v + BitVec.ofNat 32 n).toNat % 4 = 0 := by
  refine add_mod_four hv ?_
  rw [BitVec.toNat_ofNat]
  omega

/-! ### Worlds -/

/-- What R360 says of the fields of a world that the loop words, the levels and the stack pointer are no part of. -/
theorem World.ok_congr {w v : World} (h : v.ok) (hw : w.w = v.w) (hp : w.p = v.p) (hpc : w.pc = v.pc) (hv : w.vbase = v.vbase)
    (hr : w.rstack = v.rstack) : w.ok := by
  obtain ⟨h1, h2, h3, h4, h5⟩ := h
  exact ⟨hw ▸ h1, hp ▸ h2, hpc ▸ h3, hv ▸ h4, hr ▸ h5⟩

theorem World.ok_setPc {w : World} (h : w.ok) {pc : Word} (hpc : pc.toNat % 4 = 0) : World.ok { w with pc := pc } := by
  obtain ⟨h1, h2, -, h4, h5⟩ := h
  exact ⟨h1, h2, hpc, h4, h5⟩

@[simp] theorem World.ok_reset (sig : Bool) : (World.reset sig).ok := by
  exact ⟨rfl, by simp [World.reset], rfl, rfl, Nat.zero_le _⟩

@[simp] theorem World.ok_writeW {w : World} (h : w.ok) (i : BitVec 5) (v : Word) : (writeW i v w).ok := by
  unfold writeW
  split
  · exact h
  · next hi =>
    obtain ⟨h1, h2, h3, h4, h5⟩ := h
    have hne : i.toNat ≠ 0 := fun e => hi (BitVec.eq_of_toNat_eq e)
    refine ⟨?_, h2, h3, h4, h5⟩
    rw [← h1]
    exact Vector.getElem_set_ne i.isLt (by decide) hne

theorem getLsbD_or_one (p : BitVec 8) : (p ||| 1).getLsbD 0 = true := by simp

@[simp] theorem World.ok_writeP {w : World} (h : w.ok) (i : BitVec 3) (b : Bool) : (writeP i b w).ok := by
  unfold writeP
  split
  · exact h
  · next hi =>
    obtain ⟨h1, h2, h3, h4, h5⟩ := h
    have hne : i.toNat ≠ 0 := fun e => hi (BitVec.eq_of_toNat_eq e)
    refine ⟨h1, ?_, h3, h4, h5⟩
    dsimp only
    split
    · simp [h2]
    · simp [h2, Nat.pos_of_ne_zero hne]

@[simp] theorem World.ok_writePair {w : World} (h : w.ok) (i : BitVec 3) (b c : Bool) : (writePair i b c w).ok :=
  World.ok_writeP (World.ok_writeP h i b) (i + 1) c

@[simp] theorem World.ok_dropTop {w : World} (h : w.ok) : (dropTop w).ok := by
  obtain ⟨h1, h2, h3, h4, h5⟩ := h
  exact ⟨h1, h2, h3, h4, by simp only [dropTop, List.length_drop]; omega⟩

@[simp] theorem World.ok_pushStack {w : World} (h : w.ok) (v : Word) : (pushStack v w).ok := by
  obtain ⟨h1, h2, h3, h4, -⟩ := h
  exact ⟨h1, h2, h3, h4, pushStack_length v w⟩

@[simp] theorem World.ok_sealLoop {w : World} (h : w.ok) (i : Nat) : (sealLoop i w).ok := World.ok_congr h rfl rfl rfl rfl rfl
@[simp] theorem World.ok_writeLw0 {w : World} (h : w.ok) (v : Word) : (writeLw0 v w).ok := World.ok_congr h rfl rfl rfl rfl rfl
@[simp] theorem World.ok_writeLw1 {w : World} (h : w.ok) (v : Word) : (writeLw1 v w).ok := World.ok_congr h rfl rfl rfl rfl rfl
@[simp] theorem World.ok_writeLw2 {w : World} (h : w.ok) (v : Word) : (writeLw2 v w).ok := World.ok_congr h rfl rfl rfl rfl rfl
@[simp] theorem World.ok_writeSsp {w : World} (h : w.ok) (v : Word) : (writeSsp v w).ok := World.ok_congr h rfl rfl rfl rfl rfl

@[simp] theorem World.ok_startLevel0 {w : World} (h : w.ok) (count len : Nat) : (startLevel0 count len w).ok :=
  World.ok_congr h rfl rfl rfl rfl rfl

@[simp] theorem World.ok_startLevel1 {w : World} (h : w.ok) (count len : Nat) : (startLevel1 count len w).ok :=
  World.ok_congr h rfl rfl rfl rfl rfl

@[simp] theorem World.ok_breakLoop {w : World} (h : w.ok) : (breakLoop w).ok := by
  unfold breakLoop
  split
  · exact World.ok_congr h rfl rfl rfl rfl rfl
  split
  · exact World.ok_congr h rfl rfl rfl rfl rfl
  · exact h

@[simp] theorem World.ok_writeVbase {w : World} (h : w.ok) (v : Word) : (writeVbase v w).ok := by
  obtain ⟨h1, h2, h3, -, h5⟩ := h
  exact ⟨h1, h2, h3, and_mask_mod_four v (by decide), h5⟩

@[simp] theorem World.ok_entered {w : World} (h : w.ok) (code : Nat) : (entered code w).ok := by
  obtain ⟨h1, h2, -, h4, h5⟩ := h
  exact ⟨h1, h2, add_ofNat_mod_four _ h4 (by omega), h4, h5⟩

theorem loopStart0_mod_four (w : World) : (loopStart0 w).toNat % 4 = 0 := and_mask_mod_four _ (by decide)

theorem loopStart1_mod_four (w : World) : (loopStart1 w).toNat % 4 = 0 :=
  add_ofNat_mod_four _ (loopStart0_mod_four w) (by omega)

theorem World.ok_endLevel0 {w : World} (h : w.ok) : (endLevel0 w).ok := by
  unfold endLevel0
  dsimp only
  split
  · exact World.ok_setPc (w := { w with lw1 := _ }) (World.ok_congr h rfl rfl rfl rfl rfl) (loopStart0_mod_four w)
  · exact World.ok_congr h rfl rfl rfl rfl rfl

theorem World.ok_advancePc {w : World} (h : w.ok) {size : Nat} (hs : size % 4 = 0) : (advancePc size w).ok := by
  obtain ⟨-, -, hpc, -, -⟩ := id h
  have hnext : World.ok { w with pc := w.pc + BitVec.ofNat 32 size } := World.ok_setPc h (add_ofNat_mod_four _ hpc hs)
  have hinner : World.ok { w with pc := w.pc + BitVec.ofNat 32 size, lw1 := withBits w.lw1 16 16 0, lw0 := w.lw0 &&& ~~~2#32 } :=
    World.ok_congr hnext rfl rfl rfl rfl rfl
  unfold advancePc
  dsimp only
  split
  · split
    · exact World.ok_setPc (w := { w with lw1 := _ }) (World.ok_congr h rfl rfl rfl rfl rfl) (loopStart1_mod_four w)
    split
    · exact World.ok_endLevel0 hinner
    · exact hinner
  split
  · exact World.ok_endLevel0 hnext
  · exact hnext

@[simp] theorem World.ok_haltWrite {w : World} (h : w.ok) (off : Nat) (v : Word) : (haltWrite off v w).ok := by
  unfold haltWrite
  split
  · exact World.ok_writeW h _ v
  split
  · obtain ⟨h1, -, h3, h4, h5⟩ := h
    exact ⟨h1, getLsbD_or_one _, h3, h4, h5⟩
  split
  · exact World.ok_setPc h (and_mask_mod_four v (by decide))
  split
  · exact World.ok_writeLw0 h v
  split
  · exact World.ok_writeLw1 h v
  split
  · exact World.ok_writeLw2 h v
  split
  · exact World.ok_writeSsp h v
  split
  · exact World.ok_writeVbase h v
  · exact h

@[simp] theorem World.ok_resumeWorld {w : World} (h : w.ok) (l : List (Nat × Bool × Nat × Word)) (n : Nat) (sig : Bool) :
    (resumeWorld l n sig w).ok := by
  unfold resumeWorld
  induction l generalizing w with
  | nil => exact h
  | cons e r ih =>
    refine ih ?_
    dsimp only
    split
    · exact World.ok_haltWrite h _ _
    · exact h

/-- What RETX restores from a frame whose PC is a word address. -/
theorem World.ok_restored {w : World} (h : w.ok) {l : List Word} (hl : (frameWordAt l 0).toNat % 4 = 0) : (restored l w).ok := by
  obtain ⟨h1, -, -, h4, h5⟩ := h
  exact ⟨h1, getLsbD_or_one _, hl, h4, h5⟩

/-! ### Cores -/

/-- Both worlds of a core are as R360 has them. -/
def CoreOk (c : Core) : Prop := c.plat.ok ∧ c.sig.ok

/-- Every world of every core is as R360 has it. -/
def WorldsOk (v : Vector Core 4) : Prop := ∀ c ∈ v.toList, CoreOk c

theorem coresOk_iff (s : State) : CoresOk s ↔ WorldsOk s.cores := Iff.rfl

@[simp] theorem coreOk_reset : CoreOk Core.reset := ⟨World.ok_reset false, World.ok_reset true⟩

theorem WorldsOk.get {v : Vector Core 4} (h : WorldsOk v) (n : Nat) (hn : n < 4) : CoreOk v[n] :=
  h _ (by simp)

@[simp] theorem WorldsOk.coreAt {s : State} (h : WorldsOk s.cores) (n : Nat) : CoreOk (coreAt s n) := by
  unfold Machine.coreAt
  by_cases hn : n < 4
  · simpa [hn] using h.get n hn
  · simp [hn]

theorem worldsOk_ofFn {f : Fin 4 → Core} (h : ∀ n, CoreOk (f n)) : WorldsOk (Vector.ofFn f) := by
  intro c hc
  obtain ⟨n, rfl⟩ : ∃ n, f n = c := by simpa using hc
  exact h n

@[simp] theorem worldsOk_reset : WorldsOk (Vector.replicate 4 Core.reset) := by
  intro c hc
  obtain ⟨-, rfl⟩ : 4 ≠ 0 ∧ c = Core.reset := by simpa using hc
  exact coreOk_reset

@[simp] theorem CoreOk.worldOf {c : Core} (h : CoreOk c) (sig : Bool) : (worldOf c sig).ok := by
  cases sig with
  | false => exact h.1
  | true => exact h.2

@[simp] theorem CoreOk.put {c : Core} (h : CoreOk c) (sig : Bool) {w : World} (hw : w.ok) : CoreOk (c.put sig w) := by
  cases sig with
  | false => exact ⟨hw, h.2⟩
  | true => exact ⟨h.1, hw⟩

@[simp] theorem WorldsOk.curWorld {s : State} (h : WorldsOk s.cores) (n : Nat) : (curWorld s n).ok := (h.coreAt n).worldOf _

@[simp] theorem worldsOk_setCore {s : State} (h : WorldsOk s.cores) (n : Nat) {c : Core} (hc : CoreOk c) : WorldsOk (setCore s n c).cores := by
  intro d hd
  obtain ⟨i, hi, rfl⟩ := Vector.mem_iff_getElem.1 (Vector.mem_toList_iff.1 hd)
  change CoreOk (s.cores.setIfInBounds n c)[i]
  rw [Vector.getElem_setIfInBounds hi]
  split
  · exact hc
  · exact h.get i hi

@[simp] theorem worldsOk_modWorld {s : State} (h : WorldsOk s.cores) (n : Nat) {f : World → World} (hf : ∀ w, w.ok → (f w).ok) :
    WorldsOk (modWorld s n f).cores :=
  worldsOk_setCore h n ((h.coreAt n).put _ (hf _ (h.curWorld n)))

@[simp] theorem CoreOk.resumeCore {c : Core} (h : CoreOk c) (l : List (Nat × Bool × Nat × Word)) (n : Nat) (keepP keepS : Bool) :
    CoreOk (resumeCore l n keepP keepS c) := by
  obtain ⟨hp, hs⟩ := h
  constructor
  · dsimp only [Machine.resumeCore]
    split
    · exact World.ok_resumeWorld hp l n false
    · exact hp
  · dsimp only [Machine.resumeCore]
    split
    · exact World.ok_resumeWorld hs l n true
    · exact hs

end Sys2Proof.Invariants
end

section
/-! PROOF. The state operations (R20, R361): each one keeps the four that every step is to keep. -/

namespace Sys2Proof.Invariants

open Sys2Proof.Machine

/-! ### What every step keeps -/

/-- What most operations leave alone: the queue, the fuse check, the TTC, memory and the cores. -/
@[simp] abbrev Steady (s t : State) : Prop :=
  t.pending = s.pending ∧ t.fusesOk = s.fusesOk ∧ t.ttc = s.ttc ∧ t.mem = s.mem ∧ t.cores = s.cores

/-- The TTC has reached `n`: said of one `n` at a time, an order on the counter is an implication, which `simp` chains. -/
def reached (n : Nat) (ttc : DWord) : Bool := decide (n ≤ ttc.toNat)

theorem reached_iff (n : Nat) (ttc : DWord) : reached n ttc = true ↔ n ≤ ttc.toNat := decide_eq_true_iff

/-- What every step but a loss of main power keeps: the queue and the fuse check, every value that the TTC has reached, the form
of memory, and the register file. -/
@[simp] abbrev Upholds (s t : State) : Prop :=
  (t.pending = s.pending ∧ t.fusesOk = s.fusesOk) ∧ (∀ n, reached n s.ttc = true → reached n t.ttc = true) ∧
    (Memory.wf s.mem = true → Memory.wf t.mem = true) ∧ (WorldsOk s.cores → WorldsOk t.cores)

theorem Steady.refl (s : State) : Steady s s := ⟨rfl, rfl, rfl, rfl, rfl⟩

theorem Steady.trans {s t u : State} (h : Steady s t) (k : Steady t u) : Steady s u := by
  obtain ⟨h1, h2, h3, h4, h5⟩ := h
  obtain ⟨k1, k2, k3, k4, k5⟩ := k
  exact ⟨k1.trans h1, k2.trans h2, k3.trans h3, k4.trans h4, k5.trans h5⟩

theorem foldl_steady {α : Type} {g : State → α → State} (h : ∀ t e, Steady t (g t e)) (l : List α) (s : State) :
    Steady s (l.foldl g s) := by
  induction l generalizing s with
  | nil => exact Steady.refl s
  | cons e r ih => exact (h s e).trans (ih (g s e))

theorem Upholds.refl (s : State) : Upholds s s := ⟨⟨rfl, rfl⟩, fun _ => id, id, id⟩

theorem Upholds.trans {s t u : State} (h : Upholds s t) (k : Upholds t u) : Upholds s u := by
  obtain ⟨⟨h1, h2⟩, h3, h4, h5⟩ := h
  obtain ⟨⟨k1, k2⟩, k3, k4, k5⟩ := k
  exact ⟨⟨k1.trans h1, k2.trans h2⟩, fun n => k3 n ∘ h3 n, k4 ∘ h4, k5 ∘ h5⟩

theorem Steady.upholds {s t : State} (h : Steady s t) : Upholds s t := by
  obtain ⟨h1, h2, h3, h4, h5⟩ := h
  exact ⟨⟨h1, h2⟩, fun _ hn => h3 ▸ hn, fun h => h4 ▸ h, fun h => h5 ▸ h⟩

theorem Upholds.of_if {s t : State} {c : Prop} [Decidable c] (h : Upholds s t) : Upholds s (if c then t else s) := by
  split
  · exact h
  · exact Upholds.refl s

theorem foldl_upholds {α : Type} {g : State → α → State} (h : ∀ t e, Upholds t (g t e)) (l : List α) (s : State) :
    Upholds s (l.foldl g s) := by
  induction l generalizing s with
  | nil => exact Upholds.refl s
  | cons e r ih => exact (h s e).trans (ih (g s e))

/-! ### The state and its registers, events and bytes -/

@[simp] theorem setR_steady (s : State) (a : Nat) (v : Word) : Steady s (setR s a v) := ⟨rfl, rfl, rfl, rfl, rfl⟩

@[simp] theorem orR_steady (s : State) (a : Nat) (m : Word) : Steady s (orR s a m) := ⟨rfl, rfl, rfl, rfl, rfl⟩

@[simp] theorem clearR_steady (s : State) (a : Nat) (m : Word) : Steady s (clearR s a m) := ⟨rfl, rfl, rfl, rfl, rfl⟩

@[simp] theorem setFieldR_steady (s : State) (a lo n v : Nat) : Steady s (setFieldR s a lo n v) := ⟨rfl, rfl, rfl, rfl, rfl⟩

@[simp] theorem setR64_steady (s : State) (a : Nat) (v : DWord) : Steady s (setR64 s a v) := ⟨rfl, rfl, rfl, rfl, rfl⟩

@[simp] theorem countR64_steady (s : State) (a n : Nat) : Steady s (countR64 s a n) := ⟨rfl, rfl, rfl, rfl, rfl⟩

@[simp] theorem sstPut_steady (s : State) (i : Nat) (v : DWord) : Steady s (sstPut s i v) := ⟨rfl, rfl, rfl, rfl, rfl⟩

@[simp] theorem triggerVector_steady (s : State) (v : BitVec 11) : Steady s (triggerVector s v) := by
  unfold triggerVector
  split <;> simp

@[simp] theorem hostWrite_steady (s : State) (addr : DWord) (b : Bytes) :
    Steady s (hostWrite s addr b) := ⟨rfl, rfl, rfl, rfl, rfl⟩

@[simp] theorem traceRaise_steady (s : State) (n : Nat) : Steady s (traceRaise s n) := ⟨rfl, rfl, rfl, rfl, rfl⟩

@[simp] theorem raise_steady (s : State) (n : Nat) : Steady s (raise s n) := by
  unfold raise
  dsimp only
  (repeat' split) <;> simp

@[simp] theorem raiseAll_steady (s : State) (l : List Nat) : Steady s (raiseAll s l) := by
  unfold raiseAll
  refine foldl_steady (fun t e => ?_) _ _
  simp

@[simp] theorem raiseIf_steady (b : Bool) (s : State) (n : Nat) : Steady s (raiseIf b s n) := by
  unfold raiseIf
  split <;> simp

@[simp] theorem sstStore_steady (s : State) (i : Nat) (v : DWord) : Steady s (sstStore s i v) := by
  unfold sstStore
  dsimp only
  (repeat' split) <;> simp

@[simp] theorem raiseEvery_steady (s : State) (gap n : Nat) : Steady s (raiseEvery s gap n) := by
  simp only [raiseEvery]
  (repeat' split) <;> simp

@[simp] theorem raiseLimited_steady (s : State) (n : Nat) : Steady s (raiseLimited s n) := by simp [raiseLimited]

@[simp] theorem sealPrivate_steady (s : State) (c : PrivateCell) : Steady s (sealPrivate s c) := ⟨rfl, rfl, rfl, rfl, rfl⟩

@[simp] theorem countSealFault_steady (s : State) (tile : Nat) : Steady s (countSealFault s tile) := by
  unfold countSealFault
  dsimp only
  (repeat' split) <;> simp

@[simp] theorem sealFault_steady (s : State) (tile : Nat) : Steady s (sealFault s tile) := by simp [sealFault]

@[simp] theorem drawn_steady (s : State) (n : Nat) : Steady s (drawn s n) := ⟨rfl, rfl, rfl, rfl, rfl⟩

@[simp] theorem usedFree_steady (s : State) : Steady s (usedFree s) := ⟨rfl, rfl, rfl, rfl, rfl⟩

@[simp] theorem memWrite_upholds (s : State) (a : Nat) (b : Bytes) : Upholds s (memWrite s a b) :=
  ⟨⟨rfl, rfl⟩, fun _ => id, memWrite_form s a b, id⟩

@[simp] theorem tailDue_steady (s : State) : Steady s (tailDue s) := ⟨rfl, rfl, rfl, rfl, rfl⟩

@[simp] theorem setMode_steady (s : State) (m : Mode) (reason : Nat) : Steady s (setMode s m reason) := by simp [setMode]

/-! ### The running log -/

@[simp] theorem stageWrite_steady (s : State) (w : StagingWrite) : Steady s (stageWrite s w) := ⟨rfl, rfl, rfl, rfl, rfl⟩

@[simp] theorem stage_steady (s : State) (fs : List Frame) (delta : Bytes) (manifest : Bool) :
    Steady s (stage s fs delta manifest) := ⟨rfl, rfl, rfl, rfl, rfl⟩

@[simp] theorem appendRecord_steady (s : State) (typ : Byte) (body : Bytes) : Steady s (appendRecord s typ body) := by
  unfold appendRecord
  split <;> simp

@[simp] theorem alarmRecord_steady (s : State) (src cls dets origin : Nat) (c : BitVec 48) (ttc : DWord) :
    Steady s (alarmRecord s src cls dets origin c ttc) := by simp [alarmRecord]

@[simp] theorem logAfterReset_steady (s : State) : Steady s (logAfterReset s) := ⟨rfl, rfl, rfl, rfl, rfl⟩

/-! ### The branch tree -/

@[simp] theorem noteCheck_steady (s : State) (c : Check) : Steady s (noteCheck s c) := by
  simp only [noteCheck]
  (repeat' split) <;> simp

@[simp] theorem chargeUse_steady (s : State) (i : Nat) : Steady s (chargeUse s i) := by
  unfold chargeUse
  dsimp only
  (repeat' split) <;> simp

@[simp] theorem cacheKey_steady (s : State) (k : KeySlot) : Steady s (cacheKey s k) := ⟨rfl, rfl, rfl, rfl, rfl⟩

@[simp] theorem cachePath_steady (s : State) (i : Nat) : Steady s (cachePath s i) := by
  unfold cachePath
  refine foldl_steady (fun t e => ?_) _ _
  simp

@[simp] theorem flushKeys_steady (s : State) (i : Nat) : Steady s (flushKeys s i) := ⟨rfl, rfl, rfl, rfl, rfl⟩

@[simp] theorem useBranch_steady (s : State) (i : Nat) : Steady s (useBranch s i) := by simp [useBranch]

@[simp] theorem btrResult_steady (s : State) (status reason : Nat) :
    Steady s (btrResult s status reason) := ⟨rfl, rfl, rfl, rfl, rfl⟩

@[simp] theorem createBranch_steady (s : State) (target : Nat) (b : Branch) : Steady s (createBranch s target b) := by
  unfold createBranch
  split <;> simp

@[simp] theorem dropTrunk_steady (s : State) : Steady s (dropTrunk s) := by simp [dropTrunk]

@[simp] theorem erasePlate_steady (s : State) : Steady s (erasePlate s) := by
  unfold erasePlate
  dsimp only
  (repeat' split) <;> simp

/-! ### Epoch trees -/

@[simp] theorem dropTree_steady (s : State) : Steady s (dropTree s) := by
  unfold dropTree
  split <;> simp

@[simp] theorem dropForLeaves_steady (n : Nat) (s : State) : Steady s (dropForLeaves n s) := by
  induction n generalizing s with
  | zero => exact Steady.refl s
  | succ n ih =>
    unfold dropForLeaves
    split <;> simp [ih]

@[simp] theorem postInto_steady (s : State) (line : Nat) (leaf : Leaf) (stamp : DWord) :
    Steady s (postInto s line leaf stamp) := by
  unfold postInto
  split <;> simp

@[simp] theorem postLeaf_steady (s : State) (line : Nat) (leaf : Leaf) (stamp : DWord) :
    Steady s (postLeaf s line leaf stamp) := by
  unfold postLeaf
  dsimp only
  (repeat' split) <;> simp

/-! ### Lines and contexts -/

@[simp] theorem setLine_steady (s : State) (l : Nat) (r : Line) : Steady s (setLine s l r) := ⟨rfl, rfl, rfl, rfl, rfl⟩

@[simp] theorem modLine_steady (s : State) (l : Nat) (f : Line → Line) : Steady s (modLine s l f) := ⟨rfl, rfl, rfl, rfl, rfl⟩

@[simp] theorem updFlight_steady (s : State) (l id : Nat) (g : Flight → Flight) :
    Steady s (updFlight s l id g) := ⟨rfl, rfl, rfl, rfl, rfl⟩

@[simp] theorem putSlot_steady (s : State) (l : Nat) (t : Slot) : Steady s (putSlot s l t) := ⟨rfl, rfl, rfl, rfl, rfl⟩

@[simp] theorem touchSlot_steady (s : State) (l : Nat) : Steady s (touchSlot s l) := by
  unfold touchSlot
  split <;> simp

@[simp] theorem dropSlot_upholds (s : State) (l : Nat) : Upholds s (dropSlot s l) := by
  refine ⟨⟨rfl, rfl⟩, fun _ => id, fun h => ?_, id⟩
  change Memory.wf (leaveBytes s l) = true
  unfold leaveBytes
  split
  · exact mwfD_putBytes _ _ _ h
  · exact h

@[simp] theorem sealCtx_steady (s : State) (l : Nat) : Steady s (sealCtx s l) := by
  unfold sealCtx
  split <;> simp

@[simp] theorem setCtx_steady (s : State) (l : Nat) (c : Machine.Context) : Steady s (setCtx s l c) := by simp [setCtx]

@[simp] theorem startSpill_steady (s : State) (l : Nat) : Steady s (startSpill s l) := by simp [startSpill]

@[simp] theorem makeRoom_upholds (s : State) : Upholds s (makeRoom s) := by
  simp only [makeRoom]
  (repeat' split) <;> simp +contextual

@[simp] theorem wantContext_upholds (s : State) (l : Nat) : Upholds s (wantContext s l) := by
  unfold wantContext
  dsimp only
  (repeat' split) <;> simp +contextual

@[simp] theorem acceptFill_steady (s : State) (l : Nat) (slotBytes : Bytes) :
    Steady s (acceptFill s l slotBytes) := by simp [acceptFill]

@[simp] theorem writeMirror_steady (s : State) (l : Nat) : Steady s (writeMirror s l) := by
  unfold writeMirror
  split <;> simp

@[simp] theorem raiseMark_steady (s : State) (n : Nat) : Steady s (raiseMark s n) := by
  unfold raiseMark
  split <;> simp

@[simp] theorem writeCompletionTo_steady (s : State) (l : Nat) (f : Flight) : Steady s (writeCompletionTo s l f) := by
  unfold writeCompletionTo
  dsimp only
  (repeat' split) <;> simp

@[simp] theorem writeCompletion_steady (s : State) (l : Nat) (f : Flight) : Steady s (writeCompletion s l f) := by
  unfold writeCompletion
  split <;> simp

@[simp] theorem deliver_steady (s : State) (l id : Nat) : Steady s (deliver s l id) := by
  unfold deliver
  dsimp only
  (repeat' split) <;> simp

@[simp] theorem lneFault_steady (s : State) (l : Nat) (isFault : Bool) (status : Nat) :
    Steady s (lneFault s l isFault status) := by simp [lneFault]

@[simp] theorem haltLine_steady (s : State) (l status : Nat) : Steady s (haltLine s l status) := by
  unfold haltLine
  dsimp only
  (repeat' split) <;> simp

@[simp] theorem faultRecord_upholds (s : State) (l status : Nat) (cause : Option Nat) (lost : Bool) :
    Upholds s (faultRecord s l status cause lost) := by
  unfold faultRecord
  split <;> simp +contextual

@[simp] theorem faultEnded_upholds (s : State) (l : Nat) (f : Flight) :
    Upholds s (faultEnded s l f) := by simp +contextual [faultEnded]

@[simp] theorem settleOne_upholds (s : State) (l : Nat) : Upholds s (settleOne s l) := by
  simp only [settleOne]
  (repeat' split) <;> simp +contextual

@[simp] theorem settleLoop_upholds (n : Nat) (s : State) (l : Nat) : Upholds s (settleLoop n s l) := by
  induction n generalizing s with
  | zero => exact Upholds.refl s
  | succ n ih => exact (settleOne_upholds s l).trans (ih _)

@[simp] theorem settle_upholds (s : State) (l : Nat) : Upholds s (settle s l) :=
  (settleLoop_upholds _ s l).trans (foldl_upholds (fun t f => by simp) _ _)

@[simp] theorem endFlight_steady (s : State) (l id status : Nat) (gasp : Bool) :
    Steady s (endFlight s l id status gasp) := ⟨rfl, rfl, rfl, rfl, rfl⟩

@[simp] theorem countService_steady (s : State) (l : Nat) : Steady s (countService s l) := by
  unfold countService
  split <;> simp

@[simp] theorem completeRaw_steady (s : State) (l : Nat) (f : Flight) (status flags seq : Nat) (result : Bytes) :
    Steady s (completeRaw s l f status flags seq result) := by simp [completeRaw]

@[simp] theorem finishService_steady (s : State) (l id status length : Nat) (result : Bytes) :
    Steady s (finishService s l id status length result) := by
  simp only [finishService]
  (repeat' split) <;> simp

@[simp] theorem abortService_steady (s : State) (l : Nat) (cause : Option Nat) (status : Nat) :
    Steady s (abortService s l cause status) := by
  unfold abortService
  refine foldl_steady (fun t e => ?_) _ _
  (repeat' split) <;> simp

@[simp] theorem faultLine_upholds (s : State) (l status : Nat) (cause : Option Nat) (lost : Bool) :
    Upholds s (faultLine s l status cause lost) := by
  unfold faultLine
  split <;> simp +contextual

@[simp] theorem faultContext_upholds (s : State) (l : Nat) (cause : Option Nat) :
    Upholds s (faultContext s l cause) := by simp +contextual [faultContext]

@[simp] theorem completeService_upholds (s : State) (l id status length : Nat) (result : Bytes) :
    Upholds s (completeService s l id status length result) := by
  unfold completeService
  split <;> simp +contextual

@[simp] theorem completeAtOnce_upholds (s : State) (l id status : Nat) : Upholds s (completeAtOnce s l id status) := by
  unfold completeAtOnce
  dsimp only
  (repeat' split) <;> simp +contextual

@[simp] theorem endSession_steady (s : State) : Steady s (endSession s) := by simp [endSession]

/-! ### The Hump and the tracks -/

@[simp] theorem installLineKey_steady (s : State) (l : Nat) (c : Machine.Context) :
    Steady s (installLineKey s l c) := by simp [installLineKey]

@[simp] theorem setTrack_steady (s : State) (t : Nat) (k : Track) : Steady s (setTrack s t k) := ⟨rfl, rfl, rfl, rfl, rfl⟩

@[simp] theorem enableTracks_steady (s : State) : Steady s (enableTracks s) := by
  unfold enableTracks
  refine foldl_steady (fun t e => ?_) _ _
  simp

@[simp] theorem trackFault_steady (s : State) (t : Nat) : Steady s (trackFault s t) := by
  unfold trackFault
  dsimp only
  (repeat' split) <;> simp

@[simp] theorem keyLookup_upholds (s : State) (l id : Nat) : Upholds s (keyLookup s l id) := by
  unfold keyLookup
  dsimp only
  (repeat' split) <;> simp +contextual

@[simp] theorem freeHalf_steady (s : State) (t : Nat) (second : Bool) : Steady s (freeHalf s t second) := by
  unfold freeHalf
  split <;> simp

@[simp] theorem turnHalves_steady (s : State) (t : Nat) : Steady s (turnHalves s t) := by
  unfold turnHalves
  dsimp only
  (repeat' split) <;> simp

@[simp] theorem putConsist_steady (s : State) (l : Nat) (f : Flight) (records : Bytes) :
    Steady s (putConsist s l f records) := by
  unfold putConsist
  dsimp only
  (repeat' split) <;> simp

@[simp] theorem moveFlight_upholds (s : State) (l id : Nat) : Upholds s (moveFlight s l id) := by
  unfold moveFlight
  dsimp only
  (repeat' split) <;> simp +contextual

@[simp] theorem moveAll_upholds (s : State) (t : Nat) : Upholds s (moveAll s t) := by
  unfold moveAll
  exact (foldl_upholds (fun t (e : Nat × Nat) => moveFlight_upholds t e.1 e.2) _ s).trans (turnHalves_steady _ _).upholds

@[simp] theorem recordFence_steady (s : State) (t cause : Nat) : Steady s (recordFence s t cause) := by simp [recordFence]

@[simp] theorem fenceTrack_upholds (s : State) (t cause : Nat) : Upholds s (fenceTrack s t cause) := by
  unfold fenceTrack
  split <;> simp +contextual

@[simp] theorem openQueue_steady (s : State) (f : Flight) : Steady s (openQueue s f) := by
  unfold openQueue
  split <;> simp

@[simp] theorem stampFlight_steady (s : State) (l : Nat) (f : Flight) : Steady s (stampFlight s l f) := by
  unfold stampFlight
  dsimp only
  (repeat' split) <;> simp

@[simp] theorem stampNext_steady (s : State) (t : Nat) : Steady s (stampNext s t) := by
  unfold stampNext
  dsimp only
  (repeat' split) <;> simp

@[simp] theorem stampAll_steady (s : State) : Steady s (stampAll s) := by
  unfold stampAll
  refine foldl_steady (fun t e => ?_) _ _
  simp

@[simp] theorem advance_steady (s : State) (l : Nat) (c : Machine.Context) (f : Flight) (tag : Bytes) :
    Steady s (advance s l c f tag) := by simp [advance]

@[simp] theorem writeAll_steady (s : State) (w : List (DWord × Bytes)) : Steady s (writeAll s w) := by
  unfold writeAll
  refine foldl_steady (fun t e => ?_) _ _
  simp

@[simp] theorem finishFencing_upholds (s : State) (t : Nat) : Upholds s (finishFencing s t) := by
  unfold finishFencing
  dsimp only
  (repeat' split) <;> simp +contextual

@[simp] theorem finishFences_upholds (s : State) : Upholds s (finishFences s) := by
  unfold finishFences
  refine foldl_upholds (fun t e => ?_) _ _
  (repeat' split) <;> simp +contextual

@[simp] theorem absorbSealFault_upholds (s : State) (l : Nat) (f : Flight) :
    Upholds s (absorbSealFault s l f) := by simp +contextual [absorbSealFault]

@[simp] theorem streamTags_steady (s : State) (f : Flight) (expected : Bytes) : Steady s (streamTags s f expected) := by
  unfold streamTags
  split <;> simp

@[simp] theorem absorbWork_upholds (s : State) (l : Nat) (c : Machine.Context) (f : Flight) (expected : Bytes) :
    Upholds s (absorbWork s l c f expected) := by
  unfold absorbWork
  dsimp only
  (repeat' split) <;> simp +contextual

@[simp] theorem absorb_upholds (s : State) (l : Nat) (f : Flight) (expected : Bytes) : Upholds s (absorb s l f expected) := by
  simp only [absorb]
  (repeat' split) <;> simp +contextual

@[simp] theorem drainStamped_upholds (s : State) : Upholds s (drainStamped s) := by
  unfold drainStamped
  refine foldl_upholds (fun t e => ?_) _ _
  (repeat' split) <;> simp +contextual

@[simp] theorem endUnstamped_upholds (s : State) (status : Nat) (gasp : Bool) (only : Line → Flight → Bool) :
    Upholds s (endUnstamped s status gasp only) := by
  refine Upholds.trans (foldl_upholds (fun t e => ?_) _ s) (stampAll_steady _).upholds
  split
  · exact Upholds.refl t
  · refine Upholds.trans (foldl_upholds (fun b f => ?_) _ t) (settle_upholds _ _)
    split <;> simp

/-! ### Guarded accesses -/

@[simp] theorem recordDeny_steady (s : State) (m : Master) (k : Kind) (a : Nat) : Steady s (recordDeny s m k a) := by
  unfold recordDeny
  split <;> simp

@[simp] theorem debugDenied_steady (s : State) : Steady s (debugDenied s) := by
  unfold debugDenied
  dsimp only
  (repeat' split) <;> simp

@[simp] theorem denied_steady (s : State) (m : Master) (k : Kind) (a : Nat) : Steady s (denied s m k a) := by
  unfold denied
  dsimp only
  (repeat' split) <;> simp

@[simp] theorem unmapped_steady (s : State) (m : Master) : Steady s (unmapped s m) := by
  unfold unmapped
  split <;> simp

@[simp] theorem readData_steady (s : State) (v : DWord) : Steady s (readData s v) := ⟨rfl, rfl, rfl, rfl, rfl⟩

@[simp] theorem readError_steady (s : State) : Steady s (readError s) := ⟨rfl, rfl, rfl, rfl, rfl⟩

@[simp] theorem failAccess_steady (s : State) (m : Master) (k : Kind) (a : Nat) : Steady s (failAccess s m k a) := by
  unfold failAccess
  dsimp only
  (repeat' split) <;> simp

@[simp] theorem failSeal_steady (s : State) (k : Kind) (a : Nat) : Steady s (failSeal s k a) := by
  unfold failSeal
  split <;> simp

@[simp] theorem guardedWrite_steady (s : State) (m : Master) (a : Nat) (f : State → State) (hf : ∀ t, Steady t (f t)) :
    Steady s (guardedWrite s m a f) := by
  simp only [guardedWrite]
  (repeat' split) <;> simp [hf]

@[simp] theorem guardedWrite_upholds (s : State) (m : Master) (a : Nat) (f : State → State) (hf : ∀ t, Upholds t (f t)) :
    Upholds s (guardedWrite s m a f) := by
  simp only [guardedWrite]
  (repeat' split) <;> simp +contextual [hf]

@[simp] theorem guardedPair_steady (s : State) (m : Master) (a : Nat) (f : State → State) (hf : ∀ t, Steady t (f t)) :
    Steady s (guardedPair s m a f) := by
  simp only [guardedPair]
  (repeat' split) <;> simp [hf]

@[simp] theorem guardedPair_upholds (s : State) (m : Master) (a : Nat) (f : State → State) (hf : ∀ t, Upholds t (f t)) :
    Upholds s (guardedPair s m a f) := by
  simp only [guardedPair]
  (repeat' split) <;> simp +contextual [hf]

@[simp] theorem guardedRead_steady (s : State) (m : Master) (a : Nat) (f : State → State) (hf : ∀ t, Steady t (f t)) :
    Steady s (guardedRead s m a f) := by
  simp only [guardedRead]
  (repeat' split) <;> simp [hf]

@[simp] theorem guardedRead_upholds (s : State) (m : Master) (a : Nat) (f : State → State) (hf : ∀ t, Upholds t (f t)) :
    Upholds s (guardedRead s m a f) := by
  simp only [guardedRead]
  (repeat' split) <;> simp +contextual [hf]

@[simp] theorem noteRead_steady (s : State) (a n : Nat) : Steady s (noteRead s a n) := by
  unfold noteRead
  split <;> simp

@[simp] theorem patchSlot_steady (a : Nat) (b : Bytes) (s : State) (slot : Nat) : Steady s (patchSlot a b s slot) := by
  unfold patchSlot
  dsimp only
  (repeat' split) <;> simp

@[simp] theorem writeSlots_upholds (s : State) (a : Nat) (b : Bytes) : Upholds s (writeSlots s a b) :=
  (memWrite_upholds s a b).trans (foldl_upholds (fun t e => (patchSlot_steady a b t e).upholds) _ _)

@[simp] theorem maeNotOwner_steady (s : State) : Steady s (maeNotOwner s) := by simp [maeNotOwner]

@[simp] theorem storeBytes_upholds (s : State) (m : Master) (a : Nat) (b : Bytes) : Upholds s (storeBytes s m a b) := by
  simp only [storeBytes]
  (repeat' split) <;> simp +contextual

@[simp] theorem reachPart_steady (s : State) (m : Master) (k : Kind) (p n : Nat) : Steady s (reachPart s m k p n).state := by
  simp only [reachPart]
  (repeat' split) <;> simp

@[simp] theorem reachParts_steady (m : Master) (k : Kind) (l : List (Nat × Nat)) (s : State) :
    Steady s (reachParts m k l s).state := by
  induction l generalizing s with
  | nil => exact Steady.refl s
  | cons e r ih =>
    unfold reachParts
    dsimp only
    split <;> simp [ih]

@[simp] theorem reach_steady (s : State) (m : Master) (k : Kind) (a n : Nat) : Steady s (reach s m k a n).state := by
  unfold reach
  dsimp only
  (repeat' split) <;> simp

@[simp] theorem writeParts_upholds (m : Master) (a : Nat) (b : Bytes) (l : List (Nat × Nat)) (s : State) :
    Upholds s (writeParts m a b l s).state := by
  induction l generalizing s with
  | nil => exact Upholds.refl s
  | cons e r ih =>
    have hreach : Upholds s (reachPart s m .write e.1 e.2).state := by simp
    unfold writeParts
    dsimp only
    split
    · exact hreach.trans ((storeBytes_upholds _ m e.1 _).trans (ih _))
    · exact hreach

@[simp] theorem engineWrite_upholds (s : State) (m : Master) (a : Nat) (b : Bytes) :
    Upholds s (engineWrite s m a b).state := by simp +contextual [engineWrite]

@[simp] theorem noteSeen_steady (s : State) (seen : Access) (tile : Nat) : Steady s (noteSeen s seen tile) := by
  unfold noteSeen
  split <;> simp

/-! ### Lattice jobs -/

@[simp] theorem setLane_steady (s : State) (n : Nat) (l : Lane) : Steady s (setLane s n l) := ⟨rfl, rfl, rfl, rfl, rfl⟩

@[simp] theorem enableLanes_steady (s : State) : Steady s (enableLanes s) := by
  unfold enableLanes
  refine foldl_steady (fun t e => ?_) _ _
  simp

@[simp] theorem endDesc_upholds (s : State) (a : Nat) (pusher : Master) (result lane written : Nat) (start : DWord) :
    Upholds s (endDesc s a pusher result lane written start) := by simp +contextual [endDesc]

@[simp] theorem endQueued_upholds (s : State) (result : Nat) (pick : Bytes → Bool) : Upholds s (endQueued s result pick) := by
  unfold endQueued
  refine foldl_upholds (fun t e => ?_) _ _
  simp +contextual

@[simp] theorem noLane_upholds (s : State) : Upholds s (noLane s) := by
  unfold noLane
  split <;> simp +contextual

@[simp] theorem recordLaneFence_steady (s : State) (n cause : Nat) :
    Steady s (recordLaneFence s n cause) := by simp [recordLaneFence]

@[simp] theorem fenceLane_upholds (s : State) (n cause : Nat) : Upholds s (fenceLane s n cause) := by
  unfold fenceLane
  split <;> simp +contextual

@[simp] theorem loadKey_steady (s : State) (n i : Nat) : Steady s (loadKey s n i).state := by
  unfold loadKey
  dsimp only
  (repeat' split) <;> simp

@[simp] theorem regenKeys_steady (s : State) : Steady s (regenKeys s) := by
  unfold regenKeys
  split <;> simp

@[simp] theorem clearLaneKeys_steady (s : State) (affected : Nat → Bool) :
    Steady s (clearLaneKeys s affected) := ⟨rfl, rfl, rfl, rfl, rfl⟩

@[simp] theorem signWith_steady (s : State) (seed msg : Bytes) :
    Steady s (signWith s seed msg).state := ⟨rfl, rfl, rfl, rfl, rfl⟩

@[simp] theorem signBy_steady (s : State) (i : Nat) (msg : Bytes) : Steady s (signBy s i msg).state :=
  (loadKey_steady s (workLane s) i).trans (signWith_steady _ _ msg)

@[simp] theorem countVerify_steady (s : State) : Steady s (countVerify s) := ⟨rfl, rfl, rfl, rfl, rfl⟩

/-! ### Flash operations -/

@[simp] theorem setBlock_steady (s : State) (die block : Nat) (b : Block) :
    Steady s (setBlock s die block b) := ⟨rfl, rfl, rfl, rfl, rfl⟩

@[simp] theorem putPage_steady (s : State) (die block page : Nat) (b : Bytes) :
    Steady s (putPage s die block page b) := ⟨rfl, rfl, rfl, rfl, rfl⟩

@[simp] theorem eraseKey_steady (s : State) (k : Nat) : Steady s (eraseKey s k) := ⟨rfl, rfl, rfl, rfl, rfl⟩

@[simp] theorem eraseBlock_steady (s : State) (die block : Nat) : Steady s (eraseBlock s die block) := ⟨rfl, rfl, rfl, rfl, rfl⟩

@[simp] theorem slotWrite_steady (s : State) (slot off : Nat) (b : Bytes) : Steady s (slotWrite s slot off b) := by
  unfold slotWrite
  refine foldl_steady (fun t e => ?_) _ _
  simp

@[simp] theorem eraseSlot_steady (s : State) (slot : Nat) : Steady s (eraseSlot s slot) := by
  unfold eraseSlot
  refine foldl_steady (fun t e => ?_) _ _
  simp

@[simp] theorem shrinkReserve_steady (s : State) (k : Nat) : Steady s (shrinkReserve s k) := by
  unfold shrinkReserve
  split <;> simp

@[simp] theorem replaceBlock_steady (s : State) (k : Nat) : Steady s (replaceBlock s k) := by
  unfold replaceBlock
  dsimp only
  (repeat' split) <;> simp

@[simp] theorem retireBlock_steady (s : State) (die block : Nat) : Steady s (retireBlock s die block) := by
  unfold retireBlock
  dsimp only
  (repeat' split) <;> simp

@[simp] theorem markLost_steady (s : State) (l : List Nat) : Steady s (markLost s l) := ⟨rfl, rfl, rfl, rfl, rfl⟩

@[simp] theorem eraseSlotBlocks_steady (s : State) (k : Nat) : Steady s (eraseSlotBlocks s k) := by
  unfold eraseSlotBlocks
  refine foldl_steady (fun t e => ?_) _ _
  simp

@[simp] theorem eraseOldest_steady (s : State) : Steady s (eraseOldest s) := by
  unfold eraseOldest
  split <;> simp

@[simp] theorem reclaimOldest_steady (s : State) : Steady s (reclaimOldest s) := by
  unfold reclaimOldest
  split
  · exact Steady.refl s
  split
  · exact Steady.refl s
  split
  · split <;> simp
  split
  · simp
  · exact foldl_steady (fun t f => by simp) _ _

@[simp] theorem copyForward_steady (s : State) (t : Stripe) : Steady s (copyForward s t) := by
  unfold copyForward
  split <;> simp

@[simp] theorem levelWear_steady (s : State) : Steady s (levelWear s) := by
  unfold levelWear
  refine foldl_steady (fun t e => ?_) _ _
  (repeat' split) <;> simp

@[simp] theorem beginStripe_steady (s : State) : Steady s (beginStripe s) := by
  unfold beginStripe
  split <;> simp

@[simp] theorem startProgram_steady (s : State) : Steady s (startProgram s) := by
  unfold startProgram
  dsimp only
  (repeat' split) <;> simp

@[simp] theorem programStripe_steady (s : State) : Steady s (programStripe s) := ⟨rfl, rfl, rfl, rfl, rfl⟩

@[simp] theorem skipWordline_steady (s : State) : Steady s (skipWordline s) := ⟨rfl, rfl, rfl, rfl, rfl⟩

@[simp] theorem rewriteWordline_steady (s : State) : Steady s (rewriteWordline s) := by
  unfold rewriteWordline
  dsimp only
  (repeat' split) <;> simp

@[simp] theorem noteFull_steady (s : State) : Steady s (noteFull s) := by
  unfold noteFull
  split <;> simp

/-! ### Lines that open -/

@[simp] theorem treeFault_steady (s : State) : Steady s (treeFault s) := by simp [treeFault]

@[simp] theorem countLines_steady (s : State) (p : Nat) (up : Bool) : Steady s (countLines s p up) := ⟨rfl, rfl, rfl, rfl, rfl⟩

@[simp] theorem completeEnded_steady (l : List Flight) (s : State) : Steady s (completeEnded l s) := by
  induction l generalizing s with
  | nil => exact Steady.refl s
  | cons f r ih =>
    unfold completeEnded
    split <;> simp [ih]

@[simp] theorem completeControl_steady (s : State) (id status seq : Nat) (head : Bytes) :
    Steady s (completeControl s id status seq head) := by
  unfold completeControl
  split <;> simp

theorem withRecord_upholds (s : State) (id l : Nat) (f : State → State) (h : ∀ t, Upholds t (f t)) :
    Upholds s (withRecord s id l f) := by
  unfold withRecord
  split
  · exact Steady.upholds (by simp)
  · exact h s

@[simp] theorem withRecord_steady (s : State) (id l : Nat) (f : State → State) (h : ∀ t, Steady t (f t)) :
    Steady s (withRecord s id l f) := by
  unfold withRecord
  split
  · simp
  · exact h s

@[simp] theorem openNew_steady (s : State) (id : Nat) (raw head : Bytes) : Steady s (openNew s id raw head) := by
  unfold openNew
  split <;> simp

@[simp] theorem resumeLine_steady (s : State) (id : Nat) (raw : Bytes) : Steady s (resumeLine s id raw) := by
  unfold resumeLine
  dsimp only
  (repeat' split) <;> simp

@[simp] theorem park_steady (s : State) (id : Nat) : Steady s (park s id) := ⟨rfl, rfl, rfl, rfl, rfl⟩

@[simp] theorem openRoom_upholds (s : State) (id : Nat) (raw head : Bytes) : Upholds s (openRoom s id raw head) := by
  unfold openRoom
  dsimp only
  (repeat' split) <;> simp +contextual

@[simp] theorem openContinue_upholds (s : State) (id : Nat) (raw head : Bytes) : Upholds s (openContinue s id raw head) := by
  unfold openContinue
  dsimp only
  (repeat' split) <;> simp +contextual

@[simp] theorem openClosed_upholds (s : State) (id : Nat) (raw head : Bytes) : Upholds s (openClosed s id raw head) := by
  unfold openClosed
  split <;> simp +contextual

@[simp] theorem openPaused_upholds (s : State) (id : Nat) (raw : Bytes) : Upholds s (openPaused s id raw) := by
  unfold openPaused
  dsimp only
  (repeat' split) <;> simp +contextual

@[simp] theorem tryOpen_upholds (s : State) (id : Nat) (raw head : Bytes) : Upholds s (tryOpen s id raw head) := by
  refine withRecord_upholds s id _ _ (fun t => ?_)
  split
  · exact (completeControl_steady _ _ _ _ _).upholds
  split
  · exact openClosed_upholds _ _ _ _
  · exact openPaused_upholds _ _ _

@[simp] theorem recheckOpens_upholds (s : State) : Upholds s (recheckOpens s) := by
  unfold recheckOpens
  refine foldl_upholds (fun t e => ?_) _ _
  (repeat' split) <;> simp +contextual

@[simp] theorem tryPause_steady (s : State) (id : Nat) (raw : Bytes) : Steady s (tryPause s id raw) := by
  unfold tryPause
  refine withRecord_steady s id _ _ (fun t => ?_)
  dsimp only
  (repeat' split) <;> simp

@[simp] theorem closeLine_upholds (s : State) (id l seq : Nat) (head : Bytes) : Upholds s (closeLine s id l seq head) := by
  unfold closeLine
  dsimp only
  (repeat' split) <;> simp +contextual

@[simp] theorem closeFilled_upholds (s : State) (id l : Nat) : Upholds s (closeFilled s id l) := by
  have hwant := wantContext_upholds s l
  unfold closeFilled
  dsimp only
  refine hwant.trans ?_
  (repeat' split) <;> simp +contextual

@[simp] theorem tryClose_upholds (s : State) (id : Nat) (raw : Bytes) : Upholds s (tryClose s id raw) := by
  unfold tryClose
  refine withRecord_upholds s id _ _ (fun t => ?_)
  dsimp only
  (repeat' split) <;> simp +contextual

@[simp] theorem retryControl_upholds (s : State) (l : Nat) : Upholds s (retryControl s l) := by
  simp only [retryControl]
  (repeat' split) <;> simp +contextual

@[simp] theorem failControl_upholds (s : State) (l status : Nat) : Upholds s (failControl s l status) := by
  simp only [failControl]
  (repeat' split) <;> simp +contextual

end Sys2Proof.Invariants
end

section
/-! PROOF. Epochs, modes, trips and the resets keep the four. -/

namespace Sys2Proof.Invariants

open Sys2Proof.Machine

/-! ### Epochs that close -/

@[simp] theorem setBase_steady (s : State) : Steady s (setBase s) := by
  unfold setBase
  split <;> simp

@[simp] theorem openEpochAt_steady (s : State) (number : Nat) (start : DWord) (restart : Bool) :
    Steady s (openEpochAt s number start restart) := ⟨rfl, rfl, rfl, rfl, rfl⟩

@[simp] theorem enterSealing_steady (s : State) : Steady s (enterSealing s) := by
  unfold enterSealing
  split <;> simp

@[simp] theorem noteEpoch_steady (s : State) : Steady s (noteEpoch s) := ⟨rfl, rfl, rfl, rfl, rfl⟩

@[simp] theorem closeEpoch_steady (s : State) (ttcEnd : DWord) (flags : Byte) (condemned : Bool) :
    Steady s (closeEpoch s ttcEnd flags condemned) := by
  unfold closeEpoch
  split <;> simp

@[simp] theorem postAhead_steady (s : State) : Steady s (postAhead s) := by
  unfold postAhead
  refine foldl_steady (fun t e => ?_) _ _
  simp

@[simp] theorem forceAhead_steady (s : State) : Steady s (forceAhead s) := by
  unfold forceAhead
  refine foldl_steady (fun t e => ?_) _ _
  simp

@[simp] theorem noteLate_steady (s : State) (closed : Nat) : Steady s (noteLate s closed) := by
  unfold noteLate
  split <;> simp

@[simp] theorem closeAtBoundary_steady (s : State) : Steady s (closeAtBoundary s) := by
  unfold closeAtBoundary
  split <;> simp

@[simp] theorem closeDue_steady (n : Nat) (s : State) : Steady s (closeDue n s) := by
  induction n generalizing s with
  | zero => exact Steady.refl s
  | succ n ih =>
    unfold closeDue
    split
    · exact (closeAtBoundary_steady s).trans (ih _)
    · exact Steady.refl s

@[simp] theorem makeSnapshot_steady (s : State) (j : SealJob) : Steady s (makeSnapshot s j) := by
  simp only [makeSnapshot]
  (repeat' split) <;> simp

@[simp] theorem setJob_steady (s : State) (f : SealJob → SealJob) : Steady s (setJob s f) := by
  unfold setJob
  split <;> simp

@[simp] theorem noteUnsigned_steady (s : State) : Steady s (noteUnsigned s) := by simp [noteUnsigned]

@[simp] theorem freeze_steady (s : State) : Steady s (freeze s) := by
  unfold freeze
  dsimp only
  (repeat' split) <;> simp

@[simp] theorem freeManifestLane_steady (s : State) : Steady s (freeManifestLane s) := ⟨rfl, rfl, rfl, rfl, rfl⟩

@[simp] theorem signLoaded_steady (s : State) (j : SealJob) (seed : Bytes) : Steady s (signLoaded s j seed) := by
  unfold signLoaded
  split <;> simp

@[simp] theorem leaveUnsigned_steady (s : State) : Steady s (leaveUnsigned s) := by simp [leaveUnsigned]

@[simp] theorem signJob_steady (s : State) : Steady s (signJob s) := by
  have hfree := freeManifestLane_steady s
  unfold signJob
  split
  · exact Steady.refl s
  · dsimp only
    refine hfree.trans ?_
    (repeat' split) <;> simp

@[simp] theorem signBacklogOne_steady (s : State) : Steady s (signBacklogOne s) := by
  unfold signBacklogOne
  split <;> simp

@[simp] theorem signBacklogN_steady (n : Nat) (s : State) : Steady s (signBacklogN n s) := by
  induction n generalizing s with
  | zero => exact Steady.refl s
  | succ n ih => exact (signBacklogOne_steady s).trans (ih _)

@[simp] theorem signBacklog_steady (s : State) : Steady s (signBacklog s) := by
  unfold signBacklog
  split <;> simp

@[simp] theorem handOver_steady (s : State) : Steady s (handOver s) := by
  unfold handOver
  dsimp only
  (repeat' split) <;> simp

@[simp] theorem logCheckpoint_steady (s : State) (c : Ckpt) : Steady s (logCheckpoint s c) := ⟨rfl, rfl, rfl, rfl, rfl⟩

@[simp] theorem checkpoint_steady (s : State) (epoch upTo : Nat) (header : Bytes) :
    Steady s (checkpoint s epoch upTo header) := by
  unfold checkpoint
  split <;> simp

@[simp] theorem checkpointDue_steady (s : State) (epoch upTo : Nat) (header : Bytes) :
    Steady s (checkpointDue s epoch upTo header) := by
  simp only [checkpointDue]
  (repeat' split) <;> simp

@[simp] theorem ckptStored_steady (s : State) (c : Ckpt) : Steady s (ckptStored s c) := by
  unfold ckptStored
  dsimp only
  (repeat' split) <;> simp

@[simp] theorem stationSnapshot_steady (s : State) : Steady s (stationSnapshot s) := by
  unfold stationSnapshot
  dsimp only
  (repeat' split) <;> simp

@[simp] theorem snapshotDue_steady (s : State) : Steady s (snapshotDue s) := by
  unfold snapshotDue
  dsimp only
  (repeat' split) <;> simp

@[simp] theorem completeFence_upholds (s : State) (l : Nat) (f : Flight) (epoch : Nat) (uns : Bool) :
    Upholds s (completeFence s l f epoch uns) := by simp +contextual [completeFence]

@[simp] theorem releaseFences_upholds (s : State) (epoch : Nat) (uns : Bool) : Upholds s (releaseFences s epoch uns) := by
  refine foldl_upholds (fun t e => foldl_upholds (fun b f => ?_) _ _) _ _
  split <;> simp +contextual

@[simp] theorem moveLast_steady (s : State) (epoch : Nat) : Steady s (moveLast s epoch) := by
  simp only [moveLast]
  (repeat' split) <;> simp

@[simp] theorem manifestStoredFx_upholds (s : State) (o deltaLen : Nat) : Upholds s (manifestStoredFx s o deltaLen) := by
  unfold manifestStoredFx
  split <;> simp +contextual

@[simp] theorem releaseStored_upholds (s : State) : Upholds s (releaseStored s) := by
  refine foldl_upholds (fun t e => foldl_upholds (fun b f => ?_) _ _) _ _
  split <;> simp +contextual

@[simp] theorem wearStaging_steady (s : State) (n : Nat) : Steady s (wearStaging s n) := by simp [wearStaging]

@[simp] theorem storeWrite_upholds (s : State) (w : StagingWrite) (r : List StagingWrite) : Upholds s (storeWrite s w r) := by
  unfold storeWrite
  dsimp only
  (repeat' split) <;> simp +contextual

@[simp] theorem verifyStaging_upholds (s : State) : Upholds s (verifyStaging s) := by
  simp only [verifyStaging]
  (repeat' split) <;> simp +contextual

@[simp] theorem verifyN_upholds (n : Nat) (s : State) : Upholds s (verifyN n s) := by
  induction n generalizing s with
  | zero => exact Upholds.refl s
  | succ n ih => exact (verifyStaging_upholds s).trans (ih _)

@[simp] theorem verifyAll_upholds (s : State) : Upholds s (verifyAll s) := by simp +contextual [verifyAll]

@[simp] theorem acceptRebuild_upholds (s : State) : Upholds s (acceptRebuild s) := by simp +contextual [acceptRebuild]

@[simp] theorem restartTree_upholds (s : State) : Upholds s (restartTree s) := by simp +contextual [restartTree]

@[simp] theorem listsFault_steady (s : State) : Steady s (listsFault s) := by simp [listsFault]

@[simp] theorem finishRebuild_upholds (s : State) : Upholds s (finishRebuild s) := by
  simp only [finishRebuild]
  (repeat' split) <;> simp +contextual

@[simp] theorem soundTree_upholds (s : State) : Upholds s (soundTree s) := by
  unfold soundTree
  split <;> simp +contextual

@[simp] theorem finishJob_upholds (s : State) : Upholds s (finishJob s) := by simp +contextual [finishJob]

@[simp] theorem finishJobs_upholds (n : Nat) (s : State) : Upholds s (finishJobs n s) := by
  induction n generalizing s with
  | zero => exact Upholds.refl s
  | succ n ih =>
    unfold finishJobs
    split
    · exact Upholds.refl s
    · exact (finishJob_upholds s).trans (ih _)

@[simp] theorem closePassed_steady (s : State) : Steady s (closePassed s) := by
  simp only [closePassed]
  (repeat' split) <;> simp

@[simp] theorem sealNow_upholds (s : State) (flags : Byte) (condemned : Bool) : Upholds s (sealNow s flags condemned) := by
  unfold sealNow
  split
  · exact Upholds.refl s
  · extract_lets passed ahead closed finished
    have hpassed : Upholds s passed := by simp +contextual [passed]
    have hahead : Upholds passed ahead := by simp +contextual [ahead]
    have hclosed : Upholds ahead closed := by simp +contextual [closed]
    have hfinished : Upholds closed finished := by simp +contextual [finished]
    refine hpassed.trans (hahead.trans (hclosed.trans (hfinished.trans ?_)))
    split <;> simp +contextual

/-! ### The radio -/

@[simp] theorem hop_steady (s : State) : Steady s (hop s) := by
  unfold hop
  split <;> simp

@[simp] theorem transmit_steady (s : State) (power : Nat) (l : List AirCommand) :
    Steady s (transmit s power l) := ⟨rfl, rfl, rfl, rfl, rfl⟩

@[simp] theorem markGasp_steady (s : State) (l id : Nat) : Steady s (markGasp s l id) := ⟨rfl, rfl, rfl, rfl, rfl⟩

@[simp] theorem stopInventory_upholds (s : State) (status : Nat) (gasp : Bool) : Upholds s (stopInventory s status gasp) := by
  unfold stopInventory
  dsimp only
  (repeat' split) <;> simp +contextual

@[simp] theorem faultRf_upholds (s : State) : Upholds s (faultRf s) := by simp +contextual [faultRf]

@[simp] theorem lkoResult_steady (s : State) (st : Nat) : Steady s (lkoResult s st) := ⟨rfl, rfl, rfl, rfl, rfl⟩

@[simp] theorem loopback_steady (s : State) : Steady s (loopback s) := ⟨rfl, rfl, rfl, rfl, rfl⟩

@[simp] theorem askSelf_steady (s : State) (answers : List TagObs) : Steady s (askSelf s answers).1 := by
  unfold askSelf
  dsimp only
  (repeat' split) <;> simp

@[simp] theorem endSelfTest_steady (s : State) (st : Nat) : Steady s (endSelfTest s st) := by simp [endSelfTest]

@[simp] theorem runSelfTest_upholds (s : State) (gamma : Byte) (answers : List TagObs) :
    Upholds s (runSelfTest s gamma answers) := by
  unfold runSelfTest
  dsimp only
  (repeat' split) <;> simp +contextual

@[simp] theorem runWaiting_upholds (s : State) : Upholds s (runWaiting s) := by
  simp only [runWaiting]
  (repeat' split) <;> simp +contextual

@[simp] theorem endInventory_upholds (s : State) (status : Nat) :
    Upholds s (endInventory s status) := by simp +contextual [endInventory]

@[simp] theorem selfDue_steady (s : State) (m : Mode) : Steady s (selfDue s m) := by
  unfold selfDue
  split <;> simp

/-! ### Modes and trips -/

@[simp] theorem closeDebug_upholds (s : State) : Upholds s (closeDebug s) := by
  refine ⟨⟨rfl, rfl⟩, fun _ => id, id, fun h => ?_⟩
  exact worldsOk_ofFn (fun n => (h.get n n.isLt).resumeCore _ _ _ _)

@[simp] theorem undoStructural_steady (s : State) (p : BtrPending) : Steady s (undoStructural s p) := by
  simp only [undoStructural]
  (repeat' split) <;> simp

@[simp] theorem endBtr_upholds (s : State) (status reason : Nat) : Upholds s (endBtr s status reason) := by
  unfold endBtr
  dsimp only
  (repeat' split) <;> simp +contextual

@[simp] theorem leaveCommissioning_upholds (s : State) : Upholds s (leaveCommissioning s) := by
  unfold leaveCommissioning
  dsimp only
  (repeat' split) <;> simp +contextual

@[simp] theorem changeMode_upholds (s : State) (m : Mode) (reason : Nat) : Upholds s (changeMode s m reason) := by
  unfold changeMode
  extract_lets was stays left sealed told asked entered vig queued noted ended
  have hleft : Upholds s left := by
    simp only [left]
    split
    · exact leaveCommissioning_upholds s
    · exact Upholds.refl s
  have hsealed : Upholds left sealed := by
    simp only [sealed]
    split <;> simp +contextual
  have htold : Upholds sealed told := by
    simp only [told]
    split <;> simp +contextual
  have hentered : Upholds told entered := by
    simp +contextual [entered, asked]
  have hqueued : Upholds entered queued := by
    simp only [queued, vig]
    split <;> simp +contextual
  have hnoted : Upholds queued noted := by
    simp only [noted]
    (repeat' split) <;> simp +contextual
  have hended : Upholds noted ended := by
    simp only [ended]
    split <;> simp +contextual
  refine hleft.trans (hsealed.trans (htold.trans (hentered.trans (hqueued.trans (hnoted.trans (hended.trans ?_))))))
  split <;> simp +contextual

@[simp] theorem enterCaution_upholds (s : State) : Upholds s (enterCaution s) := by
  unfold enterCaution
  split <;> simp +contextual

@[simp] theorem endDerivations_upholds (s : State) : Upholds s (endDerivations s) := by
  unfold endDerivations
  refine foldl_upholds (fun t e => ?_) _ _
  (repeat' split) <;> simp +contextual

@[simp] theorem loseTrunk_upholds (s : State) : Upholds s (loseTrunk s) := by
  have hends : Upholds s (endDerivations (endBtr (dropTrunk s) 0x06 1)) := by simp +contextual
  unfold loseTrunk
  dsimp only
  refine hends.trans ?_
  split <;> simp +contextual

@[simp] theorem leaveTracks_upholds (s : State) : Upholds s (leaveTracks s) := by
  unfold leaveTracks
  refine foldl_upholds (fun t e => ?_) _ _
  (repeat' split) <;> simp +contextual

@[simp] theorem setTier_upholds (s : State) (t : Nat) : Upholds s (setTier s t) := by
  unfold setTier
  dsimp only
  (repeat' split) <;> simp +contextual

@[simp] theorem powerFloor_upholds (s : State) (mw : Nat) : Upholds s (powerFloor s mw) := by
  simp only [powerFloor]
  (repeat' split) <;> simp +contextual

@[simp] theorem setReady_steady (s : State) : Steady s (setReady s) := by
  unfold setReady
  split <;> simp

@[simp] theorem leaveShed_upholds (s : State) : Upholds s (leaveShed s) := by
  unfold leaveShed
  dsimp only
  (repeat' split) <;> simp +contextual

@[simp] theorem retryEntry_upholds (s : State) : Upholds s (retryEntry s) := by
  unfold retryEntry
  split <;> simp +contextual

@[simp] theorem keepRegs_steady (old new_ : State) (link : Bool) : Steady new_ (keepRegs old new_ link) :=
  foldl_steady (fun t _ => setR_steady t _ _) _ new_

@[simp] theorem loadSealLast_steady (t : State) : Steady t (loadSealLast t) := by
  unfold loadSealLast
  split <;> simp

@[simp] theorem finishProgram_steady (s : State) : Steady s (finishProgram s) := by
  unfold finishProgram
  split <;> simp

@[simp] theorem suspectErase_steady (old s : State) : Steady s (suspectErase old s) := by
  unfold suspectErase
  split <;> simp

@[simp] theorem recoverStripe_steady (old s : State) : Steady s (recoverStripe old s) := by
  unfold recoverStripe
  split <;> simp

@[simp] theorem clearedState_upholds (s : State) (causes : Nat) (link : Bool) : Upholds s (clearedState s causes link) := by
  have hpending : (finishProgram s).pending = s.pending ∧ (finishProgram s).fusesOk = s.fusesOk ∧ (finishProgram s).ttc = s.ttc := by
    simp
  obtain ⟨h1, h2, h3⟩ := hpending
  exact ⟨⟨h1, h2⟩, fun n hn => (congrArg (reached n) h3).trans hn, fun _ => rfl, fun _ => worldsOk_reset⟩

@[simp] theorem showTier_steady (s : State) (t : Nat) : Steady s (showTier s t) := ⟨rfl, rfl, rfl, rfl, rfl⟩

@[simp] theorem deviceReset_upholds (s : State) (causes : Nat) (link : Bool) : Upholds s (deviceReset s causes link) := by
  unfold deviceReset
  dsimp only
  (repeat' split) <;> simp +contextual

@[simp] theorem deferReset_steady (s : State) (causes : Nat) : Steady s (deferReset s causes) := ⟨rfl, rfl, rfl, rfl, rfl⟩

@[simp] theorem abruptReset_upholds (s : State) (causes : Nat) : Upholds s (abruptReset s causes) := by
  unfold abruptReset
  split <;> simp +contextual

@[simp] theorem requestedReset_upholds (s : State) : Upholds s (requestedReset s) := by
  simp only [requestedReset]
  (repeat' split) <;> simp +contextual

/-! ### Exports -/

@[simp] theorem refuse_steady (s : State) (status : Nat) : Steady s (refuse s status).state := ⟨rfl, rfl, rfl, rfl, rfl⟩

@[simp] theorem output_steady (s : State) (addr : Nat) (b result : Bytes) :
    Steady s (output s addr b result).state := ⟨rfl, rfl, rfl, rfl, rfl⟩

@[simp] theorem noteLost_steady (s : State) (lost : Bool) : Steady s (noteLost s lost) := by
  unfold noteLost
  split <;> simp

@[simp] theorem readFrames_steady (s : State) (cursor : Nat) (bad : List Nat) :
    Steady s (readFrames s cursor bad) := ⟨rfl, rfl, rfl, rfl, rfl⟩

@[simp] theorem exportReply_steady (s : State) (raw : Bytes) (bad : List Nat) : Steady s (exportReply s raw bad).state := by
  unfold exportReply
  split <;> simp

@[simp] theorem clearFull_steady (s : State) : Steady s (clearFull s) := by
  unfold clearFull
  dsimp only
  (repeat' split) <;> simp

@[simp] theorem settleMark_steady (s : State) : Steady s (settleMark s) := by
  unfold settleMark
  split <;> simp

@[simp] theorem usbSay_steady (s : State) (b : Bytes) : Steady s (usbSay s b) := ⟨rfl, rfl, rfl, rfl, rfl⟩

@[simp] theorem usbCompletion_steady (s : State) (w : Bytes) (r : Reply) (gasp : Bool) :
    Steady r.state (usbCompletion s w r gasp) :=
  (foldl_steady (fun t (e : DWord × Bytes) => usbSay_steady t e.2) _ r.state).trans (usbSay_steady _ _)

@[simp] theorem usbExport_steady (s : State) (w : Bytes) (bad : List Nat) : Steady s (usbExport s w bad) := by simp [usbExport]

@[simp] theorem serveUsb_steady (l : List (Nat × Bytes × List Nat)) (s : State) : Steady s (serveUsb l s) := by
  induction l generalizing s with
  | nil => exact Steady.refl s
  | cons e r ih =>
    unfold serveUsb
    split <;> simp [ih]

/-! ### The Lineside unit -/

@[simp] theorem stickyTrip_steady (s : State) (n : Nat) (dets : BitVec 2) (cls : Nat) :
    Steady s (stickyTrip s n dets cls) := ⟨rfl, rfl, rfl, rfl, rfl⟩

@[simp] theorem noteTrip_steady (s : State) (n : Nat) (dets : BitVec 2) (cls : Nat) :
    Steady s (noteTrip s n dets cls) := by simp [noteTrip]

@[simp] theorem noteReset_steady (s : State) (n : Nat) : Steady s (noteReset s n) := by
  unfold noteReset
  split <;> simp

@[simp] theorem setHeld_steady (s : State) : Steady s (setHeld s) := ⟨rfl, rfl, rfl, rfl, rfl⟩

@[simp] theorem respondMain_upholds (s : State) (cls : Nat) : Upholds s (respondMain s cls) := by
  unfold respondMain
  dsimp only
  (repeat' split) <;> simp +contextual

@[simp] theorem noteCell_steady (s : State) (n : Nat) (dets : BitVec 2) (cls : Nat) :
    Steady s (noteCell s n dets cls) := ⟨rfl, rfl, rfl, rfl, rfl⟩

@[simp] theorem respondCell_steady (s : State) (cls : Nat) : Steady s (respondCell s cls) := by
  unfold respondCell
  dsimp only
  (repeat' split) <;> simp

@[simp] theorem joinTrip_steady (s : State) (n : Nat) (dets : BitVec 2) :
    Steady s (joinTrip s n dets) := ⟨rfl, rfl, rfl, rfl, rfl⟩

@[simp] theorem noteSource_steady (s : State) (n : Nat) (dets : BitVec 2) : Steady s (noteSource s n dets).1 := by
  unfold noteSource
  dsimp only
  (repeat' split) <;> simp

theorem noteSources_steady (l : List (Nat × BitVec 2)) (a : State × Nat) :
    Steady a.1 (l.foldl (fun a e => ((noteSource a.1 e.1 e.2).1, max a.2 (noteSource a.1 e.1 e.2).2)) a).1 := by
  induction l generalizing a with
  | nil => exact Steady.refl a.1
  | cons e r ih => exact (noteSource_steady _ _ _).trans (ih _)

@[simp] theorem tripAll_upholds (s : State) (l : List (Nat × BitVec 2)) : Upholds s (tripAll s l) := by
  have hnoted := (noteSources_steady l (s, 0)).upholds
  unfold tripAll
  dsimp only
  split
  · exact Upholds.refl s
  split
  · exact hnoted.trans (respondMain_upholds _ _)
  · exact hnoted.trans (respondCell_steady _ _).upholds

@[simp] theorem trip_upholds (s : State) (n : Nat) (dets : BitVec 2) : Upholds s (trip s n dets) := by simp +contextual [trip]

@[simp] theorem applyTrips_upholds (s : State) : Upholds s (applyTrips s) := by
  unfold applyTrips
  split <;> simp +contextual

@[simp] theorem checkTracks_upholds (s : State) : Upholds s (checkTracks s) := by
  unfold checkTracks
  dsimp only
  (repeat' split) <;> simp +contextual

@[simp] theorem afterRounds_upholds (n : Nat) (s : State) : Upholds s (afterRounds n s) := by
  induction n generalizing s with
  | zero => exact Steady.upholds ⟨rfl, rfl, rfl, rfl, rfl⟩
  | succ n ih =>
    have hround : Upholds s (checkTracks (applyTrips s)) := (applyTrips_upholds s).trans (checkTracks_upholds _)
    unfold afterRounds
    dsimp only
    split
    · exact hround
    · exact hround.trans (ih _)

@[simp] theorem after_upholds (s : State) : Upholds s (after s) := by simp +contextual [after]

/-- A meaning completes with a state that upholds the four. -/
def Completes (s : State) (o : Out) : Prop := ∃ t, o = .next t ∧ Upholds s t

theorem completes_next {s t : State} (h : Upholds s t) : Completes s (.next t) := ⟨t, rfl, h⟩

theorem completes_done {s t : State} (h : Upholds s t) : Completes s (done t) := ⟨after t, rfl, h.trans (after_upholds t)⟩

@[simp] theorem mend_steady (s : State) (a : Nat) : Steady s (mend s a) := by
  unfold mend
  split <;> simp

theorem writeOut_completes (s : State) (m : Master) (a : Nat) (whole : Bool) (f : State → State) (hf : ∀ t, Upholds t (f t)) :
    Completes s (writeOut s m a whole f) := by
  unfold writeOut
  split
  · exact completes_next (Upholds.refl s)
  split
  · exact completes_done (failAccess_steady _ _ _ _).upholds
  split
  · exact completes_next (orR_steady _ _ _).upholds
  split
  · exact completes_done (failSeal_steady _ _ _).upholds
  · exact completes_next ((mend_steady s a).upholds.trans (hf _))

theorem execLinesideTrip_completes (src : BitVec 7) (det : BitVec 2) (s : State) :
    Completes s (execLinesideTrip src det s) := by
  unfold execLinesideTrip
  exact completes_done (by simp +contextual)

theorem execDetectorSplit_completes (src : BitVec 7) (s : State) : Completes s (execDetectorSplit src s) := by
  unfold execDetectorSplit
  refine completes_done ?_
  (repeat' split) <;> simp +contextual

theorem execSourceDeassert_completes (src : BitVec 7) (s : State) : Completes s (execSourceDeassert src s) := by
  unfold execSourceDeassert
  exact completes_next (by simp +contextual)

@[simp] theorem lsmErr_steady (s : State) (b : Nat) : Steady s (lsmErr s b) := ⟨rfl, rfl, rfl, rfl, rfl⟩

@[simp] theorem clearSource_steady (s : State) (n : Nat) : Steady s (clearSource s n) := ⟨rfl, rfl, rfl, rfl, rfl⟩

@[simp] theorem clearSticky_steady (s : State) (n : Nat) (ones : Word) : Steady s (clearSticky s n ones) := by
  have hcleared (l : List Nat) : Steady s (l.foldl clearSource s) := foldl_steady clearSource_steady l s
  unfold clearSticky
  dsimp only
  split
  · simp
  split
  · exact Steady.refl s
  · simp [hcleared]

theorem execStickyClear_completes (m : Master) (n : BitVec 2) (ones : Word) (s : State) :
    Completes s (execStickyClear m n ones s) := by
  unfold execStickyClear
  exact completes_done (by simp +contextual)

@[simp] theorem raiseClass_steady (s : State) (src new_ set : Nat) : Steady s (raiseClass s src new_ set).1 := by
  unfold raiseClass
  dsimp only
  (repeat' split) <;> simp

theorem raiseClasses_steady (first : Nat) (v : Word) (l : List Nat) (a : State × Nat) :
    Steady a.1 (l.foldl (fun a k => raiseClass a.1 (first + k) (bitsOf v (2 * k) 2) a.2) a).1 := by
  induction l generalizing a with
  | nil => exact Steady.refl a.1
  | cons k r ih => exact (raiseClass_steady _ _ _ _).trans (ih _)

@[simp] theorem writeClass_steady (s : State) (n : Nat) (hi : Bool) (v : Word) : Steady s (writeClass s n hi v) := by
  have hraised (first : Nat) := raiseClasses_steady first v (List.range 16) (s, (sstGet s (10 + n)).toNat)
  unfold writeClass
  extract_lets base old raised
  split
  · simp
  split
  · simp
  split
  · exact hraised _
  · exact (hraised _).trans (sstStore_steady _ _ _)

theorem execClassWrite_completes (m : Master) (n : BitVec 2) (hi : Bool) (v : Word) (s : State) :
    Completes s (execClassWrite m n hi v s) := by
  unfold execClassWrite
  exact completes_done (by simp +contextual)

@[simp] theorem startTest_steady (s : State) (src : Nat) (det : Bool) : Steady s (startTest s src det) := by
  unfold startTest
  dsimp only
  (repeat' split) <;> simp

theorem execLsmTestStart_completes (m : Master) (src : BitVec 7) (det : Bool) (s : State) :
    Completes s (execLsmTestStart m src det s) := by
  unfold execLsmTestStart
  exact completes_done (by simp +contextual)

theorem execLsmTestDone_completes (tripped : Bool) (s : State) : Completes s (execLsmTestDone tripped s) := by
  unfold execLsmTestDone
  split
  · exact completes_next (by simp)
  · refine completes_done ?_
    (repeat' split) <;> simp +contextual

@[simp] theorem presentResult_steady (s : State) (badge ok : Bool) (person : Byte) :
    Steady s (presentResult s badge ok person) := by
  unfold presentResult
  split <;> simp

@[simp] theorem setReason_steady (s : State) (r : Nat) : Steady s (setReason s r) := ⟨rfl, rfl, rfl, rfl, rfl⟩

@[simp] theorem armRelease_steady (s : State) (m : Master) : Steady s (armRelease s m) := by
  unfold armRelease
  dsimp only
  (repeat' split) <;> simp

theorem execReleaseArm_completes (m : Master) (s : State) : Completes s (execReleaseArm m s) := by
  unfold execReleaseArm
  exact completes_done (by simp +contextual)

@[simp] theorem acceptRelease_upholds (s : State) : Upholds s (acceptRelease s) := by simp +contextual [acceptRelease]

@[simp] theorem commitRelease_upholds (s : State) (m : Master) : Upholds s (commitRelease s m) := by
  unfold commitRelease
  dsimp only
  (repeat' split) <;> simp +contextual

theorem execReleaseCommit_completes (m : Master) (s : State) : Completes s (execReleaseCommit m s) := by
  unfold execReleaseCommit
  exact completes_done (by simp +contextual)

theorem execReleaseAbort_completes (m : Master) (s : State) : Completes s (execReleaseAbort m s) := by
  unfold execReleaseAbort
  exact completes_done (by simp +contextual)

theorem execReleaseWindowExpiry_completes (s : State) : Completes s (execReleaseWindowExpiry s) := by
  unfold execReleaseWindowExpiry
  refine completes_next ?_
  (repeat' split) <;> simp +contextual

end Sys2Proof.Invariants
end

section
/-! PROOF. The commands of the host link, of lines, tracks and epochs, of the branch tree and of service waybills keep the four. -/

namespace Sys2Proof.Invariants

open Sys2Proof.Machine

/-! ### Commands of lines -/

@[simp] theorem dropDoorbell_steady (s : State) (bits : Word) : Steady s (dropDoorbell s bits) := by simp [dropDoorbell]

@[simp] theorem rejectDoorbell_steady (s : State) (l : Nat) (ring : Bool) (reason : Nat) :
    Steady s (rejectDoorbell s l ring reason) := by simp [rejectDoorbell]

@[simp] theorem takeDoorbell_steady (s : State) (l : Nat) (ring : Bool) (i : Nat) : Steady s (takeDoorbell s l ring i) := by
  unfold takeDoorbell
  dsimp only
  (repeat' split) <;> simp

@[simp] theorem doorbellWrite_steady (s : State) (off : Nat) (whole : Bool) (v : DWord) :
    Steady s (doorbellWrite s off whole v) := by
  simp only [doorbellWrite]
  (repeat' split) <;> simp

theorem execDoorbell_completes (off : BitVec 12) (whole : Bool) (v : DWord) (s : State) :
    Completes s (execDoorbell off whole v s) := by
  unfold execDoorbell
  exact completes_next (by simp +contextual)

@[simp] theorem humpGrant_steady (s : State) (c used l : Nat) : Steady s (humpGrant s c used l) := ⟨rfl, rfl, rfl, rfl, rfl⟩

@[simp] theorem notePeaks_steady (s : State) : Steady s (notePeaks s) := by
  unfold notePeaks
  dsimp only
  (repeat' split) <;> simp

@[simp] theorem passEntry_steady (s : State) (l : Nat) : Steady s (passEntry s l) := ⟨rfl, rfl, rfl, rfl, rfl⟩

@[simp] theorem putFlight_steady (s : State) (l : Nat) (f : Flight) : Steady s (putFlight s l f) := by simp [putFlight]

@[simp] theorem admitData_upholds (s : State) (l : Nat) (f : Flight) : Upholds s (admitData s l f) := by
  unfold admitData
  split <;> simp +contextual

@[simp] theorem enterData_upholds (s : State) (l : Nat) (f : Flight) (st : Nat) : Upholds s (enterData s l f st) := by
  unfold enterData
  split <;> simp +contextual

@[simp] theorem refuseControl_steady (s : State) (f : Flight) (st : Nat) : Steady s (refuseControl s f st) := by
  unfold refuseControl
  dsimp only
  (repeat' split) <;> simp

@[simp] theorem enterService_upholds (s : State) (l : Nat) (f : Flight) (st : Nat) : Upholds s (enterService s l f st) := by
  simp only [enterService]
  (repeat' split) <;> simp +contextual

@[simp] theorem admitEntry_upholds (s : State) (l : Nat) (raw : Bytes) : Upholds s (admitEntry s l raw) := by
  unfold admitEntry
  dsimp only
  (repeat' split) <;> simp +contextual

@[simp] theorem humpAdmit_upholds (s : State) (l : Nat) (entry : Bytes) : Upholds s (humpAdmit s l entry) := by
  unfold humpAdmit
  dsimp only
  (repeat' split) <;> simp +contextual

theorem execAdmission_completes (line : BitVec 19) (entry : Bytes) (s : State) : Completes s (execAdmission line entry s) := by
  unfold execAdmission
  exact completes_done (by simp +contextual)

theorem execEntryReadRetry_completes (line : BitVec 19) (entry : Bytes) (s : State) :
    Completes s (execEntryReadRetry line entry s) := by
  unfold execEntryReadRetry
  refine completes_done ?_
  (repeat' split) <;> simp +contextual

@[simp] theorem startFills_upholds (s : State) : Upholds s (startFills s) := by
  unfold startFills
  refine foldl_upholds (fun t e => ?_) _ _
  (repeat' split) <;> simp +contextual

@[simp] theorem afterTransfer_upholds (s : State) : Upholds s (afterTransfer s) := by simp +contextual [afterTransfer]

@[simp] theorem fillReturns_upholds (s : State) (l : Nat) (b : Bytes) : Upholds s (fillReturns s l b) := by
  unfold fillReturns
  split
  · exact Upholds.refl s
  split
  · exact (acceptFill_steady s l b).upholds.trans ((retryControl_upholds _ _).trans (afterTransfer_upholds _))
  · exact (faultLine_upholds s l _ _ _).trans ((failControl_upholds _ _ _).trans (afterTransfer_upholds _))

theorem execFillComplete_completes (line : BitVec 19) (b : Bytes) (s : State) : Completes s (execFillComplete line b s) := by
  unfold execFillComplete
  exact completes_done (by simp +contextual)

@[simp] theorem spillGone_steady (s : State) (l : Nat) : Steady s (spillGone s l) := ⟨rfl, rfl, rfl, rfl, rfl⟩

@[simp] theorem spillLeaves_upholds (s : State) (l : Nat) : Upholds s (spillLeaves s l) := by
  unfold spillLeaves
  dsimp only
  (repeat' split) <;> simp +contextual

theorem execSpillDeparted_completes (line : BitVec 19) (s : State) : Completes s (execSpillDeparted line s) := by
  unfold execSpillDeparted
  exact completes_done (by simp +contextual)

theorem execIndexMirrorWrite_completes (line : BitVec 19) (s : State) : Completes s (execIndexMirrorWrite line s) := by
  unfold execIndexMirrorWrite
  split
  · exact completes_next (Upholds.refl s)
  split
  · exact completes_done (sealFault_steady s _).upholds
  · exact completes_next (writeMirror_steady s _).upholds

theorem execLineOpen_completes (pos : Nat) (head : Bytes) (s : State) : Completes s (execLineOpen pos head s) := by
  unfold execLineOpen
  split
  · refine completes_done ?_
    (repeat' split) <;> simp +contextual
  · exact completes_next (by simp)

theorem execLinePause_completes (pos : Nat) (s : State) : Completes s (execLinePause pos s) := by
  unfold execLinePause
  split
  · refine completes_done ?_
    (repeat' split) <;> simp +contextual
  · exact completes_next (by simp)

theorem execLinePauseComplete_completes (target : BitVec 19) (s : State) : Completes s (execLinePauseComplete target s) := by
  unfold execLinePauseComplete
  dsimp only
  split
  · exact completes_next (Upholds.refl s)
  · refine completes_done (Steady.upholds ?_)
    split <;> simp

theorem execLineClose_completes (pos : Nat) (s : State) : Completes s (execLineClose pos s) := by
  unfold execLineClose
  split
  · refine completes_done ?_
    (repeat' split) <;> simp +contextual
  · exact completes_next (by simp)

/-! ### Commands of the host link -/

@[simp] theorem releaseHeld_steady (s : State) : Steady s (releaseHeld s) := by
  unfold releaseHeld
  refine foldl_steady (fun t e => ?_) _ _
  (repeat' split) <;> simp

@[simp] theorem sendPending_steady (s : State) : Steady s (sendPending s) := ⟨rfl, rfl, rfl, rfl, rfl⟩

@[simp] theorem trainLink_steady (s : State) (cfg : BitVec 2) : Steady s (trainLink s cfg) := by simp [trainLink]

theorem execLinkUp_completes (cfg : BitVec 2) (s : State) : Completes s (execLinkUp cfg s) := by
  unfold execLinkUp
  refine completes_done ?_
  (repeat' split) <;> simp +contextual

@[simp] theorem loseLink_steady (s : State) : Steady s (loseLink s) := by
  unfold loseLink
  split <;> simp

theorem execLinkLoss_completes (s : State) : Completes s (execLinkLoss s) := by
  unfold execLinkLoss
  exact completes_next (by simp +contextual)

theorem execLinkRetrain_completes (cfg : BitVec 2) (s : State) : Completes s (execLinkRetrain cfg s) := by
  unfold execLinkRetrain
  refine completes_done ?_
  (repeat' split) <;> simp +contextual

@[simp] theorem dropSession_steady (s : State) : Steady s (dropSession s) := by
  unfold dropSession
  exact Steady.trans (by simp) (foldl_steady turnHalves_steady _ _)

theorem execGraceExpiry_completes (s : State) : Completes s (execGraceExpiry s) := by
  unfold execGraceExpiry
  refine completes_done ?_
  (repeat' split) <;> simp +contextual

@[simp] theorem maskVectors_steady (s : State) : Steady s (maskVectors s) := by simp [maskVectors]

theorem execHotReset_completes (s : State) : Completes s (execHotReset s) := by
  unfold execHotReset
  refine completes_done ?_
  (repeat' split) <;> simp +contextual

theorem execFlr_completes (s : State) : Completes s (execFlr s) := by
  unfold execFlr
  refine completes_done ?_
  (repeat' split) <;> simp +contextual

theorem execDeviceReset_completes (m : Master) (s : State) : Completes s (execDeviceReset m s) := by
  unfold execDeviceReset
  exact completes_done (by simp +contextual)

@[simp] theorem cfgLocked_steady (s : State) : Steady s (cfgLocked s) := ⟨rfl, rfl, rfl, rfl, rfl⟩

@[simp] theorem writeSetup_steady (s : State) (r : SetupReg) (h : Half) (v : DWord) : Steady s (writeSetup s r h v) := by
  unfold writeSetup
  split <;> simp

theorem execSetupBaseWrite_completes (m : Master) (r : SetupReg) (h : Half) (v : DWord) (s : State) :
    Completes s (execSetupBaseWrite m r h v s) :=
  writeOut_completes s m _ _ _ (fun t => (writeSetup_steady t r h v).upholds)

@[simp] theorem openControl_steady (s : State) (v : Word) : Steady s (openControl s v) := by
  unfold openControl
  dsimp only
  (repeat' split) <;> simp

theorem execControlLineOpen_completes (m : Master) (v : Word) (s : State) : Completes s (execControlLineOpen m v s) :=
  writeOut_completes s m _ _ _ (fun t => (openControl_steady t v).upholds)

@[simp] theorem closeControl_steady (s : State) (v : Word) : Steady s (closeControl s v) := by
  unfold closeControl
  dsimp only
  (repeat' split) <;> simp

theorem execControlLineClose_completes (m : Master) (v : Word) (s : State) : Completes s (execControlLineClose m v s) :=
  writeOut_completes s m _ _ _ (fun t => (closeControl_steady t v).upholds)

theorem execWindowCWrite_completes (_off : BitVec 16) (_v : DWord) (s : State) : Completes s (execWindowCWrite _off _v s) := by
  unfold execWindowCWrite
  refine completes_next ?_
  (repeat' split) <;> simp +contextual

@[simp] theorem unmaskVector_steady (vector : BitVec 11) (s : State) : Steady s (unmaskVector vector s) := by
  unfold unmaskVector
  dsimp only
  (repeat' split) <;> simp

theorem execMsixUnmask_completes (vector : BitVec 11) (s : State) : Completes s (execMsixUnmask vector s) := by
  unfold execMsixUnmask
  exact completes_done (by simp +contextual)

theorem execStatusRequest_completes (s : State) : Completes s (execStatusRequest s) := by
  unfold execStatusRequest
  refine completes_next ?_
  (repeat' split) <;> simp +contextual

/-! ### Commands of tracks -/

@[simp] theorem readKey_steady (s : State) (l : Nat) (key : Bytes) : Steady s (readKey s l key) := ⟨rfl, rfl, rfl, rfl, rfl⟩

@[simp] theorem deriveLineKey_upholds (s : State) (l : Nat) (f : Flight) : Upholds s (deriveLineKey s l f) := by
  unfold deriveLineKey
  dsimp only
  (repeat' split) <;> simp +contextual

@[simp] theorem withKey_upholds (s : State) (l : Nat) : Upholds s (withKey s l) := by
  unfold withKey
  split <;> simp +contextual

theorem completes_goOn {s t : State} (h : Upholds s t) : Completes s (goOn t) :=
  completes_done (h.trans (stampAll_steady t).upholds)

theorem execKeyWaitTimeout_completes (line : BitVec 19) (s : State) : Completes s (execKeyWaitTimeout line s) := by
  unfold execKeyWaitTimeout
  split
  · exact completes_done (by simp +contextual)
  · exact completes_next (by simp)

theorem execLineKeyDerived_completes (line : BitVec 19) (s : State) : Completes s (execLineKeyDerived line s) := by
  unfold execLineKeyDerived
  split
  · exact completes_done (by simp +contextual)
  · exact completes_next (by simp)

@[simp] theorem fetched_steady (s : State) (l : Nat) (records : Bytes) : Steady s (fetched s l records) := by
  simp only [fetched]
  (repeat' split) <;> simp

theorem execConsistFetched_completes (line : BitVec 19) (records : Bytes) (s : State) :
    Completes s (execConsistFetched line records s) := by
  unfold execConsistFetched
  split
  · refine completes_next (Steady.upholds ?_)
    split <;> simp
  · exact completes_next (Upholds.refl s)

theorem execConsistAbsorbed_completes (line : BitVec 19) (expected : Bytes) (s : State) :
    Completes s (execConsistAbsorbed line expected s) := by
  unfold execConsistAbsorbed
  split
  · split
    · exact completes_goOn (absorb_upholds s _ _ _)
    · exact completes_next (Upholds.refl s)
  · exact completes_next (Upholds.refl s)

@[simp] theorem stampHead_upholds (s : State) (l op : Nat) (records : Bytes) : Upholds s (stampHead s l op records) := by
  unfold stampHead
  dsimp only
  (repeat' split) <;> simp +contextual

@[simp] theorem runData_upholds (s : State) (l op : Nat) (records expected : Bytes) :
    Upholds s (runData s l op records expected) := by
  unfold runData
  dsimp only
  (repeat' split) <;> simp +contextual

theorem execTagConsist_completes (line : BitVec 19) (records : Bytes) (s : State) :
    Completes s (execTagConsist line records s) := by
  unfold execTagConsist
  exact completes_done (by simp +contextual)

theorem execTagRecords_completes (line : BitVec 19) (records : Bytes) (s : State) :
    Completes s (execTagRecords line records s) := by
  unfold execTagRecords
  exact completes_done (by simp +contextual)

theorem execVerifyConsist_completes (line : BitVec 19) (records : Bytes) (s : State) :
    Completes s (execVerifyConsist line records s) := by
  unfold execVerifyConsist
  exact completes_done (by simp +contextual)

theorem execVerifyRecords_completes (line : BitVec 19) (records expected : Bytes) (s : State) :
    Completes s (execVerifyRecords line records expected s) := by
  unfold execVerifyRecords
  exact completes_done (by simp +contextual)

theorem execMark_completes (line : BitVec 19) (s : State) : Completes s (execMark line s) := by
  unfold execMark
  exact completes_done (by simp +contextual)

@[simp] theorem fenceWith_upholds (s : State) (l : Nat) (c : Machine.Context) (f : Flight) : Upholds s (fenceWith s l c f) := by
  unfold fenceWith
  split <;> simp +contextual

@[simp] theorem fenceNow_upholds (s : State) (l : Nat) (f : Flight) : Upholds s (fenceNow s l f) := by
  simp only [fenceNow]
  (repeat' split) <;> simp +contextual

@[simp] theorem runFence_upholds (s : State) (l : Nat) : Upholds s (runFence s l) := by
  unfold runFence
  dsimp only
  (repeat' split) <;> simp +contextual

theorem execFence_completes (line : BitVec 19) (s : State) : Completes s (execFence line s) := by
  unfold execFence
  split
  · refine completes_done ?_
    (repeat' split) <;> simp +contextual
  · exact completes_next (by simp)

@[simp] theorem selfTestTrack_upholds (s : State) (t : Nat) (pass : Bool) : Upholds s (selfTestTrack s t pass) := by
  unfold selfTestTrack
  dsimp only
  (repeat' split) <;> simp +contextual

theorem execTrackSelfTest_completes (t : BitVec 3) (pass : Bool) (s : State) : Completes s (execTrackSelfTest t pass s) := by
  unfold execTrackSelfTest
  exact completes_done (by simp +contextual)

@[simp] theorem fenceByFirmware_upholds (s : State) (t : Nat) : Upholds s (fenceByFirmware s t) := by
  unfold fenceByFirmware
  dsimp only
  (repeat' split) <;> simp +contextual

theorem execTrackFence_completes (m : Master) (bits : BitVec 8) (s : State) : Completes s (execTrackFence m bits s) :=
  completes_done (guardedWrite_upholds s m _ _ (fun t => foldl_upholds fenceByFirmware_upholds _ t))

theorem execCreditAccount_completes (t : BitVec 3) (micros : Nat) (s : State) : Completes s (execCreditAccount t micros s) := by
  unfold execCreditAccount
  refine completes_next ?_
  (repeat' split) <;> simp +contextual

/-! ### Commands of epochs -/

theorem execVigilCountRewrite_completes (s : State) : Completes s (execVigilCountRewrite s) := by
  unfold execVigilCountRewrite
  refine completes_next ?_
  (repeat' split) <;> simp +contextual

@[simp] theorem advanceTtc_upholds (s : State) (v : DWord) : Upholds s (advanceTtc s v) := by
  unfold advanceTtc
  split
  · next h =>
    have hlater : s.ttc.toNat < v.toNat := by
      simp only [Bool.and_eq_true, decide_eq_true_eq] at h
      exact h.2
    have hset : Upholds s { s with ttc := v } := ⟨⟨rfl, rfl⟩, fun n hn => (reached_iff n v).2 (((reached_iff n _).1 hn).trans hlater.le), id, id⟩
    exact hset.trans (by simp)
  · simp

@[simp] theorem writeAdvance_upholds (s : State) (h : Half) (v : DWord) : Upholds s (writeAdvance s h v) := by
  unfold writeAdvance
  split <;> simp +contextual

theorem execTtcAdvance_completes (m : Master) (h : Half) (v : DWord) (s : State) : Completes s (execTtcAdvance m h v s) :=
  writeOut_completes s m _ _ _ (fun t => writeAdvance_upholds t h v)

theorem execTcxoFailure_completes (s : State) : Completes s (execTcxoFailure s) := by
  have htripped : Upholds s (trip (orR s Reg.TTC_STATUS 1) 70 3) := (orR_steady s _ _).upholds.trans (trip_upholds _ _ _)
  refine completes_done ?_
  dsimp only
  split
  · exact Upholds.refl s
  split
  · exact htripped.trans (changeMode_upholds _ _ _)
  · exact htripped

@[simp] theorem noteRoom_upholds (s : State) : Upholds s (noteRoom s) := by
  unfold noteRoom
  split <;> simp +contextual

@[simp] theorem noteLog_upholds (s : State) : Upholds s (noteLog s) := by simp +contextual [noteLog]

theorem execEpochClose_completes (s : State) : Completes s (execEpochClose s) := by
  unfold execEpochClose
  refine completes_done ?_
  (repeat' split) <;> simp +contextual

@[simp] theorem rootFrozen_steady (s : State) : Steady s (rootFrozen s) := by
  simp only [rootFrozen]
  (repeat' split) <;> simp

theorem execRootFrozen_completes (s : State) : Completes s (execRootFrozen s) := by
  unfold execRootFrozen
  refine completes_done ?_
  (repeat' split) <;> simp +contextual

@[simp] theorem manifestSigned_steady (s : State) : Steady s (manifestSigned s) := by
  simp only [manifestSigned]
  (repeat' split) <;> simp

theorem execManifestSigned_completes (s : State) : Completes s (execManifestSigned s) := by
  unfold execManifestSigned
  refine completes_done ?_
  (repeat' split) <;> simp +contextual

theorem execManifestStored_completes (s : State) : Completes s (execManifestStored s) := by
  unfold execManifestStored
  refine completes_done ?_
  (repeat' split) <;> simp +contextual

theorem execTreeRebuildDone_completes (s : State) : Completes s (execTreeRebuildDone s) := by
  unfold execTreeRebuildDone
  refine completes_done ?_
  (repeat' split) <;> simp +contextual

theorem execStationStale_completes (slot : BitVec 12) (s : State) : Completes s (execStationStale slot s) := by
  unfold execStationStale
  split
  · refine completes_next (Steady.upholds ?_)
    split <;> simp
  · exact completes_next (Upholds.refl s)

theorem execStagingWriteVerified_completes (ok : Bool) (s : State) : Completes s (execStagingWriteVerified ok s) := by
  unfold execStagingWriteVerified
  refine completes_done ?_
  (repeat' split) <;> simp +contextual

theorem execWordlineStripeProgrammed_completes (ok : Bool) (s : State) : Completes s (execWordlineStripeProgrammed ok s) := by
  unfold execWordlineStripeProgrammed
  refine completes_done ?_
  (repeat' split) <;> simp +contextual

/-! ### Hybrid exchanges -/

@[simp] theorem viaMae_steady (s : State) (i : Nat) (w : Option (Nat × Nat)) (r : HybridRequest) (f : State → State) (hf : ∀ t, Steady t (f t)) :
    Steady s (viaMae s i w r f) := by
  unfold viaMae
  split <;> simp [hf]

@[simp] theorem viaMae_upholds (s : State) (i : Nat) (w : Option (Nat × Nat)) (r : HybridRequest) (f : State → State) (hf : ∀ t, Upholds t (f t)) :
    Upholds s (viaMae s i w r f) := by
  unfold viaMae
  split <;> simp +contextual [hf]

@[simp] theorem commitImage_steady (s : State) : Steady s (commitImage s) := by
  unfold commitImage
  dsimp only
  (repeat' split) <;> simp

@[simp] theorem setLevel_steady (s : State) (n : Nat) : Steady s (setLevel s n) := by simp [setLevel]

@[simp] theorem settleLevel_steady (s : State) : Steady s (settleLevel s) := by
  unfold settleLevel
  split <;> simp

@[simp] theorem recordTerminus_steady (s : State) (tId : Bytes) : Steady s (recordTerminus s tId) := by simp [recordTerminus]

@[simp] theorem sealTable_steady (s : State) : Steady s (sealTable s) := ⟨rfl, rfl, rfl, rfl, rfl⟩

@[simp] theorem measureImage_steady (s : State) (t : TableImage) : Steady s (measureImage s t) := ⟨rfl, rfl, rfl, rfl, rfl⟩

@[simp] theorem emptyTable_steady (s : State) : Steady s (emptyTable s) := by simp [emptyTable]

@[simp] theorem imageBad_upholds (s : State) : Upholds s (imageBad s) := by simp +contextual [imageBad]

@[simp] theorem countParents_steady (s : State) : Steady s (countParents s) := ⟨rfl, rfl, rfl, rfl, rfl⟩

@[simp] theorem takeImage_steady (s : State) (t : TableImage) : Steady s (takeImage s t) := by simp [takeImage]

@[simp] theorem rebuildTable_upholds (s : State) : Upholds s (rebuildTable s) := by
  simp only [rebuildTable]
  (repeat' split) <;> simp +contextual

@[simp] theorem builtTable_upholds (s : State) : Upholds s (builtTable s) := by
  unfold builtTable
  split <;> simp +contextual

@[simp] theorem setSealKey_steady (s : State) (v : Word) : Steady s (setSealKey s v) := by simp [setSealKey]

@[simp] theorem installPairing_steady (s : State) (p : BtrPending) : Steady s (installPairing s p) := by
  unfold installPairing
  split <;> simp

@[simp] theorem recordPairing_steady (s : State) (q : Pairing) : Steady s (recordPairing s q) := by
  unfold recordPairing
  split <;> simp

@[simp] theorem structuralEffects_steady (s : State) (p : BtrPending) : Steady s (structuralEffects s p) := by
  unfold structuralEffects
  dsimp only
  (repeat' split) <;> simp

@[simp] theorem endStructural_upholds (s : State) (p : BtrPending) : Upholds s (endStructural s p) := by
  unfold endStructural
  dsimp only
  (repeat' split) <;> simp +contextual

@[simp] theorem structural_upholds (s : State) (p : BtrPending) (image : Bool) : Upholds s (structural s p image) := by
  unfold structural
  dsimp only
  (repeat' split) <;> simp +contextual

@[simp] theorem flushBranch_steady (s : State) (i : Nat) : Steady s (flushBranch s i) := ⟨rfl, rfl, rfl, rfl, rfl⟩

@[simp] theorem setBranch_steady (s : State) (i : Nat) (f : Branch → Branch) :
    Steady s (setBranch s i f) := ⟨rfl, rfl, rfl, rfl, rfl⟩

@[simp] theorem markInvalid_steady (s : State) (i : Nat) : Steady s (markInvalid s i) := ⟨rfl, rfl, rfl, rfl, rfl⟩

/-! ### Commands of the branch tree -/

@[simp] theorem btrCommand_upholds (s : State) (m : Master) (modeOk : State → Bool) (f : State → BtrArgs → State)
    (hf : ∀ t a, Upholds t (f t a)) : Upholds s (btrCommand s m modeOk f) := by
  refine guardedWrite_upholds s m _ _ (fun t => ?_)
  have hcleared := (clearR_steady t Reg.BTR_RESULT 0x80000000).upholds
  dsimp only
  split
  · exact (orR_steady _ _ _).upholds
  split
  · exact hcleared.trans ((builtTable_upholds _).trans (hf _ _))
  · exact hcleared.trans (btrResult_steady _ _ _).upholds

@[simp] theorem btrReserved_steady (s : State) (m : Master) : Steady s (btrReserved s m) := by
  refine guardedWrite_steady s m _ _ (fun t => ?_)
  split <;> simp

@[simp] theorem bufFails_steady (r : Reach) : Steady r.state (bufFails r) := btrResult_steady _ _ _

@[simp] theorem withBuf_steady (s : State) (a : BtrArgs) (n : Nat) (f : State → Bytes → State) (hf : ∀ t b, Steady t (f t b)) :
    Steady s (withBuf s a n f) := by
  have hreach := (reach_steady s a.master .read (bufAddr a) n)
  unfold withBuf
  dsimp only
  split
  · exact hreach.trans (hf _ _)
  · exact hreach.trans (bufFails_steady _)

@[simp] theorem withBuf_upholds (s : State) (a : BtrArgs) (n : Nat) (f : State → Bytes → State) (hf : ∀ t b, Upholds t (f t b)) :
    Upholds s (withBuf s a n f) := by
  have hreach := (reach_steady s a.master .read (bufAddr a) n).upholds
  unfold withBuf
  dsimp only
  split
  · exact hreach.trans (hf _ _)
  · exact hreach.trans (bufFails_steady _).upholds

@[simp] theorem putBuf_upholds (s : State) (a : BtrArgs) (o : Nat) (b : Bytes) (f : State → State)
    (hf : ∀ t, Upholds t (f t)) : Upholds s (putBuf s a o b f) := by
  have hwritten := engineWrite_upholds s a.master (bufAddr a + o) b
  unfold putBuf
  dsimp only
  split
  · exact hwritten.trans (hf _)
  · exact hwritten.trans (bufFails_steady _).upholds

@[simp] theorem withEntry_steady (s : State) (i : Nat) (f : Nat → Branch → State) (hf : ∀ j b, Steady s (f j b)) :
    Steady s (withEntry s i f) := by
  unfold withEntry
  split
  · exact (btrResult_steady _ _ _)
  split
  · exact ((sealFault_steady _ _).trans (btrResult_steady _ _ _))
  · exact hf _ _

@[simp] theorem withEntry_upholds (s : State) (i : Nat) (f : Nat → Branch → State) (hf : ∀ j b, Upholds s (f j b)) :
    Upholds s (withEntry s i f) := by
  unfold withEntry
  split
  · exact (btrResult_steady _ _ _).upholds
  split
  · exact ((sealFault_steady _ _).trans (btrResult_steady _ _ _)).upholds
  · exact hf _ _

@[simp] theorem refuseWorn_steady (s : State) (f : State → State) (hf : ∀ t, Steady t (f t)) : Steady s (refuseWorn s f) := by
  unfold refuseWorn
  split <;> simp [hf]

@[simp] theorem refuseWorn_upholds (s : State) (f : State → State) (hf : ∀ t, Upholds t (f t)) :
    Upholds s (refuseWorn s f) := by
  unfold refuseWorn
  split <;> simp +contextual [hf]

@[simp] theorem enterBranch_upholds (s : State) (op i : Nat) (b : Branch) :
    Upholds s (enterBranch s op i b) := by simp +contextual [enterBranch]

@[simp] theorem deriveCommand_upholds (s : State) (a : BtrArgs) : Upholds s (deriveCommand s a) := by
  refine withBuf_upholds s a 32 _ (fun t label => ?_)
  dsimp only
  (repeat' split) <;> simp +contextual

theorem execBtrDerive_completes (m : Master) (s : State) : Completes s (execBtrDerive m s) := by
  unfold execBtrDerive
  exact completes_done (by simp +contextual)

@[simp] theorem encapsCommand_upholds (peer : Bytes) (s : State) (a : BtrArgs) : Upholds s (encapsCommand peer s a) := by
  refine withBuf_upholds s a 1697 _ (fun t label => ?_)
  dsimp only
  iterate 4
    split
    · exact Steady.upholds (by simp)
  · refine viaMae_upholds t _ _ _ _ (fun u => ?_)
    exact (drawn_steady u 88).upholds.trans (putBuf_upholds _ _ _ _ _ (fun v => enterBranch_upholds v _ _ _))

theorem execInstallEncaps_completes (m : Master) (peer : Bytes) (s : State) : Completes s (execInstallEncaps m peer s) := by
  unfold execInstallEncaps
  exact completes_done (by simp +contextual)

@[simp] theorem decapsCommand_upholds (ct : Bytes) (s : State) (a : BtrArgs) : Upholds s (decapsCommand ct s a) := by
  refine withBuf_upholds s a 1697 _ (fun t label => ?_)
  dsimp only
  iterate 4
    split
    · exact Steady.upholds (by simp)
  · refine viaMae_upholds t _ _ _ _ (fun u => ?_)
    exact (useBranch_steady u _).upholds.trans (enterBranch_upholds _ _ _ _)

theorem execInstallDecaps_completes (m : Master) (ct : Bytes) (s : State) : Completes s (execInstallDecaps m ct s) := by
  unfold execInstallDecaps
  exact completes_done (by simp +contextual)

@[simp] theorem invalidateCommand_upholds (s : State) (a : BtrArgs) : Upholds s (invalidateCommand s a) := by
  refine withEntry_upholds s _ _ (fun i b => ?_)
  split <;> simp +contextual

theorem execInvalidate_completes (m : Master) (s : State) : Completes s (execInvalidate m s) := by
  unfold execInvalidate
  exact completes_done (by simp +contextual)

@[simp] theorem purgeCommand_upholds (s : State) (a : BtrArgs) : Upholds s (purgeCommand s a) := by
  refine withEntry_upholds s _ _ (fun i b => ?_)
  (repeat' split)
  · exact (btrResult_steady _ _ _).upholds
  · exact (btrResult_steady _ _ _).upholds
  · exact refuseWorn_upholds s _ (fun t => structural_upholds { t with branches := mdel t.branches i } _ _)

theorem execPurge_completes (m : Master) (s : State) : Completes s (execPurge m s) := by
  unfold execPurge
  exact completes_done (by simp +contextual)

@[simp] theorem rotateCommand_upholds (s : State) (a : BtrArgs) : Upholds s (rotateCommand s a) := by
  refine withEntry_upholds s _ _ (fun i b => ?_)
  (repeat' split)
  · exact (btrResult_steady _ _ _).upholds
  · exact (btrResult_steady _ _ _).upholds
  · exact refuseWorn_upholds s _ (fun t => Upholds.trans (Steady.upholds (by simp)) (structural_upholds _ _ _))

theorem execRotate_completes (m : Master) (s : State) : Completes s (execRotate m s) := by
  unfold execRotate
  exact completes_done (by simp +contextual)

@[simp] theorem putTrunk_steady (s : State) (k : Bytes) : Steady s (putTrunk s k) := by simp [putTrunk]

@[simp] theorem trunkCreate_steady (s : State) (a : BtrArgs) : Steady s (trunkCreate s a) := by
  unfold trunkCreate
  (repeat' split)
  · simp
  · simp
  · exact refuseWorn_steady s _ (fun t => ⟨rfl, rfl, rfl, rfl, rfl⟩)

@[simp] theorem beforeImage_steady (s : State) (p : BtrPending) : Steady s (beforeImage s p) := by
  unfold beforeImage
  split <;> simp

theorem execTrunkCreate_completes (m : Master) (s : State) : Completes s (execTrunkCreate m s) := by
  unfold execTrunkCreate
  exact completes_done (by simp +contextual)

theorem execTrunkZeroise_completes (m : Master) (s : State) : Completes s (execTrunkZeroise m s) := by
  unfold execTrunkZeroise
  exact completes_done (by simp +contextual)

@[simp] theorem backupCommand_upholds (s : State) (a : BtrArgs) : Upholds s (backupCommand s a) := by
  unfold backupCommand
  dsimp only
  (repeat' split) <;> simp +contextual

theorem execBackup_completes (m : Master) (s : State) : Completes s (execBackup m s) := by
  unfold execBackup
  exact completes_done (by simp +contextual)

@[simp] theorem rescueCommand_upholds (s : State) (a : BtrArgs) : Upholds s (rescueCommand s a) := by
  unfold rescueCommand
  dsimp only
  (repeat' split) <;> simp +contextual

theorem execRescue_completes (m : Master) (s : State) : Completes s (execRescue m s) := by
  unfold execRescue
  exact completes_done (by simp +contextual)

@[simp] theorem releaseWith_upholds (s : State) (a : BtrArgs) (kp blob pub : Bytes) :
    Upholds s (releaseWith s a kp blob pub) := by
  unfold releaseWith
  dsimp only
  (repeat' split) <;> simp +contextual

@[simp] theorem releaseBranch_upholds (s : State) (a : BtrArgs) (i : Nat) (kp blob pub : Bytes) :
    Upholds s (releaseBranch s a i kp blob pub) := by
  unfold releaseBranch
  dsimp only
  (repeat' split) <;> simp +contextual

@[simp] theorem releaseSigned_upholds (s : State) (a : BtrArgs) (blob pub : Bytes) :
    Upholds s (releaseSigned s a blob pub) := by
  unfold releaseSigned
  split <;> simp +contextual

@[simp] theorem releaseCommand_upholds (s : State) (a : BtrArgs) : Upholds s (releaseCommand s a) := by
  refine withBuf_upholds s a 4922 _ (fun t b => ?_)
  dsimp only
  iterate 3
    split
    · exact Steady.upholds (by simp)
  · exact viaMae_upholds t _ _ _ _ (fun u => (countVerify_steady u).upholds.trans (releaseSigned_upholds _ _ _ _))

theorem execRelease_completes (m : Master) (s : State) : Completes s (execRelease m s) := by
  unfold execRelease
  exact completes_done (by simp +contextual)

@[simp] theorem importFrom_upholds (s : State) (b : Bytes) : Upholds s (importFrom s b) := by
  unfold importFrom
  dsimp only
  (repeat' split) <;> simp +contextual

@[simp] theorem importCommand_upholds (s : State) (a : BtrArgs) : Upholds s (importCommand s a) := by
  unfold importCommand
  (repeat' split)
  · exact (btrResult_steady _ _ _).upholds
  · exact (btrResult_steady _ _ _).upholds
  · exact withBuf_upholds s a 1929 _ (fun t b => viaMae_upholds t _ _ _ _ (fun u => importFrom_upholds u b))

theorem execBtrImport_completes (m : Master) (s : State) : Completes s (execBtrImport m s) := by
  unfold execBtrImport
  exact completes_done (by simp +contextual)

@[simp] theorem finishCommand_upholds (s : State) (p : BtrPending) : Upholds s (finishCommand s p) := by
  simp only [finishCommand]
  (repeat' split) <;> simp +contextual

theorem execBtrCommandDone_completes (s : State) : Completes s (execBtrCommandDone s) := by
  unfold execBtrCommandDone
  split
  · exact completes_next (by simp)
  · refine completes_done ?_
    (repeat' split) <;> simp +contextual

theorem execTableRebuildDone_completes (s : State) : Completes s (execTableRebuildDone s) := by
  unfold execTableRebuildDone
  refine completes_done ?_
  (repeat' split) <;> simp +contextual

@[simp] theorem dropPairing_upholds (s : State) (st : Station) : Upholds s (dropPairing s st) := by
  unfold dropPairing
  split <;> simp +contextual

@[simp] theorem retireSlot_upholds (s : State) (i : Nat) (st : Station) :
    Upholds s (retireSlot s i st) := by simp +contextual [retireSlot]

theorem execRetire_completes (m : Master) (slot : BitVec 12) (s : State) : Completes s (execRetire m slot s) := by
  unfold execRetire
  split
  · refine completes_done ?_
    (repeat' split) <;> simp +contextual
  · exact completes_next (by simp)

/-! ### Service waybills -/

@[simp] theorem reply_upholds (l id : Nat) (r : Reply) : Upholds r.state (reply l id r) :=
  (writeAll_steady r.state r.writes).upholds.trans (completeService_upholds _ _ _ _ _ _)

@[simp] theorem runUnless_upholds (s : State) (line : BitVec 19) (pos op : Nat) (wait : Flight → Bool)
    (f : State → Flight → Reply) (hf : ∀ t g, Upholds t (f t g).state) : Upholds s (runUnless s line pos op wait f) := by
  unfold runUnless
  split
  · split
    · exact Upholds.refl s
    · exact (hf s _).trans (reply_upholds _ _ _)
  · exact Upholds.refl s

@[simp] theorem runService_upholds (s : State) (line : BitVec 19) (pos op : Nat) (f : State → Flight → Reply)
    (hf : ∀ t g, Upholds t (f t g).state) : Upholds s (runService s line pos op f) :=
  runUnless_upholds s line pos op _ f hf

@[simp] theorem signReply_steady (s : State) (raw msg : Bytes) : Steady s (signReply s raw msg).state := by
  unfold signReply
  dsimp only
  (repeat' split) <;> simp

theorem execSign_completes (line : BitVec 19) (pos : Nat) (msg : Bytes) (s : State) :
    Completes s (execSign line pos msg s) := by
  unfold execSign
  exact completes_done (by simp +contextual)

@[simp] theorem verifyReply_steady (s : State) (raw msg keysig : Bytes) : Steady s (verifyReply s raw msg keysig).state := by
  unfold verifyReply
  dsimp only
  (repeat' split) <;> simp

theorem execVerifySig_completes (line : BitVec 19) (pos : Nat) (msg keysig : Bytes) (s : State) :
    Completes s (execVerifySig line pos msg keysig s) := by
  unfold execVerifySig
  exact completes_done (by simp +contextual)

@[simp] theorem structuralWaybill_steady (s : State) (line : BitVec 19) (pos op : Nat) (f : State → Flight → State) (hf : ∀ t a, Steady t (f t a)) :
    Steady s (structuralWaybill s line pos op f) := by
  simp only [structuralWaybill]
  (repeat' split) <;> simp [hf]

@[simp] theorem structuralWaybill_upholds (s : State) (line : BitVec 19) (pos op : Nat) (f : State → Flight → State) (hf : ∀ t a, Upholds t (f t a)) :
    Upholds s (structuralWaybill s line pos op f) := by
  simp only [structuralWaybill]
  (repeat' split) <;> simp +contextual [hf]

@[simp] theorem endWith_upholds (s : State) (l id status : Nat) :
    Upholds s (endWith s l id status) := by simp +contextual [endWith]

@[simp] theorem encapsInstall_upholds (s : State) (l : Nat) (f : Flight) (pub : Bytes) :
    Upholds s (encapsInstall s l f pub) := by
  unfold encapsInstall
  dsimp only
  (repeat' split) <;> simp +contextual

@[simp] theorem encapsWaybill_upholds (peer : Bytes) (s : State) (l : Nat) (f : Flight) :
    Upholds s (encapsWaybill peer s l f) := by
  unfold encapsWaybill
  dsimp only
  (repeat' split) <;> simp +contextual

theorem execKemEncaps_completes (line : BitVec 19) (pos : Nat) (peer : Bytes) (s : State) :
    Completes s (execKemEncaps line pos peer s) := by
  unfold execKemEncaps
  exact completes_done (by simp +contextual)

@[simp] theorem decapsInstall_upholds (s : State) (l : Nat) (f : Flight) (ct : Bytes) :
    Upholds s (decapsInstall s l f ct) := by simp +contextual [decapsInstall]

@[simp] theorem decapsWaybill_upholds (ct : Bytes) (s : State) (l : Nat) (f : Flight) : Upholds s (decapsWaybill ct s l f) := by
  unfold decapsWaybill
  dsimp only
  (repeat' split) <;> simp +contextual

theorem execKemDecaps_completes (line : BitVec 19) (pos : Nat) (ct : Bytes) (s : State) :
    Completes s (execKemDecaps line pos ct s) := by
  unfold execKemDecaps
  exact completes_done (by simp +contextual)

@[simp] theorem deriveInstall_upholds (s : State) (l : Nat) (f : Flight) : Upholds s (deriveInstall s l f) := by
  unfold deriveInstall
  dsimp only
  (repeat' split) <;> simp +contextual

@[simp] theorem deriveWaybill_upholds (s : State) (l : Nat) (f : Flight) : Upholds s (deriveWaybill s l f) := by
  unfold deriveWaybill
  dsimp only
  (repeat' split) <;> simp +contextual

theorem execDerive_completes (line : BitVec 19) (pos : Nat) (s : State) : Completes s (execDerive line pos s) := by
  unfold execDerive
  exact completes_done (by simp +contextual)

@[simp] theorem proveReply_steady (s : State) (raw : Bytes) : Steady s (proveReply s raw).state := by
  simp only [proveReply]
  (repeat' split) <;> simp

theorem execProve_completes (line : BitVec 19) (pos : Nat) (s : State) : Completes s (execProve line pos s) := by
  unfold execProve
  exact completes_done (by simp +contextual)

@[simp] theorem manifestReply_steady (s : State) (raw : Bytes) : Steady s (manifestReply s raw).state := by
  unfold manifestReply
  dsimp only
  (repeat' split) <;> simp

theorem execManifestRead_completes (line : BitVec 19) (pos : Nat) (s : State) : Completes s (execManifestRead line pos s) := by
  unfold execManifestRead
  exact completes_done (by simp +contextual)

@[simp] theorem answerExport_upholds (s : State) (l : Nat) (f : Flight) (bad : List Nat) :
    Upholds s (answerExport s l f bad) := by
  have hanswered := (exportReply_steady s f.raw bad).upholds
  exact hanswered.trans ((updFlight_steady _ _ _ _).upholds.trans (reply_upholds l f.id _))

theorem execLogExport_completes (line : BitVec 19) (pos : Reading Nat) (s : State) :
    Completes s (execLogExport line pos s) := by
  unfold execLogExport
  split
  · refine completes_done ?_
    (repeat' split) <;> simp +contextual
  · exact completes_next (by simp)

@[simp] theorem recordRelay_steady (s : State) (i : Nat) (st : Station) (b : Bytes) (admitted : DWord) :
    Steady s (recordRelay s i st b admitted) := ⟨rfl, rfl, rfl, rfl, rfl⟩

@[simp] theorem firstRelay_steady (s : State) (i : Nat) (st : Station) (b : Bytes) (admitted : DWord) :
    Steady s (firstRelay s i st b admitted) := by simp [firstRelay]

@[simp] theorem relayReply_steady (s : State) (f : Flight) (block : Bytes) : Steady s (relayReply s f block).state := by
  unfold relayReply
  dsimp only
  (repeat' split) <;> simp

theorem execRelay_completes (line : BitVec 19) (pos : Nat) (block : Bytes) (s : State) :
    Completes s (execRelay line pos block s) := by
  unfold execRelay
  split
  · refine completes_done ?_
    (repeat' split) <;> simp +contextual
  · exact completes_next (by simp)

@[simp] theorem attestReply_steady (s : State) (raw : Bytes) : Steady s (attestReply s raw).state := by
  unfold attestReply
  dsimp only
  (repeat' split) <;> simp

theorem execAttest_completes (line : BitVec 19) (pos : Nat) (s : State) : Completes s (execAttest line pos s) := by
  unfold execAttest
  exact completes_done (by simp +contextual)

@[simp] theorem recordHint_upholds (s : State) (l : Nat) (f : Flight) : Upholds s (recordHint s l f) := by
  unfold recordHint
  dsimp only
  (repeat' split) <;> simp +contextual

theorem execTimeHint_completes (line : BitVec 19) (pos : Nat) (s : State) : Completes s (execTimeHint line pos s) := by
  unfold execTimeHint
  split
  · exact completes_done (by simp +contextual)
  · exact completes_next (by simp)

end Sys2Proof.Invariants
end

section
/-! PROOF. The commands of the engines, of the flash controller, of mailboxes and of the Interlocking keep the four. -/

namespace Sys2Proof.Invariants

open Sys2Proof.Machine

/-! ### The digest engine -/

@[simp] theorem setRegBytes_steady (s : State) (a : Nat) (b : Bytes) : Steady s (setRegBytes s a b) := by
  unfold setRegBytes
  refine foldl_steady (fun t e => ?_) _ _
  simp

@[simp] theorem takeLock_steady (s : State) (m : Master) (a : Nat) : Steady s (takeLock s m a) := by
  unfold takeLock
  dsimp only
  (repeat' split) <;> simp

@[simp] theorem kdeNotOwner_steady (s : State) : Steady s (kdeNotOwner s) := by simp [kdeNotOwner]

@[simp] theorem kdeOwned_steady (s : State) (m : Master) (f : State → State) (hf : ∀ t, Steady t (f t)) :
    Steady s (kdeOwned s m f) := by
  unfold kdeOwned
  split <;> simp [hf]

@[simp] theorem kdeOwned_upholds (s : State) (m : Master) (f : State → State) (hf : ∀ t, Upholds t (f t)) :
    Upholds s (kdeOwned s m f) := by
  unfold kdeOwned
  split <;> simp +contextual [hf]

@[simp] theorem kdeRefused_steady (s : State) : Steady s (kdeRefused s) := ⟨rfl, rfl, rfl, rfl, rfl⟩

@[simp] theorem kdeSetState_steady (s : State) (n : Nat) : Steady s (kdeSetState s n) := ⟨rfl, rfl, rfl, rfl, rfl⟩

@[simp] theorem kdeEnd_steady (s : State) (code : Nat) : Steady s (kdeEnd s code) := by simp [kdeEnd]

@[simp] theorem kdeWaiting_steady (s : State) : Steady s (kdeWaiting s) := by simp [kdeWaiting]

@[simp] theorem kdeRunCompare_steady (s : State) (out : Bytes) (split : Bool) : Steady s (kdeRunCompare s out split) := by
  unfold kdeRunCompare
  dsimp only
  (repeat' split) <;> simp

@[simp] theorem kdeFinish_upholds (s : State) (split : Bool) : Upholds s (kdeFinish s split) := by
  unfold kdeFinish
  dsimp only
  (repeat' split) <;> simp +contextual

@[simp] theorem kdeAdvance_upholds (s : State) (split : Bool) : Upholds s (kdeAdvance s split) := by
  unfold kdeAdvance
  split <;> simp +contextual

@[simp] theorem kdeBegin_upholds (s : State) (w : Word) (split : Bool) : Upholds s (kdeBegin s w split) := by
  unfold kdeBegin
  dsimp only
  (repeat' split) <;> simp +contextual

@[simp] theorem kdeStartJob_upholds (s : State) (m : Master) (split : Bool) : Upholds s (kdeStartJob s m split) := by
  unfold kdeStartJob
  dsimp only
  (repeat' split) <;> simp +contextual

@[simp] theorem kdeStart_upholds (s : State) (m : Master) (split : Bool) : Upholds s (kdeStart s m split) := by
  unfold kdeStart
  split <;> simp +contextual

@[simp] theorem kdeFeed_steady (s : State) : Steady s (kdeFeed s) := by
  unfold kdeFeed
  dsimp only
  (repeat' split) <;> simp

@[simp] theorem kdeTakeBytes_steady (s : State) (n : Nat) : Steady s (kdeTakeBytes s n) := ⟨rfl, rfl, rfl, rfl, rfl⟩

@[simp] theorem kdeSegmentEnd_upholds (s : State) (seen : Access) (split : Bool) : Upholds s (kdeSegmentEnd s seen split) := by
  unfold kdeSegmentEnd
  dsimp only
  (repeat' split) <;> simp +contextual

@[simp] theorem withKsv_steady (s : State) : Steady s (withKsv s) := by
  unfold withKsv
  split <;> simp

@[simp] theorem kdeWriteBlob_upholds (s : State) : Upholds s (kdeWriteBlob s) := by
  unfold kdeWriteBlob
  dsimp only
  (repeat' split) <;> simp +contextual

@[simp] theorem kdeStop_upholds (s : State) (n : Nat) : Upholds s (kdeStop s n) := by
  unfold kdeStop
  dsimp only
  (repeat' split) <;> simp +contextual

@[simp] theorem kdeSaveFeeding_upholds (s : State) : Upholds s (kdeSaveFeeding s) := by
  unfold kdeSaveFeeding
  dsimp only
  (repeat' split) <;> simp +contextual

@[simp] theorem kdeSave_upholds (s : State) : Upholds s (kdeSave s) := by
  simp only [kdeSave]
  (repeat' split) <;> simp +contextual

@[simp] theorem kdeRestoreBlob_upholds (s : State) (m : Master) (b : Bytes) : Upholds s (kdeRestoreBlob s m b) := by
  unfold kdeRestoreBlob
  dsimp only
  (repeat' split) <;> simp +contextual

@[simp] theorem kdeRestore_upholds (s : State) (m : Master) : Upholds s (kdeRestore s m) := by
  unfold kdeRestore
  dsimp only
  (repeat' split) <;> simp +contextual

@[simp] theorem kdeAbort_steady (s : State) : Steady s (kdeAbort s) := by
  unfold kdeAbort
  split <;> simp

@[simp] theorem kdeSaveUnless_upholds (s : State) (abort : Bool) : Upholds s (kdeSaveUnless s abort) := by
  unfold kdeSaveUnless
  split <;> simp +contextual

@[simp] theorem kdeClear_steady (s : State) : Steady s (kdeClear s) := by simp [kdeClear]

@[simp] theorem kdeForce_steady (s : State) : Steady s (kdeForce s) := by
  unfold kdeForce
  split <;> simp

@[simp] theorem kdeRelease_steady (s : State) (m : Master) : Steady s (kdeRelease s m) := by
  simp only [kdeRelease]
  (repeat' split) <;> simp

theorem execKdeLockRead_completes (m : Master) (s : State) : Completes s (execKdeLockRead m s) := by
  unfold execKdeLockRead
  exact completes_done (by simp +contextual)

theorem execKdeLockRelease_completes (m : Master) (s : State) : Completes s (execKdeLockRelease m s) := by
  unfold execKdeLockRelease
  exact completes_done (by simp +contextual)

@[simp] theorem kdeCommand_steady (s : State) (m : Master) (f : State → State) (hf : ∀ t, Steady t (f t)) :
    Steady s (kdeCommand s m f) :=
  guardedWrite_steady s m _ _ (fun t => kdeOwned_steady t m f hf)

@[simp] theorem kdeCommand_upholds (s : State) (m : Master) (f : State → State) (hf : ∀ t, Upholds t (f t)) :
    Upholds s (kdeCommand s m f) :=
  guardedWrite_upholds s m _ _ (fun t => kdeOwned_upholds t m f hf)

theorem execKdeStart_completes (m : Compared Master) (s : State) : Completes s (execKdeStart m s) := by
  unfold execKdeStart
  exact completes_done (by simp +contextual)

theorem execKdeFeed_completes (m : Master) (s : State) : Completes s (execKdeFeed m s) := by
  unfold execKdeFeed
  exact completes_done (by simp +contextual)

theorem execKdeSegmentDone_completes (outcome : Compared Access) (s : State) : Completes s (execKdeSegmentDone outcome s) := by
  unfold execKdeSegmentDone
  refine completes_done ?_
  (repeat' split) <;> simp +contextual

theorem execKdeSave_completes (m : Master) (s : State) : Completes s (execKdeSave m s) := by
  unfold execKdeSave
  exact completes_done (by simp +contextual)

theorem execKdeRestore_completes (m : Master) (s : State) : Completes s (execKdeRestore m s) := by
  unfold execKdeRestore
  exact completes_done (by simp +contextual)

theorem execKdeAbort_completes (m : Master) (s : State) : Completes s (execKdeAbort m s) := by
  unfold execKdeAbort
  exact completes_done (by simp +contextual)

theorem execKdeClear_completes (m : Master) (s : State) : Completes s (execKdeClear m s) := by
  unfold execKdeClear
  exact completes_done (by simp +contextual)

/-! ### Arithmetic jobs -/

@[simp] theorem putTail_upholds (s : State) (n : Nat) (b : Bytes) : Upholds s (putTail s n b) := by simp +contextual [putTail]

@[simp] theorem putHead_upholds (s : State) (n : Nat) (b : Bytes) : Upholds s (putHead s n b) := by simp +contextual [putHead]

@[simp] theorem putWide_upholds (s : State) (n : Nat) (b : Bytes) : Upholds s (putWide s n b) := by simp +contextual [putWide]

@[simp] theorem maeOk_steady (s : State) : Steady s (maeOk s).state := ⟨rfl, rfl, rfl, rfl, rfl⟩

@[simp] theorem maeFail_steady (s : State) (code : Nat) : Steady s (maeFail s code).state := ⟨rfl, rfl, rfl, rfl, rfl⟩

@[simp] theorem maeVerdict_steady (s : State) (ok : Bool) : Steady s (maeVerdict s ok).state := ⟨rfl, rfl, rfl, rfl, rfl⟩

@[simp] theorem runMod_upholds (s : State) (j : MaeJob) : Upholds s (runMod s j).state := by
  unfold runMod
  dsimp only
  (repeat' split) <;> simp +contextual

@[simp] theorem runRsaPublic_upholds (s : State) (j : MaeJob) : Upholds s (runRsaPublic s j).state := by
  unfold runRsaPublic
  dsimp only
  (repeat' split) <;> simp +contextual

@[simp] theorem runRsaPrivate_upholds (s : State) (j : MaeJob) : Upholds s (runRsaPrivate s j).state := by
  unfold runRsaPrivate
  dsimp only
  (repeat' split) <;> simp +contextual

@[simp] theorem runEcdsaSign_upholds (s : State) (j : MaeJob) : Upholds s (runEcdsaSign s j).state := by
  unfold runEcdsaSign
  extract_lets c d r signed
  split
  · exact (maeFail_steady _ _).upholds
  · exact (drawn_steady s _).upholds.trans ((putWide_upholds _ _ _).trans (maeOk_steady _).upholds)

@[simp] theorem runEcdsaVerify_steady (s : State) (j : MaeJob) : Steady s (runEcdsaVerify s j).state := by
  unfold runEcdsaVerify
  dsimp only
  (repeat' split) <;> simp

@[simp] theorem runEcdh_upholds (s : State) (j : MaeJob) : Upholds s (runEcdh s j).state := by
  unfold runEcdh
  dsimp only
  (repeat' split) <;> simp +contextual

@[simp] theorem runEcPubkey_upholds (s : State) (j : MaeJob) : Upholds s (runEcPubkey s j).state := by
  have hdrawn := (drawn_steady s (8 + (maeCurve j.curve).len)).upholds
  unfold runEcPubkey
  dsimp only
  split
  · exact hdrawn.trans ((putWide_upholds _ _ _).trans (maeOk_steady _).upholds)
  · exact hdrawn.trans (maeFail_steady _ _).upholds

@[simp] theorem runX25519_upholds (s : State) (j : MaeJob) : Upholds s (runX25519 s j).state :=
  (drawn_steady s 32).upholds.trans ((putHead_upholds _ _ _).trans (maeOk_steady _).upholds)

@[simp] theorem runEd25519_steady (s : State) (j : MaeJob) : Steady s (runEd25519 s j).state := by
  unfold runEd25519
  split <;> simp

@[simp] theorem maeRun_upholds (s : State) (j : MaeJob) : Upholds s (maeRun s j).state := by
  unfold maeRun
  split <;> simp +contextual

/-! ### The arithmetic engine -/

@[simp] theorem maeOwned_steady (s : State) (m : Master) (f : State → State) (hf : ∀ t, Steady t (f t)) :
    Steady s (maeOwned s m f) := by
  unfold maeOwned
  split <;> simp [hf]

@[simp] theorem maeOwned_upholds (s : State) (m : Master) (f : State → State) (hf : ∀ t, Upholds t (f t)) :
    Upholds s (maeOwned s m f) := by
  unfold maeOwned
  split <;> simp +contextual [hf]

@[simp] theorem maeRefused_steady (s : State) : Steady s (maeRefused s) := ⟨rfl, rfl, rfl, rfl, rfl⟩

@[simp] theorem shortEnded_steady (s : State) : Steady s (shortEnded s) := by simp [shortEnded]

@[simp] theorem shortFails_steady (s : State) (code : Nat) : Steady s (shortFails s code) := by simp [shortFails]

@[simp] theorem runShort_upholds (s : State) : Upholds s (runShort s) := by
  unfold runShort
  dsimp only
  (repeat' split) <;> simp +contextual

@[simp] theorem runShortIf_upholds (s : State) : Upholds s (runShortIf s) := by
  unfold runShortIf
  split <;> simp +contextual

@[simp] theorem resumeCommand_upholds (s : State) (op : Nat) (a : BtrArgs) (data : Bytes) :
    Upholds s (resumeCommand s op a data) := by
  unfold resumeCommand
  split <;> simp +contextual

@[simp] theorem resumeWaybill_upholds (s : State) (l id op : Nat) (data : Bytes) :
    Upholds s (resumeWaybill s l id op data) := by
  simp only [resumeWaybill]
  (repeat' split) <;> simp +contextual

@[simp] theorem resumeHybrid_upholds (s : State) (x : HybridRequest) : Upholds s (resumeHybrid s x) := by
  unfold resumeHybrid
  split <;> simp +contextual

@[simp] theorem runRequest_upholds (s : State) : Upholds s (runRequest s) := by
  unfold runRequest
  dsimp only
  (repeat' split) <;> simp +contextual

@[simp] theorem refuseRequest_upholds (s : State) : Upholds s (refuseRequest s) := by
  unfold refuseRequest
  dsimp only
  (repeat' split) <;> simp +contextual

@[simp] theorem maeFree_upholds (s : State) : Upholds s (maeFree s) := by simp +contextual [maeFree]

@[simp] theorem maeEnd_upholds (s : State) (code verdict : Nat) : Upholds s (maeEnd s code verdict) := by
  unfold maeEnd
  split <;> simp +contextual

@[simp] theorem maeStart_upholds (s : State) : Upholds s (maeStart s) := by
  unfold maeStart
  dsimp only
  (repeat' split) <;> simp +contextual

@[simp] theorem maeJobEnd_upholds (s : State) (seen : Access) : Upholds s (maeJobEnd s seen) := by
  unfold maeJobEnd
  dsimp only
  (repeat' split) <;> simp +contextual

@[simp] theorem wipeSlots_upholds (s : State) : Upholds s (wipeSlots s) := memWrite_upholds s _ _

@[simp] theorem maeWipe_upholds (s : State) : Upholds s (maeWipe s) := by
  unfold maeWipe
  dsimp only
  (repeat' split) <;> simp +contextual

@[simp] theorem maeAbort_upholds (s : State) : Upholds s (maeAbort s) := by
  unfold maeAbort
  split <;> simp +contextual

@[simp] theorem maeRelease_upholds (s : State) (m : Master) : Upholds s (maeRelease s m) := by
  simp only [maeRelease]
  (repeat' split) <;> simp +contextual

@[simp] theorem maeLockRead_upholds (s : State) (m : Master) : Upholds s (maeLockRead s m) := by
  unfold maeLockRead
  dsimp only
  (repeat' split) <;> simp +contextual

@[simp] theorem slockOwned_steady (s : State) (m : Master) (f : State → State) (hf : ∀ t, Steady t (f t)) :
    Steady s (slockOwned s m f) := by
  unfold slockOwned
  split <;> simp [hf]

@[simp] theorem slockOwned_upholds (s : State) (m : Master) (f : State → State) (hf : ∀ t, Upholds t (f t)) :
    Upholds s (slockOwned s m f) := by
  unfold slockOwned
  split <;> simp +contextual [hf]

@[simp] theorem shortWrite_upholds (s : State) (v : Word) : Upholds s (shortWrite s v) := by
  unfold shortWrite
  dsimp only
  (repeat' split) <;> simp +contextual

@[simp] theorem zeroShortSlots_upholds (s : State) : Upholds s (zeroShortSlots s) := by
  unfold zeroShortSlots
  split
  · exact Upholds.refl s
  · exact foldl_upholds (fun t lo => putTail_upholds t _ _) _ s

@[simp] theorem slockForce_upholds (s : State) : Upholds s (slockForce s) := by
  unfold slockForce
  dsimp only
  (repeat' split) <;> simp +contextual

@[simp] theorem slockRelease_upholds (s : State) (m : Master) : Upholds s (slockRelease s m) := by
  simp only [slockRelease]
  (repeat' split) <;> simp +contextual

theorem execMaeLockRead_completes (m : Master) (s : State) : Completes s (execMaeLockRead m s) := by
  unfold execMaeLockRead
  exact completes_done (by simp +contextual)

theorem execMaeLockRelease_completes (m : Master) (s : State) : Completes s (execMaeLockRelease m s) := by
  unfold execMaeLockRelease
  exact completes_done (by simp +contextual)

@[simp] theorem maeCommand_steady (s : State) (m : Master) (f : State → State) (hf : ∀ t, Steady t (f t)) :
    Steady s (maeCommand s m f) :=
  guardedWrite_steady s m _ _ (fun t => maeOwned_steady t m f hf)

@[simp] theorem maeCommand_upholds (s : State) (m : Master) (f : State → State) (hf : ∀ t, Upholds t (f t)) :
    Upholds s (maeCommand s m f) :=
  guardedWrite_upholds s m _ _ (fun t => maeOwned_upholds t m f hf)

theorem execMaeStart_completes (m : Master) (s : State) : Completes s (execMaeStart m s) := by
  unfold execMaeStart
  exact completes_done (by simp +contextual)

theorem execMaeAbort_completes (m : Master) (s : State) : Completes s (execMaeAbort m s) := by
  unfold execMaeAbort
  exact completes_done (by simp +contextual)

theorem execMaeClear_completes (m : Master) (s : State) : Completes s (execMaeClear m s) := by
  unfold execMaeClear
  exact completes_done (by simp +contextual)

theorem execMaeWipeDone_completes (s : State) : Completes s (execMaeWipeDone s) := by
  unfold execMaeWipeDone
  refine completes_done ?_
  (repeat' split) <;> simp +contextual

theorem execMaeJobDone_completes (outcome : Access) (s : State) : Completes s (execMaeJobDone outcome s) := by
  unfold execMaeJobDone
  refine completes_done ?_
  (repeat' split) <;> simp +contextual

theorem execMaeSlockRead_completes (m : Master) (s : State) : Completes s (execMaeSlockRead m s) := by
  unfold execMaeSlockRead
  exact completes_done (by simp +contextual)

theorem execMaeSlockRelease_completes (m : Master) (s : State) : Completes s (execMaeSlockRelease m s) := by
  unfold execMaeSlockRelease
  exact completes_done (by simp +contextual)

theorem execMaeShortStart_completes (m : Master) (v : Word) (s : State) : Completes s (execMaeShortStart m v s) :=
  completes_done (guardedWrite_upholds s m _ _ (fun t => slockOwned_upholds t m _ (fun u => shortWrite_upholds u v)))

@[simp] theorem maePark_steady (s : State) : Steady s (maePark s) := ⟨rfl, rfl, rfl, rfl, rfl⟩

@[simp] theorem maeResume_steady (s : State) : Steady s (maeResume s) := ⟨rfl, rfl, rfl, rfl, rfl⟩

theorem execMaeYieldPoint_completes (s : State) : Completes s (execMaeYieldPoint s) := by
  unfold execMaeYieldPoint
  refine completes_done ?_
  (repeat' split) <;> simp +contextual

theorem execMaeBtrRequest_completes (s : State) : Completes s (execMaeBtrRequest s) := by
  unfold execMaeBtrRequest
  refine completes_done ?_
  (repeat' split) <;> simp +contextual

/-! ### The lattice lanes -/

@[simp] theorem unsignedNow_upholds (s : State) : Upholds s (unsignedNow s) := by
  unfold unsignedNow
  dsimp only
  (repeat' split) <;> simp +contextual

@[simp] theorem lsuFence_upholds (s : State) (n cause : Nat) : Upholds s (lsuFence s n cause) := by simp +contextual [lsuFence]

@[simp] theorem laneDensity_upholds (s : State) (n : Nat) : Upholds s (laneDensity s n) := by
  unfold laneDensity
  split <;> simp +contextual

@[simp] theorem laneSealFault_upholds (s : State) (n a : Nat) (pusher : Master) (start : DWord) :
    Upholds s (laneSealFault s n a pusher start) := by simp +contextual [laneSealFault]

@[simp] theorem noLaneEnds_upholds (s : State) : Upholds s (noLaneEnds s) := by
  unfold noLaneEnds
  split <;> simp +contextual

@[simp] theorem lsuPush_upholds (s : State) (m : Master) (a : Word) : Upholds s (lsuPush s m a) := by
  simp only [lsuPush]
  (repeat' split) <;> simp +contextual

theorem execLsuQpush_completes (m : Master) (addr : Word) (s : State) : Completes s (execLsuQpush m addr s) := by
  unfold execLsuQpush
  exact completes_done (by simp +contextual)

theorem execLsuFlush_completes (m : Master) (s : State) : Completes s (execLsuFlush m s) := by
  unfold execLsuFlush
  exact completes_done (by simp +contextual)

@[simp] theorem descKey_steady (s : State) (n : Nat) (d : Bytes) : Steady s (descKey s n d).state := by
  unfold descKey
  split <;> simp

@[simp] theorem descCharge_steady (s : State) (d : Bytes) : Steady s (descCharge s d) := by
  simp only [descCharge]
  (repeat' split) <;> simp

@[simp] theorem setLaneJob_steady (s : State) (n : Nat) (j : LsuJob) : Steady s (setLaneJob s n j) := ⟨rfl, rfl, rfl, rfl, rfl⟩

@[simp] theorem takeDesc_upholds (s : State) (n a : Nat) (pusher : Master) : Upholds s (takeDesc s n a pusher) := by
  unfold takeDesc
  dsimp only
  (repeat' split) <;> simp +contextual

@[simp] theorem takeManifest_steady (s : State) (n : Nat) : Steady s (takeManifest s n) := by
  unfold takeManifest
  split <;> simp

@[simp] theorem laneStart_upholds (s : State) (n : Nat) : Upholds s (laneStart s n) := by
  simp only [laneStart]
  (repeat' split) <;> simp +contextual

theorem execLaneJobStart_completes (lane : BitVec 2) (s : State) : Completes s (execLaneJobStart lane s) := by
  unfold execLaneJobStart
  refine completes_done ?_
  (repeat' split) <;> simp +contextual

@[simp] theorem runDesc_steady (s : State) (d seed msg aux : Bytes) : Steady s (runDesc s d seed msg aux).state := by
  simp only [runDesc]
  (repeat' split) <;> simp

@[simp] theorem laneFault_upholds (s : State) (n a : Nat) (pusher : Master) (start : DWord) (o : Access) :
    Upholds s (laneFault s n a pusher start o) := by
  unfold laneFault
  split <;> simp +contextual

@[simp] theorem readDesc_steady (s : State) (d : Bytes) : Steady s (readDesc s d).state := by
  unfold readDesc
  dsimp only
  (repeat' split) <;> simp

@[simp] theorem finishDesc_upholds (s : State) (n a : Nat) (pusher : Master) (d seed : Bytes) (start : DWord) (seen : Access) :
    Upholds s (finishDesc s n a pusher d seed start seen) := by
  unfold finishDesc
  dsimp only
  (repeat' split) <;> simp +contextual

@[simp] theorem manifestFault_upholds (s : State) (n : Nat) (seen : Access) :
    Upholds s (manifestFault s n seen) := by simp +contextual [manifestFault]

@[simp] theorem laneEnd_upholds (s : State) (n : Nat) (seen : Access) : Upholds s (laneEnd s n seen) := by
  unfold laneEnd
  dsimp only
  split
  · exact Upholds.refl s
  · split
    · exact (manifestSigned_steady s).upholds
    · exact manifestFault_upholds s n seen
  · exact (setLane_steady s n _).upholds.trans (finishDesc_upholds _ _ _ _ _ _ _ _)

theorem execLaneJobDone_completes (lane : BitVec 2) (outcome : Access) (s : State) :
    Completes s (execLaneJobDone lane outcome s) := by
  unfold execLaneJobDone
  refine completes_done ?_
  (repeat' split) <;> simp +contextual

theorem execLsuFence_completes (m : Master) (bits : BitVec 4) (s : State) : Completes s (execLsuFence m bits s) :=
  completes_done (guardedWrite_upholds s m _ _
    (fun t => foldl_upholds (fun u n => Upholds.of_if (lsuFence_upholds u n 3)) _ t))

theorem execLaneSelfTest_completes (lane : BitVec 2) (pass : Bool) (s : State) :
    Completes s (execLaneSelfTest lane pass s) := by
  unfold execLaneSelfTest
  refine completes_done ?_
  (repeat' split) <;> simp +contextual

/-! ### The entropy source -/

@[simp] theorem setEntReason_steady (s : State) (r : Nat) : Steady s (setEntReason s r) := ⟨rfl, rfl, rfl, rfl, rfl⟩

@[simp] theorem entError_steady (s : State) (r : Nat) : Steady s (entError s r) := by simp [entError]

@[simp] theorem takeWord_steady (s : State) : Steady s (takeWord s) := ⟨rfl, rfl, rfl, rfl, rfl⟩

@[simp] theorem dropGrant_steady (s : State) (m : Master) : Steady s (dropGrant s m) := ⟨rfl, rfl, rfl, rfl, rfl⟩

@[simp] theorem entWait_steady (s : State) (r : EntRead) : Steady s (entWait s r) := by
  unfold entWait
  split <;> simp

@[simp] theorem setWinner_steady (s : State) (m : Master) : Steady s (setWinner s m) := ⟨rfl, rfl, rfl, rfl, rfl⟩

@[simp] theorem readEnt_steady (s : State) (m : Master) : Steady s (readEnt s m) := by
  simp only [readEnt]
  (repeat' split) <;> simp

@[simp] theorem serveRead_steady (s : State) (r : EntRead) : Steady s (serveRead s r) := by
  unfold serveRead
  split <;> simp

@[simp] theorem serveWaiting_steady (n : Nat) (s : State) : Steady s (serveWaiting n s) := by
  induction n generalizing s with
  | zero => exact Steady.refl s
  | succ n ih =>
    unfold serveWaiting
    split
    · exact Steady.refl s
    split
    · exact (serveRead_steady s _).trans (ih _)
    · exact Steady.refl s

@[simp] theorem failRead_steady (s : State) (m : Master) : Steady s (failRead s m) := ⟨rfl, rfl, rfl, rfl, rfl⟩

@[simp] theorem condition_steady (s : State) (block : Bytes) : Steady s (condition s block) := by
  unfold condition
  split <;> simp

@[simp] theorem drawBootKeys_upholds (s : State) : Upholds s (drawBootKeys s) := by
  unfold drawBootKeys
  split <;> simp +contextual

@[simp] theorem entStarted_steady (s : State) : Steady s (entStarted s) := by simp [entStarted]

@[simp] theorem blockPassed_upholds (s : State) (block : Bytes) : Upholds s (blockPassed s block) := by
  unfold blockPassed
  split <;> simp +contextual

theorem failReads_steady (l : List EntRead) (s : State) :
    Steady s (l.foldl (fun t r => match r with | .port m => failRead t m | .core _ _ => t) s) := by
  refine foldl_steady (fun t r => ?_) l s
  cases r <;> simp

@[simp] theorem entFatalNow_steady (s : State) : Steady s (entFatalNow s) := by
  unfold entFatalNow
  extract_lets waiting ent noted told failed
  have hnoted : Steady s noted := by simp [noted, ent]
  have htold : Steady noted told := by
    simp only [told]
    split <;> simp
  exact hnoted.trans (htold.trans ((failReads_steady waiting told).trans ⟨rfl, rfl, rfl, rfl, rfl⟩))

@[simp] theorem entRestart_steady (s : State) : Steady s (entRestart s) := ⟨rfl, rfl, rfl, rfl, rfl⟩

@[simp] theorem blockFailed_steady (s : State) : Steady s (blockFailed s) := by
  unfold blockFailed
  dsimp only
  (repeat' split) <;> simp

@[simp] theorem testBlock_upholds (s : State) (block : Bytes) : Upholds s (testBlock s block) := by
  unfold testBlock
  dsimp only
  (repeat' split) <;> simp +contextual

theorem execEntBiasDone_completes (s : State) : Completes s (execEntBiasDone s) := by
  unfold execEntBiasDone
  refine completes_next ?_
  (repeat' split) <;> simp +contextual

theorem execEntDataRead_completes (m : Master) (s : State) : Completes s (execEntDataRead m s) := by
  unfold execEntDataRead
  exact completes_done (by simp +contextual)

/-! ### The boot record -/

@[simp] theorem writeRec_steady (s : State) (r : BootRec) : Steady s (writeRec s r) := by
  unfold writeRec
  dsimp only
  (repeat' split) <;> simp

/-! ### The flash controller -/

@[simp] theorem flcResult_steady (s : State) (st : Nat) : Steady s (flcResult s st) := ⟨rfl, rfl, rfl, rfl, rfl⟩

@[simp] theorem flcEnd_steady (s : State) (st : Nat) : Steady s (flcEnd s st) := ⟨rfl, rfl, rfl, rfl, rfl⟩

@[simp] theorem flcCommand_steady (s : State) (m : Master) (f : State → State) (hf : ∀ t, Steady t (f t)) :
    Steady s (flcCommand s m f) := by
  refine guardedWrite_steady s m _ _ (fun t => ?_)
  split
  · exact (orR_steady _ _ _)
  · exact (clearR_steady t _ _).trans (hf _)

@[simp] theorem flcCommand_upholds (s : State) (m : Master) (f : State → State) (hf : ∀ t, Upholds t (f t)) :
    Upholds s (flcCommand s m f) := by
  refine guardedWrite_upholds s m _ _ (fun t => ?_)
  split
  · exact (orR_steady _ _ _).upholds
  · exact (clearR_steady t _ _).upholds.trans (hf _)

@[simp] theorem startOp_steady (s : State) (k : FlashOp) : Steady s (startOp s k) := by
  unfold startOp
  split <;> simp

theorem execFlcRead_completes (m : Master) (s : State) : Completes s (execFlcRead m s) := by
  unfold execFlcRead
  exact completes_done (by simp +contextual)

theorem flcRefusal_steady {s t : State} {program : Bool} (h : flcRefusal s program = some t) : Steady s t := by
  unfold flcRefusal at h
  dsimp only at h
  split at h
  · obtain rfl := Option.some.inj h
    simp
  split at h
  · obtain rfl := Option.some.inj h
    simp
  split at h
  · obtain rfl := Option.some.inj h
    simp
  split at h
  · obtain rfl := Option.some.inj h
    simp
  · cases h

theorem flcRefusal_getD_steady {s t : State} (program : Bool) (h : Steady s t) : Steady s ((flcRefusal s program).getD t) := by
  cases hr : flcRefusal s program with
  | none => exact h
  | some u => exact flcRefusal_steady hr

theorem execFlcProgram_completes (m : Master) (s : State) : Completes s (execFlcProgram m s) :=
  completes_done (flcCommand_steady s m _ (fun t => flcRefusal_getD_steady true (startOp_steady t .program))).upholds

theorem execFlcErase_completes (m : Master) (s : State) : Completes s (execFlcErase m s) :=
  completes_done (flcCommand_steady s m _ (fun t => flcRefusal_getD_steady false (startOp_steady t .erase))).upholds

theorem execFlcClaim_completes (m : Master) (s : State) : Completes s (execFlcClaim m s) := by
  refine completes_done (flcCommand_steady s m _ (fun t => ?_)).upholds
  split <;> simp

theorem execFlcReturn_completes (m : Master) (s : State) : Completes s (execFlcReturn m s) := by
  refine completes_done (flcCommand_steady s m _ (fun t => ?_)).upholds
  dsimp only
  split <;> simp

@[simp] theorem nandFault_steady (s : State) (d : Nat) : Steady s (nandFault s d) := by simp [nandFault]

@[simp] theorem readEnd_upholds (s : State) (d b p buf : Nat) (ok : Bool) : Upholds s (readEnd s d b p buf ok) := by
  unfold readEnd
  dsimp only
  (repeat' split) <;> simp +contextual

@[simp] theorem programEnd_steady (s : State) (d b p buf : Nat) (ok : Bool) : Steady s (programEnd s d b p buf ok) := by
  unfold programEnd
  dsimp only
  (repeat' split) <;> simp

@[simp] theorem eraseEnd_steady (s : State) (d b : Nat) (ok : Bool) : Steady s (eraseEnd s d b ok) := by
  unfold eraseEnd
  split <;> simp

@[simp] theorem flashOpEnd_upholds (s : State) (ok : Bool) : Upholds s (flashOpEnd s ok) := by
  unfold flashOpEnd
  split <;> simp +contextual

theorem execFlashOpDone_completes (ok : Bool) (s : State) : Completes s (execFlashOpDone ok s) := by
  unfold execFlashOpDone
  refine completes_done ?_
  (repeat' split) <;> simp +contextual

@[simp] theorem windowFetch_steady (s : State) (a : Nat) : Steady s (windowFetch s a) := ⟨rfl, rfl, rfl, rfl, rfl⟩

@[simp] theorem mapWrite_steady (s : State) (v : Word) : Steady s (mapWrite s v) := by
  unfold mapWrite
  dsimp only
  (repeat' split) <;> simp

theorem execCwMapWrite_completes (m : Master) (v : Word) (s : State) : Completes s (execCwMapWrite m v s) := by
  unfold execCwMapWrite
  exact completes_done (by simp +contextual)

@[simp] theorem failDie_steady (s : State) (die : Nat) : Steady s (failDie s die) := by simp [failDie]

theorem execNandDieFailed_completes (die : BitVec 2) (s : State) : Completes s (execNandDieFailed die s) := by
  unfold execNandDieFailed
  refine completes_done ?_
  (repeat' split) <;> simp +contextual

/-! ### Mailboxes -/

@[simp] theorem setMailbox_steady (s : State) (n : Nat) (b : Mailbox) : Steady s (setMailbox s n b) := ⟨rfl, rfl, rfl, rfl, rfl⟩

@[simp] theorem mbxRefused_steady (s : State) : Steady s (mbxRefused s) := by simp [mbxRefused]

@[simp] theorem claimRead_steady (s : State) (m : Master) (n : Nat) : Steady s (claimRead s m n) := by
  unfold claimRead
  dsimp only
  (repeat' split) <;> simp

theorem execMbxClaimRead_completes (m : Master) (n : BitVec 4) (s : State) : Completes s (execMbxClaimRead m n s) := by
  unfold execMbxClaimRead
  exact completes_done (by simp +contextual)

@[simp] theorem claimFree_steady (s : State) (m : Master) (n : Nat) : Steady s (claimFree s m n) := by
  unfold claimFree
  dsimp only
  (repeat' split) <;> simp

theorem execMbxClaimFree_completes (m : Master) (n : BitVec 4) (s : State) : Completes s (execMbxClaimFree m n s) := by
  unfold execMbxClaimFree
  exact completes_done (by simp +contextual)

@[simp] theorem post_steady (s : State) (m : Master) (n : Nat) (v : Word) : Steady s (post s m n v) := by
  unfold post
  dsimp only
  (repeat' split) <;> simp

theorem execMbxPost_completes (m : Master) (n : BitVec 4) (v : Word) (s : State) : Completes s (execMbxPost m n v s) := by
  unfold execMbxPost
  exact completes_done (by simp +contextual)

@[simp] theorem take_steady (s : State) (m : Master) (n : Nat) : Steady s (take s m n) := by
  unfold take
  dsimp only
  (repeat' split) <;> simp

theorem execMbxTake_completes (m : Master) (n : BitVec 4) (s : State) : Completes s (execMbxTake m n s) := by
  unfold execMbxTake
  exact completes_done (by simp +contextual)

@[simp] theorem cfgWrite_steady (s : State) (n : Nat) (v : Word) : Steady s (cfgWrite s n v) := ⟨rfl, rfl, rfl, rfl, rfl⟩

theorem execMbxCfgWrite_completes (m : Master) (n : BitVec 4) (v : Word) (s : State) :
    Completes s (execMbxCfgWrite m n v s) := by
  unfold execMbxCfgWrite
  exact completes_done (by simp +contextual)

@[simp] theorem setTablet_steady (s : State) (t : Nat) (m : Master) : Steady s (setTablet s t m) := ⟨rfl, rfl, rfl, rfl, rfl⟩

@[simp] theorem tabletTake_steady (s : State) (m : Master) (t : Nat) : Steady s (tabletTake s m t) := by
  unfold tabletTake
  dsimp only
  (repeat' split) <;> simp

theorem execTabletRead_completes (m : Master) (t : BitVec 6) (s : State) : Completes s (execTabletRead m t s) := by
  unfold execTabletRead
  exact completes_done (by simp +contextual)

@[simp] theorem tabletFree_steady (s : State) (m : Master) (t : Nat) : Steady s (tabletFree s m t) := by
  unfold tabletFree
  dsimp only
  (repeat' split) <;> simp

theorem execTabletRelease_completes (m : Master) (t : BitVec 6) (s : State) : Completes s (execTabletRelease m t s) := by
  unfold execTabletRelease
  exact completes_done (by simp +contextual)

/-! ### Interlocking and debug -/

@[simp] theorem commit_steady (s : State) : Steady s (commit s) := by
  unfold commit
  dsimp only
  (repeat' split) <;> simp

theorem execIlkCommit_completes (m : Master) (s : State) : Completes s (execIlkCommit m s) := by
  unfold execIlkCommit
  exact completes_done (by simp +contextual)

@[simp] theorem loadRoute_steady (s : State) : Steady s (loadRoute s) := by
  unfold loadRoute
  dsimp only
  (repeat' split) <;> simp

theorem execIlkLoad_completes (m : Master) (s : State) : Completes s (execIlkLoad m s) := by
  unfold execIlkLoad
  exact completes_done (by simp +contextual)

theorem execShadowCompare_completes (s : State) : Completes s (execShadowCompare s) := by
  unfold execShadowCompare
  refine completes_done ?_
  (repeat' split) <;> simp +contextual

@[simp] theorem dbgWrite_steady (s : State) (m : Master) (a : Nat) (f : State → State) (hf : ∀ t, Steady t (f t)) :
    Steady s (dbgWrite s m a f) := by
  simp only [dbgWrite]
  (repeat' split) <;> simp [hf]

@[simp] theorem dbgWrite_upholds (s : State) (m : Master) (a : Nat) (f : State → State) (hf : ∀ t, Upholds t (f t)) :
    Upholds s (dbgWrite s m a f) := by
  simp only [dbgWrite]
  (repeat' split) <;> simp +contextual [hf]

@[simp] theorem dbgRead_steady (s : State) (m : Master) (a : Nat) (f : State → State) (hf : ∀ t, Steady t (f t)) :
    Steady s (dbgRead s m a f) := by
  simp only [dbgRead]
  (repeat' split) <;> simp [hf]

@[simp] theorem dbgRead_upholds (s : State) (m : Master) (a : Nat) (f : State → State) (hf : ∀ t, Upholds t (f t)) :
    Upholds s (dbgRead s m a f) := by
  simp only [dbgRead]
  (repeat' split) <;> simp +contextual [hf]

@[simp] theorem nonceRead_steady (s : State) : Steady s (nonceRead s) := by
  unfold nonceRead
  split <;> simp

theorem execDbgNonceRead_completes (m : Master) (s : State) : Completes s (execDbgNonceRead m s) := by
  unfold execDbgNonceRead
  exact completes_done (by simp +contextual)

@[simp] theorem dbgResult_steady (s : State) (st : Nat) : Steady s (dbgResult s st) := ⟨rfl, rfl, rfl, rfl, rfl⟩

@[simp] theorem openDebug_steady (s : State) : Steady s (openDebug s) := by simp [openDebug]

@[simp] theorem dbgCheck_steady (s : State) : Steady s (dbgCheck s) := by
  unfold dbgCheck
  dsimp only
  (repeat' split) <;> simp

theorem execDbgCheck_completes (s : State) : Completes s (execDbgCheck s) := by
  unfold execDbgCheck
  refine completes_done ?_
  (repeat' split) <;> simp +contextual

@[simp] theorem armWrite_upholds (s : State) (arm : BitVec 8) : Upholds s (armWrite s arm) := by
  refine ⟨⟨rfl, rfl⟩, fun _ => id, id, fun h => ?_⟩
  exact worldsOk_ofFn (fun n => (h.get n n.isLt).resumeCore _ _ _ _)

theorem execDbgArm_completes (m : Master) (arm : BitVec 8) (s : State) : Completes s (execDbgArm m arm s) := by
  unfold execDbgArm
  refine completes_done ?_
  (repeat' split) <;> simp +contextual

theorem execDbgSessionClose_completes (m : Master) (s : State) : Completes s (execDbgSessionClose m s) := by
  refine completes_done (dbgWrite_upholds s m _ _ (fun t => ?_))
  split
  · exact Upholds.refl t
  · exact closeDebug_upholds t

theorem execDebugSessionExpiry_completes (s : State) : Completes s (execDebugSessionExpiry s) := by
  unfold execDebugSessionExpiry
  refine completes_done ?_
  (repeat' split) <;> simp +contextual

end Sys2Proof.Invariants
end

section
/-! PROOF. The commands of the card, the radio, power, boot and the host transfers keep the four. -/

namespace Sys2Proof.Invariants

open Sys2Proof.Machine

/-! ### The custody card -/

@[simp] theorem setCciState_steady (s : State) (n : Nat) : Steady s (setCciState s n) := ⟨rfl, rfl, rfl, rfl, rfl⟩

@[simp] theorem cciErr_steady (s : State) (b : Nat) : Steady s (cciErr s b) := ⟨rfl, rfl, rfl, rfl, rfl⟩

@[simp] theorem cciResult_steady (s : State) (st : Nat) : Steady s (cciResult s st) := ⟨rfl, rfl, rfl, rfl, rfl⟩

@[simp] theorem setCid_steady (s : State) (b : Bytes) : Steady s (setCid s b) := by simp [setCid]

@[simp] theorem powerOffCard_steady (s : State) : Steady s (powerOffCard s) := ⟨rfl, rfl, rfl, rfl, rfl⟩

@[simp] theorem negotiateCard_steady (s : State) (c : Card) : Steady s (negotiateCard s c) := by
  unfold negotiateCard
  split <;> simp

@[simp] theorem readyCard_steady (s : State) : Steady s (readyCard s) := by
  simp only [readyCard]
  (repeat' split) <;> simp

@[simp] theorem modCard_steady (s : State) (f : CardImage → CardImage) : Steady s (modCard s f) := ⟨rfl, rfl, rfl, rfl, rfl⟩

@[simp] theorem checkCredential_steady (s : State) (c : CardImage) : Steady s (checkCredential s c) := by
  simp only [checkCredential]
  (repeat' split) <;> simp

@[simp] theorem failSession_upholds (s : State) (l id kind status : Nat) (v : Option CardSession) :
    Upholds s (failSession s l id kind status v) := by simp +contextual [failSession]

@[simp] theorem abortSession_upholds (s : State) (status : Nat) (gasp : Bool) : Upholds s (abortSession s status gasp) := by
  simp only [abortSession]
  (repeat' split) <;> simp +contextual

@[simp] theorem finishSession_upholds (s : State) (v : CardSession) :
    Upholds s (finishSession s v) := by simp +contextual [finishSession]

@[simp] theorem continueSession_upholds (s : State) (v : CardSession) : Upholds s (continueSession s v) := by
  unfold continueSession
  dsimp only
  (repeat' split) <;> simp +contextual

@[simp] theorem writeUnit_upholds (s : State) (v : CardSession) (bad : List Nat) :
    Upholds s (writeUnit s v bad) := by simp +contextual [writeUnit]

@[simp] theorem writeFailure_upholds (s : State) : Upholds s (writeFailure s) := by simp +contextual [writeFailure]

theorem execCardUnitWritten_completes (ok : Reading Bool) (s : State) : Completes s (execCardUnitWritten ok s) := by
  unfold execCardUnitWritten
  split
  · refine completes_done ?_
    (repeat' split) <;> simp +contextual
  · exact completes_next (by simp)

theorem execCardBusyTimeout_completes (s : State) : Completes s (execCardBusyTimeout s) := by
  unfold execCardBusyTimeout
  refine completes_done ?_
  (repeat' split) <;> simp +contextual

@[simp] theorem unlockCard_upholds (s : State) (by_ : List Nat) : Upholds s (unlockCard s by_).1 := by
  unfold unlockCard
  dsimp only
  (repeat' split) <;> simp +contextual

@[simp] theorem lockCard_steady (s : State) (i : Nat) : Steady s (lockCard s i) := by simp [lockCard]

@[simp] theorem openSession_upholds (s : State) (l : Nat) (f : Flight) (c : CardImage) : Upholds s (openSession s l f c) := by
  unfold openSession
  dsimp only
  (repeat' split) <;> simp +contextual

@[simp] theorem startExport_upholds (s : State) (l : Nat) (f : Flight) : Upholds s (startExport s l f) := by
  unfold startExport
  dsimp only
  (repeat' split) <;> simp +contextual

theorem execCardExport_completes (line : BitVec 19) (pos : Nat) (s : State) : Completes s (execCardExport line pos s) := by
  unfold execCardExport
  split
  · refine completes_done ?_
    (repeat' split) <;> simp +contextual
  · exact completes_next (by simp)

@[simp] theorem insertCard_steady (s : State) (img : CardImage) : Steady s (insertCard s img) := by
  unfold insertCard
  dsimp only
  (repeat' split) <;> simp

theorem execCardInserted_completes (card : CardImage) (s : State) : Completes s (execCardInserted card s) := by
  unfold execCardInserted
  refine completes_done ?_
  (repeat' split) <;> simp +contextual

@[simp] theorem removeCard_upholds (s : State) : Upholds s (removeCard s) := by
  unfold removeCard
  dsimp only
  (repeat' split) <;> simp +contextual

theorem execCardRemoved_completes (s : State) : Completes s (execCardRemoved s) := by
  unfold execCardRemoved
  refine completes_done ?_
  (repeat' split) <;> simp +contextual

@[simp] theorem cciCommand_steady (s : State) (m : Master) (modeOk : Bool) (f : State → State) (hf : ∀ t, Steady t (f t)) :
    Steady s (cciCommand s m modeOk f) := by
  refine guardedWrite_steady s m _ _ (fun t => ?_)
  have hcleared := (clearR_steady t Reg.CCI_RESULT 0x80000000)
  dsimp only
  split
  · exact (cciErr_steady _ _)
  split
  · exact hcleared.trans (cciResult_steady _ _)
  split
  · exact hcleared.trans (cciResult_steady _ _)
  · exact hcleared.trans (hf _)

@[simp] theorem cciCommand_upholds (s : State) (m : Master) (modeOk : Bool) (f : State → State) (hf : ∀ t, Upholds t (f t)) :
    Upholds s (cciCommand s m modeOk f) := by
  refine guardedWrite_upholds s m _ _ (fun t => ?_)
  have hcleared := (clearR_steady t Reg.CCI_RESULT 0x80000000).upholds
  dsimp only
  split
  · exact (cciErr_steady _ _).upholds
  split
  · exact hcleared.trans (cciResult_steady _ _).upholds
  split
  · exact hcleared.trans (cciResult_steady _ _).upholds
  · exact hcleared.trans (hf _)

@[simp] theorem cciReserved_steady (s : State) (m : Master) : Steady s (cciReserved s m) := by
  refine guardedWrite_steady s m _ _ (fun t => ?_)
  split <;> simp

@[simp] theorem withCard_steady (s : State) (f : State → CardImage → State) (hf : ∀ t a, Steady t (f t a)) :
    Steady s (withCard s f) := by
  unfold withCard
  dsimp only
  (repeat' split) <;> simp [hf]

@[simp] theorem withCard_upholds (s : State) (f : State → CardImage → State) (hf : ∀ t a, Upholds t (f t a)) :
    Upholds s (withCard s f) := by
  unfold withCard
  dsimp only
  (repeat' split) <;> simp +contextual [hf]

@[simp] theorem lockRefused_steady (s : State) (k : Check) : Steady s (lockRefused s k) := by
  unfold lockRefused
  split <;> simp

@[simp] theorem formatExport_upholds (m : Master) (s : State) : Upholds s (formatExport m s) := by
  unfold formatExport
  dsimp only
  (repeat' split) <;> simp +contextual

theorem execCardFormatExport_completes (m : Master) (s : State) : Completes s (execCardFormatExport m s) :=
  completes_done (cciCommand_upholds s m true _ (fun t => withCard_upholds t _ (fun u _ => formatExport_upholds m u)))

@[simp] theorem formatBackup_upholds (m : Master) (s : State) (img : CardImage) : Upholds s (formatBackup m s img) := by
  unfold formatBackup
  dsimp only
  (repeat' split) <;> simp +contextual

theorem execCardFormatBackup_completes (m : Master) (s : State) : Completes s (execCardFormatBackup m s) :=
  completes_done (cciCommand_upholds s m true _ (fun t => withCard_upholds t _ (fun u c => formatBackup_upholds m u c)))

@[simp] theorem formatCredential_steady (s : State) : Steady s (formatCredential s) := by
  unfold formatCredential
  dsimp only
  (repeat' split) <;> simp

theorem execCardFormatCredential_completes (m : Master) (s : State) : Completes s (execCardFormatCredential m s) := by
  unfold execCardFormatCredential
  exact completes_done (by simp +contextual)

theorem execForceErase_completes (m : Master) (s : State) : Completes s (execForceErase m s) := by
  unfold execForceErase
  exact completes_done (by simp +contextual)

theorem execForceEraseDone_completes (s : State) : Completes s (execForceEraseDone s) := by
  unfold execForceEraseDone
  refine completes_next ?_
  (repeat' split) <;> simp +contextual

theorem execEject_completes (m : Master) (s : State) : Completes s (execEject m s) := by
  unfold execEject
  exact completes_done (by simp +contextual)

/-! ### The lookout -/

@[simp] theorem startInventory_steady (s : State) (o : InvOwner) (rounds maxTags : Nat) :
    Steady s (startInventory s o rounds maxTags) := ⟨rfl, rfl, rfl, rfl, rfl⟩

@[simp] theorem rebasePing_steady (s : State) : Steady s (rebasePing s) := ⟨rfl, rfl, rfl, rfl, rfl⟩

@[simp] theorem endAuto_upholds (s : State) (entries : List Bytes) :
    Upholds s (endAuto s entries) := by simp +contextual [endAuto]

@[simp] theorem endWaybillRounds_upholds (s : State) (l id : Nat) (entries : List Bytes) :
    Upholds s (endWaybillRounds s l id entries) := by
  unfold endWaybillRounds
  dsimp only
  (repeat' split) <;> simp +contextual

@[simp] theorem endRounds_upholds (s : State) (v : Inventory) : Upholds s (endRounds s v) := by
  unfold endRounds
  split <;> simp +contextual

@[simp] theorem selfTest_upholds (s : State) (gamma : Byte) (answers : List TagObs) : Upholds s (selfTest s gamma answers) := by
  unfold selfTest
  split <;> simp +contextual

@[simp] theorem lkoCommand_steady (s : State) (m : Master) (f : State → State) (hf : ∀ t, Steady t (f t)) :
    Steady s (lkoCommand s m f) := by
  refine guardedWrite_steady s m _ _ (fun t => ?_)
  split
  · exact (orR_steady _ _ _)
  · exact (clearR_steady t _ _).trans (hf _)

@[simp] theorem lkoCommand_upholds (s : State) (m : Master) (f : State → State) (hf : ∀ t, Upholds t (f t)) :
    Upholds s (lkoCommand s m f) := by
  refine guardedWrite_upholds s m _ _ (fun t => ?_)
  split
  · exact (orR_steady _ _ _).upholds
  · exact (clearR_steady t _ _).upholds.trans (hf _)

theorem execSelftest_completes (m : Master) (answers : Air TagObs) (s : State) : Completes s (execSelftest m answers s) := by
  unfold execSelftest
  exact completes_done (by simp +contextual)

theorem execSelftestTimer_completes (answers : Air TagObs) (s : State) : Completes s (execSelftestTimer answers s) := by
  unfold execSelftestTimer
  refine completes_done ?_
  (repeat' split) <;> simp +contextual

@[simp] theorem countSlot_steady (s : State) (x : SlotObs) : Steady s (countSlot s x) := by
  unfold countSlot
  split <;> simp

@[simp] theorem endRound_upholds (s : State) (v : Inventory) : Upholds s (endRound s v) := by
  unfold endRound
  split <;> simp +contextual

@[simp] theorem endSlot_upholds (s : State) (v : Inventory) (o : SlotObs) : Upholds s (endSlot s v o) := by
  unfold endSlot
  dsimp only
  (repeat' split) <;> simp +contextual

@[simp] theorem inventorySlot_upholds (s : State) (v : Inventory) (gamma : Byte) (o : SlotObs) :
    Upholds s (inventorySlot s v gamma o) := by
  simp only [inventorySlot]
  (repeat' split) <;> simp +contextual

theorem execInventorySlot_completes (gamma : Byte) (o : SlotObs) (s : State) : Completes s (execInventorySlot gamma o s) := by
  unfold execInventorySlot
  split
  · refine completes_done ?_
    (repeat' split) <;> simp +contextual
  · exact completes_next (by simp)

@[simp] theorem beginInventory_upholds (s : State) (l : Nat) (f : Flight) : Upholds s (beginInventory s l f) := by
  simp only [beginInventory]
  (repeat' split) <;> simp +contextual

theorem execLookoutInventory_completes (line : BitVec 19) (pos : Nat) (s : State) :
    Completes s (execLookoutInventory line pos s) := by
  unfold execLookoutInventory
  split
  · refine completes_done ?_
    (repeat' split) <;> simp +contextual
  · exact completes_next (by simp)

@[simp] theorem sendPing_upholds (s : State) (gamma : Byte) : Upholds s (sendPing s gamma) := by
  unfold sendPing
  dsimp only
  (repeat' split) <;> simp +contextual

theorem execPing_completes (gamma : Byte) (s : State) : Completes s (execPing gamma s) := by
  unfold execPing
  refine completes_done ?_
  (repeat' split) <;> simp +contextual

@[simp] theorem stopAuto_upholds (s : State) : Upholds s (stopAuto s) := by
  unfold stopAuto
  dsimp only
  (repeat' split) <;> simp +contextual

theorem execStop_completes (m : Master) (s : State) : Completes s (execStop m s) := by
  unfold execStop
  exact completes_done (by simp +contextual)

theorem execRebase_completes (m : Master) (s : State) : Completes s (execRebase m s) := by
  unfold execRebase
  exact completes_done (by simp +contextual)

@[simp] theorem storeBadge_steady (s : State) (p : Nat) (d pass : Bytes) :
    Steady s (storeBadge s p d pass) := by simp [storeBadge]

@[simp] theorem sendBadge_steady (s : State) (t : EnrolObs) (l : List AirCommand) :
    Steady s (sendBadge s t l) := ⟨rfl, rfl, rfl, rfl, rfl⟩

@[simp] theorem enrolTag_steady (s : State) (p : Nat) (t : EnrolObs) : Steady s (enrolTag s p t) := by
  unfold enrolTag
  dsimp only
  (repeat' split) <;> simp

@[simp] theorem enrolBadge_upholds (s : State) (gamma : Byte) (tags : List EnrolObs) : Upholds s (enrolBadge s gamma tags) := by
  unfold enrolBadge
  dsimp only
  (repeat' split) <;> simp +contextual

theorem execBadgeEnrol_completes (m : Master) (tags : Air EnrolObs) (s : State) : Completes s (execBadgeEnrol m tags s) := by
  unfold execBadgeEnrol
  exact completes_done (by simp +contextual)

@[simp] theorem checkBadge_steady (s : State) (b : BadgeObs) : Steady s (checkBadge s b) := by
  unfold checkBadge
  dsimp only
  (repeat' split) <;> simp

@[simp] theorem badgeDone_steady (s : State) : Steady s (badgeDone s) := ⟨rfl, rfl, rfl, rfl, rfl⟩

@[simp] theorem badgeRound_steady (s : State) (badges : List BadgeObs) : Steady s (badgeRound s badges) := by
  unfold badgeRound
  refine foldl_steady (fun t e => ?_) _ _
  simp

theorem execBadgeRound_completes (badges : Air BadgeObs) (s : State) : Completes s (execBadgeRound badges s) := by
  unfold execBadgeRound
  refine completes_done ?_
  (repeat' split) <;> simp +contextual

/-! ### The tail lamp -/

theorem execTailLampUpdate_completes (m : Master) (s : State) : Completes s (execTailLampUpdate m s) := by
  unfold execTailLampUpdate
  exact completes_done (by simp +contextual)

@[simp] theorem wearSlot_steady (s : State) (one : Bool) : Steady s (wearSlot s one) := by
  unfold wearSlot
  dsimp only
  (repeat' split) <;> simp

@[simp] theorem putSlotBytes_steady (s : State) (one : Bool) (b : Bytes) :
    Steady s (putSlotBytes s one b) := ⟨rfl, rfl, rfl, rfl, rfl⟩

@[simp] theorem raiseMain_steady (s : State) (n : Nat) : Steady s (raiseMain s n) := by
  unfold raiseMain
  split <;> simp

@[simp] theorem endUpdate_steady (s : State) (verifyOk : Bool) : Steady s (endUpdate s verifyOk) := by
  unfold endUpdate
  dsimp only
  (repeat' split) <;> simp

theorem execInternalUpdateDone_completes (verifyOk : Bool) (s : State) : Completes s (execInternalUpdateDone verifyOk s) := by
  unfold execInternalUpdateDone
  refine completes_next ?_
  (repeat' split) <;> simp +contextual

theorem execReaderFieldArrival_completes (s : State) : Completes s (execReaderFieldArrival s) := by
  unfold execReaderFieldArrival
  refine completes_next ?_
  (repeat' split) <;> simp +contextual

theorem execFieldCollapse_completes (s : State) : Completes s (execFieldCollapse s) := by
  unfold execFieldCollapse
  exact completes_next (by simp +contextual)

theorem heard_completes (s : State) (f : State → State) (hf : ∀ t, Upholds t (f t)) : Completes s (heard s f) := by
  unfold heard
  refine completes_next ?_
  split
  · exact hf s
  · exact Upholds.refl s

@[simp] theorem tagSay_steady (s : State) (r : TagReply) : Steady s (tagSay s r) := ⟨rfl, rfl, rfl, rfl, rfl⟩

@[simp] theorem setTag_steady (s : State) (f : Tail → Tail) : Steady s (setTag s f) := ⟨rfl, rfl, rfl, rfl, rfl⟩

theorem execSelect_completes (target action : BitVec 3) (bank : BitVec 2) (pointer : Nat) (mask : SelectMask) (s : State) :
    Completes s (execSelect target action bank pointer mask s) := by
  refine heard_completes s _ (fun t => Steady.upholds ?_)
  dsimp only
  (repeat' split) <;> simp

@[simp] theorem usedNoise_steady (s : State) : Steady s (usedNoise s) := ⟨rfl, rfl, rfl, rfl, rfl⟩

@[simp] theorem replyRn_steady (s : State) : Steady s (replyRn s) := ⟨rfl, rfl, rfl, rfl, rfl⟩

@[simp] theorem drawSlot_steady (s : State) (q : Nat) : Steady s (drawSlot s q) := by
  unfold drawSlot
  dsimp only
  (repeat' split) <;> simp

@[simp] theorem leaveRound_steady (s : State) (session : Nat) : Steady s (leaveRound s session) := by
  unfold leaveRound
  split <;> simp

theorem execQuery_completes (sel session : BitVec 2) (target : Bool) (q : BitVec 4) (s : State) :
    Completes s (execQuery sel session target q s) := by
  refine heard_completes s _ (fun t => Steady.upholds ?_)
  dsimp only
  (repeat' split) <;> simp

@[simp] theorem countDown_steady (s : State) : Steady s (countDown s) := by
  unfold countDown
  split <;> simp

theorem execQueryRep_completes (session : BitVec 2) (s : State) : Completes s (execQueryRep session s) := by
  refine heard_completes s _ (fun t => Steady.upholds ?_)
  (repeat' split) <;> simp

theorem execQueryAdjust_completes (session : BitVec 2) (updn : BitVec 3) (s : State) :
    Completes s (execQueryAdjust session updn s) := by
  refine heard_completes s _ (fun t => Steady.upholds ?_)
  (repeat' split) <;> simp

@[simp] theorem toArbitrate_steady (s : State) : Steady s (toArbitrate s) := by
  unfold toArbitrate
  split <;> simp

theorem execAck_completes (rn : BitVec 16) (s : State) : Completes s (execAck rn s) := by
  refine heard_completes s _ (fun t => Steady.upholds ?_)
  split
  · exact Steady.refl t
  split
  · split <;> simp
  · simp

theorem execNak_completes (s : State) : Completes s (execNak s) := by
  unfold execNak
  refine completes_next ?_
  (repeat' split) <;> simp +contextual

theorem execReqRn_completes (rn : BitVec 16) (s : State) : Completes s (execReqRn rn s) := by
  refine heard_completes s _ (fun t => Steady.upholds ?_)
  dsimp only
  (repeat' split) <;> simp

theorem withHandle_completes (s : State) (rn : BitVec 16) (f : State → State) (hf : ∀ t, Upholds t (f t)) :
    Completes s (withHandle s rn f) :=
  heard_completes s _ (fun t => Upholds.of_if (hf t))

@[simp] theorem tagError_steady (s : State) (code : Byte) : Steady s (tagError s code) := ⟨rfl, rfl, rfl, rfl, rfl⟩

theorem execTagRead_completes (rn : BitVec 16) (bank : BitVec 2) (word count : Nat) (s : State) :
    Completes s (execTagRead rn bank word count s) := by
  refine withHandle_completes s rn _ (fun t => Steady.upholds ?_)
  (repeat' split) <;> simp

@[simp] theorem bump16_steady (s : State) (lo : Nat) : Steady s (bump16 s lo) := ⟨rfl, rfl, rfl, rfl, rfl⟩

@[simp] theorem refusePower_steady (s : State) : Steady s (refusePower s) := by
  unfold refusePower
  split <;> simp

@[simp] theorem writeLabel_steady (s : State) (word : Nat) (v : List (BitVec 16)) (verifyOk : Bool) :
    Steady s (writeLabel s word v verifyOk) := by
  unfold writeLabel
  dsimp only
  (repeat' split) <;> simp

@[simp] theorem tagStore_steady (s : State) (bank word : Nat) (v : List (BitVec 16)) (energy verifyOk : Bool) :
    Steady s (tagStore s bank word v energy verifyOk) := by
  simp only [tagStore]
  (repeat' split) <;> simp

theorem execTagWrite_completes (rn : BitVec 16) (bank : BitVec 2) (word : Nat) (v : BitVec 16) (energy verifyOk : Bool) (s : State) :
    Completes s (execTagWrite rn bank word v energy verifyOk s) := by
  refine withHandle_completes s rn _ (fun t => Steady.upholds ?_)
  simp

theorem execBlockWrite_completes (rn : BitVec 16) (bank : BitVec 2) (word : Nat) (v : List (BitVec 16)) (energy verifyOk : Bool) (s : State) :
    Completes s (execBlockWrite rn bank word v energy verifyOk s) := by
  refine withHandle_completes s rn _ (fun t => Steady.upholds ?_)
  (repeat' split) <;> simp

theorem execTagAccess_completes (rn _half : BitVec 16) (s : State) : Completes s (execTagAccess rn _half s) := by
  refine withHandle_completes s rn _ (fun t => Steady.upholds ?_)
  simp

theorem execTagLock_completes (rn : BitVec 16) (s : State) : Completes s (execTagLock rn s) := by
  refine withHandle_completes s rn _ (fun t => Steady.upholds ?_)
  simp

theorem execTagKill_completes (rn : BitVec 16) (s : State) : Completes s (execTagKill rn s) := by
  refine withHandle_completes s rn _ (fun t => Steady.upholds ?_)
  simp

theorem execUnsupportedCommand_completes (rn : BitVec 16) (s : State) : Completes s (execUnsupportedCommand rn s) := by
  refine withHandle_completes s rn _ (fun t => Steady.upholds ?_)
  simp

/-! ### Power -/

@[simp] theorem pdSay_steady (s : State) (m : PdMsg) : Steady s (pdSay s m) := ⟨rfl, rfl, rfl, rfl, rfl⟩

@[simp] theorem adoptPower_upholds (s : State) (mw : Nat) : Upholds s (adoptPower s mw) := by
  unfold adoptPower
  extract_lets floored power contracted tier shown tierPower tiered linked left
  have hcontracted : Upholds s contracted := (powerFloor_upholds s mw).trans (Steady.upholds ⟨rfl, rfl, rfl, rfl, rfl⟩)
  have hshown : Upholds contracted shown := by
    simp only [shown]
    split <;> simp
  have htiered : Upholds shown tiered := by
    simp only [tiered]
    split
    · exact setTier_upholds _ _
    split
    · exact Steady.upholds ⟨rfl, rfl, rfl, rfl, rfl⟩
    · exact Upholds.refl _
  have hlinked : Upholds tiered linked := by
    simp only [linked]
    split <;> simp +contextual
  have hleft : Upholds linked left := by
    simp only [left]
    split
    · exact leaveShed_upholds _
    · exact Upholds.refl _
  refine hcontracted.trans (hshown.trans (htiered.trans (hlinked.trans (hleft.trans ?_))))
  split
  · exact deviceReset_upholds _ _ _
  · exact Upholds.refl _

@[simp] theorem requestPdo_upholds (s : State) (a : Ask) : Upholds s (requestPdo s a) := by
  unfold requestPdo
  split <;> simp +contextual

@[simp] theorem negotiatePd_upholds (s : State) (l : List Pdo) (eprSource eprCable : Bool) :
    Upholds s (negotiatePd s l eprSource eprCable) := by
  unfold negotiatePd
  dsimp only
  (repeat' split) <;> simp +contextual

theorem execSourceCapabilities_completes (pdos : List Pdo) (eprSource eprCable : Bool) (s : State) :
    Completes s (execSourceCapabilities pdos eprSource eprCable s) := by
  unfold execSourceCapabilities
  refine completes_done ?_
  (repeat' split) <;> simp +contextual

theorem execPsRdy_completes (s : State) : Completes s (execPsRdy s) := by
  unfold execPsRdy
  refine completes_done ?_
  (repeat' split) <;> simp +contextual

theorem execNoCapabilities_completes (adv : BitVec 2) (s : State) : Completes s (execNoCapabilities adv s) := by
  unfold execNoCapabilities
  refine completes_done ?_
  (repeat' split) <;> simp +contextual

theorem execSoftReset_completes (s : State) : Completes s (execSoftReset s) := by
  have herr := (orR_steady s Reg.PWR_ERR 4).upholds
  refine completes_done ?_
  dsimp only
  split
  · split
    · exact herr
    · exact herr.trans (negotiatePd_upholds _ _ _ _)
  · exact Upholds.refl s

theorem execPrSwap_completes (s : State) : Completes s (execPrSwap s) := by
  unfold execPrSwap
  refine completes_next ?_
  (repeat' split) <;> simp +contextual

theorem execDrSwap_completes (s : State) : Completes s (execDrSwap s) := by
  unfold execDrSwap
  refine completes_next ?_
  (repeat' split) <;> simp +contextual

theorem execVconnSwap_completes (s : State) : Completes s (execVconnSwap s) := by
  unfold execVconnSwap
  refine completes_next ?_
  (repeat' split) <;> simp +contextual

theorem execFrSwap_completes (s : State) : Completes s (execFrSwap s) := by
  unfold execFrSwap
  refine completes_next ?_
  (repeat' split) <;> simp +contextual

@[simp] theorem beginDisturbance_steady (s : State) (mv : Nat) : Steady s (beginDisturbance s mv) := by
  unfold beginDisturbance
  split <;> simp

theorem execDisturbanceBegin_completes (mv : BitVec 16) (s : State) : Completes s (execDisturbanceBegin mv s) := by
  unfold execDisturbanceBegin
  refine completes_done ?_
  (repeat' split) <;> simp +contextual

@[simp] theorem drainBank_steady (s : State) : Steady s (drainBank s) := ⟨rfl, rfl, rfl, rfl, rfl⟩

@[simp] theorem endDisturbance_steady (s : State) (length : Nat) :
    Steady s (endDisturbance s length) := by simp [endDisturbance]

theorem execDisturbanceEnd_completes (length : BitVec 16) (s : State) : Completes s (execDisturbanceEnd length s) := by
  unfold execDisturbanceEnd
  refine completes_done ?_
  (repeat' split) <;> simp +contextual

theorem execBankCharged_completes (mv : BitVec 16) (s : State) : Completes s (execBankCharged mv s) := by
  unfold execBankCharged
  refine completes_done ?_
  (repeat' split) <;> simp +contextual

@[simp] theorem endWaiting_upholds (s : State) (kind : Flight → Bool) : Upholds s (endWaiting s kind) := by
  refine foldl_upholds (fun t e => foldl_upholds (fun u f => ?_) _ _) _ _
  split
  · exact (markGasp_steady _ _ _).upholds.trans (completeService_upholds _ _ _ _ _ _)
  · exact Upholds.refl u

@[simp] theorem endExports_upholds (s : State) : Upholds s (endExports s) := by
  have hended : Upholds s { endWaiting s isExport with hlk := { (endWaiting s isExport).hlk with usbWait := [] } } := by
    simp +contextual
  have hrefused (t : State) (e : Nat × Bytes × List Nat) : Upholds t (usbCompletion t e.2.1 (refuse t 0x0C) true) :=
    Upholds.trans (t := (refuse t 0x0C).state) (Upholds.refl t) (usbCompletion_steady t e.2.1 _ true).upholds
  unfold endExports
  exact hended.trans (foldl_upholds hrefused _ _)

@[simp] theorem beginGasp_upholds (s : State) (trigger : Nat) : Upholds s (beginGasp s trigger) := by
  unfold beginGasp
  split
  · exact Upholds.refl s
  · extract_lets power begun told stopped ended opened sealed
    have htold : Upholds s told := Steady.upholds (by simp [told, begun, power])
    have hstopped : Upholds told stopped :=
      (endUnstamped_upholds told 0x0C true _).trans (stopInventory_upholds _ _ _)
    have hended : Upholds stopped ended :=
      (endQueued_upholds stopped 0x09 _).trans ((abortSession_upholds _ 0x0C true).trans
        ((endExports_upholds _).trans (endWaiting_upholds _ isRelay)))
    refine htold.trans (hstopped.trans (hended.trans ?_))
    split
    · have hsealed := sealNow_upholds ended 0x01 false
      simpa only [Upholds] using hsealed
    · exact Upholds.refl ended

theorem execLastGaspSeal_completes (s : State) : Completes s (execLastGaspSeal s) := by
  unfold execLastGaspSeal
  refine completes_done ?_
  (repeat' split) <;> simp +contextual

theorem execBankLow_completes (s : State) : Completes s (execBankLow s) := by
  unfold execBankLow
  refine completes_done ?_
  (repeat' split) <;> simp +contextual

theorem execHardReset_completes (s : State) : Completes s (execHardReset s) := by
  unfold execHardReset
  refine completes_done ?_
  (repeat' split) <;> simp +contextual

@[simp] theorem loseVigil_steady (s : State) : Steady s (loseVigil s) := ⟨rfl, rfl, rfl, rfl, rfl⟩

@[simp] theorem setTemp_steady (s : State) (t : BitVec 12) : Steady s (setTemp s t) := ⟨rfl, rfl, rfl, rfl, rfl⟩

theorem execThermalCap_completes (temp : BitVec 12) (s : State) : Completes s (execThermalCap temp s) := by
  unfold execThermalCap
  refine completes_done ?_
  (repeat' split) <;> simp +contextual

theorem execThermalLift_completes (temp : BitVec 12) (s : State) : Completes s (execThermalLift temp s) := by
  refine completes_done ?_
  dsimp only
  split
  · have hcool : Upholds s (setTemp { s with power := { s.power with thermal := false } } temp) := Steady.upholds (by simp)
    split
    · exact hcool
    · exact hcool.trans (setTier_upholds _ _)
  · exact Upholds.refl s

theorem execCellLow_completes (mv : BitVec 12) (s : State) : Completes s (execCellLow mv s) := by
  unfold execCellLow
  refine completes_next ?_
  (repeat' split) <;> simp +contextual

theorem execVigilPowerLoss_completes (s : State) : Completes s (execVigilPowerLoss s) := by
  unfold execVigilPowerLoss
  refine completes_next ?_
  (repeat' split) <;> simp +contextual

@[simp] theorem measureBank_steady (s : State) (cap : Nat) : Steady s (measureBank s cap) := by
  unfold measureBank
  split <;> simp

@[simp] theorem measureCell_steady (s : State) (cell : BitVec 12) : Steady s (measureCell s cell) := by simp [measureCell]

@[simp] theorem noteCount_steady (old s : State) : Steady s (noteCount old s) := by
  unfold noteCount
  split <;> simp

/-- Main power comes: the TTC starts from the vigil count. -/
theorem powerOn_restarts (s : State) (cap : BitVec 16) (cell : BitVec 12) :
    Upholds { s with ttc := seedTtc (countRead s) } (powerOn s cap cell) := by
  unfold powerOn
  extract_lets c old lost zeroised vigil cleared seeded measured raised
  have hcleared : Upholds { s with ttc := seedTtc (countRead s) } cleared :=
    Upholds.trans (Steady.upholds ⟨rfl, rfl, rfl, rfl, rfl⟩) (deviceReset_upholds _ causePowerOn false)
  have hseeded : Steady cleared seeded := by simp [seeded]
  have hraised : Steady seeded raised := by simp [raised, measured]
  refine hcleared.trans (hseeded.upholds.trans (hraised.upholds.trans ?_))
  split <;> simp

/-! ### Boot, images and the Deadman -/

@[simp] theorem keepRecord_steady (s : State) (old new_ : BootRec) : Steady s (keepRecord s old new_) := by
  unfold keepRecord
  split <;> simp

@[simp] theorem fallBack_steady (s : State) : Steady s (fallBack s) := by simp [fallBack]

theorem enterAt_upholds (s : State) {pc : Word} (hpc : pc.toNat % 4 = 0) : Upholds s (enterAt s pc) := by
  have hrom : (romPc s).toNat % 4 = 0 := and_mask_mod_four _ (by decide)
  refine Upholds.trans (t := { s with coresRun := true, cores := _ }) ⟨⟨rfl, rfl⟩, fun _ => id, id, fun h => ?_⟩
    (usedFree_steady _).upholds
  refine worldsOk_ofFn (fun n => ⟨(h.get n n.isLt).1, World.ok_setPc (h.get n n.isLt).2 ?_⟩)
  split
  · exact hpc
  · exact hrom

@[simp] theorem startMonitor_upholds (s : State) : Upholds s (startMonitor s) := by
  have hrom : (romPc s).toNat % 4 = 0 := and_mask_mod_four _ (by decide)
  unfold startMonitor
  extract_lets pc flash started
  have hstarted : Upholds s started := by
    refine Upholds.trans (t := { s with coresRun := true, booted := true, flash := flash, cores := _ })
      ⟨⟨rfl, rfl⟩, fun _ => id, id, fun h => ?_⟩ (usedFree_steady _).upholds
    refine worldsOk_ofFn (fun n => ?_)
    split <;> exact ⟨(h.get n n.isLt).1, World.ok_setPc (h.get n n.isLt).2 hrom⟩
  exact hstarted.trans (Upholds.trans (Steady.upholds (by simp)) (leaveShed_upholds _))

@[simp] theorem startImage_upholds (s : State) (slot : Bool) : Upholds s (startImage s slot) :=
  Upholds.trans (t := { s with flash := _ }) (Steady.upholds ⟨rfl, rfl, rfl, rfl, rfl⟩)
    (enterAt_upholds _ (and_mask_mod_four _ (by decide)))

@[simp] theorem bootChain_upholds (s : State) : Upholds s (bootChain s) := by
  unfold bootChain
  extract_lets r first c n counted fallen
  split
  · exact startMonitor_upholds s
  · have hcounted : Upholds s counted := Steady.upholds (by simp [counted])
    have hfallen : Upholds counted fallen := by
      simp only [fallen]
      split <;> simp +contextual
    refine hcounted.trans (hfallen.trans ?_)
    split
    · exact startImage_upholds _ _
    · exact startMonitor_upholds _

@[simp] theorem bootTrack_upholds (pass : BitVec 8) (s : State) (t : Nat) : Upholds s (bootTrack pass s t) := by
  unfold bootTrack
  split <;> simp +contextual

@[simp] theorem bootLane_upholds (pass : BitVec 4) (s : State) (n : Nat) : Upholds s (bootLane pass s n) := by
  unfold bootLane
  split <;> simp +contextual

@[simp] theorem eraseSuspects_steady (s : State) (fail : List (Nat × Nat)) : Steady s (eraseSuspects s fail) := by
  unfold eraseSuspects
  refine foldl_steady (fun t e => ?_) _ _
  (repeat' split) <;> simp

@[simp] theorem bootDetectors_steady (s : State) (fail : BitVec 128) : Steady s (bootDetectors s fail) := by
  unfold bootDetectors
  dsimp only
  (repeat' split) <;> simp

@[simp] theorem releaseCores_upholds (s : State) (tracksPass : BitVec 8) (lanesPass : BitVec 4) (fail : BitVec 128)
    (blocks : List (Nat × Nat)) : Upholds s (releaseCores s tracksPass lanesPass fail blocks) := by
  unfold releaseCores
  extract_lets erased tracked laned
  have herased : Upholds s erased := by simp +contextual [erased]
  have htracked : Upholds erased tracked := foldl_upholds (bootTrack_upholds tracksPass) _ _
  have hlaned : Upholds tracked laned := foldl_upholds (fun t n => bootLane_upholds lanesPass t n) _ _
  exact herased.trans (htracked.trans (hlaned.trans (Upholds.trans (Steady.upholds (by simp)) (bootChain_upholds _))))

theorem execCoresReleased_completes (tracksPass : BitVec 8) (lanesPass : BitVec 4) (fails : BootFails) (s : State) :
    Completes s (execCoresReleased tracksPass lanesPass fails s) := by
  unfold execCoresReleased
  refine completes_done ?_
  (repeat' split) <;> simp +contextual

@[simp] theorem cellAlarm_steady (s : State) (n cls : Nat) : Steady s (cellAlarm s n cls) := by simp [cellAlarm]

@[simp] theorem reportPending_steady (s : State) : Steady s (reportPending s) := by
  unfold reportPending
  extract_lets told
  have htold : Steady s told := foldl_steady (fun t (e : Nat × Nat) => cellAlarm_steady t e.1 e.2) _ s
  split
  · exact htold.trans (by simp)
  · exact htold.trans (by simp)

@[simp] theorem measureSettings_steady (s : State) : Steady s (measureSettings s) := ⟨rfl, rfl, rfl, rfl, rfl⟩

theorem execBootComplete_completes (s : State) : Completes s (execBootComplete s) := by
  unfold execBootComplete
  refine completes_done ?_
  (repeat' split) <;> simp +contextual

@[simp] theorem modeResult_steady (s : State) (st reason : Nat) : Steady s (modeResult s st reason) := ⟨rfl, rfl, rfl, rfl, rfl⟩

@[simp] theorem refuseMode_steady (s : State) (reason : Nat) : Steady s (refuseMode s reason) := by simp [refuseMode]

@[simp] theorem modeRequest_upholds (s : State) (m : Master) (row : Bool) (cond : Nat) (target : Mode) :
    Upholds s (modeRequest s m row cond target) := by
  unfold modeRequest
  dsimp only
  (repeat' split) <;> simp +contextual

theorem execModereqMaintenance_completes (m : Master) (s : State) : Completes s (execModereqMaintenance m s) := by
  unfold execModereqMaintenance
  exact completes_done (by simp +contextual)

@[simp] theorem countOrder_steady (s : State) (key : Bytes) : Steady s (countOrder s key) := by
  unfold countOrder
  dsimp only
  (repeat' split) <;> simp

theorem execModereqCommissioning_completes (m : Master) (key sig : Bytes) (s : State) :
    Completes s (execModereqCommissioning m key sig s) := by
  unfold execModereqCommissioning
  refine completes_done ?_
  (repeat' split) <;> simp +contextual

theorem execModereqRunning_completes (m : Master) (s : State) : Completes s (execModereqRunning m s) := by
  unfold execModereqRunning
  exact completes_done (by simp +contextual)

theorem execSysNonceRead_completes (m : Master) (s : State) : Completes s (execSysNonceRead m s) := by
  refine completes_done (guardedRead_steady s m _ _ (fun t => ?_)).upholds
  dsimp only
  split <;> simp

@[simp] theorem commitImageSlot_steady (s : State) : Steady s (commitImageSlot s) := by
  unfold commitImageSlot
  dsimp only
  (repeat' split) <;> simp

theorem execImageCommit_completes (m : Master) (s : State) : Completes s (execImageCommit m s) := by
  refine completes_done (guardedWrite_steady s m _ _ (fun t => ?_)).upholds
  split <;> simp

@[simp] theorem setDeadman_steady (s : State) (n : Nat) (d : Deadman) : Steady s (setDeadman s n d) := ⟨rfl, rfl, rfl, rfl, rfl⟩

@[simp] theorem expireDeadman_upholds (s : State) (n : Nat) :
    Upholds s (expireDeadman s n) := by simp +contextual [expireDeadman]

@[simp] theorem kick_upholds (s : State) (n : Nat) (v : Word) : Upholds s (kick s n v) := by
  unfold kick
  dsimp only
  (repeat' split) <;> simp +contextual

theorem execDeadmanKick_completes (m : Master) (n : BitVec 2) (v : Word) (s : State) : Completes s (execDeadmanKick m n v s) :=
  completes_done (guardedWrite_upholds s m _ _ (fun t => Upholds.of_if (kick_upholds t n.toNat v)))

theorem execDeadmanPrewarn_completes (n : BitVec 2) (s : State) : Completes s (execDeadmanPrewarn n s) := by
  unfold execDeadmanPrewarn
  refine completes_next ?_
  (repeat' split) <;> simp +contextual

theorem execDeadmanExpiry_completes (n : BitVec 2) (s : State) : Completes s (execDeadmanExpiry n s) := by
  unfold execDeadmanExpiry
  refine completes_done ?_
  (repeat' split) <;> simp +contextual

/-! ### Events and settings -/

@[simp] theorem putEvtRoute_steady (s : State) (n : Nat) (w : Word) : Steady s (putEvtRoute s n w) := ⟨rfl, rfl, rfl, rfl, rfl⟩

@[simp] theorem writeEvtRoute_steady (s : State) (n : Nat) (v : Word) : Steady s (writeEvtRoute s n v) := by
  unfold writeEvtRoute
  dsimp only
  (repeat' split) <;> simp

theorem execEvtRouteWrite_completes (m : Master) (src : BitVec 10) (v : Word) (s : State) :
    Completes s (execEvtRouteWrite m src v s) := by
  unfold execEvtRouteWrite
  exact completes_done (by simp +contextual)

@[simp] theorem clearPending_steady (s : State) (m : Master) (n : Nat) (ones : Word) : Steady s (clearPending s m n ones) := by
  unfold clearPending
  refine foldl_steady (fun t e => ?_) _ _
  (repeat' split) <;> simp

theorem execEvtPendClear_completes (m : Master) (n : BitVec 5) (ones : Word) (s : State) :
    Completes s (execEvtPendClear m n ones s) := by
  unfold execEvtPendClear
  exact completes_done (by simp +contextual)

@[simp] theorem writeSst_steady (s : State) (m : Master) (i : Nat) (hi : Word) : Steady s (writeSst s m i hi) := by
  unfold writeSst
  dsimp only
  (repeat' split) <;> simp

@[simp] theorem sstHalf_steady (s : State) (m : Master) (i : Nat) (hi : Bool) (v : Word) : Steady s (sstHalf s m i hi v) := by
  unfold sstHalf
  split <;> simp

theorem execSstWrite_completes (m : Master) (idx : BitVec 8) (hi : Bool) (v : Word) (s : State) :
    Completes s (execSstWrite m idx hi v s) := by
  unfold execSstWrite
  exact completes_done (by simp +contextual)

theorem execSstPersisted_completes (s : State) : Completes s (execSstPersisted s) := by
  unfold execSstPersisted
  exact completes_next (by simp +contextual)

/-! ### Transfers of the host -/

@[simp] theorem hostError_steady (s : State) : Steady s (hostError s) := by simp [hostError]

@[simp] theorem failData_upholds (s : State) (l : Nat) (f : Flight) :
    Upholds s (failData s l f) := by simp +contextual [failData]

@[simp] theorem failRecords_upholds (s : State) (l : Nat) (f : Flight) : Upholds s (failRecords s l f) := by
  unfold failRecords
  dsimp only
  (repeat' split) <;> simp +contextual

@[simp] theorem failExpected_upholds (s : State) (l : Nat) (f : Flight) : Upholds s (failExpected s l f) := by
  unfold failExpected
  dsimp only
  (repeat' split) <;> simp +contextual

@[simp] theorem failService_upholds (s : State) (l : Nat) (f : Flight) : Upholds s (failService s l f) := by
  unfold failService
  split <;> simp +contextual

@[simp] theorem failOpen_steady (s : State) (f : Flight) : Steady s (failOpen s f) := by
  unfold failOpen
  split <;> simp

@[simp] theorem failPayload_upholds (s : State) (l pos : Nat) : Upholds s (failPayload s l pos) := by
  simp only [failPayload]
  (repeat' split) <;> simp +contextual

@[simp] theorem dmaEnd_steady (s : State) (c code moved : Nat) : Steady s (dmaEnd s c code moved) := by simp [dmaEnd]

@[simp] theorem startDma_steady (s : State) (c dir : Nat) : Steady s (startDma s c dir) := by
  unfold startDma
  dsimp only
  (repeat' split) <;> simp

theorem execDmaStart_completes (m : Master) (c dir : BitVec 2) (s : State) : Completes s (execDmaStart m c dir s) := by
  unfold execDmaStart
  exact completes_done (by simp +contextual)

@[simp] theorem writePart_upholds (s : State) (c dir lo : Nat) (b : Bytes) : Upholds s (writePart s c dir lo b).state := by
  unfold writePart
  split <;> simp +contextual

@[simp] theorem readPart_steady (s : State) (c dir : Nat) (host : Bytes) (lo hi : Nat) :
    Steady s (readPart s c dir host lo hi).1.state := by
  unfold readPart
  split <;> simp

@[simp] theorem copyLoop_upholds (c dir : Nat) (host : Bytes) (l : List (Nat × Nat)) (s : State) (n : Nat) :
    Upholds s (copyLoop c dir host l s n).state := by
  induction l generalizing s n with
  | nil => exact Upholds.refl s
  | cons e r ih =>
    obtain ⟨lo, hi⟩ := e
    have hread := (readPart_steady s c dir host lo hi).upholds
    have hwritten := hread.trans (writePart_upholds _ c dir lo (readPart s c dir host lo hi).2)
    unfold copyLoop
    dsimp only
    split
    · exact hread
    split
    · exact hwritten
    · exact hwritten.trans (ih _ _)

@[simp] theorem copyBytes_upholds (s : State) (c n : Nat) (host : Bytes) :
    Upholds s (copyBytes s c n host).state := by simp +contextual [copyBytes]

@[simp] theorem finishDma_upholds (s : State) (c : Nat) (host : Bytes) (seen : Access) :
    Upholds s (finishDma s c host seen) := by
  unfold finishDma
  dsimp only
  (repeat' split) <;> simp +contextual

theorem execDmaCopyEnd_completes (c : BitVec 2) (data : Bytes) (outcome : Access) (s : State) :
    Completes s (execDmaCopyEnd c data outcome s) := by
  unfold execDmaCopyEnd
  refine completes_done ?_
  (repeat' split) <;> simp +contextual

@[simp] theorem abortDma_upholds (s : State) (c : Nat) : Upholds s (abortDma s c) := by
  unfold abortDma
  dsimp only
  (repeat' split) <;> simp +contextual

theorem execDmaAbort_completes (m : Master) (c : BitVec 2) (s : State) : Completes s (execDmaAbort m c s) := by
  unfold execDmaAbort
  exact completes_done (by simp +contextual)

@[simp] theorem failDma_upholds (s : State) (c : Nat) : Upholds s (failDma s c) := by
  unfold failDma
  dsimp only
  (repeat' split) <;> simp +contextual

@[simp] theorem hostReadFails_upholds (s : State) (r : HostRead) : Upholds s (hostReadFails s r) := by
  unfold hostReadFails
  cases r with
  | upEntry l =>
    dsimp only
    split
    · exact Steady.upholds (by simp)
    · exact Upholds.refl s
  | records l =>
    dsimp only
    split
    · exact failRecords_upholds _ _ _
    · exact Upholds.refl s
  | expected l =>
    dsimp only
    split
    · exact failExpected_upholds _ _ _
    · exact Upholds.refl s
  | fill l =>
    dsimp only
    split
    · exact (hostError_steady s).upholds.trans
        ((dropSlot_upholds _ _).trans ((failControl_upholds _ _ _).trans (afterTransfer_upholds _)))
    · exact Upholds.refl s
  | payload l pos => exact failPayload_upholds _ _ _
  | dma c => exact failDma_upholds _ _

/-- Recording a host error in the error report changes the report alone. -/
@[simp] theorem noteAer_steady (s t : State) (e : AerError) : Steady t (noteAer s t e) := by
  unfold noteAer
  split <;> simp

theorem execHostCompletionTimeout_completes (r : HostRead) (s : State) : Completes s (execHostCompletionTimeout r s) := by
  unfold execHostCompletionTimeout
  refine completes_done ?_
  (repeat' split) <;> simp +contextual

theorem execHostReadError_completes (r : HostRead) (s : State) : Completes s (execHostReadError r s) := by
  unfold execHostReadError
  refine completes_done ?_
  (repeat' split) <;> simp +contextual

@[simp] theorem loadReason_steady (s : State) (r : Nat) : Steady s (loadReason s r) := ⟨rfl, rfl, rfl, rfl, rfl⟩

@[simp] theorem loadRefusal_steady (s : State) (st reason : Nat) :
    Steady s (loadRefusal s st reason).state := ⟨rfl, rfl, rfl, rfl, rfl⟩

@[simp] theorem beginLoad_steady (s : State) : Steady s (beginLoad s) := by simp [beginLoad]

@[simp] theorem finishLoad_steady (s : State) : Steady s (finishLoad s).state := by
  unfold finishLoad
  dsimp only
  (repeat' split) <;> simp

@[simp] theorem loadReply_steady (s : State) (raw chunk : Bytes) : Steady s (loadReply s raw chunk).state := by
  unfold loadReply
  dsimp only
  (repeat' split) <;> simp

theorem execImageLoad_completes (line : BitVec 19) (pos : Nat) (chunk : Bytes) (s : State) :
    Completes s (execImageLoad line pos chunk s) := by
  unfold execImageLoad
  exact completes_done (by simp +contextual)

@[simp] theorem usbReply_steady (s : State) (w payload : Bytes) : Steady s (usbReply s w payload).state := by
  unfold usbReply
  dsimp only
  (repeat' split) <;> simp

@[simp] theorem usbTakeExport_steady (s : State) (w : Bytes) (bad : List Nat) : Steady s (usbTakeExport s w bad) := by
  unfold usbTakeExport
  dsimp only
  (repeat' split) <;> simp

theorem execBulkWaybill_completes (w : Bytes) (payload : Reading Bytes) (s : State) :
    Completes s (execBulkWaybill w payload s) := by
  refine completes_done ?_
  dsimp only
  split
  · split
    · exact (usbTakeExport_steady s _ _).upholds
    · exact ((usbReply_steady s _ _).trans (usbCompletion_steady _ _ _ _)).upholds
  · exact Upholds.refl s

end Sys2Proof.Invariants
end

section
/-! PROOF. The fabric and the cores: every access, exception and instruction keeps the four. -/

namespace Sys2Proof.Invariants

open Sys2Proof.Machine

/-! ### Operands -/

@[simp] theorem setCore_frame (s : State) (n : Nat) (c : Core) :
    (setCore s n c).pending = s.pending ∧ (setCore s n c).fusesOk = s.fusesOk ∧ (setCore s n c).ttc = s.ttc ∧
      (setCore s n c).mem = s.mem := ⟨rfl, rfl, rfl, rfl⟩

theorem setCore_upholds (s : State) (n : Nat) {c : Core} (hc : WorldsOk s.cores → CoreOk c) : Upholds s (setCore s n c) :=
  ⟨⟨rfl, rfl⟩, fun _ => id, id, fun h => worldsOk_setCore h n (hc h)⟩

theorem putWorld_upholds (s : State) (n : Nat) (sig : Bool) {w : World} (hw : WorldsOk s.cores → w.ok) :
    Upholds s (putWorld s n sig w) :=
  setCore_upholds s n (fun h => (h.coreAt n).put sig (hw h))

@[simp] theorem modWorld_upholds (s : State) (n : Nat) (f : World → World) (hf : ∀ w, w.ok → (f w).ok) :
    Upholds s (modWorld s n f) :=
  putWorld_upholds s n _ (fun h => hf _ (h.curWorld n))

/-! ### The fabric -/

theorem ran_upholds {s : State} {o : Out} (h : Completes s o) : Upholds s (ran s o) := by
  obtain ⟨t, rfl, ht⟩ := h
  exact ht

@[simp] theorem offPort_steady (s t : State) : Steady t (offPort s t).state := ⟨rfl, rfl, rfl, rfl, rfl⟩

@[simp] theorem readLow_steady (s : State) (m : Master) (a : Nat) : Steady s (readLow s m a).state := ⟨rfl, rfl, rfl, rfl, rfl⟩

@[simp] theorem readHigh_steady (s : State) (m : Master) (a : Nat) : Steady s (readHigh s m a).state := by
  unfold readHigh
  split <;> simp

@[simp] theorem readClears_steady (s : State) (m : Master) (a : Nat) :
    Steady s (readClears s m a).state := ⟨rfl, rfl, rfl, rfl, rfl⟩

@[simp] theorem readMbx_steady (s : State) (m : Master) (a : Nat) : Steady s (readMbx s m a).state := by
  unfold readMbx
  split <;> simp

theorem RegRead.upholds_ite {s : State} {c : Prop} [Decidable c] {r q : RegRead} (hr : Upholds s r.state) (hq : Upholds s q.state) :
    Upholds s (if c then r else q).state := by
  split
  · exact hr
  · exact hq

theorem readReg_upholds (s : State) (m : Master) (a : Nat) : Upholds s (readReg s m a).state := by
  have hport (t : State) (h : Upholds s t) : Upholds s (offPort s t).state := h.trans (offPort_steady s t).upholds
  unfold readReg
  refine RegRead.upholds_ite (Upholds.refl s) ?_
  refine RegRead.upholds_ite (hport _ (takeLock_steady s m a).upholds) ?_
  refine RegRead.upholds_ite (hport _ (maeLockRead_upholds s m)) ?_
  refine RegRead.upholds_ite (hport _ (readEnt_steady s m).upholds) ?_
  refine RegRead.upholds_ite (hport _ (ran_upholds (execSysNonceRead_completes m s))) ?_
  refine RegRead.upholds_ite (hport _ (nonceRead_steady s).upholds) ?_
  refine RegRead.upholds_ite (readMbx_steady s m a).upholds ?_
  refine RegRead.upholds_ite (hport _ (tabletTake_steady s m _).upholds) ?_
  refine RegRead.upholds_ite (readClears_steady s m a).upholds ?_
  refine RegRead.upholds_ite (usedFree_steady s).upholds ?_
  refine RegRead.upholds_ite (readLow_steady s m a).upholds ?_
  exact RegRead.upholds_ite (readHigh_steady s m a).upholds (Upholds.refl s)

@[simp] theorem writePlain_steady (s : State) (a : Nat) (v : Word) : Steady s (writePlain s a v) := by
  unfold writePlain
  split <;> simp

@[simp] theorem wSys_upholds (s : State) (m : Master) (a : Nat) (v : Word) : Upholds s (wSys s m a v) := by
  unfold wSys
  refine Upholds.of_if ?_
  split
  · exact ran_upholds (execModereqMaintenance_completes m s)
  · exact modeRequest_upholds s m _ _ _
  · exact ran_upholds (execModereqRunning_completes m s)
  · exact Upholds.refl s

@[simp] theorem selectMeas_steady (s : State) (v : Word) : Steady s (selectMeas s v) := by
  unfold selectMeas
  split <;> simp

@[simp] theorem wClk_steady (s : State) (a : Nat) (v : Word) : Steady s (wClk s a v) := by
  unfold wClk
  split <;> simp

@[simp] theorem wPwr_upholds (s : State) (a : Nat) (v : Word) : Upholds s (wPwr s a v) := by
  unfold wPwr
  dsimp only
  (repeat' split) <;> simp +contextual

@[simp] theorem wEvt_steady (s : State) (m : Master) (a : Nat) (v : Word) : Steady s (wEvt s m a v) := by
  simp only [wEvt]
  (repeat' split) <;> simp

@[simp] theorem wIlk_steady (s : State) (a : Nat) (v : Word) : Steady s (wIlk s a v) := by
  unfold wIlk
  dsimp only
  (repeat' split) <;> simp

@[simp] theorem wMbx_steady (s : State) (m : Master) (a : Nat) (v : Word) : Steady s (wMbx s m a v) := by
  unfold wMbx
  dsimp only
  (repeat' split) <;> simp

@[simp] theorem writeDmnCtrl_steady (s : State) (n : Nat) (v : Word) : Steady s (writeDmnCtrl s n v) := by
  unfold writeDmnCtrl
  dsimp only
  (repeat' split) <;> simp

@[simp] theorem wDmn_upholds (s : State) (m : Master) (a : Nat) (v : Word) : Upholds s (wDmn s m a v) := by
  unfold wDmn
  split
  · simp
  split
  · exact Upholds.of_if (ran_upholds (execImageCommit_completes m s))
  split
  · exact ran_upholds (execDeadmanKick_completes m _ v s)
  · exact (writePlain_steady s a v).upholds

@[simp] theorem wTtc_upholds (s : State) (a : Nat) (v : Word) : Upholds s (wTtc s a v) := by
  simp only [wTtc]
  (repeat' split) <;> simp +contextual

@[simp] theorem kdeControl_upholds (s : State) (m : Master) (v : Word) : Upholds s (kdeControl s m v) := by
  unfold kdeControl
  exact (Upholds.of_if (kdeStart_upholds s m false)).trans ((Upholds.of_if (kdeFeed_steady _).upholds).trans
    ((Upholds.of_if (kdeSaveUnless_upholds _ _)).trans ((Upholds.of_if (kdeRestore_upholds _ m)).trans
      ((Upholds.of_if (kdeAbort_steady _).upholds).trans (Upholds.of_if (kdeClear_steady _).upholds)))))

@[simp] theorem kdeOwnWrite_upholds (s : State) (m : Master) (a : Nat) (v : Word) : Upholds s (kdeOwnWrite s m a v) := by
  simp only [kdeOwnWrite]
  (repeat' split) <;> simp +contextual

@[simp] theorem wKde_upholds (s : State) (m : Master) (a : Nat) (v : Word) : Upholds s (wKde s m a v) := by
  simp only [wKde]
  (repeat' split) <;> simp +contextual

@[simp] theorem writeMaeOp_steady (s : State) (v : Word) : Steady s (writeMaeOp s v) := ⟨rfl, rfl, rfl, rfl, rfl⟩

@[simp] theorem writeMaeConfig_steady (s : State) (v : Word) : Steady s (writeMaeConfig s v) := by
  unfold writeMaeConfig
  split <;> simp

@[simp] theorem maeControl_upholds (s : State) (v : Word) : Upholds s (maeControl s v) := by
  unfold maeControl
  exact (Upholds.of_if (maeStart_upholds s)).trans
    ((Upholds.of_if (maeAbort_upholds _)).trans (Upholds.of_if (maeWipe_upholds _)))

@[simp] theorem wMae_upholds (s : State) (m : Master) (a : Nat) (v : Word) : Upholds s (wMae s m a v) := by
  simp only [wMae]
  (repeat' split) <;> simp +contextual

@[simp] theorem wLsu_upholds (s : State) (m : Master) (a : Nat) (v : Word) : Upholds s (wLsu s m a v) := by
  unfold wLsu
  split
  · exact lsuPush_upholds s m v
  split
  · exact Upholds.of_if (endQueued_upholds s 0x09 _)
  split
  · exact ran_upholds (execLsuFence_completes m _ s)
  · exact (writePlain_steady s a v).upholds

@[simp] theorem btrOp_upholds (s : State) (m : Master) (v : Word) : Upholds s (btrOp s m v) := by
  unfold btrOp
  dsimp only
  split
  · exact ran_upholds (execBtrDerive_completes m s)
  · exact ran_upholds (execInstallEncaps_completes m _ s)
  · exact ran_upholds (execInstallDecaps_completes m _ s)
  · exact ran_upholds (execInvalidate_completes m s)
  · exact ran_upholds (execPurge_completes m s)
  · exact ran_upholds (execRotate_completes m s)
  · exact ran_upholds (execTrunkCreate_completes m s)
  · exact ran_upholds (execTrunkZeroise_completes m s)
  · exact ran_upholds (execBackup_completes m s)
  · exact ran_upholds (execRescue_completes m s)
  · exact ran_upholds (execRelease_completes m s)
  · exact ran_upholds (execBtrImport_completes m s)
  · simp

@[simp] theorem wBtr_upholds (s : State) (m : Master) (a : Nat) (v : Word) : Upholds s (wBtr s m a v) := by
  simp only [wBtr]
  (repeat' split) <;> simp +contextual

@[simp] theorem wMsh_upholds (s : State) (m : Master) (a : Nat) (v : Word) : Upholds s (wMsh s m a v) := by
  unfold wMsh
  split
  · exact ran_upholds (execTrackFence_completes m _ s)
  · exact (writePlain_steady s a v).upholds

@[simp] theorem writeEpochLen_steady (s : State) (hi : Word) : Steady s (writeEpochLen s hi) := by
  unfold writeEpochLen
  dsimp only
  (repeat' split) <;> simp

@[simp] theorem wSeal_steady (s : State) (a : Nat) (v : Word) : Steady s (wSeal s a v) := by
  simp only [wSeal]
  (repeat' split) <;> simp

@[simp] theorem wFlc_upholds (s : State) (m : Master) (a : Nat) (v : Word) : Upholds s (wFlc s m a v) := by
  unfold wFlc
  split
  · split
    · exact ran_upholds (execFlcRead_completes m s)
    · exact ran_upholds (execFlcProgram_completes m s)
    · exact ran_upholds (execFlcErase_completes m s)
    · exact ran_upholds (execFlcClaim_completes m s)
    · exact ran_upholds (execFlcReturn_completes m s)
    · exact (flcCommand_steady s m _ Steady.refl).upholds
  split
  · simp
  · exact (writePlain_steady s a v).upholds

@[simp] theorem wCci_upholds (s : State) (m : Master) (a : Nat) (v : Word) : Upholds s (wCci s m a v) := by
  unfold wCci
  split
  · split
    · exact ran_upholds (execCardFormatExport_completes m s)
    · exact ran_upholds (execCardFormatBackup_completes m s)
    · exact ran_upholds (execCardFormatCredential_completes m s)
    · exact ran_upholds (execForceErase_completes m s)
    · exact ran_upholds (execEject_completes m s)
    · simp
  split
  · simp
  · exact (writePlain_steady s a v).upholds

@[simp] theorem wLko_upholds (s : State) (m : Master) (a : Nat) (v : Word) : Upholds s (wLko s m a v) := by
  unfold wLko
  split
  · split
    · exact ran_upholds (execSelftest_completes m _ s)
    · exact ran_upholds (execBadgeEnrol_completes m _ s)
    · exact ran_upholds (execStop_completes m s)
    · exact ran_upholds (execRebase_completes m s)
    · exact (lkoCommand_steady s m _ Steady.refl).upholds
  · exact (writePlain_steady s a v).upholds

@[simp] theorem wTlp_steady (s : State) (a : Nat) (v : Word) : Steady s (wTlp s a v) := by
  simp only [wTlp]
  (repeat' split) <;> simp

@[simp] theorem releaseControl_upholds (s : State) (m : Master) (v : Word) : Upholds s (releaseControl s m v) := by
  unfold releaseControl
  dsimp only
  (repeat' split) <;> simp +contextual

@[simp] theorem wLsm_upholds (s : State) (m : Master) (a : Nat) (v : Word) : Upholds s (wLsm s m a v) := by
  unfold wLsm
  dsimp only
  (repeat' split) <;> simp +contextual

@[simp] theorem wSst_steady (s : State) (m : Master) (a : Nat) (v : Word) : Steady s (wSst s m a v) := by
  unfold wSst
  split <;> simp

@[simp] theorem writeMsix_steady (s : State) (a : Nat) (v : Word) : Steady s (writeMsix s a v) := by
  unfold writeMsix
  dsimp only
  (repeat' split) <;> simp

@[simp] theorem dropMirrors_steady (s : State) : Steady s (dropMirrors s) := by
  unfold dropMirrors
  split <;> simp

@[simp] theorem wHlk_upholds (s : State) (m : Master) (a : Nat) (v : Word) : Upholds s (wHlk s m a v) := by
  simp only [wHlk]
  (repeat' split) <;> simp +contextual

@[simp] theorem writeDmaCtrl_upholds (s : State) (c : Nat) (v : Word) : Upholds s (writeDmaCtrl s c v) := by
  unfold writeDmaCtrl
  dsimp only
  (repeat' split) <;> simp +contextual

@[simp] theorem wDma_upholds (s : State) (a : Nat) (v : Word) : Upholds s (wDma s a v) := by
  simp only [wDma]
  (repeat' split) <;> simp +contextual

@[simp] theorem wDbg_upholds (s : State) (m : Master) (a : Nat) (v : Word) : Upholds s (wDbg s m a v) := by
  unfold wDbg
  dsimp only
  (repeat' split) <;> simp +contextual

@[simp] theorem writeReg_upholds (s : State) (m : Master) (a : Nat) (v : Word) : Upholds s (writeReg s m a v) := by
  simp only [writeReg]
  (repeat' split) <;> simp +contextual

@[simp] theorem readBlock_upholds (s : State) (m : Master) (a n : Nat) : Upholds s (readBlock s m a n).state := by
  have hread := readReg_upholds s m (a / 4 * 4)
  unfold readBlock
  dsimp only
  split
  · exact (sealFault_steady s _).upholds
  split
  · exact hread
  · exact hread

@[simp] theorem fabricRead_upholds (s : State) (m : Master) (a n : Nat) : Upholds s (fabricRead s m a n).state := by
  simp only [fabricRead]
  (repeat' split) <;> simp +contextual

@[simp] theorem writeBlock_upholds (s : State) (m : Master) (a n : Nat) (v : Word) : Upholds s (writeBlock s m a n v) := by
  unfold writeBlock
  split <;> simp +contextual

@[simp] theorem fabricWrite_upholds (s : State) (m : Master) (a n : Nat) (v : Word) :
    Upholds s (fabricWrite s m a n v).state := by
  simp only [fabricWrite]
  (repeat' split) <;> simp +contextual

@[simp] theorem writeWords_upholds (s : State) (m : Master) (a : Nat) (v : Word) (upper : Option Word) :
    Upholds s (writeWords s m a v upper) := by
  unfold writeWords
  dsimp only
  (repeat' split) <;> simp +contextual

theorem execRegisterWrite_completes (m : Master) (addr : Word) (v : WriteData) (s : State) :
    Completes s (execRegisterWrite m addr v s) := by
  unfold execRegisterWrite
  refine completes_done ?_
  (repeat' split) <;> simp +contextual

@[simp] theorem showLoad_steady (m : Master) (r : Load) : Steady r.state (showLoad m r) := by
  unfold showLoad
  split <;> simp

@[simp] theorem readRow_upholds (s : State) (m : Master) (a : Nat) : Upholds s (readRow s m a) := by
  unfold readRow
  split
  · exact (entWait_steady _ _).upholds
  · exact (fabricRead_upholds s m a 4).trans (showLoad_steady m _).upholds

@[simp] theorem readWide_upholds (s : State) (m : Master) (a : Nat) : Upholds s (readWide s m a) := by
  unfold readWide
  split <;> simp +contextual

@[simp] theorem readWindowC_steady (s : State) (off : Nat) (wide : Bool) : Steady s (readWindowC s off wide) := by
  simp only [readWindowC]
  (repeat' split) <;> simp

@[simp] theorem readAt_upholds (s : State) (wide : Bool) (x : ReadAt) : Upholds s (readAt s wide x) := by
  simp only [readAt]
  (repeat' split) <;> simp +contextual

theorem execRcRead_completes (target : ReadAt) (wide : Bool) (s : State) : Completes s (execRcRead target wide s) := by
  unfold execRcRead
  refine completes_done ?_
  (repeat' split) <;> simp +contextual

theorem execLowHalfRead_completes (m : Master) (addr : Word) (s : State) : Completes s (execLowHalfRead m addr s) := by
  unfold execLowHalfRead
  refine completes_done ?_
  (repeat' split) <;> simp +contextual

theorem execClkMeasSelect_completes (m : Master) (v : Word) (s : State) : Completes s (execClkMeasSelect m v s) := by
  unfold execClkMeasSelect
  exact completes_done (by simp +contextual)

theorem execClkMeasDone_completes (khz : BitVec 24) (s : State) : Completes s (execClkMeasDone khz s) := by
  unfold execClkMeasDone
  refine completes_next ?_
  (repeat' split) <;> simp +contextual

@[simp] theorem certWrite_steady (s : State) (o : Nat) (v : Word) : Steady s (certWrite s o v) := ⟨rfl, rfl, rfl, rfl, rfl⟩

@[simp] theorem tapWrite_upholds (s : State) (a : Nat) (v : Word) : Upholds s (tapWrite s a v) := by
  unfold tapWrite
  dsimp only
  (repeat' split) <;> simp +contextual

theorem execDebugAccess_completes (write : Bool) (addr v : Word) (s : State) :
    Completes s (execDebugAccess write addr v s) := by
  refine completes_done ?_
  dsimp only
  split
  · exact Upholds.refl s
  split
  · split
    · exact Upholds.refl s
    · exact (readData_steady s 0).upholds
  split
  · split
    · exact tapWrite_upholds s _ v
    · exact (readReg_upholds s 32 _).trans (readData_steady _ _).upholds
  split
  · exact fabricWrite_upholds s 32 _ 4 v
  · exact readRow_upholds s 32 _

/-! ### Exceptions, and how an instruction issues -/

@[simp] theorem doubleFault_upholds (s : State) (n : Nat) : Upholds s (doubleFault s n) :=
  (setCore_upholds s n (c := { coreAt s n with stopped := true, wait := .none }) (fun h => h.coreAt n)).trans
    (raise_steady _ _).upholds

@[simp] theorem switchTo_upholds (s : State) (n : Nat) (sig : Bool) (code : Nat) : Upholds s (switchTo s n sig code) := by
  refine setCore_upholds s n (fun h => ?_)
  have hleft := (h.coreAt n).put (coreAt s n).signalbox (w := { worldOf (coreAt s n) (coreAt s n).signalbox with shadow := false })
    (World.ok_congr ((h.coreAt n).worldOf _) rfl rfl rfl rfl rfl)
  exact hleft.put sig (World.ok_entered (hleft.worldOf sig) code)

theorem frameFault_upholds {s t : State} {m : Master} {l : List (Nat × Word)} (h : frameFault s m l = some t) : Upholds s t := by
  unfold frameFault at h
  obtain ⟨e, -, rfl⟩ := Option.map_eq_some_iff.1 h
  exact fabricWrite_upholds s m e.1 4 e.2

@[simp] theorem takeException_upholds (s : State) (n : Nat) (sig : Bool) (t : Trap) (pc : Word) :
    Upholds s (takeException s n sig t pc) := by
  unfold takeException
  extract_lets c w m l
  split
  · exact (sealFault_steady s n).upholds.trans (doubleFault_upholds _ n)
  split
  · next f hf => exact (frameFault_upholds hf).trans (doubleFault_upholds f n)
  · exact (foldl_upholds (fun u (e : Nat × Word) => fabricWrite_upholds u m e.1 4 e.2) l s).trans (switchTo_upholds _ _ _ _)

@[simp] theorem faultAt_upholds (s : State) (n : Nat) (t : Trap) : Upholds s (faultAt s n t) := by simp +contextual [faultAt]

@[simp] theorem fetchWord_steady (s : State) (n : Nat) (pc : Word) : Steady s (fetchWord s n pc).state := by
  unfold fetchWord
  dsimp only
  (repeat' split) <;> simp

@[simp] theorem fetchInstr_steady (s : State) (n size : Nat) : Steady s (fetchInstr s n size).state := by
  unfold fetchInstr
  dsimp only
  (repeat' split) <;> simp

@[simp] theorem registerSealFault_upholds (s : State) (n : Nat) :
    Upholds s (registerSealFault s n) := by simp +contextual [registerSealFault]

/-- What an effect leaves upholds the four, and a jump goes to a word address. -/
def EffectUpholds (s : State) : Effect → Prop
  | .complete t => Upholds s t
  | .jump t pc => Upholds s t ∧ (WorldsOk s.cores → pc.toNat % 4 = 0)
  | .placed t => Upholds s t
  | .stay t => Upholds s t
  | .again t => Upholds s t
  | .fault t _ => Upholds s t
  | .call t _ => Upholds s t

theorem modWorld_shadow_upholds (s : State) (n : Nat) (b : Bool) : Upholds s (modWorld s n (fun w => { w with shadow := b })) :=
  modWorld_upholds s n _ (fun _ h => World.ok_congr h rfl rfl rfl rfl rfl)

theorem modWorld_advancePc_upholds (s : State) (n : Nat) {size : Nat} (hs : size % 4 = 0) :
    Upholds s (modWorld s n (advancePc size)) :=
  modWorld_upholds s n _ (fun _ h => World.ok_advancePc h hs)

theorem settleEffect_upholds {s : State} {e : Effect} (h : EffectUpholds s e) (n : Nat) {size : Nat} (hs : size % 4 = 0)
    (shadow : Bool) : Upholds s (settleEffect n size shadow e) := by
  cases e with
  | complete t => exact Upholds.trans h (modWorld_advancePc_upholds t n hs)
  | jump t pc =>
    obtain ⟨⟨hfix, httc, hmem, hcores⟩, hpc⟩ := h
    refine ⟨hfix, httc, hmem, fun hs => ?_⟩
    exact worldsOk_modWorld (hcores hs) n (fun w hw => World.ok_setPc hw (hpc hs))
  | placed t => exact h
  | stay t => exact Upholds.trans h (modWorld_shadow_upholds t n shadow)
  | again t => exact Upholds.trans h (modWorld_shadow_upholds t n shadow)
  | fault t trap => exact Upholds.trans h (faultAt_upholds t n trap)
  | call t trap =>
    exact Upholds.trans h ((modWorld_advancePc_upholds t n hs).trans (takeException_upholds _ _ _ _ _))

@[simp] theorem unshadow_upholds (s : State) (n : Nat) : Upholds s (unshadow s n) := modWorld_shadow_upholds s n false

@[simp] theorem unstall_steady (s : State) (n : Nat) : Steady s (unstall s n) := ⟨rfl, rfl, rfl, rfl, rfl⟩

theorem issue_upholds (i : Issue) {size : Nat} (hs : size % 4 = 0) (decode : State → Nat → Option Nat) (reads : Reads)
    (eff : State → Nat → Effect) (s : State)
    (heff : ∀ t n, (∃ u, decode u n = none) → EffectUpholds t (eff t n)) : Upholds s (issue i size decode reads eff s) := by
  have hfetched : Upholds s (fetchInstr (unstall s i.core.toNat) i.core.toNat size).state :=
    ((unstall_steady s _).trans (fetchInstr_steady _ _ _)).upholds
  unfold issue
  extract_lets n f t w
  split
  · exact Upholds.refl s
  split
  · exact hfetched.trans (faultAt_upholds _ _ _)
  split
  · exact hfetched.trans (faultAt_upholds _ _ _)
  · next hdecode =>
    split
    · exact hfetched.trans (registerSealFault_upholds _ _)
    split
    · exact hfetched.trans ((unshadow_upholds _ _).trans (modWorld_advancePc_upholds _ _ hs))
    split
    · exact hfetched.trans (registerSealFault_upholds _ _)
    · exact hfetched.trans ((unshadow_upholds _ _).trans (settleEffect_upholds (heff _ _ ⟨_, hdecode⟩) _ hs _))

@[simp] theorem readWords_upholds (s : State) (m : Master) (core k a : Nat) (acc : List Word) :
    Upholds s (readWords s m core k a acc).1 := by
  induction k generalizing s a acc with
  | zero => exact Upholds.refl s
  | succ k ih =>
    have hread := fabricRead_upholds s m (translate core a) 4
    unfold readWords
    dsimp only
    split
    · exact hread
    · exact hread.trans (ih _ _ _)

theorem returnFrom_upholds (s : State) (n : Nat) : EffectUpholds s (returnFrom s n) := by
  unfold returnFrom
  extract_lets sig r l t toSig c
  have hread : Upholds s r.1 := readWords_upholds _ _ _ _ _ _
  split
  · exact hread
  split
  · exact Upholds.refl s
  split
  · exact Upholds.refl s
  · next hpc =>
    have hpopped : Upholds r.1 t := modWorld_upholds _ n _ (fun _ h => World.ok_congr h rfl rfl rfl rfl rfl)
    refine hread.trans (hpopped.trans (setCore_upholds t n (fun h => ?_)))
    exact (h.coreAt n).put toSig (World.ok_restored ((h.coreAt n).worldOf toSig) ((toNat_mod_four_iff _).2 (not_not.1 hpc)))

@[simp] theorem takeWake_upholds (s : State) (n : Nat) (rd : BitVec 5) : Upholds s (takeWake s n rd) :=
  (modWorld_upholds s n _ (fun _ h => World.ok_writeW h rd _)).trans (setCore_upholds _ n (fun h => h.coreAt n))

@[simp] theorem endWait_upholds (s : State) (n : Nat) : Upholds s (endWait s n) :=
  (unshadow_upholds s n).trans (setCore_upholds _ n (fun h => h.coreAt n))

@[simp] theorem leaveWait_upholds (s : State) (n : Nat) : Upholds s (leaveWait s n) := by
  unfold leaveWait
  split
  · have hnext (w : World) (h : w.ok) : World.ok { w with pc := w.pc + 4 } :=
      World.ok_setPc h (add_ofNat_mod_four 4 h.2.2.1 rfl)
    exact (takeWake_upholds s n _).trans ((modWorld_upholds _ n _ hnext).trans (endWait_upholds _ n))
  · exact setCore_upholds s n (fun h => h.coreAt n)
  · exact Upholds.refl s

@[simp] theorem takeInterrupt_upholds (s : State) (n : Nat) : Upholds s (takeInterrupt s n) := by
  unfold takeInterrupt
  dsimp only
  (repeat' split) <;> simp +contextual

/-! ### Arithmetic and predicates -/

theorem wordOp_completes (i : Issue) {size : Nat} (hs : size % 4 = 0) (rd : BitVec 5) (reads : List (BitVec 5)) (v : World → Word)
    (s : State) : Completes s (wordOp i size rd reads v s) :=
  completes_done (issue_upholds i hs _ _ _ s (fun t n _ => modWorld_upholds t n _ (fun w h => World.ok_writeW h rd (v w))))

theorem carryOp_completes (i : Issue) (rd ra rb : BitVec 5) (f : Word → Word → Bool → Word) (c : Word → Word → Bool → Bool) (s : State) :
    Completes s (carryOp i rd ra rb f c s) :=
  completes_done (issue_upholds i rfl _ _ _ s (fun t n _ =>
    modWorld_upholds t n _ (fun _ h => World.ok_writeP (World.ok_writeW h rd _) 7 _)))

theorem compareOp_completes (i : Issue) (pd : BitVec 3) (pair : Bool) (reads : List (BitVec 5)) (cond : World → Bool) (s : State) :
    Completes s (compareOp i pd pair reads cond s) := by
  refine completes_done (issue_upholds i rfl _ _ _ s (fun t n _ => modWorld_upholds t n _ (fun w h => ?_)))
  split
  · exact World.ok_writePair h pd _ _
  · exact World.ok_writeP h pd _

theorem predOp_completes (i : Issue) (pd : BitVec 3) (reads : Bool) (v : World → Bool) (s : State) :
    Completes s (predOp i pd reads v s) :=
  completes_done (issue_upholds i rfl _ _ _ s (fun t n _ => modWorld_upholds t n _ (fun w h => World.ok_writeP h pd (v w))))

/-! ### Memory instructions -/

theorem loadOp_completes (i : Issue) (n : Nat) (rd ra : BitVec 5) (imm : BitVec 12) (ext : Word → Word) (s : State) :
    Completes s (loadOp i n rd ra imm ext s) := by
  refine completes_done (issue_upholds i rfl _ _ _ s (fun t c _ => ?_))
  have hread := fabricRead_upholds t (masterOf t c) (translate c (address (curWorld t c) ra imm).toNat) n
  dsimp only
  split
  · exact Upholds.refl t
  split
  · exact (entWait_steady t _).upholds
  split
  · exact hread
  · exact hread.trans (modWorld_upholds _ c _ (fun _ h => World.ok_writeW h rd _))

theorem storeOp_completes (i : Issue) (n : Nat) (rs ra : BitVec 5) (imm : BitVec 12) (s : State) :
    Completes s (storeOp i n rs ra imm s) := by
  refine completes_done (issue_upholds i rfl _ _ _ s (fun t c _ => ?_))
  have hwritten := fabricWrite_upholds t (masterOf t c) (translate c (address (curWorld t c) ra imm).toNat) n (readW (curWorld t c) rs)
  dsimp only
  split
  · exact Upholds.refl t
  split
  · exact hwritten
  · exact hwritten

@[simp] theorem Step.of_steady (r : Load) (acc a : Word) : Steady r.state (Step.of r acc a).state := Steady.refl _

@[simp] theorem copyWords_upholds (m : Master) (core k : Nat) (d a : Word) (s : State) :
    Upholds s (copyWords m core k d a s).state := by
  induction k generalizing d a s with
  | zero => exact Upholds.refl s
  | succ k ih =>
    have hread := fabricRead_upholds s m (translate core a.toNat) 4
    have hwritten := hread.trans (fabricWrite_upholds _ m (translate core d.toNat) 4
      (fabricRead s m (translate core a.toNat) 4).value)
    unfold copyWords
    dsimp only
    split
    · exact (entWait_steady s _).upholds
    split
    · exact hread
    split
    · exact hwritten
    · exact hwritten.trans (ih _ _ _)

@[simp] theorem zeroWords_upholds (m : Master) (core k : Nat) (d : Word) (s : State) :
    Upholds s (zeroWords m core k d s).state := by
  induction k generalizing d s with
  | zero => exact Upholds.refl s
  | succ k ih =>
    have hwritten := fabricWrite_upholds s m (translate core d.toNat) 4 0
    unfold zeroWords
    dsimp only
    split
    · exact hwritten
    · exact hwritten.trans (ih _ _)

@[simp] theorem diffWords_upholds (m : Master) (core k : Nat) (a b acc : Word) (s : State) :
    Upholds s (diffWords m core k a b acc s).state := by
  induction k generalizing a b acc s with
  | zero => exact Upholds.refl s
  | succ k ih =>
    have hfirst := fabricRead_upholds s m (translate core a.toNat) 4
    have hboth := hfirst.trans (fabricRead_upholds _ m (translate core b.toNat) 4)
    unfold diffWords
    dsimp only
    split
    · exact (entWait_steady s _).upholds
    split
    · exact (entWait_steady s _).upholds
    split
    · exact hfirst
    split
    · exact hboth
    · exact hboth.trans (ih _ _ _ _)

@[simp] theorem holdStep_upholds (s : State) (n done : Nat) (acc : Word) : Upholds s (holdStep s n done acc) :=
  setCore_upholds s n (fun h => h.coreAt n)

theorem endStep_upholds {s t : State} (h : Upholds s t) (left : Word) : EffectUpholds s (endStep t left) := by
  unfold endStep
  split <;> exact h

/-- The operands that one step of a block copy leaves. -/
theorem execBcopy_completes (i : Issue) (wd ws wn : BitVec 5) (s : State) : Completes s (execBcopy i wd ws wn s) := by
  refine completes_done (issue_upholds i rfl _ _ _ s (fun t c _ => ?_))
  extract_lets w k o r
  have hcopied : Upholds t r.state := copyWords_upholds _ _ _ _ _ _
  split
  · exact Upholds.refl t
  split
  · exact hcopied
  split
  · exact hcopied.trans (holdStep_upholds _ _ _ _)
  · exact endStep_upholds (hcopied.trans ((holdStep_upholds _ _ _ _).trans (modWorld_upholds _ c _ (fun _ h =>
      World.ok_writeW (World.ok_writeW (World.ok_writeW h _ _) _ _) _ _)))) _

theorem execBzero_completes (i : Issue) (wd wn : BitVec 5) (s : State) : Completes s (execBzero i wd wn s) := by
  refine completes_done (issue_upholds i rfl _ _ _ s (fun t c _ => ?_))
  extract_lets w k r
  have hzeroed : Upholds t r.state := zeroWords_upholds _ _ _ _ _
  split
  · exact Upholds.refl t
  split
  · exact hzeroed
  · exact endStep_upholds (hzeroed.trans (modWorld_upholds _ c _ (fun _ h => World.ok_writeW (World.ok_writeW h _ _) _ _))) _

theorem execCteq_completes (i : Issue) (pd : BitVec 3) (wa wb wn : BitVec 5) (s : State) :
    Completes s (execCteq i pd wa wb wn s) := by
  refine completes_done (issue_upholds i rfl _ _ _ s (fun t c _ => ?_))
  extract_lets w k d o r left u
  have hread : Upholds t r.state := diffWords_upholds _ _ _ _ _ _ _
  have hstepped : Upholds t u := hread.trans ((holdStep_upholds _ _ _ _).trans (modWorld_upholds _ c _ (fun _ h =>
    World.ok_writeW (World.ok_writeW (World.ok_writeW (World.ok_writeW h _ _) _ _) _ _) _ _)))
  split
  · exact Upholds.refl t
  split
  · exact hread
  split
  · exact hread.trans (holdStep_upholds _ _ _ _)
  · refine endStep_upholds ?_ left
    split
    · exact hstepped.trans (modWorld_upholds u c _ (fun _ h => World.ok_writePair h pd _ _))
    · exact hstepped

/-! ### Control, waits and special registers -/

theorem jumpTo_upholds (s : State) (target : Word) : EffectUpholds s (jumpTo s target) := by
  unfold jumpTo
  split
  · exact Upholds.refl s
  · next h => exact ⟨Upholds.refl s, fun _ => (toNat_mod_four_iff _).2 (not_not.1 h)⟩

theorem callTo_upholds (s : State) (n size : Nat) (target : Word) : EffectUpholds s (callTo s n size target) := by
  unfold callTo
  dsimp only
  split
  · exact Upholds.refl s
  split
  · exact Upholds.refl s
  · next h _ =>
    exact ⟨modWorld_upholds s n _ (fun _ hw => World.ok_pushStack hw _), fun _ => (toNat_mod_four_iff _).2 (not_not.1 h)⟩

theorem offset22_mod_four (v : BitVec 22) : (offset22 v).toNat % 4 = 0 := by
  unfold offset22
  rw [BitVec.toNat_shiftLeft, Nat.shiftLeft_eq]
  omega

theorem execBr_completes (i : Issue) (off : BitVec 22) (s : State) : Completes s (execBr i off s) :=
  completes_done (issue_upholds i rfl _ _ _ s (fun t n _ =>
    ⟨Upholds.refl t, fun h => add_mod_four (h.curWorld n).2.2.1 (offset22_mod_four off)⟩))

theorem execCall_completes (i : Issue) (off : BitVec 22) (s : State) : Completes s (execCall i off s) :=
  completes_done (issue_upholds i rfl _ _ _ s (fun t n _ => callTo_upholds t n 4 _))

theorem execJr_completes (i : Issue) (ra : BitVec 5) (s : State) : Completes s (execJr i ra s) :=
  completes_done (issue_upholds i rfl _ _ _ s (fun t _ _ => jumpTo_upholds t _))

theorem execCallr_completes (i : Issue) (ra : BitVec 5) (s : State) : Completes s (execCallr i ra s) :=
  completes_done (issue_upholds i rfl _ _ _ s (fun t n _ => callTo_upholds t n 4 _))

theorem execRet_completes (i : Issue) (s : State) : Completes s (execRet i s) := by
  refine completes_done (issue_upholds i rfl _ _ _ s (fun t n _ => ?_))
  split
  · exact Upholds.refl t
  split
  · exact Upholds.refl t
  · next h => exact ⟨modWorld_upholds t n _ (fun _ hw => World.ok_dropTop hw), fun _ => (toNat_mod_four_iff _).2 (not_not.1 h)⟩

theorem execCalla_completes (i : Issue) (imm : Word) (s : State) : Completes s (execCalla i imm s) :=
  completes_done (issue_upholds i rfl _ _ _ s (fun t n _ => callTo_upholds t n 8 imm))

theorem constrained_eq_none {ok : Bool} {s : State} {n : Nat} (h : constrained ok s n = none) : ok = true := by
  unfold constrained at h
  split at h
  · assumption
  · cases h

theorem execBra_completes (i : Issue) (imm : Word) (s : State) : Completes s (execBra i imm s) := by
  refine completes_done (issue_upholds i rfl _ _ _ s (fun t n hlegal => ⟨Upholds.refl t, fun _ => ?_⟩))
  obtain ⟨u, hu⟩ := hlegal
  exact (toNat_mod_four_iff imm).2 (of_decide_eq_true (constrained_eq_none hu))

theorem execLoop_completes (i : Issue) (wc : BitVec 5) (len : BitVec 8) (s : State) : Completes s (execLoop i wc len s) := by
  refine completes_done (issue_upholds i rfl _ _ _ s (fun t n _ => ?_))
  dsimp only
  split
  · exact ⟨Upholds.refl t, fun h => add_ofNat_mod_four _ (h.curWorld n).2.2.1 (by omega)⟩
  split
  · refine modWorld_upholds t n _ (fun w h => ?_)
    exact World.ok_setPc (World.ok_startLevel0 h _ _) (add_ofNat_mod_four 4 h.2.2.1 rfl)
  split
  · exact modWorld_upholds t n _ (fun _ h => World.ok_startLevel1 h _ _)
  · exact Upholds.refl t

theorem execLbreak_completes (i : Issue) (s : State) : Completes s (execLbreak i s) :=
  completes_done (issue_upholds i rfl _ _ _ s (fun t n _ => modWorld_upholds t n _ (fun _ h => World.ok_breakLoop h)))

theorem execSyscall_completes (i : Issue) (code : BitVec 10) (s : State) : Completes s (execSyscall i code s) :=
  completes_done (issue_upholds i rfl _ _ _ s (fun t _ _ => Upholds.refl t))

theorem execWcall_completes (i : Issue) (code : BitVec 10) (s : State) : Completes s (execWcall i code s) :=
  completes_done (issue_upholds i rfl _ _ _ s (fun t _ _ => Upholds.refl t))

theorem execRetx_completes (i : Issue) (s : State) : Completes s (execRetx i s) :=
  completes_done (issue_upholds i rfl _ _ _ s (fun t n _ => returnFrom_upholds t n))

@[simp] theorem haltCore_upholds (s : State) (n : Nat) : Upholds s (haltCore s n) := by
  refine setCore_upholds s n (fun h => ?_)
  split <;> exact h.coreAt n

theorem execBkpt_completes (i : Issue) (s : State) : Completes s (execBkpt i s) := by
  refine completes_done (issue_upholds i rfl _ _ _ s (fun t n _ => ?_))
  split
  · exact haltCore_upholds t n
  · exact Upholds.refl t

@[simp] theorem setWait_upholds (s : State) (n : Nat) (t : Wait) : Upholds s (setWait s n t) :=
  setCore_upholds s n (fun h => h.coreAt n)

theorem execWaitf_completes (i : Issue) (rd : BitVec 5) (s : State) : Completes s (execWaitf i rd s) := by
  refine completes_done (issue_upholds i rfl _ _ _ s (fun t n _ => ?_))
  split
  · exact setWait_upholds t n _
  · exact takeWake_upholds t n rd

theorem execWaitfWake_completes (core : BitVec 2) (s : State) : Completes s (execWaitfWake core s) := by
  unfold execWaitfWake
  dsimp only
  split
  · exact completes_done (Upholds.of_if ((takeWake_upholds s _ _).trans ((modWorld_advancePc_upholds _ _ rfl).trans
      (endWait_upholds _ _))))
  · exact completes_next (Upholds.refl s)

@[simp] theorem signalCores_upholds (s : State) (n : Nat) (mask : BitVec 4) : Upholds s (signalCores s n mask) := by
  refine foldl_upholds (fun t k => ?_) _ s
  split
  · exact setCore_upholds t k (fun h => h.coreAt k)
  · exact Upholds.refl t

theorem execSigf_completes (i : Issue) (mask : BitVec 4) (s : State) : Completes s (execSigf i mask s) :=
  completes_done (issue_upholds i rfl _ _ _ s (fun t n _ => signalCores_upholds t n mask))

@[simp] theorem waittDone_upholds (s : State) (n : Nat) (pd : BitVec 3) (d : DWord) : Upholds s (waittDone s n pd d) :=
  modWorld_upholds s n _ (fun _ h => World.ok_writePair h pd _ _)

theorem execWaitt_completes (i : Issue) (pd : BitVec 3) (ra : BitVec 5) (s : State) : Completes s (execWaitt i pd ra s) := by
  refine completes_done (issue_upholds i rfl _ _ _ s (fun t n _ => ?_))
  dsimp only
  split
  · exact waittDone_upholds t n pd _
  · exact setWait_upholds t n _

theorem execWaittComplete_completes (core : BitVec 2) (s : State) : Completes s (execWaittComplete core s) := by
  unfold execWaittComplete
  dsimp only
  split
  · exact completes_done (Upholds.of_if ((waittDone_upholds s _ _ _).trans ((endWait_upholds _ _).trans
      (modWorld_advancePc_upholds _ _ rfl))))
  · exact completes_next (Upholds.refl s)

theorem execBar_completes (i : Issue) (s : State) : Completes s (execBar i s) :=
  completes_done (issue_upholds i rfl _ _ _ s (fun t _ _ => Upholds.refl t))

theorem popTop_upholds (s : State) (n : Nat) (rd : BitVec 5) : EffectUpholds s (popTop s n rd) := by
  refine modWorld_upholds s n _ (fun w h => ?_)
  split
  · exact World.ok_writeW h rd 0
  · exact World.ok_writeW (World.ok_dropTop h) rd _

theorem pushTop_upholds (s : State) (n : Nat) (ra : BitVec 5) : EffectUpholds s (pushTop s n ra) :=
  modWorld_upholds s n _ (fun _ h => World.ok_pushStack h _)

theorem readX_upholds (s : State) (n : Nat) (rd : BitVec 5) : EffectUpholds s (readX s n rd) := by
  unfold readX
  split
  · exact (sealFault_steady s n).upholds
  · exact modWorld_upholds s n _ (fun _ h => World.ok_writeW h rd _)

theorem writeX_upholds (s : State) (n : Nat) (ra : BitVec 5) : EffectUpholds s (writeX s n ra) := by
  refine setCore_upholds s n (fun h => ⟨?_, (h.coreAt n).2⟩)
  dsimp only [xregPut]
  split
  · exact World.ok_writeP (h.coreAt n).1 _ _
  · exact World.ok_writeW (h.coreAt n).1 _ _

theorem readSpec_upholds (k : Nat) (rd : BitVec 5) (s : State) (n : Nat) : EffectUpholds s (readSpec k rd s n) := by
  unfold readSpec
  split
  · exact popTop_upholds s n rd
  split
  · exact readX_upholds s n rd
  · exact modWorld_upholds s n _ (fun _ h => World.ok_writeW h rd _)

theorem execMfs_completes (i : Issue) (rd spec : BitVec 5) (s : State) : Completes s (execMfs i rd spec s) :=
  completes_done (issue_upholds i rfl _ _ _ s (fun t n _ => readSpec_upholds _ rd t n))

theorem placeLoop_upholds {f : Word → World → World} (hf : ∀ v w, w.ok → (f v w).ok) (v : Word) (s : State) (n : Nat) :
    EffectUpholds s (placeLoop f v s n) :=
  modWorld_upholds s n _ (fun _ h => hf v _ (World.ok_advancePc h rfl))

theorem writeSpec_upholds (k : Nat) (ra : BitVec 5) (s : State) (n : Nat) : EffectUpholds s (writeSpec k ra s n) := by
  unfold writeSpec
  extract_lets v
  split
  · exact modWorld_upholds s n _ (fun _ h => World.ok_congr h rfl rfl rfl rfl rfl)
  · exact modWorld_upholds s n _ (fun _ h => World.ok_writeVbase h v)
  · exact modWorld_upholds s n _ (fun _ h => World.ok_writeSsp h v)
  · exact pushTop_upholds s n ra
  · exact setCore_upholds s n (fun h => h.coreAt n)
  · exact writeX_upholds s n ra
  · exact placeLoop_upholds (fun v _ h => World.ok_writeLw0 h v) v s n
  · exact placeLoop_upholds (fun v _ h => World.ok_writeLw1 h v) v s n
  · exact placeLoop_upholds (fun v _ h => World.ok_writeLw2 h v) v s n
  · exact Upholds.refl s

theorem execMts_completes (i : Issue) (spec ra : BitVec 5) (s : State) : Completes s (execMts i spec ra s) :=
  completes_done (issue_upholds i rfl _ _ _ s (fun t n _ => writeSpec_upholds _ ra t n))

theorem execRstopPop_completes (i : Issue) (rd : BitVec 5) (s : State) : Completes s (execRstopPop i rd s) :=
  completes_done (issue_upholds i rfl _ _ _ s (fun t n _ => popTop_upholds t n rd))

theorem execRstopPush_completes (i : Issue) (ra : BitVec 5) (s : State) : Completes s (execRstopPush i ra s) :=
  completes_done (issue_upholds i rfl _ _ _ s (fun t n _ => pushTop_upholds t n ra))

theorem execXregRead_completes (i : Issue) (rd : BitVec 5) (s : State) : Completes s (execXregRead i rd s) :=
  completes_done (issue_upholds i rfl _ _ _ s (fun t n _ => readX_upholds t n rd))

theorem execXregWrite_completes (i : Issue) (ra : BitVec 5) (s : State) : Completes s (execXregWrite i ra s) :=
  completes_done (issue_upholds i rfl _ _ _ s (fun t n _ => writeX_upholds t n ra))

theorem execIllegalInstruction_completes (core : BitVec 2) (s : State) : Completes s (execIllegalInstruction core s) := by
  unfold execIllegalInstruction
  refine completes_done ?_
  (repeat' split) <;> simp +contextual

theorem execInterruptTaken_completes (core : BitVec 2) (s : State) : Completes s (execInterruptTaken core s) := by
  unfold execInterruptTaken
  exact completes_done (by simp +contextual)

theorem execCodeWindowFetch_completes (core : BitVec 2) (addr : Word) (s : State) :
    Completes s (execCodeWindowFetch core addr s) := by
  refine completes_done (Upholds.of_if ?_)
  have hfetched := (fetchWord_steady s core.toNat addr).upholds
  dsimp only
  split
  · exact hfetched
  · exact hfetched.trans (faultAt_upholds _ _ _)

@[simp] theorem endCoreRead_upholds (s : State) (n : Nat) (addr : Word) : Upholds s (endCoreRead s n addr) := by
  unfold endCoreRead
  dsimp only
  (repeat' split) <;> simp +contextual

@[simp] theorem endCoreReads_upholds (s : State) : Upholds s (endCoreReads s) := by
  unfold endCoreReads
  refine Upholds.of_if (foldl_upholds (fun t r => ?_) _ s)
  cases r with
  | port m => exact Upholds.refl t
  | core n addr => exact endCoreRead_upholds t n addr

theorem execEntBlockTested_completes (block : Bytes) (s : State) : Completes s (execEntBlockTested block s) := by
  unfold execEntBlockTested
  refine completes_done ?_
  (repeat' split) <;> simp +contextual

@[simp] theorem coreTimeout_upholds (s : State) (m : Master) (addr : Word) : Upholds s (coreTimeout s m addr) := by
  simp only [coreTimeout]
  (repeat' split) <;> simp +contextual

@[simp] theorem entTimeout_upholds (s : State) (m : Master) (addr : Word) : Upholds s (entTimeout s m addr) := by
  unfold entTimeout
  dsimp only
  (repeat' split) <;> simp +contextual

theorem execFabricReadTimeout_completes (m : Master) (addr : Word) (fetch : Bool) (s : State) :
    Completes s (execFabricReadTimeout m addr fetch s) := by
  unfold execFabricReadTimeout
  refine completes_done ?_
  (repeat' split) <;> simp +contextual

/-! ### A tick of the clock -/

@[simp] theorem fenceStep_upholds (s : State) : Upholds s (fenceStep s) := by
  unfold fenceStep
  dsimp only
  (repeat' split) <;> simp +contextual

@[simp] theorem msTick_steady (s : State) : Steady s (msTick s) := ⟨rfl, rfl, rfl, rfl, rfl⟩

@[simp] theorem State.withFetchWord_steady (s : State) (nbits w : Nat) :
    Steady s (State.withFetchWord s nbits w) := ⟨rfl, rfl, rfl, rfl, rfl⟩

end Sys2Proof.Invariants
end

section
/-! PROOF. Every command and every tick of the clock: a command completes, memory keeps its form, the register file its
rules, and the TTC is not set back. -/

namespace Sys2Proof.Invariants

open Sys2Proof.Machine

/-! ### The loss of main power -/

/-- What a command upholds that may take main power away, or bring it back: the TTC is held or advances while power stays. -/
def Survives (s t : State) : Prop :=
  (t.pending = s.pending ∧ t.fusesOk = s.fusesOk) ∧
    (mainPower s = true → mainPower t = true → s.ttc.toNat ≤ t.ttc.toNat) ∧
    (Memory.wf s.mem = true → Memory.wf t.mem = true) ∧ (WorldsOk s.cores → WorldsOk t.cores)

theorem Upholds.survives {s t : State} (h : Upholds s t) : Survives s t := by
  obtain ⟨hfix, httc, hmem, hcores⟩ := h
  exact ⟨hfix, fun _ _ => (reached_iff _ _).1 (httc _ ((reached_iff _ _).2 (Nat.le_refl _))), hmem, hcores⟩

theorem Completes.survives {s : State} {o : Out} (h : Completes s o) : ∃ t, o = .next t ∧ Survives s t := by
  obtain ⟨t, ho, ht⟩ := h
  exact ⟨t, ho, ht.survives⟩

/-- After the loss of main power memory is empty and every core is as reset leaves it. -/
def Blank (s t : State) : Prop :=
  t.pending = s.pending ∧ t.fusesOk = s.fusesOk ∧ t.mem = [] ∧ t.cores = State.reset.cores

theorem Blank.survives {s t : State} (h : Blank s t) (hoff : mainPower t = false) : Survives s t := by
  obtain ⟨hpending, hfuses, hmem, hcores⟩ := h
  refine ⟨⟨hpending, hfuses⟩, fun _ hon => absurd hon (by simp [hoff]), fun _ => ?_, fun _ => ?_⟩
  · rw [hmem]
    rfl
  · rw [hcores]
    exact worldsOk_reset

theorem powerLost_blank (s : State) : Blank s (powerLost s) := by
  obtain ⟨hpending, hfuses, -, -, -⟩ := finishProgram_steady s
  unfold powerLost
  extract_lets finished log blank flash vigil power t
  obtain ⟨m, hm⟩ := LockedRoutes.foldl_setR_eq (fun e => e.1) (fun e => getR finished e.1 &&& e.2) vigilRegs t
  rw [hm]
  exact ⟨hpending, hfuses, rfl, rfl⟩

theorem darken_blank (s : State) : Blank s (darken s) := by
  unfold darken
  extract_lets dark
  have hdark : Blank s dark := by
    dsimp only [dark]
    split
    · exact powerLost_blank (setBlock s _ _ _)
    · exact powerLost_blank s
  split
  · exact hdark
  · exact hdark

theorem darken_survives (s : State) : Survives s (darken s) := (darken_blank s).survives (LockedRoutes.darken_unpowered s).1

theorem execLastGaspEnd_survives (supply : Bool) (duration : BitVec 16) (s : State) :
    ∃ t, execLastGaspEnd supply duration s = .next t ∧ Survives s t := by
  have hnoted : Steady s (raise (setR s Reg.PWR_LGLAST (gaspWord s duration.toNat)) 7) := by simp
  unfold execLastGaspEnd
  split
  · unfold endGasp
    dsimp only
    split
    · refine (completes_done (hnoted.upholds.trans (Upholds.trans ?_ (deviceReset_upholds _ _ _)))).survives
      simp
    · rw [done_quiet _ (LockedRoutes.darken_unpowered _).quiet]
      refine ⟨_, rfl, Blank.survives ?_ (LockedRoutes.darken_unpowered _).1⟩
      obtain ⟨hpending, hfuses, hmem, hcores⟩ := darken_blank (raise (setR s Reg.PWR_LGLAST (gaspWord s duration.toNat)) 7)
      obtain ⟨hp, hf, -, -, -⟩ := hnoted
      exact ⟨hpending.trans hp, hfuses.trans hf, hmem, hcores⟩
  · exact (completes_done (Upholds.refl s)).survives

theorem execPowerDieFailure_survives (s : State) : ∃ t, execPowerDieFailure s = .next t ∧ Survives s t := by
  refine ⟨_, rfl, ?_⟩
  split
  · split
    · exact Blank.survives (darken_blank { s with flash := { s.flash with op := none } }) (LockedRoutes.darken_unpowered _).1
    · exact darken_survives s
  · exact (Upholds.refl s).survives

theorem execMainPowerOn_survives (cap : BitVec 16) (cell : BitVec 12) (s : State) :
    ∃ t, execMainPowerOn cap cell s = .next t ∧ Survives s t := by
  unfold execMainPowerOn
  split
  · exact (completes_done (Upholds.refl s)).survives
  · next hoff =>
    obtain ⟨hfix, -, hmem, hcores⟩ := (powerOn_restarts s cap cell).trans (after_upholds _)
    exact ⟨_, rfl, hfix, fun hon => absurd hon hoff, hmem, hcores⟩

/-! ### Every command, and a tick of the clock -/

theorem exec_survives (c : Instr) (s : State) : ∃ t, exec c s = .next t ∧ Survives s t := by
  unfold exec
  cases c with
  | registerWrite => exact (execRegisterWrite_completes _ _ _ _).survives
  | rcRead => exact (execRcRead_completes _ _ _).survives
  | fabricReadTimeout => exact (execFabricReadTimeout_completes _ _ _ _).survives
  | lowHalfRead => exact (execLowHalfRead_completes _ _ _).survives
  | clkMeasSelect => exact (execClkMeasSelect_completes _ _ _).survives
  | clkMeasDone => exact (execClkMeasDone_completes _ _).survives
  | linkUp => exact (execLinkUp_completes _ _).survives
  | linkLoss => exact (execLinkLoss_completes _).survives
  | linkRetrain => exact (execLinkRetrain_completes _ _).survives
  | graceExpiry => exact (execGraceExpiry_completes _).survives
  | hotReset => exact (execHotReset_completes _).survives
  | flr => exact (execFlr_completes _).survives
  | deviceReset => exact (execDeviceReset_completes _ _).survives
  | setupBaseWrite => exact (execSetupBaseWrite_completes _ _ _ _ _).survives
  | controlLineOpen => exact (execControlLineOpen_completes _ _ _).survives
  | controlLineClose => exact (execControlLineClose_completes _ _ _).survives
  | windowCWrite => exact (execWindowCWrite_completes _ _ _).survives
  | evtPendClear => exact (execEvtPendClear_completes _ _ _ _).survives
  | msixUnmask => exact (execMsixUnmask_completes _ _).survives
  | hostCompletionTimeout => exact (execHostCompletionTimeout_completes _ _).survives
  | hostReadError => exact (execHostReadError_completes _ _).survives
  | statusRequest => exact (execStatusRequest_completes _).survives
  | bulkWaybill => exact (execBulkWaybill_completes _ _ _).survives
  | dmaStart => exact (execDmaStart_completes _ _ _ _).survives
  | dmaAbort => exact (execDmaAbort_completes _ _ _).survives
  | dmaCopyEnd => exact (execDmaCopyEnd_completes _ _ _ _).survives
  | doorbell => exact (execDoorbell_completes _ _ _ _).survives
  | admission => exact (execAdmission_completes _ _ _).survives
  | entryReadRetry => exact (execEntryReadRetry_completes _ _ _).survives
  | fillComplete => exact (execFillComplete_completes _ _ _).survives
  | spillDeparted => exact (execSpillDeparted_completes _ _).survives
  | indexMirrorWrite => exact (execIndexMirrorWrite_completes _ _).survives
  | tagConsist => exact (execTagConsist_completes _ _ _).survives
  | tagRecords => exact (execTagRecords_completes _ _ _).survives
  | verifyConsist => exact (execVerifyConsist_completes _ _ _).survives
  | verifyRecords => exact (execVerifyRecords_completes _ _ _ _).survives
  | mark => exact (execMark_completes _ _).survives
  | fence => exact (execFence_completes _ _).survives
  | lineOpen => exact (execLineOpen_completes _ _ _).survives
  | linePause => exact (execLinePause_completes _ _).survives
  | linePauseComplete => exact (execLinePauseComplete_completes _ _).survives
  | lineClose => exact (execLineClose_completes _ _).survives
  | sign => exact (execSign_completes _ _ _ _).survives
  | verifySig => exact (execVerifySig_completes _ _ _ _ _).survives
  | kemEncaps => exact (execKemEncaps_completes _ _ _ _).survives
  | kemDecaps => exact (execKemDecaps_completes _ _ _ _).survives
  | derive => exact (execDerive_completes _ _ _).survives
  | prove => exact (execProve_completes _ _ _).survives
  | manifestRead => exact (execManifestRead_completes _ _ _).survives
  | logExport => exact (execLogExport_completes _ _ _).survives
  | relay => exact (execRelay_completes _ _ _ _).survives
  | attest => exact (execAttest_completes _ _ _).survives
  | timeHint => exact (execTimeHint_completes _ _ _).survives
  | cardExport => exact (execCardExport_completes _ _ _).survives
  | lookoutInventory => exact (execLookoutInventory_completes _ _ _).survives
  | imageLoad => exact (execImageLoad_completes _ _ _ _).survives
  | lineKeyDerived => exact (execLineKeyDerived_completes _ _).survives
  | keyWaitTimeout => exact (execKeyWaitTimeout_completes _ _).survives
  | consistFetched => exact (execConsistFetched_completes _ _ _).survives
  | consistAbsorbed => exact (execConsistAbsorbed_completes _ _ _).survives
  | trackSelfTest => exact (execTrackSelfTest_completes _ _ _).survives
  | trackFence => exact (execTrackFence_completes _ _ _).survives
  | creditAccount => exact (execCreditAccount_completes _ _ _).survives
  | vigilCountRewrite => exact (execVigilCountRewrite_completes _).survives
  | ttcAdvance => exact (execTtcAdvance_completes _ _ _ _).survives
  | tcxoFailure => exact (execTcxoFailure_completes _).survives
  | epochClose => exact (execEpochClose_completes _).survives
  | rootFrozen => exact (execRootFrozen_completes _).survives
  | manifestSigned => exact (execManifestSigned_completes _).survives
  | manifestStored => exact (execManifestStored_completes _).survives
  | treeRebuildDone => exact (execTreeRebuildDone_completes _).survives
  | stationStale => exact (execStationStale_completes _ _).survives
  | btrDerive => exact (execBtrDerive_completes _ _).survives
  | installEncaps => exact (execInstallEncaps_completes _ _ _).survives
  | installDecaps => exact (execInstallDecaps_completes _ _ _).survives
  | invalidate => exact (execInvalidate_completes _ _).survives
  | purge => exact (execPurge_completes _ _).survives
  | rotate => exact (execRotate_completes _ _).survives
  | trunkCreate => exact (execTrunkCreate_completes _ _).survives
  | trunkZeroise => exact (execTrunkZeroise_completes _ _).survives
  | backup => exact (execBackup_completes _ _).survives
  | rescue => exact (execRescue_completes _ _).survives
  | release => exact (execRelease_completes _ _).survives
  | btrImport => exact (execBtrImport_completes _ _).survives
  | btrCommandDone => exact (execBtrCommandDone_completes _).survives
  | tableRebuildDone => exact (execTableRebuildDone_completes _).survives
  | retire => exact (execRetire_completes _ _ _).survives
  | stagingWriteVerified => exact (execStagingWriteVerified_completes _ _).survives
  | wordlineStripeProgrammed => exact (execWordlineStripeProgrammed_completes _ _).survives
  | flcRead => exact (execFlcRead_completes _ _).survives
  | flcProgram => exact (execFlcProgram_completes _ _).survives
  | flcErase => exact (execFlcErase_completes _ _).survives
  | flcClaim => exact (execFlcClaim_completes _ _).survives
  | flcReturn => exact (execFlcReturn_completes _ _).survives
  | flashOpDone => exact (execFlashOpDone_completes _ _).survives
  | codeWindowFetch => exact (execCodeWindowFetch_completes _ _ _).survives
  | cwMapWrite => exact (execCwMapWrite_completes _ _ _).survives
  | nandDieFailed => exact (execNandDieFailed_completes _ _).survives
  | kdeLockRead => exact (execKdeLockRead_completes _ _).survives
  | kdeLockRelease => exact (execKdeLockRelease_completes _ _).survives
  | kdeStart => exact (execKdeStart_completes _ _).survives
  | kdeFeed => exact (execKdeFeed_completes _ _).survives
  | kdeSegmentDone => exact (execKdeSegmentDone_completes _ _).survives
  | kdeSave => exact (execKdeSave_completes _ _).survives
  | kdeRestore => exact (execKdeRestore_completes _ _).survives
  | kdeAbort => exact (execKdeAbort_completes _ _).survives
  | kdeClear => exact (execKdeClear_completes _ _).survives
  | maeLockRead => exact (execMaeLockRead_completes _ _).survives
  | maeLockRelease => exact (execMaeLockRelease_completes _ _).survives
  | maeStart => exact (execMaeStart_completes _ _).survives
  | maeAbort => exact (execMaeAbort_completes _ _).survives
  | maeClear => exact (execMaeClear_completes _ _).survives
  | maeWipeDone => exact (execMaeWipeDone_completes _).survives
  | maeJobDone => exact (execMaeJobDone_completes _ _).survives
  | maeSlockRead => exact (execMaeSlockRead_completes _ _).survives
  | maeSlockRelease => exact (execMaeSlockRelease_completes _ _).survives
  | maeShortStart => exact (execMaeShortStart_completes _ _ _).survives
  | maeYieldPoint => exact (execMaeYieldPoint_completes _).survives
  | maeBtrRequest => exact (execMaeBtrRequest_completes _).survives
  | lsuQpush => exact (execLsuQpush_completes _ _ _).survives
  | laneJobStart => exact (execLaneJobStart_completes _ _).survives
  | laneJobDone => exact (execLaneJobDone_completes _ _ _).survives
  | lsuFlush => exact (execLsuFlush_completes _ _).survives
  | lsuFence => exact (execLsuFence_completes _ _ _).survives
  | laneSelfTest => exact (execLaneSelfTest_completes _ _ _).survives
  | entBiasDone => exact (execEntBiasDone_completes _).survives
  | entBlockTested => exact (execEntBlockTested_completes _ _).survives
  | entDataRead => exact (execEntDataRead_completes _ _).survives
  | br => exact (execBr_completes _ _ _).survives
  | call => exact (execCall_completes _ _ _).survives
  | jr => exact (execJr_completes _ _ _).survives
  | callr => exact (execCallr_completes _ _ _).survives
  | ret => exact (execRet_completes _ _).survives
  | loop => exact (execLoop_completes _ _ _ _).survives
  | lbreak => exact (execLbreak_completes _ _).survives
  | syscall => exact (execSyscall_completes _ _ _).survives
  | wcall => exact (execWcall_completes _ _ _).survives
  | retx => exact (execRetx_completes _ _).survives
  | waitf => exact (execWaitf_completes _ _ _).survives
  | waitfWake => exact (execWaitfWake_completes _ _).survives
  | sigf => exact (execSigf_completes _ _ _).survives
  | waitt => exact (execWaitt_completes _ _ _ _).survives
  | waittComplete => exact (execWaittComplete_completes _ _).survives
  | bar => exact (execBar_completes _ _).survives
  | mfs => exact (execMfs_completes _ _ _ _).survives
  | mts => exact (execMts_completes _ _ _ _).survives
  | rstopPop => exact (execRstopPop_completes _ _ _).survives
  | rstopPush => exact (execRstopPush_completes _ _ _).survives
  | xregRead => exact (execXregRead_completes _ _ _).survives
  | xregWrite => exact (execXregWrite_completes _ _ _).survives
  | bkpt => exact (execBkpt_completes _ _).survives
  | calla => exact (execCalla_completes _ _ _).survives
  | bra => exact (execBra_completes _ _ _).survives
  | bcopy => exact (execBcopy_completes _ _ _ _ _).survives
  | bzero => exact (execBzero_completes _ _ _ _).survives
  | cteq => exact (execCteq_completes _ _ _ _ _ _).survives
  | illegalInstruction => exact (execIllegalInstruction_completes _ _).survives
  | interruptTaken => exact (execInterruptTaken_completes _ _).survives
  | mbxClaimRead => exact (execMbxClaimRead_completes _ _ _).survives
  | mbxClaimFree => exact (execMbxClaimFree_completes _ _ _).survives
  | mbxPost => exact (execMbxPost_completes _ _ _ _).survives
  | mbxTake => exact (execMbxTake_completes _ _ _).survives
  | mbxCfgWrite => exact (execMbxCfgWrite_completes _ _ _ _).survives
  | tabletRead => exact (execTabletRead_completes _ _ _).survives
  | tabletRelease => exact (execTabletRelease_completes _ _ _).survives
  | ilkCommit => exact (execIlkCommit_completes _ _).survives
  | ilkLoad => exact (execIlkLoad_completes _ _).survives
  | shadowCompare => exact (execShadowCompare_completes _).survives
  | debugAccess => exact (execDebugAccess_completes _ _ _ _).survives
  | dbgNonceRead => exact (execDbgNonceRead_completes _ _).survives
  | dbgCheck => exact (execDbgCheck_completes _).survives
  | dbgArm => exact (execDbgArm_completes _ _ _).survives
  | dbgSessionClose => exact (execDbgSessionClose_completes _ _).survives
  | debugSessionExpiry => exact (execDebugSessionExpiry_completes _).survives
  | linesideTrip => exact (execLinesideTrip_completes _ _ _).survives
  | detectorSplit => exact (execDetectorSplit_completes _ _).survives
  | stickyClear => exact (execStickyClear_completes _ _ _ _).survives
  | classWrite => exact (execClassWrite_completes _ _ _ _ _).survives
  | lsmTestStart => exact (execLsmTestStart_completes _ _ _ _).survives
  | lsmTestDone => exact (execLsmTestDone_completes _ _).survives
  | releaseArm => exact (execReleaseArm_completes _ _).survives
  | releaseCommit => exact (execReleaseCommit_completes _ _).survives
  | releaseAbort => exact (execReleaseAbort_completes _ _).survives
  | releaseWindowExpiry => exact (execReleaseWindowExpiry_completes _).survives
  | sourceDeassert => exact (execSourceDeassert_completes _ _).survives
  | cardInserted => exact (execCardInserted_completes _ _).survives
  | cardRemoved => exact (execCardRemoved_completes _).survives
  | cardFormatExport => exact (execCardFormatExport_completes _ _).survives
  | cardFormatBackup => exact (execCardFormatBackup_completes _ _).survives
  | cardFormatCredential => exact (execCardFormatCredential_completes _ _).survives
  | forceErase => exact (execForceErase_completes _ _).survives
  | forceEraseDone => exact (execForceEraseDone_completes _).survives
  | eject => exact (execEject_completes _ _).survives
  | cardUnitWritten => exact (execCardUnitWritten_completes _ _).survives
  | cardBusyTimeout => exact (execCardBusyTimeout_completes _).survives
  | selftest => exact (execSelftest_completes _ _ _).survives
  | selftestTimer => exact (execSelftestTimer_completes _ _).survives
  | badgeEnrol => exact (execBadgeEnrol_completes _ _ _).survives
  | stop => exact (execStop_completes _ _).survives
  | rebase => exact (execRebase_completes _ _).survives
  | ping => exact (execPing_completes _ _).survives
  | inventorySlot => exact (execInventorySlot_completes _ _ _).survives
  | badgeRound => exact (execBadgeRound_completes _ _).survives
  | select => exact (execSelect_completes _ _ _ _ _ _).survives
  | query => exact (execQuery_completes _ _ _ _ _).survives
  | queryRep => exact (execQueryRep_completes _ _).survives
  | queryAdjust => exact (execQueryAdjust_completes _ _ _).survives
  | ack => exact (execAck_completes _ _).survives
  | nak => exact (execNak_completes _).survives
  | reqRn => exact (execReqRn_completes _ _).survives
  | tagRead => exact (execTagRead_completes _ _ _ _ _).survives
  | tagWrite => exact (execTagWrite_completes _ _ _ _ _ _ _).survives
  | blockWrite => exact (execBlockWrite_completes _ _ _ _ _ _ _).survives
  | tagAccess => exact (execTagAccess_completes _ _ _).survives
  | tagLock => exact (execTagLock_completes _ _).survives
  | tagKill => exact (execTagKill_completes _ _).survives
  | unsupportedCommand => exact (execUnsupportedCommand_completes _ _).survives
  | tailLampUpdate => exact (execTailLampUpdate_completes _ _).survives
  | internalUpdateDone => exact (execInternalUpdateDone_completes _ _).survives
  | readerFieldArrival => exact (execReaderFieldArrival_completes _).survives
  | fieldCollapse => exact (execFieldCollapse_completes _).survives
  | sourceCapabilities => exact (execSourceCapabilities_completes _ _ _ _).survives
  | psRdy => exact (execPsRdy_completes _).survives
  | noCapabilities => exact (execNoCapabilities_completes _ _).survives
  | softReset => exact (execSoftReset_completes _).survives
  | hardReset => exact (execHardReset_completes _).survives
  | prSwap => exact (execPrSwap_completes _).survives
  | drSwap => exact (execDrSwap_completes _).survives
  | vconnSwap => exact (execVconnSwap_completes _).survives
  | frSwap => exact (execFrSwap_completes _).survives
  | disturbanceBegin => exact (execDisturbanceBegin_completes _ _).survives
  | disturbanceEnd => exact (execDisturbanceEnd_completes _ _).survives
  | lastGaspSeal => exact (execLastGaspSeal_completes _).survives
  | bankLow => exact (execBankLow_completes _).survives
  | lastGaspEnd => exact execLastGaspEnd_survives _ _ _
  | thermalCap => exact (execThermalCap_completes _ _).survives
  | thermalLift => exact (execThermalLift_completes _ _).survives
  | cellLow => exact (execCellLow_completes _ _).survives
  | vigilPowerLoss => exact (execVigilPowerLoss_completes _).survives
  | mainPowerOn => exact execMainPowerOn_survives _ _ _
  | bankCharged => exact (execBankCharged_completes _ _).survives
  | powerDieFailure => exact execPowerDieFailure_survives _
  | coresReleased => exact (execCoresReleased_completes _ _ _ _).survives
  | bootComplete => exact (execBootComplete_completes _).survives
  | modereqMaintenance => exact (execModereqMaintenance_completes _ _).survives
  | modereqCommissioning => exact (execModereqCommissioning_completes _ _ _ _).survives
  | modereqRunning => exact (execModereqRunning_completes _ _).survives
  | sysNonceRead => exact (execSysNonceRead_completes _ _).survives
  | imageCommit => exact (execImageCommit_completes _ _).survives
  | deadmanKick => exact (execDeadmanKick_completes _ _ _ _).survives
  | deadmanPrewarn => exact (execDeadmanPrewarn_completes _ _).survives
  | deadmanExpiry => exact (execDeadmanExpiry_completes _ _).survives
  | evtRouteWrite => exact (execEvtRouteWrite_completes _ _ _ _).survives
  | sstWrite => exact (execSstWrite_completes _ _ _ _ _).survives
  | sstPersisted => exact (execSstPersisted_completes _).survives
  | add | sub | and | or | xor | andn | shl | shr | sar | rol | ror | mul | mulh | mulhu | divu | remu | clz
  | popc | addi | andi | ori | xori | shli | shri | sari | roli | rori | li | addl | andl | orl | xorl =>
    exact (wordOp_completes _ rfl _ _ _ _).survives
  | addc | subb => exact (carryOp_completes _ _ _ _ _ _ _).survives
  | cmpeq | cmpne | cmplt | cmpltu | cmpge | cmpgeu | cmptst | cmpieq | cmpine | cmpilt | cmpiltu | cmpige
  | cmpigeu | cmpitst => exact (compareOp_completes _ _ _ _ _ _).survives
  | pand | por | pxor | pandn | pnot | pset | pclr => exact (predOp_completes _ _ _ _ _).survives
  | ldb | ldbu | ldh | ldhu | ldw => exact (loadOp_completes _ _ _ _ _ _ _).survives
  | stb | sth | stw => exact (storeOp_completes _ _ _ _ _ _).survives

theorem idleTick_kept (s : State) :
    (Memory.wf s.mem = true → Memory.wf (idleTick s).mem = true) ∧ (WorldsOk s.cores → WorldsOk (idleTick s).cores) := by
  unfold idleTick
  dsimp only
  (repeat' split) <;> simp +contextual

/-- Under main power a tick counts one, up to the counter's last value. -/
theorem idleTick_ttc {s : State} (hon : mainPower s = true) (hlast : s.ttc ≠ BitVec.allOnes 64) :
    s.ttc.toNat ≤ (idleTick s).ttc.toNat := by
  have hnext : (s.ttc + 1).toNat = s.ttc.toNat + 1 := by
    have hne : s.ttc.toNat ≠ 2 ^ 64 - 1 := fun h => hlast (BitVec.eq_of_toNat_eq (by simpa using h))
    bv_omega
  have hticked (t : State) (h : ∀ n, reached n (s.ttc + 1) = true → reached n t.ttc = true) : s.ttc.toNat ≤ t.ttc.toNat := by
    have hreach := (reached_iff _ _).1 (h _ ((reached_iff _ _).2 (Nat.le_refl _)))
    omega
  simp only [mainPower, Bool.and_eq_true, decide_eq_true_eq] at hon
  unfold idleTick
  rw [if_neg hon.1, if_neg hon.2]
  refine hticked _ ?_
  dsimp only
  (repeat' split) <;> simp +contextual

/-! ### The invariants -/

/-- Settles O52: a command answers a next state, with the queue and the check of the fuses as they were. -/
theorem everyCommandCompletes : Obligations.EveryCommandCompletes := by
  intro c s
  obtain ⟨t, ho, ⟨hpending, hfuses⟩, -⟩ := exec_survives c s
  exact ⟨t, ho, hpending, hfuses⟩

theorem step_cases {s t : State} (h : step s = .next t) :
    (∃ rest, Survives { s with pending := rest } t) ∨ t = idleTick s := by
  unfold step at h
  split at h
  · next c rest _ =>
    obtain ⟨u, hu, hsurvives⟩ := exec_survives c { s with pending := rest }
    obtain rfl : u = t := by simpa [hu] using h
    exact .inl ⟨rest, hsurvives⟩
  · exact .inr (by injection h with e; exact e.symm)

/-- Settles O53: every command, and every tick of the clock, keeps memory in its canonical form. -/
theorem memoryFormKept : Obligations.MemoryFormKept := by
  intro s t hform h
  obtain ⟨rest, -, -, hmem, -⟩ | rfl := step_cases h
  · exact hmem hform
  · exact (idleTick_kept s).1 hform

/-- Settles O54: every command, and every tick of the clock, keeps the register file as R360 has it. -/
theorem registerFileKept : Obligations.RegisterFileKept := by
  intro s t hok h
  obtain ⟨rest, -, -, -, hcores⟩ | rfl := step_cases h
  · exact hcores hok
  · exact (idleTick_kept s).2 hok

/-- Settles O56: a command holds the TTC or sets it forward, and a tick counts one. -/
theorem ttcNeverSetBack : Obligations.TtcNeverSetBack := by
  intro s t hon hstill hlast h
  obtain ⟨rest, -, httc, -, -⟩ | rfl := step_cases h
  · exact httc hon hstill
  · exact idleTick_ttc hon hlast

end Sys2Proof.Invariants
end

section
/-! PROOF. What is left due between two commands: the obligation fails. A doorbell goes to a next state as it is, without the
trips that its own seal fault makes due (R24, R430): the fifth seal fault of the Spine within a second trips source 80 + the
Spine's tile, and the trip waits. -/

namespace Sys2Proof.LeftDue

open Sys2Proof.Machine

/-- A device after reset that is ready for the host, with four seal faults of the Spine in the last second, a record of line 1
that holds a seal mismatch, and a doorbell for that line in the queue. -/
def fourFaults : State :=
  { setR State.reset Reg.HLK_STATUS 1 with
    sealFaults := [(spineTile, [0, 0, 0, 0])], badPrivate := [.lineRecord 1], pending := [.doorbell 0 true (2#64 ^ 32)] }

theorem fourFaults_quiet : Quiet fourFaults := by
  refine ⟨rfl, by decide, fun h => absurd h (by decide), by decide, rfl⟩

/-- The doorbell takes the fifth seal fault, above the limit of 4. -/
theorem fifthFault_due : (doorbellWrite { fourFaults with pending := [] } 0 true (2#64 ^ 32)).tripsDue = [80 + spineTile] := by
  decide

/-- Refutes O55: the doorbell leaves the trip of its seal fault due. -/
theorem not_quietKept : ¬ Obligations.QuietKept := by
  intro h
  obtain ⟨htrips, -⟩ := h fourFaults _ fourFaults_quiet rfl
  exact absurd (fifthFault_due.symm.trans htrips) (List.cons_ne_nil _ _)

end Sys2Proof.LeftDue
end

section
/-! PROOF. Internal memory (R8, R20, R25), the raising of an event (R548, R550, R551, R571) and the state right after reset. -/

namespace Sys2Proof.Basics

open Sys2Proof.Machine

/-! ### The canonical form of a table -/

theorem mget_cons {α : Type} (d : α) (k : Nat) (v : α) (r : SMap α) (x : Nat) :
    mget d ((k, v) :: r) x = if x = k then v else mget d r x := by
  unfold mget
  rw [mget?]
  split <;> rfl

/-- Below its first key a table reads as its default. -/
theorem mget_below {α : Type} (d : α) {b x : Nat} {m : SMap α} (h : mwfFrom b m = true) (hx : x < b) : mget d m x = d := by
  induction m generalizing b with
  | nil => rfl
  | cons e r ih =>
    obtain ⟨k, v⟩ := e
    simp only [mwfFrom, Bool.and_eq_true, decide_eq_true_eq] at h
    obtain ⟨hk, hr⟩ := h
    rw [mget_cons, if_neg (by omega)]
    exact ih hr (by omega)

/-- A table that reads as its default everywhere and lists no default is empty. -/
theorem eq_nil_of_mget {α : Type} [DecidableEq α] {d : α} {m : SMap α} (hne : ∀ e ∈ m, e.2 ≠ d) (h : ∀ x, mget d m x = d) : m = [] := by
  cases m with
  | nil => rfl
  | cons e r =>
    have hhead := h e.1
    rw [mget_cons, if_pos rfl] at hhead
    exact absurd hhead (hne e List.mem_cons_self)

/-- Two tables in canonical form that read alike are the same table. -/
theorem eq_of_mget {α : Type} [DecidableEq α] {d : α} {b c : Nat} {m n : SMap α} (hm : mwfFrom b m = true) (hn : mwfFrom c n = true)
    (hmd : ∀ e ∈ m, e.2 ≠ d) (hnd : ∀ e ∈ n, e.2 ≠ d) (h : ∀ x, mget d m x = mget d n x) : m = n := by
  induction m generalizing b c n with
  | nil => exact (eq_nil_of_mget hnd (fun x => (h x).symm)).symm
  | cons e r ih =>
    cases n with
    | nil => exact eq_nil_of_mget hmd h
    | cons f q =>
      obtain ⟨k, v⟩ := e
      obtain ⟨j, w⟩ := f
      simp only [mwfFrom, Bool.and_eq_true, decide_eq_true_eq] at hm hn
      obtain ⟨-, hr⟩ := hm
      obtain ⟨-, hq⟩ := hn
      have hv : v ≠ d := hmd _ List.mem_cons_self
      have hw : w ≠ d := hnd _ List.mem_cons_self
      have hkj : k = j := by
        obtain hlt | heq | hgt := Nat.lt_trichotomy k j
        · have hk := h k
          rw [mget_cons, if_pos rfl, mget_cons, if_neg (by omega), mget_below d hq (by omega)] at hk
          exact absurd hk hv
        · exact heq
        · have hj := h j
          rw [mget_cons, if_neg (by omega), mget_cons, if_pos rfl, mget_below d hr (by omega)] at hj
          exact absurd hj.symm hw
      subst hkj
      have hvw : v = w := by simpa [mget_cons] using h k
      have hrest : r = q := by
        refine ih hr hq (fun e he => hmd e (List.mem_cons_of_mem _ he)) (fun e he => hnd e (List.mem_cons_of_mem _ he)) (fun x => ?_)
        by_cases hx : x = k
        · rw [hx, mget_below d hr (by omega), mget_below d hq (by omega)]
        · simpa [mget_cons, hx] using h x
      rw [hvw, hrest]

theorem wf_unique {m n : List Host.Cell} (hm : Memory.wf m = true) (hn : Memory.wf n = true)
    (h : ∀ x, mget (0 : Byte) m x = mget 0 n x) : m = n := by
  simp only [Memory.wf, mwfD, mwf, Bool.and_eq_true, List.all_eq_true, decide_eq_true_eq] at hm hn
  exact eq_of_mget hm.1 hn.1 hm.2 hn.2 h

theorem memBytes_memWrite (s : State) (a : Nat) (b : Bytes) : memBytes (memWrite s a b) a b.length = b := by
  refine List.ext_getElem (by simp) (fun i hi _ => ?_)
  simpa [memBytes, memByte, memWrite] using mget_putBytes_in s.mem a b i (by simpa using hi)

theorem memByte_memWrite_out (s : State) (a : Nat) (b : Bytes) (x : Nat) (h : x < a ∨ a + b.length ≤ x) :
    memByte (memWrite s a b) x = memByte s x :=
  mget_putBytes_out s.mem a b x h

theorem mem_badCells_memWrite (s : State) (a : Nat) (b : Bytes) (k : Nat) :
    k ∈ (memWrite s a b).badCells ↔ k ∈ s.badCells ∧ ¬(a ≤ 8 * k ∧ 8 * k + 8 ≤ a + b.length) := by
  simp only [memWrite, List.mem_filter, Bool.not_eq_true', decide_eq_false_iff_not]

/-- Settles O59: a store reads back and leaves every other byte, and a table in canonical form is told by what it reads as. -/
theorem memoryLaws : Obligations.MemoryLaws :=
  ⟨memBytes_memWrite, memByte_memWrite_out, memWrite_form, mem_badCells_memWrite, fun _ _ => wf_unique⟩

/-! ### The raising of an event -/

theorem raise_other {s : State} {n : Nat} (h : ∀ v, destOf (evtRoute s n) ≠ .host v) :
    (raise s n).hlk = s.hlk ∧ (raise s n).ports = s.ports := by
  unfold raise
  dsimp only
  split
  · next v hv => exact absurd hv (h v)
  · exact ⟨rfl, rfl⟩

/-- The state with the source's pending bit set and its trace entry made. -/
def noted (s : State) (n : Nat) : State := traceRaise { s with evtPend := s.evtPend ||| (1#1024 <<< n) } n

theorem raise_host {s : State} {n : Nat} {v : BitVec 11} (h : destOf (evtRoute s n) = .host v) :
    raise s n = triggerVector (noted s n) v := by
  have hroute : destOf (evtRoute (noted s n) n) = .host v := h
  unfold raise
  change (match destOf (evtRoute (noted s n) n) with
    | .host v => triggerVector (noted s n) v
    | _ => noted s n) = _
  rw [hroute]

theorem triggerVector_sent {s : State} {v : BitVec 11} (hup : s.hlk.up = true) (hopen : s.hlk.mask.getLsbD v.toNat = false) :
    triggerVector s v = { s with ports := { s.ports with hostOut := s.ports.hostOut ++ [.msix v] } } := by
  unfold triggerVector
  rw [if_neg (by simp [hup, hopen])]

theorem triggerVector_held {s : State} {v : BitVec 11} (h : s.hlk.up = false ∨ s.hlk.mask.getLsbD v.toNat = true) :
    triggerVector s v = { s with hlk := { s.hlk with pend := s.hlk.pend ||| (1#2048 <<< v.toNat) } } := by
  unfold triggerVector
  rw [if_pos (by rcases h with h | h <;> simp [h])]

theorem raise_trace (s : State) (n : Nat) : (raise s n).trace = ((n, s.ttc) :: s.trace).take 256 := by
  unfold raise
  dsimp only
  split
  · unfold triggerVector
    split <;> rfl
  · rfl

/-- Settles O60. -/
theorem eventRaise : Obligations.EventRaise := by
  refine ⟨fun s n k hk _ => ?_, raise_trace, fun _ _ => raise_other, fun s n v hroute hup hopen => ?_,
    fun s n v hroute hheld => ?_, fun s n => LockedRoutes.raise_withEvents s n⟩
  · rw [LockedRoutes.isPending_raise s hk]
    simp
  · rw [raise_host hroute, triggerVector_sent (s := noted s n) hup hopen]
    exact ⟨rfl, rfl⟩
  · rw [raise_host hroute, triggerVector_held (s := noted s n) hheld]
    exact ⟨rfl, rfl⟩

/-! ### The state right after reset -/

theorem coreAt_reset {n : Nat} (hn : n < 4) : coreAt State.reset n = Core.reset := by
  unfold coreAt State.reset
  simp [hn]

/-- Settles O58: each value stands in the reset state itself. -/
theorem resetState : Obligations.ResetState := by
  refine ⟨rfl, rfl, rfl, rfl, rfl, Invariants.worldsOk_reset, ?_, rfl, rfl, rfl, rfl, fun n hn => ?_, fun _ => rfl, rfl⟩
  · exact ⟨rfl, by decide, fun h => absurd h (by decide), rfl, rfl⟩
  · unfold curSig curWorld curSig
    rw [coreAt_reset hn]
    refine ⟨rfl, rfl, rfl, rfl, rfl, rfl, ?_⟩
    interval_cases n <;> rfl

end Sys2Proof.Basics
end

section
/-! SUPPORT. What the proofs of the functional statements share: the bits of a field, frames of the register bank, the events
that a row raises, and where a row leads. -/

namespace Sys2Proof.Frames

open Sys2Proof.Machine

/-! ### Fields of a word -/

theorem testBit_bitsOf (w : Word) (lo n i : Nat) : (bitsOf w lo n).testBit i = (decide (i < n) && w.getLsbD (lo + i)) := by
  unfold bitsOf
  rw [Nat.testBit_mod_two_pow, Nat.testBit_shiftRight, BitVec.testBit_toNat]

theorem getLsbD_place (lo n v i : Nat) :
    (place lo n v).getLsbD i = (decide (i < 32) && (decide (lo ≤ i) && (decide (i - lo < n) && v.testBit (i - lo)))) := by
  unfold place
  rw [BitVec.getLsbD_ofNat, Nat.testBit_shiftLeft, Nat.testBit_mod_two_pow]

theorem getLsbD_fmask (lo n i : Nat) :
    (fmask lo n).getLsbD i = (decide (i < 32) && (decide (lo ≤ i) && decide (i - lo < n))) := by
  unfold fmask
  rw [BitVec.getLsbD_ofNat, Nat.testBit_shiftLeft, Nat.testBit_two_pow_sub_one]

theorem getLsbD_withBits (w : Word) (lo n v i : Nat) :
    (withBits w lo n v).getLsbD i = if lo ≤ i ∧ i < lo + n then decide (i < 32) && v.testBit (i - lo) else w.getLsbD i := by
  unfold withBits
  rw [BitVec.getLsbD_or, BitVec.getLsbD_and, BitVec.getLsbD_not, getLsbD_place, getLsbD_fmask]
  by_cases hi : i < 32
  · split
    · next h => simp [hi, h.1, show i - lo < n by omega]
    · next h =>
      have hout : ¬(lo ≤ i ∧ i - lo < n) := fun k => h ⟨k.1, by omega⟩
      by_cases hlo : lo ≤ i
      · simp [hi, hlo, show ¬(i - lo < n) from fun k => hout ⟨hlo, k⟩]
      · simp [hi, hlo]
  · have hw : w.getLsbD i = false := BitVec.getLsbD_of_ge w i (by omega)
    simp [hi, hw]

theorem bitsOf_lt (w : Word) (lo n : Nat) : bitsOf w lo n < 2 ^ n := Nat.mod_lt _ (Nat.two_pow_pos n)

theorem bitsOf_ext {w u : Word} {lo n : Nat} (h : ∀ i, i < n → w.getLsbD (lo + i) = u.getLsbD (lo + i)) :
    bitsOf w lo n = bitsOf u lo n := by
  refine Nat.eq_of_testBit_eq (fun i => ?_)
  rw [testBit_bitsOf, testBit_bitsOf]
  by_cases hi : i < n
  · rw [h i hi]
  · simp [hi]

/-- A field reads as it was set. -/
theorem bitsOf_withBits_same (w : Word) {lo n : Nat} (v : Nat) (h : lo + n ≤ 32) :
    bitsOf (withBits w lo n v) lo n = v % 2 ^ n := by
  refine Nat.eq_of_testBit_eq (fun i => ?_)
  rw [testBit_bitsOf, getLsbD_withBits, Nat.testBit_mod_two_pow]
  by_cases hi : i < n
  · simp [hi, show lo + i < 32 by omega]
  · simp [hi]

/-- A field that another one does not meet stays. -/
theorem bitsOf_withBits_other (w : Word) {lo n lo' n' : Nat} (v : Nat) (h : lo' + n' ≤ lo ∨ lo + n ≤ lo') :
    bitsOf (withBits w lo n v) lo' n' = bitsOf w lo' n' := by
  refine bitsOf_ext (fun i hi => ?_)
  rw [getLsbD_withBits, if_neg (by omega)]

theorem bit_withBits_other (w : Word) {lo n i : Nat} (v : Nat) (h : i < lo ∨ lo + n ≤ i) :
    bit (withBits w lo n v) i = bit w i := by
  unfold bit
  rw [getLsbD_withBits, if_neg (by omega)]

theorem bitsOf_place_same {lo n : Nat} (v : Nat) (h : lo + n ≤ 32) : bitsOf (place lo n v) lo n = v % 2 ^ n := by
  refine Nat.eq_of_testBit_eq (fun i => ?_)
  rw [testBit_bitsOf, getLsbD_place, Nat.testBit_mod_two_pow]
  by_cases hi : i < n
  · simp [hi, show lo + i < 32 by omega]
  · simp [hi]

theorem bitsOf_or (w u : Word) (lo n : Nat) : bitsOf (w ||| u) lo n = bitsOf w lo n ||| bitsOf u lo n := by
  refine Nat.eq_of_testBit_eq (fun i => ?_)
  rw [Nat.testBit_or, testBit_bitsOf, testBit_bitsOf, testBit_bitsOf, BitVec.getLsbD_or, ← Bool.and_or_distrib_left]

theorem bitsOf_and (w u : Word) (lo n : Nat) : bitsOf (w &&& u) lo n = bitsOf w lo n &&& bitsOf u lo n := by
  refine Nat.eq_of_testBit_eq (fun i => ?_)
  rw [Nat.testBit_and, testBit_bitsOf, testBit_bitsOf, testBit_bitsOf, BitVec.getLsbD_and]
  cases decide (i < n) <;> simp

theorem bitsOf_place_other {lo n lo' n' : Nat} (v : Nat) (h : lo' + n' ≤ lo ∨ lo + n ≤ lo') : bitsOf (place lo n v) lo' n' = 0 := by
  refine Nat.eq_of_testBit_eq (fun i => ?_)
  rw [testBit_bitsOf, getLsbD_place, Nat.zero_testBit]
  by_cases hi : i < n'
  · by_cases hlo : lo ≤ lo' + i
    · simp [hlo, show ¬(lo' + i - lo < n) by omega]
    · simp [hlo]
  · simp [hi]

/-! ### Register pairs -/

theorem lo32_pair64 (hi lo : Word) : lo32 (pair64 hi lo) = lo := by
  unfold lo32 pair64
  ext i hi
  simp

theorem hi32_pair64 (hi lo : Word) : hi32 (pair64 hi lo) = hi := by
  unfold hi32 pair64
  ext i hi
  simp [show 32 + i < 64 by omega, hi]

theorem pair64_hi32_lo32 (d : DWord) : pair64 (hi32 d) (lo32 d) = d := by
  unfold hi32 lo32 pair64
  ext i hi
  by_cases h : i < 32
  · simp [h, BitVec.getLsbD_eq_getElem hi]
  · simp [h, hi, show i - 32 < 32 by omega, show 32 + (i - 32) = i by omega]

theorem getR64_setR64 (s : State) (a : Nat) (v : DWord) : getR64 (setR64 s a v) a = v := by
  unfold getR64
  rw [setR64_eq, getR_setR_same, getR_setR_other _ _ _ _ (by omega), getR_setR_same, pair64_hi32_lo32]

theorem getR_orR (s : State) (a : Nat) (m : Word) : getR (orR s a m) a = getR s a ||| m := getR_setR_same s a _
theorem getR_clearR (s : State) (a : Nat) (m : Word) : getR (clearR s a m) a = getR s a &&& ~~~m := getR_setR_same s a _
theorem getR_setFieldR (s : State) (a lo n v : Nat) : getR (setFieldR s a lo n v) a = withBits (getR s a) lo n v :=
  getR_setR_same s a _

theorem getR_orR_other (s : State) {a b : Nat} (m : Word) (h : b ≠ a) : getR (orR s a m) b = getR s b :=
  getR_setR_other s a b _ h
theorem getR_clearR_other (s : State) {a b : Nat} (m : Word) (h : b ≠ a) : getR (clearR s a m) b = getR s b :=
  getR_setR_other s a b _ h
theorem getR_setFieldR_other (s : State) {a b : Nat} (lo n v : Nat) (h : b ≠ a) : getR (setFieldR s a lo n v) b = getR s b :=
  getR_setR_other s a b _ h

theorem getR_congr {s t : State} (h : t.regs = s.regs) (a : Nat) : getR t a = getR s a := by
  unfold getR
  rw [h]

/-! ### Frames of the register bank -/

theorem sameRegs_refl (s : State) (l : List Nat) : SameRegs s s l := fun _ _ => rfl

theorem sameRegs_of_regs {s t : State} (h : t.regs = s.regs) (l : List Nat) : SameRegs s t l := fun a _ => getR_congr h a

theorem sameRegs_trans {s t u : State} {l : List Nat} (h : SameRegs s t l) (k : SameRegs t u l) : SameRegs s u l :=
  fun a ha => (k a ha).trans (h a ha)

theorem sameRegs_setR {s t : State} {l : List Nat} {a : Nat} (h : SameRegs s t l) (ha : a ∈ l) (v : Word) :
    SameRegs s (setR t a v) l := by
  intro b hb
  have hne : b ≠ a := fun e => hb (e.symm ▸ ha)
  rw [getR_setR_other _ _ _ _ hne]
  exact h b hb

theorem sameRegs_raise {s t : State} {l : List Nat} (h : SameRegs s t l) (n : Nat) : SameRegs s (raise t n) l :=
  sameRegs_trans h (sameRegs_of_regs (raise_regs t n) l)

theorem sameRegs_mono {s t : State} {l k : List Nat} (h : SameRegs s t l) (hk : ∀ a ∈ l, a ∈ k) : SameRegs s t k :=
  fun a ha => h a (fun hl => ha (hk a hl))

theorem sameRegs_setR64 (s : State) (a : Nat) (v : DWord) : SameRegs s (setR64 s a v) [a, a + 4] :=
  sameRegs_setR (sameRegs_setR (sameRegs_refl s _) (by simp) _) (by simp) _

/-! ### The guards of an access -/

/-- The registers that the guards of an access read: the session level, the gate of the host, and the selectors of the views that
show cells of their own (R53, R86, R223, R416, R449). -/
def guardRegs : List Nat := [Reg.ILK_STATUS, Reg.HLK_STATUS, Reg.LNE_SEL, Reg.BTR_SEL, Reg.LSM_SEL]

theorem mayWrite_congr {s t : State} {m : Master} {a : Nat} (hmode : t.mode = s.mode) (hfuses : t.fusesOk = s.fusesOk)
    (hroutes : t.routes = s.routes) (hbadRoutes : t.badRoutes = s.badRoutes) (hshadowBad : t.shadowBad = s.shadowBad)
    (hshadows : t.shadows = s.shadows) (hcells : t.badCells = s.badCells) (hprivate : t.badPrivate = s.badPrivate)
    (hregs : ∀ b ∈ guardRegs, getR t b = getR s b) (h : MayWrite s m a) : MayWrite t m a := by
  have hilk := hregs Reg.ILK_STATUS (by decide)
  have hstatus := hregs Reg.HLK_STATUS (by decide)
  have hlne := hregs Reg.LNE_SEL (by decide)
  have hbtr := hregs Reg.BTR_SEL (by decide)
  have hlsm := hregs Reg.LSM_SEL (by decide)
  obtain ⟨hon, hpermits, hgate, hbad⟩ := h
  have hdecide (r : SMap Route) : decideBy t r m .write a = decideBy s r m .write a := by
    unfold decideBy sessionLevel fieldR
    rw [hbadRoutes, hilk]
  refine ⟨?_, ?_, ?_, ?_⟩
  · rw [← hon]
    unfold mainPower
    rw [hmode]
  · rw [← hpermits]
    unfold permits routesPermit shadowFor
    simp only [hfuses, hroutes, hshadowBad, hshadows, hdecide]
  · rw [← hgate]
    unfold hostHeld ready bitR
    rw [hstatus]
  · rw [← hbad]
    unfold regBad shownBad recordBad privateBad fieldR
    rw [hcells, hprivate, hlne, hbtr, hlsm]

theorem mayWrite_setR {s : State} {m : Master} {a b : Nat} (v : Word) (hb : b ∉ guardRegs) (h : MayWrite s m a) :
    MayWrite (setR s b v) m a :=
  mayWrite_congr (s := s) (t := setR s b v) rfl rfl rfl rfl rfl rfl rfl rfl (fun c hc => getR_setR_other s b c v (fun e => hb (e ▸ hc))) h

theorem mayWrite_setR64 {s : State} {m : Master} {a b : Nat} (v : DWord) (hb : b ∉ guardRegs) (hb4 : b + 4 ∉ guardRegs)
    (h : MayWrite s m a) : MayWrite (setR64 s b v) m a :=
  mayWrite_setR _ hb4 (mayWrite_setR _ hb h)

/-! ### Events -/

/-- Raising a source writes its pending bit and the trace, and at most a vector's pending bit or a message. -/
theorem raise_form (s : State) (n : Nat) : ∃ q o, raise s n =
    { s with evtPend := s.evtPend ||| (1#1024 <<< n), trace := ((n, s.ttc) :: s.trace).take 256, traceHead := s.traceHead + 1,
             traceWrapped := s.traceWrapped || decide (s.traceHead = 255), hlk := { s.hlk with pend := q },
             ports := { s.ports with hostOut := o } } := by
  unfold raise
  dsimp only
  split
  · unfold triggerVector
    split <;> exact ⟨_, _, rfl⟩
  · exact ⟨_, _, rfl⟩

theorem raises_refl (s : State) : Raises s s [] := LockedRoutes.raises_nothing rfl rfl

theorem raises_trans {s t u : State} {l k : List Nat} (h : Raises s t l) (h' : Raises t u k) : Raises s u (l ++ k) := by
  obtain ⟨hpend, v, hv⟩ := h
  obtain ⟨hpend', v', hv'⟩ := h'
  refine ⟨fun n hn => ?_, v ++ v', ?_⟩
  · rw [hpend' n hn, hpend n hn, List.contains_append, Bool.or_assoc]
  · rw [hv', hv, List.map_append, List.append_assoc]

/-- Updates that touch neither the pending bits nor what is sent raise nothing. -/
theorem raises_of_same {s t u : State} {l : List Nat} (h : Raises s t l) (he : u.evtPend = t.evtPend) (hp : u.ports.hostOut = t.ports.hostOut) :
    Raises s u l := by
  obtain ⟨hpend, v, hv⟩ := h
  refine ⟨fun n hn => ?_, v, hp.trans hv⟩
  rw [← hpend n hn]
  unfold isPending
  rw [he]

theorem raises_raise {s t : State} {l : List Nat} (h : Raises s t l) (n : Nat) : Raises s (raise t n) (l ++ [n]) :=
  raises_trans h (LockedRoutes.raises_raise t n)

theorem raises_raiseIf {s t : State} {l : List Nat} (h : Raises s t l) (b : Bool) (n : Nat) :
    Raises s (raiseIf b t n) (l ++ if b then [n] else []) := by
  cases b with
  | true => exact raises_raise h n
  | false => simpa [raiseIf] using h

theorem withEvents_refl (s : State) : s = withEvents s s := rfl

theorem withEvents_trans {s t u : State} (h : t = withEvents s t) (k : u = withEvents t u) : u = withEvents s u :=
  k.trans (congrArg (withEvents · u) h :)

theorem raiseIf_withEvents (s : State) (b : Bool) (n : Nat) : raiseIf b s n = withEvents s (raiseIf b s n) := by
  cases b with
  | true => exact LockedRoutes.raise_withEvents s n
  | false => rfl

theorem raiseEvery_shape (s : State) (gap n : Nat) :
    raiseEvery s gap n = withEvents { s with lastRaise := (raiseEvery s gap n).lastRaise } (raiseEvery s gap n) := by
  have hraised (r : SMap DWord) :
      raise { s with lastRaise := r } n = withEvents { s with lastRaise := (raise { s with lastRaise := r } n).lastRaise } (raise { s with lastRaise := r } n) := by
    obtain ⟨q, o, e⟩ := raise_form { s with lastRaise := r } n
    rw [e]
    rfl
  unfold raiseEvery
  split
  · split
    · rfl
    · exact hraised _
  · exact hraised _

/-- A state that differs in events, and in what `Quiet` does not read, is as quiet. -/
theorem quiet_withEvents {s t : State} (h : t = withEvents s t) (hq : Quiet s) : Quiet t := by
  rw [h]
  exact hq

theorem quiet_raiseLimited {s : State} (hq : Quiet s) (n : Nat) : Quiet (raiseLimited s n) :=
  quiet_withEvents (raiseEvery_shape s msTicks n) hq

/-- A row that sets registers alone. -/
theorem onlyRegs_of_regs {s t : State} {l : List Nat} (h : t = { s with regs := t.regs }) (hr : SameRegs s t l) :
    OnlyRegs s t l [] := by
  have hp : t.ports = s.ports := by rw [h]
  have he : t.evtPend = s.evtPend := by rw [h]
  refine ⟨?_, hr, LockedRoutes.raises_nothing he hp⟩
  rw [h]
  rfl

theorem onlyRegs_refl (s : State) (l : List Nat) : OnlyRegs s s l [] := onlyRegs_of_regs rfl (sameRegs_refl s l)

/-! ### Where a row leads -/

/-- A row that completes at once. -/
theorem leads_next {c : Instr} {s t : State} {P : State → Prop} (h : exec c s = .next t) (hp : P t) : Leads c s P :=
  leads_of_exec h hp

/-- A row whose state leaves nothing due. -/
theorem leads_done {c : Instr} {s t : State} {P : State → Prop} (h : exec c s = done t) (hq : Quiet t) (hp : P t) : Leads c s P :=
  leads_of_exec (h.trans (done_quiet t hq)) hp

theorem leads_writeOut {c : Instr} {s : State} {m : Master} {a : Nat} {whole : Bool} {f : State → State} {P : State → Prop}
    (h : exec c s = writeOut s m a whole f) (hm : MayWrite s m a) (hp : P (f s)) : Leads c s P :=
  leads_of_exec (h.trans (writeOut_permitted s m a whole f hm)) hp

theorem leads_guardedWrite {c : Instr} {s : State} {m : Master} {a : Nat} {f : State → State} {P : State → Prop}
    (h : exec c s = done (guardedWrite s m a f)) (hm : MayWrite s m a) (hq : Quiet (f s)) (hp : P (f s)) : Leads c s P := by
  rw [guardedWrite_permitted s m a f hm] at h
  exact leads_done h hq hp

theorem leads_guardedRead {c : Instr} {s : State} {m : Master} {a : Nat} {f : State → State} {P : State → Prop}
    (h : exec c s = done (guardedRead s m a f)) (hm : MayRead s m a) (hq : Quiet (f s)) (hp : P (f s)) : Leads c s P := by
  rw [guardedRead_permitted s m a f hm] at h
  exact leads_done h hq hp

end Sys2Proof.Frames
end

section
/-! SUPPORT. Chains of register writes and events: what a row that writes registers and raises sources one after the other leaves
of the state, said step by step. -/

namespace Sys2Proof.Chains

open Sys2Proof.Machine Sys2Proof.Frames

theorem onlyRegs_then_setR {s t : State} {l ev : List Nat} {a : Nat} (h : OnlyRegs s t l ev) (ha : a ∈ l) (v : Word) :
    OnlyRegs s (setR t a v) l ev := by
  obtain ⟨hform, hsame, hraises⟩ := h
  exact ⟨(congrArg (setR · a v) hform :), sameRegs_setR hsame ha v, raises_of_same hraises rfl rfl⟩

theorem onlyRegs_then_raise {s t : State} {l ev : List Nat} (h : OnlyRegs s t l ev) (n : Nat) :
    OnlyRegs s (raise t n) l (ev ++ [n]) := by
  obtain ⟨hform, hsame, hraises⟩ := h
  refine ⟨?_, sameRegs_raise hsame n, raises_raise hraises n⟩
  rw [raise_regs]
  exact withEvents_trans hform (LockedRoutes.raise_withEvents t n)

theorem onlyRegs_then_raiseIf {s t : State} {l ev : List Nat} (h : OnlyRegs s t l ev) (b : Bool) (n : Nat) :
    OnlyRegs s (raiseIf b t n) l (ev ++ if b then [n] else []) := by
  cases b with
  | true => exact onlyRegs_then_raise h n
  | false => simpa [raiseIf] using h

theorem onlyRegs_mono {s t : State} {l k ev : List Nat} (h : OnlyRegs s t l ev) (hk : ∀ a ∈ l, a ∈ k) : OnlyRegs s t k ev :=
  ⟨h.1, sameRegs_mono h.2.1 hk, h.2.2⟩

/-- Registers and events leave nothing due. -/
theorem quiet_of_onlyRegs {s t : State} {l ev : List Nat} (h : OnlyRegs s t l ev) (hq : Quiet s) : Quiet t := by
  rw [h.1]
  exact hq

theorem isPending_raise_same (s : State) {n : Nat} (hn : n < 1024) : isPending (raise s n) n = true := by
  rw [LockedRoutes.isPending_raise s hn]
  simp

theorem isPending_raise_of {s : State} {k : Nat} (n : Nat) (hk : k < 1024) (h : isPending s k = true) :
    isPending (raise s n) k = true := by
  rw [LockedRoutes.isPending_raise s hk, h, Bool.true_or]

/-- A source at most once in a period: the first time it is raised. -/
theorem raiseLimited_fresh {s : State} {n : Nat} (h : mget? s.lastRaise n = none) :
    raiseLimited s n = raise { s with lastRaise := mput s.lastRaise n s.ttc } n := by
  unfold raiseLimited raiseEvery
  rw [h]

end Sys2Proof.Chains
end

section
/-! PROOF. The set-up page, the control line and Window C (R54, R55, R58). -/

namespace Sys2Proof.SetupPage

open Sys2Proof.Machine Sys2Proof.Frames

/-! ### The configuration of the control line -/

/-- Fields that hold no reserved value are taken as written. -/
theorem keepReserved_legal {old w : Word} {l : List (Nat × Nat × Nat × Nat)}
    (h : ∀ f ∈ l, f.2.2.1 ≤ bitsOf w f.1 f.2.1 ∧ bitsOf w f.1 f.2.1 ≤ f.2.2.2) : keepReserved old l w = w := by
  unfold keepReserved
  induction l with
  | nil => rfl
  | cons f r ih =>
    rw [List.foldl_cons, if_pos (h f List.mem_cons_self)]
    exact ih (fun e he => h e (List.mem_cons_of_mem _ he))

/-- A field inside a mask reads as without the mask. -/
theorem bitsOf_masked (v m : Word) {lo n : Nat} (h : ∀ i, i < n → m.getLsbD (lo + i) = true) : bitsOf (v &&& m) lo n = bitsOf v lo n := by
  refine bitsOf_ext (fun i hi => ?_)
  rw [BitVec.getLsbD_and, h i hi, Bool.and_true]

/-- The sizes that R55 allows for both rings. -/
def SizesOk (v : Word) : Prop := (4 ≤ bitsOf v 0 5 ∧ bitsOf v 0 5 ≤ 16) ∧ 4 ≤ bitsOf v 8 5 ∧ bitsOf v 8 5 ≤ 16

theorem bitsOf_config (v : Word) :
    bitsOf (v &&& 0x07FF1F1F) 0 5 = bitsOf v 0 5 ∧ bitsOf (v &&& 0x07FF1F1F) 8 5 = bitsOf v 8 5 :=
  ⟨bitsOf_masked v _ (by decide), bitsOf_masked v _ (by decide)⟩

theorem clFields_legal {old v : Word} (h : SizesOk v) : clFields old v = v &&& 0x07FF1F1F := by
  obtain ⟨hup, hdn⟩ := bitsOf_config v
  refine keepReserved_legal ?_
  simp only [List.mem_cons, List.not_mem_nil, or_false, forall_eq_or_imp, forall_eq, hup, hdn]
  exact h

/-! ### The control line opens -/

/-- The control line opens when the sizes are allowed and the backing store has a base (R55). -/
theorem openControl_opens {s : State} {v : Word} (hclosed : clOpen s = false) (hbase : getR64 s Reg.HLK_BSTORE_BASE ≠ 0) (hv : SizesOk v) :
    openControl s v =
      orR (orR (setLine (setR s Reg.HLK_CL_CONFIG (v &&& 0x07FF1F1F)) 0 (controlRecord (setR s Reg.HLK_CL_CONFIG (v &&& 0x07FF1F1F))))
        Reg.HLK_CL_CONFIG 0x80000000) Reg.HLK_STATUS 0x200 := by
  obtain ⟨hup, hdn⟩ := bitsOf_config v
  have hkept : getR64 (setR s Reg.HLK_CL_CONFIG (v &&& 0x07FF1F1F)) Reg.HLK_BSTORE_BASE = getR64 s Reg.HLK_BSTORE_BASE := by
    unfold getR64
    rw [getR_setR_other _ _ _ _ (by decide), getR_setR_other _ _ _ _ (by decide)]
  unfold openControl
  dsimp only
  rw [clFields_legal hv, if_neg (by simp [hclosed]), if_pos]
  rw [hup, hdn, hkept]
  obtain ⟨⟨h1, h2⟩, h3, h4⟩ := hv
  simp only [sizeOk, h1, h2, h3, h4, hbase, ne_eq, not_false_eq_true, decide_true, Bool.and_self]

theorem openControl_opened {s : State} {v : Word} (hclosed : clOpen s = false) (hbase : getR64 s Reg.HLK_BSTORE_BASE ≠ 0) (hv : SizesOk v) :
    clOpen (openControl s v) = true ∧ sessionOn (openControl s v) = true ∧ (getLine (openControl s v) 0).state = .opened ∧
      (getLine (openControl s v) 0).upTail = 0 ∧ (getLine (openControl s v) 0).upHead = 0 ∧ (getLine (openControl s v) 0).dnTail = 0 ∧
      (getLine (openControl s v) 0).dnHead = 0 ∧ (getLine (openControl s v) 0).upLog2 = bitsOf v 0 5 ∧
      (getLine (openControl s v) 0).dnLog2 = bitsOf v 8 5 ∧ (∀ l, l ≠ 0 → getLine (openControl s v) l = getLine s l) ∧
      SameRegs s (openControl s v) [Reg.HLK_CL_CONFIG, Reg.HLK_STATUS] ∧
      openControl s v = { s with regs := (openControl s v).regs, lne := { s.lne with lines := (openControl s v).lne.lines } } := by
  obtain ⟨hup, hdn⟩ := bitsOf_config v
  rw [openControl_opens hclosed hbase hv]
  have hline (t : State) (r : Line) : getLine (orR (orR (setLine t 0 r) Reg.HLK_CL_CONFIG 0x80000000) Reg.HLK_STATUS 0x200) 0 = r :=
    getLine_setLine_same t 0 r
  simp only [hline]
  refine ⟨?_, ?_, rfl, rfl, rfl, rfl, rfl, ?_, ?_, ?_, ?_, rfl⟩
  · unfold clOpen bitR bit
    rw [getR_orR_other _ _ (by decide), getR_orR, BitVec.getLsbD_or]
    simp
  · unfold sessionOn bitR bit
    rw [getR_orR, BitVec.getLsbD_or]
    simp
  · dsimp only [controlRecord]
    unfold fieldR
    rw [getR_setR_same, hup]
  · dsimp only [controlRecord]
    unfold fieldR
    rw [getR_setR_same, hdn]
  · intro l hl
    exact getLine_setLine_other _ 0 l _ hl
  · refine sameRegs_setR (sameRegs_setR ?_ (by simp) _) (by simp) _
    exact sameRegs_setR (sameRegs_refl s _) (by simp) _

/-! ### A session ends -/

theorem mget?_map {α : Type} (f : α → α) (m : SMap α) (i : Nat) : mget? (m.map (fun e => (e.1, f e.2))) i = (mget? m i).map f := by
  induction m with
  | nil => rfl
  | cons e r ih =>
    obtain ⟨k, v⟩ := e
    rw [List.map_cons, mget?, mget?]
    split
    · rfl
    · exact ih

theorem endSession_shape (s : State) :
    endSession s = withEvents { s with regs := (endSession s).regs, hlk := (endSession s).hlk, lne := (endSession s).lne } (endSession s) := by
  obtain ⟨q, o, e⟩ := raise_form s 18
  unfold endSession
  rw [e]
  rfl

theorem getLine_endSession (s : State) {l : Nat} (hl : l ≠ 0) (hopen : (getLine s l).state ≠ .closed) :
    getLine (endSession s) l = sessionEndLine (mirrorOn s) (getLine s l) := by
  have hlisted : ∃ r, mget? s.lne.lines l = some r := by
    cases h : mget? s.lne.lines l with
    | some r => exact ⟨r, rfl⟩
    | none => exact absurd (by unfold getLine; rw [h]; rfl) hopen
  obtain ⟨r, hr⟩ := hlisted
  have hsame : getLine s l = r := by
    unfold getLine
    rw [hr]
    rfl
  obtain ⟨q, o, e⟩ := raise_form s 18
  have hset (c : Line) : mget? (mset Line.closed s.lne.lines 0 c) l = some r := by
    unfold mset
    split
    · rw [mget?_mdel_other _ _ _ hl, hr]
    · rw [mget?_mput_other _ _ _ _ hl, hr]
  rw [hsame]
  unfold endSession getLine
  rw [e]
  change (mget? ((mset Line.closed s.lne.lines 0 _).map (fun e => (e.1, sessionEndLine (mirrorOn s) e.2))) l).getD Line.closed = _
  rw [mget?_map, hset]
  rfl

/-- A line at the end of a session is PAUSED with the halt flag clear, or stays FAULTED; nothing of it is in flight (R65, R107). -/
theorem sessionEndLine_ends {m : Bool} {r : Line} (h : r.state ≠ .closed) :
    (sessionEndLine m r).state = (if r.state = .faulted then .faulted else .paused) ∧
      (r.state ≠ .faulted → (sessionEndLine m r).halt = false) ∧ (sessionEndLine m r).flights = [] ∧
      (sessionEndLine m r).upTail = 0 ∧ (sessionEndLine m r).upHead = 0 ∧ (sessionEndLine m r).dnTail = 0 ∧
      (sessionEndLine m r).dnHead = 0 ∧
      (sessionEndLine m r).mirror = (r.mirror || (m && !decide (r.upHead = 0 ∧ r.dnTail = 0))) := by
  unfold sessionEndLine
  cases hs : r.state with
  | closed => exact absurd hs h
  | faulted => simp [zeroIndices, hs]
  | opened => simp [zeroIndices]
  | paused => simp [zeroIndices]

theorem endSession_ended (s : State) : SessionEnded s (endSession s) := by
  obtain ⟨q, o, e⟩ := raise_form s 18
  refine ⟨?_, ?_, rfl, rfl, ?_, fun l hl hopen => ?_⟩
  · unfold endSession sessionOn bitR bit
    rw [getR_clearR, BitVec.getLsbD_and]
    simp
  · unfold endSession clOpen bitR bit
    rw [getR_clearR_other _ _ (by decide), getR_clearR, BitVec.getLsbD_and]
    simp
  · have hpend : (endSession s).evtPend = (raise s 18).evtPend := rfl
    unfold isPending
    rw [hpend, e]
    simp
  · rw [getLine_endSession s hl hopen]
    exact sessionEndLine_ends hopen

theorem closeControl_ends {s : State} {v : Word} (hopen : clOpen s = true) (hfree : controlBusy s = false)
    (hsame : v &&& 0x07FF1F1F = getR s Reg.HLK_CL_CONFIG &&& 0x7FFFFFFF) (hv : SizesOk v) : closeControl s v = endSession s := by
  unfold closeControl
  dsimp only
  rw [clFields_legal hv, hsame, if_neg (by simp [hopen]), if_neg (by simp [hfree])]

/-- Settles O1: each row of the set-up page writes its own registers, and the control line opens and closes the session. -/
theorem setupPage : Obligations.SetupPage := by
  refine ⟨fun s m r h v hm hfree => ?_, fun s m r h v hm hlocked => ?_, fun s m v hm hclosed hbase h1 h2 h3 h4 => ?_,
    fun s m v hm hopen hfree hsame h1 h2 h3 h4 => ?_, fun s off v hon => ?_⟩
  · have hset : writeSetup s r h v = setR64 s (setupAddr r) (writeHalf (getR64 s (setupAddr r)) h v &&& ~~~(0xFFF#64)) := by
      unfold writeSetup
      rw [if_neg (by simp [hfree])]
    refine leads_writeOut (f := fun t => writeSetup t r h v) rfl hm ?_
    rw [hset, getR64_setR64]
    exact ⟨rfl, onlyRegs_of_regs rfl (sameRegs_setR64 s _ _)⟩
  · have hset : writeSetup s r h v = orR s Reg.HLK_ERR 8 := by
      unfold writeSetup
      rw [if_pos hlocked]
      rfl
    refine leads_writeOut (f := fun t => writeSetup t r h v) rfl hm ?_
    rw [hset, getR_orR]
    exact ⟨rfl, LockedRoutes.onlyRegs_orR s _ 8⟩
  · exact leads_writeOut (f := fun t => openControl t v) rfl hm (openControl_opened hclosed hbase ⟨⟨h1, h2⟩, h3, h4⟩)
  · refine leads_writeOut (f := fun t => closeControl t v) rfl hm ?_
    rw [closeControl_ends hopen hfree hsame ⟨⟨h1, h2⟩, h3, h4⟩]
    exact ⟨endSession_ended s, endSession_shape s⟩
  · refine leads_next rfl ?_
    rw [if_pos hon, getR_orR]
    exact ⟨rfl, LockedRoutes.onlyRegs_orR s _ 0x20⟩

end Sys2Proof.SetupPage
end

section
/-! PROOF. Event registers and sealed settings (R60, R549, R552, R556 to R558). -/

namespace Sys2Proof.EventsAndSettings

open Sys2Proof.Machine Sys2Proof.Frames

/-! ### The pending bits (R549) -/

/-- One source of a write of ones: cleared by a master that may, recorded as an error otherwise. -/
def clearOne (m : Master) (t : State) (i : Nat) : State :=
  if mayClear t m i then { t with evtPend := t.evtPend &&& ~~~(1#1024 <<< i) } else orR t Reg.EVT_ERR 2

theorem clearOne_shape (m : Master) (s : State) (i : Nat) :
    clearOne m s i = { s with regs := (clearOne m s i).regs, evtPend := (clearOne m s i).evtPend } := by
  unfold clearOne
  split <;> rfl

theorem mayClear_clearOne (m : Master) (s : State) (i k : Nat) : mayClear (clearOne m s i) m k = mayClear s m k := by
  rw [clearOne_shape]
  rfl

theorem isPending_clearOne (m : Master) (s : State) (i : Nat) {k : Nat} (hk : k < 1024) :
    isPending (clearOne m s i) k = (isPending s k && !(decide (k = i) && mayClear s m k)) := by
  unfold clearOne
  split
  · next h =>
    unfold isPending
    rw [BitVec.getLsbD_and, BitVec.getLsbD_not, BitVec.getLsbD_shiftLeft, BitVec.getLsbD_one]
    by_cases hki : k = i
    · subst hki
      simp [hk, h]
    · by_cases hlt : k < i
      · simp [hk, hki, hlt]
      · simp [hk, hki, hlt, show ¬(k - i = 0) by omega]
  · next h =>
    by_cases hki : k = i
    · subst hki
      simp [h, isPending, orR, setR]
    · simp [hki, isPending, orR, setR]

theorem err_clearOne (m : Master) (s : State) (i : Nat) :
    bitR (clearOne m s i) Reg.EVT_ERR 1 = (bitR s Reg.EVT_ERR 1 || !mayClear s m i) := by
  unfold clearOne
  split
  · next h => simp [h, bitR, getR]
  · next h =>
    unfold bitR bit
    rw [getR_orR, BitVec.getLsbD_or]
    simp [h]

theorem sameRegs_clearOne (m : Master) (s : State) (i : Nat) : SameRegs s (clearOne m s i) [Reg.EVT_ERR] := by
  unfold clearOne
  split
  · exact sameRegs_refl s _
  · exact sameRegs_setR (sameRegs_refl s _) (by simp) _

/-- A run of sources: each is cleared where the master may, and any that it may not clear is recorded. -/
theorem clearAll_spec (m : Master) (l : List Nat) (s : State) :
    (∀ k, k < 1024 → isPending (l.foldl (clearOne m) s) k = (isPending s k && !(l.contains k && mayClear s m k))) ∧
      bitR (l.foldl (clearOne m) s) Reg.EVT_ERR 1 = (bitR s Reg.EVT_ERR 1 || l.any (fun i => !mayClear s m i)) ∧
      SameRegs s (l.foldl (clearOne m) s) [Reg.EVT_ERR] ∧
      l.foldl (clearOne m) s = { s with regs := (l.foldl (clearOne m) s).regs, evtPend := (l.foldl (clearOne m) s).evtPend } := by
  induction l generalizing s with
  | nil => exact ⟨fun k _ => by simp, by simp, sameRegs_refl s _, rfl⟩
  | cons i r ih =>
    obtain ⟨hpend, herr, hregs, hshape⟩ := ih (clearOne m s i)
    rw [List.foldl_cons]
    refine ⟨fun k hk => ?_, ?_, sameRegs_trans (sameRegs_clearOne m s i) hregs, ?_⟩
    · rw [hpend k hk, isPending_clearOne m s i hk, mayClear_clearOne, List.contains_cons]
      by_cases hki : k = i
      · cases isPending s k <;> cases mayClear s m k <;> simp [hki]
      · cases isPending s k <;> cases mayClear s m k <;> simp [hki]
    · rw [herr, err_clearOne]
      simp only [mayClear_clearOne, List.any_cons, Bool.or_assoc]
    · rw [hshape, clearOne_shape]

theorem contains_onesOf (n k : Nat) (ones : Word) :
    (onesOf n ones).contains k = (decide (k / 32 = n) && ones.getLsbD (k % 32)) := by
  rw [Bool.eq_iff_iff]
  simp only [onesOf, List.contains_iff_mem, List.mem_map, List.mem_filter, List.mem_range, Bool.and_eq_true, decide_eq_true_eq]
  constructor
  · rintro ⟨i, ⟨hi, hone⟩, rfl⟩
    refine ⟨by omega, ?_⟩
    rw [show (32 * n + i) % 32 = i by omega]
    exact hone
  · rintro ⟨hn, hone⟩
    exact ⟨k % 32, ⟨Nat.mod_lt _ (by decide), hone⟩, by omega⟩

theorem any_onesOf (n : Nat) (ones : Word) (p : Nat → Bool) :
    (onesOf n ones).any p = (List.range 32).any (fun i => ones.getLsbD i && p (32 * n + i)) := by
  simp [onesOf, List.any_map, List.any_filter, Function.comp_def]

/-! ### Event routes (R552) -/

theorem evtRoute_putEvtRoute (s : State) (n k : Nat) (w : Word) : evtRoute (putEvtRoute s n w) k = if k = n then w else evtRoute s k := by
  unfold evtRoute putEvtRoute
  by_cases hk : k = n
  · subst hk
    by_cases hw : w = routeDefault k <;> simp [hw]
  · by_cases hw : w = routeDefault n
    · simp [hk, hw, mget?_mdel_other]
    · simp [hk, hw, mget?_mput_other]

theorem bitsOf_routeMask (v : Word) : bitsOf (v &&& 0x87FF001F) 0 2 = bitsOf v 0 2 := by
  refine bitsOf_ext (fun i hi => ?_)
  rw [BitVec.getLsbD_and, show (0x87FF001F : Word).getLsbD (0 + i) = true by interval_cases i <;> rfl, Bool.and_true]

/-- A route takes what is written, but keeps its old destination for the reserved one. -/
theorem routeWord_eq (old v : Word) :
    routeWord old v = if bitsOf v 0 2 = 3 then withBits (v &&& 0x87FF001F) 0 2 (bitsOf old 0 2) else v &&& 0x87FF001F := by
  have hlt := bitsOf_lt v 0 2
  unfold routeWord keepReserved
  simp only [List.foldl_cons, List.foldl_nil, bitsOf_routeMask]
  by_cases h : bitsOf v 0 2 = 3
  · simp [h]
  · rw [if_pos (by omega), if_neg h]

theorem evtRoute_writeEvtRoute {s : State} {n : Nat} (v : Word) (h : bit (evtRoute s n) 31 = false) :
    writeEvtRoute s n v = putEvtRoute s n (routeWord (evtRoute s n) v) := by
  unfold writeEvtRoute
  dsimp only
  rw [if_neg (by simp [h])]

/-! ### Vectors (R60) -/

theorem getLsbD_cleared {w : Nat} (x : BitVec w) (i k : Nat) (hi : i < w) :
    (x &&& ~~~(1#w <<< i)).getLsbD k = (x.getLsbD k && !decide (k = i)) := by
  rw [BitVec.getLsbD_and, BitVec.getLsbD_not, BitVec.getLsbD_shiftLeft, BitVec.getLsbD_one]
  by_cases hk : k < w
  · by_cases hki : k = i
    · subst hki
      simp [hk, show 0 < w by omega]
    · by_cases hlt : k < i
      · simp [hk, hki, hlt]
      · simp [hk, hki, hlt, show ¬(k - i = 0) by omega]
  · simp [BitVec.getLsbD_of_ge x k (by omega)]

theorem eventRegisters : Claims.EventRegisters := by
  refine ⟨fun s m n ones hq hm => ?_, fun s m n v hq hm hfree => ?_, fun s m n v hq hm hfrozen => ?_, fun s v hq hm hup => ?_,
    fun s v hq hm hdown => ?_, fun s v hq hon hpermits hready => ?_⟩
  · obtain ⟨hpend, herr, hregs, hshape⟩ := clearAll_spec m (onesOf n.toNat ones) s
    refine leads_guardedWrite (f := fun t => clearPending t m n.toNat ones) rfl hm ?_ ⟨fun k hk => ?_, ?_, hregs, hshape⟩
    · change Quiet ((onesOf n.toNat ones).foldl (clearOne m) s)
      rw [hshape]
      exact hq
    · rw [← contains_onesOf]
      exact hpend k hk
    · rw [← any_onesOf n.toNat ones (fun i => !mayClear s m i)]
      exact herr
  · refine leads_guardedWrite (f := fun t => writeEvtRoute t n.toNat v) rfl hm ?_ ?_
    · rw [evtRoute_writeEvtRoute v hfree]
      exact hq
    · rw [evtRoute_writeEvtRoute v hfree]
      simp only [evtRoute_putEvtRoute, if_true, routeWord_eq]
      exact ⟨fun h => if_neg h, fun h => if_pos h, fun k hk => if_neg hk, rfl⟩
  · have hset : writeEvtRoute s n.toNat v = orR s Reg.EVT_ERR 1 := by
      unfold writeEvtRoute
      dsimp only
      rw [if_pos hfrozen]
    refine leads_guardedWrite (f := fun t => writeEvtRoute t n.toNat v) rfl hm ?_ ?_
    · rw [hset]
      exact hq
    · rw [hset, getR_orR]
      exact ⟨rfl, LockedRoutes.onlyRegs_orR s _ 1⟩
  · refine leads_guardedWrite (f := unmaskVector v) rfl hm ?_ ?_
    · unfold unmaskVector
      dsimp only
      split <;> exact hq
    · unfold unmaskVector
      dsimp only
      cases hp : s.hlk.pend.getLsbD v.toNat
      · rw [if_neg (by simp)]
        dsimp only
        simp only [getLsbD_cleared _ _ _ v.isLt]
        exact ⟨by simp, hp, fun k hk => by simp [hk], by simp, trivial⟩
      · rw [if_pos (by simp [hup])]
        dsimp only
        simp only [getLsbD_cleared _ _ _ v.isLt]
        exact ⟨by simp, by simp, fun k hk => by simp [hk], by simp, trivial⟩
  · have hset : unmaskVector v s = { s with hlk := { s.hlk with mask := s.hlk.mask &&& ~~~(1#2048 <<< v.toNat) } } := by
      unfold unmaskVector
      dsimp only
      rw [if_neg (by simp [hdown])]
    refine leads_guardedWrite (f := unmaskVector v) rfl hm ?_ ?_
    · rw [hset]
      exact hq
    · rw [hset]
      dsimp only
      simp only [getLsbD_cleared _ _ _ v.isLt]
      exact ⟨by simp, trivial, fun k hk => by simp [hk], trivial⟩
  · have hgate : hostHeld s 31 (vectorControl v) = true := by
      have hid : vectorControl v ≠ Reg.HLK_ID := by
        unfold vectorControl Reg.HLK_ID
        omega
      have hstatus : vectorControl v ≠ Reg.HLK_STATUS := by
        unfold vectorControl Reg.HLK_STATUS
        omega
      unfold hostHeld
      rw [hready, decide_eq_true hid, decide_eq_true hstatus]
      rfl
    have hset : guardedWrite s 31 (vectorControl v) (unmaskVector v) = orR s Reg.HLK_ERR 4 := by
      unfold guardedWrite
      rw [if_neg (by simp [hon]), if_neg (by rw [hpermits]; decide), if_pos hgate]
    refine leads_done (congrArg done hset) hq ?_
    rw [getR_orR]
    exact ⟨rfl, LockedRoutes.onlyRegs_orR s _ 4⟩

/-! ### Sealed settings (R556 to R558) -/

theorem guardedPair_permitted {s : State} {m : Master} {a : Nat} (f : State → State) (h : MayWrite s m a) : guardedPair s m a f = f s := by
  obtain ⟨hon, hpermits, hgate, -⟩ := h
  unfold guardedPair
  simp [hon, hpermits, hgate]

theorem leads_guardedPair {c : Instr} {s : State} {m : Master} {a : Nat} {f : State → State} {P : State → Prop}
    (h : exec c s = done (guardedPair s m a f)) (hm : MayWrite s m a) (hq : Quiet (f s)) (hp : P (f s)) : Leads c s P := by
  rw [guardedPair_permitted f hm] at h
  exact leads_done h hq hp

/-- The fuses are in order where an access is permitted (R428). -/
theorem fusesOk_of_mayWrite {s : State} {m : Master} {a : Nat} (h : MayWrite s m a) : s.fusesOk = true := by
  obtain ⟨-, hpermits, -, -⟩ := h
  unfold permits at hpermits
  simp only [Bool.and_eq_true] at hpermits
  exact hpermits.1.1

/-- The cell of a setting that may be written holds no seal mismatch. -/
theorem settingCell_whole {s : State} {m : Master} {i : Nat} (h : MayWrite s m (Reg.SST_REG i + 4)) : settingCell i ∉ s.badCells := by
  obtain ⟨-, -, -, hbad⟩ := h
  unfold regBad at hbad
  simp only [Bool.or_eq_false_iff] at hbad
  obtain ⟨⟨hcell, -⟩, -⟩ := hbad
  have he : settingCell i = (Reg.SST_REG i + 4) / 8 := by
    unfold settingCell Reg.SST_REG
    omega
  rw [he]
  simpa using hcell

/-- A setting that is written directly (R557). -/
theorem writeSst_direct {s : State} {i : Nat} {v : Word} (h1 : 104 ≤ i) (h2 : i ≤ 247) :
    writeSst s 4 i v = sstStore { s with lowHeld := mdel s.lowHeld (Reg.SST_REG i) } i (pair64 v (heldLowOf s i)) := by
  have hrule : sstRule { s with lowHeld := mdel s.lowHeld (Reg.SST_REG i) } 4 i = .direct := by
    unfold sstRule
    rw [if_neg (by omega), if_neg (by omega), if_pos ⟨h1, h2⟩, if_pos rfl]
  have hvalue (t : State) (x : DWord) : sstValue t i x = x := by
    unfold sstValue
    rw [if_neg (by omega), if_neg (by omega)]
  unfold writeSst
  dsimp only
  rw [hrule, hvalue]

/-- A system setting takes no direct write (R557). -/
theorem writeSst_refused {s : State} {m : Master} {i : Nat} {v : Word} (h1 : 9 ≤ i) (h2 : i ≤ 18) :
    writeSst s m i v = orR { s with lowHeld := mdel s.lowHeld (Reg.SST_REG i) } Reg.SST_ERR 2 := by
  have hrule : sstRule { s with lowHeld := mdel s.lowHeld (Reg.SST_REG i) } m i = .refused := by
    unfold sstRule
    rw [if_neg (by omega), if_neg (by omega), if_neg (by omega)]
  unfold writeSst
  dsimp only
  rw [hrule]

/-- A setting below its last write takes the value and counts (R558). -/
theorem sstStore_fits {s : State} {i : Nat} {v : DWord} (h : sstCount s i < 100000) :
    sstStore s i v =
      raiseIf (decide (sstCount s i + 1 = 100000)) (raiseIf (decide (sstCount s i + 1 = 90000))
        (setR (sstPut { s with sstWear := mput s.sstWear i (sstCount s i + 1) } i v) Reg.SST_STATUS (1 ||| place 8 8 i)) 41) 40 := by
  unfold sstStore
  dsimp only
  rw [if_neg (by omega)]

theorem sstPut_whole {s : State} {i : Nat} (v : DWord) (h : settingCell i ∉ s.badCells) :
    sstPut s i v = { s with sst := (sstPut s i v).sst } := by
  have hcells : s.badCells.filter (fun c => !decide (c = settingCell i)) = s.badCells := by
    rw [List.filter_eq_self]
    intro c hc
    simpa using fun e : c = settingCell i => h (e ▸ hc)
  unfold sstPut
  rw [hcells]

theorem sstStore_stores {s : State} {i : Nat} {v : DWord} (hfuses : s.fusesOk = true) (hcell : settingCell i ∉ s.badCells)
    (hcount : sstCount s i < 100000) :
    sstGet (sstStore s i v) i = v ∧ sstCount (sstStore s i v) i = sstCount s i + 1 ∧
      getR (sstStore s i v) Reg.SST_STATUS = (1 ||| place 8 8 i) ∧
      (∀ k, k ≠ i → sstGet (sstStore s i v) k = sstGet s k ∧ sstCount (sstStore s i v) k = sstCount s k) ∧
      SameRegs s (sstStore s i v) [Reg.SST_STATUS] ∧
      Raises s (sstStore s i v) ((if sstCount s i = 89999 then [41] else []) ++ (if sstCount s i = 99999 then [40] else [])) ∧
      sstStore s i v = withEvents { s with regs := (sstStore s i v).regs, sst := (sstStore s i v).sst, sstWear := (sstStore s i v).sstWear }
        (sstStore s i v) := by
  generalize hw : ({ s with sstWear := mput s.sstWear i (sstCount s i + 1) } : State) = w
  have hput : sstPut w i v = { w with sst := (sstPut w i v).sst } := sstPut_whole v (by rw [← hw]; exact hcell)
  generalize hu : setR (sstPut w i v) Reg.SST_STATUS (1 ||| place 8 8 i) = u
  have hshows : sstStore s i v = withEvents u (sstStore s i v) := by
    rw [sstStore_fits hcount, hw, hu]
    exact withEvents_trans (raiseIf_withEvents u _ 41) (raiseIf_withEvents _ _ 40)
  have hraises : Raises u (sstStore s i v) ((if sstCount s i = 89999 then [41] else []) ++ (if sstCount s i = 99999 then [40] else [])) := by
    rw [sstStore_fits hcount, hw, hu]
    have h41 := raises_raiseIf (raises_raiseIf (raises_refl u) (decide (sstCount s i + 1 = 90000)) 41) (decide (sstCount s i + 1 = 100000)) 40
    simpa using h41
  generalize sstStore s i v = t at hshows hraises ⊢
  have hsst : t.sst = u.sst := (congrArg State.sst hshows :)
  have hwear : t.sstWear = u.sstWear := (congrArg State.sstWear hshows :)
  have hregs : t.regs = u.regs := (congrArg State.regs hshows :)
  have hget (k : Nat) : sstGet t k = sstGet u k := by
    have hcells : t.badCells = u.badCells := (congrArg State.badCells hshows :)
    have hfuse : t.fusesOk = u.fusesOk := (congrArg State.fusesOk hshows :)
    unfold sstGet
    rw [hsst, hcells, hfuse]
  have hcnt (k : Nat) : sstCount t k = sstCount u k := by
    unfold sstCount
    rw [hwear]
  have hstored (k : Nat) : sstGet u k = sstGet (sstPut w i v) k := by
    rw [← hu]
    rfl
  have hsame (k : Nat) : sstGet w k = sstGet s k := by
    rw [← hw]
    rfl
  have hfuse : w.fusesOk = true := by rw [← hw]; exact hfuses
  have hcounted (k : Nat) : sstCount u k = if k = i then sstCount s i + 1 else sstCount s k := by
    rw [← hu, ← hw]
    change mget 0 (mput s.sstWear i (sstCount s i + 1)) k = _
    unfold mget
    split
    · next hk => rw [hk, mget?_mput_same]; rfl
    · next hk => rw [mget?_mput_other _ _ _ _ hk]; rfl
  have hbank : SameRegs s t [Reg.SST_STATUS] := by
    refine sameRegs_trans (t := u) ?_ (sameRegs_of_regs hregs _)
    rw [← hu]
    exact sameRegs_trans (sameRegs_of_regs (by rw [hput, ← hw]) _) (sameRegs_setR (sameRegs_refl _ _) (by simp) _)
  refine ⟨?_, ?_, ?_, fun k hk => ⟨?_, ?_⟩, hbank, ?_, ?_⟩
  · rw [hget, hstored, sstGet_sstPut_same w i v hfuse]
  · rw [hcnt, hcounted, if_pos rfl]
  · rw [getR_congr hregs, ← hu, getR_setR_same]
  · rw [hget, hstored, sstGet_sstPut_other w i k v hk, hsame]
  · rw [hcnt, hcounted, if_neg hk]
  · have hev : Raises s u [] := by
      refine LockedRoutes.raises_nothing ?_ ?_
      · rw [← hu, hput, ← hw]
        rfl
      · rw [← hu, hput, ← hw]
        rfl
    exact raises_trans (l := []) hev hraises
  · refine hshows.trans (congrArg (withEvents · t) ?_)
    rw [hregs, hsst, hwear, ← hu, hput, ← hw]
    rfl

theorem sealedSettings : Claims.SealedSettings := by
  refine ⟨fun s m i v hq hm hmaster h1 h2 hcount => ?_, fun s m i v hq hm => ?_, fun s m i v hq hm h1 h2 => ?_, fun s => ?_⟩
  · subst hmaster
    have hcell : settingCell i.toNat ∉ s.badCells := settingCell_whole hm
    have hfuses : s.fusesOk = true := fusesOk_of_mayWrite hm
    obtain ⟨hget, hcnt, hstatus, hothers, hregs, hraises, hshape⟩ := sstStore_stores
      (s := { s with lowHeld := mdel s.lowHeld (Reg.SST_REG i.toNat) }) (v := pair64 v (heldLowOf s i.toNat))
      hfuses hcell hcount
    have hset : sstHalf s 4 i.toNat true v =
        sstStore { s with lowHeld := mdel s.lowHeld (Reg.SST_REG i.toNat) } i.toNat (pair64 v (heldLowOf s i.toNat)) :=
      writeSst_direct h1 h2
    refine leads_guardedPair (f := fun t => sstHalf t 4 i.toNat true v) rfl hm ?_ ?_
    · rw [hset, hshape]
      exact hq
    · rw [hset]
      refine ⟨hget, hcnt, hstatus, hothers, hregs, hraises, ?_⟩
      have hlow : (sstStore { s with lowHeld := mdel s.lowHeld (Reg.SST_REG i.toNat) } i.toNat (pair64 v (heldLowOf s i.toNat))).lowHeld =
          mdel s.lowHeld (Reg.SST_REG i.toNat) := (congrArg State.lowHeld hshape :)
      rw [hlow]
      exact hshape
  · refine leads_guardedPair (f := fun t => sstHalf t m i.toNat false v) rfl hm hq ⟨?_, rfl⟩
    change (mget? (mput s.lowHeld (Reg.SST_REG i.toNat) v) (Reg.SST_REG i.toNat)).getD _ = v
    rw [mget?_mput_same]
    rfl
  · have hset : sstHalf s m i.toNat true v = orR { s with lowHeld := mdel s.lowHeld (Reg.SST_REG i.toNat) } Reg.SST_ERR 2 :=
      writeSst_refused h1 h2
    refine leads_guardedPair (f := fun t => sstHalf t m i.toNat true v) rfl hm ?_ ?_
    · rw [hset]
      exact hq
    · rw [hset, getR_orR]
      exact ⟨rfl, sameRegs_setR (sameRegs_of_regs rfl _) (by simp) _, rfl⟩
  · refine leads_next rfl ⟨getR_clearR s _ 1, onlyRegs_of_regs rfl (sameRegs_setR (sameRegs_refl s _) (by simp) _)⟩

/-- Settles O3: both families of registers. -/
theorem eventsAndSettings : Obligations.EventsAndSettings := ⟨eventRegisters, sealedSettings⟩

end Sys2Proof.EventsAndSettings
end

section
/-! PROOF. The TAP's accesses to memory as master 32, and a read that times out (R31, R431). -/

namespace Sys2Proof.DebugAccessMemory

open Sys2Proof.Machine Sys2Proof.Frames

/-! ### A word of plain memory -/

/-- Plain memory lies outside the register blocks, the code window and the own path of the TAP. -/
theorem plain_outside {a n : Nat} (hn : 0 < n) (h : meetsSpecial a n = false) :
    isBlock a = false ∧ privatePath a = false ∧ a ≠ Reg.ENT_DATA := by
  unfold meetsSpecial at h
  simp only [hn, decide_true, Bool.true_and, Bool.or_eq_false_iff, decide_eq_false_iff_not] at h
  obtain ⟨⟨hblock, -⟩, -⟩ := h
  have hout (x : Nat) (h1 : 0x40000000 ≤ x) (h2 : x ≤ 0x4018FFFF) : a ≠ x := by omega
  refine ⟨?_, ?_, hout _ (by decide) (by decide)⟩
  · simp only [isBlock, within, decide_eq_false_iff_not]
    omega
  · simp only [privatePath, isPair, within, Bool.or_eq_false_iff, decide_eq_false_iff_not]
    refine ⟨⟨⟨⟨⟨?_, ?_⟩, ?_⟩, ?_⟩, ?_⟩, ?_⟩
    · omega
    · exact hout _ (by decide) (by decide)
    · exact hout _ (by decide) (by decide)
    · exact hout _ (by decide) (by decide)
    · exact ⟨hout _ (by decide) (by decide), hout _ (by decide) (by decide)⟩
    · omega

theorem plainWord_whole {s : State} {a : Nat} (h : PlainWord s a) :
    mapped a = true ∧ isBlock a = false ∧ privatePath a = false ∧ a ≠ Reg.ENT_DATA ∧ badCell? s a 4 = none ∧ badPartial? s a 4 = none ∧
      isCtxCache a = false := by
  obtain ⟨haligned, -, hram, hspecial, hcell⟩ := h
  obtain ⟨hblock, hprivate, hent⟩ := plain_outside (by decide) hspecial
  have hone (c : Nat) (hc : c ∈ s.badCells) : ¬(a / 8 ≤ c ∧ c ≤ (a + 4 - 1) / 8) := by
    intro ⟨h1, h2⟩
    have : c = a / 8 := by omega
    exact hcell (this ▸ hc)
  refine ⟨by simp [mapped, hram], hblock, hprivate, hent, ?_, ?_, ?_⟩
  · unfold badCell?
    rw [if_neg (by decide), List.find?_eq_none]
    intro c hc
    simpa only [decide_eq_true_eq] using hone c hc
  · unfold badPartial?
    rw [if_neg (by decide), List.find?_eq_none]
    intro c hc hcov
    simp only [Bool.and_eq_true, decide_eq_true_eq] at hcov
    exact hone c hc hcov.1
  · unfold meetsSpecial at hspecial
    simp only [Bool.and_eq_false_iff, Bool.or_eq_false_iff, decide_eq_false_iff_not] at hspecial
    simp only [isCtxCache, within, decide_eq_false_iff_not]
    omega

theorem fabricRead_plain {s : State} {m : Master} {a : Nat} (h : PlainWord s a) (hp : permits s m .read a = true) :
    fabricRead s m a 4 = { state := s, value := BitVec.ofNat 32 (ofLe (memBytes s a 4)), detail := 0 } := by
  obtain ⟨hmapped, hblock, -, -, hcell, -, -⟩ := plainWord_whole h
  obtain ⟨-, -, -, hspecial, -⟩ := h
  unfold fabricRead
  rw [if_neg (by simp [hmapped]), if_neg (by simp [hp]), if_neg (by simp [hblock]), hcell]
  simp [noteRead, engineBytes, hspecial]

theorem memWrite_word (s : State) {a : Nat} (h : a % 4 = 0) {b : Bytes} (hb : b.length = 4) :
    memWrite s a b = { s with mem := putBytes s.mem a b } := by
  have hcells : s.badCells.filter (fun c => !decide (a ≤ 8 * c ∧ 8 * c + 8 ≤ a + b.length)) = s.badCells := by
    rw [List.filter_eq_self]
    intro c _
    simp only [hb, Bool.not_eq_true', decide_eq_false_iff_not]
    omega
  unfold memWrite
  rw [hcells]

theorem fabricWrite_plain {s : State} {m : Master} {a : Nat} {v : Word} (h : PlainWord s a) (hp : permits s m .write a = true)
    (hopen : opRamClosed s m a 4 = false) :
    (fabricWrite s m a 4 v).state = memWrite s a (wordBytes v) := by
  obtain ⟨hmapped, hblock, -, -, -, hcell, hcache⟩ := plainWord_whole h
  obtain ⟨-, -, hram, -, -⟩ := h
  unfold fabricWrite
  rw [if_neg (by simp [hmapped]), if_neg (by simp [hp]), if_neg (by simp [hblock]), if_neg (by simp [hblock]), hcell]
  dsimp only
  unfold storeBytes
  rw [le_length, if_neg (by simp [hram]), if_neg (by simp [hopen]), if_neg (by simp [hcache])]
  rfl

theorem ofLe_lt (b : Bytes) : ofLe b < 256 ^ b.length := by
  induction b with
  | nil => decide
  | cons c r ih =>
    have hc : c.toNat < 256 := c.isLt
    rw [ofLe, List.length_cons, Nat.pow_succ]
    omega

theorem setWidth_word {n : Nat} (h : n < 2 ^ 32) : (BitVec.ofNat 32 n).setWidth 64 = BitVec.ofNat 64 n := by
  apply BitVec.eq_of_toNat_eq
  rw [BitVec.toNat_setWidth, BitVec.toNat_ofNat, BitVec.toNat_ofNat, Nat.mod_eq_of_lt h]

/-! ### Where the TAP's access leads -/

theorem stalls_plain {s : State} {m : Master} {a : Nat} (ha : a % 4 = 0) (h : a ≠ Reg.ENT_DATA) : stalls s m a = false := by
  have : a / 4 * 4 ≠ Reg.ENT_DATA := by omega
  unfold stalls
  simp [this]

theorem debugAccess_read {s : State} {a v : Word} (hon : mainPower s = true) (h : PlainWord s a.toNat) :
    exec (.debugAccess false a v) s = done (showLoad 32 (fabricRead s 32 a.toNat 4)) := by
  obtain ⟨-, -, hprivate, hent, -, -, -⟩ := plainWord_whole h
  obtain ⟨haligned, -, -, -, -⟩ := h
  have hword : a.toNat / 4 * 4 = a.toNat := by omega
  change done _ = done _
  dsimp only
  rw [hword, if_neg (by simp [hon]), if_neg (by simp [hprivate]), if_neg (by simp [hprivate]), if_neg (by decide)]
  unfold readRow
  rw [if_neg (by simp [stalls_plain haligned hent])]

theorem debugAccess_write {s : State} {a v : Word} (hon : mainPower s = true) (h : PlainWord s a.toNat) :
    exec (.debugAccess true a v) s = done (fabricWrite s 32 a.toNat 4 v).state := by
  obtain ⟨-, -, hprivate, -, -, -, -⟩ := plainWord_whole h
  obtain ⟨haligned, -, -, -, -⟩ := h
  have hword : a.toNat / 4 * 4 = a.toNat := by omega
  change done _ = done _
  dsimp only
  rw [hword, if_neg (by simp [hon]), if_neg (by simp [hprivate]), if_neg (by simp [hprivate]), if_pos rfl]

/-- The first denial of the TAP raises event 197. -/
theorem denied_first {s : State} {a : Nat} (hroute : s.badRoutes.contains (decidingRoute s a) = false)
    (hfirst : mget? s.lastRaise 197 = none) (hnone : s.dbg.denials = []) :
    denied s 32 .read a =
      { orR (raise { s with lastRaise := mput s.lastRaise 197 s.ttc } 197) Reg.ILK_STATUS 4 with dbg := { s.dbg with denials := [s.ttc] } } := by
  have hraised : raiseLimited s 197 = raise { s with lastRaise := mput s.lastRaise 197 s.ttc } 197 := by
    unfold raiseLimited raiseEvery
    rw [hfirst]
  unfold denied
  dsimp only
  rw [if_pos rfl, if_neg (by rw [hroute]; decide)]
  unfold debugDenied
  rw [hraised]
  simp [orR, hnone]

/-- Settles O4: plain memory is read and written as master 32 does it; a denial and a time-out leave their marks. -/
theorem debugAccessMemory : Obligations.DebugAccessMemory := by
  refine ⟨fun s a v hq hon hword hp => ?_, fun s a v hq hon hword hp hopen => ?_, fun s a v hq hon hword hp hnone hfirst hroute => ?_,
    fun s m hq hon hwait => ?_⟩
  · have hread := debugAccess_read (v := v) hon hword
    rw [fabricRead_plain hword hp] at hread
    refine leads_done hread hq ⟨rfl, ?_, rfl⟩
    exact setWidth_word (by simpa using ofLe_lt (memBytes s a.toNat 4))
  · have hwrite := debugAccess_write (v := v) hon hword
    obtain ⟨haligned, -, -, -, -⟩ := id hword
    have hlen : (wordBytes v).length = 4 := le_length 4 _
    rw [fabricWrite_plain hword hp hopen] at hwrite
    refine leads_done hwrite hq ⟨?_, fun b hb => ?_, ?_⟩
    · exact hlen ▸ Basics.memBytes_memWrite s a.toNat (wordBytes v)
    · exact Basics.memByte_memWrite_out s a.toNat _ b (by rw [hlen]; exact hb)
    · rw [memWrite_word s haligned hlen]
  · have hread := debugAccess_read (v := v) hon hword
    obtain ⟨hmapped, -, -, -, -, -, -⟩ := plainWord_whole hword
    have hdenied : fabricRead s 32 a.toNat 4 = { state := denied s 32 .read a.toNat, value := 0, detail := 1 } := by
      unfold fabricRead
      rw [if_neg (by simp [hmapped]), if_pos (by rw [hp]; rfl)]
    rw [hdenied, denied_first hroute hfirst hnone] at hread
    refine leads_done hread ?_ ⟨rfl, ?_, ?_⟩
    · exact LockedRoutes.quiet_raise (s := { s with lastRaise := mput s.lastRaise 197 s.ttc }) hq 197
    · exact (LockedRoutes.isPending_raise { s with lastRaise := mput s.lastRaise 197 s.ttc } (n := 197) (k := 197) (by decide)).trans (by simp)
    · exact raise_mem _ 197
  · have hshape := raiseEvery_shape (setEntReason s (entReason s)) msTicks 283
    obtain ⟨q, o, hform⟩ := raise_form (entError s (entReason s)) 194
    have hwaiting : (raise (entError s (entReason s)) 194).ent.waiting = s.ent.waiting :=
      (congrArg (·.ent.waiting) hform :).trans (congrArg (·.ent.waiting) hshape :)
    have hserved : (raise (entError s (entReason s)) 194).ports.served = s.ports.served :=
      (congrArg (·.ports.served) hform :).trans (congrArg (·.ports.served) hshape :)
    have hmem : (raise (entError s (entReason s)) 194).mem = s.mem :=
      (congrArg (·.mem) hform :).trans (congrArg (·.mem) hshape :)
    have hfatal : Quiet (entError s (entReason s)) :=
      quiet_raiseLimited (s := setEntReason s (entReason s)) hq 283
    have hlate : exec (.fabricReadTimeout m (BitVec.ofNat 32 Reg.ENT_DATA) false) s =
        done (failRead (raise (entError s (entReason s)) 194) m) := by
      change done _ = done _
      rw [if_neg (by simp [hon]), if_neg (by decide)]
      unfold entTimeout
      dsimp only
      rw [if_pos (by simpa using hwait)]
    have hquiet : Quiet (raise (entError s (entReason s)) 194) := LockedRoutes.quiet_raise hfatal 194
    have hpending : isPending (raise (entError s (entReason s)) 194) 194 = true :=
      (LockedRoutes.isPending_raise (entError s (entReason s)) (n := 194) (k := 194) (by decide)).trans (by simp)
    generalize raise (entError s (entReason s)) 194 = u at hlate hquiet hpending hwaiting hserved hmem
    refine leads_done hlate hquiet ⟨hpending, rfl, ?_, ?_, ?_⟩
    · exact congrArg (·.erase (.port m)) hwaiting
    · exact congrArg (· ++ [(m, none)]) hserved
    · exact hmem

end Sys2Proof.DebugAccessMemory
end

section
/-! PROOF. Plain writes and reads of the register map (R9, R11 to R14, R44, R52, R57, R58). -/

namespace Sys2Proof.RegisterAccess

open Sys2Proof.Machine Sys2Proof.Frames

theorem and_ones (w : Word) : w &&& 0xFFFFFFFF#32 = w := BitVec.and_allOnes

/-! ### A word write of a register block -/

theorem busAddr_block (m : Master) {a : Nat} (h : 0x40000000 ≤ a) : busAddr m a = a := by
  have hout (n : Nat) : Machine.translate n a = a := by
    unfold Machine.translate within
    rw [if_neg (by simp only [decide_eq_true_eq]; omega)]
  unfold busAddr
  split
  · exact hout _
  · rfl

theorem laneWord_whole (s : State) (m : Master) {a : Nat} (v : Word) (h : a % 4 = 0) : laneWord s m a 4 v = v := by
  have hmask : laneMask a 4 = BitVec.allOnes 32 := by
    unfold laneMask
    rw [h]
    rfl
  unfold laneWord
  dsimp only
  rw [hmask, h, BitVec.and_allOnes, BitVec.not_allOnes, BitVec.and_zero, BitVec.or_zero]
  exact BitVec.shiftLeft_zero v

/-- A permitted word write of a register is the register's own effect. -/
theorem fabricWrite_register {s : State} {m : Master} {a : Nat} (v : Word) (hblock : isBlock a = true) (haligned : a % 4 = 0)
    (hheld : heldPair a = false) (h : MayWrite s m a) : (fabricWrite s m a 4 v).state = writeReg s m a v := by
  obtain ⟨-, hpermits, -, hbad⟩ := h
  have hword : a / 4 * 4 = a := by omega
  unfold fabricWrite
  rw [if_neg (by simp [mapped, hblock]), if_neg (by simp [hpermits]), if_neg (by simp [sealStops, hbad]), if_pos hblock]
  dsimp only
  unfold writeBlock
  dsimp only
  rw [if_neg (by simp [hheld]), hword, laneWord_whole s m v haligned]

/-- The registers of the plain writes below. -/
def plainOnes : List Nat := [Reg.HLK_ERR, Reg.CLK_GATE, Reg.LNE_WEIGHTS]

theorem writeReg_plain {s : State} {m : Master} {a : Nat} {p : RegSpec} (v : Word) (h : hostHeld s m a = false)
    (hspec : plainSpec? a = some p) (hrow : a ∈ plainOnes) : writeReg s m a v = setR s a (plainWrite p (getR s a) v) := by
  have hplain : writePlain s a v = setR s a (plainWrite p (getR s a) v) := by
    unfold writePlain
    rw [hspec]
  unfold writeReg
  rw [if_neg (by simp [h]), ← hplain]
  simp only [plainOnes, List.mem_cons, List.not_mem_nil, or_false] at hrow
  rcases hrow with rfl | rfl | rfl <;> rfl

theorem registerWrite_plain {s : State} {m : Master} {a : Nat} {p : RegSpec} {v : Word} (hm : MayWrite s m a)
    (hspec : plainSpec? a = some p) (hrow : a ∈ plainOnes) :
    exec (.registerWrite m (BitVec.ofNat 32 a) ⟨v, none⟩) s = done (setR s a (plainWrite p (getR s a) v)) := by
  have haddr : (BitVec.ofNat 32 a).toNat / 4 * 4 = a ∧ isBlock a = true ∧ a % 4 = 0 ∧ heldPair a = false ∧ 0x40000000 ≤ a := by
    simp only [plainOnes, List.mem_cons, List.not_mem_nil, or_false] at hrow
    rcases hrow with rfl | rfl | rfl <;> decide
  obtain ⟨haddr, hblock, haligned, hheld, hbase⟩ := haddr
  obtain ⟨hon, -, hgate, -⟩ := id hm
  change done _ = done _
  rw [if_pos hon, haddr, busAddr_block m hbase]
  exact congrArg done ((fabricWrite_register v hblock haligned hheld hm).trans (writeReg_plain v hgate hspec hrow))

theorem onlyRegs_setR (s : State) (a : Nat) (v : Word) : OnlyRegs s (setR s a v) [a] [] :=
  onlyRegs_of_regs rfl (sameRegs_setR (sameRegs_refl s _) (by simp) v)

/-! ### Fields that keep their old value for a reserved one (R12) -/

/-- One field of `keepReserved`. -/
def keepField (old w : Word) (f : Nat × Nat × Nat × Nat) : Word :=
  if f.2.2.1 ≤ bitsOf w f.1 f.2.1 ∧ bitsOf w f.1 f.2.1 ≤ f.2.2.2 then w else withBits w f.1 f.2.1 (bitsOf old f.1 f.2.1)

theorem keepReserved_cons (old w : Word) (f : Nat × Nat × Nat × Nat) (l : List (Nat × Nat × Nat × Nat)) :
    keepReserved old (f :: l) w = keepReserved old l (keepField old w f) := rfl

theorem bitsOf_keepField_other (old w : Word) {f : Nat × Nat × Nat × Nat} {lo n : Nat} (h : lo + n ≤ f.1 ∨ f.1 + f.2.1 ≤ lo) :
    bitsOf (keepField old w f) lo n = bitsOf w lo n := by
  unfold keepField
  split
  · rfl
  · exact bitsOf_withBits_other w _ h

theorem bitsOf_keepField_same (old w : Word) {lo : Nat} (h : lo + 4 ≤ 32) :
    bitsOf (keepField old w (lo, 4, 1, 15)) lo 4 = if bitsOf w lo 4 = 0 then bitsOf old lo 4 else bitsOf w lo 4 := by
  have hlt := bitsOf_lt w lo 4
  unfold keepField
  dsimp only
  split
  · rw [if_neg (by omega)]
  · rw [bitsOf_withBits_same w _ h, if_pos (by omega), Nat.mod_eq_of_lt (bitsOf_lt old lo 4)]

theorem bitsOf_keepWeights (old w : Word) {c : Nat} (hc : c < 4) :
    bitsOf (keepReserved old [(0, 4, 1, 15), (4, 4, 1, 15), (8, 4, 1, 15), (12, 4, 1, 15)] w) (4 * c) 4 =
      if bitsOf w (4 * c) 4 = 0 then bitsOf old (4 * c) 4 else bitsOf w (4 * c) 4 := by
  have hnil (u : Word) : keepReserved old [] u = u := rfl
  simp only [keepReserved_cons, hnil]
  interval_cases c
  · rw [bitsOf_keepField_other _ _ (by decide), bitsOf_keepField_other _ _ (by decide), bitsOf_keepField_other _ _ (by decide)]
    exact bitsOf_keepField_same old w (by decide)
  · rw [bitsOf_keepField_other _ _ (by decide), bitsOf_keepField_other _ _ (by decide), bitsOf_keepField_same _ _ (by decide),
      bitsOf_keepField_other _ _ (by decide)]
  · rw [bitsOf_keepField_other _ _ (by decide), bitsOf_keepField_same _ _ (by decide), bitsOf_keepField_other _ _ (by decide),
      bitsOf_keepField_other _ _ (by decide)]
  · rw [bitsOf_keepField_same _ _ (by decide), bitsOf_keepField_other _ _ (by decide), bitsOf_keepField_other _ _ (by decide),
      bitsOf_keepField_other _ _ (by decide)]

/-! ### A 64-bit write of the host (R52) -/

theorem lo32_and (d e : DWord) : lo32 (d &&& e) = lo32 d &&& lo32 e := BitVec.setWidth_and
theorem hi32_and (d e : DWord) : hi32 (d &&& e) = hi32 d &&& hi32 e := by
  unfold hi32
  rw [BitVec.ushiftRight_and_distrib, BitVec.setWidth_and]

theorem lo32_setWidth (v : Word) : lo32 (v.setWidth 64) = v := by
  unfold lo32
  simp

theorem pair64_and (a b : Word) (d : DWord) : pair64 a b &&& d = pair64 (a &&& hi32 d) (b &&& lo32 d) := by
  rw [← pair64_hi32_lo32 (pair64 a b &&& d), hi32_and, lo32_and, hi32_pair64, lo32_pair64]

theorem lowHalf_then_highHalf (old : DWord) (v u : Word) :
    writeHalf (writeHalf old .lo (v.setWidth 64) &&& ~~~(0xFFF#64)) .hi (u.setWidth 64) &&& ~~~(0xFFF#64) =
      pair64 u v &&& ~~~(0xFFF#64) := by
  simp only [writeHalf, pair64_and, lo32_setWidth, lo32_pair64, BitVec.and_assoc, BitVec.and_self]

theorem writeSetup_free {s : State} {r : SetupReg} {h : Half} {v : DWord} (hfree : setupLocked s r = false) :
    writeSetup s r h v = setR64 s (setupAddr r) (writeHalf (getR64 s (setupAddr r)) h v &&& ~~~(0xFFF#64)) := by
  unfold writeSetup
  rw [if_neg (by simp [hfree])]

/-- A half of the backing store's base as a register write carries it. -/
theorem writeReg_bstore {s : State} (h : Half) (v : Word) {a : Nat} (ha : (h = .lo ∧ a = Reg.HLK_BSTORE_BASE) ∨ (h = .hi ∧ a = Reg.HLK_BSTORE_BASE + 4))
    (hgate : hostHeld s 31 a = false) : writeReg s 31 a v = writeSetup s .bstore h (v.setWidth 64) := by
  unfold writeReg
  rw [if_neg (by rw [hgate]; decide)]
  rcases ha with ⟨rfl, rfl⟩ | ⟨rfl, rfl⟩ <;> rfl

theorem onlyRegs_setR64_setR64 (s : State) (a : Nat) (v w : DWord) : OnlyRegs s (setR64 (setR64 s a v) a w) [a, a + 4] [] :=
  onlyRegs_of_regs rfl (sameRegs_trans (sameRegs_setR64 s a v) (sameRegs_setR64 _ a w))

theorem registerWrite_base {s : State} {v u : Word} (hlo : MayWrite s 31 Reg.HLK_BSTORE_BASE)
    (hhi : MayWrite s 31 (Reg.HLK_BSTORE_BASE + 4)) (hoff : sessionOn s = false) :
    exec (.registerWrite 31 (BitVec.ofNat 32 Reg.HLK_BSTORE_BASE) ⟨v, some u⟩) s =
      done (setR64 (setR64 s Reg.HLK_BSTORE_BASE (writeHalf (getR64 s Reg.HLK_BSTORE_BASE) .lo (v.setWidth 64) &&& ~~~(0xFFF#64)))
        Reg.HLK_BSTORE_BASE (pair64 u v &&& ~~~(0xFFF#64))) := by
  obtain ⟨hon, -, hgate, hbad⟩ := id hlo
  generalize hx : setR64 s Reg.HLK_BSTORE_BASE (writeHalf (getR64 s Reg.HLK_BSTORE_BASE) .lo (v.setWidth 64) &&& ~~~(0xFFF#64)) = x
  have hhi' : MayWrite x 31 (Reg.HLK_BSTORE_BASE + 4) := by
    rw [← hx]
    exact mayWrite_setR64 _ (by decide) (by decide) hhi
  have hfirst : (fabricWrite s 31 Reg.HLK_BSTORE_BASE 4 v).state = x := by
    rw [fabricWrite_register v (by decide) (by decide) (by decide) hlo, writeReg_bstore .lo v (.inl ⟨rfl, rfl⟩) hgate,
      writeSetup_free (r := .bstore) hoff, ← hx]
    rfl
  have hoff' : setupLocked x .bstore = false := by
    rw [← hx, ← hoff]
    unfold setupLocked sessionOn bitR
    rw [setR64_eq, getR_setR_other _ _ _ _ (by decide), getR_setR_other _ _ _ _ (by decide)]
  have hsecond : (fabricWrite x 31 (Reg.HLK_BSTORE_BASE + 4) 4 u).state =
      setR64 x Reg.HLK_BSTORE_BASE (pair64 u v &&& ~~~(0xFFF#64)) := by
    obtain ⟨-, -, hgate', -⟩ := id hhi'
    rw [fabricWrite_register u (by decide) (by decide) (by decide) hhi', writeReg_bstore .hi u (.inr ⟨rfl, rfl⟩) hgate',
      writeSetup_free hoff']
    unfold setupAddr
    dsimp only
    rw [← hx, getR64_setR64, lowHalf_then_highHalf]
  have haddr : busAddr 31 ((BitVec.ofNat 32 Reg.HLK_BSTORE_BASE).toNat / 4 * 4) = Reg.HLK_BSTORE_BASE := by decide
  change done _ = done _
  rw [if_pos hon, haddr]
  unfold writeWords
  dsimp only
  have hmend : mend s Reg.HLK_BSTORE_BASE = s := by
    unfold mend
    rw [if_neg (by simp [hbad])]
  rw [if_pos (by decide), hmend, ite_self, hfirst, hsecond]

theorem registerWrites : Claims.RegisterWrites := by
  refine ⟨fun s m v hq hm => ?_, fun s m v hq hm => ?_, fun s m v hq hm => ?_, fun s m v hq hm => ?_, fun s khz hon => ?_,
    fun s v u hq hlo hhi hoff => ?_⟩
  · have hset : plainWrite { rw := 0, w1c := 0x1FF, fields := [] } (getR s Reg.HLK_ERR) v = getR s Reg.HLK_ERR &&& ~~~(v &&& 0x1FF) := by
      unfold plainWrite
      simp [and_ones]
    refine leads_done (registerWrite_plain hm rfl (by decide)) hq ?_
    rw [getR_setR_same, hset]
    exact ⟨rfl, onlyRegs_setR s _ _⟩
  · have hset : plainWrite { rw := 7, w1c := 0, fields := [] } (getR s Reg.CLK_GATE) v = (getR s Reg.CLK_GATE &&& ~~~7) ||| (v &&& 7) := by
      unfold plainWrite keepReserved
      simp [and_ones]
    refine leads_done (registerWrite_plain hm rfl (by decide)) hq ?_
    rw [getR_setR_same, hset]
    exact ⟨rfl, onlyRegs_setR s _ _⟩
  · refine leads_done (registerWrite_plain hm rfl (by decide)) hq ⟨fun c hc => ?_, onlyRegs_setR s _ _⟩
    unfold fieldR
    rw [getR_setR_same, ← bitsOf_keepWeights (getR s Reg.LNE_WEIGHTS) v hc]
    refine bitsOf_ext (fun i hi => ?_)
    have hbit : 4 * c + i < 16 := by omega
    unfold plainWrite
    have hinside : (0xFFFF : Word).getLsbD (4 * c + i) = true := by
      generalize 4 * c + i = k at hbit
      interval_cases k <;> rfl
    simp only [BitVec.getLsbD_or, BitVec.getLsbD_and, BitVec.getLsbD_not, hinside]
    simp [show 4 * c + i < 32 by omega]
  · refine leads_guardedWrite (f := fun t => selectMeas t v) rfl hm ?_ ?_
    · unfold selectMeas
      split <;> exact hq
    · unfold selectMeas
      split
      · rw [getR_clearR_other _ _ (by decide), getR_setR_same, getR_clearR, getR_setR_other _ _ _ _ (by decide)]
        exact ⟨rfl, rfl, onlyRegs_of_regs rfl (sameRegs_setR (sameRegs_setR (sameRegs_refl s _) (by simp) _) (by simp) _)⟩
      · rw [getR_clearR_other _ _ (by decide), getR_clearR]
        exact ⟨rfl, rfl, onlyRegs_of_regs rfl (sameRegs_setR (sameRegs_refl s _) (by simp) _)⟩
  · refine leads_next rfl ?_
    rw [if_pos hon]
    unfold fieldR bitR
    rw [getR_setR_same, bitsOf_or, bitsOf_place_same _ (by decide)]
    have hlt : (if domainRuns s (bitsOf (getR s Reg.CLK_MEAS_SEL) 0 5) then khz.toNat else 0) < 2 ^ 24 := by
      split
      · exact khz.isLt
      · decide
    have htop : bitsOf 0x80000000 0 24 = 0 := by decide
    refine ⟨?_, ?_, onlyRegs_setR s _ _⟩
    · rw [htop, Nat.or_zero, Nat.mod_eq_of_lt hlt]
    · unfold bit
      rw [BitVec.getLsbD_or]
      simp
  · refine leads_done (registerWrite_base hlo hhi hoff) hq ⟨getR64_setR64 _ _ _, ?_⟩
    exact onlyRegs_setR64_setR64 s _ _ _

/-! ### A word read of a register block -/

theorem place_whole (v : Word) : place 0 (8 * 4) (bitsOf v (8 * 0) 32) = v := by
  apply BitVec.eq_of_getLsbD_eq
  intro i hi
  rw [getLsbD_place, testBit_bitsOf]
  simp [hi]

/-- A permitted word read of a register that ends without an error shows the register's value. -/
theorem readRow_register {s : State} {m : Master} {a : Nat} (hblock : isBlock a = true) (haligned : a % 4 = 0) (hent : a ≠ Reg.ENT_DATA)
    (h : MayRead s m a) (hok : (readReg s m a).err = false) :
    readRow s m a = readData (readReg s m a).state ((readReg s m a).value.setWidth 64) := by
  obtain ⟨-, hpermits, -, -, hbad⟩ := h
  have hword : a / 4 * 4 = a := by omega
  have hload : fabricRead s m a 4 = { state := (readReg s m a).state, value := (readReg s m a).value, detail := 0 } := by
    unfold fabricRead
    rw [if_neg (by simp [mapped, hblock]), if_neg (by simp [hpermits]), if_pos hblock]
    unfold readBlock
    dsimp only
    rw [hword, if_neg (by simp [sealStops, hbad]), if_neg (by simp [hok]), haligned]
    congr 1
    exact place_whole _
  unfold readRow
  rw [if_neg (by simp [stalls, hword, hent]), hload]
  unfold showLoad
  rw [if_pos (.inl rfl)]

theorem lo32_readData (s : State) (v : Word) : lo32 (readData s (v.setWidth 64)).ports.readData = v := lo32_setWidth v

/-- What the reads of pairs need of an address: a block register of a pair that is neither a lock, a data port nor a mailbox. -/
def pairPlain (a : Nat) : Bool :=
  isBlock a && decide (a % 4 = 0) && decide (a ≠ Reg.ENT_DATA) && decide (0x40000000 ≤ a) && decide (a < 2 ^ 32) &&
    !decide (a = Reg.KDE_LOCK ∨ a = Reg.MAE_SLOCK) && !decide (a = Reg.MAE_LOCK) && !decide (a = Reg.SYS_NONCE) &&
    !decide (a = Reg.DBG_NONCE) && !within a 0x40051000 0x400510FF && !within a 0x40052000 0x400520FF &&
    !decide (a = Reg.LNE_INFLIGHT ∨ a = Reg.MSH_QUEUE) && !decide (a = Reg.PWR_INPUT)

theorem readReg_pairPlain {s : State} {m : Master} {a : Nat} (h : pairPlain a = true) (hm : MayRead s m a) :
    readReg s m a =
      if isLow a then readLow s m a
      else if isLow (a - 4) then readHigh s m a else { state := s, value := regView s m a, err := false } := by
  obtain ⟨-, -, hgate, hview, -⟩ := hm
  simp only [pairPlain, Bool.and_eq_true, Bool.not_eq_true', decide_eq_true_eq, decide_eq_false_iff_not] at h
  obtain ⟨⟨⟨⟨⟨⟨⟨⟨⟨⟨⟨⟨-, -⟩, hent⟩, -⟩, -⟩, hlock⟩, hmae⟩, hsys⟩, hdbg⟩, hmbx⟩, htab⟩, hrc⟩, hpwr⟩ := h
  unfold readReg
  rw [if_neg (by simp [hgate, hview]), if_neg hlock, if_neg hmae, if_neg hent, if_neg hsys, if_neg hdbg, if_neg (by simp [hmbx]),
    if_neg (by simp [htab]), if_neg hrc, if_neg hpwr]

/-- A low half and the high half behind it are plain, and a high half is no low half. -/
theorem pairLows_plain : ∀ a ∈ pairLows, pairPlain a = true ∧ pairPlain (a + 4) = true ∧ isLow a = true ∧ isLow (a + 4) = false := by
  decide

theorem lowHalfRead_eq {s : State} {m : Master} {a : Nat} (h : pairPlain a = true) (hm : MayRead s m a) (hok : (readReg s m a).err = false) :
    exec (.lowHalfRead m (BitVec.ofNat 32 a)) s = done (readData (readReg s m a).state ((readReg s m a).value.setWidth 64)) := by
  obtain ⟨hon, -, -, -, -⟩ := id hm
  simp only [pairPlain, Bool.and_eq_true, Bool.not_eq_true', decide_eq_true_eq, decide_eq_false_iff_not] at h
  obtain ⟨⟨⟨⟨⟨⟨⟨⟨⟨⟨⟨⟨hblock, haligned⟩, hent⟩, hbase⟩, htop⟩, -⟩, -⟩, -⟩, -⟩, -⟩, -⟩, -⟩, -⟩ := h
  have haddr : (BitVec.ofNat 32 a).toNat / 4 * 4 = a := by
    rw [BitVec.toNat_ofNat, Nat.mod_eq_of_lt htop]
    omega
  change done _ = done _
  rw [if_pos hon, haddr, busAddr_block m hbase, readRow_register hblock haligned hent hm hok]

theorem windowC_read {s : State} {off : BitVec 16} :
    (off.toNat % 16 < 8 → windowC s (off.toNat / 8 * 8) = BitVec.ofNat 32 (getLine s (windowLine s off.toNat)).upTail ∧
      windowC s (off.toNat / 8 * 8 + 4) = BitVec.ofNat 32 (getLine s (windowLine s off.toNat)).upHead) ∧
    (8 ≤ off.toNat % 16 → windowC s (off.toNat / 8 * 8) = BitVec.ofNat 32 (getLine s (windowLine s off.toNat)).dnTail ∧
      windowC s (off.toNat / 8 * 8 + 4) = BitVec.ofNat 32 (getLine s (windowLine s off.toNat)).dnHead) := by
  generalize off.toNat = n
  have hline : windowLine s (n / 8 * 8) = windowLine s n ∧ windowLine s (n / 8 * 8 + 4) = windowLine s n := by
    unfold windowLine
    omega
  unfold windowC
  rw [hline.1, hline.2]
  constructor
  · intro h
    rw [show n / 8 * 8 % 16 / 4 = 0 by omega, show (n / 8 * 8 + 4) % 16 / 4 = 1 by omega]
    exact ⟨rfl, rfl⟩
  · intro h
    rw [show n / 8 * 8 % 16 / 4 = 2 by omega, show (n / 8 * 8 + 4) % 16 / 4 = 3 by omega]
    exact ⟨rfl, rfl⟩

theorem registerReads : Claims.RegisterReads := by
  refine ⟨fun s m hq hm => ?_, fun s m a hq ha hm => ?_, fun s m a v hq ha hm hheld => ?_, fun s off wide hq hon => ?_,
    fun s off hq hon hbad => ?_⟩
  · obtain ⟨hon, -, hgate, hview, -⟩ := id hm
    have hreg : readReg s m Reg.LNE_INFLIGHT = readClears s m Reg.LNE_INFLIGHT := by
      unfold readReg
      rw [if_neg (by simp [hgate, hview]), if_neg (by decide), if_neg (by decide), if_neg (by decide), if_neg (by decide),
        if_neg (by decide), if_neg (by decide), if_neg (by decide), if_pos (.inl rfl)]
    have hrow := readRow_register (by decide) (by decide) (by decide) hm (by rw [hreg]; rfl)
    rw [hreg] at hrow
    have hexec : exec (.rcRead (.fabric m (BitVec.ofNat 32 Reg.LNE_INFLIGHT)) false) s =
        done (readData (setFieldR s Reg.LNE_INFLIGHT 16 10 (inFlight s)) ((regView s m Reg.LNE_INFLIGHT).setWidth 64)) := by
      have haddr : busAddr m ((BitVec.ofNat 32 Reg.LNE_INFLIGHT).toNat / 4 * 4) = Reg.LNE_INFLIGHT := busAddr_block m (by decide)
      change done _ = done _
      rw [if_pos hon]
      unfold readAt
      dsimp only
      rw [if_neg (by simp), haddr, hrow]
      rfl
    have hvalue : regView s m Reg.LNE_INFLIGHT = getR s Reg.LNE_INFLIGHT ||| place 0 10 (inFlight s) := rfl
    refine leads_done hexec hq ⟨rfl, ?_, ?_, sameRegs_setR (sameRegs_refl s _) (by simp) _, rfl⟩
    · rw [lo32_readData, hvalue, bitsOf_or, bitsOf_place_other _ (by decide), Nat.or_zero]
      rfl
    · change bitsOf (getR (setFieldR s Reg.LNE_INFLIGHT 16 10 (inFlight s)) Reg.LNE_INFLIGHT) 16 10 = _
      rw [getR_setFieldR, bitsOf_withBits_same _ _ (by decide), show 2 ^ 10 = 1024 from rfl]
  · obtain ⟨hplain, -, hlow, -⟩ := pairLows_plain a ha
    have hreg : readReg s m a = readLow s m a := by rw [readReg_pairPlain hplain hm, if_pos hlow]
    have hexec := lowHalfRead_eq hplain hm (by rw [hreg]; rfl)
    rw [hreg] at hexec
    refine leads_done hexec hq ⟨rfl, lo32_setWidth _, mget?_mput_same _ _ _, fun k hk => mget?_mput_other _ _ _ _ hk, rfl⟩
  · obtain ⟨-, hplain, -, hhigh⟩ := pairLows_plain a ha
    obtain ⟨-, -, hlow, -⟩ := pairLows_plain a ha
    have hreg : readReg s m (a + 4) = { state := { s with latch := mdel s.latch (latchKey m a) }, value := v, err := false } := by
      rw [readReg_pairPlain hplain hm, if_neg (by simp [hhigh]), if_pos (by simpa using hlow)]
      unfold readHigh
      rw [Nat.add_sub_cancel, hheld]
    have hexec := lowHalfRead_eq hplain hm (by rw [hreg])
    rw [hreg] at hexec
    exact leads_done hexec hq ⟨rfl, lo32_setWidth v, mget?_mdel_same _ _⟩
  · refine leads_done (t := readData s 0) ?_ hq ⟨rfl, rfl⟩
    change done _ = done _
    rw [if_pos hon]
    rfl
  · obtain ⟨hlow, hhigh⟩ := windowC_read (s := s) (off := off)
    have hexec : exec (.rcRead (.windowC off) true) s =
        done (readData s (pair64 (windowC s (off.toNat / 8 * 8 + 4)) (windowC s (off.toNat / 8 * 8)))) := by
      have hline : windowLine s (off.toNat / 8 * 8) = windowLine s off.toNat := by
        unfold windowLine
        omega
      change done _ = done _
      rw [if_pos hon]
      change done (readWindowC s (off.toNat / 8 * 8) true) = _
      unfold readWindowC
      rw [hline, if_neg (by simp [hbad]), if_pos rfl]
    refine leads_done hexec hq ⟨fun h => ?_, fun h => ?_, rfl⟩
    · obtain ⟨htail, hhead⟩ := hlow h
      exact ⟨(lo32_pair64 _ _).trans htail, (hi32_pair64 _ _).trans hhead⟩
    · obtain ⟨htail, hhead⟩ := hhigh h
      exact ⟨(lo32_pair64 _ _).trans htail, (hi32_pair64 _ _).trans hhead⟩

/-- Settles O5: writes and reads of plain registers. -/
theorem registerAccess : Obligations.RegisterAccess := ⟨registerWrites, registerReads⟩

end Sys2Proof.RegisterAccess
end

section
/-! PROOF. The tag face in an inventory: the obligation fails. When a reader's field arrives, the tag also drops the truncation
that a Select set before the field went (R485), and the statement's last clause but one says that the field `truncated` stays. -/

namespace Sys2Proof.TagTruncation

open Sys2Proof.Machine

/-- A device out of a reader's field, whose tag holds the truncation that a Select with its Truncate bit set. -/
def truncatedAtRest : State :=
  { State.reset with tail := { Tail.reset with field := false, truncated := some 40 } }

/-- The arriving field clears the truncation. -/
theorem truncated_of_arrival {t : State} (h : exec .readerFieldArrival truncatedAtRest = .next t) : t.tail.truncated = none := by
  injection h with h
  exact h ▸ rfl

/-- Refutes O44: READER_FIELD_ARRIVAL clears `truncated`, which the statement's frame keeps. -/
theorem not_tagInventory : ¬ Obligations.TagInventory := by
  intro h
  obtain ⟨-, -, -, -, -, -, -, -, -, -, -, -, -, arrival, -⟩ := h
  obtain ⟨t, hstep, -, -, -, -, -, hframe⟩ := arrival truncatedAtRest rfl
  have hkept : t.tail.truncated = some 40 := (congrArg (fun s : State => s.tail.truncated) hframe :)
  exact absurd ((truncated_of_arrival hstep).symm.trans hkept) (by decide)

end Sys2Proof.TagTruncation
end

section
/-! PROOF. The entropy source (R349 to R355): a block that is tested, and a read of ENT_DATA. -/

namespace Sys2Proof.EntropySource

open Sys2Proof.Machine Sys2Proof.Frames Sys2Proof.Chains

/-! ### The fields of ENT_STATUS that a block's test writes -/

/-- The counts and the verdict that a test writes into ENT_STATUS leave its low half. -/
theorem low_statusAfterTest {w : Word} (n v i : Nat) (hi : i < 16) :
    bit (withBits (withBits w 16 3 n) 24 2 v) i = bit w i := by
  rw [bit_withBits_other _ _ (.inl (by omega)), bit_withBits_other _ _ (.inl (by omega))]

/-- What a test leaves before its verdict is acted on (R349, R354). -/
def tested (s : State) (block : Bytes) : State :=
  let l := samples (slice block 0 128)
  let t := runTest l (if s.ent.runs.isEmpty then freshRuns else s.ent.runs) false
  let bad := blockBadNow s block
  let recent := (bad :: s.ent.recent).take 64
  setFieldR (setFieldR (countR64 { s with ent := { s.ent with runs := t.1, recent := recent } } Reg.ENT_BLOCKS 1)
    Reg.ENT_STATUS 16 3 (min 4 (recent.filter (fun x => x)).length)) Reg.ENT_STATUS 24 2 (if bad then 2 else 1)

theorem testBlock_eq (s : State) (block : Bytes) :
    testBlock s block = if blockBadNow s block then blockFailed (tested s block) else blockPassed (tested s block) block := rfl

theorem tested_ent (s : State) (block : Bytes) : (tested s block).ent =
    { s.ent with runs := (tested s block).ent.runs, recent := (blockBadNow s block :: s.ent.recent).take 64 } := rfl

theorem onlyRegs_tested (s : State) (block : Bytes) :
    OnlyRegs { s with ent := (tested s block).ent } (tested s block) [Reg.ENT_STATUS, Reg.ENT_BLOCKS, Reg.ENT_BLOCKS + 4] [] := by
  have hstart : OnlyRegs { s with ent := (tested s block).ent } { s with ent := (tested s block).ent }
      [Reg.ENT_STATUS, Reg.ENT_BLOCKS, Reg.ENT_BLOCKS + 4] [] := onlyRegs_refl _ _
  exact onlyRegs_then_setR (onlyRegs_then_setR (onlyRegs_then_setR (onlyRegs_then_setR hstart (by simp) _) (by simp) _) (by simp) _)
    (by simp) _

theorem blocks_tested (s : State) (block : Bytes) : getR64 (tested s block) Reg.ENT_BLOCKS = getR64 s Reg.ENT_BLOCKS + 1 := by
  have hother (t : State) (n lo v : Nat) : getR64 (setFieldR t Reg.ENT_STATUS n lo v) Reg.ENT_BLOCKS = getR64 t Reg.ENT_BLOCKS := by
    unfold getR64
    rw [getR_setFieldR_other _ _ _ _ (by decide), getR_setFieldR_other _ _ _ _ (by decide)]
  unfold tested
  dsimp only
  rw [hother, hother, countR64, getR64_setR64]
  rfl

theorem status_tested (s : State) (block : Bytes) (i : Nat) (hi : i < 16) :
    bitR (tested s block) Reg.ENT_STATUS i = bitR s Reg.ENT_STATUS i := by
  unfold bitR tested
  dsimp only
  rw [getR_setFieldR, getR_setFieldR, low_statusAfterTest _ _ _ hi, countR64, setR64_eq, getR_setR_other _ _ _ _ (by decide),
    getR_setR_other _ _ _ _ (by decide)]
  rfl

theorem fails_tested (s : State) (block : Bytes) : getR (tested s block) Reg.ENT_FAILS = getR s Reg.ENT_FAILS :=
  (onlyRegs_tested s block).2.1 _ (by decide)

/-! ### A block passes or fails -/

theorem condition_unwaited {s : State} (block : Bytes) (h : s.ent.waiting = []) : condition s block =
    { s with ent := { s.ent with
      pool := if s.ent.pool.length + 32 ≤ 256 then s.ent.pool ++ shake256 (slice block 0 128) 32 else s.ent.pool } } := by
  unfold condition
  split
  · simp only [h]
    rfl
  · rfl

theorem endCoreReads_alive {s : State} (h : bitR s Reg.ENT_STATUS 2 = false) : endCoreReads s = s := by
  unfold endCoreReads entFatal
  rw [h]
  rfl

theorem blockPassed_ready {s : State} (block : Bytes) (h : s.ent.startup = 0) : blockPassed s block = condition s block := by
  unfold blockPassed
  rw [h]

theorem goodBlock {s : State} {block : Bytes} (hq : Quiet s) (hon : mainPower s = true) (hbiased : s.ent.biased = true)
    (halive : bitR s Reg.ENT_STATUS 2 = false) (hstartup : s.ent.startup = 0) (hwaiting : s.ent.waiting = [])
    (hgood : blockBadNow s block = false) : Leads (.entBlockTested block) s (fun t =>
      t.ent.pool = (if s.ent.pool.length + 32 ≤ 256 then s.ent.pool ++ shake256 (slice block 0 128) 32 else s.ent.pool) ∧
      t.ent.recent = (false :: s.ent.recent).take 64 ∧ getR64 t Reg.ENT_BLOCKS = getR64 s Reg.ENT_BLOCKS + 1 ∧
      OnlyRegs { s with ent := t.ent } t [Reg.ENT_STATUS, Reg.ENT_BLOCKS, Reg.ENT_BLOCKS + 4] []) := by
  have hform := onlyRegs_tested s block
  have hquiet := quiet_of_onlyRegs hform hq
  have htest : testBlock s block = condition (tested s block) block := by
    rw [testBlock_eq, hgood, if_neg (by decide), blockPassed_ready (s := tested s block) block hstartup]
  rw [condition_unwaited (s := tested s block) block hwaiting] at htest
  have hstays : endCoreReads (testBlock s block) = testBlock s block := by
    refine endCoreReads_alive ?_
    rw [htest]
    exact (status_tested s block 2 (by decide)).trans halive
  have hexec : exec (.entBlockTested block) s = done (testBlock s block) := by
    change done _ = done _
    rw [hon, hbiased, show entFatal s = false from halive, Bool.and_self, Bool.not_false, Bool.and_self, if_pos rfl, hstays]
  rw [htest] at hexec
  refine leads_done hexec hquiet ⟨rfl, ?_, blocks_tested s block, ?_⟩
  · exact congrArg (fun b => (b :: s.ent.recent).take 64) hgood
  · obtain ⟨hshape, hsame, hraises⟩ := hform
    exact ⟨(congrArg (fun x : State => { x with ent := { x.ent with pool := (if s.ent.pool.length + 32 ≤ 256 then
      s.ent.pool ++ shake256 (slice block 0 128) 32 else s.ent.pool) } }) hshape :), hsame, hraises⟩

/-- The failures among the 64 newest verdicts, the newest one a failure. -/
theorem failures_newest (l : List Bool) :
    (((true :: l).take 64).filter (fun x => x)).length = ((l.take 63).filter (fun x => x)).length + 1 := by
  simp

theorem blockFailed_restarts {s : State} (h : (s.ent.recent.filter (fun x => x)).length < 4) : blockFailed s =
    entRestart (raise (setR s Reg.ENT_FAILS (place 0 16 (min 65535 (fieldR s Reg.ENT_FAILS 0 16 + 1)))) 281) := by
  have hent : (raise (setR s Reg.ENT_FAILS (place 0 16 (min 65535 (fieldR s Reg.ENT_FAILS 0 16 + 1)))) 281).ent = s.ent := by
    obtain ⟨q, o, e⟩ := raise_form (setR s Reg.ENT_FAILS (place 0 16 (min 65535 (fieldR s Reg.ENT_FAILS 0 16 + 1)))) 281
    rw [e]
    rfl
  unfold blockFailed
  dsimp only
  rw [hent, if_neg (by omega)]

/-- What a failed block leaves before the source restarts (R349, R353). -/
def countedFailure (s : State) (block : Bytes) : State :=
  raise (setR (tested s block) Reg.ENT_FAILS (place 0 16 (min 65535 (fieldR (tested s block) Reg.ENT_FAILS 0 16 + 1)))) 281

theorem onlyRegs_countedFailure (s : State) (block : Bytes) : OnlyRegs { s with ent := (tested s block).ent }
    (countedFailure s block) [Reg.ENT_STATUS, Reg.ENT_FAILS, Reg.ENT_BLOCKS, Reg.ENT_BLOCKS + 4] [281] :=
  onlyRegs_then_raise (onlyRegs_then_setR (onlyRegs_mono (onlyRegs_tested s block) (by simp)) (by simp) _) 281

theorem badBlock {s : State} {block : Bytes} (hq : Quiet s) (hon : mainPower s = true) (hbiased : s.ent.biased = true)
    (halive : bitR s Reg.ENT_STATUS 2 = false) (hbad : blockBadNow s block = true)
    (hfew : ((s.ent.recent.take 63).filter (fun x => x)).length < 3) : Leads (.entBlockTested block) s (fun t =>
      t.ent.pool = s.ent.pool ∧ t.ent.biased = false ∧ t.ent.startup = 4 ∧ bitR t Reg.ENT_STATUS 1 = true ∧
      getR t Reg.ENT_FAILS = place 0 16 (min 65535 (fieldR s Reg.ENT_FAILS 0 16 + 1)) ∧
      OnlyRegs { s with ent := t.ent } t [Reg.ENT_STATUS, Reg.ENT_FAILS, Reg.ENT_BLOCKS, Reg.ENT_BLOCKS + 4] [281]) := by
  have hform := onlyRegs_countedFailure s block
  have hent : (countedFailure s block).ent = (tested s block).ent := (congrArg State.ent hform.1 :)
  have hrecent : (tested s block).ent.recent = (true :: s.ent.recent).take 64 :=
    congrArg (fun b => (b :: s.ent.recent).take 64) hbad
  have htest : testBlock s block = entRestart (countedFailure s block) := by
    rw [testBlock_eq, hbad, if_pos rfl]
    refine blockFailed_restarts ?_
    rw [hrecent, failures_newest]
    omega
  have hstatus (i : Nat) (hi : i < 16) : bitR (countedFailure s block) Reg.ENT_STATUS i = bitR s Reg.ENT_STATUS i := by
    rw [← status_tested s block i hi]
    unfold bitR countedFailure
    rw [getR_raise, getR_setR_other _ _ _ _ (by decide)]
  have hor (i : Nat) : bitR (entRestart (countedFailure s block)) Reg.ENT_STATUS i =
      (bitR (countedFailure s block) Reg.ENT_STATUS i || (2#32).getLsbD i) := by
    unfold bitR bit entRestart
    rw [getR_orR, BitVec.getLsbD_or]
    rfl
  have hexec : exec (.entBlockTested block) s = done (entRestart (countedFailure s block)) := by
    change done _ = done _
    rw [hon, hbiased, show entFatal s = false from halive, Bool.and_self, Bool.not_false, Bool.and_self, if_pos rfl, htest]
    refine congrArg done (endCoreReads_alive ?_)
    rw [hor, hstatus 2 (by decide), halive]
    rfl
  have hfails : getR (entRestart (countedFailure s block)) Reg.ENT_FAILS =
      place 0 16 (min 65535 (fieldR s Reg.ENT_FAILS 0 16 + 1)) := by
    unfold entRestart countedFailure
    rw [getR_orR_other _ _ (by decide)]
    refine (getR_raise _ _ _).trans ((getR_setR_same _ _ _).trans ?_)
    unfold fieldR
    rw [fails_tested]
  have hrestart : OnlyRegs { s with ent := (entRestart (countedFailure s block)).ent } (entRestart (countedFailure s block))
      [Reg.ENT_STATUS, Reg.ENT_FAILS, Reg.ENT_BLOCKS, Reg.ENT_BLOCKS + 4] [281] := by
    obtain ⟨hshape, hsame, hraises⟩ := hform
    have hbase : OnlyRegs { s with ent := (entRestart (countedFailure s block)).ent }
        { countedFailure s block with ent := (entRestart (countedFailure s block)).ent }
        [Reg.ENT_STATUS, Reg.ENT_FAILS, Reg.ENT_BLOCKS, Reg.ENT_BLOCKS + 4] [281] :=
      ⟨(congrArg (fun x : State => { x with ent := (entRestart (countedFailure s block)).ent }) hshape :), hsame, hraises⟩
    exact onlyRegs_then_setR hbase (by simp) _
  refine leads_done hexec (quiet_of_onlyRegs hrestart hq) ⟨?_, rfl, rfl, ?_, hfails, hrestart⟩
  · exact (congrArg Ent.pool hent :)
  · rw [hor, Bool.or_eq_true]
    exact .inr (by decide)

/-! ### A read of ENT_DATA -/

theorem readEnt_alive {s : State} {m : Master} (h : bitR s Reg.ENT_STATUS 2 = false) : readEnt s m =
    match grantOf s m with
    | some w => readData (dropGrant s m) (w.setWidth 64)
    | none => if 4 ≤ s.ent.pool.length then readData (setWinner (takeWord s) m) (poolWord s) else entWait s (.port m) := by
  unfold readEnt entFatal
  rw [h]
  rfl

theorem entWait_waiting (s : State) (r : EntRead) : r ∈ (entWait s r).ent.waiting ∧
    (∀ x, x ∈ (entWait s r).ent.waiting ↔ x ∈ s.ent.waiting ∨ x = r) ∧
    entWait s r = { s with ent := { s.ent with waiting := (entWait s r).ent.waiting } } := by
  unfold entWait
  split
  · next h =>
    have hr : r ∈ s.ent.waiting := List.contains_iff_mem.mp h
    exact ⟨hr, fun x => ⟨.inl, fun hx => hx.elim id (fun e => e ▸ hr)⟩, rfl⟩
  · exact ⟨by simp, fun x => by simp, rfl⟩

theorem fatalRead {s : State} {m : Master} (hq : Quiet s) (hm : MayRead s m Reg.ENT_DATA)
    (hfatal : bitR s Reg.ENT_STATUS 2 = true) (hfresh : mget? s.lastRaise 283 = none) :
    Leads (.entDataRead m) s (fun t =>
      t.ports.readErr = true ∧ fieldR t Reg.ENT_STATUS 3 3 = 3 ∧ t.ent = s.ent ∧ SameRegs s t [Reg.ENT_STATUS] ∧
      Raises s t [283]) := by
  have hread : readEnt s m = readError (raise { setEntReason s 3 with lastRaise := mput s.lastRaise 283 s.ttc } 283) := by
    unfold readEnt
    rw [show entFatal s = true from hfatal, if_pos rfl, entError, raiseLimited_fresh (s := setEntReason s 3) hfresh]
    rfl
  have hstart : OnlyRegs { s with lastRaise := mput s.lastRaise 283 s.ttc }
      { setEntReason s 3 with lastRaise := mput s.lastRaise 283 s.ttc } [Reg.ENT_STATUS] [] :=
    onlyRegs_then_setR (onlyRegs_refl _ _) (by simp) _
  obtain ⟨hshape, hsame, hraises⟩ := onlyRegs_then_raise hstart 283
  refine leads_guardedRead (f := fun s => readEnt s m) rfl hm ?_ ?_
  · rw [hread]
    exact (quiet_of_onlyRegs ⟨hshape, hsame, hraises⟩ hq :)
  · rw [hread]
    refine ⟨rfl, ?_, (congrArg State.ent hshape :), hsame, raises_of_same hraises rfl rfl⟩
    refine (congrArg (fun w => bitsOf w 3 3) ?_).trans (bitsOf_withBits_same (getR s Reg.ENT_STATUS) 3 (by decide))
    exact (getR_raise _ _ _).trans (getR_setFieldR s _ _ _ _)

/-- Settles O30: the bias, a block's test and the reads of ENT_DATA, each from its own lemma. -/
theorem entropySource : Obligations.EntropySource := by
  refine ⟨fun s hon halive => ?_, fun s block hq hon hbiased halive hstartup hwaiting hgood =>
      goodBlock hq hon hbiased halive hstartup hwaiting hgood,
    fun s block hq hon hbiased halive hbad hfew => badBlock hq hon hbiased halive hbad hfew,
    fun s m hq hm halive hgrant hpool => ?_, fun s m w hq hm halive hgrant => ?_, fun s m hq hm halive hgrant hpool => ?_,
    fun s m hq hm hfatal hfresh => fatalRead hq hm hfatal hfresh⟩
  · refine leads_next (t := { s with ent := { s.ent with biased := true } }) ?_ rfl
    change Host.Outcome.next _ = Host.Outcome.next _
    rw [hon, show entFatal s = false from halive]
    rfl
  · refine leads_guardedRead (f := fun s => readEnt s m) rfl hm ?_ ?_
    · rw [readEnt_alive halive, hgrant]
      dsimp only
      rw [if_pos hpool]
      exact hq
    · rw [readEnt_alive halive, hgrant]
      dsimp only
      rw [if_pos hpool]
      exact ⟨rfl, rfl⟩
  · refine leads_guardedRead (f := fun s => readEnt s m) rfl hm ?_ ?_
    · rw [readEnt_alive halive, hgrant]
      exact hq
    · rw [readEnt_alive halive, hgrant]
      exact ⟨rfl, rfl, rfl⟩
  · have hread : readEnt s m = entWait s (.port m) := by
      rw [readEnt_alive halive, hgrant]
      exact if_neg (by omega)
    have hwaits := entWait_waiting s (.port m)
    refine leads_guardedRead (f := fun s => readEnt s m) rfl hm ?_ ?_
    · rw [hread, hwaits.2.2]
      exact hq
    · rw [hread]
      exact hwaits

end Sys2Proof.EntropySource
end

section
/-! PROOF. The stamp and the absorption of a waybill: the obligation fails, on the way that TAG_CONSIST takes (see
`ProduceLine`). The consist at the head of the line is stamped and is absorbed; a waybill behind it has ended without work and
forms, the halt of R103 takes the stamped one behind that off its track, and the fence that waited for it on the last unfenced
track is made (R175). The device leaves Running (R178), and the open epoch, where the leaf was posted, is sealed early (R204). -/

namespace Sys2Proof.StampAbsorb

set_option Elab.async false

open Sys2Proof.Machine Sys2Proof.ProduceLine

/-- The consist to be absorbed. -/
def absorbedHead : Flight := consist 1 .stamped 0

/-- A device in Running that the completion of the absorbed consist takes out of it. -/
def absorbState : State :=
  { lastTrackState with lne := { lastTrackState.lne with
      lines := [(5, { crowdedLine with flights := [absorbedHead, endedBehind, stampedBehind] })] } }

theorem quiet_absorbState : Quiet absorbState := by
  unfold Quiet
  decide +kernel

/-- The consist's stamp lies in the open epoch. -/
theorem stamp_before_boundary : absorbedHead.stamp.toNat < epochEnd absorbState openEpoch.number := by
  decide +kernel

/-- CONSIST_ABSORBED leaves no epoch open. -/
theorem epochAfter_consistAbsorbed : epochAfter (exec (.consistAbsorbed 5 []) absorbState) = none := by
  decide +kernel

/-- Refutes O12: on `absorbState` the step of CONSIST_ABSORBED ends in Maintenance with the open epoch sealed, so the leaf that
the last clause claims stands in no open epoch. -/
theorem not_stampAndAbsorb : ¬ Obligations.StampAndAbsorb := by
  rintro ⟨-, -, absorbedClause⟩
  obtain ⟨t, hexec, -, hleaf, -⟩ := absorbedClause absorbState 5 absorbedHead produceContext quiet_absorbState rfl rfl (by decide) rfl
    rfl (by decide) rfl rfl rfl rfl (by decide) (by decide) rfl rfl rfl
  have hclosed : t.su.open_ = none := by
    have h := epochAfter_consistAbsorbed
    rw [hexec] at h
    exact h
  exact open_ne_none_of_leafPosted hleaf rfl stamp_before_boundary hclosed

end Sys2Proof.StampAbsorb
end

section
/-! PROOF. The checks of a verify line: the obligation fails, on the way that TAG_CONSIST takes (see `ProduceLine`). `DataAt`
says nothing of a second stamped waybill that names the line. The mismatch's completion lets the ended waybill behind it form,
the last track's fence follows, the device leaves Running, and the early seal of the open epoch drains what is still stamped
(R178, R204): the second waybill advances the chain that the mismatch leaves. -/

namespace Sys2Proof.VerifyChecks

set_option Elab.async false

open Sys2Proof.Machine Sys2Proof.ProduceLine

/-- A VERIFY_CONSIST of one record, whose expected tag is zero. -/
def checked : Flight := { consist 1 .ready 0 with raw := [0, 0, 3, 0, 1, 0, 0, 0] ++ zeros 56 }

/-- A consist of the same line, stamped on track 2. -/
def besideStamped : Flight := consist 4 .stamped 2

def verifyContext : Context := { produceContext with verify := true }

/-- A device in Running that one more fence takes out of it, with a second list of waybills of line 5. -/
def verifyState : State :=
  { lastTrackState with lne := { lastTrackState.lne with
      contexts := [(5, verifyContext)],
      lines := [(5, { crowdedLine with flights := [checked, endedBehind, stampedBehind] }),
                (5, { crowdedLine with flights := [besideStamped] })] } }

/-- The state meets the hypotheses of the mismatch clause. -/
theorem dataAt_verifyState : DataAt verifyState (5 : BitVec 19).toNat 3 checked verifyContext := by
  unfold DataAt Quiet StampsNext Fetches
  decide +kernel

theorem mismatch_verifyState : consistTag (5 : BitVec 19).toNat verifyContext checked (num checked.raw 24 8) (recordsOf checked []) ≠
    slice checked.raw 32 32 := by
  decide +kernel

/-- The sequence of line 5 in the state that a command answers. -/
def sequenceAfter : Out → Option DWord
  | .next t => (ctx? t 5).map (fun c : Context => c.sequence)
  | _ => none

/-- VERIFY_CONSIST leaves the chain one waybill further. -/
theorem sequenceAfter_verifyConsist : sequenceAfter (exec (.verifyConsist 5 []) verifyState) = some 8 := by
  decide +kernel

/-- Refutes O11: on `verifyState` the step of a VERIFY_CONSIST that finds a mismatch advances the line's context, by the waybill
that the early seal drains. -/
theorem not_verifyLineChecks : ¬ Obligations.VerifyLineChecks := by
  rintro ⟨-, mismatchClause, -⟩
  obtain ⟨t, hexec, hkept, -⟩ :=
    mismatchClause verifyState 5 [] checked verifyContext dataAt_verifyState rfl mismatch_verifyState
  have hsequence := sequenceAfter_verifyConsist
  rw [hexec] at hsequence
  have hsame : (ctx? t 5).map (fun c : Context => c.sequence) = some 7 := congrArg (Option.map (fun c : Context => c.sequence)) hkept
  exact absurd (hsequence.symm.trans hsame) (by decide)

end Sys2Proof.VerifyChecks
end

section
/-! PROOF. Wipes and short jobs: the obligation fails. A seal mismatch in a slot of the short job is a seal fault of the Spine; as it
passes the density limit, source 100 trips with class Caution (R430, R442), and a device in Running that enters Caution ends the
queued signatures, whose descriptors are memory (R335). The statement's clause of the mismatch says that memory stays. -/

namespace Sys2Proof.ShortJobs

set_option Elab.async false

open Sys2Proof.Machine

/-- A device in Running at a yield point: a short job waits whose slot 0 holds a seal mismatch, the Spine has had four seal faults
in the last second, and a FALCON_SIGN descriptor stands in the lanes' queue. -/
def faultyShortJob : State :=
  { setR (setR State.reset Reg.MAE_STATUS 1) Reg.MAE_CONFIG 2 with
    mode := .running, tracks := State.reset.tracks.set 0 { Track.reset with enabled := true },
    descQueue := [(0x20000000, 4)], mem := [(0x20000000, 2)], sealFaults := [(spineTile, [0, 0, 0, 0])],
    badCells := [slotAddr 0 / 8], routes := [(0, mkRoute 0x20000 0x201FF [27] [27] [])],
    mae := { State.reset.mae with shortPending := true, short := some (0, 0) } }

theorem quiet_faultyShortJob : Quiet faultyShortJob := by
  unfold Quiet
  decide +kernel

theorem shortSealBad_faultyShortJob : shortSealBad faultyShortJob 0 = some (slotAddr 0 / 8) := by
  decide +kernel

/-- The byte of RESULT of the descriptor, in the state that a command answers. -/
def resultAfter : Out → Byte
  | .next t => memByte t 0x20000020
  | _ => 0

/-- The yield point ends the descriptor with RESULT 0x04. -/
theorem resultAfter_yieldPoint : resultAfter (exec .maeYieldPoint faultyShortJob) = 4 := by
  decide +kernel

/-- Refutes O28: on `faultyShortJob` the step of the yield point writes a descriptor's result into memory. -/
theorem not_wipesAndShortJobs : ¬ Obligations.WipesAndShortJobs := by
  rintro ⟨-, -, -, -, -, -, -, mismatchClause, -⟩
  obtain ⟨t, hexec, -, -, -, -, hmem, -⟩ := mismatchClause faultyShortJob 0 0 (slotAddr 0 / 8) quiet_faultyShortJob rfl (by decide)
    (by decide) rfl rfl rfl shortSealBad_faultyShortJob
  have hresult := resultAfter_yieldPoint
  rw [hexec] at hresult
  have hkept : memByte t 0x20000020 = 0 := (congrArg (fun m => mget 0 m 0x20000020) hmem :)
  exact absurd (hkept.symm.trans hresult) (by decide)

end Sys2Proof.ShortJobs
end

section
/-! PROOF. Arithmetic jobs: the obligation fails. The clause of a job that ends in a seal fault excludes the count that stands at the
density limit, but a limit that firmware lowered under the count is passed by the next fault (R430): event 202 is raised, and
source 100 trips. -/

namespace Sys2Proof.ArithmeticFaults

set_option Elab.async false

open Sys2Proof.Machine

/-- A running job, with five seal faults of the Spine in the last second under a limit of 4 that was higher when they came. -/
def loweredLimit : State :=
  { setR State.reset Reg.MAE_STATUS 1 with
    mode := .maintenance, sealFaults := [(spineTile, [0, 0, 0, 0, 0])],
    mae := { State.reset.mae with job := some (0x00010001, 0, 0) } }

theorem quiet_loweredLimit : Quiet loweredLimit := by
  unfold Quiet
  decide +kernel

/-- Event 202 in the state that a command answers. -/
def densityEventAfter : Out → Bool
  | .next t => isPending t 202
  | _ => false

/-- The fault passes the limit. -/
theorem densityEventAfter_jobDone : densityEventAfter (exec (.maeJobDone .sealFault) loweredLimit) = true := by
  decide +kernel

/-- Refutes O27: on `loweredLimit` the job's seal fault raises event 202, which the statement's list of events leaves out. -/
theorem not_arithmeticJobs : ¬ Obligations.ArithmeticJobs := by
  rintro ⟨-, -, -, -, -, -, faultClause⟩
  obtain ⟨t, hexec, -, -, -, -, -, hraises, -⟩ := faultClause loweredLimit 0x00010001 0 0 quiet_loweredLimit rfl (by decide) rfl rfl rfl
    (by decide +kernel) (by decide)
  have hpending := densityEventAfter_jobDone
  rw [hexec] at hpending
  have hlisted : isPending t 202 = (isPending loweredLimit 202 || [192, 261, 262].contains 202) := hraises 202 (by decide)
  exact absurd (hlisted.symm.trans hpending) (by decide +kernel)

end Sys2Proof.ArithmeticFaults
end

section
/-! PROOF. Mode changes: the obligation fails. With HELD set, MODEREQ_RUNNING enters Caution, and the queued signatures end there by
a write of their descriptors (R335). A descriptor in a page that no route lets the lattice unit write is a denial, decided by a
route that holds a seal mismatch here: the fifth seal fault of the Spine within a second trips source 100 (R430), and where
firmware has raised its class to Zeroise the device loses the Trunk and ends the command in Condemned (R442). -/

namespace Sys2Proof.ModeTrips

set_option Elab.async false

open Sys2Proof.Machine

/-- A device in Maintenance that meets every condition of Running, with HELD set, a FALCON_SIGN descriptor in a page that no
route covers, the default route unreadable, four seal faults of the Spine in the last second, and source 100 at class Zeroise. -/
def heldMaintenance : State :=
  { setR State.reset Reg.ENT_STATUS 1 with
    mode := .maintenance, descQueue := [(0x20000000, 4)], mem := [(0x20000000, 2)],
    sealFaults := [(spineTile, [0, 0, 0, 0])], badRoutes := [0x3FF], sst := [(13, 3 * 4 ^ 4)],
    power := { Power.reset with contractMw := 30000, bankMv := 30000 },
    vigil := { Vigil.reset with trunk := .valid, held := true } }

theorem quiet_heldMaintenance : Quiet heldMaintenance := by
  unfold Quiet
  decide +kernel

theorem mayWrite_heldMaintenance : MayWrite heldMaintenance 4 Reg.SYS_MODEREQ := by
  unfold MayWrite
  decide +kernel

/-- The mode of the state that a command answers. -/
def modeAfter : Out → Option Mode
  | .next t => some t.mode
  | _ => none

/-- The request ends in Condemned. -/
theorem modeAfter_modereqRunning : modeAfter (exec (.modereqRunning 4) heldMaintenance) = some .condemned := by
  decide +kernel

/-- Refutes O48: on `heldMaintenance` the step of MODEREQ_RUNNING ends in Condemned, where the statement names Caution. -/
theorem not_modeChanges : ¬ Obligations.ModeChanges := by
  rintro ⟨-, -, -, -, runningClause, -⟩
  obtain ⟨t, hexec, hmode, -⟩ := runningClause heldMaintenance quiet_heldMaintenance mayWrite_heldMaintenance (.inl rfl) rfl rfl
    (by decide +kernel)
  have hcondemned := modeAfter_modereqRunning
  rw [hexec] at hcondemned
  exact absurd ((congrArg some hmode).symm.trans hcondemned) (by decide)

end Sys2Proof.ModeTrips
end

section
/-! PROOF. Fences and keys: the obligation fails, on the way that a mismatch takes (see `VerifyChecks`). The fence's completion
lets the ended waybill behind it form, the last track's fence follows, the device leaves Running, and the early seal of the open
epoch drains what is still stamped (R178, R204): a second stamped waybill advances the chain that the fence leaves. -/

namespace Sys2Proof.FenceChain

set_option Elab.async false

open Sys2Proof.Machine Sys2Proof.ProduceLine Sys2Proof.VerifyChecks

/-- A FENCE whose flag is clear. -/
def fenceWaybill : Flight := { consist 1 .ready 0 with raw := [0, 0, 6, 0, 0, 0, 0, 0] ++ zeros 56 }

/-- A device in Running that one more fence of a track takes out of it, with a second list of waybills of line 5. -/
def fenceState : State :=
  { lastTrackState with lne := { lastTrackState.lne with
      lines := [(5, { crowdedLine with flights := [fenceWaybill, endedBehind, stampedBehind] }),
                (5, { crowdedLine with flights := [besideStamped] })] } }

theorem dataAt_fenceState : DataAt fenceState (5 : BitVec 19).toNat 6 fenceWaybill produceContext := by
  unfold DataAt Quiet StampsNext Fetches
  decide +kernel

/-- FENCE leaves the chain one waybill further. -/
theorem sequenceAfter_fence : sequenceAfter (exec (.fence 5) fenceState) = some 8 := by
  decide +kernel

/-- Refutes O13: on `fenceState` the step of FENCE advances the line's context, by the waybill that the early seal drains. -/
theorem not_fencesKeysTracksCredit : ¬ Obligations.FencesKeysTracksCredit := by
  rintro ⟨⟨fenceClause, -⟩, -⟩
  obtain ⟨t, hexec, hkept, -⟩ := fenceClause fenceState 5 fenceWaybill produceContext dataAt_fenceState (by decide)
  have hsequence := sequenceAfter_fence
  rw [hexec] at hsequence
  have hsame : (ctx? t 5).map (fun c : Context => c.sequence) = some 7 := congrArg (Option.map (fun c : Context => c.sequence)) hkept
  exact absurd (hsequence.symm.trans hsame) (by decide)

end Sys2Proof.FenceChain
end

section
/-! PROOF. Lines open, pause and close: the obligation fails. The statement's hypotheses speak of the line table through its
first entry for a line only. A table that lists the closing line twice holds, in its second entry, the stamped waybill that the
last track's fence waits for; the close takes both entries out, the fence is made, the device leaves Running (R175, R178), and the
unstamped waybills of every other data line end with 0x0A, which the statement's frame denies. -/

namespace Sys2Proof.LineClosing

set_option Elab.async false

open Sys2Proof.Machine Sys2Proof.ProduceLine

/-- LINE_CLOSE of line 5, in firmware's hands. -/
def closing : Flight :=
  { consist 9 .service 0 with raw := [0, 0, 0x12, 0, 5, 0, 0, 0] ++ zeros 56 }

def controlLine : Line :=
  { Line.closed with state := .opened, service := true, upLog2 := 8, dnLog2 := 8, dnBase := 0x40000, flights := [closing] }

def pausedLine : Line := { crowdedLine with state := .paused, flights := [] }

/-- Another data line, with a waybill whose key is read. -/
def otherLine : Line := { crowdedLine with flights := [consist 11 .ready 1] }

/-- A device in Running that one more fence takes out of it, with line 5 twice in the table. -/
def closingState : State :=
  { lastTrackState with lne := { lastTrackState.lne with
      lines := [(0, controlLine), (5, pausedLine), (5, { crowdedLine with flights := [stampedBehind] }), (6, otherLine)] } }

theorem controlAt_closingState : ControlAt closingState 0 0x12 closing := by
  unfold ControlAt WaybillAt Quiet
  decide +kernel

/-- The phases of the waybills of line 6 in the state that a command answers. -/
def phasesAfter : Out → List Phase
  | .next t => (getLine t 6).flights.map (fun f => f.phase)
  | _ => []

/-- LINE_CLOSE of line 5 ends the waybill of line 6. -/
theorem phasesAfter_lineClose : phasesAfter (exec (.lineClose 0) closingState) = [] := by
  decide +kernel

/-- Refutes O9: on `closingState` the step of LINE_CLOSE ends and completes the waybill of another line. -/
theorem not_lineLifecycle : ¬ Obligations.LineLifecycle := by
  rintro ⟨-, -, -, -, closeClause⟩
  obtain ⟨t, hexec, -, -, -, hothers⟩ := closeClause closingState 0 closing produceContext controlAt_closingState (by decide) rfl rfl
    rfl rfl rfl rfl
  have hended := phasesAfter_lineClose
  rw [hexec] at hended
  have hkept : (getLine t 6).flights.map (fun f => f.phase) = [.ready] := by
    rw [hothers 6 (by decide) (by decide)]
    rfl
  exact absurd (hkept.symm.trans hended) (by decide)

end Sys2Proof.LineClosing
end

section
/-! PROOF. A service waybill on a crowded line. `ServiceAt` names a waybill by its id and speaks of the first waybill with that id
only, and it does not ask that the line be a service line. The line below holds, behind the waybill answered, a stamped waybill
with the same id, for which the fence of the last track waits, and an unstamped waybill whose key is read. The answer takes both
waybills of that id away, so the fence is made, the device leaves Running (R175, R178), and the third waybill ends with 0x0A:
`Answered`, which keeps it in flight, does not hold. -/

namespace Sys2Proof.CrowdedService

open Sys2Proof.Machine Sys2Proof.ProduceLine

/-- A service waybill of the opcode, with the two bytes of its word 0 and 1 that the claims look at. -/
def asking (op alg : Byte) (rest : Bytes) : Flight :=
  { consist 1 .service 0 with raw := [0, 0, op, 0, alg, 0, 0, 0] ++ rest }

/-- The waybill, a stamped one of its id, and one whose key is read. -/
def crowdedFlights (f : Flight) : List Flight := [f, consist 1 .stamped 1, consist 3 .ready 1]

/-- A device in Running whose line 5 holds them, and which one more fence takes out of Running. -/
def crowdedBy (f : Flight) : State :=
  { lastTrackState with lne := { lastTrackState.lne with lines := [(5, { crowdedLine with flights := crowdedFlights f })] } }

/-- The ids in flight on line 5 in the state that a command answers. -/
def idsAfter : Out → List Nat
  | .next t => (getLine t 5).flights.map (fun f => f.id)
  | _ => []

/-- An answer of the waybill keeps the third one in flight. -/
theorem ids_of_answered {s t : State} {f : Flight} {outs : List (DWord × Bytes)} {status flags seq : Nat} {result : Bytes}
    (hline : (getLine s 5).flights = crowdedFlights f) (hid : f.id = 1)
    (h : Answered s t (5 : BitVec 19).toNat f outs status flags seq result) : idsAfter (.next t) = [3] := by
  obtain ⟨-, -, hflights, -⟩ := h
  rw [show (5 : BitVec 19).toNat = 5 from rfl] at hflights
  simp [idsAfter, hflights, hline, hid, crowdedFlights, consist]

end Sys2Proof.CrowdedService
end

section
/-! PROOF. Host reads that fail: the obligation fails on the payload read of a VERIFY_SIG of a crowded line. -/

namespace Sys2Proof.PayloadReadFails

set_option Elab.async false

open Sys2Proof.Machine Sys2Proof.ProduceLine Sys2Proof.CrowdedService

/-- VERIFY_SIG under Ed25519, whose payload the Hump reads. -/
def verifying : Flight := asking 0x21 4 (zeros 56)

theorem serviceAt_verifying :
    ServiceAt (crowdedBy verifying) (5 : BitVec 19).toNat 0 0x21 verifying produceContext := by
  unfold ServiceAt WaybillAt Quiet
  decide +kernel

theorem idsAfter_hostReadError : idsAfter (exec (.hostReadError (.payload 5 0)) (crowdedBy verifying)) = [] := by
  decide +kernel

/-- Refutes O6: the step of HOST_READ_ERROR ends a second waybill of the line whose payload was read. -/
theorem not_hostTransfers : ¬ Obligations.HostTransfers := by
  rintro ⟨-, ⟨-, -, payloadClause, -⟩, -⟩
  obtain ⟨t, hexec, hanswered, -, -⟩ :=
    payloadClause (crowdedBy verifying) 5 0 0x21 verifying produceContext serviceAt_verifying (by decide) (by decide +kernel)
  have hids := idsAfter_hostReadError
  rw [hexec] at hids
  exact absurd ((ids_of_answered rfl rfl hanswered).symm.trans hids) (by decide)

end Sys2Proof.PayloadReadFails
end

section
/-! PROOF. PROVE, MANIFEST_READ and LOG_EXPORT: the obligation fails on a LOG_EXPORT of a crowded line. -/

namespace Sys2Proof.LogExport

set_option Elab.async false

open Sys2Proof.Machine Sys2Proof.ProduceLine Sys2Proof.CrowdedService

/-- LOG_EXPORT from the mark, with no room for a frame. -/
def exporting : Flight := asking 0x27 0 (zeros 56)

theorem serviceAt_exporting :
    ServiceAt (crowdedBy exporting) (5 : BitVec 19).toNat 0 0x27 exporting produceContext := by
  unfold ServiceAt WaybillAt Quiet
  decide +kernel

theorem exportCursor_exporting :
    exportCursor (crowdedBy exporting) (wf64 exporting.raw 8) =
      some (max (crowdedBy exporting).log.mark (oldestStored (crowdedBy exporting))) := rfl

theorem idsAfter_logExport : idsAfter (exec (.logExport 5 ⟨0, []⟩) (crowdedBy exporting)) = [] := by
  decide +kernel

/-- Refutes O19: the step of LOG_EXPORT ends a second waybill of its line. -/
theorem not_readoutWaybills : ¬ Obligations.ReadoutWaybills := by
  rintro ⟨-, -, exportClause, -, -⟩
  obtain ⟨t, hexec, hanswered, -, -⟩ :=
    exportClause _ 5 0 [] exporting produceContext _ serviceAt_exporting (by decide) rfl exportCursor_exporting (by decide)
  have hids := idsAfter_logExport
  rw [hexec] at hids
  exact absurd ((ids_of_answered rfl rfl hanswered).symm.trans hids) (by decide)

end Sys2Proof.LogExport
end

section
/-! PROOF. SIGN, VERIFY_SIG, DERIVE, KEM_ENCAPS and KEM_DECAPS as waybills: the obligation fails on a VERIFY_SIG of a crowded
line. -/

namespace Sys2Proof.VerifySigWaybill

set_option Elab.async false

open Sys2Proof.Machine Sys2Proof.ProduceLine Sys2Proof.CrowdedService

/-- VERIFY_SIG under Ed25519 with no key. -/
def verifying : Flight := asking 0x21 4 (zeros 56)

theorem serviceAt_verifying :
    ServiceAt (crowdedBy verifying) (5 : BitVec 19).toNat 0 0x21 verifying produceContext := by
  unfold ServiceAt WaybillAt Quiet
  decide +kernel

theorem idsAfter_verifySig : idsAfter (exec (.verifySig 5 0 [] []) (crowdedBy verifying)) = [] := by
  decide +kernel

/-- Refutes O20: the step of VERIFY_SIG ends a second waybill of its line. -/
theorem not_signAndBranchWaybills : ¬ Obligations.SignAndBranchWaybills := by
  rintro ⟨⟨-, -, verifyClause⟩, -⟩
  obtain ⟨t, hexec, hvalid, hinvalid, hunread⟩ :=
    verifyClause _ 5 0 [] [] verifying produceContext serviceAt_verifying (Or.inl (by decide))
  have hids := idsAfter_verifySig
  rw [hexec] at hids
  have hkept : idsAfter (.next t) = [3] := by
    match hv : verdict (byteAt verifying.raw 4 % 16) (decide (byteAt verifying.raw 3 % 2 = 1)) (slice [] 4 (num [] 0 2))
        (slice [] (4 + num [] 0 2) (num [] 2 2)) (slice [] 0 (wf64 verifying.raw 16)) with
    | some true => exact ids_of_answered rfl rfl (hvalid hv)
    | some false => exact ids_of_answered rfl rfl (hinvalid hv)
    | none => exact ids_of_answered rfl rfl (hunread hv)
  exact absurd (hkept.symm.trans hids) (by decide)

end Sys2Proof.VerifySigWaybill
end

section
/-! PROOF. RELAY, ATTEST, TIME_HINT and IMAGE_LOAD: the obligation fails on an IMAGE_LOAD of a crowded line. -/

namespace Sys2Proof.ImageLoad

set_option Elab.async false

open Sys2Proof.Machine Sys2Proof.ProduceLine Sys2Proof.CrowdedService

/-- IMAGE_LOAD of no bytes at offset 0. -/
def loading : Flight := asking 0x30 0 (zeros 56)

/-- The crowded line on a device that runs the recovery monitor and awaits the image's first chunk. -/
def loadingState : State :=
  { crowdedBy loading with flash := { (crowdedBy loading).flash with monitor := true, loadNext := some 0 } }

theorem serviceAt_loading :
    ServiceAt loadingState (5 : BitVec 19).toNat 0 0x30 loading produceContext := by
  unfold ServiceAt WaybillAt Quiet
  decide +kernel

theorem idsAfter_imageLoad : idsAfter (exec (.imageLoad 5 0 []) loadingState) = [] := by
  decide +kernel

/-- Refutes O21: the step of IMAGE_LOAD ends a second waybill of its line. -/
theorem not_fleetAndImageWaybills : ¬ Obligations.FleetAndImageWaybills := by
  rintro ⟨-, loadClause⟩
  obtain ⟨t, hexec, hanswered, -⟩ :=
    loadClause loadingState 5 0 [] loading produceContext serviceAt_loading (by decide) rfl rfl (by decide) (Or.inl rfl)
  have hids := idsAfter_imageLoad
  rw [hexec] at hids
  exact absurd ((ids_of_answered rfl rfl hanswered).symm.trans hids) (by decide)

end Sys2Proof.ImageLoad
end

section
/-! PROOF. CARD_EXPORT opens a session: the obligation fails on a crowded line. The session parks both waybills of the id, so the
fence that waited for the second one is made, and the fence's record enters the Running Log, which the statement keeps. -/

namespace Sys2Proof.CardExport

set_option Elab.async false

open Sys2Proof.Machine Sys2Proof.ProduceLine Sys2Proof.CrowdedService

/-- CARD_EXPORT of one unit from the mark. -/
def exporting : Flight := asking 0x2B 1 (zeros 56)

/-- The first 480 bytes of the header of a card that takes exports of the device. -/
def headerBody : Bytes := (ascii "XLXK" ++ [1, 1, 0, 0] ++ zeros 8) ++ (identity (crowdedBy exporting) ++ zeros 448)

/-- A card that takes exports of the device, with room for one unit more. -/
def exportCard : CardImage :=
  { failStep := 0, cid := [], bus := 0, locked := false, password := [], hdr0 := headerBody ++ sha3_256 headerBody, hdr8 := [],
    units := [], capacity := (parseHeader (headerBody ++ sha3_256 headerBody)).nextUnit + 1, erased := false }

/-- A frame for the session to deliver. -/
def storedFrame : Frame :=
  { typ := 0x20, frag := 0, more := false, serial := 1, ttc := 0, epoch := 0, body := [], link := zeros 32, lost := false }

def heldCard : Card := { img := exportCard, unlocked := false, erasing := false, session := none }

/-- The crowded line on a device with the card negotiated and a frame stored. -/
def exportState : State :=
  let s := setR (crowdedBy exporting) Reg.CCI_STATUS 4
  { s with card := some heldCard, cardPresent := true, log := { s.log with frames := [storedFrame] } }

/-! ### The header -/

theorem identity_length (s : State) : (identity s).length = 16 := by
  simp [identity, sha3_256, sponge_length]

theorem headerBody_length : headerBody.length = 480 := by
  simp only [headerBody, List.length_append, identity_length, zeros, List.length_replicate]
  rfl

theorem slice_append (a b : Bytes) (n : Nat) (hb : b.length = n) : slice (a ++ b) a.length n = b := by
  simp [slice, ← hb]

theorem slice_prefix (a b : Bytes) : slice (a ++ b) 0 a.length = a := by
  simp [slice]

theorem headerOk_exportCard : headerOk exportCard.hdr0 = true := by
  have hdigest : slice exportCard.hdr0 480 32 = sha3_256 (slice exportCard.hdr0 0 480) := by
    have hfront : slice exportCard.hdr0 0 480 = headerBody := headerBody_length ▸ slice_prefix headerBody (sha3_256 headerBody)
    rw [hfront]
    exact headerBody_length ▸ slice_append headerBody (sha3_256 headerBody) 32 (sponge_length 136 6 _ 32 (by decide) (by decide))
  simp only [headerOk, hdigest, Bool.and_eq_true, decide_eq_true_eq, and_true]
  exact ⟨rfl, rfl⟩

theorem cardHeader_exportCard : cardHeader? exportCard = some (parseHeader exportCard.hdr0) := by
  rw [cardHeader?, show newestIsEight exportCard = false from rfl, headerOk_exportCard]
  rfl

theorem identity_exportCard : (parseHeader exportCard.hdr0).identity = identity exportState := by
  have hslice : slice exportCard.hdr0 16 16 = identity (crowdedBy exporting) := by
    have hlen : (ascii "XLXK" ++ [1, 1, 0, 0] ++ zeros 8 : Bytes).length = 16 := rfl
    simp only [exportCard, headerBody, slice, List.append_assoc]
    rw [← List.append_assoc, ← List.append_assoc, ← hlen, List.drop_left, hlen,
      ← identity_length (crowdedBy exporting), List.take_left]
    simp
  exact hslice.trans (by unfold identity platePublic; rfl)

/-! ### What the model answers -/

theorem serviceAt_exporting :
    ServiceAt exportState (5 : BitVec 19).toNat 0 0x2B exporting produceContext := by
  unfold ServiceAt WaybillAt Quiet
  decide +kernel

/-- The session that the command opens. -/
def session : CardSession :=
  { line := 5, id := 1, cursor := 1, left := 1, units := 0, nextUnit := (parseHeader exportCard.hdr0).nextUnit,
    prev := if (parseHeader exportCard.hdr0).nextUnit = 0 then zeros 32 else (parseHeader exportCard.hdr0).last,
    newest := 1, first := 1, seq := (parseHeader exportCard.hdr0).seq, advance := false }

/-- The state with the session open, before what is due is done. -/
def openedState : State :=
  let s := setFieldR (setCciState exportState 3) Reg.CCI_STATUS 16 16 0
  let s := updFlight s 5 1 (fun g => { g with phase := .parked })
  { s with card := some { heldCard with session := some session } }

theorem continueSession_session (s : State) (hcard : s.card = some heldCard) :
    continueSession s session = { s with card := some { heldCard with session := some session } } := by
  have hroom : ¬ (parseHeader exportCard.hdr0).nextUnit + 1 ≤ (parseHeader exportCard.hdr0).nextUnit := Nat.not_succ_le_self _
  simp only [continueSession, hcard, Option.map_some, Option.getD_some]
  rw [if_neg (by decide)]
  exact if_neg hroom

theorem exportCursor_exportState : exportCursor exportState (wf64 exporting.raw 8) = some 1 := by
  decide +kernel

theorem openSession_exportState : openSession exportState 5 exporting exportCard = openedState := by
  have hkind : ¬ ((parseHeader exportCard.hdr0).kind ≠ 1 ∨ (parseHeader exportCard.hdr0).identity ≠ identity exportState) := by
    rintro (h | h)
    exacts [h rfl, h identity_exportCard]
  simp only [openSession, cardHeader_exportCard, exportCursor_exportState]
  rw [if_neg hkind]
  exact continueSession_session _ rfl

theorem startExport_exportState : startExport exportState 5 exporting = openedState := by
  have hcard : exportState.card = some heldCard := rfl
  have hcci : cciState exportState = 2 := by decide +kernel
  have hready : readyCard exportState = exportState := by
    simp only [readyCard, hcard]
    exact if_pos hcci
  have hunlocked : unlockCard exportState [] = (exportState, 0) := by
    simp only [unlockCard, hcard]
    rfl
  simp only [startExport, hready, hunlocked, hcard]
  rw [if_neg (not_not.2 hcci), if_neg (not_not.2 rfl)]
  exact openSession_exportState

/-- How many frames the Running Log holds in the state that a command answers. -/
def framesAfter : Out → Nat
  | .next t => t.log.frames.length
  | _ => 0

theorem framesAfter_openedState : framesAfter (done openedState) ≠ 1 := by
  decide +kernel

theorem exec_cardExport : exec (.cardExport 5 0) exportState = done openedState := by
  have hat : flightAt exportState 5 0 0x2B = some exporting := by decide +kernel
  have hturn : (exportTurn exportState exporting.id && !cardBusy exportState) = true := by decide +kernel
  change execCardExport 5 0 exportState = _
  simp only [execCardExport, show (5 : BitVec 19).toNat = 5 from rfl, hat, hturn, if_true, startExport_exportState]

/-- Refutes O22: the step of CARD_EXPORT writes the record of a track's fence. -/
theorem not_cardSessions : ¬ Obligations.CardSessions := by
  rintro ⟨exportClause, -, -⟩
  obtain ⟨t, hexec, himp⟩ := exportClause exportState 5 0 exporting produceContext heldCard (parseHeader exportCard.hdr0) 1
    serviceAt_exporting (by decide) rfl rfl rfl (by decide +kernel) rfl exportCursor_exportState (by decide) (by decide)
  have hframes := framesAfter_openedState
  obtain ⟨-, -, -, -, hlog⟩ := himp cardHeader_exportCard rfl identity_exportCard (Nat.lt_succ_self _)
  rw [← exec_cardExport, hexec] at hframes
  exact hframes (congrArg (fun g => g.frames.length) hlog)

end Sys2Proof.CardExport
end

section
/-! PROOF. The flash controller: the obligation fails. A page with a seal mismatch in a die's interface is a seal fault of its tile; as
it passes the density limit, source 100 trips with class Caution (R430, R442), and a device in Running that enters Caution ends the
queued signatures, whose descriptors are memory (R335). The statement's clause of that READ says that memory stays. -/

namespace Sys2Proof.FlashRead

set_option Elab.async false

open Sys2Proof.Machine

/-- A device in Running with a READ of die 0 in progress: the page in the die's interface holds a seal mismatch, the interface has
had four seal faults in the last second, and a FALCON_SIGN descriptor stands in the lanes' queue. -/
def faultyRead : State :=
  { State.reset with
    mode := .running, tracks := State.reset.tracks.set 0 { Track.reset with enabled := true },
    descQueue := [(0x20000000, 4)], mem := [(0x20000000, 2)], sealFaults := [(16, [0, 0, 0, 0])], badPrivate := [.nand 0],
    routes := [(0, mkRoute 0x20000 0x201FF [27] [27] [])],
    flash := { State.reset.flash with op := some (.read, 0, 0, 0, 0) } }

theorem quiet_faultyRead : Quiet faultyRead := by
  unfold Quiet
  decide +kernel

/-- The byte of RESULT of the descriptor, in the state that a command answers. -/
def resultAfter : Out → Byte
  | .next t => memByte t 0x20000020
  | _ => 0

/-- The end of the READ ends the descriptor with RESULT 0x04. -/
theorem resultAfter_flashOpDone : resultAfter (exec (.flashOpDone true) faultyRead) = 4 := by
  decide +kernel

/-- Refutes O24: on `faultyRead` the step of FLASH_OP_DONE writes a descriptor's result into memory. -/
theorem not_flashController : ¬ Obligations.FlashController := by
  rintro ⟨-, -, -, -, -, mismatchClause, -⟩
  obtain ⟨t, hexec, -, hmem, -⟩ := mismatchClause faultyRead 0 0 0 0 quiet_faultyRead (by decide) rfl (by decide) (by decide)
    (by decide) (by decide)
  have hresult := resultAfter_flashOpDone
  rw [hexec] at hresult
  have hkept : memByte t 0x20000020 = 0 := (congrArg (fun m => mget 0 m 0x20000020) hmem :)
  exact absurd (hkept.symm.trans hresult) (by decide)

end Sys2Proof.FlashRead
end

section
/-! PROOF. Lineside trips: the obligation fails. A trip of class Caution takes the device from Running into Caution, and the queued
signatures end there by a write of their descriptors (R335). A descriptor in a page that no route lets the lattice unit write is a
denial, decided by a route that holds a seal mismatch here: the fifth seal fault of the Spine within a second trips source 100
(R430), and where firmware has raised its class to Zeroise the device ends in Condemned (R442). -/

namespace Sys2Proof.CautionTrip

set_option Elab.async false

open Sys2Proof.Machine

/-- A device in Running with a FALCON_SIGN descriptor in a page that no route covers, the default route unreadable, four seal
faults of the Spine in the last second, and source 100 at class Zeroise. -/
def watchedRunning : State :=
  { State.reset with
    mode := .running, tracks := State.reset.tracks.set 0 { Track.reset with enabled := true },
    descQueue := [(0x20000000, 4)], mem := [(0x20000000, 2)],
    sealFaults := [(spineTile, [0, 0, 0, 0])], badRoutes := [0x3FF], sst := [(13, 3 * 4 ^ 4)],
    vigil := { Vigil.reset with trunk := .valid } }

theorem trippable_watchedRunning : Trippable watchedRunning (80 : BitVec 7).toNat 3 := by
  unfold Trippable Quiet
  decide +kernel

theorem appliedClass_watchedRunning : appliedClass watchedRunning (80 : BitVec 7).toNat = 2 := by
  decide +kernel

/-- The mode of the state that a command answers. -/
def modeAfter : Out → Option Mode
  | .next t => some t.mode
  | _ => none

/-- The trip ends in Condemned. -/
theorem modeAfter_linesideTrip : modeAfter (exec (.linesideTrip 80 3) watchedRunning) = some .condemned := by
  decide +kernel

/-- Refutes O41: on `watchedRunning` the trip of a source of class Caution ends in Condemned. -/
theorem not_linesideTrips : ¬ Obligations.LinesideTrips := by
  rintro ⟨-, cautionClause, -⟩
  obtain ⟨t, hexec, -, -, -, hmode, -⟩ := cautionClause watchedRunning 80 3 trippable_watchedRunning rfl
    appliedClass_watchedRunning rfl rfl
  have hcondemned := modeAfter_linesideTrip
  rw [hexec] at hcondemned
  exact absurd ((congrArg some hmode).symm.trans hcondemned) (by decide)

end Sys2Proof.CautionTrip
end

section
/-! PROOF. The Lookout: the obligation fails on a LOOKOUT_INVENTORY of a crowded line. The command parks both waybills of the id, so
the fence that waited for the second one is made, the device leaves Running (R178), and the inventory ends with it (R477). -/

namespace Sys2Proof.LookoutInventory

set_option Elab.async false

open Sys2Proof.Machine Sys2Proof.ProduceLine Sys2Proof.CrowdedService

/-- LOOKOUT_INVENTORY of one round and one tag. -/
def searching : Flight := { consist 1 .service 0 with raw := [0, 0, 0x2C, 0, 1, 0, 1, 0] ++ zeros 56 }

/-- The crowded line on a device whose Lookout may transmit. -/
def searchingState : State := { crowdedBy searching with sst := [(8, 1)] }

theorem serviceAt_searching :
    ServiceAt searchingState (5 : BitVec 19).toNat 0 0x2C searching produceContext := by
  unfold ServiceAt WaybillAt Quiet
  decide +kernel

theorem rfReady_searchingState : RfReady searchingState := by
  unfold RfReady
  decide +kernel

/-- Whether an inventory is in progress in the state that a command answers. -/
def inventoryAfter : Out → Bool
  | .next t => t.lko.inv.isSome
  | _ => false

theorem inventoryAfter_lookoutInventory : inventoryAfter (exec (.lookoutInventory 5 0) searchingState) = false := by
  decide +kernel

/-- Refutes O43: the step of LOOKOUT_INVENTORY leaves no inventory in progress. -/
theorem not_lookoutRadio : ¬ Obligations.LookoutRadio := by
  rintro ⟨-, inventoryClause, -⟩
  obtain ⟨t, hexec, hinventory, -⟩ := inventoryClause searchingState 5 0 searching produceContext serviceAt_searching
    (by decide) rfl rfl rfReady_searchingState (by decide)
  have hended := inventoryAfter_lookoutInventory
  rw [hexec] at hended
  have hopen : inventoryAfter (.next t) = true := by simp only [inventoryAfter, hinventory, Option.isSome_some]
  exact absurd (hopen.symm.trans hended) (by decide)

end Sys2Proof.LookoutInventory
end

section
/-! PROOF. An inventory for a waybill of a crowded line. Where a lower tier ends the inventory (R477, R504), the answer takes both
waybills of its id away, so the fence that waited for the second one is made, and with the last track fenced the device leaves
Running (R178). -/

namespace Sys2Proof.CrowdedInventory

open Sys2Proof.Machine Sys2Proof.ProduceLine Sys2Proof.CrowdedService

/-- LOOKOUT_INVENTORY, under way. -/
def searching : Flight := { asking 0x2C 1 (zeros 56) with phase := .parked }

/-- Its rounds. -/
def rounds : Inventory :=
  { owner := .waybill 5 1, round := 1, rounds := 1, maxTags := 1, slot := 0, q := 4, qfp := 40, replies := 0, entries := [],
    seen := [], badgeRan := false }

/-- A device in Running at full tier with that inventory, which one more fence takes out of Running. -/
def searchingState : State :=
  { crowdedBy searching with
    lko := { (crowdedBy searching).lko with inv := some rounds },
    power := { (crowdedBy searching).power with contractMw := 27000, tierPending := some 1 } }

/-- The mode of the state that a command answers. -/
def modeAfter : Out → Option Mode
  | .next t => some t.mode
  | _ => none

end Sys2Proof.CrowdedInventory
end

section
/-! PROOF. Power delivery: the obligation fails on a PS_RDY that ends the inventory of a crowded line. -/

namespace Sys2Proof.TierContract

set_option Elab.async false

open Sys2Proof.Machine Sys2Proof.CrowdedInventory

theorem quiet_searchingState : Quiet searchingState := by
  unfold Quiet
  decide +kernel

/-- PS_RDY takes the device out of Running. -/
theorem modeAfter_psRdy : modeAfter (exec .psRdy searchingState) = some .maintenance := by
  decide +kernel

/-- Refutes O46: on `searchingState` the step of PS_RDY ends in Maintenance. -/
theorem not_powerDelivery : ¬ Obligations.PowerDelivery := by
  rintro ⟨-, -, -, readyClause, -⟩
  obtain ⟨t, hexec, -, -, -, hmode, -⟩ := readyClause searchingState 1 quiet_searchingState rfl rfl (by decide) (by decide) ⟨rfl, rfl⟩
  have hleft := modeAfter_psRdy
  rw [hexec] at hleft
  exact absurd ((congrArg some hmode).symm.trans hleft) (by decide)

end Sys2Proof.TierContract
end

section
/-! PROOF. Disturbances, thermal caps and power loss: the obligation fails on a THERMAL_CAP that ends the inventory of a crowded
line. -/

namespace Sys2Proof.ThermalCap

set_option Elab.async false

open Sys2Proof.Machine Sys2Proof.CrowdedInventory

theorem quiet_searchingState : Quiet searchingState := by
  unfold Quiet
  decide +kernel

/-- THERMAL_CAP takes the device out of Running. -/
theorem modeAfter_thermalCap : modeAfter (exec (.thermalCap 840) searchingState) = some .maintenance := by
  decide +kernel

/-- Refutes O50: on `searchingState` the step of THERMAL_CAP ends in Maintenance. -/
theorem not_holdUpAndPowerLoss : ¬ Obligations.HoldUpAndPowerLoss := by
  rintro ⟨⟨-, -, -, -, -, -, capClause, -⟩, -⟩
  obtain ⟨t, hexec, -, -, -, -, -, hmode⟩ := capClause searchingState 840 quiet_searchingState ⟨rfl, rfl⟩ rfl rfl (by decide)
  have hleft := modeAfter_thermalCap
  rw [hexec] at hleft
  exact absurd ((congrArg some hmode).symm.trans hleft) (by decide)

end Sys2Proof.ThermalCap
end

section
/-! PROOF. The host link: the obligation fails. Where a completion is held for the link, the line may hold a stamped waybill with the
same id behind the formed one: `HeldPlain` speaks of the first waybill of the id only. As the link trains, the completion goes out
and takes both away, the fence that waited for the second one is made, and with the last track fenced the device leaves Running
(R178), which the statement's frame denies. -/

namespace Sys2Proof.HeldCompletion

set_option Elab.async false

open Sys2Proof.Machine Sys2Proof.ProduceLine Sys2Proof.CrowdedService

/-- A waybill whose completion is formed. -/
def formed : Flight := { consist 1 .formed 0 with completion := zeros 64 }

/-- A device in Running without a link that holds the completion, and which one more fence takes out of Running. -/
def heldState : State :=
  { crowdedBy formed with
    hlk := { (crowdedBy formed).hlk with up := false, held := [{ line := 5, id := 1 }] },
    power := { (crowdedBy formed).power with contractMw := 27000 } }

theorem quiet_heldState : Quiet heldState := by
  unfold Quiet
  decide +kernel

theorem heldPlain_heldState : HeldPlain heldState := by
  intro h hmem
  obtain rfl := List.mem_singleton.mp hmem
  refine ⟨rfl, fun f hf => ?_⟩
  obtain rfl : formed = f := Option.some.inj hf
  exact ⟨rfl, rfl⟩

/-- The mode of the state that a command answers. -/
def modeAfter : Out → Option Mode
  | .next t => some t.mode
  | _ => none

/-- The link's training takes the device out of Running. -/
theorem modeAfter_linkUp : modeAfter (exec (.linkUp 0) heldState) = some .maintenance := by
  decide +kernel

/-- Refutes O2: on `heldState` the step of LINK_UP ends in Maintenance. -/
theorem not_hostLinkSession : ¬ Obligations.HostLinkSession := by
  rintro ⟨⟨upClause, -, -⟩, -, -⟩
  obtain ⟨t, hexec, -, -, -, -, -, -, -, -, -, hframe⟩ :=
    upClause heldState 0 quiet_heldState heldPlain_heldState rfl rfl rfl (by decide)
  have hleft := modeAfter_linkUp
  rw [hexec] at hleft
  have hmode : t.mode = .running := (congrArg State.mode hframe :)
  exact absurd ((congrArg some hmode).symm.trans hleft) (by decide)

end Sys2Proof.HeldCompletion
end

section
/-! PROOF. The tag face is read and written, from outside and from within (R474, R485 to R490). -/

namespace Sys2Proof.TagFace

open Sys2Proof.Machine Sys2Proof.Frames Sys2Proof.Chains

/-! ### Commands that the tag hears -/

theorem leads_heard {c : Instr} {s : State} {f : State → State} {P : State → Prop} (hexec : exec c s = heard s f) (h : Hears s)
    (hp : P (f s)) : Leads c s P := by
  obtain ⟨hfield, hinv⟩ := h
  refine leads_next (hexec.trans ?_) hp
  simp [heard, tagHears, hfield, hinv]

theorem accessible_of_handled {s : State} {rn : BitVec 16} (h : Handled s rn) :
    (accessible s.tail && decide (rn = s.tail.handle)) = true := by
  obtain ⟨-, hstate, hhandle⟩ := h
  rcases hstate with hstate | hstate <;> simp [accessible, hstate, hhandle]

theorem leads_handled {c : Instr} {s : State} {rn : BitVec 16} {f : State → State} {P : State → Prop}
    (hexec : exec c s = withHandle s rn f) (h : Handled s rn) (hp : P (f s)) : Leads c s P := by
  refine leads_heard hexec h.1 ?_
  rw [if_pos (accessible_of_handled h)]
  exact hp

theorem tagDid_tagSay (s : State) (r : TagReply) : TagDid s (tagSay s r) s.tail [r] := rfl

/-! ### Label writes (R489) -/

/-- A write of the label is not refused by its range. -/
theorem writeError_of_labelWrite {s : State} {word n : Nat} (h : LabelWrite s word n) : writeError? s 3 word n = none := by
  obtain ⟨hlow, hhigh⟩ := h
  have hrange : ¬ 2 * (word + n) > (tagBank s 3).length := by omega
  simp [writeError?, hrange, hlow]

theorem tagStore_of_labelWrite {s : State} {word : Nat} {v : List (BitVec 16)} (h : LabelWrite s word v.length) (ok : Bool) :
    tagStore s (3 : BitVec 2).toNat word v true ok = writeLabel s word v ok := by
  simp [tagStore, writeError_of_labelWrite h]

theorem tagStore_of_powerRefused {s : State} {word : Nat} {v : List (BitVec 16)} (h : LabelWrite s word v.length) (ok : Bool) :
    tagStore s (3 : BitVec 2).toNat word v false ok = refusePower s := by
  simp [tagStore, writeError_of_labelWrite h]

/-- The label written and committed, before its report. -/
def committed (s : State) (word : Nat) (v : List (BitVec 16)) : State :=
  setTag s (fun t => if !s.tail.labCommit then { t with lab1 := newLabel s word v, labCommit := !s.tail.labCommit }
    else { t with lab0 := newLabel s word v, labCommit := !s.tail.labCommit })

theorem writeLabel_verified {s : State} {word : Nat} {v : List (BitVec 16)} (hpower : mainPower s = true) :
    writeLabel s word v true = tagSay (raise (bump16 (committed s word v) 0) 432) (.ok s.tail.handle) := by
  have hmain : mainPower (committed s word v) = true := hpower
  have hhandle : (committed s word v).tail.handle = s.tail.handle := by
    cases hc : s.tail.labCommit <;> simp [committed, setTag, hc]
  change tagSay (if mainPower (committed s word v) then raise (bump16 (committed s word v) 0) 432 else committed s word v)
    (.ok (committed s word v).tail.handle) = _
  rw [if_pos hmain, hhandle]

theorem labelBytes_committed (s : State) (word : Nat) (v : List (BitVec 16)) :
    labelBytes (committed s word v) = newLabel s word v ∧ (committed s word v).tail.labCommit = !s.tail.labCommit := by
  cases hc : s.tail.labCommit <;> simp [committed, setTag, labelBytes, hc]

theorem labelBytes_unverified (s : State) (word : Nat) (v : List (BitVec 16)) :
    labelBytes (writeLabel s word v false) = labelBytes s := by
  cases hc : s.tail.labCommit <;> simp [writeLabel, tagError, tagSay, setTag, labelBytes, hc]

/-- A label write that is verified: the label, the flip of its commit flag, the reply, event 432 and the counter of writes. -/
theorem writeLabel_done {s : State} {word : Nat} {v : List (BitVec 16)} (hpower : mainPower s = true) :
    labelBytes (writeLabel s word v true) = newLabel s word v ∧ (writeLabel s word v true).tail.labCommit = !s.tail.labCommit ∧
    (writeLabel s word v true).ports.tagOut = s.ports.tagOut ++ [.ok s.tail.handle] ∧
    isPending (writeLabel s word v true) 432 = true ∧
    fieldR (writeLabel s word v true) Reg.TLP_EXTW 0 16 = min 65535 (fieldR s Reg.TLP_EXTW 0 16 + 1) ∧
    SameRegs s (writeLabel s word v true) [Reg.TLP_EXTW] := by
  obtain ⟨hlabel, hcommit⟩ := labelBytes_committed s word v
  have htail : (raise (bump16 (committed s word v) 0) 432).tail = (committed s word v).tail := by
    obtain ⟨q, o, h⟩ := raise_form (bump16 (committed s word v) 0) 432
    rw [h]
    rfl
  have hports : (raise (bump16 (committed s word v) 0) 432).ports.tagOut = s.ports.tagOut := by
    obtain ⟨q, o, h⟩ := raise_form (bump16 (committed s word v) 0) 432
    rw [h]
    rfl
  rw [writeLabel_verified hpower]
  refine ⟨?_, ?_, ?_, isPending_raise_same _ (by decide), ?_, ?_⟩
  · exact (congrArg (fun k : Tail => if k.labCommit then k.lab1 else k.lab0) htail).trans hlabel
  · exact (congrArg (fun k : Tail => k.labCommit) htail).trans hcommit
  · exact congrArg (fun l => l ++ [TagReply.ok s.tail.handle]) hports
  · change bitsOf (getR (raise (bump16 (committed s word v) 0) 432) Reg.TLP_EXTW) 0 16 = _
    have hlow : min 65535 (fieldR s Reg.TLP_EXTW 0 16 + 1) % 2 ^ 16 = min 65535 (fieldR s Reg.TLP_EXTW 0 16 + 1) :=
      Nat.mod_eq_of_lt (by omega)
    rw [getR_raise, bump16, getR_setFieldR, bitsOf_withBits_same _ _ (by decide)]
    exact hlow
  · exact sameRegs_raise (sameRegs_setR (sameRegs_of_regs rfl _) (List.mem_singleton.mpr rfl) _) 432

/-! ### Accesses with a handle -/

theorem tagAccess : Sys2Proof.Claims.TagAccess := by
  refine ⟨?_, ?_, ?_, ?_, ?_, ?_, ?_, ?_, ?_, ?_, ?_, ?_, ?_⟩
  case refine_1 =>
    intro s hears hstate
    have hexec : exec (.reqRn s.tail.rn) s = execReqRn s.tail.rn s := rfl
    rw [execReqRn] at hexec
    refine leads_heard hexec hears ?_
    simp only [hstate, if_true]
    rfl
  case refine_2 =>
    intro s rn h
    have hnot : s.tail.state ≠ .acknowledged := by
      rcases h.2.1 with hstate | hstate <;> simp [hstate]
    have hexec : exec (.reqRn rn) s = execReqRn rn s := rfl
    rw [execReqRn] at hexec
    refine leads_heard hexec h.1 ?_
    rw [if_neg hnot, if_pos (accessible_of_handled h)]
    rfl
  case refine_3 =>
    intro s rn bank word count h hbank hcount hfits
    have hin : ¬ ((tagBank s bank.toNat).length ≤ 2 * word ∨ (tagBank s bank.toNat).length < 2 * (word + count)) := by omega
    have hzero : bank.toNat ≠ 0 := fun h0 => hbank (BitVec.eq_of_toNat_eq h0)
    have hexec : exec (.tagRead rn bank word count) s = execTagRead rn bank word count s := rfl
    rw [execTagRead] at hexec
    refine leads_handled hexec h ?_
    simp only [readError?, if_neg hin, if_neg hzero, readCount, if_neg hcount]
    rfl
  case refine_4 =>
    intro s rn bank word count h hout
    have hexec : exec (.tagRead rn bank word count) s = execTagRead rn bank word count s := rfl
    rw [execTagRead] at hexec
    refine leads_handled hexec h ?_
    simp only [readError?, if_pos (Or.symm hout)]
    rfl
  case refine_5 =>
    intro s rn word v h hlabel hpower
    have hexec : exec (.tagWrite rn 3 word v true true) s = execTagWrite rn 3 word v true true s := rfl
    rw [execTagWrite] at hexec
    refine leads_handled hexec h ?_
    rw [tagStore_of_labelWrite hlabel]
    exact writeLabel_done hpower
  case refine_6 =>
    intro s rn word v h hlabel hone hmany hpower
    have hlen : ¬ (v.length = 0 ∨ 16 < v.length) := by omega
    have hexec : exec (.blockWrite rn 3 word v true true) s = execBlockWrite rn 3 word v true true s := rfl
    rw [execBlockWrite] at hexec
    refine leads_handled hexec h ?_
    rw [if_neg hlen]
    rw [tagStore_of_labelWrite hlabel]
    obtain ⟨hbytes, hcommit, hreply, hevent, -, -⟩ := writeLabel_done (word := word) (v := v) hpower
    exact ⟨hbytes, hcommit, hreply, hevent⟩
  case refine_7 =>
    intro s rn word v h hlabel
    have hexec : exec (.tagWrite rn 3 word v true false) s = execTagWrite rn 3 word v true false s := rfl
    rw [execTagWrite] at hexec
    refine leads_handled hexec h ?_
    rw [tagStore_of_labelWrite hlabel]
    refine ⟨labelBytes_unverified s word _, ?_, rfl⟩
    cases hc : s.tail.labCommit <;> simp [writeLabel, tagError, tagSay, setTag, hc]
  case refine_8 =>
    intro s rn word v h hlabel hpower
    have hexec : exec (.tagWrite rn 3 word v false true) s = execTagWrite rn 3 word v false true s := rfl
    rw [execTagWrite] at hexec
    refine leads_handled hexec h ?_
    rw [tagStore_of_powerRefused hlabel, refusePower, if_pos hpower]
    obtain ⟨q, o, hform⟩ := raise_form (orR (bump16 s 16) Reg.TLP_ERR 2) 433
    have hpending := isPending_raise_same (orR (bump16 s 16) Reg.TLP_ERR 2) (n := 433) (by decide)
    have herr : bitR (raise (orR (bump16 s 16) Reg.TLP_ERR 2) 433) Reg.TLP_ERR 1 = true := by
      change bit (getR _ _) 1 = true
      rw [getR_raise, getR_orR]
      simp [bit]
    refine ⟨?_, ?_, hpending, herr⟩ <;> rw [hform] <;> rfl
  case refine_9 =>
    intro s rn word v e ok h hlow hfits
    have hrange : ¬ 2 * (word + 1) > (tagBank s 3).length := by omega
    have hlabel : ¬ 0x30 ≤ word := by omega
    have hexec : exec (.tagWrite rn 3 word v e ok) s = execTagWrite rn 3 word v e ok s := rfl
    rw [execTagWrite] at hexec
    refine leads_handled hexec h ?_
    have herror : writeError? s (3 : BitVec 2).toNat word 1 = some 0x04 := by
      change (if 2 * (word + 1) > (tagBank s 3).length then _ else if _ ∧ 0x30 ≤ word then _ else _) = _
      rw [if_neg hrange, if_neg (fun h => hlabel h.2)]
    simp only [tagStore, List.length_singleton, herror]
    rfl
  case refine_10 =>
    intro s rn half h
    have hexec : exec (.tagAccess rn half) s = execTagAccess rn half s := rfl
    rw [execTagAccess] at hexec
    exact leads_handled hexec h rfl
  case refine_11 =>
    intro s rn h
    have hexec : exec (.tagLock rn) s = execTagLock rn s := rfl
    rw [execTagLock] at hexec
    exact leads_handled hexec h rfl
  case refine_12 =>
    intro s rn h
    have hexec : exec (.tagKill rn) s = execTagKill rn s := rfl
    rw [execTagKill] at hexec
    exact leads_handled hexec h ⟨_, rfl⟩
  case refine_13 =>
    intro s rn h
    have hexec : exec (.unsupportedCommand rn) s = execUnsupportedCommand rn s := rfl
    rw [execUnsupportedCommand] at hexec
    exact leads_handled hexec h rfl

/-! ### The Tail lamp's own updates -/

/-- With both slots short of the limit, an update goes to the slot not committed. -/
theorem updateSlot_unworn {s : State} (h0 : s.tail.wear0 < 99999) (h1 : s.tail.wear1 < 99999) :
    updateSlot s = !s.tail.evCommit := by
  have hworn : ¬ slotLimit ≤ (if s.tail.evCommit then s.tail.wear0 else s.tail.wear1) := by
    simp only [slotLimit]
    split <;> omega
  simp [updateSlot, hworn]

/-- One write more in a slot's count. -/
def wornTail (k : Tail) (one : Bool) : Tail :=
  if one then { k with wear1 := k.wear1 + 1 } else { k with wear0 := k.wear0 + 1 }

@[simp] theorem wornTail_retry (k : Tail) (one : Bool) : (wornTail k one).retry = k.retry := by
  cases one <;> rfl

@[simp] theorem wornTail_updating (k : Tail) (one : Bool) : (wornTail k one).updating = k.updating := by
  cases one <;> rfl

theorem wearSlot_unworn {s : State} (one : Bool) (h0 : s.tail.wear0 < 99999) (h1 : s.tail.wear1 < 99999) :
    wearSlot s one = { s with tail := wornTail s.tail one } := by
  have hlimit : ¬ slotLimit ≤ (if one then (wornTail s.tail one).wear1 else (wornTail s.tail one).wear0) := by
    cases one <;> simp only [slotLimit, wornTail, if_true, Bool.false_eq_true, if_false] <;> omega
  exact if_neg (fun h => hlimit h.1)

theorem wearSlot_shape (s : State) (one : Bool) :
    ∃ regs, wearSlot s one = { s with regs := regs, tail := wornTail s.tail one } := by
  by_cases hlimit : slotLimit ≤ (if one then (wornTail s.tail one).wear1 else (wornTail s.tail one).wear0) ∧ mainPower s
  · exact ⟨_, if_pos hlimit⟩
  · exact ⟨_, if_neg hlimit⟩

theorem committedBlock_worn (s : State) (one : Bool) (regs : SMap Word) :
    committedBlock { s with regs := regs, tail := wornTail s.tail one } = committedBlock s := by
  cases one <;> rfl

/-- The state with the verified status block committed to the other slot. -/
def blockKept (s : State) : State :=
  let t := putSlotBytes s (!s.tail.evCommit) (updateBlock s)
  { s with tail := { wornTail t.tail (!s.tail.evCommit) with
      evCommit := !s.tail.evCommit, updating := false, retry := false, lastUpdate := s.ttc } }

theorem endUpdate_verified {s : State} (hpower : mainPower s = true) (h0 : s.tail.wear0 < 99999) (h1 : s.tail.wear1 < 99999) :
    endUpdate s true = raise (blockKept s) 434 := by
  have hworn : wearSlot (putSlotBytes s (!s.tail.evCommit) (updateBlock s)) (!s.tail.evCommit) = _ :=
    wearSlot_unworn _ (by cases hc : s.tail.evCommit <;> exact h0) (by cases hc : s.tail.evCommit <;> exact h1)
  simp only [endUpdate, updateSlot_unworn h0 h1, if_true, hworn, raiseMain]
  exact if_pos hpower

/-- The state with the update given up, before its report. -/
def givenUp (s : State) (regs : SMap Word) : State :=
  { s with regs := regs, tail := { wornTail s.tail (updateSlot s) with updating := false, retry := false } }

theorem execInternalUpdateDone_updating {s : State} (ok : Bool) (hdue : s.tail.updating = true) (hpower : mainPower s = true) :
    exec (.internalUpdateDone ok) s = .next (endUpdate s ok) := by
  have hdark : s.mode ≠ .dark := by
    rintro h
    simp [mainPower, h] at hpower
  change execInternalUpdateDone ok s = _
  simp [execInternalUpdateDone, hdue, hdark]

theorem tailUpdates : Sys2Proof.Claims.TailUpdates := by
  refine ⟨?_, ?_, ?_, ?_⟩
  case refine_1 =>
    intro s m hq hw
    exact leads_guardedWrite (f := tailDue) rfl hw hq rfl
  case refine_2 =>
    intro s hdue hpower h0 h1
    refine leads_next (execInternalUpdateDone_updating true hdue hpower) ?_
    rw [endUpdate_verified hpower h0 h1]
    have htail : (raise (blockKept s) 434).tail = (blockKept s).tail := (congrArg State.tail (LockedRoutes.raise_withEvents _ _) :)
    have honly : OnlyRegs { s with tail := (blockKept s).tail } (raise (blockKept s) 434) [] [434] :=
      onlyRegs_then_raise (onlyRegs_refl (blockKept s) []) 434
    rw [committedBlock, htail]
    cases hc : s.tail.evCommit
    all_goals
      have hkept : (blockKept s).tail = _ := congrArg State.tail (blockKept.eq_1 s)
      simp only [hc, Bool.not_false, Bool.not_true, wornTail, if_true, Bool.false_eq_true, if_false] at hkept
      rw [hkept] at honly ⊢
      exact ⟨rfl, rfl, rfl, rfl, rfl, rfl, honly⟩
  case refine_3 =>
    intro s hdue hpower hretry h0 h1
    refine leads_next (execInternalUpdateDone_updating false hdue hpower) ?_
    simp only [endUpdate, Bool.false_eq_true, if_false, wearSlot_unworn _ h0 h1, wornTail_retry, hretry]
    exact ⟨committedBlock_worn s (updateSlot s) s.regs, (wornTail_updating _ _).trans hdue, trivial, trivial⟩
  case refine_4 =>
    intro s hdue hpower hretry
    refine leads_next (execInternalUpdateDone_updating false hdue hpower) ?_
    obtain ⟨regs, hworn⟩ := wearSlot_shape s (updateSlot s)
    have hmain : mainPower (givenUp s regs) = true := hpower
    have hgiven : endUpdate s false = raise (orR (givenUp s regs) Reg.TLP_ERR 1) 435 := by
      simp only [endUpdate, Bool.false_eq_true, if_false, hworn, wornTail_retry, hretry, if_true]
      change raiseMain (if mainPower (givenUp s regs) then orR (givenUp s regs) Reg.TLP_ERR 1 else givenUp s regs) 435 = _
      rw [if_pos hmain]
      exact if_pos hmain
    have htail := (congrArg State.tail hgiven :)
    rw [LockedRoutes.raise_withEvents] at htail
    have herr : bitR (endUpdate s false) Reg.TLP_ERR 0 = true := by
      change bit (getR _ _) 0 = true
      rw [hgiven, getR_raise, getR_orR]
      simp [bit]
    refine ⟨?_, (congrArg Tail.updating htail :), (congrArg Tail.retry htail :), ?_, herr⟩
    · rw [committedBlock, htail]
      exact committedBlock_worn s (updateSlot s) regs
    · rw [hgiven]
      exact isPending_raise_same _ (by decide)

/-- Settles O45: each access is heard, refused or written by its lemma, and an update commits the other slot. -/
theorem tagFace : Obligations.TagFace := ⟨tagAccess, tailUpdates⟩

end Sys2Proof.TagFace
end

section
/-! PROOF. An instruction that executes, by its effect (R366, R367, R379, R395): what its fetch leaves, what ending the interrupt
shadow changes, and the state that each kind of effect leads to. -/

namespace Sys2Proof.TamemEffects

open Sys2Proof.Machine Sys2Proof.TamemIssue

/-! ### The fetch leaves the cores -/

theorem cores_fetchWord (s : State) (n : Nat) (pc : Word) (h : (fetchWord s n pc).trap = none) :
    (fetchWord s n pc).state.cores = s.cores := by
  obtain hs | ⟨a, hs⟩ := fetchWord_state s n pc h <;> rw [hs]
  rfl

theorem cores_fetchInstr {s f : State} {n size : Nat} (h : fetchInstr s n size = { state := f, trap := none }) :
    f.cores = s.cores := by
  have htrap : (fetchInstr s n size).trap = none := by rw [h]
  have hstate : (fetchInstr s n size).state = f := by rw [h]
  rw [← hstate]
  revert htrap
  unfold fetchInstr
  dsimp only
  split
  · exact fun h => cores_fetchWord _ _ _ h
  · next hfirst =>
    have hnone : (fetchWord s n (curWorld s n).pc).trap = none := by
      simpa using fun e => hfirst (.inl e)
    exact fun h => (cores_fetchWord _ _ _ h).trans (cores_fetchWord _ _ _ hnone)

theorem coreAt_of_cores {s t : State} (h : t.cores = s.cores) (n : Nat) : coreAt t n = coreAt s n := by
  rw [coreAt, h, coreAt]

theorem coreAt_of_executed {s f : State} {i : Issue} {size : Nat} (h : Executed s i size f) (n : Nat) : coreAt f n = coreAt s n := by
  obtain ⟨⟨-, -, hfetch⟩, -⟩ := h
  exact coreAt_of_cores (cores_fetchInstr hfetch) n

theorem curWorld_of_executed {s f : State} {i : Issue} {size : Nat} (h : Executed s i size f) (n : Nat) :
    curWorld f n = curWorld s n := by
  simp only [curWorld, curSig, coreAt_of_executed h n]

/-! ### The end of the shadow -/

theorem curWorld_unshadow (s : State) {n : Nat} (h : n < 4) :
    curWorld (unshadow s n) n = { curWorld s n with shadow := false } := curWorld_modWorld s n _ h

theorem curSig_unshadow (s : State) {n : Nat} (h : n < 4) : curSig (unshadow s n) n = curSig s n := curSig_modWorld s n _ h

theorem badReads_unshadow (s : State) {n : Nat} (h : n < 4) (r : Reads) :
    badReads (curWorld (unshadow s n) n) r = badReads (curWorld s n) r := by
  rw [curWorld_unshadow s h]
  rfl

theorem supervisor_unshadow (s : State) {n : Nat} (h : n < 4) : supervisor (unshadow s n) n = supervisor s n := by
  rw [supervisor, curWorld_unshadow s h]
  rfl

theorem specLegal_unshadow (lvl : Option Nat) (s : State) {n : Nat} (h : n < 4) :
    specLegal lvl (unshadow s n) n = specLegal lvl s n := by
  unfold specLegal
  rw [supervisor_unshadow s h, curSig_unshadow s h, curWorld_unshadow s h]

/-- A change of the current world is known by what it makes of that world. -/
theorem modWorld_congr {s : State} {n : Nat} {g k : World → World} (h : g (curWorld s n) = k (curWorld s n)) :
    modWorld s n g = modWorld s n k := by
  rw [modWorld, modWorld, h]

/-! ### The effect of an instruction -/

/-- An instruction that does its work in `f` leads to what follows its effect there. -/
theorem leads_after {c : Instr} {s f : State} {i : Issue} {size : Nat} {reads : List (BitVec 5)} {r : Reads}
    {decode : State → Nat → Option Nat} {eff : State → Nat → Effect} {P : State → Prop} (h : Working s i size reads f)
    (hexec : exec c s = done (issue i size decode r eff s))
    (hshadow : ∀ g, decode (unshadow g i.core.toNat) i.core.toNat = decode g i.core.toNat)
    (hdecode : decode f i.core.toNat = none) (hreads : badReads (curWorld f i.core.toNat) r = false)
    (hp : P (after (settleEffect i.core.toNat size (curWorld s i.core.toNat).shadow (eff f i.core.toNat)))) :
    Leads c s P := by
  obtain ⟨g, hexecuted, -, rfl⟩ := h
  have hn : i.core.toNat < 4 := i.core.isLt
  rw [badReads_unshadow g hn] at hreads
  rw [hshadow] at hdecode
  refine leads_of_exec (hexec.trans ?_) hp
  rw [issue_executed hexecuted decode r eff hdecode hreads, curWorld_of_executed hexecuted]
  rfl

theorem after_quiet {s : State} (h : Quiet s) : after s = s := Host.Outcome.next.inj (done_quiet s h)

/-- Where its effect leaves a quiet state, nothing follows it. -/
theorem leads_working {c : Instr} {s f : State} {i : Issue} {size : Nat} {reads : List (BitVec 5)} {r : Reads}
    {decode : State → Nat → Option Nat} {eff : State → Nat → Effect} {P : State → Prop} (h : Working s i size reads f)
    (hexec : exec c s = done (issue i size decode r eff s))
    (hshadow : ∀ g, decode (unshadow g i.core.toNat) i.core.toNat = decode g i.core.toNat)
    (hdecode : decode f i.core.toNat = none) (hreads : badReads (curWorld f i.core.toNat) r = false)
    (hp : ∃ t, settleEffect i.core.toNat size (curWorld s i.core.toNat).shadow (eff f i.core.toNat) = t ∧ Quiet t ∧ P t) :
    Leads c s P := by
  obtain ⟨t, hsettle, hquiet, hp⟩ := hp
  refine leads_after h hexec hshadow hdecode hreads ?_
  rw [hsettle, after_quiet hquiet]
  exact hp

/-- An instruction that executes and reads a seal mismatch takes the seal fault (R361). -/
theorem leads_unreadable {c : Instr} {s f : State} {i : Issue} {size : Nat} {r : Reads} {decode : State → Nat → Option Nat}
    {eff : State → Nat → Effect} (h : Executed s i size f) (hexec : exec c s = done (issue i size decode r eff s))
    (hdecode : decode f i.core.toNat = none) (hreads : badReads (curWorld f i.core.toNat) r = true) :
    Leads c s (fun t => t = after (registerSealFault f i.core.toNat)) := by
  obtain ⟨⟨-, hissue, hfetch⟩, hpred, hloop, hexecutes⟩ := h
  have hp : ¬ (i.p ≠ 0 ∧ (curWorld f i.core.toNat).badP = true) := by
    rintro ⟨hp0, hbad⟩
    rcases hpred with h0 | hgood
    · exact hp0 h0
    · simp [hgood] at hbad
  refine leads_of_exec (hexec.trans ?_) rfl
  simp only [issue, hissue, hfetch, hdecode, if_neg hp, hexecutes, hloop, hreads]
  rfl

theorem quiet_of_working {s f : State} {i : Issue} {size : Nat} {reads : List (BitVec 5)} (h : Working s i size reads f) :
    Quiet f := by
  obtain ⟨g, hexecuted, -, rfl⟩ := h
  exact (quiet_modWorld g _ _).mpr (quiet_of_executed hexecuted)

theorem badOperand_of_working {s f : State} {i : Issue} {size : Nat} {reads : List (BitVec 5)} (h : Working s i size reads f) :
    badOperand (curWorld f i.core.toNat) reads = false := by
  obtain ⟨g, hexecuted, hreads, rfl⟩ := h
  rw [curWorld_unshadow g i.core.isLt]
  exact hreads

/-- What an instruction reads that reads the word registers of its form only. -/
theorem badReads_of_working {s f : State} {i : Issue} {size : Nat} {reads : List (BitVec 5)} (h : Working s i size reads f) :
    badReads (curWorld f i.core.toNat) (Reads.of reads) = false := by
  rw [badReads_of]
  exact badOperand_of_working h

/-- The instruction completes with a change of its world. -/
theorem settle_complete {s f : State} {i : Issue} {size : Nat} {reads : List (BitVec 5)} (h : Working s i size reads f)
    (shadow : Bool) (g : World → World) :
    ∃ t, settleEffect i.core.toNat size shadow (.complete (modWorld f i.core.toNat g)) = t ∧ Quiet t ∧
      t = modWorld f i.core.toNat (fun w => advancePc size (g w)) := by
  refine ⟨_, rfl, ?_, modWorld_modWorld f _ g (advancePc size) i.core.isLt⟩
  exact (quiet_modWorld _ _ _).mpr ((quiet_modWorld _ _ _).mpr (quiet_of_working h))

/-- The instruction completes without a change of its world. -/
theorem settle_complete_same {s f : State} {i : Issue} {size : Nat} {reads : List (BitVec 5)} (h : Working s i size reads f)
    (shadow : Bool) :
    ∃ t, settleEffect i.core.toNat size shadow (.complete f) = t ∧ Quiet t ∧ t = modWorld f i.core.toNat (advancePc size) :=
  ⟨_, rfl, (quiet_modWorld _ _ _).mpr (quiet_of_working h), rfl⟩

/-- The instruction places PC itself. -/
theorem settle_placed {s f : State} {i : Issue} {size : Nat} {reads : List (BitVec 5)} (h : Working s i size reads f)
    (shadow : Bool) (g : World → World) :
    ∃ t, settleEffect i.core.toNat size shadow (.placed (modWorld f i.core.toNat g)) = t ∧ Quiet t ∧ t = modWorld f i.core.toNat g :=
  ⟨_, rfl, (quiet_modWorld _ _ _).mpr (quiet_of_working h), rfl⟩

/-- The instruction transfers control. -/
theorem settle_jump {s f : State} {i : Issue} {size : Nat} {reads : List (BitVec 5)} (h : Working s i size reads f)
    (shadow : Bool) (g : World → World) (target : Word) :
    ∃ t, settleEffect i.core.toNat size shadow (.jump (modWorld f i.core.toNat g) target) = t ∧ Quiet t ∧
      t = modWorld f i.core.toNat (fun w => { g w with pc := target }) := by
  refine ⟨_, rfl, ?_, modWorld_modWorld f _ g (fun w => { w with pc := target }) i.core.isLt⟩
  exact (quiet_modWorld _ _ _).mpr ((quiet_modWorld _ _ _).mpr (quiet_of_working h))

theorem settle_jump_same {s f : State} {i : Issue} {size : Nat} {reads : List (BitVec 5)} (h : Working s i size reads f)
    (shadow : Bool) (target : Word) :
    ∃ t, settleEffect i.core.toNat size shadow (.jump f target) = t ∧ Quiet t ∧
      t = modWorld f i.core.toNat (fun w => { w with pc := target }) :=
  ⟨_, rfl, (quiet_modWorld _ _ _).mpr (quiet_of_working h), rfl⟩

end Sys2Proof.TamemEffects
end

section
/-! PROOF. The predicate results of compares and predicate logic, ADDC and SUBB (R360, R364, R365, R368, R369). -/

namespace Sys2Proof.PredicateResults

open Sys2Proof.Machine Sys2Proof.TamemIssue Sys2Proof.TamemEffects

/-- An instruction that executes and completes with a change of its world. -/
theorem leads_ended {c : Instr} {s f : State} {i : Issue} {r : Reads} {decode : State → Nat → Option Nat} {g : World → World}
    (h : Executed s i 4 f)
    (hexec : exec c s = done (issue i 4 decode r (fun s n => .complete (modWorld s n g)) s))
    (hdecode : decode f i.core.toNat = none) (hreads : badReads (curWorld f i.core.toNat) r = false) :
    Leads c s (fun t => Ended f t i 4 g) := by
  have hended := ended_of_complete f i 4 (curWorld f i.core.toNat).shadow g
  refine leads_of_exec (hexec.trans ?_) hended
  rw [issue_executed h decode r _ hdecode hreads]
  exact done_quiet _ (quiet_of_ended hended (quiet_of_executed h))

/-! ### Compares -/

theorem condGe_eq (a b : Word) : condGe a b = !a.slt b := by
  by_cases h : a.toInt < b.toInt <;> simp [condGe, BitVec.slt, h] <;> omega

/-- A compare writes its condition, and with PAIR the inverse beside it. -/
theorem exec_of_compareRow {c : Instr} {i : Issue} {pd : BitVec 3} {pair : Bool} {reads : List (BitVec 5)} {v : World → Bool}
    (h : compareRow c = some (i, pd, pair, reads, v)) (s : State) : exec c s = compareOp i pd pair reads v s := by
  unfold compareRow at h
  split at h <;> cases h
  case h_5 ra rb =>
    simp only [← condGe_eq]
    rfl
  case h_12 ra k =>
    simp only [← condGe_eq]
    rfl
  all_goals rfl

theorem compare_executed {c : Instr} {s f : State} {i : Issue} {pd : BitVec 3} {pair : Bool} {reads : List (BitVec 5)}
    {v : World → Bool} (hrow : compareRow c = some (i, pd, pair, reads, v)) (h : Executed s i 4 f)
    (hreads : badOperand (curWorld f i.core.toNat) reads = false) (hpair : pair = true → pd = 2 ∨ pd = 4 ∨ pd = 6) :
    Leads c s (fun t => Ended f t i 4 (fun w =>
      if pair then writeP (pd + 1) (!v w) (writeP pd (v w) w) else writeP pd (v w) w)) := by
  have hlegal : constrained (!pair || pairable pd) f i.core.toNat = none := by
    cases pair
    · rfl
    · rcases hpair rfl with rfl | rfl | rfl <;> rfl
  exact leads_ended h (exec_of_compareRow hrow s) hlegal (by rwa [badReads_of])

/-! ### Predicate logic -/

theorem pred_executed {c : Instr} {s f : State} {i : Issue} {pd : BitVec 3} {v : World → Bool} (hrow : predRow c = some (i, pd, v))
    (h : Executed s i 4 f) (hbad : (curWorld f i.core.toNat).badP = false) :
    Leads c s (fun t => Ended f t i 4 (fun w => writeP pd (v w) w)) := by
  have hexec : ∃ reads, exec c s = predOp i pd reads v s := by
    unfold predRow at hrow
    split at hrow <;> cases hrow
    all_goals exact ⟨_, rfl⟩
  obtain ⟨reads, hexec⟩ := hexec
  exact leads_ended h hexec rfl (by simp [badReads, badOperand, hbad])

/-! ### The carry chain -/

theorem carry_executed {c : Instr} {s f : State} {i : Issue} {rd ra rb : BitVec 5} {sum : Word → Word → Bool → Word}
    {out : Word → Word → Bool → Bool} (hexec : exec c s = carryOp i rd ra rb sum out s) (h : Executed s i 4 f)
    (hreads : badOperand (curWorld f i.core.toNat) [ra, rb] = false) (hbad : (curWorld f i.core.toNat).badP = false) :
    Leads c s (fun t => Ended f t i 4 (fun w =>
      writeP 7 (out (readW w ra) (readW w rb) (readP w 7)) (writeW rd (sum (readW w ra) (readW w rb) (readP w 7)) w))) :=
  leads_ended h hexec rfl (by simp [badReads, hreads, hbad])

theorem addWith_eq (a b : Word) (c : Bool) : addWith a b c = BitVec.ofNat 32 (a.toNat + b.toNat + c.toNat) := by
  apply BitVec.eq_of_toNat_eq
  cases c <;> simp [addWith, b2n, BitVec.toNat_add]

theorem carryOut_eq (a b : Word) (c : Bool) : carryOut a b c = decide (2 ^ 32 ≤ a.toNat + b.toNat + c.toNat) := by
  cases c <;> rfl

theorem subWith_eq (a b : Word) (c : Bool) : subWith a b c = BitVec.ofInt 32 ((a.toNat : Int) - b.toNat - c.toNat) := by
  have hcast (d : Nat) (hd : d < 2) : a - b - BitVec.ofNat 32 d = BitVec.ofInt 32 ((a.toNat : Int) - b.toNat - d) := by
    apply BitVec.eq_of_toNat_eq
    simp only [BitVec.toNat_sub, BitVec.toNat_ofNat, BitVec.toNat_ofInt]
    omega
  cases c
  · exact hcast 0 (by decide)
  · exact hcast 1 (by decide)

theorem borrowOut_eq (a b : Word) (c : Bool) :
    borrowOut a b c = decide ((a.toNat : Int) - b.toNat - c.toNat < 0) := by
  have hdecide (d : Nat) : decide (a.toNat < b.toNat + d) = decide ((a.toNat : Int) - b.toNat - d < 0) := by
    rw [decide_eq_decide]
    omega
  cases c
  · exact hdecide 0
  · exact hdecide 1

/-! ### Reads after a write -/

theorem getLsbD_onePredicate : ∀ pd q : BitVec 3, (1#8 <<< pd.toNat).getLsbD q.toNat = decide (q = pd) := by
  decide

theorem readP_writeP (w : World) (pd : BitVec 3) (b : Bool) (q : BitVec 3) :
    readP (writeP pd b w) q = if q = pd ∧ q ≠ 0 then b else readP w q := by
  by_cases hpd : pd = 0
  · have hsame : writeP pd b w = w := if_pos hpd
    rw [hsame, if_neg (fun h => h.2 (h.1.trans hpd))]
  · by_cases hq : q = 0
    · simp [readP, hq]
    · have hone := getLsbD_onePredicate pd q
      have hlt : q.toNat < 8 := q.isLt
      simp only [readP, writeP, if_neg hpd, hq, decide_false, Bool.false_or, ne_eq, not_false_eq_true, and_true]
      cases b
      · simp only [Bool.false_eq_true, if_false, BitVec.getLsbD_and, BitVec.getLsbD_not, hone, hlt, decide_true, Bool.true_and]
        by_cases hqp : q = pd <;> simp [hqp]
      · simp only [if_true, BitVec.getLsbD_or, hone]
        by_cases hqp : q = pd <;> simp [hqp]

/-- Settles O32: each form completes with its write of predicates, and the carry is that of the sum in full. -/
theorem predicateResults : Obligations.PredicateResults := by
  refine ⟨?_, ?_, ?_, ?_, readP_writeP, ?_⟩
  case refine_1 => exact fun c i pd pair reads v hrow s f h hreads hpair => compare_executed hrow h hreads hpair
  case refine_2 => exact fun c i pd v hrow s f h hbad => pred_executed hrow h hbad
  case refine_3 =>
    intro i rd ra rb s f h hreads hbad
    have hled := carry_executed (c := .addc i rd ra rb) rfl h hreads hbad
    simp only [addWith_eq, carryOut_eq] at hled
    exact hled
  case refine_4 =>
    intro i rd ra rb s f h hreads hbad
    have hled := carry_executed (c := .subb i rd ra rb) rfl h hreads hbad
    simp only [subWith_eq, borrowOut_eq] at hled
    exact hled
  case refine_5 => exact fun w => rfl

end Sys2Proof.PredicateResults
end

section
/-! PROOF. MFS and MTS of the special registers (R381, R392, R393, R395, R404). -/

namespace Sys2Proof.SpecialRegisters

open Sys2Proof.Machine Sys2Proof.TamemIssue Sys2Proof.TamemEffects

/-- An instruction of a special register, by its effect. -/
theorem leads_spec {c : Instr} {s f : State} {i : Issue} {lvl : Option Nat} {reads : List (BitVec 5)} {r : Reads}
    {eff : State → Nat → Effect} {P : State → Prop} (h : SpecWorking s f i lvl reads)
    (hexec : exec c s = done (issue i 4 (specLegal lvl) r eff s)) (hreads : badReads (curWorld f i.core.toNat) r = false)
    (hp : ∃ t, settleEffect i.core.toNat 4 (curWorld s i.core.toNat).shadow (eff f i.core.toNat) = t ∧ Quiet t ∧ P t) :
    Leads c s P :=
  leads_working h.1 hexec (fun g => specLegal_unshadow lvl g i.core.isLt) h.2 hreads hp

/-! ### Reads -/

/-- The registers that `specRead` lists are read by their number, and none of them is RSTOP or XREG. -/
theorem specValue_of_mem {f : State} {n : Nat} {k : BitVec 5} {v : Word} (h : (k, v) ∈ specRead f n) :
    specValue f n k.toNat = v ∧ k.toNat ≠ 5 ∧ k.toNat ≠ 7 := by
  simp only [specRead, List.mem_cons, Prod.mk.injEq, List.not_mem_nil, or_false] at h
  rcases h with h | h | h | h | h | h | h | h | h | h
  all_goals
    obtain ⟨hk, hv⟩ := h
    rw [hk, hv]
    exact ⟨rfl, by decide, by decide⟩

/-- A loop word that is not asked for, or that is readable, does not stop the read. -/
theorem badReads_specReads {w : World} {k : BitVec 5} (hk : k.toNat ≠ 5)
    (h : ∀ j, j < 3 → k.toNat = 16 + j → w.badLoop.getLsbD j = false) : badReads w (specReads k.toNat) = false := by
  have hloops : (specReads k.toNat).loops &&& w.badLoop = 0 := by
    by_cases hin : 0x10 ≤ k.toNat ∧ k.toNat ≤ 0x12
    · obtain ⟨hlow, hhigh⟩ := hin
      have hbit := h (k.toNat - 16) (by omega) (by omega)
      simp only [specReads, hlow, hhigh, and_self, if_true]
      apply BitVec.eq_of_getLsbD_eq
      intro j hj
      by_cases hsame : j = k.toNat - 16
      · simp [hsame, hbit]
      · have hone : (1#3 <<< (k.toNat - 16)).getLsbD j = false := by
          simp only [BitVec.getLsbD_shiftLeft, BitVec.getLsbD_one]
          simp only [Bool.and_eq_false_iff, Bool.not_eq_false', decide_eq_true_eq, decide_eq_false_iff_not]
          omega
        simp [hone]
    · simp [specReads, hin]
  have hstack : (specReads k.toNat).stack = false := decide_eq_false hk
  have hwords : badOperand w (specReads k.toNat).words = false := rfl
  have hpreds : (specReads k.toNat).preds = false := rfl
  simp [badReads, hloops, hstack, hwords, hpreds]

theorem mfs_listed {s f : State} {i : Issue} {rd k : BitVec 5} {v : Word} (h : SpecWorking s f i (mfsLevel k.toNat) [])
    (hmem : (k, v) ∈ specRead f i.core.toNat)
    (hloops : ∀ j, j < 3 → k.toNat = 16 + j → (curWorld f i.core.toNat).badLoop.getLsbD j = false) :
    Leads (.mfs i rd k) s (fun t => t = modWorld f i.core.toNat (fun w => advancePc 4 (writeW rd v w))) := by
  obtain ⟨hvalue, hstack, hxreg⟩ := specValue_of_mem hmem
  refine leads_spec h rfl (badReads_specReads hstack hloops) ?_
  rw [readSpec, if_neg hstack, if_neg hxreg, hvalue]
  exact settle_complete h.1 _ (writeW rd v)

/-! ### Writes -/

theorem badLoop_advancePc (size : Nat) (w : World) : (advancePc size w).badLoop = w.badLoop := by
  have hend (v : World) : (endLevel0 v).badLoop = v.badLoop := by
    simp only [endLevel0]
    split <;> rfl
  unfold advancePc
  dsimp only
  split
  · split
    · rfl
    · split <;> simp only [hend]
  · split <;> simp only [hend]

/-- A write of the second or third loop word after PC has advanced. -/
theorem writeLw_advancePc (v : Word) (w : World) :
    writeLw1 v (advancePc 4 w) = { advancePc 4 w with lw1 := v, badLoop := w.badLoop &&& 5 } ∧
    writeLw2 v (advancePc 4 w) = { advancePc 4 w with lw2 := v &&& 0x00FFFFFF, badLoop := w.badLoop &&& 3 } := by
  rw [← badLoop_advancePc 4 w]
  exact ⟨rfl, rfl⟩

/-- What each write of a special register leaves. -/
theorem mts_listed {s f : State} {i : Issue} {ra k : BitVec 5} {g : World → World}
    (h : SpecWorking s f i (mtsLevel k.toNat) [ra]) (hmem : (k, g) ∈ specWrite (readW (curWorld f i.core.toNat) ra)) :
    Leads (.mts i k ra) s (fun t => t = modWorld f i.core.toNat g) := by
  refine leads_spec h rfl (badReads_of_working h.1) ?_
  simp only [specWrite, List.mem_cons, Prod.mk.injEq, List.not_mem_nil, or_false] at hmem
  rcases hmem with hmem | hmem | hmem | hmem | hmem | hmem | hmem | hmem | hmem
  all_goals
    obtain ⟨hk, hg⟩ := hmem
    rw [hk, hg]
  · exact settle_complete h.1 _ _
  · exact settle_complete h.1 _ _
  · exact settle_complete h.1 _ _
  · exact settle_complete_same h.1 _
  · exact settle_complete_same h.1 _
  · exact settle_complete_same h.1 _
  · exact settle_complete h.1 _ (pushStack (readW (curWorld f i.core.toNat) ra))
  · rw [← funext (fun w => (writeLw_advancePc (readW (curWorld f i.core.toNat) ra) w).1)]
    exact settle_placed h.1 _ _
  · rw [← funext (fun w => (writeLw_advancePc (readW (curWorld f i.core.toNat) ra) w).2)]
    exact settle_placed h.1 _ _

/-! ### RSTOP and XREG (R404) -/

/-- The core that completes after a change of itself. -/
theorem coreAt_advanced (f : State) {n : Nat} (hn : n < 4) (k : Core) (size : Nat) :
    coreAt (modWorld (setCore f n k) n (advancePc size)) n = k.put k.signalbox (advancePc size (worldOf k k.signalbox)) := by
  rw [modWorld, putWorld, coreAt_setCore_same _ _ _ hn, curWorld, curSig, coreAt_setCore_same _ _ _ hn]

theorem put_xsel (k : Core) (sig : Bool) (w : World) : (k.put sig w).xsel = k.xsel := by
  cases sig <;> rfl

/-- The newest return address, or 0, taken off into a register. -/
theorem settle_popTop {s f : State} {i : Issue} {reads : List (BitVec 5)} (h : Working s i 4 reads f) (shadow : Bool) (rd : BitVec 5) :
    ∃ t, settleEffect i.core.toNat 4 shadow (popTop f i.core.toNat rd) = t ∧ Quiet t ∧ t = modWorld f i.core.toNat (fun w =>
      advancePc 4 (writeW rd (w.rstack.headD 0) { w with rstack := w.rstack.tail })) := by
  have hpop : popTop f i.core.toNat rd =
      .complete (modWorld f i.core.toNat (fun w => writeW rd (w.rstack.headD 0) { w with rstack := w.rstack.tail })) := by
    unfold popTop modWorld
    generalize curWorld f i.core.toNat = w
    obtain ⟨_, _, _, rstack⟩ := w
    cases rstack <;> rfl
  rw [hpop]
  exact settle_complete h shadow _

theorem xregValue_eq (k : Core) : xregValue k =
    if k.xsel.getLsbD 5 then BitVec.ofNat 32 (readP k.plat (k.xsel.setWidth 3)).toNat else readW k.plat (k.xsel.setWidth 5) := by
  unfold xregValue
  cases readP k.plat (k.xsel.setWidth 3) <;> rfl

theorem settle_readX {s f : State} {i : Issue} {reads : List (BitVec 5)} (h : Working s i 4 reads f) (shadow : Bool) (rd : BitVec 5)
    (hgood : xregBad (coreAt f i.core.toNat) = false) :
    ∃ t, settleEffect i.core.toNat 4 shadow (readX f i.core.toNat rd) = t ∧ Quiet t ∧
      let k := coreAt f i.core.toNat
      t = modWorld f i.core.toNat (fun w => advancePc 4 (writeW rd
        (if k.xsel.getLsbD 5 then BitVec.ofNat 32 (readP k.plat (k.xsel.setWidth 3)).toNat
         else readW k.plat (k.xsel.setWidth 5)) w)) := by
  simp only [← xregValue_eq]
  rw [readX, if_neg (by simp [hgood])]
  exact settle_complete h shadow _

/-- A write of the Platform register that XSEL selects, from the Signalbox world. -/
theorem settle_writeX {s f : State} {i : Issue} {reads : List (BitVec 5)} (h : Working s i 4 reads f) (shadow : Bool) (ra : BitVec 5)
    (hsig : curSig f i.core.toNat = true) :
    ∃ t, settleEffect i.core.toNat 4 shadow (writeX f i.core.toNat ra) = t ∧ Quiet t ∧
      coreAt t i.core.toNat = { xregPut (readW (coreAt f i.core.toNat).sig ra) (coreAt f i.core.toNat) with
        sig := advancePc 4 (coreAt f i.core.toNat).sig } ∧
      (∀ j, j ≠ i.core.toNat → coreAt t j = coreAt f j) ∧ t = { f with cores := t.cores } := by
  have hn : i.core.toNat < 4 := i.core.isLt
  have hworld : curWorld f i.core.toNat = (coreAt f i.core.toNat).sig := by
    rw [curWorld, hsig]
    rfl
  refine ⟨_, rfl, (show Quiet f from quiet_of_working h), ?_, ?_, rfl⟩
  · have hbox : (coreAt f i.core.toNat).signalbox = true := hsig
    have hcore := coreAt_advanced f hn (xregPut (readW (curWorld f i.core.toNat) ra) (coreAt f i.core.toNat)) 4
    rw [hworld] at hcore
    refine Eq.trans ?_ hcore |>.trans ?_
    · rw [← hworld]
      rfl
    · simp only [xregPut, hbox, Core.put, worldOf, if_true]
  · intro j hj
    simp only [settleEffect, writeX, modWorld, putWorld]
    rw [coreAt_setCore_other _ _ _ _ hj, coreAt_setCore_other _ _ _ _ hj]

theorem badReads_stackReads {w : World} (h : badTop w = false) : badReads w (stackReads []) = false := by
  simp [badReads, stackReads, badOperand, h]

theorem curSig_of_signalboxLevel {f : State} {n : Nat} (h : specLegal (some 2) f n = none) : curSig f n = true := by
  by_contra hplat
  simp [specLegal, hplat] at h

/-- Settles O37: each access is an effect that completes or places PC, in a world whose reads are readable. -/
theorem specialRegisters : Obligations.SpecialRegisters := by
  refine ⟨?_, ?_, ?_, ?_, ?_, ?_, ?_⟩
  case refine_1 => exact fun s f i rd k v h hmem hloops => mfs_listed h hmem hloops
  case refine_2 => exact fun s f i ra k g h hmem => mts_listed h hmem
  case refine_3 =>
    intro s f i ra h
    have hn : i.core.toNat < 4 := i.core.isLt
    refine leads_spec h rfl (badReads_of_working h.1) ⟨_, rfl, (show Quiet f from quiet_of_working h.1), ?_, ?_, rfl⟩
    · exact (congrArg Core.xsel (coreAt_advanced f hn _ 4)).trans (put_xsel _ _ _)
    · refine (curWorld_modWorld _ _ _ hn).trans (congrArg (advancePc 4) ?_)
      rw [curWorld, curSig, coreAt_setCore_same _ _ _ hn]
      rfl
  case refine_4 =>
    intro s f i rd c hc h htop
    simp only [List.mem_cons, List.not_mem_nil, or_false] at hc
    rcases hc with rfl | rfl
    · exact leads_working h.1 rfl (fun g => supervisor_unshadow g i.core.isLt) h.2 (badReads_stackReads htop) (settle_popTop h.1 _ rd)
    · exact leads_spec h rfl (by simp [badReads, specReads, badOperand, htop]) (settle_popTop h.1 _ rd)
  case refine_5 =>
    intro s f i ra h
    exact leads_working h.1 rfl (fun g => supervisor_unshadow g i.core.isLt) h.2 (badReads_of_working h.1) (settle_complete h.1 _ _)
  case refine_6 =>
    intro s f i rd c hc h hgood
    simp only [List.mem_cons, List.not_mem_nil, or_false] at hc
    rcases hc with rfl | rfl
    · exact leads_spec h rfl (badReads_of_working h.1) (settle_readX h.1 _ rd hgood)
    · exact leads_spec h rfl (by simp [badReads, specReads, badOperand]) (settle_readX h.1 _ rd hgood)
  case refine_7 =>
    intro s f i ra c hc h
    have hsig := curSig_of_signalboxLevel h.2
    simp only [List.mem_cons, List.not_mem_nil, or_false] at hc
    rcases hc with rfl | rfl
    · exact leads_spec h rfl (badReads_of_working h.1) (settle_writeX h.1 _ ra hsig)
    · exact leads_spec h rfl (badReads_of_working h.1) (settle_writeX h.1 _ ra hsig)

end Sys2Proof.SpecialRegisters
end

section
/-! PROOF. Branches, calls, returns and hardware loops (R375 to R380). -/

namespace Sys2Proof.ControlForms

open Sys2Proof.Machine Sys2Proof.TamemIssue Sys2Proof.TamemEffects

/-! ### Jumps and calls -/

theorem constrained_of_aligned {a : Word} (h : a &&& 3 = 0) (s : State) (n : Nat) :
    constrained (decide (a &&& 3 = 0)) s n = none := by
  rw [constrained, decide_eq_true h]
  rfl

theorem jumpTo_aligned {a : Word} (h : a &&& 3 = 0) (s : State) : jumpTo s a = .jump s a := if_neg (not_not.mpr h)

theorem jumpTo_misaligned {a : Word} (h : a &&& 3 ≠ 0) (s : State) : jumpTo s a = .fault s (Trap.at 0x03 a) := if_pos h

theorem callTo_pushed {s : State} {n size : Nat} {a : Word} (h : a &&& 3 = 0)
    (hroom : (curWorld s n).rstack.length < 24 ∨ (curWorld s n).rstrap = false) :
    callTo s n size a = .jump (modWorld s n (fun w => pushStack (w.pc + BitVec.ofNat 32 size) w)) a := by
  have hfull : ¬ (stackFull (curWorld s n) = true ∧ (curWorld s n).rstrap = true) := by
    rintro ⟨hfull, htrap⟩
    rcases hroom with hroom | hroom
    · simp only [stackFull, decide_eq_true_eq] at hfull
      omega
    · simp [hroom] at htrap
  rw [callTo, if_neg (not_not.mpr h), if_neg hfull]
  rfl

theorem callTo_full {s : State} {n size : Nat} {a : Word} (h : a &&& 3 = 0) (hfull : 24 ≤ (curWorld s n).rstack.length)
    (htrap : (curWorld s n).rstrap = true) : callTo s n size a = .fault s (Trap.plain 0x08) := by
  have hboth : stackFull (curWorld s n) = true ∧ (curWorld s n).rstrap = true := ⟨decide_eq_true hfull, htrap⟩
  rw [callTo, if_neg (not_not.mpr h), if_pos hboth]

/-- An instruction that jumps to an aligned target. -/
theorem jump_row {c : Instr} {s f : State} {i : Issue} {size : Nat} {reads : List (BitVec 5)} {target : Word}
    (hrow : jumpRow (curWorld f i.core.toNat) c = some (i, size, reads, target, false)) (h : Working s i size reads f)
    (ha : target &&& 3 = 0) : Leads c s (fun t => Jumped f t i (fun w => w) target) := by
  unfold jumpRow at hrow
  split at hrow <;> cases hrow
  · exact leads_working h rfl (fun _ => rfl) rfl (badReads_of_working h) (settle_jump_same h _ _)
  · refine leads_working h rfl (fun _ => rfl) rfl (badReads_of_working h) ?_
    rw [jumpTo_aligned ha]
    exact settle_jump_same h _ _
  · exact leads_working h rfl (fun _ => rfl) (constrained_of_aligned ha _ _) (badReads_of_working h) (settle_jump_same h _ _)

/-- A call, by what `callTo` gives. -/
theorem call_row {c : Instr} {s f : State} {i : Issue} {size : Nat} {reads : List (BitVec 5)} {target : Word} {P : State → Prop}
    (hrow : jumpRow (curWorld f i.core.toNat) c = some (i, size, reads, target, true)) (h : Working s i size reads f)
    (ha : target &&& 3 = 0)
    (hp : P (after (settleEffect i.core.toNat size (curWorld s i.core.toNat).shadow (callTo f i.core.toNat size target)))) :
    Leads c s P := by
  unfold jumpRow at hrow
  split at hrow <;> cases hrow
  · exact leads_after h rfl (fun _ => rfl) rfl (badReads_of_working h) hp
  · exact leads_after h rfl (fun _ => rfl) rfl (badReads_of_working h) hp
  · exact leads_after h rfl (fun _ => rfl) (constrained_of_aligned ha _ _) (badReads_of_working h) hp

theorem call_pushes {c : Instr} {s f : State} {i : Issue} {size : Nat} {reads : List (BitVec 5)} {target : Word}
    (hrow : jumpRow (curWorld f i.core.toNat) c = some (i, size, reads, target, true)) (h : Working s i size reads f)
    (ha : target &&& 3 = 0)
    (hroom : (curWorld f i.core.toNat).rstack.length < 24 ∨ (curWorld f i.core.toNat).rstrap = false) :
    Leads c s (fun t => Jumped f t i (fun w => pushStack (w.pc + BitVec.ofNat 32 size) w) target) := by
  refine call_row hrow h ha ?_
  rw [callTo_pushed ha hroom]
  obtain ⟨t, hsettle, hquiet, hjumped⟩ :=
    settle_jump h (curWorld s i.core.toNat).shadow (fun w => pushStack (w.pc + BitVec.ofNat 32 size) w) target
  rw [hsettle, after_quiet hquiet]
  exact hjumped

/-! ### The return stack -/

/-- The place of the stack that a push writes is the newest one. -/
theorem badTop_pushStack (v : Word) (w : World) : badTop (pushStack v w) = false := by
  have hlen : (pushStack v w).rstack.length - 1 = min w.rstack.length 23 := by
    simp only [pushStack, List.length_take, List.length_cons]
    omega
  have hbit : (pushStack v w).badStack.getLsbD (min w.rstack.length 23) = false := by
    have hlt : min w.rstack.length 23 < 24 := by omega
    simp only [pushStack, BitVec.getLsbD_and, BitVec.getLsbD_not, BitVec.getLsbD_shiftLeft, hlt]
    simp
  rw [badTop, hlen, hbit, Bool.and_false]

theorem badStack_pushStack {v : Word} {w : World} {k : Nat} (hlen : w.rstack.length < 24) (hk : k < w.rstack.length) :
    (pushStack v w).badStack.getLsbD k = w.badStack.getLsbD k := by
  have hmin : min w.rstack.length 23 = w.rstack.length := by omega
  have hbelow : k < 24 := by omega
  simp only [pushStack, if_neg (Nat.not_le.mpr hlen), hmin, BitVec.getLsbD_and, BitVec.getLsbD_not, BitVec.getLsbD_shiftLeft]
  simp [hk, hbelow]

theorem badReads_stackReads (w : World) : badReads w (stackReads []) = badTop w := by
  simp [badReads, stackReads, badOperand]

theorem controlTransfers : Sys2Proof.Claims.ControlTransfers := by
  refine ⟨?_, ?_, ?_, ?_, ?_, ?_, ?_, ?_⟩
  case refine_1 => exact fun c s f i size reads target hrow h ha => jump_row hrow h ha
  case refine_2 => exact fun c s f i size reads target hrow h ha hroom => call_pushes hrow h ha hroom
  case refine_3 => exact fun v w => ⟨rfl, badTop_pushStack v w, fun hlen k hk => badStack_pushStack hlen hk, rfl⟩
  case refine_4 =>
    intro c s f i size reads target hrow h ha hfull htrap
    refine call_row hrow h ha ?_
    rw [callTo_full ha hfull htrap]
    rfl
  case refine_5 =>
    intro s f i ra h ha
    refine leads_after h rfl (fun _ => rfl) rfl (badReads_of_working h) ?_
    rw [jumpTo_misaligned ha]
    rfl
  case refine_6 =>
    intro s g i h htop
    exact leads_unreadable h rfl rfl ((badReads_stackReads _).trans htop)
  case refine_7 =>
    intro s f i a l h htop hstack ha
    have hpop : modWorld f i.core.toNat dropTop = modWorld f i.core.toNat (fun w => { w with rstack := l }) :=
      modWorld_congr (by simp only [dropTop, hstack, List.drop_succ_cons, List.drop_zero])
    refine leads_working h rfl (fun _ => rfl) rfl ((badReads_stackReads _).trans htop) ?_
    simp only [hstack, ne_eq, ha, not_true_eq_false, if_false, hpop]
    exact settle_jump h _ _ _
  case refine_8 =>
    intro s f i h hstack
    have htop : badTop (curWorld f i.core.toNat) = false := by simp [badTop, hstack]
    refine leads_after h rfl (fun _ => rfl) rfl ((badReads_stackReads _).trans htop) ?_
    simp only [hstack]
    rfl

/-! ### Hardware loops -/

theorem badReads_loopReads {s f : State} {i : Issue} {reads : List (BitVec 5)} (h : Working s i 4 reads f)
    (hloop : (curWorld f i.core.toNat).badLoop = 0) :
    badReads (curWorld f i.core.toNat) { words := reads, preds := false, loops := 7, stack := false } = false := by
  simp [badReads, badOperand_of_working h, hloop]

theorem advancePc_past {w : World} {size : Nat} (h0 : (act0 w && containsWord w.pc size (loopEnd0 w)) = false)
    (h1 : (act1 w && containsWord w.pc size (loopEnd1 w)) = false) :
    advancePc size w = { w with pc := w.pc + BitVec.ofNat 32 size } := by
  simp [advancePc, h0, h1]

theorem act1_of_act0 {w : World} (h : act0 w = false) : act1 w = false := by
  simp [act1, h]

theorem bitsOf_low (a : Word) : bitsOf a 0 16 = a.toNat % 65536 := by simp [bitsOf]

theorem hardwareLoops : Sys2Proof.Claims.HardwareLoops := by
  refine ⟨?_, ?_, ?_, ?_, ?_, ?_, ?_, ?_, ?_, ?_⟩
  case refine_1 =>
    intro s f i wc len h hloop hcount
    refine leads_working h rfl (fun _ => rfl) rfl (badReads_loopReads h hloop) ?_
    have hzero : bitsOf (readW (curWorld f i.core.toNat) wc) 0 16 = 0 := by simpa [bitsOf] using hcount
    simp only [hzero, if_true]
    exact settle_jump_same h _ _
  case refine_2 =>
    intro s f i wc len h hloop hcount hact
    refine leads_working h rfl (fun _ => rfl) rfl (badReads_loopReads h hloop) ?_
    simp only [bitsOf_low, hcount, hact, Bool.not_false, if_true, if_false]
    rw [modWorld_congr (k := fun w => { w with
      pc := w.pc + 4, lw0 := (w.pc + 4) ||| 1, lw1 := withBits w.lw1 0 16 ((readW w wc).toNat % 65536)
      lw2 := withBits w.lw2 0 8 len.toNat }) rfl]
    exact settle_placed h _ _
  case refine_3 =>
    intro s f i wc len h hloop hcount hact0 hact1
    refine leads_after h rfl (fun _ => rfl) rfl (badReads_loopReads h hloop) ?_
    simp only [bitsOf_low, hcount, hact0, hact1, Bool.not_true, Bool.false_eq_true, false_and, if_false]
    rfl
  case refine_4 =>
    intro s f i wc len h hloop hcount hact0 hact1 hinside
    refine leads_working h rfl (fun _ => rfl) rfl (badReads_loopReads h hloop) ?_
    simp only [bitsOf_low, hcount, hact0, hact1, hinside, Bool.not_true, Bool.not_false, Bool.false_eq_true, and_self, if_true,
      if_false]
    rw [modWorld_congr (k := fun w => { w with
      lw0 := w.lw0 ||| 2, lw1 := withBits w.lw1 16 16 ((readW w wc).toNat % 65536)
      lw2 := withBits (withBits w.lw2 8 8 len.toNat) 16 8 ((w.pc + 4 - (w.lw0 &&& 0xFFFFFFFC)).toNat / 4) }) rfl]
    exact settle_complete h _ _
  case refine_5 =>
    intro s f i h hloop
    exact leads_working h rfl (fun _ => rfl) rfl (badReads_loopReads h hloop) (settle_complete h _ breakLoop)
  case refine_6 =>
    intro w size h0
    exact advancePc_past (by simp [h0]) (by simp [act1_of_act0 h0])
  case refine_7 =>
    intro w size h0 hend0 hend1
    refine advancePc_past (by simp [hend0]) ?_
    cases h1 : act1 w
    · rfl
    · simp [hend1 h1]
  case refine_8 =>
    intro w size h0 h1 hend hcount
    have hmore : 1 < bitsOf w.lw1 0 16 := hcount
    simp [advancePc, h0, h1, hend, endLevel0, hmore, loopStart0]
  case refine_9 =>
    intro w size h0 h1 hend hcount
    simp [advancePc, h0, h1, hend, endLevel0, hcount]
  case refine_10 =>
    intro w size h1 hend hcount
    have hmore : 1 < bitsOf w.lw1 16 16 := hcount
    simp [advancePc, h1, hend, hmore]

/-- Settles O35: each form is an effect that jumps, places or completes, or takes its exception. -/
theorem controlForms : Obligations.ControlForms := ⟨controlTransfers, hardwareLoops⟩

end Sys2Proof.ControlForms
end

section
/-! PROOF. SIGF, WAITF, WAITT and BAR (R374, R382, R383): a signal changes wake bits only, and a wait ends with its results. -/

namespace Sys2Proof.WaitsAndSignals

open Sys2Proof.Machine Sys2Proof.TamemIssue Sys2Proof.TamemEffects Sys2Proof.LockedRoutes

/-! ### One core changes -/

/-- Core `n` is all that changed. -/
def CoreOnly (s t : State) (n : Nat) : Prop := (∀ k, k ≠ n → coreAt t k = coreAt s k) ∧ t = { s with cores := t.cores }

theorem CoreOnly.trans {s t u : State} {n : Nat} (h : CoreOnly s t n) (k : CoreOnly t u n) : CoreOnly s u n := by
  obtain ⟨hother, hstate⟩ := h
  obtain ⟨kother, kstate⟩ := k
  refine ⟨fun j hj => (kother j hj).trans (hother j hj), ?_⟩
  rw [kstate, hstate]

theorem CoreOnly.quiet {s t : State} {n : Nat} (h : CoreOnly s t n) (hq : Quiet s) : Quiet t := by
  rw [h.2]
  exact hq

theorem coreOnly_setCore (s : State) (n : Nat) (c : Core) : CoreOnly s (setCore s n c) n :=
  ⟨fun k hk => coreAt_setCore_other s n k c hk, rfl⟩

theorem coreOnly_modWorld (s : State) (n : Nat) (g : World → World) : CoreOnly s (modWorld s n g) n := coreOnly_setCore s n _

/-- A change of the fields of a core beside its worlds leaves the current world. -/
theorem curWorld_setCore (s : State) {n : Nat} (hn : n < 4) (c : Core)
    (h : c = { coreAt s n with wake := c.wake, wait := c.wait }) : curWorld (setCore s n c) n = curWorld s n := by
  rw [curWorld, curSig, coreAt_setCore_same s n c hn, h]
  rfl

theorem put_wake (c : Core) (sig : Bool) (w : World) : (c.put sig w).wake = c.wake := by
  cases sig <;> rfl

theorem put_wait (c : Core) (sig : Bool) (w : World) : (c.put sig w).wait = c.wait := by
  cases sig <;> rfl

theorem wake_modWorld (s : State) {n : Nat} (hn : n < 4) (g : World → World) :
    (coreAt (modWorld s n g) n).wake = (coreAt s n).wake := by
  rw [modWorld, putWorld, coreAt_setCore_same _ _ _ hn, put_wake]

theorem wait_modWorld (s : State) {n : Nat} (hn : n < 4) (g : World → World) :
    (coreAt (modWorld s n g) n).wait = (coreAt s n).wait := by
  rw [modWorld, putWorld, coreAt_setCore_same _ _ _ hn, put_wait]

/-! ### Taking the wake bits, ending a wait -/

theorem coreOnly_takeWake (s : State) (n : Nat) (rd : BitVec 5) : CoreOnly s (takeWake s n rd) n :=
  (coreOnly_modWorld s n _).trans (coreOnly_setCore _ n _)

theorem curWorld_takeWake (s : State) {n : Nat} (hn : n < 4) (rd : BitVec 5) :
    curWorld (takeWake s n rd) n = writeW rd ((coreAt s n).wake.setWidth 32) (curWorld s n) :=
  (curWorld_setCore _ hn _ rfl).trans (curWorld_modWorld s n _ hn)

theorem wake_takeWake (s : State) {n : Nat} (hn : n < 4) (rd : BitVec 5) : (coreAt (takeWake s n rd) n).wake = 0 :=
  congrArg Core.wake (coreAt_setCore_same _ n _ hn)

theorem coreOnly_endWait (s : State) (n : Nat) : CoreOnly s (endWait s n) n :=
  (coreOnly_modWorld s n _).trans (coreOnly_setCore _ n _)

theorem curWorld_endWait (s : State) {n : Nat} (hn : n < 4) : curWorld (endWait s n) n = { curWorld s n with shadow := false } :=
  (curWorld_setCore _ hn _ rfl).trans (curWorld_unshadow s hn)

theorem wait_endWait (s : State) {n : Nat} (hn : n < 4) : (coreAt (endWait s n) n).wait = .none :=
  congrArg Core.wait (coreAt_setCore_same _ n _ hn)

theorem wake_endWait (s : State) {n : Nat} (hn : n < 4) : (coreAt (endWait s n) n).wake = (coreAt s n).wake :=
  (congrArg Core.wake (coreAt_setCore_same _ n _ hn)).trans (wake_modWorld s hn _)

theorem endLevel0_shadow (b : Bool) (w : World) : endLevel0 { w with shadow := b } = { endLevel0 w with shadow := b } := by
  unfold endLevel0
  dsimp only
  split <;> rfl

/-- The advance of PC does not read the interrupt shadow. -/
theorem advancePc_shadow (size : Nat) (b : Bool) (w : World) :
    advancePc size { w with shadow := b } = { advancePc size w with shadow := b } := by
  have hact0 : act0 { w with shadow := b } = act0 w := rfl
  have hact1 : act1 { w with shadow := b } = act1 w := rfl
  have hend0 : loopEnd0 { w with shadow := b } = loopEnd0 w := rfl
  have hend1 : loopEnd1 { w with shadow := b } = loopEnd1 w := rfl
  unfold advancePc
  simp only [hact0, hact1, hend0, hend1]
  split
  · split
    · rfl
    · split
      · exact endLevel0_shadow b { w with pc := w.pc + BitVec.ofNat 32 size, lw1 := withBits w.lw1 16 16 0, lw0 := w.lw0 &&& ~~~2#32 }
      · rfl
  · split
    · exact endLevel0_shadow b { w with pc := w.pc + BitVec.ofNat 32 size }
    · rfl

theorem waittOver_iff (s : State) (n : Nat) (d : DWord) :
    waittOver s n d = true ↔ d.toNat ≤ s.ttc.toNat ∨ (coreAt s n).wake ≠ 0 := by
  rw [waittOver, Bool.or_eq_true, decide_eq_true_iff, decide_eq_true_iff]
  rfl

theorem pairable_of {pd : BitVec 3} (h : pd = 2 ∨ pd = 4 ∨ pd = 6) : pairable pd = true := by
  rcases h with rfl | rfl | rfl <;> rfl

/-! ### Signals -/

/-- A signal to the cores of a list. -/
def signalled (s : State) (n : Nat) (mask : BitVec 4) (l : List Nat) : State :=
  l.foldl (fun t k => if mask.getLsbD k then setCore t k { coreAt t k with wake := wakeOf t k ||| (1#4 <<< n) } else t) s

theorem signalled_state (s : State) (n : Nat) (mask : BitVec 4) (l : List Nat) :
    signalled s n mask l = { s with cores := (signalled s n mask l).cores } := by
  induction l generalizing s with
  | nil => rfl
  | cons k l ih =>
    rw [signalled, List.foldl_cons]
    refine (ih _).trans ?_
    split <;> rfl

/-- A core that a signal names gains the sender's wake bit; a second signal to it changes nothing more. -/
theorem coreAt_signalled (s : State) (n : Nat) (mask : BitVec 4) (l : List Nat) (k : Nat) (hk : k < 4) :
    coreAt (signalled s n mask l) k = { coreAt s k with
      wake := if k ∈ l ∧ mask.getLsbD k = true then (coreAt s k).wake ||| (1#4 <<< n) else (coreAt s k).wake } := by
  induction l generalizing s with
  | nil => simp [signalled]
  | cons j l ih =>
    rw [signalled, List.foldl_cons]
    refine (ih _).trans ?_
    by_cases hj : k = j
    · subst hj
      cases hbit : mask.getLsbD k
      · simp [hbit]
      · simp [coreAt_setCore_same _ _ _ hk, wakeOf, BitVec.or_assoc]
    · have hother : coreAt (if mask.getLsbD j then setCore s j { coreAt s j with wake := wakeOf s j ||| (1#4 <<< n) } else s) k =
          coreAt s k := by
        split
        · exact coreAt_setCore_other _ _ _ _ hj
        · rfl
      simp [hother, hj]

theorem signalCores_eq (s : State) (n : Nat) (mask : BitVec 4) : signalCores s n mask = signalled s n mask (List.range 4) := rfl

theorem coreAt_signalCores (s : State) (n : Nat) (mask : BitVec 4) (k : Nat) (hk : k < 4) :
    coreAt (signalCores s n mask) k = { coreAt s k with
      wake := if mask.getLsbD k then (coreAt s k).wake ||| (1#4 <<< n) else (coreAt s k).wake } := by
  rw [signalCores_eq, coreAt_signalled s n mask _ k hk]
  simp [hk]

/-! ### The instructions -/

theorem sigf_signals (s f : State) (i : Issue) (mask : BitVec 4) (h : Working s i 4 [] f) : Leads (.sigf i mask) s (fun t =>
    (∀ k, k < 4 → (coreAt t k).wake =
      if mask.getLsbD k then (coreAt f k).wake ||| (1#4 <<< i.core.toNat) else (coreAt f k).wake) ∧
    curWorld t i.core.toNat = advancePc 4 (curWorld f i.core.toNat) ∧
    (∀ k, k < 4 → coreAt t k = { coreAt f k with wake := (coreAt t k).wake, plat := (coreAt t k).plat, sig := (coreAt t k).sig }) ∧
    (∀ k, k ≠ i.core.toNat → (coreAt t k).plat = (coreAt f k).plat ∧ (coreAt t k).sig = (coreAt f k).sig) ∧
    t = { f with cores := t.cores }) := by
  have hn : i.core.toNat < 4 := i.core.isLt
  set n := i.core.toNat with hndef
  set u := signalCores f n mask with hu
  have hstate : u = { f with cores := u.cores } := signalled_state f n mask _
  have hcore := coreAt_signalCores f n mask
  rw [← hu] at hcore
  have hsig : curSig u n = curSig f n := by rw [curSig, hcore n hn]; rfl
  have hworld : curWorld u n = curWorld f n := by rw [curWorld, hsig, hcore n hn]; rfl
  have hquiet : Quiet u := by
    rw [hstate]
    exact (show Quiet f from quiet_of_working h)
  refine leads_working h rfl (fun _ => rfl) rfl (badReads_of_working h)
    ⟨modWorld u n (advancePc 4), rfl, hquiet, fun k hk => ?_, ?_, fun k hk => ?_, fun k hk => ?_, ?_⟩
  · have hwake : (coreAt (modWorld u n (advancePc 4)) k).wake = (coreAt u k).wake := by
      by_cases hkn : k = n
      · rw [hkn, wake_modWorld u hn]
      · rw [(coreOnly_modWorld u n _).1 k hkn]
    rw [hwake, hcore k hk]
  · rw [curWorld_modWorld u n _ hn, hworld]
  · by_cases hkn : k = n
    · rw [hkn, modWorld, putWorld, coreAt_setCore_same _ _ _ hn, hcore n hn]
      cases curSig u n <;> rfl
    · rw [(coreOnly_modWorld u n _).1 k hkn, hcore k hk]
  · rw [(coreOnly_modWorld u n _).1 k hk]
    by_cases hlt : k < 4
    · rw [hcore k hlt]
      exact ⟨rfl, rfl⟩
    · have hout (v : State) : coreAt v k = Core.reset := by simp [coreAt, hlt]
      rw [hout, hout]
      exact ⟨rfl, rfl⟩
  · rw [(coreOnly_modWorld u n _).2, hstate]

theorem waitf_takes (s f : State) (i : Issue) (rd : BitVec 5) (h : Working s i 4 [] f) (hwake : (coreAt f i.core.toNat).wake ≠ 0) :
    Leads (.waitf i rd) s (fun t =>
      curWorld t i.core.toNat = advancePc 4 (writeW rd ((coreAt f i.core.toNat).wake.setWidth 32) (curWorld f i.core.toNat)) ∧
      (coreAt t i.core.toNat).wake = 0 ∧ (∀ k, k ≠ i.core.toNat → coreAt t k = coreAt f k) ∧ t = { f with cores := t.cores }) := by
  have hn : i.core.toNat < 4 := i.core.isLt
  have honly := (coreOnly_takeWake f i.core.toNat rd).trans (coreOnly_modWorld _ _ (advancePc 4))
  refine leads_working h rfl (fun _ => rfl) rfl (badReads_of_working h) ?_
  have hwakes : ¬ wakeOf f i.core.toNat = 0 := hwake
  rw [if_neg hwakes]
  refine ⟨_, rfl, honly.quiet (quiet_of_working h), ?_, ?_, honly⟩
  · exact (curWorld_modWorld _ _ _ hn).trans (congrArg _ (curWorld_takeWake f hn rd))
  · exact (wake_modWorld _ hn _).trans (wake_takeWake f hn rd)

/-- A wait begins: PC and the interrupt shadow stay. -/
theorem settle_stay {s f : State} {i : Issue} {reads : List (BitVec 5)} (h : Working s i 4 reads f) (shadow : Bool) (w : Wait) :
    ∃ t, settleEffect i.core.toNat 4 shadow (.stay (setWait f i.core.toNat w)) = t ∧ Quiet t ∧
      t = modWorld (setCore f i.core.toNat { coreAt f i.core.toNat with wait := w }) i.core.toNat
        (fun v => { v with shadow := shadow }) :=
  ⟨_, rfl, (show Quiet f from quiet_of_working h), rfl⟩

theorem waitfWake_takes (s : State) (c : BitVec 2) (rd : BitVec 5) (hq : Quiet s) (hrun : running s c.toNat = true)
    (hwait : (coreAt s c.toNat).wait = .waitf rd) (hwake : (coreAt s c.toNat).wake ≠ 0) : Leads (.waitfWake c) s (fun t =>
      curWorld t c.toNat =
        { advancePc 4 (writeW rd ((coreAt s c.toNat).wake.setWidth 32) (curWorld s c.toNat)) with shadow := false } ∧
      (coreAt t c.toNat).wake = 0 ∧ (coreAt t c.toNat).wait = .none ∧ (∀ k, k ≠ c.toNat → coreAt t k = coreAt s k) ∧
      t = { s with cores := t.cores }) := by
  have hn : c.toNat < 4 := c.isLt
  have honly := ((coreOnly_takeWake s c.toNat rd).trans (coreOnly_modWorld _ _ (advancePc 4))).trans (coreOnly_endWait _ c.toNat)
  have hquiet := honly.quiet hq
  refine leads_of_exec (t := endWait (modWorld (takeWake s c.toNat rd) c.toNat (advancePc 4)) c.toNat) ?_
    ⟨?_, ?_, wait_endWait _ hn, honly⟩
  · have hexec : exec (.waitfWake c) s = execWaitfWake c s := rfl
    rw [hexec, execWaitfWake]
    simp only [hwait]
    have hwakes : wakeOf s c.toNat ≠ 0 := hwake
    rw [if_pos (by rw [hrun, decide_eq_true hwakes]; rfl)]
    exact done_quiet _ hquiet
  · rw [curWorld_endWait _ hn, curWorld_modWorld _ _ _ hn, curWorld_takeWake s hn]
  · rw [wake_endWait _ hn, wake_modWorld _ hn, wake_takeWake s hn]

theorem waittComplete_ends (s : State) (c : BitVec 2) (pd : BitVec 3) (d : DWord) (hq : Quiet s) (hrun : running s c.toNat = true)
    (hwait : (coreAt s c.toNat).wait = .waitt pd d) (hover : d.toNat ≤ s.ttc.toNat ∨ (coreAt s c.toNat).wake ≠ 0) :
    Leads (.waittComplete c) s (fun t =>
      curWorld t c.toNat = { advancePc 4 (writeP (pd + 1) (decide ((coreAt s c.toNat).wake ≠ 0))
        (writeP pd (decide (d.toNat ≤ s.ttc.toNat)) (curWorld s c.toNat))) with shadow := false } ∧
      (coreAt t c.toNat).wait = .none ∧ (coreAt t c.toNat).wake = (coreAt s c.toNat).wake ∧
      (∀ k, k ≠ c.toNat → coreAt t k = coreAt s k) ∧ t = { s with cores := t.cores }) := by
  have hn : c.toNat < 4 := c.isLt
  have honly := ((coreOnly_modWorld s c.toNat (writePair pd (decide (d.toNat ≤ s.ttc.toNat)) (decide (wakeOf s c.toNat ≠ 0)))).trans
    (coreOnly_endWait _ c.toNat)).trans (coreOnly_modWorld _ _ (advancePc 4))
  have hquiet := honly.quiet hq
  refine leads_of_exec (t := modWorld (endWait (waittDone s c.toNat pd d) c.toNat) c.toNat (advancePc 4)) ?_
    ⟨?_, ?_, ?_, honly⟩
  · have hexec : exec (.waittComplete c) s = execWaittComplete c s := rfl
    rw [hexec, execWaittComplete]
    simp only [hwait]
    rw [if_pos (by simp only [hrun, Bool.true_and, waittOver_iff]; exact hover)]
    exact done_quiet _ hquiet
  · rw [curWorld_modWorld _ _ _ hn, curWorld_endWait _ hn, waittDone, curWorld_modWorld _ _ _ hn, advancePc_shadow]
    rfl
  · rw [wait_modWorld _ hn, wait_endWait _ hn]
  · rw [wake_modWorld _ hn, wake_endWait _ hn, waittDone, wake_modWorld _ hn]

/-- Settles O36: each instruction is an effect that completes or waits, and each wake ends a wait with its results. -/
theorem waitsAndSignals : Obligations.WaitsAndSignals := by
  refine ⟨sigf_signals, waitf_takes, ?_, waitfWake_takes, ?_, ?_, waittComplete_ends, ?_⟩
  case refine_1 =>
    intro s f i rd h hwake
    refine leads_working h rfl (fun _ => rfl) rfl (badReads_of_working h) ?_
    have hnone : wakeOf f i.core.toNat = 0 := hwake
    rw [if_pos hnone]
    exact settle_stay h _ _
  case refine_2 =>
    intro s f i pd ra h heven hpd n d hover
    have hlegal : constrained (decide (ra.toNat % 2 = 0) && pairable pd) f i.core.toNat = none := by
      rw [decide_eq_true heven, pairable_of hpd]
      rfl
    refine leads_working h rfl (fun _ => rfl) hlegal (badReads_of_working h) ?_
    have hdone : waittOver f i.core.toNat (deadline (curWorld f i.core.toNat) ra) = true := (waittOver_iff f n d).mpr hover
    simp only [hdone, if_true]
    exact settle_complete h _ _
  case refine_3 =>
    intro s f i pd ra h heven hpd n d hlate hwake
    have hlegal : constrained (decide (ra.toNat % 2 = 0) && pairable pd) f i.core.toNat = none := by
      rw [decide_eq_true heven, pairable_of hpd]
      rfl
    have hover : ¬ waittOver f i.core.toNat (deadline (curWorld f i.core.toNat) ra) = true := by
      rw [waittOver_iff]
      exact fun h => h.elim (Nat.not_le.mpr hlate) (fun hne => hne hwake)
    refine leads_working h rfl (fun _ => rfl) hlegal (badReads_of_working h) ?_
    simp only [if_neg hover]
    exact settle_stay h _ _
  case refine_4 => exact fun s f i h => leads_working h rfl (fun _ => rfl) rfl (badReads_of_working h) (settle_complete_same h _)

end Sys2Proof.WaitsAndSignals
end

section
/-! PROOF. When an instruction executes, is skipped, or is an exception (R361, R365 to R367): each instruction of `issueRow` goes
through `issue`, with the decoding that the row gives. -/

namespace Sys2Proof.IssueRules

open Sys2Proof.Machine Sys2Proof.TamemIssue Sys2Proof.TamemEffects Sys2Proof.PredicateResults

/-- An instruction goes through `issue`, and in a world of this kind its decoding gives `x`. -/
def Issues (sig sup : Bool) (c : Instr) (i : Issue) (size : Nat) (x : Option Nat) : Prop :=
  ∃ decode reads eff, (∀ s, exec c s = done (issue i size decode reads eff s)) ∧
    ∀ f, curSig f i.core.toNat = sig → (curWorld f i.core.toNat).level = sup → decode f i.core.toNat = x

theorem issues_legal {sig sup : Bool} {c : Instr} {i : Issue} {size : Nat} {reads : Reads} {eff : State → Nat → Effect}
    (h : ∀ s, exec c s = done (issue i size legal reads eff s)) : Issues sig sup c i size none :=
  ⟨legal, reads, eff, h, fun _ _ _ => rfl⟩

theorem issues_constrained {sig sup : Bool} {c : Instr} {i : Issue} {size : Nat} {ok : Bool} {p : Prop} [Decidable p] {reads : Reads}
    {eff : State → Nat → Effect} (h : ∀ s, exec c s = done (issue i size (constrained ok) reads eff s)) (hok : ok = true ↔ p) :
    Issues sig sup c i size (if p then none else some 0x01) := by
  refine ⟨constrained ok, reads, eff, h, fun _ _ _ => ?_⟩
  exact if_congr hok rfl rfl

theorem issues_supervisor {sig sup : Bool} {c : Instr} {i : Issue} {size : Nat} {reads : Reads} {eff : State → Nat → Effect}
    (h : ∀ s, exec c s = done (issue i size supervisor reads eff s)) : Issues sig sup c i size (if sup then none else some 0x02) :=
  ⟨supervisor, reads, eff, h, fun _ _ hsup => by rw [supervisor, hsup]⟩

/-- What a special register's level asks of the world that reaches it (R392). -/
def levelRow (sig sup : Bool) : Option Nat → Option Nat
  | none => some 0x01
  | some 0 => none
  | some 1 => if sup then none else some 0x02
  | some _ => if sig && sup then none else some 0x02

theorem issues_special {sig sup : Bool} {c : Instr} {i : Issue} {size : Nat} {reads : Reads} {eff : State → Nat → Effect}
    (lvl : Option Nat) (h : ∀ s, exec c s = done (issue i size (specLegal lvl) reads eff s)) :
    Issues sig sup c i size (levelRow sig sup lvl) := by
  refine ⟨specLegal lvl, reads, eff, h, fun f hsig hsup => ?_⟩
  rcases lvl with _ | _ | _ | k
  · rfl
  · rfl
  · exact (if_congr (by rw [hsup]) rfl rfl)
  · exact (if_congr (by rw [hsig, hsup]) rfl rfl)

theorem pairable_iff (pd : BitVec 3) : pairable pd = true ↔ pd = 2 ∨ pd = 4 ∨ pd = 6 := by
  simp [pairable, or_assoc]

theorem exec_of_predRow {c : Instr} {i : Issue} {pd : BitVec 3} {v : World → Bool} (h : predRow c = some (i, pd, v)) :
    ∃ reads, ∀ s, exec c s = predOp i pd reads v s := by
  unfold predRow at h
  split at h <;> cases h
  all_goals exact ⟨_, fun _ => rfl⟩

/-- The instructions of the operation rows. -/
theorem issues_of_rows {sig sup : Bool} {c : Instr} {i : Issue} {size : Nat} {x : Option Nat}
    (h : (match wordRow c, compareRow c, predRow c with
      | some (i, size, _), _, _ => some (i, size, none)
      | _, some (i, pd, pair, _), _ => some (i, 4, if pair = false ∨ pd = 2 ∨ pd = 4 ∨ pd = 6 then none else some 0x01)
      | _, _, some (i, _) => some (i, 4, none)
      | _, _, _ => none) = some (i, size, x)) : Issues sig sup c i size x := by
  cases hword : wordRow c with
  | some r =>
    obtain ⟨i, size, rd, reads, v⟩ := r
    simp only [hword] at h
    cases h
    exact issues_legal (exec_of_wordRow hword)
  | none =>
    cases hcompare : compareRow c with
    | some r =>
      obtain ⟨i, pd, pair, reads, v⟩ := r
      simp only [hword, hcompare] at h
      cases h
      refine issues_constrained (exec_of_compareRow hcompare) ?_
      simp [pairable_iff]
    | none =>
      cases hpred : predRow c with
      | some r =>
        obtain ⟨i, pd, v⟩ := r
        simp only [hword, hcompare, hpred] at h
        cases h
        obtain ⟨reads, hexec⟩ := exec_of_predRow hpred
        exact issues_legal hexec
      | none =>
        simp only [hword, hcompare, hpred] at h
        cases h

theorem issues_of_issueRow {sig sup : Bool} {c : Instr} {i : Issue} {size : Nat} {x : Option Nat}
    (h : issueRow sig sup c = some (i, size, x)) : Issues sig sup c i size x := by
  unfold issueRow at h
  split at h
  case h_35 => exact issues_of_rows h
  all_goals cases h
  case h_1 | h_2 => exact issues_constrained (fun _ => rfl) decide_eq_true_iff
  case h_15 =>
    refine ⟨_, _, _, fun _ => rfl, fun f hsig hsup => ?_⟩
    rw [wcallLegal]
    rw [hsig, hsup]
  case h_16 | h_17 | h_18 => exact issues_supervisor (fun _ => rfl)
  case h_19 | h_20 => exact issues_special (some 2) (fun _ => rfl)
  case h_21 => exact issues_constrained (fun _ => rfl) (by simp [pairable_iff])
  case h_30 | h_31 => exact issues_constrained (fun _ => rfl) decide_eq_true_iff
  case h_32 => exact issues_constrained (fun _ => rfl) (by simp [cteqOk, pairable_iff])
  case h_33 k => exact issues_special (mfsLevel k.toNat) (fun _ => rfl)
  case h_34 k _ => exact issues_special (mtsLevel k.toNat) (fun _ => rfl)
  all_goals exact issues_legal (fun _ => rfl)

theorem quiet_of_fetched {s f : State} {n size : Nat} (hq : Quiet s)
    (hfetch : fetchInstr (unstall s n) n size = { state := f, trap := none }) : Quiet f := by
  have h := quiet_fetchInstr (unstall s n) n size (by rw [hfetch]) hq
  rwa [hfetch] at h

/-- Settles O33: the branches of `issue`, in the order in which it takes them. -/
theorem issueRules : Obligations.IssueRules := by
  refine ⟨?_, ?_, ?_, ?_, ?_⟩
  case refine_1 =>
    intro c s f i size code hrow hfetched
    obtain ⟨-, hissue, hfetch⟩ := hfetched
    obtain ⟨decode, reads, eff, hexec, hdecode⟩ := issues_of_issueRow hrow
    refine leads_of_exec (hexec s) ?_
    simp only [issue, hissue, hfetch, hdecode f rfl rfl]
    rfl
  case refine_2 =>
    intro c s f i size hrow hfetched hpred hskip
    obtain ⟨hq, hissue, hfetch⟩ := hfetched
    obtain ⟨decode, reads, eff, hexec, hdecode⟩ := issues_of_issueRow hrow
    have hp : ¬ (i.p ≠ 0 ∧ (curWorld f i.core.toNat).badP = true) := by
      rintro ⟨hp0, hbad⟩
      rcases hpred with h0 | hgood
      · exact hp0 h0
      · simp [hgood] at hbad
    have hn : i.core.toNat < 4 := i.core.isLt
    have hended : modWorld (unshadow f i.core.toNat) i.core.toNat (advancePc size) =
        modWorld f i.core.toNat (fun w => advancePc size { w with shadow := false }) := modWorld_modWorld f _ _ _ hn
    refine leads_of_exec ((hexec s).trans ?_) hended
    simp only [issue, hissue, hfetch, hdecode f rfl rfl, if_neg hp, hskip, Bool.not_true, Bool.not_false, if_true,
      Bool.false_eq_true, if_false]
    refine done_quiet _ ?_
    rw [hended]
    exact (quiet_modWorld _ _ _).mpr (quiet_of_fetched hq hfetch)
  case refine_3 =>
    intro c s f i size hrow hfetched hbad
    obtain ⟨hq, hissue, hfetch⟩ := hfetched
    obtain ⟨decode, reads, eff, hexec, hdecode⟩ := issues_of_issueRow hrow
    refine leads_of_exec (hexec s) ?_
    simp only [issue, hissue, hfetch, hdecode f rfl rfl]
    by_cases hp : i.p ≠ 0 ∧ (curWorld f i.core.toNat).badP = true
    · simp only [if_pos hp]
      rfl
    · obtain ⟨hexecutes, hloop⟩ := hbad.resolve_left hp
      simp only [if_neg hp, hexecutes, hloop]
      rfl
  case refine_4 =>
    intro c s i size x hrow hq hissue
    obtain ⟨decode, reads, eff, hexec, -⟩ := issues_of_issueRow hrow
    refine leads_of_exec ((hexec s).trans ?_) rfl
    simp only [issue, hissue]
    exact done_quiet s hq
  case refine_5 =>
    intro c s f i size tr hrow hq hissue hfetch
    obtain ⟨decode, reads, eff, hexec, -⟩ := issues_of_issueRow hrow
    refine leads_of_exec (hexec s) ?_
    simp only [issue, hissue, hfetch]
    rfl

end Sys2Proof.IssueRules
end

section
/-! PROOF. Loads, stores and the long memory instructions (R355, R372, R373, R385 to R387, R395, R414). -/

namespace Sys2Proof.MemoryForms

open Sys2Proof.Machine Sys2Proof.TamemIssue Sys2Proof.TamemEffects Sys2Proof.DebugAccessMemory Sys2Proof.Basics

/-! ### What a load and a store do -/

/-- What a load does (R373). -/
def loadEffect (n : Nat) (rd ra : BitVec 5) (imm : BitVec 12) (ext : Word → Word) (s : State) (c : Nat) : Effect :=
  let a := address (curWorld s c) ra imm
  if !aligned a n then .fault s (Trap.at Code.alignment a)
  else if stalls s (masterOf s c) a.toNat then .again (entWait s (.core c a))
  else
    let r := fabricRead s (masterOf s c) (translate c a.toNat) n
    if r.detail ≠ 0 then .fault r.state (Trap.bus r.detail a)
    else .complete (modWorld r.state c (writeW rd (ext r.value)))

/-- What a store does (R373). -/
def storeEffect (n : Nat) (rs ra : BitVec 5) (imm : BitVec 12) (s : State) (c : Nat) : Effect :=
  let a := address (curWorld s c) ra imm
  if !aligned a n then .fault s (Trap.at Code.alignment a)
  else
    let r := fabricWrite s (masterOf s c) (translate c a.toNat) n (readW (curWorld s c) rs)
    if r.detail ≠ 0 then .fault r.state (Trap.bus r.detail a) else .complete r.state

theorem exec_of_loadRow {c : Instr} {i : Issue} {n : Nat} {rd ra : BitVec 5} {k : BitVec 12} {ext : Word → Word}
    (h : loadRow c = some (i, n, rd, ra, k, ext)) (s : State) :
    exec c s = done (issue i 4 legal (Reads.of [ra]) (loadEffect n rd ra k ext) s) := by
  unfold loadRow at h
  split at h <;> cases h
  all_goals rfl

theorem exec_of_storeRow {c : Instr} {i : Issue} {n : Nat} {rs ra : BitVec 5} {k : BitVec 12}
    (h : storeRow c = some (i, n, rs, ra, k)) (s : State) :
    exec c s = done (issue i 4 legal (Reads.of [rs, ra]) (storeEffect n rs ra k) s) := by
  unfold storeRow at h
  split at h <;> cases h
  all_goals rfl

theorem aligned_dataAddress {f : State} {i : Issue} {ra : BitVec 5} {k : BitVec 12} {n : Nat}
    (h : (dataAddress f i ra k).toNat % n = 0) : aligned (dataAddress f i ra k) n = true := decide_eq_true h

theorem misaligned_dataAddress {f : State} {i : Issue} {ra : BitVec 5} {k : BitVec 12} {n : Nat}
    (h : (dataAddress f i ra k).toNat % n ≠ 0) : aligned (dataAddress f i ra k) n = false := decide_eq_false h

theorem address_eq (f : State) (i : Issue) (ra : BitVec 5) (k : BitVec 12) :
    address (curWorld f i.core.toNat) ra k = dataAddress f i ra k := rfl

theorem settle_served {u : State} (hq : Quiet u) (n size : Nat) (shadow : Bool) (g : World → World) (hn : n < 4) :
    ∃ t, settleEffect n size shadow (.complete (modWorld u n g)) = t ∧ Quiet t ∧ t = modWorld u n (fun w => advancePc size (g w)) :=
  ⟨_, rfl, hq, modWorld_modWorld u n g (advancePc size) hn⟩

theorem quiet_entWait {s : State} (hq : Quiet s) (r : EntRead) : Quiet (entWait s r) := by
  unfold entWait
  split
  · exact hq
  · exact hq

theorem loads (c : Instr) (i : Issue) (n : Nat) (rd ra : BitVec 5) (k : BitVec 12) (ext : Word → Word)
    (hrow : loadRow c = some (i, n, rd, ra, k, ext)) (s f : State) (h : Working s i 4 [ra] f) :
    let a := dataAddress f i ra k
    let x := translate i.core.toNat a.toNat
    let r := fabricRead f (masterOf f i.core.toNat) x n
    (a.toNat % n = 0 → stalls f (masterOf f i.core.toNat) a.toNat = false → r.detail = 0 → Quiet r.state → Leads c s (fun t =>
      t = modWorld r.state i.core.toNat (fun w => advancePc 4 (writeW rd (ext r.value) w)))) ∧
    (a.toNat % n = 0 → stalls f (masterOf f i.core.toNat) a.toNat = true → Leads c s (fun t =>
      t = modWorld (entWait f (.core i.core.toNat a)) i.core.toNat (fun w => { w with shadow := (curWorld s i.core.toNat).shadow }))) ∧
    (a.toNat % n = 0 → stalls f (masterOf f i.core.toNat) a.toNat = false → r.detail ≠ 0 → Leads c s (fun t =>
      t = after (faultAt r.state i.core.toNat (Trap.bus r.detail a)))) ∧
    (a.toNat % n ≠ 0 → Leads c s (fun t => t = after (faultAt f i.core.toNat (Trap.at 0x03 a)))) := by
  have hexec := exec_of_loadRow hrow s
  have hreads := badReads_of_working h
  refine ⟨fun ha hstall hdetail hquiet => ?_, fun ha hstall => ?_, fun ha hstall hdetail => ?_, fun ha => ?_⟩
  · refine leads_working h hexec (fun _ => rfl) rfl hreads ?_
    simp only [loadEffect, address_eq, aligned_dataAddress ha, hstall, hdetail, ne_eq, not_true_eq_false, Bool.not_true,
      Bool.false_eq_true, if_false]
    exact settle_served hquiet _ _ _ _ i.core.isLt
  · refine leads_working h hexec (fun _ => rfl) rfl hreads ?_
    simp only [loadEffect, address_eq, aligned_dataAddress ha, hstall, Bool.not_true, Bool.false_eq_true, if_false, if_true]
    exact ⟨_, rfl, quiet_entWait (quiet_of_working h) _, rfl⟩
  · refine leads_after h hexec (fun _ => rfl) rfl hreads ?_
    simp only [loadEffect, address_eq, aligned_dataAddress ha, hstall, hdetail, ne_eq, not_false_eq_true, Bool.not_true,
      Bool.false_eq_true, if_false, if_true]
    rfl
  · refine leads_after h hexec (fun _ => rfl) rfl hreads ?_
    simp only [loadEffect, address_eq, misaligned_dataAddress ha, Bool.not_false, if_true]
    rfl

theorem stores (c : Instr) (i : Issue) (n : Nat) (rs ra : BitVec 5) (k : BitVec 12)
    (hrow : storeRow c = some (i, n, rs, ra, k)) (s f : State) (h : Working s i 4 [rs, ra] f) :
    let a := dataAddress f i ra k
    let x := translate i.core.toNat a.toNat
    let r := fabricWrite f (masterOf f i.core.toNat) x n (readW (curWorld f i.core.toNat) rs)
    (a.toNat % n = 0 → r.detail = 0 → Quiet r.state → Leads c s (fun t =>
      t = modWorld r.state i.core.toNat (advancePc 4))) ∧
    (a.toNat % n = 0 → r.detail ≠ 0 → Leads c s (fun t =>
      t = after (faultAt r.state i.core.toNat (Trap.bus r.detail a)))) ∧
    (a.toNat % n ≠ 0 → Leads c s (fun t => t = after (faultAt f i.core.toNat (Trap.at 0x03 a)))) := by
  have hexec := exec_of_storeRow hrow s
  have hreads := badReads_of_working h
  refine ⟨fun ha hdetail hquiet => ?_, fun ha hdetail => ?_, fun ha => ?_⟩
  · refine leads_working h hexec (fun _ => rfl) rfl hreads ?_
    simp only [storeEffect, address_eq, aligned_dataAddress ha, hdetail, ne_eq, not_true_eq_false, Bool.not_true,
      Bool.false_eq_true, if_false]
    exact ⟨_, rfl, hquiet, rfl⟩
  · refine leads_after h hexec (fun _ => rfl) rfl hreads ?_
    simp only [storeEffect, address_eq, aligned_dataAddress ha, hdetail, ne_eq, not_false_eq_true, Bool.not_true,
      Bool.false_eq_true, if_false, if_true]
    rfl
  · refine leads_after h hexec (fun _ => rfl) rfl hreads ?_
    simp only [storeEffect, address_eq, misaligned_dataAddress ha, Bool.not_false, if_true]
    rfl

/-! ### Plain memory -/

theorem mapped_of_isRam {a : Nat} (h : isRam a = true) : mapped a = true := by simp [mapped, h]

theorem plain_read {s : State} {m : Master} {a n : Nat} (hram : isRam a = true) (hblock : isBlock a = false)
    (hspecial : meetsSpecial a n = false) (hp : permits s m .read a = true) (hcell : badCell? s a n = none) :
    fabricRead s m a n = { state := s, value := BitVec.ofNat 32 (ofLe (memBytes s a n)), detail := 0 } := by
  unfold fabricRead
  rw [if_neg (by simp [mapped_of_isRam hram]), if_neg (by simp [hp]), if_neg (by simp [hblock]), hcell]
  simp [noteRead, engineBytes, hspecial]

theorem not_isCtxCache {a n : Nat} (hn : 0 < n) (h : meetsSpecial a n = false) : isCtxCache a = false := by
  unfold meetsSpecial at h
  simp only [hn, decide_true, Bool.true_and, Bool.or_eq_false_iff, decide_eq_false_iff_not] at h
  simp only [isCtxCache, within, decide_eq_false_iff_not]
  omega

theorem plain_write {s : State} {m : Master} {a n : Nat} {v : Word} (hram : isRam a = true) (hblock : isBlock a = false)
    (hspecial : meetsSpecial a n = false) (hp : permits s m .write a = true) (hn : 0 < n) (hcell : badPartial? s a n = none)
    (hopen : opRamClosed s m a n = false) :
    fabricWrite s m a n v = { state := memWrite s a (le n v.toNat), value := 0, detail := 0 } := by
  unfold fabricWrite
  rw [if_neg (by simp [mapped_of_isRam hram]), if_neg (by simp [hp]), if_neg (by simp [hblock]), if_neg (by simp [hblock]), hcell]
  dsimp only
  unfold storeBytes
  rw [le_length, if_neg (by simp [hram]), if_neg (by simp [hopen]), if_neg (by simp [not_isCtxCache hn hspecial])]

theorem plain_write_reads {s : State} {m : Master} {a n : Nat} {v : Word} (hram : isRam a = true) (hblock : isBlock a = false)
    (hspecial : meetsSpecial a n = false) (hp : permits s m .write a = true) (hn : 0 < n) (hcell : badPartial? s a n = none)
    (hopen : opRamClosed s m a n = false) :
    let r := fabricWrite s m a n v
    r.detail = 0 ∧ memBytes r.state a n = le n v.toNat ∧
    (∀ b, (b < a ∨ a + n ≤ b) → memByte r.state b = memByte s b) ∧
    r.state = { s with mem := r.state.mem, badCells := r.state.badCells } := by
  rw [plain_write hram hblock hspecial hp hn hcell hopen]
  refine ⟨rfl, ?_, fun b hb => ?_, rfl⟩
  · have h := memBytes_memWrite s a (le n v.toNat)
    rwa [le_length] at h
  · exact memByte_memWrite_out s a _ b (by rwa [le_length])

theorem loadsAndStores : Sys2Proof.Claims.LoadsAndStores :=
  ⟨loads, stores, fun _ _ _ _ hram hblock hspecial hp hcell => plain_read hram hblock hspecial hp hcell,
    fun _ _ _ _ _ hram hblock hspecial hp hn hcell hopen => plain_write_reads hram hblock hspecial hp hn hcell hopen⟩

/-! ### What an access beside the register blocks leaves of memory -/

theorem memByte_of_mem {s t : State} (h : t.mem = s.mem) (b : Nat) : memByte t b = memByte s b := by
  unfold memByte
  rw [h]

theorem mem_entWait (s : State) (r : EntRead) : (entWait s r).mem = s.mem := by
  unfold entWait
  split <;> rfl

theorem mem_fabricRead {s : State} {m : Master} {a n : Nat} (hblock : isBlock a = false) (h : (fabricRead s m a n).detail = 0) :
    (fabricRead s m a n).state.mem = s.mem := by
  unfold fabricRead at h ⊢
  split at h
  · cases h
  split at h
  · cases h
  rw [if_neg (by simp [hblock])] at h
  split at h
  · cases h
  · next h1 h2 _ _ =>
    rw [if_neg h1, if_neg h2, if_neg (by simp [hblock])]
    simp only [noteRead]
    split <;> rfl

theorem memByte_writeSlots (s : State) (a : Nat) (v : Bytes) (b : Nat) (hb : b < a ∨ a + v.length ≤ b) :
    memByte (writeSlots s a v) b = memByte s b := by
  have hpatch (l : List Nat) (t : State) : (l.foldl (patchSlot a v) t).mem = t.mem := by
    induction l generalizing t with
    | nil => rfl
    | cons x l ih =>
      refine (ih _).trans ?_
      unfold patchSlot
      dsimp only
      split <;> rfl
  exact (memByte_of_mem (hpatch _ _) b).trans (memByte_memWrite_out s a v b hb)

theorem mem_maeNotOwner (s : State) : (maeNotOwner s).mem = s.mem := by
  unfold maeNotOwner raiseLimited raiseEvery
  rw [orR, setR_mem]
  split
  · split
    · rfl
    · exact raise_mem _ _
  · exact raise_mem _ _

theorem memByte_storeBytes (s : State) (m : Master) (a : Nat) (v : Bytes) (b : Nat) (hb : b < a ∨ a + v.length ≤ b) :
    memByte (storeBytes s m a v) b = memByte s b := by
  unfold storeBytes
  split
  · rfl
  split
  · exact memByte_of_mem (mem_maeNotOwner s) b
  split
  · exact memByte_writeSlots s a v b hb
  · exact memByte_memWrite_out s a v b hb

theorem memByte_fabricWrite {s : State} {m : Master} {a : Nat} {v : Word} (hblock : isBlock a = false)
    (h : (fabricWrite s m a 4 v).detail = 0) {b : Nat} (hb : b < a ∨ a + 4 ≤ b) :
    memByte (fabricWrite s m a 4 v).state b = memByte s b := by
  unfold fabricWrite at h ⊢
  split at h
  · cases h
  split at h
  · cases h
  rw [if_neg (by simp [hblock]), if_neg (by simp [hblock])] at h
  split at h
  · cases h
  · next h1 h2 _ _ =>
    rw [if_neg h1, if_neg h2, if_neg (by simp [hblock]), if_neg (by simp [hblock])]
    exact memByte_storeBytes s m a _ b (by rwa [le_length])

/-! ### A step of a long instruction, word by word -/

theorem next_word (d : Word) (j : Nat) : d + 4 + BitVec.ofNat 32 (4 * j) = d + BitVec.ofNat 32 (4 * (j + 1)) := by
  have hfour : (4 : Word) = BitVec.ofNat 32 4 := rfl
  rw [hfour, BitVec.add_assoc, ← BitVec.ofNat_add, Nat.mul_succ, Nat.add_comm 4]

/-- The words from `d` lie beside the register blocks. -/
def WordsBeside (n : Nat) (d : Word) (c : Nat) : Prop := ∀ j, j < c → isBlock (translate n (d + BitVec.ofNat 32 (4 * j)).toNat) = false

/-- A byte outside the words from `d`. -/
def Outside (n : Nat) (d : Word) (c b : Nat) : Prop :=
  ∀ j, j < c → b < translate n (d + BitVec.ofNat 32 (4 * j)).toNat ∨ translate n (d + BitVec.ofNat 32 (4 * j)).toNat + 4 ≤ b

theorem WordsBeside.first {n c : Nat} {d : Word} (h : WordsBeside n d (c + 1)) : isBlock (translate n d.toNat) = false := by
  simpa using h 0 (Nat.succ_pos c)

theorem WordsBeside.next {n c : Nat} {d : Word} (h : WordsBeside n d (c + 1)) : WordsBeside n (d + 4) c := by
  intro j hj
  rw [next_word]
  exact h (j + 1) (Nat.succ_lt_succ hj)

theorem Outside.first {n c b : Nat} {d : Word} (h : Outside n d (c + 1) b) : b < translate n d.toNat ∨ translate n d.toNat + 4 ≤ b := by
  simpa using h 0 (Nat.succ_pos c)

theorem Outside.next {n c b : Nat} {d : Word} (h : Outside n d (c + 1) b) : Outside n (d + 4) c b := by
  intro j hj
  rw [next_word]
  exact h (j + 1) (Nat.succ_lt_succ hj)

theorem zeroWords_outside {m : Master} {n c b : Nat} {d : Word} {s : State} (hplain : WordsBeside n d c) (hb : Outside n d c b)
    (htrap : (zeroWords m n c d s).trap = none) : memByte (zeroWords m n c d s).state b = memByte s b := by
  induction c generalizing d s with
  | zero => rfl
  | succ c ih =>
    unfold zeroWords at htrap ⊢
    dsimp only at htrap ⊢
    by_cases hdetail : (fabricWrite s m (translate n d.toNat) 4 0).detail = 0
    · rw [if_neg (not_not.mpr hdetail)] at htrap ⊢
      exact (ih hplain.next hb.next htrap).trans (memByte_fabricWrite hplain.first hdetail hb.first)
    · rw [if_pos hdetail] at htrap
      rw [Step.of, if_neg hdetail] at htrap
      cases htrap

theorem copyWords_outside {m : Master} {n c b : Nat} {d a : Word} {s : State} (hd : WordsBeside n d c) (ha : WordsBeside n a c)
    (hb : Outside n d c b) (htrap : (copyWords m n c d a s).trap = none) :
    memByte (copyWords m n c d a s).state b = memByte s b := by
  induction c generalizing d a s with
  | zero => rfl
  | succ c ih =>
    unfold copyWords at htrap ⊢
    dsimp only at htrap ⊢
    split
    · exact memByte_of_mem (mem_entWait s _) b
    next hstall =>
    rw [if_neg hstall] at htrap
    by_cases hread : (fabricRead s m (translate n a.toNat) 4).detail = 0
    · rw [if_neg (not_not.mpr hread)] at htrap ⊢
      by_cases hwrite : (fabricWrite (fabricRead s m (translate n a.toNat) 4).state m (translate n d.toNat) 4
          (fabricRead s m (translate n a.toNat) 4).value).detail = 0
      · rw [if_neg (not_not.mpr hwrite)] at htrap ⊢
        exact ((ih hd.next ha.next hb.next htrap).trans (memByte_fabricWrite hd.first hwrite hb.first)).trans
          (memByte_of_mem (mem_fabricRead ha.first hread) b)
      · rw [if_pos hwrite] at htrap
        rw [Step.of, if_neg hwrite] at htrap
        cases htrap
    · rw [if_pos hread] at htrap
      rw [Step.of, if_neg hread] at htrap
      cases htrap

theorem wordsBeside_of_span {n : Nat} {a k : Word} (h : PlainSpan n a k) : WordsBeside n a (k.toNat / 4) :=
  fun j hj => h j (by omega)

/-! ### The long instructions -/

/-- A step that moved the registers: with nothing left the instruction completes, else PC and the shadow stay (R386, R395). -/
theorem settle_endStep {u : State} (hq : Quiet u) {n : Nat} (hn : n < 4) (shadow : Bool) (g : World → World) (left : Word) :
    ∃ t, settleEffect n 4 shadow (endStep (modWorld u n g) left) = t ∧ Quiet t ∧
      t = modWorld u n (fun v => if left = 0 then advancePc 4 (g v) else { g v with shadow := shadow }) := by
  unfold endStep
  split
  · exact ⟨_, rfl, hq, modWorld_modWorld u n g (advancePc 4) hn⟩
  · exact ⟨_, rfl, hq, modWorld_modWorld u n g (fun v => { v with shadow := shadow }) hn⟩

/-- The same where the last step also writes its result. -/
theorem settle_compared {u : State} (hq : Quiet u) {n : Nat} (hn : n < 4) (shadow : Bool) (g k : World → World) (left : Word) :
    ∃ t, settleEffect n 4 shadow (endStep (if left = 0 then modWorld (modWorld u n g) n k else modWorld u n g) left) = t ∧ Quiet t ∧
      t = modWorld u n (fun v => if left = 0 then advancePc 4 (k (g v)) else { g v with shadow := shadow }) := by
  have hend := settle_endStep hq hn shadow (fun v => if left = 0 then k (g v) else g v) left
  by_cases hleft : left = 0
  · simp only [hleft, if_true] at hend ⊢
    rwa [modWorld_modWorld u n g k hn]
  · simpa only [hleft, if_false] using hend

theorem quiet_holdStep {u : State} (hq : Quiet u) (n done : Nat) (acc : Word) : Quiet (holdStep u n done acc) := hq

/-- A step that a stalled read holds keeps PC and the shadow; one whose words are all done ends. -/
theorem settle_longStep {r : Step} (hq : Quiet r.state) {n : Nat} (shadow : Bool) (done : Nat) (acc : Word) {e : Effect}
    {t : State} (hend : ∃ u, settleEffect n 4 shadow e = u ∧ Quiet u ∧ u = t) :
    ∃ u, settleEffect n 4 shadow (if r.left ≠ 0 then .again (holdStep r.state n done acc) else e) = u ∧ Quiet u ∧
      u = if r.left = 0 then t else modWorld (holdStep r.state n done acc) n (fun v => { v with shadow := shadow }) := by
  by_cases hleft : r.left = 0
  · rwa [if_neg (not_not.mpr hleft), if_pos hleft]
  · rw [if_pos hleft, if_neg hleft]
    exact ⟨_, rfl, hq, rfl⟩

theorem stepBytes_fold (c : Word) : (if c.toNat < 64 then c else 64) = stepBytes c := rfl

theorem longInstructions : Sys2Proof.Claims.LongInstructions := by
  refine ⟨?_, ?_, ?_, ?_, ?_, ?_⟩
  case refine_1 =>
    intro s f i wd ws wn h h1 h2 h3 h4 h5 h6
    simp only [stepBytes_fold]
    intro hlong htrap hquiet
    have hlegal : constrained (decide (wd ≠ 0 ∧ ws ≠ 0 ∧ wn ≠ 0 ∧ wd ≠ ws ∧ wd ≠ wn ∧ ws ≠ wn)) f i.core.toNat = none :=
      if_pos (decide_eq_true ⟨h1, h2, h3, h4, h5, h6⟩)
    refine leads_working h rfl (fun _ => rfl) hlegal (badReads_of_working h) ?_
    simp only [hlong, htrap]
    exact settle_longStep hquiet _ _ _ (settle_endStep (quiet_holdStep hquiet _ 0 0) i.core.isLt _ _ _)
  case refine_2 =>
    intro s f i wd wn h h1 h2 h3
    simp only [stepBytes_fold]
    intro hlong htrap hquiet
    have hlegal : constrained (decide (wd ≠ 0 ∧ wn ≠ 0 ∧ wd ≠ wn)) f i.core.toNat = none :=
      if_pos (decide_eq_true ⟨h1, h2, h3⟩)
    refine leads_working h rfl (fun _ => rfl) hlegal (badReads_of_working h) ?_
    simp only [hlong, htrap]
    exact settle_endStep hquiet i.core.isLt _ _ _
  case refine_3 =>
    intro s f i pd wa wb wn h hok
    simp only [stepBytes_fold]
    intro hlong htrap hquiet
    refine leads_working h rfl (fun _ => rfl) (if_pos hok) (badReads_of_working h) ?_
    simp only [hlong, htrap]
    exact settle_longStep hquiet _ _ _ (settle_compared (quiet_holdStep hquiet _ 0 0) i.core.isLt _ _ _ _)
  case refine_4 =>
    intro s f i wd ws wn a h h1 h2 h3 h4 h5 h6 hlong
    have hlegal : constrained (decide (wd ≠ 0 ∧ ws ≠ 0 ∧ wn ≠ 0 ∧ wd ≠ ws ∧ wd ≠ wn ∧ ws ≠ wn)) f i.core.toNat = none :=
      if_pos (decide_eq_true ⟨h1, h2, h3, h4, h5, h6⟩)
    refine leads_after h rfl (fun _ => rfl) hlegal (badReads_of_working h) ?_
    simp only [hlong]
    rfl
  case refine_5 =>
    intro s m n d k hk hplain htrap b hb
    exact zeroWords_outside (wordsBeside_of_span hplain) (fun j hj => hb j (by omega)) htrap
  case refine_6 =>
    intro s m n d a k hk hd ha htrap b hb
    exact copyWords_outside (wordsBeside_of_span hd) (wordsBeside_of_span ha) (fun j hj => hb j (by omega)) htrap

/-- Settles O34: each form is an effect that completes, waits or takes its exception, and a step writes word by word. -/
theorem memoryForms : Obligations.MemoryForms := ⟨loadsAndStores, longInstructions⟩

end Sys2Proof.MemoryForms
end

section
/-! PROOF. The table of lines: what a change of one record leaves of the waybills in flight, of the rest between commands (R175,
R282), and of the transfers that go on once one has ended (R94). -/

namespace Sys2Proof.LineTable

open Sys2Proof.Machine

/-! ### The entries of a table after a write -/

theorem mem_of_mem_mput {α : Type} {m : SMap α} {i : Nat} {v : α} {e : Nat × α} (h : e ∈ mput m i v) : e = (i, v) ∨ e ∈ m := by
  induction m with
  | nil => exact .inl (by simpa [mput] using h)
  | cons x r ih =>
    obtain ⟨k, w⟩ := x
    unfold mput at h
    split at h
    · next hk =>
      subst hk
      rcases List.mem_cons.mp h with h | h
      · exact .inl h
      · exact .inr (List.mem_cons_of_mem _ h)
    · split at h
      · exact List.mem_cons.mp h
      · rcases List.mem_cons.mp h with h | h
        · exact .inr (h ▸ List.mem_cons_self)
        · exact (ih h).imp_right (List.mem_cons_of_mem _)

/-- A write leaves every entry but the first of its key. -/
theorem mem_mput_or {α : Type} {m : SMap α} {i : Nat} (v : α) {e : Nat × α} (h : e ∈ m) :
    e ∈ mput m i v ∨ e.1 = i ∧ mget? m i = some e.2 := by
  induction m with
  | nil => cases h
  | cons x r ih =>
    obtain ⟨k, w⟩ := x
    unfold mput
    split
    · next hk =>
      rcases List.mem_cons.mp h with h | h
      · exact .inr ⟨by rw [h, hk], by rw [h, mget?, if_pos hk]⟩
      · exact .inl (List.mem_cons_of_mem _ h)
    · next hk =>
      split
      · exact .inl (List.mem_cons_of_mem _ h)
      · rcases List.mem_cons.mp h with h | h
        · exact .inl (h ▸ List.mem_cons_self)
        · refine (ih h).imp (List.mem_cons_of_mem _) (And.imp_right fun hget => ?_)
          rw [mget?, if_neg hk, hget]

theorem mem_mput_self {α : Type} (m : SMap α) (i : Nat) (v : α) : (i, v) ∈ mput m i v := by
  induction m with
  | nil => exact List.mem_cons_self
  | cons x r ih =>
    obtain ⟨k, w⟩ := x
    unfold mput
    split
    · next hk => exact hk ▸ List.mem_cons_self
    · split
      · exact List.mem_cons_self
      · exact List.mem_cons_of_mem _ ih

/-- A sum over a table does not fall where the written entry is no less than the one it replaces. -/
theorem sum_le_sum_mput {α : Type} (g : α → Nat) {m : SMap α} {i : Nat} {v : α} (h : ∀ w, mget? m i = some w → g w ≤ g v) :
    (m.map (fun e => g e.2)).sum ≤ ((mput m i v).map (fun e => g e.2)).sum := by
  induction m with
  | nil => exact Nat.zero_le _
  | cons x r ih =>
    obtain ⟨k, w⟩ := x
    unfold mput
    split
    · next hk =>
      have := h w (by rw [mget?, if_pos hk])
      simp only [List.map_cons, List.sum_cons]
      omega
    · next hk =>
      split
      · simp only [List.map_cons, List.sum_cons]
        omega
      · have := ih (fun u hu => h u (by rw [mget?, if_neg hk, hu]))
        simp only [List.map_cons, List.sum_cons]
        omega

/-! ### A record that keeps its waybills -/

/-- A record to write for line `l`: it keeps the line's kind and every waybill in flight there. -/
structure Carries (s : State) (l : Nat) (r : Line) : Prop where
  listed : r ≠ Line.closed
  service : r.service = (getLine s l).service
  flights : ∀ f ∈ (getLine s l).flights, f ∈ r.flights
  count : (getLine s l).flights.length ≤ r.flights.length

section
variable {s : State} {l : Nat} {r : Line}

theorem lines_setLine (h : Carries s l r) : (setLine s l r).lne.lines = mput s.lne.lines l r := if_neg h.listed

theorem getLine_of_mget? {w : Line} (h : mget? s.lne.lines l = some w) : getLine s l = w := by
  rw [getLine, h]
  rfl

/-- Each waybill in flight stays in flight, on a line of the same kind. -/
theorem flight_setLine (h : Carries s l r) {e : Nat × Line} (he : e ∈ s.lne.lines) {f : Flight} (hf : f ∈ e.2.flights) :
    ∃ d ∈ (setLine s l r).lne.lines, d.1 = e.1 ∧ d.2.service = e.2.service ∧ f ∈ d.2.flights := by
  rw [lines_setLine h]
  rcases mem_mput_or r he with hkept | ⟨hkey, hget⟩
  · exact ⟨e, hkept, rfl, rfl, hf⟩
  · have hline := getLine_of_mget? hget
    exact ⟨(l, r), mem_mput_self _ _ _, hkey.symm, by rw [h.service, hline], h.flights f (hline ▸ hf)⟩

theorem stampedOn_isSome (t : State) (k : Nat) :
    (stampedOn t k).isSome = true ↔ ∃ e ∈ t.lne.lines, ∃ f ∈ e.2.flights, f.phase = .stamped ∧ f.track.toNat = k := by
  simp [stampedOn]

theorem denseAt_setLine (h : Carries s l r) {k : Nat} (hd : denseAt s k = false) : denseAt (setLine s l r) k = false := by
  simp only [denseAt, Bool.and_eq_false_iff, Option.isNone_eq_false_iff] at hd ⊢
  refine hd.imp id fun hstamped => ?_
  rw [stampedOn_isSome] at hstamped ⊢
  obtain ⟨e, he, f, hf, hphase⟩ := hstamped
  obtain ⟨d, hd, -, -, hkept⟩ := flight_setLine h he hf
  exact ⟨d, hd, f, hkept, hphase⟩

theorem exportTurn_setLine (h : Carries s l r) {id : Nat} (hturn : exportTurn s id = false) :
    exportTurn (setLine s l r) id = false := by
  unfold exportTurn at hturn ⊢
  rw [Bool.and_eq_false_iff] at hturn ⊢
  refine hturn.imp (fun hlines => ?_) fun husb => husb
  rw [List.all_eq_false] at hlines ⊢
  obtain ⟨e, he, hblock⟩ := hlines
  have hservice : e.2.service = true := by
    by_contra hno
    simp [hno] at hblock
  obtain ⟨f, hf, hexport⟩ : ∃ f ∈ e.2.flights, (isExport f && decide (f.id < id)) = true := by
    simpa [hservice] using hblock
  obtain ⟨d, hd, -, hkind, hkept⟩ := flight_setLine h he hf
  refine ⟨d, hd, ?_⟩
  simp only [hkind, hservice, Bool.not_true, Bool.false_or, List.all_eq_true, not_forall]
  exact ⟨f, hkept, by simp [hexport]⟩

/-- A record that carries its line's waybills leaves nothing due. -/
theorem quiet_setLine (h : Carries s l r) (hq : Quiet s) : Quiet (setLine s l r) := by
  obtain ⟨htrips, hfence, hsealing, husb, hraised⟩ := hq
  refine ⟨htrips, ?_, hsealing, ?_, hraised⟩
  · simp only [fenceDue, List.any_eq_false] at hfence ⊢
    intro k hk
    simp only [Bool.not_eq_true] at hfence ⊢
    exact denseAt_setLine h (hfence k hk)
  · unfold usbDue at husb ⊢
    rw [show (setLine s l r).hlk.usbWait = s.hlk.usbWait from rfl]
    cases hwait : s.hlk.usbWait with
    | nil => rfl
    | cons e _ =>
      rw [hwait] at husb
      exact exportTurn_setLine h husb

theorem inFlight_setLine (h : Carries s l r) : inFlight s ≤ inFlight (setLine s l r) := by
  unfold inFlight
  rw [lines_setLine h]
  refine sum_le_sum_mput (fun r : Line => r.flights.length) fun w hw => ?_
  have := h.count
  rwa [getLine_of_mget? hw] at this

end

/-! ### After a transfer nothing else goes on -/

/-- More waybills in flight let no more in. -/
theorem wantsAdmission_false {s t : State} {r : Line} (hmode : t.mode = s.mode) (httc : t.ttc = s.ttc)
    (hgasp : t.power.lastGasp = s.power.lastGasp) (hup : t.hlk.up = s.hlk.up) (hcount : inFlight s ≤ inFlight t)
    (h : wantsAdmission s r = false) : wantsAdmission t r = false := by
  by_contra hwants
  have hpower : mainPower t = mainPower s := by rw [mainPower, hmode, mainPower]
  simp only [wantsAdmission, admissible, hpower, httc, hgasp, hup, Bool.not_eq_false, Bool.and_eq_true, decide_eq_true_eq] at hwants
  obtain ⟨⟨⟨⟨⟨⟨⟨⟨hstate, hcnt⟩, hlen⟩, hfew⟩, hroom⟩, hretry⟩, hnogasp⟩, hmain⟩, hlink⟩ := hwants
  have hall : wantsAdmission s r = true := by
    simp only [wantsAdmission, admissible, Bool.and_eq_true, decide_eq_true_eq]
    exact ⟨⟨⟨⟨⟨⟨⟨⟨hstate, hcnt⟩, hlen⟩, Nat.lt_of_le_of_lt hcount hfew⟩, hroom⟩, hretry⟩, hnogasp⟩, hmain⟩, hlink⟩
  rw [h] at hall
  cases hall

theorem opsOn_any_parked {s : State} (h : ∀ f ∈ (getLine s 0).flights, f.phase ≠ .parked) (l : Nat) :
    (opsOn s l).any (fun f => decide (f.phase = .parked)) = false := by
  rw [List.any_eq_false]
  intro f hf
  simpa using h f (List.mem_of_mem_filter hf)

theorem foldl_unchanged {α : Type} {g : State → α → State} {s : State} {l : List α} (h : ∀ e ∈ l, g s e = s) : l.foldl g s = s := by
  induction l with
  | nil => rfl
  | cons e l ih =>
    rw [List.foldl_cons, h e List.mem_cons_self]
    exact ih fun x hx => h x (List.mem_cons_of_mem _ hx)

theorem wantContext_resident {s : State} {l : Nat} (h : resident s l = true) : wantContext s l = s := by
  unfold resident at h
  unfold wantContext
  split at h
  · next hslot => rw [hslot]
  · cases h

/-- No LINE_* waybill is parked, and each line that waits for admission has its context: the end of a transfer lets nothing else
go on. -/
theorem afterTransfer_none {s : State} (hparked : ∀ f ∈ (getLine s 0).flights, f.phase ≠ .parked)
    (hwants : ∀ e ∈ s.lne.lines, wantsAdmission s e.2 = false ∨ resident s e.1 = true) : afterTransfer s = s := by
  have hfills : startFills s = s := by
    refine foldl_unchanged fun e he => ?_
    rcases hwants e he with hnone | hresident
    · rw [if_neg (by simp [hnone, opsOn_any_parked hparked])]
    · split
      · exact wantContext_resident hresident
      · rfl
  have hopens : recheckOpens s = s := foldl_unchanged fun f hf => if_neg fun h => hparked f hf h.1
  rw [afterTransfer, hfills, hopens]

end Sys2Proof.LineTable
end

section
/-! PROOF. Context fills and spills, and index mirrors (R88, R92, R94). -/

namespace Sys2Proof.ContextTransfers

open Sys2Proof.Machine Sys2Proof.Frames Sys2Proof.LineTable

/-! ### The slots of the context cache -/

theorem find_ne {l k : Nat} {c : List (Nat × Slot)} (h : k ≠ l) :
    (c.filter (fun e => !decide (e.1 = l))).find? (fun e => decide (e.1 = k)) = c.find? (fun e => decide (e.1 = k)) := by
  rw [List.find?_filter]
  congr 1
  funext e
  by_cases he : e.1 = k
  · simp [he, h]
  · simp [he]

theorem slot?_putSlot_same (s : State) (l : Nat) (t : Slot) : slot? (putSlot s l t) l = some t := by
  simp [slot?, putSlot]

theorem slot?_putSlot_other (s : State) {l k : Nat} (t : Slot) (h : k ≠ l) : slot? (putSlot s l t) k = slot? s k := by
  have hl : ¬ l = k := fun e => h e.symm
  simp only [slot?, putSlot, List.find?_cons, hl, decide_false]
  rw [find_ne h]

/-- The cache once the spill of a live context has left the device. -/
def spilled (c : List (Nat × Slot)) (l : Nat) (x : Bool) : List (Nat × Slot) :=
  c.map (fun e => if e.1 = l then (l, .live x false) else e)

theorem find_spilled (c : List (Nat × Slot)) (l : Nat) (x : Bool) (k : Nat) :
    (spilled c l x).find? (fun e => decide (e.1 = k)) =
      (c.find? (fun e => decide (e.1 = k))).map (fun e => if e.1 = l then (l, .live x false) else e) := by
  rw [spilled, List.find?_map]
  congr 2
  funext e
  by_cases he : e.1 = l <;> simp [he]

/-! ### A fill -/

/-- The record of a line whose context has arrived. -/
def residentLine (s : State) (l : Nat) : Line := { getLine s l with resident := true }

theorem carries_residentLine (s : State) (l : Nat) : Carries s l (residentLine s l) where
  listed h := Bool.noConfusion (congrArg Line.resident h :)
  service := rfl
  flights _ := id
  count := Nat.le_refl _

theorem contextBytes_length (l : Nat) (c : Context) : (contextBytes l c).length = 128 := by
  simp [contextBytes, zeros, slice, le_length]
  omega

/-- The context and its slot, before the line's record follows. -/
def filled (s : State) (l : Nat) (b : Bytes) : State :=
  sealCtx (putSlot { s with lne := { s.lne with contexts := mput s.lne.contexts l (parseContext (slice b 0 128)) } } l
    (.live false false)) l

theorem filled_form (s : State) (l : Nat) (b : Bytes) : ∃ cache places cells,
    filled s l b = { s with
      lne := { s.lne with contexts := mput s.lne.contexts l (parseContext (slice b 0 128)), cache := cache, places := places },
      badCells := cells } ∧ ∀ c ∈ cells, c ∈ s.badCells := by
  unfold filled sealCtx
  split
  · exact ⟨_, _, _, rfl, fun c hc => List.mem_of_mem_filter hc⟩
  · exact ⟨_, _, _, rfl, fun c hc => hc⟩

theorem slot?_sealCtx (s : State) (l k : Nat) : slot? (sealCtx s l) k = slot? s k := by
  unfold sealCtx
  split <;> rfl

theorem ctxBad_sealCtx (s : State) (l : Nat) : ctxBad (sealCtx s l) l = false := by
  unfold ctxBad
  cases hplace : placeOf s l with
  | none =>
    have hnone : sealCtx s l = s := by
      unfold sealCtx
      rw [hplace]
    rw [hnone, hplace]
  | some p =>
    have hsealed : sealCtx s l =
        { s with badCells := s.badCells.filter (fun c => !decide (slotCells p ≤ c ∧ c < slotCells p + 16)) } := by
      unfold sealCtx
      rw [hplace]
    rw [hsealed]
    have hplace' : placeOf { s with badCells := s.badCells.filter (fun c => !decide (slotCells p ≤ c ∧ c < slotCells p + 16)) } l =
      some p := hplace
    rw [hplace']
    simp only [List.any_eq_false, List.mem_filter]
    rintro c ⟨-, hout⟩
    simpa [or_iff_not_imp_left] using hout

theorem acceptFill_eq (s : State) (l : Nat) (b : Bytes) : acceptFill s l b = setLine (filled s l b) l (residentLine (filled s l b) l) :=
  rfl

theorem retryControl_none {s : State} (h : ∀ f ∈ (getLine s 0).flights, f.phase ≠ .parked) (l : Nat) : retryControl s l = s := by
  unfold retryControl
  split
  · next f _ hops =>
    have hf : f ∈ opsOn s l := hops ▸ List.mem_cons_self
    have hphase := h f (List.mem_of_mem_filter hf)
    rw [if_neg (fun hp => hphase hp.1), if_neg (fun hp => hphase hp.1)]
  · rfl

theorem fill_completes (s : State) (l : BitVec 19) (b : Bytes) (hq : Quiet s) (hslot : slot? s l.toNat = some .filling)
    (hok : fillOk s l.toNat b = true) (hnone : NoneWaits s l.toNat) (hl : l ≠ 0) : Leads (.fillComplete l b) s (fun t =>
      ctx? t l.toNat = some (parseContext (slice b 0 128)) ∧ resident t l.toNat = true ∧
      ctxBad t l.toNat = false ∧ (∀ b, b ∈ t.badCells → b ∈ s.badCells) ∧
      (∀ k, k ≠ l.toNat → ctx? t k = ctx? s k ∧ slot? t k = slot? s k ∧ getLine t k = getLine s k) ∧
      t = { s with lne := t.lne, badCells := t.badCells }) := by
  set n := l.toNat with hn
  have hn0 : 0 ≠ n := fun h => hl (BitVec.eq_of_toNat_eq (h.symm.trans rfl))
  obtain ⟨hwants, hparked⟩ := hnone
  obtain ⟨cache, places, cells, hform, hcells⟩ := filled_form s n b
  set u := filled s n b with hu
  have hlines : u.lne.lines = s.lne.lines := by rw [hform]
  have hline (k : Nat) : getLine u k = getLine s k := by rw [getLine, hlines, getLine]
  have hcarries : Carries u n (residentLine u n) := carries_residentLine u n
  have hquietu : Quiet u := by
    rw [hform]
    exact hq
  set t := setLine u n (residentLine u n) with ht
  have hquiet : Quiet t := quiet_setLine hcarries hquietu
  have hslots (k : Nat) : slot? t k = slot? (putSlot { s with lne := { s.lne with
      contexts := mput s.lne.contexts n (parseContext (slice b 0 128)) } } n (.live false false)) k := slot?_sealCtx _ n k
  have hresident : resident t n = true := by
    rw [resident, hslots n, slot?_putSlot_same]
  have hflights : ∀ f ∈ (getLine t 0).flights, f.phase ≠ .parked := by
    rw [getLine_setLine_other u n 0 _ hn0, hline]
    exact hparked
  have hcount : inFlight s ≤ inFlight t := by
    refine Nat.le_trans (Nat.le_of_eq ?_) (inFlight_setLine hcarries)
    rw [inFlight, inFlight, hlines]
  have htransfer : afterTransfer t = t := by
    refine afterTransfer_none hflights fun e he => ?_
    rw [ht, lines_setLine hcarries] at he
    rcases mem_of_mem_mput he with rfl | he
    · exact .inr hresident
    · by_cases hkey : e.1 = n
      · exact .inr (hkey ▸ hresident)
      · rw [hlines] at he
        have hsame : t = { s with lne := t.lne, badCells := t.badCells } := by
          rw [ht, hform]
          rfl
        refine .inl (wantsAdmission_false ?_ ?_ ?_ ?_ hcount (hwants e he hkey)) <;> rw [hsame]
  refine leads_done (t := t) ?_ hquiet ⟨?_, hresident, ctxBad_sealCtx _ n, fun c hc => ?_, fun k hk => ⟨?_, ?_, ?_⟩, ?_⟩
  · have hexec : exec (.fillComplete l b) s = done (fillReturns s n b) := rfl
    rw [hexec, fillReturns, if_neg (not_not.mpr hslot), if_pos hok, acceptFill_eq, retryControl_none hflights, htransfer]
  · rw [ctx?, show t.lne.contexts = u.lne.contexts from rfl, hform]
    exact mget?_mput_same _ _ _
  · rw [show t.badCells = u.badCells from rfl, hform] at hc
    exact hcells c hc
  · rw [ctx?, show t.lne.contexts = u.lne.contexts from rfl, hform]
    exact mget?_mput_other _ _ _ _ hk
  · rw [hslots k, slot?_putSlot_other _ _ hk]
    rfl
  · rw [getLine_setLine_other u n k _ hk, hline]
  · rw [ht, hform]
    rfl

/-! ### A spill -/

theorem live_spill_departs (s : State) (l : BitVec 19) (c : Bool) (hq : Quiet s) (hslot : slot? s l.toNat = some (.live c true))
    (hleaving : ∀ e ∈ s.lne.leaving, e.1 ≠ l.toNat) (hnone : NoneWaits s l.toNat) : Leads (.spillDeparted l) s (fun t =>
      slot? t l.toNat = some (.live c false) ∧ (∀ k, k ≠ l.toNat → slot? t k = slot? s k) ∧
      t = { s with lne := { s.lne with cache := t.lne.cache } }) := by
  set n := l.toNat with hn
  obtain ⟨hwants, hparked⟩ := hnone
  set t : State := { s with lne := { s.lne with cache := spilled s.lne.cache n c } } with ht
  have hslots (k : Nat) : slot? t k = ((s.lne.cache.find? (fun e => decide (e.1 = k))).map
      (fun e => if e.1 = n then (n, .live c false) else e)).map (fun e => e.2) := by
    rw [slot?, ht, find_spilled]
  have hgone : slot? t n = some (.live c false) := by
    obtain ⟨e, hfind, -⟩ := Option.map_eq_some_iff.mp hslot
    have hkey : e.1 = n := by simpa using List.find?_some hfind
    rw [hslots n, hfind]
    simp [hkey]
  have htransfer : afterTransfer t = t := by
    refine afterTransfer_none hparked fun e he => ?_
    by_cases hkey : e.1 = n
    · refine .inr ?_
      rw [hkey, resident, hgone]
    · exact .inl (hwants e he hkey)
  refine leads_done (t := t) ?_ hq ⟨hgone, fun k hk => ?_, rfl⟩
  · have hexec : exec (.spillDeparted l) s = done (spillLeaves s n) := rfl
    have hany : ¬ s.lne.leaving.any (fun e => decide (e.1 = n)) = true := by
      rw [List.any_eq_true]
      exact fun ⟨e, he, hkey⟩ => hleaving e he (of_decide_eq_true hkey)
    rw [hexec, spillLeaves, if_neg hany, hslot]
    exact congrArg done htransfer
  · rw [hslots k]
    cases hfind : s.lne.cache.find? (fun e => decide (e.1 = k)) with
    | none => rw [slot?, hfind]; rfl
    | some e =>
      have hkey : e.1 = k := by simpa using List.find?_some hfind
      rw [slot?, hfind, Option.map_some, if_neg (hkey ▸ hk)]

theorem dropped_spill_departs (s : State) (l : BitVec 19) (hq : Quiet s) (hslot : slot? s l.toNat = some .spilling)
    (hleaving : ∀ e ∈ s.lne.leaving, e.1 ≠ l.toNat) (hnone : NoneWaits s l.toNat)
    (hwants : ∀ e ∈ s.lne.lines, wantsAdmission s e.2 = false) : Leads (.spillDeparted l) s (fun t =>
      slot? t l.toNat = none ∧ ctx? t l.toNat = none ∧ (∀ k, k ≠ l.toNat → slot? t k = slot? s k ∧ ctx? t k = ctx? s k) ∧
      (∀ a, (∀ p, placeOf s l.toNat = some p → a < slotBase p ∨ slotBase p + 128 ≤ a) → memByte t a = memByte s a) ∧
      t = { s with lne := t.lne, mem := t.mem }) := by
  set n := l.toNat with hn
  obtain ⟨-, hparked⟩ := hnone
  have hdrop : dropSlot s n = { s with mem := leaveBytes s n, lne := { s.lne with
      cache := s.lne.cache.filter (fun e => !decide (e.1 = n)), contexts := mdel s.lne.contexts n
      places := clearPlace s.lne.places (placeOf s n) } } := by
    unfold dropSlot
    have hspilling : slot? { s with mem := leaveBytes s n } n = some .spilling := hslot
    simp only [hspilling]
    rfl
  set t := dropSlot s n with ht
  have htransfer : afterTransfer t = t := by
    rw [hdrop]
    exact afterTransfer_none hparked fun e he => .inl (hwants e he)
  refine leads_done (t := t) ?_ ?_ ⟨?_, ?_, fun k hk => ⟨?_, ?_⟩, fun a ha => ?_, ?_⟩
  · have hexec : exec (.spillDeparted l) s = done (spillLeaves s n) := rfl
    have hany : ¬ s.lne.leaving.any (fun e => decide (e.1 = n)) = true := by
      rw [List.any_eq_true]
      exact fun ⟨e, he, hkey⟩ => hleaving e he (of_decide_eq_true hkey)
    rw [hexec, spillLeaves, if_neg hany, hslot]
    exact congrArg done htransfer
  · rw [hdrop]
    exact hq
  · rw [hdrop]
    simp [slot?]
  · rw [hdrop]
    exact mget?_mdel_same _ _
  · rw [hdrop]
    exact congrArg _ (find_ne hk)
  · rw [hdrop]
    exact mget?_mdel_other _ _ _ hk
  · rw [hdrop]
    show mget 0 (leaveBytes s n) a = mget 0 s.mem a
    unfold leaveBytes
    split
    · next p c hplace _ => exact mget_putBytes_out _ _ _ _ (by rw [contextBytes_length]; exact ha p hplace)
    · rfl
  · rw [hdrop]

/-! ### A mirror -/

theorem mirror_written (s : State) (l : BitVec 19) (hmirror : (getLine s l.toNat).mirror = true) (hup : s.hlk.up = true)
    (hon : mirrorOn s = true) (hgood : recordBad s l.toNat = false) : Leads (.indexMirrorWrite l) s (fun t =>
      t.ports.hostOut = s.ports.hostOut ++
        packets (getR64 s Reg.HLK_ITAB_BASE + BitVec.ofNat 64 (16 * l.toNat))
          (le 4 (getLine s l.toNat).upTail ++ le 4 (getLine s l.toNat).upHead ++ le 4 (getLine s l.toNat).dnTail ++
            le 4 (getLine s l.toNat).dnHead) ∧
      getLine t l.toNat = { getLine s l.toNat with mirror := false } ∧
      (∀ k, k ≠ l.toNat → getLine t k = getLine s k) ∧
      t = { s with lne := { s.lne with lines := t.lne.lines }, ports := { s.ports with hostOut := t.ports.hostOut } }) := by
  refine leads_next (t := writeMirror s l.toNat) ?_ ?_
  · have hexec : exec (.indexMirrorWrite l) s = execIndexMirrorWrite l s := rfl
    rw [hexec, execIndexMirrorWrite, if_neg (by simp [hmirror, hup]), if_neg (by simp [hgood])]
  · rw [writeMirror, if_pos hon]
    exact ⟨rfl, getLine_setLine_same _ _ _, fun k hk => getLine_setLine_other _ _ _ _ hk, rfl⟩

/-- Settles O7: each transfer ends with its own change, after which no line's context is wanted. -/
theorem contextTransfers : Obligations.ContextTransfers :=
  ⟨fill_completes, live_spill_departs, dropped_spill_departs, mirror_written⟩

end Sys2Proof.ContextTransfers
end

section
/-! PROOF. Doorbells move ring indexes; the Hump admits the waybill at the Up head of the line it serves next (R56, R57, R83 to R85,
R97, R98). -/

namespace Sys2Proof.LineAdmission

open Sys2Proof.Machine Sys2Proof.Frames Sys2Proof.LineTable

/-! ### Doorbells -/

theorem malformed_false {v : DWord} (h : v.toNat < 2 ^ 52) : malformed 0 true v = false := by
  simp [malformed]
  omega

/-- A doorbell in form that the device takes. -/
theorem exec_doorbell_taken {s : State} {v : DWord} (hon : mainPower s = true) (hready : ready s = true) (hgasp : lastGasp s = false)
    (hv : v.toNat < 2 ^ 52) : exec (.doorbell 0 true v) s = .next (takeDoorbell s (doorbellLine v) (doorbellRing v) (doorbellIndex v)) := by
  have hexec : exec (.doorbell 0 true v) s = .next (doorbellWrite s 0 true v) := rfl
  rw [hexec, doorbellWrite, if_neg (by simp [hon]), if_neg (by simp [malformed_false hv]), if_neg (by simp [hready, hgasp])]

theorem takeDoorbell_accepted {s : State} {l i : Nat} {ring : Bool} (hgood : recordBad s l = false)
    (hreason : doorbellReason (getLine s l) ring i = 0) :
    takeDoorbell s l ring i = if ring then setLine s l { getLine s l with dnHead := i } else setLine s l { getLine s l with
      upTail := i, ready := (getLine s l).ready || decide (upCount { getLine s l with upTail := i } ≠ 0) } := by
  rw [takeDoorbell, if_neg (by simp [hgood])]
  dsimp only
  rw [if_neg (not_not.mpr hreason)]

theorem doorbellReason_lt (r : Line) (ring : Bool) (i : Nat) : doorbellReason r ring i < 8 := by
  unfold doorbellReason
  dsimp only
  split_ifs <;> omega

/-- What a rejected doorbell records (R85). -/
theorem doorbellError_fields {l reason : Nat} (ring : Bool) (hl : l < 2 ^ 19) (hreason : reason < 2 ^ 3) :
    let v : Word := place 0 19 l ||| place 19 1 (b2n ring) ||| 0x100000 ||| place 21 3 reason
    bitsOf v 0 19 = l ∧ bit v 19 = ring ∧ bit v 20 = true ∧ bitsOf v 21 3 = reason := by
  have hflag : b2n ring < 2 := by cases ring <;> decide
  refine ⟨?_, ?_, ?_, ?_⟩
  · rw [bitsOf_or, bitsOf_or, bitsOf_or, bitsOf_place_same _ (by decide), bitsOf_place_other _ (by decide),
      bitsOf_place_other _ (by decide), Nat.mod_eq_of_lt hl, show bitsOf (0x100000 : Word) 0 19 = 0 from rfl]
    simp
  · simp only [bit, BitVec.getLsbD_or, getLsbD_place]
    cases ring <;> simp [b2n]
  · simp [bit, BitVec.getLsbD_or]
  · rw [bitsOf_or, bitsOf_or, bitsOf_or, bitsOf_place_same _ (by decide), bitsOf_place_other _ (by decide),
      bitsOf_place_other _ (by decide), Nat.mod_eq_of_lt hreason, show bitsOf (1048576 : Word) 21 3 = 0 from rfl]
    simp

theorem regs_raiseLimited (s : State) (n : Nat) : (raiseLimited s n).regs = s.regs :=
  (congrArg State.regs (raiseEvery_shape s msTicks n) :)

/-- One register written, one event raised at a limited rate. -/
theorem recorded_form (s : State) (a : Nat) (v : Word) (n : Nat) :
    let t := raiseLimited (setR s a v) n
    getR t a = v ∧ SameRegs s t [a] ∧ t = withEvents { s with regs := t.regs, lastRaise := t.lastRaise } t := by
  have hregs := regs_raiseLimited (setR s a v) n
  refine ⟨(getR_congr hregs a).trans (getR_setR_same s a v), fun b hb => ?_, ?_⟩
  · rw [getR_congr hregs b]
    exact getR_setR_other s a b v (by simpa using hb)
  · rw [hregs]
    exact raiseEvery_shape (setR s a v) msTicks n

theorem doorbell_rejected {s : State} {v : DWord} (hon : mainPower s = true) (hready : ready s = true) (hgasp : lastGasp s = false)
    (hv : v.toNat < 2 ^ 52) (hgood : recordBad s (doorbellLine v) = false)
    (hreason : doorbellReason (getLine s (doorbellLine v)) (doorbellRing v) (doorbellIndex v) ≠ 0) :
    Leads (.doorbell 0 true v) s (fun t =>
      fieldR t Reg.LNE_DBERR 0 19 = doorbellLine v ∧ bitR t Reg.LNE_DBERR 19 = doorbellRing v ∧ bitR t Reg.LNE_DBERR 20 = true ∧
      fieldR t Reg.LNE_DBERR 21 3 = doorbellReason (getLine s (doorbellLine v)) (doorbellRing v) (doorbellIndex v) ∧
      SameRegs s t [Reg.LNE_DBERR] ∧ t = withEvents { s with regs := t.regs, lastRaise := t.lastRaise } t) := by
  refine leads_next (exec_doorbell_taken hon hready hgasp hv) ?_
  rw [takeDoorbell, if_neg (by simp [hgood]), if_pos hreason, rejectDoorbell]
  obtain ⟨hvalue, hsame, hform⟩ := recorded_form s Reg.LNE_DBERR (place 0 19 (doorbellLine v) ||| place 19 1 (b2n (doorbellRing v)) |||
    0x100000 ||| place 21 3 (doorbellReason (getLine s (doorbellLine v)) (doorbellRing v) (doorbellIndex v))) 25
  obtain ⟨hline, hring, hset, hcode⟩ := doorbellError_fields (doorbellRing v) (Nat.mod_lt _ (Nat.two_pow_pos 19))
    (doorbellReason_lt (getLine s (doorbellLine v)) (doorbellRing v) (doorbellIndex v)) (l := doorbellLine v)
  refine ⟨?_, ?_, ?_, ?_, hsame, hform⟩
  · rw [fieldR, hvalue, hline]
  · rw [bitR, hvalue, hring]
  · rw [bitR, hvalue, hset]
  · rw [fieldR, hvalue, hcode]

theorem doorbells : Sys2Proof.Claims.Doorbells := by
  refine ⟨?_, ?_, ?_, ?_⟩
  case refine_1 =>
    intro s v hon hready hgasp hv hring hgood hreason
    refine leads_next (exec_doorbell_taken hon hready hgasp hv) ?_
    rw [hring, takeDoorbell_accepted hgood hreason]
    simp only [Bool.false_eq_true, if_false, getLine_setLine_same]
    exact ⟨trivial, trivial, fun k hk => getLine_setLine_other _ _ _ _ hk, rfl⟩
  case refine_2 =>
    intro s v hon hready hgasp hv hring hgood hreason
    refine leads_next (exec_doorbell_taken hon hready hgasp hv) ?_
    rw [hring, takeDoorbell_accepted hgood hreason]
    exact ⟨getLine_setLine_same _ _ _, fun k hk => getLine_setLine_other _ _ _ _ hk, rfl⟩
  case refine_3 => exact fun s v hon hready hgasp hv hgood hreason => doorbell_rejected hon hready hgasp hv hgood hreason
  case refine_4 =>
    intro s o w v hon hbad
    have hmal : malformed o.toNat w v = true := by
      simp only [malformed, Bool.or_eq_true, decide_eq_true_eq]
      rcases hbad with ho | hw | hv
      · exact .inl (.inl fun h => ho (BitVec.eq_of_toNat_eq h))
      · exact .inl (.inr (by rw [hw]; rfl))
      · exact .inr hv
    refine leads_next (t := dropDoorbell s 1) ?_ ?_
    · have hexec : exec (.doorbell o w v) s = .next (doorbellWrite s o.toNat w v) := rfl
      rw [hexec, doorbellWrite, if_neg (by simp [hon]), if_pos hmal]
    · exact recorded_form s Reg.HLK_ERR (getR s Reg.HLK_ERR ||| 1) 19

/-! ### Admission -/

/-- The record of a line whose Up head has passed an entry (R98). -/
def passedLine (s : State) (l : Nat) : Line :=
  let r := { getLine s l with upHead := bump (getLine s l).upLog2 (getLine s l).upHead, retryAt := 0 }
  { r with ready := decide (upCount r ≠ 0), mirror := r.mirror || mirrorOn s }

theorem notePeaks_form (s : State) : ∃ regs, notePeaks s = { s with regs := regs } ∧
    SameRegs s { s with regs := regs } [Reg.LNE_INFLIGHT, Reg.MSH_QUEUE] := by
  have hpeak (u : State) (c : Bool) (a v : Nat) : ∃ regs, (if c then setFieldR u a 16 10 v else u) = { u with regs := regs } ∧
      SameRegs u { u with regs := regs } [a] := by
    cases c
    · exact ⟨u.regs, rfl, sameRegs_refl u _⟩
    · exact ⟨_, rfl, sameRegs_setR (sameRegs_refl u _) List.mem_cons_self _⟩
  obtain ⟨r1, h1, k1⟩ := hpeak s (decide (fieldR s Reg.LNE_INFLIGHT 16 10 < inFlight s)) Reg.LNE_INFLIGHT (inFlight s)
  obtain ⟨r2, h2, k2⟩ := hpeak { s with regs := r1 } (decide (fieldR { s with regs := r1 } Reg.MSH_QUEUE 16 10 <
    queuedOnTracks { s with regs := r1 })) Reg.MSH_QUEUE (queuedOnTracks { s with regs := r1 })
  simp only [decide_eq_true_eq] at h1 h2
  refine ⟨r2, ?_, sameRegs_trans (sameRegs_mono k1 (by simp)) (sameRegs_mono k2 (by simp))⟩
  rw [notePeaks, h1]
  exact h2

/-- A service waybill that passed its checks is in flight on its line. -/
theorem serviceAdmitted {s : State} {l : Nat} (e : Bytes) (c u : Nat) (hq : Quiet s) (hservice : (getLine s l).service = true) :
    let f := newFlight (humpGrant s c u l) (slice e 0 64) .service
    let t := putFlight (passEntry (humpGrant s c u l) l) l f
    Quiet t ∧ ServiceAdmitted s t l e ∧ (getLine t l).retryAt = 0 := by
  intro f t
  set g : State := { humpGrant s c u l with lne := { (humpGrant s c u l).lne with nextId := s.lne.nextId + 1 } } with hg
  have hline (k : Nat) : getLine g k = getLine s k := rfl
  have hpass : passEntry (humpGrant s c u l) l = setLine g l (passedLine s l) := rfl
  set p := setLine g l (passedLine s l) with hp
  have hpl : getLine p l = passedLine s l := getLine_setLine_same g l _
  set r : Line := { passedLine s l with flights := (getLine s l).flights ++ [f] } with hr
  have hput : t = notePeaks (setLine p l r) := by
    show notePeaks (modLine _ l _) = _
    rw [hpass, modLine, hpl]
    rfl
  have hkind (v : Line) (h : v.service = true) : v ≠ Line.closed := by
    intro e
    rw [e] at h
    cases h
  have hpassed : Carries g l (passedLine s l) := ⟨hkind _ hservice, rfl, fun _ => id, Nat.le_refl _⟩
  have hjoined : Carries p l r := by
    refine ⟨hkind _ hservice, ?_, ?_, ?_⟩
    · rw [hpl]
    · rw [hpl]
      exact fun x hx => List.mem_append_left _ hx
    · rw [hpl]
      exact Nat.le_trans (Nat.le_add_right _ 1) (Nat.le_of_eq (List.length_append (as := (getLine s l).flights) (bs := [f])).symm)
  obtain ⟨regs, hpeaks, hsame⟩ := notePeaks_form (setLine p l r)
  have hlines (k : Nat) : getLine t k = getLine (setLine p l r) k := by rw [hput, hpeaks]; rfl
  have hlast : getLine t l = r := (hlines l).trans (getLine_setLine_same p l r)
  refine ⟨?_, ⟨?_, ⟨f, ?_, rfl, rfl, rfl⟩, fun k hk => ?_, ?_, ?_, ?_⟩, ?_⟩
  · rw [hput, hpeaks]
    exact (show Quiet (setLine p l r) from quiet_setLine hjoined (quiet_setLine hpassed hq))
  · rw [hlast]
    rfl
  · rw [hlast]
  · rw [hlines, getLine_setLine_other p l k r hk]
    exact getLine_setLine_other g l k _ hk
  · rw [hput, hpeaks]
    rfl
  · rw [hput, hpeaks]
    exact hsame
  · rw [hput, hpeaks]
    rfl
  · rw [hlast]
    rfl

theorem humpAdmit_service {s : State} {l : Nat} {e : Bytes} {c u : Nat} (heligible : eligible s l (getLine s l) = true)
    (hnext : humpNext s = some (c, u, l)) (hopen : (getLine s l).state = .opened) (hservice : (getLine s l).service = true)
    (hgood : recordBad s l = false) (hstatus : admissionStatus s l (getLine s l) (slice e 0 64) = 0) :
    humpAdmit s l e = putFlight (passEntry (humpGrant s c u l) l) l (newFlight (humpGrant s c u l) (slice e 0 64) .service) := by
  have hline : getLine (humpGrant s c u l) l = getLine s l := rfl
  have hstatus' : admissionStatus (humpGrant s c u l) l (getLine s l) (slice e 0 64) = 0 := hstatus
  rw [humpAdmit, if_pos heligible, hnext]
  dsimp only
  rw [if_neg (not_not.mpr rfl), if_neg (by simp [hgood]), admitEntry, hline, if_neg (by simp [hopen]), if_neg (by simp [hopen]), if_pos hservice, hstatus', enterService, if_pos rfl, hservice]
  rfl

theorem admission : Sys2Proof.Claims.Admission := by
  refine ⟨?_, ?_, ?_⟩
  case refine_1 =>
    intro s l e c u hq heligible hnext hopen hservice hgood hstatus
    obtain ⟨hquiet, hadmitted, -⟩ := serviceAdmitted e c u hq hservice
    refine leads_done ?_ hquiet hadmitted
    exact congrArg done (humpAdmit_service heligible hnext hopen hservice hgood hstatus)
  case refine_2 =>
    intro s l e c u hq heligible hnext hopen hservice hretry hgood hstatus
    obtain ⟨hquiet, hadmitted, hretried⟩ := serviceAdmitted e c u hq hservice
    refine leads_done ?_ hquiet ⟨hadmitted, hretried⟩
    have hexec : exec (.entryReadRetry l e) s = execEntryReadRetry l e s := rfl
    rw [hexec, execEntryReadRetry, if_neg hretry, humpAdmit_service heligible hnext hopen hservice hgood hstatus]
  case refine_3 =>
    intro s l e hq hwants
    refine leads_done (t := s) ?_ hq rfl
    have hexec : exec (.admission l e) s = done (humpAdmit s l.toNat e) := rfl
    rw [hexec, humpAdmit, if_neg (by simp [eligible, hwants]), if_neg (by simp [hwants])]

/-- Settles O8: a doorbell in form moves one index or is recorded; an admitted service waybill joins its line. -/
theorem lineAdmission : Obligations.LineAdmission := ⟨doorbells, admission⟩

end Sys2Proof.LineAdmission
end

section
/-! PROOF. The Running log: what a record handed to staging and the start of a stripe change (R275, R288, R297). Events, the log and
the flash part alone, and of the registers the count of dropped records. -/

namespace Sys2Proof.LogFrames

open Sys2Proof.Machine Sys2Proof.Frames Sys2Proof.Chains

/-- The registers that count dropped records. -/
def droppedRegs : List Nat := [Reg.FLC_DROPPED, Reg.FLC_DROPPED + 4]

/-- What was pending is pending still. -/
def Pends (s t : State) : Prop := ∀ k, k < 1024 → isPending s k = true → isPending t k = true

theorem Pends.trans {s t u : State} (h : Pends s t) (k : Pends t u) : Pends s u := fun j hj hs => k j hj (h j hj hs)

theorem pends_of_evtPend {s t : State} (h : t.evtPend = s.evtPend) : Pends s t := by
  intro k _ hs
  unfold isPending at hs ⊢
  rwa [h]

theorem pends_raise (s : State) (n : Nat) : Pends s (raise s n) := fun _ hk => isPending_raise_of n hk

/-- From `s` to `t` only the log, the flash part, the count of dropped records and events changed; no rise of the mark of exported frames is
new. -/
def Logged (s t : State) : Prop :=
  t = withEvents { s with regs := t.regs, lastRaise := t.lastRaise, log := t.log, flash := t.flash } t ∧
    t.log.raised = s.log.raised ∧ SameRegs s t droppedRegs ∧ Pends s t

theorem Logged.refl (s : State) : Logged s s := ⟨rfl, rfl, sameRegs_refl s _, fun _ _ => id⟩

theorem Logged.trans {s t u : State} (h : Logged s t) (k : Logged t u) : Logged s u := by
  obtain ⟨hform, hraised, hregs, hpends⟩ := h
  obtain ⟨kform, kraised, kregs, kpends⟩ := k
  refine ⟨?_, kraised.trans hraised, sameRegs_trans hregs kregs, hpends.trans kpends⟩
  rw [kform, hform]
  rfl

theorem Logged.quiet {s t : State} (h : Logged s t) (hq : Quiet s) : Quiet t := by
  obtain ⟨hform, hraised, -⟩ := h
  obtain ⟨h1, h2, h3, h4, h5⟩ := hq
  rw [hform]
  exact ⟨h1, h2, h3, h4, hraised.trans h5⟩

/-- The flash part and the log, with the rise of the mark as it was. -/
theorem logged_of_form (s : State) (l : Log) (f : Flash) (h : l.raised = s.log.raised) :
    Logged s { s with log := l, flash := f } :=
  ⟨rfl, h, sameRegs_of_regs rfl _, pends_of_evtPend rfl⟩

theorem foldl_logged {α : Type} {g : State → α → State} (h : ∀ t e, Logged t (g t e)) (l : List α) (s : State) :
    Logged s (l.foldl g s) := by
  induction l generalizing s with
  | nil => exact Logged.refl s
  | cons e r ih => exact (h s e).trans (ih (g s e))

theorem raise_logged (s : State) (n : Nat) : Logged s (raise s n) := by
  refine ⟨?_, ?_, ?_, pends_raise s n⟩
  all_goals
    obtain ⟨q, o, e⟩ := raise_form s n
    rw [e]
  · rfl
  · exact sameRegs_of_regs rfl _

theorem raiseEvery_logged (s : State) (gap n : Nat) : Logged s (raiseEvery s gap n) := by
  have hform := raiseEvery_shape s gap n
  refine ⟨?_, ?_, ?_, ?_⟩
  · rw [hform]
    rfl
  · rw [hform]
    rfl
  · rw [hform]
    exact sameRegs_of_regs rfl _
  · have hraised (r : SMap DWord) : Pends s (raise { s with lastRaise := r } n) :=
      (pends_of_evtPend rfl).trans (pends_raise { s with lastRaise := r } n)
    unfold raiseEvery
    split
    · split
      · exact fun _ _ => id
      · exact hraised _
    · exact hraised _

theorem countDropped_logged (s : State) (n : Nat) : Logged s (countR64 s Reg.FLC_DROPPED n) :=
  ⟨rfl, rfl, sameRegs_setR64 s Reg.FLC_DROPPED _, pends_of_evtPend rfl⟩

theorem appendRecord_logged (s : State) (typ : Byte) (body : Bytes) : Logged s (appendRecord s typ body) := by
  unfold appendRecord
  split
  · exact (countDropped_logged s _).trans (raiseEvery_logged _ _ _)
  · exact logged_of_form s _ _ rfl

/-! ### Stripes -/

theorem eraseSlotBlocks_logged (s : State) (k : Nat) : Logged s (eraseSlotBlocks s k) :=
  foldl_logged (fun t _ => logged_of_form t _ _ rfl) _ _

theorem eraseOldest_logged (s : State) : Logged s (eraseOldest s) := by
  unfold eraseOldest
  split
  · exact Logged.refl s
  · exact (eraseSlotBlocks_logged s _).trans (logged_of_form _ _ _ rfl)

theorem reclaimOldest_logged (s : State) : Logged s (reclaimOldest s) := by
  unfold reclaimOldest
  split
  · exact Logged.refl s
  split
  · exact Logged.refl s
  split
  · split
    · exact eraseOldest_logged s
    · exact Logged.refl s
  split
  · exact eraseOldest_logged s
  · exact (foldl_logged (fun t f => appendRecord_logged t _ _) _ _).trans (logged_of_form _ _ _ rfl)

theorem copyForward_logged (s : State) (t : Stripe) : Logged s (copyForward s t) := by
  unfold copyForward
  split
  · exact (logged_of_form s _ _ rfl).trans (eraseSlotBlocks_logged _ _)
  · exact Logged.refl s

theorem levelWear_logged (s : State) : Logged s (levelWear s) := by
  refine foldl_logged (fun t e => ?_) _ _
  split
  · exact copyForward_logged t _
  · exact Logged.refl t

theorem beginStripe_logged (s : State) : Logged s (beginStripe s) := by
  unfold beginStripe
  split
  · exact Logged.refl s
  · exact (logged_of_form s _ _ rfl).trans (levelWear_logged _)

theorem startProgram_logged (s : State) : Logged s (startProgram s) := by
  have hreclaim (u : State) : Logged u (if needsReclaim u then reclaimOldest u else u) := by
    split
    · exact reclaimOldest_logged u
    · exact Logged.refl u
  have hbegin (u : State) : Logged u (if needsStripe u then beginStripe u else u) := by
    split
    · exact beginStripe_logged u
    · exact Logged.refl u
  unfold startProgram
  dsimp only
  by_cases hdue : (!programDue s) = true
  · rw [if_pos hdue]
    exact Logged.refl s
  rw [if_neg hdue]
  have hu := hreclaim s
  generalize (if needsReclaim s then reclaimOldest s else s) = u at hu ⊢
  by_cases hmore : needsReclaim u = true
  · rwa [if_pos hmore]
  rw [if_neg hmore]
  have hv := hu.trans (hbegin u)
  generalize (if needsStripe u then beginStripe u else u) = v at hv ⊢
  split
  · exact hv
  · exact hv.trans (logged_of_form v _ _ rfl)

theorem programStripe_logged (s : State) : Logged s (programStripe s) := logged_of_form s _ _ rfl

theorem rewriteWordline_logged (s : State) : Logged s (rewriteWordline s) := by
  have hskip : Logged s (startProgram (skipWordline s)) := (logged_of_form s _ _ rfl).trans (startProgram_logged _)
  unfold rewriteWordline
  dsimp only
  split
  · exact (hskip.trans (programStripe_logged _)).trans (startProgram_logged _)
  · exact hskip

end Sys2Proof.LogFrames
end

section
/-! PROOF. SYS_NONCE, image commit and the Deadman (R518, R538, R540). -/

namespace Sys2Proof.DeadmanAndImages

open Sys2Proof.Machine Sys2Proof.Frames Sys2Proof.LogFrames Sys2Proof.EventsAndSettings Sys2Proof.Chains Sys2Proof.SetupPage Sys2Proof.DebugAccessMemory

/-! ### SYS_NONCE -/

/-- The words of a value, written from a register on. -/
theorem getR_setRegWords (s : State) (a : Nat) (w : Nat → Word) (n k : Nat) :
    getR ((List.range n).foldl (fun t i => setR t (a + 4 * i) (w i)) s) (a + 4 * k) = if k < n then w k else getR s (a + 4 * k) := by
  induction n with
  | zero => rfl
  | succ n ih =>
    rw [List.range_succ, List.foldl_append, List.foldl_cons, List.foldl_nil]
    by_cases hk : k = n
    · rw [hk, getR_setR_same, if_pos (Nat.lt_succ_self n)]
    · rw [getR_setR_other _ _ _ _ (by omega), ih]
      exact if_congr (by omega) rfl rfl

theorem setRegWords_form (s : State) (a : Nat) (w : Nat → Word) (n : Nat) :
    (List.range n).foldl (fun t i => setR t (a + 4 * i) (w i)) s =
      { s with regs := ((List.range n).foldl (fun t i => setR t (a + 4 * i) (w i)) s).regs } ∧
    SameRegs s ((List.range n).foldl (fun t i => setR t (a + 4 * i) (w i)) s) ((List.range n).map (fun k => a + 4 * k)) := by
  induction n with
  | zero => exact ⟨rfl, sameRegs_refl s _⟩
  | succ n ih =>
    obtain ⟨hform, hsame⟩ := ih
    rw [List.range_succ, List.foldl_append, List.foldl_cons, List.foldl_nil]
    have hmem : ∀ x ∈ (List.range n).map (fun k => a + 4 * k), x ∈ (List.range n ++ [n]).map (fun k => a + 4 * k) := by
      intro x hx
      rw [List.map_append]
      exact List.mem_append_left _ hx
    refine ⟨?_, sameRegs_setR (sameRegs_mono hsame hmem) (by simp) _⟩
    generalize (List.range n).foldl (fun t i => setR t (a + 4 * i) (w i)) s = t at hform ⊢
    rw [hform]
    rfl

theorem drawBytes_length (s : State) (n : Nat) : (drawBytes s n).length = n := by
  simp only [drawBytes, List.length_append, List.length_take, List.length_map, List.length_range]
  omega

theorem nonce_read (s : State) (m : Master) (hq : Quiet s) (hm : MayRead s m Reg.SYS_NONCE) (hready : entReady s = true) :
    Leads (.sysNonceRead m) s (fun t =>
      (∀ k, k < 8 → getR t (Reg.SYS_NONCE + 4 * k) = BitVec.ofNat 32 (num (drawBytes s 32) (4 * k) 4)) ∧
      t.ports.readData = BitVec.ofNat 64 (num (drawBytes s 32) 0 4) ∧ t.ent.pool = s.ent.pool.drop 32 ∧
      SameRegs s t ((List.range 8).map (fun k => Reg.SYS_NONCE + 4 * k))) := by
  have hwords : setRegBytes (drawn s 32) Reg.SYS_NONCE (drawBytes s 32) = (List.range 8).foldl (fun t i =>
      setR t (Reg.SYS_NONCE + 4 * i) (BitVec.ofNat 32 (num (drawBytes s 32) (4 * i) 4))) (drawn s 32) := by
    rw [setRegBytes, drawBytes_length]
  obtain ⟨hform, hsame⟩ := setRegWords_form (drawn s 32) Reg.SYS_NONCE (fun i => BitVec.ofNat 32 (num (drawBytes s 32) (4 * i) 4)) 8
  have hget := getR_setRegWords (drawn s 32) Reg.SYS_NONCE (fun i => BitVec.ofNat 32 (num (drawBytes s 32) (4 * i) 4)) 8
  rw [← hwords] at hform hsame hget
  set u := setRegBytes (drawn s 32) Reg.SYS_NONCE (drawBytes s 32) with hu
  have hquiet : Quiet u := by
    rw [hform]
    exact hq
  refine leads_guardedRead (f := fun s => if entReady s then
      let b := drawBytes s 32
      readData (setRegBytes (drawn s 32) Reg.SYS_NONCE b) (BitVec.ofNat 64 (num b 0 4))
    else readData s 0) rfl hm ?_ ?_
  · rw [if_pos hready]
    exact hquiet
  · rw [if_pos hready]
    refine ⟨fun k hk => ?_, rfl, ?_, hsame⟩
    · exact (hget k).trans (if_pos hk)
    · show u.ent.pool = _
      rw [hform]
      rfl

/-! ### Image commit -/

theorem writeRec_form (s : State) (r : BootRec) (h : s.flash.deadDies = 0) :
    ∃ r0 r1, writeRec s r = { s with flash := { s.flash with bootRec0 := r0, bootRec1 := r1 } } ∧
      (r0 = recBytes { r with seq := (bootRec s).seq + 1 } ∨ r1 = recBytes { r with seq := (bootRec s).seq + 1 }) := by
  have hdie (k : Nat) : s.flash.deadDies.getLsbD k = false := by rw [h]; simp
  unfold writeRec
  dsimp only
  split
  · exact ⟨_, _, rfl, .inl rfl⟩
  · rw [if_neg (Bool.eq_false_iff.mp (hdie 2))]
    exact ⟨_, _, rfl, .inr rfl⟩

theorem imgMinVersion_lt (h : Bytes) : imgMinVersion h < 2 ^ 32 := by
  refine Nat.lt_of_lt_of_le (ofLe_lt _) ?_
  rw [show 2 ^ 32 = 256 ^ 4 by decide]
  exact Nat.pow_le_pow_right (by decide) (by simp [slice])

/-- A write of a setting with the fuses whole: it reads as written; the flash part stays. -/
theorem sstStore_floor {s : State} {i : Nat} (hfuses : s.fusesOk = true) (hcount : sstCount s i < 100000) (hq : Quiet s) (v : DWord) :
    sstGet (sstStore s i v) i = v ∧ (sstStore s i v).flash = s.flash ∧ Quiet (sstStore s i v) := by
  rw [sstStore_fits hcount]
  generalize hu : setR (sstPut { s with sstWear := mput s.sstWear i (sstCount s i + 1) } i v) Reg.SST_STATUS (1 ||| place 8 8 i) = u
  have hshown := withEvents_trans (raiseIf_withEvents u (decide (sstCount s i + 1 = 90000)) 41)
    (raiseIf_withEvents _ (decide (sstCount s i + 1 = 100000)) 40)
  refine ⟨?_, ?_, quiet_withEvents hshown ?_⟩
  · rw [hshown]
    show sstGet u i = v
    rw [← hu]
    exact sstGet_sstPut_same { s with sstWear := mput s.sstWear i (sstCount s i + 1) } i v hfuses
  · rw [hshown, ← hu]
    rfl
  · rw [← hu]
    exact hq

theorem image_commit (s : State) (hq : Quiet s) (hm : MayWrite s 4 Reg.DMN_BOOT) (hrun : s.coresRun = true)
    (hmon : s.flash.monitor = false) (hdies : s.flash.deadDies = 0) (hslot : slotState (bootRec s) s.flash.running = 3)
    (hcount : sstCount s 18 < 100000) : Leads (.imageCommit 4) s (fun t =>
      let r := { markSlot (bootRec s) s.flash.running 4 (slotVersion (bootRec s) s.flash.running) with
        active := s.flash.running, seq := (bootRec s).seq + 1 }
      (t.flash.bootRec0 = recBytes r ∨ t.flash.bootRec1 = recBytes r) ∧
      versionFloor t = max (versionFloor s) (imgMinVersion (imgHeader s s.flash.running)) ∧ isPending t 38 = true ∧
      t.flash = { s.flash with bootRec0 := t.flash.bootRec0, bootRec1 := t.flash.bootRec1 }) := by
  have hfuses := fusesOk_of_mayWrite hm
  set r := { markSlot (bootRec s) s.flash.running 4 (slotVersion (bootRec s) s.flash.running) with active := s.flash.running } with hr
  obtain ⟨r0, r1, hwritten, hone⟩ := writeRec_form s r hdies
  set u := writeRec s r with hu
  have hfloor : versionFloor u = versionFloor s := by rw [hwritten]; rfl
  set v := if versionFloor u < imgMinVersion (imgHeader s s.flash.running) then
    sstStore u 18 (BitVec.ofNat 64 (imgMinVersion (imgHeader s s.flash.running))) else u with hv
  have hraised : versionFloor v = max (versionFloor s) (imgMinVersion (imgHeader s s.flash.running)) ∧ v.flash = u.flash ∧
      Quiet v := by
    have hqu : Quiet u := by
      rw [hwritten]
      exact hq
    rw [hv, hfloor]
    split
    · next hlow =>
      obtain ⟨hget, hflash, hquiet⟩ := sstStore_floor (by rw [hwritten]; exact hfuses) (by rw [hwritten]; exact hcount) hqu
        (BitVec.ofNat 64 (imgMinVersion (imgHeader s s.flash.running)))
      refine ⟨?_, hflash, hquiet⟩
      have hsmall := imgMinVersion_lt (imgHeader s s.flash.running)
      rw [versionFloor, hget, Nat.max_eq_right (Nat.le_of_lt hlow), BitVec.toNat_ofNat]
      omega
    · next hhigh => exact ⟨by rw [hfloor, Nat.max_eq_left (Nat.le_of_not_lt hhigh)], rfl, hqu⟩
  obtain ⟨hversion, hflash, hquiet⟩ := hraised
  have hcommit : commitImageSlot s = raise v 38 := rfl
  have hraise := LockedRoutes.raise_withEvents v 38
  have hcond : (4 : Master) = 4 ∧ s.coresRun = true ∧ (!s.flash.monitor) = true ∧ slotState (bootRec s) s.flash.running = 3 :=
    ⟨rfl, hrun, by rw [hmon]; rfl, hslot⟩
  have hfl : (raise v 38).flash = u.flash := (congrArg State.flash hraise :).trans hflash
  refine leads_guardedWrite (f := fun s => if (4 : Master) = 4 ∧ s.coresRun ∧ !s.flash.monitor ∧
    slotState (bootRec s) s.flash.running = 3 then commitImageSlot s else s) rfl hm ?_ ?_
  · rw [if_pos hcond, hcommit]
    exact quiet_withEvents hraise hquiet
  · rw [if_pos hcond, hcommit, hfl]
    refine ⟨?_, ?_, isPending_raise_same v (by decide), ?_⟩
    · rw [hwritten]
      exact hone
    · rw [← hversion]
      rw [hraise]
      rfl
    · rw [hwritten]

/-! ### The Deadman -/

/-- What a reset leaves whatever follows it: nothing is due, the cores are held, memory is empty. -/
def Cleared (boots : Word) (t : State) : Prop :=
  t.mode = .shed ∧ t.coresRun = false ∧ t.mem = [] ∧ t.vigil.boots = boots ∧ t.tripsDue = [] ∧ t.tracks = State.reset.tracks ∧
    t.hlk.usbWait = [] ∧ t.log.raised = false

theorem Cleared.quiet {boots : Word} {t : State} (h : Cleared boots t) : Quiet t := by
  obtain ⟨hmode, -, -, -, htrips, htracks, husb, hraised⟩ := h
  have htrack (k : Nat) : denseAt t k = false := by
    have hreset : trackAt t k = trackAt State.reset k := by rw [trackAt, htracks, trackAt]
    have hplain : (trackAt State.reset k).dense = false ∧ (trackAt State.reset k).fencing = false := by
      by_cases hk : k < 8
      · have hall : ∀ j : Fin 8, (trackAt State.reset j).dense = false ∧ (trackAt State.reset j).fencing = false := by decide
        exact hall ⟨k, hk⟩
      · have hout : trackAt State.reset k = Track.reset := by
          rw [trackAt, Vector.getElem?_eq_none (by omega)]
          rfl
        rw [hout]
        exact ⟨rfl, rfl⟩
    rw [denseAt, hreset, hplain.1, hplain.2]
    rfl
  refine ⟨htrips, ?_, fun h => ?_, ?_, hraised⟩
  · simp [fenceDue, htrack]
  · simp [sealing, hmode] at h
  · rw [usbDue, husb]

/-- The steps of a reset that end what the flash part was at: the log, the flash part, its error bits and events change. -/
def Recovered (s t : State) : Prop :=
  (t = withEvents { s with regs := t.regs, lastRaise := t.lastRaise, log := t.log, flash := t.flash } t ∧
    t.log.raised = s.log.raised) ∧ getR t Reg.DMN_CAUSE = getR s Reg.DMN_CAUSE

theorem Recovered.trans {s t u : State} (h : Recovered s t) (k : Recovered t u) : Recovered s u := by
  obtain ⟨⟨hform, hraised⟩, hcause⟩ := h
  obtain ⟨⟨kform, kraised⟩, kcause⟩ := k
  refine ⟨⟨?_, kraised.trans hraised⟩, kcause.trans hcause⟩
  rw [kform, hform]
  rfl

theorem recovers_of_logged {s t : State} (h : Logged s t) : Recovered s t := by
  obtain ⟨hform, hraised, hregs, -⟩ := h
  exact ⟨⟨hform, hraised⟩, hregs _ (by decide)⟩

theorem orErr_recovers (s : State) (m : Word) : Recovered s (orR s Reg.FLC_ERR m) :=
  ⟨⟨rfl, rfl⟩, getR_orR_other s m (by decide)⟩

theorem raiseIf_recovers (s : State) (b : Bool) (n : Nat) : Recovered s (raiseIf b s n) := by
  cases b
  · exact recovers_of_logged (Logged.refl s)
  · exact recovers_of_logged (raise_logged s n)

theorem suspectErase_recovers (e s : State) : Recovered s (suspectErase e s) := by
  unfold suspectErase
  split
  · exact ((recovers_of_logged (logged_of_form s _ _ rfl)).trans (orErr_recovers _ _)).trans (recovers_of_logged (raise_logged _ _))
  · exact recovers_of_logged (Logged.refl s)

theorem recoverStripe_recovers (e s : State) : Recovered s (recoverStripe e s) := by
  unfold recoverStripe
  split
  · exact ((recovers_of_logged (rewriteWordline_logged s)).trans (orErr_recovers _ _)).trans (recovers_of_logged (raise_logged _ _))
  · exact recovers_of_logged (Logged.refl s)

theorem Cleared.recovered {boots : Word} {t u : State} (h : Cleared boots t) (k : Recovered t u) : Cleared boots u := by
  obtain ⟨⟨hform, hraised⟩, -⟩ := k
  obtain ⟨h1, h2, h3, h4, h5, h6, h7, h8⟩ := h
  rw [hform]
  exact ⟨h1, h2, h3, h4, h5, h6, h7, hraised.trans h8⟩

theorem Cleared.keepRegs {boots : Word} {t : State} (h : Cleared boots t) (old : State) (link : Bool) : Cleared boots (keepRegs old t link) := by
  unfold Machine.keepRegs
  generalize keptRegs link = l
  induction l generalizing t with
  | nil => exact h
  | cons e l ih => exact ih (t := setR t _ _) h

theorem Cleared.loadSealLast {boots : Word} {t : State} (h : Cleared boots t) : Cleared boots (loadSealLast t) := by
  unfold Machine.loadSealLast
  split
  · exact h
  · exact h

theorem cleared_clearedState {s : State} (h : resetFault s = false) (causes : Nat) (link : Bool) :
    Cleared (s.vigil.boots + 1) (clearedState s causes link) := by
  have hboots : bootsRead s = s.vigil.boots := by
    rw [resetFault, Bool.or_eq_false_iff] at h
    rw [bootsRead, if_neg (by simp [h.1])]
  refine ⟨rfl, rfl, rfl, ?_, rfl, rfl, rfl, rfl⟩
  rw [← hboots]
  rfl

theorem endSession_keeps (s : State) : (endSession s).vigil = s.vigil ∧ (endSession s).badPrivate = s.badPrivate := by
  rw [endSession_shape s]
  exact ⟨rfl, rfl⟩

/-- The state of a reset once its cause, its mode and its tier are shown. -/
def shownReset (e a : State) (causes : Nat) : State :=
  let t := setFieldR (setFieldR a Reg.DMN_CAUSE 0 8 causes) Reg.DMN_CAUSE 10 3 (streakAfter e causes)
  let t := setR t Reg.SYS_MODE (place 8 8 1)
  showTier { t with power := { t.power with tier := tierFor t t.power.contractMw } } (tierFor t t.power.contractMw)

theorem shownReset_clears {boots : Word} {a : State} (h : Cleared boots a) (e : State) (causes : Nat) :
    Cleared boots (shownReset e a causes) := h

theorem shownReset_cause (e a : State) (causes : Nat) : fieldR (shownReset e a causes) Reg.DMN_CAUSE 0 8 = causes % 2 ^ 8 := by
  have hcause : getR (shownReset e a causes) Reg.DMN_CAUSE =
      getR (setFieldR (setFieldR a Reg.DMN_CAUSE 0 8 causes) Reg.DMN_CAUSE 10 3 (streakAfter e causes)) Reg.DMN_CAUSE := by
    unfold shownReset showTier
    rw [getR_setFieldR_other _ _ _ _ (by decide)]
    exact (getR_congr (s := setR (setFieldR (setFieldR a Reg.DMN_CAUSE 0 8 causes) Reg.DMN_CAUSE 10 3 (streakAfter e causes))
      Reg.SYS_MODE (place 8 8 1)) rfl Reg.DMN_CAUSE).trans (getR_setR_other _ Reg.SYS_MODE Reg.DMN_CAUSE _ (by decide))
  rw [fieldR, hcause, getR_setFieldR, bitsOf_withBits_other _ _ (by decide), getR_setFieldR, bitsOf_withBits_same _ _ (by decide)]

/-- A reset of a state without a session. -/
def resetFrom (e : State) (causes : Nat) (link : Bool) : State :=
  recoverStripe e (suspectErase e (shownReset e (loadSealLast (keepRegs e (clearedState e causes link) link)) causes))

theorem deviceReset_eq {s : State} (causes : Nat) (link : Bool) (h : resetFault (if sessionOn s then endSession s else s) = false) :
    deviceReset s causes link = tailDue (raiseIf (!(resetFrom (if sessionOn s then endSession s else s) causes link).fusesOk)
      (resetFrom (if sessionOn s then endSession s else s) causes link) 204) := by
  unfold deviceReset
  dsimp only
  rw [if_neg (by simp [h])]
  rfl

/-- What a reset leaves (R525, R540). -/
theorem deviceReset_cleared {s : State} (h : resetFault s = false) (causes : Nat) (link : Bool) :
    Cleared (s.vigil.boots + 1) (deviceReset s causes link) ∧ fieldR (deviceReset s causes link) Reg.DMN_CAUSE 0 8 = causes % 2 ^ 8 := by
  have hended : (if sessionOn s then endSession s else s).vigil = s.vigil ∧
      resetFault (if sessionOn s then endSession s else s) = false := by
    split
    · obtain ⟨hvigil, hprivate⟩ := endSession_keeps s
      refine ⟨hvigil, ?_⟩
      rw [resetFault, privateBad, privateBad, hprivate]
      exact h
    · exact ⟨rfl, h⟩
  rw [deviceReset_eq causes link hended.2]
  generalize (if sessionOn s then endSession s else s) = e at hended
  obtain ⟨hvigil, hgood⟩ := hended
  have hshown := shownReset_clears ((cleared_clearedState hgood causes link).keepRegs e link).loadSealLast e causes
  have hcause := shownReset_cause e (loadSealLast (keepRegs e (clearedState e causes link) link)) causes
  rw [hvigil] at hshown
  unfold resetFrom
  generalize shownReset e (loadSealLast (keepRegs e (clearedState e causes link) link)) causes = c at hshown hcause
  have hlogged : Recovered c (recoverStripe e (suspectErase e c)) :=
    (suspectErase_recovers e c).trans (recoverStripe_recovers e _)
  generalize recoverStripe e (suspectErase e c) = d at hlogged
  have hall := hlogged.trans (raiseIf_recovers d (!d.fusesOk) 204)
  generalize raiseIf (!d.fusesOk) d 204 = f at hall
  refine ⟨(show Cleared _ f from hshown.recovered hall), ?_⟩
  show bitsOf (getR f Reg.DMN_CAUSE) 0 8 = _
  rw [hall.2]
  exact hcause

theorem expire_clears {s : State} (n : BitVec 2) (hgasp : s.power.lastGasp = false) (hgood : resetFault s = false) :
    Quiet (expireDeadman s n.toNat) ∧ (expireDeadman s n.toNat).mode = .shed ∧
      fieldR (expireDeadman s n.toNat) Reg.DMN_CAUSE 0 8 = 2 ^ (2 + n.toNat) ∧ (expireDeadman s n.toNat).coresRun = false ∧
      (expireDeadman s n.toNat).mem = [] ∧ (expireDeadman s n.toNat).vigil.boots = s.vigil.boots + 1 := by
  have hreset : expireDeadman s n.toNat = deviceReset s (causeDeadman n.toNat) false := by
    rw [expireDeadman, abruptReset, if_neg (by simp [hgasp])]
  have hcause : causeDeadman n.toNat % 2 ^ 8 = 2 ^ (2 + n.toNat) := by
    have hall : ∀ n : BitVec 2, causeDeadman n.toNat % 2 ^ 8 = 2 ^ (2 + n.toNat) := by decide
    exact hall n
  obtain ⟨hcleared, hfield⟩ := deviceReset_cleared hgood (causeDeadman n.toNat) false
  rw [hreset]
  have hquiet := hcleared.quiet
  obtain ⟨hmode, hcores, hmem, hboots, -⟩ := hcleared
  exact ⟨hquiet, hmode, hfield.trans hcause, hcores, hmem, hboots⟩

theorem deadmanAt_setDeadman_same (s : State) (n : BitVec 2) (d : Deadman) : deadmanAt (setDeadman s n.toNat d) n.toNat = d := by
  have hn : n.toNat < 4 := n.isLt
  simp [deadmanAt, setDeadman, hn]

theorem deadmanAt_setDeadman_other (s : State) {n k : Nat} (d : Deadman) (h : k ≠ n) :
    deadmanAt (setDeadman s n d) k = deadmanAt s k := by
  simp [deadmanAt, setDeadman, Vector.getElem?_setIfInBounds, h.symm]

/-- A kick that the Deadman unit takes. -/
theorem leads_kick {s : State} {m : Master} {n : BitVec 2} {v : Word} {P : State → Prop} (hm : MayWrite s m (Reg.DMN_KICK n.toNat))
    (hmaster : m.toNat = 3 + 4 * n.toNat ∨ m.toNat = 4 + 4 * n.toNat) (hon : deadmanOn s n.toNat = true)
    (hlive : (coreAt s n.toNat).stopped = false) (hq : Quiet (kick s n.toNat v)) (hp : P (kick s n.toNat v)) :
    Leads (.deadmanKick m n v) s P := by
  have hcond : (m.toNat = 3 + 4 * n.toNat ∨ m.toNat = 4 + 4 * n.toNat) ∧ deadmanOn s n.toNat = true ∧
      (!(coreAt s n.toNat).stopped) = true := ⟨hmaster, hon, by rw [hlive]; rfl⟩
  refine leads_guardedWrite (f := fun s => if (m.toNat = 3 + 4 * n.toNat ∨ m.toNat = 4 + 4 * n.toNat) ∧ deadmanOn s n.toNat ∧
    !(coreAt s n.toNat).stopped then kick s n.toNat v else s) rfl hm ?_ ?_
  · rwa [if_pos hcond]
  · rwa [if_pos hcond]

/-- Settles O49: a nonce is drawn, an image committed, a Deadman kicked, warned of and expired, each in its own function. -/
theorem deadmanAndImages : Obligations.DeadmanAndImages := by
  refine ⟨nonce_read, image_commit, ?_, ?_, ?_, ?_, ?_, ?_⟩
  case refine_1 =>
    intro s m n hq hm hmaster hon hlive harmed
    have hkick : kick s n.toNat 0x5A5A = setDeadman s n.toNat { deadmanAt s n.toNat with armed := true } := by
      rw [kick, if_pos ⟨rfl, by rw [harmed]; rfl⟩]
    refine leads_kick hm hmaster hon hlive ?_ ?_
    · rw [hkick]
      exact (show Quiet s from hq)
    · rw [hkick]
      exact ⟨deadmanAt_setDeadman_same _ _ _, fun k hk => deadmanAt_setDeadman_other _ _ hk, rfl⟩
  case refine_2 =>
    intro s m n hq hm hmaster hon hlive harmed
    have hkick : kick s n.toNat 0xA5A5 =
        setDeadman s n.toNat { left := fieldR s (Reg.DMN_CTRL n.toNat) 0 16, armed := false } := by
      rw [kick, if_neg (fun h => absurd h.1 (by decide)), if_pos ⟨rfl, harmed⟩]
      rfl
    refine leads_kick hm hmaster hon hlive ?_ ?_
    · rw [hkick]
      exact (show Quiet s from hq)
    · rw [hkick]
      exact ⟨deadmanAt_setDeadman_same _ _ _, fun k hk => deadmanAt_setDeadman_other _ _ hk, rfl⟩
  case refine_3 =>
    intro s m n v hq hm hmaster hon hlive hgasp hgood h1 h2
    have hkick : kick s n.toNat v = expireDeadman s n.toNat := by
      rw [kick, if_neg (fun h => h1 h.1), if_neg (fun h => h2 h.1)]
    obtain ⟨hquiet, hmode, hcause, hcores, hmem, -⟩ := expire_clears n hgasp hgood
    refine leads_kick hm hmaster hon hlive ?_ ?_
    · rwa [hkick]
    · rw [hkick]
      exact ⟨hmode, hcause, hcores, hmem⟩
  case refine_4 =>
    intro s m n v hq hm hstopped
    have hcond : ¬ ((m.toNat = 3 + 4 * n.toNat ∨ m.toNat = 4 + 4 * n.toNat) ∧ deadmanOn s n.toNat = true ∧
      (!(coreAt s n.toNat).stopped) = true) := by
      rintro ⟨-, -, h⟩
      rw [hstopped] at h
      cases h
    refine leads_guardedWrite (f := fun s => if (m.toNat = 3 + 4 * n.toNat ∨ m.toNat = 4 + 4 * n.toNat) ∧ deadmanOn s n.toNat ∧
      !(coreAt s n.toNat).stopped then kick s n.toNat v else s) rfl hm ?_ ?_
    · rwa [if_neg hcond]
    · rw [if_neg hcond]
  case refine_5 =>
    intro s n hpower hon hpart hdue
    refine leads_next (t := raise s (33 + n.toNat)) ?_ ?_
    · have hexec : exec (.deadmanPrewarn n) s = execDeadmanPrewarn n s := rfl
      rw [hexec, execDeadmanPrewarn, if_pos (by simp only [hpower, hon, hpart, Bool.true_and, Bool.and_eq_true, decide_eq_true_eq]; exact ⟨hpart, hdue⟩)]
    · exact onlyRegs_then_raise (onlyRegs_refl s []) _
  case refine_6 =>
    intro s n hq hpower hon hleft hgasp hgood
    obtain ⟨hquiet, hfacts⟩ := expire_clears n hgasp hgood
    refine leads_done (t := expireDeadman s n.toNat) ?_ hquiet hfacts
    have hexec : exec (.deadmanExpiry n) s = execDeadmanExpiry n s := rfl
    rw [hexec, execDeadmanExpiry, if_pos (by simp [hpower, hon, hleft])]

end Sys2Proof.DeadmanAndImages
end

section
/-! PROOF. Lineside is commanded, and Caution is released (R445, R450, R453, R455, R456). -/

namespace Sys2Proof.LinesideUnit

open Sys2Proof.Machine Sys2Proof.Frames Sys2Proof.Chains Sys2Proof.LogFrames Sys2Proof.EventsAndSettings

/-! ### Sticky flags -/

theorem getLsbD_oneSource (n k : Nat) : (oneSource n).getLsbD k = (decide (k < 128) && decide (k = n)) := by
  rw [oneSource, BitVec.getLsbD_shiftLeft, BitVec.getLsbD_one]
  by_cases hlt : k < n
  · simp [hlt, Nat.ne_of_lt hlt]
  · by_cases heq : k = n
    · simp [heq]
    · simp [heq, show ¬ k - n = 0 by omega]

/-- The sticky flags of a list are cleared where the source is not asserted; nothing else of Lineside but evidence changes. -/
theorem clearSources (l : List Nat) (s : State) : ∃ sticky evidence,
    l.foldl clearSource s = { s with vigil := { s.vigil with sticky := sticky, evidence := evidence } } ∧
    ∀ k, k < 128 → sticky.getLsbD k = (s.vigil.sticky.getLsbD k && !(decide (k ∈ l) && !s.vigil.active.getLsbD k)) := by
  induction l generalizing s with
  | nil => exact ⟨s.vigil.sticky, s.vigil.evidence, rfl, fun k _ => by simp⟩
  | cons n l ih =>
    obtain ⟨sticky, evidence, hform, hbits⟩ := ih (clearSource s n)
    refine ⟨sticky, evidence, hform, fun k hk => ?_⟩
    have hactive : (clearSource s n).vigil.active = s.vigil.active := rfl
    rw [hbits k hk, hactive]
    have hone : (clearSource s n).vigil.sticky.getLsbD k =
        (s.vigil.sticky.getLsbD k && !(decide (k = n) && !s.vigil.active.getLsbD k)) := by
      show (if s.vigil.active.getLsbD n then s.vigil.sticky else s.vigil.sticky &&& ~~~(oneSource n)).getLsbD k = _
      by_cases hkn : k = n
      · subst hkn
        cases hactive : s.vigil.active.getLsbD k <;> simp [hactive, getLsbD_oneSource, hk]
      · split
        · simp [hkn]
        · simp only [BitVec.getLsbD_and, BitVec.getLsbD_not, getLsbD_oneSource, hkn, hk]
          simp
    rw [hone]
    by_cases hkn : k = n
    · simp only [hkn, List.mem_cons, true_or, decide_true]
      cases s.vigil.sticky.getLsbD n <;> cases s.vigil.active.getLsbD n <;> simp
    · simp [hkn]

theorem sticky_clear (s : State) (m : Master) (n : BitVec 2) (ones : Word) (hq : Quiet s) (hm : MayWrite s m (Reg.LSM_STICKY n.toNat))
    (hmode : s.mode = .commissioning) (hany : s.vigil.sticky &&& flagsOf n.toNat ones ≠ 0) : Leads (.stickyClear m n ones) s (fun t =>
      (∀ k, k < 128 → t.vigil.sticky.getLsbD k = (s.vigil.sticky.getLsbD k &&
        !((flagsOf n.toNat ones).getLsbD k && !s.vigil.active.getLsbD k))) ∧
      t.vigil.clearedC = s.vigil.count ∧ isPending t 174 = true ∧ t.mode = .commissioning ∧ t.vigil.trunk = s.vigil.trunk) := by
  set flags := s.vigil.sticky &&& flagsOf n.toNat ones with hflags
  obtain ⟨sticky, evidence, hform, hbits⟩ := clearSources ((List.range 128).filter (fun i => flags.getLsbD i)) s
  set g : State := { s with vigil := { s.vigil with sticky := sticky, evidence := evidence } } with hg
  set a : State := { g with vigil := { g.vigil with
    clearedC := g.vigil.count, highest := if g.vigil.sticky = 0 then 0xFF else g.vigil.highest } } with ha
  set body := le 16 flags.toNat ++ le 8 a.ttc.toNat ++ [BitVec.ofNat 8 (sessionLevel a)] ++ zeros 7 with hbody
  have hlogged : Logged a (raise (appendRecord a 0x32 body) 174) := (appendRecord_logged a _ _).trans (raise_logged _ _)
  have hclear : clearSticky s n.toNat ones = tailDue (raise (appendRecord a 0x32 body) 174) := by
    rw [clearSticky, if_neg (not_not.mpr hmode)]
    dsimp only
    rw [if_neg hany, hform]
  have hpending : isPending (raise (appendRecord a 0x32 body) 174) 174 = true := isPending_raise_same _ (by decide)
  have hquiet : Quiet (raise (appendRecord a 0x32 body) 174) := hlogged.quiet hq
  generalize raise (appendRecord a 0x32 body) 174 = t at hlogged hclear hpending hquiet
  obtain ⟨hshape, -⟩ := hlogged
  have hvigil : t.vigil = a.vigil := (congrArg State.vigil hshape :)
  have hkept : t.mode = s.mode := (congrArg State.mode hshape :)
  refine leads_guardedWrite (f := fun s => clearSticky s n.toNat ones) rfl hm ?_ ?_
  · rw [hclear]
    exact hquiet
  · rw [hclear]
    refine ⟨fun k hk => ?_, ?_, hpending, hkept.trans hmode, ?_⟩
    · show t.vigil.sticky.getLsbD k = _
      rw [hvigil]
      refine (hbits k hk).trans ?_
      have hmem : decide (k ∈ (List.range 128).filter (fun i => flags.getLsbD i)) =
          (s.vigil.sticky.getLsbD k && (flagsOf n.toNat ones).getLsbD k) := by
        rw [hflags]
        simp only [List.mem_filter, List.mem_range, hk, true_and, BitVec.getLsbD_and]
        cases s.vigil.sticky.getLsbD k <;> cases (flagsOf n.toNat ones).getLsbD k <;> rfl
      rw [hmem]
      cases s.vigil.sticky.getLsbD k <;> simp
    · show t.vigil.clearedC = _
      rw [hvigil]
    · show t.vigil.trunk = _
      rw [hvigil]

/-! ### Refusals and tests -/

theorem onlyRegs_orR (s : State) (a : Nat) (m : Word) : OnlyRegs s (orR s a m) [a] [] :=
  onlyRegs_of_regs rfl (sameRegs_setR (sameRegs_refl s _) List.mem_cons_self _)

theorem lsmErr_refuses (s : State) : bitR (lsmErr s 1) Reg.LSM_ERR 1 = true ∧ OnlyRegs s (lsmErr s 1) [Reg.LSM_ERR] [] := by
  refine ⟨?_, onlyRegs_orR s _ _⟩
  rw [bitR, lsmErr, getR_orR]
  simp [bit, place]

/-! ### Release -/

/-- What a release record and a rebuilt signature leave: of Lineside nothing, of the rest the log, keys, lanes, entropy, events. -/
def Backlogged (s t : State) : Prop :=
  t = withEvents { s with
    regs := t.regs, lastRaise := t.lastRaise, log := t.log, flash := t.flash, badPrivate := t.badPrivate
    keyCache := t.keyCache, lanes := t.lanes, ent := t.ent, entCtr := t.entCtr, su := t.su } t ∧
  t.log.raised = s.log.raised ∧ getR t Reg.LSM_RELEASE = getR s Reg.LSM_RELEASE ∧ Pends s t

theorem Backlogged.trans {s t u : State} (h : Backlogged s t) (k : Backlogged t u) : Backlogged s u := by
  obtain ⟨hform, hraised, hrelease, hpends⟩ := h
  obtain ⟨kform, kraised, krelease, kpends⟩ := k
  refine ⟨?_, kraised.trans hraised, krelease.trans hrelease, hpends.trans kpends⟩
  rw [kform, hform]
  rfl

theorem Backlogged.refl (s : State) : Backlogged s s := ⟨rfl, rfl, rfl, fun _ _ => id⟩

theorem backlogged_of_logged {s t : State} (h : Logged s t) : Backlogged s t := by
  obtain ⟨hform, hraised, hregs, hpends⟩ := h
  refine ⟨?_, hraised, hregs _ (by decide), hpends⟩
  rw [hform]
  rfl

theorem Backlogged.quiet {s t : State} (h : Backlogged s t) (hq : Quiet s) : Quiet t := by
  obtain ⟨hform, hraised, -⟩ := h
  obtain ⟨h1, h2, h3, h4, h5⟩ := hq
  rw [hform]
  exact ⟨h1, h2, h3, h4, hraised.trans h5⟩

/-- Keys on the way to a branch enter the cache. -/
theorem cachePath_form (s : State) (i : Nat) : ∃ cells cache, cachePath s i = { s with badPrivate := cells, keyCache := cache } := by
  unfold cachePath
  generalize (pathUp s.branches 9 i).reverse = l
  induction l generalizing s with
  | nil => exact ⟨s.badPrivate, s.keyCache, rfl⟩
  | cons j l ih =>
    obtain ⟨cells, cache, h⟩ := ih (cacheKey s (branchSlot s j))
    exact ⟨cells, cache, h⟩

theorem loadKey_form (s : State) (n i : Nat) : ∃ cells cache lanes,
    (loadKey s n i).state = { s with badPrivate := cells, keyCache := cache, lanes := lanes } := by
  unfold loadKey
  split
  · exact ⟨_, _, _, rfl⟩
  · dsimp only
    split
    · exact ⟨_, _, _, rfl⟩
    · obtain ⟨cells, cache, h⟩ := cachePath_form s i
      rw [h]
      exact ⟨_, _, _, rfl⟩

theorem signed_backlogged (s : State) (n : Nat) : Backlogged s (countR64 (drawn s n) Reg.LSU_SIGNS 1) :=
  ⟨rfl, rfl, sameRegs_setR64 (drawn s n) Reg.LSU_SIGNS _ _ (by decide), pends_of_evtPend rfl⟩

theorem signBy_backlogged (s : State) (i : Nat) (msg : Bytes) : Backlogged s (signBy s i msg).state := by
  obtain ⟨cells, cache, lanes, h⟩ := loadKey_form s (workLane s) i
  have hload : Backlogged s (loadKey s (workLane s) i).state := by
    rw [h]
    exact ⟨rfl, rfl, rfl, pends_of_evtPend rfl⟩
  unfold signBy signWith
  exact hload.trans (signed_backlogged _ _)

theorem unsigned_backlogged (s : State) (u : SealUnit) : Backlogged s { s with su := u } := ⟨rfl, rfl, rfl, pends_of_evtPend rfl⟩

theorem signBacklogOne_backlogged (s : State) : Backlogged s (signBacklogOne s) := by
  unfold signBacklogOne
  split
  · exact Backlogged.refl s
  · next u r _ =>
    dsimp only
    have hsigned := signBy_backlogged s (keyBranch s) (if u.plant then plantMsg u.header else manifestMsg u.header)
    generalize signBy s (keyBranch s) (if u.plant then plantMsg u.header else manifestMsg u.header) = a at hsigned
    exact (hsigned.trans (unsigned_backlogged _ _)).trans (backlogged_of_logged (appendRecord_logged _ _ _))

theorem signBacklogN_backlogged (n : Nat) (s : State) : Backlogged s (signBacklogN n s) := by
  induction n generalizing s with
  | zero => exact Backlogged.refl s
  | succ n ih => exact (signBacklogOne_backlogged s).trans (ih _)

theorem signBacklog_backlogged (s : State) : Backlogged s (signBacklog s) := by
  unfold signBacklog
  split
  · exact Backlogged.refl s
  · exact signBacklogN_backlogged _ _

/-- A device in Caution that goes to Running. -/
theorem changeMode_release {s : State} (h : s.mode = .caution) : changeMode s .running 4 =
    noteEpoch (setMode { s with lko := { s.lko with selfTimer := .due }, awaiting := none } .running 4) := by
  have hwas : sealing s = true := by simp [sealing, h]
  have hdue : selfDue s .running = { s with lko := { s.lko with selfTimer := .due } } := if_pos ⟨rfl, by rw [h]; decide⟩
  unfold changeMode
  simp only [hwas, h, hdue, decide_true, Bool.true_or, Bool.not_true, Bool.false_eq_true, and_false, if_false, if_true, true_or,
    reduceCtorEq, false_and]

/-- A device in Caution that goes to Running keeps Lineside's state and leaves nothing due. -/
theorem changeMode_released {s t : State} (h : s.mode = .caution) (ht : t = changeMode s .running 4) (hq : Quiet s) :
    Quiet t ∧ t.mode = .running ∧ t.vigil = s.vigil ∧ getR t Reg.LSM_RELEASE = getR s Reg.LSM_RELEASE ∧ Pends s t := by
  rw [changeMode_release h] at ht
  generalize hu : ({ s with lko := { s.lko with selfTimer := .due }, awaiting := none } : State) = u at ht
  generalize hv : setR { u with mode := .running, prevMode := u.mode } Reg.SYS_MODE (place 8 8 4) = v
  have hset : t = noteEpoch (tailDue (raise v 0)) := by rw [ht, setMode, hv]
  have hsealed : sealing s = true := by simp [sealing, h]
  have hrelease : getR v Reg.LSM_RELEASE = getR s Reg.LSM_RELEASE := by
    rw [← hv, ← hu]
    exact getR_setR_other _ Reg.SYS_MODE Reg.LSM_RELEASE _ (by decide)
  obtain ⟨h1, h2, h3, h4, h5⟩ := hq
  have hquiet : Quiet v := by
    rw [← hv, ← hu]
    exact ⟨h1, h2, fun _ => h3 hsealed, h4, h5⟩
  have hpends : Pends s v := by
    rw [← hv, ← hu]
    exact pends_of_evtPend rfl
  have hmode : v.mode = .running := by rw [← hv]; rfl
  have hvigil : v.vigil = s.vigil := by rw [← hv, ← hu]; rfl
  have hlogged := raise_logged v 0
  have hpend := pends_raise v 0
  have hq' := hlogged.quiet hquiet
  generalize raise v 0 = r at hset hlogged hpend hq'
  obtain ⟨hform, -, hregs, -⟩ := hlogged
  rw [hset]
  exact ⟨hq', (congrArg State.mode hform :).trans hmode, (congrArg State.vigil hform :).trans hvigil,
    (hregs Reg.LSM_RELEASE (by decide)).trans hrelease, hpends.trans hpend⟩

theorem acceptRelease_releases {s : State} (hq : Quiet s) (hmode : s.mode = .caution) : let t := acceptRelease s
    Quiet t ∧ t.mode = .running ∧ t.vigil.held = false ∧ releaseState t = 4 ∧ isPending t 172 = true ∧
    t.vigil.sticky = s.vigil.sticky := by
  unfold acceptRelease
  dsimp only
  generalize ha : setFieldR { s with vigil := { s.vigil with held := false } } Reg.LSM_RELEASE 0 3 4 = a
  have hqa : Quiet a := by
    rw [← ha]
    exact hq
  have hvigil : a.vigil = { s.vigil with held := false } := by rw [← ha]; rfl
  have hamode : a.mode = .caution := by rw [← ha]; exact hmode
  have hrelease : bitsOf (getR a Reg.LSM_RELEASE) 0 3 = 4 := by
    rw [← ha, getR_setFieldR, bitsOf_withBits_same _ _ (by decide)]
    rfl
  have hlogged : Logged a (raise (appendRecord a 0x31 (releaseRecord a)) 172) := (appendRecord_logged a _ _).trans (raise_logged _ _)
  have hpending : isPending (raise (appendRecord a 0x31 (releaseRecord a)) 172) 172 = true := isPending_raise_same _ (by decide)
  generalize raise (appendRecord a 0x31 (releaseRecord a)) 172 = b at hlogged hpending
  have hqb : Quiet b := hlogged.quiet hqa
  obtain ⟨hform, -, hregs, -⟩ := hlogged
  obtain ⟨hqc, hcmode, hcvigil, hcrelease, hcpends⟩ :=
    changeMode_released ((congrArg State.mode hform :).trans hamode) rfl hqb
  generalize changeMode b .running 4 = c at hqc hcmode hcvigil hcrelease hcpends
  have hback := signBacklog_backlogged (tailDue c)
  have hquiet := hback.quiet hqc
  generalize signBacklog (tailDue c) = t at hback hquiet
  obtain ⟨htform, -, htrelease, htpends⟩ := hback
  have htvigil : t.vigil = { s.vigil with held := false } :=
    (congrArg State.vigil htform :).trans (hcvigil.trans ((congrArg State.vigil hform :).trans hvigil))
  refine ⟨hquiet, (congrArg State.mode htform :).trans hcmode, by rw [htvigil], ?_,
    htpends 172 (by decide) (hcpends 172 (by decide) hpending), by rw [htvigil]⟩
  rw [releaseState, fieldR, htrelease]
  show bitsOf (getR c Reg.LSM_RELEASE) 0 3 = 4
  rw [hcrelease, hregs _ (by decide)]
  exact hrelease

theorem onlyRegs_setFieldR (s : State) (a lo n v : Nat) : OnlyRegs s (setFieldR s a lo n v) [a] [] :=
  onlyRegs_of_regs rfl (sameRegs_setR (sameRegs_refl s _) List.mem_cons_self _)

theorem setReason_sets (s : State) {r : Nat} (hr : r < 2 ^ 3) : fieldR (setReason s r) Reg.LSM_RELEASE 28 3 = r ∧
    releaseState (setReason s r) = releaseState s := by
  refine ⟨?_, ?_⟩
  · rw [setReason, fieldR, getR_setFieldR, bitsOf_withBits_same _ _ (by decide), Nat.mod_eq_of_lt hr]
  · rw [setReason, releaseState, fieldR, getR_setFieldR, bitsOf_withBits_other _ _ (by decide)]
    rfl

theorem commitReason_lt (s : State) : commitReason s < 2 ^ 3 := by
  unfold commitReason
  dsimp only
  split_ifs <;> decide

theorem commitReason_caution {s : State} (h : commitReason s = 0) : s.mode = .caution := by
  by_contra hmode
  rw [commitReason, if_pos hmode] at h
  cases h

theorem releaseOfCaution : Sys2Proof.Claims.ReleaseOfCaution := by
  refine ⟨?_, ?_, ?_, ?_, ?_, ?_⟩
  case refine_1 =>
    intro s hq hm hmode
    have harm : armRelease s 4 = setR { s with vigil := { s.vigil with armTtc := s.ttc } } Reg.LSM_RELEASE
        ((getR s Reg.LSM_RELEASE &&& 0x70000000) ||| 1) := by
      rw [armRelease, if_neg (not_not.mpr rfl), if_neg (not_not.mpr hmode)]
    refine leads_guardedWrite (f := fun s => armRelease s 4) rfl hm ?_ ?_
    · rw [harm]
      exact hq
    · rw [harm]
      refine ⟨?_, ?_, ?_, rfl, onlyRegs_of_regs rfl (sameRegs_setR (sameRegs_refl _ _) List.mem_cons_self _)⟩
      all_goals
        simp only [releaseState, fieldR, getR_setR_same, bitsOf_or, bitsOf_and]
        simp [bitsOf]
  case refine_2 =>
    intro s m c hq hm hmaster hc
    obtain ⟨hreason, hstate⟩ := setReason_sets s (r := 7) (by decide)
    have hp : fieldR (setReason s 7) Reg.LSM_RELEASE 28 3 = 7 ∧ releaseState (setReason s 7) = releaseState s ∧
        OnlyRegs s (setReason s 7) [Reg.LSM_RELEASE] [] := ⟨hreason, hstate, onlyRegs_setFieldR s _ _ _ _⟩
    simp only [List.mem_cons, List.not_mem_nil, or_false] at hc
    rcases hc with rfl | rfl
    · have harm : armRelease s m = setReason s 7 := if_pos hmaster
      refine leads_guardedWrite (f := fun s => armRelease s m) rfl hm ?_ ?_
      · rw [harm]
        exact hq
      · rwa [harm]
    · have hcommit : commitRelease s m = setReason s 7 := if_pos hmaster
      refine leads_guardedWrite (f := fun s => commitRelease s m) rfl hm ?_ ?_
      · rw [hcommit]
        exact hq
      · rwa [hcommit]
  case refine_3 =>
    intro s hq hm hreason
    have hcommit : commitRelease s 4 = acceptRelease s := by
      rw [commitRelease, if_neg (not_not.mpr rfl)]
      exact if_pos hreason
    obtain ⟨hquiet, hfacts⟩ := acceptRelease_releases hq (commitReason_caution hreason)
    refine leads_guardedWrite (f := fun s => commitRelease s 4) rfl hm ?_ ?_
    · rwa [hcommit]
    · rwa [hcommit]
  case refine_4 =>
    intro s hq hm hreason
    have hcommit : commitRelease s 4 = raise (setFieldR (setReason s (commitReason s)) Reg.LSM_RELEASE 0 3 0) 173 := by
      rw [commitRelease, if_neg (not_not.mpr rfl)]
      exact if_neg hreason
    have hregs : OnlyRegs s (setFieldR (setReason s (commitReason s)) Reg.LSM_RELEASE 0 3 0) [Reg.LSM_RELEASE] [] :=
      onlyRegs_of_regs rfl (sameRegs_setR (sameRegs_setR (sameRegs_refl s _) List.mem_cons_self _) List.mem_cons_self _)
    have honly := onlyRegs_then_raise hregs 173
    have hraised : ∀ a, getR (raise (setFieldR (setReason s (commitReason s)) Reg.LSM_RELEASE 0 3 0) 173) a =
        getR (setFieldR (setReason s (commitReason s)) Reg.LSM_RELEASE 0 3 0) a := fun a => by
      obtain ⟨q, o, e⟩ := raise_form (setFieldR (setReason s (commitReason s)) Reg.LSM_RELEASE 0 3 0) 173
      rw [e]
      rfl
    refine leads_guardedWrite (f := fun s => commitRelease s 4) rfl hm ?_ ?_
    · rw [hcommit]
      exact quiet_of_onlyRegs honly hq
    · rw [hcommit]
      refine ⟨(congrArg State.mode honly.1 :), (congrArg State.vigil honly.1 :), ?_, ?_, honly⟩
      · rw [releaseState, fieldR, hraised, getR_setFieldR, bitsOf_withBits_same _ _ (by decide)]
        rfl
      · rw [fieldR, hraised, getR_setFieldR, bitsOf_withBits_other _ _ (by decide)]
        exact (setReason_sets s (commitReason_lt s)).1
  case refine_5 =>
    intro s m hq hm
    have hreg : releaseState (setFieldR s Reg.LSM_RELEASE 0 3 0) = 0 := by
      rw [releaseState, fieldR, getR_setFieldR, bitsOf_withBits_same _ _ (by decide)]
      rfl
    exact leads_guardedWrite (f := fun s => setFieldR s Reg.LSM_RELEASE 0 3 0) rfl hm hq ⟨hreg, onlyRegs_setFieldR s _ _ _ _⟩
  case refine_6 =>
    intro s hopen hover
    refine leads_next (t := setFieldR s Reg.LSM_RELEASE 0 3 0) ?_ ⟨?_, onlyRegs_setFieldR s _ _ _ _⟩
    · have hexec : exec .releaseWindowExpiry s = execReleaseWindowExpiry s := rfl
      rw [hexec, execReleaseWindowExpiry, if_pos ⟨hopen, hover⟩]
    · rw [releaseState, fieldR, getR_setFieldR, bitsOf_withBits_same _ _ (by decide)]
      rfl

/-! ### Classes -/

theorem bitsOf_testing (w : Word) : bit (withBits w 9 3 2) 9 = false ∧ bitsOf (withBits w 9 3 2) 10 2 = 1 := by
  refine ⟨?_, ?_⟩
  · rw [bit, getLsbD_withBits]
    rfl
  · refine (bitsOf_ext (u := (0x400 : Word)) fun i hi => ?_).trans rfl
    rw [getLsbD_withBits]
    interval_cases i <;> rfl

theorem test_fields {src : BitVec 7} (det : Bool) (h : src.toNat ≤ 100) (s : State) :
    let f := testFields s src.toNat det
    bitsOf f 0 7 = src.toNat ∧ bitsOf (f ||| 0x200) 0 7 = src.toNat ∧ bit (f ||| 0x200) 7 = det ∧ bit (f ||| 0x200) 9 = true := by
  have hsrc : src.toNat < 2 ^ 7 := src.isLt
  have hlow : bitsOf (testFields s src.toNat det) 0 7 = src.toNat := by
    rw [testFields, if_pos h, bitsOf_or, bitsOf_place_same _ (by decide), bitsOf_place_other _ (by decide), Nat.mod_eq_of_lt hsrc]
    exact Nat.or_zero _
  refine ⟨hlow, ?_, ?_, ?_⟩
  · rw [bitsOf_or, hlow]
    exact Nat.or_zero _
  · rw [testFields, if_pos h]
    simp only [bit, BitVec.getLsbD_or, getLsbD_place]
    cases det <;> simp [b2n]
  · rw [bit, BitVec.getLsbD_or]
    simp

theorem test_started (s : State) (m : Master) (src : BitVec 7) (det : Bool) (hq : Quiet s) (hm : MayWrite s m Reg.LSM_TEST)
    (hmode : testMode s = true) (hfree : s.vigil.testing = none) (hsrc : src.toNat ≤ 100) :
    Leads (.lsmTestStart m src det) s (fun t =>
      t.vigil = { s.vigil with testing := some (src, det) } ∧ fieldR t Reg.LSM_TEST 0 7 = src.toNat ∧
      bitR t Reg.LSM_TEST 7 = det ∧ bitR t Reg.LSM_TEST 9 = true ∧ OnlyRegs { s with vigil := t.vigil } t [Reg.LSM_TEST] []) := by
  obtain ⟨hname, hfield, hdet, hbusy⟩ := test_fields det hsrc s
  have hstart : startTest s src.toNat det = setR { s with vigil := { s.vigil with testing := some (src, det) } } Reg.LSM_TEST
      (testFields s src.toNat det ||| 0x200) := by
    rw [startTest]
    dsimp only
    rw [if_neg (by simp [hmode]), if_neg (by simp [hfree]), hname, BitVec.ofNat_toNat, BitVec.setWidth_eq]
  refine leads_guardedWrite (f := fun s => startTest s src.toNat det) rfl hm ?_ ?_
  · rw [hstart]
    exact hq
  · rw [hstart]
    refine ⟨rfl, ?_, ?_, ?_, onlyRegs_of_regs rfl (sameRegs_setR (sameRegs_refl _ _) List.mem_cons_self _)⟩
    · rw [fieldR, getR_setR_same, hfield]
    · rw [bitR, getR_setR_same, hdet]
    · rw [bitR, getR_setR_same, hbusy]

theorem test_done (s : State) (hq : Quiet s) (htest : s.vigil.testing ≠ none) : Leads (.lsmTestDone true) s (fun t =>
    t.vigil = { s.vigil with testing := none } ∧ fieldR t Reg.LSM_TEST 10 2 = 1 ∧ bitR t Reg.LSM_TEST 9 = false ∧
    OnlyRegs { s with vigil := t.vigil } t [Reg.LSM_TEST] []) := by
  obtain ⟨x, hx⟩ := Option.ne_none_iff_exists'.mp htest
  obtain ⟨hbusy, hresult⟩ := bitsOf_testing (getR { s with vigil := { s.vigil with testing := none } } Reg.LSM_TEST)
  refine leads_done (t := setFieldR { s with vigil := { s.vigil with testing := none } } Reg.LSM_TEST 9 3 2) ?_ hq
    ⟨rfl, ?_, ?_, onlyRegs_setFieldR _ _ _ _ _⟩
  · have hexec : exec (.lsmTestDone true) s = execLsmTestDone true s := rfl
    rw [hexec, execLsmTestDone, hx]
    rfl
  · rw [fieldR, getR_setFieldR, hresult]
  · rw [bitR, getR_setFieldR, hbusy]

/-! ### Classes -/

/-- A word of two-bit classes with one of them replaced. -/
def withClass (old i new_ : Nat) : Nat := old - old / 4 ^ i % 4 * 4 ^ i + new_ * 4 ^ i

theorem withClass_eq (old i new_ : Nat) :
    withClass old i new_ = (old / 4 ^ i / 4 * 4 + new_) * 4 ^ i + old % 4 ^ i ∧ old = (old / 4 ^ i / 4 * 4 + old / 4 ^ i % 4) * 4 ^ i + old % 4 ^ i := by
  have hword : old = (old / 4 ^ i / 4 * 4 + old / 4 ^ i % 4) * 4 ^ i + old % 4 ^ i := by
    rw [show old / 4 ^ i / 4 * 4 + old / 4 ^ i % 4 = old / 4 ^ i by omega, Nat.mul_comm]
    exact (Nat.div_add_mod old (4 ^ i)).symm
  refine ⟨?_, hword⟩
  rw [withClass]
  generalize old / 4 ^ i / 4 * 4 = hi at hword ⊢
  generalize old / 4 ^ i % 4 = c at hword ⊢
  generalize old % 4 ^ i = lo at hword ⊢
  generalize 4 ^ i = p at hword ⊢
  simp only [Nat.add_mul] at hword ⊢
  omega

theorem withClass_same {i new_ : Nat} (old : Nat) (h : new_ < 4) : withClass old i new_ / 4 ^ i % 4 = new_ := by
  have hpos : 0 < 4 ^ i := Nat.pow_pos (by decide)
  rw [(withClass_eq old i new_).1, Nat.mul_comm, Nat.mul_add_div hpos, Nat.div_eq_of_lt (Nat.mod_lt _ hpos)]
  omega

theorem withClass_other {i k new_ : Nat} (old : Nat) (h : new_ < 4) (hk : k ≠ i) : withClass old i new_ / 4 ^ k % 4 = old / 4 ^ k % 4 := by
  have hpos : 0 < 4 ^ i := Nat.pow_pos (by decide)
  obtain ⟨hnew, hold⟩ := withClass_eq old i new_
  rcases Nat.lt_or_gt_of_ne hk with hlt | hgt
  · obtain ⟨d, rfl⟩ : ∃ d, i = k + 1 + d := ⟨i - (k + 1), by omega⟩
    have hlow (x : Nat) : (x * 4 ^ (k + 1 + d) + old % 4 ^ (k + 1 + d)) / 4 ^ k % 4 = old % 4 ^ (k + 1 + d) / 4 ^ k % 4 := by
      have hsplit : x * 4 ^ (k + 1 + d) = 4 ^ k * (4 * (x * 4 ^ d)) := by ring
      rw [hsplit, Nat.mul_add_div (Nat.pow_pos (by decide)), Nat.mul_add_mod]
    rw [hnew, hlow]
    conv_rhs => rw [hold]
    rw [hlow]
  · obtain ⟨d, rfl⟩ : ∃ d, k = i + 1 + d := ⟨k - (i + 1), by omega⟩
    have hhigh (x : Nat) (hx : x < 4) : ((old / 4 ^ i / 4 * 4 + x) * 4 ^ i + old % 4 ^ i) / 4 ^ (i + 1 + d) = old / 4 ^ i / 4 / 4 ^ d := by
      rw [show 4 ^ (i + 1 + d) = 4 ^ i * (4 * 4 ^ d) by ring, ← Nat.div_div_eq_div_mul, Nat.mul_comm, Nat.mul_add_div hpos,
        Nat.div_eq_of_lt (Nat.mod_lt _ hpos), Nat.add_zero, ← Nat.div_div_eq_div_mul]
      congr 1
      omega
    rw [hnew, hhigh _ h]
    conv_rhs => rw [hold]
    rw [hhigh _ (Nat.mod_lt _ (by decide))]

theorem withClass_lt {old i new_ : Nat} (hold : old < 2 ^ 64) (hi : i < 32) (h : new_ < 4) : withClass old i new_ < 2 ^ 64 := by
  have hpos : 0 < 4 ^ i := Nat.pow_pos (by decide)
  have hhigh : old / 4 ^ i / 4 < 4 ^ (31 - i) := by
    rw [Nat.div_div_eq_div_mul, Nat.div_lt_iff_lt_mul (by positivity)]
    refine Nat.lt_of_lt_of_eq hold ?_
    rw [← Nat.pow_succ, ← Nat.pow_add, show 31 - i + (i + 1) = 32 by omega]
    norm_num
  rw [(withClass_eq old i new_).1]
  have hlow := Nat.mod_lt old hpos
  calc (old / 4 ^ i / 4 * 4 + new_) * 4 ^ i + old % 4 ^ i
      < (old / 4 ^ i / 4 * 4 + new_) * 4 ^ i + 1 * 4 ^ i := by omega
    _ = (old / 4 ^ i / 4 * 4 + new_ + 1) * 4 ^ i := (Nat.add_mul _ _ _).symm
    _ ≤ (4 ^ (31 - i) * 4) * 4 ^ i := Nat.mul_le_mul_right _ (by omega)
    _ = 2 ^ 64 := by
      rw [← Nat.pow_succ, ← Nat.pow_add, show 31 - i + 1 + i = 32 by omega]
      norm_num

theorem classOf_congr {s t : State} (hsst : t.sst = s.sst) (hcells : t.badCells = s.badCells) (hfuses : t.fusesOk = s.fusesOk) (n : Nat) :
    classOf t n = classOf s n := by
  rw [classOf, storedClass, sstGet, hsst, hcells, hfuses, classOf, storedClass, sstGet]

/-- The state in which a raised class is recorded. -/
def classRaised (s : State) (src new_ : Nat) : State :=
  raise (appendRecord s 0x33 ([BitVec.ofNat 8 src, BitVec.ofNat 8 (classOf s src), BitVec.ofNat 8 new_] ++ zeros 5 ++
    le 8 s.ttc.toNat ++ zeros 8)) 175

theorem classRaised_logged (s : State) (src new_ : Nat) : Logged s (classRaised s src new_) :=
  (appendRecord_logged s _ _).trans (raise_logged _ _)

theorem classOf_classRaised (s : State) (src new_ n : Nat) : classOf (classRaised s src new_) n = classOf s n := by
  obtain ⟨hform, -⟩ := classRaised_logged s src new_
  exact classOf_congr (congrArg State.sst hform :) (congrArg State.badCells hform :) (congrArg State.fusesOk hform :) n

theorem raiseClass_same {s : State} {src new_ : Nat} (set : Nat) (h : new_ = classOf s src) : raiseClass s src new_ set = (s, set) :=
  if_pos (.inr h)

theorem raiseClass_higher {s : State} {src new_ : Nat} (set : Nat) (hsrc : src < 108) (h : classOf s src < new_) :
    raiseClass s src new_ set = (classRaised s src new_, withClass set (src % 32) new_) := by
  rw [raiseClass]
  dsimp only
  rw [if_neg (by omega), if_neg (by omega)]
  rfl

/-- A write that raises one class of its sixteen. -/
theorem raiseClasses_one {s : State} {first j : Nat} {v : Word} {old : Nat} (hsrc : first + j < 108)
    (hhigher : classOf s (first + j) < bitsOf v (2 * j) 2)
    (hsame : ∀ k, k < 16 → k ≠ j → bitsOf v (2 * k) 2 = classOf s (first + k)) (m : Nat) (hm : m ≤ 16) :
    (List.range m).foldl (fun a k => raiseClass a.1 (first + k) (bitsOf v (2 * k) 2) a.2) (s, old) =
      if j < m then (classRaised s (first + j) (bitsOf v (2 * j) 2), withClass old ((first + j) % 32) (bitsOf v (2 * j) 2))
      else (s, old) := by
  induction m with
  | zero => rfl
  | succ m ih =>
    rw [List.range_succ, List.foldl_append, List.foldl_cons, List.foldl_nil, ih (by omega)]
    by_cases hmj : m = j
    · subst hmj
      rw [if_neg (Nat.lt_irrefl m), if_pos (Nat.lt_succ_self m)]
      exact raiseClass_higher old hsrc hhigher
    · have hkept := hsame m (by omega) hmj
      split
      · rw [if_pos (by omega)]
        exact raiseClass_same _ (by rw [hkept, classOf_classRaised])
      · rw [if_neg (by omega)]
        exact raiseClass_same _ hkept

/-- A setting with the fuses whole, once it is written. -/
theorem sstStore_written {s : State} {i : Nat} (hfuses : s.fusesOk = true) (hcount : sstCount s i < 100000) (v : DWord) :
    let t := sstStore s i v
    sstGet t i = v ∧ (∀ k, k ≠ i → sstGet t k = sstGet s k) ∧ t.mode = s.mode ∧ t.vigil = s.vigil ∧ (Quiet s → Quiet t) ∧ Pends s t := by
  have hpend (u : State) (b : Bool) (n : Nat) : Pends u (raiseIf b u n) := by
    cases b
    · exact fun _ _ => id
    · exact pends_raise u n
  generalize hu : setR (sstPut { s with sstWear := mput s.sstWear i (sstCount s i + 1) } i v) Reg.SST_STATUS (1 ||| place 8 8 i) = u
  have hform := withEvents_trans (raiseIf_withEvents u (decide (sstCount s i + 1 = 90000)) 41)
    (raiseIf_withEvents _ (decide (sstCount s i + 1 = 100000)) 40)
  have hpends := (hpend u (decide (sstCount s i + 1 = 90000)) 41).trans (hpend _ (decide (sstCount s i + 1 = 100000)) 40)
  have hstore := sstStore_fits (v := v) hcount
  rw [hu] at hstore
  rw [← hstore] at hform hpends
  generalize sstStore s i v = t at hform hpends
  have hget (k : Nat) : sstGet t k = sstGet (sstPut { s with sstWear := mput s.sstWear i (sstCount s i + 1) } i v) k := by
    have hsst : t.sst = u.sst := (congrArg State.sst hform :)
    have hcells : t.badCells = u.badCells := (congrArg State.badCells hform :)
    have hfuse : t.fusesOk = u.fusesOk := (congrArg State.fusesOk hform :)
    rw [sstGet, hsst, hcells, hfuse, ← hu]
    rfl
  refine ⟨?_, fun k hk => ?_, ?_, ?_, fun hq => quiet_withEvents hform ?_, Pends.trans (pends_of_evtPend ?_) hpends⟩
  · rw [hget]
    exact sstGet_sstPut_same { s with sstWear := mput s.sstWear i (sstCount s i + 1) } i v hfuses
  · rw [hget, sstGet_sstPut_other _ _ _ _ hk]
    rfl
  · exact (congrArg State.mode hform :).trans (by rw [← hu]; rfl)
  · exact (congrArg State.vigil hform :).trans (by rw [← hu]; rfl)
  · rw [← hu]
    exact hq
  · rw [← hu]
    rfl

theorem bitsOf_two (v : Word) (k : Nat) : bitsOf v (2 * k) 2 < 4 := bitsOf_lt v (2 * k) 2

theorem class_raised (s : State) (m : Master) (n : BitVec 2) (hi : Bool) (v : Word) (j : Nat) (hq : Quiet s)
    (hm : MayWrite s m (Reg.LSM_CLASS n.toNat + if hi then 4 else 0)) (hmode : s.mode = .running ∨ s.mode = .commissioning)
    (hcount : sstCount s (10 + n.toNat) < 100000) (hj : j < 16) :
    let src := fun k => 32 * n.toNat + (if hi then 16 else 0) + k
    src j < 108 → classOf s (src j) < bitsOf v (2 * j) 2 →
    (∀ k, k < 16 → k ≠ j → bitsOf v (2 * k) 2 = classOf s (src k)) → Leads (.classWrite m n hi v) s (fun t =>
      classOf t (src j) = bitsOf v (2 * j) 2 ∧ (∀ k, k ≠ src j → classOf t k = classOf s k) ∧ isPending t 175 = true ∧
      t.mode = s.mode ∧ t.vigil = s.vigil) := by
  intro src hsrc hhigher hsame
  set first := 32 * n.toNat + (if hi then 16 else 0) with hfirst
  have hplace : (first + j) % 32 = (if hi then 16 else 0) + j ∧ (first + j) / 32 = n.toNat := by
    rw [hfirst]
    split <;> omega
  set i := (first + j) % 32 with hidef
  have hi32 : i < 32 := Nat.mod_lt _ (by decide)
  set old := (sstGet s (10 + n.toNat)).toNat with hold
  set new_ := bitsOf v (2 * j) 2 with hnew
  have hnew4 : new_ < 4 := bitsOf_two v j
  have hfold := raiseClasses_one (old := old) hsrc hhigher hsame 16 (Nat.le_refl 16)
  rw [if_pos hj] at hfold
  have hlogged := classRaised_logged s (first + j) new_
  have hclass := classOf_classRaised s (first + j) new_
  have hpending : isPending (classRaised s (first + j) new_) 175 = true := isPending_raise_same _ (by decide)
  have hchanged : withClass old i new_ ≠ old := by
    intro heq
    have hdigit := withClass_same old hnew4 (i := i)
    rw [heq] at hdigit
    have hle : storedClass s (first + j) ≤ classOf s (first + j) := by
      rw [classOf, if_neg (by exact Nat.not_le.mpr hsrc)]
      exact Nat.le_max_right _ _
    have hstored : storedClass s (first + j) = new_ := by
      rw [storedClass, hplace.2]
      exact hdigit
    have hlow : classOf s (first + j) < new_ := hhigher
    omega
  have hcount' : sstCount (classRaised s (first + j) new_) (10 + n.toNat) < 100000 := by
    rw [sstCount, show (classRaised s (first + j) new_).sstWear = s.sstWear from (congrArg State.sstWear hlogged.1 :)]
    exact hcount
  have hwhole : s.fusesOk = true := fusesOk_of_mayWrite hm
  have hfuses : (classRaised s (first + j) new_).fusesOk = true := (congrArg State.fusesOk hlogged.1 :).trans hwhole
  have hsst (k : Nat) : sstGet (classRaised s (first + j) new_) k = sstGet s k := by
    rw [sstGet, show (classRaised s (first + j) new_).sst = s.sst from (congrArg State.sst hlogged.1 :),
      show (classRaised s (first + j) new_).badCells = s.badCells from (congrArg State.badCells hlogged.1 :),
      show (classRaised s (first + j) new_).fusesOk = s.fusesOk from (congrArg State.fusesOk hlogged.1 :), sstGet]
  have hmode' : (classRaised s (first + j) new_).mode = s.mode := (congrArg State.mode hlogged.1 :)
  have hvigil' : (classRaised s (first + j) new_).vigil = s.vigil := (congrArg State.vigil hlogged.1 :)
  have hquiet' : Quiet (classRaised s (first + j) new_) := hlogged.quiet hq
  have hwrite : writeClass s n.toNat hi v = sstStore (classRaised s (first + j) new_) (10 + n.toNat)
      (BitVec.ofNat 64 (withClass old i new_)) := by
    have hfits : ¬ 100000 ≤ sstCount s (10 + n.toNat) := by omega
    have hallowed : ¬ (s.mode ≠ .running ∧ s.mode ≠ .commissioning) := fun h => hmode.elim h.1 h.2
    rw [writeClass, if_neg hallowed, if_neg hfits]
    dsimp only
    rw [hfold, if_neg hchanged]
  obtain ⟨hget, hother, hsmode, hsvigil, hsquiet, hspends⟩ :=
    sstStore_written hfuses hcount' (BitVec.ofNat 64 (withClass old i new_))
  generalize sstStore (classRaised s (first + j) new_) (10 + n.toNat) (BitVec.ofNat 64 (withClass old i new_)) = t
    at hwrite hget hother hsmode hsvigil hsquiet hspends
  have hvalue : (sstGet t (10 + n.toNat)).toNat = withClass old i new_ := by
    rw [hget, BitVec.toNat_ofNat, Nat.mod_eq_of_lt (withClass_lt (sstGet s (10 + n.toNat)).isLt hi32 hnew4)]
  refine leads_guardedWrite (f := fun s => writeClass s n.toNat hi v) rfl hm ?_ ?_
  · rw [hwrite]
    exact hsquiet hquiet'
  · rw [hwrite]
    refine ⟨?_, fun k hk => ?_, hspends 175 (by decide) hpending, hsmode.trans hmode', hsvigil.trans hvigil'⟩
    · show classOf t (first + j) = new_
      have hstored : storedClass t (first + j) = new_ := by
        rw [storedClass, hplace.2, hvalue]
        exact withClass_same old hnew4
      have hdefault : defaultClass (first + j) ≤ classOf s (first + j) := by
        rw [classOf, if_neg (by exact Nat.not_le.mpr hsrc)]
        exact Nat.le_max_left _ _
      have hlow : classOf s (first + j) < new_ := hhigher
      rw [classOf, if_neg (by exact Nat.not_le.mpr hsrc), hstored]
      omega
    · have hstored : storedClass t k = storedClass s k := by
        rw [storedClass, storedClass]
        by_cases hword : k / 32 = n.toNat
        · have hdigit : k % 32 ≠ i := by
            intro heq
            have hsame : k = first + j := by omega
            exact hk hsame
          rw [hword, hvalue, withClass_other old hnew4 hdigit]
        · rw [hother _ (by omega), hsst]
      rw [classOf, hstored, classOf]

theorem linesideControl : Sys2Proof.Claims.LinesideControl := by
  refine ⟨sticky_clear, ?_, class_raised, ?_, test_started, test_done⟩
  case refine_1 =>
    intro s m n ones hq hm hmode
    obtain ⟨hbit, honly⟩ := lsmErr_refuses s
    have hclear : clearSticky s n.toNat ones = lsmErr s 1 := if_pos hmode
    refine leads_guardedWrite (f := fun s => clearSticky s n.toNat ones) rfl hm ?_ ?_
    · rw [hclear]
      exact hq
    · rw [hclear]
      exact ⟨hbit, rfl, honly⟩
  case refine_2 =>
    intro s m n hi v hq hm hrun hcom
    have hwrite : writeClass s n.toNat hi v = lsmErr s 1 := if_pos ⟨hrun, hcom⟩
    refine leads_guardedWrite (f := fun s => writeClass s n.toNat hi v) rfl hm ?_ ?_
    · rw [hwrite]
      exact hq
    · rw [hwrite]
      exact lsmErr_refuses s

/-- Settles O42: each command of Lineside is a write of its own state; a release goes to Running with nothing due. -/
theorem linesideUnit : Obligations.LinesideUnit := ⟨linesideControl, releaseOfCaution⟩

end Sys2Proof.LinesideUnit
end

section
/-! PROOF. Transfers over plain memory (R25, R28, R416): their parts tile the bytes, a check of them passes, and a write that an
engine makes in parts reads back as one. -/

namespace Sys2Proof.PlainMemory

open Sys2Proof.Machine Sys2Proof.Basics Sys2Proof.DebugAccessMemory Sys2Proof.MemoryForms

/-! ### The parts of a transfer -/

/-- The parts of a list follow each other without a gap from `p` to `e`. -/
def Tiles : List (Nat × Nat) → Nat → Nat → Prop
  | [], p, e => p = e
  | x :: r, p, e => x.1 = p ∧ 0 < x.2 ∧ p + x.2 ≤ e ∧ Tiles r (p + x.2) e

theorem tiles_cons (x : Nat × Nat) (r : List (Nat × Nat)) (p e : Nat) :
    Tiles (x :: r) p e ↔ x.1 = p ∧ 0 < x.2 ∧ p + x.2 ≤ e ∧ Tiles r (p + x.2) e := Iff.rfl

theorem tiles_pages (e k q : Nat) (hfirst : q * 4096 < e) (hlast : (e - 1) / 4096 = q + k) :
    Tiles (((List.range (k + 1)).map (fun i => (q + i) * 4096)).map (fun p => (p, min (4096 - p % 4096) (e - p)))) (q * 4096) e := by
  induction k generalizing q with
  | zero =>
    have hmin : q * 4096 + min (4096 - q * 4096 % 4096) (e - q * 4096) = e := by omega
    have hpos : 0 < min (4096 - q * 4096 % 4096) (e - q * 4096) := by omega
    simp only [Nat.zero_add, List.range_one, List.map_cons, List.map_nil, Nat.add_zero]
    rw [tiles_cons]
    refine ⟨rfl, hpos, ?_, ?_⟩
    · rw [hmin]
    · rw [hmin]
      rfl
  | succ k ih =>
    have hnext : (q + 1) * 4096 < e := by
      have hle : (e - 1) / 4096 * 4096 ≤ e - 1 := Nat.div_mul_le_self _ _
      have hmono : (q + 1) * 4096 ≤ (q + (k + 1)) * 4096 := Nat.mul_le_mul_right _ (by omega)
      rw [hlast] at hle
      exact Nat.lt_of_le_of_lt (hmono.trans hle) (Nat.sub_lt (Nat.zero_lt_of_lt hfirst) Nat.one_pos)
    have hstep := ih (q + 1) hnext (by omega)
    have hpage : q * 4096 + min (4096 - q * 4096 % 4096) (e - q * 4096) = (q + 1) * 4096 := by omega
    have hpos : 0 < min (4096 - q * 4096 % 4096) (e - q * 4096) := by omega
    have hend : (q + 1) * 4096 ≤ e := by omega
    have hshift : ((fun i => (q + i) * 4096) ∘ Nat.succ) = fun i => (q + 1 + i) * 4096 := by
      funext i
      rw [Function.comp_apply, Nat.succ_eq_add_one, Nat.add_assoc, Nat.add_comm 1 i]
    rw [List.range_succ_eq_map, List.map_cons, List.map_map, hshift, List.map_cons, tiles_cons, Nat.add_zero]
    refine ⟨rfl, hpos, ?_, ?_⟩
    · rw [hpage]
      exact hend
    · rw [hpage]
      exact hstep

theorem tiles_partRanges {a n : Nat} (hn : 0 < n) : Tiles (partRanges a n) a (a + n) := by
  unfold partRanges parts
  rw [if_neg (by omega), List.map_cons]
  obtain hone | ⟨k, hk⟩ : (a + n - 1) / 4096 - a / 4096 = 0 ∨ ∃ k, (a + n - 1) / 4096 - a / 4096 = k + 1 := by
    cases (a + n - 1) / 4096 - a / 4096 with
    | zero => exact .inl rfl
    | succ k => exact .inr ⟨k, rfl⟩
  · rw [hone]
    simp only [List.range_zero, List.map_nil, Tiles, true_and]
    omega
  · rw [hk]
    have hpages := tiles_pages (a + n) k (a / 4096 + 1) (by omega) (by omega)
    refine ⟨rfl, by dsimp only; omega, by dsimp only; omega, ?_⟩
    have hnext : a + min (4096 - a % 4096) (a + n - a) = (a / 4096 + 1) * 4096 := by omega
    dsimp only
    rw [hnext]
    exact hpages

theorem partRanges_zero (a : Nat) : partRanges a 0 = [] := rfl

/-! ### A check that passes -/

/-- A part that a master may write. -/
def Writable (s : State) (m : Master) (x : Nat × Nat) : Prop :=
  mapped x.1 = true ∧ permits s m .write x.1 = true ∧ badPartial? s x.1 x.2 = none ∧ isRam x.1 = true ∧ opRamClosed s m x.1 x.2 = false

theorem reachPart_writable {s : State} {m : Master} {p n : Nat} (h : Writable s m (p, n)) :
    reachPart s m .write p n = { state := s, outcome := .ok } := by
  obtain ⟨hmapped, hpermits, hcell, -, -⟩ := h
  unfold reachPart
  rw [if_neg (by simp [hmapped]), if_neg (by simp [hpermits]), if_pos rfl, hcell]

theorem reachParts_readable {s : State} {m : Master} {k : Kind} {l : List (Nat × Nat)} (hk : k ≠ .write)
    (h : ∀ x ∈ l, mapped x.1 = true ∧ permits s m k x.1 = true ∧ badCell? s x.1 x.2 = none) :
    reachParts m k l s = { state := s, outcome := .ok } := by
  induction l with
  | nil => rfl
  | cons x l ih =>
    obtain ⟨hmapped, hpermits, hcell⟩ := h x List.mem_cons_self
    have hpart : reachPart s m k x.1 x.2 = { state := s, outcome := .ok } := by
      unfold reachPart
      rw [if_neg (by simp [hmapped]), if_neg (by simp [hpermits]), if_neg hk, hcell]
    unfold reachParts
    dsimp only
    rw [hpart]
    exact ih (fun y hy => h y (List.mem_cons_of_mem _ hy))

/-- A read of plain memory is served and changes nothing. -/
theorem reach_plain {s : State} {m : Master} {a n : Nat} (h : PlainRead s m a n) :
    reach s m .read a n = { state := s, outcome := .ok } := by
  obtain ⟨hspecial, hparts⟩ := h
  unfold reach
  dsimp only
  rw [reachParts_readable (by decide) hparts, if_pos ⟨rfl, by decide⟩]
  simp [noteRead, hspecial]

theorem reachParts_ok {s : State} {m : Master} {k : Kind} {l : List (Nat × Nat)} (hk : k ≠ .write)
    (h : (reachParts m k l s).outcome = .ok) :
    (reachParts m k l s).state = s ∧ ∀ x ∈ l, mapped x.1 = true ∧ permits s m k x.1 = true ∧ badCell? s x.1 x.2 = none := by
  induction l with
  | nil => exact ⟨rfl, fun _ hx => absurd hx List.not_mem_nil⟩
  | cons x l ih =>
    unfold reachParts at h ⊢
    dsimp only at h ⊢
    unfold reachPart at h ⊢
    rw [if_neg hk] at h ⊢
    by_cases hmapped : mapped x.1 = true
    · by_cases hpermits : permits s m k x.1 = true
      · cases hcell : badCell? s x.1 x.2 with
        | some c => simp [hmapped, hpermits, hcell] at h
        | none =>
          simp only [hmapped, hpermits, hcell, Bool.not_true, Bool.false_eq_true, if_false, if_true] at h ⊢
          obtain ⟨hstate, hrest⟩ := ih h
          refine ⟨hstate, fun y hy => ?_⟩
          rcases List.mem_cons.mp hy with rfl | hy
          · exact ⟨hmapped, hpermits, hcell⟩
          · exact hrest y hy
      · simp [hmapped, hpermits] at h
    · simp [hmapped] at h

/-- A read that is served changes at most the count of free values. -/
theorem reach_ok {s : State} {m : Master} {a n : Nat} (h : (reach s m .read a n).outcome = .ok) :
    (reach s m .read a n).state = noteRead s a n ∧
      ∀ x ∈ partRanges a n, mapped x.1 = true ∧ permits s m .read x.1 = true ∧ badCell? s x.1 x.2 = none := by
  unfold reach at h ⊢
  dsimp only at h ⊢
  split at h
  · next hparts =>
    obtain ⟨hstate, hall⟩ := reachParts_ok (by decide) hparts.1
    rw [if_pos hparts, hstate]
    exact ⟨rfl, hall⟩
  · next hparts => exact absurd ⟨h, by decide⟩ hparts

theorem noteRead_count (s : State) (a n : Nat) : s.freeCtr ≤ (noteRead s a n).freeCtr ∧
    ((noteRead s a n).freeCtr = s.freeCtr → meetsSpecial a n = false ∧ noteRead s a n = s) := by
  unfold noteRead
  split
  · exact ⟨Nat.le_succ _, fun h => absurd h (Nat.succ_ne_self _)⟩
  · next h => exact ⟨Nat.le_refl _, fun _ => ⟨by simpa using h, rfl⟩⟩

/-- A read that is served and changes nothing is one of plain memory: a special region uses a free value. -/
theorem plainRead_of_reach {s : State} {m : Master} {a n : Nat} (h : reach s m .read a n = { state := s, outcome := .ok }) :
    PlainRead s m a n := by
  obtain ⟨hstate, hparts⟩ := reach_ok (s := s) (m := m) (a := a) (n := n) (by rw [h])
  have hnote : noteRead s a n = s := hstate.symm.trans (by rw [h])
  exact ⟨((noteRead_count s a n).2 (by rw [hnote])).1, hparts⟩

theorem permits_setR (s : State) {b : Nat} (v : Word) (hb : b ≠ Reg.ILK_STATUS) (m : Master) (k : Kind) (a : Nat) :
    permits (setR s b v) m k a = permits s m k a := by
  have hlevel : getR (setR s b v) Reg.ILK_STATUS = getR s Reg.ILK_STATUS := getR_setR_other s b _ v (Ne.symm hb)
  have hdecide (r : SMap Route) : decideBy (setR s b v) r m k a = decideBy s r m k a := by
    unfold decideBy sessionLevel fieldR
    rw [hlevel]
    rfl
  have hroutes : routesPermit (setR s b v) m k a = routesPermit s m k a := by
    unfold routesPermit
    simp only [hdecide]
    rfl
  rw [permits, hroutes]
  rfl

theorem plainRead_setR {s : State} {m : Master} {a n b : Nat} (v : Word) (hb : b ≠ Reg.ILK_STATUS) (h : PlainRead s m a n) :
    PlainRead (setR s b v) m a n := by
  refine ⟨h.1, fun x hx => ?_⟩
  obtain ⟨hmapped, hpermits, hcell⟩ := h.2 x hx
  exact ⟨hmapped, (permits_setR s v hb m .read x.1).trans hpermits, hcell⟩

theorem engineBytes_plain {s : State} {m : Master} {a n : Nat} (h : PlainRead s m a n) : engineBytes s a n = memBytes s a n := by
  unfold engineBytes
  rw [if_neg (by simp [h.1])]

theorem reachParts_writable {s : State} {m : Master} {l : List (Nat × Nat)} (h : ∀ x ∈ l, Writable s m x) :
    reachParts m .write l s = { state := s, outcome := .ok } := by
  induction l with
  | nil => rfl
  | cons x l ih =>
    unfold reachParts
    dsimp only
    rw [reachPart_writable (h x List.mem_cons_self)]
    exact ih (fun y hy => h y (List.mem_cons_of_mem _ hy))

/-- A check of a write to plain memory passes. -/
theorem reach_plainWrite {s : State} {m : Master} {a n : Nat} (h : PlainWrite s m a n) :
    reach s m .write a n = { state := s, outcome := .ok } := by
  obtain ⟨-, hparts⟩ := h
  unfold reach
  dsimp only
  rw [reachParts_writable hparts, if_neg (by simp)]

/-! ### A write in parts -/

theorem memByte_memWrite (s : State) (a : Nat) (b : Bytes) (x : Nat) :
    memByte (memWrite s a b) x = if a ≤ x ∧ x < a + b.length then b.getD (x - a) 0 else memByte s x := by
  by_cases h : a ≤ x ∧ x < a + b.length
  · obtain ⟨i, rfl⟩ : ∃ i, x = a + i := ⟨x - a, by omega⟩
    rw [if_pos h, Nat.add_sub_cancel_left, List.getD_eq_getElem b 0 (by omega)]
    exact mget_putBytes_in s.mem a b i (by omega)
  · rw [if_neg h]
    exact memByte_memWrite_out s a b x (by omega)

theorem plainWrite_setR {s : State} {m : Master} {a n b : Nat} (v : Word) (hb : b ≠ Reg.ILK_STATUS) (hlock : b ≠ Reg.MAE_LOCK)
    (h : PlainWrite s m a n) : PlainWrite (setR s b v) m a n := by
  refine ⟨h.1, fun x hx => ?_⟩
  obtain ⟨hmapped, hpermits, hcell, hram, hopen⟩ := h.2 x hx
  refine ⟨hmapped, (permits_setR s v hb m .write x.1).trans hpermits, hcell, hram, ?_⟩
  rw [opRamClosed, getR_setR_other _ _ _ _ (Ne.symm hlock)]
  exact hopen

theorem badPartial_memWrite {s : State} {p n : Nat} (h : badPartial? s p n = none) (a : Nat) (b : Bytes) :
    badPartial? (memWrite s a b) p n = none := by
  unfold badPartial? at h ⊢
  split
  · rfl
  · next hn =>
    rw [if_neg hn, List.find?_eq_none] at h
    rw [List.find?_eq_none]
    exact fun c hc => h c ((mem_badCells_memWrite s a b c).mp hc).1

theorem Writable.memWrite {s : State} {m : Master} {x : Nat × Nat} (h : Writable s m x) (a : Nat) (b : Bytes) :
    Writable (memWrite s a b) m x := by
  obtain ⟨hmapped, hpermits, hcell, hram, hopen⟩ := h
  exact ⟨hmapped, hpermits, badPartial_memWrite hcell a b, hram, hopen⟩

/-- `t` is `s` with the bytes `b` from `p` on, taken as they stand from `a`, up to `e`. -/
def Holds (s t : State) (a : Nat) (b : Bytes) (p e : Nat) : Prop :=
  (∀ x, memByte t x = if p ≤ x ∧ x < e then b.getD (x - a) 0 else memByte s x) ∧
  t = { s with mem := t.mem, badCells := t.badCells }

theorem storeBytes_writable {s : State} {m : Master} {a n p k : Nat} {c : Bytes} (hspecial : meetsSpecial a n = false)
    (hin : a ≤ p ∧ p < a + n) (h : Writable s m (p, k)) (hc : c.length = k) : storeBytes s m p c = memWrite s p c := by
  obtain ⟨-, -, -, hram, hopen⟩ := h
  have hcache : isCtxCache p = false := by
    unfold meetsSpecial at hspecial
    simp only [Bool.and_eq_false_iff, Bool.or_eq_false_iff, decide_eq_false_iff_not] at hspecial
    simp only [isCtxCache, within, decide_eq_false_iff_not]
    omega
  unfold storeBytes
  rw [hc, if_neg (by simp [hram]), if_neg (by simp [hopen]), if_neg (by simp [hcache])]

theorem writeParts_plain {m : Master} {a : Nat} {b : Bytes} {l : List (Nat × Nat)} {s : State} {p : Nat}
    (hspecial : meetsSpecial a b.length = false) (htiles : Tiles l p (a + b.length)) (ha : a ≤ p) (h : ∀ x ∈ l, Writable s m x) :
    ∃ t, writeParts m a b l s = { state := t, outcome := .ok } ∧ Holds s t a b p (a + b.length) := by
  induction l generalizing s p with
  | nil =>
    refine ⟨s, rfl, fun x => ?_, rfl⟩
    have hp : p = a + b.length := htiles
    rw [if_neg (by omega)]
  | cons x l ih =>
    obtain ⟨q, k⟩ := x
    obtain ⟨hq, hk, hend, hrest⟩ := htiles
    change q = p at hq
    subst hq
    dsimp only at hk hend hrest
    have hfirst : Writable s m (q, k) := h _ List.mem_cons_self
    have hlen : ((b.drop (q - a)).take k).length = k := by
      simp only [List.length_take, List.length_drop]
      omega
    unfold writeParts
    dsimp only
    rw [reachPart_writable hfirst, if_pos rfl, storeBytes_writable hspecial ⟨ha, by omega⟩ hfirst hlen]
    obtain ⟨t, ht, hbytes, hstate⟩ := ih (s := memWrite s q ((b.drop (q - a)).take k)) hrest (by omega)
      (fun y hy => (h y (List.mem_cons_of_mem _ hy)).memWrite _ _)
    refine ⟨t, ht, fun x => ?_, by rw [hstate]; rfl⟩
    rw [hbytes x, memByte_memWrite, hlen]
    by_cases hlate : q + k ≤ x ∧ x < a + b.length
    · rw [if_pos hlate, if_pos (by omega)]
    · rw [if_neg hlate]
      by_cases hhere : q ≤ x ∧ x < q + k
      · rw [if_pos hhere, if_pos (by omega)]
        have hback : q - a + (x - q) = x - a := by omega
        rw [List.getD_eq_getElem?_getD, List.getElem?_take_of_lt (by omega), List.getElem?_drop, hback, List.getD_eq_getElem?_getD]
      · rw [if_neg hhere, if_neg (by omega)]

/-- An engine's write to plain memory stores its bytes and nothing else. -/
theorem engineWrite_plain {s : State} {m : Master} {a : Nat} {b : Bytes} (h : PlainWrite s m a b.length) :
    ∃ t, engineWrite s m a b = { state := t, outcome := .ok } ∧ memBytes t a b.length = b ∧
      (∀ x, (x < a ∨ a + b.length ≤ x) → memByte t x = memByte s x) ∧ t = { s with mem := t.mem, badCells := t.badCells } := by
  obtain ⟨hspecial, hparts⟩ := h
  by_cases hn : b.length = 0
  · refine ⟨s, ?_, ?_, fun _ _ => rfl, rfl⟩
    · rw [engineWrite, hn]
      rfl
    · rw [hn, List.length_eq_zero_iff.mp hn]
      rfl
  · obtain ⟨t, ht, hbytes, hstate⟩ := writeParts_plain hspecial (tiles_partRanges (by omega)) (Nat.le_refl a) hparts
    refine ⟨t, ht, ?_, fun x hx => by rw [hbytes x, if_neg (by omega)], hstate⟩
    refine List.ext_getElem (by simp) (fun i hi hib => ?_)
    simp only [memBytes, List.getElem_map, List.getElem_range]
    rw [hbytes, if_pos (by omega), Nat.add_sub_cancel_left, List.getD_eq_getElem b 0 hib]

/-! ### A word in plain memory -/

theorem parts_word (a : Nat) : partRanges a 4 = [(a, 4)] ∨
    (4092 < a % 4096 ∧ partRanges a 4 = [(a, 4096 - a % 4096), ((a / 4096 + 1) * 4096, a % 4096 - 4092)]) := by
  unfold partRanges parts
  rw [if_neg (by decide)]
  by_cases h : a % 4096 ≤ 4092
  · left
    have hone : (a + 4 - 1) / 4096 - a / 4096 = 0 := by omega
    have hmin : min (4096 - a % 4096) (a + 4 - a) = 4 := by omega
    rw [hone]
    simp only [List.range_zero, List.map_nil, List.map_cons, hmin]
  · right
    have htwo : (a + 4 - 1) / 4096 - a / 4096 = 1 := by omega
    have hfirst : min (4096 - a % 4096) (a + 4 - a) = 4096 - a % 4096 := by omega
    have hsecond : min (4096 - (a / 4096 + 1) * 4096 % 4096) (a + 4 - (a / 4096 + 1) * 4096) = a % 4096 - 4092 := by omega
    rw [htwo]
    refine ⟨by omega, ?_⟩
    simp only [List.range_one, List.map_cons, List.map_nil, Nat.add_zero, hfirst, hsecond]

theorem badPartial_none {s : State} {a n : Nat} (hn : n ≠ 0) : badPartial? s a n = none ↔
    ∀ c ∈ s.badCells, a / 8 ≤ c → c ≤ (a + n - 1) / 8 → (a ≤ 8 * c ∧ 8 * c + 8 ≤ a + n) := by
  unfold badPartial?
  rw [if_neg hn, List.find?_eq_none]
  refine forall₂_congr (fun c _ => ?_)
  simp only [Bool.and_eq_true, decide_eq_true_eq, Bool.not_eq_true', decide_eq_false_iff_not]
  tauto

/-- A word of plain memory, in one page or across two, can be written as one. -/
theorem writable_word {s : State} {m : Master} {a : Nat} (h : PlainWrite s m a 4) : Writable s m (a, 4) := by
  obtain ⟨-, hparts⟩ := h
  obtain hone | ⟨hcross, htwo⟩ := parts_word a
  · exact hparts _ (by simp [hone])
  · rw [htwo] at hparts
    obtain ⟨hmapped, hpermits, hcell1, hram, hopen1⟩ := hparts _ List.mem_cons_self
    obtain ⟨-, -, hcell2, -, hopen2⟩ := hparts _ (List.mem_cons_of_mem _ List.mem_cons_self)
    refine ⟨hmapped, hpermits, ?_, hram, ?_⟩
    · dsimp only at hcell1 hcell2 ⊢
      rw [badPartial_none (by omega)] at hcell1 hcell2 ⊢
      intro c hc h1 h2
      have hfirst := hcell1 c hc h1
      have hsecond := hcell2 c hc
      omega
    · unfold opRamClosed at hopen1 hopen2 ⊢
      simp only [Bool.and_eq_false_iff, decide_eq_false_iff_not] at hopen1 hopen2 ⊢
      obtain hwhere1 | hlock := hopen1
      · obtain hwhere2 | hlock := hopen2
        · left
          omega
        · exact .inr hlock
      · exact .inr hlock

theorem fabricWrite_writable {s : State} {m : Master} {a : Nat} {v : Word} (hspecial : meetsSpecial a 4 = false)
    (h : Writable s m (a, 4)) : fabricWrite s m a 4 v = { state := memWrite s a (le 4 v.toNat), value := 0, detail := 0 } := by
  obtain ⟨-, hpermits, hcell, hram, hopen⟩ := h
  exact plain_write hram (plain_outside (by decide) hspecial).1 hspecial hpermits (by decide) hcell hopen

theorem ofLe_le (n v : Nat) : ofLe (le n v) = v % 256 ^ n := by
  induction n generalizing v with
  | zero => simp [le, ofLe, Nat.mod_one]
  | succ n ih =>
    rw [le, ofLe, ih, BitVec.toNat_ofNat, show 2 ^ 8 = 256 from rfl, pow_succ' 256 n, Nat.mod_mul]

theorem word_of_bytes (v : Word) : BitVec.ofNat 32 (ofLe (le 4 v.toNat)) = v := by
  apply BitVec.eq_of_toNat_eq
  have := v.isLt
  rw [ofLe_le, BitVec.toNat_ofNat]
  omega

end Sys2Proof.PlainMemory
end

section
/-! PROOF. Exceptions and interrupts (R394 to R405, R434): the eight words of a frame read back, the switch of world beside
them, and what RETX restores. -/

namespace Sys2Proof.ExceptionEntryAndReturn

open Sys2Proof.Machine Sys2Proof.TamemIssue Sys2Proof.TamemEffects Sys2Proof.LockedRoutes Sys2Proof.Frames Sys2Proof.Basics
open Sys2Proof.PlainMemory Sys2Proof.MemoryForms Sys2Proof.WaitsAndSignals

/-! ### Words stored apart from each other -/

/-- Words stored one after the other. -/
def stored (s : State) (l : List (Nat × Word)) : State := l.foldl (fun t e => memWrite t e.1 (le 4 e.2.toNat)) s

/-- Two words share no byte. -/
def Apart (d e : Nat × Word) : Prop := d.1 + 4 ≤ e.1 ∨ e.1 + 4 ≤ d.1

theorem stored_form (s : State) (l : List (Nat × Word)) : ∃ m b, stored s l = { s with mem := m, badCells := b } := by
  induction l generalizing s with
  | nil => exact ⟨s.mem, s.badCells, rfl⟩
  | cons e l ih => exact ih (memWrite s e.1 (le 4 e.2.toNat))

theorem memByte_stored (s : State) (l : List (Nat × Word)) (b : Nat) (h : ∀ e ∈ l, b < e.1 ∨ e.1 + 4 ≤ b) :
    memByte (stored s l) b = memByte s b := by
  induction l generalizing s with
  | nil => rfl
  | cons e l ih =>
    refine (ih _ (fun d hd => h d (List.mem_cons_of_mem _ hd))).trans ?_
    exact memByte_memWrite_out s e.1 _ b (by rw [le_length]; exact h e List.mem_cons_self)

theorem memBytes_congr {s t : State} {a n : Nat} (h : ∀ b, a ≤ b → b < a + n → memByte t b = memByte s b) :
    memBytes t a n = memBytes s a n := by
  unfold memBytes
  refine List.map_congr_left (fun i hi => h _ (by omega) ?_)
  have := List.mem_range.mp hi
  omega

theorem memBytes_stored (s : State) (l : List (Nat × Word)) (hapart : l.Pairwise Apart) (e : Nat × Word) (he : e ∈ l) :
    memBytes (stored s l) e.1 4 = le 4 e.2.toNat := by
  induction l generalizing s with
  | nil => cases he
  | cons d l ih =>
    obtain ⟨hfirst, hrest⟩ := List.pairwise_cons.mp hapart
    rcases List.mem_cons.mp he with rfl | he
    · refine (memBytes_congr (s := memWrite s e.1 (le 4 e.2.toNat)) (fun b h1 h2 => ?_)).trans ?_
      · exact memByte_stored _ l b (fun d hd => by have := hfirst d hd; unfold Apart at this; omega)
      · have hwrite := memBytes_memWrite s e.1 (le 4 e.2.toNat)
        rwa [le_length] at hwrite
    · exact ih _ hrest he

/-- Stores of words into plain memory are served one by one. -/
theorem stores_served {m : Master} {l : List (Nat × Word)} {s : State}
    (h : ∀ e ∈ l, meetsSpecial e.1 4 = false ∧ Writable s m (e.1, 4)) :
    l.foldl (fun t e => (fabricWrite t m e.1 4 e.2).state) s = stored s l := by
  induction l generalizing s with
  | nil => rfl
  | cons e l ih =>
    obtain ⟨hspecial, hwritable⟩ := h e List.mem_cons_self
    rw [List.foldl_cons, fabricWrite_writable hspecial hwritable]
    exact ih (fun d hd => ⟨(h d (List.mem_cons_of_mem _ hd)).1, (h d (List.mem_cons_of_mem _ hd)).2.memWrite _ _⟩)

theorem frameFault_none {m : Master} {l : List (Nat × Word)} {s : State}
    (h : ∀ e ∈ l, meetsSpecial e.1 4 = false ∧ Writable s m (e.1, 4)) : frameFault s m l = none := by
  unfold frameFault
  rw [Option.map_eq_none_iff, List.find?_eq_none]
  intro e he
  obtain ⟨hspecial, hwritable⟩ := h e he
  rw [fabricWrite_writable hspecial hwritable]
  simp

/-! ### The frame -/

theorem frameStores_eq (s : State) (n : Nat) (sig : Bool) (t : Trap) (cur : Bool) (w : World) (pc : Word) :
    frameStores n (worldOf (coreAt s n) sig).ssp (frameWords n t cur w pc) =
      (List.range 8).map (fun k => (frameAddr s n sig k, (frameWords n t cur w pc).getD k 0)) := rfl

theorem frameAddr_apart (s : State) {n : Nat} (hn : n < 4) (sig : Bool) {j k : Nat} (hjk : j < k) (hk : k < 8) :
    frameAddr s n sig j + 4 ≤ frameAddr s n sig k ∨ frameAddr s n sig k + 4 ≤ frameAddr s n sig j := by
  have hbase : ((worldOf (coreAt s n) sig).ssp - 32).toNat < 2 ^ 32 := BitVec.isLt _
  unfold frameAddr Machine.translate within
  simp only [BitVec.toNat_add, BitVec.toNat_ofNat, decide_eq_true_eq]
  generalize ((worldOf (coreAt s n) sig).ssp - 32).toNat = base at hbase ⊢
  split <;> split <;> omega

theorem frameStores_apart (s : State) {n : Nat} (hn : n < 4) (sig : Bool) (t : Trap) (cur : Bool) (w : World) (pc : Word) :
    (frameStores n (worldOf (coreAt s n) sig).ssp (frameWords n t cur w pc)).Pairwise Apart := by
  rw [frameStores_eq, List.pairwise_map]
  refine List.pairwise_lt_range.imp_of_mem (fun {j k} _ hk hjk => ?_)
  exact frameAddr_apart s hn sig hjk (List.mem_range.mp hk)

theorem frameStores_writable {s : State} {n : Nat} {sig : Bool} (h : FrameFits s n sig) (t : Trap) (cur : Bool) (w : World)
    (pc : Word) : ∀ e ∈ frameStores n (worldOf (coreAt s n) sig).ssp (frameWords n t cur w pc),
      meetsSpecial e.1 4 = false ∧ Writable s (BitVec.ofNat 6 (coreId n sig true)) (e.1, 4) := by
  obtain ⟨-, -, hplain⟩ := h
  intro e he
  rw [frameStores_eq, List.mem_map] at he
  obtain ⟨k, hk, rfl⟩ := he
  have hword := hplain k (List.mem_range.mp hk)
  exact ⟨hword.1, writable_word hword⟩

/-- The state with the frame written. -/
def framed (s : State) (n : Nat) (sig : Bool) (t : Trap) (pc : Word) : State :=
  stored s (frameStores n (worldOf (coreAt s n) sig).ssp (frameWords n t (curSig s n) (curWorld s n) pc))

theorem framed_form (s : State) (n : Nat) (sig : Bool) (t : Trap) (pc : Word) :
    ∃ m b, framed s n sig t pc = { s with mem := m, badCells := b } := stored_form _ _

theorem coreAt_framed (s : State) (n : Nat) (sig : Bool) (t : Trap) (pc : Word) (k : Nat) :
    coreAt (framed s n sig t pc) k = coreAt s k := by
  obtain ⟨m, b, h⟩ := framed_form s n sig t pc
  rw [h]
  rfl

/-- Each word of the frame reads back. -/
theorem framed_word (s : State) {n : Nat} (hn : n < 4) (sig : Bool) (t : Trap) (pc : Word) (k : Nat) (hk : k < 8) :
    BitVec.ofNat 32 (ofLe (memBytes (framed s n sig t pc) (frameAddr s n sig k) 4)) =
      (frameWords n t (curSig s n) (curWorld s n) pc).getD k 0 := by
  have hmem : (frameAddr s n sig k, (frameWords n t (curSig s n) (curWorld s n) pc).getD k 0) ∈
      frameStores n (worldOf (coreAt s n) sig).ssp (frameWords n t (curSig s n) (curWorld s n) pc) := by
    rw [frameStores_eq]
    exact List.mem_map_of_mem (List.mem_range.mpr hk)
  have hbytes := memBytes_stored s _ (frameStores_apart s hn sig t (curSig s n) (curWorld s n) pc) _ hmem
  dsimp only at hbytes
  rw [framed, hbytes, word_of_bytes]

theorem framed_outside (s : State) (n : Nat) (sig : Bool) (t : Trap) (pc : Word) (b : Nat)
    (h : ∀ k, k < 8 → b < frameAddr s n sig k ∨ frameAddr s n sig k + 4 ≤ b) :
    memByte (framed s n sig t pc) b = memByte s b := by
  refine memByte_stored s _ b (fun e he => ?_)
  rw [frameStores_eq, List.mem_map] at he
  obtain ⟨k, hk, rfl⟩ := he
  exact h k (List.mem_range.mp hk)

theorem takeException_fits {s : State} {n : Nat} {sig : Bool} (h : FrameFits s n sig) (t : Trap) (pc : Word) :
    takeException s n sig t pc = switchTo (framed s n sig t pc) n sig t.code := by
  have hwritable := frameStores_writable h t (curSig s n) (curWorld s n) pc
  obtain ⟨-, hgood, -⟩ := h
  have hbad : frameBad (worldOf (coreAt s n) (coreAt s n).signalbox) = false := hgood
  unfold takeException
  dsimp only
  rw [if_neg (by simp [hbad])]
  have hnone := frameFault_none hwritable
  have hserved := stores_served hwritable
  simp only [curSig, curWorld] at hnone hserved
  rw [hnone]
  dsimp only
  rw [hserved]
  rfl

/-! ### The switch of world -/

theorem coreAt_switchTo (s : State) {n : Nat} (hn : n < 4) (sig : Bool) (code : Nat) :
    coreAt (switchTo s n sig code) n =
      let c := (coreAt s n).put (curSig s n) { curWorld s n with shadow := false }
      { c.put sig (entered code (worldOf c sig)) with signalbox := sig, wait := .none, stepDone := 0, stepAcc := 0 } :=
  coreAt_setCore_same s n _ hn

theorem curSig_switchTo (s : State) {n : Nat} (hn : n < 4) (sig : Bool) (code : Nat) : curSig (switchTo s n sig code) n = sig := by
  rw [curSig, coreAt_switchTo s hn]

theorem worldOf_switchTo (s : State) {n : Nat} (hn : n < 4) (sig : Bool) (code : Nat) (other : Bool) :
    worldOf (coreAt (switchTo s n sig code) n) other =
      if other = sig then entered code (worldOf (coreAt s n) sig)
      else { worldOf (coreAt s n) other with shadow := if other = curSig s n then false else (worldOf (coreAt s n) other).shadow } := by
  rw [coreAt_switchTo s hn]
  have hput (c : Core) (w : World) (x : Bool) :
      worldOf { c.put sig w with signalbox := sig, wait := .none, stepDone := 0, stepAcc := 0 } x =
        if x = sig then w else worldOf c x := by
    rw [← worldOf_put c sig x w]
    rfl
  dsimp only
  rw [hput]
  simp only [worldOf_put, curWorld]
  split
  · split
    · next h => rw [← h]; rfl
    · rfl
  · split
    · next h => rw [h]
    · rfl

theorem wake_switchTo (s : State) {n : Nat} (hn : n < 4) (sig : Bool) (code : Nat) :
    (coreAt (switchTo s n sig code) n).wake = (coreAt s n).wake := by
  rw [coreAt_switchTo s hn]
  exact (put_wake _ _ _).trans (put_wake _ _ _)

theorem wait_switchTo (s : State) {n : Nat} (hn : n < 4) (sig : Bool) (code : Nat) :
    (coreAt (switchTo s n sig code) n).wait = .none := by
  rw [coreAt_switchTo s hn]

theorem curWorld_switchTo (s : State) {n : Nat} (hn : n < 4) (sig : Bool) (code : Nat) :
    curWorld (switchTo s n sig code) n = entered code (worldOf (coreAt s n) sig) := by
  rw [curWorld, curSig_switchTo s hn, worldOf_switchTo s hn, if_pos rfl]

/-! ### An exception is taken -/

theorem memBytes_switchTo (s : State) (n : Nat) (sig : Bool) (code a k : Nat) :
    memBytes (switchTo s n sig code) a k = memBytes s a k := rfl

theorem frameWord_taken (s : State) {n : Nat} (hn : n < 4) (sig : Bool) (t : Trap) (pc : Word) (k : Nat) (hk : k < 8) :
    frameWord (switchTo (framed s n sig t pc) n sig t.code) n k = (frameWords n t (curSig s n) (curWorld s n) pc).getD k 0 := by
  have hssp : (curWorld (switchTo (framed s n sig t pc) n sig t.code) n).ssp = (worldOf (coreAt s n) sig).ssp - 32 := by
    rw [curWorld_switchTo _ hn, coreAt_framed]
    rfl
  rw [← framed_word s hn sig t pc k hk, frameWord, hssp, memBytes_switchTo, frameAddr]

theorem switchTo_form (s : State) (n : Nat) (sig : Bool) (code : Nat) :
    switchTo s n sig code = { s with cores := (switchTo s n sig code).cores } := rfl

/-- A state that differs from `s` in cores and memory only. -/
theorem coresAndMem {s f t : State} (hf : ∃ m b, f = { s with mem := m, badCells := b }) (ht : t = { f with cores := t.cores }) :
    t = { s with cores := t.cores, mem := t.mem, badCells := t.badCells } := by
  obtain ⟨m, b, rfl⟩ := hf
  have hm : t.mem = m := (congrArg State.mem ht :)
  have hb : t.badCells = b := (congrArg State.badCells ht :)
  rw [hm, hb]
  exact ht

theorem takeException_taken {s : State} {n : Nat} {sig : Bool} (hn : n < 4) (h : FrameFits s n sig) (t : Trap) (pc : Word) :
    Quiet (takeException s n sig t pc) ∧ Taken s (takeException s n sig t pc) n sig t pc := by
  have hword := frameWord_taken s hn sig t pc
  have houtside := framed_outside s n sig t pc
  have hcore := coreAt_framed s n sig t pc
  have hstate := coresAndMem (framed_form s n sig t pc) (switchTo_form (framed s n sig t pc) n sig t.code)
  rw [takeException_fits h]
  obtain ⟨hq, -, -⟩ := h
  generalize framed s n sig t pc = f at hword houtside hcore hstate ⊢
  have hcur : curSig f n = curSig s n := by rw [curSig, hcore, curSig]
  refine ⟨?_, hword 0 (by decide), hword 1 (by decide), hword 2 (by decide), hword 3 (by decide), hword 4 (by decide),
    hword 5 (by decide), hword 6 (by decide), hword 7 (by decide), curSig_switchTo f hn sig _, ?_, fun other hother => ?_,
    wait_switchTo f hn sig _, ?_, fun k hk => ?_, houtside, hstate⟩
  · rw [hstate]
    exact hq
  · rw [curWorld_switchTo f hn, hcore]
    rfl
  · rw [worldOf_switchTo f hn, if_neg hother, hcore, hcur]
  · rw [wake_switchTo f hn, hcore]
  · exact (coreAt_setCore_other f n k _ hk).trans (hcore k)

/-! ### The double fault -/

theorem doubleFault_stops (s : State) {n : Nat} (hn : n < 4) :
    (coreAt (doubleFault s n) n).stopped = true ∧ isPending (doubleFault s n) (8 + n) = true := by
  refine ⟨?_, Chains.isPending_raise_same _ (by omega)⟩
  obtain ⟨q, o, hraise⟩ := raise_form (setCore s n { coreAt s n with stopped := true, wait := .none }) (8 + n)
  unfold doubleFault
  rw [hraise]
  exact congrArg Core.stopped (coreAt_setCore_same s n _ hn)

theorem frameFault_some {m : Master} {l : List (Nat × Word)} {s : State}
    (h : ∃ e ∈ l, (fabricWrite s m e.1 4 e.2).detail ≠ 0) : ∃ f, frameFault s m l = some f := by
  obtain ⟨e, he, hdetail⟩ := h
  have hfound : (l.find? (fun e => decide ((fabricWrite s m e.1 4 e.2).detail ≠ 0))).isSome = true :=
    List.find?_isSome.mpr ⟨e, he, decide_eq_true hdetail⟩
  obtain ⟨d, hd⟩ := Option.isSome_iff_exists.mp hfound
  exact ⟨_, by rw [frameFault, hd, Option.map_some]⟩

theorem takeException_unwritable {s : State} {n : Nat} {sig : Bool} {t : Trap} {pc : Word} (hn : n < 4)
    (h : frameBad (curWorld s n) = true ∨ ∃ e ∈ frameStores n (worldOf (coreAt s n) sig).ssp
        (frameWords n t (curSig s n) (curWorld s n) pc),
      (fabricWrite s (BitVec.ofNat 6 (coreId n sig true)) e.1 4 e.2).detail ≠ 0) :
    (coreAt (takeException s n sig t pc) n).stopped = true ∧ isPending (takeException s n sig t pc) (8 + n) = true := by
  unfold takeException
  dsimp only
  by_cases hbad : frameBad (worldOf (coreAt s n) (coreAt s n).signalbox) = true
  · rw [if_pos hbad]
    exact doubleFault_stops _ hn
  · rw [if_neg hbad]
    obtain ⟨f, hf⟩ := frameFault_some (h.resolve_left hbad)
    simp only [curSig, curWorld] at hf
    rw [hf]
    exact doubleFault_stops f hn

/-! ### The instructions that call -/

/-- An instruction that calls with a trap takes it with PC past itself (R400). -/
theorem leads_call {c : Instr} {s f : State} {i : Issue} {decode : State → Nat → Option Nat} {eff : State → Nat → Effect}
    {t : Trap} {sig : Bool} (h : Working s i 4 [] f) (hexec : exec c s = done (issue i 4 decode (Reads.of []) eff s))
    (hshadow : ∀ g, decode (unshadow g i.core.toNat) i.core.toNat = decode g i.core.toNat)
    (hdecode : decode f i.core.toNat = none) (heff : eff f i.core.toNat = .call f t)
    (hsig : takenIn t.code (curSig f i.core.toNat) = sig)
    (hfit : FrameFits (modWorld f i.core.toNat (advancePc 4)) i.core.toNat sig) :
    Leads c s (fun u => Taken (modWorld f i.core.toNat (advancePc 4)) u i.core.toNat sig t
      (curWorld (modWorld f i.core.toNat (advancePc 4)) i.core.toNat).pc) := by
  refine leads_working h hexec hshadow hdecode (badReads_of_working h) ?_
  obtain ⟨hquiet, htaken⟩ := takeException_taken i.core.isLt hfit t
    (curWorld (modWorld f i.core.toNat (advancePc 4)) i.core.toNat).pc
  refine ⟨_, ?_, hquiet, htaken⟩
  rw [heff, settleEffect, curSig_modWorld f _ _ i.core.isLt, hsig]

theorem coreOnly_haltCore (s : State) (n : Nat) : CoreOnly s (haltCore s n) n := coreOnly_setCore s n _

theorem haltCore_halts (s : State) {n : Nat} (hn : n < 4) :
    haltedWorld (haltCore s n) n (curSig s n) = true ∧ curWorld (haltCore s n) n = curWorld s n ∧
      curSig (haltCore s n) n = curSig s n := by
  unfold haltedWorld haltCore curWorld curSig
  dsimp only
  rw [coreAt_setCore_same s n _ hn]
  cases (coreAt s n).signalbox <;> exact ⟨rfl, rfl, rfl⟩

theorem haltedWorld_modWorld (s : State) {n : Nat} (hn : n < 4) (g : World → World) (sig : Bool) :
    haltedWorld (modWorld s n g) n sig = haltedWorld s n sig := by
  unfold haltedWorld modWorld putWorld
  rw [coreAt_setCore_same s n _ hn]
  cases curSig s n <;> rfl

theorem breakpoint_halts {s f : State} {i : Issue} (h : Working s i 4 [] f) (harmed : armed f i.core.toNat = true) :
    Leads (.bkpt i) s (fun t => haltedWorld t i.core.toNat (curSig f i.core.toNat) = true ∧
      curWorld t i.core.toNat = advancePc 4 (curWorld f i.core.toNat) ∧ (∀ k, k ≠ i.core.toNat → coreAt t k = coreAt f k) ∧
      t = { f with cores := t.cores }) := by
  have hn : i.core.toNat < 4 := i.core.isLt
  obtain ⟨hhalted, hworld, hsig⟩ := haltCore_halts f hn
  have honly := (coreOnly_haltCore f i.core.toNat).trans (coreOnly_modWorld (haltCore f i.core.toNat) i.core.toNat (advancePc 4))
  refine leads_working h rfl (fun _ => rfl) rfl (badReads_of_working h) ⟨_, ?_, honly.quiet (quiet_of_working h), ?_, ?_, honly⟩
  · rw [if_pos harmed, settleEffect]
  · rw [haltedWorld_modWorld _ hn, hhalted]
  · rw [curWorld_modWorld _ _ _ hn, hworld]

/-! ### Interrupts -/

theorem leads_interrupt {s : State} {c : BitVec 2} {sig : Bool} {k : Nat} (hrun : running s c.toNat = true)
    (hheld : heldOff s c.toNat = false) (hint : interruptFor s c.toNat = some (sig, k))
    (hfit : FrameFits (leaveWait s c.toNat) c.toNat sig) :
    Leads (.interruptTaken c) s (fun t => Taken (leaveWait s c.toNat) t c.toNat sig
      { code := 0x0D, arg := k, detail := 0, fault := 0 } (curWorld (leaveWait s c.toNat) c.toNat).pc) := by
  have htake : takeInterrupt s c.toNat = takeException (leaveWait s c.toNat) c.toNat sig
      { code := 0x0D, arg := k, detail := 0, fault := 0 } (curWorld (leaveWait s c.toNat) c.toNat).pc := by
    unfold takeInterrupt
    rw [if_neg (by simp [hrun, hheld]), hint]
    rfl
  have hexec : exec (.interruptTaken c) s = done (takeInterrupt s c.toNat) := rfl
  rw [htake] at hexec
  obtain ⟨hquiet, htaken⟩ := takeException_taken c.isLt hfit { code := 0x0D, arg := k, detail := 0, fault := 0 }
    (curWorld (leaveWait s c.toNat) c.toNat).pc
  exact leads_done hexec hquiet htaken

theorem pc_writeW (rd : BitVec 5) (v : Word) (w : World) : (writeW rd v w).pc = w.pc := by
  unfold writeW
  split <;> rfl

theorem curWorld_leaveWait {s : State} {n : Nat} (hn : n < 4) {rd : BitVec 5} (h : (coreAt s n).wait = .waitf rd) :
    curWorld (leaveWait s n) n =
      { writeW rd ((coreAt s n).wake.setWidth 32) (curWorld s n) with pc := (curWorld s n).pc + 4, shadow := false } := by
  unfold leaveWait
  rw [h]
  dsimp only
  rw [curWorld_endWait _ hn, curWorld_modWorld _ _ _ hn, curWorld_takeWake s hn, pc_writeW]

theorem exceptionEntry : Sys2Proof.Claims.ExceptionEntry := by
  refine ⟨fun s f i code h hfit => ?_, fun s f i code h hplat hsup hfit => ?_, fun s f i h harmed hfit => ?_,
    fun s f i h harmed => breakpoint_halts h harmed, fun s f c hq hissue hfetch hfit => ?_,
    fun s c sig k hrun hheld hwait hint hfit => ?_, fun s c rd sig k hrun hheld hwait hint hfit => ?_, fun s c hq hheld => ?_,
    fun s n t hn hfit => (takeException_taken hn hfit t _).2, fun s n t hn h => takeException_unwritable hn h⟩
  case refine_1 => exact leads_call h rfl (fun _ => rfl) rfl rfl rfl hfit
  case refine_2 =>
    refine leads_call h rfl (fun g => ?_) ?_ rfl rfl hfit
    · rw [wcallLegal, wcallLegal, curSig_unshadow g i.core.isLt, curWorld_unshadow g i.core.isLt]
    · rw [wcallLegal, if_neg (by simp [hplat]), if_pos hsup]
  case refine_3 =>
    refine leads_call h rfl (fun _ => rfl) rfl ?_ rfl hfit
    exact if_neg (by simp [harmed])
  case refine_4 =>
    have hexec : exec (.illegalInstruction c) s = done (if canIssue s c.toNat then
      faultAt (fetchInstr s c.toNat 4).state c.toNat ((fetchInstr s c.toNat 4).trap.getD (Trap.plain Code.illegal)) else s) := rfl
    rw [if_pos hissue, hfetch] at hexec
    obtain ⟨hquiet, htaken⟩ := takeException_taken c.isLt hfit (Trap.plain Code.illegal) (curWorld f c.toNat).pc
    exact leads_done hexec hquiet htaken
  case refine_5 =>
    have hleave : leaveWait s c.toNat = s := by rw [leaveWait, hwait]
    rw [← hleave] at hfit
    have htaken := leads_interrupt hrun hheld hint hfit
    rwa [hleave] at htaken
  case refine_6 =>
    have htaken := leads_interrupt hrun hheld hint hfit
    have hworld := curWorld_leaveWait c.isLt hwait
    rw [congrArg World.pc hworld] at htaken
    obtain ⟨t, hexec, htaken⟩ := htaken
    exact ⟨t, hexec, htaken, hworld⟩
  case refine_7 =>
    have hexec : exec (.interruptTaken c) s = done (takeInterrupt s c.toNat) := rfl
    rw [takeInterrupt, if_pos (by simp [hheld])] at hexec
    exact leads_done hexec hq rfl

/-! ### RETX -/

/-- The state in which RETX leaves a frame's words (R403). -/
def returned (f : State) (n : Nat) (l : List Word) : State :=
  let u := modWorld f n (fun w => { w with ssp := w.ssp + 32 })
  let sig := bit (l.getD 1 0) 1
  setCore u n { (coreAt u n).put sig (restored l (worldOf (coreAt u n) sig)) with signalbox := sig }

theorem returnFrom_reads {f : State} {n : Nat} {l : List Word}
    (hread : readWords f (masterOf f n) n 8 (curWorld f n).ssp.toNat [] = (f, l, none)) :
    returnFrom f n = if bit (l.getD 1 0) 1 ∧ !curSig f n then .fault f (Trap.plain Code.privilege)
      else if l.getD 0 0 &&& 3 ≠ 0 then .fault f (Trap.at Code.alignment (l.getD 0 0)) else .placed (returned f n l) := by
  unfold returnFrom
  dsimp only
  rw [hread]
  rfl

theorem curSig_returned (f : State) {n : Nat} (hn : n < 4) (l : List Word) : curSig (returned f n l) n = bit (l.getD 1 0) 1 :=
  congrArg Core.signalbox (coreAt_setCore_same _ n _ hn)

theorem worldOf_modWorld (f : State) {n : Nat} (hn : n < 4) (g : World → World) (sig : Bool) :
    worldOf (coreAt (modWorld f n g) n) sig = if sig = curSig f n then g (curWorld f n) else worldOf (coreAt f n) sig := by
  rw [modWorld, putWorld, coreAt_setCore_same f n _ hn, worldOf_put]

theorem curWorld_returned (f : State) {n : Nat} (hn : n < 4) (l : List Word) :
    curWorld (returned f n l) n = restored l (if bit (l.getD 1 0) 1 = curSig f n then
      { curWorld f n with ssp := (curWorld f n).ssp + 32 } else worldOf (coreAt f n) (bit (l.getD 1 0) 1)) := by
  rw [curWorld, curSig_returned f hn, ← worldOf_modWorld f hn (fun w => { w with ssp := w.ssp + 32 })]
  unfold returned
  dsimp only
  rw [coreAt_setCore_same _ n _ hn]
  cases bit (l.getD 1 0) 1 <;> rfl

theorem coreOnly_returned (f : State) (n : Nat) (l : List Word) : CoreOnly f (returned f n l) n :=
  (coreOnly_modWorld f n _).trans (coreOnly_setCore _ n _)

theorem exceptionReturn : Sys2Proof.Claims.ExceptionReturn := by
  have hlegal {f : State} {n : Nat} (hsup : (curWorld f n).level = true) : supervisor f n = none := if_pos hsup
  refine ⟨fun s f i l h hsup => ?_, fun s f i l h hsup hread hto hfrom => ?_, fun s f i l h hsup hread hto hpc => ?_⟩
  case refine_1 =>
    intro n hread hto hpc
    have hn : n < 4 := i.core.isLt
    have honly := coreOnly_returned f n l
    have hworld := curWorld_returned f hn l
    refine leads_working h rfl (fun g => supervisor_unshadow g hn) (hlegal hsup) (badReads_of_working h)
      ⟨returned f n l, ?_, honly.quiet (quiet_of_working h), curSig_returned f hn l, ?_⟩
    · rw [returnFrom_reads hread, if_neg (fun ⟨h1, h2⟩ => by rw [hto h1] at h2; cases h2), if_neg (not_not.mpr hpc)]
      rfl
    · rw [hworld]
      exact ⟨rfl, rfl, rfl, rfl, rfl, rfl, rfl, rfl, rfl, rfl, rfl, rfl, rfl, honly⟩
  case refine_2 =>
    refine leads_after h rfl (fun g => supervisor_unshadow g i.core.isLt) (hlegal hsup) (badReads_of_working h) ?_
    rw [returnFrom_reads hread, if_pos ⟨hto, by simp [hfrom]⟩]
    rfl
  case refine_3 =>
    refine leads_after h rfl (fun g => supervisor_unshadow g i.core.isLt) (hlegal hsup) (badReads_of_working h) ?_
    rw [returnFrom_reads hread, if_neg (fun ⟨h1, h2⟩ => by rw [hto h1] at h2; cases h2), if_pos hpc]
    rfl

/-- Settles O38: the frame's stores share no byte, so each word reads back; the switch of world changes the core only. -/
theorem exceptionEntryAndReturn : Obligations.ExceptionEntryAndReturn := ⟨exceptionEntry, exceptionReturn⟩

end Sys2Proof.ExceptionEntryAndReturn
end

section
/-! PROOF. The custody card comes, goes, is formatted and erased (R460, R462, R463, R468 to R470). -/

namespace Sys2Proof.CardControl

open Sys2Proof.Machine Sys2Proof.Frames Sys2Proof.Chains Sys2Proof.LogFrames Sys2Proof.PlainMemory Sys2Proof.LinesideUnit
open Sys2Proof.DeadmanAndImages Sys2Proof.EventsAndSettings

/-! ### Card registers -/

/-- A command that ended well says so in CCI_RESULT. -/
theorem resultIs_success (s : State) : ResultIs (cciResult s 0) Reg.CCI_RESULT 0 := by
  unfold ResultIs fieldR bitR
  rw [cciResult, getR_setR_same]
  decide

theorem getR_cciResult_other (s : State) (st : Nat) {b : Nat} (h : b ≠ Reg.CCI_RESULT) : getR (cciResult s st) b = getR s b :=
  getR_setR_other s _ b _ h

theorem cciState_setCciState (s : State) {n : Nat} (h : n < 2 ^ 3) : cciState (setCciState s n) = n := by
  rw [cciState, fieldR, setCciState, getR_setFieldR, bitsOf_withBits_same _ _ (by decide), Nat.mod_eq_of_lt h]

/-- Powered off, the card shows no bus and no lock, and is locked again. -/
theorem powerOffCard_form (s : State) :
    powerOffCard s = { s with regs := (powerOffCard s).regs, card := s.card.map (fun c => { c with unlocked := false }) } ∧
    cciState (powerOffCard s) = 0 ∧ SameRegs s (powerOffCard s) [Reg.CCI_STATUS] := by
  refine ⟨rfl, ?_, ?_⟩
  · have hstatus : getR (powerOffCard s) Reg.CCI_STATUS =
        withBits (withBits (withBits (getR s Reg.CCI_STATUS) 1 3 0) 4 2 3) 6 1 0 := by
      refine (getR_congr (s := setFieldR (setFieldR (setCciState s 0) Reg.CCI_STATUS 4 2 3) Reg.CCI_STATUS 6 1 0) rfl _).trans ?_
      rw [getR_setFieldR, getR_setFieldR, setCciState, getR_setFieldR]
    rw [cciState, fieldR, hstatus, bitsOf_withBits_other _ _ (by decide), bitsOf_withBits_other _ _ (by decide),
      bitsOf_withBits_same _ _ (by decide)]
    rfl
  · exact sameRegs_setR (sameRegs_setR (sameRegs_setR (sameRegs_refl s _) List.mem_cons_self _) List.mem_cons_self _)
      List.mem_cons_self _

theorem slice_length (b : Bytes) (o n : Nat) : (slice b o n).length = n := by
  simp only [slice, List.length_append, List.length_take, List.length_drop, List.length_replicate]
  omega

/-- The CID is written from its register on. -/
theorem setCid_form (s : State) (b : Bytes) : setCid s b = { s with regs := (setCid s b).regs } ∧
    ∀ a, a ∉ (List.range 4).map (fun k => Reg.CCI_CID + 4 * k) → getR (setCid s b) a = getR s a := by
  have hwords : (slice (slice b 0 16) 0 16).length / 4 = 4 := by rw [slice_length]
  have hform := setRegWords_form s Reg.CCI_CID (fun i => BitVec.ofNat 32 (num (slice b 0 16) (4 * i) 4)) 4
  have hset : setCid s b = (List.range 4).foldl (fun t i => setR t (Reg.CCI_CID + 4 * i)
      (BitVec.ofNat 32 (num (slice b 0 16) (4 * i) 4))) s := by
    rw [setCid, setRegBytes, slice_length]
  rw [hset]
  exact hform

theorem cid_apart : Reg.CCI_STATUS ∉ (List.range 4).map (fun k => Reg.CCI_CID + 4 * k) ∧
    Reg.LSM_RELEASE ∉ (List.range 4).map (fun k => Reg.CCI_CID + 4 * k) := by
  constructor <;> decide

theorem onlyRegs_trans {s t u : State} {l e e' : List Nat} (h : OnlyRegs s t l e) (k : OnlyRegs t u l e') :
    OnlyRegs s u l (e ++ e') := by
  obtain ⟨hform, hsame, hraises⟩ := h
  obtain ⟨kform, ksame, kraises⟩ := k
  refine ⟨?_, sameRegs_trans hsame ksame, raises_trans hraises kraises⟩
  rw [hform] at kform
  exact kform

/-! ### Insertion and removal -/

/-- A state that differs in registers and events from one whose card alone changed. -/
theorem inserted_form {s a t : State} {regs events : List Nat} (ha : a = { s with card := a.card, cardPresent := true })
    (h : OnlyRegs a t regs events) :
    t.card = a.card ∧ t.cardPresent = true ∧ Raises s t events ∧
      t = withEvents { s with regs := t.regs, card := t.card, cardPresent := true } t := by
  obtain ⟨hform, -, hpend, hsent⟩ := h
  have hcard : t.card = a.card := (congrArg State.card hform :)
  have hevents : a.evtPend = s.evtPend := (congrArg State.evtPend ha :)
  have hports : a.ports = s.ports := (congrArg State.ports ha :)
  refine ⟨hcard, ?_, ⟨fun k hk => ?_, by rwa [hports] at hsent⟩, ?_⟩
  · have hpresent : a.cardPresent = true := (congrArg State.cardPresent ha :)
    exact (congrArg State.cardPresent hform :).trans hpresent
  · rw [hpend k hk, isPending, isPending, hevents]
  · rw [hcard]
    rw [ha] at hform
    exact hform

/-- Negotiated, the card shows its bus and its lock. -/
theorem negotiateCard_ok (s : State) (c : Card) (h : c.img.failStep = 0) : let t := negotiateCard s c
    OnlyRegs s t (Reg.CCI_STATUS :: (List.range 4).map (fun k => Reg.CCI_CID + 4 * k)) [] ∧ cciState t = 2 ∧
      fieldR t Reg.CCI_STATUS 4 2 = c.img.bus.toNat ∧ bitR t Reg.CCI_STATUS 6 = c.img.locked := by
  unfold negotiateCard
  rw [if_pos h]
  dsimp only
  set u := setFieldR (setFieldR (setCciState s 2) Reg.CCI_STATUS 4 2 c.img.bus.toNat) Reg.CCI_STATUS 6 1 (b2n c.img.locked) with hu
  obtain ⟨hform, hsame⟩ := setCid_form u c.img.cid
  have hstatus : getR (setCid u c.img.cid) Reg.CCI_STATUS =
      withBits (withBits (withBits (getR s Reg.CCI_STATUS) 1 3 2) 4 2 c.img.bus.toNat) 6 1 (b2n c.img.locked) := by
    rw [hsame _ cid_apart.1, hu, getR_setFieldR, getR_setFieldR, setCciState, getR_setFieldR]
  refine ⟨onlyRegs_of_regs ?_ (fun a ha => ?_), ?_, ?_, ?_⟩
  · rw [hform]
    rfl
  · obtain ⟨hne, hout⟩ := not_or.mp (fun h => ha (List.mem_cons.mpr h))
    rw [hsame a hout, hu, getR_setFieldR_other _ _ _ _ hne, getR_setFieldR_other _ _ _ _ hne, setCciState,
      getR_setFieldR_other _ _ _ _ hne]
  · rw [cciState, fieldR, hstatus, bitsOf_withBits_other _ _ (by decide), bitsOf_withBits_other _ _ (by decide),
      bitsOf_withBits_same _ _ (by decide)]
    rfl
  · rw [fieldR, hstatus, bitsOf_withBits_other _ _ (by decide), bitsOf_withBits_same _ _ (by decide),
      Nat.mod_eq_of_lt c.img.bus.isLt]
  · rw [bitR, hstatus, bit, getLsbD_withBits, if_pos (by decide)]
    cases c.img.locked <;> rfl

theorem card_inserted (s : State) (i : CardImage) (hq : Quiet s) (hon : mainPower s = true) (hslot : s.cardPresent = false)
    (hok : i.failStep = 0) (hidle : releaseState s = 0) : Leads (.cardInserted i) s (fun t =>
      cciState t = 2 ∧ fieldR t Reg.CCI_STATUS 4 2 = i.bus.toNat ∧ bitR t Reg.CCI_STATUS 6 = i.locked ∧ t.cardPresent = true ∧
      t.card = some { img := i, unlocked := false, erasing := false, session := none } ∧ Raises s t [384] ∧
      t = withEvents { s with regs := t.regs, card := t.card, cardPresent := true } t) := by
  generalize hc : ({ img := i, unlocked := false, erasing := false, session := none } : Card) = c
  have himg : c.img = i := by rw [← hc]
  generalize ha : ({ s with card := some c, cardPresent := true } : State) = a
  obtain ⟨honly, hstate, hbus, hlock⟩ := negotiateCard_ok (raise a 384) c (by rw [himg]; exact hok)
  have hall : OnlyRegs a (negotiateCard (raise a 384) c)
      (Reg.CCI_STATUS :: (List.range 4).map (fun k => Reg.CCI_CID + 4 * k)) [384] := by
    exact onlyRegs_trans (onlyRegs_then_raise (onlyRegs_refl a _) 384) honly
  have hrelease : releaseState (negotiateCard (raise a 384) c) = 0 := by
    rw [releaseState, fieldR, hall.2.1 _ (by decide), ← ha]
    exact hidle
  have hona : mainPower a = true := by
    rw [← ha]
    exact hon
  have hexec : exec (.cardInserted i) s = done (negotiateCard (raise a 384) c) := by
    have hrow : exec (.cardInserted i) s = done (if s.cardPresent then s else insertCard s i) := rfl
    rw [hrow, if_neg (by simp [hslot]), insertCard]
    dsimp only
    rw [hc, ha, if_neg (by rw [hona]; simp)]
    split
    · rw [checkCredential]
      split
      · rw [if_neg (by rw [hrelease]; simp)]
      · rfl
    · rfl
  generalize negotiateCard (raise a 384) c = t at *
  have hquiet : Quiet a := by
    rw [← ha]
    exact hq
  obtain ⟨hcard, hpresent, hraises, hform⟩ := inserted_form (s := s) (by rw [← ha]) hall
  refine leads_done hexec (quiet_of_onlyRegs hall hquiet) ⟨hstate, himg ▸ hbus, himg ▸ hlock, hpresent, ?_, hraises, hform⟩
  rw [hcard, ← ha]

theorem onlyRegs_setCid (s : State) (b : Bytes) : OnlyRegs s (setCid s b) ((List.range 4).map (fun k => Reg.CCI_CID + 4 * k)) [] :=
  onlyRegs_of_regs (setCid_form s b).1 (setCid_form s b).2

/-- Powered off, a card that was not unlocked is as it was. -/
theorem onlyRegs_powerOffCard {s : State} (h : s.card.map (fun c => { c with unlocked := false }) = s.card) :
    OnlyRegs s (powerOffCard s) [Reg.CCI_STATUS] [] := by
  obtain ⟨hform, -, hsame⟩ := powerOffCard_form s
  rw [h] at hform
  exact onlyRegs_of_regs hform hsame

/-- The registers that a failed negotiation writes. -/
def negotiationRegs : List Nat := Reg.CCI_STATUS :: Reg.CCI_ERR :: (List.range 4).map (fun k => Reg.CCI_CID + 4 * k)

theorem negotiateCard_failed {s : State} {c : Card} (h : c.img.failStep ≠ 0)
    (hcard : s.card.map (fun c => { c with unlocked := false }) = s.card) : let t := negotiateCard s c
    OnlyRegs s t negotiationRegs [386] ∧ cciState t = 4 ∧ bitR t Reg.CCI_ERR 0 = true := by
  unfold negotiateCard
  rw [if_neg h]
  dsimp only
  generalize (if c.img.failStep ≤ 4 then [] else c.img.cid) = cid
  set u := setCid (setCciState (powerOffCard s) 4) cid with hu
  have hfour : cciState u = 4 := by
    rw [cciState, fieldR, hu, (setCid_form _ _).2 _ cid_apart.1]
    exact cciState_setCciState _ (by decide)
  have honly : OnlyRegs s u negotiationRegs [] := by
    have hoff : OnlyRegs s (powerOffCard s) negotiationRegs [] := onlyRegs_mono (onlyRegs_powerOffCard hcard) (by decide)
    exact onlyRegs_trans (onlyRegs_then_setR hoff (by decide) _) (onlyRegs_mono (onlyRegs_setCid _ _) (by decide))
  refine ⟨onlyRegs_then_raise (onlyRegs_then_setR honly (by decide) _) 386, ?_, ?_⟩
  · rw [cciState, fieldR, getR_congr (raise_regs _ _), cciErr, getR_orR_other _ _ (by decide)]
    exact hfour
  · rw [bitR, getR_congr (raise_regs _ _), cciErr, getR_orR]
    simp [bit, place]

theorem card_refused (s : State) (i : CardImage) (hq : Quiet s) (hon : mainPower s = true) (hslot : s.cardPresent = false)
    (hbad : i.failStep ≠ 0) : Leads (.cardInserted i) s (fun t =>
      cciState t = 4 ∧ bitR t Reg.CCI_ERR 0 = true ∧ Raises s t [384, 386] ∧
      t = withEvents { s with regs := t.regs, card := t.card, cardPresent := true } t) := by
  generalize hc : ({ img := i, unlocked := false, erasing := false, session := none } : Card) = c
  have himg : c.img = i := by rw [← hc]
  generalize ha : ({ s with card := some c, cardPresent := true } : State) = a
  have hlocked : (raise a 384).card.map (fun c => { c with unlocked := false }) = (raise a 384).card := by
    have hcard : (raise a 384).card = some c := (congrArg State.card (LockedRoutes.raise_withEvents a 384) :).trans (by
      rw [← ha]
      rfl)
    rw [hcard, ← hc]
    rfl
  obtain ⟨honly, hstate, herr⟩ := negotiateCard_failed (s := raise a 384) (c := c) (by rw [himg]; exact hbad) hlocked
  have hall := onlyRegs_trans (onlyRegs_then_raise (onlyRegs_refl a _) 384) honly
  have hona : mainPower a = true := by
    rw [← ha]
    exact hon
  have hexec : exec (.cardInserted i) s = done (negotiateCard (raise a 384) c) := by
    have hrow : exec (.cardInserted i) s = done (if s.cardPresent then s else insertCard s i) := rfl
    rw [hrow, if_neg (by simp [hslot]), insertCard]
    dsimp only
    rw [hc, ha, if_neg (by rw [hona]; simp), if_neg (by rw [hstate]; simp)]
  generalize negotiateCard (raise a 384) c = t at *
  have hquiet : Quiet a := by
    rw [← ha]
    exact hq
  obtain ⟨-, -, hraises, hform⟩ := inserted_form (s := s) (by rw [← ha]) hall
  exact leads_done hexec (quiet_of_onlyRegs hall hquiet) ⟨hstate, herr, hraises, hform⟩

theorem card_removed (s : State) (c : Card) (hq : Quiet s) (hon : mainPower s = true) (hslot : s.cardPresent = true)
    (hcard : s.card = some c) (hsession : c.session = none) (herasing : c.erasing = false) : Leads .cardRemoved s (fun t =>
      t.card = none ∧ t.cardPresent = false ∧ cciState t = 0 ∧ Raises s t [385] ∧ SameRegs s t [Reg.CCI_STATUS] ∧
      t = withEvents { s with regs := t.regs, card := none, cardPresent := false } t) := by
  have honly := onlyRegs_then_raise (onlyRegs_refl s [Reg.CCI_STATUS]) 385
  have hremove : removeCard s = { powerOffCard (raise s 385) with card := none, cardPresent := false } := by
    unfold removeCard
    simp only [hcard, Option.bind_some, hsession, Option.isSome_none, Option.map_some, Option.getD_some, herasing,
      Bool.false_eq_true, if_false]
  have hexec : exec .cardRemoved s = done { powerOffCard (raise s 385) with card := none, cardPresent := false } := by
    have hrow : exec .cardRemoved s = done (if !s.cardPresent then s
      else if mainPower s then removeCard s else { s with card := none, cardPresent := false }) := rfl
    rw [hrow, if_neg (by simp [hslot]), if_pos hon, hremove]
  generalize raise s 385 = r at honly hexec
  obtain ⟨hform, hstate, hsame⟩ := powerOffCard_form r
  generalize powerOffCard r = p at hform hstate hsame hexec
  obtain ⟨hrform, hrsame, hrpend, hrsent⟩ := honly
  have hfinal : ({ p with card := none, cardPresent := false } : State) =
      withEvents { s with regs := p.regs, card := none, cardPresent := false } { p with card := none, cardPresent := false } := by
    rw [hform, hrform]
    rfl
  have hevents : p.evtPend = r.evtPend := (congrArg State.evtPend hform :)
  have hports : p.ports = r.ports := (congrArg State.ports hform :)
  refine leads_done hexec ?_ ⟨rfl, rfl, hstate, ⟨fun k hk => ?_, ?_⟩, fun a ha => (hsame a ha).trans (hrsame a ha), hfinal⟩
  · rw [hfinal]
    exact hq
  · show isPending p k = _
    exact (congrArg (fun e => BitVec.getLsbD e k) hevents).trans (hrpend k hk)
  · rwa [← hports] at hrsent

/-! ### Commands -/

/-- A command to an idle card is carried out, with CCI_RESULT not done any more. -/
theorem leads_card {x : Instr} {s : State} {m : Master} {c : Card} {modeOk : Bool} {f : State → State} {P : State → Prop}
    (h : CardIdle s m c) (hexec : exec x s = done (cciCommand s m modeOk f)) (hmode : modeOk = true)
    (hq : Quiet (f (clearR s Reg.CCI_RESULT 0x80000000))) (hp : P (f (clearR s Reg.CCI_RESULT 0x80000000))) : Leads x s P := by
  obtain ⟨-, hm, hcard, -, hsession, herasing⟩ := h
  have hbusy : cardBusy s = false := by
    rw [cardBusy, hcard, Option.map_some, hsession, herasing]
    rfl
  have hsome : (clearR s Reg.CCI_RESULT 0x80000000).card.isNone = false := by
    have hsame : (clearR s Reg.CCI_RESULT 0x80000000).card = s.card := rfl
    rw [hsame, hcard]
    rfl
  have hrow : (if cardBusy s then cciErr s 3
      else if !modeOk then cciResult (clearR s Reg.CCI_RESULT 0x80000000) 0x0A
      else if (clearR s Reg.CCI_RESULT 0x80000000).card.isNone then cciResult (clearR s Reg.CCI_RESULT 0x80000000) 0x16
      else f (clearR s Reg.CCI_RESULT 0x80000000)) = f (clearR s Reg.CCI_RESULT 0x80000000) := by
    rw [if_neg (by simp [hbusy]), if_neg (by simp [hmode]), if_neg (by rw [hsome]; simp)]
  refine leads_guardedWrite (f := fun s => if cardBusy s then cciErr s 3
      else if !modeOk then cciResult (clearR s Reg.CCI_RESULT 0x80000000) 0x0A
      else if (clearR s Reg.CCI_RESULT 0x80000000).card.isNone then cciResult (clearR s Reg.CCI_RESULT 0x80000000) 0x16
      else f (clearR s Reg.CCI_RESULT 0x80000000)) hexec hm ?_ ?_
  · rwa [hrow]
  · rwa [hrow]

theorem withCard_ready {s : State} {c : Card} {f : State → CardImage → State} (hcard : s.card = some c) (hstate : cciState s = 2) :
    withCard s f = f s c.img := by
  have hready : readyCard s = s := by
    rw [readyCard, hcard]
    dsimp only
    rw [if_pos hstate]
  unfold withCard
  dsimp only
  rw [hready, hcard]
  dsimp only
  rw [if_pos hstate]

/-- What CCI_CMD clears before its command: nothing but DONE. -/
theorem cleared_card {s : State} {m : Master} {c : Card} (h : CardIdle s m c) :
    (clearR s Reg.CCI_RESULT 0x80000000).card = some c ∧ cciState (clearR s Reg.CCI_RESULT 0x80000000) = 2 := by
  obtain ⟨-, -, hcard, hstate, -⟩ := h
  refine ⟨hcard, ?_⟩
  rw [cciState, fieldR, getR_clearR_other _ _ (by decide)]
  exact hstate

/-- A command that talks to a ready card. -/
theorem leads_withCard {x : Instr} {s : State} {m : Master} {c : Card} {modeOk : Bool} {f : State → CardImage → State}
    {P : State → Prop} (h : CardIdle s m c) (hexec : exec x s = done (cciCommand s m modeOk (fun s => withCard s f)))
    (hmode : modeOk = true) (hq : Quiet (f (clearR s Reg.CCI_RESULT 0x80000000) c.img))
    (hp : P (f (clearR s Reg.CCI_RESULT 0x80000000) c.img)) : Leads x s P := by
  obtain ⟨hcard, hstate⟩ := cleared_card h
  refine leads_card h hexec hmode ?_ ?_
  · rwa [withCard_ready hcard hstate]
  · rwa [withCard_ready hcard hstate]

theorem card_ejected (s : State) (m : Master) (c : Card) (h : CardIdle s m c) : Leads (.eject m) s (fun t =>
    cciState t = 0 ∧ ResultIs t Reg.CCI_RESULT 0 ∧ t.card = some { c with unlocked := false } ∧
    OnlyRegs { s with card := t.card } t [Reg.CCI_STATUS, Reg.CCI_RESULT] []) := by
  have hcard := (cleared_card h).1
  have hq := h.1
  obtain ⟨hform, hstate, hsame⟩ := powerOffCard_form (clearR s Reg.CCI_RESULT 0x80000000)
  rw [hcard, Option.map_some] at hform
  refine leads_card h rfl rfl ?_ ?_
  · rw [hform]
    exact hq
  · generalize powerOffCard (clearR s Reg.CCI_RESULT 0x80000000) = p at hform hstate hsame
    have hpcard : (cciResult p 0).card = some { c with unlocked := false } := (congrArg State.card hform :)
    refine ⟨?_, resultIs_success p, hpcard, ?_⟩
    · rw [cciState, fieldR, getR_cciResult_other _ _ (by decide)]
      exact hstate
    · refine onlyRegs_of_regs ?_ (fun a ha => ?_)
      · rw [hpcard, hform]
        rfl
      · have hstatus : a ≠ Reg.CCI_STATUS := fun e => ha (by simp [e])
        have hresult : a ≠ Reg.CCI_RESULT := fun e => ha (by simp [e])
        rw [getR_cciResult_other _ _ hresult, hsame a (by simpa using hstatus), getR_clearR_other _ _ hresult]
        rfl

theorem cardPresence : Sys2Proof.Claims.CardPresence := ⟨card_inserted, card_refused, card_removed, card_ejected⟩

/-! ### Formats -/

theorem headerWritten_putHeader (c : CardImage) (f : Nat → Bytes) (e : Bool) :
    HeaderWritten c { putHeader c f with erased := e } (f (headerSeq c + 1)) := by
  unfold HeaderWritten putHeader
  dsimp only
  split
  · exact ⟨rfl, rfl⟩
  · exact ⟨rfl, rfl⟩

theorem putHeader_keeps (c : CardImage) (f : Nat → Bytes) :
    (putHeader c f).units = c.units ∧ (putHeader c f).locked = c.locked := by
  unfold putHeader
  dsimp only
  split <;> exact ⟨rfl, rfl⟩

theorem bitR_clearR_other (s : State) {a b : Nat} (m : Word) (i : Nat) (h : b ≠ a) : bitR (clearR s a m) b i = bitR s b i := by
  rw [bitR, getR_clearR_other _ _ h, bitR]

theorem fieldR_clearR_other (s : State) {a b : Nat} (m : Word) (lo n : Nat) (h : b ≠ a) :
    fieldR (clearR s a m) b lo n = fieldR s b lo n := by
  rw [fieldR, getR_clearR_other _ _ h, fieldR]

theorem formatted_export (s : State) (m : Master) (c : Card) (h : CardIdle s m c) (hbuilt : s.tableBuilt = true)
    (hopen : c.img.locked = false) (hwant : bitR s Reg.CCI_ARG 0 = false) : Leads (.cardFormatExport m) s (fun t =>
      ResultIs t Reg.CCI_RESULT 0 ∧
      (∃ d, t.card = some d ∧ HeaderWritten c.img d.img (headerBytes s 1 (headerSeq c.img + 1) 0 [] 0 [] []) ∧
        d.img.units = c.img.units ∧ d.img.locked = false) ∧
      OnlyRegs { s with card := t.card } t [Reg.CCI_RESULT] []) := by
  have hcard := (cleared_card h).1
  have hheader (q : Nat) : headerBytes (clearR s Reg.CCI_RESULT 0x80000000) 1 q 0 [] 0 [] [] = headerBytes s 1 q 0 [] 0 [] [] := rfl
  have hwant' := (bitR_clearR_other s 0x80000000 0 (b := Reg.CCI_ARG) (a := Reg.CCI_RESULT) (by decide)).trans hwant
  have hbuilt' : (clearR s Reg.CCI_RESULT 0x80000000).tableBuilt = true := hbuilt
  have hformat : formatExport m (clearR s Reg.CCI_RESULT 0x80000000) =
      cciResult (modCard (clearR s Reg.CCI_RESULT 0x80000000)
        (fun c => { putHeader c (fun q => headerBytes s 1 q 0 [] 0 [] []) with erased := false })) 0 := by
    simp only [← hheader]
    generalize clearR s Reg.CCI_RESULT 0x80000000 = a at hcard hwant' hbuilt'
    have hunlock : unlockCard a [m.toNat] = (a, 0) := by
      unfold unlockCard
      rw [hcard]
      dsimp only
      rw [if_pos (by simp [hopen])]
    unfold formatExport
    simp only [builtTable, hbuilt', if_true, hunlock, hwant', ne_eq, not_true_eq_false, if_false, Bool.false_eq_true, false_and]
  refine leads_withCard (f := fun s _ => formatExport m s) h rfl rfl ?_ ?_
  · rw [hformat]
    exact h.1
  · rw [hformat]
    obtain ⟨hunits, hlocked⟩ := putHeader_keeps c.img (fun q => headerBytes s 1 q 0 [] 0 [] [])
    refine ⟨resultIs_success _, ⟨{ c with img := { putHeader c.img (fun q => headerBytes s 1 q 0 [] 0 [] []) with erased := false } },
      ?_, headerWritten_putHeader c.img _ false, hunits, hlocked.trans hopen⟩, onlyRegs_of_regs rfl (fun a ha => ?_)⟩
    · exact congrArg (Option.map _) hcard
    · have hne : a ≠ Reg.CCI_RESULT := by simpa using ha
      rw [getR_cciResult_other _ _ hne]
      exact getR_clearR_other s _ hne

theorem force_erase_starts (s : State) (m : Master) (c : Card) (h : CardIdle s m c) (hmode : inRunOrCommission s = true) :
    Leads (.forceErase m) s (fun t => t.card = some { c with erasing := true } ∧ bitR t Reg.CCI_RESULT 31 = false ∧
      OnlyRegs { s with card := t.card } t [Reg.CCI_RESULT] []) := by
  have hcard := (cleared_card h).1
  refine leads_withCard (f := fun s _ => { s with card := s.card.map (fun c => { c with erasing := true }) }) h rfl hmode h.1
    ⟨congrArg (Option.map _) hcard, ?_, onlyRegs_of_regs rfl (fun a ha => ?_)⟩
  · have hresult : getR ({ clearR s Reg.CCI_RESULT 0x80000000 with
        card := (clearR s Reg.CCI_RESULT 0x80000000).card.map (fun c => { c with erasing := true }) } : State) Reg.CCI_RESULT =
        getR s Reg.CCI_RESULT &&& ~~~0x80000000 := getR_clearR s Reg.CCI_RESULT 0x80000000
    rw [bitR, hresult]
    simp [bit]
  · have hne : a ≠ Reg.CCI_RESULT := by simpa using ha
    exact getR_clearR_other s _ hne

theorem force_erase_ends (s : State) (c : Card) (hon : mainPower s = true) (hcard : s.card = some c) (herasing : c.erasing = true) :
    Leads .forceEraseDone s (fun t =>
      (∃ d, t.card = some d ∧ d.img.locked = false ∧ d.img.units = [] ∧ d.img.hdr0 = [] ∧ d.img.hdr8 = [] ∧
        d.img.erased = true ∧ d.erasing = false) ∧
      ResultIs t Reg.CCI_RESULT 0 ∧ bitR t Reg.CCI_STATUS 6 = false ∧
      OnlyRegs { s with card := t.card } t [Reg.CCI_RESULT, Reg.CCI_STATUS] [394]) := by
  generalize hd : ({ c with img := erasedImage c.img, unlocked := false, erasing := false } : Card) = d
  generalize ha : ({ s with card := some d } : State) = a
  have hacard : a.card = some d := by rw [← ha]
  have honly : OnlyRegs a (cciResult (setFieldR a Reg.CCI_STATUS 6 1 0) 0) [Reg.CCI_RESULT, Reg.CCI_STATUS] [] :=
    onlyRegs_then_setR (onlyRegs_then_setR (onlyRegs_refl a _) (by decide) _) (by decide) _
  have hresult := resultIs_success (setFieldR a Reg.CCI_STATUS 6 1 0)
  have hlock : bitR (cciResult (setFieldR a Reg.CCI_STATUS 6 1 0) 0) Reg.CCI_STATUS 6 = false := by
    rw [bitR, getR_cciResult_other _ _ (by decide), getR_setFieldR, bit, getLsbD_withBits]
    simp
  have hexec : exec .forceEraseDone s = .next (raise (cciResult (setFieldR a Reg.CCI_STATUS 6 1 0) 0) 394) := by
    have hrow : exec .forceEraseDone s = execForceEraseDone s := rfl
    rw [hrow, execForceEraseDone, hcard]
    dsimp only
    rw [if_pos (by simp [herasing, hon]), hd, ha]
  generalize cciResult (setFieldR a Reg.CCI_STATUS 6 1 0) 0 = u at honly hresult hlock hexec
  have hregs := raise_regs u 394
  have hall := onlyRegs_then_raise honly 394
  generalize raise u 394 = t at hexec hregs hall
  have htcard : t.card = some d := (congrArg State.card hall.1 :).trans hacard
  refine leads_next hexec ⟨⟨d, htcard, ?_⟩, ?_, ?_, ?_⟩
  · rw [← hd]
    exact ⟨rfl, rfl, rfl, rfl, rfl, rfl⟩
  · unfold ResultIs fieldR bitR at hresult ⊢
    rwa [getR_congr hregs]
  · rw [bitR, getR_congr hregs]
    exact hlock
  · rw [htcard, ha]
    exact hall

/-- A card that is locked takes the password of the branch; keys on the way to it enter the cache. -/
theorem lockCard_form {s : State} {c : Card} (i : Nat) (hcard : s.card = some c) : ∃ cells cache,
    lockCard s i = setFieldR { s with
      badPrivate := cells, keyCache := cache
      card := some { c with img := { c.img with locked := true, password := lockPassword s i }, unlocked := false } }
      Reg.CCI_STATUS 6 1 1 := by
  obtain ⟨cells, cache, hform⟩ := cachePath_form s i
  refine ⟨cells, cache, ?_⟩
  unfold lockCard modCard
  dsimp only
  rw [hform]
  simp only [hcard, Option.map_some]

theorem regBytes_clearR (s : State) {a b : Nat} (m : Word) (n : Nat) (h : ∀ i, i < n → b + 4 * i ≠ a) :
    regBytes (clearR s a m) b n = regBytes s b n := by
  unfold regBytes
  rw [List.flatMap_congr (fun i hi => ?_)]
  rw [getR_clearR_other _ _ (h i (List.mem_range.mp hi))]

theorem lockPassword_clearR (s : State) (i : Nat) (f : CardImage → CardImage) :
    lockPassword (modCard (clearR s Reg.CCI_RESULT 0x80000000) f) i = lockPassword s i := by
  have hcid : regBytes (modCard (clearR s Reg.CCI_RESULT 0x80000000) f) Reg.CCI_CID 4 = regBytes s Reg.CCI_CID 4 :=
    regBytes_clearR s 0x80000000 4 (by decide)
  have hkey : branchKey (modCard (clearR s Reg.CCI_RESULT 0x80000000) f) i = branchKey s i := by
    have hunder (n j : Nat) : keyUnder (modCard (clearR s Reg.CCI_RESULT 0x80000000) f) n j = keyUnder s n j := by
      induction n generalizing j with
      | zero => rfl
      | succ n ih =>
        unfold keyUnder
        simp only [ih]
        rfl
    exact hunder 9 i
  rw [lockPassword, hcid, hkey, lockPassword]

theorem lockCheck_setR (s : State) (a : Nat) (v : Word) (i : Nat) (by_ : List Nat) :
    lockCheck (setR s a v) i by_ = lockCheck s i by_ := by
  have hsource (n j : Nat) : sourceCell (setR s a v) n j = sourceCell s n j := by
    induction n generalizing j with
    | zero => rfl
    | succ n ih =>
      unfold sourceCell
      simp only [ih]
      rfl
  have hbad : sourceBad (setR s a v) i = sourceBad s i := by
    rw [sourceBad, hsource, sourceBad]
    rfl
  unfold lockCheck useCheck
  simp only [hbad]
  rfl

/-- The image of a backup card once both its headers are written. -/
def backedUp (s : State) (blob : Bytes) (c : CardImage) : CardImage :=
  putHeader (putHeader c (fun q => headerBytes s 2 q 0 [] 0 [] blob)) (fun q => headerBytes s 2 q 0 [] 0 [] blob)

theorem formatBackup_locks {s : State} {m : Master} {c : Card} (h : CardIdle s m c) (hbuilt : s.tableBuilt = true)
    (hopen : c.img.locked = false) (herased : c.img.erased = true)
    (hreach : reach s 29 .read (getR s Reg.CCI_BUF).toNat 184 = { state := s, outcome := .ok }) (hmode : lockModeOk s = true)
    (hcheck : lockCheck s (backupLock s (memBytes s (getR s Reg.CCI_BUF).toNat 184)) [BitVec.toNat m] = Check.ok) :
    let blob := memBytes s (getR s Reg.CCI_BUF).toNat 184
    formatBackup m (clearR s Reg.CCI_RESULT 0x80000000) c.img = cciResult (lockCard (modCard (clearR s Reg.CCI_RESULT 0x80000000)
      (fun c => { backedUp s blob c with erased := false })) (backupLock s blob)) 0 := by
  have hcard := (cleared_card h).1
  intro blob
  have hplain := plainRead_setR (b := Reg.CCI_RESULT) (getR s Reg.CCI_RESULT &&& ~~~0x80000000) (by decide) (plainRead_of_reach hreach)
  have hbuffer : getR (clearR s Reg.CCI_RESULT 0x80000000) Reg.CCI_BUF = getR s Reg.CCI_BUF := getR_clearR_other _ _ (by decide)
  have hserved := reach_plain hplain
  have hbytes := engineBytes_plain hplain
  have hcheck' := (lockCheck_setR s Reg.CCI_RESULT (getR s Reg.CCI_RESULT &&& ~~~0x80000000) (backupLock s blob) [m.toNat]).trans hcheck
  have hstatus : Check.ok.status = 0 := rfl
  change formatBackup m (setR s Reg.CCI_RESULT (getR s Reg.CCI_RESULT &&& ~~~0x80000000)) c.img = _
  change reach (setR s Reg.CCI_RESULT (getR s Reg.CCI_RESULT &&& ~~~0x80000000)) 29 .read _ 184 = _ at hserved
  have hlocked : isLocked (setR s Reg.CCI_RESULT (getR s Reg.CCI_RESULT &&& ~~~0x80000000)) = false := by
    have hsame : (setR s Reg.CCI_RESULT (getR s Reg.CCI_RESULT &&& ~~~0x80000000)).card = some c := hcard
    rw [isLocked, hsame, Option.map_some, hopen]
    rfl
  have htable : builtTable (setR s Reg.CCI_RESULT (getR s Reg.CCI_RESULT &&& ~~~0x80000000)) =
      setR s Reg.CCI_RESULT (getR s Reg.CCI_RESULT &&& ~~~0x80000000) := if_pos hbuilt
  have hallowed : lockModeOk (setR s Reg.CCI_RESULT (getR s Reg.CCI_RESULT &&& ~~~0x80000000)) = true := hmode
  have hbranch (b : Bytes) : backupLock (setR s Reg.CCI_RESULT (getR s Reg.CCI_RESULT &&& ~~~0x80000000)) b = backupLock s b := rfl
  have hblob : memBytes (setR s Reg.CCI_RESULT (getR s Reg.CCI_RESULT &&& ~~~0x80000000)) (getR s Reg.CCI_BUF).toNat 184 = blob := rfl
  unfold formatBackup
  dsimp only
  rw [htable]
  have hbuffer' : getR (setR s Reg.CCI_RESULT (getR s Reg.CCI_RESULT &&& ~~~0x80000000)) Reg.CCI_BUF = getR s Reg.CCI_BUF := hbuffer
  rw [hbuffer', hserved, hbytes, hblob, hbranch, hcheck', if_neg (by rw [hlocked]; simp), if_neg (by simp [herased]),
    if_neg (by simp), if_neg (by rw [hallowed]; simp), if_neg (by rw [hstatus]; simp)]
  rfl

theorem formatted_backup (s : State) (m : Master) (c : Card) (h : CardIdle s m c) (hbuilt : s.tableBuilt = true)
    (hopen : c.img.locked = false) (herased : c.img.erased = true)
    (hreach : reach s 29 .read (getR s Reg.CCI_BUF).toNat 184 = { state := s, outcome := .ok }) (hmode : lockModeOk s = true)
    (hcheck : lockCheck s (backupLock s (memBytes s (getR s Reg.CCI_BUF).toNat 184)) [BitVec.toNat m] = Check.ok) :
    Leads (.cardFormatBackup m) s (fun t =>
      ResultIs t Reg.CCI_RESULT 0 ∧
      (∃ d, t.card = some d ∧ d.img.locked = true ∧ d.img.erased = false ∧
        d.img.password = lockPassword s (backupLock s (memBytes s (getR s Reg.CCI_BUF).toNat 184)) ∧
        HeaderWritten (putHeader c.img (fun q => headerBytes s 2 q 0 [] 0 [] (memBytes s (getR s Reg.CCI_BUF).toNat 184))) d.img
          (headerBytes s 2 (headerSeq (putHeader c.img (fun q => headerBytes s 2 q 0 [] 0 []
            (memBytes s (getR s Reg.CCI_BUF).toNat 184))) + 1) 0 [] 0 [] (memBytes s (getR s Reg.CCI_BUF).toNat 184))) ∧
      bitR t Reg.CCI_STATUS 6 = true) := by
  have hformat := formatBackup_locks h hbuilt hopen herased hreach hmode hcheck
  dsimp only at hformat
  generalize memBytes s (getR s Reg.CCI_BUF).toNat 184 = blob at hformat ⊢
  have hpassword := lockPassword_clearR s (backupLock s blob) (fun c => { backedUp s blob c with erased := false })
  have hcard : (modCard (clearR s Reg.CCI_RESULT 0x80000000) (fun c => { backedUp s blob c with erased := false })).card =
      some { c with img := { backedUp s blob c.img with erased := false } } := congrArg (Option.map _) (cleared_card h).1
  obtain ⟨cells, cache, hlock⟩ := lockCard_form (backupLock s blob) hcard
  rw [hlock, hpassword] at hformat
  have hheader := headerWritten_putHeader (putHeader c.img (fun q => headerBytes s 2 q 0 [] 0 [] blob))
    (fun q => headerBytes s 2 q 0 [] 0 [] blob) false
  refine leads_withCard (f := formatBackup m) h rfl rfl ?_ ?_
  · rw [hformat]
    exact h.1
  · rw [hformat]
    refine ⟨resultIs_success _, ⟨_, rfl, rfl, rfl, rfl, hheader⟩, ?_⟩
    rw [bitR, getR_cciResult_other _ _ (by decide), getR_setFieldR, bit, getLsbD_withBits]
    simp

/-- A store of a setting counts at that setting only. -/
theorem sstStore_keeps {s : State} {i : Nat} (hcount : sstCount s i < 100000) (v : DWord) :
    (sstStore s i v).fusesOk = s.fusesOk ∧ ∀ k, k ≠ i → sstCount (sstStore s i v) k = sstCount s k := by
  generalize hu : setR (sstPut { s with sstWear := mput s.sstWear i (sstCount s i + 1) } i v) Reg.SST_STATUS (1 ||| place 8 8 i) = u
  have hform := withEvents_trans (raiseIf_withEvents u (decide (sstCount s i + 1 = 90000)) 41)
    (raiseIf_withEvents _ (decide (sstCount s i + 1 = 100000)) 40)
  have hstore := sstStore_fits (v := v) hcount
  rw [hu] at hstore
  rw [← hstore] at hform
  generalize sstStore s i v = t at hform
  refine ⟨(congrArg State.fusesOk hform :).trans (by rw [← hu]; rfl), fun k hk => ?_⟩
  have hwear : t.sstWear = mput s.sstWear i (sstCount s i + 1) := (congrArg State.sstWear hform :).trans (by rw [← hu]; rfl)
  rw [sstCount, hwear, mget, mget?_mput_other _ _ _ _ hk, sstCount, mget]

/-- The image of a credential card once both its headers are written. -/
def credentialed (s : State) (c : CardImage) : CardImage :=
  let w (c : CardImage) : CardImage := putHeader c (fun q => headerBytes s 3 q 0 [] (fieldR s Reg.CCI_ARG 4 5) (drawBytes s 32) [])
  w (w c)

theorem formatCredential_stores {s : State} {c : Card} (hcard : s.card = some c) (hopen : c.img.locked = false)
    (hlow : 1 ≤ fieldR s Reg.CCI_ARG 4 5) (hhigh : fieldR s Reg.CCI_ARG 4 5 ≤ 16) (hready : entReady s = true) : ∃ (u : State) (card : Option Card),
    formatCredential s = cciResult (sstStore (sstStore { s with ent := u.ent, entCtr := u.entCtr, card := card }
      (credentialSlot (fieldR s Reg.CCI_ARG 4 5)) (num64 (credentialDigest s (fieldR s Reg.CCI_ARG 4 5) (drawBytes s 32)) 0))
      (credentialSlot (fieldR s Reg.CCI_ARG 4 5) + 1)
      (num64 (credentialDigest s (fieldR s Reg.CCI_ARG 4 5) (drawBytes s 32)) 8)) 0 := by
  refine ⟨drawn s 32, some { c with img := { credentialed s c.img with erased := false } }, ?_⟩
  have hlocked : isLocked s = false := by
    rw [isLocked, hcard, Option.map_some, hopen]
    rfl
  have hperson : personOk (fieldR s Reg.CCI_ARG 4 5) = true := decide_eq_true ⟨hlow, hhigh⟩
  unfold formatCredential
  dsimp only
  rw [if_neg (by simp [hlocked]), if_neg (by simp [hperson, hready]), modCard]
  have hsame : (drawn s 32).card = some c := hcard
  rw [hsame]
  rfl

theorem formatted_credential (s : State) (m : Master) (c : Card) (h : CardIdle s m c) (hmode : s.mode = .commissioning)
    (hopen : c.img.locked = false) (hlow : 1 ≤ fieldR s Reg.CCI_ARG 4 5) (hhigh : fieldR s Reg.CCI_ARG 4 5 ≤ 16)
    (hready : entReady s = true) (hcount : sstCount s (credentialSlot (fieldR s Reg.CCI_ARG 4 5)) < 100000)
    (hcount' : sstCount s (credentialSlot (fieldR s Reg.CCI_ARG 4 5) + 1) < 100000) : Leads (.cardFormatCredential m) s (fun t =>
      let d := credentialDigest s (fieldR s Reg.CCI_ARG 4 5) (drawBytes s 32)
      ResultIs t Reg.CCI_RESULT 0 ∧ sstGet t (credentialSlot (fieldR s Reg.CCI_ARG 4 5)) = num64 d 0 ∧
      sstGet t (credentialSlot (fieldR s Reg.CCI_ARG 4 5) + 1) = num64 d 8) := by
  have hcard := (cleared_card h).1
  have hfuses : s.fusesOk = true := fusesOk_of_mayWrite h.2.1
  have hperson : fieldR (clearR s Reg.CCI_RESULT 0x80000000) Reg.CCI_ARG 4 5 = fieldR s Reg.CCI_ARG 4 5 :=
    fieldR_clearR_other s _ _ _ (by decide)
  have hready' : entReady (clearR s Reg.CCI_RESULT 0x80000000) = true := by
    rw [entReady, bitR_clearR_other s _ _ (by decide), bitR_clearR_other s _ _ (by decide)]
    exact hready
  have hdigest : credentialDigest (clearR s Reg.CCI_RESULT 0x80000000) (fieldR s Reg.CCI_ARG 4 5)
      (drawBytes (clearR s Reg.CCI_RESULT 0x80000000) 32) = credentialDigest s (fieldR s Reg.CCI_ARG 4 5) (drawBytes s 32) := rfl
  have hq := h.1
  obtain ⟨u, card, hformat⟩ := formatCredential_stores hcard hopen (by rw [hperson]; exact hlow) (by rw [hperson]; exact hhigh) hready'
  rw [hperson, hdigest] at hformat
  generalize credentialDigest s (fieldR s Reg.CCI_ARG 4 5) (drawBytes s 32) = d at hformat ⊢
  generalize credentialSlot (fieldR s Reg.CCI_ARG 4 5) = i at hformat hcount hcount' ⊢
  generalize ha : ({ clearR s Reg.CCI_RESULT 0x80000000 with ent := u.ent, entCtr := u.entCtr, card := card } : State) = a at hformat
  have hafuses : a.fusesOk = true := by
    rw [← ha]
    exact hfuses
  have hcounts (k : Nat) : sstCount a k = sstCount s k := by
    rw [← ha]
    rfl
  have haq : Quiet a := by
    rw [← ha]
    exact hq
  have hfirst := sstStore_written hafuses (i := i) (by rw [hcounts]; exact hcount) (num64 d 0)
  have hkept := sstStore_keeps (i := i) (by rw [hcounts]; exact hcount) (num64 d 0)
  generalize sstStore a i (num64 d 0) = b at hformat hfirst hkept
  obtain ⟨hget, -, -, -, hquiet, -⟩ := hfirst
  have hsecond := sstStore_written (s := b) (i := i + 1) (hkept.1.trans hafuses)
    (by rw [hkept.2 (i + 1) (by omega), hcounts]; exact hcount') (num64 d 8)
  generalize sstStore b (i + 1) (num64 d 8) = t at hformat hsecond
  obtain ⟨hget', hother, -, -, hquiet', -⟩ := hsecond
  refine leads_withCard (f := fun s _ => formatCredential s) h rfl (decide_eq_true hmode) ?_ ?_
  · rw [hformat]
    exact hquiet' (hquiet haq)
  · rw [hformat]
    exact ⟨resultIs_success _, (hother i (by omega)).trans hget, hget'⟩

theorem cardCommands : Sys2Proof.Claims.CardCommands :=
  ⟨formatted_export, formatted_backup, formatted_credential, force_erase_starts, force_erase_ends⟩

/-- Settles O23: a card's insertion negotiates, its commands write its image, CCI_RESULT and CCI_STATUS. -/
theorem cardControl : Obligations.CardControl := ⟨cardPresence, cardCommands⟩

end Sys2Proof.CardControl
end

section
/-! PROOF. The digest engine (R307 to R316, R319): its jobs and its state. -/

namespace Sys2Proof.DigestEngine

open Sys2Proof.Machine Sys2Proof.Frames Sys2Proof.Chains Sys2Proof.PlainMemory Sys2Proof.CardControl Sys2Proof.DeadmanAndImages

/-! ### What a command of the engine changes -/

/-- Registers, the engine's own state and the named events are all that changed. -/
def EngineStep (s t : State) (regs events : List Nat) : Prop := OnlyRegs { s with kde := t.kde } t regs events

theorem EngineStep.quiet {s t : State} {l e : List Nat} (h : EngineStep s t l e) (hq : Quiet s) : Quiet t :=
  quiet_of_onlyRegs h hq

theorem EngineStep.mono {s t : State} {l k e : List Nat} (h : EngineStep s t l e) (hk : ∀ a ∈ l, a ∈ k) : EngineStep s t k e :=
  onlyRegs_mono h hk

theorem EngineStep.withKde {s t : State} {l e : List Nat} (h : EngineStep s t l e) (k : Kde) : EngineStep s { t with kde := k } l e := by
  obtain ⟨hform, hsame, hraises⟩ := h
  exact ⟨(congrArg (fun x : State => { x with kde := k }) hform :), hsame, hraises⟩

theorem EngineStep.setR {s t : State} {l e : List Nat} (h : EngineStep s t l e) {a : Nat} (ha : a ∈ l) (v : Word) :
    EngineStep s (setR t a v) l e := onlyRegs_then_setR h ha v

theorem EngineStep.raise {s t : State} {l e : List Nat} (h : EngineStep s t l e) (n : Nat) : EngineStep s (raise t n) l (e ++ [n]) := by
  have hkde : (Machine.raise t n).kde = t.kde := (congrArg State.kde (LockedRoutes.raise_withEvents t n) :)
  unfold EngineStep
  rw [hkde]
  exact onlyRegs_then_raise h n

theorem EngineStep.refl (s : State) (l : List Nat) : EngineStep s s l [] := onlyRegs_refl s l

theorem kde_raise (s : State) (n : Nat) : (raise s n).kde = s.kde := (congrArg State.kde (LockedRoutes.raise_withEvents s n) :)

theorem mem_raise (s : State) (n : Nat) : (raise s n).mem = s.mem := (congrArg State.mem (LockedRoutes.raise_withEvents s n) :)

/-- A job that ends other than DONE. -/
theorem kdeEnd_fails {s u : State} {regs : List Nat} (h : EngineStep s u (Reg.KDE_STATUS :: regs) []) (code : Nat) :
    EngineStep s (kdeEnd u code) (Reg.KDE_STATUS :: regs) [257] ∧ KdeFailed s (kdeEnd u code) code regs := by
  have hstep : EngineStep s (kdeEnd u code) (Reg.KDE_STATUS :: regs) [257] :=
    ((h.withKde (noJob u.kde)).setR List.mem_cons_self _).raise 257
  refine ⟨hstep, ?_, ?_, ?_, hstep⟩
  · rw [kdeEnd, getR_congr (raise_regs _ _), getR_setR_same]
  · rw [kdeEnd, kde_raise]
    rfl
  · rw [kdeEnd, kde_raise]
    rfl

theorem kdeStatus_setState (s : State) {n : Nat} (h : n < 2 ^ 3) : kdeStatus (kdeSetState s n) = n := by
  rw [kdeStatus, fieldR, kdeSetState, getR_setFieldR, bitsOf_withBits_same _ _ (by decide), Nat.mod_eq_of_lt h]

theorem kdeStatus_raise (s : State) (n : Nat) : kdeStatus (raise s n) = kdeStatus s := by
  rw [kdeStatus, fieldR, getR_congr (raise_regs s n), kdeStatus, fieldR]

/-- A job that waits for its next segment. -/
theorem kdeWaiting_waits {s u : State} {regs : List Nat} (h : EngineStep s u regs []) (hmem : Reg.KDE_STATUS ∈ regs) :
    EngineStep s (kdeWaiting u) regs [256] ∧ kdeStatus (kdeWaiting u) = 2 ∧ (kdeWaiting u).kde = u.kde ∧
      ∀ a, a ≠ Reg.KDE_STATUS → getR (kdeWaiting u) a = getR u a := by
  refine ⟨(EngineStep.setR h hmem _).raise 256, ?_, kde_raise _ _, fun a ha => ?_⟩
  · rw [kdeWaiting, kdeStatus_raise, kdeStatus_setState _ (by decide)]
  · rw [kdeWaiting, getR_congr (raise_regs _ _), kdeSetState, getR_setFieldR_other _ _ _ _ ha]

theorem leads_kde {c : Instr} {s : State} {m : Master} {f : State → State} {P : State → Prop} (h : KdeOwner s m)
    (hexec : exec c s = done (kdeCommand s m f)) (hq : Quiet (f s)) (hp : P (f s)) : Leads c s P := by
  obtain ⟨-, hm, howner, hne⟩ := h
  have hown : kdeOwned s m f = f s := if_pos ⟨howner, hne⟩
  refine leads_guardedWrite (f := fun s => kdeOwned s m f) hexec hm ?_ ?_
  · rwa [hown]
  · rwa [hown]

/-! ### START -/

/-- The registers that START clears. -/
def startRegs : List Nat := [Reg.KDE_CMP, Reg.KDE_ABSORBED, Reg.KDE_ABSORBED + 4]

/-- The state in which START has taken up the job's parameters. -/
def started (s : State) : State :=
  { setR64 (setR s Reg.KDE_CMP 0) Reg.KDE_ABSORBED 0 with
    kde := { s.kde with config := getR s Reg.KDE_CONFIG, total := kdeTotalReg s, outLen := fieldR s Reg.KDE_OUTLEN 0 24
                        branch := fieldR s Reg.KDE_KEY 0 12 } }

theorem getR_cleared (s : State) {a : Nat} (h : a ∉ startRegs) :
    getR (setR64 (setR s Reg.KDE_CMP 0) Reg.KDE_ABSORBED 0) a = getR s a := by
  simp only [startRegs, List.mem_cons, List.not_mem_nil, or_false, not_or] at h
  obtain ⟨h1, h2, h3⟩ := h
  rw [setR64_eq, getR_setR_other _ _ _ _ h3, getR_setR_other _ _ _ _ h2, getR_setR_other _ _ _ _ h1]

theorem started_step (s : State) : EngineStep s (started s) startRegs [] :=
  EngineStep.withKde (((EngineStep.refl s startRegs).setR (by decide) 0).setR (by decide) _ |>.setR (by decide) _) _

theorem startJob_eq (s : State) (m : Master) (split : Bool) : kdeStartJob s m split =
    if kdeBadParam (getR s Reg.KDE_CONFIG) (fieldR s Reg.KDE_OUTLEN 0 24) then kdeEnd (started s) 0x0A
    else if !kdeIsKmac (kdeFunc (getR s Reg.KDE_CONFIG)) then kdeBegin (started s) (getR s Reg.KDE_CONFIG) split
    else if !kdeKeyedMode (started s) (getR s Reg.KDE_CONFIG) then kdeEnd (started s) 0x09
    else if (kdeKeyCheck (started s) (fieldR s Reg.KDE_KEY 0 12) m).status ≠ 0 then
      kdeEnd (noteCheck (started s) (kdeKeyCheck (started s) (fieldR s Reg.KDE_KEY 0 12) m))
        (if (kdeKeyCheck (started s) (fieldR s Reg.KDE_KEY 0 12) m).status = 0x0D then 0x05
         else (kdeKeyCheck (started s) (fieldR s Reg.KDE_KEY 0 12) m).status)
    else kdeBegin (useBranch (started s) (fieldR s Reg.KDE_KEY 0 12)) (getR s Reg.KDE_CONFIG) split := by
  have htotal : kdeTotalReg (setR64 (setR s Reg.KDE_CMP 0) Reg.KDE_ABSORBED 0) = kdeTotalReg s := by
    rw [kdeTotalReg, getR64, getR_cleared s (by decide), getR_cleared s (by decide), kdeTotalReg, getR64]
  unfold kdeStartJob
  dsimp only
  rw [htotal]
  rfl

theorem kdeAbsorb_nothing (k : Kde) (h : k.part = []) : kdeAbsorb k [] = k := by
  unfold kdeAbsorb
  rw [h]
  cases k
  cases h
  simp [absorbBlocks]

/-- An unkeyed job whose function takes nothing in front goes on at once. -/
theorem kdeBegin_plain {u : State} {w : Word} (h1 : 1 ≤ kdeFunc w) (h6 : kdeFunc w ≤ 6) (split : Bool) :
    kdeBegin u w split = kdeAdvance { u with kde := noJob u.kde } split := by
  have hkmac : kdeIsKmac (kdeFunc w) = false := by simp [kdeIsKmac]; omega
  have hcshake : kdeIsCshake (kdeFunc w) = false := by simp [kdeIsCshake]; omega
  have hlen : kdePrefixLen w = 0 := by simp [kdePrefixLen, hkmac, hcshake]
  have hprefix (buf key : Bytes) : kdePrefix w buf key = [] := by simp [kdePrefix, hkmac, hcshake]
  have hreach : reach u 25 .read (getR u Reg.KDE_PFX).toNat 0 = { state := u, outcome := .ok } :=
    reach_plain ⟨by simp [meetsSpecial], fun x hx => absurd hx List.not_mem_nil⟩
  have hdone : Access.ok ≠ Access.ok ↔ False := by simp
  unfold kdeBegin
  dsimp only
  rw [hlen, hreach]
  simp only [hdone, if_false, hprefix, hkmac, Bool.false_and, Bool.false_eq_true]
  rw [kdeAbsorb_nothing _ rfl]
  rfl

theorem getR64_withKde (u : State) (k : Kde) (a : Nat) : getR64 { u with kde := k } a = getR64 u a := rfl

/-- A job with message left waits for it. -/
theorem kdeAdvance_more {u : State} (split : Bool) (h : getR64 u Reg.KDE_ABSORBED ≠ u.kde.total) :
    kdeAdvance u split = kdeWaiting u := if_neg h

theorem started_total (s : State) : (noJob (started s).kde).total = kdeTotalReg s := rfl

theorem started_absorbed (s : State) : getR64 (started s) Reg.KDE_ABSORBED = 0 := by
  unfold started
  rw [getR64_withKde, getR64_setR64]

theorem start_unkeyed (s : State) (m : Master) (split : Bool) (h : KdeOwner s m) (hidle : kdeStatus s = 0 ∨ kdeStatus s = 4)
    (h1 : 1 ≤ kdeFunc (getR s Reg.KDE_CONFIG)) (h6 : kdeFunc (getR s Reg.KDE_CONFIG) ≤ 6)
    (hparam : kdeBadParam (getR s Reg.KDE_CONFIG) (fieldR s Reg.KDE_OUTLEN 0 24) = false) (htotal : kdeTotalReg s ≠ 0)
    (hbuilt : s.tableBuilt = true) : Leads (.kdeStart ⟨m, split⟩) s (fun t =>
      kdeStatus t = 2 ∧ getR64 t Reg.KDE_ABSORBED = 0 ∧ getR t Reg.KDE_CMP = 0 ∧
      t.kde = { noJob s.kde with config := getR s Reg.KDE_CONFIG, total := kdeTotalReg s,
                                 outLen := fieldR s Reg.KDE_OUTLEN 0 24, branch := fieldR s Reg.KDE_KEY 0 12 } ∧
      OnlyRegs { s with kde := t.kde } t [Reg.KDE_STATUS, Reg.KDE_CMP, Reg.KDE_ABSORBED, Reg.KDE_ABSORBED + 4] [256]) := by
  have hkmac : kdeIsKmac (kdeFunc (getR s Reg.KDE_CONFIG)) = false := by simp [kdeIsKmac]; omega
  have hcmp : getR (started s) Reg.KDE_CMP = 0 := by
    show getR (setR64 (setR s Reg.KDE_CMP 0) Reg.KDE_ABSORBED 0) Reg.KDE_CMP = 0
    rw [setR64_eq, getR_setR_other _ _ _ _ (by decide), getR_setR_other _ _ _ _ (by decide), getR_setR_same]
  have hstart : kdeStart s m split = kdeWaiting { started s with kde := noJob (started s).kde } := by
    have hadvance : getR64 ({ started s with kde := noJob (started s).kde } : State) Reg.KDE_ABSORBED ≠ (noJob (started s).kde).total := by
      rw [getR64_withKde, started_absorbed, started_total]
      exact Ne.symm htotal
    rw [kdeStart, if_pos hidle, builtTable, if_pos hbuilt, startJob_eq, if_neg (by simp [hparam]), if_pos (by simp [hkmac]),
      kdeBegin_plain h1 h6]
    exact kdeAdvance_more split hadvance
  obtain ⟨hstep, hstatus, hkde, hregs⟩ := kdeWaiting_waits (regs := Reg.KDE_STATUS :: startRegs)
    (((started_step s).mono (by decide)).withKde (noJob (started s).kde)) (by decide)
  refine leads_kde (f := fun s => kdeStart s m split) h rfl ?_ ?_
  · rw [hstart]
    exact hstep.quiet h.1
  · rw [hstart]
    refine ⟨hstatus, ?_, (hregs _ (by decide)).trans hcmp, hkde, hstep⟩
    rw [getR64, hregs _ (by decide), hregs _ (by decide)]
    exact started_absorbed s

theorem start_param (s : State) (m : Master) (split : Bool) (h : KdeOwner s m) (hidle : kdeStatus s = 0 ∨ kdeStatus s = 4)
    (hbuilt : s.tableBuilt = true) (hparam : kdeBadParam (getR s Reg.KDE_CONFIG) (fieldR s Reg.KDE_OUTLEN 0 24) = true) :
    Leads (.kdeStart ⟨m, split⟩) s (fun t => KdeFailed s t 0x0A [Reg.KDE_CMP, Reg.KDE_ABSORBED, Reg.KDE_ABSORBED + 4]) := by
  have hstart : kdeStart s m split = kdeEnd (started s) 0x0A := by
    rw [kdeStart, if_pos hidle, builtTable, if_pos hbuilt, startJob_eq, if_pos hparam]
  obtain ⟨hstep, hfailed⟩ := kdeEnd_fails (regs := startRegs) ((started_step s).mono (by decide)) 0x0A
  refine leads_kde (f := fun s => kdeStart s m split) h rfl ?_ ?_
  · rw [hstart]
    exact hstep.quiet h.1
  · rw [hstart]
    exact hfailed

theorem start_mode (s : State) (m : Master) (split : Bool) (h : KdeOwner s m) (hidle : kdeStatus s = 0 ∨ kdeStatus s = 4)
    (hbuilt : s.tableBuilt = true) (hparam : kdeBadParam (getR s Reg.KDE_CONFIG) (fieldR s Reg.KDE_OUTLEN 0 24) = false)
    (hkeyed : 9 ≤ kdeFunc (getR s Reg.KDE_CONFIG)) (hrun : s.mode ≠ .running) (hcommission : s.mode ≠ .commissioning)
    (hcaution : s.mode ≠ .caution ∨ bitR s Reg.KDE_CONFIG 4 = false) :
    Leads (.kdeStart ⟨m, split⟩) s (fun t => KdeFailed s t 0x09 [Reg.KDE_CMP, Reg.KDE_ABSORBED, Reg.KDE_ABSORBED + 4]) := by
  have hfunc : kdeFunc (getR s Reg.KDE_CONFIG) ≤ 12 := by
    unfold kdeBadParam at hparam
    simp only [Bool.or_eq_false_iff, decide_eq_false_iff_not] at hparam
    omega
  have hkmac : kdeIsKmac (kdeFunc (getR s Reg.KDE_CONFIG)) = true := decide_eq_true ⟨hkeyed, hfunc⟩
  have hmode : kdeKeyedMode (started s) (getR s Reg.KDE_CONFIG) = false := by
    have hsame : (started s).mode = s.mode := rfl
    have hcompare : kdeCompare (getR s Reg.KDE_CONFIG) = bitR s Reg.KDE_CONFIG 4 := rfl
    rw [kdeKeyedMode, hsame, hcompare]
    rcases hcaution with h | h <;> simp [hrun, hcommission, h]
  have hstart : kdeStart s m split = kdeEnd (started s) 0x09 := by
    rw [kdeStart, if_pos hidle, builtTable, if_pos hbuilt, startJob_eq, if_neg (by simp [hparam]), if_neg (by simp [hkmac]),
      if_pos (by simp [hmode])]
  obtain ⟨hstep, hfailed⟩ := kdeEnd_fails (regs := startRegs) ((started_step s).mono (by decide)) 0x09
  refine leads_kde (f := fun s => kdeStart s m split) h rfl ?_ ?_
  · rw [hstart]
    exact hstep.quiet h.1
  · rw [hstart]
    exact hfailed

/-! ### FEED and the end of a segment -/

theorem feed_taken (s : State) (m : Master) (h : KdeOwner s m) (hstatus : kdeStatus s = 2) (hlow : 1 ≤ kdeSegLen s)
    (hhigh : kdeSegLen s ≤ 16777216) (hfits : (getR64 s Reg.KDE_ABSORBED).toNat + kdeSegLen s ≤ s.kde.total.toNat) :
    Leads (.kdeFeed m) s (fun t =>
      kdeStatus t = 1 ∧ t.kde = { s.kde with src := getR s Reg.KDE_SRC, seg := kdeSegLen s } ∧
      OnlyRegs { s with kde := t.kde } t [Reg.KDE_STATUS] []) := by
  have hfeed : kdeFeed s = kdeSetState { s with kde := { s.kde with src := getR s Reg.KDE_SRC, seg := kdeSegLen s } } 1 := by
    rw [kdeFeed, if_neg (by simp [hstatus]), if_neg (by omega), if_neg (by omega)]
  refine leads_kde (f := kdeFeed) h rfl ?_ ?_
  · rw [hfeed]
    exact h.1
  · rw [hfeed]
    refine ⟨kdeStatus_setState _ (by decide), rfl, ?_⟩
    exact EngineStep.setR ((EngineStep.refl s _).withKde _) (by decide) _

theorem feed_beyond (s : State) (m : Master) (h : KdeOwner s m) (hstatus : kdeStatus s = 2)
    (hover : s.kde.total.toNat < (getR64 s Reg.KDE_ABSORBED).toNat + kdeSegLen s) :
    Leads (.kdeFeed m) s (fun t => KdeFailed s t 0x02 []) := by
  have hfeed : kdeFeed s = kdeEnd s 0x02 := by rw [kdeFeed, if_neg (by simp [hstatus]), if_pos hover]
  obtain ⟨hstep, hfailed⟩ := kdeEnd_fails (regs := []) (EngineStep.refl s _) 0x02
  refine leads_kde (f := kdeFeed) h rfl ?_ ?_
  · rw [hfeed]
    exact hstep.quiet h.1
  · rw [hfeed]
    exact hfailed

/-- The state in which a segment is absorbed. -/
def absorbed (s : State) : State :=
  setR64 { s with kde := kdeAbsorb s.kde (memBytes s s.kde.src.toNat s.kde.seg) } Reg.KDE_ABSORBED
    (getR64 s Reg.KDE_ABSORBED + BitVec.ofNat 64 s.kde.seg)

theorem absorbed_count (s : State) :
    getR64 (absorbed s) Reg.KDE_ABSORBED = getR64 s Reg.KDE_ABSORBED + BitVec.ofNat 64 s.kde.seg := getR64_setR64 _ _ _

theorem absorbed_kde (s : State) : (absorbed s).kde = kdeAbsorb s.kde (memBytes s s.kde.src.toNat s.kde.seg) := rfl

theorem kdeAbsorb_keeps (k : Kde) (b : Bytes) :
    (kdeAbsorb k b).total = k.total ∧ (kdeAbsorb k b).config = k.config ∧ (kdeAbsorb k b).hide = k.hide := ⟨rfl, rfl, rfl⟩

theorem absorbed_step (s : State) : EngineStep s (absorbed s) [Reg.KDE_ABSORBED, Reg.KDE_ABSORBED + 4] [] :=
  (((EngineStep.refl s _).withKde _).setR (by decide) _).setR (by decide) _

theorem exec_segmentDone {s : State} (split : Bool) (hon : mainPower s = true) (hstatus : kdeStatus s = 1)
    (hplain : PlainRead s 25 s.kde.src.toNat s.kde.seg) :
    exec (.kdeSegmentDone ⟨.ok, split⟩) s = done (kdeAdvance (absorbed s) split) := by
  have hrow : exec (.kdeSegmentDone ⟨.ok, split⟩) s =
      done (if mainPower s && decide (kdeStatus s = 1) then kdeSegmentEnd s .ok split else s) := rfl
  have hdone : Access.ok ≠ Access.ok ↔ False := by simp
  rw [hrow, if_pos (by simp [hon, hstatus]), kdeSegmentEnd]
  simp only [reach_plain hplain, hdone, if_false]
  rw [kdeTakeBytes, engineBytes_plain hplain]
  rfl

theorem segment_more (s : State) (split : Bool) (hq : Quiet s) (hon : mainPower s = true) (hstatus : kdeStatus s = 1)
    (hplain : PlainRead s 25 s.kde.src.toNat s.kde.seg)
    (hmore : getR64 s Reg.KDE_ABSORBED + BitVec.ofNat 64 s.kde.seg ≠ s.kde.total) :
    Leads (.kdeSegmentDone ⟨.ok, split⟩) s (fun t =>
      kdeStatus t = 2 ∧ getR64 t Reg.KDE_ABSORBED = getR64 s Reg.KDE_ABSORBED + BitVec.ofNat 64 s.kde.seg ∧
      t.kde = kdeAbsorb s.kde (memBytes s s.kde.src.toNat s.kde.seg) ∧
      OnlyRegs { s with kde := t.kde } t [Reg.KDE_STATUS, Reg.KDE_ABSORBED, Reg.KDE_ABSORBED + 4] [256]) := by
  have hexec := exec_segmentDone split hon hstatus hplain
  have hcount : getR64 (absorbed s) Reg.KDE_ABSORBED = getR64 s Reg.KDE_ABSORBED + BitVec.ofNat 64 s.kde.seg := getR64_setR64 _ _ _
  have htotal : (absorbed s).kde.total = s.kde.total := rfl
  rw [kdeAdvance, if_neg (by rw [hcount, htotal]; exact hmore)] at hexec
  obtain ⟨hstep, hwaits, hkde, hregs⟩ := kdeWaiting_waits (regs := [Reg.KDE_STATUS, Reg.KDE_ABSORBED, Reg.KDE_ABSORBED + 4])
    ((absorbed_step s).mono (by decide)) (by decide)
  refine leads_done hexec (hstep.quiet hq) ⟨hwaits, ?_, hkde, hstep⟩
  rw [getR64, hregs _ (by decide), hregs _ (by decide)]
  exact hcount

/-! ### The end of a job -/

/-- KDE_RESULT with an output of at most 64 bytes in it. -/
def withResult (u : State) (out : Bytes) : State := setRegBytes u Reg.KDE_RESULT (patch (regBytes u Reg.KDE_RESULT 16) 0 out)

theorem regBytes_length (s : State) (a n : Nat) : (regBytes s a n).length = 4 * n := by
  have hword (w : Word) : (wordBytes w).length = 4 := le_length 4 _
  simp [regBytes, List.length_flatMap, hword, Nat.mul_comm]

theorem withResult_form {u : State} {out : Bytes} (h : out.length ≤ 64) :
    (withResult u out = { u with regs := (withResult u out).regs }) ∧
    (∀ i, i < 16 → getR (withResult u out) (Reg.KDE_RESULT + 4 * i) =
      BitVec.ofNat 32 (num (patch (regBytes u Reg.KDE_RESULT 16) 0 out) (4 * i) 4)) ∧
    (∀ a, a ∉ (List.range 16).map (fun k => Reg.KDE_RESULT + 4 * k) → getR (withResult u out) a = getR u a) := by
  have hlen : (patch (regBytes u Reg.KDE_RESULT 16) 0 out).length / 4 = 16 := by
    simp only [patch, List.length_take, List.length_append, slice_length, List.length_drop, regBytes_length]
    omega
  have hset : withResult u out = (List.range 16).foldl (fun t i => setR t (Reg.KDE_RESULT + 4 * i)
      (BitVec.ofNat 32 (num (patch (regBytes u Reg.KDE_RESULT 16) 0 out) (4 * i) 4))) u := by
    rw [withResult, setRegBytes, hlen]
  rw [hset]
  obtain ⟨hform, hsame⟩ := setRegWords_form u Reg.KDE_RESULT
    (fun i => BitVec.ofNat 32 (num (patch (regBytes u Reg.KDE_RESULT 16) 0 out) (4 * i) 4)) 16
  refine ⟨hform, fun i hi => ?_, hsame⟩
  rw [getR_setRegWords u Reg.KDE_RESULT
    (fun i => BitVec.ofNat 32 (num (patch (regBytes u Reg.KDE_RESULT 16) 0 out) (4 * i) 4)) 16 i, if_pos hi]

theorem kdeFinish_short {u : State} {split : Bool} (hshort : (kdeOutput u.kde).length ≤ 64) :
    kdeFinish u split = raise (setR { kdeRunCompare (withResult u
        ((if u.kde.hide then zeros (kdeOutput u.kde).length else kdeOutput u.kde).take 64)) (kdeOutput u.kde) split with
      kde := noJob (kdeRunCompare (withResult u
        ((if u.kde.hide then zeros (kdeOutput u.kde).length else kdeOutput u.kde).take 64)) (kdeOutput u.kde) split).kde }
      Reg.KDE_STATUS (4 ||| place 16 8 255)) 256 := by
  have hlong : ¬ 64 < (kdeOutput u.kde).length := by omega
  have hdone : Access.ok ≠ Access.ok ↔ False := by simp
  unfold kdeFinish
  simp only [hlong, if_false, false_and, hdone]
  rfl

/-- Where the compare is off nothing is compared. -/
theorem kdeRunCompare_off {u : State} {out : Bytes} {split : Bool} (h : kdeCompare u.kde.config = false) :
    kdeRunCompare u out split = u := if_neg (by simp [h])

theorem finish_result {u : State} (split : Bool) (hq : Quiet u) (hcompare : kdeCompare u.kde.config = false)
    (hshort : (kdeOutput u.kde).length ≤ 64) (hhide : u.kde.hide = false) : let t := kdeFinish u split
    Quiet t ∧ getR t Reg.KDE_STATUS = (4 ||| place 16 8 255) ∧
      (∀ i, i < 16 → getR t (Reg.KDE_RESULT + 4 * i) =
        BitVec.ofNat 32 (num (patch (regBytes u Reg.KDE_RESULT 16) 0 (kdeOutput u.kde)) (4 * i) 4)) ∧
      t.kde.lanes = zeroLanes ∧ t.mem = u.mem ∧ Raises u t [256] := by
  have hshown : (if u.kde.hide then zeros (kdeOutput u.kde).length else kdeOutput u.kde).take 64 = kdeOutput u.kde := by
    rw [hhide, if_neg (by simp)]
    exact List.take_of_length_le hshort
  obtain ⟨hform, hresult, -⟩ := withResult_form (u := u) hshort
  have hoff : kdeCompare (withResult u (kdeOutput u.kde)).kde.config = false := by
    rw [hform]
    exact hcompare
  rw [kdeFinish_short hshort, hshown, kdeRunCompare_off hoff]
  generalize withResult u (kdeOutput u.kde) = r at hform hresult
  have hraises : Raises u (raise (setR { r with kde := noJob r.kde } Reg.KDE_STATUS (4 ||| place 16 8 255)) 256) [256] := by
    refine raises_raise (l := []) (raises_of_same (raises_refl u) ?_ ?_) 256
    · exact (congrArg State.evtPend hform :)
    · exact (congrArg (fun u => u.ports.hostOut) hform :)
  have hmem : r.mem = u.mem := (congrArg State.mem hform :)
  have hquiet : Quiet r := by
    rw [hform]
    exact hq
  have hbase : Quiet (setR { r with kde := noJob r.kde } Reg.KDE_STATUS (4 ||| place 16 8 255)) := hquiet
  refine ⟨quiet_withEvents (LockedRoutes.raise_withEvents _ _) hbase, ?_, fun i hi => ?_, ?_, ?_, hraises⟩
  · rw [getR_congr (raise_regs _ _), getR_setR_same]
  · have hne : Reg.KDE_RESULT + 4 * i ≠ Reg.KDE_STATUS :=
      Nat.ne_of_gt (Nat.lt_of_lt_of_le (by decide : Reg.KDE_STATUS < Reg.KDE_RESULT) (Nat.le_add_right _ _))
    rw [getR_congr (raise_regs _ _), getR_setR_other _ _ _ _ hne]
    exact hresult i hi
  · rw [kde_raise]
    rfl
  · rw [mem_raise]
    exact hmem

/-- The segment that completes the message. -/
theorem exec_lastSegment {s : State} (split : Bool) (hon : mainPower s = true) (hstatus : kdeStatus s = 1)
    (hplain : PlainRead s 25 s.kde.src.toNat s.kde.seg)
    (hlast : getR64 s Reg.KDE_ABSORBED + BitVec.ofNat 64 s.kde.seg = s.kde.total) :
    exec (.kdeSegmentDone ⟨.ok, split⟩) s = done (kdeFinish (absorbed s) split) := by
  rw [exec_segmentDone split hon hstatus hplain, kdeAdvance, if_pos]
  rw [absorbed_count, absorbed_kde, (kdeAbsorb_keeps _ _).1]
  exact hlast

theorem regBytes_absorbed (s : State) : regBytes (absorbed s) Reg.KDE_RESULT 16 = regBytes s Reg.KDE_RESULT 16 := by
  have hout : ∀ i, i < 16 → Reg.KDE_RESULT + 4 * i ∉ [Reg.KDE_ABSORBED, Reg.KDE_ABSORBED + 4] := by decide
  unfold regBytes
  refine List.flatMap_congr (fun i hi => ?_)
  rw [(absorbed_step s).2.1 _ (hout i (List.mem_range.mp hi))]
  rfl

theorem segment_result (s : State) (split : Bool) (hq : Quiet s) (hon : mainPower s = true) (hstatus : kdeStatus s = 1)
    (hplain : PlainRead s 25 s.kde.src.toNat s.kde.seg)
    (hlast : getR64 s Reg.KDE_ABSORBED + BitVec.ofNat 64 s.kde.seg = s.kde.total) (hcompare : kdeCompare s.kde.config = false) :
    let out := kdeOutput (kdeAbsorb s.kde (memBytes s s.kde.src.toNat s.kde.seg))
    out.length ≤ 64 → s.kde.hide = false → Leads (.kdeSegmentDone ⟨.ok, split⟩) s (fun t =>
      getR t Reg.KDE_STATUS = (4 ||| place 16 8 255) ∧
      (∀ i, i < 16 → getR t (Reg.KDE_RESULT + 4 * i) =
        BitVec.ofNat 32 (num (patch (regBytes s Reg.KDE_RESULT 16) 0 out) (4 * i) 4)) ∧
      t.kde.lanes = zeroLanes ∧ t.mem = s.mem ∧ Raises s t [256]) := by
  intro out hshort hhide
  have hstep := absorbed_step s
  have hkde := absorbed_kde s
  have hregs := regBytes_absorbed s
  have hexec := exec_lastSegment split hon hstatus hplain hlast
  have hmem : (absorbed s).mem = s.mem := rfl
  have hraises := hstep.2.2
  have hquiet := hstep.quiet hq
  generalize absorbed s = u at *
  have hout : kdeOutput u.kde = out := by rw [hkde]
  obtain ⟨hquiet', hdone, hresult, hlanes, hmem', hraises'⟩ := finish_result (u := u) split hquiet
    (by rw [hkde]; exact hcompare) (by rw [hout]; exact hshort) (by rw [hkde]; exact hhide)
  rw [hregs, hout] at hresult
  exact leads_done hexec hquiet' ⟨hdone, hresult, hlanes, hmem'.trans hmem, raises_trans (l := []) hraises hraises'⟩

theorem bits_cmp (a b : Nat) (ha : a < 4) (hb : b < 4) : bitsOf (place 0 2 a ||| place 2 2 b) 0 2 = a ∧
    bitsOf (place 0 2 a ||| place 2 2 b) 2 2 = b := by
  rw [bitsOf_or, bitsOf_or, bitsOf_place_same _ (by decide), bitsOf_place_other _ (by decide), bitsOf_place_other _ (by decide),
    bitsOf_place_same _ (by decide)]
  simp only [Nat.or_zero, Nat.zero_or]
  omega

/-- Both comparators report, and they differ where one fails (R315). -/
theorem kdeRunCompare_reports {u : State} (out : Bytes) (split : Bool) (h : kdeCompare u.kde.config = true) :
    let t := kdeRunCompare u out split
    t = withEvents { u with regs := t.regs, freeCtr := t.freeCtr } t ∧
    fieldR t Reg.KDE_CMP 0 2 ∈ [1, 2] ∧
    fieldR t Reg.KDE_CMP 2 2 = (if split then 3 - fieldR t Reg.KDE_CMP 0 2 else fieldR t Reg.KDE_CMP 0 2) ∧
    (split = true → bitR t Reg.KDE_ERR 2 = true ∧ isPending t 257 = true) := by
  unfold kdeRunCompare
  rw [if_pos h]
  dsimp only
  generalize kdeMatch u out = ok
  generalize hv : usedFree (setR u Reg.KDE_CMP (place 0 2 (cmpField ok) ||| place 2 2 (cmpField (ok != split)))) = v
  have hform : v = { u with regs := v.regs, freeCtr := v.freeCtr } := by rw [← hv]; rfl
  have hcmp : getR v Reg.KDE_CMP = place 0 2 (cmpField ok) ||| place 2 2 (cmpField (ok != split)) := by
    rw [← hv]
    exact getR_setR_same u _ _
  have hfield (b : Bool) : cmpField b < 4 := by cases b <;> decide
  obtain ⟨hlow, hhigh⟩ := bits_cmp (cmpField ok) (cmpField (ok != split)) (hfield _) (hfield _)
  have hreport (t : State) (ht : getR t Reg.KDE_CMP = getR v Reg.KDE_CMP) : fieldR t Reg.KDE_CMP 0 2 ∈ [1, 2] ∧
      fieldR t Reg.KDE_CMP 2 2 = (if split then 3 - fieldR t Reg.KDE_CMP 0 2 else fieldR t Reg.KDE_CMP 0 2) := by
    unfold fieldR
    rw [ht, hcmp, hlow, hhigh]
    cases ok <;> cases split <;> decide
  cases split with
  | true =>
    rw [if_pos rfl]
    obtain ⟨hfirst, hsecond⟩ := hreport (raise (orR v Reg.KDE_ERR 4) 257)
      (by rw [getR_congr (raise_regs _ _), getR_orR_other _ _ (by decide)])
    refine ⟨?_, hfirst, hsecond, fun _ => ⟨?_, isPending_raise_same _ (by decide)⟩⟩
    · obtain ⟨q, o, hraise⟩ := raise_form (orR v Reg.KDE_ERR 4) 257
      rw [hraise, hform]
      rfl
    · rw [bitR, getR_congr (raise_regs _ _), getR_orR]
      simp [bit]
  | false =>
    rw [if_neg (by decide)]
    have hregs : (raiseIf (!ok) v 260).regs = v.regs := by
      cases ok
      · exact raise_regs _ _
      · rfl
    obtain ⟨hfirst, hsecond⟩ := hreport (raiseIf (!ok) v 260) (getR_congr hregs _)
    refine ⟨?_, hfirst, hsecond, fun h => by cases h⟩
    have hevents := raiseIf_withEvents v (!ok) 260
    generalize raiseIf (!ok) v 260 = t at hevents
    rw [hevents, hform]
    rfl

theorem finish_compare {u : State} (split : Bool) (hq : Quiet u) (hcompare : kdeCompare u.kde.config = true)
    (hshort : (kdeOutput u.kde).length ≤ 64) : let t := kdeFinish u split
    Quiet t ∧ kdeStatus t = 4 ∧ fieldR t Reg.KDE_CMP 0 2 ∈ [1, 2] ∧
      fieldR t Reg.KDE_CMP 2 2 = (if split then 3 - fieldR t Reg.KDE_CMP 0 2 else fieldR t Reg.KDE_CMP 0 2) ∧
      (split = true → bitR t Reg.KDE_ERR 2 = true ∧ isPending t 257 = true) ∧ isPending t 256 = true ∧ t.mem = u.mem := by
  rw [kdeFinish_short hshort]
  generalize hshown : (if u.kde.hide then zeros (kdeOutput u.kde).length else kdeOutput u.kde).take 64 = shown
  have hlen : shown.length ≤ 64 := by
    rw [← hshown]
    exact List.length_take_le 64 _
  obtain ⟨hform, -, -⟩ := withResult_form (u := u) hlen
  generalize withResult u shown = r at hform ⊢
  have hrmem : r.mem = u.mem := (congrArg State.mem hform :)
  have hrquiet : Quiet r := by
    rw [hform]
    exact hq
  have hrcompare : kdeCompare r.kde.config = true := by
    rw [hform]
    exact hcompare
  obtain ⟨hcform, hfirst, hsecond, hsplit⟩ := kdeRunCompare_reports (kdeOutput u.kde) split hrcompare
  generalize kdeRunCompare r (kdeOutput u.kde) split = c at hcform hfirst hsecond hsplit ⊢
  have hcmem : c.mem = r.mem := (congrArg State.mem hcform :)
  have hcquiet : Quiet c := by
    rw [hcform]
    exact hrquiet
  have hbase : Quiet (setR { c with kde := noJob c.kde } Reg.KDE_STATUS (4 ||| place 16 8 255)) := hcquiet
  have hkept (a : Nat) (ha : a ≠ Reg.KDE_STATUS) :
      getR (raise (setR { c with kde := noJob c.kde } Reg.KDE_STATUS (4 ||| place 16 8 255)) 256) a = getR c a := by
    rw [getR_congr (raise_regs _ _), getR_setR_other _ _ _ _ ha]
    rfl
  refine ⟨quiet_withEvents (LockedRoutes.raise_withEvents _ _) hbase, ?_, ?_, ?_, fun h => ⟨?_, ?_⟩,
    isPending_raise_same _ (by decide), ?_⟩
  · rw [kdeStatus_raise, kdeStatus, fieldR, getR_setR_same]
    decide
  · rwa [fieldR, hkept _ (by decide)]
  · rw [fieldR, fieldR, hkept _ (by decide)]
    exact hsecond
  · rw [bitR, hkept _ (by decide)]
    exact (hsplit h).1
  · exact isPending_raise_of _ (by decide) (show isPending c 257 = true from (hsplit h).2)
  · rw [mem_raise]
    exact hcmem.trans hrmem

theorem segment_compare (s : State) (split : Bool) (hq : Quiet s) (hon : mainPower s = true) (hstatus : kdeStatus s = 1)
    (hplain : PlainRead s 25 s.kde.src.toNat s.kde.seg)
    (hlast : getR64 s Reg.KDE_ABSORBED + BitVec.ofNat 64 s.kde.seg = s.kde.total) (hcompare : kdeCompare s.kde.config = true)
    (hshort : (kdeOutput (kdeAbsorb s.kde (memBytes s s.kde.src.toNat s.kde.seg))).length ≤ 64) :
    Leads (.kdeSegmentDone ⟨.ok, split⟩) s (fun t =>
      kdeStatus t = 4 ∧ fieldR t Reg.KDE_CMP 0 2 ∈ [1, 2] ∧
      fieldR t Reg.KDE_CMP 2 2 = (if split then 3 - fieldR t Reg.KDE_CMP 0 2 else fieldR t Reg.KDE_CMP 0 2) ∧
      (split = true → bitR t Reg.KDE_ERR 2 = true ∧ isPending t 257 = true) ∧ isPending t 256 = true ∧ t.mem = s.mem) := by
  have hkde := absorbed_kde s
  have hexec := exec_lastSegment split hon hstatus hplain hlast
  have hmem : (absorbed s).mem = s.mem := rfl
  have hquiet := (absorbed_step s).quiet hq
  generalize absorbed s = u at *
  obtain ⟨hquiet', hdone, hfirst, hsecond, hsplit, hpending, hmem'⟩ := finish_compare (u := u) split hquiet
    (by rw [hkde]; exact hcompare) (by rw [hkde]; exact hshort)
  exact leads_done hexec hquiet' ⟨hdone, hfirst, hsecond, hsplit, hpending, hmem'.trans hmem⟩

theorem segment_busError (s : State) (split : Bool) (hq : Quiet s) (hon : mainPower s = true) (hstatus : kdeStatus s = 1) :
    Leads (.kdeSegmentDone ⟨.busError, split⟩) s (fun t => KdeFailed s t 0x04 []) := by
  have hexec : exec (.kdeSegmentDone ⟨.busError, split⟩) s = done (kdeEnd s 0x04) := by
    have hrow : exec (.kdeSegmentDone ⟨.busError, split⟩) s =
      done (if mainPower s && decide (kdeStatus s = 1) then kdeSegmentEnd s .busError split else s) := rfl
    rw [hrow, if_pos (by simp [hon, hstatus]), kdeSegmentEnd, if_pos (by simp)]
    rfl
  obtain ⟨hstep, hfailed⟩ := kdeEnd_fails (regs := []) (EngineStep.refl s _) 0x04
  exact leads_done hexec (hstep.quiet hq) hfailed

theorem digestJobs : Sys2Proof.Claims.DigestJobs :=
  ⟨start_unkeyed, start_param, start_mode, feed_taken, feed_beyond, segment_more, segment_compare, segment_result, segment_busError⟩

/-! ### SAVE and RESTORE -/

theorem kdeStatus_end (s : State) {u : State} {code : Nat} {regs : List Nat} (h : KdeFailed s u code regs) : kdeStatus u = 0 := by
  rw [kdeStatus, fieldR, h.1, bitsOf_or, bitsOf_place_other _ (by decide), bitsOf_place_other _ (by decide)]
  rfl

theorem save_writes (s : State) (m : Master) (h : KdeOwner s m) (hstatus : kdeStatus s = 2) (hpart : s.kde.part = [])
    (hkeyed : s.kde.keyed = false) (hksv : s.kde.ksv ≠ []) :
    let a := (getR s Reg.KDE_BLOB).toNat
    let b := kdeBlob s.kde (getR64 s Reg.KDE_ABSORBED).toNat (zeros 16)
    a % 8 = 0 → PlainWrite s 25 a b.length →
    Leads (.kdeSave m) s (fun t =>
      memBytes t a b.length = b ∧ (∀ x, (x < a ∨ a + b.length ≤ x) → memByte t x = memByte s x) ∧ kdeStatus t = 0 ∧
      t.kde = noJob s.kde ∧
      OnlyRegs { s with kde := t.kde, mem := t.mem, badCells := t.badCells } t [Reg.KDE_STATUS] []) := by
  intro a b haligned hplain
  obtain ⟨u, hwrite, hbytes, hout, hform⟩ := engineWrite_plain hplain
  have hdone : Access.ok ≠ Access.ok ↔ False := by simp
  have hready : withKsv s = s := if_neg (by simpa using hksv)
  have hsave : kdeSave s = kdeSetState { u with kde := noJob u.kde } 0 := by
    have halign : kdeAligned s Reg.KDE_BLOB = true := decide_eq_true haligned
    rw [kdeSave, if_neg (by rw [hstatus]; decide), if_pos ⟨hstatus, by rw [hpart]; rfl⟩, kdeWriteBlob,
      if_neg (by rw [halign]; decide)]
    simp only [hready, hkeyed, Bool.false_eq_true, if_false, hwrite, hdone]
    rw [hwrite]
    simp only [hdone, if_false]
  have hkde : u.kde = s.kde := (congrArg State.kde hform :)
  have hregs : u.regs = s.regs := (congrArg State.regs hform :)
  have hcongr : ({ u with kde := noJob u.kde } : State) =
      { s with kde := noJob s.kde, mem := u.mem, badCells := u.badCells } := by
    rw [hkde]
    exact (congrArg (fun x : State => { x with kde := noJob s.kde }) hform :)
  rw [hcongr] at hsave
  have hstep : OnlyRegs { s with kde := noJob s.kde, mem := u.mem, badCells := u.badCells }
      (kdeSetState { s with kde := noJob s.kde, mem := u.mem, badCells := u.badCells } 0) [Reg.KDE_STATUS] [] :=
    onlyRegs_then_setR (onlyRegs_refl _ _) (by decide) _
  refine leads_kde (f := kdeSave) h rfl ?_ ?_
  · rw [hsave]
    exact h.1
  · rw [hsave]
    exact ⟨hbytes, hout, kdeStatus_setState _ (by decide), rfl, hstep⟩

theorem save_refused (s : State) (m : Master) (h : KdeOwner s m) (hstatus : kdeStatus s = 2) (hpart : s.kde.part ≠ []) :
    Leads (.kdeSave m) s (fun t => getR t Reg.KDE_ERR = getR s Reg.KDE_ERR ||| 2 ∧ OnlyRegs s t [Reg.KDE_ERR] []) := by
  have hsave : kdeSave s = kdeRefused s := by
    rw [kdeSave, if_neg (by rw [hstatus]; decide), if_neg (fun hc => hpart (by simpa using hc.2))]
  refine leads_kde (f := kdeSave) h rfl ?_ ?_
  · rw [hsave]
    exact h.1
  · rw [hsave]
    exact ⟨getR_orR s _ _, LinesideUnit.onlyRegs_orR s _ _⟩

theorem blobKde_congr {s t : State} (hkde : t.kde = s.kde) (hmode : t.mode = s.mode) (w : Word) (b : Bytes) :
    blobKde t w b = blobKde s w b := by
  unfold blobKde
  rw [hkde, hmode]

/-- The registers of the job that a blob holds. -/
def restoredRegs (s : State) (b : Bytes) : State :=
  setR (setR (setR64 (setR64 (setR s Reg.KDE_CONFIG (blobConfig (getR s Reg.KDE_CONFIG) b)) Reg.KDE_TOTAL (num64 b 8))
    Reg.KDE_ABSORBED (num64 b 16)) Reg.KDE_OUTLEN (BitVec.ofNat 32 (num b 4 4))) Reg.KDE_KEY (BitVec.ofNat 32 (num b 24 2))

theorem restoredRegs_keeps (s : State) (b : Bytes) : (restoredRegs s b).kde = s.kde ∧ (restoredRegs s b).mode = s.mode := by
  have hkde (t : State) (a : Nat) (v : Word) : (setR t a v).kde = t.kde := rfl
  have hmode (t : State) (a : Nat) (v : Word) : (setR t a v).mode = t.mode := rfl
  unfold restoredRegs
  simp only [setR64_eq, hkde, hmode, and_self]

theorem kdeRestoreBlob_eq {s : State} {m : Master} {b : Bytes} (hready : withKsv s = s) (htable : builtTable s = s) :
    kdeRestoreBlob s m b = if !(blobShapeOk b && blobTagOk s b) then kdeEnd s 0x08
      else if blobKeyed b && decide ((kdeKeyCheck s (num b 24 2) m).status = 0x0D) then kdeEnd (sealFault s spineTile) 0x05
      else if !blobBranchOk s m b then kdeEnd s 0x08
      else kdeWaiting { restoredRegs s b with kde := blobKde s (blobConfig (getR s Reg.KDE_CONFIG) b) b } := by
  have hs : (if blobKeyed b then builtTable (withKsv s) else withKsv s) = s := by rw [hready, htable, ite_self]
  have hkde : blobKde (restoredRegs s b) (blobConfig (getR s Reg.KDE_CONFIG) b) b = blobKde s (blobConfig (getR s Reg.KDE_CONFIG) b) b :=
    blobKde_congr (restoredRegs_keeps s b).1 (restoredRegs_keeps s b).2 _ _
  rw [← hkde]
  unfold restoredRegs kdeRestoreBlob
  dsimp only
  rw [hs]

/-- RESTORE takes up the bytes of its blob. -/
theorem restore_reads {s : State} {m : Master} (hstatus : kdeStatus s = 0) (hksv : s.kde.ksv ≠ [])
    (haligned : (getR s Reg.KDE_BLOB).toNat % 8 = 0) (hplain : PlainRead s 25 (getR s Reg.KDE_BLOB).toNat 288)
    (hbuilt : s.tableBuilt = true) : let b := memBytes s (getR s Reg.KDE_BLOB).toNat 288
    kdeRestore s m = if !(blobShapeOk b && blobTagOk s b) then kdeEnd s 0x08
      else if blobKeyed b && decide ((kdeKeyCheck s (num b 24 2) m).status = 0x0D) then kdeEnd (sealFault s spineTile) 0x05
      else if !blobBranchOk s m b then kdeEnd s 0x08
      else kdeWaiting { restoredRegs s b with kde := blobKde s (blobConfig (getR s Reg.KDE_CONFIG) b) b } := by
  have hready : withKsv s = s := if_neg (by simpa using hksv)
  have htable : builtTable s = s := if_pos hbuilt
  have halign : kdeAligned s Reg.KDE_BLOB = true := decide_eq_true haligned
  have hdone : Access.ok ≠ Access.ok ↔ False := by simp
  intro b
  rw [← kdeRestoreBlob_eq hready htable, kdeRestore, if_neg (by simp [hstatus])]
  dsimp only
  rw [if_neg (by rw [halign]; decide), reach_plain hplain]
  simp only [hdone, if_false]
  rw [engineBytes_plain hplain]

/-- The registers that RESTORE writes. -/
def restoreRegs : List Nat := [Reg.KDE_STATUS, Reg.KDE_CONFIG, Reg.KDE_TOTAL, Reg.KDE_TOTAL + 4, Reg.KDE_ABSORBED,
  Reg.KDE_ABSORBED + 4, Reg.KDE_OUTLEN, Reg.KDE_KEY]

theorem restore_taken (s : State) (m : Master) (h : KdeOwner s m) (hstatus : kdeStatus s = 0) (hksv : s.kde.ksv ≠ []) :
    let a := (getR s Reg.KDE_BLOB).toNat
    let b := memBytes s a 288
    a % 8 = 0 → PlainRead s 25 a 288 → s.tableBuilt = true →
    (blobKeyed b = true → (kdeKeyCheck s (num b 24 2) m).status ≠ 0x0D) → blobShapeOk b = true → blobTagOk s b = true →
    blobBranchOk s m b = true → Leads (.kdeRestore m) s (fun t =>
      kdeStatus t = 2 ∧ getR64 t Reg.KDE_TOTAL = num64 b 8 ∧ getR64 t Reg.KDE_ABSORBED = num64 b 16 ∧
      t.kde = blobKde s (blobConfig (getR s Reg.KDE_CONFIG) b) b ∧
      OnlyRegs { s with kde := t.kde } t [Reg.KDE_STATUS, Reg.KDE_CONFIG, Reg.KDE_TOTAL, Reg.KDE_TOTAL + 4, Reg.KDE_ABSORBED,
        Reg.KDE_ABSORBED + 4, Reg.KDE_OUTLEN, Reg.KDE_KEY] [256]) := by
  intro a b haligned hplain hbuilt hkeyed hshape htag hbranch
  have hrestore := restore_reads (m := m) hstatus hksv haligned hplain hbuilt
  dsimp only at hrestore
  change kdeRestore s m = if !(blobShapeOk b && blobTagOk s b) then kdeEnd s 0x08
      else if blobKeyed b && decide ((kdeKeyCheck s (num b 24 2) m).status = 0x0D) then kdeEnd (sealFault s spineTile) 0x05
      else if !blobBranchOk s m b then kdeEnd s 0x08
      else kdeWaiting { restoredRegs s b with kde := blobKde s (blobConfig (getR s Reg.KDE_CONFIG) b) b } at hrestore
  clear_value b
  have hgood : ¬ (blobKeyed b && decide ((kdeKeyCheck s (num b 24 2) m).status = 0x0D)) = true := by
    rw [Bool.and_eq_true, decide_eq_true_eq]
    exact fun hc => hkeyed hc.1 hc.2
  rw [if_neg (by rw [hshape, htag]; decide), if_neg hgood, if_neg (by rw [hbranch]; decide)] at hrestore
  generalize blobKde s (blobConfig (getR s Reg.KDE_CONFIG) b) b = k at hrestore ⊢
  generalize hu : restoredRegs s b = u at hrestore
  unfold restoredRegs at hu
  have htotal : getR64 u Reg.KDE_TOTAL = num64 b 8 := by
    have hone (v : Word) (x : DWord) (y z : Word) (c : DWord) : getR64 (setR (setR (setR64 (setR64 (setR s Reg.KDE_CONFIG v)
        Reg.KDE_TOTAL c) Reg.KDE_ABSORBED x) Reg.KDE_OUTLEN y) Reg.KDE_KEY z) Reg.KDE_TOTAL =
        getR64 (setR64 (setR s Reg.KDE_CONFIG v) Reg.KDE_TOTAL c) Reg.KDE_TOTAL := by
      simp only [getR64, setR64_eq, getR_setR_other _ _ _ _ (by decide : Reg.KDE_TOTAL + 4 ≠ Reg.KDE_KEY),
        getR_setR_other _ _ _ _ (by decide : Reg.KDE_TOTAL + 4 ≠ Reg.KDE_OUTLEN),
        getR_setR_other _ _ _ _ (by decide : Reg.KDE_TOTAL + 4 ≠ Reg.KDE_ABSORBED + 4),
        getR_setR_other _ _ _ _ (by decide : Reg.KDE_TOTAL + 4 ≠ Reg.KDE_ABSORBED),
        getR_setR_other _ _ _ _ (by decide : Reg.KDE_TOTAL ≠ Reg.KDE_KEY),
        getR_setR_other _ _ _ _ (by decide : Reg.KDE_TOTAL ≠ Reg.KDE_OUTLEN),
        getR_setR_other _ _ _ _ (by decide : Reg.KDE_TOTAL ≠ Reg.KDE_ABSORBED + 4),
        getR_setR_other _ _ _ _ (by decide : Reg.KDE_TOTAL ≠ Reg.KDE_ABSORBED)]
    rw [← hu, hone, getR64_setR64]
  have hcount : getR64 u Reg.KDE_ABSORBED = num64 b 16 := by
    have hone (t : State) (y z : Word) (c : DWord) : getR64 (setR (setR (setR64 t Reg.KDE_ABSORBED c) Reg.KDE_OUTLEN y) Reg.KDE_KEY z)
        Reg.KDE_ABSORBED = getR64 (setR64 t Reg.KDE_ABSORBED c) Reg.KDE_ABSORBED := by
      simp only [getR64, getR_setR_other _ _ _ _ (by decide : Reg.KDE_ABSORBED + 4 ≠ Reg.KDE_KEY),
        getR_setR_other _ _ _ _ (by decide : Reg.KDE_ABSORBED + 4 ≠ Reg.KDE_OUTLEN),
        getR_setR_other _ _ _ _ (by decide : Reg.KDE_ABSORBED ≠ Reg.KDE_KEY),
        getR_setR_other _ _ _ _ (by decide : Reg.KDE_ABSORBED ≠ Reg.KDE_OUTLEN)]
    rw [← hu, hone, getR64_setR64]
  have hstep : EngineStep s u restoreRegs [] := by
    rw [← hu]
    exact (((((((EngineStep.refl s restoreRegs).setR (by decide) _).setR (by decide) _).setR (by decide) _).setR (by decide) _).setR
      (by decide) _).setR (by decide) _).setR (by decide) _
  obtain ⟨hall, hwaits, hkde, hregs⟩ := kdeWaiting_waits (hstep.withKde k) (by decide)
  refine leads_kde (f := fun s => kdeRestore s m) h rfl ?_ ?_
  · rw [hrestore]
    exact hall.quiet h.1
  · rw [hrestore]
    refine ⟨hwaits, ?_, ?_, hkde, hall⟩
    · rw [getR64, hregs _ (by decide), hregs _ (by decide)]
      exact htotal
    · rw [getR64, hregs _ (by decide), hregs _ (by decide)]
      exact hcount

theorem restore_refused (s : State) (m : Master) (h : KdeOwner s m) (hstatus : kdeStatus s = 0) (hksv : s.kde.ksv ≠ []) :
    let a := (getR s Reg.KDE_BLOB).toNat
    let b := memBytes s a 288
    a % 8 = 0 → PlainRead s 25 a 288 → s.tableBuilt = true → (blobShapeOk b = false ∨ blobTagOk s b = false) →
    Leads (.kdeRestore m) s (fun t => KdeFailed s t 0x08 []) := by
  intro a b haligned hplain hbuilt hbad
  have hrestore := restore_reads (m := m) hstatus hksv haligned hplain hbuilt
  dsimp only at hrestore
  rw [if_pos (by rcases hbad with hb | hb <;> simp only [a, b] at hb <;> simp [hb])] at hrestore
  obtain ⟨hstep, hfailed⟩ := kdeEnd_fails (regs := []) (EngineStep.refl s _) 0x08
  refine leads_kde (f := fun s => kdeRestore s m) h rfl ?_ ?_
  · rw [hrestore]
    exact hstep.quiet h.1
  · rw [hrestore]
    exact hfailed

/-! ### ABORT, CLEAR, the forced release, and other masters -/

theorem abort_ends (s : State) (m : Master) (h : KdeOwner s m) (hon : kdeStatus s = 1 ∨ kdeStatus s = 2) :
    Leads (.kdeAbort m) s (fun t => KdeFailed s t 0x01 []) := by
  have habort : kdeAbort s = kdeEnd s 0x01 := by
    rw [kdeAbort, if_pos]
    rcases hon with h | h <;> simp [kdeJobOn, h]
  obtain ⟨hstep, hfailed⟩ := kdeEnd_fails (regs := []) (EngineStep.refl s _) 0x01
  refine leads_kde (f := kdeAbort) h rfl ?_ ?_
  · rw [habort]
    exact hstep.quiet h.1
  · rw [habort]
    exact hfailed

/-- The registers that CLEAR zeroes; KDE_RESULT follows KDE_EXPECT. -/
def clearRegs : List Nat := Reg.KDE_CMP :: (List.range 32).map (fun i => Reg.KDE_EXPECT + 4 * i)

theorem zeroed_form (s : State) (a : Nat) : (setRegBytes s a (zeros 64) = { s with regs := (setRegBytes s a (zeros 64)).regs }) ∧
    (∀ i, i < 16 → getR (setRegBytes s a (zeros 64)) (a + 4 * i) = 0) ∧
    (∀ b, b ∉ (List.range 16).map (fun k => a + 4 * k) → getR (setRegBytes s a (zeros 64)) b = getR s b) := by
  have hzero : ∀ i, i < 16 → BitVec.ofNat 32 (num (zeros 64) (4 * i) 4) = 0 := by decide
  have hset : setRegBytes s a (zeros 64) =
      (List.range 16).foldl (fun t i => setR t (a + 4 * i) (BitVec.ofNat 32 (num (zeros 64) (4 * i) 4))) s := rfl
  rw [hset]
  obtain ⟨hform, hsame⟩ := setRegWords_form s a (fun i => BitVec.ofNat 32 (num (zeros 64) (4 * i) 4)) 16
  refine ⟨hform, fun i hi => ?_, hsame⟩
  rw [getR_setRegWords s a (fun i => BitVec.ofNat 32 (num (zeros 64) (4 * i) 4)) 16 i, if_pos hi, hzero i hi]

theorem kdeClear_clears (s : State) : OnlyRegs s (kdeClear s) clearRegs [] ∧
    (∀ i, i < 32 → getR (kdeClear s) (Reg.KDE_EXPECT + 4 * i) = 0) ∧ getR (kdeClear s) Reg.KDE_CMP = 0 := by
  obtain ⟨hform1, hzero1, hsame1⟩ := zeroed_form s Reg.KDE_RESULT
  unfold kdeClear
  generalize setRegBytes s Reg.KDE_RESULT (zeros 64) = u at hform1 hzero1 hsame1
  obtain ⟨hform2, hzero2, hsame2⟩ := zeroed_form u Reg.KDE_EXPECT
  generalize setRegBytes u Reg.KDE_EXPECT (zeros 64) = v at hform2 hzero2 hsame2
  have hin1 : ∀ x ∈ (List.range 16).map (fun k => Reg.KDE_RESULT + 4 * k), x ∈ clearRegs := by decide
  have hin2 : ∀ x ∈ (List.range 16).map (fun k => Reg.KDE_EXPECT + 4 * k), x ∈ clearRegs := by decide
  have hu : OnlyRegs s u clearRegs [] := onlyRegs_of_regs hform1 (fun b hb => hsame1 b (fun hx => hb (hin1 b hx)))
  have hv : OnlyRegs s v clearRegs [] :=
    onlyRegs_trans hu (onlyRegs_of_regs hform2 (fun b hb => hsame2 b (fun hx => hb (hin2 b hx))))
  refine ⟨onlyRegs_then_setR hv (by decide) _, fun i hi => ?_, getR_setR_same v _ _⟩
  have hne : ∀ i, i < 32 → Reg.KDE_EXPECT + 4 * i ≠ Reg.KDE_CMP := by decide
  rw [getR_setR_other _ _ _ _ (hne i hi)]
  by_cases hlow : i < 16
  · exact hzero2 i hlow
  · have hplace : ∀ i, i < 32 → ¬ i < 16 → Reg.KDE_EXPECT + 4 * i ∉ (List.range 16).map (fun k => Reg.KDE_EXPECT + 4 * k) ∧
        Reg.KDE_EXPECT + 4 * i = Reg.KDE_RESULT + 4 * (i - 16) := by decide
    obtain ⟨hout, hhigh⟩ := hplace i hi hlow
    rw [hsame2 _ hout, hhigh]
    exact hzero1 (i - 16) (by omega)

theorem clear_zeroes (s : State) (m : Master) (h : KdeOwner s m) : Leads (.kdeClear m) s (fun t =>
    (∀ i, i < 32 → getR t (Reg.KDE_EXPECT + 4 * i) = 0) ∧ getR t Reg.KDE_CMP = 0 ∧
    OnlyRegs s t (Reg.KDE_CMP :: (List.range 32).map (fun i => Reg.KDE_EXPECT + 4 * i)) []) := by
  obtain ⟨honly, hzero, hcmp⟩ := kdeClear_clears s
  exact leads_kde (f := kdeClear) h rfl (quiet_of_onlyRegs honly h.1) ⟨hzero, hcmp, honly⟩

/-- The job that a forced release ends. -/
def dropped (s : State) : State := if kdeJobOn s then kdeEnd s 0x01 else kdeSetState { s with kde := noJob s.kde } 0

theorem dropped_ends (s : State) : ∃ e, EngineStep s (dropped s) [Reg.KDE_STATUS] e ∧ kdeStatus (dropped s) = 0 ∧
    (dropped s).kde = noJob s.kde ∧ (dropped s).mem = s.mem := by
  unfold dropped
  split
  · obtain ⟨hstep, hfailed⟩ := kdeEnd_fails (regs := []) (EngineStep.refl s _) 0x01
    refine ⟨_, hstep, kdeStatus_end s hfailed, ?_, ?_⟩
    · rw [kdeEnd, kde_raise]
      rfl
    · rw [kdeEnd, mem_raise]
      rfl
  · exact ⟨_, ((EngineStep.refl s [Reg.KDE_STATUS]).withKde (noJob s.kde)).setR (by decide) _, kdeStatus_setState _ (by decide), rfl, rfl⟩

theorem forced_release (s : State) (hq : Quiet s) (hm : MayWrite s 12 Reg.KDE_LOCK) : Leads (.kdeLockRelease 12) s (fun t =>
    getR t Reg.KDE_LOCK = 0 ∧ (∀ i, i < 32 → getR t (Reg.KDE_EXPECT + 4 * i) = 0) ∧ getR t Reg.KDE_CMP = 0 ∧
    kdeStatus t = 0 ∧ t.kde = noJob s.kde ∧ isPending t 259 = true ∧ t.mem = s.mem) := by
  obtain ⟨e, hstep, hstatus, hkde, hmem⟩ := dropped_ends s
  have hrelease : kdeRelease s 12 = raise (kdeClear (setR (dropped s) Reg.KDE_LOCK 0)) 259 := by
    rw [kdeRelease, if_pos rfl, kdeForce]
    rfl
  have hdq := hstep.quiet hq
  generalize dropped s = d at hstatus hkde hmem hrelease hdq
  obtain ⟨honly, hzero, hcmp⟩ := kdeClear_clears (setR d Reg.KDE_LOCK 0)
  have hcq : Quiet (kdeClear (setR d Reg.KDE_LOCK 0)) := quiet_of_onlyRegs honly hdq
  generalize kdeClear (setR d Reg.KDE_LOCK 0) = c at honly hzero hcmp hrelease hcq
  obtain ⟨hform, hsame, -⟩ := honly
  have hckde : c.kde = d.kde := (congrArg State.kde hform :)
  have hcmem : c.mem = d.mem := (congrArg State.mem hform :)
  refine leads_guardedWrite (f := fun s => kdeRelease s 12) rfl hm ?_ ?_
  · rw [hrelease]
    exact quiet_withEvents (LockedRoutes.raise_withEvents _ _) hcq
  · rw [hrelease]
    refine ⟨?_, fun i hi => ?_, ?_, ?_, ?_, isPending_raise_same _ (by decide), ?_⟩
    · rw [getR_congr (raise_regs _ _), hsame _ (by decide), getR_setR_same]
    · rw [getR_congr (raise_regs _ _)]
      exact hzero i hi
    · rw [getR_congr (raise_regs _ _)]
      exact hcmp
    · rw [kdeStatus_raise, kdeStatus, fieldR, hsame _ (by decide), getR_setR_other _ _ _ _ (by decide)]
      exact hstatus
    · rw [kde_raise]
      exact hckde.trans hkde
    · rw [mem_raise]
      exact hcmem.trans hmem

theorem kdeNotOwner_refuses {s : State} (h : mget? s.lastRaise 258 = none) :
    kdeNotOwner s = orR (raise { s with lastRaise := mput s.lastRaise 258 s.ttc } 258) Reg.KDE_ERR 1 := by
  rw [kdeNotOwner, raiseLimited_fresh h]

theorem not_owner (s : State) (m : Master) (c : Instr) (split : Bool) (hq : Quiet s) (hm : MayWrite s m Reg.KDE_CTRL)
    (howner : lockOwner s Reg.KDE_LOCK ≠ m) (hfresh : mget? s.lastRaise 258 = none)
    (hc : c ∈ [Instr.kdeStart ⟨m, split⟩, .kdeFeed m, .kdeSave m, .kdeRestore m, .kdeAbort m, .kdeClear m]) : Leads c s (fun t =>
      getR t Reg.KDE_ERR = getR s Reg.KDE_ERR ||| 1 ∧ SameRegs s t [Reg.KDE_ERR] ∧ Raises s t [258] ∧ t.kde = s.kde ∧
      t.mem = s.mem) := by
  have hrow : ∃ f, exec c s = done (kdeCommand s m f) := by
    simp only [List.mem_cons, List.not_mem_nil, or_false] at hc
    rcases hc with rfl | rfl | rfl | rfl | rfl | rfl <;> exact ⟨_, rfl⟩
  obtain ⟨f, hexec⟩ := hrow
  have hown : kdeOwned s m f = kdeNotOwner s := if_neg (fun h => howner h.1)
  generalize ha : ({ s with lastRaise := mput s.lastRaise 258 s.ttc } : State) = a
  have hnot : kdeNotOwner s = orR (raise a 258) Reg.KDE_ERR 1 := by
    rw [kdeNotOwner_refuses hfresh, ha]
  have haq : Quiet a := by
    rw [← ha]
    exact hq
  have haregs : a.regs = s.regs := by rw [← ha]
  have hraises : Raises s a [] := by
    rw [← ha]
    exact raises_of_same (raises_refl s) rfl rfl
  have hregs : (raise a 258).regs = s.regs := (raise_regs a 258).trans haregs
  have hrq : Quiet (raise a 258) := quiet_withEvents (LockedRoutes.raise_withEvents _ _) haq
  have hrkde : (raise a 258).kde = s.kde := (kde_raise a 258).trans (by rw [← ha])
  have hrmem : (raise a 258).mem = s.mem := (mem_raise a 258).trans (by rw [← ha])
  have hrraises := raises_raise hraises 258
  generalize raise a 258 = r at hnot hregs hrq hrkde hrmem hrraises
  refine leads_guardedWrite (f := fun s => kdeOwned s m f) hexec hm ?_ ?_
  · rw [hown, hnot]
    exact hrq
  · rw [hown, hnot]
    refine ⟨?_, sameRegs_setR (sameRegs_of_regs hregs _) (by decide) _, raises_of_same hrraises rfl rfl, hrkde, hrmem⟩
    rw [getR_orR, getR_congr hregs]

theorem digestState : Sys2Proof.Claims.DigestState :=
  ⟨save_writes, save_refused, restore_taken, restore_refused, abort_ends, clear_zeroes, forced_release, not_owner⟩

/-- Settles O26: a command writes the engine's registers and its own state, and a transfer over plain memory is served. -/
theorem digestEngine : Obligations.DigestEngine := ⟨digestJobs, digestState⟩

end Sys2Proof.DigestEngine
end

section
/-! PROOF. Lattice lanes (R333, R335, R336, R339, R341): descriptors are queued, taken and ended, lanes are fenced. -/

namespace Sys2Proof.LatticeLanes

open Sys2Proof.Machine Sys2Proof.Frames Sys2Proof.Chains Sys2Proof.LogFrames Sys2Proof.PlainMemory Sys2Proof.LinesideUnit

/-! ### Lanes -/

theorem laneAt_setLane (s : State) (n k : Nat) (l : Lane) :
    laneAt (setLane s n l) k = if k = n ∧ n < 4 then l else laneAt s k := by
  unfold laneAt setLane
  rw [Vector.getElem?_setIfInBounds]
  by_cases hk : n = k
  · subst hk
    by_cases hn : n < 4
    · simp [hn]
    · simp [hn]
  · rw [if_neg hk, if_neg (fun h => hk h.1.symm)]

theorem laneAt_setLane_same (s : State) {n : Nat} (hn : n < 4) (l : Lane) : laneAt (setLane s n l) n = l := by
  rw [laneAt_setLane, if_pos ⟨rfl, hn⟩]

theorem enable_keeps (s : State) (inUse : List Nat) (l : List Nat) (k : Nat) :
    let t := l.foldl (fun t n => setLane t n { laneAt t n with enabled := inUse.contains n }) s
    (laneAt t k).fenced = (laneAt s k).fenced ∧ (laneAt t k).job = (laneAt s k).job ∧ ∃ v, t = { s with lanes := v } := by
  induction l generalizing s with
  | nil => exact ⟨rfl, rfl, s.lanes, rfl⟩
  | cons n l ih =>
    obtain ⟨hfenced, hjob, v, hform⟩ := ih (setLane s n { laneAt s n with enabled := inUse.contains n })
    rw [List.foldl_cons]
    refine ⟨hfenced.trans ?_, hjob.trans ?_, v, hform⟩
    · rw [laneAt_setLane]
      split
      · next h => rw [h.1]
      · rfl
    · rw [laneAt_setLane]
      split
      · next h => rw [h.1]
      · rfl

/-- What a fence writes. -/
def Fenced (s t : State) : Prop :=
  t = withEvents { s with regs := t.regs, lanes := t.lanes } t ∧ SameRegs s t [Reg.LSU_FAULT]

theorem Fenced.refl (s : State) : Fenced s s := ⟨rfl, sameRegs_refl s _⟩

theorem Fenced.trans {s t u : State} (h : Fenced s t) (k : Fenced t u) : Fenced s u := by
  obtain ⟨hform, hsame⟩ := h
  obtain ⟨kform, ksame⟩ := k
  refine ⟨?_, sameRegs_trans hsame ksame⟩
  rw [hform] at kform
  exact kform

theorem Fenced.quiet {s t : State} (h : Fenced s t) (hq : Quiet s) : Quiet t := by
  rw [h.1]
  exact hq

theorem recordLaneFence_fences (s : State) {n : Nat} (hn : n < 4) (cause : Nat) : let t := recordLaneFence s n cause
    Fenced s t ∧ (∀ k, (laneAt t k).fenced = ((laneAt s k).fenced || decide (k = n)) ∧ (laneAt t k).job = (laneAt s k).job) ∧
      getR t Reg.LSU_FAULT = (place 0 2 n ||| place 4 3 cause ||| 0x80) ∧ Raises s t [268] := by
  unfold recordLaneFence
  dsimp only
  generalize hu : setLane s n { laneAt s n with fenced := true, enabled := false } = u
  have hlane (k : Nat) : (laneAt u k).fenced = ((laneAt s k).fenced || decide (k = n)) ∧ (laneAt u k).job = (laneAt s k).job := by
    rw [← hu, laneAt_setLane]
    by_cases hk : k = n
    · rw [if_pos ⟨hk, hn⟩, hk]
      simp
    · rw [if_neg (fun h => hk h.1)]
      simp [hk]
  have henable := enable_keeps u (lanesInUse u) (List.range 4)
  change ∀ k, (laneAt (enableLanes u) k).fenced = (laneAt u k).fenced ∧ (laneAt (enableLanes u) k).job = (laneAt u k).job ∧
    ∃ v, enableLanes u = { u with lanes := v } at henable
  obtain ⟨-, -, v, hform⟩ := henable 0
  have huform : u = { s with lanes := u.lanes } := by
    rw [← hu]
    rfl
  generalize enableLanes u = e at henable hform
  have heform : e = { s with lanes := v } := by
    rw [hform, huform]
  have hlanes : (raise (setR e Reg.LSU_FAULT (place 0 2 n ||| place 4 3 cause ||| 0x80)) 268).lanes = e.lanes :=
    (congrArg State.lanes (LockedRoutes.raise_withEvents _ _) :)
  have hat (k : Nat) : laneAt (raise (setR e Reg.LSU_FAULT (place 0 2 n ||| place 4 3 cause ||| 0x80)) 268) k = laneAt e k := by
    rw [laneAt, hlanes, laneAt]
  refine ⟨⟨?_, ?_⟩, fun k => ?_, ?_, ?_⟩
  · obtain ⟨q, o, hraise⟩ := raise_form (setR e Reg.LSU_FAULT (place 0 2 n ||| place 4 3 cause ||| 0x80)) 268
    rw [hraise, heform]
    rfl
  · refine sameRegs_raise (sameRegs_setR ?_ List.mem_cons_self _) 268
    rw [heform]
    exact sameRegs_of_regs rfl _
  · rw [hat]
    obtain ⟨hfenced, hjob, -⟩ := henable k
    exact ⟨hfenced.trans (hlane k).1, hjob.trans (hlane k).2⟩
  · rw [getR_congr (raise_regs _ _), getR_setR_same]
  · refine raises_raise (l := []) (raises_of_same (raises_refl s) ?_ ?_) 268
    · rw [heform]
      rfl
    · rw [heform]
      rfl

theorem unfencedLanes_isEmpty {s : State} {k : Nat} (hk : k < 4) (h : (laneAt s k).fenced = false) : (unfencedLanes s).isEmpty = false := by
  have hmem : k ∈ unfencedLanes s := List.mem_filter.mpr ⟨List.mem_range.mpr hk, by rw [h]; rfl⟩
  cases hl : unfencedLanes s with
  | nil => rw [hl] at hmem; exact absurd hmem List.not_mem_nil
  | cons x l => rfl

theorem anyLane_of_unfenced {s : State} {k : Nat} (hk : k < 4) (h : (laneAt s k).fenced = false) : anyLane s = true := by
  unfold anyLane
  rw [List.any_eq_true]
  refine ⟨laneAt s k, ?_, by rw [h]; rfl⟩
  unfold laneAt
  rw [Vector.getElem?_eq_getElem hk, Option.getD_some]
  simp

/-- A fence that leaves another lane serving fences its lane and does nothing more. -/
theorem lsuFence_leaves {s : State} {n k : Nat} (hn : n < 4) (hk : k < 4) (hne : k ≠ n) (h : (laneAt s k).fenced = false) (cause : Nat) :
    lsuFence s n cause = if (laneAt s n).fenced then s else recordLaneFence s n cause := by
  have hserves : ∀ t, (laneAt t k).fenced = false → unsignedNow t = t := fun t ht => by
    rw [unsignedNow, if_pos (anyLane_of_unfenced hk ht)]
  unfold lsuFence fenceLane
  split
  · exact hserves s h
  · obtain ⟨-, hlanes, -⟩ := recordLaneFence_fences s hn cause
    have hstill : (laneAt (recordLaneFence s n cause) k).fenced = false := by
      rw [(hlanes k).1, h]
      simp [hne]
    rw [noLane, if_neg (by rw [unfencedLanes_isEmpty hk hstill]; decide)]
    exact hserves _ hstill

/-- The fences that a word names, where a lane that it does not name still serves. -/
theorem fences_named (l : List Nat) (hl : ∀ n ∈ l, n < 4) (bits : BitVec 4) {k : Nat} (hk : k < 4) (hbit : bits.getLsbD k = false)
    (s : State) (h : (laneAt s k).fenced = false) :
    let t := l.foldl (fun t n => if bits.getLsbD n then lsuFence t n 3 else t) s
    Fenced s t ∧ (∀ n, (laneAt t n).fenced = ((laneAt s n).fenced || (decide (n ∈ l) && bits.getLsbD n)) ∧
      (laneAt t n).job = (laneAt s n).job) ∧ Pends s t ∧
      ((∃ n ∈ l, (laneAt s n).fenced = false ∧ bits.getLsbD n = true) → isPending t 268 = true) := by
  induction l generalizing s with
  | nil => exact ⟨Fenced.refl s, fun n => ⟨by simp, rfl⟩, fun _ _ => id, fun ⟨n, hn, _⟩ => absurd hn List.not_mem_nil⟩
  | cons j l ih =>
    have hj : j < 4 := hl j List.mem_cons_self
    have hrest : ∀ n ∈ l, n < 4 := fun n hn => hl n (List.mem_cons_of_mem _ hn)
    dsimp only
    rw [List.foldl_cons]
    by_cases hnamed : bits.getLsbD j = true ∧ (laneAt s j).fenced = false
    · obtain ⟨hname, hopen⟩ := hnamed
      have hne : k ≠ j := fun e => by rw [e, hname] at hbit; cases hbit
      rw [if_pos hname, lsuFence_leaves hj hk hne h, if_neg (by simp [hopen])]
      obtain ⟨hfenced, hlanes, -, hraises⟩ := recordLaneFence_fences s hj 3
      have hpends : Pends s (recordLaneFence s j 3) := fun i hi hp => by rw [hraises.1 i hi, hp, Bool.true_or]
      have hpending : isPending (recordLaneFence s j 3) 268 = true := by rw [hraises.1 268 (by decide)]; simp
      generalize recordLaneFence s j 3 = r at hfenced hlanes hpends hpending
      obtain ⟨hfenced', hlanes', hpends', -⟩ := ih hrest r (by rw [(hlanes k).1, h]; simp [hne])
      refine ⟨hfenced.trans hfenced', fun n => ⟨?_, (hlanes' n).2.trans (hlanes n).2⟩, hpends.trans hpends',
        fun _ => hpends' 268 (by decide) hpending⟩
      rw [(hlanes' n).1, (hlanes n).1]
      by_cases hnj : n = j
      · subst hnj
        simp [hname]
      · simp [hnj]
    · have hsame : (if bits.getLsbD j then lsuFence s j 3 else s) = s := by
        split
        · next hname =>
          have hclosed : (laneAt s j).fenced = true := by simpa [hname] using hnamed
          have hne : k ≠ j := fun e => by rw [e, hclosed] at h; cases h
          rw [lsuFence_leaves hj hk hne h, if_pos hclosed]
        · rfl
      rw [hsame]
      obtain ⟨hfenced', hlanes', hpends', hpending'⟩ := ih hrest s h
      refine ⟨hfenced', fun n => ⟨?_, (hlanes' n).2⟩, hpends', fun ⟨n, hn, ho, hb⟩ => ?_⟩
      · rw [(hlanes' n).1]
        by_cases hnj : n = j
        · subst hnj
          rw [not_and, Bool.not_eq_false] at hnamed
          cases hb : bits.getLsbD n with
          | true => simp [hnamed hb]
          | false => simp
        · simp [hnj]
      · rcases List.mem_cons.mp hn with rfl | hn
        · exact absurd ⟨hb, ho⟩ hnamed
        · exact hpending' ⟨n, hn, ho, hb⟩

/-! ### Descriptors -/

theorem descTail_length (result lane : Nat) (pusher : Master) (written : Nat) (start end_ : DWord) :
    (descTail result lane pusher written start end_).length = 32 := by
  simp [descTail, le_length, zeros]

/-- A descriptor ends: its result stands behind it, and events 265 and, for a failure, 267 are raised. -/
theorem endDesc_ends {s : State} {a : Nat} (p : Master) (result lane written : Nat) (start : DWord) (h : PlainWrite s 27 (a + 32) 32) :
    let t := endDesc s a p result lane written start
    memBytes t (a + 32) 32 = descTail result lane p written start s.ttc ∧
    (∀ x, (x < a + 32 ∨ a + 64 ≤ x) → memByte t x = memByte s x) ∧ t = withEvents { s with mem := t.mem, badCells := t.badCells } t ∧
    Raises s t (265 :: if result ≠ 0 ∧ result ≠ 1 then [267] else []) := by
  have hlen := descTail_length result lane p written start s.ttc
  obtain ⟨u, hwrite, hbytes, hout, hform⟩ := engineWrite_plain (s := s) (m := 27) (a := a + 32)
    (b := descTail result lane p written start s.ttc) (by rw [hlen]; exact h)
  rw [hlen] at hbytes hout
  unfold endDesc
  dsimp only
  rw [hwrite]
  dsimp only
  have hraises : Raises s u [] := by
    refine raises_of_same (raises_refl s) ?_ ?_
    · exact (congrArg State.evtPend hform :)
    · exact (congrArg (fun x => x.ports.hostOut) hform :)
  have hevents : raiseIf (decide (result ≠ 0 ∧ result ≠ 1)) (raise u 265) 267 =
      withEvents u (raiseIf (decide (result ≠ 0 ∧ result ≠ 1)) (raise u 265) 267) :=
    withEvents_trans (LockedRoutes.raise_withEvents u 265) (raiseIf_withEvents _ _ _)
  have hall := raises_raiseIf (raises_raise hraises 265) (decide (result ≠ 0 ∧ result ≠ 1)) 267
  generalize raiseIf (decide (result ≠ 0 ∧ result ≠ 1)) (raise u 265) 267 = t at hevents hall
  have hmem : t.mem = u.mem := (congrArg State.mem hevents :)
  refine ⟨?_, fun x hx => ?_, ?_, ?_⟩
  · rw [← hbytes]
    unfold memBytes memByte
    rw [hmem]
  · rw [← hout x (by omega), memByte, hmem, memByte]
  · rw [hform] at hevents
    have hcells : t.badCells = u.badCells := (congrArg State.badCells hevents :)
    rw [hmem, hcells]
    exact hevents
  · simpa using hall

theorem flush_ends (s : State) (m : Master) (a : Nat) (p : Master) (hq : Quiet s) (hm : MayWrite s m Reg.LSU_CTRL)
    (hqueue : s.descQueue = [(a, p)]) (hplain : PlainWrite s 27 (a + 32) 32) : Leads (.lsuFlush m) s (fun t =>
      t.descQueue = [] ∧ memBytes t (a + 32) 32 = descTail 0x09 0 p 0 s.ttc s.ttc ∧
      (∀ x, (x < a + 32 ∨ a + 64 ≤ x) → memByte t x = memByte s x) ∧ t.regs = s.regs ∧ Raises s t [265, 267]) := by
  obtain ⟨hbytes, hout, hform, hraises⟩ := endDesc_ends (s := { s with descQueue := [] }) p 0x09 0 0 s.ttc hplain
  have hflush : endQueued s 0x09 (fun _ => true) = endDesc { s with descQueue := [] } a p 0x09 0 0 s.ttc := by
    unfold endQueued
    rw [hqueue]
    rfl
  generalize endDesc { s with descQueue := [] } a p 0x09 0 0 s.ttc = t at hbytes hout hform hraises hflush
  refine leads_guardedWrite (f := fun s => endQueued s 0x09 (fun _ => true)) rfl hm ?_ ?_
  · rw [hflush, hform]
    exact hq
  · rw [hflush]
    exact ⟨(congrArg State.descQueue hform :), hbytes, hout, (congrArg State.regs hform :), hraises⟩

/-- What taking a descriptor may change: branches and keys, the lanes, the queue. -/
def Taken (s t : State) : Prop :=
  ∃ b i c k l, t = { s with branches := b, image := i, badPrivate := c, keyCache := k, lanes := l }

theorem Taken.trans {s t u : State} (h : Taken s t) (k : Taken t u) : Taken s u := by
  obtain ⟨b, i, c, ks, l, rfl⟩ := h
  obtain ⟨b', i', c', ks', l', rfl⟩ := k
  exact ⟨b', i', c', ks', l', rfl⟩

theorem Taken.refl (s : State) : Taken s s := ⟨s.branches, s.image, s.badPrivate, s.keyCache, s.lanes, rfl⟩

theorem cachePath_taken (s : State) (i : Nat) : Taken s (cachePath s i) := by
  obtain ⟨cells, cache, h⟩ := cachePath_form s i
  exact ⟨s.branches, s.image, cells, cache, s.lanes, h⟩

theorem chargeUse_taken (s : State) (i : Nat) : Taken s (chargeUse s i) := by
  unfold chargeUse
  split
  · exact Taken.refl s
  · split
    · exact Taken.refl s
    · dsimp only
      split <;> exact ⟨_, _, _, _, _, rfl⟩

theorem descCharge_taken (s : State) (d : Bytes) : Taken s (descCharge s d) := by
  unfold descCharge useBranch
  split
  · exact (chargeUse_taken s _).trans (cachePath_taken _ _)
  · split
    · exact Taken.refl s
    · exact cachePath_taken s _

theorem descKey_taken (s : State) (n : Nat) (d : Bytes) : Taken s (descKey s n d).state := by
  unfold descKey
  split
  · exact Taken.refl s
  · obtain ⟨cells, cache, lanes, h⟩ := loadKey_form s n (descBranch d)
    dsimp only
    rw [h]
    exact ⟨s.branches, s.image, cells, cache, lanes, rfl⟩
  · exact Taken.refl s
  · exact Taken.refl s

theorem job_taken (s : State) (n : BitVec 2) (a : Nat) (p : Master) (r : List (Nat × Master)) (h : LaneFree s n.toNat)
    (hqueue : s.descQueue = (a, p) :: r) (hplain : PlainRead s 27 a 64) (hbuilt : s.tableBuilt = true)
    (hrefusal : descRefusal { s with descQueue := r } (memBytes s a 64) p = 0) : Leads (.laneJobStart n) s (fun t =>
      t.descQueue = r ∧ (laneAt t n.toNat).started = s.ttc ∧
      (∃ seed, (laneAt t n.toNat).job = some (.desc a p (memBytes s a 64) seed)) ∧ t.mem = s.mem ∧ t.regs = s.regs) := by
  obtain ⟨hq, hon, hfree, hmanifest, hrequest⟩ := h
  generalize hu : ({ s with descQueue := r } : State) = u at hrefusal
  have hplain' : PlainRead u 27 a 64 := by
    rw [← hu]
    exact hplain
  have htable : builtTable u = u := if_pos (by rw [← hu]; exact hbuilt)
  have hdesc : descBytes u a = memBytes s a 64 := by
    rw [descBytes, engineBytes_plain hplain', ← hu]
    rfl
  have hstart : laneStart s n.toNat = setLaneJob (descKey (descCharge u (memBytes s a 64)) n.toNat (memBytes s a 64)).state n.toNat
      (.desc a p (memBytes s a 64) (descKey (descCharge u (memBytes s a 64)) n.toNat (memBytes s a 64)).sig) := by
    rw [laneStart, if_neg (by rw [hfree]; simp), if_neg (by simp [hmanifest]), if_neg (by simp [hrequest]), hqueue]
    dsimp only
    rw [hu, takeDesc, reach_plain hplain']
    dsimp only
    rw [if_neg (by decide), if_neg (by decide), htable, hdesc, hrefusal, if_neg (by decide), if_neg (by decide)]
  have htaken := (descCharge_taken u (memBytes s a 64)).trans (descKey_taken _ n.toNat (memBytes s a 64))
  generalize (descKey (descCharge u (memBytes s a 64)) n.toNat (memBytes s a 64)).state = v at hstart htaken
  generalize (descKey (descCharge u (memBytes s a 64)) n.toNat (memBytes s a 64)).sig = seed at hstart
  obtain ⟨b, i, c, k, l, hv⟩ := htaken
  have hexec : exec (.laneJobStart n) s = done (if mainPower s then laneStart s n.toNat else s) := rfl
  rw [if_pos hon, hstart] at hexec
  have hlane := laneAt_setLane_same v n.isLt { laneAt v n.toNat with
    job := some (.desc a p (memBytes s a 64) seed), started := v.ttc }
  have httc : v.ttc = s.ttc := by
    rw [hv, ← hu]
  refine leads_done hexec ?_ ⟨?_, ?_, ⟨seed, ?_⟩, ?_, ?_⟩
  · rw [hv, ← hu]
    exact hq
  · rw [hv, ← hu]
    rfl
  · exact (congrArg Lane.started hlane).trans httc
  · exact congrArg Lane.job hlane
  · rw [hv, ← hu]
    rfl
  · rw [hv, ← hu]
    rfl

/-! ### The end of a verification -/

/-- A descriptor whose reads change nothing reads plain memory. -/
theorem readDesc_plain {s : State} {d : Bytes} (hop : descOp d = 3) (h : readDesc s d = { state := s, outcome := .ok }) :
    PlainRead s 27 (descIn d) (descInLen d) ∧ PlainRead s 27 (descAux d) 3073 := by
  have hread : ¬ (descOp d = 1 ∨ descOp d = 4) := by omega
  have hverify : ¬ descOp d = 2 := by omega
  rw [readDesc, if_neg hread] at h
  dsimp only at h
  by_cases hok : (reach s 27 .read (descIn d) (descInLen d)).outcome = .ok
  · rw [if_neg (fun hc => hc.elim (fun he => he hok) hverify)] at h
    obtain ⟨hstate, hparts⟩ := reach_ok hok
    rw [hstate] at h
    obtain ⟨hstate', hparts'⟩ := reach_ok (s := noteRead s (descIn d) (descInLen d)) (m := 27) (a := descAux d) (n := 3073) (by rw [h])
    have hback : noteRead (noteRead s (descIn d) (descInLen d)) (descAux d) 3073 = s := hstate'.symm.trans (by rw [h])
    obtain ⟨hle, hplain⟩ := noteRead_count s (descIn d) (descInLen d)
    obtain ⟨hle', hplain'⟩ := noteRead_count (noteRead s (descIn d) (descInLen d)) (descAux d) 3073
    rw [hback] at hle' hplain'
    obtain ⟨hspecial, hsame⟩ := hplain (by omega)
    obtain ⟨hspecial', -⟩ := hplain' (by rw [hsame])
    rw [hsame] at hparts'
    exact ⟨⟨hspecial, hparts⟩, ⟨hspecial', hparts'⟩⟩
  · rw [if_pos (.inl hok)] at h
    exact absurd (congrArg Reach.outcome h) hok

theorem readDesc_served {s : State} {d : Bytes} (hop : descOp d = 3) (h1 : PlainRead s 27 (descIn d) (descInLen d))
    (h2 : PlainRead s 27 (descAux d) 3073) : readDesc s d = { state := s, outcome := .ok } := by
  have hread : ¬ (descOp d = 1 ∨ descOp d = 4) := by omega
  have hverify : ¬ descOp d = 2 := by omega
  rw [readDesc, if_neg hread, reach_plain h1]
  dsimp only
  rw [if_neg (by simp [hverify]), reach_plain h2]

theorem verification_ends (s : State) (n : BitVec 2) (a : Nat) (p : Master) (d seed : Bytes) (hq : Quiet s) (hon : mainPower s = true)
    (hrequest : s.mae.request = none) (hjob : (laneAt s n.toNat).job = some (.desc a p d seed)) (hop : descOp d = 3)
    (hread : readDesc s d = { state := s, outcome := .ok }) (hplain : PlainWrite s 27 (a + 32) 32) :
    Leads (.laneJobDone n .ok) s (fun t =>
      let v := verifyDesc (memBytes s (descAux d) 3073) (memBytes s (descIn d) (descInLen d))
      memBytes t (a + 32) 32 = descTail v n.toNat p 0 (laneAt s n.toNat).started s.ttc ∧
      (∀ x, (x < a + 32 ∨ a + 64 ≤ x) → memByte t x = memByte s x) ∧ (laneAt t n.toNat).job = none ∧
      getR64 t Reg.LSU_VERIFIES = getR64 s Reg.LSU_VERIFIES + 1 ∧
      Raises s t (265 :: if v ≠ 0 ∧ v ≠ 1 then [267] else [])) := by
  obtain ⟨hin, haux⟩ := readDesc_plain hop hread
  generalize hu : setLane s n.toNat { laneAt s n.toNat with job := none } = u
  have hin' : PlainRead u 27 (descIn d) (descInLen d) := by
    rw [← hu]
    exact hin
  have haux' : PlainRead u 27 (descAux d) 3073 := by
    rw [← hu]
    exact haux
  have hmsg : engineBytes u (descIn d) (descInLen d) = memBytes s (descIn d) (descInLen d) := by
    rw [engineBytes_plain hin', ← hu]
    rfl
  have hkey : engineBytes u (descAux d) 3073 = memBytes s (descAux d) 3073 := by
    rw [engineBytes_plain haux', ← hu]
    rfl
  have hwrite : PlainWrite (countVerify u) 27 (a + 32) 32 := by
    rw [← hu]
    exact plainWrite_setR _ (by decide) (by decide) (plainWrite_setR _ (by decide) (by decide) hplain)
  have hend : laneEnd s n.toNat .ok = endDesc (countVerify u) a p (verifyDesc (memBytes s (descAux d) 3073)
      (memBytes s (descIn d) (descInLen d))) n.toNat 0 (laneAt s n.toNat).started := by
    have hrefuses (msg : Bytes) : plateRefuses d msg = false := by
      have hnot : ¬ (descOp d = 2 ∧ descBranch d = 4095) := by omega
      simp [plateRefuses, hnot]
    have hrun (msg aux : Bytes) : runDesc u d seed msg aux = { state := countVerify u, result := verifyDesc aux msg, out := [] } := by
      rw [runDesc, hop]
      rfl
    have hdone : Access.ok ≠ Access.ok ↔ False := by simp
    rw [laneEnd, hjob]
    dsimp only
    rw [hu, finishDesc]
    simp only [hdone, if_false, readDesc_served hop hin' haux', hrun, hrefuses, Bool.false_eq_true, List.isEmpty_nil, if_true,
      hmsg, hkey]
  generalize verifyDesc (memBytes s (descAux d) 3073) (memBytes s (descIn d) (descInLen d)) = v at hend
  obtain ⟨hbytes, hout, hform, hraises⟩ := endDesc_ends p v n.toNat 0 (laneAt s n.toNat).started hwrite
  generalize endDesc (countVerify u) a p v n.toNat 0 (laneAt s n.toNat).started = t at hend hbytes hout hform hraises
  have huform : u = { s with lanes := u.lanes } := by
    rw [← hu]
    rfl
  have hcount : getR64 (countVerify u) Reg.LSU_VERIFIES = getR64 s Reg.LSU_VERIFIES + 1 := by
    rw [countVerify, countR64, getR64_setR64, huform]
    rfl
  have hctrl : (countVerify u).ttc = s.ttc ∧ (countVerify u).mae = s.mae ∧ (∀ x, memByte (countVerify u) x = memByte s x) ∧
      (Quiet s → Quiet (countVerify u)) ∧ (countVerify u).evtPend = s.evtPend ∧ (countVerify u).ports = s.ports ∧
      (countVerify u).lanes = u.lanes := by
    rw [huform]
    exact ⟨rfl, rfl, fun _ => rfl, id, rfl, rfl, rfl⟩
  generalize countVerify u = c at hbytes hout hform hraises hcount hctrl
  obtain ⟨httc, hmae, hbyte, hquiet, hevents, hports, hlanes⟩ := hctrl
  have hrun : runRequest t = t := by
    have hnone : t.mae.request = none := by
      rw [(congrArg State.mae hform :), ← hrequest, ← hmae]
      rfl
    rw [runRequest, hnone]
  have hexec : exec (.laneJobDone n .ok) s = done (if mainPower s then runRequest (laneEnd s n.toNat .ok) else s) := rfl
  rw [if_pos hon, hend, hrun] at hexec
  have htregs : t.regs = c.regs := (congrArg State.regs hform :)
  have htlanes : t.lanes = u.lanes := (congrArg State.lanes hform :).trans hlanes
  refine leads_done hexec ?_ ⟨?_, fun x hx => (hout x hx).trans (hbyte x), ?_, ?_, ?_⟩
  · rw [hform]
    exact hquiet hq
  · rw [hbytes, httc]
  · rw [laneAt, htlanes, ← laneAt, ← hu, laneAt_setLane_same s n.isLt]
  · rw [getR64, getR_congr htregs, getR_congr htregs]
    exact hcount
  · obtain ⟨hpend, v, hv⟩ := hraises
    refine ⟨fun k hk => ?_, v, ?_⟩
    · rw [hpend k hk, isPending, isPending, hevents]
    · rw [hv, hports]

/-- Settles O29: a descriptor's result is one write behind it, a fence that leaves a lane serving ends nothing. -/
theorem latticeLanes : Obligations.LatticeLanes := by
  refine ⟨?_, ?_, ?_, flush_ends, job_taken, ?_, verification_ends, ?_, ?_, ?_⟩
  case refine_1 =>
    intro s m a hq hm hroom halign hlanes
    have hpush : lsuPush s m a = { s with descQueue := s.descQueue ++ [(a.toNat, m)] } := by
      have hsome : (unfencedLanes { s with descQueue := s.descQueue ++ [(a.toNat, m)] }).isEmpty = false := by
        have hsame : unfencedLanes { s with descQueue := s.descQueue ++ [(a.toNat, m)] } = unfencedLanes s := rfl
        rw [hsame]
        simpa using hlanes
      rw [lsuPush, if_neg (by omega), if_neg (by omega), noLaneEnds, if_neg (by rw [hsome]; decide)]
    refine leads_guardedWrite (f := fun s => lsuPush s m a) rfl hm ?_ ?_
    · rw [hpush]
      exact hq
    · rw [hpush]
  case refine_2 =>
    intro s m a hq hm hfull
    have hpush : lsuPush s m a = raise (orR s Reg.LSU_ERR 1) 266 := by rw [lsuPush, if_pos (by omega)]
    have honly := onlyRegs_then_raise (onlyRegs_orR s Reg.LSU_ERR 1) 266
    refine leads_guardedWrite (f := fun s => lsuPush s m a) rfl hm ?_ ?_
    · rw [hpush]
      exact quiet_of_onlyRegs honly hq
    · rw [hpush]
      refine ⟨?_, honly⟩
      rw [bitR, getR_congr (raise_regs _ _), getR_orR]
      simp [bit]
  case refine_3 =>
    intro s m a hq hm hroom halign
    have hpush : lsuPush s m a = raise (orR s Reg.LSU_ERR 2) 266 := by rw [lsuPush, if_neg (by omega), if_pos halign]
    have honly := onlyRegs_then_raise (onlyRegs_orR s Reg.LSU_ERR 2) 266
    refine leads_guardedWrite (f := fun s => lsuPush s m a) rfl hm ?_ ?_
    · rw [hpush]
      exact quiet_of_onlyRegs honly hq
    · rw [hpush]
      refine ⟨?_, honly⟩
      rw [bitR, getR_congr (raise_regs _ _), getR_orR]
      simp [bit]
  case refine_4 =>
    intro s n hq hfree
    have hexec : exec (.laneJobStart n) s = done s := by
      have hrow : exec (.laneJobStart n) s = done (if mainPower s then laneStart s n.toNat else s) := rfl
      rw [hrow, laneStart, if_pos hfree, ite_self]
    exact leads_done hexec hq rfl
  case refine_5 =>
    intro s m bits hq hm hserves
    obtain ⟨k, hk, hopen, hbit⟩ := hserves
    obtain ⟨hfenced, hlanes, -, hpending⟩ :=
      fences_named (List.range 4) (fun n hn => List.mem_range.mp hn) bits hk hbit s hopen
    refine leads_guardedWrite (f := fun s => (List.range 4).foldl (fun t n => if bits.getLsbD n then lsuFence t n 3 else t) s) rfl hm ?_ ?_
    · exact hfenced.quiet hq
    · refine ⟨fun n hn => ⟨?_, (hlanes n).2⟩, hfenced.2, (congrArg State.descQueue hfenced.1 :), fun ⟨n, hn, ho, hb⟩ =>
        hpending ⟨n, List.mem_range.mpr hn, ho, hb⟩⟩
      rw [(hlanes n).1]
      simp [hn]
  case refine_6 =>
    intro s n hq
    have hexec : exec (.laneSelfTest n true) s = done s := by
      have hrow : exec (.laneSelfTest n true) s = done (if !mainPower s ∨ true ∨ (laneAt s n.toNat).fenced ∨
        (laneAt s n.toNat).job.isSome then s else lsuFence s n.toNat 1) := rfl
      rw [hrow, if_pos (.inr (.inl rfl))]
    exact leads_done hexec hq rfl
  case refine_7 =>
    intro s n hq hon hopen hjob hserves
    obtain ⟨k, hk, hne, hother⟩ := hserves
    have hexec : exec (.laneSelfTest n false) s = done (lsuFence s n.toNat 1) := by
      have hrow : exec (.laneSelfTest n false) s = done (if !mainPower s ∨ false ∨ (laneAt s n.toNat).fenced ∨
        (laneAt s n.toNat).job.isSome then s else lsuFence s n.toNat 1) := rfl
      rw [hrow, if_neg (by simp [hon, hopen, hjob])]
    rw [lsuFence_leaves n.isLt hk hne hother, if_neg (by simp [hopen])] at hexec
    obtain ⟨hfenced, hlanes, hfault, hraises⟩ := recordLaneFence_fences s n.isLt 1
    refine leads_done hexec (hfenced.quiet hq) ⟨?_, hfault, hfenced.2, hraises⟩
    rw [(hlanes n.toNat).1]
    simp

end Sys2Proof.LatticeLanes
end

section
/-! PROOF. Locks, tablets and mailboxes (R306, R322, R325, R327, R409 to R411). -/

namespace Sys2Proof.LocksAndMailboxes

open Sys2Proof.Machine Sys2Proof.Frames Sys2Proof.Chains Sys2Proof.LinesideUnit

/-! ### Locks -/

theorem getR_readData (s : State) (v : DWord) (a : Nat) : getR (readData s v) a = getR s a := rfl

/-- A free lock goes to its reader; an owned one reads as its owner. -/
theorem takeLock_reads (s : State) (m : Master) (a : Nat) : LockRead s (takeLock s m a) m a := by
  unfold takeLock
  dsimp only
  by_cases hfree : getR s a = 0
  · rw [if_pos hfree]
    refine ⟨rfl, rfl, ?_, fun b hb => ?_, rfl⟩
    · rw [getR_readData, getR_setR_same, if_pos hfree]
    · rw [getR_readData, getR_setR_other _ _ _ _ (by simpa using hb)]
  · rw [if_neg hfree]
    exact ⟨rfl, rfl, (if_neg hfree).symm, fun _ _ => rfl, rfl⟩

theorem quiet_of_lockRead {s t : State} {m : Master} {a : Nat} (h : LockRead s t m a) (hq : Quiet s) : Quiet t := by
  obtain ⟨-, -, -, -, hform⟩ := h
  rw [hform]
  exact hq

/-- Only its owner frees a lock. -/
theorem released (s : State) (m : Master) (a : Nat) : let t := if lockOwner s a = m then setR s a 0 else s
    getR t a = (if lockOwner s a = m then 0 else getR s a) ∧ OnlyRegs s t [a] [] := by
  dsimp only
  split
  · exact ⟨getR_setR_same s a 0, onlyRegs_then_setR (onlyRegs_refl s _) List.mem_cons_self 0⟩
  · exact ⟨rfl, onlyRegs_refl s _⟩

theorem leads_release {c : Instr} {s : State} {m : Master} {a : Nat} {f : State → State} (hq : Quiet s) (hm : MayWrite s m a)
    (hexec : exec c s = done (guardedWrite s m a f)) (hf : f s = if lockOwner s a = m then setR s a 0 else s) :
    Leads c s (fun t => getR t a = (if lockOwner s a = m then 0 else getR s a) ∧ OnlyRegs s t [a] []) := by
  obtain ⟨hvalue, honly⟩ := released s m a
  refine leads_guardedWrite hexec hm ?_ ?_
  · rw [hf]
    exact quiet_of_onlyRegs honly hq
  · rw [hf]
    exact ⟨hvalue, honly⟩

/-- A read of MAE_LOCK that starts no wipe. -/
theorem maeLockRead_reads {s : State} {m : Master}
    (h : getR s Reg.MAE_LOCK ≠ 0 ∨ maeWipeOn s = false ∨ s.mae.prevOwner = 0 ∨ s.mae.prevOwner = m) :
    maeLockRead s m = { takeLock s m Reg.MAE_LOCK with
      mae := { s.mae with prevOwner := if getR s Reg.MAE_LOCK = 0 then m else s.mae.prevOwner } } := by
  have hform := (takeLock_reads s m Reg.MAE_LOCK).2.2.2.2
  have hmae : (takeLock s m Reg.MAE_LOCK).mae = s.mae := (congrArg State.mae hform :)
  have hwipe (p : Master) : maeWipeOn { takeLock s m Reg.MAE_LOCK with mae := { (takeLock s m Reg.MAE_LOCK).mae with prevOwner := p } } =
      maeWipeOn s := by
    rw [hform]
    rfl
  unfold maeLockRead
  dsimp only
  by_cases hfree : getR s Reg.MAE_LOCK = 0
  · rw [if_pos (decide_eq_true hfree), if_neg, hmae, if_pos hfree]
    rw [hwipe]
    rintro ⟨hon, hprev, hother⟩
    rcases h with h | h | h | h
    · exact h hfree
    · rw [h] at hon
      cases hon
    · exact hprev h
    · exact hother h
  · rw [if_neg (by simpa using hfree), if_neg hfree, ← hmae]

theorem lockRead_withMae {s t : State} {m : Master} {a : Nat} (h : LockRead s t m a) (k : Mae) :
    LockRead { s with mae := k } { t with mae := k } m a := by
  obtain ⟨hdata, herr, hvalue, hsame, hform⟩ := h
  exact ⟨hdata, herr, hvalue, hsame, (congrArg (fun x : State => { x with mae := k }) hform :)⟩

/-! ### Tablets -/

theorem tablet_setTablet_same (s : State) {t : Nat} (ht : t < 64) (m : Master) : tablet (setTablet s t m) t = m := by
  simp [tablet, setTablet, ht]

theorem tablet_setTablet_other (s : State) {t k : Nat} (m : Master) (h : k ≠ t) : tablet (setTablet s t m) k = tablet s k := by
  simp [tablet, setTablet, Ne.symm h]

theorem locks : Sys2Proof.Claims.Locks := by
  refine ⟨?_, ?_, ?_, ?_, ?_, ?_, ?_, ?_, ?_⟩
  case refine_1 =>
    intro s m hq hm
    have hread := takeLock_reads s m Reg.KDE_LOCK
    exact leads_guardedRead (f := fun s => takeLock s m Reg.KDE_LOCK) rfl hm (quiet_of_lockRead hread hq) hread
  case refine_2 =>
    intro s m hq hm hne
    exact leads_release (f := fun s => kdeRelease s m) hq hm rfl (if_neg hne)
  case refine_3 =>
    intro s m hq hm hstill
    have hread := takeLock_reads s m Reg.MAE_LOCK
    have hquiet := quiet_of_lockRead hread hq
    have hlock := maeLockRead_reads hstill
    have hall := lockRead_withMae hread { s.mae with prevOwner := if getR s Reg.MAE_LOCK = 0 then m else s.mae.prevOwner }
    generalize takeLock s m Reg.MAE_LOCK = t at hquiet hlock hall
    refine leads_guardedRead (f := fun s => maeLockRead s m) rfl hm ?_ ?_
    · rw [hlock]
      exact hquiet
    · rw [hlock]
      exact ⟨hall, rfl⟩
  case refine_4 =>
    intro s m hq hm hne
    exact leads_release (f := fun s => maeRelease s m) hq hm rfl (if_neg hne)
  case refine_5 =>
    intro s m hq hm
    have hread := takeLock_reads s m Reg.MAE_SLOCK
    exact leads_guardedRead (f := fun s => takeLock s m Reg.MAE_SLOCK) rfl hm (quiet_of_lockRead hread hq) hread
  case refine_6 =>
    intro s m hq hm hne
    exact leads_release (f := fun s => slockRelease s m) hq hm rfl (if_neg hne)
  case refine_7 =>
    intro s m n hq hm
    refine leads_guardedRead (f := fun s => tabletTake s m n.toNat) rfl hm ?_ ?_
    · unfold tabletTake
      dsimp only
      split <;> exact hq
    · unfold tabletTake
      dsimp only
      by_cases hfree : tablet s n.toNat = 0
      · rw [if_pos hfree, if_pos hfree]
        exact ⟨rfl, tablet_setTablet_same s n.isLt m, fun k hk => tablet_setTablet_other s m hk, rfl⟩
      · rw [if_neg hfree, if_neg hfree]
        exact ⟨rfl, rfl, fun _ _ => rfl, rfl⟩
  case refine_8 =>
    intro s m n hq hm hne
    have hfree : tabletFree s m n.toNat = if tablet s n.toNat = m then setTablet s n.toNat 0 else s := if_neg hne
    refine leads_guardedWrite (f := fun s => tabletFree s m n.toNat) rfl hm ?_ ?_
    · rw [hfree]
      split <;> exact hq
    · rw [hfree]
      split
      · exact ⟨tablet_setTablet_same s n.isLt 0, fun k hk => tablet_setTablet_other s 0 hk, rfl⟩
      · exact ⟨rfl, fun _ _ => rfl, rfl⟩
  case refine_9 =>
    intro s n hq hm
    have hfree : tabletFree s 4 n.toNat = raise (setTablet s n.toNat 0) 481 := by
      unfold tabletFree
      dsimp only
      rw [if_pos rfl]
    have honly := onlyRegs_then_raise (onlyRegs_refl (setTablet s n.toNat 0) []) 481
    have htablets : (raise (setTablet s n.toNat 0) 481).tablets = (setTablet s n.toNat 0).tablets := raise_tablets _ _
    have hat (k : Nat) : tablet (raise (setTablet s n.toNat 0) 481) k = tablet (setTablet s n.toNat 0) k := by
      rw [tablet, htablets, tablet]
    refine leads_guardedWrite (f := fun s => tabletFree s 4 n.toNat) rfl hm ?_ ?_
    · rw [hfree]
      exact quiet_of_onlyRegs honly hq
    · rw [hfree]
      refine ⟨(hat _).trans (tablet_setTablet_same s n.isLt 0), fun k hk => (hat k).trans (tablet_setTablet_other s 0 hk), ?_⟩
      rw [htablets]
      exact honly

/-! ### Mailboxes -/

theorem mailboxIs_set (s : State) {n : Nat} (hn : n < 16) (b : Mailbox) : MailboxIs s (setMailbox s n b) n b := by
  refine ⟨?_, fun k hk => ?_⟩
  · simp [mailbox, setMailbox, hn]
  · simp [mailbox, setMailbox, Ne.symm hk]

theorem mailboxIs_congr {s t u : State} {n : Nat} {b : Mailbox} (h : MailboxIs s t n b) (hu : u.mailboxes = t.mailboxes) :
    MailboxIs s u n b := by
  unfold MailboxIs mailbox at h ⊢
  rwa [hu]

/-- A refused access: REFUSED, and event 480 as the first of its millisecond. -/
theorem mbxRefused_refuses {s : State} (hq : Quiet s) (h : mget? s.lastRaise 480 = none) : let t := mbxRefused s
    Quiet t ∧ bitR t Reg.MBX_ERR 0 = true ∧ t.mailboxes = s.mailboxes ∧ isPending t 480 = true ∧ t.ports.readData = s.ports.readData := by
  have hrefused : mbxRefused s =
      raise { orR s Reg.MBX_ERR 1 with lastRaise := mput (orR s Reg.MBX_ERR 1).lastRaise 480 (orR s Reg.MBX_ERR 1).ttc } 480 :=
    raiseLimited_fresh (s := orR s Reg.MBX_ERR 1) h
  rw [hrefused]
  generalize ha : ({ orR s Reg.MBX_ERR 1 with lastRaise := mput (orR s Reg.MBX_ERR 1).lastRaise 480 (orR s Reg.MBX_ERR 1).ttc } : State) = a
  have hqa : Quiet a := by
    rw [← ha]
    exact hq
  have herr : bitR a Reg.MBX_ERR 0 = true := by
    have hvalue : getR a Reg.MBX_ERR = getR s Reg.MBX_ERR ||| 1 := by
      rw [← ha]
      exact getR_orR s _ _
    rw [bitR, hvalue]
    simp [bit]
  have hboxes : a.mailboxes = s.mailboxes := by rw [← ha]; rfl
  have hdata : a.ports.readData = s.ports.readData := by rw [← ha]; rfl
  refine ⟨quiet_withEvents (LockedRoutes.raise_withEvents a 480) hqa, ?_, (raise_mailboxes a 480).trans hboxes,
    isPending_raise_same a (by decide), ?_⟩
  · rw [bitR, getR_congr (raise_regs a 480)]
    exact herr
  · exact ((congrArg (fun x => x.ports.readData) (LockedRoutes.raise_withEvents a 480) :)).trans hdata

theorem mailboxes : Sys2Proof.Claims.Mailboxes := by
  refine ⟨?_, ?_, ?_, ?_, ?_, ?_, ?_⟩
  case refine_1 =>
    intro s m n hq hm hmay
    have hread : claimRead s m n.toNat = if (mailbox s n.toNat).claimant ≠ 0 then readData s ((mailbox s n.toNat).claimant.setWidth 64)
        else if (mailbox s n.toNat).full then readData s 62
        else readData (setMailbox s n.toNat { mailbox s n.toNat with claimant := m }) 0 := by
      unfold claimRead
      dsimp only
      rw [if_neg (by simp [hmay])]
    refine leads_guardedRead (f := fun s => claimRead s m n.toNat) rfl hm ?_ ?_
    · rw [hread]
      split_ifs <;> exact hq
    · rw [hread]
      by_cases hclaimed : (mailbox s n.toNat).claimant = 0
      · by_cases hfull : (mailbox s n.toNat).full = true
        · rw [if_neg (not_not.mpr hclaimed), if_pos hfull]
          refine ⟨?_, ?_, rfl⟩
          · rw [if_neg (not_not.mpr hclaimed), if_pos hfull]
            rfl
          · rw [if_neg (by simp [hfull])]
            exact ⟨rfl, fun _ _ => rfl⟩
        · rw [if_neg (not_not.mpr hclaimed), if_neg hfull]
          refine ⟨?_, ?_, rfl⟩
          · rw [if_neg (not_not.mpr hclaimed), if_neg hfull]
            rfl
          · rw [if_pos ⟨hclaimed, by simpa using hfull⟩]
            exact mailboxIs_congr (mailboxIs_set s n.isLt _) rfl
      · rw [if_pos hclaimed]
        refine ⟨?_, ?_, rfl⟩
        · rw [if_pos hclaimed]
          rfl
        · rw [if_neg (fun h => hclaimed h.1)]
          exact ⟨rfl, fun _ _ => rfl⟩
  case refine_2 =>
    intro s m n hq hm hmay hfresh
    have hread : claimRead s m n.toNat = mbxRefused (readData s 63) := by
      unfold claimRead
      dsimp only
      rw [if_pos (by simp [hmay])]
    obtain ⟨hquiet, herr, hboxes, hpending, hdata⟩ := mbxRefused_refuses (s := readData s 63) hq hfresh
    refine leads_guardedRead (f := fun s => claimRead s m n.toNat) rfl hm ?_ ?_
    · rwa [hread]
    · rw [hread]
      exact ⟨hdata, herr, hboxes, hpending⟩
  case refine_3 =>
    intro s m n hq hm hclaimant
    have hfree : claimFree s m n.toNat = setMailbox s n.toNat { mailbox s n.toNat with claimant := 0 } := if_pos hclaimant
    refine leads_guardedWrite (f := fun s => claimFree s m n.toNat) rfl hm ?_ ?_
    · rw [hfree]
      exact hq
    · rw [hfree]
      exact ⟨mailboxIs_set s n.isLt _, rfl⟩
  case refine_4 =>
    intro s m n v hq hm hclaimant hv
    have hpost : post s m n.toNat v = raise (setMailbox s n.toNat
        { mailbox s n.toNat with claimant := 0, full := true, value := v, sender := m }) (448 + n.toNat) := if_pos ⟨hclaimant, hv⟩
    have hset := mailboxIs_set s n.isLt { mailbox s n.toNat with claimant := 0, full := true, value := v, sender := m }
    have hbase : Quiet (setMailbox s n.toNat { mailbox s n.toNat with claimant := 0, full := true, value := v, sender := m }) := hq
    have hform : setMailbox s n.toNat { mailbox s n.toNat with claimant := 0, full := true, value := v, sender := m } =
      { s with mailboxes := (setMailbox s n.toNat { mailbox s n.toNat with claimant := 0, full := true, value := v, sender := m }).mailboxes } := rfl
    generalize setMailbox s n.toNat { mailbox s n.toNat with claimant := 0, full := true, value := v, sender := m } = a
      at hpost hset hbase hform
    have honly := onlyRegs_then_raise (onlyRegs_refl a []) (448 + n.toNat)
    refine leads_guardedWrite (f := fun s => post s m n.toNat v) rfl hm ?_ ?_
    · rw [hpost]
      exact quiet_of_onlyRegs honly hbase
    · rw [hpost]
      refine ⟨mailboxIs_congr hset (raise_mailboxes _ _), ?_⟩
      rw [raise_mailboxes, ← hform]
      exact honly
  case refine_5 =>
    intro s m n v hq hm hrefused hfresh
    have hpost : post s m n.toNat v = mbxRefused s := by
      unfold post
      dsimp only
      rw [if_neg]
      rintro ⟨hclaimant, hv⟩
      rcases hrefused with h | h
      · rw [hclaimant] at h
        cases h
      · exact hv h
    obtain ⟨hquiet, herr, hboxes, hpending, -⟩ := mbxRefused_refuses hq hfresh
    refine leads_guardedWrite (f := fun s => post s m n.toNat v) rfl hm ?_ ?_
    · rwa [hpost]
    · rw [hpost]
      exact ⟨herr, hboxes, hpending⟩
  case refine_6 =>
    intro s m n hq hm hreceiver hne hfull
    have htake : take s m n.toNat = raise (setMailbox (readData s ((mailbox s n.toNat).value.setWidth 64)) n.toNat
        { mailbox s n.toNat with full := false, value := 0 }) (464 + n.toNat) := by
      unfold take
      dsimp only
      rw [if_neg (fun h => h.elim (fun e => e hreceiver) hne), if_pos hfull]
    have hset := mailboxIs_set (readData s ((mailbox s n.toNat).value.setWidth 64)) n.isLt { mailbox s n.toNat with full := false, value := 0 }
    generalize ha : setMailbox (readData s ((mailbox s n.toNat).value.setWidth 64)) n.toNat
      { mailbox s n.toNat with full := false, value := 0 } = a at htake hset
    have hevents := LockedRoutes.raise_withEvents a (464 + n.toNat)
    have hqa : Quiet a := by
      rw [← ha]
      exact hq
    have hpending := isPending_raise_same a (n := 464 + n.toNat) (by omega)
    have hdata : a.ports.readData = (mailbox s n.toNat).value.setWidth 64 := by rw [← ha]; rfl
    have hmem : a.mem = s.mem := by rw [← ha]; rfl
    have hregs : a.regs = s.regs := by rw [← ha]; rfl
    have hboxes := raise_mailboxes a (464 + n.toNat)
    refine leads_guardedRead (f := fun s => take s m n.toNat) rfl hm ?_ ?_
    · rw [htake]
      exact quiet_withEvents hevents hqa
    · rw [htake]
      exact ⟨(congrArg (fun x => x.ports.readData) hevents :).trans hdata, mailboxIs_congr hset hboxes, hpending,
        (raise_regs a _).trans hregs, (congrArg State.mem hevents :).trans hmem⟩
  case refine_7 =>
    intro s m n v hq hm
    refine leads_guardedWrite (f := fun s => cfgWrite s n.toNat v) rfl hm hq ?_
    exact ⟨mailboxIs_set s n.isLt _, rfl⟩

/-- Settles O25: each access is one write of its lock, tablet or mailbox, or a refusal. -/
theorem locksAndMailboxes : Obligations.LocksAndMailboxes := ⟨locks, mailboxes⟩

end Sys2Proof.LocksAndMailboxes
end

section
/-! PROOF. The timetable counter (R184, R182) and the loss of its reference (R33, R185, R564): an advance is taken or refused by
two register bits and the counter, and a failed reference trips source 70, which at class 0 leaves its evidence and a record. -/

namespace Sys2Proof.TimetableRows

set_option Elab.async false

open Sys2Proof.Machine Sys2Proof.Frames Sys2Proof.Chains Sys2Proof.LogFrames

/-! ### TTC_ADVANCE -/

theorem advanceTtc_taken {s : State} {v : DWord} (hset : bitR s Reg.TTC_STATUS 1 = false) (hready : ready s = false)
    (hlater : s.ttc.toNat < v.toNat) : advanceTtc s v = raise (orR { s with ttc := v } Reg.TTC_STATUS 2) 21 := by
  simp [advanceTtc, hset, hready, hlater]

theorem advanceTtc_refused {s : State} {v : DWord} (h : bitR s Reg.TTC_STATUS 1 = true ∨ ready s = true ∨ v.toNat ≤ s.ttc.toNat) :
    advanceTtc s v = orR s Reg.TTC_STATUS 8 := by
  unfold advanceTtc
  rw [if_neg]
  obtain h | h | h := h
  · simp [h]
  · simp [h]
  · simp [Nat.not_lt.mpr h]

/-! ### A trip at class 0 -/

theorem alarmRecord_logged (s : State) (src cls dets origin : Nat) (c : BitVec 48) (ttc : DWord) :
    Logged s (alarmRecord s src cls dets origin c ttc) := appendRecord_logged s _ _

theorem noteReset_classZero {s : State} {n : Nat} (h : classOf s n = 0) : noteReset s n = s := by
  unfold noteReset
  rw [if_neg (by omega)]

theorem appliedClass_classZero {s : State} {n : Nat} (h : classOf s n = 0) : appliedClass s n = 0 := by
  unfold appliedClass
  rw [if_neg (by omega), h]

/-- With no test under way a source that is not active is noted, and class 0 asks nothing more. -/
theorem trip_classZero {s : State} {n : Nat} (hmain : mainPower s = true) (hn : n < 108) (hclass : classOf s n = 0)
    (hactive : s.vigil.active.getLsbD n = false) (htest : s.vigil.testing = none) (hdup : duplicated n = false) (dets : BitVec 2) :
    trip s n dets = noteTrip s n 3 0 := by
  have hdets : tripDetectors s n dets = 3 := by simp [tripDetectors, htest, hdup]
  have hdark : s.mode ≠ .dark := by
    intro h
    simp [mainPower, h] at hmain
  have hnote : noteSource s n dets = (noteTrip s n 3 0, 0) := by
    unfold noteSource
    dsimp only
    rw [hdets, if_neg (by simp; omega), if_neg (by simp [hactive]), if_pos hmain, noteReset_classZero hclass,
      appliedClass_classZero hclass]
  unfold trip tripAll
  dsimp only [List.foldl]
  rw [if_neg hdark, if_pos hmain, hnote]
  rfl

/-- The bits of a source: its own alone. -/
theorem getLsbD_oneSource {n : Nat} (hn : n < 128) : (oneSource n).getLsbD n = true := by
  simp [oneSource, hn]

/-- The state with the source's evidence, before its event and its record. -/
def evidenced (s : State) (n : Nat) (dets : BitVec 2) (cls : Nat) : State :=
  { stickyTrip s n dets cls with vigil :=
    { (stickyTrip s n dets cls).vigil with new_ := (stickyTrip s n dets cls).vigil.new_ ||| oneSource n } }

theorem noteTrip_form (s : State) (n : Nat) (dets : BitVec 2) (cls : Nat) :
    noteTrip s n dets cls = alarmRecord (raise (evidenced s n dets cls) (64 + n)) n cls dets.toNat 0
      (evidenced s n dets cls).vigil.count (evidenced s n dets cls).ttc := rfl

theorem sticky_evidenced (s : State) {n : Nat} (hn : n < 128) (dets : BitVec 2) (cls : Nat) :
    (evidenced s n dets cls).vigil.sticky.getLsbD n = true := by
  have h : (evidenced s n dets cls).vigil.sticky = s.vigil.sticky ||| oneSource n := rfl
  rw [h, BitVec.getLsbD_or, getLsbD_oneSource hn, Bool.or_true]

/-- What a noted trip leaves: the source's sticky flag and its event. -/
theorem noteTrip_noted (s : State) {n : Nat} (hn : n < 108) (dets : BitVec 2) (cls : Nat) :
    (noteTrip s n dets cls).mode = s.mode ∧ (noteTrip s n dets cls).ttc = s.ttc ∧
      SameRegs s (noteTrip s n dets cls) droppedRegs ∧ isPending (noteTrip s n dets cls) (64 + n) = true ∧
      (noteTrip s n dets cls).vigil.sticky.getLsbD n = true ∧ (Quiet s → Quiet (noteTrip s n dets cls)) := by
  have hsticky := sticky_evidenced s (show n < 128 by omega) dets cls
  have hevidenced : evidenced s n dets cls =
      { s with vigil := (evidenced s n dets cls).vigil, tail := (evidenced s n dets cls).tail } := rfl
  rw [noteTrip_form]
  generalize evidenced s n dets cls = w at hsticky hevidenced
  have hlogged := (raise_logged w (64 + n)).trans
    (alarmRecord_logged (raise w (64 + n)) n cls dets.toNat 0 w.vigil.count w.ttc)
  have hpending := isPending_raise_same w (show 64 + n < 1024 by omega)
  have hkept : Pends (raise w (64 + n)) _ :=
    (alarmRecord_logged (raise w (64 + n)) n cls dets.toNat 0 w.vigil.count w.ttc).2.2.2
  generalize alarmRecord _ _ _ _ _ _ _ = t at hlogged hkept ⊢
  obtain ⟨hform, -, hregs, -⟩ := id hlogged
  refine ⟨?_, ?_, ?_, hkept _ (by omega) hpending, ?_, fun hq => hlogged.quiet ?_⟩
  · rw [hform, hevidenced]
    rfl
  · rw [hform, hevidenced]
    rfl
  · have hsame : SameRegs s w droppedRegs := by
      rw [hevidenced]
      exact sameRegs_of_regs rfl _
    exact sameRegs_trans hsame hregs
  · rw [hform]
    exact hsticky
  · rw [hevidenced]
    exact hq

theorem tcxoFailure_first {s : State} (hmain : mainPower s = true) (hfirst : bitR s Reg.TTC_STATUS 0 = false)
    (hsealing : sealing s = false) (hclass : classOf s 70 = 0) (hactive : s.vigil.active.getLsbD 70 = false)
    (htest : s.vigil.testing = none) :
    exec .tcxoFailure s = done (noteTrip (orR s Reg.TTC_STATUS 1) 70 3 0) := by
  have htrip : trip (orR s Reg.TTC_STATUS 1) 70 3 = noteTrip (orR s Reg.TTC_STATUS 1) 70 3 0 :=
    trip_classZero (s := orR s Reg.TTC_STATUS 1) hmain (by decide) hclass hactive htest rfl 3
  obtain ⟨hmode, -⟩ := noteTrip_noted (orR s Reg.TTC_STATUS 1) (n := 70) (by decide) 3 0
  show done _ = _
  dsimp only
  rw [if_neg (by simp [hmain, hfirst]), htrip, if_neg]
  unfold sealing at hsealing ⊢
  rw [hmode, show (orR s Reg.TTC_STATUS 1).mode = s.mode from rfl]
  simpa using hsealing

/-- Settles O14: an advance is one register bit and one event, and a failed reference notes source 70, whose evidence and record
leave the mode and the counter alone. -/
theorem timetable : Obligations.Timetable := by
  refine ⟨?_, ?_, ?_, ?_, ?_⟩
  case refine_1 =>
    intro s m v hm hset hready hlater
    refine leads_writeOut (f := fun t => writeAdvance t .both v) rfl hm ?_
    show _ ∧ _ ∧ _ ∧ _ ∧ _
    rw [show writeAdvance s .both v = _ from advanceTtc_taken hset hready hlater]
    obtain ⟨q, o, hform⟩ := raise_form (orR { s with ttc := v } Reg.TTC_STATUS 2) 21
    refine ⟨?_, ?_, ?_, ?_, ?_⟩
    · rw [hform]
      rfl
    · rw [getR_congr (t := raise _ _) (raise_regs _ _)]
      exact getR_orR _ _ _
    · exact sameRegs_raise (sameRegs_setR (sameRegs_of_regs rfl _) (List.mem_singleton.mpr rfl) _) 21
    · exact raises_raise (s := s) (t := orR { s with ttc := v } Reg.TTC_STATUS 2) (raises_of_same (raises_refl s) rfl rfl) 21
    · rw [hform]
      rfl
  case refine_2 =>
    intro s m v hm hrefused
    refine leads_writeOut (f := fun t => writeAdvance t .both v) rfl hm ?_
    rw [show writeAdvance s .both v = _ from advanceTtc_refused hrefused]
    exact ⟨getR_orR _ _ _, onlyRegs_of_regs rfl (sameRegs_setR (sameRegs_refl s _) (List.mem_singleton.mpr rfl) _)⟩
  case refine_3 =>
    intro s m v hm
    exact leads_writeOut (f := fun t => writeAdvance t .lo v) rfl hm ⟨mget_mset_same 0 _ _ _, rfl⟩
  case refine_4 =>
    intro s hmain
    refine leads_next (congrArg Host.Outcome.next (if_pos hmain)) ⟨?_, ?_, rfl⟩
    · have hcount (c : Nat) : (c + second) * 128 + 390625 - 1 = (c + 100000000) * 128 + 390624 := by
        rw [second]
        omega
      show BitVec.ofNat 48 (ceilDiv ((s.ttc.toNat + second) * 128) 390625) = _
      rw [ceilDiv, hcount]
    · simp [privateBad, sealPrivate]
  case refine_5 =>
    intro s hq hmain hfirst hsealing hclass hactive htest
    obtain ⟨hmode, httc, hregs, hpending, hsticky, hquiet⟩ := noteTrip_noted (orR s Reg.TTC_STATUS 1) (n := 70) (by decide) 3 0
    refine leads_done (tcxoFailure_first hmain hfirst hsealing hclass hactive htest) (hquiet hq)
      ⟨?_, hpending, hsticky, hmode, httc⟩
    unfold bitR
    rw [hregs Reg.TTC_STATUS (by decide), getR_orR]
    simp [bit]

end Sys2Proof.TimetableRows
end

section
/-! PROOF. Branches end (R235 to R237) and a Station slot is freed (R259): each command changes the table at once and leaves its
image to be written. -/

namespace Sys2Proof.BranchEnds

set_option Elab.async false

open Sys2Proof.Machine Sys2Proof.Frames Sys2Proof.Chains

/-! ### The command register -/

/-- A command of firmware reads its entry with the report cleared. -/
def begun (s : State) : State := clearR s Reg.BTR_RESULT 0x80000000

theorem mmap?_of_some {α : Type} {m : SMap α} {i : Nat} {v : α} (h : mget? m i = some v) (f : α → α) :
    mmap? m i f = mput m i (f v) := by
  unfold mmap?
  rw [h]

theorem quiet_begun {s : State} (hq : Quiet s) : Quiet (begun s) := hq

theorem begun_result (s : State) : bitR (begun s) Reg.BTR_RESULT 31 = false := by
  unfold bitR begun
  rw [getR_clearR]
  simp [bit]

theorem getR_begun_other (s : State) {a : Nat} (h : a ≠ Reg.BTR_RESULT) : getR (begun s) a = getR s a := getR_clearR_other s _ h

theorem sameRegs_begun (s : State) : SameRegs s (begun s) [Reg.BTR_RESULT] :=
  sameRegs_setR (sameRegs_refl s _) (List.mem_singleton.mpr rfl) _

theorem commandArgs_begun (s : State) (m : Master) : commandArgs (begun s) m = commandArgs s m := by
  unfold commandArgs getR64
  rw [getR_begun_other s (by decide), getR_begun_other s (by decide), getR_begun_other s (by decide),
    getR_begun_other s (by decide), getR_begun_other s (by decide)]

theorem argIndex_commandArgs (s : State) (m : Master) : argIndex (commandArgs s m) = btrIndex s := rfl

/-- A command that the unit accepts, in a mode that allows it. -/
theorem btrCommand_accepted {s : State} {m : Master} (h : BtrIdle s m) {modeOk : State → Bool} (hmode : modeOk (begun s) = true)
    (f : State → BtrArgs → State) : btrCommand s m modeOk f = f (begun s) (commandArgs s m) := by
  obtain ⟨-, hm, hnone, hbuilt⟩ := h
  have htable : builtTable (begun s) = begun s := if_pos hbuilt
  unfold btrCommand
  rw [guardedWrite_permitted s m _ _ hm, if_neg (by simp [hnone])]
  dsimp only
  rw [if_pos (show modeOk (clearR s Reg.BTR_RESULT 0x80000000) = true from hmode)]
  show f (builtTable (begun s)) (commandArgs (begun s) m) = _
  rw [htable, commandArgs_begun]

theorem withEntry_some {s : State} {i : Nat} {b : Branch} (h : mget? s.branches i = some b)
    (hseal : privateBad s (.branch i) = false) (f : Nat → Branch → State) : withEntry s i f = f i b := by
  unfold withEntry
  rw [h]
  dsimp only
  rw [if_neg (by simp [hseal])]

theorem refuseWorn_not {s : State} (h : imageWorn s = false) (f : State → State) : refuseWorn s f = f s := if_neg (by simp [h])

theorem structural_persists {s : State} (htrunk : s.vigil.trunk = .valid) (hworn : imageWorn s = false) (p : BtrPending) :
    structural s p true = { s with btr := some { p with persist := true } } := by
  have hcan : canPersist s = true := by simp [canPersist, htrunk, hworn]
  unfold structural
  dsimp only
  rw [hcan]
  exact if_pos rfl

/-! ### Flushes -/

/-- No key of the cache depends on the branch. -/
def Flushed (t : State) (i : Nat) : Prop := ∀ k ∈ t.keyCache, k.parent ≠ i ∧ k.ancestors.contains i = false

theorem flushed_flushBranch (s : State) (i : Nat) : Flushed (flushBranch s i) i := by
  intro k hk
  have hkept : k ∈ s.keyCache.filter (fun k => !(decide (k.parent = i) || k.ancestors.contains i)) := hk
  obtain ⟨-, hnone⟩ := List.mem_filter.mp hkept
  simpa using hnone

/-- A command that sets an entry, flushes its keys and waits for its image. -/
theorem ends_busy {s t : State} {op : Nat} {p : BtrPending} (hregs : t.regs = (begun s).regs) (hbtr : t.btr = some p)
    (hp : p.op = op ∧ p.index = btrIndex s ∧ p.waybill = none ∧ p.report = true) : BtrBusy t op (btrIndex s) := by
  refine ⟨⟨p, hbtr, hp⟩, ?_⟩
  unfold bitR
  rw [getR_congr hregs]
  exact begun_result s

/-! ### The table apart -/

theorem quiet_table {s : State} (hq : Quiet s) (b : SMap Branch) (k : List KeySlot) (l : Vector Lane 4) (p : Option BtrPending) :
    Quiet { s with branches := b, keyCache := k, lanes := l, btr := p } := hq

/-- The state with the kept pairing branch ended and its image left to be written. -/
def invalidated (s : State) (i : Nat) : State :=
  { markInvalid s i with btr := some { plainPending 4 i with report := false } }

theorem markInvalid_form (s : State) (i : Nat) : ∃ b k l, markInvalid s i = { s with branches := b, keyCache := k, lanes := l } :=
  ⟨_, _, _, rfl⟩

theorem rotated_form (s : State) (i : Nat) (f : Branch → Branch) : ∃ b k l,
    setBranch (flushBranch s i) i f = { s with branches := b, keyCache := k, lanes := l } := ⟨_, _, _, rfl⟩

theorem quiet_marked {s : State} (hq : Quiet s) (i : Nat) (p : Option BtrPending) :
    Quiet { markInvalid (begun s) i with btr := p } := by
  obtain ⟨b, k, l, h⟩ := markInvalid_form (begun s) i
  rw [h]
  exact quiet_table (s := begun s) (quiet_begun hq) b k l p

theorem quiet_rotated {s : State} (hq : Quiet s) (i : Nat) (f : Branch → Branch) (p : Option BtrPending) :
    Quiet { setBranch (flushBranch (begun s) i) i f with btr := p } := by
  obtain ⟨b, k, l, h⟩ := rotated_form (begun s) i f
  rw [h]
  exact quiet_table (s := begun s) (quiet_begun hq) b k l p

/-! ### The commands -/

theorem invalidate_begins {s : State} {m : Master} {b : Branch} (h : BtrIdle s m) (hb : mget? s.branches (btrIndex s) = some b)
    (hvalid : b.state = .valid) (htrunk : s.vigil.trunk = .valid) (hseal : privateBad s (.branch (btrIndex s)) = false)
    (hworn : imageWorn s = false) :
    exec (.invalidate m) s = done { markInvalid (begun s) (btrIndex s) with btr := some (plainPending 4 (btrIndex s)) } := by
  have hcommand : btrCommand s m (fun _ => true) invalidateCommand = _ := btrCommand_accepted h rfl invalidateCommand
  have hrow : invalidateCommand (begun s) (commandArgs s m) = structural (markInvalid (begun s) (btrIndex s)) (plainPending 4 (btrIndex s)) true := by
    unfold invalidateCommand
    rw [argIndex_commandArgs, withEntry_some (s := begun s) hb hseal, if_neg (by simp [hvalid])]
  exact congrArg done (hcommand.trans (hrow.trans (structural_persists (s := markInvalid (begun s) (btrIndex s)) htrunk hworn _)))

theorem rotate_begins {s : State} {m : Master} {b : Branch} (h : BtrIdle s m) (hmode : inRunOrCommission s = true)
    (hb : mget? s.branches (btrIndex s) = some b) (hvalid : b.state = .valid) (hinstalled : b.installed = false) (hkind : b.kind ≠ 6)
    (htrunk : s.vigil.trunk = .valid) (hseal : privateBad s (.branch (btrIndex s)) = false) (hworn : imageWorn s = false) :
    exec (.rotate m) s = done { setBranch (flushBranch (begun s) (btrIndex s)) (btrIndex s)
        (fun b => { b with generation := b.generation + 1 }) with
      btr := some { plainPending 6 (btrIndex s) with prior := some b } } := by
  have hcommand : btrCommand s m inRunOrCommission rotateCommand = _ := btrCommand_accepted h hmode rotateCommand
  have hrow : rotateCommand (begun s) (commandArgs s m) = structural (setBranch (flushBranch (begun s) (btrIndex s)) (btrIndex s)
      (fun b => { b with generation := b.generation + 1 })) { plainPending 6 (btrIndex s) with prior := some b } true := by
    unfold rotateCommand
    rw [argIndex_commandArgs, withEntry_some (s := begun s) hb hseal, if_neg (by simp [hvalid]), if_neg (fun hno => hno.elim (by simp [hinstalled]) hkind),
      refuseWorn_not (s := begun s) hworn]
  exact congrArg done (hcommand.trans (hrow.trans (structural_persists
    (s := setBranch (flushBranch (begun s) (btrIndex s)) (btrIndex s) (fun b => { b with generation := b.generation + 1 })) htrunk hworn _)))

theorem purge_begins {s : State} {m : Master} {b : Branch} (h : BtrIdle s m) (hmode : inRunOrCommission s = true)
    (hb : mget? s.branches (btrIndex s) = some b) (hinvalid : b.state = .invalid) (hleaf : hasChildren s (btrIndex s) = false)
    (hlines : b.lines = 0) (htrunk : s.vigil.trunk = .valid) (hseal : privateBad s (.branch (btrIndex s)) = false)
    (hworn : imageWorn s = false) :
    exec (.purge m) s = done { begun s with
      branches := mdel s.branches (btrIndex s), btr := some { plainPending 5 (btrIndex s) with prior := some b } } := by
  have hcommand : btrCommand s m inRunOrCommission purgeCommand = _ := btrCommand_accepted h hmode purgeCommand
  have hchildren : ¬(hasChildren (begun s) (btrIndex s) = true ∨ b.lines ≠ 0) := by
    rw [show hasChildren (begun s) (btrIndex s) = false from hleaf]
    simp [hlines]
  have hrow : purgeCommand (begun s) (commandArgs s m) = structural { begun s with branches := mdel s.branches (btrIndex s) }
      { plainPending 5 (btrIndex s) with prior := some b } true := by
    unfold purgeCommand
    rw [argIndex_commandArgs, withEntry_some (s := begun s) hb hseal, if_neg (by simp [hinvalid]), if_neg hchildren,
      refuseWorn_not (s := begun s) hworn]
    rfl
  exact congrArg done (hcommand.trans (hrow.trans
    (structural_persists (s := { begun s with branches := mdel s.branches (btrIndex s) }) htrunk hworn _)))

theorem branchEnds : Sys2Proof.Claims.BranchEnds := by
  refine ⟨?_, ?_, ?_⟩
  case refine_1 =>
    intro s m b hidle hb hvalid htrunk hseal hworn
    have hset : (markInvalid (begun s) (btrIndex s)).branches = mput s.branches (btrIndex s) { b with state := .invalid } :=
      mmap?_of_some hb _
    refine leads_done (invalidate_begins hidle hb hvalid htrunk hseal hworn) (quiet_marked hidle.1 _ _)
      ⟨?_, ends_busy rfl rfl ⟨rfl, rfl, rfl, rfl⟩, fun k hk => ?_, flushed_flushBranch _ _, rfl⟩
    · exact (congrArg (mget? · _) hset :).trans (mget?_mput_same _ _ _)
    · exact (congrArg (mget? · k) hset :).trans (mget?_mput_other _ _ _ _ hk)
  case refine_2 =>
    intro s m b hidle hmode hb hvalid hinstalled hkind htrunk hseal hworn
    have hset : (setBranch (flushBranch (begun s) (btrIndex s)) (btrIndex s) (fun b => { b with generation := b.generation + 1 })).branches =
        mput s.branches (btrIndex s) { b with generation := b.generation + 1 } := mmap?_of_some hb _
    refine leads_done (rotate_begins hidle hmode hb hvalid hinstalled hkind htrunk hseal hworn) (quiet_rotated hidle.1 _ _ _)
      ⟨?_, ends_busy rfl rfl ⟨rfl, rfl, rfl, rfl⟩, fun k hk => ?_, flushed_flushBranch _ _, rfl⟩
    · exact (congrArg (mget? · _) hset :).trans (mget?_mput_same _ _ _)
    · exact (congrArg (mget? · k) hset :).trans (mget?_mput_other _ _ _ _ hk)
  case refine_3 =>
    intro s m b hidle hmode hb hinvalid hleaf hlines htrunk hseal hworn
    exact leads_done (purge_begins hidle hmode hb hinvalid hleaf hlines htrunk hseal hworn) hidle.1
      ⟨mget?_mdel_same _ _, ends_busy rfl rfl ⟨rfl, rfl, rfl, rfl⟩, fun k hk => mget?_mdel_other _ _ _ hk, rfl⟩

/-! ### RETIRE -/

theorem mkFrames_congr {s t : State} (httc : t.ttc = s.ttc) (hepoch : curEpoch t = curEpoch s) (typ : Byte) (n : Nat) :
    ∀ (body : Bytes) (frag serial : Nat) (link : Bytes), mkFrames t typ n body frag serial link = mkFrames s typ n body frag serial link := by
  induction n with
  | zero => exact fun _ _ _ _ => rfl
  | succ n ih =>
    intro body frag serial link
    simp only [mkFrames, httc, hepoch, ih]

theorem framesOf_congr {s t : State} (httc : t.ttc = s.ttc) (hepoch : curEpoch t = curEpoch s) (hlog : t.log = s.log) (typ : Byte)
    (body : Bytes) : framesOf t typ body = framesOf s typ body := by
  unfold framesOf
  rw [hlog, mkFrames_congr httc hepoch]

/-- The state with the slot free. -/
def freed (s : State) (i : Nat) : State := { s with stations := mdel s.stations i }

theorem framesOf_freed (s : State) (i : Nat) (typ : Byte) (body : Bytes) : framesOf (freed s i) typ body = framesOf s typ body :=
  framesOf_congr (s := s) (t := freed s i) rfl rfl rfl typ body

/-- The state with the slot free and the retirement record handed to staging. -/
def retired (s : State) (i : Nat) (st : Station) : State :=
  stage (freed s i) (framesOf (freed s i) 0x22 (retirementRecord i st)) [] false

theorem appendRecord_retirement (s : State) (i : Nat) (st : Station) :
    appendRecord (freed s i) 0x22 (retirementRecord i st) = retired s i st := by
  unfold appendRecord
  rw [if_neg (by simp [keptType]), retired]

theorem recorded_retired (s : State) (i : Nat) (st : Station) : Recorded s (retired s i st) 0x22 (retirementRecord i st) := by
  have hframes := framesOf_freed s i 0x22 (retirementRecord i st)
  unfold Recorded retired
  rw [hframes]
  rfl

theorem retired_form (s : State) (i : Nat) (st : Station) :
    retired s i st = { s with stations := mdel s.stations i, log := (retired s i st).log } := by
  unfold retired
  generalize framesOf (freed s i) 0x22 (retirementRecord i st) = frames
  rfl

theorem retired_raised (s : State) (i : Nat) (st : Station) : (retired s i st).log.raised = s.log.raised := by
  unfold retired
  generalize framesOf (freed s i) 0x22 (retirementRecord i st) = frames
  rfl

theorem quiet_of_retired {s t : State} (h : t = { s with stations := t.stations, log := t.log }) (hraised : t.log.raised = s.log.raised)
    (hq : Quiet s) : Quiet t := by
  obtain ⟨htrips, hfence, hunfenced, husb, hmark⟩ := hq
  rw [h]
  exact ⟨htrips, hfence, hunfenced, husb, hraised.trans hmark⟩

theorem retire_frees {s : State} {m : Master} {n : BitVec 12} {st : Station} (hst : mget? s.stations n.toNat = some st)
    (hmode : s.mode = .commissioning) (hrole : isTerminus s = true) (hm : isSignalbox m = true) (hnone : s.btr = none) :
    exec (.retire m n) s = done (dropPairing (retired s n.toNat st) st) := by
  have hexec : exec (.retire m n) s = execRetire m n s := rfl
  have hrow : retireSlot s n.toNat st = dropPairing (retired s n.toNat st) st :=
    congrArg (dropPairing · st) (appendRecord_retirement s n.toNat st)
  rw [hexec, execRetire, hst]
  dsimp only
  rw [if_pos ⟨hmode, hrole, hm, by simp [hnone]⟩, hrow]

theorem quiet_invalidated {s : State} (hq : Quiet s) (i : Nat) : Quiet (invalidated s i) := by
  obtain ⟨b, k, l, h⟩ := markInvalid_form s i
  unfold invalidated
  rw [h]
  exact quiet_table hq b k l _

theorem invalidated_log (s : State) (i : Nat) : (invalidated s i).log = s.log := by
  obtain ⟨b, k, l, h⟩ := markInvalid_form s i
  unfold invalidated
  rw [h]

theorem invalidated_stations (s : State) (i : Nat) : (invalidated s i).stations = s.stations := by
  obtain ⟨b, k, l, h⟩ := markInvalid_form s i
  unfold invalidated
  rw [h]

theorem mget?_invalidated {s : State} {i : Nat} {b : Branch} (h : mget? s.branches i = some b) :
    mget? (invalidated s i).branches i = some { b with state := .invalid } := by
  have hset : (invalidated s i).branches = mput s.branches i { b with state := .invalid } := mmap?_of_some h _
  rw [hset]
  exact mget?_mput_same _ _ _

theorem dropPairing_kept {s : State} {st : Station} (hkept : keptPairing s st = true) (htrunk : s.vigil.trunk = .valid)
    (hworn : imageWorn s = false) : dropPairing s st = invalidated s st.branch :=
  (if_pos hkept).trans (structural_persists (s := markInvalid s st.branch) htrunk hworn { plainPending 4 st.branch with report := false })

theorem dropPairing_not {s : State} {st : Station} (hkept : keptPairing s st = false) : dropPairing s st = s :=
  if_neg (by simp [hkept])

theorem retireFreesSlot : Sys2Proof.Claims.RetireFreesSlot := by
  refine ⟨?_, ?_⟩
  · intro s m n st b hq hst hmode hrole hm hnone hkept hb htrunk hworn
    have hrow := retire_frees hst hmode hrole hm hnone
    have hrecord := recorded_retired s n.toNat st
    rw [retirementRecord] at hrecord
    have hform := retired_form s n.toNat st
    have hquiet := quiet_of_retired (s := s) (t := retired s n.toNat st) (by rw [hform]) (retired_raised s n.toNat st) hq
    generalize retired s n.toNat st = r at hrow hrecord hform hquiet
    have hdrop : dropPairing r st = invalidated r st.branch := by
      apply dropPairing_kept <;> rw [hform]
      · exact hkept
      · exact htrunk
      · exact hworn
    have hb' : mget? r.branches st.branch = some b := by rw [hform]; exact hb
    have hstations : r.stations = mdel s.stations n.toNat := by rw [hform]
    refine leads_done (hrow.trans (congrArg done hdrop)) (quiet_invalidated hquiet _)
      ⟨?_, mget?_invalidated hb', ⟨_, rfl, rfl, rfl, rfl⟩, ?_⟩
    · rw [invalidated_stations, hstations]
      exact mget?_mdel_same _ _
    · rwa [Recorded, invalidated_log]
  · intro s m n st hq hst hmode hrole hm hnone hkept
    have hrow := retire_frees hst hmode hrole hm hnone
    have hrecord := recorded_retired s n.toNat st
    rw [retirementRecord] at hrecord
    have hform := retired_form s n.toNat st
    have hquiet := quiet_of_retired (s := s) (t := retired s n.toNat st) (by rw [hform]) (retired_raised s n.toNat st) hq
    generalize retired s n.toNat st = r at hrow hrecord hform hquiet
    have hdrop : dropPairing r st = r := by
      apply dropPairing_not
      rw [hform]
      exact hkept
    have hstations : r.stations = mdel s.stations n.toNat := by rw [hform]
    refine leads_done (hrow.trans (congrArg done hdrop)) hquiet ⟨?_, fun k hk => ?_, hrecord, ?_⟩
    · rw [hstations]
      exact mget?_mdel_same _ _
    · rw [hstations]
      exact mget?_mdel_other _ _ _ hk
    · rw [hstations]
      exact hform

/-- Settles O17: each command is accepted with its table entry at hand, and what it leaves to be done is its image alone. -/
theorem branchAndSlotEnds : Obligations.BranchAndSlotEnds := ⟨branchEnds, retireFreesSlot⟩

end Sys2Proof.BranchEnds
end

section
/-! PROOF. Branches created by firmware's commands (R226 to R228): the checks pass, the table takes the entry, and its image is left
to be written; a hybrid exchange whose engines are taken waits for them with its operands (R328, R333). -/

namespace Sys2Proof.BranchCreation

set_option Elab.async false

open Sys2Proof.Machine Sys2Proof.Frames Sys2Proof.Chains Sys2Proof.PlainMemory Sys2Proof.CardControl Sys2Proof.LatticeLanes
open Sys2Proof.BranchEnds

/-! ### The checks read nothing that the command's start changes -/

theorem createCheck_begun (s : State) (i p k : Nat) (label : Bytes) (install : Bool) (ms : List Nat) :
    createCheck (begun s) i p k label install ms = createCheck s i p k label install ms := rfl

theorem useCheck_begun (s : State) (i : Nat) (kindOk : Nat → Bool) (ms : List Nat) :
    useCheck (begun s) i kindOk ms = useCheck s i kindOk ms := rfl

theorem commandBranch_begun (s : State) (a : BtrArgs) (p : Nat) (label : Bytes) (key : Option Bytes) :
    commandBranch (begun s) a p label key = commandBranch s a p label key := rfl

theorem keyUnder_congr {s t : State} (hkey : t.vigil.trunkKey = s.vigil.trunkKey) (hbranches : t.branches = s.branches) (n : Nat) :
    ∀ i, keyUnder t n i = keyUnder s n i := by
  induction n with
  | zero => exact fun _ => rfl
  | succ n ih =>
    intro i
    simp only [keyUnder, hkey, hbranches, ih]

theorem hybridReady_begun (s : State) : hybridReady (begun s) = hybridReady s := by
  unfold hybridReady fieldR
  rw [getR_begun_other s (by decide)]
  rfl

theorem entReady_begun (s : State) : entReady (begun s) = entReady s := by
  unfold entReady bitR
  rw [getR_begun_other s (by decide)]

theorem trunk_of_createCheck {s : State} {i p k : Nat} {label : Bytes} {install : Bool} {ms : List Nat}
    (h : createCheck s i p k label install ms = Check.ok) : s.vigil.trunk = .valid := by
  by_contra hlost
  have hchain : chainValid s p = false := by simp [chainValid, hlost]
  have hstatus := congrArg Check.status h
  unfold createCheck at hstatus
  dsimp only at hstatus
  rw [hchain, if_pos (show (!false) = true from rfl)] at hstatus
  split at hstatus
  · exact absurd hstatus (by decide)
  split at hstatus
  · exact absurd hstatus (by decide)
  split at hstatus
  · exact absurd hstatus (by decide)
  split at hstatus <;> exact absurd hstatus (by decide)

/-! ### The buffer -/

theorem withBuf_plain {s : State} {m : Master} {n : Nat} (h : PlainRead s m (btrBuf s) n) (f : State → Bytes → State) :
    withBuf (begun s) (commandArgs s m) n f = f (begun s) (memBytes s (btrBuf s) n) := by
  have hplain : PlainRead (begun s) m (btrBuf s) n := plainRead_setR _ (by decide) h
  unfold withBuf
  rw [show bufAddr (commandArgs s m) = btrBuf s from rfl, show (commandArgs s m).master = m from rfl, reach_plain hplain]
  dsimp only
  rw [if_pos rfl, engineBytes_plain hplain]
  rfl

theorem permits_congr {s t : State} (hfuses : t.fusesOk = s.fusesOk) (hroutes : t.routes = s.routes)
    (hbadRoutes : t.badRoutes = s.badRoutes) (hshadowBad : t.shadowBad = s.shadowBad) (hshadows : t.shadows = s.shadows)
    (hregs : t.regs = s.regs) (m : Master) (k : Kind) (a : Nat) : permits t m k a = permits s m k a := by
  have hdecide (r : SMap Route) : decideBy t r m k a = decideBy s r m k a := by
    unfold decideBy sessionLevel fieldR
    rw [hbadRoutes, getR_congr hregs]
  unfold permits routesPermit shadowFor
  simp only [hfuses, hroutes, hshadowBad, hshadows, hdecide]

/-- Drawing entropy changes no access. -/
theorem plainWrite_drawn {s : State} {m : Master} {a n : Nat} (k : Nat) (h : PlainWrite s m a n) : PlainWrite (drawn s k) m a n := by
  refine ⟨h.1, fun x hx => ?_⟩
  obtain ⟨hmapped, hpermits, hcell, hram, hopen⟩ := h.2 x hx
  exact ⟨hmapped, (permits_congr (s := s) (t := drawn s k) rfl rfl rfl rfl rfl rfl m .write x.1).trans hpermits, hcell, hram, hopen⟩

/-! ### A created entry -/

/-- A creation changes the table, its image and its seals alone, and of the table the entry and its parent's. -/
theorem createBranch_form (s : State) (i : Nat) (b : Branch) : ∃ r im,
    createBranch s i b = { s with branches := mput r i b, image := im, badPrivate := s.badPrivate.filter (fun x => !decide (x = .branch i)) } ∧
      ∀ k, k ≠ b.parent → mget? r k = mget? s.branches k := by
  unfold createBranch
  dsimp only
  split
  · exact ⟨s.branches, s.image, rfl, fun _ _ => rfl⟩
  · unfold chargeUse
    split
    · exact ⟨s.branches, s.image, rfl, fun _ _ => rfl⟩
    · split
      · exact ⟨s.branches, s.image, rfl, fun _ _ => rfl⟩
      · dsimp only
        split <;> exact ⟨_, _, rfl, fun k hk => mget?_mput_other _ _ _ _ hk⟩

theorem enteredBranch_of_get {s t : State} {m : Master} {parent : Nat} {label : Bytes} {key : Option Bytes}
    (h : mget? t.branches (btrIndex s) = some (commandBranch s (commandArgs s m) parent label key)) :
    EnteredBranch s t parent label key := by
  refine ⟨_, h, rfl, ?_, rfl, rfl, rfl, rfl, rfl, rfl, rfl, rfl, rfl⟩
  show (BitVec.ofNat 3 (btrKind s)).toNat = btrKind s
  have hlt : btrKind s < 2 ^ 3 := bitsOf_lt _ _ _
  rw [BitVec.toNat_ofNat, Nat.mod_eq_of_lt hlt]

/-- The entry stands in the table `u` as it was with the parent's use counted, and its image is left to be written. -/
theorem enterBranch_enters {s u : State} {m : Master} {parent op : Nat} {label : Bytes} {key : Option Bytes}
    (htrunk : u.vigil.trunk = .valid) (hworn : imageWorn u = false)
    (hkept : (commandBranch s (commandArgs s m) parent label key).expire = false) :
    ∃ t, enterBranch u op (btrIndex s) (commandBranch s (commandArgs s m) parent label key) = t ∧
      t = { u with branches := t.branches, image := t.image, btr := some (plainPending op (btrIndex s)), badPrivate := t.badPrivate } ∧
      EnteredBranch s t parent label key ∧
      ∀ k, k ≠ btrIndex s → k ≠ parent → mget? t.branches k = mget? u.branches k := by
  obtain ⟨r, im, hform, hothers⟩ := createBranch_form u (btrIndex s) (commandBranch s (commandArgs s m) parent label key)
  have henter : enterBranch u op (btrIndex s) (commandBranch s (commandArgs s m) parent label key) =
      structural (createBranch u (btrIndex s) (commandBranch s (commandArgs s m) parent label key)) (plainPending op (btrIndex s)) true := by
    unfold enterBranch
    rw [hkept]
    rfl
  have hpersist := structural_persists (s := createBranch u (btrIndex s) (commandBranch s (commandArgs s m) parent label key))
    (by rw [hform]; exact htrunk) (by rw [hform]; exact hworn) (plainPending op (btrIndex s))
  refine ⟨_, henter.trans hpersist, ?_⟩
  rw [hform]
  refine ⟨rfl, enteredBranch_of_get (mget?_mput_same _ _ _), fun k hk hp => ?_⟩
  exact (mget?_mput_other _ _ _ _ hk).trans (hothers k hp)

theorem derive_clause (s : State) (m : Master) (hidle : BtrIdle s m) (hmode : inRunOrCommission s = true)
    (hplain : PlainRead s m (btrBuf s) 32) (hworn : imageWorn s = false)
    (hcheck : createCheck s (btrIndex s) (btrParent s) (btrKind s) (memBytes s (btrBuf s) 32) false [BitVec.toNat m] = Check.ok)
    (hkept : (commandBranch s (commandArgs s m) (btrParent s) (memBytes s (btrBuf s) 32) none).expire = false) :
    Leads (.btrDerive m) s (fun t =>
      EnteredBranch s t (btrParent s) (memBytes s (btrBuf s) 32) none ∧ BtrBusy t 1 (btrIndex s) ∧
      (∀ k, k ≠ btrIndex s → k ≠ btrParent s → mget? t.branches k = mget? s.branches k) ∧
      SameRegs s t [Reg.BTR_RESULT] ∧
      t = { s with regs := t.regs, branches := t.branches, image := t.image, btr := t.btr, badPrivate := t.badPrivate }) := by
  obtain ⟨t, hentered, hform, hbranch, hothers⟩ := enterBranch_enters (s := s) (u := begun s) (m := m) (op := 1)
    (trunk_of_createCheck hcheck) hworn hkept
  have hrow : deriveCommand (begun s) (commandArgs s m) = t := by
    unfold deriveCommand
    rw [withBuf_plain hplain]
    dsimp only
    rw [createCheck_begun, commandBranch_begun, show argIndex (commandArgs s m) = btrIndex s from rfl,
      show argParent (commandArgs s m) = btrParent s from rfl, show argKind (commandArgs s m) = btrKind s from rfl,
      show (commandArgs s m).master = m from rfl, hcheck, if_neg (by decide),
      if_neg (by simp [creationWorn, show imageWorn (begun s) = false from hworn]), hentered]
  have hexec : exec (.btrDerive m) s = done t :=
    congrArg done ((btrCommand_accepted hidle hmode deriveCommand).trans hrow)
  refine leads_done hexec ?_ ⟨hbranch, ends_busy (p := plainPending 1 (btrIndex s)) ?_ ?_ ⟨rfl, rfl, rfl, rfl⟩, hothers, ?_, ?_⟩
  · rw [hform]
    exact hidle.1
  · rw [hform]
  · rw [hform]
  · rw [hform]
    exact sameRegs_begun s
  · rw [hform]
    rfl

/-! ### INSTALL_ENCAPS -/

theorem encodePoint_p384_length (p : Point) : (encodePoint p384 p).length = 97 := by
  have hbe (n v : Nat) : (be n v).length = n := by rw [be, List.length_reverse, le_length]
  cases p with
  | none => rfl
  | some xy => simp [encodePoint, hbe, show p384.len = 48 from rfl]

theorem encapsulate_length (pub rnd : Bytes) : (encapsulate pub rnd).1.length = 1665 := by
  show (slice _ 0 1568 ++ encodePoint p384 _).length = 1665
  rw [List.length_append, slice_length, encodePoint_p384_length]

theorem encapsKey_length (pub rnd label : Bytes) (kind : Nat) : (encapsKey pub rnd label kind).2.length = 1665 := by
  unfold encapsKey
  exact encapsulate_length pub rnd

theorem viaMae_free {s : State} (h : hybridReady s = true) (i : Nat) (w : Option (Nat × Nat)) (r : HybridRequest) (f : State → State) :
    viaMae s i w r f = f s := if_pos h

theorem viaMae_taken {s : State} (h : hybridReady s = false) (i : Nat) (w : Option (Nat × Nat)) (r : HybridRequest) (f : State → State) :
    viaMae s i w r f = { s with btr := some (waitingCommand i w), mae := { s.mae with request := some r } } := if_neg (by simp [h])

theorem encaps_clause (s : State) (m : Master) (peer : Bytes) (hidle : BtrIdle s m) (hmode : inRunOrCommission s = true)
    (hplain : PlainRead s m (btrBuf s) 1697) (hwrite : PlainWrite s m (btrBuf s + 32) 1665) (hworn : imageWorn s = false)
    (hcheck : createCheck s (btrIndex s) (btrParent s) (btrKind s) (memBytes s (btrBuf s) 1697) true [BitVec.toNat m] = Check.ok)
    (hkept : (commandBranch s (commandArgs s m) (btrParent s) (memBytes s (btrBuf s) 1697) (some [])).expire = false)
    (hready : entReady s = true) (hfree : HybridFree s) (hpeer : publicOk peer = true) :
    Leads (.installEncaps m peer) s (fun t =>
      let e := encapsKey (slice peer 0 1665) (drawBytes s 88) (memBytes s (btrBuf s) 1697) (btrKind s)
      EnteredBranch s t (btrParent s) (memBytes s (btrBuf s) 1697) (some e.1) ∧
      memBytes t (btrBuf s + 32) 1665 = e.2 ∧ BtrBusy t 2 (btrIndex s)) := by
  obtain ⟨hhybrid, hlane⟩ := hfree
  have htrunk := trunk_of_createCheck hcheck
  generalize hexchange : encapsKey (slice peer 0 1665) (drawBytes s 88) (memBytes s (btrBuf s) 1697) (btrKind s) = e
  have hlen : e.2.length = 1665 := by
    rw [← hexchange]
    exact encapsKey_length _ _ _ _
  have hwrite' : PlainWrite (drawn (begun s) 88) m (btrBuf s + 32) e.2.length := by
    rw [hlen]
    exact plainWrite_drawn 88 (plainWrite_setR _ (by decide) (by decide) hwrite)
  obtain ⟨w, hw, hmem, -, hwform⟩ := engineWrite_plain hwrite'
  obtain ⟨t, hentered, hform, hbranch, -⟩ := enterBranch_enters (s := s) (u := w) (m := m) (parent := btrParent s)
    (label := memBytes s (btrBuf s) 1697) (key := some e.1) (op := 2)
    (by rw [hwform]; exact htrunk) (by rw [hwform]; exact hworn) hkept
  have hput : putBuf (drawn (begun s) 88) (commandArgs s m) 32 e.2 (fun t => enterBranch t 2 (btrIndex s)
      (commandBranch s (commandArgs s m) (btrParent s) (memBytes s (btrBuf s) 1697) (some e.1))) = t := by
    unfold putBuf
    rw [show bufAddr (commandArgs s m) = btrBuf s from rfl, show (commandArgs s m).master = m from rfl, hw]
    dsimp only
    rw [if_pos rfl, hentered]
  have hrow : encapsCommand peer (begun s) (commandArgs s m) = t := by
    unfold encapsCommand
    rw [withBuf_plain hplain]
    dsimp only
    rw [createCheck_begun, show argIndex (commandArgs s m) = btrIndex s from rfl,
      show argParent (commandArgs s m) = btrParent s from rfl, show argKind (commandArgs s m) = btrKind s from rfl,
      show (commandArgs s m).master = m from rfl, hcheck, if_neg (by decide),
      if_neg (by simp [creationWorn, show imageWorn (begun s) = false from hworn]), if_neg (by simp [hpeer]),
      if_neg (by simp [entReady_begun, hready, show anyLane (begun s) = true from hlane]),
      viaMae_free ((hybridReady_begun s).trans hhybrid), show drawBytes (begun s) 88 = drawBytes s 88 from rfl, hexchange]
    exact hput
  have hexec : exec (.installEncaps m peer) s = done t :=
    congrArg done ((btrCommand_accepted hidle hmode (encapsCommand peer)).trans hrow)
  refine leads_done hexec ?_ ⟨hbranch, ?_, ends_busy (p := plainPending 2 (btrIndex s)) ?_ ?_ ⟨rfl, rfl, rfl, rfl⟩⟩
  · rw [hform, hwform]
    exact hidle.1
  · rw [← hlen, hform]
    exact hmem
  · rw [hform, hwform]
    rfl
  · rw [hform]

/-! ### INSTALL_DECAPS -/

theorem useBranch_taken (s : State) (i : Nat) : Taken s (useBranch s i) := (chargeUse_taken s i).trans (cachePath_taken _ _)

theorem decaps_checked {s : State} {m : Master} (ct : Bytes) (hplain : PlainRead s m (btrBuf s) 1697) (hworn : imageWorn s = false)
    (hcheck : createCheck s (btrIndex s) 0 (btrKind s) (memBytes s (btrBuf s) 1697) true [] = Check.ok)
    (huse : useCheck s (btrParent s) (fun k => decide (k = 3)) [27, 26, BitVec.toNat m] = Check.ok) (hlane : anyLane s = true) :
    decapsCommand ct (begun s) (commandArgs s m) =
      viaMae (begun s) (btrIndex s) none (.command 3 (commandArgs s m) ct (btrParent s)) (fun s' =>
        enterBranch (useBranch s' (btrParent s)) 3 (btrIndex s) (commandBranch s' (commandArgs s m) 0 (memBytes s (btrBuf s) 1697)
          (some (decapsKey (branchKey s' (btrParent s)) (slice ct 0 1665) (memBytes s (btrBuf s) 1697) (btrKind s))))) := by
  unfold decapsCommand
  rw [withBuf_plain hplain]
  dsimp only
  rw [createCheck_begun, useCheck_begun, show argIndex (commandArgs s m) = btrIndex s from rfl,
    show argParent (commandArgs s m) = btrParent s from rfl, show argKind (commandArgs s m) = btrKind s from rfl,
    show (commandArgs s m).master = m from rfl, hcheck, if_neg (by decide), huse, if_neg (by decide),
    if_neg (by simp [creationWorn, show imageWorn (begun s) = false from hworn]),
    if_neg (by simp [show anyLane (begun s) = true from hlane])]

theorem decaps_clause (s : State) (m : Master) (ct : Bytes) (hidle : BtrIdle s m) (hmode : inRunOrCommission s = true)
    (hplain : PlainRead s m (btrBuf s) 1697) (hworn : imageWorn s = false)
    (hcheck : createCheck s (btrIndex s) 0 (btrKind s) (memBytes s (btrBuf s) 1697) true [] = Check.ok)
    (hexpire : btrExpire s = false) (hzero : mget? s.branches 0 = none) (hfree : HybridFree s)
    (huse : useCheck s (btrParent s) (fun k => decide (k = 3)) [27, 26, BitVec.toNat m] = Check.ok) :
    Leads (.installDecaps m ct) s (fun t =>
      EnteredBranch s t 0 (memBytes s (btrBuf s) 1697)
        (some (decapsKey (branchKey s (btrParent s)) (slice ct 0 1665) (memBytes s (btrBuf s) 1697) (btrKind s))) ∧
      BtrBusy t 3 (btrIndex s)) := by
  obtain ⟨hhybrid, hlane⟩ := hfree
  have htrunk := trunk_of_createCheck hcheck
  have hkept (key : Option Bytes) : (commandBranch s (commandArgs s m) 0 (memBytes s (btrBuf s) 1697) key).expire = false := by
    show (argExpire (commandArgs s m) || ((mget? s.branches 0).map (fun b => b.expire)).getD false) = false
    rw [show argExpire (commandArgs s m) = btrExpire s from rfl, hexpire, hzero]
    rfl
  have hkey : branchKey (begun s) (btrParent s) = branchKey s (btrParent s) := keyUnder_congr rfl rfl 9 _
  obtain ⟨br, im, cells, keys, lanes, hused⟩ := useBranch_taken (begun s) (btrParent s)
  obtain ⟨t, hentered, hform, hbranch, -⟩ := enterBranch_enters (s := s) (u := useBranch (begun s) (btrParent s)) (m := m) (parent := 0)
    (op := 3) (by rw [hused]; exact htrunk) (by rw [hused]; exact hworn)
    (hkept (some (decapsKey (branchKey s (btrParent s)) (slice ct 0 1665) (memBytes s (btrBuf s) 1697) (btrKind s))))
  have hrow : decapsCommand ct (begun s) (commandArgs s m) = t := by
    rw [decaps_checked ct hplain hworn hcheck huse hlane, viaMae_free ((hybridReady_begun s).trans hhybrid), hkey, commandBranch_begun,
      hentered]
  have hexec : exec (.installDecaps m ct) s = done t :=
    congrArg done ((btrCommand_accepted hidle hmode (decapsCommand ct)).trans hrow)
  refine leads_done hexec ?_ ⟨hbranch, ends_busy (p := plainPending 3 (btrIndex s)) ?_ ?_ ⟨rfl, rfl, rfl, rfl⟩⟩
  · rw [hform, hused]
    exact hidle.1
  · rw [hform, hused]
  · rw [hform]

/-- Settles O16: with its checks passed a creation enters the branch and leaves its image to be written, and a hybrid exchange
whose engines are taken leaves its request. -/
theorem branchCreation : Obligations.BranchCreation := by
  refine ⟨derive_clause, ?_, ?_, ?_⟩
  · intro s m peer hidle hmode hplain hwrite hworn hcheck hkept hready hfree
    by_cases hpeer : publicOk peer = true
    · obtain ⟨t, hexec, hall⟩ := encaps_clause s m peer hidle hmode hplain hwrite hworn hcheck hkept hready hfree hpeer
      exact ⟨t, hexec, fun _ => hall⟩
    · obtain ⟨t, hexec, -, -⟩ := Sys2Proof.Invariants.everyCommandCompletes (.installEncaps m peer) s
      exact ⟨t, hexec, fun h => absurd h hpeer⟩
  · exact decaps_clause
  · intro s m ct hidle hmode hplain hworn hcheck huse hlane htaken
    have hrow := (decaps_checked ct hplain hworn hcheck huse hlane).trans
      (viaMae_taken ((hybridReady_begun s).trans htaken) (btrIndex s) none _ _)
    have hexec : exec (.installDecaps m ct) s = done _ :=
      congrArg done ((btrCommand_accepted hidle hmode (decapsCommand ct)).trans hrow)
    exact leads_done hexec hidle.1 ⟨rfl, rfl, ⟨_, rfl, rfl, rfl⟩, begun_result s, sameRegs_begun s, rfl⟩

end Sys2Proof.BranchCreation
end

section
/-! PROOF. Epochs are closed, frozen, signed and stored; staging is verified (R190, R196, R202, R214, R275 to R277, R297). In a log
with room to spare what follows a write is the start of a wordline stripe, which is the flash part's own. -/

namespace Sys2Proof.EpochSealing

set_option Elab.async false

open Sys2Proof.Machine Sys2Proof.Frames Sys2Proof.Chains Sys2Proof.LogFrames Sys2Proof.LatticeLanes Sys2Proof.CardControl

/-! ### What follows a write in a log with room -/

/-- From `s` to `t` only the flash part changed, and of it neither the staging ring's bytes nor the number of stripes. -/
def Turned (s t : State) : Prop :=
  t = { s with flash := t.flash } ∧ t.flash.stagingBytes = s.flash.stagingBytes ∧ t.flash.stripes.length = s.flash.stripes.length

theorem Turned.refl (s : State) : Turned s s := ⟨rfl, rfl, rfl⟩

theorem Turned.trans {s t u : State} (h : Turned s t) (k : Turned t u) : Turned s u := by
  obtain ⟨hform, hbytes, hstripes⟩ := h
  obtain ⟨kform, kbytes, kstripes⟩ := k
  exact ⟨kform.trans (congrArg (fun x : State => { x with flash := u.flash }) hform :), kbytes.trans hbytes, kstripes.trans hstripes⟩

theorem foldl_turned {α : Type} {g : State → α → State} (h : ∀ t e, Turned t (g t e)) (l : List α) (s : State) : Turned s (l.foldl g s) := by
  induction l generalizing s with
  | nil => exact Turned.refl s
  | cons e r ih => exact (h s e).trans (ih (g s e))

theorem eraseSlotBlocks_turned (s : State) (k : Nat) : Turned s (eraseSlotBlocks s k) :=
  foldl_turned (g := fun t p => eraseKey t (turnBlock t k p)) (fun _ _ => ⟨rfl, rfl, rfl⟩) _ s

theorem copyForward_turned (s : State) (t : Stripe) : Turned s (copyForward s t) := by
  unfold copyForward
  split
  · refine Turned.trans ?_ (eraseSlotBlocks_turned _ _)
    exact ⟨rfl, rfl, List.length_map _⟩
  · exact Turned.refl s

theorem levelWear_turned (s : State) : Turned s (levelWear s) := by
  refine foldl_turned (fun t e => ?_) _ s
  split
  · exact copyForward_turned t _
  · exact Turned.refl t

/-- From `s` to `t` only the flash part changed; the staging ring's bytes stay, and at most one stripe is new. -/
def Begun (s t : State) : Prop :=
  t = { s with flash := t.flash } ∧ t.flash.stagingBytes = s.flash.stagingBytes ∧
    t.flash.stripes.length ≤ s.flash.stripes.length + 1

theorem beginStripe_begun (s : State) : Begun s (beginStripe s) := by
  unfold beginStripe
  split
  · exact ⟨rfl, rfl, Nat.le_succ _⟩
  · dsimp only
    generalize hu : ({ s with flash := _ } : State) = u
    obtain ⟨hform, hbytes, hstripes⟩ := levelWear_turned u
    refine ⟨hform.trans ?_, hbytes.trans ?_, ?_⟩
    · rw [← hu]
    · rw [← hu]
    · rw [hstripes, ← hu]
      simp

/-- Where no stripe is wanted back, a wordline stripe is begun in the newest stripe or in a new one. -/
theorem startProgram_due {s : State} (hdue : programDue s = true) (h : needsReclaim s = false) {u : State}
    (hu : (if needsStripe s then beginStripe s else s) = u) :
    startProgram s = if needsStripe u then u else { u with flash := { u.flash with programming := true } } := by
  have hkept : (if needsReclaim s = true then reclaimOldest s else s) = s := if_neg (by simp [h])
  unfold startProgram
  dsimp only
  rw [if_neg (by simp [hdue]), hkept, if_neg (by simp [h]), hu]

theorem startProgram_idle {s : State} (hdue : programDue s = false) : startProgram s = s := if_pos (by simp [hdue])

theorem startProgram_begun {s : State} (h : needsReclaim s = false) : Begun s (startProgram s) := by
  have hsame : Begun s s := ⟨rfl, rfl, Nat.le_succ _⟩
  cases hdue : programDue s with
  | false => rwa [startProgram_idle hdue]
  | true =>
    have hbegin : Begun s (if needsStripe s then beginStripe s else s) := by
      split
      · exact beginStripe_begun s
      · exact hsame
    rw [startProgram_due hdue h rfl]
    generalize (if needsStripe s then beginStripe s else s) = u at hbegin ⊢
    split
    · exact hbegin
    · obtain ⟨hform, hbytes, hstripes⟩ := hbegin
      refine ⟨?_, hbytes, hstripes⟩
      rw [hform]

theorem startProgram_inStripe {s : State} (h : needsReclaim s = false) (hstripe : needsStripe s = false) :
    ∃ b, startProgram s = { s with flash := { s.flash with programming := b } } := by
  cases hdue : programDue s with
  | false => exact ⟨s.flash.programming, startProgram_idle hdue⟩
  | true =>
    rw [startProgram_due hdue h (if_neg (by simp [hstripe])), if_neg (by simp [hstripe])]
    exact ⟨true, rfl⟩

theorem withStart_length (p : Nat) (l : List Stripe) : (withStart p l).length = l.length := by
  induction l generalizing p with
  | nil => rfl
  | cons t r ih => simp [withStart, ih]

theorem lockedStripes_le (s : State) : lockedStripes s ≤ s.flash.stripes.length :=
  (List.length_filter_le _ _).trans (withStart_length 0 _).le

theorem noteFull_roomy {s : State} (hstripes : s.flash.stripes.length < 477) : noteFull s = s := by
  have hlocked : ¬477 ≤ lockedStripes s := by
    have := lockedStripes_le s
    omega
  unfold noteFull
  rw [if_neg (by simp [hlocked])]

theorem noteRoom_roomy {s : State} (hfull : logFull s = false) : noteRoom s = s := if_neg (by simp [hfull])

/-- The log is not full, and the window needs no stripe back. -/
def Roomy (s : State) : Prop := logFull s = false ∧ needsReclaim s = false ∧ s.flash.stripes.length < 476

theorem needsReclaim_of_logRoom {s : State} (h : LogRoom s) : needsReclaim s = false := by
  obtain ⟨-, hstripes, hheld⟩ := h
  have hwindow : ¬485 ≤ s.flash.stripes.length := by omega
  have hlimit : ¬logLimit < heldBytes s + wordlineStripe s.flash.deadDies := by
    rw [logLimit]
    omega
  simp [needsReclaim, hwindow, hlimit]

theorem roomy_of_logRoom {s : State} (h : LogRoom s) : Roomy s := ⟨h.1, needsReclaim_of_logRoom h, h.2.1⟩

theorem noteLog_of_startProgram {s t : State} (h : startProgram s = t) (hfull : logFull t = false) (hstripes : t.flash.stripes.length < 477) :
    noteLog s = t := by
  unfold noteLog
  rw [h, noteFull_roomy hstripes, noteRoom_roomy hfull]

theorem noteLog_begun {s : State} (h : Roomy s) : Begun s (noteLog s) := by
  obtain ⟨hfull, hreclaim, hstripes⟩ := h
  have hbegun := startProgram_begun hreclaim
  obtain ⟨hform, -, hlen⟩ := id hbegun
  rwa [noteLog_of_startProgram rfl (by rw [hform]; exact hfull) (by omega)]

theorem Begun.quiet {s t : State} (h : Begun s t) (hq : Quiet s) : Quiet t := by
  rw [h.1]
  exact hq

/-! ### Lines without flights -/

theorem foldl_id {α β : Type} {g : β → α → β} {b : β} {l : List α} (h : ∀ e ∈ l, g b e = b) : l.foldl g b = b := by
  induction l with
  | nil => rfl
  | cons e r ih =>
    rw [List.foldl_cons, h e List.mem_cons_self]
    exact ih (fun x hx => h x (List.mem_cons_of_mem _ hx))

theorem releaseStored_noFlights {s : State} (h : NoFlights s) : releaseStored s = s :=
  foldl_id (fun e he => by rw [h e he]; rfl)

theorem releaseFences_noFlights {s : State} (h : NoFlights s) (epoch : Nat) (uns : Bool) : releaseFences s epoch uns = s :=
  foldl_id (fun e he => by rw [h e he]; rfl)

theorem recheckOpens_none {s : State} (h : (getLine s 0).flights = []) : recheckOpens s = s := by
  unfold recheckOpens
  rw [h]
  rfl

theorem flights_of_noFlights {s : State} (h : NoFlights s) (l : Nat) : (getLine s l).flights = [] := by
  have hmem : ∀ m : SMap Line, (∀ e ∈ m, e.2.flights = []) → (mget Line.closed m l).flights = [] := by
    intro m hm
    induction m with
    | nil => rfl
    | cons e r ih =>
      obtain ⟨k, v⟩ := e
      unfold mget mget?
      split
      · exact hm (k, v) List.mem_cons_self
      · exact ih (fun x hx => hm x (List.mem_cons_of_mem _ hx))
  exact hmem s.lne.lines h

end Sys2Proof.EpochSealing
end

section
/-! PROOF. A staging write verifies, a Manifest is stored, a rebuild ends (R214, R215, R275 to R277). -/

namespace Sys2Proof.EpochSealing

set_option Elab.async false

open Sys2Proof.Machine Sys2Proof.Frames Sys2Proof.Chains Sys2Proof.LogFrames Sys2Proof.LatticeLanes Sys2Proof.CardControl

/-! ### A write counts as stored -/

/-- A write of staging is in the log: its frames are stored, the ring's bytes have moved, and what else changed is of the log, the
Stations, the Seal unit, the ring and events; no job of the Seal unit ended. -/
def WriteStored (s t : State) (w : StagingWrite) (q : List StagingWrite) : Prop :=
  t = withEvents { s with log := t.log, stations := t.stations, su := t.su, flash := t.flash } t ∧
    t.log.frames = s.log.frames ++ w.frames ∧ t.log.staging = q ∧ t.log.raised = s.log.raised ∧ t.su.jobs = s.su.jobs ∧
    t.flash.stagingBytes = s.flash.stagingBytes + writeSize w ∧ t.flash.stripes = s.flash.stripes ∧
    t.flash.deadDies = s.flash.deadDies ∧ t.flash.wordlines = s.flash.wordlines

theorem WriteStored.quiet {s t : State} {w : StagingWrite} {q : List StagingWrite} (h : WriteStored s t w q) (hq : Quiet s) : Quiet t := by
  obtain ⟨hform, -, -, hraised, -⟩ := h
  obtain ⟨htrips, hfence, hunfenced, husb, hmark⟩ := hq
  rw [hform]
  exact ⟨htrips, hfence, hunfenced, husb, hraised.trans hmark⟩

theorem WriteStored.withSeal {s v : State} {w : StagingWrite} {q : List StagingWrite} (h : WriteStored s v w q) (u : SealUnit)
    (b : Option Nat) (hjobs : u.jobs = v.su.jobs) : WriteStored s { v with su := u, log := { v.log with base := b } } w q := by
  obtain ⟨hform, hframes, hstaging, hraised, hsame, hbytes, hstripes, hdead, hwordlines⟩ := h
  exact ⟨(congrArg (fun x : State => { x with su := u, log := { x.log with base := b } }) hform :), hframes, hstaging, hraised,
    hjobs.trans hsame, hbytes, hstripes, hdead, hwordlines⟩

theorem roomy_congr {s t : State} (hregs : getR t Reg.FLC_LOG_USE = getR s Reg.FLC_LOG_USE) (hstripes : t.flash.stripes = s.flash.stripes)
    (hdead : t.flash.deadDies = s.flash.deadDies) (hwordlines : t.flash.wordlines = s.flash.wordlines) (h : Roomy s) : Roomy t := by
  obtain ⟨hfull, hreclaim, hlen⟩ := h
  refine ⟨?_, ?_, by rwa [hstripes]⟩
  · unfold logFull bitR
    rw [hregs]
    exact hfull
  · unfold needsReclaim needsStripe heldBytes
    rw [hstripes, hdead, hwordlines]
    exact hreclaim

/-- What is stored before the fences that wait for it end: the write, and the checkpoint that it carries. -/
theorem storeWrite_form (s : State) (w : StagingWrite) (q : List StagingWrite) : ∃ t, WriteStored s t w q ∧
    storeWrite s w q = if w.manifest then manifestStoredFx (releaseStored t) s.flash.stagingBytes w.delta.length else releaseStored t := by
  have hworn : wearStaging s (writeSize w) = withEvents { s with flash := (wearStaging s (writeSize w)).flash } (wearStaging s (writeSize w)) ∧
      (wearStaging s (writeSize w)).flash.stagingBytes = s.flash.stagingBytes + writeSize w ∧
      (wearStaging s (writeSize w)).flash.stripes = s.flash.stripes ∧ (wearStaging s (writeSize w)).flash.deadDies = s.flash.deadDies ∧
      (wearStaging s (writeSize w)).flash.wordlines = s.flash.wordlines := by
    unfold wearStaging
    dsimp only
    rw [raiseIf_withEvents]
    exact ⟨rfl, rfl, rfl, rfl, rfl⟩
  unfold storeWrite
  dsimp only
  generalize wearStaging s (writeSize w) = u at hworn
  obtain ⟨hform, hbytes, hstripes, hdead, hwordlines⟩ := hworn
  have hlog : u.log = s.log := by rw [hform]; rfl
  have hsu : u.su = s.su := by rw [hform]; rfl
  generalize hv : ({ u with log := _, stations := _, su := _, flash := _ } : State) = v
  have hstored : WriteStored s v w q := by
    rw [← hv]
    refine ⟨?_, ?_, rfl, ?_, ?_, hbytes, hstripes, hdead, hwordlines⟩
    · dsimp only
      rw [hform]
      rfl
    · exact (congrArg (fun l : Log => l.frames ++ w.frames) hlog :)
    · exact (congrArg Log.raised hlog :)
    · exact (congrArg SealUnit.jobs hsu :)
  cases hc : w.ckpt with
  | none => exact ⟨v, hstored, rfl⟩
  | some c =>
    refine ⟨ckptStored v { c with at_ := s.flash.stagingBytes, size := writeSize w }, ?_, rfl⟩
    unfold ckptStored
    dsimp only
    split
    · exact hstored.withSeal _ v.log.base rfl
    split
    · exact hstored.withSeal _ _ rfl
    · exact hstored.withSeal _ v.log.base rfl

/-! ### A Manifest is stored -/

/-- From `s` to `t` stored Manifests, stored frames, the flash part and the lines stay, and so does all that a wait for another
write turns on. -/
def StoredKept (s t : State) : Prop :=
  (t.su.jobs = s.su.jobs ∧ t.su.stored = s.su.stored ∧ t.su.window = s.su.window ∧ t.log.frames = s.log.frames) ∧
    (t.flash = s.flash ∧ t.lne = s.lne) ∧ SameRegs s t (Reg.SEAL_ERR :: droppedRegs) ∧ Pends s t ∧ (Quiet s → Quiet t)

theorem StoredKept.refl (s : State) : StoredKept s s :=
  ⟨⟨rfl, rfl, rfl, rfl⟩, ⟨rfl, rfl⟩, sameRegs_refl s _, fun _ _ => id, id⟩

theorem StoredKept.trans {s t u : State} (h : StoredKept s t) (k : StoredKept t u) : StoredKept s u := by
  obtain ⟨⟨h1, h2, h3, h4⟩, ⟨h5, h6⟩, hregs, hpends, hquiet⟩ := h
  obtain ⟨⟨k1, k2, k3, k4⟩, ⟨k5, k6⟩, kregs, kpends, kquiet⟩ := k
  exact ⟨⟨k1.trans h1, k2.trans h2, k3.trans h3, k4.trans h4⟩, ⟨k5.trans h5, k6.trans h6⟩, sameRegs_trans hregs kregs,
    hpends.trans kpends, kquiet ∘ hquiet⟩

theorem raise_storedKept (s : State) (n : Nat) : StoredKept s (raise s n) := by
  have hpends := pends_raise s n
  have hquiet := (raise_logged s n).quiet
  obtain ⟨q, o, e⟩ := raise_form s n
  rw [e] at hpends hquiet ⊢
  exact ⟨⟨rfl, rfl, rfl, rfl⟩, ⟨rfl, rfl⟩, sameRegs_of_regs rfl _, hpends, hquiet⟩

theorem stageWrite_storedKept (s : State) (w : StagingWrite) : StoredKept s (stageWrite s w) :=
  ⟨⟨rfl, rfl, rfl, rfl⟩, ⟨rfl, rfl⟩, sameRegs_of_regs rfl _, pends_of_evtPend rfl, id⟩

theorem sealError_storedKept (s : State) (m : Word) : StoredKept s (orR s Reg.SEAL_ERR m) :=
  ⟨⟨rfl, rfl, rfl, rfl⟩, ⟨rfl, rfl⟩, sameRegs_setR (sameRegs_refl s _) List.mem_cons_self _, pends_of_evtPend rfl, id⟩

theorem raiseEvery_storedKept (s : State) (gap n : Nat) : StoredKept s (raiseEvery s gap n) := by
  have hlast (r : SMap DWord) : StoredKept s (raise { s with lastRaise := r } n) :=
    StoredKept.trans ⟨⟨rfl, rfl, rfl, rfl⟩, ⟨rfl, rfl⟩, sameRegs_of_regs rfl _, pends_of_evtPend rfl, id⟩
      (raise_storedKept { s with lastRaise := r } n)
  unfold raiseEvery
  split
  · split
    · exact StoredKept.refl s
    · exact hlast _
  · exact hlast _

theorem appendRecord_storedKept (s : State) (typ : Byte) (body : Bytes) : StoredKept s (appendRecord s typ body) := by
  have hcount (n : Nat) : StoredKept s (countR64 s Reg.FLC_DROPPED n) :=
    ⟨⟨rfl, rfl, rfl, rfl⟩, ⟨rfl, rfl⟩, sameRegs_mono (sameRegs_setR64 s Reg.FLC_DROPPED _) (by decide), pends_of_evtPend rfl, id⟩
  unfold appendRecord
  split
  · exact (hcount _).trans (raiseEvery_storedKept _ _ _)
  · exact stageWrite_storedKept s _

theorem checkpoint_storedKept (s : State) (epoch upTo : Nat) (header : Bytes) : StoredKept s (checkpoint s epoch upTo header) := by
  unfold checkpoint
  split <;> exact stageWrite_storedKept s _

theorem checkpointDue_storedKept (s : State) (epoch upTo : Nat) (header : Bytes) : StoredKept s (checkpointDue s epoch upTo header) := by
  have hpoint := checkpoint_storedKept s epoch upTo header
  unfold checkpointDue
  split
  · exact (hpoint.trans (sealError_storedKept _ _)).trans (raise_storedKept _ _)
  split
  · exact hpoint
  · exact StoredKept.refl s

theorem counted_storedKept (s : State) (n : Nat) (m : SMap Station) :
    StoredKept s { s with su := { s.su with sinceSnap := n }, stations := m } :=
  ⟨⟨rfl, rfl, rfl, rfl⟩, ⟨rfl, rfl⟩, sameRegs_of_regs rfl _, pends_of_evtPend rfl, id⟩

theorem stationSnapshot_storedKept (s : State) : StoredKept s (stationSnapshot s) := by
  have hcount := counted_storedKept s 0 (s.stations.map (fun e => (e.1, { e.2 with moved := false })))
  unfold stationSnapshot
  dsimp only
  generalize ({ s with su := _, stations := _ } : State) = u at hcount ⊢
  split
  · exact hcount
  · exact hcount.trans (appendRecord_storedKept u _ _)

theorem snapshotDue_storedKept (s : State) : StoredKept s (snapshotDue s) := by
  unfold snapshotDue
  split
  · split
    · exact stationSnapshot_storedKept s
    · exact counted_storedKept s _ s.stations
  · exact StoredKept.refl s

/-- The first job's Manifest stands in the window, its tree is the stored one. -/
def windowed (s : State) (j : SealJob) (r : List SealJob) (o n : Nat) (waiting : List Unsigned) : State :=
  { s with su := { s.su with
      jobs := r, window := ({ epoch := j.epoch.number, header := j.header, leaves := j.leaves } :: s.su.window).take 5,
      stored := j.leaves, storedRoot := slice j.header 48 32, unsigned := s.su.unsigned ++ waiting,
      deltas := s.su.deltas ++ [{ serial := j.serial, leaves := j.epoch.changed, at_ := o, size := n, lost := false }] } }

theorem moveLast_form (s : State) (epoch : Nat) : ∃ tail,
    moveLast s epoch = { setR64 s Reg.SEAL_LAST (BitVec.ofNat 64 epoch) with tail := tail } := by
  unfold moveLast
  dsimp only
  split
  · exact ⟨_, rfl⟩
  · exact ⟨s.tail, rfl⟩

theorem manifestStoredFx_form {s : State} {j : SealJob} {r : List SealJob} (hjobs : s.su.jobs = j :: r) (o n : Nat) : ∃ waiting uns,
    manifestStoredFx s o n = recheckOpens (snapshotDue (checkpointDue (releaseFences
      (raise (moveLast (windowed s j r o n waiting) j.epoch.number) 272) j.epoch.number uns) j.epoch.number j.serial j.header)) := by
  unfold manifestStoredFx
  rw [hjobs]
  exact ⟨_, _, rfl⟩

/-- What step 7 of R196 leaves: the job is the window's newest tree, and SEAL_LAST names its epoch. -/
theorem manifestStoredFx_stores {s : State} {j : SealJob} {r : List SealJob} (hjobs : s.su.jobs = j :: r) (hflights : NoFlights s)
    (o n : Nat) : ∃ t, manifestStoredFx s o n = t ∧
      getR64 t Reg.SEAL_LAST = BitVec.ofNat 64 j.epoch.number ∧ isPending t 272 = true ∧ t.su.jobs = r ∧ t.su.stored = j.leaves ∧
      t.su.window.head?.map (fun x => x.epoch) = some j.epoch.number ∧ t.log.frames = s.log.frames ∧ t.flash = s.flash ∧
      getR t Reg.FLC_LOG_USE = getR s Reg.FLC_LOG_USE ∧ (Quiet s → Quiet t) := by
  obtain ⟨waiting, uns, hform⟩ := manifestStoredFx_form hjobs o n
  rw [hform]
  refine ⟨_, rfl, ?_⟩
  obtain ⟨tail, hlast⟩ := moveLast_form (windowed s j r o n waiting) j.epoch.number
  rw [hlast]
  generalize hu : ({ setR64 (windowed s j r o n waiting) Reg.SEAL_LAST (BitVec.ofNat 64 j.epoch.number) with tail := tail } : State) = u
  have hstart : u.su = (windowed s j r o n waiting).su ∧ u.log = s.log ∧ u.flash = s.flash ∧ u.lne = s.lne ∧
      getR64 u Reg.SEAL_LAST = BitVec.ofNat 64 j.epoch.number ∧ getR u Reg.FLC_LOG_USE = getR s Reg.FLC_LOG_USE ∧ (Quiet s → Quiet u) := by
    rw [← hu]
    refine ⟨rfl, rfl, rfl, rfl, getR64_setR64 (windowed s j r o n waiting) _ _, ?_, id⟩
    exact sameRegs_setR64 (windowed s j r o n waiting) Reg.SEAL_LAST _ _ (by decide)
  obtain ⟨hsu, hlog, hflash, hlne, hepoch, huse, hquiet⟩ := hstart
  have hraised := raise_storedKept u 272
  have hnone : NoFlights (raise u 272) := by
    intro e he
    rw [hraised.2.1.2, hlne] at he
    exact hflights e he
  rw [releaseFences_noFlights hnone]
  have hkept := (hraised.trans (checkpointDue_storedKept _ j.epoch.number j.serial j.header)).trans (snapshotDue_storedKept _)
  have hpends : Pends (raise u 272) (snapshotDue (checkpointDue (raise u 272) j.epoch.number j.serial j.header)) :=
    ((checkpointDue_storedKept _ j.epoch.number j.serial j.header).trans (snapshotDue_storedKept _)).2.2.2.1
  have hpending := hpends 272 (by decide) (isPending_raise_same u (by decide))
  generalize snapshotDue (checkpointDue (raise u 272) j.epoch.number j.serial j.header) = t at hkept hpending ⊢
  obtain ⟨⟨kjobs, kstored, kwindow, kframes⟩, ⟨kflash, klne⟩, kregs, -, kquiet⟩ := hkept
  have hopen : (getLine t 0).flights = [] := flights_of_noFlights (s := t) (fun e he => by
    rw [klne, hlne] at he
    exact hflights e he) 0
  rw [recheckOpens_none hopen]
  refine ⟨?_, hpending, ?_, ?_, ?_, ?_, kflash.trans hflash, ?_, kquiet ∘ hquiet⟩
  · rw [← hepoch, getR64, getR64, kregs _ (by decide), kregs _ (by decide)]
  · rw [kjobs, hsu]
    rfl
  · rw [kstored, hsu]
    rfl
  · rw [kwindow, hsu]
    rfl
  · rw [kframes, hlog]
  · rw [kregs _ (by decide), huse]

/-! ### Verified staging writes -/

theorem verifyStaging_room {s : State} {w : StagingWrite} {q : List StagingWrite} (h : s.log.staging = w :: q)
    (hroom : ringRoom s (writeSize w) = true) : verifyStaging s = storeWrite s w q := by
  unfold verifyStaging
  rw [h]
  dsimp only
  rw [if_pos hroom]

theorem verifyStaging_waits {s : State} {w : StagingWrite} {q : List StagingWrite} (h : s.log.staging = w :: q)
    (hroom : ringRoom s (writeSize w) = false) : verifyStaging s = s := by
  unfold verifyStaging
  rw [h]
  dsimp only
  rw [if_neg (by simp [hroom])]

theorem WriteStored.noFlights {s t : State} {w : StagingWrite} {q : List StagingWrite} (h : WriteStored s t w q) (hflights : NoFlights s) :
    NoFlights t := by
  intro e he
  rw [h.1] at he
  exact hflights e he

theorem WriteStored.roomy {s t : State} {w : StagingWrite} {q : List StagingWrite} (h : WriteStored s t w q) (hroom : Roomy s) : Roomy t := by
  obtain ⟨hform, -, -, -, -, -, hstripes, hdead, hwordlines⟩ := h
  refine roomy_congr (getR_congr ?_ _) hstripes hdead hwordlines hroom
  rw [hform]
  rfl

theorem staging_verified (s : State) (w : StagingWrite) (q : List StagingWrite) (hq : Quiet s) (hmain : mainPower s = true)
    (hstaging : s.log.staging = w :: q) (hkind : w.manifest = false) (hroom : ringRoom s (writeSize w) = true)
    (hflights : NoFlights s) (hlog : LogRoom s) : Leads (.stagingWriteVerified true) s (fun t =>
      t.log.frames = s.log.frames ++ w.frames ∧ t.log.staging = q ∧ t.su.jobs = s.su.jobs ∧
      t.flash.stagingBytes = s.flash.stagingBytes + writeSize w) := by
  obtain ⟨t, hstored, hstore⟩ := storeWrite_form s w q
  rw [if_neg (by simp [hkind]), releaseStored_noFlights (hstored.noFlights hflights)] at hstore
  have hexec : exec (.stagingWriteVerified true) s = done (noteLog t) := by
    show execStagingWriteVerified true s = _
    rw [execStagingWriteVerified, if_neg (by simp [hmain]), hstaging]
    dsimp only
    rw [if_pos rfl, verifyStaging_room hstaging hroom, hstore]
  have hnote := noteLog_begun (hstored.roomy (roomy_of_logRoom hlog))
  obtain ⟨hform, hbytes, -⟩ := id hnote
  obtain ⟨-, hframes, hrest, -, hjobs, hmoved, -⟩ := id hstored
  refine leads_done hexec (hnote.quiet (hstored.quiet hq)) ⟨?_, ?_, ?_, hbytes.trans hmoved⟩
  · rw [hform]
    exact hframes
  · rw [hform]
    exact hrest
  · rw [hform]
    exact hjobs

theorem staging_worn (s : State) (w : StagingWrite) (q : List StagingWrite) (hq : Quiet s) (hmain : mainPower s = true)
    (hstaging : s.log.staging = w :: q) (hroom : ringRoom s (writeSize w) = true) : Leads (.stagingWriteVerified false) s (fun t =>
      t.log = s.log ∧ t.flash.stagingBytes = s.flash.stagingBytes + writeSize w ∧ t = withEvents { s with flash := t.flash } t) := by
  have hexec : exec (.stagingWriteVerified false) s = done (wearStaging s (writeSize w)) := by
    show execStagingWriteVerified false s = _
    rw [execStagingWriteVerified, if_neg (by simp [hmain]), hstaging]
    dsimp only
    rw [if_neg (by decide), if_pos hroom]
  have hworn : (wearStaging s (writeSize w)).log = s.log ∧
      (wearStaging s (writeSize w)).flash.stagingBytes = s.flash.stagingBytes + writeSize w ∧
      wearStaging s (writeSize w) = withEvents { s with flash := (wearStaging s (writeSize w)).flash } (wearStaging s (writeSize w)) := by
    unfold wearStaging
    dsimp only
    rw [raiseIf_withEvents]
    exact ⟨rfl, rfl, rfl⟩
  refine leads_done hexec ?_ hworn
  rw [hworn.2.2]
  exact hq

theorem staging_waits (s : State) (w : StagingWrite) (q : List StagingWrite) (ok : Bool) (hq : Quiet s) (hmain : mainPower s = true)
    (hstaging : s.log.staging = w :: q) (hroom : ringRoom s (writeSize w) = false) (hlog : LogRoom s) :
    Leads (.stagingWriteVerified ok) s (fun t =>
      t.log = s.log ∧ t.flash.stagingBytes = s.flash.stagingBytes ∧ t.su = s.su) := by
  have hexec : exec (.stagingWriteVerified ok) s = done (if ok then noteLog s else s) := by
    show execStagingWriteVerified ok s = _
    rw [execStagingWriteVerified, if_neg (by simp [hmain]), hstaging]
    dsimp only
    rw [verifyStaging_waits hstaging hroom, if_neg (c := ringRoom s (writeSize w) = true) (by simp [hroom])]
  have hbegun : Begun s (if ok then noteLog s else s) := by
    split
    · exact noteLog_begun (roomy_of_logRoom hlog)
    · exact ⟨rfl, rfl, Nat.le_succ _⟩
  generalize (if ok then noteLog s else s) = t at hexec hbegun
  obtain ⟨hform, hbytes, -⟩ := id hbegun
  refine leads_done hexec (hbegun.quiet hq) ⟨?_, hbytes, ?_⟩
  · rw [hform]
  · rw [hform]

theorem modLastStripe_length (l : List Stripe) (f : Stripe → Stripe) : (modLastStripe l f).length = l.length := by
  unfold modLastStripe
  split
  · next t h =>
    rw [List.length_append, List.length_dropLast, List.length_singleton]
    have : l ≠ [] := by
      rintro rfl
      simp at h
    have := List.length_pos_iff.mpr this
    omega
  · rfl

theorem wordline_programmed (s : State) (hq : Quiet s) (hmain : mainPower s = true) (hprog : s.flash.programming = true) (hlog : LogRoom s)
    (hreclaim : needsReclaim (programStripe s) = false) (hsome : s.flash.stripes ≠ []) (hwordlines : s.flash.wordlines < 767) :
    Leads (.wordlineStripeProgrammed true) s (fun t =>
      t.flash.wordlines = s.flash.wordlines + 1 ∧ t.flash.stripes.length = s.flash.stripes.length ∧
      t.flash.staged = (release s (s.flash.carry + wordlineStripe s.flash.deadDies) s.flash.staged
        (((s.flash.stripes.getLast?).map (fun x => x.last)).getD 0)).1 ∧
      t.log = s.log ∧ t = { s with flash := t.flash }) := by
  obtain ⟨hfull, hlen, -⟩ := hlog
  have hexec : exec (.wordlineStripeProgrammed true) s = done (noteLog (programStripe s)) := by
    show execWordlineStripeProgrammed true s = _
    rw [execWordlineStripeProgrammed, if_pos (by simp [hmain, hprog]), if_pos rfl]
  have hlength : (programStripe s).flash.stripes.length = s.flash.stripes.length := modLastStripe_length _ _
  have hform : programStripe s = { s with flash := (programStripe s).flash } := rfl
  have hcount : (programStripe s).flash.wordlines = s.flash.wordlines + 1 := rfl
  have hstaged : (programStripe s).flash.staged = (release s (s.flash.carry + wordlineStripe s.flash.deadDies) s.flash.staged
        (((s.flash.stripes.getLast?).map (fun x => x.last)).getD 0)).1 := rfl
  generalize programStripe s = u at hexec hlength hform hcount hstaged hreclaim
  have hstripe : needsStripe u = false := by
    have hpos := List.length_pos_iff.mpr hsome
    have hne : u.flash.stripes ≠ [] := List.length_pos_iff.mp (hlength ▸ hpos)
    have hcountLt : ¬768 ≤ u.flash.wordlines := by omega
    simp [needsStripe, hne, hcountLt]
  obtain ⟨b, hstart⟩ := startProgram_inStripe hreclaim hstripe
  have hfullU : logFull u = false := by
    rw [hform]
    exact hfull
  have hnote := noteLog_of_startProgram hstart hfullU (show u.flash.stripes.length < 477 by omega)
  rw [hnote] at hexec
  refine leads_done hexec ?_ ⟨hcount, hlength, hstaged, ?_, ?_⟩
  · rw [hform]
    exact hq
  · rw [hform]
  · rw [hform]

theorem manifest_stored (s : State) (j : SealJob) (r : List SealJob) (w : StagingWrite) (q : List StagingWrite) (hq : Quiet s)
    (hmain : mainPower s = true) (hjobs : s.su.jobs = j :: r) (hstaging : s.log.staging = w :: q) (hkind : w.manifest = true)
    (hroom : ringRoom s (writeSize w) = true) (hflights : NoFlights s) (hlog : LogRoom s) : Leads .manifestStored s (fun t =>
      getR64 t Reg.SEAL_LAST = BitVec.ofNat 64 j.epoch.number ∧ isPending t 272 = true ∧ t.su.jobs = r ∧
      t.su.stored = j.leaves ∧ t.su.window.head?.map (fun x => x.epoch) = some j.epoch.number ∧
      t.log.frames = s.log.frames ++ w.frames) := by
  obtain ⟨u, hstored, hstore⟩ := storeWrite_form s w q
  have hflightsU := hstored.noFlights hflights
  rw [if_pos hkind, releaseStored_noFlights hflightsU] at hstore
  obtain ⟨-, hframes, -, -, hjobsU, -⟩ := id hstored
  obtain ⟨v, hfx, hlast, hpending, hrest, hleaves, hwindow, hframesV, hflash, huse, hquiet⟩ :=
    manifestStoredFx_stores (hjobsU.trans hjobs) hflightsU s.flash.stagingBytes w.delta.length
  have hfirst : writesToManifest s = 1 := by
    unfold writesToManifest
    rw [hstaging, List.findIdx?_cons, hkind]
    rfl
  have hexec : exec .manifestStored s = done (noteLog v) := by
    show execManifestStored s = _
    rw [execManifestStored, if_pos hmain, hfirst, verifyN, verifyN, verifyStaging_room hstaging hroom, hstore, hfx]
  have hroomyV : Roomy v := by
    refine roomy_congr huse ?_ ?_ ?_ (hstored.roomy (roomy_of_logRoom hlog)) <;> rw [hflash]
  have hnote := noteLog_begun hroomyV
  have hform := hnote.1
  refine leads_done hexec (hnote.quiet (hquiet (hstored.quiet hq))) ⟨?_, ?_, ?_, ?_, ?_, ?_⟩ <;> rw [hform]
  · exact hlast
  · exact hpending
  · exact hrest
  · exact hleaves
  · exact hwindow
  · exact hframesV.trans hframes

end Sys2Proof.EpochSealing
end

section
/-! PROOF. An epoch closes, is frozen and signed; the tree is rebuilt (R190, R196, R202, R206, R214, R215, R268). -/

namespace Sys2Proof.EpochSealing

set_option Elab.async false

open Sys2Proof.Machine Sys2Proof.Frames Sys2Proof.Chains Sys2Proof.LogFrames Sys2Proof.LatticeLanes Sys2Proof.CardControl

/-! ### The rebuild -/

theorem replay_tree (m : SMap Leaf) (l : List SealJob) : (replay m l).2 = l.foldl (fun m j => overlay m j.epoch.changed) m := by
  induction l generalizing m with
  | nil => rfl
  | cons j r ih => exact ih _

theorem rebuild_accepted (s : State) (hq : Quiet s) (hmain : mainPower s = true) (hon : s.su.rebuilding = true)
    (hroot : s.su.storedRoot = lineRoot s.su.stored) (hlists : privateBad s .deltaLists = false) (hopens : (getLine s 0).flights = []) :
    Leads .treeRebuildDone s (fun t =>
      t.su.rebuilding = false ∧ t.su.treeReset = s.su.treeReset ∧
      t.su.leaves = overlay (s.su.jobs.foldl (fun m j => overlay m j.epoch.changed) s.su.stored)
        ((s.su.open_.map (fun e => e.changed)).getD []) ∧
      SameRegs s t [Reg.SEAL_STATUS] ∧ t = { s with regs := t.regs, su := t.su }) := by
  have haccept : acceptRebuild s = { setR s Reg.SEAL_STATUS 8 with su := { s.su with
      rebuilding := false, jobs := (replay s.su.stored s.su.jobs).1, leaves := overlay (replay s.su.stored s.su.jobs).2 (openChanged s) } } :=
    recheckOpens_none (s := { setR s Reg.SEAL_STATUS 8 with su := _ }) hopens
  have hexec : exec .treeRebuildDone s = done (acceptRebuild s) := by
    show done _ = _
    rw [if_pos hmain, finishRebuild, if_neg (by simp [hon]), if_neg (by simp [hlists]), if_pos (.inr hroot)]
  rw [haccept] at hexec
  have hregs : SameRegs s (setR s Reg.SEAL_STATUS 8) [Reg.SEAL_STATUS] :=
    sameRegs_setR (sameRegs_refl s _) (List.mem_singleton.mpr rfl) _
  refine leads_done hexec hq ⟨rfl, rfl, ?_, hregs, rfl⟩
  exact congrArg (overlay · (openChanged s)) (replay_tree _ _)

/-- The tree restarts with an empty window. -/
theorem restartTree_restarts (s : State) (hopens : (getLine s 0).flights = []) : ∃ u, restartTree s = u ∧
    u.su.rebuilding = false ∧ u.su.treeReset = true ∧ u.su.window = [] ∧ u.su.stored = [] ∧ isPending u 274 = true ∧
      bitR u Reg.SEAL_ERR 1 = true ∧ (Quiet s → Quiet u) := by
  have hpending := isPending_raise_same (orR s Reg.SEAL_ERR 2) (n := 274) (by decide)
  have hraised := raise_storedKept (orR s Reg.SEAL_ERR 2) 274
  obtain ⟨-, ⟨-, hlne⟩, -, -, hquiet⟩ := hraised
  have herr : getR (raise (orR s Reg.SEAL_ERR 2) 274) Reg.SEAL_ERR = getR s Reg.SEAL_ERR ||| 2 :=
    (getR_congr (raise_regs _ _) _).trans (getR_orR _ _ _)
  unfold restartTree
  dsimp only
  generalize raise (orR s Reg.SEAL_ERR 2) 274 = v at hpending hlne hquiet herr ⊢
  have hopensV : (getLine v 0).flights = [] := by
    rw [getLine, hlne]
    exact hopens
  generalize hu : ({ v with su := _ } : State) = u
  have hopensU : (getLine u 0).flights = [] := by
    rw [← hu]
    exact hopensV
  refine ⟨u, recheckOpens_none hopensU, ?_⟩
  rw [← hu]
  refine ⟨rfl, rfl, rfl, rfl, hpending, ?_, hquiet⟩
  show bit (getR v Reg.SEAL_ERR) 1 = true
  rw [herr]
  simp [bit]

theorem rebuild_restarts (s : State) (hq : Quiet s) (hmain : mainPower s = true) (hon : s.su.rebuilding = true)
    (hsome : s.su.storedRoot ≠ []) (hroot : s.su.storedRoot ≠ lineRoot s.su.stored) (hlists : privateBad s .deltaLists = false)
    (hopens : (getLine s 0).flights = []) : Leads .treeRebuildDone s (fun t =>
      t.su.rebuilding = false ∧ t.su.treeReset = true ∧ t.su.window = [] ∧ t.su.stored = [] ∧ isPending t 274 = true ∧
      bitR t Reg.SEAL_ERR 1 = true) := by
  obtain ⟨u, hu, h1, h2, h3, h4, h5, h6, hquiet⟩ := restartTree_restarts s hopens
  have hexec : exec .treeRebuildDone s = done u := by
    show done _ = _
    rw [if_pos hmain, finishRebuild, if_neg (by simp [hon]), if_neg (by simp [hlists]), if_neg (by simp [hsome, hroot]), hu]
  exact leads_done hexec (hquiet hq) ⟨h1, h2, h3, h4, h5, h6⟩

theorem station_stale (s : State) (n : BitVec 12) (st : Station) (hst : mget? s.stations n.toNat = some st) (hrole : isTerminus s = true)
    (henrolled : st.state = .enrolled) (hfresh : st.stale = false) (hlate : st.lastRelay.toNat + 6000000000 ≤ s.ttc.toNat) :
    Leads (.stationStale n) s (fun t =>
      mget? t.stations n.toNat = some { st with stale := true } ∧
      (∀ k, k ≠ n.toNat → mget? t.stations k = mget? s.stations k) ∧ Raises s t [298] ∧
      t = withEvents { s with stations := t.stations } t) := by
  have hstale : stationStale s st = true := by
    rw [stationStale, henrolled, second]
    simpa using hlate
  have hexec : exec (.stationStale n) s = .next (raise { s with stations := mput s.stations n.toNat { st with stale := true } } 298) := by
    show execStationStale n s = _
    rw [execStationStale, hst]
    dsimp only
    rw [if_pos (by simp [hrole, hstale, hfresh])]
  have hraises : Raises s (raise { s with stations := mput s.stations n.toNat { st with stale := true } } 298) [298] :=
    raises_raise (raises_of_same (u := { s with stations := mput s.stations n.toNat { st with stale := true } }) (raises_refl s) rfl rfl) 298
  obtain ⟨p, o, hform⟩ := raise_form { s with stations := mput s.stations n.toNat { st with stale := true } } 298
  rw [hform] at hexec hraises
  exact leads_next hexec ⟨mget?_mput_same _ _ _, fun k hk => mget?_mput_other _ _ _ _ hk, hraises, rfl⟩

theorem rebuildAndStaging : Sys2Proof.Claims.RebuildAndStaging :=
  ⟨rebuild_accepted, rebuild_restarts, station_stale, staging_verified, staging_worn, staging_waits, wordline_programmed⟩

/-! ### The close of an epoch -/

theorem epoch_closed (s : State) (e : Epoch) (hq : Quiet s) (hopen : s.su.open_ = some e) (hend : epochEnd s e.number ≤ s.ttc.toNat)
    (hpast : tracksPast s = true) (hahead : s.su.ahead = []) : Leads .epochClose s (fun t =>
      (∃ j, t.su.jobs = s.su.jobs ++ [j] ∧ j.epoch = e ∧ j.ttcEnd = BitVec.ofNat 64 (epochEnd s e.number) ∧
        j.phase = .freezing ∧ j.leaves = s.su.leaves ∧ j.condemned = false) ∧
      (∃ n, t.su.open_ = some n ∧ n.number = e.number + 1 ∧ n.ttcStart = BitVec.ofNat 64 (epochEnd s e.number) ∧
        n.restart = false ∧ n.consists = 0 ∧ n.changed = []) ∧
      t.su.leaves = s.su.leaves ∧ SameRegs s t [Reg.SEAL_ERR] ∧
      t = withEvents { s with regs := t.regs, su := t.su } t) := by
  have hreached : boundaryReached s = true := by
    unfold boundaryReached
    rw [hopen]
    exact decide_eq_true hend
  obtain ⟨u, hu, hform, hjob, hnext, hleaves, haheadU⟩ : ∃ u, 
      postAhead (openEpochAt (closeEpoch s (BitVec.ofNat 64 (epochEnd s e.number)) 0 false) (e.number + 1)
        (BitVec.ofNat 64 (epochEnd s e.number)) false) = u ∧ u = { s with su := u.su } ∧
      (∃ j, u.su.jobs = s.su.jobs ++ [j] ∧ j.epoch = e ∧ j.ttcEnd = BitVec.ofNat 64 (epochEnd s e.number) ∧
        j.phase = .freezing ∧ j.leaves = s.su.leaves ∧ j.condemned = false) ∧
      (∃ n, u.su.open_ = some n ∧ n.number = e.number + 1 ∧ n.ttcStart = BitVec.ofNat 64 (epochEnd s e.number) ∧
        n.restart = false ∧ n.consists = 0 ∧ n.changed = []) ∧ u.su.leaves = s.su.leaves ∧ u.su.ahead = [] := by
    refine ⟨_, rfl, ?_⟩
    unfold closeEpoch postAhead
    rw [hopen]
    dsimp only [openEpochAt]
    rw [hahead]
    exact ⟨rfl, ⟨_, rfl, rfl, rfl, rfl, rfl, rfl⟩, ⟨_, rfl, rfl, rfl, rfl, rfl, rfl⟩, rfl, rfl⟩
  have hexec : exec .epochClose s = done (noteLate u e.number) := by
    show done _ = _
    rw [if_pos (by simp [hreached, hpast]), closeAtBoundary, hopen]
    dsimp only
    rw [hu]
  have hlate : noteLate u e.number = withEvents { u with regs := (noteLate u e.number).regs } (noteLate u e.number) ∧
      SameRegs u (noteLate u e.number) [Reg.SEAL_ERR] := by
    unfold noteLate
    split
    · obtain ⟨p, o, hraise⟩ := raise_form (orR u Reg.SEAL_ERR 1) 273
      rw [hraise]
      exact ⟨rfl, sameRegs_setR (sameRegs_refl u _) (List.mem_singleton.mpr rfl) _⟩
    · exact ⟨rfl, sameRegs_refl u _⟩
  generalize noteLate u e.number = t at hexec hlate
  obtain ⟨hevents, hregs⟩ := hlate
  have hsu : t.su = u.su := by
    rw [hevents]
    rfl
  refine leads_done hexec ?_ ⟨?_, ?_, ?_, ?_, ?_⟩
  · rw [hevents, hform]
    exact hq
  · rw [hsu]
    exact hjob
  · rw [hsu]
    exact hnext
  · rw [hsu]
    exact hleaves
  · rw [hform] at hregs
    exact hregs
  · rw [hsu]
    exact hevents.trans (congrArg (fun x : State => withEvents { x with regs := t.regs } t) hform :)

/-! ### The freeze -/

/-- A snapshot of the node banks may cost the oldest tree of the window, with event 277 (R194). -/
theorem makeSnapshot_form (s : State) (j : SealJob) : ∃ w, 
    makeSnapshot s j = withEvents { s with regs := (makeSnapshot s j).regs, su := { s.su with window := w } } (makeSnapshot s j) ∧
      SameRegs s (makeSnapshot s j) [Reg.SEAL_ERR] := by
  have hsame : s = withEvents { s with regs := s.regs, su := { s.su with window := s.su.window } } s := rfl
  unfold makeSnapshot
  split
  · exact ⟨_, hsame, sameRegs_refl s _⟩
  split
  · unfold dropTree
    split
    · exact ⟨_, hsame, sameRegs_refl s _⟩
    · obtain ⟨p, o, h⟩ := raise_form (orR { s with su := { s.su with window := s.su.window.dropLast } } Reg.SEAL_ERR 0x10) 277
      rw [h]
      refine ⟨_, rfl, ?_⟩
      exact sameRegs_setR (sameRegs_refl s _) (List.mem_singleton.mpr rfl) _
  · exact ⟨_, hsame, sameRegs_refl s _⟩

theorem signBacklog_none {s : State} (h : s.su.unsigned = []) : signBacklog s = s := by
  unfold signBacklog
  split
  · rfl
  · rw [h]
    rfl

theorem root_frozen (s : State) (j : SealJob) (r : List SealJob) (hq : Quiet s) (hmain : mainPower s = true)
    (hjobs : s.su.jobs = j :: r) (hphase : j.phase = .freezing) (hrebuilt : s.su.rebuilding = false)
    (htree : privateBad s .treeStore = false) (hsigns : refusedAtFreeze s j = false) (hunsigned : s.su.unsigned = []) :
    Leads .rootFrozen s (fun t =>
      (∃ k, t.su.jobs = k :: r ∧ k.header = manifestHeader s j false ∧ k.phase = .signing ∧ k.signature = [] ∧
        k.epoch = j.epoch ∧ k.leaves = j.leaves) ∧
      t.su.prev = sha3_256 (manifestHeader s j false) ∧ t.log = s.log ∧ SameRegs s t [Reg.SEAL_ERR]) := by
  obtain ⟨w, hform, hregs⟩ := makeSnapshot_form s j
  have hfreeze : freeze s = (
      let u := makeSnapshot s j
      let uns := refusedAtFreeze u j
      let h := manifestHeader u j uns
      let p := plantHeader u j uns h
      let u := if j.condemned || !manifestKeyOk u || !anyLane u then noteUnsigned u else u
      { u with stations := if p.isEmpty then u.stations else dropMarks u.stations j.epoch.number, su := { u.su with
          jobs := { j with header := h, plant := p, phase := .signing, signature := if uns then zeros 1280 else [],
                           plantSig := if uns then zeros 1280 else [] } :: r,
          prev := sha3_256 h, plantPrev := if p.isEmpty then u.su.plantPrev else sha3_256 p, treeReset := false } }) := by
    unfold freeze
    rw [hjobs]
    dsimp only
    rw [if_neg (by simp [hphase])]
  generalize makeSnapshot s j = u at hform hregs hfreeze
  have hrefused : refusedAtFreeze u j = false := by
    rw [hform]
    exact hsigns
  have hkey : (j.condemned || !manifestKeyOk u || !anyLane u) = false := by
    unfold refusedAtFreeze at hrefused
    simp only [Bool.or_eq_false_iff] at hrefused ⊢
    obtain ⟨⟨⟨hcondemned, -⟩, hkeyOk⟩, hlane⟩ := hrefused
    exact ⟨⟨hcondemned, hkeyOk⟩, hlane⟩
  have hheader : manifestHeader u j false = manifestHeader s j false := by
    have hfull : logFull u = logFull s := by
      unfold logFull bitR
      rw [hregs _ (by decide)]
    unfold manifestHeader
    rw [hfull, hform]
    rfl
  have hlog : u.log = s.log := by
    rw [hform]
    rfl
  have hquiet : Quiet u := by
    rw [hform]
    exact hq
  have hunsignedU : u.su.unsigned = [] := by
    rw [hform]
    exact hunsigned
  dsimp only at hfreeze
  rw [hrefused, hkey, hheader] at hfreeze
  generalize plantHeader u j false (manifestHeader s j false) = p at hfreeze
  have hno {α : Type} (a b : α) : (if (false : Bool) = true then a else b) = b := if_neg Bool.false_ne_true
  rw [hno, hno] at hfreeze
  have hhand : handOver (freeze s) = freeze s := by
    rw [hfreeze]
    unfold handOver
    dsimp only
    rw [if_pos (.inr rfl)]
  have hexec : exec .rootFrozen s = done (freeze s) := by
    show done _ = _
    rw [if_pos hmain, rootFrozen, hjobs]
    dsimp only
    rw [if_neg (by simp [hphase, hrebuilt]), if_neg (by simp [htree]), hhand, signBacklog_none (s := freeze s) (by rw [hfreeze]; exact hunsignedU)]
  rw [hfreeze] at hexec
  exact leads_done hexec hquiet ⟨⟨_, rfl, rfl, rfl, rfl, rfl, rfl⟩, rfl, hlog, hregs⟩

/-! ### The signature -/

/-- The first job's signature goes to the log writer with the Manifest. -/
theorem handOver_stages {s : State} {j : SealJob} {r : List SealJob} (hjobs : s.su.jobs = j :: r) (hphase : j.phase = .signing)
    (hsigned : j.signature.isEmpty = false) (hplant : j.plant = []) : ∃ t, handOver s = t ∧
      t.log.staging = s.log.staging ++ [{ frames := framesOf s 0x01 (j.header ++ j.signature), delta := deltaRecord j, manifest := true, ckpt := none }] ∧
      t.su.jobs = { j with phase := .storing, serial := s.log.next } :: r ∧ t = { s with su := t.su, log := t.log } ∧
      t.log.raised = s.log.raised := by
  refine ⟨_, rfl, ?_⟩
  unfold handOver
  rw [hjobs]
  dsimp only
  rw [if_neg (by simp [hphase, hsigned]), if_pos (by simp [hplant])]
  generalize framesOf s 0x01 (j.header ++ j.signature) = fs
  unfold setJob stage stageWrite
  dsimp only
  rw [hjobs]
  exact ⟨rfl, rfl, rfl, rfl⟩

theorem curEpoch_congr {s t : State} (hopen : t.su.open_ = s.su.open_) (hregs : getR64 t Reg.SEAL_LAST = getR64 s Reg.SEAL_LAST) :
    curEpoch t = curEpoch s := by
  unfold curEpoch
  rw [hopen, hregs]

theorem falconSignature_nonempty (seed msg : Bytes) (nonce : Nat → Bytes) : (falconSignature seed msg nonce).isEmpty = false := by
  have hpadded (n : Bytes) : ((signOnce seed msg n).getD (slice (0x3A :: n) 0 1280)).isEmpty = false := by
    cases h : signOnce seed msg n with
    | none =>
      have hlen := slice_length (0x3A :: n) 0 1280
      rw [Option.getD_none]
      generalize slice (0x3A :: n) 0 1280 = b at hlen ⊢
      cases b with
      | nil => simp at hlen
      | cons => rfl
    | some b =>
      unfold signOnce at h
      obtain ⟨i, -, hi⟩ := List.exists_of_findSome?_eq_some h
      dsimp only at hi
      split at hi
      · obtain ⟨c, -, rfl⟩ := Option.map_eq_some_iff.mp hi
        rfl
      · exact absurd hi (by simp)
  exact hpadded _

end Sys2Proof.EpochSealing
end

section
/-! PROOF. The signature of a Manifest arrives, or cannot be made (R196, R202, R575). -/

namespace Sys2Proof.EpochSealing

set_option Elab.async false

open Sys2Proof.Machine Sys2Proof.Frames Sys2Proof.Chains Sys2Proof.LogFrames Sys2Proof.LatticeLanes Sys2Proof.CardControl
open Sys2Proof.BranchEnds Sys2Proof.LinesideUnit

/-! ### The lane of the Manifest -/

theorem mem_lanes (s : State) (l : Lane) : l ∈ s.lanes.toList ↔ ∃ k, k < 4 ∧ laneAt s k = l := by
  rw [List.mem_iff_getElem]
  constructor
  · rintro ⟨k, hk, rfl⟩
    have hlt : k < 4 := by simpa using hk
    exact ⟨k, hlt, by simp [laneAt, Vector.getElem?_eq_getElem hlt]⟩
  · rintro ⟨k, hk, rfl⟩
    exact ⟨k, by simpa using hk, by simp [laneAt, Vector.getElem?_eq_getElem hk]⟩

theorem manifestRuns_none {s : State} : manifestRuns s = false ↔ ∀ k, k < 4 → isManifestJob (laneAt s k).job = false := by
  unfold manifestRuns
  rw [List.any_eq_false]
  constructor
  · intro h k hk
    simpa using h _ ((mem_lanes s _).mpr ⟨k, hk, rfl⟩)
  · intro h l hl
    obtain ⟨k, hk, rfl⟩ := (mem_lanes s l).mp hl
    simpa using h k hk

theorem manifestRuns_freed (s : State) : manifestRuns (freeManifestLane s) = false := by
  unfold manifestRuns freeManifestLane
  rw [List.any_eq_false]
  intro l hl
  rw [Vector.toList_map, List.mem_map] at hl
  obtain ⟨k, -, rfl⟩ := hl
  by_cases hk : isManifestJob k.job = true
  · rw [if_pos hk]
    simp [isManifestJob]
  · rw [if_neg hk]
    exact hk

theorem anyLane_freed (s : State) : anyLane (freeManifestLane s) = anyLane s := by
  unfold anyLane freeManifestLane
  rw [Vector.toList_map, List.any_map]
  congr 1
  funext l
  show (!(if isManifestJob l.job then { l with job := none } else l).fenced) = !l.fenced
  split <;> rfl

theorem canSign_freed (s : State) : canSign (freeManifestLane s) = canSign s := by
  unfold canSign
  rw [anyLane_freed]
  rfl

/-- With no key loaded for the Manifest no lane changes. -/
theorem freeManifestLane_none {s : State} (h : loadedSeed s = none) : freeManifestLane s = s := by
  have hlanes : s.lanes.map (fun l => if isManifestJob l.job then { l with job := none } else l) = s.lanes := by
    apply Vector.ext
    intro k hk
    rw [Vector.getElem_map]
    unfold loadedSeed at h
    rw [List.findSome?_eq_none_iff] at h
    have hl := h s.lanes[k] (by simp)
    apply if_neg
    intro hjob
    unfold isManifestJob at hjob
    split at hjob
    · next seed he =>
      rw [he] at hl
      simp at hl
    · exact absurd hjob (by decide)
  unfold freeManifestLane
  rw [hlanes]

theorem manifestRuns_setKeys {s : State} (h : manifestRuns s = false) (n : Nat) (k : KeyStore) :
    manifestRuns (setLane s n { laneAt s n with keys := k }) = false := by
  rw [manifestRuns_none] at h ⊢
  intro i hi
  rw [laneAt_setLane]
  split
  · next he =>
    rw [← he.1]
    exact h i hi
  · exact h i hi

theorem manifestRuns_loadKey {s : State} (h : manifestRuns s = false) (n i : Nat) : manifestRuns (loadKey s n i).state = false := by
  unfold loadKey
  split
  · exact manifestRuns_setKeys h n _
  · dsimp only
    split
    · exact manifestRuns_setKeys h n _
    · obtain ⟨cells, cache, hcache⟩ := cachePath_form s i
      refine manifestRuns_setKeys ?_ n _
      rw [hcache]
      exact h

/-! ### The two ends -/

theorem sig_signWith {s v : State} (h : drawBytes v 640 = drawBytes s 640) (seed msg : Bytes) :
    (signWith v seed msg).sig = (signWith s seed msg).sig := by
  unfold signWith
  dsimp only
  rw [h]

theorem signWith_nonempty (s : State) (seed msg : Bytes) : (signWith s seed msg).sig.isEmpty = false := by
  unfold signWith
  dsimp only
  rw [falconSignature_nonempty]

/-- The state with a signature made and given to the first job. -/
def signedJob (v : State) (n : Nat) (l : List SealJob) : State :=
  { countR64 (drawn v n) Reg.LSU_SIGNS 1 with su := { v.su with jobs := l } }

theorem signLoaded_form {v : State} {j : SealJob} {r : List SealJob} (seed : Bytes) (hjobs : v.su.jobs = j :: r) (hplant : j.plant = []) :
    ∃ n, signLoaded v j seed = signedJob v n ({ j with signature := (signWith v seed (manifestMsg j.header)).sig } :: r) := by
  refine ⟨40 * signTries seed (manifestMsg j.header) (fun k => slice (drawBytes v 640) (40 * k) 40), ?_⟩
  unfold signLoaded
  dsimp only
  rw [if_pos (by simp [hplant])]
  unfold setJob
  rw [show (signWith v seed (manifestMsg j.header)).state.su.jobs = j :: r from hjobs]
  rfl

theorem signedJob_getR (v : State) (n : Nat) (l : List SealJob) {a : Nat} (h : a ∉ [Reg.LSU_SIGNS, Reg.LSU_SIGNS + 4]) :
    getR (signedJob v n l) a = getR v a := sameRegs_setR64 (drawn v n) Reg.LSU_SIGNS _ a h

theorem framesOf_signedJob (v : State) (n : Nat) (l : List SealJob) (typ : Byte) (body : Bytes) :
    framesOf (signedJob v n l) typ body = framesOf v typ body := by
  refine framesOf_congr (s := v) (t := signedJob v n l) rfl (curEpoch_congr rfl ?_) rfl typ body
  rw [getR64, getR64, signedJob_getR v n l (by decide), signedJob_getR v n l (by decide)]

theorem quiet_signedJob {v : State} (hq : Quiet v) (n : Nat) (l : List SealJob) : Quiet (signedJob v n l) := by
  have hquiet (r : SMap Word) (e : Ent) (c : Nat) (u : SealUnit) : Quiet { v with regs := r, ent := e, entCtr := c, su := u } := hq
  exact hquiet _ _ _ _

theorem quiet_sealed {w t : State} (hform : t = { w with su := t.su, log := t.log }) (hraised : t.log.raised = w.log.raised)
    (hq : Quiet w) : Quiet t := by
  obtain ⟨htrips, hfence, hunfenced, husb, hmark⟩ := hq
  rw [hform]
  exact ⟨htrips, hfence, hunfenced, husb, hraised.trans hmark⟩

/-- What the signature of a Manifest without a plant Manifest leaves, whatever key signs it. -/
theorem signLoaded_hands {v : State} {j : SealJob} {r : List SealJob} (seed : Bytes) (hjobs : v.su.jobs = j :: r)
    (hphase : j.phase = .signing) (hplant : j.plant = []) :
    ∃ t, handOver (signLoaded v j seed) = t ∧
      t.log.staging = v.log.staging ++ [{
        frames := framesOf v 0x01 (j.header ++ (signWith v seed (manifestMsg j.header)).sig)
        delta := deltaRecord j, manifest := true, ckpt := none }] ∧
      t.su.jobs = { j with signature := (signWith v seed (manifestMsg j.header)).sig, phase := .storing, serial := v.log.next } :: r ∧
      getR64 t Reg.LSU_SIGNS = getR64 v Reg.LSU_SIGNS + 1 ∧ t.lanes = v.lanes ∧ (Quiet v → Quiet t) := by
  have hsigned : (signWith v seed (manifestMsg j.header)).sig.isEmpty = false :=
    signWith_nonempty v seed _
  obtain ⟨n, hload⟩ := signLoaded_form seed hjobs hplant
  generalize (signWith v seed (manifestMsg j.header)).sig = sig at hsigned hload ⊢
  obtain ⟨t, ht, hstaging, hrest, hform, hraised⟩ := handOver_stages (s := signedJob v n ({ j with signature := sig } :: r))
    (j := { j with signature := sig }) rfl hphase hsigned hplant
  rw [← hload] at ht
  rw [framesOf_signedJob] at hstaging
  refine ⟨t, ht, hstaging, hrest, ?_, ?_, fun hq => ?_⟩
  · rw [hform]
    exact getR64_setR64 (drawn v n) Reg.LSU_SIGNS _
  · rw [hform]
    rfl
  · exact quiet_sealed hform hraised (quiet_signedJob hq n _)

/-- The key that signs the Manifest, and the state with it loaded. -/
theorem signJob_signs {s : State} {j : SealJob} {r : List SealJob} (hjobs : s.su.jobs = j :: r) (hphase : j.phase = .signing)
    (hunsigned : j.signature = []) (hcan : canSign s = true) : ∃ v seed, signJob s = signLoaded v j seed ∧
      (∃ cells cache lanes, v = { s with badPrivate := cells, keyCache := cache, lanes := lanes }) ∧ manifestRuns v = false ∧
      (signWith s seed (manifestMsg j.header)).sig = manifestSignature s j := by
  have hready : entReady (freeManifestLane s) = true := by
    unfold canSign at hcan
    simp only [Bool.and_eq_true] at hcan
    exact hcan.2
  unfold signJob manifestSignature
  rw [hjobs]
  dsimp only
  rw [if_neg (by simp [hphase, hunsigned])]
  cases hheld : loadedSeed s with
  | some seed =>
    dsimp only
    rw [if_pos hready]
    exact ⟨freeManifestLane s, seed, rfl, ⟨s.badPrivate, s.keyCache, _, rfl⟩, manifestRuns_freed s, rfl⟩
  | none =>
    dsimp only
    rw [if_pos ((canSign_freed s).trans hcan)]
    refine ⟨_, _, rfl, ?_, manifestRuns_loadKey (manifestRuns_freed s) _ _, rfl⟩
    obtain ⟨cells, cache, lanes, hload⟩ := loadKey_form (freeManifestLane s) (workLane (freeManifestLane s)) (keyBranch (freeManifestLane s))
    exact ⟨cells, cache, lanes, hload⟩

theorem manifest_signed (s : State) (j : SealJob) (r : List SealJob) (hq : Quiet s) (hmain : mainPower s = true)
    (hjobs : s.su.jobs = j :: r) (hphase : j.phase = .signing) (hunsigned : j.signature = []) (hplant : j.plant = [])
    (hbacklog : s.su.unsigned = []) (hcan : canSign s = true) : Leads .manifestSigned s (fun t =>
      t.log.staging = s.log.staging ++
        [{ frames := framesOf s 0x01 (j.header ++ manifestSignature s j), delta := deltaRecord j, manifest := true, ckpt := none }] ∧
      (∃ k, t.su.jobs = k :: r ∧ k.phase = .storing ∧ k.signature = manifestSignature s j ∧ k.header = j.header) ∧
      getR64 t Reg.LSU_SIGNS = getR64 s Reg.LSU_SIGNS + 1 ∧ manifestRuns t = false) := by
  obtain ⟨v, seed, hsign, ⟨cells, cache, lanes, hv⟩, hfree, hsig⟩ := signJob_signs hjobs hphase hunsigned hcan
  obtain ⟨t, ht, hstaging, hrest, hcount, hlanes, hquiet⟩ := signLoaded_hands (v := v) seed (by rw [hv]; exact hjobs) hphase hplant
  have hsame : (signWith v seed (manifestMsg j.header)).sig = manifestSignature s j := by
    rw [← hsig]
    exact sig_signWith (by rw [hv]; rfl) _ _
  have hframes (body : Bytes) : framesOf v 0x01 body = framesOf s 0x01 body := by
    apply framesOf_congr <;> rw [hv]
    rfl
  rw [hsame, hframes] at hstaging
  rw [hsame] at hrest
  have hexec : exec .manifestSigned s = done t := by
    show done _ = _
    rw [if_pos hmain, manifestSigned, hjobs]
    dsimp only
    rw [if_pos hphase, signBacklog_none hbacklog, hsign, ht]
  refine leads_done hexec (hquiet ?_) ⟨hstaging.trans ?_, ⟨_, hrest, rfl, rfl, rfl⟩, hcount.trans ?_, ?_⟩
  · rw [hv]
    exact hq
  · rw [hv]
  · rw [hv]
    rfl
  · unfold manifestRuns
    rw [hlanes]
    exact hfree

theorem manifest_unsigned (s : State) (j : SealJob) (r : List SealJob) (hq : Quiet s) (hmain : mainPower s = true)
    (hjobs : s.su.jobs = j :: r) (hphase : j.phase = .signing) (hunsigned : j.signature = []) (hplant : j.plant = [])
    (hbacklog : s.su.unsigned = []) (hseed : loadedSeed s = none) (hcan : canSign s = false) : Leads .manifestSigned s (fun t =>
      t.log.staging = s.log.staging ++
        [{ frames := framesOf s 0x01 (j.header ++ zeros 1280), delta := deltaRecord j, manifest := true, ckpt := none }] ∧
      getR64 t Reg.LSU_SIGNS = getR64 s Reg.LSU_SIGNS ∧ t.lanes = s.lanes) := by
  have hsign : signJob s = leaveUnsigned s := by
    unfold signJob
    rw [hjobs]
    dsimp only
    rw [freeManifestLane_none hseed, if_neg (by simp [hphase, hunsigned]), hseed]
    dsimp only
    rw [if_neg (by simp [hcan])]
  have hset : setJob s (fun j => { j with signature := zeros 1280, plantSig := zeros 1280 }) =
      { s with su := { s.su with jobs := { j with signature := zeros 1280, plantSig := zeros 1280 } :: r } } := by
    unfold setJob
    rw [hjobs]
  obtain ⟨u, hu, hform, hregs⟩ : ∃ u, leaveUnsigned s = u ∧
      u = withEvents { s with regs := u.regs, su := { s.su with jobs := { j with signature := zeros 1280, plantSig := zeros 1280 } :: r } } u ∧
      SameRegs s u [Reg.SEAL_ERR] := by
    refine ⟨_, rfl, ?_⟩
    unfold leaveUnsigned noteUnsigned
    rw [hset]
    generalize ({ s.su with jobs := _ } : SealUnit) = su
    obtain ⟨p, o, h⟩ := raise_form (orR { s with su := su } Reg.SEAL_ERR 8) 276
    rw [h]
    exact ⟨rfl, sameRegs_setR (sameRegs_refl s _) (List.mem_singleton.mpr rfl) _⟩
  have hjobsU : u.su.jobs = { j with signature := zeros 1280, plantSig := zeros 1280 } :: r := by
    rw [hform]
    rfl
  have hlog : u.log = s.log := by
    rw [hform]
    rfl
  have hepoch : getR64 u Reg.SEAL_LAST = getR64 s Reg.SEAL_LAST := by
    rw [getR64, getR64, hregs _ (by decide), hregs _ (by decide)]
  have hframes (body : Bytes) : framesOf u 0x01 body = framesOf s 0x01 body := by
    refine framesOf_congr ?_ (curEpoch_congr ?_ hepoch) hlog _ _ <;> rw [hform] <;> rfl
  obtain ⟨t, ht, hstaging, -, hformT, hraised⟩ := handOver_stages hjobsU hphase
    (show (zeros 1280).isEmpty = false from rfl) hplant
  rw [hframes, hlog] at hstaging
  have hexec : exec .manifestSigned s = done t := by
    show done _ = _
    rw [if_pos hmain, manifestSigned, hjobs]
    dsimp only
    rw [if_pos hphase, signBacklog_none hbacklog, hsign, hu, ht]
  refine leads_done hexec ?_ ⟨hstaging, ?_, ?_⟩
  · obtain ⟨htrips, hfence, hunfenced, husb, hmark⟩ := hq
    rw [hlog] at hraised
    rw [hformT, hform]
    exact ⟨htrips, hfence, hunfenced, husb, hraised.trans hmark⟩
  · rw [hformT]
    show getR64 u Reg.LSU_SIGNS = _
    rw [getR64, getR64, hregs _ (by decide), hregs _ (by decide)]
  · rw [hformT, hform]
    rfl

theorem epochSealing : Sys2Proof.Claims.EpochSealing :=
  ⟨epoch_closed, root_frozen, manifest_signed, manifest_unsigned, manifest_stored⟩

/-- Settles O15: with room in the log a stored write changes the flash part alone after it, and an epoch's job goes through its
phases by rows that each change it and nothing but what is named. -/
theorem epochsAndStaging : Obligations.EpochsAndStaging := ⟨epochSealing, rebuildAndStaging⟩

end Sys2Proof.EpochSealing
end

section
/-! PROOF. What the service of waybills, lines and tracks leaves alone (R75, R86, R163, R175, R242, R275, R282, R493): a completion, a
line's fault, a track's fence and the exports change no mode, no core, no vigil cell, and no register but their own. A seal fault on
the way makes a trip due of one of the sources 80 to 107 (R430). -/

namespace Sys2Proof.Service

set_option Elab.async false

open Sys2Proof.Machine Sys2Proof.Frames Sys2Proof.Chains Sys2Proof.LogFrames

/-! ### The relation -/

/-- The parts of the state that the service of waybills may change, taken from `t`. -/
def servicePart (s t : State) : State :=
  { s with lne := t.lne, tracks := t.tracks, hlk := t.hlk, ports := t.ports, log := t.log, su := t.su, tail := t.tail, lko := t.lko,
           mem := t.mem, badCells := t.badCells, keyCache := t.keyCache, regs := t.regs, flash := t.flash, evtPend := t.evtPend,
           trace := t.trace, traceWrapped := t.traceWrapped, traceHead := t.traceHead, lastRaise := t.lastRaise,
           sealFaults := t.sealFaults, sealOver := t.sealOver, tripsDue := t.tripsDue }

/-- The registers of the Interlocking, of the boot and of the branch tree's command that the service leaves alone. -/
def standingRegs : List Nat := [Reg.ILK_STATUS, Reg.ILK_ERR, Reg.DMN_CAUSE, Reg.BTR_RESULT]

/-- A source that a seal fault trips: its class is Caution or higher (R430, R442). -/
def HighSource (n : Nat) : Prop := 80 ≤ n ∧ n ≠ 105 ∧ n ≠ 106

/-- From `s` to `t` waybills were served. -/
structure Served (s t : State) : Prop where
  form : t = servicePart s t
  boots : t.flash.monitor = s.flash.monitor ∧ t.flash.running = s.flash.running ∧ t.flash.recoveryImage = s.flash.recoveryImage ∧
    t.flash.slices = s.flash.slices
  regs : ∀ a ∈ standingRegs, getR t a = getR s a
  pends : Pends s t
  keys : s.keyCache = [] → t.keyCache = []
  trips : ∀ n ∈ t.tripsDue, n ∈ s.tripsDue ∨ HighSource n
  whole : SealsWhole s → SealsWhole t ∧ t.tripsDue = s.tripsDue
  cells : ∀ c, c < slotCells 0 → (c ∈ t.badCells ↔ c ∈ s.badCells)

theorem Served.refl (s : State) : Served s s :=
  ⟨rfl, ⟨rfl, rfl, rfl, rfl⟩, fun _ _ => rfl, fun _ _ => id, id, fun _ => .inl, fun h => ⟨h, rfl⟩, fun _ _ => Iff.rfl⟩

theorem Served.trans {s t u : State} (h : Served s t) (k : Served t u) : Served s u := by
  obtain ⟨h1, h2, h3, h4⟩ := h.boots
  obtain ⟨k1, k2, k3, k4⟩ := k.boots
  refine ⟨k.form.trans (congrArg (servicePart · u) h.form :), ⟨k1.trans h1, k2.trans h2, k3.trans h3, k4.trans h4⟩,
    fun a ha => (k.regs a ha).trans (h.regs a ha), h.pends.trans k.pends, k.keys ∘ h.keys, fun n hn => ?_, fun hw => ?_,
    fun c hc => (k.cells c hc).trans (h.cells c hc)⟩
  · obtain hold | hnew := k.trips n hn
    · exact h.trips n hold
    · exact .inr hnew
  · obtain ⟨hw', ht⟩ := h.whole hw
    obtain ⟨kw, kt⟩ := k.whole hw'
    exact ⟨kw, kt.trans ht⟩

theorem foldl_served {α : Type} {g : State → α → State} (h : ∀ t e, Served t (g t e)) (l : List α) (s : State) : Served s (l.foldl g s) := by
  induction l generalizing s with
  | nil => exact Served.refl s
  | cons e r ih => exact (h s e).trans (ih (g s e))

/-! ### One part each -/

theorem served_lne (s : State) (l : LineUnit) : Served s { s with lne := l } :=
  ⟨rfl, ⟨rfl, rfl, rfl, rfl⟩, fun _ _ => rfl, pends_of_evtPend rfl, id, fun _ => .inl, fun h => ⟨h, rfl⟩, fun _ _ => Iff.rfl⟩

theorem served_tracks (s : State) (v : Vector Track 8) : Served s { s with tracks := v } :=
  ⟨rfl, ⟨rfl, rfl, rfl, rfl⟩, fun _ _ => rfl, pends_of_evtPend rfl, id, fun _ => .inl, fun h => ⟨h, rfl⟩, fun _ _ => Iff.rfl⟩

theorem served_hlk (s : State) (h : HostLink) : Served s { s with hlk := h } :=
  ⟨rfl, ⟨rfl, rfl, rfl, rfl⟩, fun _ _ => rfl, pends_of_evtPend rfl, id, fun _ => .inl, fun h => ⟨h, rfl⟩, fun _ _ => Iff.rfl⟩

theorem served_ports (s : State) (p : Ports) : Served s { s with ports := p } :=
  ⟨rfl, ⟨rfl, rfl, rfl, rfl⟩, fun _ _ => rfl, pends_of_evtPend rfl, id, fun _ => .inl, fun h => ⟨h, rfl⟩, fun _ _ => Iff.rfl⟩

theorem served_radio (s : State) (p : Ports) (k : Lookout) (t : Tail) : Served s { s with ports := p, lko := k, tail := t } :=
  ⟨rfl, ⟨rfl, rfl, rfl, rfl⟩, fun _ _ => rfl, pends_of_evtPend rfl, id, fun _ => .inl, fun h => ⟨h, rfl⟩, fun _ _ => Iff.rfl⟩

theorem served_log (s : State) (l : Log) (u : SealUnit) : Served s { s with log := l, su := u } :=
  ⟨rfl, ⟨rfl, rfl, rfl, rfl⟩, fun _ _ => rfl, pends_of_evtPend rfl, id, fun _ => .inl, fun h => ⟨h, rfl⟩, fun _ _ => Iff.rfl⟩

theorem served_mem (s : State) (m : List Host.Cell) : Served s { s with mem := m } :=
  ⟨rfl, ⟨rfl, rfl, rfl, rfl⟩, fun _ _ => rfl, pends_of_evtPend rfl, id, fun _ => .inl, fun h => ⟨h, rfl⟩, fun _ _ => Iff.rfl⟩

theorem served_lastRaise (s : State) (r : SMap DWord) : Served s { s with lastRaise := r } :=
  ⟨rfl, ⟨rfl, rfl, rfl, rfl⟩, fun _ _ => rfl, pends_of_evtPend rfl, id, fun _ => .inl, fun h => ⟨h, rfl⟩, fun _ _ => Iff.rfl⟩

/-- The flash part, with what the boot chose as it was. -/
theorem served_flash (s : State) (l : Log) (f : Flash) (hmonitor : f.monitor = s.flash.monitor) (hrunning : f.running = s.flash.running)
    (hrecovery : f.recoveryImage = s.flash.recoveryImage) (hslices : f.slices = s.flash.slices) : Served s { s with log := l, flash := f } :=
  ⟨rfl, ⟨hmonitor, hrunning, hrecovery, hslices⟩, fun _ _ => rfl, pends_of_evtPend rfl, id, fun _ => .inl, fun h => ⟨h, rfl⟩, fun _ _ => Iff.rfl⟩

theorem setR_served (s : State) {a : Nat} (v : Word) (h : a ∉ standingRegs) : Served s (setR s a v) :=
  ⟨rfl, ⟨rfl, rfl, rfl, rfl⟩, fun b hb => getR_setR_other s a b v (fun e => h (e ▸ hb)), pends_of_evtPend rfl, id, fun _ => .inl,
    fun h => ⟨h, rfl⟩, fun _ _ => Iff.rfl⟩

theorem setR64_served (s : State) {a : Nat} (v : DWord) (h : a ∉ standingRegs) (h4 : a + 4 ∉ standingRegs) : Served s (setR64 s a v) :=
  (setR_served s _ h).trans (setR_served _ _ h4)

theorem raise_served (s : State) (n : Nat) : Served s (raise s n) := by
  have hpends := pends_raise s n
  obtain ⟨q, o, e⟩ := raise_form s n
  rw [e] at hpends ⊢
  exact ⟨rfl, ⟨rfl, rfl, rfl, rfl⟩, fun _ _ => rfl, hpends, id, fun _ => .inl, fun h => ⟨h, rfl⟩, fun _ _ => Iff.rfl⟩

theorem raiseIf_served (s : State) (b : Bool) (n : Nat) : Served s (raiseIf b s n) := by
  cases b with
  | true => exact raise_served s n
  | false => exact Served.refl s

theorem triggerVector_served (s : State) (v : BitVec 11) : Served s (triggerVector s v) := by
  unfold triggerVector
  split
  · exact served_hlk s _
  · exact served_ports s _

/-! ### Seal faults -/

theorem countSealFault_served (s : State) {tile : Nat} (h5 : tile ≠ 25) (h6 : tile ≠ 26) (hseal : ¬SealsWhole s) :
    Served s (countSealFault s tile) := by
  have hcount (m : SMap (List DWord)) (o : List Nat) (l : List Nat) (hl : ∀ n ∈ l, n ∈ s.tripsDue ∨ HighSource n) :
      Served s { s with sealFaults := m, sealOver := o, tripsDue := l } :=
    ⟨rfl, ⟨rfl, rfl, rfl, rfl⟩, fun _ _ => rfl, pends_of_evtPend rfl, id, hl, fun h => absurd h hseal,
        fun _ _ => Iff.rfl⟩
  unfold countSealFault
  dsimp only
  split
  · exact hcount _ s.sealOver s.tripsDue (fun _ => .inl)
  · refine (hcount _ _ (s.tripsDue ++ [80 + tile]) fun n hn => ?_).trans (raise_served _ 202)
    obtain hold | hnew := List.mem_append.mp hn
    · exact .inl hold
    · rw [List.mem_singleton.mp hnew]
      exact .inr ⟨Nat.le_add_right _ _, by omega, by omega⟩

theorem sealFault_served (s : State) {tile : Nat} (h5 : tile ≠ 25) (h6 : tile ≠ 26) (hseal : ¬SealsWhole s) : Served s (sealFault s tile) := by
  refine (raise_served s 192).trans (countSealFault_served _ h5 h6 fun h => hseal ?_)
  obtain ⟨q, o, e⟩ := raise_form s 192
  rw [e] at h
  exact h

/-! ### Lines -/

theorem setLine_served (s : State) (l : Nat) (r : Line) : Served s (setLine s l r) := served_lne s _

theorem modLine_served (s : State) (l : Nat) (f : Line → Line) : Served s (modLine s l f) := served_lne s _

theorem updFlight_served (s : State) (l id : Nat) (g : Flight → Flight) : Served s (updFlight s l id g) := served_lne s _

theorem endFlight_served (s : State) (l id status : Nat) (gasp : Bool) : Served s (endFlight s l id status gasp) := served_lne s _

theorem markGasp_served (s : State) (l id : Nat) : Served s (markGasp s l id) := served_lne s _

theorem hostWrite_served (s : State) (a : DWord) (b : Bytes) : Served s (hostWrite s a b) := served_ports s _

theorem writeMirror_served (s : State) (l : Nat) : Served s (writeMirror s l) := by
  unfold writeMirror
  split
  · exact (hostWrite_served s _ _).trans (modLine_served _ l _)
  · exact Served.refl s

theorem raiseMark_served (s : State) (n : Nat) : Served s (raiseMark s n) := by
  unfold raiseMark
  split
  · exact served_log s _ s.su
  · exact Served.refl s

theorem writeCompletionTo_served (s : State) (l : Nat) (f : Flight) : Served s (writeCompletionTo s l f) := by
  have hvector (t : State) (b : Bool) (v : BitVec 11) : Served t (if b then triggerVector t v else t) := by
    split
    · exact triggerVector_served t v
    · exact Served.refl t
  unfold writeCompletionTo
  dsimp only
  refine Served.trans ?_ (raise_served _ _)
  refine Served.trans ?_ (hvector _ _ _)
  refine Served.trans ?_ (writeMirror_served _ l)
  refine Served.trans ?_ (setLine_served _ l _)
  exact (raiseMark_served s _).trans (hostWrite_served _ _ _)

theorem recordBad_whole {s : State} {l : Nat} (h : recordBad s l = true) : ¬SealsWhole s := by
  intro hw
  unfold recordBad privateBad at h
  simp [hw.2] at h

theorem writeCompletion_served (s : State) (l : Nat) (f : Flight) : Served s (writeCompletion s l f) := by
  unfold writeCompletion
  split
  · next h => exact sealFault_served s (by decide) (by decide) (recordBad_whole h)
  · exact writeCompletionTo_served s l f

theorem deliver_served (s : State) (l id : Nat) : Served s (deliver s l id) := by
  unfold deliver
  split
  · exact Served.refl s
  split
  · exact writeCompletion_served s l _
  split
  · exact Served.refl s
  · exact served_hlk s _

theorem completeRaw_served (s : State) (l : Nat) (f : Flight) (status flags seq : Nat) (result : Bytes) :
    Served s (completeRaw s l f status flags seq result) := (updFlight_served s l _ _).trans (deliver_served _ l _)

/-! ### Contexts -/

theorem sealCtx_served (s : State) (l : Nat) : Served s (sealCtx s l) := by
  unfold sealCtx
  split
  · refine ⟨rfl, ⟨rfl, rfl, rfl, rfl⟩, fun _ _ => rfl, pends_of_evtPend rfl, id, fun _ => .inl, fun hw => ⟨⟨?_, hw.2⟩, rfl⟩, fun c hc => ?_⟩
    · dsimp only
      rw [hw.1]
      rfl
    · dsimp only
      rw [List.mem_filter]
      refine and_iff_left_of_imp fun _ => ?_
      unfold slotCells at hc ⊢
      simp only [Bool.not_eq_true', decide_eq_false_iff_not]
      omega
  · exact Served.refl s

theorem putSlot_served (s : State) (l : Nat) (t : Slot) : Served s (putSlot s l t) := served_lne s _

theorem setCtx_served (s : State) (l : Nat) (c : Context) : Served s (setCtx s l c) :=
  ((served_lne s _).trans (putSlot_served _ l _)).trans (sealCtx_served _ l)

theorem touchSlot_served (s : State) (l : Nat) : Served s (touchSlot s l) := by
  unfold touchSlot
  split
  · exact putSlot_served s l _
  · exact Served.refl s

theorem countService_served (s : State) (l : Nat) : Served s (countService s l) := by
  unfold countService
  split
  · exact setCtx_served s l _
  · exact Served.refl s

theorem dropSlot_served (s : State) (l : Nat) : Served s (dropSlot s l) :=
  (served_mem s (leaveBytes s l)).trans (served_lne _ _)

theorem ctxBad_whole {s : State} {l : Nat} (h : ctxBad s l = true) : ¬SealsWhole s := by
  intro hw
  unfold ctxBad at h
  rw [hw.1] at h
  split at h
  · simp at h
  · exact absurd h (by decide)

/-! ### Faults and ends -/

theorem finishService_served (s : State) (l id status length : Nat) (result : Bytes) :
    Served s (finishService s l id status length result) := by
  have hcount : Served s (if l = 0 then s else countService s l) := by
    split
    · exact Served.refl s
    · exact countService_served s l
  unfold finishService
  split
  · exact Served.refl s
  split
  · exact Served.refl s
  · exact hcount.trans (completeRaw_served _ l _ _ _ _ _)

theorem abortService_served (s : State) (l : Nat) (cause : Option Nat) (status : Nat) : Served s (abortService s l cause status) :=
  foldl_served (fun t _ => finishService_served t l _ _ _ _) _ s

theorem lneFault_served (s : State) (l : Nat) (isFault : Bool) (status : Nat) : Served s (lneFault s l isFault status) :=
  (setR_served s _ (by decide)).trans (raise_served _ 24)

theorem faultRecord_served (s : State) (l status : Nat) (cause : Option Nat) (lost : Bool) : Served s (faultRecord s l status cause lost) := by
  have hdrop (t : State) : Served t (if lost then dropSlot t l else t) := by
    split
    · exact dropSlot_served t l
    · exact Served.refl t
  unfold faultRecord
  dsimp only
  exact (((setLine_served s l _).trans (hdrop _)).trans (lneFault_served _ l true status)).trans (raiseIf_served _ _ _)

theorem faultEnded_served (s : State) (l : Nat) (f : Flight) (h : ¬SealsWhole s) : Served s (faultEnded s l f) :=
  ((sealFault_served s (by decide) (by decide) h).trans (faultRecord_served _ l _ _ _)).trans (updFlight_served _ l _ _)

theorem haltLine_served (s : State) (l status : Nat) : Served s (haltLine s l status) := by
  unfold haltLine
  dsimp only
  split
  · exact Served.refl s
  · exact (setLine_served s l _).trans (lneFault_served _ l false status)

theorem settleOne_served (s : State) (l : Nat) : Served s (settleOne s l) := by
  unfold settleOne
  split
  · exact Served.refl s
  split
  · split
    · next h => exact faultEnded_served s l _ (ctxBad_whole h)
    · exact (updFlight_served s l _ _).trans (haltLine_served _ l _)
  · exact Served.refl s

theorem settleLoop_served (n : Nat) (s : State) (l : Nat) : Served s (settleLoop n s l) := by
  induction n generalizing s with
  | zero => exact Served.refl s
  | succ n ih => exact (settleOne_served s l).trans (ih _)

theorem settle_served (s : State) (l : Nat) : Served s (settle s l) :=
  (settleLoop_served _ s l).trans (foldl_served (fun t _ => deliver_served t l _) _ _)

theorem faultLine_served (s : State) (l status : Nat) (cause : Option Nat) (lost : Bool) : Served s (faultLine s l status cause lost) := by
  unfold faultLine
  dsimp only
  split
  · exact (faultRecord_served s l status cause lost).trans (abortService_served _ l cause status)
  · exact (faultRecord_served s l status cause lost).trans (settle_served _ l)

theorem faultContext_served (s : State) (l : Nat) (cause : Option Nat) (h : ¬SealsWhole s) : Served s (faultContext s l cause) :=
  (sealFault_served s (by decide) (by decide) h).trans (faultLine_served _ l _ cause true)

theorem completeService_served (s : State) (l id status length : Nat) (result : Bytes) :
    Served s (completeService s l id status length result) := by
  unfold completeService
  split
  · next h => exact faultContext_served s l _ (ctxBad_whole h.2)
  · exact finishService_served s l id status length result

theorem endDerivations_served (s : State) : Served s (endDerivations s) := by
  refine foldl_served (fun t e => ?_) _ s
  split
  · exact faultLine_served t _ _ _ _
  · exact Served.refl t

/-! ### The Running log -/

theorem raiseEvery_served (s : State) (gap n : Nat) : Served s (raiseEvery s gap n) := by
  have hlast : Served s (raise { s with lastRaise := mput s.lastRaise n s.ttc } n) := (served_lastRaise s _).trans (raise_served _ n)
  unfold raiseEvery
  split
  · split
    · exact Served.refl s
    · exact hlast
  · exact hlast

theorem stageWrite_served (s : State) (w : StagingWrite) : Served s (stageWrite s w) := served_log s _ s.su

theorem appendRecord_served (s : State) (typ : Byte) (body : Bytes) : Served s (appendRecord s typ body) := by
  unfold appendRecord
  split
  · exact (setR64_served s _ (by decide) (by decide)).trans (raiseEvery_served _ _ _)
  · exact stageWrite_served s _

theorem eraseKey_served (s : State) (k : Nat) : Served s (eraseKey s k) := served_flash s s.log _ rfl rfl rfl rfl

theorem eraseSlotBlocks_served (s : State) (k : Nat) : Served s (eraseSlotBlocks s k) := foldl_served (fun t _ => eraseKey_served t _) _ s

theorem copyForward_served (s : State) (t : Stripe) : Served s (copyForward s t) := by
  unfold copyForward
  split
  · refine Served.trans ?_ (eraseSlotBlocks_served _ _)
    exact served_flash s s.log _ rfl rfl rfl rfl
  · exact Served.refl s

theorem levelWear_served (s : State) : Served s (levelWear s) := by
  refine foldl_served (fun t e => ?_) _ s
  split
  · exact copyForward_served t _
  · exact Served.refl t

theorem beginStripe_served (s : State) : Served s (beginStripe s) := by
  unfold beginStripe
  split
  · exact Served.refl s
  · refine Served.trans ?_ (levelWear_served _)
    exact served_flash s s.log _ rfl rfl rfl rfl

theorem eraseOldest_served (s : State) : Served s (eraseOldest s) := by
  unfold eraseOldest
  split
  · exact Served.refl s
  · exact (eraseSlotBlocks_served s _).trans (served_flash _ _ _ rfl rfl rfl rfl)

theorem reclaimOldest_served (s : State) : Served s (reclaimOldest s) := by
  unfold reclaimOldest
  split
  · exact Served.refl s
  split
  · exact Served.refl s
  split
  · split
    · exact eraseOldest_served s
    · exact Served.refl s
  split
  · exact eraseOldest_served s
  · exact (foldl_served (fun t f => appendRecord_served t _ _) _ s).trans (served_flash _ _ _ rfl rfl rfl rfl)

theorem startProgram_served (s : State) : Served s (startProgram s) := by
  have hreclaim (u : State) : Served u (if needsReclaim u then reclaimOldest u else u) := by
    split
    · exact reclaimOldest_served u
    · exact Served.refl u
  have hbegin (u : State) : Served u (if needsStripe u then beginStripe u else u) := by
    split
    · exact beginStripe_served u
    · exact Served.refl u
  unfold startProgram
  dsimp only
  by_cases hdue : (!programDue s) = true
  · rw [if_pos hdue]
    exact Served.refl s
  rw [if_neg hdue]
  have hu := hreclaim s
  generalize (if needsReclaim s then reclaimOldest s else s) = u at hu ⊢
  by_cases hmore : needsReclaim u = true
  · rwa [if_pos hmore]
  rw [if_neg hmore]
  have hv := hu.trans (hbegin u)
  generalize (if needsStripe u then beginStripe u else u) = v at hv ⊢
  split
  · exact hv
  · exact hv.trans (served_flash v v.log _ rfl rfl rfl rfl)

theorem clearFull_served (s : State) : Served s (clearFull s) := by
  unfold clearFull
  split
  · dsimp only
    refine Served.trans (Served.trans ?_ (appendRecord_served _ _ _)) (raise_served _ 321)
    split
    · exact (setR_served s _ (by decide)).trans (stageWrite_served _ _)
    · exact setR_served s _ (by decide)
  · exact Served.refl s

theorem settleMark_served (s : State) : Served s (settleMark s) := by
  unfold settleMark
  split
  · exact ((served_log s _ s.su).trans (clearFull_served _)).trans (startProgram_served _)
  · exact Served.refl s

/-! ### Exports -/

theorem readFrames_served (s : State) (cursor : Nat) (bad : List Nat) : Served s (readFrames s cursor bad) := served_log s _ _

theorem noteLost_served (s : State) (lost : Bool) : Served s (noteLost s lost) := by
  unfold noteLost
  split
  · exact (setR_served s _ (by decide)).trans (raise_served _ 329)
  · exact Served.refl s

theorem exportReply_served (s : State) (raw : Bytes) (bad : List Nat) : Served s (exportReply s raw bad).state := by
  unfold exportReply
  split
  · exact Served.refl s
  · exact (readFrames_served s _ bad).trans (noteLost_served _ _)

theorem usbSay_served (s : State) (b : Bytes) : Served s (usbSay s b) := served_ports s _

theorem usbCompletion_served (s : State) (w : Bytes) (r : Reply) (gasp : Bool) (h : Served s r.state) :
    Served s (usbCompletion s w r gasp) :=
  (h.trans (foldl_served (fun t (e : DWord × Bytes) => usbSay_served t e.2) r.writes _)).trans (usbSay_served _ _)

theorem usbExport_served (s : State) (w : Bytes) (bad : List Nat) : Served s (usbExport s w bad) := by
  have hreply := exportReply_served s w bad
  unfold usbExport
  dsimp only
  generalize exportReply s w bad = r at hreply
  exact (usbCompletion_served r.state w r false (Served.refl _) |> hreply.trans).trans (raiseMark_served _ _)

theorem serveUsb_served (l : List (Nat × Bytes × List Nat)) (s : State) : Served s (serveUsb l s) := by
  induction l generalizing s with
  | nil => exact Served.refl s
  | cons e r ih =>
    unfold serveUsb
    dsimp only
    split
    · exact ((served_hlk s _).trans (usbExport_served _ _ _)).trans (ih _)
    · exact Served.refl s

/-! ### Tracks -/

theorem setTrack_served (s : State) (t : Nat) (k : Track) : Served s (setTrack s t k) := served_tracks s _

theorem enableTracks_served (s : State) : Served s (enableTracks s) := foldl_served (fun t _ => setTrack_served t _ _) _ s

theorem freeHalf_served (s : State) (t : Nat) (second : Bool) : Served s (freeHalf s t second) := by
  unfold freeHalf
  split
  · exact setTrack_served s t _
  · exact Served.refl s

theorem turnHalves_served (s : State) (t : Nat) : Served s (turnHalves s t) := by
  have hfree := (freeHalf_served s t false).trans (freeHalf_served _ t true)
  unfold turnHalves
  dsimp only
  split
  · exact hfree.trans (setTrack_served _ t _)
  · exact hfree

theorem trackFault_served (s : State) (t : Nat) (ht : t < 8) (h : ¬SealsWhole s) : Served s (trackFault s t) := by
  have hfault := sealFault_served s (tile := 4 + t) (by omega) (by omega) h
  unfold trackFault
  dsimp only
  split
  · exact hfault.trans (setTrack_served _ t _)
  · exact hfault

theorem privateBad_whole {s : State} {c : PrivateCell} (h : privateBad s c = true) : ¬SealsWhole s := by
  intro hw
  unfold privateBad at h
  simp [hw.2] at h

/-- A key found in the cache moves to its front. -/
theorem served_keys (s : State) (k : KeySlot) (hk : k ∈ s.keyCache) (l : List KeySlot) : Served s { s with keyCache := k :: l } :=
  ⟨rfl, ⟨rfl, rfl, rfl, rfl⟩, fun _ _ => rfl, pends_of_evtPend rfl, fun h => absurd (h ▸ hk) List.not_mem_nil, fun _ => .inl,
    fun h => ⟨h, rfl⟩, fun _ _ => Iff.rfl⟩

theorem keyLookup_served (s : State) (l id : Nat) : Served s (keyLookup s l id) := by
  unfold keyLookup
  split
  · exact Served.refl s
  · next c _ =>
    split
    · next h => exact faultContext_served s l _ (ctxBad_whole h)
    · have htouch := touchSlot_served s l
      generalize touchSlot s l = u at htouch ⊢
      dsimp only
      split
      · next k hk =>
        have hmem : k ∈ u.keyCache := List.mem_of_find?_eq_some hk
        have hcount := (htouch.trans (served_keys u k hmem (u.keyCache.filter (fun x => !sameKeySlot x k)))).trans
          (setR64_served _ (getR64 u Reg.MSH_KEY_HITS + BitVec.ofNat 64 1) (a := Reg.MSH_KEY_HITS) (by decide) (by decide))
        split
        · next h => 
          refine ((hcount.trans (trackFault_served _ _ ?_ (privateBad_whole h))).trans (endFlight_served _ l id _ _)).trans (settle_served _ l)
          cases flight? _ l id with
          | none => exact Nat.zero_lt_succ _
          | some f => exact f.track.isLt
        · exact hcount.trans (updFlight_served _ l id _)
      · exact (htouch.trans (updFlight_served u l id _)).trans (setR64_served _ _ (by decide) (by decide))

theorem moveFlight_served (s : State) (l id : Nat) : Served s (moveFlight s l id) := by
  unfold moveFlight
  split
  · exact Served.refl s
  split
  · exact ((served_lne s _).trans (updFlight_served _ l id _)).trans (keyLookup_served _ l id)
  · exact Served.refl s

theorem moveAll_served (s : State) (t : Nat) : Served s (moveAll s t) :=
  (foldl_served (fun a (e : Nat × Nat) => moveFlight_served a e.1 e.2) (unstampedOn s t) s).trans (turnHalves_served _ t)

theorem recordFence_served (s : State) (t cause : Nat) : Served s (recordFence s t cause) := by
  unfold recordFence
  dsimp only
  refine Served.trans ?_ (raise_served _ 27)
  refine Served.trans ?_ (appendRecord_served _ _ _)
  refine Served.trans ?_ (setR_served _ _ (by decide))
  exact (setTrack_served s t _).trans (setR64_served _ _ (by decide) (by decide))

theorem fenceTrack_served (s : State) (t cause : Nat) : Served s (fenceTrack s t cause) := by
  unfold fenceTrack
  split
  · exact Served.refl s
  · exact ((recordFence_served s t cause).trans (enableTracks_served _)).trans (moveAll_served _ t)

theorem finishFencing_served (s : State) (t : Nat) : Served s (finishFencing s t) := by
  unfold finishFencing
  split
  · exact (setTrack_served s t _).trans (fenceTrack_served _ t 2)
  split
  · exact (setTrack_served s t _).trans (fenceTrack_served _ t 3)
  · exact Served.refl s

theorem finishFences_served (s : State) : Served s (finishFences s) := by
  refine foldl_served (fun a t => ?_) _ s
  split
  · exact finishFencing_served a t
  · exact Served.refl a

/-! ### The radio -/

theorem served_lko (s : State) (k : Lookout) : Served s { s with lko := k } := served_radio s s.ports k s.tail

theorem transmit_served (s : State) (power : Nat) (l : List AirCommand) : Served s (transmit s power l) := served_ports s _

theorem askSelf_served (s : State) (answers : List TagObs) : Served s (askSelf s answers).1 := by
  unfold askSelf
  dsimp only
  split
  · exact transmit_served s _ _
  · split <;> exact served_radio s _ _ _
  · exact transmit_served s _ _

theorem stopInventory_served (s : State) (status : Nat) (gasp : Bool) : Served s (stopInventory s status gasp) := by
  have hgasp (u : State) (l id : Nat) : Served u (if gasp then markGasp u l id else u) := by
    split
    · exact markGasp_served u l id
    · exact Served.refl u
  unfold stopInventory
  split
  · exact Served.refl s
  · dsimp only
    split
    · exact ((served_lko s _).trans (hgasp _ _ _)).trans (completeService_served _ _ _ _ _ _)
    · exact served_lko s _

theorem faultRf_served (s : State) : Served s (faultRf s) :=
  (((setR_served s _ (by decide)).trans (setR_served _ _ (by decide))).trans (raise_served _ 424)).trans (stopInventory_served _ _ _)

theorem hop_served (s : State) : Served s (hop s) := by
  unfold hop
  split
  · exact Served.refl s
  · exact served_lko s _

theorem endSelfTest_served (s : State) (st : Nat) : Served s (endSelfTest s st) :=
  (setR_served s _ (by decide)).trans (raise_served _ _)

theorem runSelfTest_served (s : State) (gamma : Byte) (answers : List TagObs) : Served s (runSelfTest s gamma answers) := by
  unfold runSelfTest
  obtain ⟨u, hu⟩ : ∃ u, ({ s with lko := { s.lko with selfWait := none } } : State) = u := ⟨_, rfl⟩
  have hfirst : Served s u := by
    rw [← hu]
    exact served_lko s _
  rw [hu]
  dsimp only
  split
  · exact hfirst.trans (endSelfTest_served u 5)
  split
  · exact hfirst.trans (endSelfTest_served u 6)
  split
  · exact hfirst.trans (endSelfTest_served u 7)
  split
  · exact ((hfirst.trans (hop_served u)).trans (faultRf_served _)).trans (endSelfTest_served _ 7)
  · exact ((hfirst.trans (hop_served u)).trans (askSelf_served _ answers)).trans (endSelfTest_served _ _)

theorem runWaiting_served (s : State) : Served s (runWaiting s) := by
  unfold runWaiting
  split
  · split
    · exact Served.refl s
    · exact runSelfTest_served s _ _
  · exact Served.refl s

theorem endInventory_served (s : State) (status : Nat) : Served s (endInventory s status) :=
  (stopInventory_served s status false).trans (runWaiting_served _)

end Sys2Proof.Service
end

section
/-! PROOF. A device in Condemned stays as it is through the trips that its own end makes due (R221, R242, R442): a source that a
seal fault trips has class Caution or Zeroise, and neither changes the mode of a condemned device. -/

namespace Sys2Proof.Service

set_option Elab.async false

open Sys2Proof.Machine Sys2Proof.Frames Sys2Proof.Chains Sys2Proof.LogFrames Sys2Proof.TimetableRows

/-- The class of a source that a seal fault trips. -/
theorem appliedClass_high (s : State) {n : Nat} (h : HighSource n) : appliedClass s n = 0 ∨ 2 ≤ appliedClass s n := by
  obtain ⟨h80, h105, h106⟩ := h
  have hclass : classOf s n = 0 ∨ 2 ≤ classOf s n := by
    unfold classOf
    split
    · exact .inl rfl
    · right
      have hdefault : defaultClass n = 2 := by
        unfold defaultClass
        rw [if_neg (by omega), if_neg (by omega), if_neg (by omega), if_neg (by omega), if_pos (by omega)]
      rw [hdefault]
      exact Nat.le_max_left _ _
  unfold appliedClass
  rw [if_neg (by omega)]
  exact hclass

theorem noteReset_high (s : State) {n : Nat} (h : HighSource n) : noteReset s n = s := by
  obtain ⟨h80, h105, h106⟩ := h
  unfold noteReset
  rw [if_neg]
  unfold classOf defaultClass
  split
  · exact Nat.zero_ne_one
  · rw [if_neg (by omega), if_neg (by omega), if_neg (by omega), if_neg (by omega), if_pos (by omega)]
    omega

/-- A condemned device whose Trunk is lost: `z` says that the Works Plate is erased with it, `r` is the report of the command that
ended so. -/
structure Condemned (z : Bool) (plate : Bytes) (r : Word) (t : State) : Prop where
  mode : t.mode = .condemned ∧ t.prevMode = .commissioning
  trunk : t.vigil.trunk = .lost ∧ t.vigil.trunkKey = zeros 32 ∧ t.keyCache = [] ∧ t.btr = none
  event : isPending t 292 = true
  plate : t.worksPlate = plate ∧ zfull t = z ∧ (z = true → plate = zeros 32)
  result : getR t Reg.BTR_RESULT = r
  trips : ∀ n ∈ t.tripsDue, HighSource n

theorem zfull_of_served {s t : State} (h : Served s t) : zfull t = zfull s := by
  have hcell : t.badCells.contains (settingCell 16) = s.badCells.contains (settingCell 16) := by
    rw [Bool.eq_iff_iff]
    simpa using h.cells (settingCell 16) (by decide)
  unfold zfull sstGet
  rw [hcell, h.form]
  rfl

theorem Condemned.served {z : Bool} {plate : Bytes} {r : Word} {s t : State} (h : Condemned z plate r s) (k : Served s t) :
    Condemned z plate r t := by
  obtain ⟨⟨hmode, hprev⟩, ⟨htrunk, hkey, hcache, hbtr⟩, hevent, ⟨hplate, hz, hzero⟩, hresult, htrips⟩ := h
  have hform := k.form
  refine ⟨⟨?_, ?_⟩, ⟨?_, ?_, k.keys hcache, ?_⟩, k.pends 292 (by decide) hevent, ⟨?_, (zfull_of_served k).trans hz, hzero⟩,
    (k.regs _ (by decide)).trans hresult, fun n hn => (k.trips n hn).elim (htrips n) id⟩
  all_goals rw [hform]
  · exact hmode
  · exact hprev
  · exact htrunk
  · exact hkey
  · exact hbtr
  · exact hplate

/-- The vigil cells but the Trunk, the Tail lamp and the trips due of high class. -/
theorem Condemned.vigil {z : Bool} {plate : Bytes} {r : Word} {s t : State} (h : Condemned z plate r s)
    (hform : t = { s with vigil := t.vigil, tail := t.tail }) (htrunk : t.vigil.trunk = s.vigil.trunk)
    (hkey : t.vigil.trunkKey = s.vigil.trunkKey) : Condemned z plate r t := by
  obtain ⟨hmode, ⟨htrunkS, hkeyS, hcache, hbtr⟩, hevent, hplate, hresult, htrips⟩ := h
  rw [hform]
  exact ⟨hmode, ⟨htrunk.trans htrunkS, hkey.trans hkeyS, hcache, hbtr⟩, hevent, hplate, hresult, htrips⟩

theorem Condemned.noTrips {z : Bool} {plate : Bytes} {r : Word} {s : State} (h : Condemned z plate r s) :
    Condemned z plate r { s with tripsDue := [] } := by
  obtain ⟨hmode, htrunk, hevent, hplate, hresult, -⟩ := h
  exact ⟨hmode, htrunk, hevent, hplate, hresult, fun n hn => absurd hn List.not_mem_nil⟩

theorem Condemned.mainPower {z : Bool} {plate : Bytes} {r : Word} {s : State} (h : Condemned z plate r s) :
    Machine.mainPower s = true := by
  unfold Machine.mainPower
  rw [h.mode.1]
  rfl

theorem noteSource_condemned {z : Bool} {plate : Bytes} {r : Word} {s : State} (h : Condemned z plate r s) {n : Nat} (hn : HighSource n)
    (dets : BitVec 2) : Condemned z plate r (noteSource s n dets).1 ∧ ((noteSource s n dets).2 = 0 ∨ 2 ≤ (noteSource s n dets).2) := by
  unfold noteSource
  dsimp only
  split
  · exact ⟨h, .inl rfl⟩
  split
  · exact ⟨h.vigil rfl rfl rfl, .inl rfl⟩
  rw [if_pos h.mainPower, noteReset_high s hn]
  refine ⟨?_, appliedClass_high s hn⟩
  have hevidenced : Condemned z plate r (evidenced s n (tripDetectors s n dets) (appliedClass s n)) := h.vigil rfl rfl rfl
  rw [noteTrip_form]
  exact hevidenced.served ((raise_served _ _).trans (appendRecord_served _ _ _))

theorem foldNotes_condemned {z : Bool} {plate : Bytes} {r : Word} (l : List (Nat × BitVec 2)) (hl : ∀ e ∈ l, HighSource e.1) :
    ∀ a : State × Nat, Condemned z plate r a.1 → (a.2 = 0 ∨ 2 ≤ a.2) →
      let b := l.foldl (fun a e => ((noteSource a.1 e.1 e.2).1, max a.2 (noteSource a.1 e.1 e.2).2)) a
      Condemned z plate r b.1 ∧ (b.2 = 0 ∨ 2 ≤ b.2) := by
  induction l with
  | nil => exact fun a h hc => ⟨h, hc⟩
  | cons e l ih =>
    intro a h hc
    obtain ⟨hnote, hclass⟩ := noteSource_condemned h (hl e List.mem_cons_self) e.2
    refine ih (fun x hx => hl x (List.mem_cons_of_mem _ hx)) _ hnote ?_
    dsimp only
    omega

theorem setHeld_condemned {z : Bool} {plate : Bytes} {r : Word} {s : State} (h : Condemned z plate r s) : Condemned z plate r (setHeld s) :=
  h.vigil rfl rfl rfl

theorem dropTrunk_condemned {z : Bool} {plate : Bytes} {r : Word} {s : State} (h : Condemned z plate r s) : Condemned z plate r (dropTrunk s) := by
  obtain ⟨hmode, ⟨-, -, -, hbtr⟩, hevent, hplate, hresult, htrips⟩ := h
  have hlost : Condemned z plate r (sealPrivate { s with vigil := { s.vigil with trunk := .lost, trunkKey := zeros 32 }, keyCache := [] } .trunk) :=
    ⟨hmode, ⟨rfl, rfl, rfl, hbtr⟩, hevent, hplate, hresult, htrips⟩
  exact (hlost.served (raise_served _ 292)).vigil rfl rfl rfl

theorem endBtr_none {s : State} (h : s.btr = none) (status reason : Nat) : endBtr s status reason = s := by
  unfold endBtr
  rw [h]

theorem loseTrunk_condemned {z : Bool} {plate : Bytes} {r : Word} {s : State} (h : Condemned z plate r s) : Condemned z plate r (loseTrunk s) := by
  have hdrop := dropTrunk_condemned h
  have hend := hdrop.served (endDerivations_served (dropTrunk s))
  unfold loseTrunk
  dsimp only
  rw [endBtr_none hdrop.trunk.2.2.2]
  generalize endDerivations (dropTrunk s) = t at hend ⊢
  rw [if_neg (by simp [hend.mode.1])]
  unfold erasePlate
  split
  · next hz =>
    rw [if_pos hend.mainPower]
    obtain ⟨hmode, htrunk, hevent, ⟨-, hzt, hzero⟩, hresult, htrips⟩ := hend
    exact ⟨hmode, htrunk, hevent, ⟨(hzero (hzt.symm.trans hz)).symm, hzt, hzero⟩, hresult, htrips⟩
  · exact hend

theorem tripAll_condemned {z : Bool} {plate : Bytes} {r : Word} {s : State} (h : Condemned z plate r s) (l : List (Nat × BitVec 2))
    (hl : ∀ e ∈ l, HighSource e.1) : Condemned z plate r (tripAll s l) := by
  obtain ⟨hnotes, hclass⟩ := foldNotes_condemned l hl (s, 0) h (.inl rfl)
  unfold tripAll
  dsimp only
  rw [if_neg (by simp [h.mode.1]), if_pos h.mainPower]
  generalize l.foldl (fun a e => ((noteSource a.1 e.1 e.2).1, max a.2 (noteSource a.1 e.1 e.2).2)) (s, 0) = b at hnotes hclass ⊢
  have hheld := setHeld_condemned hnotes
  unfold respondMain
  rw [if_neg (by omega)]
  split
  · unfold enterCaution
    rw [if_neg (by simp [hheld.mode.1])]
    exact hheld
  split
  · exact loseTrunk_condemned hheld
  · exact hnotes

theorem applyTrips_condemned {z : Bool} {plate : Bytes} {r : Word} {s : State} (h : Condemned z plate r s) :
    Condemned z plate r (applyTrips s) := by
  unfold applyTrips
  split
  · exact h
  · refine tripAll_condemned h.noTrips _ fun e he => ?_
    obtain ⟨n, hn, rfl⟩ := List.mem_map.mp he
    exact h.trips n hn

theorem checkTracks_condemned {z : Bool} {plate : Bytes} {r : Word} {s : State} (h : Condemned z plate r s) :
    Condemned z plate r (checkTracks s) := by
  have hfence := h.served (finishFences_served s)
  unfold checkTracks
  dsimp only
  rw [if_neg (by simp [sealing, hfence.mode.1])]
  exact hfence

theorem afterRounds_condemned {z : Bool} {plate : Bytes} {r : Word} (n : Nat) {s : State} (h : Condemned z plate r s) :
    Condemned z plate r (afterRounds n s) := by
  induction n generalizing s with
  | zero => exact h.noTrips
  | succ n ih =>
    have hround := checkTracks_condemned (applyTrips_condemned h)
    unfold afterRounds
    dsimp only
    split
    · exact hround
    · exact ih hround

theorem after_condemned {z : Bool} {plate : Bytes} {r : Word} {s : State} (h : Condemned z plate r s) : Condemned z plate r (after s) :=
  ((afterRounds_condemned 8 h).served (serveUsb_served _ _)).served (settleMark_served _)

end Sys2Proof.Service
end

section
/-! PROOF. The Trunk and the branch table (R219, R221, R239, R242, R243): the Trunk is drawn, its image takes the next serial, a
rebuild takes the branches of an image that opens, and the loss of the Trunk ends the device in Condemned. -/

namespace Sys2Proof.TrunkTable

set_option Elab.async false

open Sys2Proof.Machine Sys2Proof.Frames Sys2Proof.Chains Sys2Proof.LogFrames Sys2Proof.BranchEnds Sys2Proof.Service
open Sys2Proof.EventsAndSettings Sys2Proof.LinesideUnit

/-! ### The settings' store -/

/-- From `s` to `t` only settings, the registers that report them and events changed. -/
def SettingsKept (s t : State) : Prop :=
  t = withEvents { s with regs := t.regs, sst := t.sst, sstWear := t.sstWear, badCells := t.badCells } t ∧
    SameRegs s t [Reg.SST_STATUS, Reg.SST_ERR] ∧ Pends s t

theorem SettingsKept.refl (s : State) : SettingsKept s s := ⟨rfl, sameRegs_refl s _, fun _ _ => id⟩

theorem SettingsKept.quiet {s t : State} (h : SettingsKept s t) (hq : Quiet s) : Quiet t := by
  rw [h.1]
  exact hq

theorem SettingsKept.rest {s t : State} (h : SettingsKept s t) : t.btr = s.btr ∧ t.vigil = s.vigil ∧ t.branches = s.branches ∧
    t.keyCache = s.keyCache ∧ t.image = s.image := by
  rw [h.1]
  exact ⟨rfl, rfl, rfl, rfl, rfl⟩

theorem sstStore_kept (s : State) (i : Nat) (v : DWord) : SettingsKept s (sstStore s i v) := by
  by_cases hcount : sstCount s i < 100000
  · obtain ⟨u, hu⟩ : ∃ u, setR (sstPut { s with sstWear := mput s.sstWear i (sstCount s i + 1) } i v) Reg.SST_STATUS (1 ||| place 8 8 i) = u :=
      ⟨_, rfl⟩
    have hstored : SettingsKept s u := by
      rw [← hu]
      exact ⟨rfl, sameRegs_setR (t := sstPut { s with sstWear := mput s.sstWear i (sstCount s i + 1) } i v)
        (sameRegs_of_regs rfl _) List.mem_cons_self _, pends_of_evtPend rfl⟩
    have hraise (t : State) (b : Bool) (n : Nat) (ht : SettingsKept s t) : SettingsKept s (raiseIf b t n) := by
      obtain ⟨hform, hregs, hpends⟩ := ht
      cases b with
      | false => exact ⟨hform, hregs, hpends⟩
      | true =>
        refine ⟨?_, sameRegs_raise hregs n, hpends.trans (pends_raise t n)⟩
        have hevents := raiseIf_withEvents t true n
        have hsettings : (raiseIf true t n).regs = t.regs ∧ (raiseIf true t n).sst = t.sst ∧ (raiseIf true t n).sstWear = t.sstWear ∧
            (raiseIf true t n).badCells = t.badCells := by
          rw [hevents]
          exact ⟨rfl, rfl, rfl, rfl⟩
        obtain ⟨h1, h2, h3, h4⟩ := hsettings
        rw [h1, h2, h3, h4]
        exact withEvents_trans hform hevents
    rw [sstStore_fits hcount, hu]
    exact hraise _ _ _ (hraise _ _ _ hstored)
  · unfold sstStore
    dsimp only
    rw [if_pos (by omega)]
    exact ⟨rfl, sameRegs_setR (sameRegs_refl s _) (by decide) _, pends_of_evtPend rfl⟩

theorem settleLevel_kept (s : State) : SettingsKept s (settleLevel s) := by
  unfold settleLevel setLevel
  split
  · exact SettingsKept.refl s
  · exact sstStore_kept s 5 _

/-! ### The ends of a command -/

theorem btrEnds_success (s : State) : BtrEnds (btrResult s 0 0) 0 0 := by
  unfold BtrEnds fieldR bitR
  rw [btrResult, getR_setR_same]
  decide

theorem sameRegs_btrResult (s : State) (status reason : Nat) : SameRegs s (btrResult s status reason) [Reg.BTR_RESULT] :=
  sameRegs_setR (sameRegs_refl s _) (List.mem_singleton.mpr rfl) _

theorem finishCommand_waits {s : State} {p : BtrPending} (h : reportWaits s p = true ∨ s.mae.request ≠ none) : finishCommand s p = s := by
  unfold finishCommand
  rw [if_pos]
  obtain h | h := h
  · simp [h]
  · cases hr : s.mae.request with
    | none => exact absurd hr h
    | some r => simp

theorem finishCommand_persists {s : State} {p : BtrPending} (hwait : reportWaits s p = false) (hrequest : s.mae.request = none)
    (hpersist : p.persist = true) : finishCommand s p = endStructural (commitImage (beforeImage s p)) p := by
  unfold finishCommand
  rw [if_neg (by simp [hwait, hrequest]), if_pos hpersist]

theorem btrCommandDone_finishes {s : State} {p : BtrPending} (hmain : mainPower s = true) (hbtr : s.btr = some p) :
    exec .btrCommandDone s = done (finishCommand s p) := by
  show execBtrCommandDone s = _
  rw [execBtrCommandDone, hbtr]
  dsimp only
  rw [if_pos hmain]

/-- The end of a command of firmware that pairs no Station: at most the level is settled. -/
theorem endStructural_plain (s : State) {p : BtrPending} (h1 : p.op ≠ 1) (h4 : p.op ≠ 4) (hwaybill : p.waybill = none)
    (hreport : p.report = true) (hslot : p.slot = none) (hpair : p.pair = none) : ∃ u,
    endStructural s p = btrResult u 0 0 ∧ SettingsKept { s with btr := none } u ∧ (u = { s with btr := none } ∨ u = settleLevel { s with btr := none }) := by
  obtain ⟨v, hv⟩ : ∃ v, ({ s with btr := none } : State) = v := ⟨_, rfl⟩
  have hinstall : installPairing v p = v := by
    unfold installPairing
    rw [hslot, hwaybill]
    dsimp only
    rw [Option.isSome_none, Bool.and_false, Bool.false_and]
    rfl
  have heffects : structuralEffects v p = if p.op = 5 ∨ p.op = 8 then settleLevel v else v := by
    unfold structuralEffects
    rw [hinstall, hpair]
    dsimp only
    rw [if_neg h4, if_neg (fun h => h1 h.1)]
  have hend : endStructural s p = btrResult (structuralEffects v p) 0 0 := by
    unfold endStructural
    rw [hv, hwaybill]
    dsimp only
    rw [if_pos hreport]
  rw [hend, heffects, hv]
  split
  · exact ⟨_, rfl, settleLevel_kept v, .inr rfl⟩
  · exact ⟨_, rfl, SettingsKept.refl v, .inl rfl⟩

/-- The image is written, with the next serial and the table as it stands; a serial register that is worn raises event 293. -/
theorem commitImage_commits (s : State) : ∃ u, commitImage s = u ∧
    u = withEvents { s with regs := u.regs, sst := u.sst, sstWear := u.sstWear, badCells := u.badCells, image := u.image,
                            branches := s.branches.map (fun e => (e.1, { e.2 with usesSaved := e.2.uses })) } u ∧
      u.image = some { bytes := imageBytes s.vigil.trunkKey (trunkCheckNow s) (imageSerial s + 1) (persistent s.branches), counts := [] } ∧
      Pends s u := by
  refine ⟨_, rfl, ?_⟩
  unfold commitImage
  dsimp only
  obtain ⟨v, hv⟩ : ∃ v : State, { s with
    image := some { bytes := imageBytes s.vigil.trunkKey (trunkCheckNow s) (imageSerial s + 1) (persistent s.branches), counts := [] },
    branches := s.branches.map (fun e => (e.1, { e.2 with usesSaved := e.2.uses })) } = v := ⟨_, rfl⟩
  rw [hv]
  obtain ⟨hform, -, hpends⟩ := sstStore_kept v 9 (BitVec.ofNat 64 (imageSerial s + 1))
  generalize sstStore v 9 (BitVec.ofNat 64 (imageSerial s + 1)) = w at hform hpends ⊢
  have himage : w.image = some { bytes := imageBytes s.vigil.trunkKey (trunkCheckNow s) (imageSerial s + 1) (persistent s.branches), counts := [] } := by
    rw [hform, ← hv]
    rfl
  have hsv : Pends s v := by
    rw [← hv]
    exact pends_of_evtPend rfl
  have hw : w = withEvents { s with
      regs := w.regs, sst := w.sst, sstWear := w.sstWear, badCells := w.badCells, image := w.image,
      branches := s.branches.map (fun e => (e.1, { e.2 with usesSaved := e.2.uses })) } w := by
    rw [himage, hform, ← hv]
    rfl
  split
  · have hmore : Pends w (raise (orR w Reg.BTR_ERR 4) 293) := (pends_of_evtPend rfl).trans (pends_raise (orR w Reg.BTR_ERR 4) 293)
    have hevents : raise (orR w Reg.BTR_ERR 4) 293 = withEvents { w with regs := (raise (orR w Reg.BTR_ERR 4) 293).regs }
        (raise (orR w Reg.BTR_ERR 4) 293) := by
      obtain ⟨q, o, hraise⟩ := raise_form (orR w Reg.BTR_ERR 4) 293
      rw [hraise]
      rfl
    generalize raise (orR w Reg.BTR_ERR 4) 293 = x at hmore hevents
    have hsettings : x.sst = w.sst ∧ x.sstWear = w.sstWear ∧ x.badCells = w.badCells ∧ x.image = w.image := by
      rw [hevents]
      exact ⟨rfl, rfl, rfl, rfl⟩
    obtain ⟨h1, h2, h3, h4⟩ := hsettings
    refine ⟨?_, h4.trans himage, (hsv.trans hpends).trans hmore⟩
    rw [h1, h2, h3, h4]
    exact hevents.trans (congrArg (fun y : State => withEvents { y with regs := x.regs } x) hw :)
  · exact ⟨hw, himage, hsv.trans hpends⟩

/-! ### TRUNK_CREATE -/

theorem trunkCreate_begins (s : State) (m : Master) (hidle : BtrIdle s m) (hmode : s.mode = .commissioning)
    (hlost : s.vigil.trunk ≠ .valid) (hready : entReady s = true) (hworn : imageWorn s = false) :
    Leads (.trunkCreate m) s (fun t =>
      BtrBusy t 8 0 ∧ SameRegs s t [Reg.BTR_RESULT] ∧ t = { s with regs := t.regs, btr := t.btr }) := by
  have hreadyB : entReady (begun s) = true := by
    unfold entReady bitR
    rw [getR_begun_other s (by decide)]
    exact hready
  have hrow : trunkCreate (begun s) (commandArgs s m) = { begun s with btr := some (plainPending 8 0) } := by
    unfold trunkCreate
    rw [if_neg (show (begun s).vigil.trunk ≠ .valid from hlost), if_neg (by simp [hreadyB]), refuseWorn_not (s := begun s) hworn]
  have hexec : exec (.trunkCreate m) s = done { begun s with btr := some (plainPending 8 0) } :=
    congrArg done ((btrCommand_accepted hidle (modeOk := inCommissioning) (decide_eq_true hmode) trunkCreate).trans hrow)
  exact leads_done hexec hidle.1 ⟨⟨⟨_, rfl, rfl, rfl, rfl, rfl⟩, begun_result s⟩, sameRegs_begun s, rfl⟩

theorem sstCount_sstStore {s : State} {i : Nat} (hcount : sstCount s i < 100000) (v : DWord) :
    sstCount (sstStore s i v) i = sstCount s i + 1 := by
  obtain ⟨u, hu⟩ : ∃ u, setR (sstPut { s with sstWear := mput s.sstWear i (sstCount s i + 1) } i v) Reg.SST_STATUS (1 ||| place 8 8 i) = u :=
    ⟨_, rfl⟩
  have hwear : u.sstWear = mput s.sstWear i (sstCount s i + 1) := by
    rw [← hu]
    rfl
  have hform := withEvents_trans (raiseIf_withEvents u (decide (sstCount s i + 1 = 90000)) 41)
    (raiseIf_withEvents _ (decide (sstCount s i + 1 = 100000)) 40)
  have hstore := sstStore_fits (v := v) hcount
  rw [hu] at hstore
  rw [← hstore] at hform
  have hwearT : (sstStore s i v).sstWear = u.sstWear := (congrArg State.sstWear hform :)
  unfold sstCount mget at hcount ⊢
  rw [hwearT, hwear, mget?_mput_same]
  rfl

theorem settleLevel_other {s : State} (hfuses : s.fusesOk = true) {k : Nat} (hk : k ≠ 5) : sstGet (settleLevel s) k = sstGet s k := by
  unfold settleLevel setLevel
  split
  · rfl
  · by_cases hcount : sstCount s 5 < 100000
    · exact (sstStore_written hfuses hcount _).2.1 k hk
    · unfold sstStore
      dsimp only
      rw [if_pos (by omega)]
      rfl

/-- The Trunk is drawn and the table is empty. -/
theorem beforeImage_trunk (s : State) : ∃ u, beforeImage s (plainPending 8 0) = u ∧
    u.vigil.trunk = .valid ∧ u.vigil.trunkKey = drawBytes s 32 ∧ u.branches = [] ∧ u.keyCache = [] ∧ isPending u 291 = true ∧
      (u.sst = s.sst ∧ u.sstWear = s.sstWear ∧ u.badCells = s.badCells ∧ u.fusesOk = s.fusesOk) ∧ (Quiet s → Quiet u) := by
  obtain ⟨v, hv⟩ : ∃ v, sealPrivate { drawn { s with branches := [] } 32 with
      vigil := { s.vigil with trunk := .valid, trunkKey := drawBytes s 32 }, keyCache := [] } .trunk = v := ⟨_, rfl⟩
  have hbefore : beforeImage s (plainPending 8 0) = tailDue (raise v 291) := by
    rw [← hv]
    rfl
  have hpending := isPending_raise_same v (n := 291) (by decide)
  obtain ⟨q, o, hraise⟩ := raise_form v 291
  refine ⟨_, hbefore, ?_⟩
  rw [hraise] at hpending ⊢
  rw [← hv] at hpending ⊢
  exact ⟨rfl, rfl, rfl, rfl, hpending, ⟨rfl, rfl, rfl, rfl⟩, id⟩

theorem trunk_created (s : State) (hq : Quiet s) (hmain : mainPower s = true) (hbtr : s.btr = some (plainPending 8 0))
    (hrequest : s.mae.request = none) (hfuses : s.fusesOk = true) (hcount : sstCount s 9 < 99999) : Leads .btrCommandDone s (fun t =>
      t.btr = none ∧ t.vigil.trunk = .valid ∧ t.vigil.trunkKey = drawBytes s 32 ∧ t.branches = [] ∧ t.keyCache = [] ∧
      isPending t 291 = true ∧
      t.image = some { bytes := imageBytes (drawBytes s 32) (trunkCheck (drawBytes s 32)) (imageSerial s + 1) [], counts := [] } ∧
      sstGet t 9 = BitVec.ofNat 64 (imageSerial s + 1) ∧ BtrEnds t 0 0) := by
  obtain ⟨u, hu, htrunk, hkey, hbranches, hcache, hpending, ⟨hsst, hwear, hcells, hfusesU⟩, hquietU⟩ := beforeImage_trunk s
  have hget (k : Nat) : sstGet u k = sstGet s k := by
    unfold sstGet
    rw [hsst, hcells, hfusesU]
  have hserial : imageSerial u = imageSerial s := congrArg BitVec.toNat (hget 9)
  have hcountU : sstCount u 9 = sstCount s 9 := by
    unfold sstCount
    rw [hwear]
  have hcheck : trunkCheckNow u = trunkCheck (drawBytes s 32) := by
    rw [trunkCheckNow, if_pos htrunk, hkey]
  obtain ⟨v, hv⟩ : ∃ v : State, { u with
    image := some { bytes := imageBytes u.vigil.trunkKey (trunkCheckNow u) (imageSerial u + 1) (persistent u.branches), counts := [] },
    branches := u.branches.map (fun e => (e.1, { e.2 with usesSaved := e.2.uses })) } = v := ⟨_, rfl⟩
  have hfits : sstCount v 9 < 100000 := by
    rw [← hv]
    show sstCount u 9 < 100000
    omega
  have hfusesV : v.fusesOk = true := by
    rw [← hv]
    exact hfusesU.trans hfuses
  obtain ⟨hwritten, -, -, -, -, -⟩ := sstStore_written hfusesV hfits (BitVec.ofNat 64 (imageSerial u + 1))
  obtain ⟨hkept, hregs, hpends⟩ := sstStore_kept v 9 (BitVec.ofNat 64 (imageSerial u + 1))
  have hcountW := sstCount_sstStore hfits (BitVec.ofNat 64 (imageSerial u + 1))
  have hnotWorn : imageWorn (sstStore v 9 (BitVec.ofNat 64 (imageSerial u + 1))) = false := by
    unfold imageWorn
    rw [hcountW, ← hv]
    show decide (100000 ≤ sstCount u 9 + 1) = false
    exact decide_eq_false (by omega)
  have hcommit : commitImage u = sstStore v 9 (BitVec.ofNat 64 (imageSerial u + 1)) := by
    unfold commitImage
    dsimp only
    rw [hv, if_neg (by simp [hnotWorn])]
  generalize sstStore v 9 (BitVec.ofNat 64 (imageSerial u + 1)) = w at hwritten hkept hregs hpends hcommit
  obtain ⟨x, hend, ⟨hformX, hregsX, hpendsX⟩, hlevel⟩ := endStructural_plain w (p := plainPending 8 0) (by decide) (by decide) rfl rfl rfl rfl
  have hgetX : sstGet x 9 = BitVec.ofNat 64 (imageSerial s + 1) := by
    have hgetW : sstGet { w with btr := none } 9 = BitVec.ofNat 64 (imageSerial s + 1) := hwritten.trans (by rw [hserial])
    obtain hsame | hsettled := hlevel
    · rw [hsame]
      exact hgetW
    · rw [hsettled, settleLevel_other (s := { w with btr := none }) ?_ (by decide)]
      · exact hgetW
      · show w.fusesOk = true
        rw [hkept]
        exact hfusesV
  have hexec : exec .btrCommandDone s = done (btrResult x 0 0) := by
    rw [btrCommandDone_finishes hmain hbtr, finishCommand_persists rfl hrequest rfl, hu, hcommit, hend]
  have hquiet : Quiet x := by
    have hquietV : Quiet v := by
      rw [← hv]
      exact hquietU hq
    rw [hformX, hkept]
    exact hquietV
  have hpendingX : isPending x 291 = true := by
    refine hpendsX 291 (by decide) (hpends 291 (by decide) ?_)
    rw [← hv]
    exact hpending
  obtain ⟨hbtrX, hvigilX, hbranchesX, hcacheX, himageX⟩ := SettingsKept.rest ⟨hformX, hregsX, hpendsX⟩
  obtain ⟨-, hvigilW, hbranchesW, hcacheW, himageW⟩ := SettingsKept.rest ⟨hkept, hregs, hpends⟩
  have hv' : v.vigil = u.vigil ∧ v.branches = u.branches.map (fun e => (e.1, { e.2 with usesSaved := e.2.uses })) ∧ v.keyCache = u.keyCache ∧
      v.image = some { bytes := imageBytes u.vigil.trunkKey (trunkCheckNow u) (imageSerial u + 1) (persistent u.branches), counts := [] } := by
    rw [← hv]
    exact ⟨rfl, rfl, rfl, rfl⟩
  obtain ⟨hvigilV, hbranchesV, hcacheV, himageV⟩ := hv'
  have hvigil : x.vigil = u.vigil := (hvigilX.trans hvigilW).trans hvigilV
  refine leads_done hexec hquiet ⟨hbtrX, (congrArg Vigil.trunk hvigil).trans htrunk, (congrArg Vigil.trunkKey hvigil).trans hkey, ?_,
    ((hcacheX.trans hcacheW).trans hcacheV).trans hcache, hpendingX, ?_, hgetX, btrEnds_success x⟩
  · show x.branches = []
    rw [hbranchesX, hbranchesW, hbranchesV, hbranches]
    rfl
  · show x.image = _
    rw [himageX, himageW, himageV, hkey, hcheck, hserial, hbranches]
    rfl

/-! ### The other commands' ends and the rebuild -/

theorem beforeImage_other (s : State) {p : BtrPending} (h : p.op ≠ 8) : beforeImage s p = s := if_neg h

theorem image_written (s : State) (p : BtrPending) (hq : Quiet s) (hmain : mainPower s = true) (hbtr : s.btr = some p)
    (hpersist : p.persist = true) (h1 : p.op ≠ 1) (h4 : p.op ≠ 4) (h8 : p.op ≠ 8) (hwaybill : p.waybill = none)
    (hreport : p.report = true) (hslot : p.slot = none) (hpair : p.pair = none) (hwait : reportWaits s p = false)
    (hrequest : s.mae.request = none) : Leads .btrCommandDone s (fun t =>
      t.btr = none ∧
      t.image = some { bytes := imageBytes s.vigil.trunkKey (trunkCheckNow s) (imageSerial s + 1) (persistent s.branches), counts := [] } ∧
      BtrEnds t 0 0) := by
  obtain ⟨u, hcommit, hform, himage, -⟩ := commitImage_commits s
  obtain ⟨x, hend, hkept, -⟩ := endStructural_plain u h1 h4 hwaybill hreport hslot hpair
  have hexec : exec .btrCommandDone s = done (btrResult x 0 0) := by
    rw [btrCommandDone_finishes hmain hbtr, finishCommand_persists hwait hrequest hpersist, beforeImage_other s h8, hcommit, hend]
  have hquietU : Quiet u := by
    rw [hform]
    exact hq
  have hquiet : Quiet x := hkept.quiet (s := { u with btr := none }) hquietU
  obtain ⟨hbtrX, -, -, -, himageX⟩ := hkept.rest
  exact leads_done hexec hquiet ⟨hbtrX, himageX.trans himage, btrEnds_success x⟩

theorem command_waits (s : State) (p : BtrPending) (hq : Quiet s) (hmain : mainPower s = true) (hbtr : s.btr = some p)
    (hwaits : reportWaits s p = true ∨ s.mae.request ≠ none) : Leads .btrCommandDone s (fun t => t = s) :=
  leads_done ((btrCommandDone_finishes hmain hbtr).trans (congrArg done (finishCommand_waits hwaits))) hq rfl

theorem tableRebuildDone_built (s : State) (hq : Quiet s) (hbuilt : s.tableBuilt = true) :
    Leads .tableRebuildDone s (fun t => t = s) := by
  have hexec : exec .tableRebuildDone s = done s := by
    show execTableRebuildDone s = _
    unfold execTableRebuildDone builtTable
    rw [if_pos hbuilt, ite_self]
  exact leads_done hexec hq rfl

/-- The keys of the path to the Manifest key are derived, and the lanes take the boot store's key. -/
theorem regenKeys_form (s : State) : ∃ cells cache lanes,
    regenKeys s = { s with badPrivate := cells, keyCache := cache, lanes := lanes } := by
  unfold regenKeys
  dsimp only
  split
  · obtain ⟨cells, cache, h⟩ := cachePath_form s (keyBranch s)
    rw [h]
    exact ⟨_, _, _, rfl⟩
  · exact ⟨_, _, _, rfl⟩

theorem tableRebuildDone_rebuilds {s : State} (hmain : mainPower s = true) (hbuilt : s.tableBuilt = false) :
    exec .tableRebuildDone s = done (regenKeys (rebuildTable { s with tableBuilt := true })) := by
  show execTableRebuildDone s = _
  unfold execTableRebuildDone builtTable
  rw [if_pos hmain, if_neg (by simp [hbuilt])]

theorem table_emptied (s : State) (hq : Quiet s) (hmain : mainPower s = true) (hfuses : s.fusesOk = false)
    (hbuilt : s.tableBuilt = false) : Leads .tableRebuildDone s (fun t =>
      t.tableBuilt = true ∧ t.branches = [] ∧ t.sst = s.sst ∧ t.regs = s.regs) := by
  have hempty : rebuildTable { s with tableBuilt := true } = sealTable { s with tableBuilt := true, branches := [] } :=
    if_pos (by simp [hfuses])
  have hexec := tableRebuildDone_rebuilds hmain hbuilt
  obtain ⟨cells, cache, lanes, hkeys⟩ := regenKeys_form (sealTable { s with tableBuilt := true, branches := [] })
  rw [hempty, hkeys] at hexec
  exact leads_done hexec hq ⟨rfl, rfl, rfl, rfl⟩

/-- The table of an image that opens, before the level is settled. -/
def imageTable (s : State) (im : TableImage) : State :=
  orR (measureImage { sealTable s with
    branches := (imageBranches s.vigil.trunkKey im).map (fun e => (e.1, { e.2 with lines := linesUnder s e.1 })) } im) Reg.BTR_STATUS 8

theorem takeImage_takes {s : State} (hworn : imageWorn s = false) (im : TableImage) : takeImage s im = settleLevel (imageTable s im) := by
  have hsame : reapply s (imageBranches s.vigil.trunkKey im) = imageBranches s.vigil.trunkKey im := if_neg (by simp [hworn])
  unfold takeImage
  rw [hsame]
  rfl

theorem rebuildTable_takes {s : State} {im : TableImage} (hfuses : s.fusesOk = true) (htrunk : s.vigil.trunk = .valid)
    (hwhole : privateBad s .trunk = false) (himage : s.image = some im) (hopens : imageOpens s im = true) :
    rebuildTable s = takeImage s im := by
  unfold rebuildTable
  rw [if_neg (by simp [hfuses]), if_neg (by simp [htrunk]), if_neg (by simp [hwhole]), himage]
  dsimp only
  rw [if_pos hopens]

theorem table_rebuilt (s : State) (im : TableImage) (hq : Quiet s) (hmain : mainPower s = true) (hfuses : s.fusesOk = true)
    (hbuilt : s.tableBuilt = false) (htrunk : s.vigil.trunk = .valid) (hwhole : privateBad s .trunk = false)
    (hworn : imageWorn s = false) (himage : s.image = some im) (hopens : imageOpens s im = true) :
    Leads .tableRebuildDone s (fun t =>
      t.tableBuilt = true ∧
      t.branches = (imageBranches s.vigil.trunkKey im).map (fun e => (e.1, { e.2 with lines := linesUnder s e.1 })) ∧
      getR t Reg.BTR_STATUS = getR s Reg.BTR_STATUS ||| 8 ∧ SameRegs s t [Reg.BTR_STATUS, Reg.SST_STATUS, Reg.SST_ERR] ∧
      t = withEvents { s with regs := t.regs, branches := t.branches, tableBuilt := true, flash := t.flash,
                              badPrivate := t.badPrivate, sst := t.sst, sstWear := t.sstWear, badCells := t.badCells,
                              lanes := t.lanes, keyCache := t.keyCache } t) := by
  obtain ⟨v, hv⟩ : ∃ v, imageTable { s with tableBuilt := true } im = v := ⟨_, rfl⟩
  have hexec := tableRebuildDone_rebuilds hmain hbuilt
  rw [rebuildTable_takes (s := { s with tableBuilt := true }) hfuses htrunk hwhole himage hopens,
    takeImage_takes (s := { s with tableBuilt := true }) hworn im, hv] at hexec
  obtain ⟨cells, cache, lanes, hkeys⟩ := regenKeys_form (settleLevel v)
  rw [hkeys] at hexec
  have hstatus : getR v Reg.BTR_STATUS = getR s Reg.BTR_STATUS ||| 8 := by
    rw [← hv]
    exact getR_orR _ _ _
  have hregsV : SameRegs s v [Reg.BTR_STATUS] := by
    rw [← hv]
    exact sameRegs_setR (t := measureImage { sealTable { s with tableBuilt := true } with
      branches := (imageBranches s.vigil.trunkKey im).map (fun e => (e.1, { e.2 with lines := linesUnder s e.1 })) } im)
      (sameRegs_of_regs rfl _) List.mem_cons_self _
  have hbranches : v.branches = (imageBranches s.vigil.trunkKey im).map (fun e => (e.1, { e.2 with lines := linesUnder s e.1 })) := by
    rw [← hv]
    rfl
  have hformV : v = { s with regs := v.regs, branches := v.branches, tableBuilt := true, flash := v.flash, badPrivate := v.badPrivate } := by
    rw [← hv]
    rfl
  obtain ⟨hform, hregs, -⟩ := settleLevel_kept v
  generalize settleLevel v = w at hform hregs hexec
  have hquiet : Quiet w := by
    rw [hform, hformV]
    exact hq
  refine leads_done hexec hquiet ⟨?_, ?_, ?_, ?_, ?_⟩
  · show w.tableBuilt = true
    rw [hform, hformV]
    rfl
  · show w.branches = _
    rw [hform, ← hbranches]
    rfl
  · show getR w Reg.BTR_STATUS = _
    rw [← hstatus]
    exact hregs Reg.BTR_STATUS (by decide)
  · exact sameRegs_trans (sameRegs_mono hregsV (by decide)) (sameRegs_mono hregs (by decide))
  · have hw := hform.trans (congrArg (fun y : State => withEvents { y with
      regs := w.regs, sst := w.sst, sstWear := w.sstWear, badCells := w.badCells } w) hformV :)
    have hsame : w.branches = v.branches ∧ w.flash = v.flash := by
      rw [hform]
      exact ⟨rfl, rfl⟩
    obtain ⟨hbranchesW, hflash⟩ := hsame
    rw [← hbranchesW, ← hflash] at hw
    exact (congrArg (fun y : State => { y with badPrivate := cells, keyCache := cache, lanes := lanes }) hw :)

/-! ### TRUNK_ZEROISE -/

theorem leaveCommissioning_plain {s : State} (h : sessionLevel s ≠ 2) : leaveCommissioning s = { s with rescueSeed := [] } := by
  unfold leaveCommissioning
  exact if_neg h

/-- A device in commissioning, without a session of level 2, enters Condemned. -/
theorem changeMode_condemned {s : State} (hmode : s.mode = .commissioning) (hsession : sessionLevel s ≠ 2) :
    changeMode s .condemned 5 = endInventory (setMode { s with rescueSeed := [], awaiting := none } .condemned 5) 0x0A := by
  have hwas : sealing s = false := by
    unfold sealing
    rw [hmode]
    rfl
  unfold changeMode
  simp only [hwas, hmode, leaveCommissioning_plain hsession, selfDue, reduceCtorEq, decide_false, Bool.false_or, Bool.not_false,
    Bool.false_eq_true, false_and, ne_eq, not_false_eq_true, and_self, or_self, if_true, if_false]

/-- The Trunk is lost; the Works Plate stands as it stood. -/
structure Lost (z : Bool) (plate : Bytes) (t : State) : Prop where
  trunk : t.vigil.trunk = .lost ∧ t.vigil.trunkKey = zeros 32 ∧ t.keyCache = [] ∧ t.btr = none
  event : isPending t 292 = true
  plate : t.worksPlate = plate ∧ zfull t = z
  trips : ∀ n ∈ t.tripsDue, HighSource n

theorem Lost.served {z : Bool} {plate : Bytes} {s t : State} (h : Lost z plate s) (k : Served s t) : Lost z plate t := by
  obtain ⟨⟨htrunk, hkey, hcache, hbtr⟩, hevent, ⟨hplate, hz⟩, htrips⟩ := h
  have hform := k.form
  refine ⟨⟨?_, ?_, k.keys hcache, ?_⟩, k.pends 292 (by decide) hevent, ⟨?_, (zfull_of_served k).trans hz⟩,
    fun n hn => (k.trips n hn).elim (htrips n) id⟩
  all_goals rw [hform]
  · exact htrunk
  · exact hkey
  · exact hbtr
  · exact hplate

theorem lost_dropTrunk {s : State} (hbtr : s.btr = none) (htrips : s.tripsDue = []) : Lost (zfull s) s.worksPlate (dropTrunk s) := by
  obtain ⟨u, hu⟩ : ∃ u, sealPrivate { s with vigil := { s.vigil with trunk := .lost, trunkKey := zeros 32 }, keyCache := [] } .trunk = u :=
    ⟨_, rfl⟩
  have hdrop : dropTrunk s = tailDue (raise u 292) := by
    rw [← hu]
    rfl
  have hpending := isPending_raise_same u (n := 292) (by decide)
  obtain ⟨q, o, hraise⟩ := raise_form u 292
  rw [hdrop]
  rw [hraise] at hpending ⊢
  rw [← hu] at hpending ⊢
  exact ⟨⟨rfl, rfl, rfl, hbtr⟩, hpending, ⟨rfl, rfl⟩, fun n hn => absurd (htrips ▸ hn : n ∈ []) List.not_mem_nil⟩

theorem lost_setMode {z : Bool} {plate : Bytes} {s : State} (h : Lost z plate s) : Lost z plate
    (setMode { s with rescueSeed := [], awaiting := none } .condemned 5) ∧
    (setMode { s with rescueSeed := [], awaiting := none } .condemned 5).mode = .condemned ∧
    (setMode { s with rescueSeed := [], awaiting := none } .condemned 5).prevMode = s.mode := by
  obtain ⟨u, hu⟩ : ∃ u, setR { s with rescueSeed := [], awaiting := none, mode := .condemned, prevMode := s.mode } Reg.SYS_MODE (place 8 8 5) = u :=
    ⟨_, rfl⟩
  have hset : setMode { s with rescueSeed := [], awaiting := none } .condemned 5 = tailDue (raise u 0) := by
    rw [← hu]
    rfl
  have hlost : Lost z plate u := by
    rw [← hu]
    exact ⟨h.trunk, h.event, h.plate, h.trips⟩
  have hraised := hlost.served (raise_served u 0)
  obtain ⟨q, o, hraise⟩ := raise_form u 0
  rw [hset]
  rw [hraise] at hraised ⊢
  refine ⟨⟨hraised.trunk, hraised.event, hraised.plate, hraised.trips⟩, ?_, ?_⟩
  all_goals
    rw [← hu]
    rfl

/-- With main power the Works Plate is erased at once where the setting says so. -/
theorem condemned_of_lost {z : Bool} {plate : Bytes} {s : State} (h : Lost z plate s) (hmode : s.mode = .condemned)
    (hprev : s.prevMode = .commissioning) : Condemned z (if z then zeros 32 else plate) (getR (btrResult s 0 0) Reg.BTR_RESULT)
      (btrResult (erasePlate s) 0 0) := by
  obtain ⟨htrunk, hevent, ⟨hplate, hz⟩, htrips⟩ := h
  have hmain : mainPower s = true := by
    unfold mainPower
    rw [hmode]
    rfl
  unfold erasePlate
  rw [hz, if_pos hmain]
  cases z with
  | true =>
    refine ⟨⟨hmode, hprev⟩, htrunk, hevent, ⟨rfl, hz, fun _ => rfl⟩, ?_, htrips⟩
    exact (getR_setR_same _ _ _).trans (getR_setR_same s _ _).symm
  | false => exact ⟨⟨hmode, hprev⟩, htrunk, hevent, ⟨hplate, hz, fun h => absurd h (by decide)⟩, rfl, htrips⟩

theorem loseTrunk_condemns {s : State} (hbtr : s.btr = none) (htrips : s.tripsDue = []) (hmode : s.mode = .commissioning)
    (hsession : sessionLevel s ≠ 2) : ∃ r, Condemned (zfull s) (if zfull s then zeros 32 else s.worksPlate) r (btrResult (loseTrunk s) 0 0) ∧
      r = (withInverse 0 ||| place 16 4 0 ||| 0x80000000) := by
  have hlost := lost_dropTrunk hbtr htrips
  have hends := endDerivations_served (dropTrunk s)
  have hmodeD : (dropTrunk s).mode = .commissioning := by
    obtain ⟨q, o, hraise⟩ := raise_form
      (sealPrivate { s with vigil := { s.vigil with trunk := .lost, trunkKey := zeros 32 }, keyCache := [] } .trunk) 292
    unfold dropTrunk
    rw [hraise]
    exact hmode
  have hsessionD : getR (dropTrunk s) Reg.ILK_STATUS = getR s Reg.ILK_STATUS :=
    (raise_served _ 292).regs Reg.ILK_STATUS (by decide)
  have hend := hlost.served hends
  have hmodeE : (endDerivations (dropTrunk s)).mode = .commissioning := (congrArg State.mode hends.form :).trans hmodeD
  have hsessionE : sessionLevel (endDerivations (dropTrunk s)) ≠ 2 := by
    unfold sessionLevel fieldR at hsession ⊢
    rwa [hends.regs Reg.ILK_STATUS (by decide), hsessionD]
  have hloss : loseTrunk s = erasePlate (changeMode (endDerivations (dropTrunk s)) .condemned 5) := by
    unfold loseTrunk
    dsimp only
    rw [endBtr_none hlost.trunk.2.2.2]
    refine congrArg erasePlate (if_pos ⟨?_, by simp [hmodeE]⟩)
    unfold mainPower
    rw [hmodeE]
    rfl
  rw [hloss, changeMode_condemned hmodeE hsessionE]
  generalize endDerivations (dropTrunk s) = t at hend hmodeE
  obtain ⟨hset, hmodeS, hprevS⟩ := lost_setMode hend
  generalize setMode { t with rescueSeed := [], awaiting := none } .condemned 5 = u at hset hmodeS hprevS
  have hended := endInventory_served u 0x0A
  have hmodeF := (congrArg State.mode hended.form :).trans hmodeS
  have hprevF := (congrArg State.prevMode hended.form :).trans (hprevS.trans hmodeE)
  exact ⟨_, condemned_of_lost (hset.served hended) hmodeF hprevF, getR_setR_same _ _ _⟩

theorem trunk_zeroised (s : State) (m : Master) (hidle : BtrIdle s m) (hmode : s.mode = .commissioning) (hsession : sessionLevel s ≠ 2) :
    Leads (.trunkZeroise m) s (fun t =>
      t.vigil.trunk = .lost ∧ t.vigil.trunkKey = zeros 32 ∧ t.keyCache = [] ∧ isPending t 292 = true ∧ t.mode = .condemned ∧
      t.prevMode = .commissioning ∧ t.worksPlate = (if zfull s then zeros 32 else s.worksPlate) ∧ BtrEnds t 0 0) := by
  have hexec : exec (.trunkZeroise m) s = done (btrResult (loseTrunk (begun s)) 0 0) :=
    congrArg done (btrCommand_accepted hidle (modeOk := inCommissioning) (decide_eq_true hmode) _)
  obtain ⟨⟨htrips, -, -, -, -⟩, -, hbtr, -⟩ := hidle
  have hsessionB : sessionLevel (begun s) ≠ 2 := by
    unfold sessionLevel fieldR
    rwa [getR_begun_other s (by decide)]
  obtain ⟨r, hcondemned, hr⟩ := loseTrunk_condemns (s := begun s) hbtr htrips hmode hsessionB
  obtain ⟨⟨hmodeT, hprev⟩, ⟨htrunk, hkey, hcache, -⟩, hevent, ⟨hplate, -, -⟩, hresult, -⟩ := after_condemned hcondemned
  refine leads_of_exec hexec ⟨htrunk, hkey, hcache, hevent, hmodeT, hprev, hplate, ?_⟩
  unfold BtrEnds fieldR bitR
  rw [hresult, hr]
  decide

theorem trunkAndTable : Claims.TrunkAndTable :=
  ⟨fun s m h hmode hlost hready hworn => trunkCreate_begins s m h hmode hlost hready hworn,
    fun s hq hmain hbtr hrequest hfuses hcount => trunk_created s hq hmain hbtr hrequest hfuses hcount,
    fun s p hq hmain hbtr hpersist h1 h4 h8 hwaybill hreport hslot hpair hwait hrequest =>
      image_written s p hq hmain hbtr hpersist h1 h4 h8 hwaybill hreport hslot hpair hwait hrequest,
    fun s p hq hmain hbtr hwaits => command_waits s p hq hmain hbtr hwaits,
    fun s im hq hmain hfuses hbuilt htrunk hwhole hworn himage hopens =>
      table_rebuilt s im hq hmain hfuses hbuilt htrunk hwhole hworn himage hopens,
    fun s hq hmain hfuses hbuilt => table_emptied s hq hmain hfuses hbuilt,
    fun s hq hbuilt => tableRebuildDone_built s hq hbuilt,
    fun s m h hmode hsession _ => trunk_zeroised s m h hmode hsession⟩

end Sys2Proof.TrunkTable
end

section
/-! PROOF. The Trunk's backup, rescue, release and import (R246 to R248). -/

namespace Sys2Proof.TrunkBackup

set_option Elab.async false

open Sys2Proof.Machine Sys2Proof.Frames Sys2Proof.Chains Sys2Proof.LogFrames Sys2Proof.PlainMemory Sys2Proof.CardControl
open Sys2Proof.BranchEnds Sys2Proof.BranchCreation Sys2Proof.LinesideUnit Sys2Proof.TrunkTable

/-! ### What a command writes into its buffer -/

/-- Keys, lanes, entropy and the rescue seed change no access. -/
theorem plainWrite_unread {s t : State} {m : Master} {a n : Nat}
    (hform : t = { s with rescueSeed := t.rescueSeed, ent := t.ent, entCtr := t.entCtr, badPrivate := t.badPrivate,
                          keyCache := t.keyCache, lanes := t.lanes }) (h : PlainWrite s m a n) : PlainWrite t m a n := by
  refine ⟨h.1, fun x hx => ?_⟩
  obtain ⟨hmapped, hpermits, hcell, hram, hopen⟩ := h.2 x hx
  rw [hform]
  exact ⟨hmapped, (permits_congr (s := s) rfl rfl rfl rfl rfl rfl m .write x.1).trans hpermits, hcell, hram, hopen⟩

theorem plainWrite_countR64 {s : State} {m : Master} {a n b : Nat} (k : Nat) (hb : b ≠ Reg.ILK_STATUS ∧ b ≠ Reg.MAE_LOCK)
    (hb4 : b + 4 ≠ Reg.ILK_STATUS ∧ b + 4 ≠ Reg.MAE_LOCK) (h : PlainWrite s m a n) : PlainWrite (countR64 s b k) m a n :=
  plainWrite_setR _ hb4.1 hb4.2 (plainWrite_setR _ hb.1 hb.2 h)

/-- A command that writes the bytes `b` at offset `o` of its buffer and then ends. -/
theorem putBuf_ends {s u : State} {m : Master} {o : Nat} {b : Bytes} (h : PlainWrite u m (btrBuf s + o) b.length) : ∃ w,
    putBuf u (commandArgs s m) o b (fun s => btrResult s 0 0) = btrResult w 0 0 ∧ memBytes w (btrBuf s + o) b.length = b ∧
      w = { u with mem := w.mem, badCells := w.badCells } := by
  obtain ⟨w, hw, hmem, -, hform⟩ := engineWrite_plain h
  refine ⟨w, ?_, hmem, hform⟩
  unfold putBuf
  rw [show bufAddr (commandArgs s m) = btrBuf s from rfl, show (commandArgs s m).master = m from rfl, hw]
  dsimp only
  rw [if_pos rfl]

/-! ### BACKUP -/

theorem backup_written (s : State) (m : Master) (b p : Branch) (hidle : BtrIdle s m) (hmode : inRunOrCommission s = true)
    (hcheck : useCheck s (btrIndex s) (fun k => decide (k = 5)) [BitVec.toNat m] = Check.ok) (hready : entReady s = true)
    (hb : mget? s.branches (btrIndex s) = some b) (hp : mget? s.branches b.parent = some p) (hwhole : privateBad s .trunk = false)
    (hplain : PlainWrite s m (btrBuf s) (backupBlob s (branchKey s (btrIndex s)) b p (drawBytes s 16)).length) :
    Leads (.backup m) s (fun t =>
      memBytes t (btrBuf s) (backupBlob s (branchKey s (btrIndex s)) b p (drawBytes s 16)).length =
        backupBlob s (branchKey s (btrIndex s)) b p (drawBytes s 16) ∧
      BtrEnds t 0 0 ∧ SameRegs s t [Reg.BTR_RESULT] ∧ t.branches = s.branches ∧ t.vigil = s.vigil) := by
  have hkey : branchKey (begun s) (btrIndex s) = branchKey s (btrIndex s) := keyUnder_congr rfl rfl 9 _
  have hblob : backupBlob (begun s) (branchKey s (btrIndex s)) b p (drawBytes s 16) =
      backupBlob s (branchKey s (btrIndex s)) b p (drawBytes s 16) := rfl
  generalize backupBlob s (branchKey s (btrIndex s)) b p (drawBytes s 16) = blob at hplain hblob ⊢
  obtain ⟨cells, cache, hpath⟩ := cachePath_form (drawn (begun s) 16) (btrIndex s)
  have hplain' : PlainWrite (cachePath (drawn (begun s) 16) (btrIndex s)) m (btrBuf s + 0) blob.length :=
    plainWrite_unread (s := begun s) (by rw [hpath]; rfl) (plainWrite_setR _ (by decide) (by decide) hplain)
  obtain ⟨w, hput, hmem, hform⟩ := putBuf_ends hplain'
  have hrow : backupCommand (begun s) (commandArgs s m) = btrResult w 0 0 := by
    unfold backupCommand
    dsimp only
    rw [useCheck_begun, show argIndex (commandArgs s m) = btrIndex s from rfl, show (commandArgs s m).master = m from rfl, hcheck,
      show privateBad (begun s) .trunk = false from hwhole, show (begun s).branches = s.branches from rfl]
    rw [if_neg (show ¬(Check.ok.status = 0 ∧ (false : Bool) = true) from fun h => absurd h.2 Bool.false_ne_true),
      if_neg (show ¬Check.ok.status ≠ 0 from not_not.mpr rfl), if_neg (by simp [entReady_begun, hready]), hb]
    dsimp only
    rw [hp]
    dsimp only
    rw [hkey, show drawBytes (begun s) 16 = drawBytes s 16 from rfl, hblob, hput]
  have hexec : exec (.backup m) s = done (btrResult w 0 0) :=
    congrArg done ((btrCommand_accepted hidle hmode backupCommand).trans hrow)
  rw [hpath] at hform
  refine leads_done hexec ?_ ⟨hmem, btrEnds_success w, ?_, ?_, ?_⟩
  · rw [hform]
    exact hidle.1
  · rw [hform]
    exact sameRegs_trans (sameRegs_begun s) (sameRegs_btrResult _ 0 0)
  · rw [hform]
    rfl
  · rw [hform]
    rfl

/-! ### RESCUE -/

theorem packBytes_length (n : Nat) (l : List Bool) : (packBytes n l).length = n := by
  induction n generalizing l with
  | zero => rfl
  | succ n ih => exact congrArg Nat.succ (ih (l.drop 8))

theorem falconSignature_length (seed msg : Bytes) (nonce : Nat → Bytes) (hnonce : ∀ k, (nonce k).length = 40) :
    (falconSignature seed msg nonce).length = 1280 := by
  have hone (n : Bytes) (hn : n.length = 40) : ((signOnce seed msg n).getD (slice (0x3A :: n) 0 1280)).length = 1280 := by
    cases h : signOnce seed msg n with
    | none => exact slice_length _ 0 1280
    | some b =>
      unfold signOnce at h
      obtain ⟨i, -, hi⟩ := List.exists_of_findSome?_eq_some h
      dsimp only at hi
      split at hi
      · obtain ⟨c, hc, rfl⟩ := Option.map_eq_some_iff.mp hi
        unfold compressSig at hc
        dsimp only at hc
        split at hc
        · exact absurd hc (by simp)
        · rw [← Option.some.inj hc, Option.getD_some, List.length_cons, List.length_append, packBytes_length, hn]
      · exact absurd hi (by simp)
  exact hone _ (hnonce _)

theorem signBy_signs (s : State) (i : Nat) (msg : Bytes) : ∃ cells cache lanes ent ctr n,
    (signBy s i msg).state =
      countR64 { s with badPrivate := cells, keyCache := cache, lanes := lanes, ent := ent, entCtr := ctr } Reg.LSU_SIGNS n ∧
      (signBy s i msg).sig.length = 1280 := by
  obtain ⟨cells, cache, lanes, hload⟩ := loadKey_form s (workLane s) i
  unfold signBy signWith
  dsimp only
  rw [hload]
  exact ⟨cells, cache, lanes, _, _, 1, rfl, falconSignature_length _ _ _ (fun k => slice_length _ (40 * k) 40)⟩

theorem rescuePublic_length (seed : Bytes) : (rescuePublic seed).length = 1665 := by
  show (slice _ 0 1568 ++ encodePoint p384 _).length = 1665
  rw [List.length_append, slice_length, encodePoint_p384_length]

theorem memBytes_take (s : State) (a : Nat) {k n : Nat} (h : k ≤ n) : memBytes s a k = (memBytes s a n).take k := by
  unfold memBytes
  rw [← List.map_take, List.take_range, Nat.min_eq_left h]

theorem rescue_written (s : State) (m : Master) (hidle : BtrIdle s m) (hmode : s.mode = .commissioning) (hlost : s.vigil.trunk ≠ .valid)
    (hplate : hasPlate s = true) (hready : entReady s = true) (hfree : HybridFree s) (hplain : PlainWrite s m (btrBuf s) 4738) :
    Leads (.rescue m) s (fun t =>
      t.rescueSeed = drawBytes s 120 ∧
      memBytes t (btrBuf s) 3458 = rescuePublic (drawBytes s 120) ++ platePublic s ∧ BtrEnds t 0 0 ∧
      t.vigil = s.vigil) := by
  obtain ⟨hhybrid, hlane⟩ := hfree
  obtain ⟨v, hv⟩ : ∃ v, drawn { begun s with rescueSeed := drawBytes s 120 } 120 = v := ⟨_, rfl⟩
  have hformV : v = { begun s with rescueSeed := drawBytes s 120, ent := v.ent, entCtr := v.entCtr } := by
    rw [← hv]
    rfl
  obtain ⟨cells, cache, lanes, ent, ctr, n, hsigned, hlen⟩ := signBy_signs v 4095 (rescueMsg (rescuePublic (drawBytes s 120)) (identity v))
  generalize hsig : signBy v 4095 (rescueMsg (rescuePublic (drawBytes s 120)) (identity v)) = r at hsigned hlen
  have hpublic : (rescuePublic (drawBytes s 120) ++ platePublic s).length = 3458 := by
    rw [List.length_append, rescuePublic_length, platePublic, slice_length]
  have hsize : (rescuePublic (drawBytes s 120) ++ platePublic s ++ r.sig).length = 4738 := by
    rw [List.length_append, hpublic, hlen]
  have hplain' : PlainWrite r.state m (btrBuf s + 0) (rescuePublic (drawBytes s 120) ++ platePublic s ++ r.sig).length := by
    rw [hsize, hsigned, hformV]
    exact plainWrite_countR64 n (by decide) (by decide)
      (plainWrite_unread (s := begun s) rfl (plainWrite_setR _ (by decide) (by decide) hplain))
  obtain ⟨w, hput, hmem, hform⟩ := putBuf_ends hplain'
  have hplateV : platePublic v = platePublic s := by
    rw [hformV]
    rfl
  have hrow : rescueCommand (begun s) (commandArgs s m) = btrResult w 0 0 := by
    unfold rescueCommand
    rw [if_neg (show (begun s).vigil.trunk ≠ .valid from hlost), if_neg (by simp [show hasPlate (begun s) = true from hplate]),
      if_neg (by simp [entReady_begun, hready, show anyLane (begun s) = true from hlane]),
      viaMae_free ((hybridReady_begun s).trans hhybrid)]
    dsimp only
    rw [show drawBytes (begun s) 120 = drawBytes s 120 from rfl, hv, hsig, hplateV, hput]
  have hexec : exec (.rescue m) s = done (btrResult w 0 0) :=
    congrArg done ((btrCommand_accepted hidle (modeOk := inCommissioning) (decide_eq_true hmode) rescueCommand).trans hrow)
  obtain ⟨regs, hcount⟩ : ∃ regs, countR64 { v with badPrivate := cells, keyCache := cache, lanes := lanes, ent := ent, entCtr := ctr }
      Reg.LSU_SIGNS n =
        { s with regs := regs, rescueSeed := drawBytes s 120, badPrivate := cells, keyCache := cache, lanes := lanes, ent := ent,
                 entCtr := ctr } := by
    rw [hformV]
    exact ⟨_, rfl⟩
  rw [hsigned, hcount] at hform
  have hprefix : memBytes w (btrBuf s) 3458 = rescuePublic (drawBytes s 120) ++ platePublic s := by
    rw [hsize] at hmem
    rw [memBytes_take w (btrBuf s) (show 3458 ≤ 4738 by decide), show memBytes w (btrBuf s) 4738 = _ from hmem, ← hpublic,
      List.take_left]
  refine leads_done hexec ?_ ⟨?_, hprefix, btrEnds_success w, ?_⟩
  · rw [hform]
    exact hidle.1
  · rw [hform]
    rfl
  · rw [hform]
    rfl

/-! ### RELEASE -/

theorem pairKey_congr {s t : State} (hvigil : t.vigil = s.vigil) (hbranches : t.branches = s.branches) (hstations : t.stations = s.stations)
    (label : Bytes) : pairKey t label = pairKey s label := by
  have hkey (i : Nat) : branchKey t i = branchKey s i := keyUnder_congr (congrArg Vigil.trunkKey hvigil) hbranches 9 i
  unfold pairKey chainValid trunkCheckNow
  simp only [hvigil, hbranches, hstations, hkey]

theorem entReady_countVerify (s : State) : entReady (countVerify s) = entReady s := by
  unfold entReady bitR countVerify countR64
  rw [sameRegs_setR64 s Reg.LSU_VERIFIES _ Reg.ENT_STATUS (by decide)]

/-- A release whose request is genuine: the block is written behind the blob. -/
theorem release_written (s : State) (m : Master) (kp : Bytes) (hidle : BtrIdle s m) (hmode : s.mode = .running)
    (hread : PlainRead s m (btrBuf s) 4922)
    (hpair : pairKey s (slice (slice (memBytes s (btrBuf s) 4922) 0 184) 24 32) = .escrow kp) (hready : entReady s = true)
    (hfree : HybridFree s) (chain blob ks r : Bytes) (hchain : memBytes s (btrBuf s) 4922 = chain) (hblob : slice chain 0 184 = blob)
    (hks : childKey kp (slice blob 56 32) 5 (BitVec.ofNat 32 (num blob 4 4)) = ks)
    (hr : releaseBlock ks (slice chain 184 1665) (slice blob 8 16) (drawBytes s 104) = r)
    (hplate : (sha3_256 (slice chain 1849 1793)).take 16 = slice blob 8 16)
    (hverify : falconVerify (slice chain 1849 1793) (rescueMsg (slice chain 184 1665) (slice blob 8 16)) (slice chain 3642 1280) = true)
    (hseal : kmac256 ks (slice blob 0 152) 32 sealTrunk = slice blob 152 32) (hpublic : publicOk (slice chain 184 1665) = true)
    (hwrite : PlainWrite s m (btrBuf s + 184) r.length) :
    Leads (.release m) s (fun t =>
      memBytes t (btrBuf s + 184) r.length = r ∧ BtrEnds t 0 0 ∧ t.vigil = s.vigil ∧ t.branches = s.branches) := by
  obtain ⟨hhybrid, hlane⟩ := hfree
  have hwrite' : PlainWrite (drawn (countVerify (begun s)) 104) m (btrBuf s + 184) r.length :=
    plainWrite_drawn 104 (plainWrite_countR64 1 (by decide) (by decide) (plainWrite_setR _ (by decide) (by decide) hwrite))
  obtain ⟨w, hput, hmem, hform⟩ := putBuf_ends hwrite'
  have hkey : pairKey (countVerify (begun s)) (slice blob 24 32) = .escrow kp := by
    rw [pairKey_congr (s := s) (t := countVerify (begun s)) rfl rfl rfl, ← hblob, ← hchain]
    exact hpair
  have hsigned : releaseSigned (countVerify (begun s)) (commandArgs s m) blob (slice chain 184 1665) = btrResult w 0 0 := by
    unfold releaseSigned
    rw [hkey]
    dsimp only
    unfold releaseWith
    dsimp only
    rw [hks, if_neg (not_not.mpr hseal), if_neg (by simp [hpublic]), if_neg (by simp [entReady_countVerify, entReady_begun, hready]),
      show drawBytes (countVerify (begun s)) 104 = drawBytes s 104 from rfl, hr, hput]
  have hrow : releaseCommand (begun s) (commandArgs s m) = btrResult w 0 0 := by
    unfold releaseCommand
    rw [withBuf_plain hread, hchain]
    dsimp only
    rw [hblob, if_neg (not_not.mpr hplate), if_neg (by simp [show anyLane (begun s) = true from hlane]), if_neg (by simp [hverify]),
      viaMae_free ((hybridReady_begun s).trans hhybrid), hsigned]
  obtain ⟨regs, hcount⟩ : ∃ regs, countVerify (begun s) = { s with regs := regs } := ⟨_, rfl⟩
  rw [hcount] at hform
  have hexec : exec (.release m) s = done (btrResult w 0 0) :=
    congrArg done ((btrCommand_accepted hidle (modeOk := inRunning) (decide_eq_true hmode) releaseCommand).trans hrow)
  refine leads_done hexec ?_ ⟨hmem, btrEnds_success w, ?_, ?_⟩
  · rw [hform]
    exact hidle.1
  · rw [hform]
    rfl
  · rw [hform]
    rfl

/-! ### IMPORT -/

/-- The table that an image gives, whatever the log's retirements are. -/
theorem takeImage_settles (s : State) (im : TableImage) : ∃ u, takeImage s im = settleLevel u ∧
    u = { s with regs := u.regs, branches := u.branches, flash := u.flash, badPrivate := u.badPrivate } := by
  refine ⟨orR (measureImage (countParents (sealTable { s with branches := reapply s (imageBranches s.vigil.trunkKey im) })) im)
    Reg.BTR_STATUS 8, rfl, rfl⟩

/-- A table that can be read again, or none at all where the fuses fail. -/
theorem rebuildTable_settles {s : State} {im : TableImage} (htrunk : s.vigil.trunk = .valid) (hwhole : privateBad s .trunk = false)
    (himage : s.image = some im) (hopens : imageOpens s im = true) : ∃ u w, rebuildTable s = w ∧
      u = { s with regs := u.regs, branches := u.branches, flash := u.flash, badPrivate := u.badPrivate } ∧ SettingsKept u w := by
  by_cases hfuses : s.fusesOk = true
  · obtain ⟨u, htake, hform⟩ := takeImage_settles s im
    exact ⟨u, _, (rebuildTable_takes hfuses htrunk hwhole himage hopens).trans htake, hform, settleLevel_kept u⟩
  · exact ⟨_, _, if_pos (by simp [hfuses]), rfl, SettingsKept.refl _⟩

/-- The Trunk that a device takes back. -/
theorem putTrunk_puts (s : State) (k : Bytes) : ∃ u, putTrunk s k = u ∧ u.vigil.trunk = .valid ∧ u.vigil.trunkKey = k ∧
    isPending u 291 = true ∧ privateBad u .trunk = false ∧ u.image = s.image ∧ (Quiet s → Quiet u) ∧
    ∀ im, imageOpens u im = imageOpens { s with vigil := { s.vigil with trunk := .valid, trunkKey := k } } im := by
  obtain ⟨v, hv⟩ : ∃ v, sealPrivate { s with vigil := { s.vigil with trunk := .valid, trunkKey := k }, keyCache := [] } .trunk = v := ⟨_, rfl⟩
  have hput : putTrunk s k = tailDue (raise v 291) := by
    rw [← hv]
    rfl
  have hpending := isPending_raise_same v (n := 291) (by decide)
  have hwhole : privateBad v .trunk = false := by
    rw [← hv]
    unfold privateBad sealPrivate
    simp
  obtain ⟨q, o, hraise⟩ := raise_form v 291
  refine ⟨_, hput, ?_⟩
  rw [hraise] at hpending ⊢
  rw [← hv] at hpending hwhole ⊢
  exact ⟨rfl, rfl, hpending, hwhole, rfl, id, fun _ => rfl⟩

theorem importCommand_imports {s : State} {m : Master} (hlost : s.vigil.trunk ≠ .valid) (hread : PlainRead s m (btrBuf s) 1929)
    (hfree : HybridFree s) : importCommand (begun s) (commandArgs s m) = importFrom (begun s) (memBytes s (btrBuf s) 1929) := by
  obtain ⟨hhybrid, hlane⟩ := hfree
  unfold importCommand
  rw [if_neg (show (begun s).vigil.trunk ≠ .valid from hlost), if_neg (by simp [show anyLane (begun s) = true from hlane]),
    withBuf_plain hread, viaMae_free ((hybridReady_begun s).trans hhybrid)]

theorem trunk_imported (s : State) (m : Master) (hidle : BtrIdle s m) (hmode : s.mode = .commissioning) (hlost : s.vigil.trunk ≠ .valid)
    (hread : PlainRead s m (btrBuf s) 1929) (hseed : s.rescueSeed ≠ []) (hplate : hasPlate s = true) (hfree : HybridFree s)
    (blob rel kx ks trunk : Bytes) (hblob : slice (memBytes s (btrBuf s) 1929) 0 184 = blob)
    (hrel : slice (memBytes s (btrBuf s) 1929) 184 1745 = rel)
    (hkx : (let d := decapsulate (slice s.rescueSeed 0 64) (scalarOf (slice s.rescueSeed 64 56)) (slice rel 0 1665) (zeros 48)
      hybridKey d.1 d.2 (rescuePublic s.rescueSeed) (slice rel 0 1665) (slice blob 8 16) (ascii "XLX release")) = kx)
    (hks : xorBytes (slice rel 1681 32) (kmacXof256 kx (slice rel 1665 16) 32 wrapTrunk) = ks)
    (htrunk : xorBytes (slice blob 120 32) (kmacXof256 ks (slice blob 104 16 ++ slice blob 8 16) 32 wrapTrunk) = trunk)
    (hrelease : kmac256 kx (slice rel 0 1713) 32 sealTrunk = slice rel 1713 32)
    (hbackup : kmac256 ks (slice blob 0 152) 32 sealTrunk = slice blob 152 32) (hself : slice blob 8 16 = identity s)
    (hcheck : trunkCheck trunk = slice blob 96 8) (hopens : ImageOpensUnder s trunk) :
    Leads (.btrImport m) s (fun t =>
      t.vigil.trunk = .valid ∧ trunkCheck t.vigil.trunkKey = slice blob 96 8 ∧ isPending t 291 = true ∧ BtrEnds t 0 0) := by
  obtain ⟨im, himage, hopens⟩ := hopens
  obtain ⟨v, hv, hvalid, hkey, hpending, hwhole, himageV, hquietV, hopensV⟩ := putTrunk_puts (begun s) trunk
  have hopens' : imageOpens v im = true := (hopensV im).trans hopens
  obtain ⟨u, w, hw, hformU, hkept⟩ := rebuildTable_settles hvalid hwhole (himageV.trans himage) hopens'
  have hfrom : importFrom (begun s) (memBytes s (btrBuf s) 1929) = btrResult w 0 0 := by
    unfold importFrom
    dsimp only at hkx ⊢
    rw [show (begun s).rescueSeed = s.rescueSeed from rfl, hblob, hrel, hkx, hks, htrunk, if_neg (by simpa using hseed),
      if_neg (not_not.mpr hrelease), if_neg (not_not.mpr hbackup),
      if_neg (by simp [show hasPlate (begun s) = true from hplate, show identity (begun s) = identity s from rfl, hself]),
      if_neg (not_not.mpr hcheck), hv, hw]
  have hexec : exec (.btrImport m) s = done (btrResult w 0 0) :=
    congrArg done ((btrCommand_accepted hidle (modeOk := inCommissioning) (decide_eq_true hmode) importCommand).trans
      ((importCommand_imports hlost hread hfree).trans hfrom))
  have hquietU : Quiet u := by
    rw [hformU]
    exact hquietV hidle.1
  have hvigil : w.vigil = v.vigil := hkept.rest.2.1.trans (by rw [hformU])
  have hpendingU : isPending u 291 = true := by
    rw [hformU]
    exact hpending
  refine leads_done hexec (hkept.quiet hquietU) ⟨?_, ?_, hkept.2.2 291 (by decide) hpendingU, btrEnds_success w⟩
  · exact (congrArg Vigil.trunk hvigil).trans hvalid
  · rw [show (btrResult w 0 0).vigil = v.vigil from hvigil, hkey, hcheck]

theorem trunkBackup : Claims.TrunkBackup := by
  refine ⟨backup_written, rescue_written, ?_, ?_⟩
  · intro s m kp hidle hmode hread hpair hready hfree
    by_cases hall :
        let chain := memBytes s (btrBuf s) 4922
        let blob := slice chain 0 184
        let ks := childKey kp (slice blob 56 32) 5 (BitVec.ofNat 32 (num blob 4 4))
        (sha3_256 (slice chain 1849 1793)).take 16 = slice blob 8 16 ∧
        falconVerify (slice chain 1849 1793) (rescueMsg (slice chain 184 1665) (slice blob 8 16)) (slice chain 3642 1280) = true ∧
        kmac256 ks (slice blob 0 152) 32 sealTrunk = slice blob 152 32 ∧ publicOk (slice chain 184 1665) = true ∧
        PlainWrite s m (btrBuf s + 184) (releaseBlock ks (slice chain 184 1665) (slice blob 8 16) (drawBytes s 104)).length
    · obtain ⟨hplate, hverify, hseal, hpublic, hwrite⟩ := hall
      obtain ⟨t, hexec, hgoal⟩ := release_written s m kp hidle hmode hread hpair hready hfree _ _ _ _ rfl rfl rfl rfl hplate hverify
        hseal hpublic hwrite
      exact ⟨t, hexec, fun _ _ _ _ _ => hgoal⟩
    · obtain ⟨t, hexec, -, -⟩ := Sys2Proof.Invariants.everyCommandCompletes (.release m) s
      exact ⟨t, hexec, fun h1 h2 h3 h4 h5 => absurd ⟨h1, h2, h3, h4, h5⟩ hall⟩
  · intro s m hidle hmode hlost hread hseed hplate hfree
    by_cases hall :
        let blob := slice (memBytes s (btrBuf s) 1929) 0 184
        let rel := slice (memBytes s (btrBuf s) 1929) 184 1745
        let d := decapsulate (slice s.rescueSeed 0 64) (scalarOf (slice s.rescueSeed 64 56)) (slice rel 0 1665) (zeros 48)
        let kx := hybridKey d.1 d.2 (rescuePublic s.rescueSeed) (slice rel 0 1665) (slice blob 8 16) (ascii "XLX release")
        let ks := xorBytes (slice rel 1681 32) (kmacXof256 kx (slice rel 1665 16) 32 wrapTrunk)
        let trunk := xorBytes (slice blob 120 32) (kmacXof256 ks (slice blob 104 16 ++ slice blob 8 16) 32 wrapTrunk)
        kmac256 kx (slice rel 0 1713) 32 sealTrunk = slice rel 1713 32 ∧
        kmac256 ks (slice blob 0 152) 32 sealTrunk = slice blob 152 32 ∧ slice blob 8 16 = identity s ∧
        trunkCheck trunk = slice blob 96 8 ∧ ImageOpensUnder s trunk
    · obtain ⟨hrelease, hbackup, hself, hcheck, hopens⟩ := hall
      obtain ⟨t, hexec, hgoal⟩ := trunk_imported s m hidle hmode hlost hread hseed hplate hfree _ _ _ _ _ rfl rfl rfl rfl rfl
        hrelease hbackup hself hcheck hopens
      exact ⟨t, hexec, fun _ => hgoal⟩
    · obtain ⟨t, hexec, -, -⟩ := Sys2Proof.Invariants.everyCommandCompletes (.btrImport m) s
      exact ⟨t, hexec, fun h => absurd h hall⟩

/-- Settles O18: the Trunk is drawn, its table emptied, imaged and rebuilt, its loss ends the device in Condemned; and the backup,
rescue, release and import write and check their blocks. -/
theorem trunkUnit : Obligations.TrunkUnit := ⟨Sys2Proof.TrunkTable.trunkAndTable, trunkBackup⟩

end Sys2Proof.TrunkBackup
end

section
/-! PROOF. The boot chain (R529, R531, R534, R535): with every self-test passed the chosen image starts, or the recovery monitor; what
follows at once serves waybills only, for no trip is due and the device seals no epoch yet. -/

namespace Sys2Proof.BootStart

set_option Elab.async false

open Sys2Proof.Machine Sys2Proof.Frames Sys2Proof.Chains Sys2Proof.LogFrames Sys2Proof.Service

/-! ### After a step that leaves no trip due -/

/-- No trip is due, every seal is whole, and the device seals no epoch. -/
def Still (s : State) : Prop := s.tripsDue = [] ∧ SealsWhole s ∧ sealing s = false

theorem Still.served {s t : State} (h : Still s) (k : Served s t) : Still t := by
  obtain ⟨htrips, hwhole, hsealing⟩ := h
  obtain ⟨hwholeT, htripsT⟩ := k.whole hwhole
  refine ⟨htripsT.trans htrips, hwholeT, ?_⟩
  unfold sealing at hsealing ⊢
  rw [show t.mode = s.mode from (congrArg State.mode k.form :)]
  exact hsealing

theorem round_served {s : State} (h : Still s) : Served s (checkTracks (applyTrips s)) := by
  have hnone : applyTrips s = s := if_pos (by simp [h.1])
  have hfences := finishFences_served s
  have hsealing := (h.served hfences).2.2
  rw [hnone]
  unfold checkTracks
  dsimp only
  rw [if_neg (by simp [hsealing])]
  exact hfences

theorem afterRounds_served (n : Nat) {s : State} (h : Still s) : Served s (afterRounds n s) := by
  induction n generalizing s with
  | zero =>
    have hsame : ({ s with tripsDue := [] } : State) = s := by rw [← h.1]
    show Served s { s with tripsDue := [] }
    rw [hsame]
    exact Served.refl s
  | succ n ih =>
    have hround := round_served h
    unfold afterRounds
    dsimp only
    split
    · exact hround
    · exact hround.trans (ih (h.served hround))

theorem after_served {s : State} (h : Still s) : Served s (after s) :=
  ((afterRounds_served 8 h).trans (serveUsb_served _ _)).trans (settleMark_served _)

/-! ### The self-tests pass -/

theorem foldl_unchanged {α : Type} {g : State → α → State} {l : List α} (s : State) (h : ∀ x ∈ l, g s x = s) : l.foldl g s = s := by
  induction l with
  | nil => rfl
  | cons x r ih =>
    rw [List.foldl_cons, h x List.mem_cons_self]
    exact ih (fun y hy => h y (List.mem_cons_of_mem x hy))

theorem bootTracks_pass (s : State) : (List.range 8).foldl (bootTrack 0xFF) s = s := by
  have hpass : ∀ t ∈ List.range 8, (0xFF : BitVec 8).getLsbD t = true := by decide
  exact foldl_unchanged s fun t ht => if_pos (hpass t ht)

theorem bootLanes_pass (s : State) : ∃ lanes, (List.range 4).foldl (bootLane 0xF) s = { s with lanes := lanes } := by
  have hpass : ∀ n ∈ List.range 4, (0xF : BitVec 4).getLsbD n = true := by decide
  generalize List.range 4 = l at hpass
  induction l generalizing s with
  | nil => exact ⟨_, rfl⟩
  | cons n r ih =>
    have hstep : bootLane 0xF s n = setLane s n { laneAt s n with keys := bootStore s } := if_pos (hpass n List.mem_cons_self)
    rw [List.foldl_cons, hstep]
    obtain ⟨lanes, hr⟩ := ih (setLane s n { laneAt s n with keys := bootStore s }) (fun k hk => hpass k (List.mem_cons_of_mem n hk))
    exact ⟨lanes, hr⟩

theorem enableLanes_form (s : State) : ∃ lanes, enableLanes s = { s with lanes := lanes } := by
  unfold enableLanes
  generalize List.range 4 = l
  have hfold : ∀ t : State, ∃ lanes, l.foldl (fun t n => setLane t n { laneAt t n with enabled := (lanesInUse s).contains n }) t =
      { t with lanes := lanes } := by
    induction l with
    | nil => exact fun t => ⟨_, rfl⟩
    | cons n r ih =>
      intro t
      obtain ⟨lanes, hr⟩ := ih (setLane t n { laneAt t n with enabled := (lanesInUse s).contains n })
      exact ⟨lanes, hr⟩
  exact hfold s

theorem enableTracks_form (s : State) : ∃ tracks, enableTracks s = { s with tracks := tracks } := by
  unfold enableTracks
  generalize List.range 8 = l
  have hfold : ∀ t : State, ∃ tracks, l.foldl (fun t i => setTrack t i { trackAt t i with enabled := (inUse s).contains i }) t =
      { t with tracks := tracks } := by
    induction l with
    | nil => exact fun t => ⟨_, rfl⟩
    | cons i r ih =>
      intro t
      obtain ⟨tracks, hr⟩ := ih (setTrack t i { trackAt t i with enabled := (inUse s).contains i })
      exact ⟨tracks, hr⟩
  exact hfold s

/-- Suspect blocks are erased, and nothing else changes; without one nothing changes. -/
theorem eraseSuspects_form (s : State) : (∃ pages blocks, eraseSuspects s [] = { s with flash := { s.flash with pages := pages, blocks := blocks } }) ∧
    ((∀ e ∈ s.flash.blocks, e.2.suspect = false) → eraseSuspects s [] = s) := by
  unfold eraseSuspects
  constructor
  · generalize s.flash.blocks = l
    induction l generalizing s with
    | nil => exact ⟨_, _, rfl⟩
    | cons e r ih =>
      rw [List.foldl_cons, if_neg (show ¬(([] : List (Nat × Nat)).contains (e.1 / 1696, e.1 % 1696) = true) by simp)]
      split
      · obtain ⟨pages, blocks, hr⟩ := ih (eraseKey s e.1)
        exact ⟨pages, blocks, hr⟩
      · exact ih s
  · exact fun h => foldl_unchanged s fun e he => if_neg (by simp [h e he])

/-- The device before its boot chain. -/
theorem releaseCores_prepares (s : State) : ∃ u, releaseCores s 0xFF 0xF 0 [] = bootChain u ∧
    u = { s with vigil := { s.vigil with testMap := 0 }, flash := { s.flash with pages := u.flash.pages, blocks := u.flash.blocks },
                 lanes := u.lanes, tracks := u.tracks } ∧
    ((∀ e ∈ s.flash.blocks, e.2.suspect = false) → u.flash = s.flash) := by
  have hdetectors : bootDetectors s 0 = { s with vigil := { s.vigil with testMap := 0 } } := by
    unfold bootDetectors
    dsimp only
    rw [show (0 : BitVec 128) &&& BitVec.ofNat 128 (2 ^ 101 - 1) = 0 from BitVec.zero_and, if_pos rfl]
  obtain ⟨v, hv⟩ : ∃ v : State, { s with vigil := { s.vigil with testMap := 0 } } = v := ⟨_, rfl⟩
  obtain ⟨⟨pages, blocks, herase⟩, hnone⟩ := eraseSuspects_form v
  unfold releaseCores
  dsimp only
  rw [hdetectors, hv, bootTracks_pass]
  generalize eraseSuspects v [] = e at herase hnone
  obtain ⟨lanes, hlanes⟩ := bootLanes_pass e
  rw [hlanes]
  obtain ⟨lanes', hlanes'⟩ := enableLanes_form { e with lanes := lanes }
  rw [hlanes']
  obtain ⟨tracks, htracks⟩ := enableTracks_form { e with lanes := lanes' }
  refine ⟨_, rfl, ?_, fun h => ?_⟩
  · rw [show enableTracks { e with lanes := lanes' } = { e with lanes := lanes', tracks := tracks } from htracks, herase, ← hv]
  · have hblocks : ∀ x ∈ v.flash.blocks, x.2.suspect = false := by
      rw [← hv]
      exact h
    rw [show enableTracks { e with lanes := lanes' } = { e with lanes := lanes', tracks := tracks } from htracks, hnone hblocks, ← hv]

theorem coresReleased_chains {s : State} (hmode : s.mode = .shed) (hrun : s.coresRun = false) (hfuses : s.fusesOk = true)
    (hdie : dieRuns s = true) : exec (.coresReleased 0xFF 0xF ⟨0, []⟩) s = done (releaseCores s 0xFF 0xF 0 []) := by
  show execCoresReleased 0xFF 0xF ⟨0, []⟩ s = _
  have hmain : mainPower s = true := by
    unfold mainPower
    rw [hmode]
    rfl
  unfold execCoresReleased
  rw [if_pos (by simp [hmain, hrun, hfuses, hdie])]

/-! ### The recovery monitor -/

/-- The monitor runs, in whatever mode; `causes` is the Deadman's register. -/
structure Monitored (causes : Word) (t : State) : Prop where
  flash : t.flash.monitor = true
  runs : t.coresRun = true ∧ t.booted = true
  cause : getR t Reg.DMN_CAUSE = causes
  event : isPending t 37 = true
  cores : ∀ n, n < 4 → (coreAt t n).wait = if n = 0 then .none else .waitf 0

theorem Monitored.served {causes : Word} {s t : State} (h : Monitored causes s) (k : Served s t) : Monitored causes t := by
  obtain ⟨hflash, ⟨hrun, hbooted⟩, hcause, hevent, hcores⟩ := h
  have hsame : t.cores = s.cores := (congrArg State.cores k.form :)
  refine ⟨k.boots.1.trans hflash, ⟨(congrArg State.coresRun k.form :).trans hrun, (congrArg State.booted k.form :).trans hbooted⟩,
    (k.regs Reg.DMN_CAUSE (by decide)).trans hcause, k.pends 37 (by decide) hevent, ?_⟩
  unfold coreAt at hcores ⊢
  rwa [hsame]

theorem Monitored.setMode {causes : Word} {s : State} (h : Monitored causes s) (m : Mode) (reason : Nat) :
    Monitored causes (setMode { s with awaiting := none } m reason) := by
  obtain ⟨u, hu⟩ : ∃ u, setR { s with awaiting := none, mode := m, prevMode := s.mode } Reg.SYS_MODE (place 8 8 reason) = u := ⟨_, rfl⟩
  have hset : Machine.setMode { s with awaiting := none } m reason = tailDue (raise u 0) := by
    rw [← hu]
    rfl
  obtain ⟨hflash, hruns, hcause, hevent, hcores⟩ := h
  have hmonitored : Monitored causes u := by
    rw [← hu]
    exact ⟨hflash, hruns, (getR_setR_other _ _ _ _ (by decide)).trans hcause, hevent, hcores⟩
  obtain ⟨hflashR, hrunsR, hcauseR, heventR, hcoresR⟩ := hmonitored.served (raise_served u 0)
  rw [hset]
  exact ⟨hflashR, hrunsR, hcauseR, heventR, hcoresR⟩

theorem still_setMode {s : State} (h : Still s) {m : Mode} (hm : m ≠ .running ∧ m ≠ .caution) (reason : Nat) :
    Still (setMode { s with awaiting := none } m reason) := by
  obtain ⟨u, hu⟩ : ∃ u, setR { s with awaiting := none, mode := m, prevMode := s.mode } Reg.SYS_MODE (place 8 8 reason) = u := ⟨_, rfl⟩
  have hset : setMode { s with awaiting := none } m reason = tailDue (raise u 0) := by
    rw [← hu]
    rfl
  have hstill : Still u := by
    rw [← hu]
    refine ⟨h.1, h.2.1, ?_⟩
    show (decide (m = .running) || decide (m = .caution)) = false
    simp [hm.1, hm.2]
  obtain ⟨htrips, hwhole, hsealing⟩ := hstill.served (raise_served u 0)
  rw [hset]
  exact ⟨htrips, hwhole, hsealing⟩

theorem setMode_mode (s : State) (m : Mode) (reason : Nat) : (setMode s m reason).mode = m := by
  unfold setMode
  have hform := (raise_served (setR { s with mode := m, prevMode := s.mode } Reg.SYS_MODE (place 8 8 reason)) 0).form
  exact (congrArg State.mode hform :)

/-- A device in Shed enters Maintenance. -/
theorem changeMode_maintenance {s : State} (hmode : s.mode = .shed) : changeMode s .maintenance 1 =
    endInventory (setMode { (if !ready s then raise s 32 else s) with awaiting := none } .maintenance 1) 0x0A := by
  have hwas : sealing s = false := by
    unfold sealing
    rw [hmode]
    rfl
  unfold changeMode
  simp only [hwas, hmode, selfDue, reduceCtorEq, decide_false, Bool.false_or, Bool.not_false,
    Bool.false_eq_true, false_and, ne_eq, not_false_eq_true, true_and, or_self, if_false]

/-- What the recovery monitor leaves as it leaves Shed. -/
theorem leaveShed_monitored {causes : Word} {s : State} (h : Monitored causes s) (hstill : Still s) (hmode : s.mode = .shed)
    (hfuses : s.fusesOk = true) : Monitored causes (leaveShed s) ∧ Still (leaveShed s) ∧ (leaveShed s).mode = (if 15000 ≤ s.power.contractMw then .maintenance else .shed) := by
  have htarget : bootTarget s = if 15000 ≤ s.power.contractMw then .maintenance else .shed := by
    unfold bootTarget
    dsimp only
    rw [h.flash, Bool.true_or, if_pos rfl]
  unfold leaveShed
  dsimp only
  rw [htarget]
  split
  · next hmw =>
    rw [if_neg (by simp [h.runs.2, hmode, hfuses]), if_neg (by simp [mustWait]), changeMode_maintenance hmode]
    have htold : Served s (if !ready s then raise s 32 else s) := by
      split
      · exact raise_served s 32
      · exact Served.refl s
    generalize (if !ready s then raise s 32 else s) = u at htold
    have hended := endInventory_served (setMode { u with awaiting := none } .maintenance 1) 0x0A
    exact ⟨((h.served htold).setMode .maintenance 1).served hended,
      (still_setMode (hstill.served htold) ⟨by decide, by decide⟩ 1).served hended,
      (congrArg State.mode hended.form :).trans (setMode_mode _ _ _)⟩
  · rw [if_pos (by simp)]
    exact ⟨h, hstill, hmode⟩

theorem startMonitor_monitors {s : State} (hstill : Still s) (hmode : s.mode = .shed) (hfuses : s.fusesOk = true) :
    Monitored (getR s Reg.DMN_CAUSE ||| 0x200) (startMonitor s) ∧ Still (startMonitor s) ∧
      (startMonitor s).mode = (if 15000 ≤ s.power.contractMw then .maintenance else .shed) := by
  obtain ⟨v, hv⟩ : ∃ v, usedFree { s with
    coresRun := true, booted := true, flash := { s.flash with monitor := true },
    cores := Vector.ofFn (fun n => if n.val = 0 then setPc s.cores[n] (romPc s) else { setPc s.cores[n] (romPc s) with wait := .waitf 0 }) } = v :=
    ⟨_, rfl⟩
  have hstart : startMonitor s = leaveShed (raise (orR v Reg.DMN_CAUSE 0x200) 37) := by
    rw [← hv]
    rfl
  have hpend := isPending_raise_same (orR v Reg.DMN_CAUSE 0x200) (n := 37) (by decide)
  have hraise := raise_served (orR v Reg.DMN_CAUSE 0x200) 37
  have hcause : getR (orR v Reg.DMN_CAUSE 0x200) Reg.DMN_CAUSE = getR s Reg.DMN_CAUSE ||| 0x200 := by
    rw [getR_orR, ← hv]
    rfl
  have hstillV : Still (orR v Reg.DMN_CAUSE 0x200) := by
    rw [← hv]
    exact hstill
  have hcores : ∀ n, n < 4 → (coreAt (raise (orR v Reg.DMN_CAUSE 0x200) 37) n).wait = if n = 0 then .none else .waitf 0 := by
    intro n hn
    unfold coreAt
    rw [show (raise (orR v Reg.DMN_CAUSE 0x200) 37).cores = v.cores from (congrArg State.cores hraise.form :), ← hv]
    interval_cases n <;> rfl
  have hmonitored : Monitored (getR s Reg.DMN_CAUSE ||| 0x200) (raise (orR v Reg.DMN_CAUSE 0x200) 37) := by
    refine ⟨?_, ⟨?_, ?_⟩, (hraise.regs Reg.DMN_CAUSE (by decide)).trans hcause, hpend, hcores⟩
    · rw [hraise.boots.1, ← hv]
      rfl
    · rw [hraise.form, ← hv]
      rfl
    · rw [hraise.form, ← hv]
      rfl
  have hmodeR : (raise (orR v Reg.DMN_CAUSE 0x200) 37).mode = .shed := by
    rw [hraise.form, ← hv]
    exact hmode
  have hfusesR : (raise (orR v Reg.DMN_CAUSE 0x200) 37).fusesOk = true := by
    rw [hraise.form, ← hv]
    exact hfuses
  have hpower : (raise (orR v Reg.DMN_CAUSE 0x200) 37).power = s.power := by
    rw [hraise.form, ← hv]
    rfl
  rw [hstart, ← hpower]
  exact leaveShed_monitored hmonitored (hstillV.served hraise) hmodeR hfusesR

/-- The monitor starts, and what follows leaves it running. -/
theorem monitorRuns_after {s u : State} (hstill : Still u) (hmode : u.mode = .shed) (hfuses : u.fusesOk = true) (hpower : u.power = s.power) :
    MonitorRuns s (after (startMonitor u)) ∧ getR (after (startMonitor u)) Reg.DMN_CAUSE = getR u Reg.DMN_CAUSE ||| 0x200 := by
  obtain ⟨hmonitored, hstillM, hmodeM⟩ := startMonitor_monitors hstill hmode hfuses
  have hafter := after_served hstillM
  generalize after (startMonitor u) = t at hafter
  obtain ⟨hflash, ⟨hrun, hbooted⟩, hcause, hevent, hcores⟩ := hmonitored.served hafter
  unfold MonitorRuns
  refine ⟨⟨hflash, hrun, hbooted, ?_, hevent, hcores, ?_⟩, hcause⟩
  · unfold bitR bit
    rw [hcause, BitVec.getLsbD_or]
    simp
  rw [← hpower]
  exact (congrArg State.mode hafter.form :).trans hmodeM

theorem monitor_started (s : State) (hq : Quiet s) (hwhole : SealsWhole s) (hmode : s.mode = .shed) (hrun : s.coresRun = false)
    (hfuses : s.fusesOk = true) (hdie : dieRuns s = true) (hnone : fieldR s Reg.DMN_CAUSE 10 3 = 4 ∨ bootRec? s = none) :
    Leads (.coresReleased 0xFF 0xF ⟨0, []⟩) s (MonitorRuns s) := by
  obtain ⟨u, hchain, hform, -⟩ := releaseCores_prepares s
  have hstill : Still u := by
    rw [hform]
    refine ⟨hq.1, hwhole, ?_⟩
    unfold sealing
    dsimp only
    rw [hmode]
    rfl
  have hexec := coresReleased_chains hmode hrun hfuses hdie
  have hstart : bootChain u = startMonitor u := by
    refine if_pos (hnone.imp (fun h => ?_) (fun h => ?_))
    · unfold fieldR at h ⊢
      rw [hform]
      exact h
    · rw [show bootRec? u = bootRec? s by rw [hform]; rfl, h]
      rfl
  rw [hchain, hstart] at hexec
  exact leads_of_exec hexec (monitorRuns_after hstill (by rw [hform]; exact hmode) (by rw [hform]; exact hfuses) (by rw [hform])).1

/-! ### An image -/

/-- What a slot is judged by: the flash's pages, blocks and spares, and the settings. -/
def SameImages (s t : State) : Prop :=
  t.flash.pages = s.flash.pages ∧ t.flash.blocks = s.flash.blocks ∧ t.flash.spares = s.flash.spares ∧ t.sst = s.sst ∧
    t.badCells = s.badCells ∧ t.fusesOk = s.fusesOk

theorem slotBytes_congr {s t : State} (h : SameImages s t) (slot off n : Nat) : slotBytes t slot off n = slotBytes s slot off n := by
  obtain ⟨hpages, -, hspares, -, -, -⟩ := h
  unfold slotBytes slotPage slotBlock servingBlock
  simp only [hpages, hspares]

theorem mapSlices_congr {s t : State} (h : SameImages s t) (b : Bool) (n : Nat) : mapSlices t b n = mapSlices s b n := by
  obtain ⟨-, -, hspares, -, -, -⟩ := h
  unfold mapSlices slotBlock servingBlock
  simp only [hspares]

theorem imgHeader_congr {s t : State} (h : SameImages s t) (b : Bool) : imgHeader t b = imgHeader s b := slotBytes_congr h _ _ _

theorem imgCheck_congr {s t : State} (h : SameImages s t) (b : Bool) : imgCheck t b = imgCheck s b := by
  have hheader := imgHeader_congr h b
  have hdigest : imgDigest t b = imgDigest s b := by
    unfold imgDigest
    rw [hheader]
    dsimp only
    rw [slotBytes_congr h]
  have hfloor : versionFloor t = versionFloor s := by
    obtain ⟨-, -, -, hsst, hcells, hfuses⟩ := h
    unfold versionFloor sstGet
    rw [hsst, hcells, hfuses]
  unfold imgCheck
  rw [hheader, hdigest, hfloor]

theorem chooseSlot_congr {s t : State} (h : SameImages s t) (r : BootRec) : chooseSlot t r = chooseSlot s r := by
  unfold chooseSlot slotBoots
  simp only [imgCheck_congr h]

/-- The records of the slots are kept and the signatures counted: the images stay. -/
theorem keepRecord_form (s : State) (a b : BootRec) : ∃ rec0 rec1,
    keepRecord s a b = { s with flash := { s.flash with bootRec0 := rec0, bootRec1 := rec1 } } := by
  unfold keepRecord writeRec
  dsimp only
  split
  · exact ⟨_, _, rfl⟩
  split
  · exact ⟨_, _, rfl⟩
  split <;> exact ⟨_, _, rfl⟩

theorem recorded_form (s : State) (r a b : BootRec) (n : Nat) : ∃ rec0 rec1 regs,
    countR64 (keepRecord (keepRecord s r a) a b) Reg.LSU_VERIFIES n =
      { s with regs := regs, flash := { s.flash with bootRec0 := rec0, bootRec1 := rec1 } } := by
  obtain ⟨rec0, rec1, hfirst⟩ := keepRecord_form s r a
  rw [hfirst]
  obtain ⟨rec0', rec1', hsecond⟩ := keepRecord_form { s with flash := { s.flash with bootRec0 := rec0, bootRec1 := rec1 } } a b
  rw [hsecond]
  exact ⟨rec0', rec1', _, rfl⟩

theorem fallBack_falls (s : State) : bitR (fallBack s) Reg.DMN_CAUSE 8 = true ∧ isPending (fallBack s) 37 = true ∧
    fallBack s = servicePart (orR s Reg.DMN_CAUSE 0x100) (fallBack s) ∧ (Still s → Still (fallBack s)) := by
  have hraise := raise_served (orR s Reg.DMN_CAUSE 0x100) 37
  refine ⟨?_, isPending_raise_same _ (by decide), hraise.form, fun h => Still.served (s := orR s Reg.DMN_CAUSE 0x100) h hraise⟩
  unfold bitR bit
  rw [show getR (fallBack s) Reg.DMN_CAUSE = getR (orR s Reg.DMN_CAUSE 0x100) Reg.DMN_CAUSE from hraise.regs Reg.DMN_CAUSE (by decide),
    getR_orR, BitVec.getLsbD_or]
  simp

/-- The image of a slot runs. -/
structure Started (s : State) (b : Bool) (t : State) : Prop where
  runs : t.coresRun = true
  slot : t.flash.running = b ∧ t.flash.recoveryImage = decide (imgKind (imgHeader s b) = 2)
  entry : (coreAt t 0).sig.pc = BitVec.ofNat 32 (0x30001000 + imgEntry (imgHeader s b)) &&& 0xFFFFFFFC
  cores : ∀ n, n < 4 → (coreAt t n).wait = .none ∧ (coreAt t n).sig.pc.toNat % 4 = 0
  slices : t.flash.slices = mapSlices s b (imgLength (imgHeader s b))
  mode : t.mode = .shed

theorem Started.served {s t u : State} {b : Bool} (h : Started s b t) (k : Served t u) : Started s b u := by
  obtain ⟨hrun, ⟨hslot, hkind⟩, hentry, hcores, hslices, hmode⟩ := h
  obtain ⟨-, hrunning, hrecovery, hmapped⟩ := k.boots
  have hsame : u.cores = t.cores := (congrArg State.cores k.form :)
  unfold coreAt at hentry hcores
  refine ⟨(congrArg State.coresRun k.form :).trans hrun, ⟨hrunning.trans hslot, hrecovery.trans hkind⟩, ?_, ?_, hmapped.trans hslices,
    (congrArg State.mode k.form :).trans hmode⟩
  all_goals
    unfold coreAt
    rw [hsame]
  · exact hentry
  · exact hcores

theorem startImage_starts {s u : State} (b : Bool) (himages : SameImages s u) (hmode : u.mode = .shed) : Started s b (startImage u b) := by
  obtain ⟨v, hv⟩ : ∃ v : State, { u with flash := { u.flash with
    slices := mapSlices u b (imgLength (imgHeader u b)), running := b, recoveryImage := decide (imgKind (imgHeader u b) = 2),
    measured := u.flash.measured ++
      [measurement u 1 Config.romVersion Config.romDigest, measurement u 2 (imgVersion (imgHeader u b)) (imgDigest u b)] } } = v := ⟨_, rfl⟩
  have hstart : startImage u b = enterAt v (BitVec.ofNat 32 (0x30001000 + imgEntry (imgHeader u b)) &&& 0xFFFFFFFC) := by
    rw [← hv]
    rfl
  have hflash : v.flash.running = b ∧ v.flash.recoveryImage = decide (imgKind (imgHeader u b) = 2) ∧
      v.flash.slices = mapSlices u b (imgLength (imgHeader u b)) ∧ v.mode = u.mode := by
    rw [← hv]
    exact ⟨rfl, rfl, rfl, rfl⟩
  obtain ⟨hrunning, hkind, hslices, hmodeV⟩ := hflash
  rw [imgHeader_congr himages] at hstart hkind hslices
  rw [mapSlices_congr himages] at hslices
  rw [hstart]
  have hrom : (romPc v).toNat % 4 = 0 := Sys2Proof.Invariants.and_mask_mod_four _ (by decide)
  have hentry : (BitVec.ofNat 32 (0x30001000 + imgEntry (imgHeader s b)) &&& 0xFFFFFFFC).toNat % 4 = 0 :=
    Sys2Proof.Invariants.and_mask_mod_four _ (by decide)
  generalize hpc : BitVec.ofNat 32 (0x30001000 + imgEntry (imgHeader s b)) &&& 0xFFFFFFFC = pc at hentry ⊢
  have hcores : ∀ n, (hn : n < 4) → coreAt (enterAt v pc) n = setPc v.cores[n] (if n = 0 then pc else romPc v) := by
    intro n hn
    unfold coreAt enterAt usedFree
    dsimp only
    rw [Vector.getElem?_eq_getElem hn, Vector.getElem_ofFn, Option.getD_some]
    rfl
  refine ⟨rfl, ⟨hrunning, hkind⟩, ?_, fun n hn => ⟨?_, ?_⟩, hslices, hmodeV.trans hmode⟩
  · rw [hcores 0 (by decide), hpc]
    rfl
  · rw [hcores n hn]
    rfl
  · rw [hcores n hn]
    show (if n = 0 then pc else romPc v).toNat % 4 = 0
    split
    · exact hentry
    · exact hrom

/-- The chain with a record: the record is brought up to date, a fallback is noted, and the slot's image starts, or the monitor. -/
theorem bootChain_records {u : State} {r : BootRec} (hforced : fieldR u Reg.DMN_CAUSE 10 3 ≠ 4) (hrec : bootRec? u = some r) : ∃ w,
    bootChain u = (match (chooseSlot u r).slot with
      | some b => startImage (if (chooseSlot u r).fallback then fallBack w else w) b
      | none => startMonitor (if (chooseSlot u r).fallback then fallBack w else w)) ∧
    ∃ rec0 rec1 regs, w = { u with regs := regs, flash := { u.flash with bootRec0 := rec0, bootRec1 := rec1 } } := by
  have hrecord : bootRec u = r := by rw [bootRec, hrec]; rfl
  refine ⟨countR64 (keepRecord (keepRecord u r (firstChoice r).record) (firstChoice r).record (chooseSlot u r).record) Reg.LSU_VERIFIES
    (bootVerifies u r), ?_, recorded_form _ _ _ _ _⟩
  unfold bootChain
  rw [if_neg (by simp [hforced, hrec])]
  dsimp only
  subst hrecord
  cases (chooseSlot u (bootRec u)).slot with
  | none => rfl
  | some b => rfl

/-- A fallback is noted; else nothing changes. -/
theorem fallen_form (w : State) (c : Bool) : ∃ x, (if c then fallBack w else w) = x ∧ (Still w → Still x) ∧
    (c = true → bitR x Reg.DMN_CAUSE 8 = true ∧ isPending x 37 = true) ∧ x.mode = w.mode ∧ x.fusesOk = w.fusesOk ∧ x.power = w.power ∧
      (∀ s, SameImages s w → SameImages s x) := by
  cases c with
  | false => exact ⟨w, rfl, id, fun h => absurd h (by decide), rfl, rfl, rfl, fun _ h => h⟩
  | true =>
    obtain ⟨hbit, hpend, hform, hstill⟩ := fallBack_falls w
    refine ⟨fallBack w, rfl, hstill, fun _ => ⟨hbit, hpend⟩, ?_⟩
    obtain ⟨q, o, hraise⟩ := raise_form (orR w Reg.DMN_CAUSE 0x100) 37
    unfold fallBack
    rw [hraise]
    exact ⟨rfl, rfl, rfl, fun _ h => h⟩

theorem image_started (s : State) (r : BootRec) (hq : Quiet s) (hwhole : SealsWhole s) (hmode : s.mode = .shed) (hrun : s.coresRun = false)
    (hfuses : s.fusesOk = true) (hdie : dieRuns s = true) (hblocks : ∀ e ∈ s.flash.blocks, e.2.suspect = false)
    (hforced : fieldR s Reg.DMN_CAUSE 10 3 ≠ 4) (hrec : bootRec? s = some r) : Leads (.coresReleased 0xFF 0xF ⟨0, []⟩) s (fun t =>
      t.coresRun = true ∧
      ((chooseSlot s r).fallback = true → bitR t Reg.DMN_CAUSE 8 = true ∧ isPending t 37 = true) ∧
      ((chooseSlot s r).slot = none → MonitorRuns s t) ∧
      (∀ b, (chooseSlot s r).slot = some b → Started s b t)) := by
  obtain ⟨u, hchain, hform, hflash⟩ := releaseCores_prepares s
  have hflash := hflash hblocks
  have hsealing : sealing s = false := by
    unfold sealing
    rw [hmode]
    rfl
  have himages : SameImages s u := by
    refine ⟨congrArg Flash.pages hflash, congrArg Flash.blocks hflash, congrArg Flash.spares hflash, ?_⟩
    rw [hform]
    exact ⟨rfl, rfl, rfl⟩
  have hforcedU : fieldR u Reg.DMN_CAUSE 10 3 ≠ 4 := by
    rw [hform]
    exact hforced
  have hrecU : bootRec? u = some r := by
    rw [← hrec]
    unfold bootRec? newestIsOne
    rw [hflash]
  obtain ⟨w, hbootChain, rec0, rec1, regs, hw⟩ := bootChain_records hforcedU hrecU
  rw [chooseSlot_congr himages] at hbootChain
  have hstillW : Still w := by
    rw [hw, hform]
    exact ⟨hq.1, hwhole, hsealing⟩
  have hkept : w.mode = .shed ∧ w.fusesOk = true ∧ w.power = s.power := by
    rw [hw, hform]
    exact ⟨hmode, hfuses, rfl⟩
  obtain ⟨hmodeW, hfusesW, hpowerW⟩ := hkept
  have himagesW : SameImages s w := by
    rw [hw]
    exact himages
  obtain ⟨x, hx, hstillX, hfallen, hmodeX, hfusesX, hpowerX, himagesX⟩ := fallen_form w (chooseSlot s r).fallback
  have hstillX := hstillX hstillW
  have himagesX := himagesX s himagesW
  rw [hx] at hbootChain
  have hexec := coresReleased_chains hmode hrun hfuses hdie
  rw [hchain, hbootChain] at hexec
  cases hslot : (chooseSlot s r).slot with
  | none =>
    rw [hslot] at hexec
    obtain ⟨hruns, hcause⟩ := monitorRuns_after (s := s) hstillX (hmodeX.trans hmodeW) (hfusesX.trans hfusesW) (hpowerX.trans hpowerW)
    refine leads_of_exec hexec ⟨hruns.2.1, fun hf => ⟨?_, hruns.2.2.2.2.1⟩, fun _ => hruns, fun b hb => absurd hb (by simp)⟩
    have hbit := (hfallen hf).1
    unfold bitR bit at hbit ⊢
    rw [hcause, BitVec.getLsbD_or, hbit, Bool.true_or]
  | some b =>
    rw [hslot] at hexec
    have hstarted := startImage_starts b himagesX (hmodeX.trans hmodeW)
    have hstillI : Still (startImage x b) := hstillX
    have hafter := after_served hstillI
    refine leads_of_exec hexec ?_
    generalize after (startImage x b) = t at hafter
    have hends := hstarted.served hafter
    refine ⟨hends.runs, fun hf => ?_, fun h => absurd h (by simp), fun c hc => ?_⟩
    · obtain ⟨hbit, hpend⟩ := hfallen hf
      have hpendI : isPending (startImage x b) 37 = true := hpend
      refine ⟨?_, hafter.pends 37 (by decide) hpendI⟩
      unfold bitR at hbit ⊢
      rw [hafter.regs Reg.DMN_CAUSE (by decide)]
      exact hbit
    · rw [← Option.some.inj hc]
      exact hends

/-! ### The mode that a boot aims at -/

theorem bootTarget_image {s : State} (hmonitor : s.flash.monitor = false) (himage : s.flash.recoveryImage = false) :
    (s.vigil.trunk = .lost → bootTarget s = if 15000 ≤ s.power.contractMw then .condemned else .shed) ∧
    (s.vigil.trunk = .empty → bootTarget s = if 27000 ≤ s.power.contractMw ∧ !s.power.bankWeak then .commissioning else .shed) ∧
    (s.vigil.trunk = .valid → bootTarget s =
      if s.power.contractMw < 15000 then .shed
      else if s.power.contractMw < 27000 || s.power.bankWeak || bitR s Reg.ENT_STATUS 2 then .maintenance
      else if !tcxoOk s then .maintenance
      else if s.vigil.held then .caution
      else if (unfenced s).isEmpty then .maintenance
      else .running) := by
  unfold bootTarget
  dsimp only
  rw [hmonitor, himage, if_neg (by decide)]
  refine ⟨fun h => ?_, fun h => ?_, fun h => ?_⟩
  all_goals rw [h]

/-- Settles O47: an image that verifies starts in the chosen slot, else the monitor; and the mode a boot aims at is read off the
Trunk, the contract and the clock. -/
theorem bootChain : Obligations.BootChain := by
  refine ⟨fun s hq hwhole hmode hrun hfuses hdie hnone => monitor_started s hq hwhole hmode hrun hfuses hdie (.inr hnone),
    fun s hq hwhole hmode hrun hfuses hdie hforced => monitor_started s hq hwhole hmode hrun hfuses hdie (.inl hforced), ?_, ?_⟩
  · intro s r hq hwhole hmode hrun hfuses hdie hblocks hforced hrec
    obtain ⟨t, hexec, hruns, hfallen, hnone, hsome⟩ := image_started s r hq hwhole hmode hrun hfuses hdie hblocks hforced hrec
    refine ⟨t, hexec, hruns, hfallen, hnone, fun b hb => ?_⟩
    obtain ⟨-, ⟨hslot, hkind⟩, hentry, hcores, hslices, hmodeT⟩ := hsome b hb
    exact ⟨hslot, hkind, hentry, hcores, hslices, hmodeT⟩
  · intro s hmonitor himage
    obtain ⟨hlost, hempty, hvalid⟩ := bootTarget_image hmonitor himage
    refine ⟨fun h hmw => ?_, fun h hmw hweak => ?_, fun h hlow hhigh => ?_, fun h hmw hweak hent hheld hclock => ?_,
      fun h hmw hclock => ?_, fun h hmw hweak hent hheld hclock htracks => ?_⟩
    · rw [hlost h, if_pos hmw]
    · rw [hempty h, if_pos ⟨hmw, by simp [hweak]⟩]
    · rw [hvalid h, if_neg (by omega), if_pos (by simp [hhigh])]
    · rw [hvalid h, if_neg (by omega), if_neg (by simp [hweak, hent]; omega), if_neg (by simp [hclock]), if_pos hheld]
    · rw [hvalid h, if_neg (by omega)]
      split
      · rfl
      · rw [if_pos (by simp [hclock])]
    · rw [hvalid h, if_neg (by omega), if_neg (by simp [hweak, hent]; omega), if_neg (by simp [hclock]), if_neg (by simp [hheld]),
        if_neg (by simpa using htracks)]

end Sys2Proof.BootStart
end

section
/-! PROOF. Evidence stands (R424, R449): a flag of Lineside, the flag of a shadow comparison, the error bits and the pending bit that
report it outlive every consequence of a step but a reset; and a trip that becomes due on the way is of one of the sources 80 to 107,
whose class is not a reset (R430, R442). -/

namespace Sys2Proof.StandingEvidence

set_option Elab.async false

open Sys2Proof.Machine Sys2Proof.Frames Sys2Proof.Chains Sys2Proof.LogFrames Sys2Proof.Service

/-! ### The relation -/

/-- The sticky flags of `s` stand in `t`. -/
def Sticks (s t : State) : Prop := ∀ n, s.vigil.sticky.getLsbD n = true → t.vigil.sticky.getLsbD n = true

theorem Sticks.refl (s : State) : Sticks s s := fun _ => id

theorem Sticks.trans {s t u : State} (h : Sticks s t) (k : Sticks t u) : Sticks s u := fun n => k n ∘ h n

/-- From `s` to `t` no evidence was lost, and no trip became due but of a high source. -/
structure Keeps (s t : State) : Prop where
  sticky : Sticks s t
  shadow : s.shadowBad = true → t.shadowBad = true
  compare : bitR s Reg.ILK_STATUS 3 = true → bitR t Reg.ILK_STATUS 3 = true
  error : bitR s Reg.ILK_ERR 2 = true → bitR t Reg.ILK_ERR 2 = true
  pends : Pends s t
  trips : ∀ n ∈ t.tripsDue, n ∈ s.tripsDue ∨ HighSource n

theorem Keeps.refl (s : State) : Keeps s s := ⟨Sticks.refl s, id, id, id, fun _ _ => id, fun _ => .inl⟩

theorem Keeps.trans {s t u : State} (h : Keeps s t) (k : Keeps t u) : Keeps s u :=
  ⟨h.sticky.trans k.sticky, k.shadow ∘ h.shadow, k.compare ∘ h.compare, k.error ∘ h.error, h.pends.trans k.pends,
    fun n hn => (k.trips n hn).elim (h.trips n) .inr⟩

/-- What the relation reads. -/
def evidencePart (s : State) : BitVec 128 × Bool × SMap Word × BitVec 1024 × List Nat :=
  (s.vigil.sticky, s.shadowBad, s.regs, s.evtPend, s.tripsDue)

theorem keeps_of_part {s t : State} (h : evidencePart t = evidencePart s) : Keeps s t := by
  obtain ⟨hsticky, h⟩ := Prod.mk.inj h
  obtain ⟨hshadow, h⟩ := Prod.mk.inj h
  obtain ⟨hregs, h⟩ := Prod.mk.inj h
  obtain ⟨hpend, htrips⟩ := Prod.mk.inj h
  have hbit (a i : Nat) : bitR t a i = bitR s a i := by
    unfold bitR
    rw [getR_congr hregs]
  refine ⟨fun n hn => ?_, fun hb => hshadow.trans hb, fun hb => (hbit _ _).trans hb, fun hb => (hbit _ _).trans hb, pends_of_evtPend hpend,
    fun n hn => .inl (htrips ▸ hn)⟩
  rw [hsticky]
  exact hn

theorem Keeps.of_served {s t : State} (h : Served s t) : Keeps s t := by
  have hbit (a i : Nat) (ha : a ∈ standingRegs) (hb : bitR s a i = true) : bitR t a i = true := by
    unfold bitR at hb ⊢
    rwa [h.regs a ha]
  have hform := h.form
  refine ⟨fun n hn => ?_, fun hb => ?_, hbit _ 3 (by decide), hbit _ 2 (by decide), h.pends, h.trips⟩
  · rw [hform]
    exact hn
  · rw [hform]
    exact hb

theorem foldl_keeps {α : Type} {g : State → α → State} (h : ∀ t e, Keeps t (g t e)) (l : List α) (s : State) : Keeps s (l.foldl g s) := by
  induction l generalizing s with
  | nil => exact Keeps.refl s
  | cons e r ih => exact (h s e).trans (ih (g s e))

/-! ### Registers, events and seal faults -/

theorem setR_keeps (s : State) {a : Nat} (v : Word) (h : a ≠ Reg.ILK_STATUS) (he : a ≠ Reg.ILK_ERR) : Keeps s (setR s a v) := by
  refine ⟨Sticks.refl s, id, fun hb => ?_, fun hb => ?_, pends_of_evtPend rfl, fun _ => .inl⟩
  · unfold bitR at hb ⊢
    rwa [getR_setR_other s a _ v (Ne.symm h)]
  · unfold bitR at hb ⊢
    rwa [getR_setR_other s a _ v (Ne.symm he)]

theorem orR_keeps (s : State) (a : Nat) (m : Word) : Keeps s (orR s a m) := by
  have hbit (b i : Nat) (hb : bitR s b i = true) : bitR (orR s a m) b i = true := by
    unfold bitR bit at hb ⊢
    by_cases he : b = a
    · rw [he, getR_orR, BitVec.getLsbD_or, ← he, hb, Bool.true_or]
    · rwa [getR_orR_other s m he]
  exact ⟨Sticks.refl s, id, hbit _ _, hbit _ _, pends_of_evtPend rfl, fun _ => .inl⟩

theorem setR64_keeps (s : State) {a : Nat} (v : DWord) (h : a ≠ Reg.ILK_STATUS ∧ a ≠ Reg.ILK_ERR)
    (h4 : a + 4 ≠ Reg.ILK_STATUS ∧ a + 4 ≠ Reg.ILK_ERR) : Keeps s (setR64 s a v) :=
  (setR_keeps s _ h.1 h.2).trans (setR_keeps _ _ h4.1 h4.2)

theorem countR64_keeps (s : State) {a : Nat} (n : Nat) (h : a ≠ Reg.ILK_STATUS ∧ a ≠ Reg.ILK_ERR)
    (h4 : a + 4 ≠ Reg.ILK_STATUS ∧ a + 4 ≠ Reg.ILK_ERR) : Keeps s (countR64 s a n) := setR64_keeps s _ h h4

theorem raise_keeps (s : State) (n : Nat) : Keeps s (raise s n) := .of_served (raise_served s n)

theorem raiseIf_keeps (s : State) (b : Bool) (n : Nat) : Keeps s (raiseIf b s n) := .of_served (raiseIf_served s b n)

theorem raiseLimited_keeps (s : State) (n : Nat) : Keeps s (raiseLimited s n) := .of_served (raiseEvery_served s _ n)

theorem tailDue_keeps (s : State) : Keeps s (tailDue s) := keeps_of_part rfl

theorem countSealFault_keeps (s : State) {tile : Nat} (h5 : tile ≠ 25) (h6 : tile ≠ 26) : Keeps s (countSealFault s tile) := by
  have htrips (m : SMap (List DWord)) (o l : List Nat) (hl : ∀ n ∈ l, n ∈ s.tripsDue ∨ HighSource n) :
      Keeps s { s with sealFaults := m, sealOver := o, tripsDue := l } :=
    ⟨Sticks.refl s, id, id, id, pends_of_evtPend rfl, hl⟩
  unfold countSealFault
  dsimp only
  split
  · exact htrips _ s.sealOver s.tripsDue (fun _ => .inl)
  · refine (htrips _ _ (s.tripsDue ++ [80 + tile]) fun n hn => ?_).trans (raise_keeps _ 202)
    obtain hold | hnew := List.mem_append.mp hn
    · exact .inl hold
    · rw [List.mem_singleton.mp hnew]
      exact .inr ⟨Nat.le_add_right _ _, by omega, by omega⟩

theorem sealFault_keeps (s : State) {tile : Nat} (h5 : tile ≠ 25) (h6 : tile ≠ 26) : Keeps s (sealFault s tile) :=
  (raise_keeps s 192).trans (countSealFault_keeps _ h5 h6)

theorem spineFault_keeps (s : State) : Keeps s (sealFault s spineTile) := sealFault_keeps s (by decide) (by decide)

/-- A tile that holds memory is not one of the two whose sources report other things. -/
theorem tileOf_memory (a : Nat) : tileOf a ≠ 25 ∧ tileOf a ≠ 26 := by
  unfold tileOf isTcm within
  split
  · next h =>
    have h := of_decide_eq_true h
    constructor <;> omega
  · split
    · next h =>
      have h := of_decide_eq_true h
      constructor <;> omega
    · exact ⟨by decide, by decide⟩

/-! ### Lines and their completions -/

theorem completeRaw_keeps (s : State) (l : Nat) (f : Flight) (status flags seq : Nat) (result : Bytes) :
    Keeps s (completeRaw s l f status flags seq result) := .of_served (completeRaw_served s l f status flags seq result)

theorem completeService_keeps (s : State) (l id status length : Nat) (result : Bytes) :
    Keeps s (completeService s l id status length result) := .of_served (completeService_served s l id status length result)

theorem updFlight_keeps (s : State) (l id : Nat) (g : Flight → Flight) : Keeps s (updFlight s l id g) := keeps_of_part rfl

theorem settle_keeps (s : State) (l : Nat) : Keeps s (settle s l) := .of_served (settle_served s l)

theorem setCtx_keeps (s : State) (l : Nat) (c : Context) : Keeps s (setCtx s l c) := .of_served (setCtx_served s l c)

theorem setLine_keeps (s : State) (l : Nat) (r : Line) : Keeps s (setLine s l r) := keeps_of_part rfl

theorem touchSlot_keeps (s : State) (l : Nat) : Keeps s (touchSlot s l) := .of_served (touchSlot_served s l)

theorem completeEnded_keeps (l : List Flight) (s : State) : Keeps s (completeEnded l s) := by
  induction l generalizing s with
  | nil => exact Keeps.refl s
  | cons f r ih =>
    unfold completeEnded
    split
    · exact (completeRaw_keeps s _ _ _ _ _ _).trans (ih _)
    · exact Keeps.refl s

theorem completeControl_keeps (s : State) (id status seq : Nat) (head : Bytes) : Keeps s (completeControl s id status seq head) := by
  unfold completeControl
  split
  · exact Keeps.refl s
  · exact (completeRaw_keeps s _ _ _ _ _ _).trans (completeEnded_keeps _ _)

theorem withRecord_keeps (s : State) (id l : Nat) {f : State → State} (h : Keeps s (f s)) : Keeps s (withRecord s id l f) := by
  unfold withRecord
  split
  · exact (spineFault_keeps s).trans (completeControl_keeps _ _ _ _ _)
  · exact h

theorem park_keeps (s : State) (id : Nat) : Keeps s (park s id) := updFlight_keeps s 0 id _

theorem hostWrite_keeps (s : State) (a : DWord) (b : Bytes) : Keeps s (hostWrite s a b) := keeps_of_part rfl

theorem putSlot_keeps (s : State) (l : Nat) (t : Slot) : Keeps s (putSlot s l t) := keeps_of_part rfl

theorem modLine_keeps (s : State) (l : Nat) (f : Line → Line) : Keeps s (modLine s l f) := keeps_of_part rfl

theorem setTrack_keeps (s : State) (t : Nat) (k : Track) : Keeps s (setTrack s t k) := keeps_of_part rfl

theorem writeAll_keeps (s : State) (w : List (DWord × Bytes)) : Keeps s (writeAll s w) :=
  foldl_keeps (g := fun t (e : DWord × Bytes) => hostWrite t e.1 e.2) (fun t e => hostWrite_keeps t e.1 e.2) w s

theorem sealPrivate_keeps (s : State) (c : PrivateCell) : Keeps s (sealPrivate s c) := keeps_of_part rfl

/-! ### Absorbing a consist -/

theorem trackFault_keeps (s : State) {t : Nat} (ht : t < 8) : Keeps s (trackFault s t) := by
  have hfault := sealFault_keeps s (tile := 4 + t) (by omega) (by omega)
  unfold trackFault
  dsimp only
  split
  · exact hfault.trans (setTrack_keeps _ t _)
  · exact hfault

theorem absorbSealFault_keeps (s : State) (l : Nat) (f : Flight) : Keeps s (absorbSealFault s l f) := by
  have hend (t : State) : Keeps t (endFlight t l f.id 0x0D false) := keeps_of_part rfl
  exact ((trackFault_keeps s f.track.isLt).trans (hend _)).trans (settle_keeps _ l)

/-- The seal unit's part does not hold evidence. -/
theorem su_keeps (s : State) (u : SealUnit) : Keeps s { s with su := u } := keeps_of_part rfl

theorem streamTags_keeps (s : State) (f : Flight) (expected : Bytes) : Keeps s (streamTags s f expected) := by
  unfold streamTags
  split
  · exact setTrack_keeps s _ _
  · exact Keeps.refl s

theorem dropTree_keeps (s : State) : Keeps s (dropTree s) := by
  unfold dropTree
  split
  · exact Keeps.refl s
  · exact ((su_keeps s _).trans (orR_keeps _ _ _)).trans (raise_keeps _ 277)

theorem dropForLeaves_keeps (n : Nat) (s : State) : Keeps s (dropForLeaves n s) := by
  induction n generalizing s with
  | zero => exact Keeps.refl s
  | succ n ih =>
    unfold dropForLeaves
    split
    · exact (dropTree_keeps s).trans (ih _)
    · exact Keeps.refl s

theorem postInto_keeps (s : State) (line : Nat) (leaf : Leaf) (stamp : DWord) : Keeps s (postInto s line leaf stamp) := by
  unfold postInto
  split
  · exact Keeps.refl s
  · exact (su_keeps s _).trans (dropForLeaves_keeps _ _)

theorem postLeaf_keeps (s : State) (line : Nat) (leaf : Leaf) (stamp : DWord) : Keeps s (postLeaf s line leaf stamp) := by
  unfold postLeaf
  split
  · exact Keeps.refl s
  split
  · exact su_keeps s _
  · exact postInto_keeps s line leaf stamp

theorem advance_keeps (s : State) (l : Nat) (c : Context) (f : Flight) (tag : Bytes) : Keeps s (advance s l c f tag) :=
  (((setCtx_keeps s l _).trans (postLeaf_keeps _ _ _ _)).trans (countR64_keeps _ _ (by decide) (by decide))).trans
    (countR64_keeps _ _ (by decide) (by decide))

theorem absorbWork_keeps (s : State) (l : Nat) (c : Context) (f : Flight) (expected : Bytes) : Keeps s (absorbWork s l c f expected) := by
  unfold absorbWork
  extract_lets a streamed worked written
  have hstreamed : Keeps s streamed := (touchSlot_keeps s l).trans (streamTags_keeps _ f expected)
  have hworked : Keeps streamed worked := by
    simp only [worked]
    split
    · exact advance_keeps streamed l c f a.tag
    · exact raiseLimited_keeps streamed 26
  exact (((hstreamed.trans hworked).trans (writeAll_keeps worked a.writes)).trans (updFlight_keeps _ _ _ _)).trans (settle_keeps _ l)

theorem faultContext_keeps (s : State) (l : Nat) (cause : Option Nat) : Keeps s (faultContext s l cause) :=
  (spineFault_keeps s).trans (.of_served (faultLine_served _ _ _ _ _))

theorem absorb_keeps (s : State) (l : Nat) (f : Flight) (expected : Bytes) : Keeps s (absorb s l f expected) := by
  unfold absorb
  split
  · exact Keeps.refl s
  · refine Keeps.trans ?_ (.of_served (finishFencing_served _ _))
    split
    · exact faultContext_keeps s l _
    split
    · exact absorbSealFault_keeps s l f
    · exact absorbWork_keeps s l _ f expected

theorem drainStamped_keeps (s : State) : Keeps s (drainStamped s) := by
  refine foldl_keeps (fun a t => ?_) _ s
  split
  · exact (absorb_keeps a _ _ _).trans (keeps_of_part rfl)
  · exact Keeps.refl a

/-! ### Lines that open -/

theorem treeFault_keeps (s : State) : Keeps s (treeFault s) :=
  ((spineFault_keeps s).trans (sealPrivate_keeps _ .treeStore)).trans (su_keeps _ _)

theorem startSpill_keeps (s : State) (l : Nat) : Keeps s (startSpill s l) := by
  unfold startSpill
  extract_lets r n b spilled written
  have hwritten : Keeps s written := (setLine_keeps s l _).trans (hostWrite_keeps spilled _ _)
  exact (hwritten.trans (putSlot_keeps written l .spilling)).trans (countR64_keeps _ 1 (by decide) (by decide))

theorem makeRoom_keeps (s : State) : Keeps s (makeRoom s) := by
  unfold makeRoom
  split
  · exact Keeps.refl s
  split
  · exact keeps_of_part rfl
  · split
    · exact startSpill_keeps s _
    · exact Keeps.refl s
  · exact Keeps.refl s

theorem openNew_keeps (s : State) (id : Nat) (raw head : Bytes) : Keeps s (openNew s id raw head) := by
  unfold openNew
  extract_lets l c opened counted
  have hopened : Keeps s opened := (setLine_keeps s l _).trans (setCtx_keeps _ l c)
  have hcounted : Keeps opened counted := by
    simp only [counted]
    split
    · exact Keeps.refl opened
    · exact keeps_of_part rfl
  exact (hopened.trans hcounted).trans (completeControl_keeps _ _ _ _ _)

theorem openRoom_keeps (s : State) (id : Nat) (raw head : Bytes) : Keeps s (openRoom s id raw head) := by
  unfold openRoom
  dsimp only
  refine (makeRoom_keeps s).trans ?_
  split
  · exact park_keeps _ id
  · exact openNew_keeps _ id raw head

theorem openContinue_keeps (s : State) (id : Nat) (raw head : Bytes) : Keeps s (openContinue s id raw head) := by
  unfold openContinue
  dsimp only
  split
  · exact park_keeps s id
  split
  · exact (treeFault_keeps s).trans (park_keeps _ id)
  split
  · exact openRoom_keeps s id raw head
  · exact completeControl_keeps s _ _ _ _

theorem openClosed_keeps (s : State) (id : Nat) (raw head : Bytes) : Keeps s (openClosed s id raw head) := by
  unfold openClosed
  split
  · exact openContinue_keeps s id raw head
  · exact openRoom_keeps s id raw head

theorem wantContext_keeps (s : State) (l : Nat) : Keeps s (wantContext s l) := by
  unfold wantContext
  split
  · exact Keeps.refl s
  · exact Keeps.refl s
  · exact ((putSlot_keeps s l _).trans (modLine_keeps _ l _)).trans (countR64_keeps _ 1 (by decide) (by decide))
  · dsimp only
    refine (makeRoom_keeps s).trans ?_
    generalize makeRoom s = t
    split
    · exact (putSlot_keeps t l .filling).trans (countR64_keeps _ 1 (by decide) (by decide))
    · exact Keeps.refl t

theorem resumeLine_keeps (s : State) (id : Nat) (raw : Bytes) : Keeps s (resumeLine s id raw) := by
  unfold resumeLine
  dsimp only
  split
  · exact Keeps.refl s
  · next c _ =>
    have hset := setLine_keeps s (woTarget raw) (resumedLine s raw (getLine s (woTarget raw)))
    generalize setLine s (woTarget raw) (resumedLine s raw (getLine s (woTarget raw))) = t at hset ⊢
    split
    · exact (hset.trans (setCtx_keeps t _ _)).trans (completeControl_keeps _ _ _ _ _)
    · exact (hset.trans (touchSlot_keeps t _)).trans (completeControl_keeps _ _ _ _ _)

theorem openPaused_keeps (s : State) (id : Nat) (raw : Bytes) : Keeps s (openPaused s id raw) := by
  unfold openPaused
  dsimp only
  have hwant := wantContext_keeps s (woTarget raw)
  generalize wantContext s (woTarget raw) = t at hwant ⊢
  refine hwant.trans ?_
  split
  · exact park_keeps _ id
  split
  · exact (faultContext_keeps _ _ _).trans (completeControl_keeps _ _ _ _ _)
  · exact resumeLine_keeps _ id raw

theorem tryOpen_keeps (s : State) (id : Nat) (raw head : Bytes) : Keeps s (tryOpen s id raw head) := by
  refine withRecord_keeps s id _ ?_
  split
  · exact completeControl_keeps s _ _ _ _
  split
  · exact openClosed_keeps s id raw head
  · exact openPaused_keeps s id raw

theorem recheckOpens_keeps (s : State) : Keeps s (recheckOpens s) := by
  refine foldl_keeps (fun t f => ?_) _ s
  split
  · exact tryOpen_keeps t f.id f.raw f.records
  · exact Keeps.refl t

/-! ### Epochs close -/

theorem acceptRebuild_keeps (s : State) : Keeps s (acceptRebuild s) :=
  ((setR_keeps s (a := Reg.SEAL_STATUS) 8 (by decide) (by decide)).trans (su_keeps _ _)).trans (recheckOpens_keeps _)

theorem restartTree_keeps (s : State) : Keeps s (restartTree s) :=
  (((orR_keeps s Reg.SEAL_ERR 2).trans (raise_keeps _ 274)).trans (su_keeps _ _)).trans (recheckOpens_keeps _)

theorem listsFault_keeps (s : State) : Keeps s (listsFault s) := (spineFault_keeps s).trans (sealPrivate_keeps _ _)

theorem finishRebuild_keeps (s : State) : Keeps s (finishRebuild s) := by
  unfold finishRebuild
  split
  · exact Keeps.refl s
  split
  · exact (listsFault_keeps s).trans (restartTree_keeps _)
  split
  · exact acceptRebuild_keeps s
  · exact restartTree_keeps s

theorem noteLate_keeps (s : State) (closed : Nat) : Keeps s (noteLate s closed) := by
  unfold noteLate
  split
  · exact (orR_keeps s _ _).trans (raise_keeps _ 273)
  · exact Keeps.refl s

theorem postAhead_keeps (s : State) : Keeps s (postAhead s) :=
  (su_keeps s _).trans (foldl_keeps (fun t (x : DWord × Nat × Leaf) => postLeaf_keeps t x.2.1 x.2.2 x.1) _ _)

theorem forceAhead_keeps (s : State) : Keeps s (forceAhead s) :=
  (su_keeps s _).trans (foldl_keeps (fun t (x : DWord × Nat × Leaf) => postInto_keeps t x.2.1 x.2.2 x.1) _ _)

theorem closeEpoch_keeps (s : State) (ttcEnd : DWord) (flags : Byte) (condemned : Bool) : Keeps s (closeEpoch s ttcEnd flags condemned) := by
  unfold closeEpoch
  split
  · exact Keeps.refl s
  · exact su_keeps s _

theorem openEpochAt_keeps (s : State) (number : Nat) (start : DWord) (restart : Bool) : Keeps s (openEpochAt s number start restart) :=
  su_keeps s _

theorem closeAtBoundary_keeps (s : State) : Keeps s (closeAtBoundary s) := by
  unfold closeAtBoundary
  split
  · exact Keeps.refl s
  · exact (((closeEpoch_keeps s _ _ _).trans (openEpochAt_keeps _ _ _ _)).trans (postAhead_keeps _)).trans (noteLate_keeps _ _)

theorem closeDue_keeps (n : Nat) (s : State) : Keeps s (closeDue n s) := by
  induction n generalizing s with
  | zero => exact Keeps.refl s
  | succ n ih =>
    unfold closeDue
    split
    · exact (closeAtBoundary_keeps s).trans (ih _)
    · exact Keeps.refl s

theorem closePassed_keeps (s : State) : Keeps s (closePassed s) := by
  unfold closePassed
  split
  · split
    · exact Keeps.refl s
    · exact closeDue_keeps _ s
  · exact Keeps.refl s

/-! ### The staging area and the Manifests -/

theorem appendRecord_keeps (s : State) (typ : Byte) (body : Bytes) : Keeps s (appendRecord s typ body) :=
  .of_served (appendRecord_served s typ body)

theorem stageWrite_keeps (s : State) (w : StagingWrite) : Keeps s (stageWrite s w) := keeps_of_part rfl

theorem wearStaging_keeps (s : State) (n : Nat) : Keeps s (wearStaging s n) := by
  unfold wearStaging
  extract_lets a b
  have hflash : Keeps s { s with flash := { s.flash with stagingBytes := s.flash.stagingBytes + n, stagingWear := b } } := keeps_of_part rfl
  exact hflash.trans (raiseIf_keeps _ _ 324)

theorem ckptStored_keeps (s : State) (c : Ckpt) : Keeps s (ckptStored s c) := by
  unfold ckptStored
  dsimp only
  split
  · exact keeps_of_part rfl
  split <;> exact keeps_of_part rfl

theorem releaseStored_keeps (s : State) : Keeps s (releaseStored s) := by
  refine foldl_keeps (fun a e => foldl_keeps (fun b f => ?_) _ a) _ s
  split
  · exact completeService_keeps b _ _ _ _ _
  · exact Keeps.refl b

theorem moveLast_keeps (s : State) (epoch : Nat) : Keeps s (moveLast s epoch) := by
  unfold moveLast
  have hset := setR64_keeps s (a := Reg.SEAL_LAST) (BitVec.ofNat 64 epoch) (by decide) (by decide)
  dsimp only
  split
  · exact hset.trans (tailDue_keeps _)
  · exact hset

theorem completeFence_keeps (s : State) (l : Nat) (f : Flight) (epoch : Nat) (uns : Bool) : Keeps s (completeFence s l f epoch uns) :=
  (updFlight_keeps s l f.id _).trans (settle_keeps _ l)

theorem releaseFences_keeps (s : State) (epoch : Nat) (uns : Bool) : Keeps s (releaseFences s epoch uns) := by
  refine foldl_keeps (fun a e => foldl_keeps (fun b f => ?_) _ a) _ s
  split
  · exact completeFence_keeps b _ f _ uns
  · exact Keeps.refl b

theorem checkpoint_keeps (s : State) (epoch upTo : Nat) (header : Bytes) : Keeps s (checkpoint s epoch upTo header) := by
  unfold checkpoint
  split
  · exact stageWrite_keeps s _
  · exact stageWrite_keeps s _

theorem checkpointDue_keeps (s : State) (epoch upTo : Nat) (header : Bytes) : Keeps s (checkpointDue s epoch upTo header) := by
  unfold checkpointDue
  split
  · exact ((checkpoint_keeps s _ _ _).trans (orR_keeps _ _ _)).trans (raise_keeps _ 275)
  split
  · exact checkpoint_keeps s _ _ _
  · exact Keeps.refl s

theorem stationSnapshot_keeps (s : State) : Keeps s (stationSnapshot s) := by
  unfold stationSnapshot
  extract_lets moved unit marked
  have hmarked : Keeps s marked := keeps_of_part rfl
  split
  · exact hmarked
  · exact hmarked.trans (appendRecord_keeps marked _ _)

theorem snapshotDue_keeps (s : State) : Keeps s (snapshotDue s) := by
  unfold snapshotDue
  split
  · split
    · exact stationSnapshot_keeps s
    · exact su_keeps s _
  · exact Keeps.refl s

theorem manifestStoredFx_keeps (s : State) (o deltaLen : Nat) : Keeps s (manifestStoredFx s o deltaLen) := by
  unfold manifestStoredFx
  split
  · exact Keeps.refl s
  · exact ((((((su_keeps s _).trans (moveLast_keeps _ _)).trans (raise_keeps _ 272)).trans (releaseFences_keeps _ _ _)).trans
      (checkpointDue_keeps _ _ _ _)).trans (snapshotDue_keeps _)).trans (recheckOpens_keeps _)

theorem storeWrite_keeps (s : State) (w : StagingWrite) (r : List StagingWrite) : Keeps s (storeWrite s w r) := by
  unfold storeWrite
  extract_lets b o worn last unit log flash stored marked released
  have hstored : Keeps s stored := (wearStaging_keeps s _).trans (keeps_of_part rfl)
  have hmarked : Keeps stored marked := by
    simp only [marked]
    split
    · exact ckptStored_keeps stored _
    · exact Keeps.refl stored
  have hreleased : Keeps s released := (hstored.trans hmarked).trans (releaseStored_keeps marked)
  split
  · exact hreleased.trans (manifestStoredFx_keeps released _ _)
  · exact hreleased

theorem verifyStaging_keeps (s : State) : Keeps s (verifyStaging s) := by
  unfold verifyStaging
  split
  · exact Keeps.refl s
  · split
    · exact storeWrite_keeps s _ _
    · exact Keeps.refl s

theorem verifyN_keeps (n : Nat) (s : State) : Keeps s (verifyN n s) := by
  induction n generalizing s with
  | zero => exact Keeps.refl s
  | succ n ih => exact (verifyStaging_keeps s).trans (ih _)

theorem verifyAll_keeps (s : State) : Keeps s (verifyAll s) := verifyN_keeps _ s

/-! ### Sealing -/

theorem setJob_keeps (s : State) (f : SealJob → SealJob) : Keeps s (setJob s f) := by
  unfold setJob
  split
  · exact su_keeps s _
  · exact Keeps.refl s

theorem handOver_keeps (s : State) : Keeps s (handOver s) := by
  unfold handOver
  split
  · exact Keeps.refl s
  split
  · exact Keeps.refl s
  · extract_lets ser staged planted
    have hstaged : Keeps s staged := stageWrite_keeps s _
    have hplanted : Keeps staged planted := by
      simp only [planted]
      split
      · exact Keeps.refl staged
      · exact stageWrite_keeps staged _
    exact (hstaged.trans hplanted).trans (setJob_keeps planted _)

theorem signWith_keeps (s : State) (seed msg : Bytes) : Keeps s (signWith s seed msg).state :=
  Keeps.trans (t := drawn s (40 * signTries seed msg fun k => slice (drawBytes s 640) (40 * k) 40)) (keeps_of_part rfl)
    (countR64_keeps _ _ (by decide) (by decide))

theorem signLoaded_keeps (s : State) (j : SealJob) (seed : Bytes) : Keeps s (signLoaded s j seed) := by
  unfold signLoaded
  dsimp only
  split
  · exact (signWith_keeps s _ _).trans (setJob_keeps _ _)
  · exact ((signWith_keeps s _ _).trans (signWith_keeps _ _ _)).trans (setJob_keeps _ _)

theorem noteUnsigned_keeps (s : State) : Keeps s (noteUnsigned s) := (orR_keeps s _ _).trans (raise_keeps _ 276)

theorem leaveUnsigned_keeps (s : State) : Keeps s (leaveUnsigned s) := (setJob_keeps s _).trans (noteUnsigned_keeps _)

theorem cachePath_keeps (s : State) (i : Nat) : Keeps s (cachePath s i) := foldl_keeps (g := fun t j => cacheKey t (branchSlot t j)) (fun _ _ => keeps_of_part rfl) _ s

theorem loadKey_keeps (s : State) (n i : Nat) : Keeps s (loadKey s n i).state := by
  unfold loadKey
  split
  · exact keeps_of_part rfl
  · dsimp only
    split
    · exact keeps_of_part rfl
    · exact (cachePath_keeps s i).trans (keeps_of_part rfl)

theorem signJob_keeps (s : State) : Keeps s (signJob s) := by
  unfold signJob
  split
  · exact Keeps.refl s
  · dsimp only
    have hfreed : Keeps s (freeManifestLane s) := keeps_of_part rfl
    generalize freeManifestLane s = freed at hfreed ⊢
    refine hfreed.trans ?_
    split
    · exact Keeps.refl freed
    split
    · split
      · exact signLoaded_keeps freed _ _
      · exact leaveUnsigned_keeps freed
    · split
      · exact (loadKey_keeps freed _ _).trans (signLoaded_keeps _ _ _)
      · exact leaveUnsigned_keeps freed

theorem signBy_keeps (s : State) (i : Nat) (msg : Bytes) : Keeps s (signBy s i msg).state :=
  (loadKey_keeps s _ i).trans (signWith_keeps _ _ _)

theorem signBacklogOne_keeps (s : State) : Keeps s (signBacklogOne s) := by
  unfold signBacklogOne
  split
  · exact Keeps.refl s
  · exact ((signBy_keeps s _ _).trans (su_keeps _ _)).trans (appendRecord_keeps _ _ _)

theorem signBacklogN_keeps (n : Nat) (s : State) : Keeps s (signBacklogN n s) := by
  induction n generalizing s with
  | zero => exact Keeps.refl s
  | succ n ih => exact (signBacklogOne_keeps s).trans (ih _)

theorem signBacklog_keeps (s : State) : Keeps s (signBacklog s) := by
  unfold signBacklog
  split
  · exact Keeps.refl s
  · exact signBacklogN_keeps _ s

theorem makeSnapshot_keeps (s : State) (j : SealJob) : Keeps s (makeSnapshot s j) := by
  unfold makeSnapshot
  split
  · exact Keeps.refl s
  split
  · exact dropTree_keeps s
  · exact Keeps.refl s

theorem freeze_keeps (s : State) : Keeps s (freeze s) := by
  unfold freeze
  split
  · exact Keeps.refl s
  split
  · exact Keeps.refl s
  · extract_lets snapped uns header plant noted
    have hnoted : Keeps snapped noted := by
      simp only [noted]
      split
      · exact noteUnsigned_keeps snapped
      · exact Keeps.refl snapped
    exact ((makeSnapshot_keeps s _).trans hnoted).trans (keeps_of_part rfl)

theorem soundTree_keeps (s : State) : Keeps s (soundTree s) := by
  unfold soundTree
  split
  · exact (treeFault_keeps s).trans (finishRebuild_keeps _)
  · exact Keeps.refl s

theorem finishJob_keeps (s : State) : Keeps s (finishJob s) :=
  (((((soundTree_keeps s).trans (freeze_keeps _)).trans (signBacklog_keeps _)).trans (signJob_keeps _)).trans (handOver_keeps _)).trans
    (verifyAll_keeps _)

theorem finishJobs_keeps (n : Nat) (s : State) : Keeps s (finishJobs n s) := by
  induction n generalizing s with
  | zero => exact Keeps.refl s
  | succ n ih =>
    unfold finishJobs
    split
    · exact Keeps.refl s
    · exact (finishJob_keeps s).trans (ih _)

theorem sealNow_keeps (s : State) (flags : Byte) (condemned : Bool) : Keeps s (sealNow s flags condemned) := by
  unfold sealNow
  split
  · exact Keeps.refl s
  · extract_lets passed ahead closed finished
    have hfinished : Keeps s finished := (((((drainStamped_keeps s).trans (finishRebuild_keeps _)).trans (closePassed_keeps _)).trans
      (forceAhead_keeps _)).trans (closeEpoch_keeps _ _ _ _)).trans (finishJobs_keeps _ _)
    split
    · exact (hfinished.trans (stationSnapshot_keeps finished)).trans (verifyAll_keeps _)
    · exact hfinished

end Sys2Proof.StandingEvidence
end

section
/-! PROOF. Evidence outlives a change of mode, a trip, and what a step leads to at once; a flag of Lineside outlives a reset too
(R424, R442, R447, R449). -/

namespace Sys2Proof.StandingEvidence

set_option Elab.async false

open Sys2Proof.Machine Sys2Proof.Frames Sys2Proof.Chains Sys2Proof.LogFrames Sys2Proof.Service

/-! ### Accesses that a descriptor's end makes -/

theorem debugDenied_keeps (s : State) : Keeps s (debugDenied s) := by
  unfold debugDenied
  extract_lets noted recent denials counted
  have hcounted : Keeps s counted := ((raiseLimited_keeps s 197).trans (orR_keeps _ _ _)).trans (keeps_of_part rfl)
  split
  · refine hcounted.trans (Keeps.trans ?_ (raise_keeps { counted with tripsDue := counted.tripsDue ++ [101] } 198))
    refine ⟨Sticks.refl _, id, id, id, pends_of_evtPend rfl, fun n hn => ?_⟩
    obtain hold | hnew := List.mem_append.mp hn
    · exact .inl hold
    · rw [List.mem_singleton.mp hnew]
      exact .inr ⟨by decide, by decide, by decide⟩
  · exact hcounted

theorem unmapped_keeps (s : State) (m : Master) : Keeps s (unmapped s m) := by
  unfold unmapped
  split
  · exact debugDenied_keeps s
  · exact raise_keeps s 193

theorem recordDeny_keeps (s : State) (m : Master) (k : Kind) (a : Nat) : Keeps s (recordDeny s m k a) := by
  unfold recordDeny
  split
  · exact Keeps.refl s
  · exact (setR_keeps s _ (by decide) (by decide)).trans (setR_keeps _ _ (by decide) (by decide))

theorem denied_keeps (s : State) (m : Master) (k : Kind) (a : Nat) : Keeps s (denied s m k a) := by
  unfold denied
  extract_lets faulted recorded
  have hfaulted : Keeps s faulted := by
    simp only [faulted]
    split
    · exact sealFault_keeps s (by decide) (by decide)
    · exact Keeps.refl s
  have hrecorded : Keeps faulted recorded := (raiseLimited_keeps faulted 195).trans (recordDeny_keeps _ m k a)
  split
  · exact hfaulted.trans (debugDenied_keeps faulted)
  split
  · exact (hfaulted.trans hrecorded).trans (orR_keeps recorded _ _)
  · exact hfaulted.trans hrecorded

theorem reachPart_keeps (s : State) (m : Master) (k : Kind) (p n : Nat) : Keeps s (reachPart s m k p n).state := by
  unfold reachPart
  split
  · exact unmapped_keeps s m
  split
  · exact denied_keeps s m k p
  split
  · next c _ => exact sealFault_keeps s (tileOf_memory (8 * c)).1 (tileOf_memory (8 * c)).2
  · exact Keeps.refl s

theorem patchSlot_keeps (a : Nat) (b : Bytes) (s : State) (slot : Nat) : Keeps s (patchSlot a b s slot) := by
  unfold patchSlot
  dsimp only
  split
  · exact Keeps.refl s
  · exact keeps_of_part rfl

theorem memWrite_keeps (s : State) (a : Nat) (b : Bytes) : Keeps s (memWrite s a b) := keeps_of_part rfl

theorem storeBytes_keeps (s : State) (m : Master) (a : Nat) (b : Bytes) : Keeps s (storeBytes s m a b) := by
  unfold storeBytes
  split
  · exact Keeps.refl s
  split
  · exact (raiseLimited_keeps s 262).trans (orR_keeps _ _ _)
  split
  · exact (memWrite_keeps s a b).trans (foldl_keeps (patchSlot_keeps a b) _ _)
  · exact memWrite_keeps s a b

theorem writeParts_keeps (m : Master) (a : Nat) (b : Bytes) (l : List (Nat × Nat)) (s : State) : Keeps s (writeParts m a b l s).state := by
  induction l generalizing s with
  | nil => exact Keeps.refl s
  | cons x r ih =>
    have hreach := reachPart_keeps s m .write x.1 x.2
    unfold writeParts
    dsimp only
    split
    · exact (hreach.trans (storeBytes_keeps _ m x.1 _)).trans (ih _)
    · exact hreach

theorem engineWrite_keeps (s : State) (m : Master) (a : Nat) (b : Bytes) : Keeps s (engineWrite s m a b).state := by
  unfold engineWrite
  exact writeParts_keeps m a b _ s

theorem endDesc_keeps (s : State) (a : Nat) (pusher : Master) (result lane written : Nat) (start : DWord) :
    Keeps s (endDesc s a pusher result lane written start) := by
  unfold endDesc
  extract_lets reported
  have hreported : Keeps s reported := engineWrite_keeps s _ _ _
  exact (hreported.trans (raise_keeps reported 265)).trans (raiseIf_keeps _ _ 267)

theorem endQueued_keeps (s : State) (result : Nat) (pick : Bytes → Bool) : Keeps s (endQueued s result pick) := by
  unfold endQueued
  extract_lets go stay
  have hstay : Keeps s { s with descQueue := stay } := keeps_of_part rfl
  exact hstay.trans (foldl_keeps (g := fun t (e : Nat × Master) => endDesc t e.1 e.2 result 0 0 t.ttc)
    (fun t e => endDesc_keeps t e.1 e.2 result 0 0 t.ttc) go _)

/-! ### A change of mode -/

theorem sstStore_keeps (s : State) (i : Nat) (v : DWord) : Keeps s (sstStore s i v) := by
  unfold sstStore
  extract_lets n stored shown
  have hstored : Keeps s stored := keeps_of_part rfl
  split
  · exact orR_keeps s _ _
  · exact ((hstored.trans (setR_keeps stored _ (by decide) (by decide))).trans (raiseIf_keeps _ _ 41)).trans (raiseIf_keeps _ _ 40)

theorem setBase_keeps (s : State) : Keeps s (setBase s) := by
  unfold setBase
  split
  · exact ((sstStore_keeps s 1 _).trans (sstStore_keeps _ 2 _)).trans (su_keeps _ _)
  · exact Keeps.refl s

theorem enterSealing_keeps (s : State) : Keeps s (enterSealing s) := by
  unfold enterSealing
  split
  · exact Keeps.refl s
  · exact (setBase_keeps s).trans (openEpochAt_keeps _ _ _ _)

theorem closeDebug_keeps (s : State) : Keeps s (closeDebug s) := by
  have hclear (t : State) : Keeps t (clearR t Reg.ILK_STATUS 3) := by
    refine ⟨Sticks.refl t, id, fun hb => ?_, fun hb => ?_, pends_of_evtPend rfl, fun _ => .inl⟩
    · unfold clearR
      unfold bitR bit at hb ⊢
      rw [getR_setR_same, BitVec.getLsbD_and, hb]
      decide
    · unfold clearR
      unfold bitR at hb ⊢
      rwa [getR_setR_other _ _ _ _ (by decide)]
  have hcores : Keeps s { s with cores := Vector.ofFn (fun n => resumeCore s.dbg.haltWrites n.val false false s.cores[n]),
                                 dbg := { s.dbg with cores := 0, haltWrites := [] } } := keeps_of_part rfl
  exact ((hcores.trans (hclear _)).trans (setR_keeps _ 0 (by decide) (by decide))).trans (setR64_keeps _ 0 (by decide) (by decide))

theorem leaveCommissioning_keeps (s : State) : Keeps s (leaveCommissioning s) := by
  have hseed : Keeps s { s with rescueSeed := [] } := keeps_of_part rfl
  unfold leaveCommissioning
  dsimp only
  split
  · exact hseed.trans (closeDebug_keeps _)
  · exact hseed

theorem setMode_keeps (s : State) (m : Mode) (reason : Nat) : Keeps s (setMode s m reason) := by
  have hmode : Keeps s { s with mode := m, prevMode := s.mode } := keeps_of_part rfl
  exact ((hmode.trans (setR_keeps _ _ (by decide) (by decide))).trans (raise_keeps _ 0)).trans (tailDue_keeps _)

theorem selfDue_keeps (s : State) (m : Mode) : Keeps s (selfDue s m) := by
  unfold selfDue
  split
  · exact keeps_of_part rfl
  · exact Keeps.refl s

theorem stampFlight_keeps (s : State) (l : Nat) (f : Flight) : Keeps s (stampFlight s l f) := by
  have hqueue : Keeps s (openQueue s f) := by
    unfold openQueue
    split
    · exact sealPrivate_keeps s _
    · exact Keeps.refl s
  unfold stampFlight
  extract_lets t st track lined lines counted
  have hlined : Keeps s lined := (hqueue.trans (setTrack_keeps _ t _)).trans (modLine_keeps _ l _)
  have hcounted : Keeps lined counted := by
    simp only [counted]
    split
    · exact keeps_of_part rfl
    · exact Keeps.refl lined
  exact (hlined.trans hcounted).trans (updFlight_keeps _ l _ _)

theorem stampNext_keeps (s : State) (t : Nat) : Keeps s (stampNext s t) := by
  have hturn : Keeps s (turnHalves s t) := .of_served (turnHalves_served s t)
  unfold stampNext
  dsimp only
  split
  · exact hturn.trans (stampFlight_keeps _ _ _)
  · exact hturn

theorem stampAll_keeps (s : State) : Keeps s (stampAll s) := foldl_keeps stampNext_keeps _ s

theorem endUnstamped_keeps (s : State) (status : Nat) (gasp : Bool) (only : Line → Flight → Bool) :
    Keeps s (endUnstamped s status gasp only) := by
  unfold endUnstamped
  refine Keeps.trans (foldl_keeps (fun a e => ?_) _ s) (stampAll_keeps _)
  split
  · exact Keeps.refl a
  · refine Keeps.trans (foldl_keeps (fun b f => ?_) _ a) (settle_keeps _ _)
    split
    · exact keeps_of_part rfl
    · exact Keeps.refl b

theorem endInventory_keeps (s : State) (status : Nat) : Keeps s (endInventory s status) := .of_served (endInventory_served s status)

theorem changeMode_keeps (s : State) (m : Mode) (reason : Nat) : Keeps s (changeMode s m reason) := by
  unfold changeMode
  extract_lets was stays left sealed told asked entered vig queued noted ended
  have hleft : Keeps s left := by
    simp only [left]
    split
    · exact leaveCommissioning_keeps s
    · exact Keeps.refl s
  have hsealed : Keeps left sealed := by
    simp only [sealed]
    split
    · exact sealNow_keeps left _ _
    · exact Keeps.refl left
  have htold : Keeps sealed told := by
    simp only [told]
    split
    · exact raise_keeps sealed 32
    · exact Keeps.refl sealed
  have hasked : Keeps told { asked with awaiting := none } := (selfDue_keeps told m).trans (keeps_of_part rfl)
  have hentered : Keeps told entered := hasked.trans (setMode_keeps _ m reason)
  have hqueued : Keeps entered queued := by
    simp only [queued]
    split
    · have hcaution : Keeps entered { entered with vigil := { entered.vigil with cautionTtc := entered.ttc } } := keeps_of_part rfl
      exact hcaution.trans (endQueued_keeps _ _ _)
    · exact Keeps.refl entered
  have hnoted : Keeps queued noted := by
    simp only [noted]
    split
    · split
      · exact su_keeps queued _
      · exact enterSealing_keeps queued
    · exact Keeps.refl queued
  have hended : Keeps noted ended := by
    simp only [ended]
    split
    · exact Keeps.refl noted
    · exact endInventory_keeps noted _
  have hall := hleft.trans (hsealed.trans (htold.trans (hentered.trans (hqueued.trans (hnoted.trans hended)))))
  split
  · exact hall.trans (endUnstamped_keeps ended _ _ _)
  · exact hall

theorem checkTracks_keeps (s : State) : Keeps s (checkTracks s) := by
  have hfences : Keeps s (finishFences s) := .of_served (finishFences_served s)
  unfold checkTracks
  dsimp only
  split
  · exact hfences.trans (changeMode_keeps _ _ _)
  · exact hfences

theorem enterCaution_keeps (s : State) : Keeps s (enterCaution s) := by
  unfold enterCaution
  split
  · exact (changeMode_keeps s _ _).trans (endUnstamped_keeps _ _ _ _)
  · exact Keeps.refl s

theorem endBtr_keeps (s : State) (status reason : Nat) : Keeps s (endBtr s status reason) := by
  unfold endBtr
  split
  · exact Keeps.refl s
  · next p _ =>
    have hcleared : Keeps s { s with btr := none, mae := { s.mae with request := none } } := keeps_of_part rfl
    have hundone (t : State) : Keeps t (undoStructural t p) := by
      unfold undoStructural
      split
      · exact Keeps.refl t
      split <;> exact keeps_of_part rfl
    have hall := hcleared.trans (hundone _)
    dsimp only
    split
    · split
      · exact hall.trans (setR_keeps _ _ (by decide) (by decide))
      · exact hall
    · exact hall.trans (completeService_keeps _ _ _ _ _ _)

theorem dropTrunk_keeps (s : State) : Keeps s (dropTrunk s) := by
  have hlost : Keeps s { s with vigil := { s.vigil with trunk := .lost, trunkKey := zeros 32 }, keyCache := [] } := keeps_of_part rfl
  exact ((hlost.trans (sealPrivate_keeps _ .trunk)).trans (raise_keeps _ 292)).trans (tailDue_keeps _)

theorem erasePlate_keeps (s : State) : Keeps s (erasePlate s) := by
  unfold erasePlate
  split
  · split <;> exact keeps_of_part rfl
  · exact Keeps.refl s

theorem loseTrunk_keeps (s : State) : Keeps s (loseTrunk s) := by
  have hends : Keeps s (endDerivations (endBtr (dropTrunk s) 0x06 1)) :=
    ((dropTrunk_keeps s).trans (endBtr_keeps _ _ _)).trans (.of_served (endDerivations_served _))
  unfold loseTrunk
  dsimp only
  split
  · exact (hends.trans (changeMode_keeps _ _ _)).trans (erasePlate_keeps _)
  · exact hends.trans (erasePlate_keeps _)

theorem setHeld_keeps (s : State) : Keeps s (setHeld s) := keeps_of_part rfl

/-! ### Trips -/

theorem stickyTrip_keeps (s : State) (n : Nat) (dets : BitVec 2) (cls : Nat) : Keeps s (stickyTrip s n dets cls) := by
  refine ⟨fun k hk => ?_, id, id, id, pends_of_evtPend rfl, fun _ => .inl⟩
  show (s.vigil.sticky ||| oneSource n).getLsbD k = true
  rw [BitVec.getLsbD_or, hk, Bool.true_or]

theorem noteReset_keeps (s : State) (n : Nat) : Keeps s (noteReset s n) := by
  unfold noteReset
  split
  · exact keeps_of_part rfl
  · exact Keeps.refl s

theorem noteTrip_keeps (s : State) (n : Nat) (dets : BitVec 2) (cls : Nat) : Keeps s (noteTrip s n dets cls) := by
  unfold noteTrip
  extract_lets tripped vigil marked
  have hmarked : Keeps tripped marked := keeps_of_part rfl
  exact (((stickyTrip_keeps s n dets cls).trans hmarked).trans (raise_keeps marked _)).trans (appendRecord_keeps _ _ _)

theorem noteCell_keeps (s : State) (n : Nat) (dets : BitVec 2) (cls : Nat) : Keeps s (noteCell s n dets cls) := by
  unfold noteCell
  extract_lets tripped
  have hcell : Keeps tripped { tripped with vigil := { tripped.vigil with cellTrips := mput tripped.vigil.cellTrips n cls } } :=
    keeps_of_part rfl
  exact (stickyTrip_keeps s n dets cls).trans hcell

/-- The class that a source's trip brings: none, or the one it applies. -/
theorem noteSource_class (s : State) (n : Nat) (dets : BitVec 2) : (noteSource s n dets).2 = 0 ∨ (noteSource s n dets).2 = appliedClass s n := by
  unfold noteSource
  dsimp only
  split
  · exact .inl rfl
  split
  · exact .inl rfl
  split
  · exact .inr rfl
  split
  · exact .inr rfl
  · exact .inl rfl

theorem noteSource_keeps (s : State) (n : Nat) (dets : BitVec 2) : Keeps s (noteSource s n dets).1 := by
  unfold noteSource
  dsimp only
  split
  · exact Keeps.refl s
  split
  · exact keeps_of_part rfl
  split
  · exact (noteReset_keeps s n).trans (noteTrip_keeps _ _ _ _)
  split
  · exact (noteReset_keeps s n).trans (noteCell_keeps _ _ _ _)
  · exact Keeps.refl s

/-- One trip after the other; the class is the highest. -/
def noteEach (a : State × Nat) (e : Nat × BitVec 2) : State × Nat :=
  ((noteSource a.1 e.1 e.2).1, max a.2 (noteSource a.1 e.1 e.2).2)

theorem tripAll_notes (s : State) (l : List (Nat × BitVec 2)) : tripAll s l =
    if s.mode = .dark then s
    else if mainPower s then respondMain (l.foldl noteEach (s, 0)).1 (l.foldl noteEach (s, 0)).2
    else respondCell (l.foldl noteEach (s, 0)).1 (l.foldl noteEach (s, 0)).2 := rfl

theorem foldNotes_keeps (l : List (Nat × BitVec 2)) (a : State × Nat) : Keeps a.1 (l.foldl noteEach a).1 := by
  induction l generalizing a with
  | nil => exact Keeps.refl a.1
  | cons e l ih => exact (noteSource_keeps a.1 e.1 e.2).trans (ih (noteEach a e))

theorem foldNotes_class (l : List (Nat × BitVec 2)) (hl : ∀ e ∈ l, HighSource e.1) (a : State × Nat) (ha : a.2 = 0 ∨ 2 ≤ a.2) :
    (l.foldl noteEach a).2 = 0 ∨ 2 ≤ (l.foldl noteEach a).2 := by
  induction l generalizing a with
  | nil => exact ha
  | cons e l ih =>
    refine ih (fun x hx => hl x (List.mem_cons_of_mem e hx)) (noteEach a e) ?_
    have hclass := noteSource_class a.1 e.1 e.2
    have happlied := appliedClass_high a.1 (hl e List.mem_cons_self)
    show max a.2 (noteSource a.1 e.1 e.2).2 = 0 ∨ 2 ≤ max a.2 (noteSource a.1 e.1 e.2).2
    omega

theorem respondCell_keeps (s : State) (cls : Nat) : Keeps s (respondCell s cls) := by
  unfold respondCell
  split
  · exact keeps_of_part rfl
  split
  · exact keeps_of_part rfl
  split
  · have hlost : Keeps s { s with vigil := { s.vigil with held := true, trunk := .lost, trunkKey := zeros 32, lostOnCell := true } } :=
      keeps_of_part rfl
    exact (hlost.trans (sealPrivate_keeps _ .trunk)).trans (erasePlate_keeps _)
  · exact Keeps.refl s

theorem respondMain_keeps (s : State) {cls : Nat} (h : cls ≠ 1) : Keeps s (respondMain s cls) := by
  unfold respondMain
  rw [if_neg h]
  split
  · exact (setHeld_keeps s).trans (enterCaution_keeps _)
  split
  · exact (setHeld_keeps s).trans (loseTrunk_keeps _)
  · exact Keeps.refl s

/-- Sources whose class is no reset trip together, and evidence stands. -/
theorem tripAll_keeps (s : State) (l : List (Nat × BitVec 2)) (hl : ∀ e ∈ l, HighSource e.1) : Keeps s (tripAll s l) := by
  have hnotes := foldNotes_keeps l (s, 0)
  have hclass := foldNotes_class l hl (s, 0) (.inl rfl)
  rw [tripAll_notes]
  split
  · exact Keeps.refl s
  split
  · exact hnotes.trans (respondMain_keeps _ (by omega))
  · exact hnotes.trans (respondCell_keeps _ _)

theorem applyTrips_keeps {s : State} (h : ∀ n ∈ s.tripsDue, HighSource n) : Keeps s (applyTrips s) := by
  unfold applyTrips
  split
  · exact Keeps.refl s
  · have hnone : Keeps s { s with tripsDue := [] } :=
      ⟨Sticks.refl s, id, id, id, pends_of_evtPend rfl, fun n hn => absurd hn List.not_mem_nil⟩
    refine hnone.trans (tripAll_keeps _ _ fun e he => ?_)
    obtain ⟨n, hn, rfl⟩ := List.mem_map.mp he
    exact h n hn

theorem Keeps.high {s t : State} (h : Keeps s t) (hs : ∀ n ∈ s.tripsDue, HighSource n) : ∀ n ∈ t.tripsDue, HighSource n :=
  fun n hn => (h.trips n hn).elim (hs n) id

theorem afterRounds_keeps (k : Nat) {s : State} (h : ∀ n ∈ s.tripsDue, HighSource n) : Keeps s (afterRounds k s) := by
  induction k generalizing s with
  | zero => exact ⟨Sticks.refl s, id, id, id, pends_of_evtPend rfl, fun n hn => absurd hn List.not_mem_nil⟩
  | succ k ih =>
    have hround := (applyTrips_keeps h).trans (checkTracks_keeps _)
    unfold afterRounds
    dsimp only
    split
    · exact hround
    · exact hround.trans (ih (hround.high h))

/-- Where the trips due are of high sources, what follows a step keeps the evidence. -/
theorem after_keeps {s : State} (h : ∀ n ∈ s.tripsDue, HighSource n) : Keeps s (after s) :=
  ((afterRounds_keeps 8 h).trans (.of_served (serveUsb_served _ _))).trans (.of_served (settleMark_served _))

end Sys2Proof.StandingEvidence
end

section
/-! PROOF. One step of the device (R180 to R182, R438, R441): the command in front runs with the queue's rest, an empty queue lets one
tick pass; a wrong wire of the Fence trips the source that covers it, and its flag outlives all that follows, a reset too. -/

namespace Sys2Proof.DeviceStep

set_option Elab.async false

open Sys2Proof.Machine Sys2Proof.Frames Sys2Proof.Chains Sys2Proof.LogFrames Sys2Proof.Service Sys2Proof.StandingEvidence
open Sys2Proof.TimetableRows

/-! ### A reset keeps Lineside's flags -/

theorem sticks_of_vigil {s t : State} (h : t.vigil.sticky = s.vigil.sticky) : Sticks s t := by
  intro n hn
  rw [h]
  exact hn

theorem foldl_sticks {α : Type} {g : State → α → State} (h : ∀ t e, Sticks t (g t e)) (l : List α) (s : State) : Sticks s (l.foldl g s) := by
  induction l generalizing s with
  | nil => exact Sticks.refl s
  | cons e r ih => exact (h s e).trans (ih (g s e))

theorem setR_sticks (s : State) (a : Nat) (v : Word) : Sticks s (setR s a v) := sticks_of_vigil rfl

theorem finishProgram_vigil (s : State) : (finishProgram s).vigil = s.vigil := by
  have hread (a n : Nat) : (noteRead s a n).vigil = s.vigil := by
    unfold noteRead
    split <;> rfl
  unfold finishProgram
  split
  · exact hread _ _
  · rfl

theorem clearedState_sticks (s : State) (causes : Nat) (link : Bool) : Sticks s (clearedState s causes link) :=
  sticks_of_vigil (congrArg Vigil.sticky (finishProgram_vigil s) :)

theorem loadSealLast_sticks (s : State) : Sticks s (loadSealLast s) := by
  unfold loadSealLast
  split
  · exact sticks_of_vigil rfl
  · exact Sticks.refl s

theorem rewriteWordline_sticks (s : State) : Sticks s (rewriteWordline s) := by
  have hskip : Sticks s (skipWordline s) := sticks_of_vigil rfl
  have hstart (t : State) : Sticks t (startProgram t) := (Keeps.of_served (startProgram_served t)).sticky
  unfold rewriteWordline
  dsimp only
  split
  · have hprogram (t : State) : Sticks t (programStripe t) := sticks_of_vigil rfl
    exact ((hskip.trans (hstart _)).trans (hprogram _)).trans (hstart _)
  · exact hskip.trans (hstart _)

theorem recoverStripe_sticks (old s : State) : Sticks s (recoverStripe old s) := by
  unfold recoverStripe
  split
  · exact ((rewriteWordline_sticks s).trans (orR_keeps _ _ _).sticky).trans (raise_keeps _ 328).sticky
  · exact Sticks.refl s

theorem suspectErase_sticks (old s : State) : Sticks s (suspectErase old s) := by
  unfold suspectErase
  split
  · have hblock (d b : Nat) (k : Block) : Sticks s (setBlock s d b k) := sticks_of_vigil rfl
    exact ((hblock _ _ _).trans (orR_keeps _ _ _).sticky).trans (raise_keeps _ 327).sticky
  · exact Sticks.refl s

theorem shownReset_sticks (e a : State) (causes : Nat) : Sticks a (Sys2Proof.DeadmanAndImages.shownReset e a causes) := sticks_of_vigil rfl

theorem keepRegs_sticks (old s : State) (link : Bool) : Sticks s (keepRegs old s link) :=
  foldl_sticks (g := fun t (e : Nat × Word) => setR t e.1 ((getR t e.1 &&& ~~~e.2) ||| (getR old e.1 &&& e.2)))
    (fun t e => setR_sticks t e.1 _) (keptRegs link) s

theorem resetFrom_sticks (e : State) (causes : Nat) (link : Bool) : Sticks e (Sys2Proof.DeadmanAndImages.resetFrom e causes link) := by
  have hkept := (clearedState_sticks e causes link).trans (keepRegs_sticks e (clearedState e causes link) link)
  unfold Sys2Proof.DeadmanAndImages.resetFrom
  generalize keepRegs e (clearedState e causes link) link = t at hkept
  exact (((hkept.trans (loadSealLast_sticks t)).trans (shownReset_sticks e _ causes)).trans (suspectErase_sticks e _)).trans
    (recoverStripe_sticks e _)

/-- A reset of the device, as its last steps. -/
theorem deviceReset_ends (s : State) (causes : Nat) (link : Bool) : deviceReset s causes link =
    let e := if sessionOn s then endSession s else s
    let r := Sys2Proof.DeadmanAndImages.resetFrom e causes link
    let t := if resetFault e then sealFault r spineTile else r
    tailDue (raiseIf (!t.fusesOk) t 204) := rfl

theorem deviceReset_sticks (s : State) (causes : Nat) (link : Bool) : Sticks s (deviceReset s causes link) := by
  rw [deviceReset_ends]
  extract_lets ended reset faulted
  have hended : Sticks s ended := by
    simp only [ended]
    split
    · exact sticks_of_vigil (congrArg Vigil.sticky (Sys2Proof.DeadmanAndImages.endSession_keeps s).1)
    · exact Sticks.refl s
  have hfaulted : Sticks reset faulted := by
    simp only [faulted]
    split
    · exact (spineFault_keeps reset).sticky
    · exact Sticks.refl reset
  exact (((hended.trans (resetFrom_sticks ended causes link)).trans hfaulted).trans (raiseIf_keeps faulted _ 204).sticky).trans
    (tailDue_keeps _).sticky

/-! ### What follows a trip keeps Lineside's flags -/

theorem respondMain_sticks (s : State) (cls : Nat) : Sticks s (respondMain s cls) := by
  by_cases h : cls = 1
  · have hpending : Sticks s (tailDue { s with vigil := { s.vigil with pendReset := true } }) := sticks_of_vigil rfl
    unfold respondMain abruptReset
    rw [if_pos h]
    split
    · exact hpending
    · exact deviceReset_sticks s _ _
  · exact (respondMain_keeps s h).sticky

theorem tripAll_sticks (s : State) (l : List (Nat × BitVec 2)) : Sticks s (tripAll s l) := by
  have hnotes := (foldNotes_keeps l (s, 0)).sticky
  rw [tripAll_notes]
  split
  · exact Sticks.refl s
  split
  · exact hnotes.trans (respondMain_sticks _ _)
  · exact hnotes.trans (respondCell_keeps _ _).sticky

theorem applyTrips_sticks (s : State) : Sticks s (applyTrips s) := by
  unfold applyTrips
  split
  · exact Sticks.refl s
  · have hnone : Sticks s { s with tripsDue := [] } := sticks_of_vigil rfl
    exact hnone.trans (tripAll_sticks _ _)

theorem afterRounds_sticks (k : Nat) (s : State) : Sticks s (afterRounds k s) := by
  induction k generalizing s with
  | zero => exact sticks_of_vigil rfl
  | succ k ih =>
    have hround := (applyTrips_sticks s).trans (checkTracks_keeps _).sticky
    unfold afterRounds
    dsimp only
    split
    · exact hround
    · exact hround.trans (ih _)

theorem after_sticks (s : State) : Sticks s (after s) :=
  ((afterRounds_sticks 8 s).trans (Keeps.of_served (serveUsb_served _ _)).sticky).trans (Keeps.of_served (settleMark_served _)).sticky

/-! ### A trip of the Fence -/

/-- Main power, no detector under test, and a source that is active has its flag. -/
structure Watching (k : Nat) (s : State) : Prop where
  power : mainPower s = true
  testing : s.vigil.testing = none
  flagged : s.vigil.active.getLsbD k = true → s.vigil.sticky.getLsbD k = true

theorem Watching.evidenced {k : Nat} {s : State} (h : Watching k s) (n : Nat) (dets : BitVec 2) (cls : Nat) :
    Watching k (TimetableRows.evidenced s n dets cls) := by
  obtain ⟨hpower, htesting, hflagged⟩ := h
  refine ⟨hpower, htesting, fun ha => ?_⟩
  have ha : (s.vigil.active ||| oneSource n).getLsbD k = true := ha
  show (s.vigil.sticky ||| oneSource n).getLsbD k = true
  rw [BitVec.getLsbD_or] at ha ⊢
  obtain ha | ha := Bool.or_eq_true_iff.mp ha
  · rw [hflagged ha, Bool.true_or]
  · rw [ha, Bool.or_true]

theorem Watching.served {k : Nat} {s t : State} (h : Watching k s) (hs : Served s t) : Watching k t := by
  obtain ⟨hpower, htesting, hflagged⟩ := h
  have hmode : t.mode = s.mode := (congrArg State.mode hs.form :)
  have hvigil : t.vigil = s.vigil := (congrArg State.vigil hs.form :)
  refine ⟨?_, ?_, ?_⟩
  · unfold mainPower at hpower ⊢
    rwa [hmode]
  · rwa [hvigil]
  · rwa [hvigil]

theorem noteTrip_served (s : State) (n : Nat) (dets : BitVec 2) (cls : Nat) :
    Served (evidenced s n dets cls) (noteTrip s n dets cls) := by
  rw [noteTrip_form]
  exact (raise_served _ _).trans (appendRecord_served _ _ _)

theorem watching_noteReset {k : Nat} {s : State} (h : Watching k s) (n : Nat) : Watching k (noteReset s n) := by
  unfold noteReset
  split
  · exact ⟨h.power, h.testing, h.flagged⟩
  · exact h

theorem watching_noteSource {k : Nat} {s : State} (h : Watching k s) (n : Nat) (dets : BitVec 2) : Watching k (noteSource s n dets).1 := by
  unfold noteSource
  dsimp only
  split
  · exact h
  split
  · exact ⟨h.power, h.testing, h.flagged⟩
  · rw [if_pos h.power]
    exact ((watching_noteReset h n).evidenced n _ _).served (noteTrip_served _ _ _ _)

theorem watching_notes {k : Nat} (l : List (Nat × BitVec 2)) (a : State × Nat) (h : Watching k a.1) : Watching k (l.foldl noteEach a).1 := by
  induction l generalizing a with
  | nil => exact h
  | cons e l ih => exact ih (noteEach a e) (watching_noteSource h e.1 e.2)

/-- A source with a detector that trips has its flag after its trip. -/
theorem noteSource_flags {k : Nat} {s : State} (h : Watching k s) (hk : k < 108) : (noteSource s k 1).1.vigil.sticky.getLsbD k = true := by
  have hdets : tripDetectors s k 1 ≠ 0 := by
    unfold tripDetectors
    rw [h.testing]
    dsimp only
    split <;> decide
  unfold noteSource
  dsimp only
  rw [if_neg (fun h => h.elim (fun h => absurd h (by omega)) hdets)]
  split
  · next ha => exact h.flagged ha
  · rw [if_pos h.power]
    have hserved := noteTrip_served (noteReset s k) k (tripDetectors s k 1) (appliedClass s k)
    dsimp only
    rw [show (noteTrip (noteReset s k) k (tripDetectors s k 1) (appliedClass s k)).vigil = _ from (congrArg State.vigil hserved.form :)]
    exact sticky_evidenced (noteReset s k) (by omega) _ _

theorem notes_flag {k : Nat} (hk : k < 108) (l : List (Nat × BitVec 2)) (hl : (k, 1) ∈ l) (a : State × Nat) (h : Watching k a.1) :
    (l.foldl noteEach a).1.vigil.sticky.getLsbD k = true := by
  obtain ⟨before, later, rfl⟩ := List.append_of_mem hl
  rw [List.foldl_append, List.foldl_cons]
  have hwatch := watching_notes before a h
  exact (foldNotes_keeps later _).sticky k (noteSource_flags hwatch hk)

theorem tripAll_flags {k : Nat} (hk : k < 108) {s : State} {l : List (Nat × BitVec 2)} (hl : (k, 1) ∈ l) (h : Watching k s) :
    (tripAll s l).vigil.sticky.getLsbD k = true := by
  have hflag := notes_flag hk l hl (s, 0) h
  have hlive : s.mode ≠ .dark := by
    have hpower := h.power
    intro hdark
    rw [mainPower, hdark] at hpower
    exact absurd hpower (by decide)
  rw [tripAll_notes, if_neg hlive, if_pos h.power]
  exact respondMain_sticks _ _ k hflag

/-! ### A tick -/

theorem fenceWrong_whole {s : State} (h : s.vigil.forced = []) : fenceWrong s = [] := by
  unfold fenceWrong
  rw [List.filter_eq_nil_iff, h]
  intro p _ hp
  exact absurd rfl (of_decide_eq_true hp)

/-- A tick of the clock and of the Deadman, before the Fence's step. -/
def ticked (s : State) : State :=
  let t := { s with
    ttc := s.ttc + 1,
    vigil := { s.vigil with count := s.vigil.count + BitVec.ofNat 48 (countsAt (s.ttc.toNat + 1) - countsAt s.ttc.toNat) } }
  if (s.ttc.toNat + 1) % msTicks = 0 then msTick t else t

theorem ticked_form (s : State) : ticked s = { s with
    ttc := s.ttc + 1, vigil := { s.vigil with count := (ticked s).vigil.count }, deadmen := (ticked s).deadmen } := by
  unfold ticked
  dsimp only
  split <;> rfl

theorem idleTick_main {s : State} (h : mainPower s = true) :
    idleTick s = if (s.ttc.toNat + 1) % 10 = 0 then fenceStep (ticked s) else ticked s := by
  have hlive : s.mode ≠ .dark ∧ s.mode ≠ .stabled := by simpa [mainPower] using h
  unfold idleTick
  rw [if_neg hlive.1, if_neg hlive.2]
  rfl

theorem fenceStep_whole {s : State} (h : s.vigil.forced = []) :
    fenceStep s = { s with vigil := { s.vigil with fence := s.vigil.fence.map fenceNext } } := by
  unfold fenceStep
  dsimp only
  rw [fenceWrong_whole (s := { s with vigil := { s.vigil with fence := s.vigil.fence.map fenceNext } }) h, if_pos List.isEmpty_nil]

theorem idleTick_whole {s : State} (h : mainPower s = true) (hforced : s.vigil.forced = []) : (idleTick s).ttc = s.ttc + 1 ∧
    idleTick s = { s with ttc := s.ttc + 1, vigil := { s.vigil with count := (idleTick s).vigil.count,
                                                                    fence := (idleTick s).vigil.fence },
                          deadmen := (idleTick s).deadmen } ∧
    (idleTick s).vigil.fence = (if (s.ttc.toNat + 1) % 10 = 0 then s.vigil.fence.map fenceNext else s.vigil.fence) := by
  have hform := ticked_form s
  rw [idleTick_main h]
  generalize ticked s = t at hform
  split
  · have hwhole : t.vigil.forced = [] := by
      rw [hform]
      exact hforced
    rw [fenceStep_whole hwhole, hform]
    exact ⟨rfl, rfl, rfl⟩
  · rw [hform]
    exact ⟨rfl, rfl, rfl⟩

/-- A wire at a wrong level trips the source that covers its pair. -/
theorem idleTick_flags {s : State} {p : Nat} (h : mainPower s = true) (hten : (s.ttc.toNat + 1) % 10 = 0) (htesting : s.vigil.testing = none)
    (hactive : s.vigil.active.getLsbD (p / 2) = false)
    (hwrong : p ∈ fenceWrong { s with vigil := { s.vigil with fence := s.vigil.fence.map fenceNext } }) :
    (idleTick s).vigil.sticky.getLsbD (p / 2) = true := by
  have hp : p < 64 := List.mem_range.mp (List.mem_of_mem_filter hwrong)
  obtain ⟨t, ht⟩ : ∃ t : State, { ticked s with vigil := { (ticked s).vigil with fence := (ticked s).vigil.fence.map fenceNext } } = t := ⟨_, rfl⟩
  have hform := ticked_form s
  have hwrongT : fenceWrong t = fenceWrong { s with vigil := { s.vigil with fence := s.vigil.fence.map fenceNext } } := by
    rw [← ht, hform]
    rfl
  have hwatch : Watching (p / 2) t := by
    rw [← ht, hform]
    exact ⟨h, htesting, fun ha => absurd (hactive.symm.trans ha) Bool.false_ne_true⟩
  have hmem : (p / 2, (1 : BitVec 2)) ∈ (fenceWrong t).map (fun p => (p / 2, 1)) :=
    List.mem_map.mpr ⟨p, hwrongT ▸ hwrong, rfl⟩
  have hstep : fenceStep (ticked s) = after (tripAll t ((fenceWrong t).map (fun p => (p / 2, 1)))) := by
    unfold fenceStep
    dsimp only
    rw [ht, if_neg]
    intro hnone
    rw [List.isEmpty_iff.mp hnone] at hwrongT
    rw [← hwrongT] at hwrong
    exact List.not_mem_nil hwrong
  rw [idleTick_main h, if_pos hten, hstep]
  exact after_sticks _ _ (tripAll_flags (by omega) hmem hwatch)

/-- Settles O51: one step runs the front of the queue; an idle tick moves the clock, the vigil count, the Fence and the Deadman
timers, and the flag of a trip of the Fence outlives what follows it. -/
theorem stepRunsFront : Obligations.StepRunsFront := by
  refine ⟨fun s c rest h => ?_, fun s h => ?_, fun s h hforced => idleTick_whole h hforced,
    fun s p h hten htesting hactive hwrong => idleTick_flags h hten htesting hactive hwrong, fun s hmode hforced => ?_, fun s hmode => ?_⟩
  · unfold step
    rw [h]
  · unfold step
    rw [h]
  · unfold idleTick
    rw [if_neg (by rw [hmode]; decide), if_pos hmode]
    dsimp only
    split
    · exact fenceStep_whole (s := { s with vigil := { s.vigil with count := s.vigil.count + 1 } }) hforced
    · rfl
  · exact if_pos hmode

end Sys2Proof.DeviceStep
end

section
/-! PROOF. Routes and debug sessions (R420, R424, R428, R433 to R437): a commit and a load move a route between its staging registers,
the table and the shadows; a comparison that fails is reported and trips its source, and the report outlives the trip; a session
opens on a certificate that holds, arms what it may, and closes with every core resumed. -/

namespace Sys2Proof.DebugSessions

set_option Elab.async false

open Sys2Proof.Machine Sys2Proof.Frames Sys2Proof.Chains Sys2Proof.LogFrames Sys2Proof.Service Sys2Proof.StandingEvidence

/-! ### Routes -/

theorem route_committed (s : State) (m : Master) (hq : Quiet s) (hm : MayWrite s m Reg.ILK_CMD) (hlock : (routeAt s (ilkSel s)).lock = false)
    (hdebug : (stagedRoute s).debug ≠ 3) (hlimit : (stagedRoute s).base ≤ (stagedRoute s).limit) : Leads (.ilkCommit m) s (fun t =>
      routeAt t (ilkSel s) = stagedRoute s ∧
      (∀ k, k < 4 → mget? (t.shadows[k]?.getD []) (ilkSel s) = some (stagedRoute s)) ∧
      (∀ n, n ≠ ilkSel s → mget? t.routes n = mget? s.routes n ∧
        ∀ k, k < 4 → mget? (t.shadows[k]?.getD []) n = mget? (s.shadows[k]?.getD []) n) ∧
      (∀ n, n ∈ t.badRoutes ↔ n ∈ s.badRoutes ∧ n ≠ ilkSel s) ∧
      t = { s with routes := t.routes, shadows := t.shadows, badRoutes := t.badRoutes }) := by
  have hcommit := Sys2Proof.LockedRoutes.commit_valid hlock hdebug hlimit
  have hexec : exec (.ilkCommit m) s = .next (Sys2Proof.LockedRoutes.committed s) := by
    rw [← hcommit]
    refine Sys2Proof.LockedRoutes.execIlkCommit_permitted hm ?_
    rw [hcommit]
    exact hq
  have hshadow (k : Nat) (hk : k < 4) : (Sys2Proof.LockedRoutes.committed s).shadows[k]?.getD [] =
      mput (s.shadows[k]?.getD []) (ilkSel s) (stagedRoute s) := by
    unfold Sys2Proof.LockedRoutes.committed
    dsimp only
    rw [Vector.getElem?_eq_getElem hk, Vector.getElem?_eq_getElem hk, Vector.getElem_map, Option.getD_some, Option.getD_some]
  refine leads_of_exec hexec ⟨Sys2Proof.LockedRoutes.routeAt_committed s, fun k hk => ?_, fun n hn => ⟨mget?_mput_other _ _ _ _ hn, fun k hk => ?_⟩,
    fun n => ?_, rfl⟩
  · rw [hshadow k hk, mget?_mput_same]
  · rw [hshadow k hk, mget?_mput_other _ _ _ _ hn]
  · show n ∈ s.badRoutes.filter (fun x => !decide (x = ilkSel s)) ↔ _
    simp

theorem shadowCompare_agrees (s : State) (hq : Quiet s) (h : shadowDiffers s = false) : Leads .shadowCompare s (fun t => t = s) := by
  have hexec : exec .shadowCompare s = done s := by
    show execShadowCompare s = _
    unfold execShadowCompare
    rw [h, Bool.and_false, if_neg Bool.false_ne_true]
  exact leads_done hexec hq rfl

theorem shadowCompare_trips (s : State) (hq : Quiet s) (hmain : mainPower s = true) (h : shadowDiffers s = true) :
    Leads .shadowCompare s (fun t =>
      t.shadowBad = true ∧ bitR t Reg.ILK_STATUS 3 = true ∧ bitR t Reg.ILK_ERR 2 = true ∧ isPending t 203 = true) := by
  obtain ⟨u, hu⟩ : ∃ u, orR { s with shadowBad := true } Reg.ILK_STATUS 8 = u := ⟨_, rfl⟩
  obtain ⟨v, hv⟩ : ∃ v, raise (orR u Reg.ILK_ERR 4) 203 = v := ⟨_, rfl⟩
  have hexec : exec .shadowCompare s = done { v with tripsDue := v.tripsDue ++ [102] } := by
    show execShadowCompare s = _
    unfold execShadowCompare
    rw [h, hmain, if_pos (show (true && true) = true from rfl)]
    dsimp only
    rw [hu, hv]
  have hlast : Keeps u v := hv ▸ (orR_keeps u _ _).trans (raise_keeps _ 203)
  have hstatus : bitR u Reg.ILK_STATUS 3 = true := by
    unfold bitR bit
    rw [← hu, getR_orR, BitVec.getLsbD_or]
    simp
  have herror : bitR v Reg.ILK_ERR 2 = true := by
    unfold bitR bit
    rw [← hv, getR_raise, getR_orR, BitVec.getLsbD_or]
    simp
  have hshadow : u.shadowBad = true := by
    rw [← hu]
    rfl
  have hpending : isPending v 203 = true := by
    rw [← hv]
    exact isPending_raise_same _ (by decide)
  have htrips : v.tripsDue = [] := by
    rw [← hv]
    exact (congrArg State.tripsDue (Sys2Proof.LockedRoutes.raise_withEvents _ 203) :).trans (by rw [← hu]; exact hq.1)
  have hdue : Keeps { v with tripsDue := v.tripsDue ++ [102] } (after { v with tripsDue := v.tripsDue ++ [102] }) := by
    refine after_keeps fun n hn => ?_
    rw [htrips] at hn
    rw [List.mem_singleton.mp hn]
    exact ⟨by decide, by decide, by decide⟩
  refine leads_of_exec hexec ?_
  have hv3 := hlast.compare hstatus
  have hvs := hlast.shadow hshadow
  exact ⟨hdue.shadow hvs, hdue.compare hv3, hdue.error herror, hdue.pends 203 (by decide) hpending⟩

/-! ### LOAD -/

theorem getR64_of_same {s t : State} {l : List Nat} (h : SameRegs s t l) {a : Nat} (ha : a ∉ l) (ha4 : a + 4 ∉ l) :
    getR64 t a = getR64 s a := by
  unfold getR64
  rw [h a ha, h (a + 4) ha4]

/-- The staging registers that show a route. -/
def shownRoute (s : State) (r : Route) : State :=
  setR64 (setR64 (setR64 (setR (setR (setR s Reg.ILK_ATTR
    (place 0 1 (b2n r.valid) ||| place 1 1 (b2n r.lock) ||| place 2 2 (BitVec.toNat r.debug))) Reg.ILK_BASE (place 12 20 r.base))
    Reg.ILK_LIMIT (place 12 20 r.limit)) Reg.ILK_RMASK r.rmask) Reg.ILK_WMASK r.wmask) Reg.ILK_XMASK r.xmask

/-- The fields of ILK_ATTR read as they were placed. -/
theorem attr_fields (r : Route) : let w := place 0 1 (b2n r.valid) ||| place 1 1 (b2n r.lock) ||| place 2 2 (BitVec.toNat r.debug)
    bit w 0 = r.valid ∧ bit w 1 = r.lock ∧ BitVec.ofNat 2 (bitsOf w 2 2) = r.debug := by
  obtain ⟨valid, lock, debug, base, limit, rmask, wmask, xmask⟩ := r
  dsimp only
  revert valid lock debug
  decide

theorem stagedRoute_shown {s : State} {r : Route} (hbase : r.base < 2 ^ 20) (hlimit : r.limit < 2 ^ 20) :
    stagedRoute (shownRoute s r) = r := by
  obtain ⟨hvalid, hlock, hdebug⟩ := attr_fields r
  obtain ⟨attr, hattr⟩ : ∃ w, (place 0 1 (b2n r.valid) ||| place 1 1 (b2n r.lock) ||| place 2 2 (BitVec.toNat r.debug)) = w := ⟨_, rfl⟩
  rw [hattr] at hvalid hlock hdebug
  obtain ⟨a, ha⟩ : ∃ a, setR s Reg.ILK_ATTR attr = a := ⟨_, rfl⟩
  obtain ⟨b, hb⟩ : ∃ b, setR a Reg.ILK_BASE (place 12 20 r.base) = b := ⟨_, rfl⟩
  obtain ⟨c, hc⟩ : ∃ c, setR b Reg.ILK_LIMIT (place 12 20 r.limit) = c := ⟨_, rfl⟩
  obtain ⟨d, hd⟩ : ∃ d, setR64 c Reg.ILK_RMASK r.rmask = d := ⟨_, rfl⟩
  obtain ⟨e, he⟩ : ∃ e, setR64 d Reg.ILK_WMASK r.wmask = e := ⟨_, rfl⟩
  obtain ⟨t, ht⟩ : ∃ t, setR64 e Reg.ILK_XMASK r.xmask = t := ⟨_, rfl⟩
  have hshown : shownRoute s r = t := by
    unfold shownRoute
    rw [hattr, ha, hb, hc, hd, he, ht]
  have hsameD : SameRegs c d [Reg.ILK_RMASK, Reg.ILK_RMASK + 4] := hd ▸ sameRegs_setR64 c _ _
  have hsameE : SameRegs d e [Reg.ILK_WMASK, Reg.ILK_WMASK + 4] := he ▸ sameRegs_setR64 d _ _
  have hsameT : SameRegs e t [Reg.ILK_XMASK, Reg.ILK_XMASK + 4] := ht ▸ sameRegs_setR64 e _ _
  have hlow (k : Nat) (hk : k ∈ [Reg.ILK_ATTR, Reg.ILK_BASE, Reg.ILK_LIMIT]) : getR t k = getR c k := by
    have hapart : ∀ k ∈ [Reg.ILK_ATTR, Reg.ILK_BASE, Reg.ILK_LIMIT], k ∉ [Reg.ILK_XMASK, Reg.ILK_XMASK + 4] ∧
        k ∉ [Reg.ILK_WMASK, Reg.ILK_WMASK + 4] ∧ k ∉ [Reg.ILK_RMASK, Reg.ILK_RMASK + 4] := by decide
    obtain ⟨h1, h2, h3⟩ := hapart k hk
    rw [hsameT k h1, hsameE k h2, hsameD k h3]
  have hattrT : getR t Reg.ILK_ATTR = attr := by
    rw [hlow _ (by decide), ← hc, getR_setR_other _ _ _ _ (by decide), ← hb, getR_setR_other _ _ _ _ (by decide), ← ha, getR_setR_same]
  have hbaseT : getR t Reg.ILK_BASE = place 12 20 r.base := by
    rw [hlow _ (by decide), ← hc, getR_setR_other _ _ _ _ (by decide), ← hb, getR_setR_same]
  have hlimitT : getR t Reg.ILK_LIMIT = place 12 20 r.limit := by
    rw [hlow _ (by decide), ← hc, getR_setR_same]
  have hrmask : getR64 t Reg.ILK_RMASK = r.rmask := by
    rw [getR64_of_same hsameT (by decide) (by decide), getR64_of_same hsameE (by decide) (by decide), ← hd, getR64_setR64]
  have hwmask : getR64 t Reg.ILK_WMASK = r.wmask := by
    rw [getR64_of_same hsameT (by decide) (by decide), ← he, getR64_setR64]
  have hxmask : getR64 t Reg.ILK_XMASK = r.xmask := by rw [← ht, getR64_setR64]
  rw [hshown]
  unfold stagedRoute bitR fieldR
  rw [hattrT, hbaseT, hlimitT, hrmask, hwmask, hxmask, hvalid, hlock, hdebug, bitsOf_place_same _ (by decide),
    bitsOf_place_same _ (by decide), Nat.mod_eq_of_lt hbase, Nat.mod_eq_of_lt hlimit]

/-- What a load writes. -/
def stagingRegs : List Nat := [Reg.ILK_ATTR, Reg.ILK_BASE, Reg.ILK_LIMIT, Reg.ILK_RMASK, Reg.ILK_RMASK + 4, Reg.ILK_WMASK,
  Reg.ILK_WMASK + 4, Reg.ILK_XMASK, Reg.ILK_XMASK + 4]

theorem onlyRegs_then_setR64 {s t : State} {l ev : List Nat} {a : Nat} (h : OnlyRegs s t l ev) (ha : a ∈ l) (ha4 : a + 4 ∈ l) (v : DWord) :
    OnlyRegs s (setR64 t a v) l ev := onlyRegs_then_setR (onlyRegs_then_setR h ha _) ha4 _

theorem onlyRegs_shown (s : State) (r : Route) : OnlyRegs s (shownRoute s r) stagingRegs [] := by
  have hlow := onlyRegs_then_setR (onlyRegs_then_setR (onlyRegs_then_setR (onlyRegs_refl s stagingRegs)
    (a := Reg.ILK_ATTR) (by decide) (place 0 1 (b2n r.valid) ||| place 1 1 (b2n r.lock) ||| place 2 2 (BitVec.toNat r.debug)))
    (a := Reg.ILK_BASE) (by decide) (place 12 20 r.base)) (a := Reg.ILK_LIMIT) (by decide) (place 12 20 r.limit)
  exact onlyRegs_then_setR64 (onlyRegs_then_setR64 (onlyRegs_then_setR64 hlow (by decide) (by decide) r.rmask)
    (by decide) (by decide) r.wmask) (by decide) (by decide) r.xmask

theorem route_loaded (s : State) (m : Master) (hq : Quiet s) (hm : MayWrite s m Reg.ILK_CMD) (hgood : ilkSel s ∉ s.badRoutes)
    (hbase : (routeAt s (ilkSel s)).base < 2 ^ 20) (hlimit : (routeAt s (ilkSel s)).limit < 2 ^ 20) : Leads (.ilkLoad m) s (fun t =>
      stagedRoute t = routeAt s (ilkSel s) ∧ OnlyRegs s t stagingRegs []) := by
  have hload : loadRoute s = shownRoute s (routeAt s (ilkSel s)) := by
    unfold loadRoute
    dsimp only
    rw [if_neg (by simpa using hgood)]
    rfl
  have honly := onlyRegs_shown s (routeAt s (ilkSel s))
  have hexec : exec (.ilkLoad m) s = done (shownRoute s (routeAt s (ilkSel s))) := by
    rw [← hload, ← guardedWrite_permitted s m Reg.ILK_CMD loadRoute hm]
    rfl
  exact leads_done hexec (quiet_of_onlyRegs honly hq) ⟨stagedRoute_shown hbase hlimit, honly⟩

theorem routes : Claims.Routes :=
  ⟨route_committed, route_loaded, shadowCompare_agrees, shadowCompare_trips⟩

/-! ### The nonce and the check of a certificate -/

theorem nonce_read (s : State) (hq : Quiet s) (hserves : pathServes s = true) (hready : entReady s = true) :
    Leads (.dbgNonceRead 32) s (fun t =>
      t.dbg = { s.dbg with nonce := drawBytes s 32, fresh := true } ∧
      t.ports.readData = BitVec.ofNat 64 (num (drawBytes s 32) 0 4) ∧ t.ent.pool = s.ent.pool.drop 32 ∧ t.regs = s.regs) := by
  have hread : dbgRead s 32 Reg.DBG_NONCE nonceRead = readData (drawn { s with dbg := { s.dbg with nonce := drawBytes s 32, fresh := true } } 32)
      (BitVec.ofNat 64 (num (drawBytes s 32) 0 4)) := by
    unfold dbgRead nonceRead
    rw [if_pos rfl, if_pos hserves, if_pos hready]
  exact leads_done (congrArg done hread) hq ⟨rfl, rfl, rfl, rfl⟩

theorem resultIs_withInverse (s : State) (a : Nat) {c : Nat} (hc : c < 7) : ResultIs (setR s a (withInverse c ||| 0x80000000)) a c := by
  unfold ResultIs fieldR bitR
  rw [getR_setR_same]
  interval_cases c <;> decide

theorem certCheck_lt (s : State) : certCheck s < 7 := by
  unfold certCheck
  dsimp only
  (repeat' split) <;> decide

theorem resultIs_congr {s t : State} {a c : Nat} (h : getR t a = getR s a) (hs : ResultIs s a c) : ResultIs t a c := by
  unfold ResultIs fieldR bitR at hs ⊢
  rwa [h]

/-- The nonce is used. -/
def used (s : State) : State := { s with dbg := { s.dbg with fresh := false } }

theorem dbgCheck_served {s : State} (hserves : pathServes s = true) : exec .dbgCheck s = done (dbgCheck s) := by
  show execDbgCheck s = _
  unfold execDbgCheck
  rw [if_pos hserves]

theorem check_refused (s : State) (hq : Quiet s) (hserves : pathServes s = true) (hopen : sessionLevel s ≠ 0) :
    Leads .dbgCheck s (fun t =>
      ResultIs t Reg.DBG_RESULT 6 ∧ t.dbg = { s.dbg with fresh := false } ∧ OnlyRegs { s with dbg := t.dbg } t [Reg.DBG_RESULT] [201]) := by
  have hcheck : dbgCheck s = raise (dbgResult (used s) 6) 201 := by
    unfold dbgCheck
    dsimp only
    rw [if_pos hopen]
    rfl
  have honly : OnlyRegs (used s) (raise (dbgResult (used s) 6) 201) [Reg.DBG_RESULT] [201] :=
    onlyRegs_then_raise (onlyRegs_then_setR (onlyRegs_refl (used s) _) List.mem_cons_self _) 201
  have hdbg : (raise (dbgResult (used s) 6) 201).dbg = { s.dbg with fresh := false } := (congrArg State.dbg honly.1 :)
  have hquiet : Quiet (used s) := hq
  refine leads_done ((dbgCheck_served hserves).trans (congrArg done hcheck)) (quiet_of_onlyRegs honly hquiet) ⟨?_, hdbg, ?_⟩
  · exact resultIs_congr (getR_raise _ _ _) (resultIs_withInverse (used s) _ (by decide))
  · rw [hdbg]
    exact honly

/-- A verification of the certificate's signature is counted where a lane did it. -/
theorem verified_form (s : State) (b : Bool) : ∃ regs, (if b then countR64 s Reg.LSU_VERIFIES 1 else s) = { s with regs := regs } ∧
    SameRegs s { s with regs := regs } [Reg.LSU_VERIFIES, Reg.LSU_VERIFIES + 4] := by
  cases b with
  | false => exact ⟨s.regs, rfl, sameRegs_refl s _⟩
  | true => exact ⟨_, rfl, sameRegs_setR64 s Reg.LSU_VERIFIES _⟩

/-- What a check writes before it opens a session. -/
theorem onlyRegs_result {s : State} {regs : SMap Word} (h : SameRegs s { s with regs := regs } [Reg.LSU_VERIFIES, Reg.LSU_VERIFIES + 4])
    (d : Debug) (c : Nat) : OnlyRegs { s with dbg := d } (dbgResult { s with regs := regs, dbg := d } c)
      [Reg.DBG_RESULT, Reg.LSU_VERIFIES, Reg.LSU_VERIFIES + 4] [] := by
  have hcount : OnlyRegs { s with dbg := d } { s with regs := regs, dbg := d } [Reg.DBG_RESULT, Reg.LSU_VERIFIES, Reg.LSU_VERIFIES + 4] [] :=
    onlyRegs_of_regs rfl (sameRegs_mono h (by decide))
  exact onlyRegs_then_setR hcount List.mem_cons_self _

theorem check_failed (s : State) (hq : Quiet s) (hserves : pathServes s = true) (hclosed : sessionLevel s = 0) {c : Nat}
    (hc : certCheck s = c) (hbad : c ≠ 0) : ∃ t, exec .dbgCheck s = .next t ∧ ResultIs t Reg.DBG_RESULT c ∧ sessionLevel t = 0 ∧
      t.dbg = { s.dbg with fresh := false } ∧
      OnlyRegs { s with dbg := t.dbg } t [Reg.DBG_RESULT, Reg.LSU_VERIFIES, Reg.LSU_VERIFIES + 4] [201] := by
  obtain ⟨regs, hcount, hsame⟩ := verified_form s ((c = 0 ∨ 4 ≤ c) && anyLane s)
  have hcheck : dbgCheck s = raise (dbgResult { s with regs := regs, dbg := { s.dbg with fresh := false } } c) 201 := by
    unfold dbgCheck
    dsimp only
    rw [if_neg (not_not.mpr hclosed), hc, if_neg hbad, hcount]
  have honly := onlyRegs_then_raise (onlyRegs_result hsame { s.dbg with fresh := false } c) 201
  have hresult : ResultIs (raise (dbgResult { s with regs := regs, dbg := { s.dbg with fresh := false } } c) 201) Reg.DBG_RESULT c :=
    resultIs_congr (getR_raise _ _ _) (resultIs_withInverse _ _ (hc ▸ certCheck_lt s))
  rw [← hcheck] at honly hresult
  have hdbg : (dbgCheck s).dbg = { s.dbg with fresh := false } := (congrArg State.dbg honly.1 :)
  have hlevel : sessionLevel (dbgCheck s) = 0 := by
    unfold sessionLevel fieldR at hclosed ⊢
    rw [honly.2.1 Reg.ILK_STATUS (by decide)]
    exact hclosed
  have hstart : Quiet ({ s with dbg := { s.dbg with fresh := false } } : State) := hq
  refine ⟨dbgCheck s, (dbgCheck_served hserves).trans (done_quiet _ (quiet_of_onlyRegs honly hstart)), hresult, hlevel, hdbg, ?_⟩
  rw [hdbg]
  exact honly

theorem certLevel_of_check {s : State} (h : certCheck s = 0) : certLevel s < 2 ^ 2 := by
  unfold certCheck at h
  dsimp only at h
  split at h
  · exact absurd h (by decide)
  · next hformat => omega

/-- What a check that opens a session writes. -/
def openRegs : List Nat := [Reg.DBG_RESULT, Reg.LSU_VERIFIES, Reg.LSU_VERIFIES + 4, Reg.ILK_STATUS, Reg.DBG_NOT_AFTER, Reg.DBG_NOT_AFTER + 4]

theorem check_passed (s : State) (hq : Quiet s) (hserves : pathServes s = true) (hclosed : sessionLevel s = 0) (hc : certCheck s = 0) :
    ∃ t, exec .dbgCheck s = .next t ∧ ResultIs t Reg.DBG_RESULT 0 ∧ sessionLevel t = certLevel s ∧
      getR64 t Reg.DBG_NOT_AFTER = num64 (debugCertBody s) 56 ∧
      t.dbg = { s.dbg with fresh := false, cores := BitVec.ofNat 4 (byteAt (debugCertBody s) 2) } ∧
      OnlyRegs { s with dbg := t.dbg } t [Reg.DBG_RESULT, Reg.LSU_VERIFIES, Reg.LSU_VERIFIES + 4, Reg.ILK_STATUS,
        Reg.DBG_NOT_AFTER, Reg.DBG_NOT_AFTER + 4] [200] := by
  obtain ⟨regs, hcount, hsame⟩ := verified_form s ((decide (0 = 0 ∨ 4 ≤ 0)) && anyLane s)
  obtain ⟨d, hd⟩ : ∃ d : Debug, { s.dbg with fresh := false, cores := BitVec.ofNat 4 (byteAt (debugCertBody s) 2) } = d := ⟨_, rfl⟩
  obtain ⟨u, hu⟩ : ∃ u, dbgResult { s with regs := regs, dbg := d } 0 = u := ⟨_, rfl⟩
  obtain ⟨v, hv⟩ : ∃ v, setFieldR u Reg.ILK_STATUS 0 2 (certLevel s) = v := ⟨_, rfl⟩
  obtain ⟨w, hw⟩ : ∃ w, setR64 v Reg.DBG_NOT_AFTER (num64 (debugCertBody s) 56) = w := ⟨_, rfl⟩
  have hcheck : dbgCheck s = raise w 200 := by
    unfold dbgCheck
    dsimp only
    rw [if_neg (not_not.mpr hclosed), hc, if_pos rfl, hcount, ← hw, ← hv, ← hu, ← hd]
    rfl
  have hresult : ResultIs u Reg.DBG_RESULT 0 := by
    rw [← hu]
    exact resultIs_withInverse _ _ (by decide)
  have hlevel : fieldR v Reg.ILK_STATUS 0 2 = certLevel s := by
    rw [← hv, fieldR, getR_setFieldR, bitsOf_withBits_same _ _ (by decide), Nat.mod_eq_of_lt (certLevel_of_check hc)]
  have hafter : getR64 w Reg.DBG_NOT_AFTER = num64 (debugCertBody s) 56 := by rw [← hw, getR64_setR64]
  have hsameV : SameRegs u v [Reg.ILK_STATUS] := hv ▸ sameRegs_setR (sameRegs_refl u _) List.mem_cons_self _
  have hsameW : SameRegs v w [Reg.DBG_NOT_AFTER, Reg.DBG_NOT_AFTER + 4] := hw ▸ sameRegs_setR64 v _ _
  have hu' : OnlyRegs { s with dbg := d } u openRegs [] := by
    rw [← hu]
    exact onlyRegs_mono (onlyRegs_result hsame d 0) (by decide)
  have hv' : OnlyRegs { s with dbg := d } v openRegs [] := hv ▸ onlyRegs_then_setR hu' (by decide) _
  have hw' : OnlyRegs { s with dbg := d } w openRegs [] := hw ▸ onlyRegs_then_setR64 hv' (by decide) (by decide) _
  have honly := onlyRegs_then_raise hw' 200
  have hdbg : (raise w 200).dbg = d := (congrArg State.dbg honly.1 :)
  have hstart : Quiet ({ s with dbg := d } : State) := hq
  refine ⟨raise w 200, ?_, ?_, ?_, ?_, ?_, ?_⟩
  · rw [dbgCheck_served hserves, hcheck, done_quiet _ (quiet_of_onlyRegs honly hstart)]
  · refine resultIs_congr ?_ hresult
    rw [getR_raise, hsameW _ (by decide), hsameV _ (by decide)]
  · rw [← hlevel]
    unfold sessionLevel fieldR
    rw [getR_raise, hsameW _ (by decide)]
  · rw [← hafter]
    unfold getR64
    rw [getR_raise, getR_raise]
  · rw [hdbg, hd]
  · rw [hdbg]
    exact honly

theorem session_checked (s : State) (hq : Quiet s) (hserves : pathServes s = true) (hclosed : sessionLevel s = 0) : Leads .dbgCheck s (fun t =>
    ResultIs t Reg.DBG_RESULT (certCheck s) ∧
    (certCheck s ≠ 0 → sessionLevel t = 0 ∧ t.dbg = { s.dbg with fresh := false } ∧
      OnlyRegs { s with dbg := t.dbg } t [Reg.DBG_RESULT, Reg.LSU_VERIFIES, Reg.LSU_VERIFIES + 4] [201]) ∧
    (certCheck s = 0 → sessionLevel t = certLevel s ∧
      getR64 t Reg.DBG_NOT_AFTER = num64 (debugCertBody s) 56 ∧
      t.dbg = { s.dbg with fresh := false, cores := BitVec.ofNat 4 (byteAt (debugCertBody s) 2) } ∧
      OnlyRegs { s with dbg := t.dbg } t [Reg.DBG_RESULT, Reg.LSU_VERIFIES, Reg.LSU_VERIFIES + 4, Reg.ILK_STATUS,
        Reg.DBG_NOT_AFTER, Reg.DBG_NOT_AFTER + 4] [200])) := by
  by_cases hc : certCheck s = 0
  · obtain ⟨t, hexec, hresult, hopen⟩ := check_passed s hq hserves hclosed hc
    exact ⟨t, hexec, hc ▸ hresult, fun h => absurd hc h, fun _ => hopen⟩
  · obtain ⟨t, hexec, hresult, hstays⟩ := check_failed s hq hserves hclosed rfl hc
    exact ⟨t, hexec, hresult, fun _ => hstays, fun h => absurd h hc⟩

/-! ### Arming and closing -/

/-- The bits that hold of the first eight numbers, as `armWrite` gathers them. -/
def gathered (p : Nat → Bool) : BitVec 8 := BitVec.ofNat 8 (((List.range 8).filter p).foldl (fun x i => x + 2 ^ i) 0)

theorem gathered_sum (p : Nat → Bool) : gathered p = BitVec.ofNat 8 (b2n (p 0) + b2n (p 1) * 2 + b2n (p 2) * 4 + b2n (p 3) * 8 +
    b2n (p 4) * 16 + b2n (p 5) * 32 + b2n (p 6) * 64 + b2n (p 7) * 128) := by
  have hstep : (fun (x i : Nat) => if p i = true then x + 2 ^ i else x) = fun x i => x + b2n (p i) * 2 ^ i := by
    funext x i
    cases p i with
    | false => simp [b2n]
    | true => simp [b2n]
  unfold gathered
  rw [List.foldl_filter, hstep]
  simp only [show List.range 8 = [0, 1, 2, 3, 4, 5, 6, 7] from rfl, List.foldl_cons, List.foldl_nil]
  norm_num

theorem gathered_bits (p : Nat → Bool) {i : Nat} (hi : i < 8) : (gathered p).getLsbD i = p i := by
  have hall : ∀ b0 b1 b2 b3 b4 b5 b6 b7 : Bool, ∀ i < 8,
      (BitVec.ofNat 8 (b2n b0 + b2n b1 * 2 + b2n b2 * 4 + b2n b3 * 8 + b2n b4 * 16 + b2n b5 * 32 + b2n b6 * 64 + b2n b7 * 128)).getLsbD i =
        [b0, b1, b2, b3, b4, b5, b6, b7].getD i false := by decide
  rw [gathered_sum, hall _ _ _ _ _ _ _ _ i hi]
  interval_cases i <;> rfl

/-- What the session arms of what is asked. -/
def armed (s : State) (arm : BitVec 8) : BitVec 8 := gathered (fun i => arm.getLsbD i && armAllowed s i)

/-- The state of an arming, before the register shows it. -/
def disarmed (s : State) (a : BitVec 8) : State :=
  { s with cores := Vector.ofFn (fun n => disarm s.dbg.haltWrites a n.val s.cores[n]),
           dbg := { s.dbg with haltWrites := s.dbg.haltWrites.filter (fun e => a.getLsbD (2 * e.1 + b2n e.2.1)) } }

theorem armWrite_arms (s : State) (arm : BitVec 8) :
    armWrite s arm = setFieldR (disarmed s (armed s arm)) Reg.DBG_SESSION 2 8 (armed s arm).toNat := rfl

theorem bit_armed (s : State) (a : BitVec 8) {i : Nat} (hi : i < 8) :
    bitR (setFieldR (disarmed s a) Reg.DBG_SESSION 2 8 a.toNat) Reg.DBG_SESSION (2 + i) = a.getLsbD i := by
  unfold bitR bit
  rw [getR_setFieldR, getLsbD_withBits, if_pos (by omega), decide_eq_true (show 2 + i < 32 by omega), Bool.true_and,
    Nat.add_sub_cancel_left, BitVec.testBit_toNat]

/-- A core resumes in each world that is no longer halted. -/
theorem coreAt_resumed {s t : State} {n : Nat} (keepP keepS : Bool)
    (h : coreAt t n = resumeCore s.dbg.haltWrites n keepP keepS (coreAt s n)) :
    (coreAt t n).haltP = ((coreAt s n).haltP && keepP) ∧ (coreAt t n).haltS = ((coreAt s n).haltS && keepS) ∧
      (coreAt t n).plat = Resumed s n false (!keepP) ∧ (coreAt t n).sig = Resumed s n true (!keepS) := by
  rw [h]
  exact ⟨rfl, rfl, rfl, rfl⟩

theorem coreAt_disarmed (s : State) (a : BitVec 8) {n : Nat} (hn : n < 4) :
    coreAt (disarmed s a) n = resumeCore s.dbg.haltWrites n (a.getLsbD (2 * n)) (a.getLsbD (2 * n + 1)) (coreAt s n) := by
  unfold coreAt disarmed
  dsimp only
  rw [Vector.getElem?_eq_getElem hn, Vector.getElem_ofFn, Vector.getElem?_eq_getElem hn]
  rfl

theorem session_armed (s : State) (arm : BitVec 8) (hq : Quiet s) (hserves : pathServes s = true) : Leads (.dbgArm 32 arm) s (fun t =>
    (∀ i, i < 8 → bitR t Reg.DBG_SESSION (2 + i) = (BitVec.getLsbD arm i && armAllowed s i)) ∧
    (∀ n, n < 4 → (coreAt t n).haltP = ((coreAt s n).haltP && bitR t Reg.DBG_SESSION (2 + 2 * n)) ∧
      (coreAt t n).haltS = ((coreAt s n).haltS && bitR t Reg.DBG_SESSION (3 + 2 * n)) ∧
      (coreAt t n).plat = Resumed s n false (!bitR t Reg.DBG_SESSION (2 + 2 * n)) ∧
      (coreAt t n).sig = Resumed s n true (!bitR t Reg.DBG_SESSION (3 + 2 * n))) ∧
    (∀ e, e.1 < 4 → (e ∈ t.dbg.haltWrites ↔ e ∈ s.dbg.haltWrites ∧ bitR t Reg.DBG_SESSION (2 + 2 * e.1 + e.2.1.toNat) = true)) ∧
    OnlyRegs { s with cores := t.cores, dbg := { s.dbg with haltWrites := t.dbg.haltWrites } } t [Reg.DBG_SESSION] []) := by
  have hbits (i : Nat) (hi : i < 8) : (armed s arm).getLsbD i = (arm.getLsbD i && armAllowed s i) := gathered_bits _ hi
  have hexec : exec (.dbgArm 32 arm) s = done (setFieldR (disarmed s (armed s arm)) Reg.DBG_SESSION 2 8 (armed s arm).toNat) := by
    show execDbgArm 32 arm s = _
    unfold execDbgArm dbgWrite
    rw [if_pos rfl, if_pos hserves]
    dsimp only
    rw [if_pos rfl, armWrite_arms]
  generalize armed s arm = a at hbits hexec
  refine leads_done hexec hq ⟨fun i hi => (bit_armed s a hi).trans (hbits i hi), fun n hn => ?_, fun e he => ?_,
    onlyRegs_then_setR (onlyRegs_refl _ _) List.mem_cons_self _⟩
  · rw [bit_armed s a (show 2 * n < 8 by omega), show 3 + 2 * n = 2 + (2 * n + 1) by omega, bit_armed s a (show 2 * n + 1 < 8 by omega)]
    exact coreAt_resumed _ _ (coreAt_disarmed s a hn)
  · have hlow : e.2.1.toNat < 2 := by cases e.2.1 <;> decide
    rw [show 2 + 2 * e.1 + e.2.1.toNat = 2 + (2 * e.1 + e.2.1.toNat) by omega, bit_armed s a (by omega)]
    show e ∈ s.dbg.haltWrites.filter (fun e => a.getLsbD (2 * e.1 + b2n e.2.1)) ↔ _
    rw [List.mem_filter, show b2n e.2.1 = e.2.1.toNat by cases e.2.1 <;> rfl]

theorem arming_ignored (s : State) (m : Master) (arm : BitVec 8) (hq : Quiet s) (hm : MayWrite s m Reg.DBG_SESSION) (hother : m ≠ 32) :
    Leads (.dbgArm m arm) s (fun t => t = s) := by
  have hexec : exec (.dbgArm m arm) s = done s := by
    show execDbgArm m arm s = _
    unfold execDbgArm dbgWrite
    rw [if_neg hother, guardedWrite_permitted s m _ _ hm, if_neg hother]
  exact leads_done hexec hq rfl

/-- The state of a closing, before the registers show it. -/
def resumed (s : State) : State :=
  { s with cores := Vector.ofFn (fun n => resumeCore s.dbg.haltWrites n.val false false s.cores[n]),
           dbg := { s.dbg with cores := 0, haltWrites := [] } }

theorem coreAt_closed (s : State) (n : Nat) : coreAt (resumed s) n = { coreAt s n with
    haltP := false, haltS := false, plat := Resumed s n false true, sig := Resumed s n true true } := by
  unfold Resumed coreAt resumed
  dsimp only
  by_cases hn : n < 4
  · rw [Vector.getElem?_eq_getElem hn, Vector.getElem_ofFn, Vector.getElem?_eq_getElem hn]
    simp [resumeCore, worldOf]
  · rw [Vector.getElem?_eq_none (by omega), Vector.getElem?_eq_none (by omega)]
    rfl

theorem closeDebug_closes (s : State) : DebugClosed s (closeDebug s) := by
  obtain ⟨u, hu⟩ : ∃ u, clearR (resumed s) Reg.ILK_STATUS 3 = u := ⟨_, rfl⟩
  obtain ⟨v, hv⟩ : ∃ v, setR u Reg.DBG_SESSION 0 = v := ⟨_, rfl⟩
  have hclose : closeDebug s = setR64 v Reg.DBG_NOT_AFTER 0 := by
    rw [← hv, ← hu]
    rfl
  have hsame := sameRegs_setR64 v Reg.DBG_NOT_AFTER 0
  have hlevel : bitsOf (getR u Reg.ILK_STATUS) 0 2 = 0 := by
    rw [← hu, clearR, getR_setR_same, bitsOf_and]
    rw [show bitsOf (~~~(3 : Word)) 0 2 = 0 by decide, Nat.and_zero]
  have hcores : v.cores = (resumed s).cores := by
    rw [← hv, ← hu]
    rfl
  have hu' : OnlyRegs (resumed s) u [Reg.ILK_STATUS, Reg.DBG_SESSION, Reg.DBG_NOT_AFTER, Reg.DBG_NOT_AFTER + 4] [] :=
    hu ▸ onlyRegs_then_setR (onlyRegs_refl _ _) (by decide) _
  have hv' := hv ▸ onlyRegs_then_setR hu' (a := Reg.DBG_SESSION) (by decide) 0
  have honly := onlyRegs_then_setR64 hv' (a := Reg.DBG_NOT_AFTER) (by decide) (by decide) 0
  rw [hclose]
  refine ⟨?_, ?_, getR64_setR64 _ _ _, fun n => ?_, ?_⟩
  · rw [sessionLevel, fieldR, hsame _ (by decide), ← hv, getR_setR_other _ _ _ _ (by decide), hlevel]
  · rw [hsame _ (by decide), ← hv, getR_setR_same]
  · rw [← coreAt_closed]
    unfold coreAt
    rw [show (setR64 v Reg.DBG_NOT_AFTER 0).cores = v.cores from rfl, hcores]
  · rw [show (setR64 v Reg.DBG_NOT_AFTER 0).cores = v.cores from rfl, hcores]
    exact honly

theorem quiet_closeDebug {s : State} (hq : Quiet s) : Quiet (closeDebug s) := by
  obtain ⟨-, -, -, -, honly⟩ := closeDebug_closes s
  generalize closeDebug s = t at honly ⊢
  exact quiet_of_onlyRegs (s := { s with cores := t.cores, dbg := { s.dbg with cores := 0, haltWrites := [] } }) honly hq

theorem session_closed (s : State) (hq : Quiet s) (hserves : pathServes s = true) (hopen : sessionLevel s ≠ 0) :
    Leads (.dbgSessionClose 32) s (DebugClosed s) := by
  have hexec : exec (.dbgSessionClose 32) s = done (closeDebug s) := by
    show execDbgSessionClose 32 s = _
    unfold execDbgSessionClose dbgWrite
    rw [if_pos rfl, if_pos hserves]
    dsimp only
    rw [if_neg hopen]
  exact leads_done hexec (quiet_closeDebug hq) (closeDebug_closes s)

theorem session_expired (s : State) (hq : Quiet s) (hopen : sessionLevel s ≠ 0) (hlate : (getR64 s Reg.DBG_NOT_AFTER).toNat ≤ s.ttc.toNat) :
    Leads .debugSessionExpiry s (DebugClosed s) := by
  have hexec : exec .debugSessionExpiry s = done (closeDebug s) := by
    show execDebugSessionExpiry s = _
    unfold execDebugSessionExpiry
    rw [if_pos (by simp [hopen, hlate])]
  exact leads_done hexec (quiet_closeDebug hq) (closeDebug_closes s)

/-- Settles O40: a route moves whole, a comparison that fails stays reported, and a debug session opens, arms and closes as its
certificate allows. -/
theorem interlockingAndDebug : Obligations.InterlockingAndDebug :=
  ⟨routes, nonce_read, check_refused, session_checked, session_armed, arming_ignored, session_closed, session_expired⟩

end Sys2Proof.DebugSessions
end
